-- ==== Sys2Proof/Word.lean ====
section
/-! DEFINITION. The word types of the model and their plainest arithmetic: bytes, 64-bit registers, 64-byte lines,
and the two part numbers of R1. -/

namespace Sys2Proof

/-- One byte. -/
abbrev Byte := BitVec 8

/-- A 64-bit register (R5) or descriptor word. -/
abbrev Word := BitVec 64

/-- A line: 64 aligned bytes, bit 0 the least significant bit of the lowest byte (Table 0.4). -/
abbrev Line := BitVec 512

/-- The two part numbers (R1). -/
inductive Part where
  | f144
  | s72
  deriving DecidableEq, Repr

/-- Table 0.1: host ports. -/
def Part.hostPorts : Part → Nat
  | .f144 => 4
  | .s72 => 2

/-- Table 0.1: fabric ports. -/
def Part.fabricPorts : Part → Nat
  | .f144 => 16
  | .s72 => 8

/-- Table 0.1: porters. -/
def Part.porters : Part → Nat
  | .f144 => 32
  | .s72 => 16

/-- Table 0.1: near-memory channel controllers. -/
def Part.nmcs : Part → Nat
  | .f144 => 64
  | .s72 => 32

/-- Table 0.1: page-code regions. -/
def Part.pgcRegions : Part → Nat
  | .f144 => 8
  | .s72 => 0

/-- Table 0.1: stacked-DRAM devices. -/
def Part.stacks : Part → Nat
  | .f144 => 4
  | .s72 => 2

/-- R41: line-address bits taken directly into the set index. -/
def Part.setLowBits : Part → Nat
  | .f144 => 24
  | .s72 => 23

/-- R26: sets of the whole cache. -/
def Part.sets (p : Part) : Nat := 9 * 2 ^ p.setLowBits

/-- R28: house ways of the default partition. -/
def Part.houseWays : Part → Nat
  | .f144 => 1
  | .s72 => 2

/-- XLT instances present (R10, R2): one per host port and XLT[4]. -/
def Part.xltPresent (p : Part) (i : Nat) : Bool := i < p.hostPorts || i == 4

/-- What an array shows at one access: the environment decides whether its code finds an error (R386). -/
inductive ArrErr where
  /-- no error -/
  | none
  /-- an error that the code corrects -/
  | ce
  /-- an error that the code cannot correct -/
  | ue
  deriving DecidableEq, Repr

/-- `b` as a one-bit vector. -/
def bit (b : Bool) : BitVec 1 := if b then 1 else 0

/-- Bits `[lo+w-1:lo]` of a number. -/
def bits (x lo w : Nat) : Nat := x / 2 ^ lo % 2 ^ w

/-- Saturating increment by `k` up to `m`. -/
def satAdd (m x k : Nat) : Nat := min m (x + k)

/-- Ceiling division. -/
def ceilDiv' (a b : Nat) : Nat := (a + b - 1) / b

end Sys2Proof
end

