-- ==== Sys2Proof/Machine/Terms.lean ====
section
/-! DEFINITION. The operand types of the commands: messages, packets, host requests and command packets, as the spec
lays them out. -/

namespace Sys2Proof

/-- A coherence or global-access message (Table 5.5, Table 7.12), less the sending and receiving nodes, which stand in
the fabric header. -/
structure CohMsg where
  /-- OPC, Table 5.6 and Table 7.12 -/
  opc : Nat := 0
  /-- GRANT: a STATE code of Table 2.6, or zero -/
  grant : Nat := 0
  pf : Bool := false
  tkt : Bool := false
  ev : Bool := false
  kept : Bool := false
  discard : Bool := false
  destHome : Bool := false
  peek : Bool := false
  poison : Bool := false
  partialWr : Bool := false
  missF : Bool := false
  full : Bool := false
  unc : Bool := false
  /-- TID, 13 bits -/
  tid : Nat := 0
  /-- REQ, node number of the original requester -/
  req : Nat := 0
  /-- HTID, or the ticket number -/
  htid : Nat := 0
  /-- LA, line address MA[56:6] -/
  la : Nat := 0
  /-- the line that follows the header, where one does -/
  data : Line := 0
  /-- byte mask of a partial write -/
  mask : BitVec 64 := 0
  /-- operand block of Table 13.5 -/
  opnd : BitVec 384 := 0
  deriving DecidableEq, Repr

/-- A tree packet's payload (Table 13.1). -/
structure TreeMsg where
  /-- OP: 1 ARRIVE, 2 DOWN, 3 BREQ, 4 BCAST, 5 BACK, 6 BDONE, 7 BBUSY -/
  op : Nat := 0
  /-- TREE: true for the system tree -/
  sys : Bool := false
  gen : Nat := 0
  kinds : BitVec 2 := 0
  code : Nat := 0
  origin : Nat := 0
  ityp : Nat := 0
  ctx : Nat := 0
  /-- virtual page VA[56:12] -/
  vpage : Nat := 0
  deriving DecidableEq, Repr

/-- A time packet's payload (Table 12.7). -/
structure TimeMsg where
  response : Bool := false
  stratum : Nat := 255
  locked : Bool := false
  t1 : Nat := 0
  t2 : Nat := 0
  t3 : Nat := 0
  deriving DecidableEq, Repr

/-- A management fragment (R332): tag, index, count, total length and up to 192 bytes. -/
structure Fragment where
  tag : Nat := 0
  index : Nat := 0
  count : Nat := 0
  total : Nat := 0
  body : List Byte := []
  deriving DecidableEq, Repr

/-- A domain-fail notice (R404). -/
structure FailNotice where
  domain : Nat := 0
  digest : BitVec 32 := 0
  /-- 1 member dead, 2 fatal internal error -/
  cause : Nat := 0
  reporter : Nat := 0
  subject : Nat := 0
  deriving DecidableEq, Repr

/-- What a fabric packet carries, by TYPE (Table 12.5). -/
inductive PktBody where
  /-- TYPE 0, or TYPE 1 where the opcode is a global-access one -/
  | coh (glob : Bool) (m : CohMsg)
  /-- TYPE 2 -/
  | tree (t : TreeMsg)
  /-- TYPE 3 -/
  | time (t : TimeMsg)
  /-- TYPE 4 -/
  | heartbeat (domain state : Nat) (digest : BitVec 32)
  /-- TYPE 5: PHASE 1 JOIN, 2 READY -/
  | member (phase domain : Nat) (digest : BitVec 32)
  /-- TYPE 6 -/
  | fail (n : FailNotice)
  /-- TYPE 7 -/
  | mgt (f : Fragment)
  /-- TYPE 8: the first two slots of the discarded packet -/
  | routeFail (hdr slot : BitVec 128)
  /-- TYPE 9 on VN0 -/
  | put (tq porter seq : Nat) (cell : Line)
  /-- TYPE 9 on VN2 -/
  | putAnswer (porter seq : Nat) (status : Word)
  /-- TYPE 10 (R501) -/
  | linkReport (port peerPort : Nat) (rseq : Option Nat)
  /-- TYPE 11 to 15, with its payload slots: it crosses a router as it stands -/
  | unused (typ : Nat) (slots : List (BitVec 128))
  deriving DecidableEq, Repr

/-- A fabric packet: the header of Table 12.4 and the body. -/
structure Packet where
  dst : Nat
  src : Nat
  vn : Nat
  /-- CLS: true for bulk -/
  bulk : Bool := false
  vc : Nat := 0
  /-- the VC on which it came to this router, while it waits at an output (R319, R321) -/
  arr : Nat := 0
  /-- the port whose input buffer holds it, plus 1, while it waits before the router; 0 when none does (R316) -/
  inp : Nat := 0
  hops : Nat := 0
  oseq : Nat := 0
  alt : Bool := false
  body : PktBody
  deriving DecidableEq, Repr

/-- An ident block (R309, R501). -/
structure IdentBlk where
  valid : Bool
  node : Nat
  port : Nat
  part : Nat
  domain : Nat
  digest : BitVec 32
  /-- SEQ of the last data flit received in order, in a block sent when a link retrains after going down -/
  rseq : Option Nat
  deriving DecidableEq, Repr

/-- The kinds of CXL.mem request. -/
inductive CxlOp where
  /-- MemRd -/
  | read
  /-- MemWr or MemWrPtl -/
  | write
  /-- a part of CXL that Table 6.1 lists as not supported -/
  | unsupported
  /-- BIConflict (R166) -/
  | biConflict
  deriving DecidableEq, Repr

/-- A CXL.mem request as it reaches the link's transaction layer. -/
structure CxlReq where
  op : CxlOp
  /-- device physical address (R156) -/
  dpa : Nat
  data : Line := 0
  /-- byte enables of a write -/
  be : BitVec 64 := 0
  /-- a write marked poisoned by the host -/
  poison : Bool := false
  /-- the read asks for metadata state S or A (R165) -/
  copy : Bool := false
  /-- the read asks for A: an exclusive copy -/
  excl : Bool := false
  tag : BitVec 16 := 0
  deriving DecidableEq, Repr

/-- What the codes find in the arrays that one command reads on its own account: the environment decides (R386). -/
structure Finds where
  /-- at the data-way reads, in the order in which they are made; no error once the list is used up (R39, R65) -/
  way : List ArrErr := []
  /-- at the tag-block reads of lookups other than a demand's, likewise (R42, R387) -/
  tag : List ArrErr := []
  /-- at the set-record reads, likewise (R38, R39) -/
  recs : List ArrErr := []
  /-- the tag-cache entry that such a lookup meets has an uncorrectable error (R52) -/
  tcUe : Bool := false
  /-- the directory-cache entry that a lookup meets has an uncorrectable error (R121) -/
  dc : Bool := false
  /-- directory banks with a store set that the down sweep cannot read (R406) -/
  dirs : List Nat := []
  /-- so has the entry that a lookup meets in the L1 TLB, in the L2 TLB, in the walk cache (R297) -/
  tlb1 : Bool := false
  tlb2 : Bool := false
  wc : Bool := false
  /-- units whose other on-die arrays have corrected an error (R398, Table 15.1) -/
  ce : List Nat := []
  /-- at the read of a zero-map line (R403) -/
  zmap : ArrErr := .none
  /-- the HSF entry that it reads has an uncorrectable error (R404) -/
  hsf : Bool := false
  /-- trace records that a parity error has lost (Table 15.1) -/
  trc : List Nat := []
  /-- in a page that the page code decodes: the other lines read as uncorrectable, and the symbols in error beyond their line codes (R394) -/
  pgc : Nat × Nat := (0, 0)
  deriving DecidableEq, Repr

/-- The population of one far channel as its SPD reports it (R255). -/
structure ChanPop where
  /-- 0: 16 Gb, 1: 32 Gb, 2: 64 Gb -/
  density : Nat
  dimms : Nat
  ranksPerDimm : Nat
  partNo : Nat
  x4 : Bool
  /-- the two DIMMs of the channel have different part numbers -/
  mixed : Bool := false
  deriving DecidableEq, Repr

/-- The command that failed, as CH_FRZ1 holds it (Table 10.10). -/
structure FrzCmd where
  cmd : Nat := 0
  rank : Nat := 0
  cu : Nat := 0
  bank : Nat := 0
  col : Nat := 0
  row : Nat := 0
  deriving DecidableEq, Repr

/-- The carrier of a command packet (Table 17.1). -/
inductive Transport where
  | mailbox (link : Nat)
  | mctp (endpoint : Nat)
  | fabric (node : Nat)
  deriving DecidableEq, Repr

/-- The command header of Table 17.2, less OPCODE, with its carrier. -/
structure CmdHdr where
  via : Transport
  tag : BitVec 16 := 0
  flags : BitVec 8 := 0
  version : BitVec 8 := 1
  plen : Nat := 0
  /-- bytes 8–27 -/
  zeros : BitVec 160 := 0
  checksum : BitVec 32 := 0
  deriving DecidableEq, Repr

/-- The bodies of command packets: the opcodes of Table 17.5 with their parameters. -/
inductive CmdBody where
  | identify
  | status
  | setState (st : BitVec 8)
  | partSetFlat (f : BitVec 8)
  | cacheMode (m : BitVec 8)
  | rangeOp (op flags : BitVec 8) (base len : Word)
  | unretire (slice : BitVec 8) (set : BitVec 32) (way : BitVec 8)
  | chThaw (kind ch : BitVec 8)
  | chRetrain (kind ch : BitVec 8)
  | pasrSet (mask : BitVec 8)
  | ppr (ch sub rank bg bank : BitVec 8) (row : BitVec 32) (kind : BitVec 8)
  | chRawRead (kind ch : BitVec 8) (addr : Word) (count : BitVec 16)
  | chRawWrite (kind ch : BitVec 8) (addr : Word) (data : Line)
  | domSet (domain : BitVec 8) (presence : BitVec 128)
  | domJoin
  | domReform
  | nodeSet (node : BitVec 16)
  | fabPort (port action : BitVec 8)
  | fabClrUnreach (node : BitVec 16)
  | timeSet (markMt : Word)
  | ledgerRead (first count : BitVec 16)
  | ledgerClear
  | tallyRoute (entries : List (BitVec 8 × BitVec 8 × BitVec 16))
  | traceSetup (f0 f1 f2 cfg : Word)
  | fwInfo
  | fwErase
  | fwWrite (off : BitVec 32) (bytes : List Byte)
  | fwVerify
  | fwActivate
  | bistRun (target inst pattern : BitVec 8)
  | repairStatus
  /-- an opcode absent from Table 17.5, with its parameter bytes -/
  | other (op : BitVec 16) (params : List Byte)
  deriving DecidableEq, Repr

/-- What a coherence timeout (R328) is about. -/
inductive CohWait where
  | mr (slice reg : Nat)
  | tracker (slice htid : Nat)
  | recall (bank r : Nat)
  deriving DecidableEq, Repr

/-- What a fabric deadline (R182) is about. -/
inductive DlWait where
  | mr (slice reg : Nat)
  | vb (slice entry : Nat)
  | put (porter seq : Nat)
  deriving DecidableEq, Repr

/-- What a speculative translation is made for (R291). -/
inductive SpecFor where
  /-- the next page of a running descriptor's source or destination -/
  | porter (p seq : Nat) (dst : Bool)
  /-- the page after two successive adjacent misses of a link -/
  | link (l : Nat)
  deriving DecidableEq, Repr

end Sys2Proof
end

