-- ==== Sys2Proof/Syntax.lean ====
section
/-! DEFINITION. The commands: one constructor per row of spec/opcode_table.json, with the row's operands. What the
environment brings (an error an array shows, a training result, a host's answer, a received message) is an operand. -/

namespace Sys2Proof

/-- The commands the E9 takes. -/
inductive Instr where
  /-- POWER_GOOD_RISE (R419) -/
  | powerGoodRise (halves : BitVec 4) (railsOk resetLow : Bool)
  /-- POWER_GOOD_FALL (R424) -/
  | powerGoodFall
  /-- RESET_N_ASSERT (R419) -/
  | resetNAssert
  /-- WARM (R419) -/
  | warm (link : Nat)
  /-- RESET_N_RELEASE (R412) -/
  | resetNRelease
  /-- BRINGUP_STEP_1_END (R412) -/
  | bringupStep1End (fuseOk : Bool)
  /-- BRINGUP_STEP_2_END (R417) -/
  | bringupStep2End
  /-- BRINGUP_STEP_3_END (R412) -/
  | bringupStep3End (spd : List ChanPop) (trained : BitVec 8)
  /-- BRINGUP_STEP_4_END (R412) -/
  | bringupStep4End (farOk : BitVec 8) (nearOk : BitVec 64)
  /-- BRINGUP_STEP_5_START (R414) -/
  | bringupStep5Start
  /-- STOP_AT_RAISE (R412) -/
  | stopAtRaise (v : BitVec 2)
  /-- NODE_SET (R426) -/
  | nodeSet (h : CmdHdr) (node : BitVec 16)
  /-- CLERK_RESTART (R418) -/
  | clerkRestart
  /-- CLERK_TRAP (R402) -/
  | clerkTrap (clerk : Nat)
  /-- RAIL_FAULT (R476) -/
  | railFault (rail : Nat)
  /-- THERMAL_TRIP (R486) -/
  | thermalTrip (sensor : Nat)
  /-- CXL_MEM_REQUEST (R159) -/
  | cxlMemRequest (link : Nat) (r : CxlReq) (fd : Finds)
  /-- HDM_DECODER_COMMIT (R155) -/
  | hdmDecoderCommit (link dec base size ways gran : Nat)
  /-- CREDIT_RETURN (R160) -/
  | creditReturn (link : Nat)
  /-- HOST_DEADLINE (R164) -/
  | hostDeadline (rid : Nat)
  /-- HOST_LINK_HOT_RESET (R171) -/
  | hostLinkHotReset (link : Nat)
  /-- IDE_INTEGRITY_FAILURE (R170) -/
  | ideIntegrityFailure (link : Nat)
  /-- BIRSP (R166) -/
  | birsp (id : Nat) (dirty : Option (Line × Bool)) (fd : Finds)
  /-- BISNP_TIMEOUT (R168) -/
  | bisnpTimeout (id : Nat) (fd : Finds)
  /-- BAD_REGISTER_ACCESS (R464) -/
  | badRegisterAccess (link off size : Nat) (write : Bool)
  /-- REGISTER_WRITE (R465) -/
  | registerWrite (link off size : Nat) (v : Word)
  /-- TAG_PIPELINE_LOOKUP (R62) -/
  | tagPipelineLookup (n idx : Nat) (hsfUe : Bool) (fd : Finds)
  /-- TAG_BLOCK_READ_DONE (R48) -/
  | tagBlockReadDone (n q : Nat) (te : ArrErr) (fd : Finds)
  /-- FILL_INSTALL (R81) -/
  | fillInstall (n i : Nat) (fd : Finds)
  /-- WAY_RETIRE (R110) -/
  | wayRetire (n set way : Nat) (fd : Finds)
  /-- INVALIDATE (R58) -/
  | invalidate (n : Nat)
  /-- FLUSH (R58) -/
  | flush (n : Nat)
  /-- TAG_CACHE_DISABLE (R58) -/
  | tagCacheDisable (n : Nat)
  /-- TAG_CACHE_ACTION_DONE (R58) -/
  | tagCacheActionDone (n : Nat)
  /-- WAY_PREDICTOR_CLEAR (R59) -/
  | wayPredictorClear (n : Nat)
  /-- STREAM_TABLE_CLEAR (R91) -/
  | streamTableClear (n : Nat)
  /-- MR_HWM_RESET (R92) -/
  | mrHwmReset (n : Nat)
  /-- VB_HWM_RESET (R92) -/
  | vbHwmReset (n : Nat)
  /-- RDS (R130) -/
  | rds (src : Nat) (m : CohMsg) (fd : Finds)
  /-- RDX (R130) -/
  | rdx (src : Nat) (m : CohMsg) (fd : Finds)
  /-- UPG (R130) -/
  | upg (src : Nat) (m : CohMsg) (fd : Finds)
  /-- WBD (R136) -/
  | wbd (src : Nat) (m : CohMsg) (fd : Finds)
  /-- OFFER (R86) -/
  | offer (src : Nat) (m : CohMsg) (fd : Finds)
  /-- IWR (R141) -/
  | iwr (src : Nat) (m : CohMsg) (fd : Finds)
  /-- ATOM (R142) -/
  | atom (src : Nat) (m : CohMsg) (fd : Finds)
  /-- DIRECTORY_STORE_READ_DONE (R119) -/
  | directoryStoreReadDone (n htid : Nat) (errs : List ArrErr) (fd : Finds)
  /-- CHAINED_REQUEST_START (R128) -/
  | chainedRequestStart (n la : Nat) (fd : Finds)
  /-- TICKET_EXPIRY (R138) -/
  | ticketExpiry (n htid : Nat)
  /-- INV (R132) -/
  | inv (src : Nat) (m : CohMsg) (fd : Finds)
  /-- FWDS (R132) -/
  | fwds (src : Nat) (m : CohMsg) (fd : Finds)
  /-- FWDX (R132) -/
  | fwdx (src : Nat) (m : CohMsg) (fd : Finds)
  /-- HOLD_EXPIRY (R134) -/
  | holdExpiry (n la : Nat) (fd : Finds)
  /-- ACK (R129) -/
  | ack (src : Nat) (m : CohMsg) (fd : Finds)
  /-- DATA (R76) -/
  | data (src : Nat) (m : CohMsg) (fd : Finds)
  /-- DATAO (R131) -/
  | datao (src : Nat) (m : CohMsg) (fd : Finds)
  /-- RETRY (R139) -/
  | retry (src : Nat) (m : CohMsg)
  /-- RETRY_GAP_EXPIRY (R139) -/
  | retryGapExpiry (n home opc : Nat)
  /-- NACK_DOWN (R147) -/
  | nackDown (src : Nat) (m : CohMsg) (fd : Finds)
  /-- NACK_RANGE (R127) -/
  | nackRange (src : Nat) (m : CohMsg) (fd : Finds)
  /-- COH_TIMEOUT (R328) -/
  | cohTimeout (w : CohWait)
  /-- GRD (R180) -/
  | grd (src : Nat) (m : CohMsg) (fd : Finds)
  /-- GWR (R180) -/
  | gwr (src : Nat) (m : CohMsg) (fd : Finds)
  /-- GATOM (R180) -/
  | gatom (src : Nat) (m : CohMsg) (fd : Finds)
  /-- GDATA (R180) -/
  | gdata (src : Nat) (m : CohMsg)
  /-- GACK (R190) -/
  | gack (src : Nat) (m : CohMsg) (fd : Finds)
  /-- GBUSY (R181) -/
  | gbusy (src : Nat) (m : CohMsg)
  /-- FABRIC_DEADLINE_EXPIRY (R182) -/
  | fabricDeadlineExpiry (w : DlWait) (fd : Finds)
  /-- PWB_ENTRY (R187) -/
  | pwbEntry (rid : Nat)
  /-- PWB_ISSUE (R188) -/
  | pwbIssue (link : Nat)
  /-- PWB_DEADLINE_EXPIRY (R191) -/
  | pwbDeadlineExpiry (link seq : Nat)
  /-- PWB_HWM_RESET (R210) -/
  | pwbHwmReset (link : Nat)
  /-- ACQUIRE_LOAD_RESPONSE (R184) -/
  | acquireLoadResponse (rid : Nat)
  /-- FENCE_READ (R193) -/
  | fenceRead (link off size : Nat)
  /-- FENCE_LOCAL_WAITS_DONE (R337) -/
  | fenceLocalWaitsDone (fid : Nat)
  /-- FENCE_DEADLINE (R198) -/
  | fenceDeadline (fid : Nat)
  /-- ARRIVE (R345) -/
  | arrive (src : Nat) (m : TreeMsg)
  /-- DOWNDRAFT (R347) -/
  | downdraft (src : Nat) (m : TreeMsg)
  /-- BREQ (R351) -/
  | breq (src : Nat) (m : TreeMsg)
  /-- BBUSY (R351) -/
  | bbusy (src : Nat) (m : TreeMsg)
  /-- BCAST (R351) -/
  | bcast (src : Nat) (m : TreeMsg)
  /-- BACK (R351) -/
  | back (src : Nat) (m : TreeMsg)
  /-- BDONE (R351) -/
  | bdone (src : Nat) (m : TreeMsg)
  /-- SYSTEM_TREE_WRITE (R342) -/
  | systemTreeWrite (link off size : Nat) (v : Word)
  /-- LEASE_EPOCH_ADVANCE (R203) -/
  | leaseEpochAdvance (entry : Nat)
  /-- UNLOCKED_LEASE_ADVANCE (R203) -/
  | unlockedLeaseAdvance
  /-- EPOCH_STEP_START (R206) -/
  | epochStepStart
  /-- ROSTER_SWEEP (R206) -/
  | rosterSweep (n : Nat)
  /-- EPOCH_STEP_COMPLETE (R206) -/
  | epochStepComplete
  /-- WALK_START (R287) -/
  | walkStart (job : Nat) (fd : Finds)
  /-- WALK_TABLE_READ_DONE (R288) -/
  | walkTableReadDone (x w : Nat)
  /-- WALK_CAS_DONE (R289) -/
  | walkCasDone (x w : Nat)
  /-- WALK_LIMIT (R290) -/
  | walkLimit (x w : Nat)
  /-- SPECULATIVE_WALK_START (R291) -/
  | speculativeWalkStart (x : Nat) (f : SpecFor) (fd : Finds)
  /-- TLB_ENTRY_AGE_OUT (R296) -/
  | tlbEntryAgeOut (x : Nat)
  /-- ADDRESS (R300) -/
  | address (link ctx scope : Nat)
  /-- CONTEXT (R300) -/
  | context (link ctx scope : Nat)
  /-- ALL (R300) -/
  | all (link scope : Nat)
  /-- INVALIDATION_LIMIT (R301) -/
  | invalidationLimit
  /-- CONTEXT_REGISTER_WRITE (R282) -/
  | contextRegisterWrite (link off size : Nat) (v : Word)
  /-- TRAINING_STATE_COMPLETE (R308) -/
  | trainingStateComplete (p : Nat) (lanes : BitVec 8)
  /-- IDENT_BLOCK (R309) -/
  | identBlock (p : Nat) (b : IdentBlk)
  /-- FLIT (R314) -/
  | flit (p : Nat) (f : BitVec 2048)
  /-- NAK (R314) -/
  | nak (p ackSeq : Nat)
  /-- NO_FLIT_TIMEOUT (R314) -/
  | noFlitTimeout (p : Nat)
  /-- FLIT_PACK (R317) -/
  | flitPack (p : Nat)
  /-- ROUTE_PACKET (R319) -/
  | routePacket (ue : Bool)
  /-- OSEQ_GAP_TIMEOUT (R324) -/
  | oseqGapTimeout (src : Nat)
  /-- ROUTE_FAIL_NOTICE (R323) -/
  | routeFailNotice (src : Nat) (hdr slot : BitVec 128)
  /-- LINK_REPORT (R501) -/
  | linkReport (src port peerPort : Nat) (rseq : Option Nat)
  /-- LINK_REPORT_TIMEOUT (R501) -/
  | linkReportTimeout (p : Nat)
  /-- TIME_EXCHANGE (R216) -/
  | timeExchange (p : Nat)
  /-- TIME_PACKET (R325) -/
  | timePacket (p : Nat) (t : TimeMsg) (replayed : Bool)
  /-- HEARTBEAT_SEND (R326) -/
  | heartbeatSend
  /-- HEARTBEAT (R326) -/
  | heartbeat (src domain state : Nat) (digest : BitVec 32)
  /-- MEMBER_DEAD (R327) -/
  | memberDead (m : Nat)
  /-- JOIN (R330) -/
  | join (src domain : Nat) (digest : BitVec 32)
  /-- READY (R330) -/
  | ready (src domain : Nat) (digest : BitVec 32)
  /-- MEMBERSHIP_BEAT (R330) -/
  | membershipBeat
  /-- DOM_JOIN_TIMEOUT (R330) -/
  | domJoinTimeout
  /-- MANAGEMENT_FRAGMENT (R333) -/
  | managementFragment (src : Nat) (f : Fragment)
  /-- REASSEMBLY_TIMEOUT (R333) -/
  | reassemblyTimeout (buf : Nat)
  /-- DOMAIN_FAIL_NOTICE (R404) -/
  | domainFailNotice (src : Nat) (f : FailNotice)
  /-- RETRAIN (R314) -/
  | retrain (p : Nat)
  /-- PORT_ENABLE_WRITE (R314) -/
  | portEnableWrite (p : Nat) (en : Bool)
  /-- DOM_SET (R329) -/
  | domSet (h : CmdHdr) (domain : BitVec 8) (presence : BitVec 128)
  /-- DOM_JOIN (R330) -/
  | domJoin (h : CmdHdr)
  /-- FAB_PORT (R335) -/
  | fabPort (h : CmdHdr) (port action : BitVec 8)
  /-- FAB_CLR_UNREACH (R335) -/
  | fabClrUnreach (h : CmdHdr) (node : BitVec 16)
  /-- MT_REF_PRESENT (R218) -/
  | mtRefPresent
  /-- MT_REF_LOST (R218) -/
  | mtRefLost
  /-- MT_MARK_EDGE (R213) -/
  | mtMarkEdge
  /-- MT_HOLD_END (R220) -/
  | mtHoldEnd
  /-- TIME_SET (R215) -/
  | timeSet (h : CmdHdr) (markMt : Word)
  /-- SCHEDULE_ENTRY_WRITE (R225) -/
  | scheduleEntryWrite (link off size : Nat) (v : Word)
  /-- MTU_NOW_READ (R237) -/
  | mtuNowRead (link : Nat)
  /-- GUARD_START (R229) -/
  | guardStart
  /-- LULL_START (R229) -/
  | lullStart
  /-- LULL_END (R232) -/
  | lullEnd
  /-- LULL_SEGMENT_START (R270) -/
  | lullSegmentStart (c : Nat)
  /-- LULL_SEGMENT_DONE (R232) -/
  | lullSegmentDone (c : Nat) (ok : Bool) (errs : List (Nat × ArrErr))
  /-- REFRESH_CADENCE_PHASE (R262) -/
  | refreshCadencePhase (entry : Nat)
  /-- FREE_RUNNING_REFRESH (R264) -/
  | freeRunningRefresh (c : Nat)
  /-- SCRUB_STEP (R397) -/
  | scrubStep (entry : Nat) (errs : List (Nat × Nat × ArrErr))
  /-- DIRECTORY_SWEEP (R226) -/
  | directorySweep (entry : Nat)
  /-- COUNTER_SNAPSHOT (R453) -/
  | counterSnapshot (entry : Nat)
  /-- LEAKY_BUCKET_LEAK (R398) -/
  | leakyBucketLeak (entry : Nat)
  /-- THERMAL_SAMPLE (R484) -/
  | thermalSample (entry : Nat) (temps : List (BitVec 16))
  /-- COMMAND_SLOT_PICK (R258) -/
  | commandSlotPick (c u : Nat) (e : ArrErr) (fd : Finds)
  /-- ROW_IDLE_TIMEOUT (R260) -/
  | rowIdleTimeout (c u bank : Nat)
  /-- SELF_REFRESH_ENTRY (R272) -/
  | selfRefreshEntry (c : Nat)
  /-- SELF_REFRESH_EXIT (R272) -/
  | selfRefreshExit (c : Nat) (fd : Finds)
  /-- CHANNEL_FREEZE (R274) -/
  | channelFreeze (c cause : Nat) (f : FrzCmd)
  /-- MERGE_BUFFER_TIMEOUT (R390) -/
  | mergeBufferTimeout (c u addr : Nat) (e : ArrErr) (fd : Finds)
  /-- PASR_SET (R273) -/
  | pasrSet (h : CmdHdr) (mask : BitVec 8)
  /-- CH_THAW (R276) -/
  | chThaw (h : CmdHdr) (kind ch : BitVec 8)
  /-- CH_RETRAIN (R279) -/
  | chRetrain (h : CmdHdr) (kind ch : BitVec 8)
  /-- CH_RAW_READ (R441) -/
  | chRawRead (h : CmdHdr) (kind ch : BitVec 8) (addr : Word) (count : BitVec 16)
  /-- CH_RAW_WRITE (R441) -/
  | chRawWrite (h : CmdHdr) (kind ch : BitVec 8) (addr : Word) (data : Line)
  /-- PORTER_FETCH (R365) -/
  | porterFetch (p : Nat) (ue : List Nat) (fd : Finds)
  /-- PORTER_ACTIVATE (R366) -/
  | porterActivate (p : Nat)
  /-- PIECE_ISSUE (R367) -/
  | pieceIssue (p : Nat) (fd : Finds)
  /-- PIECE_RESPONSE (R202) -/
  | pieceResponse (p pid : Nat)
  /-- RECORD_RETRY (R372) -/
  | recordRetry (p : Nat)
  /-- QUEUE_PUT (R369) -/
  | queuePut (src tq porter seq : Nat) (cell : Line)
  /-- PUT_ANSWER (R370) -/
  | putAnswer (src porter seq : Nat) (status : Word)
  /-- NOTIFY_RETRY (R370) -/
  | notifyRetry (p seq : Nat)
  /-- ABORT_ONE (R373) -/
  | abortOne (link p : Nat) (seq : BitVec 32)
  /-- ABORT_ALL (R373) -/
  | abortAll (link p : Nat)
  /-- RESUME (R374) -/
  | resume (link p : Nat)
  /-- PORTER_DISABLE (R375) -/
  | porterDisable (link p : Nat)
  /-- ENQUEUE (R379) -/
  | enqueue (ue qs : List Nat) (fd : Finds)
  /-- PUSH (R382) -/
  | push (link k n size : Nat)
  /-- ADVANCE (R383) -/
  | advance (link k : Nat) (adv : BitVec 7) (ue : List Nat) (fd : Finds)
  /-- DROP_PACKET (R383) -/
  | dropPacket (link k : Nat) (ue : List Nat) (fd : Finds)
  /-- QUEUE_FLUSH (R383) -/
  | queueFlush (link k : Nat) (ue : List Nat) (fd : Finds)
  /-- CLEAR (R383) -/
  | clear (link k : Nat)
  /-- QUEUE_DISABLE (R378) -/
  | queueDisable (link q : Nat)
  /-- DOMAIN_DOWN_ENTRY (R405) -/
  | domainDownEntry (fd : Finds)
  /-- PAGE_CODE_ENABLE (R396) -/
  | pageCodeEnable (link r : Nat)
  /-- PAGE_CODE_INIT_DONE (R396) -/
  | pageCodeInitDone (r : Nat)
  /-- ARM (R399) -/
  | arm (link : Nat) (v : Word)
  /-- PPR (R400) -/
  | ppr (h : CmdHdr) (ch sub rank bg bank : BitVec 8) (row : BitVec 32) (kind : BitVec 8)
  /-- DOM_REFORM (R407) -/
  | domReform (h : CmdHdr)
  /-- LEDGER_READ (R409) -/
  | ledgerRead (h : CmdHdr) (first count : BitVec 16)
  /-- LEDGER_CLEAR (R409) -/
  | ledgerClear (h : CmdHdr)
  /-- PART_SET_FLAT (R100) -/
  | partSetFlat (h : CmdHdr) (f : BitVec 8)
  /-- CACHE_MODE (R108) -/
  | cacheMode (h : CmdHdr) (m : BitVec 8)
  /-- RANGE_OP (R105) -/
  | rangeOp (h : CmdHdr) (op flags : BitVec 8) (base len : Word)
  /-- MAINTENANCE_LOOKUP (R106) -/
  | maintenanceLookup (n : Nat) (fd : Finds)
  /-- RANGE_OP_COMPLETE (R107) -/
  | rangeOpComplete
  /-- UNRETIRE (R112) -/
  | unretire (h : CmdHdr) (slice : BitVec 8) (set : BitVec 32) (way : BitVec 8)
  /-- IDENTIFY (R440) -/
  | identify (h : CmdHdr)
  /-- STATUS (R440) -/
  | status (h : CmdHdr)
  /-- SET_STATE (R438) -/
  | setState (h : CmdHdr) (st : BitVec 8)
  /-- FW_INFO (R440) -/
  | fwInfo (h : CmdHdr)
  /-- FW_ERASE (R442) -/
  | fwErase (h : CmdHdr)
  /-- FW_WRITE (R442) -/
  | fwWrite (h : CmdHdr) (off : BitVec 32) (bytes : List Byte)
  /-- FW_VERIFY (R442) -/
  | fwVerify (h : CmdHdr)
  /-- FW_ACTIVATE (R442) -/
  | fwActivate (h : CmdHdr)
  /-- TALLY_ROUTE (R462) -/
  | tallyRoute (h : CmdHdr) (entries : List (BitVec 8 × BitVec 8 × BitVec 16))
  /-- TRACE_SETUP (R462) -/
  | traceSetup (h : CmdHdr) (f0 f1 f2 cfg : Word)
  /-- START (R450) -/
  | start (link u : Nat) (mask : BitVec 8)
  /-- STOP (R450) -/
  | stop (link u : Nat) (mask : BitVec 8)
  /-- COUNTER_CLEAR (R461) -/
  | counterClear (link u : Nat)
  /-- EVSEL_WRITE (R451) -/
  | evselWrite (link u i : Nat) (evsel : BitVec 16)
  /-- ROUTING_DONE (R451) -/
  | routingDone (u i : Nat)
  /-- CAPTURE (R458) -/
  | capture (link : Nat)
  /-- BOUND_CLEAR (R250) -/
  | boundClear (link port : Nat)
  /-- BIST_RUN (R496) -/
  | bistRun (h : CmdHdr) (target inst pattern : BitVec 8)
  /-- BIST_COMPLETE (R496) -/
  | bistComplete (result fails firstAddr : Nat) (arrays : List (Nat × Nat × Bool))
  /-- REPAIR_STATUS (R497) -/
  | repairStatus (h : CmdHdr)
  /-- TEST_LOGIC_RESET (R490) -/
  | testLogicReset
  /-- EXTEST (R493) -/
  | extest (tdi : BitVec 2400)
  /-- IDCODE (R492) -/
  | idcode
  /-- SAMPLE_PRELOAD (R493) -/
  | samplePreload (tdi : BitVec 2400)
  /-- EXTEST_PULSE (R493) -/
  | extestPulse (tdi : BitVec 2400)
  /-- EXTEST_TRAIN (R493) -/
  | extestTrain (tdi : BitVec 2400)
  /-- CLAMP (R493) -/
  | clamp
  /-- HIGHZ (R493) -/
  | highz
  /-- REPAIR_SCAN (R498) -/
  | repairScan
  /-- BYPASS (R491) -/
  | bypass (code : BitVec 8)
  /-- MT_MARK_MISSING (R218) -/
  | mtMarkMissing
  /-- NEIGHBOUR_STAMP_TIMEOUT (R218) -/
  | neighbourStampTimeout
  /-- HALF_RATE_CATCH_UP_END (R220) -/
  | halfRateCatchUpEnd
  /-- LANE_LOCK_LOST (R314) -/
  | laneLockLost (p : Nat)
  /-- RAILS_IN_RANGE (R476) -/
  | railsInRange
  /-- HOST_LINK_UP (R171) -/
  | hostLinkUp (link rate width : Nat) (ide flitLo : Bool)
  /-- MEMORY_READ_DONE (R67) -/
  | memoryReadDone (tok : Nat) (fd : Finds)
  /-- BAD_OPCODE_COMMAND (R439) -/
  | badOpcodeCommand (h : CmdHdr) (op : BitVec 16) (params : List Byte)
  /-- TALLY_LOW_HALF_READ (R452) -/
  | tallyLowHalfRead (link off : Nat)
  /-- DOMAIN_FAIL_NOTICE_RESEND (R404) -/
  | domainFailNoticeResend
  /-- CHANNEL_TRAINING_COMPLETE (R276) -/
  | channelTrainingComplete (c : Nat) (ok : Bool)
  deriving DecidableEq, Repr

end Sys2Proof
end

