-- ==== Sys2Proof/WellFormed.lean ====
section
/-! DEFINITION. Well-formed commands: every operand lies in the range the spec gives it. -/

namespace Sys2Proof

/-- Ranges of Table 5.5. -/
def CohMsg.wf (m : CohMsg) : Bool :=
  m.opc < 32 && m.grant < 8 && m.tid < 8192 && m.req < 32768 && m.htid < 1024 && m.la < 2 ^ 51

/-- Ranges of Table 13.1. -/
def TreeMsg.wf (t : TreeMsg) : Bool :=
  t.op < 16 && t.gen < 256 && t.code < 256 && t.origin < 32768 && t.ityp < 4 && t.ctx < 4096 && t.vpage < 2 ^ 45

/-- Ranges of Table 12.7. -/
def TimeMsg.wf (t : TimeMsg) : Bool :=
  t.stratum < 256 && t.t1 < 2 ^ 64 && t.t2 < 2 ^ 64 && t.t3 < 2 ^ 64

/-- R332: at most 192 bytes in a fragment, and an index below the count. -/
def Fragment.wf (f : Fragment) : Bool :=
  f.tag < 65536 && f.count < 256 && f.index < f.count && f.total < 2 ^ 32 && f.body.length ≤ 192

/-- Ranges of R404. -/
def FailNotice.wf (f : FailNotice) : Bool :=
  f.domain < 256 && (f.cause == 1 || f.cause == 2) && f.reporter < 65536 && f.subject < 65536

/-- Ranges of R309. -/
def IdentBlk.wf (b : IdentBlk) : Bool :=
  b.node < 32768 && b.port < 16 && b.domain < 256 && (b.valid || b.node == 0) &&
  (match b.rseq with | none => true | some r => r < 1024)

/-- A CXL.mem request addresses one line. -/
def CxlReq.wf (r : CxlReq) : Bool := r.dpa % 64 == 0 && r.dpa < 2 ^ 64

/-- Ranges of Table 17.2. -/
def CmdHdr.wf (h : CmdHdr) : Bool :=
  h.plen < 65536 && (match h.via with | .mailbox l => l < 8 | .mctp e => e < 256 | .fabric n => n < 32768)

/-- Ranges of the waits of R328. -/
def CohWait.wf : CohWait → Bool
  | .mr n r => n < 64 && r < 64
  | .tracker n h => n < 64 && h < 1024
  | .recall b r => b < 16 && r < 16

/-- Ranges of the waits of R182. -/
def DlWait.wf : DlWait → Bool
  | .mr n r => n < 64 && r < 64
  | .vb n e => n < 64 && e < 16
  | .put p _ => p < 32

/-- Ranges of Table 10.10. -/
def FrzCmd.wf (f : FrzCmd) : Bool :=
  f.cmd < 8 && f.rank < 4 && f.cu < 2 && f.bank < 32 && f.col < 128 && f.row < 2 ^ 18

/-- The units of Table 15.2 whose arrays a command can find corrected, and the directory banks. -/
def Finds.wf (f : Finds) : Bool := f.ce.all (· < 217) && f.dirs.all (· < 16)

/-- R464: a register-window access is 32 or 64 bits wide, aligned, and inside the 32 MiB window. -/
def accessOk (off size : Nat) : Bool :=
  (size == 4 || size == 8) && off % size == 0 && off < 0x2000000

/-- Every operand of the command lies in its range. -/
def Instr.wf : Instr → Bool
  | .powerGoodRise _ _ _ => true
  | .powerGoodFall => true
  | .resetNAssert => true
  | .warm link => link < 8
  | .resetNRelease => true
  | .bringupStep1End _ => true
  | .bringupStep2End => true
  | .bringupStep3End spd _ => spd.length == 8
  | .bringupStep4End _ _ => true
  | .bringupStep5Start => true
  | .stopAtRaise _ => true
  | .nodeSet h _ => h.wf
  | .clerkRestart => true
  | .clerkTrap clerk => clerk < 4
  | .railFault rail => rail < 8
  | .thermalTrip sensor => sensor < 20
  | .cxlMemRequest link r fd => link < 8 && r.wf && fd.wf
  | .hdmDecoderCommit link dec _ _ ways gran => link < 8 && dec < 4 && ways < 4 && gran < 15
  | .creditReturn link => link < 8
  | .hostDeadline _ => true
  | .hostLinkHotReset link => link < 8
  | .ideIntegrityFailure link => link < 8
  | .birsp _ _ fd => fd.wf
  | .bisnpTimeout _ fd => fd.wf
  | .badRegisterAccess link _ _ _ => link < 8
  | .registerWrite link off size _ => link < 8 && accessOk off size
  | .tagPipelineLookup n _ _ fd => n < 64 && fd.wf
  | .tagBlockReadDone n q _ fd => n < 64 && q < 2359296 && fd.wf
  | .fillInstall n i fd => n < 64 && i < 1088 && fd.wf
  | .wayRetire n set way fd => n < 64 && set < 150994944 && way < 15 && fd.wf
  | .invalidate n => n < 64
  | .flush n => n < 64
  | .tagCacheDisable n => n < 64
  | .tagCacheActionDone n => n < 64
  | .wayPredictorClear n => n < 64
  | .streamTableClear n => n < 64
  | .mrHwmReset n => n < 64
  | .vbHwmReset n => n < 64
  | .rds src m fd => src < 32768 && m.wf && m.opc == 0x0 && fd.wf
  | .rdx src m fd => src < 32768 && m.wf && m.opc == 0x1 && fd.wf
  | .upg src m fd => src < 32768 && m.wf && m.opc == 0x2 && fd.wf
  | .wbd src m fd => src < 32768 && m.wf && m.opc == 0x3 && fd.wf
  | .offer src m fd => src < 32768 && m.wf && m.opc == 0x4 && fd.wf
  | .iwr src m fd => src < 32768 && m.wf && m.opc == 0x5 && fd.wf
  | .atom src m fd => src < 32768 && m.wf && m.opc == 0x6 && fd.wf
  | .directoryStoreReadDone n htid _ fd => n < 64 && htid < 1024 && fd.wf
  | .chainedRequestStart n la fd => n < 64 && la < 2251799813685248 && fd.wf
  | .ticketExpiry n htid => n < 64 && htid < 1024
  | .inv src m fd => src < 32768 && m.wf && m.opc == 0x8 && fd.wf
  | .fwds src m fd => src < 32768 && m.wf && m.opc == 0x9 && fd.wf
  | .fwdx src m fd => src < 32768 && m.wf && m.opc == 0xa && fd.wf
  | .holdExpiry n la fd => n < 64 && la < 2251799813685248 && fd.wf
  | .ack src m fd => src < 32768 && m.wf && m.opc == 0x10 && fd.wf
  | .data src m fd => src < 32768 && m.wf && m.opc == 0x11 && fd.wf
  | .datao src m fd => src < 32768 && m.wf && m.opc == 0x12 && fd.wf
  | .retry src m => src < 32768 && m.wf && m.opc == 0x13
  | .retryGapExpiry n home opc => n < 64 && home < 32768 && opc < 32
  | .nackDown src m fd => src < 32768 && m.wf && m.opc == 0x14 && fd.wf
  | .nackRange src m fd => src < 32768 && m.wf && m.opc == 0x15 && fd.wf
  | .cohTimeout w => w.wf
  | .grd src m fd => src < 32768 && m.wf && m.opc == 0x18 && fd.wf
  | .gwr src m fd => src < 32768 && m.wf && m.opc == 0x19 && fd.wf
  | .gatom src m fd => src < 32768 && m.wf && m.opc == 0x1a && fd.wf
  | .gdata src m => src < 32768 && m.wf && m.opc == 0x1c
  | .gack src m fd => src < 32768 && m.wf && m.opc == 0x1d && fd.wf
  | .gbusy src m => src < 32768 && m.wf && m.opc == 0x1e
  | .fabricDeadlineExpiry w fd => w.wf && fd.wf
  | .pwbEntry _ => true
  | .pwbIssue link => link < 8
  | .pwbDeadlineExpiry link _ => link < 8
  | .pwbHwmReset link => link < 8
  | .acquireLoadResponse _ => true
  | .fenceRead link _ size => link < 8 && (size == 4 || size == 8)
  | .fenceLocalWaitsDone _ => true
  | .fenceDeadline _ => true
  | .arrive src m => src < 32768 && m.wf && m.op == 1
  | .downdraft src m => src < 32768 && m.wf && m.op == 2
  | .breq src m => src < 32768 && m.wf && m.op == 3
  | .bbusy src m => src < 32768 && m.wf && m.op == 7
  | .bcast src m => src < 32768 && m.wf && m.op == 4
  | .back src m => src < 32768 && m.wf && m.op == 5
  | .bdone src m => src < 32768 && m.wf && m.op == 6
  | .systemTreeWrite link off size _ => link < 8 && accessOk off size
  | .leaseEpochAdvance entry => entry < 64
  | .unlockedLeaseAdvance => true
  | .epochStepStart => true
  | .rosterSweep n => n < 64
  | .epochStepComplete => true
  | .walkStart _ fd => fd.wf
  | .walkTableReadDone x _ => x < 5
  | .walkCasDone x _ => x < 5
  | .walkLimit x _ => x < 5
  | .speculativeWalkStart x _ fd => x < 5 && fd.wf
  | .tlbEntryAgeOut x => x < 5
  | .address link ctx scope => link < 8 && ctx < 4096 && scope < 4
  | .context link ctx scope => link < 8 && ctx < 4096 && scope < 4
  | .all link scope => link < 8 && scope < 4
  | .invalidationLimit => true
  | .contextRegisterWrite link off size _ => link < 8 && accessOk off size
  | .trainingStateComplete p _ => p < 16
  | .identBlock p b => p < 16 && b.wf
  | .flit p _ => p < 16
  | .nak p ackSeq => p < 16 && ackSeq < 1024
  | .noFlitTimeout p => p < 16
  | .flitPack p => p < 16
  | .routePacket _ => true
  | .oseqGapTimeout src => src < 32768
  | .routeFailNotice src _ _ => src < 32768
  | .linkReport src port peerPort _ => src < 32768 && port < 16 && peerPort < 16
  | .linkReportTimeout p => p < 16
  | .timeExchange p => p < 16
  | .timePacket p t _ => p < 16 && t.wf
  | .heartbeatSend => true
  | .heartbeat src domain state _ => src < 32768 && domain < 256 && state < 4
  | .memberDead m => m < 128
  | .join src domain _ => src < 32768 && domain < 256
  | .ready src domain _ => src < 32768 && domain < 256
  | .membershipBeat => true
  | .domJoinTimeout => true
  | .managementFragment src f => src < 32768 && f.wf
  | .reassemblyTimeout buf => buf < 4
  | .domainFailNotice src f => src < 32768 && f.wf
  | .retrain p => p < 16
  | .portEnableWrite p _ => p < 16
  | .domSet h _ _ => h.wf
  | .domJoin h => h.wf
  | .fabPort h _ _ => h.wf
  | .fabClrUnreach h _ => h.wf
  | .mtRefPresent => true
  | .mtRefLost => true
  | .mtMarkEdge => true
  | .mtHoldEnd => true
  | .timeSet h _ => h.wf
  | .scheduleEntryWrite link off size _ => link < 8 && accessOk off size
  | .mtuNowRead link => link < 8
  | .guardStart => true
  | .lullStart => true
  | .lullEnd => true
  | .lullSegmentStart c => c < 72
  | .lullSegmentDone c _ _ => c < 72
  | .refreshCadencePhase entry => entry < 64
  | .freeRunningRefresh c => c < 72
  | .scrubStep entry _ => entry < 64
  | .directorySweep entry => entry < 64
  | .counterSnapshot entry => entry < 64
  | .leakyBucketLeak entry => entry < 64
  | .thermalSample entry temps => entry < 64 && temps.length == 20
  | .commandSlotPick c u _ fd => c < 72 && u < 2 && fd.wf
  | .rowIdleTimeout c u bank => c < 72 && u < 2 && bank < 128
  | .selfRefreshEntry c => c < 72
  | .selfRefreshExit c fd => c < 72 && fd.wf
  | .channelFreeze c cause f => c < 72 && cause < 4 && f.wf
  | .mergeBufferTimeout c u _ _ fd => c < 72 && u < 2 && fd.wf
  | .pasrSet h _ => h.wf
  | .chThaw h _ _ => h.wf
  | .chRetrain h _ _ => h.wf
  | .chRawRead h _ _ _ _ => h.wf
  | .chRawWrite h _ _ _ _ => h.wf
  | .porterFetch p ue fd => p < 32 && ue.all (· < 2 ^ 27) && fd.wf
  | .porterActivate p => p < 32
  | .pieceIssue p fd => p < 32 && fd.wf
  | .pieceResponse p _ => p < 32
  | .recordRetry p => p < 32
  | .queuePut src tq porter _ _ => src < 32768 && tq < 65536 && porter < 32
  | .putAnswer src porter _ _ => src < 32768 && porter < 32
  | .notifyRetry p _ => p < 32
  | .abortOne link p _ => link < 8 && p < 32
  | .abortAll link p => link < 8 && p < 32
  | .resume link p => link < 8 && p < 32
  | .porterDisable link p => link < 8 && p < 32
  | .enqueue ue qs fd => ue.all (· < 2 ^ 27) && qs.all (· < 65536) && fd.wf
  | .push link k n size => link < 8 && k < 64 && 1 ≤ n && n ≤ 64 && (size == 4 || size == 8)
  | .advance link k _ ue fd => link < 8 && k < 64 && ue.all (· < 2 ^ 27) && fd.wf
  | .dropPacket link k ue fd => link < 8 && k < 64 && ue.all (· < 2 ^ 27) && fd.wf
  | .queueFlush link k ue fd => link < 8 && k < 64 && ue.all (· < 2 ^ 27) && fd.wf
  | .clear link k => link < 8 && k < 64
  | .queueDisable link q => link < 8 && q < 65536
  | .domainDownEntry fd => fd.wf
  | .pageCodeEnable link r => link < 8 && r < 8
  | .pageCodeInitDone r => r < 8
  | .arm link _ => link < 8
  | .ppr h _ _ _ _ _ _ _ => h.wf
  | .domReform h => h.wf
  | .ledgerRead h _ _ => h.wf
  | .ledgerClear h => h.wf
  | .partSetFlat h _ => h.wf
  | .cacheMode h _ => h.wf
  | .rangeOp h _ _ _ _ => h.wf
  | .maintenanceLookup n fd => n < 64 && fd.wf
  | .rangeOpComplete => true
  | .unretire h _ _ _ => h.wf
  | .identify h => h.wf
  | .status h => h.wf
  | .setState h _ => h.wf
  | .fwInfo h => h.wf
  | .fwErase h => h.wf
  | .fwWrite h _ bytes => h.wf && bytes.length ≤ 4092
  | .fwVerify h => h.wf
  | .fwActivate h => h.wf
  | .tallyRoute h entries => h.wf && 1 ≤ entries.length && entries.length ≤ 768
  | .traceSetup h _ _ _ _ => h.wf
  | .start link u _ => link < 8 && u < 96
  | .stop link u _ => link < 8 && u < 96
  | .counterClear link u => link < 8 && u < 96
  | .evselWrite link u i _ => link < 8 && u < 96 && i < 8
  | .routingDone u i => u < 96 && i < 8
  | .capture link => link < 8
  | .boundClear link port => link < 8 && port < 4
  | .bistRun h _ _ _ => h.wf
  | .bistComplete result _ _ arrays => result < 3 && arrays.all (fun a => a.1 < 217)
  | .repairStatus h => h.wf
  | .testLogicReset => true
  | .extest _ => true
  | .idcode => true
  | .samplePreload _ => true
  | .extestPulse _ => true
  | .extestTrain _ => true
  | .clamp => true
  | .highz => true
  | .repairScan => true
  | .bypass _ => true
  | .mtMarkMissing => true
  | .neighbourStampTimeout => true
  | .halfRateCatchUpEnd => true
  | .laneLockLost p => p < 16
  | .railsInRange => true
  | .hostLinkUp link rate width _ _ => link < 8 && rate < 5 && width < 17
  | .memoryReadDone _ fd => fd.wf
  | .badOpcodeCommand h _ _ => h.wf
  | .tallyLowHalfRead link _ => link < 8
  | .domainFailNoticeResend => true
  | .channelTrainingComplete c _ => c < 72

end Sys2Proof
end

