-- ==== Sys2Proof/Config.lean ====
section
/-! DEFINITION. What one implementation fixes and what the spec leaves open. Every constant here is OPAQUE: no proof can see
its value, so a statement holds whatever it is. Notes: notes/assumptions rows named at each constant. -/

namespace Sys2Proof.Config

/-- A fresh free value for each reading of an open value: the state's counter is the argument (DESIGN CHOICE, safe: notes/assumptions/3.md). -/
opaque freeWord : Nat → BitVec 64
/-- A free line, for a line whose contents the spec leaves open (DESIGN CHOICE, safe: notes/assumptions/3.md, 20.md). -/
opaque freeLine : Nat → BitVec 512
/-- The data bytes that far line `lo` holds where nothing has written it since the DRAM's contents were last lost, the state's mark of which
is the first argument (R413) (DESIGN CHOICE, safe: notes/assumptions/20.md). -/
opaque dramData : (which lo : Nat) → BitVec 512
/-- Its check bytes. -/
opaque dramCheck : (which lo : Nat) → BitVec 128
/-- What its code makes of them: R386 names the code and gives no generator. -/
opaque dramRead : (which lo : Nat) → BitVec 512
/-- They do not decode. -/
opaque dramBad : (which lo : Nat) → Bool
/-- A free truth value (DESIGN CHOICE, safe: notes/assumptions/3.md). -/
opaque freeBool : Nat → Bool
/-- The line that goes with a poison answer: the spec says poison, and no data (DESIGN CHOICE, safe: notes/assumptions/3.md). -/
opaque poisonLine : BitVec 512
/-- The fuse map's unique ID (R469) (DESIGN CHOICE, safe: notes/assumptions/4.md). -/
opaque uniqueId : BitVec 64
/-- The PCI vendor ID of the link's configuration space (Table 19.4) (DESIGN CHOICE, safe: notes/assumptions/4.md). -/
opaque vendorId : BitVec 16
/-- Silicon stepping of the fuse map (DESIGN CHOICE, safe: notes/assumptions/4.md). -/
opaque stepping : BitVec 8
/-- Wezal's JEP106 identity of the fuse map (R492) (DESIGN CHOICE, safe: notes/assumptions/4.md). -/
opaque jep106 : BitVec 11
/-- Boot-ROM version (Table 17.7) (DESIGN CHOICE, safe: notes/assumptions/4.md). -/
opaque romVersion : BitVec 32
/-- The fuse map's minimum SVN (R416) (DESIGN CHOICE, safe: notes/assumptions/4.md). -/
opaque minSvn : Nat
/-- SHA-384 of the 97-byte key equals a fuse-map key hash that is not revoked (R416) (DESIGN CHOICE, safe: notes/assumptions/4.md). -/
opaque keyTrusted : List (BitVec 8) → Bool
/-- ECDSA P-384 verification of the signature under the key over header bytes 0–135 and the body (R416) (DESIGN CHOICE, safe: notes/assumptions/4.md). -/
opaque sigValid : (key sig message : List (BitVec 8)) → Bool
/-- Spares applied from the fuse map to unit u (Table 21.5) (DESIGN CHOICE, safe: notes/assumptions/4.md). -/
opaque fused : Nat → BitVec 16
/-- Spares of unit u still unused as the fuse map gives it (Table 21.5) (DESIGN CHOICE, safe: notes/assumptions/4.md). -/
opaque sparesLeft : Nat → BitVec 16
/-- The HSF set of a line key: R143 gives the sets' number and no hash (DESIGN CHOICE, safe: notes/assumptions/5.md). -/
opaque hsfSet : Nat → Nat
/-- The eight check bytes of RS(72,64) over a near slot: R386 names the code and gives no generator (DESIGN CHOICE, safe: notes/assumptions/6.md). -/
opaque nearCheck : BitVec 512 → BitVec 64
/-- The sixteen check bytes of a far line: R386 names the code and gives no generator (DESIGN CHOICE, safe: notes/assumptions/6.md). -/
opaque farCheck : BitVec 512 → BitVec 128
/-- The entry code of a directory entry's CHECK field: R117 gives its place, no chapter its generator (DESIGN CHOICE, safe: notes/assumptions/6.md). -/
opaque dirCheck : BitVec 256 → BitVec 16
/-- The fixed poison pattern of near check bytes (R389) (DESIGN CHOICE, safe: notes/assumptions/6.md). -/
opaque nearPoison : BitVec 64
/-- The fixed poison pattern of far check bytes (R389) (DESIGN CHOICE, safe: notes/assumptions/6.md). -/
opaque farPoison : BitVec 128
/-- What the decoder of a code word with flipped bits beyond its capability gives: 0 as written, 1 wrong value, 2 error,
3 poison (R399) (DESIGN CHOICE, safe: notes/assumptions/7.md). -/
opaque flipOutcome : (mask : BitVec 64) → (cmask : BitVec 8) → (word target free : Nat) → Nat
/-- Result of a post-package repair: 0 done, 1 failed, 2 no spare (R400) (DESIGN CHOICE, safe: notes/assumptions/8.md). -/
opaque pprResult : List Nat → Nat
/-- The DIMM's RAAIMT and what one RFMsb subtracts from the rolling activate count (R265): DDR5 mode-register values
(DESIGN CHOICE, safe: notes/assumptions/9.md). -/
opaque raaimt : Nat
/-- See raaimt. -/
opaque raaDecrement : Nat
/-- What one REFsb subtracts from it. -/
opaque raaRefresh : Nat
/-- What the boundary register captures from the lands (R493) (DESIGN CHOICE, safe: notes/assumptions/3.md). -/
opaque boundary : Nat → BitVec 2400

/-- The boundary cells of the lands that the S72 leaves unconnected (R489, R494, R495): their places stand in the BSDL file
(DESIGN CHOICE, safe: notes/assumptions/3.md). -/
opaque absentCells : BitVec 2400
/-- The byte of a destination that lies in the overlap of one descriptor's source and destination (R362) (DESIGN CHOICE, safe: notes/assumptions/10.md). -/
opaque overlapByte : Nat → BitVec 8

end Sys2Proof.Config
end

