-- ==== Sys2Proof/Machine/Tab.lean ====
section
/-! DEFINITION. Sparse tables: lists of (key, value) pairs in one canonical form, keys strictly rising and no entry
equal to what an unlisted key reads as. Memories are tables of bytes. -/

namespace Sys2Proof.Machine

/-- A sparse table from numbered places to values. -/
abbrev Tab (α : Type) := List (Nat × α)

/-- The value at place `k`; an unlisted place reads `d`. -/
def Tab.get {α : Type} (d : α) : Tab α → Nat → α
  | [], _ => d
  | (j, v) :: t, k => if j = k then v else Tab.get d t k

/-- Insert `v` at place `k` before the first place above it, or in the place of the entry for `k`. -/
def Tab.ins {α : Type} : Tab α → Nat → α → Tab α
  | [], k, v => [(k, v)]
  | (j, w) :: t, k, v => if k < j then (k, v) :: (j, w) :: t else if k = j then (k, v) :: t else (j, w) :: Tab.ins t k v

/-- Write `v` at place `k`, keeping the canonical form: a place that reads `d` is not listed. -/
def Tab.put {α : Type} [DecidableEq α] (d : α) (t : Tab α) (k : Nat) (v : α) : Tab α :=
  if v = d then t.filter fun e => e.1 != k else Tab.ins t k v

/-- Every key of the table is above `b`, the keys rise strictly, and no entry equals `d`. -/
def Tab.wfFrom {α : Type} [DecidableEq α] (d : α) : Option Nat → Tab α → Bool
  | _, [] => true
  | b, (j, v) :: t => (match b with | none => true | some x => decide (x < j)) && decide (v ≠ d) && Tab.wfFrom d (some j) t

/-- The canonical form. -/
def Tab.wf {α : Type} [DecidableEq α] (d : α) (t : Tab α) : Bool := Tab.wfFrom d none t

/-- Remove every listed place that `p` picks. -/
def Tab.drop {α : Type} (t : Tab α) (p : Nat → Bool) : Tab α := t.filter fun e => !p e.1

/-- A memory: bytes by address; an unlisted address reads zero. -/
abbrev Memory := Tab Byte

/-- The canonical form of a memory. -/
def Memory.wf (m : Memory) : Bool := Tab.wf (0 : Byte) m

/-- One byte (DEDUCED, safe: notes/assumptions/24.md). -/
def Memory.read8 (m : Memory) (a : Nat) : Byte := Tab.get 0 m a

/-- Write one byte. -/
def Memory.write8 (m : Memory) (a : Nat) (b : Byte) : Memory := Tab.put 0 m a b

/-- The `n` bytes from `a`, least significant first, as a number. -/
def Memory.readLE (m : Memory) (a : Nat) : Nat → Nat
  | 0 => 0
  | n + 1 => (Memory.read8 m a).toNat + 256 * Memory.readLE m (a + 1) n

/-- Write the `n` low bytes of `v` from `a`, least significant first. -/
def Memory.writeLE (m : Memory) (a v : Nat) : Nat → Memory
  | 0 => m
  | n + 1 => Memory.writeLE (Memory.write8 m a (BitVec.ofNat 8 v)) (a + 1) (v / 256) n

/-- The line at byte address `a`. -/
def Memory.readLine (m : Memory) (a : Nat) : Line := BitVec.ofNat 512 (Memory.readLE m a 64)

/-- Write the line at byte address `a`. -/
def Memory.writeLine (m : Memory) (a : Nat) (l : Line) : Memory := Memory.writeLE m a l.toNat 64

end Sys2Proof.Machine
end

