-- ==== Sys2Proof/Machine/State.lean ====
section
/-! DEFINITION. The state of one E9 as plain data: every register, buffer, queue, table, counter and mode the spec gives it,
the queue of waiting commands, and the state after a cold reset. INVENTORY.md, "State", lists each piece with its rule. -/

namespace Sys2Proof.Machine

/-- Reasons a step can stop with a fault. -/
inductive Fault where
  /-- Raised by no meaning: every event of the spec has an outcome (R146, R209, R277, R305, R334, R353, R384, R424).
  Safe: it stands here only because the interface asks for a type of faults. -/
  | none
  deriving DecidableEq, Repr

/-- Reasons a step can be refused. -/
inductive Refusal where
  /-- Raised by exec's arm of a command without a meaning. Safe. -/
  | notModelled (mnemonic : String)
  deriving DecidableEq, Repr

/-! ## Triple-stored control words (R388) -/

/-- A triple-stored control word: three copies, each with its SEC-DED verdict (`true`: uncorrectable). -/
structure Tmr (n : Nat) where
  c0 : BitVec n
  c1 : BitVec n
  c2 : BitVec n
  b0 : Bool := false
  b1 : Bool := false
  b2 : Bool := false
  deriving DecidableEq, Repr

/-- Three equal good copies. -/
def Tmr.of {n : Nat} (v : BitVec n) : Tmr n := { c0 := v, c1 := v, c2 := v }

/-! ## Near-memory structures (chapter 2) -/

/-- A tag entry (Table 2.5). STATE codes are those of Table 2.6. -/
structure TagEnt where
  tag : BitVec 28 := 0
  st : BitVec 3 := 0
  age : BitVec 2 := 0
  ep : BitVec 2 := 0
  lock : Bool := false
  deriving DecidableEq, Repr

/-- A tag block: the entries of ways 1 to 14, way 1 first (R32). -/
structure TagBlk where
  ways : List TagEnt := List.replicate 14 {}
  deriving DecidableEq, Repr

/-- A set record (Table 2.7): RETIRE_MASK, LAST_CE_BEAT, and CE_COUNT of ways 1 to 14. -/
structure SetRec where
  retire : BitVec 14 := 0
  lastBeat : BitVec 32 := 0
  ce : List (BitVec 16) := List.replicate 14 0
  deriving DecidableEq, Repr

/-- A tag-cache entry (R47): the row it caches, its block, and its bits. -/
structure TcEnt where
  row : Nat
  blk : TagBlk := {}
  pending : Bool := false
  ref : Bool := false
  ageDirty : Bool := false
  /-- an INVALIDATE action in progress will drop it: it was valid when the action began (R58) -/
  doomed : Bool := false
  deriving DecidableEq, Repr

/-- A stream entry (R88). -/
structure Stream where
  page : Nat
  /-- 0 none, 1 up, −1 down -/
  dir : Int := 0
  conf : Nat := 0
  device : Bool := false
  /-- LRU rank: the greater, the later it was touched -/
  used : Nat := 0
  deriving DecidableEq, Repr

/-! ## Requests -/

/-- Where a request comes from. -/
inductive Src where
  /-- an accepted host request -/
  | host (rid : Nat)
  /-- an issued PWB entry of a link -/
  | pwb (link seq : Nat)
  /-- a porter's piece -/
  | piece (p pid : Nat)
  /-- a walker's table-line read or compare-and-swap -/
  | walker (x w : Nat)
  /-- the stream prefetcher -/
  | prefetch
  /-- a LOCK or ZERO visit of a range operation -/
  | maint
  deriving DecidableEq, Repr

/-- Request kinds of Table 3.1 that a slice takes from its own device. -/
inductive ReqKind where
  | read
  | write
  | atomic
  | prefetch
  deriving DecidableEq, Repr

/-- A request at a slice. -/
structure Req where
  src : Src
  kind : ReqKind
  la : Nat
  data : Line := 0
  /-- enabled bytes of a write -/
  be : BitVec 64 := 0
  poison : Bool := false
  /-- operand block of an atomic (Table 13.5) -/
  opnd : BitVec 384 := 0
  /-- ordering alias 0–3 (Table 1.4) -/
  ali : Nat := 0
  /-- reached through the global window or translated for a porter -/
  glob : Bool := false
  /-- through a device page (R183) -/
  dev : Bool := false
  /-- early acknowledgement applies (R190) -/
  ea : Bool := false
  /-- the porter's streaming flag -/
  stream : Bool := false
  /-- the read is performed at the home and never hits an L copy (R69, R184, R200, R288) -/
  atHome : Bool := false
  /-- the host asks for a copy (R165) -/
  copy : Bool := false
  /-- the host asks for an exclusive copy -/
  excl : Bool := false
  /-- host link that receives the copy -/
  link : Nat := 0
  /-- reached through the domain-window alias of the local window (R19) -/
  domWin : Bool := false
  /-- the unperformed access that fences wait for (R337) -/
  aid : Nat := 0
  /-- `la` is a flat line index, and the access goes to its slot (R22, R46) -/
  flat : Bool := false
  /-- the read of its tag block that it made is on its way, with the way read beside it, 0 for none (R53, R55) -/
  tb : Option Nat := none
  /-- SLC[n]_PFC and SLC[n]_ALC as they stood when it entered the tag pipeline (R93) -/
  ent : Option (Word × Word) := none
  /-- core clock and paused clocks when it joined a register, for a fabric deadline of its own (R182, R368) -/
  dl : Option (Nat × Nat) := none
  deriving DecidableEq, Repr

/-- What a miss register waits for. -/
inductive MrSt where
  /-- an answer from another node to the message `opc` it sent -/
  | sent
  /-- refused with RETRY or GBUSY, held for reissue (R139, R181) -/
  | refused
  /-- not sent because the slice holds back newer requests of its class to its home (R139, R181) -/
  | heldBack
  /-- a victim-buffer entry of its line to be freed (Table 3.7) -/
  | waitVb
  /-- this E9's own directory bank (R131) -/
  | home
  /-- data or grant is here; FILL_INSTALL acts next (R78) -/
  | answered
  /-- the primary is done; host copies are being recalled for the first of those that remain (R76) -/
  | hosts
  deriving DecidableEq, Repr

/-- A miss register (R75). -/
structure Mr where
  idx : Nat
  la : Nat
  prim : Req
  secs : List Req := []
  st : MrSt
  /-- opcode of the outstanding message -/
  opc : Nat := 0
  home : Nat := 0
  /-- ticket held (R138) -/
  ticket : Option Nat := none
  /-- marked upgrade-lost (R133) -/
  upgLost : Bool := false
  /-- PF flag of the outstanding request (Table 3.4) -/
  pf : Bool := false
  /-- the register's primary is a prefetch -/
  isPf : Bool := false
  /-- count of epoch advances when the leased read was issued (R68) -/
  advs : Nat := 0
  /-- core clock and paused clocks at first issue, for the fabric deadline (R182) -/
  t0 : Nat := 0
  paused0 : Nat := 0
  /-- MT at the start of the present wait for one coherence message (R328) -/
  since : Nat := 0
  /-- returned data and its poison mark -/
  data : Option (Line × Bool) := none
  /-- granted state, 0 for none -/
  grant : Nat := 0
  /-- order of first refusal -/
  refSeq : Nat := 0
  /-- core clock from which a request refused without a ticket goes again (R139, R181) -/
  gapEnd : Nat := 0
  /-- class of Table 9.2 of the path it has taken -/
  cls : Nat := 0
  /-- secondaries present when the answer came: what is not installed is served to them from `data` (R78) -/
  early : Nat := 0
  /-- how many of the secondaries present at a grant are still unserved (R134) -/
  won : Nat := 0
  /-- it has turned a ninth request away: none joins it any more (R75) -/
  full : Bool := false
  /-- RETRY_GAP as the transaction began (R149) -/
  gap : Nat := 0
  deriving DecidableEq, Repr

/-- A victim-buffer entry (R82). -/
structure Vb where
  idx : Nat
  la : Nat
  data : Line
  poison : Bool := false
  /-- state at eviction, as merged (Table 2.6) -/
  st : BitVec 3
  /-- a message (WBD, OFFER, GWR) or far write has been handed over -/
  sent : Bool := false
  /-- 0 far write, 1 OFFER, 2 WBD, 3 nothing or GWR of an L line -/
  action : Nat := 0
  /-- refused with GBUSY, or held back -/
  refused : Bool := false
  since : Nat := 0
  t0 : Nat := 0
  paused0 : Nat := 0
  refSeq : Nat := 0
  gapEnd : Nat := 0
  /-- RETRY_GAP as the transaction began (R149) -/
  gap : Nat := 0
  /-- count of epoch advances at which the read that filled an L line was issued (R68, R167) -/
  advs : Nat := 0
  /-- its message has been answered; only copies granted from it remain to be recalled (R85) -/
  done : Bool := false
  deriving DecidableEq, Repr

/-- A hold on a line (R134) with the snoops deferred during it. -/
structure Hold where
  la : Nat
  until_ : Nat
  snoops : List (Nat × CohMsg) := []
  deriving DecidableEq, Repr

/-- A snoop that waits for host back-invalidations before it is answered (R144, R84), or for the tags of its set. -/
structure WaitSnoop where
  la : Nat
  src : Nat
  msg : CohMsg
  /-- it waits for a tag block (R48, R50) -/
  tag : Bool := false
  deriving DecidableEq, Repr

/-- An outstanding write of a slice, in the order sent (R190). -/
structure OutW where
  /-- place in the order sent -/
  id : Nat
  tid : Nat
  la : Nat
  home : Nat
  src : Src
  aid : Nat := 0
  /-- host link of its source -/
  link : Nat := 0
  early : Bool := false
  /-- accesses of stores that merged into it (R189) -/
  more : List Nat := []
  /-- the message, for the reissue of an early-acknowledged write whose register is free (R139, R181) -/
  msg : CohMsg
  refSeq : Nat := 0
  gapEnd : Nat := 0
  /-- RETRY_GAP as the transaction began (R149) -/
  gap : Nat := 0
  /-- it has been sent, and its answer is awaited -/
  flying : Bool := true
  ticket : Option Nat := none
  /-- start of its fabric deadline (R182) -/
  t0 : Nat := 0
  paused0 : Nat := 0
  deriving DecidableEq, Repr

/-- What a home transaction is for. -/
inductive HomeFor where
  /-- a peer's coherence request -/
  | peer (src : Nat) (m : CohMsg)
  /-- a global-access request from any node -/
  | glob (src : Nat) (m : CohMsg)
  /-- a miss register of this home's own slice (R131) -/
  | own (reg : Nat)
  /-- a directory-store eviction (R123), in recall tracker r -/
  | recall (r : Nat)
  deriving DecidableEq, Repr

/-- Stages of a home transaction. -/
inductive HPh where
  /-- reserved for a ticket, or chained behind the line's open transaction, or waiting for a tracker's start -/
  | reserved
  | chained
  /-- waits for a directory-store read (R119) -/
  | dirRead
  /-- waits for a way of its store set or a recall tracker (R123) -/
  | alloc
  /-- waits for the tag block of its line (R48, R50) -/
  | tags
  /-- INV, RCL, host recalls: invalidations and the far-memory read in parallel (R245) -/
  | collect
  /-- FWD: an owner's answer -/
  | fwd
  /-- MEM: a far-memory read -/
  | mem
  /-- the home's own slice finishes: FILL_INSTALL acts next -/
  | own
  /-- CNF: the requester's confirmation -/
  | cnf
  deriving DecidableEq, Repr

/-- A home tracker (R116, R128, R137). -/
structure Trk where
  htid : Nat
  la : Nat
  for_ : HomeFor
  ph : HPh
  /-- members whose INV answers are awaited -/
  invWait : List Nat := []
  /-- owner whose forward answer is awaited -/
  fwdWait : Option Nat := none
  /-- an OFFER from this owner is awaited after its MISS (R145) -/
  offerWait : Option Nat := none
  /-- TID of a crossing WBD to drop before the tracker closes (R145) -/
  wbdDrop : Option Nat := none
  /-- a crossing WBD or OFFER that arrived before the answer or confirmation -/
  held : Option (Nat × CohMsg) := none
  /-- a crossing OFFER already completed the request; the MISS is still awaited -/
  offered : Bool := false
  /-- what it waits for from this E9's hosts: 0 nothing, 1 no copy in E or M, 2 no copy at all -/
  hostWait : Nat := 0
  /-- outstanding far-memory read token -/
  memTok : Option Nat := none
  /-- line data gathered, poison mark -/
  data : Option (Line × Bool) := none
  /-- the data differs from far memory -/
  dirty : Bool := false
  /-- the owner kept ownership -/
  kept : Bool := false
  /-- the owner answered from its victim buffer: it holds nothing any more (R145) -/
  ownerGone : Bool := false
  /-- confirmation arrived before the snoop answer -/
  confirmed : Bool := false
  /-- the second stage of the request runs: the forward after the invalidations, or the invalidations after it -/
  second : Bool := false
  /-- a directory entry has been allocated or found: its store set and way -/
  place : Option (Nat × Nat) := none
  /-- directory state, owner and sharers when the transaction started -/
  dst : Nat := 0
  owner : Nat := 0
  sharers : BitVec 128 := 0
  /-- first beat at which an unused ticket is released (R138, R149) -/
  ticketEnd : Nat := 0
  ticketTid : Nat := 0
  /-- MT when the snoops that it awaits were sent, and when its waits for an OFFER, for a WBD to drop and for the confirmation began (R328) -/
  since : Nat := 0
  offerAt : Nat := 0
  wbdAt : Nat := 0
  cnfAt : Nat := 0
  seq : Nat := 0
  /-- a recall whose INV carries DISCARD (R273) -/
  discard : Bool := false
  /-- `data` is an owner's answer -/
  fromOwner : Bool := false
  /-- SLC[n]_ALC.OFFER_ACCEPT as it stood when an OFFER was received (R93) -/
  accept : Bool := true
  /-- the way whose data a right guess of the home's lookup has brought, 0 for none (R55) -/
  guess : Nat := 0
  deriving DecidableEq, Repr

/-- One cache slice (chapters 2, 3, 5, 7). -/
structure Slice where
  /-- requests waiting at the slice input, in order of arrival (R61) -/
  inq : List Req := []
  mrs : List Mr := []
  vbs : List Vb := []
  /-- tag cache, keyed tag-cache set × 12 + entry (R47) -/
  tc : Tab (Option TcEnt) := []
  /-- rows of the tag-block reads that lookups have outstanding (R48, R53) -/
  tbReads : List Nat := []
  /-- a flush or invalidate action of the tag cache is in progress, and how many tag-cache sets it has visited (R58) -/
  tcBusy : Bool := false
  tcPos : Nat := 0
  /-- the order numbers of the write-backs that the walk has issued -/
  tcOut : List Nat := []
  wp : Tab (BitVec 4) := []
  /-- the clock after the last SLC[n]_WPC.CLEAR (R59) -/
  wpClk : Nat := 0
  streams : List (Option Stream) := List.replicate 32 none
  /-- rosters of the four epoch values: set indexes in order (R205) -/
  ros0 : List Nat := []
  ros1 : List Nat := []
  ros2 : List Nat := []
  ros3 : List Nat := []
  holds : List Hold := []
  waitSnoops : List WaitSnoop := []
  /-- home trackers of this slice -/
  trks : List Trk := []
  outw : List OutW := []
  mrHwm : Nat := 0
  vbHwm : Nat := 0
  /-- sets and ways whose CE_COUNT reached RETIRE_THRESH and wait for retirement (R110) -/
  retireDue : List (Nat × Nat) := []
  /-- order numbers of refusals and of trackers -/
  nextRef : Nat := 1
  deriving DecidableEq, Repr

/-! ## Directory (chapter 5) -/

/-- A directory entry (Table 5.3), less CHECK. -/
structure DirEnt where
  line : Nat := 0
  st : Nat := 0
  pin : Bool := false
  owner : Nat := 0
  age : Nat := 0
  sharers : BitVec 128 := 0
  deriving DecidableEq, Repr

/-- A directory-cache entry: store set and way, the entry, dirty. -/
structure DcEnt where
  set : Nat
  way : Nat
  ent : DirEnt
  dirty : Bool := false
  deriving DecidableEq, Repr

/-- One directory bank. -/
structure Bank where
  /-- the store, keyed set × 16 + way -/
  store : Tab DirEnt := []
  /-- the directory cache, keyed cache set × 16 + way -/
  dc : Tab (Option DcEnt) := []
  /-- recall trackers open: number, slice and line -/
  recalls : List (Nat × Nat × Nat) := []
  /-- DIR_LOST (R406) -/
  lost : Bool := false
  /-- pending directory-sweep steps, as store sets per step (R226), and the sweep pointer -/
  sweepDue : List Nat := []
  sweepPtr : Nat := 0
  deriving DecidableEq, Repr

/-! ## Hosts (chapters 6, 7, 9) -/

/-- One host's copy of a line (R143, R167). -/
structure HsfCopy where
  link : Nat
  /-- E-or-M; otherwise S -/
  em : Bool := false
  /-- held through the domain-window alias (R19) -/
  dom : Bool := false
  /-- a global-window line, with the count of advances when its read was issued -/
  glob : Bool := false
  advs : Nat := 0
  deriving DecidableEq, Repr

/-- A host-snoop-filter entry: a line address, or a flat line when `flat`. -/
structure HsfEnt where
  key : Nat
  flat : Bool := false
  copies : List HsfCopy := []
  deriving DecidableEq, Repr

/-- What goes on when a recall round has been answered. -/
inductive BiWait where
  /-- a victim-buffer entry's eviction -/
  | vb (n i : Nat)
  /-- a snoop at slice n -/
  | snoop (n la : Nat)
  /-- a home tracker -/
  | home (n htid : Nat)
  /-- an epoch step -/
  | epoch
  /-- a local request of slice n for the line -/
  | req (n la : Nat)
  /-- a request for a flat line -/
  | flatReq (rid : Nat)
  /-- a replaced HSF entry, or a maintenance action; returned dirty data is written to the line -/
  | evict
  /-- returned data is dropped -/
  | drop
  /-- a partition change (R101) or range visit -/
  | maint
  deriving DecidableEq, Repr

/-- An outstanding back-invalidation (R166). -/
structure BiSnp where
  id : Nat
  link : Nat
  key : Nat
  flat : Bool := false
  /-- BISnpInv; otherwise BISnpData -/
  inv : Bool
  /-- the HSF recorded E-or-M -/
  em : Bool
  wait : BiWait
  t0 : Nat
  /-- the alias through which the host holds the copy (R19, R167) -/
  dom : Bool := false
  glob : Bool := false
  deriving DecidableEq, Repr

/-- The four memory windows (Table 1.3). -/
inductive Win where
  | loc
  | dom
  | glob
  | flat
  deriving DecidableEq, Repr

/-- How far an accepted host request has come. -/
inductive HrPh where
  /-- waits for its translation job -/
  | translate (job : Nat)
  /-- a store that waits for room in its link's PWB (R187) -/
  | pwbWait
  /-- a load that waits for the link's PWB entries for its line (R184, R189) -/
  | pwbLoad
  /-- waits for the link's earlier or alias-2 global-window accesses (R183) -/
  | order
  /-- waits for recalls of other copies of its line, or for the BIConflict handshake (R166, R19) -/
  | recall
  /-- at its slice -/
  | slice
  /-- an alias-1 load that has been performed and waits for its double advance (R184) -/
  | acquire
  deriving DecidableEq, Repr

/-- An accepted CXL.mem request (R159) until it is answered and performed. -/
structure HostReq where
  rid : Nat
  link : Nat
  req : CxlReq
  win : Win
  off : Nat
  ali : Nat := 0
  /-- line address, or flat line index -/
  la : Nat := 0
  dev : Bool := false
  ea : Bool := false
  ph : HrPh
  /-- core clock of port receive -/
  t0 : Nat
  /-- class of Table 9.2: 0 near hit, 1 far read, 2 domain-remote, 3 global -/
  cls : Nat := 0
  /-- additions of Table 9.7, in half nanoseconds -/
  add : Nat := 0
  /-- HOLD, in ns / 4, when the request turned out to be domain-remote (R240) -/
  hold : Nat := 0
  /-- HPT[n]_ORD when the request was accepted (R211) -/
  ord : Word := 0
  voided : Bool := false
  /-- the line, and whether it is a flat one, of the recall round that it waits for and has been given an addition for (Table 9.7) -/
  biFor : Option (Nat × Bool) := none
  /-- core clock since which a roster step has waited at its slice (R243) -/
  rosterAt : Option Nat := none
  /-- it has found no free miss register (Table 9.7), and refresh firings within its life -/
  mrWait : Bool := false
  fires : Nat := 0
  /-- already answered at its deadline, or its link was reset: what still comes is discarded (R164, R171) -/
  mute : Bool := false
  /-- the slice has issued it (R164) -/
  issued : Bool := false
  /-- answer held for the acquire, with poison and the MetaValue -/
  resp : Option (Line × Bool × Nat) := none
  /-- order number of the double advance it waits for (R204) -/
  advTicket : Nat := 0
  /-- count of epoch advances when the read that supplies it was issued (R167) -/
  advs : Nat := 0
  /-- accepted before the present lull began -/
  preLull : Bool := true
  deriving DecidableEq, Repr

/-- A posted-write buffer entry. -/
structure PwbEnt where
  seq : Nat
  rid : Nat
  la : Nat
  data : Line
  be : BitVec 64
  poison : Bool := false
  ali : Nat := 0
  dev : Bool := false
  ea : Bool := false
  t0 : Nat
  paused0 : Nat
  issued : Bool := false
  /-- performed, or ended -/
  performed : Bool := false
  /-- counts complete for retirement by early acknowledgement (R190) -/
  early : Bool := false
  /-- accesses of the link accepted before an alias-1 store (R188) -/
  after : List Nat := []
  /-- accesses of the stores that merged into the entry (R189) -/
  more : List Nat := []
  deriving DecidableEq, Repr

/-- An HDM decoder (R155). -/
structure Decoder where
  committed : Bool := false
  err : Bool := false
  base : Nat := 0
  size : Nat := 0
  /-- log2 of ways, and granularity exponent -/
  ways : Nat := 0
  gran : Nat := 8
  deriving DecidableEq, Repr

/-- One host link (chapter 6). -/
structure HLink where
  up : Bool := false
  rate : Nat := 0
  width : Nat := 0
  ide : Bool := false
  flitLo : Bool := false
  resetting : Bool := false
  dec0 : Decoder := {}
  dec1 : Decoder := {}
  dec2 : Decoder := {}
  dec3 : Decoder := {}
  /-- credits held by the host, Req in bits [5:0] and RwD in bits [11:6]: a triple-stored word (Table 15.2) -/
  credits : Tmr 12 := Tmr.of 0
  /-- the clock after the last in which it returned credits -/
  creditClk : Nat := 0
  pwb : List PwbEnt := []
  pwbHwm : Nat := 0
  pwbDiscarded : Nat := 0
  lateRd : Nat := 0
  lateWr : Nat := 0
  overrun : Nat := 0
  voided : Nat := 0
  extended : Nat := 0
  /-- the clock after the last increment of each of the three (R251) -/
  overClk : Nat := 0
  voidClk : Nat := 0
  extClk : Nat := 0
  /-- pending bits of the MSI-X table -/
  pba : List Nat := []
  /-- mailbox: a command is in progress, and the last reply -/
  mboxBusy : Bool := false
  mboxReply : List Byte := []
  /-- last two missed pages of the link, for SPEC_EN (R291) -/
  miss1 : Option Nat := none
  miss2 : Option Nat := none
  deriving DecidableEq, Repr

/-- An unperformed access, for fences (R337). -/
structure Acc where
  aid : Nat
  /-- host link, or 64 + porter, or 128 for a clerk -/
  who : Nat
  rd : Bool
  wr : Bool
  /-- the entry that translated it: context, virtual page base, size exponent (R301) -/
  tr : Option (Nat × Nat × Nat) := none
  deriving DecidableEq, Repr

/-- A failed access for the next fence that covers it (R192, R197): by whom, at which node, and whether its domain was DOWN. -/
structure FailRec where
  aid : Nat
  who : Nat
  node : Nat
  down : Bool
  deriving DecidableEq, Repr

/-! ## Lease tracker (chapter 7) -/

/-- LSE: epoch, advances and the queue of steps. -/
structure Lse where
  epoch : BitVec 2 := 0
  advances : BitVec 32 := 0
  /-- all advances since reset, as an order number -/
  count : Nat := 0
  /-- steps waiting, in arrival order: `true` is a step of a double advance -/
  steps : List Bool := []
  /-- a step is running (between its start and its completion) -/
  running : Option Bool := none
  /-- steps of double advances that have been completed and started -/
  dblStarted : Nat := 0
  dblDone : Nat := 0
  /-- a step waits for its rosters to empty (R206 step 1) -/
  blocked : Bool := false
  /-- core clock of the last advance (R203) -/
  last : Nat := 0
  deriving DecidableEq, Repr

/-! ## Fences (chapter 13) -/

/-- Where a pending fence stands. -/
inductive FPh where
  /-- all 64 places were in use (R338) -/
  | port
  | wait
  /-- local waits done; joined generation g of its tree -/
  | tree (g : Nat)
  /-- downdraft received; waits for a double advance -/
  | adv (ticket : Nat)
  deriving DecidableEq, Repr

/-- A pending fence (R337). -/
structure Fence where
  fid : Nat
  link : Nat
  /-- 0 port, 1 device, 2 domain, 3 system -/
  scope : Nat
  rel : Bool
  acq : Bool
  t0 : Nat
  snap : List Nat := []
  ph : FPh
  /-- generation it joined -/
  gen : Nat := 0
  localDone : Bool := false
  code : Nat := 0
  seenDead : Bool := false
  seenDown : Bool := false
  node : Option Nat := none
  /-- answered DEADLINE; keeps its place (R348) -/
  gone : Bool := false
  /-- its link was reset: its status word is discarded (R171) -/
  mute : Bool := false
  deriving DecidableEq, Repr

/-- One combining tree's state. -/
structure Tree where
  gen : Nat := 0
  /-- this E9's arrival has been sent -/
  sent : Bool := false
  counted : List Nat := []
  kinds : BitVec 2 := 0
  code : Nat := 0
  deriving DecidableEq, Repr

/-- One tree's broadcast channel at this E9 (R351). -/
structure BcChan where
  /-- the root's channel is busy -/
  rootBusy : Bool := false
  nextNum : Nat := 0
  /-- a broadcast in progress here -/
  active : Bool := false
  num : Nat := 0
  origin : Nat := 0
  msg : TreeMsg := {}
  waitKids : List Nat := []
  code : Nat := 0
  /-- accesses to wait for -/
  snap : List Nat := []
  deriving DecidableEq, Repr

/-- FNC. -/
structure Fnc where
  fences : List Fence := []
  dom : Tree := {}
  sys : Tree := {}
  bcDom : BcChan := {}
  bcSys : BcChan := {}
  discarded : Nat := 0
  completed : Nat := 0
  deadlines : Nat := 0
  /-- children of the domain tree, its parent, root and this member's rank (R340) -/
  domKids : List Nat := []
  domParent : Nat := 0
  domRoot : Nat := 0
  domRank : Nat := 0
  deriving DecidableEq, Repr

/-! ## Translation (chapter 11) -/

/-- A leaf in a TLB: page base, size exponent, MA of the page and attributes. -/
structure TlbEnt where
  ctx : Nat
  va : Nat
  p : Nat
  ma : Nat
  w : Bool := false
  d : Bool := false
  dev : Bool := false
  ea : Bool := false
  beat : Nat := 0
  ref : Bool := false
  deriving DecidableEq, Repr

/-- A walk-cache entry (R295): context, level, VA prefix and table address. -/
structure WcEnt where
  ctx : Nat
  k : Nat
  va : Nat
  tbl : Nat
  beat : Nat := 0
  ref : Bool := false
  deriving DecidableEq, Repr

/-- What a translation is for. -/
inductive XFor where
  | host (rid : Nat)
  /-- source or destination of a piece about to issue -/
  | piece (p seq : Nat) (dst : Bool) (va : Nat)
  | spec
  deriving DecidableEq, Repr

/-- A translation that missed every TLB (R287). -/
structure XJob where
  id : Nat
  x : Nat
  ctx : Nat
  va : Nat
  wr : Bool
  sync : Bool
  for_ : XFor
  /-- SOURCE of XLT[i]_FLT1: host link, or 0x80 + porter -/
  src : Nat := 0
  /-- in the walk queue; otherwise it waits at its source or for a walker -/
  queued : Bool := false
  /-- walker whose result it takes -/
  walker : Option Nat := none
  /-- WC_EN as the translation started (R306) -/
  wc : Bool := true
  deriving DecidableEq, Repr

/-- A walker at work (R287). -/
structure Walker where
  w : Nat
  ctx : Nat
  va : Nat
  wr : Bool
  spec : Bool := false
  /-- source for FLT1 -/
  source : Nat := 0
  k : Nat
  tbl : Nat
  /-- LEVELS and ROOT as the walk began (R282) -/
  levels : Nat
  root : Nat
  restarts : Nat := 0
  /-- a table line has been asked for -/
  began : Bool := false
  /-- entry as read, while a compare-and-swap is out -/
  cas : Option Word := none
  need : Word := 0
  /-- the table line, or the compare-and-swap's answer, when it has returned: data, poison, failure code of Table 11.5 -/
  got : Option (Line × Bool × Nat) := none
  /-- MA of the entry being read -/
  ma : Nat := 0
  t0 : Nat
  paused0 : Nat
  /-- WC_EN as the translation started (R306) -/
  wc : Bool := true
  /-- the result may be installed (R282, R299, R305) -/
  inst : Bool := true
  /-- pages invalidated since the walk began: no entry that covers one is installed (R301) -/
  noVa : List Nat := []
  deriving DecidableEq, Repr

/-- One translation unit. -/
structure Xlt where
  l1s : Tab (Option TlbEnt) := []
  l1d : Tab (Option TlbEnt) := []
  l2 : Tab (Option TlbEnt) := []
  wc : Tab (Option WcEnt) := []
  jobs : List XJob := []
  walkers : List Walker := []
  faults : Nat := 0
  restarts : Nat := 0
  fltVa : Nat := 0
  fltValid : Bool := false
  more : Nat := 0
  fltCtx : Nat := 0
  fltLevel : Nat := 0
  fltSource : Nat := 0
  fltWrite : Bool := false
  fltSub : Nat := 0
  deriving DecidableEq, Repr

/-- The invalidation registers' state (R300, R301). -/
structure XInv where
  busy : Bool := false
  done : BitVec 32 := 0
  code : Nat := 0
  t0 : Nat := 0
  scope : Nat := 0
  /-- BREQ to send, or to send again, from this core clock, when its tree runs (R351) -/
  again : Option Nat := none
  /-- the number that this E9, as the root, gave its own broadcast (R351) -/
  num : Option Nat := none
  msg : TreeMsg := {}
  /-- device-scope wait, and the worst failure of what it waits for -/
  snap : List Nat := []
  worst : Nat := 0
  deriving DecidableEq, Repr

/-! ## Fabric (chapter 12) -/

/-- A data flit in a replay buffer. -/
structure RFlit where
  seq : Nat
  pkts : List Packet
  deriving DecidableEq, Repr

/-- One fabric port. -/
structure FPort where
  st : Nat := 0
  held : Bool := false
  /-- lanes trained -/
  width : Nat := 0
  peerValid : Bool := false
  peerNode : Nat := 0
  peerPort : Nat := 0
  delay : Nat := 0
  downs : Nat := 0
  cause : Nat := 0
  fecCorr : BitVec 32 := 0
  replays : Nat := 0
  crcFail : Nat := 0
  /-- an ident block with NODE_VALID = 1 has been sent and received -/
  sentValid : Bool := false
  gotValid : Bool := false
  /-- next SEQ to send, last SEQ received in order, whether any was received since training -/
  txSeq : Nat := 0
  rxSeq : Nat := 1023
  rxAny : Bool := false
  /-- the receiver discards data flits until replay (R314) -/
  rxHold : Bool := false
  /-- how many of the data flits that come next in order are replayed ones: those it has discarded (R325) -/
  rxSkip : Nat := 0
  replayBuf : List RFlit := []
  /-- flits to send again, from a NAK -/
  resend : List Nat := []
  /-- packets waiting to be packed -/
  txq : List Packet := []
  /-- credit held for the peer's buffers, keyed by buffer number (CVN × 4 + CVC × 2 + CCL), as slots used -/
  used : Tab Nat := []
  /-- slots of credit to return, keyed alike -/
  toReturn : Tab Nat := []
  flits : Nat := 0
  bulkTurn : Nat := 0
  /-- clock of the last valid flit -/
  lastRx : Nat := 0
  /-- beats of the last link-downs, and replays in the present beat -/
  downBeats : List Nat := []
  replayBeat : Nat := 0
  replayCnt : Nat := 0
  lastReplayed : Nat := 0
  sameReplay : Nat := 0
  /-- clock of the link-down whose held flits are unsettled -/
  downAt : Option Nat := none
  trainedOnce : Bool := false
  sendNak : Bool := false
  /-- time exchange: t1 of the outstanding request, last stamps -/
  t1 : Option Nat := none
  /-- time packets received and not handled yet, with MT at the receive point (R216) -/
  rxTime : List (TimeMsg × Nat) := []
  nbLocked : Bool := false
  nbStratum : Nat := 255
  /-- core clock of the last request -/
  exAt : Option Nat := none
  deriving DecidableEq, Repr

/-- A management reassembly buffer (R333). -/
structure ReBuf where
  /-- which of the four it is -/
  slot : Nat := 0
  src : Nat
  tag : Nat
  count : Nat
  total : Nat
  got : List (Nat × List Byte) := []
  beat : Nat := 0
  deriving DecidableEq, Repr

/-- The router. -/
structure Rtr where
  enabled : Bool := false
  /-- packets waiting for a routing decision, in order -/
  q : List Packet := []
  /-- packets delivered to this E9's own units -/
  delivered : List Packet := []
  /-- OSEQ to stamp, per destination; OSEQ expected, per source -/
  oseqTx : Tab Nat := []
  oseqRx : Tab Nat := []
  /-- reorder store: core clock of arrival and packet, oldest first -/
  store : List (Nat × Packet) := []
  hopDiscard : Nat := 0
  routeFail : Nat := 0
  oseqGap : Nat := 0
  mgtRefused : Nat := 0
  bufs : List ReBuf := []
  unreach : List Nat := []
  /-- domains known to be DOWN: one has answered NACK-DOWN and nothing else since (Table 3.8; DESIGN CHOICE, safe:
  notes/assumptions/99.md) -/
  downDoms : List Nat := []
  /-- route-table entries with an uncorrectable error act as V = 0 (Table 15.1) -/
  badRt : List Nat := []
  deriving DecidableEq, Repr

/-- The E9's own domain (R329, R330). -/
structure Dom where
  /-- 0 UNSET, 1 FORMING, 2 UP, 3 DOWN -/
  st : Nat := 0
  /-- table: presence in bits [127:0], domain in bits [135:128] -/
  table : Tmr 136 := Tmr.of 0
  digest : BitVec 32 := 0
  joining : Bool := false
  joinBeat : Nat := 0
  sentReady : Bool := false
  /-- still sending READY after UP (R330 step 3) -/
  readyAfter : Bool := false
  gotJoin : List Nat := []
  gotReady : List Nat := []
  seenUp : List Nat := []
  /-- core clock of the last heartbeat from each member -/
  hb : Tab Nat := []
  /-- a domain-fail notice still to be resent: beats left and the notice -/
  notice : Option (Nat × FailNotice) := none
  /-- beat in which heartbeats or membership packets were last sent -/
  hbBeat : Option Nat := none
  memBeat : Option Nat := none
  noticeBeat : Option Nat := none
  /-- a DOWN entry whose steps have not run (R405) -/
  downDue : Bool := false
  /-- NACK-DOWN answers are in force (R405, R407) -/
  nack : Bool := false
  deriving DecidableEq, Repr

/-! ## Machine time (chapter 8) -/

/-- The MTU. -/
structure Mtu where
  mt : Nat := 0
  lock : Nat := 0
  lockLosses : Nat := 0
  deferred : Nat := 0
  schErr : Bool := false
  schErrEntry : Nat := 0
  guard : Nat := 1
  stepped : Bool := false
  ahead : Bool := false
  inGuard : Bool := false
  inLull : Bool := false
  /-- beat of the lull that the guard or lull in progress belongs to, and its width and ARG -/
  lullBeat : Nat := 0
  lullWidth : Nat := 0
  lullArg : BitVec 32 := 0
  /-- a pending TIME_SET value (R215) -/
  pendingSet : Option Nat := none
  /-- marks in succession that fell right -/
  goodMarks : Nat := 0
  /-- MT just after the last mark -/
  markMt : Nat := 0
  /-- reference value v that MT runs ahead of: half rate, or held -/
  half : Option Nat := none
  hold : Option Nat := none
  /-- the last measured offset, and what of it is still to be slewed -/
  ofs : Int := 0
  slew : Int := 0
  stratum : Nat := 255
  steer : Option Nat := none
  goodOfs : Nat := 0
  badOfs : Nat := 0
  stampBeat : Nat := 0
  /-- latched high half of MTU_NOW (R237) -/
  latch : BitVec 32 := 0
  /-- schedule entries: T in bits [63:0], A's ARG in bits [95:64], triple-stored -/
  sch : Tab (Tmr 96) := []
  /-- entries as they stood before a write in beat `schBeat`: in force until that beat ends (R223) -/
  schOld : List (Nat × BitVec 96) := []
  schBeat : Nat := 0
  /-- entries that have already fired in the present beat -/
  firedBeat : Nat := 0
  fired : List Nat := []
  /-- first beat at which lulls and refresh phase may fire after lock (R235) -/
  resumeBeat : Nat := 0
  /-- the beats before and after the last forward step of MT (R222) -/
  stepFrom : Option (Nat × Nat) := none
  /-- home transactions that peers had opened when the lull began: slice, tracker, order number (R162) -/
  lullTrks : List (Nat × Nat × Nat) := []
  deriving DecidableEq, Repr

/-! ## Channels (chapter 10) -/

/-- An access queued at a command unit (R257). -/
structure ChReq where
  seq : Nat
  bank : Nat
  row : Nat
  wr : Bool
  /-- far: line index lo; near: set row × 16 + slot -/
  addr : Nat
  /-- write data and poison of a far write; none for near accesses, whose values pass at the slice -/
  data : Option (Line × Bool) := none
  /-- enabled bytes of a partial far write -/
  be : Option (BitVec 64) := none
  /-- read token to fulfil -/
  tok : Option Nat := none
  /-- a carried request that lulls wait for (R162) -/
  pre : Bool := false
  deriving DecidableEq, Repr

/-- An activate-count entry (R265). -/
structure ActEnt where
  row : Option Nat := none
  cnt : Nat := 0
  pend : Bool := false
  deriving DecidableEq, Repr

/-- A merge-buffer entry (R390). -/
structure MergeEnt where
  addr : Nat
  data : Line
  be : BitVec 64
  poison : Bool := false
  t0 : Nat
  deriving DecidableEq, Repr

/-- A bank of a command unit. -/
structure BankSt where
  /-- open row + 1, or 0 -/
  row : Nat := 0
  lastCol : Nat := 0
  /-- column commands since another row waits (R259) -/
  hits : Nat := 0
  /-- writes that keep the bank in in-order mode (R261) -/
  ord : List Nat := []
  /-- activates since the last window (R266), and the rolling count (R265) -/
  acts : Nat := 0
  raa : Nat := 0
  tbl : List ActEnt := []
  deriving DecidableEq, Repr

/-- One command unit (Table 10.1). -/
structure CUnit where
  q : List ChReq := []
  /-- accesses that wait outside for room (R257) -/
  hold : List ChReq := []
  banks : Tab BankSt := []
  lastAct : Nat := 0
  drain : Bool := false
  /-- the last column command was a read, for alternation -/
  lastRd : Bool := false
  /-- banks still to be refreshed in the open window -/
  win : List Nat := []
  merge : List MergeEnt := []
  deriving DecidableEq, Repr

/-- Lull work of a channel. -/
structure LullSt where
  /-- accesses waited for before work starts -/
  started : Bool := false
  /-- next segment kind, 1–4, and the one running -/
  next : Nat := 1
  cur : Option Nat := none
  owed : Nat := 0
  deriving DecidableEq, Repr

/-- One channel: NMC[n] is channel n, FMC[k] is channel 64 + k. -/
structure Chan where
  /-- full training has passed (Table 10.8) -/
  trained : Bool := false
  /-- it can be accessed: trained in full, or, a far one, on rank index 0 for level 1 (Table 16.2) -/
  ready : Bool := false
  frozen : Bool := false
  cause : Nat := 0
  frzMt : Nat := 0
  frzRd : Nat := 0
  frzWr : Nat := 0
  frzCmd : FrzCmd := {}
  /-- refresh stopped after a further parity error (R274) -/
  refreshLost : Bool := false
  sr : Bool := false
  retrainFails : Nat := 0
  nbr : Nat := 0
  inorder : Nat := 0
  idleBeat : Nat := 0
  training : Bool := false
  /-- the training is that of CH_THAW, which discarded so many accesses -/
  thaw : Bool := false
  discarded : Nat := 0
  /-- RD_THRESH as the last refresh window took it (R278); 0 before the first -/
  th : Nat := 0
  bist : Bool := false
  u0 : CUnit := {}
  u1 : CUnit := {}
  nextRefresh : Nat := 0
  scrub : Nat := 0
  /-- scrub reads that wait until their bank has no queued access, with what the code finds (R397) -/
  scrubQ : List (Nat × ArrErr) := []
  /-- no lull since reset: every named row is due (R267) -/
  fresh : Bool := true
  /-- its refresh runs free of MT: from a loss of lock to the first refresh-phase firing after it (R235) -/
  free : Bool := true
  /-- it is leaving self-refresh and clears the PASR blocks first (R273) -/
  waking : Bool := false
  lull : LullSt := {}
  deriving DecidableEq, Repr

/-- A far-memory read on its way (R67). -/
structure MemRd where
  tok : Nat
  lo : Nat
  /-- the slice and tracker it was issued for -/
  n : Nat
  htid : Nat
  /-- its data and poison, once the channel has read it -/
  got : Option (Line × Bool) := none
  deriving DecidableEq, Repr

/-- A zeroing tracker (R393). -/
structure ZTrk where
  ch : Nat
  page : Nat
  mask : BitVec 64
  deriving DecidableEq, Repr

/-- The channels and the memory behind them. -/
structure Mem where
  chans : Tab Chan := []
  /-- far memory, by node-local byte offset -/
  far : Memory := []
  /-- far lines written poisoned, and far lines written since reset (level 1), as sets of line indexes -/
  farPoison : Tab Bool := []
  farWritten : Tab Bool := []
  /-- far channels whose every line a BIST run has written zero (R496) -/
  farZero : BitVec 8 := 0
  /-- house words whose merge met an uncorrectable error, as channel and word: what they belong to has yet to meet it (R390) -/
  houseUe : List (Nat × Nat) := []
  /-- which contents the DRAM has held since they were last lost (R413): the model's own (DESIGN CHOICE, safe: notes/assumptions/20.md) -/
  dram : Nat := 0
  /-- pages whose zero-map bit is 1 (R391) -/
  zmap : Tab Bool := []
  ztrk : List ZTrk := []
  reads : List MemRd := []
  nextTok : Nat := 0
  nextSeq : Nat := 0
  /-- data ways, by near byte address (set × 1024 + 64 × slot); and slots poisoned -/
  near : Memory := []
  nearPoison : Tab Bool := []
  tags : Tab TagBlk := []
  recs : Tab SetRec := []
  /-- near slots that the raw path has written with bits the model's own form drops: the line, and what that form gave then (R441) -/
  raw : Tab (Line × Line) := []
  pasrMask : BitVec 8 := 0
  pasrEn : Bool := false
  /-- R and K of Table 10.2 -/
  rbits : Nat := 16
  kbits : Nat := 0
  popSet : Bool := false
  /-- soft and hard repairs, keyed channel × 2 + sub, and rows repaired softly -/
  softPpr : Tab Nat := []
  hardPpr : Tab Nat := []
  deriving DecidableEq, Repr

/-! ## Porters and queues (chapter 14) -/

/-- A descriptor's running state. -/
structure Desc where
  seq : Nat
  cq : Nat := 0
  ctx : Nat := 0
  flags : BitVec 8 := 0
  aop : Nat := 0
  opc : Nat := 0
  src : Nat := 0
  dst : Nat := 0
  deadline : Nat := 0
  count : Nat := 0
  len : Nat := 0
  stride : Int := 0
  token : Word := 0
  w7 : Word := 0
  opnd : BitVec 128 := 0
  cmp : BitVec 128 := 0
  /-- the cell breaks R362, or the item has more than one cell -/
  bad : Bool := false
  /-- its cell was read with an uncorrectable error (R377) -/
  lost : Bool := false
  active : Bool := false
  /-- next source byte and next destination byte to issue, as offsets in the data stream -/
  rdAt : Nat := 0
  wrAt : Nat := 0
  /-- bytes read and not yet written, by stream offset -/
  buf : Memory := []
  /-- offsets of the stream that have been read -/
  have_ : Tab Bool := []
  rdOut : Nat := 0
  wrOut : Nat := 0
  bytes : Nat := 0
  /-- status once a failure or abort has fixed it -/
  stat : Option Nat := none
  failVa : Nat := 0
  failSub : Nat := 0
  failSide : Nat := 0
  failNode : Nat := 0
  /-- result of an ATOMIC -/
  old : BitVec 128 := 0
  succ : Bool := false
  /-- notification: 0 none, 1 due, 2 in flight, 3 to send again -/
  note : Nat := 0
  noteAt : Nat := 0
  noteT0 : Nat := 0
  notePaused0 : Nat := 0
  /-- double advance awaited by an ACQUIRE descriptor: its order number -/
  advTicket : Option Nat := none
  ended : Bool := false
  /-- a translation for it is pending: of its source, of its destination -/
  xsrc : Bool := false
  xdst : Bool := false
  /-- what a walk delivered for the next source and destination piece -/
  trSrc : Option TlbEnt := none
  trDst : Option TlbEnt := none
  /-- MT at the commit point -/
  endMt : Nat := 0
  deriving DecidableEq, Repr

/-- A piece on its way (R201): its stream offset and length, and its answer when it has come. -/
structure Piece where
  pid : Nat
  seq : Nat
  wr : Bool
  at_ : Nat
  len : Nat
  /-- byte offset of the piece in its line -/
  lo : Nat
  va : Nat
  node : Nat := 0
  /-- data, poison, failure: 0 none, else a status of Table 14.5, with a Table 11.5 code -/
  got : Option (Line × Bool × Nat) := none
  deriving DecidableEq, Repr

/-- A held completion record. -/
structure HeldRec where
  seq : Nat
  q : Nat
  cell : Line
  irq : Bool
  /-- it stands at the queue manager -/
  offered : Bool := false
  /-- it has been refused, and is held (R372) -/
  refused : Bool := false
  /-- core clock from which it may be offered again -/
  at_ : Nat := 0
  deriving DecidableEq, Repr

/-- One porter. -/
structure Porter where
  seqNext : BitVec 32 := 0
  descs : List Desc := []
  pieces : List Piece := []
  nextPid : Nat := 0
  held : List HeldRec := []
  /-- ACQUIRE descriptors whose double advance is not yet known to be complete: number and order number of the advance -/
  acqs : List (Nat × Nat) := []
  halted : Bool := false
  haltCause : Nat := 0
  deriving DecidableEq, Repr

/-- The hardware's fields of a queue-table entry (Table 14.7). -/
structure QEnt where
  lost : Nat := 0
  refused : Nat := 0
  torn : Bool := false
  err : Bool := false
  count : Nat := 0
  items : Nat := 0
  curLen : Nat := 0
  curOff : Nat := 0
  head : Nat := 0
  tail : Nat := 0
  /-- software's fields: NVEC, NLINK, NMODE, FABRIC, MODE, EN and LIMIT -/
  nvec : Nat := 0
  nlink : Nat := 0
  nmode : Nat := 0
  fabric : Nat := 0
  mode : Nat := 0
  en : Bool := false
  limit : Nat := 0
  deriving DecidableEq, Repr

/-- Who offers an item (R380). -/
inductive OfferBy where
  | porter (p seq : Nat)
  | slot (link k size : Nat)
  | fabric (node porter seq : Nat)
  | notify (p seq : Nat)
  deriving DecidableEq, Repr

/-- An offered item. -/
structure QOffer where
  who : OfferBy
  q : Nat
  cells : List Line
  /-- core clock of the offer -/
  at_ : Nat := 0
  deriving DecidableEq, Repr

/-- A link word: LAST and NEXT (R376). -/
structure LinkW where
  last : Bool := false
  next : Nat := 0
  deriving DecidableEq, Repr

/-- The queue manager. -/
structure Qmg where
  qs : Tab QEnt := []
  cells : Tab Line := []
  links : Tab LinkW := []
  /-- cells returned to the free list, oldest first; then the cells never used, from `fresh` up to below `freshEnd` -/
  free : List Nat := []
  fresh : Nat := 0
  freshEnd : Nat := 0
  /-- C of R376; 0 before the level-2 step -/
  total : Nat := 0
  leaked : Nat := 0
  offers : List QOffer := []
  /-- cells that hold a completion record, with its porter's number plus 1 (Table 14.8) -/
  recCells : Tab Nat := []
  lastPorter : Nat := 0
  /-- slots' bound queues are registers; the stages are memory, by slot × 4096 + offset -/
  stage : Memory := []
  deriving DecidableEq, Repr

/-! ## Integrity (chapter 15) -/

/-- A ledger record (Table 15.5). -/
structure LRec where
  mt : Nat
  typ : Nat
  sev : Nat
  inj : Bool := false
  unlocked : Bool := false
  u : Nat
  node : Nat := 0xFFFF
  addr : Nat := 0
  detail : Nat := 0
  deriving DecidableEq, Repr

/-- A leaky bucket. -/
structure Bucket where
  level : Nat := 0
  ovf : Bool := false
  /-- a record has been written and LEVEL has not fallen to LIMIT / 2 since -/
  told : Bool := false
  deriving DecidableEq, Repr

/-- A word that injection has corrupted, until it is written anew (R399). -/
structure Flip where
  target : Nat
  inst : Nat
  addr : Nat
  /-- what a read finds, for a pattern within the code's capability -/
  err : Option ArrErr := none
  /-- how its stored data and check bits differ from what it reads as -/
  data : Line := 0
  chk : BitVec 128 := 0
  deriving DecidableEq, Repr

/-- RAS. -/
structure Ras where
  /-- slot and record, oldest first -/
  ring : List (Nat × LRec) := []
  lost : Nat := 0
  inService : Bool := false
  pend : List LRec := []
  pendLost : Nat := 0
  bkt : Tab Bucket := []
  arm : Bool := false
  flipAdr : Word := 0
  /-- kind, instance and address of the last corrupted word, for INJECTED; and the mask it was given -/
  flipAt : Option (Nat × Nat × Nat) := none
  pgcInit : Tab Bool := []
  /-- address order position of the page-code scrub per region -/
  pgcScrub : Nat := 0
  /-- zero-map lines that are cached on die, the first to have come first (R391) -/
  zcache : List Nat := []
  /-- words that injection has corrupted (R399) -/
  latent : List Flip := []
  /-- fatal internal errors met and not yet acted on: unit, INJECTED, detail (R404) -/
  fatalDue : List (Nat × Bool × Nat) := []
  /-- amounts of the leaky-bucket firings of this clock (R398) -/
  leaks : List Nat := []
  /-- triple-stored words whose loss of majority has been acted on (Table 15.2) -/
  tmrTold : List Nat := []
  deriving DecidableEq, Repr

/-! ## Management (chapters 16, 17) -/

/-- A command that is queued or executing. -/
structure Run where
  id : Nat
  hdr : CmdHdr
  body : CmdBody
  /-- clock of its arrival, and its carrier's place among those of one clock: the host link, 8 for MCTP, 9 and the reassembly buffer (R434) -/
  clk : Nat := 0
  rank : Nat := 9
  /-- the domain was DOWN when a clerk took it -/
  down : Bool := false
  deriving DecidableEq, Repr

/-- A range operation or sweep in progress (R105, R100, R108). -/
structure RangeSt where
  runId : Nat
  /-- 0–5 as OP; 6 raise F; 7 enter BYPASS; 8 lower F -/
  op : Nat
  whole : Bool := false
  hosts : Bool := false
  keep : Bool := false
  base : Nat := 0
  len : Nat := 0
  /-- target F of a partition change, or mode -/
  arg : Nat := 0
  /-- per slice: next block of 64 lines, or next row, to visit -/
  ptr : Tab Nat := []
  /-- per slice: ways of the present row that are done, way w as bit w -/
  ways : Tab Nat := []
  affected : Nat := 0
  refused : Nat := 0
  lost : Nat := 0
  poison : Nat := 0
  retired : Nat := 0
  restored : Nat := 0
  dirty : Nat := 0
  deriving DecidableEq, Repr

/-- A PASR clearing in progress (R273): the command that asked for it, the rank mask, the pages marked, the directory entries
still to be recalled as bank and line, and the lines recalled. -/
structure Pasr where
  runId : Option Nat := none
  /-- the mask that the command leaves in force; none for the exit of a channel from self-refresh -/
  set : Option (BitVec 8) := none
  /-- 1 once the copies of this E9 and its hosts have gone -/
  pass : Nat := 0
  mask : BitVec 8 := 0
  pages : Nat := 0
  due : List (Nat × Nat) := []
  recalled : Nat := 0
  deriving DecidableEq, Repr

/-- A firmware image slot in flash (R415). -/
structure FlashSlot where
  /-- the complement of each byte, so that an unlisted byte reads as an erased one -/
  bytes : Memory := []
  /-- bytes programmed since the last erase, as ranges -/
  prog : List (Nat × Nat) := []
  /-- FW_ERASE has erased it since power came up -/
  erased : Bool := false
  /-- a reset came while FW_ERASE or FW_WRITE was at work: it fails verification until it is erased anew (R442, Table 16.6) -/
  broken : Bool := false
  deriving DecidableEq, Repr

/-- MGT. -/
structure Mgt where
  queue : List Run := []
  running : List Run := []
  nextId : Nat := 0
  range : Option RangeSt := none
  moving : Bool := false
  transition : Bool := false
  flashA : FlashSlot := {}
  flashB : FlashSlot := {}
  /-- BIST in progress: run id, target, instance -/
  bist : Option (Nat × Nat × Nat) := none
  /-- PASR clearing in progress -/
  pasr : Option Pasr := none
  /-- near channels thawed since the last reform or reset (R407) -/
  thawed : List Nat := []
  /-- dynamic address of the management I3C target; none until its controller assigns one (R482) -/
  i3c : Option (BitVec 7) := none
  deriving DecidableEq, Repr

/-! ## Counters, trace, power, test access (chapters 18, 20, 21) -/

/-- One programmable counter. -/
structure Cnt where
  evsel : BitVec 16 := 0
  routing : Bool := false
  routeAt : Nat := 0
  ovf : Bool := false
  chain : Bool := false
  edge : Bool := false
  en : Bool := false
  count : Nat := 0
  /-- the event's value in the last clock was nonzero -/
  was : Bool := false
  deriving DecidableEq, Repr

/-- A counting unit. -/
structure Tly where
  cnt : Tab Cnt := []
  seq : BitVec 32 := 0
  snapMt : Nat := 0
  snapCyc : Nat := 0
  snap : Tab Nat := []
  /-- latched upper halves (R452), keyed by register offset -/
  latch : Tab Nat := []
  deriving DecidableEq, Repr

/-- The trace unit. -/
structure Trc where
  buf : Tab (BitVec 256) := []
  next : Nat := 0
  wraps : Nat := 0
  dropped : Nat := 0
  full : Bool := false
  triggered : Bool := false
  postLeft : Option Nat := none
  /-- core clock of the last record: at most one per clock -/
  lastClk : Option Nat := none
  deriving DecidableEq, Repr

/-- A temperature sensor (Table 20.9). -/
structure Temp where
  valid : Bool := false
  t : BitVec 16 := 0
  max : BitVec 16 := 0
  deriving DecidableEq, Repr

/-- Power, resets and the package's inputs and outputs. -/
structure Pcr where
  /-- PWR_GOOD high -/
  pwrGood : Bool := true
  /-- stopped until PWR_GOOD falls and rises (R476, R486) -/
  stopped : Bool := false
  /-- bring-up held before step 1 for a rail out of range -/
  railHold : Bool := false
  resetLow : Bool := false
  halves : BitVec 4 := 0
  railFault : BitVec 8 := 0
  tripped : Bool := false
  thermtripLow : Bool := false
  temps : Tab Temp := []
  thermWarn : Bool := false
  deriving DecidableEq, Repr

/-- Bring-up (chapter 16). -/
structure Boot where
  level : Nat := 0
  step : Nat := 1
  /-- paused at the end of `step` by STOP_AT -/
  paused : Bool := false
  /-- bring-up has stopped on a failure -/
  stopped : Bool := false
  stopCause : Nat := 0
  stopUnit : Nat := 0xFF
  fwFallback : Bool := false
  fwSlot : Bool := false
  fwRom : Bool := true
  fwVersion : BitVec 32 := 0
  nodeSet : Bool := false
  lastReset : Nat := 1
  /-- clerk state flags: the device state, 0 BRINGUP, 1 SERVICE, 2 MAINTENANCE (triple-stored) -/
  dev : Tmr 2 := Tmr.of 0
  stopAt : BitVec 2 := 3
  /-- memory windows withdrawn during step 4 (R413) -/
  withdrawn : Bool := false
  deriving DecidableEq, Repr

/-- The TAP (chapter 21). -/
structure Tap where
  ir : BitVec 8 := 1
  /-- a controlling instruction holds the lands -/
  control : Bool := false
  refused : Bool := false
  soft : Tab Nat := []
  unrep : Tab Bool := []
  /-- the boundary register -/
  bsr : BitVec 2400 := 0
  deriving DecidableEq, Repr

/-! ## What leaves the E9 -/

/-- What an observer outside the E9 can see it send. -/
inductive Out where
  /-- a CXL.mem read answer: link, tag, data, poison, MetaValue (0 I, 1 S, 2 A) -/
  | memData (link : Nat) (tag : BitVec 16) (data : Line) (poison : Bool) (val : Nat)
  /-- a CXL.mem write answer -/
  | cmp (link : Nat) (tag : BitVec 16)
  /-- the end of a BIConflict handshake (R166) -/
  | biConflictAck (link : Nat) (tag : BitVec 16)
  /-- a credit returned: RwD when true -/
  | credit (link : Nat) (rwd : Bool)
  /-- BISnpInv or BISnpData -/
  | bisnp (link id key : Nat) (flat inv : Bool)
  /-- an MSI-X message -/
  | msix (link vec : Nat)
  /-- a CXL.io completion -/
  | ioData (link : Nat) (v : Word)
  /-- Completer Abort -/
  | ioAbort (link : Nat)
  /-- the response that CXL prescribes for an unsupported part -/
  | cxlUnsupported (link : Nat) (tag : BitVec 16)
  /-- a command's reply in the mailbox payload registers, with its CXL opcode and the return code Success (R428) -/
  | mailbox (link opcode : Nat) (bytes : List Byte)
  /-- a command's reply as a message of the vendor-defined PCI type, with its vendor ID (R429) -/
  | mctp (endpoint : Nat) (vendor : BitVec 16) (bytes : List Byte)
  /-- the mailbox's Background Command Started -/
  | background (link : Nat)
  /-- a flit -/
  | flit (p : Nat) (f : BitVec 2048)
  /-- an ident block -/
  | ident (p : Nat) (b : IdentBlk)
  /-- THERMTRIP_N driven low -/
  | thermtrip
  /-- data shifted from a TAP register: its length and bits -/
  | tdo (len : Nat) (v : BitVec 13888)
  /-- what drives the lands: 0 their functional drivers, 1 the boundary register, 2 it in pulse mode, 3 in train mode, 4 clamped,
  5 nothing -/
  | lands (mode : Nat) (v : BitVec 2400)
  deriving DecidableEq, Repr

/-- One E9 (DESIGN CHOICE, safe: notes/assumptions/1.md). -/
structure State where
  /-- the part number (R1); nothing changes it -/
  part : Part := .f144
  /-- core clocks of 0.5 ns since power came up (R3) -/
  clk : Nat := 0
  /-- CYCLES starts here (R444) -/
  cyc0 : Nat := 0
  /-- clocks spent between guard starts and lull ends, which deadlines do not count (R191, R249, R290) -/
  paused : Nat := 0
  /-- MODEL's own: how many free values have been taken -/
  free : Nat := 0
  /-- MODEL's own: what the codes will find in the arrays that the running command reads; nothing between commands
  (DESIGN CHOICE, unsafe: notes/assumptions/82.md) -/
  finds : Finds := {}
  pcr : Pcr := {}
  boot : Boot := {}
  /-- node number (R14), triple-stored -/
  node : Tmr 15 := Tmr.of 0
  /-- software-writable register bits, by offset in the register window, as the difference from the reset value -/
  csr : Tab Word := []
  /-- MSI-X tables: 8-byte words by link × 4096 + vector × 2 + word, as the difference from the reset value -/
  msix : Tab Word := []
  /-- GLB_IRQ -/
  irq : BitVec 6 := 0
  /-- GLB_PART: F, H, C packed as Table 4.1, triple-stored -/
  glbPart : Tmr 16 := Tmr.of 0x01D0#16
  /-- GLB_HOUSE, triple-stored -/
  glbHouse : Tmr 33 := Tmr.of 0x010620620#33
  /-- GLB_CACHE.MODE -/
  mode : Nat := 0
  slices : Tab Slice := []
  banks : Tab Bank := []
  mem : Mem := {}
  hsf : List HsfEnt := []
  bisnps : List BiSnp := []
  nextBi : Nat := 0
  links : Tab HLink := []
  hreqs : List HostReq := []
  /-- the next number of a host request, translation job or walker; 0 names none -/
  nextRid : Nat := 1
  accs : List Acc := []
  fails : List FailRec := []
  lse : Lse := {}
  fnc : Fnc := {}
  xlts : Tab Xlt := []
  xinv : XInv := {}
  ports : Tab FPort := []
  rtr : Rtr := {}
  dom : Dom := {}
  mtu : Mtu := {}
  pors : Tab Porter := []
  qmg : Qmg := {}
  ras : Ras := {}
  mgt : Mgt := {}
  tlys : Tab Tly := []
  /-- events of the present clock, by event number (R446) -/
  events : Tab Nat := []
  trc : Trc := {}
  tap : Tap := {}
  /-- everything sent, oldest first -/
  outs : List Out := []
  /-- the commands that wait, first in, first out -/
  pending : List Instr := []
  deriving DecidableEq, Repr

/-- MTU_SCH[i]_T and ARG packed as Mtu.sch holds them (Tables 8.6, 8.7). -/
def schWord (cls width phase period arg : Nat) (en : Bool) : BitVec 96 :=
  BitVec.ofNat 96 (arg * 2 ^ 64 + (if en then 2 ^ 63 else 0) + cls * 2 ^ 56 + width * 2 ^ 48 + phase * 2 ^ 22 + period)

/-- The schedule table at cold reset (Table 8.3). -/
def schReset : Tab (Tmr 96) :=
  [(0, Tmr.of (schWord 1 8 0 65536 0xF true)), (1, Tmr.of (schWord 2 1 0 4 0 true)), (2, Tmr.of (schWord 2 1 0 4 1 true)),
   (3, Tmr.of (schWord 3 1 0 1 0x00030001 true)), (4, Tmr.of (schWord 4 1 0 65536 0x100 true)),
   (5, Tmr.of (schWord 5 1 0 1024 0xFFFFFFFF true)), (6, Tmr.of (schWord 6 1 0 64 0 true)),
   (7, Tmr.of (schWord 7 1 0 1024 1 true)), (8, Tmr.of (schWord 8 1 0 1 0 true))]

/-- GLB_PART after a reset that runs the bring-up sweep, with H house ways (Table 4.1). -/
def partReset : Part → BitVec 16
  | .f144 => 0x01D0
  | .s72 => 0x02C0

/-- GLB_HOUSE at its reset values (Table 4.2). -/
def houseReset : Part → BitVec 33
  | .f144 => 0x10620620
  | .s72 => 0x20620620

/-- The E9 of part `p` right after a cold reset (R419, R423). -/
def State.resetOf (p : Part) : State :=
  { part := p, glbPart := Tmr.of (partReset p), glbHouse := Tmr.of (houseReset p), mtu := { sch := schReset } }

/-- The machine right after reset: an F144 whose PWR_GOOD has risen with every rail in range (DESIGN CHOICE, unsafe: notes/assumptions/11.md). -/
def State.reset : State := State.resetOf .f144

end Sys2Proof.Machine
end

