-- ==== Sys2Proof/Machine/Csr.lean ====
section
/-! DEFINITION. The software-writable registers: their offsets in the register window (R463), their reset values, and the
accessors that every unit reads its configuration by, with the clamps the field tables give. -/

namespace Sys2Proof.Machine

/-- Bits `[lo+w-1:lo]` of a register. -/
def fld (v : Word) (lo w : Nat) : Nat := v.toNat / 2 ^ lo % 2 ^ w

/-- One bit of a register. -/
def fbit (v : Word) (i : Nat) : Bool := v.getLsbD i

/-- `v` with bits `[lo+w-1:lo]` set to `x`. -/
def setFld (v : Word) (lo w x : Nat) : Word :=
  let m : Word := BitVec.ofNat 64 ((2 ^ w - 1) * 2 ^ lo)
  (v &&& ~~~m) ||| (BitVec.ofNat 64 (x % 2 ^ w * 2 ^ lo))

/-- `x` clamped to `[a, b]`. -/
def clampN (x a b : Nat) : Nat := max a (min b x)

/-! ### Offsets (Table 19.1 and the chapters' tables) -/

def offSlc (n r : Nat) : Nat := 0x400000 + n * 0x10000 + r
def offHpt (n r : Nat) : Nat := 0x100000 + n * 0x40000 + r
def offFpt (p r : Nat) : Nat := 0x200000 + p * 0x10000 + r
def offRt (d : Nat) : Nat := 0x300000 + 8 * d
def offRtr (r : Nat) : Nat := 0x340000 + r
/-- CH registers of channel `c`: NMC[c] below 64, FMC[c - 64] above (R278). -/
def offCh (c r : Nat) : Nat := if c < 64 then 0x800000 + c * 0x10000 + r else 0xC00000 + (c - 64) * 0x20000 + r
def offDir (b r : Nat) : Nat := 0xD00000 + b * 0x10000 + r
def offXlt (i r : Nat) : Nat := 0xE00000 + i * 0x10000 + r
def offDevr (j : Nat) : Nat := 0xE70000 + 8 * j
def offCtx (c r : Nat) : Nat := 0xE80000 + 16 * c + r
def offPor (p r : Nat) : Nat := 0xF00000 + p * 0x1000 + r
def offSlot (k r : Nat) : Nat := 0x1510000 + k * 0x4000 + r
def offRas (r : Nat) : Nat := 0x30000 + r
def offFnc (r : Nat) : Nat := 0x40000 + r
def offMtu (r : Nat) : Nat := 0x20000 + r
def offTly (u r : Nat) : Nat := 0x80000 + u * 0x100 + r
def offTrc (r : Nat) : Nat := 0x88000 + r

/-- The reset value of the writable bits of the register at window offset `o` (the Reset columns). -/
def csrReset (o : Nat) : Word :=
  if o == 0x210 then 0x100000
  else if o == offMtu 8 then 0x0000000100000100
  else if o == offRas 0 then 2
  else if 0x30100 ≤ o && o < 0x30180 && o % 16 == 0 then 0x0010000000000000
  else if 0x31000 ≤ o && o < 0x31000 + 8 * 217 then 0x400000
  else if o == 0x50000 then 64
  else if o == 0x70000 then 0x5A00
  else if 0x100000 ≤ o && o < 0x200000 then
    (let r := o % 0x40000
     if r == 0x10 || r == 0x18 then 0x200000
     else if r == 0x20 then 0x0018002000300000
     else if r == 0x50 then 1 else 0)
  else if 0x200000 ≤ o && o < 0x300000 then (if o % 0x10000 == 0 then 0x10000001 else 0)
  else if 0x300000 ≤ o && o < 0x340000 then 0x7CF8000000000000
  else if o == 0x340000 then 0x0000004000000000
  else if 0x400000 ≤ o && o < 0x800000 then
    (let r := o % 0x10000
     if r == 8 || r == 0x10 then 1 else if r == 0x100 then 0x10041205 else if r == 0x108 then 3 else 0)
  else if 0x800000 ≤ o && o < 0xC00000 then (if o % 0x10000 == 0 then 0x0000040000100003 else 0)
  else if 0xC00000 ≤ o && o < 0xD00000 then (if o % 0x20000 == 0 then 0x0000080000100003 else 0)
  else if 0xD00000 ≤ o && o < 0xE00000 then (if o % 0x10000 == 0 then 0x0000002000080010 else 0)
  else if 0xE00000 ≤ o && o < 0xE50000 then (if o % 0x10000 == 0 then 3 else 0)
  else if 0xE70000 ≤ o && o < 0xE70040 then 0x1800000000000000
  else if 0xE80000 ≤ o && o < 0xE90000 then (if o % 16 == 8 then 0x0000000004000034 else 0)
  else 0

/-- The writable bits of the register at offset `o` as they stand. -/
def State.csrGet (s : State) (o : Nat) : Word := csrReset o ^^^ Tab.get 0 s.csr o

/-- Set the writable bits of the register at offset `o`. -/
def State.csrPut (s : State) (o : Nat) (v : Word) : State := { s with csr := Tab.put 0 s.csr o (csrReset o ^^^ v) }

/-! ### Fields, with the clamps of their tables -/

/-- GLB_CACHE.RETIRE_THRESH (Table 4.4). -/
def State.retireThresh (s : State) : Nat := fld (s.csrGet 0x210) 16 16
/-- SLC[n]_TCC.EN (Table 2.10). -/
def State.tccEn (s : State) (n : Nat) : Bool := fbit (s.csrGet (offSlc n 8)) 0
/-- SLC[n]_WPC.EN (Table 2.11). -/
def State.wpcEn (s : State) (n : Nat) : Bool := fbit (s.csrGet (offSlc n 0x10)) 0
/-- SLC[n]_PFC (Table 3.9). -/
def State.pfc (s : State) (n : Nat) : Word := s.csrGet (offSlc n 0x100)
/-- SLC[n]_ALC.OFFER_ACCEPT and LOCAL_RD_ALLOC (Table 3.10). -/
def State.offerAccept (s : State) (n : Nat) : Bool := fbit (s.csrGet (offSlc n 0x108)) 1
def State.localRdAlloc (s : State) (n : Nat) : Bool := fbit (s.csrGet (offSlc n 0x108)) 0
/-- DIR[b]_CFG (Table 5.11): RETRY_GAP and HOLD in 4 ns units, TICKET_LIFE in beats. -/
def State.retryGap (s : State) (b : Nat) : Nat := max 1 (fld (s.csrGet (offDir b 0)) 32 8)
def State.ticketLife (s : State) (b : Nat) : Nat := max 1 (fld (s.csrGet (offDir b 0)) 16 8)
def State.holdTime (s : State) (b : Nat) : Nat := fld (s.csrGet (offDir b 0)) 0 8
/-- HPT[n]_DEC position of half h (Table 6.6). -/
def State.decPos (s : State) (n h : Nat) : Nat := fld (s.csrGet (offHpt n 8)) (8 * h) 3
/-- HPT[n]_GWIN[h] (Table 6.7): A clamped to 32–48, BASE with bits [A-1:32] taken as zero, CTX. -/
def State.gwinA (s : State) (n h : Nat) : Nat := clampN (fld (s.csrGet (offHpt n (0x10 + 8 * h))) 16 6) 32 48
def State.gwinBase (s : State) (n h : Nat) : Nat :=
  fld (s.csrGet (offHpt n (0x10 + 8 * h))) 32 25 * 2 ^ 32 / 2 ^ s.gwinA n h * 2 ^ s.gwinA n h
def State.gwinCtx (s : State) (n h : Nat) : Nat := fld (s.csrGet (offHpt n (0x10 + 8 * h))) 0 12
/-- HPT[n]_ADM (Table 6.8, R161). -/
def State.sliceGate (s : State) (n : Nat) : Nat := clampN (fld (s.csrGet (offHpt n 0x20)) 48 6) 8 24
def State.rwdFloat (s : State) (n : Nat) : Nat := clampN (fld (s.csrGet (offHpt n 0x20)) 32 6) 1 32
def State.reqFloat (s : State) (n : Nat) : Nat := clampN (fld (s.csrGet (offHpt n 0x20)) 16 6) 1 48
/-- HPT[n]_ORD (Table 7.9). -/
def State.ordWord (s : State) (n : Nat) : Word := s.csrGet (offHpt n 0x50)
def ordDevEa (w : Word) : Bool := fbit w 1
def ordCombine (w : Word) : Bool := fbit w 0
/-- LSE_CFG.UNLOCKED_PERIOD in beats (Table 7.10). -/
def State.unlockedPeriod (s : State) : Nat := clampN (fld (s.csrGet 0x50000) 0 11) 1 1024
/-- MTU_CFG (Table 8.10). -/
def State.domHops (s : State) : Nat := clampN (fld (s.csrGet (offMtu 8)) 32 4) 1 8
def State.master (s : State) : Bool := fbit (s.csrGet (offMtu 8)) 16
def State.fabRefine (s : State) : Bool := fbit (s.csrGet (offMtu 8)) 8
/-- CH_CFG (Table 10.7). -/
def State.srIdle (s : State) (c : Nat) : Nat := fld (s.csrGet (offCh c 0)) 48 16
def State.rdThresh (s : State) (c : Nat) : Nat := clampN (fld (s.csrGet (offCh c 0)) 32 16) 64 16384
def State.idleTimer (s : State) (c : Nat) : Nat := max 2 (fld (s.csrGet (offCh c 0)) 16 8)
def State.retrainEn (s : State) (c : Nat) : Bool := fbit (s.csrGet (offCh c 0)) 1
def State.rdEn (s : State) (c : Nat) : Bool := fbit (s.csrGet (offCh c 0)) 0
/-- XLT[i]_CFG (Table 11.8). -/
def State.specEn (s : State) (i : Nat) : Bool := fbit (s.csrGet (offXlt i 0)) 1
def State.wcEn (s : State) (i : Nat) : Bool := fbit (s.csrGet (offXlt i 0)) 0
/-- XLT_CTX[c] (Tables 11.12, 11.13): ROOT address, EN, MAX_AGE (0 means 4,096), SCOPE (0 acts as 3), MODE, LEVELS. -/
def State.ctxRoot (s : State) (c : Nat) : Nat := fld (s.csrGet (offCtx c 0)) 12 45 * 4096
def State.ctxEn (s : State) (c : Nat) : Bool := fbit (s.csrGet (offCtx c 8)) 63
def State.ctxMaxAge (s : State) (c : Nat) : Nat :=
  let a := fld (s.csrGet (offCtx c 8)) 16 12
  if a == 0 then 4096 else a
def State.ctxScope (s : State) (c : Nat) : Nat :=
  let a := fld (s.csrGet (offCtx c 8)) 4 2
  if a == 0 then 3 else a
def State.ctxExplicit (s : State) (c : Nat) : Bool := fbit (s.csrGet (offCtx c 8)) 3
def State.ctxLevels (s : State) (c : Nat) : Nat := fld (s.csrGet (offCtx c 8)) 0 3
/-- FPT[p]_CFG (Table 12.10). -/
def State.replayLimit (s : State) (p : Nat) : Nat := max 1 (fld (s.csrGet (offFpt p 0)) 24 8)
def State.degradeOk (s : State) (p : Nat) : Bool := fbit (s.csrGet (offFpt p 0)) 2
def State.portEn (s : State) (p : Nat) : Bool := fbit (s.csrGet (offFpt p 0)) 0
/-- RTR_CFG.COH_TIMEOUT in beats, RTR_MGT (Table 12.13). -/
def State.cohTimeout (s : State) : Nat := clampN (fld (s.csrGet (offRtr 0)) 32 16) 16 1024
def State.mgtAllow (s : State) : Nat := fld (s.csrGet (offRtr 8)) 62 2
def State.mgr (s : State) (i : Nat) : Nat := fld (s.csrGet (offRtr 8)) (15 * i) 15
/-- FNC_SYS_CFG and FNC_SYS_CHILD (Tables 13.6, 13.7). -/
def State.sysEn (s : State) : Bool := fbit (s.csrGet (offFnc 0x1000)) 63
def State.sysStartGen (s : State) : Nat := fld (s.csrGet (offFnc 0x1000)) 48 8
def State.sysRoot (s : State) : Nat := fld (s.csrGet (offFnc 0x1000)) 32 15
def State.sysParent (s : State) : Nat := fld (s.csrGet (offFnc 0x1000)) 16 15
def State.sysKids (s : State) : List Nat :=
  ((List.range 16).filter fun k => fbit (s.csrGet (offFnc (0x1008 + 8 * (k / 4)))) (16 * (k % 4) + 15)).map fun k =>
    fld (s.csrGet (offFnc (0x1008 + 8 * (k / 4)))) (16 * (k % 4)) 15
/-- POR[p]_CFG (Table 14.11). -/
def State.porEn (s : State) (p : Nat) : Bool := fbit (s.csrGet (offPor p 0)) 63
def State.porDq (s : State) (p : Nat) : Nat := fld (s.csrGet (offPor p 0)) 32 16
def State.porLink (s : State) (p : Nat) : Nat := fld (s.csrGet (offPor p 0)) 24 3
/-- QMG_SLOT[k]_CFG.QUEUE (Table 14.10). -/
def State.slotQueue (s : State) (k : Nat) : Nat := fld (s.csrGet (offSlot k 0x2000)) 0 16
/-- RAS_CFG (Table 15.7). -/
def State.injEn (s : State) : Bool := fbit (s.csrGet (offRas 0)) 8
def State.notifySev (s : State) : Nat := fld (s.csrGet (offRas 0)) 0 3
def State.bktLimit (s : State) (u : Nat) : Nat := max 1 (fld (s.csrGet (offRas (0x1000 + 8 * u))) 16 16)
/-- RAS_PGC[r] (Table 15.7): enabled, T, region base and size in bytes, parity base. -/
def State.pgcEn (s : State) (r : Nat) : Bool :=
  r < s.part.pgcRegions && fbit (s.csrGet (offRas (0x100 + 16 * r))) 63 && fld (s.csrGet (offRas (0x100 + 16 * r))) 0 21 != 0
def State.pgcT (s : State) (r : Nat) : Nat := clampN (fld (s.csrGet (offRas (0x100 + 16 * r))) 48 7) 4 64
def State.pgcBase (s : State) (r : Nat) : Nat := fld (s.csrGet (offRas (0x100 + 16 * r))) 21 21 * 2 ^ 21
def State.pgcSize (s : State) (r : Nat) : Nat := fld (s.csrGet (offRas (0x100 + 16 * r))) 0 21 * 2 ^ 21
def State.pgcPBase (s : State) (r : Nat) : Nat := fld (s.csrGet (offRas (0x108 + 16 * r))) 12 30 * 4096
/-- PCR_TCFG.WARN in °C (Table 20.7). -/
def State.warnLevel (s : State) : Nat := clampN (fld (s.csrGet 0x70000) 8 8) 60 95

end Sys2Proof.Machine
end

