-- ==== Sys2Proof/Machine/Ops.lean ====
section
/-! DEFINITION. The named operations that every family shares: reading and writing one instance of a unit, machine time,
triple-stored words, node numbers and line classes, signals, the ledger, events, trace and the sending of packets. -/

namespace Sys2Proof.Machine

/-! ### One instance of a unit -/

def State.slice (s : State) (n : Nat) : Slice := Tab.get {} s.slices n
def State.setSlice (s : State) (n : Nat) (x : Slice) : State := { s with slices := Tab.put {} s.slices n x }
def State.modSlice (s : State) (n : Nat) (f : Slice → Slice) : State := s.setSlice n (f (s.slice n))
def State.bank (s : State) (b : Nat) : Bank := Tab.get {} s.banks b
def State.chan (s : State) (c : Nat) : Chan := Tab.get {} s.mem.chans c
def State.setChan (s : State) (c : Nat) (x : Chan) : State :=
  { s with mem := { s.mem with chans := Tab.put {} s.mem.chans c x } }
def State.link (s : State) (l : Nat) : HLink := Tab.get {} s.links l
def State.setLink (s : State) (l : Nat) (x : HLink) : State := { s with links := Tab.put {} s.links l x }
def State.modLink (s : State) (l : Nat) (f : HLink → HLink) : State := s.setLink l (f (s.link l))
def State.port (s : State) (p : Nat) : FPort := Tab.get {} s.ports p
def State.setPort (s : State) (p : Nat) (x : FPort) : State := { s with ports := Tab.put {} s.ports p x }
def State.por (s : State) (p : Nat) : Porter := Tab.get {} s.pors p
def State.setPor (s : State) (p : Nat) (x : Porter) : State := { s with pors := Tab.put {} s.pors p x }
def State.xlt (s : State) (i : Nat) : Xlt := Tab.get {} s.xlts i
def State.setXlt (s : State) (i : Nat) (x : Xlt) : State := { s with xlts := Tab.put {} s.xlts i x }
def State.tly (s : State) (u : Nat) : Tly := Tab.get {} s.tlys u
def State.setTly (s : State) (u : Nat) (x : Tly) : State := { s with tlys := Tab.put {} s.tlys u x }
def State.cunit (s : State) (c u : Nat) : CUnit := if u == 0 then (s.chan c).u0 else (s.chan c).u1
def State.setCunit (s : State) (c u : Nat) (x : CUnit) : State :=
  let ch := s.chan c
  s.setChan c (if u == 0 then { ch with u0 := x } else { ch with u1 := x })

/-- Append what the E9 sends. -/
def State.emit (s : State) (o : Out) : State := { s with outs := s.outs ++ [o] }

/-! ### Time -/

/-- The units work: PWR_GOOD is high and nothing has stopped them (R424, R476, R486). What happens while they do not work, or is not due,
changes nothing (DESIGN CHOICE, safe: notes/assumptions/13.md). -/
def State.powered (s : State) : Bool := s.pcr.pwrGood && !s.pcr.stopped

/-- Powered, RESET_N high, and bring-up not held for a rail: the links can run (R412, R476). -/
def State.live (s : State) : Bool := s.powered && !s.pcr.resetLow && !s.pcr.railHold

/-- The number of the present beat (R3). -/
def State.beat (s : State) : Nat := s.mtu.mt / 1024

/-- MT is locked (R219). -/
def State.locked (s : State) : Bool := s.mtu.lock == 3

/-- Between a guard start and its lull end (R231). -/
def State.inPause (s : State) : Bool := s.mtu.inGuard || s.mtu.inLull

/-- Clocks since `t0`, less those a deadline does not count (R182, R191, R249, R290). -/
def State.ran (s : State) (t0 paused0 : Nat) : Nat := (s.clk - t0) - (s.paused - paused0)

/-- Clocks of one beat. -/
def beatClks : Nat := 2048

/-! ### Triple-stored words (R388) -/

/-- The usable copies, in order. -/
def Tmr.usable {n : Nat} (t : Tmr n) : List (BitVec n) :=
  (if t.b0 then [] else [t.c0]) ++ (if t.b1 then [] else [t.c1]) ++ (if t.b2 then [] else [t.c2])

/-- The word's value where there is a majority: the bitwise majority of three good copies, or two that agree. -/
def Tmr.value {n : Nat} (t : Tmr n) : Option (BitVec n) :=
  match t.usable with
  | [a, b, c] => some ((a &&& b) ||| (a &&& c) ||| (b &&& c))
  | [a, b] => if a = b then some a else none
  | _ => none

/-- The value a unit uses: the majority, or the first copy where there is none and Table 15.2 has not yet acted. -/
def Tmr.val {n : Nat} (t : Tmr n) : BitVec n := t.value.getD t.c0

/-- The copies disagree or one is set aside. -/
def Tmr.disagrees {n : Nat} (t : Tmr n) : Bool :=
  t.b0 || t.b1 || t.b2 || t.c0 != t.c1 || t.c1 != t.c2

/-- This E9's node number (R14). -/
def State.nodeNo (s : State) : Nat := s.node.val.toNat
def State.ownDomain (s : State) : Nat := s.nodeNo / 128
def State.ownMember (s : State) : Nat := s.nodeNo % 128
/-- The presence vector and the domain number of the domain table (R14). -/
def State.presence (s : State) : Nat := s.dom.table.val.toNat % 2 ^ 128
def State.tableDomain (s : State) : Nat := s.dom.table.val.toNat / 2 ^ 128
def State.isMember (s : State) (m : Nat) : Bool := m < 128 && s.presence.testBit m
/-- The members, and the other members. -/
def State.members (s : State) : List Nat := (List.range 128).filter s.isMember
def State.others (s : State) : List Nat := s.members.filter (· != s.ownMember)
/-- Node `d` is a member of this E9's own domain table (R15). -/
def State.peerNode (s : State) (d : Nat) : Bool := s.dom.st != 0 && d / 128 == s.tableDomain && s.isMember (d % 128)
/-- Device state: 0 BRINGUP, 1 SERVICE, 2 MAINTENANCE (R437). -/
def State.devState (s : State) : Nat := s.boot.dev.val.toNat
/-- RWL fields may be written (Table 0.3). -/
def State.rwlOpen (s : State) : Bool := s.devState != 1

/-! ### The partition (R94, R95) -/

def State.flatWays (s : State) : Nat := s.glbPart.val.toNat / 2 ^ 12 % 16
def State.houseWays (s : State) : Nat := s.glbPart.val.toNat / 2 ^ 8 % 16
def State.cacheWays (s : State) : Nat := s.glbPart.val.toNat / 2 ^ 4 % 16
/-- Flat ways that the flat window reaches: a change that lowers their number shrinks it at once (R101). -/
def State.flatOpen (s : State) : Nat :=
  match s.mgt.range with
  | some r => if r.op == 8 then r.arg else s.flatWays
  | none => s.flatWays
def partWord (f h c : Nat) : BitVec 16 := BitVec.ofNat 16 (f * 2 ^ 12 + h * 2 ^ 8 + c * 2 ^ 4)
/-- GLB_HOUSE fields (Table 4.2). -/
def State.dirGib (s : State) : Nat := s.glbHouse.val.toNat / 2 ^ 8 % 32
def State.poolGib (s : State) : Nat := s.glbHouse.val.toNat / 2 ^ 4 % 16

/-! ### Injection (R399) -/

/-- The armed injection corrupts this write by target `target`, instance `inst` (R399): ARM clears and RAS_FLIP_ADR names
the word (DEDUCED, unsafe: notes/assumptions/65.md). -/
def State.flipHere (s : State) (target inst : Nat) : Bool :=
  s.ras.arm && fld (s.csrGet (offRas 0x10)) 8 3 == target && fld (s.csrGet (offRas 0x10)) 0 8 == inst
/-- Bytes, or device nibbles, that an injection pattern touches. -/
def touchedBytes (mask : BitVec 64) (cm : BitVec 8) : Nat :=
  ((List.range 8).filter fun i => (mask.toNat / 2 ^ (8 * i)) % 256 != 0).length + (if cm = 0 then 0 else 1)
def touchedDevices (mask : BitVec 64) (cm : BitVec 8) : Nat :=
  ((List.range 8).filter fun d =>
      let sh := 8 * (d / 2) + 4 * (d % 2)
      mask.toNat / 2 ^ sh % 16 != 0 || mask.toNat / 2 ^ (sh + 32) % 16 != 0).length
    + (if cm.toNat % 16 == 0 then 0 else 1) + (if cm.toNat / 16 == 0 then 0 else 1)

/-- Bits of a pattern. -/
def flippedBits (mask : BitVec 64) (cm : BitVec 8) : Nat :=
  ((List.range 64).filter fun i => mask.getLsbD i).length + ((List.range 8).filter fun i => cm.getLsbD i).length
/-- The data bits of a pattern lie within 16 successive bits. -/
def burst16 (mask : BitVec 64) : Bool := (List.range 49).any fun i => mask.toNat / 2 ^ i * 2 ^ i == mask.toNat && mask.toNat / 2 ^ i < 2 ^ 16

/-- What the code of target `target` makes of a pattern within the capability that Table 15.1 states for it: corrected, or detected; none for
one beyond it, whose outcome the E9 does not promise (R399). -/
def flipVerdict (target : Nat) (mask : BitVec 64) (cm : BitVec 8) : Option ArrErr :=
  let by_ (n c d : Nat) : Option ArrErr := if n == 0 then some .none else if n ≤ c then some .ce else if n ≤ d then some .ue else none
  if target == 1 then by_ (touchedBytes mask cm) 3 5
  else if target == 2 then by_ (touchedDevices mask cm) 1 2
  else if target == 3 then by_ (touchedBytes mask cm) 2 6
  else if target == 4 then (if 2 < flippedBits mask cm && cm == 0 && burst16 mask then some .ue else by_ (flippedBits mask cm) 1 2)
  else by_ (flippedBits mask cm) 1 2

/-- The flip is of this word. -/
def Flip.at_ (e : Flip) (target inst addr : Nat) : Bool := e.target == target && e.inst == inst && e.addr == addr
/-- The words that injection corrupted, but the one at `addr`. -/
def State.otherFlips (s : State) (target inst addr : Nat) : List Flip := s.ras.latent.filter fun e => !e.at_ target inst addr
/-- The decoder's choice for a pattern beyond the capability of a data slot or far line: 0 as written, 1 a wrong value, 2 error, 3 poison
(DESIGN CHOICE, safe: notes/assumptions/7.md). -/
def State.flipBeyond (s : State) (target : Nat) : Option Nat :=
  let mask := s.csrGet (offRas 0x18)
  let cm := BitVec.ofNat 8 (fld (s.csrGet (offRas 0x10)) 48 8)
  if (target == 1 || target == 2) && (flipVerdict target mask cm).isNone then
    some (Config.flipOutcome mask cm (fld (s.csrGet (offRas 0x10)) 32 6) target s.free) else none
/-- The corrupted word: MASK lies in its 64 bits number WORD, CMASK on its check bits [7:0]; what its decoder makes a wrong value or poison of
differs from the stored word by that too. -/
def State.flipOf (s : State) (target inst addr : Nat) : Flip :=
  let mask := s.csrGet (offRas 0x18)
  let c := s.csrGet (offRas 0x10)
  let cm := BitVec.ofNat 8 (fld c 48 8)
  let o := s.flipBeyond target
  { target := target, inst := inst, addr := addr, err := flipVerdict target mask cm
    data := BitVec.ofNat 512 (mask.toNat * 2 ^ (64 * fld c 32 6)) ^^^ (if o == some 1 then Config.freeLine s.free else 0)
    chk := cm.setWidth 128
      ^^^ (if o == some 3 then (if target == 2 then Config.farPoison else Config.nearPoison.setWidth 128) else 0) }
/-- A word is written: by a write that injection corrupts, or anew. -/
def State.flipDone (s : State) (target inst addr : Nat) : State :=
  if s.flipHere target inst then
    { s with free := s.free + 1,
             ras := { s.ras with arm := false, flipAdr := BitVec.ofNat 64 addr, flipAt := some (target, inst, addr),
                                 latent := s.otherFlips target inst addr ++ [s.flipOf target inst addr] } }
  else if s.ras.latent.isEmpty then s
  else { s with ras := { s.ras with latent := s.otherFlips target inst addr } }
/-- A corrected word has been rewritten. -/
def State.flipMend (s : State) (target inst addr : Nat) : State :=
  if s.ras.latent.isEmpty then s else { s with ras := { s.ras with latent := s.otherFlips target inst addr } }
/-- What a read of a word finds: what its injected pattern makes it find, else `e` (R399). -/
def State.met (s : State) (target inst addr : Nat) (e : ArrErr) : ArrErr :=
  match s.ras.latent.find? fun x => x.at_ target inst addr with
  | some x => x.err.getD e
  | none => e

/-! ### Lines (R8, R41, R44) -/

/-- Node number of a line address (MA[56:42]). -/
def laNode (la : Nat) : Nat := la / 2 ^ 36
/-- Node-local line index MA[41:6]. -/
def laLocal (la : Nat) : Nat := la % 2 ^ 36
/-- Line address of a node-local line index. -/
def mkLa (node lo : Nat) : Nat := node * 2 ^ 36 + lo % 2 ^ 36

/-- Slice number (R44): the spec ANDs LA[22:18] with a zero bit in front, which keeps its five bits. -/
def sliceOf (la : Nat) : Nat :=
  (bits la 0 6) ^^^ (bits la 6 6) ^^^ (bits la 12 6) ^^^ (bits la 18 5)

/-- The mod-9 residue as the fixed unit computes it (R43). -/
def residue (h : Nat) : Nat :=
  let t := bits h 0 6 + bits h 6 6 + bits h 12 6 + bits h 18 6 + bits h 24 4
  let t := bits t 0 6 + bits t 6 3
  let t := bits t 0 6 + bits t 6 1
  t % 9

/-- High part, set index and tag of a line address (Table 2.8). -/
def highOf (p : Part) (la : Nat) : Nat := la / 2 ^ p.setLowBits
def setOf (p : Part) (la : Nat) : Nat := la % 2 ^ p.setLowBits + 2 ^ p.setLowBits * residue (highOf p la)
def tagOf (p : Part) (la : Nat) : BitVec 28 := BitVec.ofNat 28 (highOf p la)
/-- The line address of a resident line, from its tag and set. -/
def lineOf (p : Part) (set : Nat) (tag : BitVec 28) : Nat := tag.toNat * 2 ^ p.setLowBits + set % 2 ^ p.setLowBits
/-- Slice-local row number q (R30). -/
def rowOf (p : Part) (set : Nat) : Nat :=
  2 ^ (p.setLowBits - 6) * (set / 2 ^ p.setLowBits) + set % 2 ^ p.setLowBits / 64
/-- Owning slice of a set (R29). -/
def sliceOfSet (p : Part) (set : Nat) : Nat := sliceOf (set % 2 ^ p.setLowBits)
/-- The set of slice n whose slice-local row is q. -/
def setOfRow (p : Part) (n q : Nat) : Nat :=
  let c := q / 2 ^ (p.setLowBits - 6)
  let up := q % 2 ^ (p.setLowBits - 6)
  let j := n ^^^ bits up 0 6 ^^^ bits up 6 6 ^^^ bits up 12 5
  c * 2 ^ p.setLowBits + up * 64 + j
/-- NMC channel and channel-local row of a slice's row (Table 2.3). -/
def nmcOf (p : Part) (n : Nat) : Nat := match p with | .f144 => n | .s72 => n % 32
def chanRow (p : Part) (n q : Nat) : Nat := match p with | .f144 => q | .s72 => q + n / 32 * 1179648

/-- Line classes (R63). -/
inductive LClass where
  | loc
  | domRemote
  | other
  deriving DecidableEq, Repr

/-- The class of a line. -/
def State.classOf (s : State) (la : Nat) : LClass :=
  if laNode la == s.nodeNo then .loc
  else if laNode la / 128 == s.ownDomain then .domRemote
  else .other

/-- Bytes of far memory, 2^(R+K+22) (R255). -/
def State.farBytes (s : State) : Nat := if s.mem.popSet then 2 ^ (s.mem.rbits + s.mem.kbits + 22) else 0

/-! ### Signals (R169, R472) -/

/-- Host link `l` exists (R152, R153, R2). -/
def State.linkExists (s : State) (l : Nat) : Bool :=
  l / 2 < s.part.hostPorts && (l % 2 == 0 || s.pcr.halves.getLsbD (l / 2))

/-- MSI-X table word `w` of vector `v` of link `l`: word 1 holds the data and the vector control, masked at reset
(PRESUMED, unsafe: notes/assumptions/16.md). -/
def msixKey (l v w : Nat) : Nat := (l * 2048 + v) * 2 + w
def msixReset (key : Nat) : Word := if key % 2 == 1 then 0x0000000100000000 else 0
def State.msixGet (s : State) (key : Nat) : Word := msixReset key ^^^ Tab.get 0 s.msix key
def State.msixPut (s : State) (key : Nat) (v : Word) : State := { s with msix := Tab.put 0 s.msix key (msixReset key ^^^ v) }
def State.masked (s : State) (l v : Nat) : Bool := fbit (s.msixGet (msixKey l v 1)) 32

/-- Signal vector `v` on link `l`: a message, or pending while the entry is masked (R169). -/
def State.signal (s : State) (l v : Nat) : State :=
  if !s.linkExists l then s
  else if s.masked l v then s.modLink l fun x => if x.pba.contains v then x else { x with pba := x.pba ++ [v] }
  else s.emit (.msix l v)

/-- Signal vector `v`, 1 to 5, on every link, and set its cause bit (R472). -/
def State.signalAll (s : State) (v : Nat) : State :=
  (List.range 8).foldl (fun t l => t.signal l v) { s with irq := s.irq ||| BitVec.ofNat 6 (2 ^ v) }

/-! ### Events and trace (R446, R456) -/

/-- `k` occurrences of event `code` of unit `u` in this clock. -/
def State.event (s : State) (u code k : Nat) : State :=
  { s with events := Tab.put 0 s.events (u * 256 + code) (Tab.get 0 s.events (u * 256 + code) + k) }

/-- The trace unit's configuration word. -/
def State.trcCfg (s : State) : Word := s.csrGet (offTrc 0)

/-- A trace record (Table 18.4). -/
def trcRecord (mt addr u point code node tag detail : Nat) : BitVec 256 :=
  BitVec.ofNat 256 (mt % 2 ^ 64 + addr % 2 ^ 64 * 2 ^ 64 + u % 2 ^ 16 * 2 ^ 128 + point % 256 * 2 ^ 144 + code % 256 * 2 ^ 152
    + node % 2 ^ 16 * 2 ^ 160 + tag % 2 ^ 16 * 2 ^ 176 + detail % 2 ^ 64 * 2 ^ 192)

/-- Stop capturing. -/
def State.trcStop (s : State) : State := s.csrPut (offTrc 0) (setFld s.trcCfg 63 1 0)

/-- A candidate at a capture point (R455, R456, R458) (DEDUCED, unsafe: notes/assumptions/49.md). -/
def State.trace (s : State) (point u code addr node tag detail : Nat) : State :=
  let cfg := s.trcCfg
  let msk := (s.csrGet (offTrc 0x10)).toNat
  let f2 := s.csrGet (offTrc 0x18)
  if !(fbit cfg 63 && fld cfg 48 8 == point && fld cfg 40 8 == u) then s
  else if !((addr &&& msk) == ((s.csrGet (offTrc 8)).toNat &&& msk)) then s
  else if !((code &&& fld f2 0 8) == (fld f2 8 8 &&& fld f2 0 8)) then s
  else if s.trc.lastClk == some s.clk then { s with trc := { s.trc with dropped := satAdd 0xFFFF s.trc.dropped 1 } }
  else
    let i := s.trc.next
    let r := trcRecord s.mtu.mt addr u point code node tag detail
    let wrap := i + 1 == 131072
    let full := wrap && fbit cfg 62
    let left := s.trc.postLeft.map (· - 1)
    let t : Trc := { s.trc with buf := Tab.put 0 s.trc.buf i r
                                next := if wrap then 0 else i + 1
                                wraps := if wrap && !full then satAdd 0xFFFF s.trc.wraps 1 else s.trc.wraps
                                full := s.trc.full || full, postLeft := left, lastClk := some s.clk }
    let s := { s with trc := t }
    if full || left == some 0 then s.trcStop else s

/-! ### The ledger (R408, R499) -/

/-- Severity of a record type (Table 15.6). -/
def recSev (typ : Nat) : Nat :=
  if typ == 0x01 || typ == 0x08 || typ == 0x17 || typ == 0x1B then 1
  else if typ == 0x02 || typ == 0x0A || typ == 0x0C || typ == 0x14 || typ == 0x18 || typ == 0x0D then 3
  else if typ == 0x09 || typ == 0x0E || typ == 0x19 || typ == 0x1A then 4
  else 2

/-- Take the oldest record of severity 2 or below out of the ring: its slot and the rest. -/
def ringTake : List (Nat × LRec) → Option (Nat × List (Nat × LRec))
  | [] => none
  | (k, r) :: t => if r.sev ≤ 2 then some (k, t) else (ringTake t).map fun (j, u) => (j, (k, r) :: u)

/-- A record enters the ring, or is dropped (R408). -/
def State.ringPut (s : State) (r : LRec) : State :=
  let wr (ring : List (Nat × LRec)) : State :=
    let s := ({ s with ras := { s.ras with ring := ring } }).event 216 3 1
    let s := s.trace 4 216 (r.typ % 256) r.addr 0xFFFF 0 r.detail
    if s.notifySev ≤ r.sev then s.signalAll 2 else s
  if s.ras.ring.length < 4096 then wr (s.ras.ring ++ [(s.ras.ring.length, r)])
  else match ringTake s.ras.ring with
    | some (k, rest) => wr (rest ++ [(k, r)])
    | none => { s with ras := { s.ras with lost := satAdd 0xFFFF s.ras.lost 1 } }

/-- A required record: into the ring, or held until the ledger enters service (R499). -/
def State.recPut (s : State) (r : LRec) : State :=
  if s.ras.inService then s.ringPut r
  else if s.ras.pend.length < 64 then { s with ras := { s.ras with pend := s.ras.pend ++ [r] } }
  else { s with ras := { s.ras with pendLost := s.ras.pendLost + 1 } }

/-- Write a record of type `typ` about unit `u`. -/
def State.rec_ (s : State) (typ u node addr detail : Nat) : State :=
  s.recPut { mt := s.mtu.mt, typ := typ, sev := recSev typ, unlocked := !s.locked, u := u, node := node, addr := addr,
             detail := detail }

/-- The word that injection last corrupted is the one at `addr` of this target and instance (R399). -/
def State.injected (s : State) (kind inst addr : Nat) : Bool := s.ras.flipAt == some (kind, inst, addr)

/-- The same, marked INJECTED when the error lies at the word that injection last corrupted (R399). -/
def State.recErr (s : State) (typ u : Nat) (inj : Bool) (addr detail : Nat) : State :=
  s.recPut { mt := s.mtu.mt, typ := typ, sev := recSev typ, inj := inj,
             unlocked := !s.locked, u := u, addr := addr, detail := detail }

/-- Unit `u` of Table 15.3 is present on the part (R2). -/
def State.unitPresent (s : State) (u : Nat) : Bool :=
  if u < 64 then true
  else if u < 128 then u - 64 < s.part.nmcs
  else if u < 153 then true
  else if u < 169 then u - 153 < s.part.fabricPorts
  else if u == 169 then true
  else if u < 175 then s.part.xltPresent (u - 170)
  else if u < 207 then u - 175 < s.part.porters
  else if u < 211 then true
  else if u < 215 then u - 211 < s.part.hostPorts
  else u < 217

/-- A correctable error in unit `u`: the leaky bucket (R398). -/
def State.bucket (s : State) (u : Nat) : State :=
  let b := Tab.get {} s.ras.bkt u
  let lv := satAdd 0xFFFF b.level 1
  let hit := decide (s.bktLimit u ≤ lv)
  let b' : Bucket := { level := lv, ovf := b.ovf || hit, told := b.told || hit }
  let s' := ({ s with ras := { s.ras with bkt := Tab.put {} s.ras.bkt u b' } }).event 216 1 1
  if hit && !b.told then s'.rec_ 0x07 u 0xFFFF 0 lv else s'

/-! ### Free values (DESIGN CHOICE, safe: notes/assumptions/3.md) -/

/-- A free line, and the state that has taken it. -/
def State.freeLine (s : State) : Line × State := (Config.freeLine s.free, { s with free := s.free + 1 })
/-- A free truth value. -/
def State.freeBool (s : State) : Bool × State := (Config.freeBool s.free, { s with free := s.free + 1 })

/-! ### Sending packets (R315, R324) -/

/-- A packet from this node into the router: VN0 packets take the next OSEQ for their destination (R324). -/
def State.sendPkt (s : State) (dst vn : Nat) (bulk alt : Bool) (b : PktBody) : State :=
  let seq := if vn == 0 then Tab.get 0 s.rtr.oseqTx dst else 0
  let p : Packet := { dst := dst, src := s.nodeNo, vn := vn, bulk := bulk, alt := alt, oseq := seq, body := b }
  let tx := if vn == 0 then Tab.put 0 s.rtr.oseqTx dst ((seq + 1) % 256) else s.rtr.oseqTx
  { s with rtr := { s.rtr with q := s.rtr.q ++ [p], oseqTx := tx } }

/-- Virtual network of an opcode (Table 5.6, Table 7.12). -/
def opcVn (opc : Nat) : Nat :=
  if opc ≤ 6 then 0 else if opc ≤ 0x0A then 1 else if opc ≤ 0x15 then 2
  else if opc == 0x18 || opc == 0x19 || opc == 0x1A then 0 else 2

/-- Send a coherence message: TYPE 0, class bounded (Table 12.5). -/
def State.sendCoh (s : State) (dst : Nat) (m : CohMsg) : State := s.sendPkt dst (opcVn m.opc) false false (.coh false m)

/-- Send a global-access message, or a NACK that answers one: TYPE 1, class bulk (R179). -/
def State.sendGlob (s : State) (dst : Nat) (m : CohMsg) : State := s.sendPkt dst (opcVn m.opc) true false (.coh true m)

/-- Drop the first delivered packet that carries `b` from `src`: its unit now handles it (DESIGN CHOICE, safe: notes/assumptions/79.md). -/
def State.consume (s : State) (src : Nat) (b : PktBody) : State :=
  { s with rtr := { s.rtr with delivered := s.rtr.delivered.eraseP fun p => decide (p.src = src ∧ p.body = b) } }

/-- The packet carries message `m` from `src`. -/
def Packet.carries (p : Packet) (src : Nat) (m : CohMsg) : Bool :=
  match p.body with
  | .coh _ x => decide (p.src = src ∧ x = m)
  | _ => false

/-- Consume a coherence or global-access message. -/
def State.consumeCoh (s : State) (src : Nat) (m : CohMsg) : State :=
  { s with rtr := { s.rtr with delivered := s.rtr.delivered.eraseP fun p => Packet.carries p src m } }

/-- Mark a node unreachable (R192). -/
def State.markUnreach (s : State) (node : Nat) : State :=
  if s.rtr.unreach.contains node then s else { s with rtr := { s.rtr with unreach := s.rtr.unreach ++ [node] } }

def State.unreachable (s : State) (node : Nat) : Bool := s.rtr.unreach.contains node

/-! ### Accesses that fences cover (R337) -/

/-- An access has been performed or discarded. -/
def State.accDone (s : State) (aid : Nat) : State := { s with accs := s.accs.filter fun a => a.aid != aid }

/-- Charge a failure to the fence. -/
def Fence.charge (f : Fence) (r : FailRec) : Fence :=
  { f with seenDead := f.seenDead || !r.down, seenDown := f.seenDown || r.down, node := f.node.or (some r.node) }

/-- An invalidation's code after a failed access that it waits for: 1 dead, 2 its domain DOWN (R301, R351). -/
def worse (snap : List Nat) (aid code : Nat) (down : Bool) : Nat := if snap.contains aid then max code (if down then 2 else 1) else code

/-- Access `aid` of link or porter `who` failed at `node` (R192, R197): every pending fence whose snapshot holds it is charged, and what
no fence reports waits for the next one that covers it. -/
def State.accFail (s : State) (aid who node : Nat) (down : Bool) : State :=
  let r : FailRec := { aid := aid, who := who, node := node, down := down }
  let told := s.fnc.fences.any fun f => f.snap.contains aid && !f.gone && !f.mute
  { s with
    fnc := { s.fnc with
      fences := s.fnc.fences.map fun f => if f.snap.contains aid then f.charge r else f
      bcDom := { s.fnc.bcDom with code := worse s.fnc.bcDom.snap aid s.fnc.bcDom.code down }
      bcSys := { s.fnc.bcSys with code := worse s.fnc.bcSys.snap aid s.fnc.bcSys.code down } }
    xinv := { s.xinv with worst := worse s.xinv.snap aid s.xinv.worst down }
    fails := if told then s.fails else s.fails ++ [r] }

end Sys2Proof.Machine
end

