-- ==== Sys2Proof/Machine/Near.lean ====
section
/-! DEFINITION. Near memory as its slices use it: data ways, tag blocks, set records, the tag cache, the way predictor and
the queues of the near channels (chapters 2 and 3). -/

namespace Sys2Proof.Machine

/-! ### The near channels' queues -/

/-- Command unit and bank of an NMC's channel-local row (R254): pseudo-channel, and sid × 16 + bank with the row. -/
def nmcUnit (u : Nat) : Nat := u % 2
def nmcBank (u : Nat) : Nat := (u / 2 ^ 18 / 3) * 16 + u / 2 % 16
def nmcRow (u : Nat) : Nat := u / 2 ^ 18 % 3 * 2 ^ 13 + u / 32 % 2 ^ 13

/-- Reads and writes queued in a command unit. -/
def CUnit.reads (x : CUnit) : Nat := (x.q.filter fun r => !r.wr).length
def CUnit.writes (x : CUnit) : Nat := (x.q.filter fun r => r.wr).length

/-- A bank of a command unit. -/
def CUnit.bank (x : CUnit) (b : Nat) : BankSt := Tab.get {} x.banks b
def CUnit.setBank (x : CUnit) (b : Nat) (v : BankSt) : CUnit := { x with banks := Tab.put {} x.banks b v }

/-- A command unit has room for an access of the kind: it holds 64 reads and 64 writes (R257). -/
def CUnit.room (x : CUnit) (wr : Bool) : Bool := (if wr then x.writes else x.reads) < 64

/-- An access enters its bank list (R257). A read behind an earlier write to its row starts or extends in-order mode, until
that write has issued (R261). -/
def State.chanIn (s : State) (c u : Nat) (r : ChReq) : State :=
  let x := s.cunit c u
  let r := { r with seq := s.mem.nextSeq }
  let bk := x.bank r.bank
  let ws := if r.wr then [] else (x.q.filter fun w => w.wr && w.bank == r.bank && w.row == r.row).map (·.seq)
  let fresh := !ws.isEmpty && bk.ord.isEmpty
  let x := ({ x with q := x.q ++ [r] }).setBank r.bank { bk with ord := bk.ord ++ ws.filter fun k => !bk.ord.contains k }
  let s := ({ s with mem := { s.mem with nextSeq := s.mem.nextSeq + 1 } }).setCunit c u x
  let ch := s.chan c
  let s := s.setChan c { ch with idleBeat := s.beat, inorder := if fresh then satAdd 0xFFFF ch.inorder 1 else ch.inorder }
  if fresh then s.event (64 + c) 7 1 else s

/-- Accesses that wait for room go in while there is some, in order (R257): none past an earlier one of its row. -/
def CUnit.letIn (x : CUnit) : Option (ChReq × CUnit) :=
  (x.hold.find? fun r => x.room r.wr && !((x.hold.takeWhile fun e => e.seq != r.seq).any fun e => e.bank == r.bank && e.row == r.row)).map
    fun r => (r, { x with hold := x.hold.filter fun e => e.seq != r.seq })

/-- An access reaches its command unit: it enters its bank list, or waits outside while the 64 places of its kind are taken
(R257; DESIGN CHOICE, safe: notes/assumptions/14.md). -/
def State.chanEnq (s : State) (c u : Nat) (r : ChReq) : State :=
  let x := s.cunit c u
  if x.room r.wr && !(x.hold.any fun e => e.wr == r.wr || (e.bank == r.bank && e.row == r.row)) then s.chanIn c u r
  else
    ({ s with mem := { s.mem with nextSeq := s.mem.nextSeq + 1 } }).setCunit c u
      { x with hold := x.hold ++ [{ r with seq := s.mem.nextSeq }] }

/-- A column has left a command unit: those that wait for room go in. -/
def State.chanRefill (s : State) (c u : Nat) : State :=
  (List.range 2).foldl (fun s _ =>
    match (s.cunit c u).letIn with
    | some (r, x) => (s.setCunit c u x).chanIn c u r
    | none => s) s

/-- The near channel of slice `n` is frozen: the tag blocks, data ways and set records of its sets are not accessed (R275); or out of service under BIST (R496) (DEDUCED, safe: notes/assumptions/15.md). -/
def State.nearFrozen (s : State) (n : Nat) : Bool := (s.chan (nmcOf s.part n)).frozen || (s.chan (nmcOf s.part n)).bist

/-- Near channel `c` writes slot `a` of its rows: a tag block, or any other slot, that injection may corrupt (R399). -/
def State.flipNear (s : State) (c a : Nat) : State := s.flipDone (if a % 16 == 0 then 3 else 1) c (64 * a)

/-- A near access of slot `k` of a set row, as its channel schedules it: its value passes at the slice
(DESIGN CHOICE, safe: notes/assumptions/14.md). -/
def State.nearAccess (s : State) (n set k : Nat) (wr : Bool) : State :=
  let c := nmcOf s.part n
  let row := chanRow s.part n (rowOf s.part set)
  if s.nearFrozen n then s
  else (if wr then s.flipNear c (row * 16 + k) else s).chanEnq c (nmcUnit row)
    { seq := 0, bank := nmcBank row, row := nmcRow row, wr := wr, addr := row * 16 + k, pre := !s.mtu.inLull }

/-- The write path of slice `n` to its near channel is full for a set's row (R58). -/
def State.nearFull (s : State) (n set : Nat) : Bool :=
  let x := s.cunit (nmcOf s.part n) (nmcUnit (chanRow s.part n (rowOf s.part set)))
  !x.room true || x.hold.any (·.wr)

/-- Slot of a flat line index (R99): set and way. -/
def flatSlot (p : Part) (houseWays fla : Nat) : Nat × Nat :=
  let g := fla / 2 ^ p.setLowBits
  (fla % 2 ^ p.setLowBits + 2 ^ p.setLowBits * (g % 9), 14 - houseWays - g / 9)

/-- Slot of a house-space line index (R97). -/
def houseSlot (p : Part) (houseWays hla : Nat) : Nat × Nat :=
  let g := hla / 2 ^ p.setLowBits
  (hla % 2 ^ p.setLowBits + 2 ^ p.setLowBits * (g % 9), 15 - houseWays + g / 9)

/-- House-space line index of a slot of a house way: the inverse of R97's placement. -/
def State.houseIndex (s : State) (set w : Nat) : Nat :=
  let b := s.part.setLowBits
  ((w - (15 - s.houseWays)) * 9 + set / 2 ^ b) * 2 ^ b + set % 2 ^ b

/-- What a house line belongs to (R97), with its offset in that part. -/
inductive HousePart where
  | zmap (o : Nat)
  | dir (o : Nat)
  | links (o : Nat)
  | cells (o : Nat)
  | rest
  deriving DecidableEq, Repr

def State.housePart (s : State) (hla : Nat) : HousePart :=
  let o := 64 * hla
  let d := 2 ^ 27 + s.dirGib * 2 ^ 30
  if o < 2 ^ 27 then .zmap o
  else if o < d then .dir (o - 2 ^ 27)
  else if o < d + s.poolGib * 2 ^ 26 then .links (o - d)
  else if o < d + s.poolGib * 2 ^ 30 then .cells (o - d - s.poolGib * 2 ^ 26)
  else .rest

/-- Slice, channel, command unit and word of a line of the house space: the slice owns its set row (R29, R46). -/
def State.housePlace (s : State) (hla : Nat) : Nat × Nat × Nat × Nat :=
  let (set, w) := houseSlot s.part s.houseWays hla
  let n := sliceOfSet s.part set
  let row := chanRow s.part n (rowOf s.part set)
  (n, nmcOf s.part n, nmcUnit row, row * 16 + w)

/-! ### Data ways -/

/-- Near byte address of slot `w` of a set row, and its number among all slots. -/
def slotAddr (set w : Nat) : Nat := set * 1024 + 64 * w
def slotNo (set w : Nat) : Nat := set * 16 + w

/-- The line in a slot with its poison mark (R389). -/
def State.wayGet (s : State) (set w : Nat) : Line × Bool :=
  (Memory.readLine s.mem.near (slotAddr set w), Tab.get false s.mem.nearPoison (slotNo set w))

/-- The enabled bytes of `d` over `old`. -/
def mergeBytes (old d : Line) (be : BitVec 64) : Line :=
  let m : Line := (List.range 64).foldl (fun (a : Line) i => if be.getLsbD i then a ||| ((255 : Line) <<< (8 * i)) else a) 0
  (old &&& ~~~m) ||| (d &&& m)

/-- Every byte enabled. -/
def fullMask : BitVec 64 := BitVec.allOnes 64

/-- What a line written under injection reads as. A pattern within the detecting capability is corrected or reported at the
read, so the line stands as written; beyond it the decoder decides: 1 a wrong value, 3 poison (DESIGN CHOICE, safe: notes/assumptions/7.md). -/
def State.flipLine (s : State) (target inst : Nat) (d : Line) (poison : Bool) : Line × Bool :=
  if !s.flipHere target inst then (d, poison)
  else match s.flipBeyond target with
    | some 1 => (d ^^^ Config.freeLine s.free, poison)
    | some 3 => (d, true)
    | _ => (d, poison)

/-- Write a slot. -/
def State.wayPut (s : State) (n set w : Nat) (d : Line) (poison : Bool) : State :=
  let c := nmcOf s.part n
  if s.nearFrozen n then s
  else
  let (d, poison) := s.flipLine 1 c d poison
  ({ s with mem := { s.mem with near := Memory.writeLine s.mem.near (slotAddr set w) d,
                                nearPoison := Tab.put false s.mem.nearPoison (slotNo set w) poison } }).nearAccess n set w true

/-! ### Tag entries -/

/-- Entry of way `w` (1 to 14). -/
def TagBlk.get (b : TagBlk) (w : Nat) : TagEnt := (b.ways[w - 1]?).getD {}
def TagBlk.set (b : TagBlk) (w : Nat) (e : TagEnt) : TagBlk := { ways := b.ways.set (w - 1) e }

/-- STATE codes (Table 2.6). -/
def stI : BitVec 3 := 0
def stS : BitVec 3 := 1
def stE : BitVec 3 := 2
def stM : BitVec 3 := 3
def stO : BitVec 3 := 4
def stL : BitVec 3 := 5
def stP : BitVec 3 := 6
def stX : BitVec 3 := 7

/-- Lease age 2 or 3 (R36). -/
def State.stale (s : State) (e : TagEnt) : Bool := e.st == stL && 2 ≤ (s.lse.epoch - e.ep).toNat
/-- The entry can match: S, E, M, O, P or current L. -/
def State.valid (s : State) (e : TagEnt) : Bool := e.st != stI && e.st != stX && !s.stale e
/-- Way `w` is a cache way of the partition in force (R94). -/
def State.cacheWay (s : State) (w : Nat) : Bool := 1 ≤ w && w ≤ s.cacheWays

/-- Way `w` is being converted to a flat way (R100 step 1). -/
def State.converting (s : State) (w : Nat) : Bool :=
  match s.mgt.range with
  | some r => r.op == 6 && 14 - s.houseWays - r.arg < w
  | none => false
/-- Way `w` is a cache way that remains one. -/
def State.stayWay (s : State) (w : Nat) : Bool := s.cacheWay w && !s.converting w

/-- BYPASS is being entered (R108): no line is taken into the cache any more. -/
def State.entering (s : State) : Bool := match s.mgt.range with | some r => r.op == 7 | none => false
/-- No line is installed: the cache mode is not ENABLED, or BYPASS is being entered (R108). -/
def State.noInstall (s : State) : Bool := s.mode != 0 || s.entering

/-- A stale L entry is written I whenever the tag block is written (R36, R35). -/
def State.dropStale (s : State) (b : TagBlk) : TagBlk :=
  { ways := b.ways.map fun e => if s.stale e then { e with st := stI, ep := 0, lock := false } else e }

/-- The near-memory tag block of a set. -/
def State.nearTags (s : State) (set : Nat) : TagBlk := Tab.get {} s.mem.tags set

/-! ### The tag cache (R47–R53) -/

/-- Where row `q` is cached: its key and entry. -/
def Slice.tcFind (x : Slice) (q : Nat) : Option (Nat × TcEnt) :=
  (List.range 12).findSome? fun i =>
    match Tab.get none x.tc (q % 2048 * 12 + i) with
    | some e => if e.row == q then some (q % 2048 * 12 + i, e) else none
    | none => none

/-- The tag block that governs a set: the cached one is authoritative (R48). -/
def State.tags (s : State) (n set : Nat) : TagBlk :=
  match (s.slice n).tcFind (rowOf s.part set) with
  | some (_, e) => if e.pending then s.nearTags set else e.blk
  | none => s.nearTags set

/-- TAG, STATE, EPOCH and LOCK agree; only ages may differ. -/
def TagEnt.sameButAge (a b : TagEnt) : Bool := a.tag == b.tag && a.st == b.st && a.ep == b.ep && a.lock == b.lock
def TagBlk.sameButAge (a b : TagBlk) : Bool := (a.ways.zip b.ways).all fun (x, y) => x.sameButAge y

/-- Write a set's tag block to near memory. -/
def State.putNearTags (s : State) (n set : Nat) (b : TagBlk) : State :=
  if s.nearFrozen n then s
  else ({ s with mem := { s.mem with tags := Tab.put {} s.mem.tags set b } } : State).nearAccess n set 0 true

/-- Change a set's tag block (R49): ages alone stay in the cached entry; everything else is written through. With the tag cache
disabled every change is (R53). Where the row has no entry, or a pending one, a change of ages alone is written to near memory
(DESIGN CHOICE, unsafe: notes/assumptions/83.md). -/
def State.putTags (s : State) (n set : Nat) (b : TagBlk) : State :=
  let old := s.tags n set
  if s.nearFrozen n then s
  else match (s.slice n).tcFind (rowOf s.part set) with
  | some (k, e) =>
    if e.pending then s.putNearTags n set (s.dropStale b)
    else if b.sameButAge old && s.tccEn n then
      s.modSlice n fun x => { x with tc := Tab.put none x.tc k (some { e with blk := b, ageDirty := e.ageDirty || decide (b ≠ old) }) }
    else if b = old then s
    else
      let b := s.dropStale b
      (s.modSlice n fun x => { x with tc := Tab.put none x.tc k (some { e with blk := b, ageDirty := false }) }).putNearTags n set b
  | none => if b = old then s else s.putNearTags n set (s.dropStale b)

/-- Change one way's entry. -/
def State.putEnt (s : State) (n set w : Nat) (e : TagEnt) : State := s.putTags n set ((s.tags n set).set w e)

/-- A lookup uses an entry: its reference bit, and the clearing of the other eleven (R50). -/
def Slice.tcUse (x : Slice) (key : Nat) : Slice :=
  let base := key / 12 * 12
  let refd (i : Nat) : Bool := i + base == key || (match Tab.get none x.tc (base + i) with | some e => e.ref | none => false)
  let all := (List.range 12).all refd
  (List.range 12).foldl (fun x i =>
    match Tab.get none x.tc (base + i) with
    | some e =>
      let r := if base + i == key then true else if all then false else e.ref
      { x with tc := Tab.put none x.tc (base + i) (some { e with ref := r }) }
    | none => x) x

/-- Age-dirty contents go back to near memory (R49). -/
def State.tcWriteBack (s : State) (n : Nat) (e : TcEnt) : State :=
  if e.ageDirty && !e.pending then s.putNearTags n (setOfRow s.part n e.row) (s.dropStale e.blk) else s

/-- The key of the entry that row `q` takes (R50), or none when no entry can go: each is pending, or has been used since the bits were
last cleared (DESIGN CHOICE, safe: notes/assumptions/84.md). -/
def Slice.tcVictim (x : Slice) (q : Nat) : Option Nat :=
  ((List.range 12).find? fun i =>
    match Tab.get none x.tc (q % 2048 * 12 + i) with
    | none => true
    | some e => !e.pending && !e.ref).map fun i => q % 2048 * 12 + i

/-- A lookup of the set must wait and is replayed: the read of its row's tag block is on its way, or it would read the block and no entry
can go (R48, R50). Fills do not wait (DESIGN CHOICE, safe: notes/assumptions/85.md). -/
def State.tagWaits (s : State) (n set : Nat) : Bool :=
  s.tccEn n && !s.nearFrozen n &&
    match (s.slice n).tcFind (rowOf s.part set) with
    | some (_, t) => t.pending
    | none => ((s.slice n).tcVictim (rowOf s.part set)).isNone

/-- Allocate a pending entry for row `q` (R48, R50), if one can go. -/
def State.tcAlloc (s : State) (n q : Nat) : Option State :=
  let x := s.slice n
  (x.tcVictim q).map fun key =>
    let s := match Tab.get none x.tc key with
      | some e => s.tcWriteBack n e
      | none => s
    s.modSlice n fun x => ({ x with tc := Tab.put none x.tc key (some { row := q, pending := true }) }).tcUse key

/-- A tag-cache entry as an INVALIDATE action finds it: the walk will drop it if it is valid now (R58). -/
def TcEnt.mark (e : TcEnt) : TcEnt := if e.pending then e else { e with doomed := true }

/-- The walk of a tag-cache action visits the next set (R58): it writes back the age-dirty entries, and drops those that the
action invalidates. It pauses while the write path is full. -/
def State.tcStep (s : State) (n : Nat) : State :=
  let x := s.slice n
  if !x.tcBusy || 2048 ≤ x.tcPos then s
  else
    let es := (List.range 12).filterMap fun i => (Tab.get none x.tc (x.tcPos * 12 + i)).map fun e => (x.tcPos * 12 + i, e)
    if es.any fun (_, e) => e.ageDirty && !e.pending && s.nearFull n (setOfRow s.part n e.row) then s
    else
      (es.foldl (fun s (k, e) =>
        if e.pending then s
        else
          let out := if e.ageDirty then [s.mem.nextSeq] else []
          (s.tcWriteBack n e).modSlice n fun x =>
            { x with tc := Tab.put none x.tc k (if e.doomed then none else some { e with ageDirty := false }), tcOut := x.tcOut ++ out }) s).modSlice n
      fun x =>
        { x with tcPos := x.tcPos + 1 }

/-! ### Matching, ageing, the predictor -/

/-- The way whose entry matches line `la` among the cache ways, given the block. -/
def State.matchWay (s : State) (b : TagBlk) (la : Nat) : Option Nat :=
  (List.range 14).findSome? fun i =>
    let e := b.get (i + 1)
    if s.cacheWay (i + 1) && s.valid e && e.tag == tagOf s.part la then some (i + 1) else none

/-- Where this E9's near memory holds `la`: slice, set, way and entry. -/
def State.findLine (s : State) (la : Nat) : Option (Nat × TagEnt) :=
  let b := s.tags (sliceOf la) (setOf s.part la)
  (s.matchWay b la).map fun w => (w, b.get w)

/-- Every other valid cache way ages by one, saturating at 3 (R64, R81). -/
def State.ageOthers (s : State) (b : TagBlk) (w : Nat) : TagBlk :=
  { ways := b.ways.mapIdx fun i e =>
      if i + 1 != w && s.cacheWay (i + 1) && s.valid e && e.age != 3 then { e with age := e.age + 1 } else e }

/-- Way-predictor index of a line (R54). -/
def wpIndex (p : Part) (la : Nat) : Nat := rowOf p (setOf p la) % 2 ^ 14 ^^^ (tagOf p la).toNat % 2 ^ 14

/-- Record the way that hit or was filled (R56); a CLEAR in the same clock leaves the entry 0 (R59). -/
def State.predict (s : State) (n la w : Nat) : State :=
  s.modSlice n fun x => if x.wpClk == s.clk + 1 then x else { x with wp := Tab.put 0 x.wp (wpIndex s.part la) (BitVec.ofNat 4 w) }

/-- The way predicted for a line: the lowest-numbered cache way for an entry of 0 (R54). -/
def State.predicted (s : State) (n la : Nat) : Nat :=
  let v := (Tab.get 0 (s.slice n).wp (wpIndex s.part la)).toNat
  if v == 0 then 1 else v

/-! ### Set records (R38, R39, R110, R111) -/

def State.setRec (s : State) (set : Nat) : SetRec := Tab.get {} s.mem.recs set

/-- An uncorrectable error was found, at the corrupted word where `inj` (R399). -/
def State.ueData (s : State) (u : Nat) (inj : Bool) (addr detail : Nat) : State := (s.event 216 2 1).recErr 0x02 u inj addr detail

/-- Slot `k` of a set row is the word that injection last corrupted, as a near slot, as a tag block, or as a slot that holds a directory
entry (R399). -/
def State.injNear (s : State) (n set k : Nat) : Bool :=
  s.injected (if k == 0 then 3 else 1) (nmcOf s.part n) (64 * (chanRow s.part n (rowOf s.part set) * 16 + k))
    || (15 - s.houseWays ≤ k && k < 15
        && (match s.ras.flipAt with | some (4, _, a) => decide (a / 64 = s.houseIndex set k) | _ => false))
/-- What a read of slot `k` of a set row finds: what injection made of it, else `e` (R399). -/
def State.metNear (s : State) (n set k : Nat) (e : ArrErr) : ArrErr :=
  let e := s.met (if k == 0 then 3 else 1) (nmcOf s.part n) (64 * (chanRow s.part n (rowOf s.part set) * 16 + k)) e
  if !(15 - s.houseWays ≤ k && k < 15) then e
  else match s.ras.latent.find? fun x => x.target == 4 && x.addr / 64 == s.houseIndex set k with
    | some x => x.err.getD e
    | none => e
/-- The same of a line of the house space. -/
def State.metHouse (s : State) (hla : Nat) (e : ArrErr) : ArrErr :=
  let (set, w) := houseSlot s.part s.houseWays hla
  s.metNear (sliceOfSet s.part set) set w e
/-- A line of the house space is the word that injection last corrupted. -/
def State.injHouse (s : State) (hla : Nat) : Bool :=
  let (set, w) := houseSlot s.part s.houseWays hla
  s.injNear (sliceOfSet s.part set) set w

/-- What the codes find at the next data-way read of the running command. -/
def State.popWay (s : State) : ArrErr × State :=
  match s.finds.way with
  | [] => (.none, s)
  | e :: es => (e, { s with finds := { s.finds with way := es } })

/-- What they find at its next tag-block read. -/
def State.popTag (s : State) : ArrErr × State :=
  match s.finds.tag with
  | [] => (.none, s)
  | e :: es => (e, { s with finds := { s.finds with tag := es } })

/-- What they find at its next set-record read. -/
def State.popRec (s : State) : ArrErr × State :=
  match s.finds.recs with
  | [] => (.none, s)
  | e :: es => (e, { s with finds := { s.finds with recs := es } })

/-- The counts that an uncorrectable set record is rewritten with: free values, since the spec gives none (DESIGN CHOICE, safe:
notes/assumptions/108.md). -/
def State.freeCounts (s : State) : List (BitVec 16) :=
  (List.range 14).map fun i => (Config.freeLine s.free).extractLsb' (16 * i) 16

/-- Update a set record by read-modify-write of its slot (R38). An error that the read finds goes to the ledger only (R39, R398). -/
def State.putRec (s : State) (n set : Nat) (r : SetRec) : State :=
  if s.nearFrozen n then s
  else
    let (e, s) := (s.nearAccess n set 15 false).popRec
    let e := s.metNear n set 15 e
    let u := 64 + nmcOf s.part n
    let (r, s) : SetRec × State := match e with
      | .none => (r, s)
      | .ce => (r, (s.bucket u).recErr 0x01 n (s.injNear n set 15) set 15)
      | .ue => ({ r with ce := s.freeCounts }, { s.ueData n (s.injNear n set 15) set 15 with free := s.free + 1 })
    ({ s with mem := { s.mem with recs := Tab.put {} s.mem.recs set r } }).nearAccess n set 15 true

/-- A correctable error on a read of data way `w`: CE_COUNT, the bucket of the channel, retirement or SLOT_WEAR. -/
def State.ceWay (s : State) (n set w : Nat) : State :=
  let r := s.setRec set
  let c := ((r.ce[w - 1]?).getD 0).toNat
  let c' := satAdd 0xFFFF c 1
  let s := s.putRec n set { r with ce := r.ce.set (w - 1) (BitVec.ofNat 16 c'), lastBeat := BitVec.ofNat 32 s.beat }
  let s := s.bucket (64 + nmcOf s.part n)
  let thr := s.retireThresh
  if thr == 0 || c' < thr then s
  else if s.cacheWay w then
    s.modSlice n fun x => if x.retireDue.contains (set, w) then x else { x with retireDue := x.retireDue ++ [(set, w)] }
  else if c < thr then s.rec_ 0x06 n 0xFFFF set (set * 16 + w) else s

/-- The tag block rebuilt from RETIRE_MASK (R387): a way that is not a cache way, or is leaving the cache, holds zero (R27, R37). -/
def State.rebuilt (s : State) (r : SetRec) : TagBlk :=
  { ways := (List.range 14).map fun i => if r.retire.getLsbD i && s.stayWay (i + 1) then { st := stX } else {} }

/-- The block breaks R42: a valid entry's TAG disagrees with its set. -/
def tagError (p : Part) (set : Nat) (b : TagBlk) : Bool :=
  b.ways.any fun e =>
    e.st != stI && e.st != stX &&
      (e.tag.toNat % 9 != set / 2 ^ p.setLowBits || (p == .f144 && e.tag.getLsbD 27))

/-- Read a tag block from near memory: an error in the block, or a block that breaks R42, rebuilds it (R387, R42). -/
def State.tagRead (s : State) (n set : Nat) (te : ArrErr) : State :=
  let u := 64 + nmcOf s.part n
  let te := s.metNear n set 0 te
  let s := if te == .ce then (s.bucket u).recErr 0x01 n (s.injNear n set 0) set 0 else s
  if te == .ue || tagError s.part set (s.nearTags set) then
    (s.ueData n (s.injNear n set 0) set 0).putNearTags n set (s.rebuilt (s.setRec set))
  else s

/-- The reads that a tag-cache miss makes: the tag block, and the predicted way of line `la` if it is a cache way (R55). -/
def State.tagIssue (s : State) (n set : Nat) (la : Option Nat) : State × Nat :=
  let s := s.nearAccess n set 0 false
  match la with
  | some la =>
    let w := s.predicted n la
    if s.wpcEn n && s.cacheWay w then (s.nearAccess n set w false, w) else (s, 0)
  | none => (s, 0)

/-- Count the errors that the codes of these units correct (R398). -/
def State.ceCount (s : State) (us : List Nat) : State := (us.filter s.unitPresent).foldl (fun s u => s.bucket u) s

/-- What the codes of the on-die arrays find at a command: corrections are counted; an uncorrectable HSF entry is fatal (R404); a lost trace
record reads as zeros (R459). -/
def State.noted (s : State) (fd : Finds) : State :=
  let s := s.ceCount fd.ce
  let s : State := if fd.hsf then { s with ras := { s.ras with fatalDue := s.ras.fatalDue ++ [(152, false, 0)] } } else s
  if fd.trc.isEmpty then s else { s with trc := { s.trc with buf := Tab.drop s.trc.buf fd.trc.contains } }

/-- Run what a command does with what the codes find in the arrays it reads (DESIGN CHOICE, unsafe: notes/assumptions/82.md). -/
def State.finding (s : State) (fd : Finds) (go : State → State) : State :=
  { go { s.noted fd with finds := fd } with finds := s.finds }

/-- Run what a command does whose operands say nothing of the arrays: the codes find nothing in them. -/
def State.noFinds (s : State) (go : State → State) : State := { go { s with finds := {} } with finds := s.finds }

/-- What the code finds in the word of slot `w`: none in a poisoned word, which is a codeword of its own (R389). A correctable error
counts (R39). -/
def State.wordErr (s : State) (n set w : Nat) : ArrErr × State :=
  let (e, s) := s.popWay
  let e := if Tab.get false s.mem.nearPoison (slotNo set w) then .none else s.metNear n set w e
  (e, if e == .ce then s.ceWay n set w else s)

/-- A read of a data way: its access unless the data is here already, and what the code finds. -/
def State.readWay (s : State) (n set w : Nat) (here : Bool) : ArrErr × State :=
  (if here then s else s.nearAccess n set w false).wordErr n set w

/-- The data of a wrong guess is discarded (R55); a correctable error in it counts all the same (R39). -/
def State.guessLost (s : State) (n set g : Nat) : State := if g == 0 then s else (s.wordErr n set g).2

/-- A correctable error at a line of the house space (R111). -/
def State.houseCe (s : State) (hla : Nat) : State :=
  let (set, w) := houseSlot s.part s.houseWays hla
  s.ceWay (sliceOfSet s.part set) set w

/-- Slice and set of a near channel's row (Table 2.3). -/
def State.rowSet (s : State) (c u : Nat) : Nat × Nat :=
  let (n, q) := match s.part with
    | .f144 => (c, u)
    | .s72 => (c + 32 * (u / 1179648), u % 1179648)
  (n, setOfRow s.part n q)

/-- An entry leaves the merge buffer of an NMC's pseudo-channel: a whole word is written with no read, a part after a read of the
word. Where the read is uncorrectable the word is written poisoned, and what it belongs to meets the error (R390, State.houseSettle). -/
def State.houseOut (s : State) (c u : Nat) (m : MergeEnt) : State :=
  let x := s.cunit c u
  let row := m.addr / 16
  let k := m.addr % 16
  let r : ChReq := { seq := 0, bank := nmcBank row, row := nmcRow row, wr := true, addr := m.addr, pre := !s.mtu.inLull }
  let s := s.setCunit c u { x with merge := x.merge.filter fun e => e.addr != m.addr }
  if m.be == BitVec.allOnes 64 then (s.flipNear c m.addr).chanEnq c u r
  else
    let (n, set) := s.rowSet c row
    let (e, s) := (s.chanEnq c u { r with wr := false }).wordErr n set k
    let s := if e != .ue then s
      else
        let s := s.ueData (64 + c) (s.injNear n set k) (64 * m.addr) (slotNo set k)
        { s with mem := { s.mem with nearPoison := Tab.put false s.mem.nearPoison (slotNo set k) true, houseUe := s.mem.houseUe ++ [(c, m.addr)] } }
    (s.flipNear c m.addr).chanEnq c u r

/-- An access to a whole line of the house space. A read of a word that the merge buffer holds is behind that word's write, and a whole
write supersedes the entry (R390). -/
def State.houseAccess (s : State) (hla : Nat) (wr : Bool) : State :=
  let (n, c, u, a) := s.housePlace hla
  if s.nearFrozen n then s
  else
    let s := match (s.cunit c u).merge.find? fun m => m.addr == a with
      | some m =>
        if wr then s.setCunit c u { s.cunit c u with merge := (s.cunit c u).merge.filter fun e => e.addr != a } else s.houseOut c u m
      | none => s
    s.nearAccess n (houseSlot s.part s.houseWays hla).1 (houseSlot s.part s.houseWays hla).2 wr

/-- A write of some bytes of a house line: a link word, zero-map bits, a directory entry. It takes an entry of the merge buffer, or
merges into the one that holds its word (R390). -/
def State.houseMerge (s : State) (hla : Nat) (be : BitVec 64) : State :=
  let (n, c, u, a) := s.housePlace hla
  if s.nearFrozen n then s
  else match (s.cunit c u).merge.find? fun m => m.addr == a with
  | some m =>
    let m' : MergeEnt := { m with be := m.be ||| be }
    if m'.be == BitVec.allOnes 64 then s.houseOut c u m'
    else s.setCunit c u { s.cunit c u with merge := (s.cunit c u).merge.map fun e => if e.addr == a then m' else e }
  | none =>
    let s := if (s.cunit c u).merge.length < 8 then s else match (s.cunit c u).merge with
      | m :: _ => s.houseOut c u m
      | [] => s
    s.setCunit c u { s.cunit c u with merge := (s.cunit c u).merge ++ [{ addr := a, data := 0, be := be, t0 := s.clk }] }

/-- A read of a line of the house space, and what the code finds there. -/
def State.houseRead (s : State) (hla : Nat) : ArrErr × State :=
  let (e, s) := (s.houseAccess hla false).popWay
  let e := s.metHouse hla e
  (e, if e == .ce then s.houseCe hla else s)

/-- A lookup in the tag pipeline: its event and trace candidate, by row of Table 3.1 (R455). -/
def State.pipe (s : State) (n row la detail : Nat) : State := (s.event n 1 1).trace 0 n row la 0xFFFF 0 detail

/-- A lookup that does not wait has read the block of row `q` into an entry of its own (R48). -/
def State.tcKeep (s : State) (n set q : Nat) : State :=
  if !s.tccEn n then s
  else match s.tcAlloc n q with
    | some s => s.modSlice n fun x => { x with tc := x.tc.map fun (k, v) =>
        (k, v.map fun t => if t.row == q && t.pending then { t with pending := false, blk := s.nearTags set } else t) }
    | none => s

/-- Such a lookup that meets no entry reads the block, and the way that the predictor guesses (R53, R55). -/
def State.touchMiss (s : State) (n set : Nat) (la : Option Nat) : Nat × State :=
  let (e, s) := (s.event n 7 1).popTag
  let (s, g) := s.tagIssue n set la
  let s := (s.tagRead n set e).tcKeep n set (rowOf s.part set)
  match la.bind fun la => (s.matchWay (s.tags n set) la).map fun w => (la, w) with
  | some (la, w) => if w == g then (g, s.predict n la w) else (0, ((if g == 0 then s else s.event n 8 1).guessLost n set g).predict n la w)
  | none => (0, s.guessLost n set g)

/-- The tag entries of a set for a lookup that no demand makes: a prefetch's, a home request's, a snoop's, a maintenance lookup's
or a fill's (R29, R48, R50, R53), which does not wait (State.tagWaits). A tag-cache miss reads the block into an entry of its own. With
it comes the way whose data a right guess has brought, 0 for none (R55). -/
def State.touchGuess (s : State) (n set : Nat) (la : Option Nat) : Nat × State :=
  let q := rowOf s.part set
  if s.nearFrozen n then (0, s)
  else
  match (s.slice n).tcFind q with
  | some (k, t) =>
    if !s.tccEn n then s.touchMiss n set la
    else if t.pending then (0, s)
    else if s.finds.tcUe then
      (((s.rec_ 0xFF n 0xFFFF set 0).modSlice n fun x => { x with tc := Tab.put none x.tc k none }).touchMiss n set la)
    else (0, (s.modSlice n fun x => x.tcUse k).event n 6 1)
  | none => s.touchMiss n set la

/-- The same where no data way is wanted. -/
def State.touch (s : State) (n set : Nat) (la : Option Nat) : State := (s.touchGuess n set la).2

/-- A lookup of line `la` that no demand makes, by row of Table 3.1. -/
def State.touchLine (s : State) (row la : Nat) : Nat × State :=
  (s.pipe (sliceOf la) row la 0).touchGuess (sliceOf la) (setOf s.part la) (some la)

/-- A lookup of a whole set that maintenance makes: its tag entries, unless it must wait and is replayed. -/
def State.touchSet (s : State) (n set : Nat) : Option State :=
  if s.tagWaits n set then none else some ((s.pipe n 7 set 0).touch n set none)

/-- A way may retire or be locked only if another cache way of the set stays unlocked and not X (R79). -/
def State.otherFree (s : State) (b : TagBlk) (w : Nat) : Bool :=
  (List.range 14).any fun i => i + 1 != w && s.stayWay (i + 1) && !(b.get (i + 1)).lock && (b.get (i + 1)).st != stX

end Sys2Proof.Machine
end

