-- ==== Sys2Proof/Machine/Wire.lean ====
section
/-! DEFINITION. The bits on a Kynos link: fabric headers and payloads, flits, their CRC and FEC, and the CRC-32C of digests and
command packets (R311–R315, R325–R333, R350, R369, R404, R431, R501). -/

namespace Sys2Proof.Machine

/-! ### Bytes and CRCs -/

/-- The `n` low bytes of `v`, least significant first. -/
def leBytes : Nat → Nat → List Byte
  | 0, _ => []
  | n + 1, v => BitVec.ofNat 8 v :: leBytes n (v / 256)

/-- The number whose bytes, least significant first, are listed. -/
def leNat : List Byte → Nat
  | [] => 0
  | b :: t => b.toNat + 256 * leNat t

/-- One bit of a CRC register taken least significant bit first. -/
def crcBit (poly r : Nat) : Nat := if r % 2 == 1 then (r / 2) ^^^ poly else r / 2
def crcByte (poly r : Nat) (b : Byte) : Nat := (List.range 8).foldl (fun r _ => crcBit poly r) (r ^^^ b.toNat)

/-- CRC-32C (R331). -/
def crc32c (bs : List Byte) : BitVec 32 := BitVec.ofNat 32 (bs.foldl (crcByte 0x82F63B78) 0xFFFFFFFF ^^^ 0xFFFFFFFF)

/-- The generator of R312 as a register that takes the least significant bit first holds it: bit i is the coefficient of
x^(47 - i) (DEDUCED, unsafe: notes/assumptions/31.md). -/
def crc48Poly : Nat := (List.range 48).foldl (fun v i => v + (if (0x8A5B2C31D4E7 : Nat).testBit i then 2 ^ (47 - i) else 0)) 0

/-- CRC-48 (R312). -/
def crc48 (bs : List Byte) : Nat := bs.foldl (crcByte crc48Poly) (2 ^ 48 - 1)

/-! ### FEC (R313) -/

/-- Multiply by x in GF(2^8). -/
def gfX (a : Nat) : Nat := if 128 ≤ a then (2 * a) ^^^ 0x11D else 2 * a
/-- Product in GF(2^8). -/
def gfMul (a b : Nat) : Nat :=
  ((List.range 8).foldl (fun (p : Nat × Nat) i => (if b.testBit i then p.1 ^^^ p.2 else p.1, gfX p.2)) (0, a)).1

/-- The bytes of interleave `j` of a flit's first 250 bytes, in order. -/
def interleave (bs : List Byte) (j : Nat) : List Byte := (bs.zipIdx.filter fun x => x.2 % 3 == j).map (·.1)

/-- The two check bytes of an interleave: the remainder of the data, first byte highest, by (x − 1)(x − α)
(DEDUCED, unsafe: notes/assumptions/31.md). -/
def fecCheck (ds : List Byte) : Nat × Nat :=
  ds.foldl (fun (r : Nat × Nat) d =>
    let f := d.toNat ^^^ r.1
    (r.2 ^^^ gfMul f 3, gfMul f 2)) (0, 0)

/-- Correct one byte of an interleave with its check bytes: the data, and whether a byte was corrected. A word beyond
correction stands as it is; the CRC finds it. -/
def fecFix (ds : List Byte) (c1 c0 : Byte) : List Byte × Bool :=
  let word := ds ++ [c1, c0]
  let s0 := word.foldl (fun a b => a ^^^ b.toNat) 0
  let s1 := word.foldl (fun a b => gfX a ^^^ b.toNat) 0
  if s0 == 0 && s1 == 0 then (ds, false)
  else
    let n := word.length
    -- position from the last byte whose locator fits
    let pos := ((List.range n).foldl (fun (st : Option Nat × Nat) i =>
      (if st.1.isNone && s0 != 0 && st.2 == s1 then some i else st.1, gfX st.2)) ((none : Option Nat), s0)).1
    match pos with
    | none => (ds, false)
    | some i => (ds.zipIdx.map fun (b, k) => if k + 1 + i == n then b ^^^ BitVec.ofNat 8 s0 else b, true)

/-- Put interleaves together again. -/
def deinterleave (a b c : List Byte) : Nat → List Byte
  | 0 => []
  | n + 1 =>
    match a with
    | [] => []
    | x :: t => x :: deinterleave b c t n

/-! ### Coherence messages (Tables 5.5, 5.6, 5.7, 7.12) -/

/-- FLAGS. -/
def cohFlags (m : CohMsg) : Nat :=
  let f (b : Bool) (i : Nat) : Nat := if b then 2 ^ i else 0
  f m.pf 11 + f m.tkt 10 + f m.ev 9 + f m.kept 8 + f m.discard 7 + f m.destHome 6 + f m.peek 5 + f m.poison 4
    + f m.partialWr 3 + f m.missF 2 + f m.full 1 + f m.unc 0

/-- The 16-byte header (DEDUCED, safe: notes/assumptions/32.md). -/
def cohHeader (m : CohMsg) : BitVec 128 :=
  BitVec.ofNat 128 (m.opc % 32 * 2 ^ 123 + m.grant % 8 * 2 ^ 120 + cohFlags m * 2 ^ 108 + m.tid % 2 ^ 13 * 2 ^ 95
    + m.req % 2 ^ 15 * 2 ^ 80 + m.htid % 2 ^ 10 * 2 ^ 70 + m.la % 2 ^ 51 * 2 ^ 13)

/-- The message of a header. -/
def cohOfHeader (h : BitVec 128) : CohMsg :=
  let v := h.toNat
  let f (i : Nat) : Bool := h.getLsbD (108 + i)
  { opc := bits v 123 5, grant := bits v 120 3, pf := f 11, tkt := f 10, ev := f 9, kept := f 8, discard := f 7, destHome := f 6,
    peek := f 5, poison := f 4, partialWr := f 3, missF := f 2, full := f 1, unc := f 0, tid := bits v 95 13, req := bits v 80 15,
    htid := bits v 70 10, la := bits v 13 51 }

/-- Opcodes that carry a line; that carry an operand block. -/
def opcLine (o : Nat) : Bool := o == 3 || o == 4 || o == 5 || o == 0x11 || o == 0x12 || o == 0x19 || o == 0x1C
def opcOpnd (o : Nat) : Bool := o == 6 || o == 0x1A
/-- Opcodes with a byte mask when PARTIAL is set. -/
def opcMask (m : CohMsg) : Bool := (m.opc == 5 || m.opc == 0x19) && m.partialWr

/-- A code that Table 5.6 or 7.12 does not use for this type (R126, R179). -/
def opcUnused (glob : Bool) (o : Nat) : Bool :=
  if glob then !(o == 0x14 || o == 0x15 || o == 0x18 || o == 0x19 || o == 0x1A || o == 0x1C || o == 0x1D || o == 0x1E)
  else !(o ≤ 6 || (8 ≤ o && o ≤ 0x0A) || (0x10 ≤ o && o ≤ 0x15))

/-- `n` slots of 16 bytes from the bits of a value. -/
def slotsOf : Nat → Nat → List (BitVec 128)
  | 0, _ => []
  | n + 1, v => BitVec.ofNat 128 v :: slotsOf n (v / 2 ^ 128)
/-- The value of slots. -/
def slotsNat : List (BitVec 128) → Nat
  | [] => 0
  | b :: t => b.toNat + 2 ^ 128 * slotsNat t

def cohSlots (m : CohMsg) : List (BitVec 128) :=
  cohHeader m :: ((if opcLine m.opc then slotsOf 4 m.data.toNat else []) ++ (if opcOpnd m.opc then slotsOf 3 m.opnd.toNat else [])
    ++ (if opcMask m then slotsOf 1 m.mask.toNat else []))

def cohOfSlots : List (BitVec 128) → CohMsg
  | [] => {}
  | h :: t =>
    let m := cohOfHeader h
    let m := if opcLine m.opc then { m with data := BitVec.ofNat 512 (slotsNat (t.take 4)) } else m
    let m := if opcOpnd m.opc then { m with opnd := BitVec.ofNat 384 (slotsNat (t.take 3)) } else m
    if opcMask m then { m with mask := BitVec.ofNat 64 (slotsNat ((t.drop 4).take 1)) } else m

/-! ### Payloads by type -/

/-- Table 13.1. -/
def treeSlot (t : TreeMsg) : BitVec 128 :=
  BitVec.ofNat 128 (t.op % 16 * 2 ^ 124 + (if t.sys then 2 ^ 123 else 0) + t.gen % 256 * 2 ^ 115 + t.kinds.toNat * 2 ^ 113
    + t.code % 256 * 2 ^ 105 + t.origin % 2 ^ 15 * 2 ^ 90 + t.ityp % 4 * 2 ^ 88 + t.ctx % 4096 * 2 ^ 76 + t.vpage % 2 ^ 45 * 2 ^ 31)
def treeOfSlot (b : BitVec 128) : TreeMsg :=
  let v := b.toNat
  { op := bits v 124 4, sys := b.getLsbD 123, gen := bits v 115 8, kinds := BitVec.ofNat 2 (bits v 113 2), code := bits v 105 8,
    origin := bits v 90 15, ityp := bits v 88 2, ctx := bits v 76 12, vpage := bits v 31 45 }

/-- Bytes of a payload, as slots. -/
def byteSlots (n : Nat) (bs : List Byte) : List (BitVec 128) := slotsOf n (leNat bs)
/-- `n` bytes from byte `o` of slots. -/
def slotField (ss : List (BitVec 128)) (o n : Nat) : Nat := slotsNat ss / 2 ^ (8 * o) % 2 ^ (8 * n)

/-- TYPE and payload slots of a body (Table 12.5). -/
def bodyTyp : PktBody → Nat
  | .coh g _ => if g then 1 else 0
  | .tree _ => 2
  | .time _ => 3
  | .heartbeat _ _ _ => 4
  | .member _ _ _ => 5
  | .fail _ => 6
  | .mgt _ => 7
  | .routeFail _ _ => 8
  | .put _ _ _ _ => 9
  | .putAnswer _ _ _ => 9
  | .linkReport _ _ _ => 10
  | .unused t _ => t

def bodySlots : PktBody → List (BitVec 128)
  | .coh _ m => cohSlots m
  | .tree t => [treeSlot t]
  | .time t => byteSlots 2 (leBytes 1 (if t.response then 1 else 0) ++ leBytes 1 t.stratum ++ leBytes 1 (if t.locked then 1 else 0)
      ++ leBytes 5 0 ++ leBytes 8 t.t1 ++ leBytes 8 t.t2 ++ leBytes 8 t.t3)
  | .heartbeat d st g => byteSlots 1 (leBytes 1 d ++ leBytes 1 st ++ leBytes 4 g.toNat)
  | .member ph d g => byteSlots 1 (leBytes 1 ph ++ leBytes 1 d ++ leBytes 4 g.toNat)
  | .fail n => byteSlots 1 (leBytes 1 n.domain ++ leBytes 4 n.digest.toNat ++ leBytes 1 n.cause ++ leBytes 2 n.reporter ++ leBytes 2 n.subject)
  | .mgt f => byteSlots (1 + (f.body.length + 15) / 16)
      (leBytes 2 f.tag ++ leBytes 1 f.index ++ leBytes 1 f.count ++ leBytes 4 f.total ++ leBytes 8 0 ++ f.body)
  | .routeFail h b => [h, b]
  | .put tq porter seq cell => byteSlots 1 (leBytes 2 tq ++ leBytes 1 porter ++ leBytes 1 0 ++ leBytes 4 seq) ++ slotsOf 4 cell.toNat
  | .putAnswer porter seq st => byteSlots 1 (leBytes 4 seq ++ leBytes 1 porter ++ leBytes 3 0 ++ leBytes 8 st.toNat)
  | .linkReport p q r => byteSlots 1 (leBytes 1 p ++ leBytes 1 q ++ leBytes 1 (if r.isSome then 1 else 0) ++ leBytes 1 0
      ++ leBytes 2 (r.getD 0))
  | .unused _ ss => ss

/-- Bytes in fragment `i` of a command of `total` bytes (R332): 192, and the rest in the last. -/
def fragLen (total i : Nat) : Nat := min 192 (total - 192 * i)

def bodyOf (typ vn : Nat) (ss : List (BitVec 128)) : PktBody :=
  if typ ≤ 1 then .coh (typ == 1) (cohOfSlots ss)
  else if typ == 2 then .tree (treeOfSlot (ss.headD 0))
  else if typ == 3 then .time { response := slotField ss 0 1 == 1, stratum := slotField ss 1 1, locked := slotField ss 2 1 % 2 == 1,
                                t1 := slotField ss 8 8, t2 := slotField ss 16 8, t3 := slotField ss 24 8 }
  else if typ == 4 then .heartbeat (slotField ss 0 1) (slotField ss 1 1) (BitVec.ofNat 32 (slotField ss 2 4))
  else if typ == 5 then .member (slotField ss 0 1) (slotField ss 1 1) (BitVec.ofNat 32 (slotField ss 2 4))
  else if typ == 6 then .fail { domain := slotField ss 0 1, digest := BitVec.ofNat 32 (slotField ss 1 4), cause := slotField ss 5 1,
                                reporter := slotField ss 6 2, subject := slotField ss 8 2 }
  else if typ == 7 then
    let index := slotField ss 2 1
    let total := slotField ss 4 4
    .mgt { tag := slotField ss 0 2, index := index, count := slotField ss 3 1, total := total,
           body := leBytes (min (fragLen total index) (16 * (ss.length - 1))) (slotsNat (ss.drop 1)) }
  else if typ == 8 then .routeFail (ss.headD 0) ((ss.drop 1).headD 0)
  else if typ == 9 then
    (if vn == 0 then .put (slotField ss 0 2) (slotField ss 2 1) (slotField ss 4 4) (BitVec.ofNat 512 (slotsNat ((ss.drop 1).take 4)))
     else .putAnswer (slotField ss 4 1) (slotField ss 0 4) (BitVec.ofNat 64 (slotField ss 8 8)))
  else if typ == 10 then .linkReport (slotField ss 0 1) (slotField ss 1 1)
    (if slotField ss 2 1 % 2 == 1 then some (slotField ss 4 2 % 1024) else none)
  else .unused typ ss

/-! ### Packets (Table 12.4) -/

/-- Slots of a packet, header included. -/
def pktLen (p : Packet) : Nat := 1 + (bodySlots p.body).length

def pktHeader (p : Packet) : BitVec 128 :=
  BitVec.ofNat 128 (p.dst % 2 ^ 15 * 2 ^ 113 + p.src % 2 ^ 15 * 2 ^ 98 + p.vn % 4 * 2 ^ 96 + (if p.bulk then 2 ^ 95 else 0)
    + p.vc % 2 * 2 ^ 94 + p.hops % 16 * 2 ^ 90 + pktLen p % 16 * 2 ^ 86 + bodyTyp p.body % 16 * 2 ^ 82 + p.oseq % 256 * 2 ^ 74
    + (if p.alt then 2 ^ 73 else 0))

def pktSlots (p : Packet) : List (BitVec 128) := pktHeader p :: bodySlots p.body

/-- The packet of a header and its payload slots. -/
def pktOf (h : BitVec 128) (ss : List (BitVec 128)) : Packet :=
  let v := h.toNat
  { dst := bits v 113 15, src := bits v 98 15, vn := bits v 96 2, bulk := h.getLsbD 95, vc := bits v 94 1, hops := bits v 90 4,
    oseq := bits v 74 8, alt := h.getLsbD 73, body := bodyOf (bits v 82 4) (bits v 96 2) ss }

/-- Packets of a flit's slots; a slot that starts no packet, its LEN being zero, is passed over. -/
def pktsOf : Nat → List (BitVec 128) → List Packet
  | 0, _ => []
  | _ + 1, [] => []
  | k + 1, h :: t =>
    let n := bits h.toNat 86 4
    if n == 0 then pktsOf k t else pktOf h (t.take (n - 1)) :: pktsOf k (t.drop (n - 1))

/-! ### Flits (Table 12.3) -/

/-- A flit's header. -/
structure FlitHdr where
  /-- FT: 0 data, 1 idle, 2 NAK -/
  ft : Nat := 1
  seq : Nat := 0
  ack : Nat := 0
  cvn : Nat := 0
  cvc : Nat := 0
  ccl : Nat := 0
  crd : Nat := 0
  deriving DecidableEq, Repr

def flitWord (h : FlitHdr) : Nat :=
  h.ft % 4 * 2 ^ 30 + h.seq % 1024 * 2 ^ 20 + h.ack % 1024 * 2 ^ 10 + h.cvn % 4 * 2 ^ 8 + h.cvc % 2 * 2 ^ 7 + h.ccl % 2 * 2 ^ 6 + h.crd % 64

def flitHdrOf (w : Nat) : FlitHdr :=
  { ft := bits w 30 2, seq := bits w 20 10, ack := bits w 10 10, cvn := bits w 8 2, cvc := bits w 7 1, ccl := bits w 6 1, crd := bits w 0 6 }

/-- The 256 bytes of a flit: header, fifteen slots, CRC-48, FEC check bytes. -/
def flitBits (h : FlitHdr) (slots : List (BitVec 128)) : BitVec 2048 :=
  let body := leBytes 4 (flitWord h) ++ leBytes 240 (slotsNat (slots.take 15))
  let data := body ++ leBytes 6 (crc48 body)
  let check := (List.range 3).flatMap fun j =>
    let c := fecCheck (interleave data j)
    [BitVec.ofNat 8 c.1, BitVec.ofNat 8 c.2]
  BitVec.ofNat 2048 (leNat (data ++ check))

/-- A received flit: its bytes after correction, and whether a byte was corrected. -/
def flitFix (f : BitVec 2048) : List Byte × Bool :=
  let all := leBytes 256 f.toNat
  let data := all.take 250
  let chk (i : Nat) : Byte := (all[250 + i]?).getD 0
  let (a, x) := fecFix (interleave data 0) (chk 0) (chk 1)
  let (b, y) := fecFix (interleave data 1) (chk 2) (chk 3)
  let (c, z) := fecFix (interleave data 2) (chk 4) (chk 5)
  (deinterleave a b c 250, x || y || z)

/-- The CRC of a corrected flit holds. -/
def flitGood (bs : List Byte) : Bool := crc48 (bs.take 244) == leNat ((bs.drop 244).take 6)
/-- Header and slots of a corrected flit. -/
def flitHdr (bs : List Byte) : FlitHdr := flitHdrOf (leNat (bs.take 4))
def flitSlots (bs : List Byte) : List (BitVec 128) := slotsOf 15 (leNat ((bs.drop 4).take 240))

/-! ### The domain digest (R331) -/

/-- Digest of a domain number and presence vector. -/
def domDigest (domain presence : Nat) : BitVec 32 := crc32c (leBytes 1 domain ++ leBytes 16 presence)

end Sys2Proof.Machine
end

