-- ==== Sys2Proof/Machine/PageCode.lean ====
section
/-! DEFINITION. The page code of the page-code regions (R394): a shortened Reed-Solomon code over GF(2^16), field polynomial
x^16 + x^12 + x^3 + x + 1, generator roots α^0 to α^(2T-1). -/

namespace Sys2Proof.Machine

/-- A symbol times α. -/
def gwX (x : Nat) : Nat := if 2 ^ 15 ≤ x then (2 * x) ^^^ 0x1100B else 2 * x
/-- The product of two symbols. -/
def gwMul (a b : Nat) : Nat :=
  (List.range 16).foldl (fun acc i => gwX acc ^^^ (if b.testBit (15 - i) then a else 0)) 0
/-- α^i. -/
def gwPow : Nat → Nat
  | 0 => 1
  | i + 1 => gwX (gwPow i)

/-- The generator polynomial with `n` roots, lowest coefficient first, without its leading 1. -/
def rsGen : Nat → List Nat
  | 0 => []
  | n + 1 =>
    let g := rsGen n
    let r := gwPow n
    List.zipWith (· ^^^ ·) (0 :: g) (g.map (gwMul r) ++ [r])

/-- One symbol enters the division by the generator polynomial `g`, highest coefficient first. -/
def rsStep (g reg : List Nat) (m : Nat) : List Nat :=
  let fb := m ^^^ reg.headD 0
  List.zipWith (· ^^^ ·) (reg.drop 1 ++ [0]) (g.map (gwMul fb))

/-- The 2T check symbols of a page. Symbol 0 is the highest coefficient of the codeword, and the check symbols follow the data
(DESIGN CHOICE, unsafe: notes/assumptions/122.md). -/
def rsCheck (t : Nat) (syms : List Nat) : List Nat :=
  syms.foldl (rsStep (rsGen (2 * t)).reverse) (List.replicate (2 * t) 0)

/-- Symbols of a line, and of the lines of a page: bytes 2j and 2j + 1, little-endian. -/
def lineSyms (l : Line) : List Nat := (List.range 32).map fun j => l.toNat / 2 ^ (16 * j) % 2 ^ 16
/-- The 4T bytes of a page's parity slot. -/
def pageParity (t : Nat) (ls : List Line) : List Byte := (rsCheck t (ls.flatMap lineSyms)).flatMap (leBytes 2)

end Sys2Proof.Machine
end

