-- ==== Sys2Proof/Machine/Far.lean ====
section
/-! DEFINITION. Far memory: the FMC decode, the zero map, page-code parity, merge buffers, and the reads and writes that
slices hand to a far channel (chapters 10 and 15). -/

namespace Sys2Proof.Machine

/-! ### Decode (R256) -/

/-- Far channel, subchannel, bank of the subchannel (rank × 32 + bank group × 4 + bank), and row of line index `lo`. -/
def farCh (lo : Nat) : Nat := bits lo 0 3 ^^^ bits lo 16 3
def farSub (lo : Nat) : Nat := bits lo 3 1
def farCol (lo : Nat) : Nat := bits lo 4 7
def farBg (lo : Nat) : Nat := bits lo 13 3 ^^^ bits lo 19 3
def farRow (r lo : Nat) : Nat := bits lo 16 r
def farRank (r k lo : Nat) : Nat := bits lo (r + 16) k
def State.farBank (s : State) (lo : Nat) : Nat :=
  farRank s.mem.rbits s.mem.kbits lo * 32 + farBg lo * 4 + bits lo 11 2

/-- The far channel of a line is frozen (R275). -/
def State.farFrozen (s : State) (lo : Nat) : Bool := (s.chan (64 + farCh lo)).frozen

/-! ### The zero map (R391–R393) -/

/-- The 4 KiB page of a line index. -/
def pageOf (lo : Nat) : Nat := lo / 64

/-- The zero map is in force from the level-2 step on. -/
def State.zmapOn (s : State) : Bool := 2 ≤ s.boot.level

/-- The line lies in an unwritten page, or a zeroing tracker still owes it its zero. -/
def State.readsZero (s : State) (lo : Nat) : Bool :=
  s.zmapOn && (!Tab.get false s.mem.zmap (pageOf lo)
    || s.mem.ztrk.any fun z => z.page == pageOf lo && z.mask.getLsbD (lo % 64))

/-- An uncorrectable zero-map line: every bit 1, and ZMAP_LOST names its 2 MiB (R403). -/
def State.zmapLost (s : State) (z : Nat) : State :=
  (({ s with mem := { s.mem with
      zmap := (List.range 512).foldl (fun t i => Tab.put false t (512 * z + i) true) s.mem.zmap } } : State).houseAccess z true).rec_
    0x0A 216 0xFFFF (z * 2 ^ 21) z

/-- The zero-map bit of a page is looked up (R391): a line that is not among the 4,096 cached ones is read from the house space, and
takes the place of the one that came first (DESIGN CHOICE, safe: notes/assumptions/105.md). -/
def State.zmapLook (s : State) (page : Nat) : State :=
  let z := page / 512
  if !s.zmapOn || s.ras.zcache.contains z then s
  else
    let s := s.houseAccess z false
    let zs := s.ras.zcache
    let s : State := { s with ras := { s.ras with zcache := (if zs.length < 4096 then zs else zs.drop 1) ++ [z] } }
    let e := s.metHouse z s.finds.zmap
    if e == .ue then s.zmapLost z else if e == .ce then s.houseCe z else s

/-- Something has written the line since power came up. -/
def State.farKnown (s : State) (lo : Nat) : Bool := Tab.get false s.mem.farWritten lo || s.mem.farZero.getLsbD (farCh lo)

/-- The value a far line reads as. One that nothing has written since its contents were last lost reads as what the DRAM holds, decoded
(R413) (DESIGN CHOICE, safe: notes/assumptions/20.md). -/
def State.farValue (s : State) (lo : Nat) : Line × Bool :=
  if s.readsZero lo then (0, false)
  else if s.farKnown lo then (Memory.readLine s.mem.far (64 * lo), Tab.get false s.mem.farPoison lo)
  else (Config.dramRead s.mem.dram lo, Config.dramBad s.mem.dram lo)

/-- The DRAM's contents are lost: after power-up and training it holds what it holds (R413) (DESIGN CHOICE, safe: notes/assumptions/20.md). -/
def State.dramFresh (s : State) : State :=
  { s with free := s.free + 1, mem := { s.mem with far := [], farPoison := [], farWritten := [], farZero := 0, dram := s.free }
           ras := { s.ras with latent := s.ras.latent.filter fun e => e.target != 2 } }

/-- The page-code region that covers a line (R394). -/
def State.pgcRegion (s : State) (lo : Nat) : Option Nat :=
  (List.range 8).find? fun r => s.pgcEn r && s.pgcBase r ≤ 64 * lo && 64 * lo < s.pgcBase r + s.pgcSize r

/-- Lines of the page of `lo` as they stand in DRAM. -/
def State.pageLines (s : State) (page : Nat) : List Line :=
  (List.range 64).map fun i => if s.readsZero (page * 64 + i) then 0 else Memory.readLine s.mem.far (64 * (page * 64 + i))

/-- Node-local offset of the parity slot of a page of region `r`, and the 4T bytes that it holds (R394). -/
def State.pgcSlot (s : State) (r page : Nat) : Nat := s.pgcPBase r + 256 * (page - s.pgcBase r / 4096)
def State.pgcHeld (s : State) (r page : Nat) : List Byte :=
  (List.range (4 * s.pgcT r)).map fun i =>
    let a := s.pgcSlot r page + i
    if s.readsZero (a / 64) then 0 else Memory.read8 s.mem.far a

/-- A line as DRAM holds it: its tracker's mask bit is clear (R393). -/
def State.farPut (s : State) (lo : Nat) (d : Line) (poison : Bool) : State :=
  let z := s.mem.ztrk.map fun z => if z.page == pageOf lo then { z with mask := z.mask &&& ~~~(BitVec.ofNat 64 (2 ^ (lo % 64))) } else z
  { s with mem := { s.mem with
    far := Memory.writeLine s.mem.far (64 * lo) d
    farPoison := Tab.put false s.mem.farPoison lo poison
    farWritten := Tab.put false s.mem.farWritten lo true
    ztrk := z.filter fun z => z.mask != 0 } }

/-- A first write to an unwritten page can go: a zeroing tracker of its FMC is free (R393). -/
def State.zeroTrackerFree (s : State) (lo : Nat) : Bool := (s.mem.ztrk.filter fun z => z.ch == farCh lo).length < 16

/-- The first write to an unwritten page sets its bit, writing the zero-map line through, and takes a zeroing tracker for the other 63
lines (R393). -/
def State.firstWrite (s : State) (lo : Nat) : State :=
  let s := s.zmapLook (pageOf lo)
  if s.zmapOn && !Tab.get false s.mem.zmap (pageOf lo) then
    ({ s with mem := { s.mem with
      zmap := Tab.put false s.mem.zmap (pageOf lo) true
      ztrk := s.mem.ztrk ++ [{ ch := farCh lo, page := pageOf lo, mask := ~~~(BitVec.ofNat 64 (2 ^ (lo % 64))) }] } } : State).houseMerge
        (pageOf lo / 512) (BitVec.ofNat 64 (2 ^ (pageOf lo % 512 / 8)))
  else s

/-- Write the parity slot of a page: `bs` over the lines that it lies in (R395, R393). -/
def State.pgcPut (s : State) (r page : Nat) (bs : List Byte) : State :=
  let base := s.pgcSlot r page
  (List.range (ceilDiv' bs.length 64)).foldl (fun s j =>
    let lo := base / 64 + j
    let off := base % 64
    let old := if s.readsZero lo then 0 else Memory.readLine s.mem.far (64 * lo)
    let new : Line := BitVec.ofNat 512 (leNat ((List.range 64).map fun i =>
      if off ≤ 64 * j + i && 64 * j + i < off + bs.length then (bs[64 * j + i - off]?).getD 0 else BitVec.ofNat 8 (old.toNat / 2 ^ (8 * i))))
    (s.firstWrite lo).farPut lo new (Tab.get false s.mem.farPoison lo)) s

/-- Lines of a page that are zero but for line `i`. -/
def onlyLine (i : Nat) (d : Line) : List Line := (List.replicate 64 (0 : Line)).set i d

/-- The parity slot changes by the code's response to the difference of a line (R395). -/
def State.pgcDelta (s : State) (r lo : Nat) (diff : Line) : State :=
  let page := pageOf lo
  s.pgcPut r page (List.zipWith (· ^^^ ·) (s.pgcHeld r page) (pageParity (s.pgcT r) (onlyLine (lo % 64) diff)))

/-- The parity slot of a page as the initialisation pass computes it (R396). -/
def State.pgcParity (s : State) (r page : Nat) : State := s.pgcPut r page (pageParity (s.pgcT r) (s.pageLines page))

/-- The page and its parity slot agree. -/
def State.pgcHolds (s : State) (r page : Nat) : Bool := s.pgcHeld r page == pageParity (s.pgcT r) (s.pageLines page)

/-- Store a line in DRAM: its zero-map bit and tracker mask, poison mark, parity (R389, R393, R395, R399). -/
def State.farStore (s : State) (lo : Nat) (d : Line) (poison : Bool) : State :=
  let c := farCh lo
  let old := if s.readsZero lo then 0 else Memory.readLine s.mem.far (64 * lo)
  let (d, poison) := s.flipLine 2 c d poison
  let s := (s.flipDone 2 c (64 * lo)).farPut lo d poison
  match s.pgcRegion lo with
  | some r => s.pgcDelta r lo (old ^^^ d)
  | none => s

/-! ### Writes (R257, R390) -/

/-- Hand a line, or some of its bytes, to the command unit's write queue. -/
def State.farEnqW (s : State) (lo : Nat) (d : Line) (poison : Bool) (be : Option (BitVec 64)) : State :=
  s.chanEnq (64 + farCh lo) (farSub lo)
    { seq := 0, bank := s.farBank lo, row := farRow s.mem.rbits lo, wr := true, addr := lo, data := some (d, poison), be := be,
      pre := !s.mtu.inLull }

/-- The merge-buffer entry of a word leaves for DRAM: a full word with no read, a partial one by read-modify-write. -/
def State.mergeFlush (s : State) (c u : Nat) (m : MergeEnt) : State :=
  let x := s.cunit c u
  let s := s.setCunit c u { x with merge := x.merge.filter fun e => e.addr != m.addr }
  if c < 64 then s
  else s.farEnqW m.addr m.data m.poison (if m.be == fullMask then none else some m.be)

/-- A write to a far line. A frozen channel discards and records it (R274). One narrower than the word goes through the
merge buffer (R390). -/
def State.farWrite (s : State) (lo : Nat) (d : Line) (poison : Bool) (be : BitVec 64) : State :=
  let c := 64 + farCh lo
  let u := farSub lo
  if s.farFrozen lo then s.rec_ 0x10 (128 + farCh lo) 0xFFFF (64 * lo) 0
  else
    let x := s.cunit c u
    match x.merge.find? fun m => m.addr == lo with
    | some m =>
      let m' : MergeEnt := { m with data := mergeBytes m.data d be, be := m.be ||| be,
                                    poison := if be == fullMask then poison else m.poison || poison }
      let s := s.setCunit c u { x with merge := x.merge.map fun e => if e.addr == lo then m' else e }
      if m'.be == fullMask then s.mergeFlush c u m' else s
    | none =>
      if be == fullMask then s.farEnqW lo d poison none
      else
        let s := if x.merge.length < 8 then s else match x.merge with
          | m :: _ => s.mergeFlush c u m
          | [] => s
        let x := s.cunit c u
        s.setCunit c u { x with merge := x.merge ++ [{ addr := lo, data := d, be := be, poison := poison, t0 := s.clk }] }

/-- A whole far line. -/
def State.farWriteLine (s : State) (lo : Nat) (d : Line) (poison : Bool) : State := s.farWrite lo d poison fullMask

/-! ### Reads -/

/-- A slice dispatches a far read for its tracker `htid`: a token names it until MEMORY_READ_DONE. A frozen channel answers
poison (R274); an unwritten page zero, with no access (R392). A word in the merge buffer is written first (R390). -/
def State.farRead (s : State) (lo n htid : Nat) : Nat × State :=
  let tok := s.mem.nextTok
  let c := 64 + farCh lo
  let u := farSub lo
  let s : State := { s with mem := { s.mem with nextTok := tok + 1 } }
  let add (s : State) (g : Option (Line × Bool)) : State :=
    { s with mem := { s.mem with reads := s.mem.reads ++ [{ tok := tok, lo := lo, n := n, htid := htid, got := g }] } }
  if s.farFrozen lo then (tok, (add s (some (Config.poisonLine, true))).rec_ 0x10 (128 + farCh lo) 0xFFFF (64 * lo) 1)
  else
    let s := match (s.cunit c u).merge.find? fun m => m.addr == lo with
      | some m => s.mergeFlush c u m
      | none => s
    let s := s.zmapLook (pageOf lo)
    let waits := (s.cunit c u).q ++ (s.cunit c u).hold
    if s.readsZero lo && !(waits.any fun r => r.wr && r.addr == lo) then (tok, add s (some (0, false)))
    else
      (tok, (add s none).chanEnq c u
        { seq := 0, bank := s.farBank lo, row := farRow s.mem.rbits lo, wr := false, addr := lo, tok := some tok,
          pre := !s.mtu.inLull })

end Sys2Proof.Machine
end

