-- ==== Sys2Proof/Machine/Reply.lean ====
section
/-! DEFINITION. The host snoop filter and back-invalidation, and the completion of a request toward whoever made it: a host
link, a PWB entry, a porter piece or a walker (chapters 6, 7 and 9). -/

namespace Sys2Proof.Machine

/-! ### The host snoop filter (R143, R165–R168) -/

def State.hsfCopies (s : State) (key : Nat) (flat : Bool) : List HsfCopy :=
  match s.hsf.find? fun e => e.key == key && e.flat == flat with
  | some e => e.copies
  | none => []

/-- A BISnp for the line is outstanding. -/
def State.biOpen (s : State) (key : Nat) (flat : Bool) : Bool := s.bisnps.any fun b => b.key == key && b.flat == flat

/-- A read and write of the HSF's entry of a line: what injection made of it is met, and it can corrupt the write (R399, R404). The filter has one
instance. -/
def State.hsfWrite (s : State) (key : Nat) : State :=
  let inst := fld (s.csrGet (offRas 0x10)) 0 8
  let s : State := match s.met 5 inst key .none with
    | .none => s
    | .ce => s.bucket 152
    | .ue => { s with ras := { s.ras with fatalDue := s.ras.fatalDue ++ [(152, s.injected 5 inst key, 0)] } }
  s.flipDone 5 inst key

/-- Change the copies recorded of a line; an entry without copies leaves. -/
def State.modCopies (s : State) (key : Nat) (flat : Bool) (f : List HsfCopy → List HsfCopy) : State :=
  let s := s.hsfWrite key
  let upd := s.hsf.map fun e => if e.key == key && e.flat == flat then { e with copies := f e.copies } else e
  { s with hsf := upd.filter fun e => !e.copies.isEmpty }

/-- The recorded copy that a BISnp was sent for. -/
def BiSnp.of (b : BiSnp) (c : HsfCopy) : Bool := b.link == c.link && b.dom == c.dom && b.glob == c.glob

/-- Send a BISnp for one host copy, unless one is outstanding for it. -/
def State.sendBi (s : State) (key : Nat) (flat : Bool) (c : HsfCopy) (inv : Bool) (w : BiWait) : State :=
  if s.bisnps.any fun b => b.key == key && b.flat == flat && b.of c then s
  else
    let b : BiSnp := { id := s.nextBi, link := c.link, key := key, flat := flat, inv := inv, em := c.em, wait := w, t0 := s.clk,
                       dom := c.dom, glob := c.glob }
    let s : State := { s with bisnps := s.bisnps ++ [b], nextBi := s.nextBi + 1 }
    (s.emit (.bisnp c.link b.id key flat inv)).event 152 (if inv then 1 else 2) 1

/-- Recall the copies of a line that `pick` chooses: to I with `inv`, otherwise to S. -/
def State.recall (s : State) (key : Nat) (flat inv : Bool) (pick : HsfCopy → Bool) (w : BiWait) : State :=
  ((s.hsfCopies key flat).filter pick).foldl (fun s c => s.sendBi key flat c inv w) s

/-- Recall every copy of a line, whose data is dropped: a recall that is out already drops what it brings, and one that leaves a copy in S
is followed by one to I (State.biDone; R273, R413). -/
def State.recallDrop (s : State) (key : Nat) (flat : Bool) : State :=
  let s : State := { s with bisnps := s.bisnps.map fun b => if b.key == key && b.flat == flat then { b with wait := .drop } else b }
  s.recall key flat true (fun _ => true) .drop

/-- Recall every host copy; downgrade every E-or-M copy. -/
def State.recallAll (s : State) (la : Nat) (w : BiWait) : State := s.recall la false true (fun _ => true) w
def State.recallEM (s : State) (la : Nat) (w : BiWait) : State := s.recall la false false (·.em) w

/-- No host holds the line and no recall is outstanding; no host holds it in E or M and none is outstanding. -/
def State.noHosts (s : State) (la : Nat) : Bool := (s.hsfCopies la false).isEmpty && !s.biOpen la false
def State.noHostEM (s : State) (la : Nat) : Bool := (s.hsfCopies la false).all (fun c => !c.em) && !s.biOpen la false

/-- HSF set of a key: R143 gives 262,144 sets of 16 ways and no hash (DESIGN CHOICE, safe: notes/assumptions/5.md). -/
def hsfSetOf (e : HsfEnt) : Nat := Config.hsfSet (2 * e.key + if e.flat then 1 else 0)

/-- The entry that must leave its set before a copy of `key` can be recorded: the oldest of a full set (R143). -/
def State.hsfVictim (s : State) (key : Nat) (flat : Bool) : Option HsfEnt :=
  if s.hsf.any fun e => e.key == key && e.flat == flat then none
  else
    let same := s.hsf.filter fun x => hsfSetOf x == hsfSetOf { key := key, flat := flat }
    if same.length < 16 then none else same.head?

/-- Back-invalidate every copy of an entry that leaves a full set; it is free again when all have been answered (R143). -/
def State.hsfEvict (s : State) (e : HsfEnt) : State :=
  if s.biOpen e.key e.flat then s
  else (e.copies.foldl (fun s c => s.sendBi e.key e.flat c true .evict) s).event 152 3 1

/-- Record a host copy (R143, R165). What asks for one waits for room first; a set found full all the same gives up its oldest
entry at once. -/
def State.recordCopy (s : State) (key : Nat) (flat : Bool) (c : HsfCopy) : State :=
  if s.hsf.any fun e => e.key == key && e.flat == flat then
    s.modCopies key flat fun cs => (cs.filter fun x => !(x.link == c.link && x.dom == c.dom && x.glob == c.glob)) ++ [c]
  else
    let s : State := match s.hsfVictim key flat with
      | none => s
      | some old =>
        let s := s.hsfEvict old
        { s with hsf := s.hsf.filter fun x => !(x.key == old.key && x.flat == old.flat) }
    let s := s.hsfWrite key
    { s with hsf := s.hsf ++ [{ key := key, flat := flat, copies := [c] }] }

/-- Write a flat line. -/
def State.flatPut (s : State) (fla : Nat) (d : Line) (poison : Bool) : State :=
  let (set, w) := flatSlot s.part s.houseWays fla
  s.wayPut (sliceOfSet s.part set) set w d poison

/-- Dirty data that a host returns is merged into the line wherever this E9 holds it (R82, R144): the victim buffer, the way
(E becomes M, a line in P is rewritten whole), the transaction open for it at this home, or far memory. For an other-domain line
still held in L it becomes a write-through, as Table 3.5 gives for one that leaves (DESIGN CHOICE, unsafe: notes/assumptions/86.md). -/
def State.mergeDirty (s : State) (key : Nat) (flat : Bool) (d : Line) (poison : Bool) : State :=
  if flat then s.flatPut key d poison
  else
    let n := sliceOf key
    let x := s.slice n
    if x.vbs.any fun v => v.la == key then
      s.setSlice n { x with vbs := x.vbs.map fun v =>
        if v.la == key then { v with data := d, poison := poison, st := if poison then stP else stM } else v }
    else match s.findLine key with
      | some (w, e) =>
        if e.st == stL then
          s.setSlice n { x with inq := x.inq ++ [{ src := .maint, kind := .write, la := key, data := d, be := fullMask, poison := poison,
                                                   glob := true }] }
        else
        let st := if poison then stP else if e.st == stO then stO else stM
        (s.wayPut n (setOf s.part key) w d poison).putEnt n (setOf s.part key) w { e with st := st }
      | none =>
        if x.trks.any fun t => t.la == key && t.ph == .collect then
          s.setSlice n { x with trks := x.trks.map fun t =>
            if t.la == key && t.ph == .collect then { t with data := some (d, poison), dirty := true } else t }
        else if s.classOf key == .loc then s.farWriteLine (laLocal key) d poison
        else s

/-! ### Bounds (R240, R246–R251) -/

/-- Bound of a class in core clocks (Table 9.1), where HOLD is `hold`; none for global accesses. -/
def State.boundAt (s : State) (cls hold : Nat) : Option Nat :=
  match cls with
  | 0 => some 480
  | 1 => some 840
  | 2 => some (2 * (240 + 120 * s.domHops + 4 * hold))
  | _ => none
def State.bound (s : State) (cls slice : Nat) : Option Nat := s.boundAt cls (s.holdTime (slice / 4))

/-- The longest bound in force (R229), in clocks. -/
def State.longestBound (s : State) : Nat :=
  2 * max 420 (240 + 120 * s.domHops + 4 * (List.range 16).foldl (fun a b => max a (s.holdTime b)) 0)

/-- Account a host answer (R250, R251): it counts as an overrun, as voided, as extended, or not at all. -/
def State.account (s : State) (h : HostReq) : State :=
  if h.voided then s.modLink h.link fun x => { x with voided := satAdd 0xFFFF x.voided 1, voidClk := s.clk + 1 }
  else match s.boundAt h.cls h.hold with
    | none => s
    | some b =>
      if min (b + h.add) 24000 < s.clk - h.t0 then
        ((s.modLink h.link fun x => { x with overrun := satAdd 0xFFFF x.overrun 1, overClk := s.clk + 1 }).event (211 + h.link / 2) 6 1).rec_ 0x11
          (211 + h.link / 2) 0xFFFF h.off (h.cls + h.add * 256 + (s.clk - h.t0) * 2 ^ 32)
      else if 0 < h.add then s.modLink h.link fun x => { x with extended := satAdd 0xFFFF x.extended 1, extClk := s.clk + 1 }
      else s

/-- Change one accepted host request. -/
def State.modReq (s : State) (rid : Nat) (f : HostReq → HostReq) : State :=
  { s with hreqs := s.hreqs.map fun h => if h.rid == rid then f h else h }
def State.hreq (s : State) (rid : Nat) : Option HostReq := s.hreqs.find? fun h => h.rid == rid

/-- The slice has issued the request: it has handed it to the home (R164). -/
def State.markIssued (s : State) (src : Src) : State :=
  match src with
  | .host rid => s.modReq rid fun h => { h with issued := true }
  | _ => s

/-- The path of a request turned out to be of class `c` (R241). HOLD is taken from this E9's own DIR[b]_CFG as its message is sent, since
the holder's value is not carried (DESIGN CHOICE, unsafe: notes/assumptions/116.md). -/
def State.classify (s : State) (src : Src) (c : Nat) : State :=
  match src with
  | .host rid => s.modReq rid fun h =>
    { h with cls := max h.cls c, hold := if h.cls < 2 && c == 2 then s.holdTime (sliceOf h.la / 4) else h.hold }
  | _ => s

/-- An addition of Table 9.7, in clocks. -/
def State.extend (s : State) (src : Src) (k : Nat) : State :=
  match src with
  | .host rid => s.modReq rid fun h => { h with add := h.add + k }
  | _ => s

/-- The request waits for an open recall round of line `key`: its addition, once for the round (Table 9.7). -/
def State.recallWait (s : State) (src : Src) (key : Nat) (flat : Bool) : State :=
  match src with
  | .host rid => s.modReq rid fun h => if h.biFor == some (key, flat) then h else { h with biFor := some (key, flat), add := h.add + 2000 }
  | _ => s

/-- The round of line `key` has been answered. -/
def State.roundEnd (s : State) (key : Nat) (flat : Bool) : State :=
  if s.biOpen key flat then s
  else { s with hreqs := s.hreqs.map fun h => if h.biFor == some (key, flat) then { h with biFor := none } else h }

/-- A roster step no longer waits at the slice of the requests that `pick` names: each is given the time that it waited, up to 1,024 ns
(R243, Table 9.7). -/
def State.rosterGone (s : State) (pick : HostReq → Bool) : State :=
  { s with hreqs := s.hreqs.map fun h =>
      match h.rosterAt with
      | some t => if pick h then { h with rosterAt := none, add := h.add + min 2048 (s.clk - t) } else h
      | none => h }

/-- The bound is void (Table 9.8). -/
def State.void (s : State) (src : Src) : State :=
  match src with
  | .host rid => s.modReq rid fun h => { h with voided := true }
  | _ => s

/-! ### Answers to hosts (R159, R163, R165) -/

/-- Answer a host's read: `val` is the MetaValue granted, 0 I, 1 S, 2 A; a granted copy is recorded. One of a load through alias 1 has aged out
when its answer may go (DEDUCED, safe: notes/assumptions/37.md). -/
def State.hostData (s : State) (h : HostReq) (d : Line) (poison : Bool) (val : Nat) : State :=
  if h.mute then s
  else
    -- a lease that has aged out while the answer waited grants no copy (R167)
    let val := if h.win == .glob && 2 ≤ s.lse.count - h.advs then 0 else val
    let s := (s.account h).emit (.memData h.link h.req.tag d poison val)
    if val == 0 then s
    else s.recordCopy h.la (h.win == .flat)
      { link := h.link, em := val == 2, dom := h.win == .dom, glob := h.win == .glob, advs := h.advs }

/-- Answer a host's write. -/
def State.hostCmp (s : State) (h : HostReq) : State :=
  if h.mute then s else (s.account h).emit (.cmp h.link h.req.tag)

/-- The request has left this E9's bookkeeping. -/
def State.hostGone (s : State) (rid : Nat) : State := { s with hreqs := s.hreqs.filter fun h => h.rid != rid }

/-- Request identifiers of unperformed accesses (R337): host requests even, porter pieces odd. -/
def aidHost (rid : Nat) : Nat := 2 * rid
def aidPiece (p pid : Nat) : Nat := 2 * (pid * 32 + p) + 1

/-! ### The double advance (R204) -/

/-- Request a double advance: its order number. Requests share one that has not begun. -/
def State.reqAdvance (s : State) : Nat × State :=
  let waiting := 2 ≤ (s.lse.steps.filter id).length
  (s.lse.dblStarted + 1,
   if waiting then s else { s with lse := { s.lse with steps := s.lse.steps ++ [true, true] } })

/-! ### PWB entries (R188, R190) -/

/-- Entries at the head that are performed, or count complete, retire in order. -/
def retireFifo : List PwbEnt → List PwbEnt
  | [] => []
  | e :: t => if e.performed || (e.issued && e.early) then retireFifo t else e :: t

def State.pwbRetire (s : State) (l : Nat) : State := s.modLink l fun x => { x with pwb := retireFifo x.pwb }

/-- A PWB entry has been performed or discarded. -/
def State.pwbEnd (s : State) (l seq : Nat) : State :=
  let more := match (s.link l).pwb.find? fun e => e.seq == seq with | some e => e.more | none => []
  let s := more.foldl (fun s a => s.accDone a) s
  (s.modLink l fun x => { x with pwb := x.pwb.map fun e => if e.seq == seq then { e with performed := true } else e }).pwbRetire l

/-! ### Completing a request -/

/-- What a porter's piece or a walker receives. -/
def State.pieceGot (s : State) (p pid : Nat) (d : Line) (poison : Bool) (code : Nat) : State :=
  let x := s.por p
  s.setPor p { x with pieces := x.pieces.map fun q => if q.pid == pid then { q with got := some (d, poison, code) } else q }
def State.walkerGot (s : State) (i w : Nat) (d : Line) (poison : Bool) (code : Nat) : State :=
  let x := s.xlt i
  s.setXlt i { x with walkers := x.walkers.map fun q => if q.w == w then { q with got := some (d, poison, code) } else q }

/-- A request has been performed: a read or atomic with its data, a write. `val` is the copy granted to a host. -/
def State.reqDone (s : State) (r : Req) (d : Line) (poison : Bool) (val : Nat) : State :=
  let s : State := match r.src with
    | .host rid =>
      match s.hreq rid with
      | none => s
      | some h =>
        if r.kind == .write then (s.hostCmp h).hostGone rid
        else
          -- a poisoned answer is recorded (R163)
          let s := if poison then s.rec_ 0xFF (211 + h.link / 2) 0xFFFF h.off 0 else s
          if h.win == .glob && h.ali == 1 then
            let (t, s) := s.reqAdvance
            s.modReq rid fun h => { h with ph := .acquire, resp := some (d, poison, val), advTicket := t }
          else (s.hostData h d poison val).hostGone rid
    | .pwb l seq => s.pwbEnd l seq
    | .piece p pid => s.pieceGot p pid d poison 0
    | .walker i w => s.walkerGot i w d poison 0
    | .prefetch => s
    | .maint => s
  s.accDone r.aid

/-- Why a request fails. -/
inductive Why where
  /-- its target is unreachable, dead, or its fabric deadline passed (R192) -/
  | dead
  /-- NACK-DOWN, or its domain is DOWN (R147) -/
  | down
  /-- NACK-RANGE (R127), or beyond this E9's far memory -/
  | range
  /-- a frozen channel's range, or cache mode HOLD (R274, R108) -/
  | stop
  deriving DecidableEq, Repr

/-- Status of Table 14.5 and walk code of Table 11.5 for a failure. -/
def Why.porter : Why → Nat
  | .dead => 4
  | .down => 5
  | .range => 4
  | .stop => 8
def Why.walk : Why → Nat
  | .dead => 8
  | .down => 8
  | .range => 6
  | .stop => 7

/-- The link or porter that a fence charges a failure to. -/
def Req.who (r : Req) : Option Nat :=
  match r.src with
  | .host _ => some r.link
  | .pwb l _ => some l
  | .piece p _ => some (64 + p)
  | _ => none

/-- The record of a request that ends without its effect: a discarded or unreachable one is a DISCARD, any other, and every one
beyond the home's far memory, an ACCESS_REFUSED (R127, Table 15.6). -/
def Req.failType (r : Req) (why : Why) : Nat :=
  let posted := match r.src with | .pwb _ _ => true | _ => false
  if why == .dead || (r.kind == .write && posted && why != .range) then 0x12 else 0x10

/-- The request is a speculative walk's, which writes no ledger record (R291). -/
def State.specWalk (s : State) (src : Src) : Bool :=
  match src with
  | .walker i w => (s.xlt i).walkers.any fun v => v.w == w && v.spec
  | _ => false

/-- A request ends without its effect (Table 6.3, R127, R191, R192): its record, the failure for the next fence that covers
it, and the answer to its source. -/
def State.reqFail (s : State) (r : Req) (why : Why) : State :=
  let node := if r.flat then s.nodeNo else laNode r.la
  let wr := r.kind == .write
  let s : State := if r.src == .prefetch then s.event (sliceOf r.la) 0x0F 1
    else if s.specWalk r.src then s
    else s.rec_ (r.failType why) (sliceOf r.la) node (64 * r.la) (if wr then 1 else 0)
  let s : State := match r.who with
    | some k => if why == .stop then s else s.accFail r.aid k node (why == .down)
    | none => s
  let s : State := match r.src with
    | .host rid =>
      let s := if wr && (why == .dead || (why == .down && r.glob)) then
          s.modLink r.link fun x => { x with pwbDiscarded := satAdd 0xFFFF x.pwbDiscarded 1 } else s
      match s.hreq rid with
      | none => s
      | some h =>
        let h := if why == .down || why == .stop then { h with voided := true } else h
        (if wr then s.hostCmp h else s.hostData h Config.poisonLine true 0).hostGone rid
    | .pwb l seq =>
      -- DISCARDED counts what R191 and R192 discard, not a write beyond the home's memory or into a frozen range (R210)
      (if why == .dead || why == .down then s.modLink l fun x => { x with pwbDiscarded := satAdd 0xFFFF x.pwbDiscarded 1 } else s).pwbEnd l seq
    | .piece p pid => s.pieceGot p pid Config.poisonLine true why.porter
    | .walker i w => s.walkerGot i w Config.poisonLine true why.walk
    | .prefetch => s
    -- a line whose fetch fails is not locked (R103; DESIGN CHOICE, unsafe: notes/assumptions/87.md)
    | .maint => if wr then s else { s with mgt := { s.mgt with range := s.mgt.range.map fun x => { x with refused := x.refused + 1 } } }
  s.accDone r.aid

end Sys2Proof.Machine
end

