-- ==== Sys2Proof/Machine/Evict.lean ====
section
/-! DEFINITION. Victims, evictions through the victim buffer, and installs (chapter 3), with the hold-back of refused
requests (R139, R181). -/

namespace Sys2Proof.Machine

/-- Miss-register and victim-buffer forms of TID (Table 5.5). -/
def tidMr (n i : Nat) : Nat := n * 64 + i
def tidVb (n i : Nat) : Nat := 4096 + n * 64 + i

/-- A line is the subject of an open miss register of its slice (R80). -/
def State.busyLine (s : State) (n la : Nat) : Bool := (s.slice n).mrs.any fun m => m.la == la

/-- The slice holds a refused request with opcode `opc` for `home` (R139, R181). -/
def State.holdsRefused (s : State) (n home opc : Nat) : Bool :=
  ((s.slice n).mrs.any fun m => m.refSeq != 0 && m.home == home && m.opc == opc)
    || ((s.slice n).outw.any fun o => o.refSeq != 0 && o.home == home && o.msg.opc == opc)
    || (opc == 0x19 && (s.slice n).vbs.any fun v => v.refSeq != 0 && laNode v.la == home)

def State.modMr (s : State) (n i : Nat) (f : Mr → Mr) : State :=
  s.modSlice n fun x => { x with mrs := x.mrs.map fun m => if m.idx == i then f m else m }
def State.modVb (s : State) (n i : Nat) (f : Vb → Vb) : State :=
  s.modSlice n fun x => { x with vbs := x.vbs.map fun v => if v.idx == i then f v else v }
def State.mr (s : State) (n i : Nat) : Option Mr := (s.slice n).mrs.find? fun m => m.idx == i
def State.vb (s : State) (n i : Nat) : Option Vb := (s.slice n).vbs.find? fun v => v.idx == i

/-- Free a victim-buffer entry. -/
def State.vbFree (s : State) (n i : Nat) : State :=
  s.modSlice n fun x => { x with vbs := x.vbs.filter fun v => v.idx != i }

/-- The lowest-numbered free number below `k`. -/
def freeIdx (k : Nat) (used : List Nat) : Option Nat := (List.range k).find? fun i => !used.contains i

/-- Everything that leaves with a far line's write-back: the command unit takes it (Table 3.5, R257). -/
def State.farRoom (s : State) (lo : Nat) : Bool :=
  let x := s.cunit (64 + farCh lo) (farSub lo)
  (s.chan (64 + farCh lo)).frozen || (x.room true && !x.hold.any (·.wr))

/-- An entry takes its next step once no host copy is outstanding (R82, R85, Table 3.5): the far write, as soon as its command
unit accepts it, the OFFER, the WBD, or the write-through of an L line's dirty data. One whose message has been answered is
freed when the copies granted from it are gone. -/
def State.vbGo (s : State) (n i : Nat) : State :=
  match s.vb n i with
  | none => s
  | some v =>
    if v.sent && !v.done then s
    else if (v.action != 0 || v.done) && !s.noHosts v.la then s.recallAll v.la (.vb n i)
    else if v.done then s.vbFree n i
    else
      let home := laNode v.la
      let m : CohMsg := { tid := tidVb n i, req := s.nodeNo, la := v.la, data := v.data, poison := v.poison || v.st == stP }
      match v.action with
      | 0 => if s.farRoom (laLocal v.la) then (s.farWriteLine (laLocal v.la) v.data m.poison).vbFree n i else s
      | 1 =>
        if v.st == stM || v.st == stP then
          ((s.modVb n i fun v => { v with action := 2, sent := true, since := s.mtu.mt }).sendCoh home { m with opc := 3 }).event n 0x0C 1
        else ((s.sendCoh home { m with opc := 4 }).event n 0x0D 1).vbFree n i
      | 2 => ((s.modVb n i fun v => { v with sent := true, since := s.mtu.mt }).sendCoh home { m with opc := 3 }).event n 0x0C 1
      | _ =>
        if v.st == stL then s.vbFree n i
        else if s.holdsRefused n home 0x19 then s.modVb n i fun v => { v with refused := true }
        else (s.modVb n i fun v => { v with sent := true, refused := false, t0 := s.clk, paused0 := s.paused }).sendGlob home
          { m with opc := 0x19 }

/-- Put a line into the victim buffer (R82); none when all sixteen entries are busy. -/
def State.vbTake (s : State) (n la : Nat) (d : Line) (poison : Bool) (st : BitVec 3) (action advs : Nat) : Option State :=
  (freeIdx 16 ((s.slice n).vbs.map (·.idx))).map fun i =>
    let v : Vb := { idx := i, la := la, data := d, poison := poison, st := st, action := action, advs := advs, since := s.mtu.mt,
                    gap := s.retryGap (n / 4) }
    (s.modSlice n fun x => { x with vbs := x.vbs ++ [v], vbHwm := max x.vbHwm (x.vbs.length + 1) }).vbGo n i

/-- Victim-buffer action of a line (Table 3.5); none when it needs no entry. -/
def State.evictAction (s : State) (la : Nat) (st : BitVec 3) : Option Nat :=
  if st == stS || st == stE then (if s.classOf la == .loc then none else some 1)
  else if st == stM || st == stO || st == stP then (if s.classOf la == .loc then some 0 else some 2)
  else if st == stL && !s.noHosts la then some 3
  else none

/-- The count of epoch advances at which an L entry was filled. -/
def State.entryAdvs (s : State) (e : TagEnt) : Nat := s.lse.count - (s.lse.epoch - e.ep).toNat

/-- Evict way `w` of a set (Table 3.5), writing its entry I; none when it needs a victim-buffer entry and none is free. -/
def State.evictWay (s : State) (n set w : Nat) : Option State :=
  let e := (s.tags n set).get w
  let clear (s : State) : State := s.putEnt n set w { e with st := stI, ep := 0, lock := false }
  if !s.valid e then (if e.st == stX then some s else some (clear s))
  else
    let la := lineOf s.part set e.tag
    match s.evictAction la e.st with
    | none => some (clear s)
    | some a =>
      if 16 ≤ (s.slice n).vbs.length then none
      else
        -- an uncorrectable error poisons the data that leaves (R65; DEDUCED, safe: notes/assumptions/88.md)
        let (x, s) := s.readWay n set w false
        let s := if x == .ue then (s.ueData n (s.injNear n set w) (64 * la) w) else s
        let (d, p) := s.wayGet set w
        (clear s).vbTake n la (if x == .ue then Config.poisonLine else d) (p || x == .ue) e.st a (s.entryAdvs e)

/-- A candidate way: a cache way whose line is not busy (R80). -/
def State.candidate (s : State) (n set : Nat) (b : TagBlk) (w : Nat) : Bool :=
  s.stayWay w && !(s.valid (b.get w) && s.busyLine n (lineOf s.part set (b.get w).tag))

/-- A free way: I or stale L (R81). -/
def State.freeWay (s : State) (n set : Nat) : Option Nat :=
  let b := s.tags n set
  (List.range 14).findSome? fun i =>
    let e := b.get (i + 1)
    if s.candidate n set b (i + 1) && (e.st == stI || s.stale e) then some (i + 1) else none

/-- The victim procedure of R81. -/
def State.victim (s : State) (n set : Nat) : Option Nat :=
  match s.freeWay n set with
  | some w => some w
  | none =>
    let b := s.tags n set
    [3, 2, 1, 0].findSome? fun a =>
      (List.range 14).findSome? fun i =>
        let e := b.get (i + 1)
        if s.candidate n set b (i + 1) && e.st != stX && !e.lock && e.age.toNat == a then some (i + 1) else none

/-- Install a line in way `w` (R81). -/
def State.install (s : State) (n la w : Nat) (st : BitVec 3) (age : Nat) (d : Line) (poison ages : Bool) : State :=
  let set := setOf s.part la
  let b := s.tags n set
  let b := if ages then s.ageOthers b w else b
  let e : TagEnt := { tag := tagOf s.part la, st := st, age := BitVec.ofNat 2 age, ep := if st == stL then s.lse.epoch else 0 }
  ((s.putTags n set (b.set w e)).wayPut n set w d poison).predict n la w

/-- Choose a victim, evict it and install (R81); none when the fill must be replayed. -/
def State.fill (s : State) (n la : Nat) (st : BitVec 3) (age : Nat) (d : Line) (poison : Bool) : Option State :=
  let set := setOf s.part la
  match s.victim n set with
  | none => none
  | some w => (s.evictWay n set w).map fun s => s.install n la w st age d poison true

/-- A hit touches its way: AGE 0 unless streaming, the others age (R64). -/
def State.hitAge (s : State) (n la w : Nat) (stream : Bool) : State :=
  let set := setOf s.part la
  let b := s.ageOthers (s.tags n set) w
  let e := b.get w
  s.putTags n set (b.set w (if stream then e else { e with age := 0 }))

/-- The hit of a request; maintenance changes no AGE (R60). -/
def State.hitReq (s : State) (n w : Nat) (r : Req) : State := if r.src == .maint then s else s.hitAge n r.la w r.stream

/-- Write a held line's entry I (R35); `coh` counts a lock lost by coherence (R104). -/
def State.dropLine (s : State) (n la w : Nat) (coh : Bool) : State :=
  let set := setOf s.part la
  let e := (s.tags n set).get w
  let s := s.putEnt n set w { e with st := stI, ep := 0, lock := false }
  if coh && e.lock then s.event n 0x10 1 else s

/-- Change a held line's state. -/
def State.setLineState (s : State) (n la w : Nat) (st : BitVec 3) : State :=
  let set := setOf s.part la
  s.putEnt n set w { (s.tags n set).get w with st := st }

end Sys2Proof.Machine
end

