-- ==== Sys2Proof/Machine/Atomic.lean ====
section
/-! DEFINITION. The atomic operations of Table 13.4 and IEEE 754 addition (R354–R357). -/

namespace Sys2Proof.Machine

/-- A binary floating-point format: exponent and fraction widths. -/
structure FFmt where
  e : Nat
  f : Nat
  deriving DecidableEq, Repr

def fmt32 : FFmt := { e := 8, f := 23 }
def fmt64 : FFmt := { e := 11, f := 52 }

/-- Exponent and fraction fields, and sign, of an encoding. -/
def FFmt.expo (t : FFmt) (x : Nat) : Nat := x / 2 ^ t.f % 2 ^ t.e
def FFmt.frac (t : FFmt) (x : Nat) : Nat := x % 2 ^ t.f
def FFmt.sign (t : FFmt) (x : Nat) : Bool := x.testBit (t.e + t.f)
def FFmt.isNan (t : FFmt) (x : Nat) : Bool := t.expo x == 2 ^ t.e - 1 && t.frac x != 0
def FFmt.isInf (t : FFmt) (x : Nat) : Bool := t.expo x == 2 ^ t.e - 1 && t.frac x == 0
/-- The canonical quiet NaN (R355). -/
def FFmt.qnan (t : FFmt) : Nat := (2 ^ t.e - 1) * 2 ^ t.f + 2 ^ (t.f - 1)
/-- The magnitude of a finite value, in units of the least subnormal. -/
def FFmt.mag (t : FFmt) (x : Nat) : Nat := if t.expo x == 0 then t.frac x else (2 ^ t.f + t.frac x) * 2 ^ (t.expo x - 1)

/-- Encode the magnitude `m`, in units of the least subnormal, rounding to nearest, ties to even; overflow gives infinity. -/
def FFmt.encode (t : FFmt) (m : Nat) : Nat :=
  if m < 2 ^ (t.f + 1) then m
  else
    let sh := Nat.log2 m - t.f
    let q := m / 2 ^ sh
    let r := m % 2 ^ sh
    let half := 2 ^ (sh - 1)
    let q := if half < r || (r == half && q % 2 == 1) then q + 1 else q
    let x := (q - 2 ^ t.f) + (sh + 1) * 2 ^ t.f
    if (2 ^ t.e - 1) * 2 ^ t.f ≤ x then (2 ^ t.e - 1) * 2 ^ t.f else x

/-- IEEE 754 addition, round to nearest even; a NaN operand or opposite infinities give the canonical NaN (R355). -/
def FFmt.add (t : FFmt) (a b : Nat) : Nat :=
  let sbit := 2 ^ (t.e + t.f)
  if t.isNan a || t.isNan b then t.qnan
  else if t.isInf a then (if t.isInf b && t.sign a != t.sign b then t.qnan else a)
  else if t.isInf b then b
  else
    let ma := t.mag a
    let mb := t.mag b
    if t.sign a == t.sign b then t.encode (ma + mb) + (if t.sign a then sbit else 0)
    else if ma == mb then 0
    else if mb < ma then t.encode (ma - mb) + (if t.sign a then sbit else 0)
    else t.encode (mb - ma) + (if t.sign b then sbit else 0)

/-- Size in bytes of an AOP's operand; none for an unused AOP (Table 13.4). -/
def aopSize (a : Nat) : Option Nat :=
  if a == 0x15 then some 16 else if a == 0x14 then some 8 else if a ≤ 0x13 then some (if a % 2 == 0 then 4 else 8) else none

/-- Fields of an operand block (Table 13.5). -/
def opndAop (o : BitVec 384) : Nat := o.toNat / 2 ^ 256 % 256
def opndOffset (o : BitVec 384) : Nat := o.toNat / 2 ^ 264 % 64
def opndArg (o : BitVec 384) (size : Nat) : Nat := o.toNat % 2 ^ (8 * size)
def opndCmp (o : BitVec 384) (size : Nat) : Nat := o.toNat / 2 ^ 128 % 2 ^ (8 * size)

/-- An operand block that the home refuses (R357). -/
def opndBad (o : BitVec 384) : Bool :=
  match aopSize (opndAop o) with
  | none => true
  | some k => o.toNat / 2 ^ 272 != 0 || o.toNat / 2 ^ 270 % 4 != 0 || opndOffset o % k != 0

/-- Signed reading of an n-bit number. -/
def signed (n x : Nat) : Int := if x.testBit (n - 1) then (x : Int) - 2 ^ n else x

/-- New value of an operation on `old` with `arg` and `cmp`, `k` bytes wide (Table 13.4). -/
def aopNew (a k old arg cmp : Nat) : Nat :=
  let n := 8 * k
  if a ≤ 0x01 then (old + arg) % 2 ^ n
  else if a ≤ 0x03 then old &&& arg
  else if a ≤ 0x05 then old ||| arg
  else if a ≤ 0x07 then old ^^^ arg
  else if a ≤ 0x09 then arg
  else if a ≤ 0x0B then (if signed n arg < signed n old then arg else old)
  else if a ≤ 0x0D then (if signed n old < signed n arg then arg else old)
  else if a ≤ 0x0F then min old arg
  else if a ≤ 0x11 then max old arg
  else if a == 0x12 then fmt32.add old arg
  else if a == 0x13 then fmt64.add old arg
  else if old == cmp then arg else old

/-- Apply an atomic to a line: the new line and the result block of R356. -/
def atomApply (line : Line) (o : BitVec 384) : Line × Line :=
  let a := opndAop o
  let k := (aopSize a).getD 8
  let off := opndOffset o
  let old := line.toNat / 2 ^ (8 * off) % 2 ^ (8 * k)
  let new := aopNew a k old (opndArg o k) (opndCmp o k)
  let be : BitVec 64 := BitVec.ofNat 64 ((2 ^ k - 1) * 2 ^ off)
  let succ := decide (0x14 ≤ a) && old == opndCmp o k
  (mergeBytes line (BitVec.ofNat 512 (new * 2 ^ (8 * off))) be,
   BitVec.ofNat 512 (old + if succ then 2 ^ 128 else 0))

end Sys2Proof.Machine
end

