-- ==== Sys2Proof/Machine/Dir.lean ====
section
/-! DEFINITION. The directory: store sets, the directory cache, allocation and eviction (R114–R123), the home's trackers
(R128, R137), and the state of the E9's own domain as the home sees it. -/

namespace Sys2Proof.Machine

/-! ### Opcodes (Table 5.6, Table 7.12) -/

def opRDS : Nat := 0x00
def opRDX : Nat := 0x01
def opUPG : Nat := 0x02
def opWBD : Nat := 0x03
def opOFFER : Nat := 0x04
def opIWR : Nat := 0x05
def opATOM : Nat := 0x06
def opINV : Nat := 0x08
def opFWDS : Nat := 0x09
def opFWDX : Nat := 0x0A
def opACK : Nat := 0x10
def opDATA : Nat := 0x11
def opDATAO : Nat := 0x12
def opRETRY : Nat := 0x13
def opNACKDOWN : Nat := 0x14
def opNACKRANGE : Nat := 0x15
def opGRD : Nat := 0x18
def opGWR : Nat := 0x19
def opGATOM : Nat := 0x1A
def opGDATA : Nat := 0x1C
def opGACK : Nat := 0x1D
def opGBUSY : Nat := 0x1E

/-! ### Sharers -/

def bitsOf (v : BitVec 128) : List Nat := (List.range 128).filter fun i => v.getLsbD i
def vecSet (v : BitVec 128) (m : Nat) : BitVec 128 := v ||| BitVec.ofNat 128 (2 ^ m)
def vecClr (v : BitVec 128) (m : Nat) : BitVec 128 := v &&& ~~~(BitVec.ofNat 128 (2 ^ m))

/-! ### The store and its cache (R118, R119, R122) -/

/-- House line that holds way `w` of store set `set` of bank `b` (R118). -/
def State.dirLine (s : State) (b set w : Nat) : Nat := 2 ^ 21 + (b * s.dirGib * 2 ^ 17 + set) * 8 + w / 2

/-- The bank reads the eight house lines of a store set at once (R118). -/
def State.dirFetch (s : State) (b set : Nat) : State :=
  (List.range 8).foldl (fun s j => s.houseAccess (s.dirLine b set (2 * j)) false) s

/-- GLB_PART and GLB_HOUSE each hold a majority (Table 15.2) (DEDUCED, safe: notes/assumptions/61.md). -/
def State.layoutKnown (s : State) : Bool := s.glbPart.value.isSome && s.glbHouse.value.isSome

/-- A near channel is frozen. -/
def State.anyNearFrozen (s : State) : Bool := (List.range s.part.nmcs).any fun c => (s.chan c).frozen

/-- A house line of a store set is the word that injection last corrupted (R399). -/
def State.injDir (s : State) (b set : Nat) : Bool := (List.range 8).any fun j => s.injHouse (s.dirLine b set (2 * j))

/-- What the reads of a store set's eight house lines find: what injection made of them, else `errs` (R399). -/
def State.dirErrs (s : State) (b set : Nat) (errs : List ArrErr) : List ArrErr :=
  (List.range 8).map fun j => s.metHouse (s.dirLine b set (2 * j)) ((errs[j]?).getD .none)

/-- Where two stores differ, by key. -/
def storeDiff (a b : Tab DirEnt) : List Nat := (a ++ b).filterMap fun e =>
  if Tab.get {} a e.1 != Tab.get {} b e.1 then some e.1 else none

/-- Change a directory bank. What changes in its store is written to its house slots (R29). A write of a directory entry can be
corrupted by injection: its address is the entry's house offset (R118, R399). -/
def State.setBank (s : State) (b : Nat) (x : Bank) : State :=
  let ks := storeDiff x.store (s.bank b).store
  let s := ks.dedup.foldl (fun s k => s.flipDone 4 b (2 ^ 27 + (b * s.dirGib * 2 ^ 21 + k) * 32)) s
  let s := ks.dedup.foldl (fun s k =>
    s.houseMerge (s.dirLine b (k / 16) (k % 16)) (if k % 2 == 0 then 0x00000000FFFFFFFF else 0xFFFFFFFF00000000)) s
  { s with banks := Tab.put {} s.banks b x }

/-- Store set of a line within its bank (R118). -/
def dirSetOf (dirGib la : Nat) : Nat :=
  let h := (la % 2 ^ 32) ^^^ (la / 2 ^ 32 % 2 ^ 19 * 2 ^ 13 % 2 ^ 32)
  h * (dirGib * 2 ^ 17) / 2 ^ 32

/-- Directory-cache key of the entry at store set `set`, way `w`. -/
def Bank.dcKey (x : Bank) (set w : Nat) : Option Nat :=
  (List.range 16).findSome? fun i =>
    match Tab.get none x.dc (set % 2048 * 16 + i) with
    | some e => if e.set == set && e.way == w then some (set % 2048 * 16 + i) else none
    | none => none

/-- The entry at a store set and way: the cached one governs. -/
def Bank.ent (x : Bank) (set w : Nat) : DirEnt :=
  match x.dcKey set w with
  | some k => match Tab.get none x.dc k with
    | some e => e.ent
    | none => {}
  | none => Tab.get {} x.store (set * 16 + w)

/-- Way of the entry for line index `lo`: in the directory cache; anywhere in the set. -/
def Bank.dcHit (x : Bank) (set lo : Nat) : Option Nat :=
  (List.range 16).findSome? fun i =>
    match Tab.get none x.dc (set % 2048 * 16 + i) with
    | some e => if e.set == set && e.ent.st != 0 && e.ent.line == lo then some e.way else none
    | none => none
def Bank.hit (x : Bank) (set lo : Nat) : Option Nat :=
  (List.range 16).find? fun w => (x.ent set w).st != 0 && (x.ent set w).line == lo

/-- Write an entry: in the cache, marked dirty, after a victim has left (R119); in the store where every way is pinned. -/
def Bank.put (x : Bank) (set w : Nat) (e : DirEnt) (dirty : Bool) : Bank :=
  match x.dcKey set w with
  | some k =>
    let d := match Tab.get none x.dc k with | some o => o.dirty | none => false
    { x with dc := Tab.put none x.dc k (some { set := set, way := w, ent := e, dirty := d || dirty }) }
  | none =>
    let at_ (i : Nat) : Option DcEnt := Tab.get none x.dc (set % 2048 * 16 + i)
    let clean := (List.range 16).find? fun i => match at_ i with | none => true | some o => !o.ent.pin && !o.dirty
    let any := (List.range 16).find? fun i => match at_ i with | none => true | some o => !o.ent.pin
    match clean.or any with
    | none => { x with store := Tab.put {} x.store (set * 16 + w) e }
    | some i =>
      let x := match at_ i with
        | some o => if o.dirty then { x with store := Tab.put {} x.store (o.set * 16 + o.way) o.ent } else x
        | none => x
      { x with dc := Tab.put none x.dc (set % 2048 * 16 + i) (some { set := set, way := w, ent := e, dirty := dirty }) }

/-- Drop an entry from the directory cache (R121). -/
def Bank.dcDrop (x : Bank) (set w : Nat) : Bank :=
  match x.dcKey set w with
  | some k => { x with dc := Tab.put none x.dc k none }
  | none => x

/-- The cached entry of a set's way is dirty. -/
def Bank.dcDirty (x : Bank) (set w : Nat) : Bool :=
  match x.dcKey set w with
  | some k => match Tab.get none x.dc k with | some e => e.dirty | none => false
  | none => false

/-- An entry of the store set holds a STATE that is not used: an uncorrectable entry error (R117). -/
def Bank.badSet (x : Bank) (set : Nat) : Bool :=
  (List.range 16).any fun w => (x.dcKey set w).isNone && 4 ≤ (Tab.get {} x.store (set * 16 + w)).st

/-- Every other valid way of a set ages by one (R122): a change like any other, made in the cache (R119). -/
def Bank.ageSet (x : Bank) (set w : Nat) : Bank :=
  (List.range 16).foldl (fun x j =>
    let e := x.ent set j
    if j == w || e.st == 0 || 3 ≤ e.age then x else x.put set j { e with age := e.age + 1 } true) x

/-- The way a new entry takes (R122): the lowest free one, else the lowest unpinned one of highest AGE. -/
def Bank.allocWay (x : Bank) (set : Nat) : Option Nat :=
  let free := (List.range 16).find? fun w => (x.ent set w).st == 0 && !(x.ent set w).pin
  free.or ([3, 2, 1, 0].findSome? fun a =>
    (List.range 16).find? fun w => !(x.ent set w).pin && (x.ent set w).st != 0 && (x.ent set w).age == a)

/-! ### Trackers -/

def State.trk (s : State) (n htid : Nat) : Option Trk := (s.slice n).trks.find? fun t => t.htid == htid
def State.modTrk (s : State) (n htid : Nat) (f : Trk → Trk) : State :=
  s.modSlice n fun x => { x with trks := x.trks.map fun t => if t.htid == htid then f t else t }
def State.dropTrk (s : State) (n htid : Nat) : State :=
  s.modSlice n fun x => { x with trks := x.trks.filter fun t => t.htid != htid }

/-- The tracker that a line's open transaction uses. -/
def State.openTrk (s : State) (n la : Nat) : Option Trk :=
  (s.slice n).trks.find? fun t => t.la == la && t.ph != .reserved && t.ph != .chained

/-- A free general tracker (R137): the lowest-numbered (DESIGN CHOICE, unsafe: notes/assumptions/89.md). -/
def State.general (s : State) (n : Nat) : Option Nat := freeIdx 48 ((s.slice n).trks.map (·.htid))
/-- HTID of a member's reserved tracker for a class; of recall tracker `r`. -/
def htidRes (m c : Nat) : Nat := 48 + 7 * m + c
def htidRecall (r : Nat) : Nat := 0x3F0 + r

/-! ### The E9's own domain (R329, R340) -/

/-- The combining tree of the domain (R340). -/
def State.buildTree (s : State) : State :=
  let ms := s.members
  let r := (s.members.filter fun m => m < s.ownMember).length
  let node (i : Nat) : Nat := s.tableDomain * 128 + (ms[i]?).getD 0
  let kids := (List.range 16).filter fun i => 16 * r + 1 + i < ms.length
  { s with fnc := { s.fnc with domRank := r, domRoot := node 0, domParent := if r == 0 then 0 else node ((r - 1) / 16),
                               domKids := kids.map fun i => node (16 * r + 1 + i), dom := {}, bcDom := {} } }

/-- The domain enters UP (R330). READY goes on until every member has been seen UP. -/
def State.domUp (s : State) : State :=
  if s.dom.st == 2 then s
  else
    let d : Dom := { s.dom with st := 2, hb := s.others.foldl (fun t m => Tab.put 0 t m s.clk) [],
                                readyAfter := s.dom.sentReady && !s.others.isEmpty, seenUp := [] }
    (({ s with dom := d }).buildTree).rec_ 0x1B 210 0xFFFF 0 0

/-- Member `m` has shown itself UP (R330 step 3). -/
def State.sawUp (s : State) (m : Nat) : State :=
  let seen := if s.dom.seenUp.contains m then s.dom.seenUp else s.dom.seenUp ++ [m]
  { s with dom := { s.dom with seenUp := seen, readyAfter := s.dom.readyAfter && !s.others.all seen.contains } }

/-- Send a domain-fail notice to every other member (R404): TYPE 6 on VN3, once by route A and once with ALT. -/
def State.sendNotice (s : State) (n : FailNotice) : State :=
  s.others.foldl (fun s m =>
    (s.sendPkt (s.tableDomain * 128 + m) 3 false false (.fail n)).sendPkt (s.tableDomain * 128 + m) 3 false true (.fail n)) s

/-- Enter DOWN with a notice to the other members of the table, if one is held (R404); its steps follow with
DOMAIN_DOWN_ENTRY (R405) (DEDUCED, safe: notes/assumptions/47.md) (DEDUCED, safe: notes/assumptions/63.md). -/
def State.enterDown (s : State) (n : FailNotice) : State :=
  let told := s.dom.st != 0
  let s : State := { s with dom := { s.dom with st := 3, downDue := true, nack := true, joining := false, sentReady := false,
                                                readyAfter := false, notice := if told then some (4, n) else none,
                                                noticeBeat := some s.beat } }
  if told then s.sendNotice n else s

/-- A fatal internal error (R404): its record, INJECTED where `inj` (R399), and DOWN unless the domain is DOWN already. The steps of R405
follow with DOMAIN_DOWN_ENTRY. -/
def State.fatalErr (s : State) (u : Nat) (inj : Bool) (detail : Nat) : State :=
  let s := s.recErr 0x19 u inj 0 detail
  if s.dom.st == 3 then s
  else
    s.enterDown { domain := s.tableDomain, digest := s.dom.digest, cause := 2, reporter := s.nodeNo, subject := s.nodeNo }

/-- The fatal internal errors that reads have met (R404). -/
def State.fatalsDue (s : State) : State :=
  s.ras.fatalDue.foldl (fun s e => s.fatalErr e.1 e.2.1 e.2.2) { s with ras := { s.ras with fatalDue := [] } }

/-- A fatal internal error that no injection brought about. -/
def State.fatal (s : State) (u detail : Nat) : State := s.fatalErr u false detail

/-! ### Sweeping an entry when the domain is DOWN (R405 step 2) -/

/-- An entry of a bank's store that the directory cache does not hold has a STATE that is not used (R117). -/
def Bank.unread (x : Bank) : Bool := x.store.any fun (k, e) => 4 ≤ e.st && (x.dcKey (k / 16) (k % 16)).isNone

/-- The down sweep cannot read a store set of bank `b`: the layout is not known (Table 15.2), a near channel is frozen, or a set shows an
uncorrectable error (R406). -/
def State.sweepBlind (s : State) (b : Nat) : Bool :=
  !s.layoutKnown || s.anyNearFrozen || s.finds.dirs.contains b || (s.bank b).unread

/-- A bank's directory is lost: every entry is taken as U (R406). -/
def State.dirLose (s : State) (b : Nat) : State :=
  if (s.bank b).lost then s
  else (s.setBank b { s.bank b with store := [], dc := [], lost := true }).rec_ 0x0E (136 + b) 0xFFFF 0 b

/-- Sweep one entry: an EX line, or an OW line without a home copy in S, is written poisoned; the entry becomes U. -/
def State.sweepEnt (s : State) (b set w : Nat) : State :=
  let e := (s.bank b).ent set w
  if e.st == 0 then s
  else
    let la := mkLa s.nodeNo e.line
    let s := if e.st == 2 then s.farWriteLine e.line Config.poisonLine true
      else if e.st == 3 then
        match s.findLine la with
        | some (way, t) =>
          if s.nearFrozen (sliceOf la) then s.farWriteLine e.line Config.poisonLine true
          else if t.st == stS then s.farWriteLine e.line (s.wayGet (setOf s.part la) way).1 (s.wayGet (setOf s.part la) way).2
          else s.farWriteLine e.line Config.poisonLine true
        | none => s.farWriteLine e.line Config.poisonLine true
      else s
    s.setBank b ((s.bank b).put set w {} true)

end Sys2Proof.Machine
end

