-- ==== Sys2Proof/Machine/Home.lean ====
section
/-! DEFINITION. The home: how it takes a request, looks the line up in its directory, snoops, collects answers and completes
(Table 5.8, R128–R131, R136–R145). Peers' requests, global accesses, the home's own slices and recalls share one engine. -/

namespace Sys2Proof.Machine

/-- What a transaction does at the home. -/
inductive HOp where
  | rds
  /-- uncached read: RDS with UNC, GRD, or this E9's own uncached read (R21, R288) -/
  | unc
  | rdx
  | upg
  | iwr
  | atom
  | wbd
  | offer
  /-- this home's own read; its own write or atomic (R131) -/
  | ownRd
  | ownWr
  | recall
  deriving DecidableEq, Repr

/-- What a request of this home's own slice asks of the home (R131, R21, R288). -/
def Req.homeOp (r : Req) : HOp :=
  match r.kind with
  | .read => if r.glob || r.atHome then .unc else .ownRd
  | .prefetch => .ownRd
  | .write => if r.glob then .iwr else .ownWr
  | .atomic => .ownWr

/-- The request behind a tracker: its operation, and the message or own request that carries it. -/
def State.ownReq (s : State) (n reg : Nat) : Req :=
  match s.mr n reg with
  | some m => m.prim
  | none => { src := .maint, kind := .read, la := 0 }

def State.opOf (s : State) (n : Nat) (t : Trk) : HOp :=
  match t.for_ with
  | .recall _ => .recall
  | .own reg => (s.ownReq n reg).homeOp
  | .glob _ m => if m.opc == opGRD then .unc else if m.opc == opGWR then .iwr else .atom
  | .peer _ m =>
    if m.opc == opRDS then (if m.unc then .unc else .rds)
    else if m.opc == opRDX then .rdx else if m.opc == opUPG then .upg else if m.opc == opWBD then .wbd
    else if m.opc == opOFFER then .offer else if m.opc == opIWR then .iwr else .atom

/-- The message of a peer's or global request; of an own one, the same fields. -/
def State.msgOf (s : State) (n : Nat) (t : Trk) : CohMsg :=
  match t.for_ with
  | .peer _ m => m
  | .glob _ m => m
  | .own reg =>
    let r := s.ownReq n reg
    { la := t.la, req := s.nodeNo, data := r.data, poison := r.poison, mask := r.be, partialWr := r.be != fullMask,
      full := r.be == fullMask, opnd := r.opnd }
  | .recall _ => { la := t.la }

/-- Requesting node, and member of this domain. -/
def State.reqNode (s : State) (t : Trk) : Nat :=
  match t.for_ with
  | .peer src _ => src
  | .glob src _ => src
  | _ => s.nodeNo
def State.reqMember (s : State) (t : Trk) : Nat := s.reqNode t % 128

/-- A write covers the whole line. -/
def cohWhole (m : CohMsg) : Bool := !m.partialWr

/-- Line bytes enabled by a write. -/
def cohBytes (m : CohMsg) : BitVec 64 := if m.partialWr then m.mask else fullMask

/-! ### Answers of the home -/

/-- A message to the requester of a tracker. -/
def State.homeMsg (s : State) (n : Nat) (t : Trk) (opc grant : Nat) (d : Line) (poison : Bool) : State :=
  let m := s.msgOf n t
  let a : CohMsg := { opc := opc, grant := grant, tid := m.tid, req := m.req, htid := t.htid, la := t.la, data := d, poison := poison }
  match t.for_ with
  | .peer src _ => s.sendCoh src a
  | .glob src _ => s.sendGlob src { a with htid := 0, grant := 0 }
  | _ => s

/-- The lookup cannot be made at all: cache mode HOLD (R108) or a frozen near channel (R275). -/
def State.refusedHere (s : State) (n : Nat) : Bool := s.mode == 2 || s.nearFrozen n

/-- The home's own miss register has its answer. -/
def State.ownAnswer (s : State) (n reg grant : Nat) (d : Option (Line × Bool)) : State :=
  s.modMr n reg fun m => { m with st := .answered, grant := grant, data := d, early := m.secs.length }

/-- The path of a register's requests turned out to be of class `c` (R241). -/
def State.classifyMr (s : State) (n reg c : Nat) : State :=
  match s.mr n reg with
  | none => s
  | some m =>
    (m.prim :: m.secs).foldl (fun s r => s.classify r.src c) (s.modMr n reg fun m => { m with cls := max m.cls c })

/-- The same for the transaction of a tracker: a message to another member, or a read of this E9's far memory (Table 9.2). -/
def State.classifyTrk (s : State) (n : Nat) (t : Trk) (msg mem : Bool) : State :=
  match t.for_ with
  | .own reg => if msg then s.classifyMr n reg 2 else if mem then s.classifyMr n reg 1 else s
  | _ => s

/-- The far memory that the requests behind a tracker need is frozen: their bounds are void (Table 9.8). -/
def State.voidTrk (s : State) (n : Nat) (t : Trk) : State :=
  match t.for_ with
  | .own reg => match s.mr n reg with
    | some m => (m.prim :: m.secs).foldl (fun s r => s.void r.src) s
    | none => s
  | _ => s

/-- An answer with data, without a grant: DATA, GDATA, or the own register. -/
def State.homeData (s : State) (n : Nat) (t : Trk) (d : Line) (poison : Bool) : State :=
  match t.for_ with
  | .own reg => s.ownAnswer n reg 0 (some (d, poison))
  | .glob _ _ => s.homeMsg n t opGDATA 0 d poison
  | _ => s.homeMsg n t opDATA 0 d poison

/-- An answer to a write: ACK, GACK, or the own register. -/
def State.homeAck (s : State) (n : Nat) (t : Trk) : State :=
  match t.for_ with
  | .own reg => s.ownAnswer n reg 0 none
  | .glob _ _ => s.homeMsg n t opGACK 0 0 false
  | _ => s.homeMsg n t opACK 0 0 false

/-! ### Closing -/

/-- Close a tracker: the entry's pin goes, a recall tracker is free again (R116, R123). -/
def State.closeTrk (s : State) (n : Nat) (t : Trk) : State :=
  let b := n / 4
  let s := s.dropTrk n t.htid
  match t.for_ with
  | .recall r => s.setBank b { s.bank b with recalls := (s.bank b).recalls.filter fun x => x.1 != r }
  | _ =>
    match t.place with
    | some (set, w) =>
      let x := s.bank b
      let e := x.ent set w
      s.setBank b (x.put set w { e with pin := false } true)
    | none => s

/-- Close a completed transaction once nothing of it is outstanding (R129, R145). -/
def State.tryClose (s : State) (n htid : Nat) : State :=
  match s.trk n htid with
  | some t => if t.ph == .cnf && t.confirmed && t.wbdDrop.isNone && t.fwdWait.isNone then s.closeTrk n t else s
  | none => s

/-- Set the line's directory entry (Table 5.2): U frees it. -/
def State.setDir (s : State) (n htid st owner : Nat) (sharers : BitVec 128) : State :=
  match s.trk n htid with
  | none => s
  | some t =>
    match t.place with
    | none => s
    | some (set, w) =>
      let x := s.bank (n / 4)
      let e : DirEnt := if st == 0 then {}
        else { line := laLocal t.la, st := st, pin := true, owner := if st == 1 then 0 else owner, age := 0,
               sharers := if st == 2 then 0 else sharers }
      let s := s.setBank (n / 4) (x.put set w e true)
      if st == 0 then s.modTrk n htid fun t => { t with place := none } else s

/-- The transaction is complete; `cnf` when the requester's confirmation is awaited. -/
def State.homeDone (s : State) (n htid : Nat) (cnf : Bool) : State :=
  (s.modTrk n htid fun t => { t with ph := .cnf, confirmed := t.confirmed || !cnf, cnfAt := s.mtu.mt }).tryClose n htid

/-! ### Snoops of the home -/

/-- INV to members; FWDS or FWDX to an owner. -/
def State.sendInv (s : State) (n : Nat) (t : Trk) (ms : List Nat) (discard : Bool) : State :=
  ms.foldl (fun s m => s.sendCoh (s.ownDomain * 128 + m)
    { opc := opINV, discard := discard, req := s.reqNode t, tid := (s.msgOf n t).tid, htid := t.htid, la := t.la }) s
def State.sendFwd (s : State) (n : Nat) (t : Trk) (o opc : Nat) (destHome peek : Bool) : State :=
  s.sendCoh (s.ownDomain * 128 + o)
    { opc := opc, destHome := destHome, peek := peek, req := s.reqNode t, tid := (s.msgOf n t).tid, htid := t.htid, la := t.la }

/-- More time for every request of a register (R246). -/
def State.extendMr (s : State) (n reg k : Nat) : State :=
  match s.mr n reg with
  | none => s
  | some m => (m.prim :: m.secs).foldl (fun s r => s.extend r.src k) s

/-- The requests of this E9's hosts for which the transaction runs wait for its recall round, if one is open. What another
E9 waits for is in no message (DESIGN CHOICE, unsafe: notes/assumptions/117.md). -/
def State.recallExtend (s : State) (n : Nat) (t : Trk) : State :=
  match t.for_ with
  | .own reg =>
    match s.mr n reg with
    | some m => if s.biOpen t.la false then (m.prim :: m.secs).foldl (fun s r => s.recallWait r.src t.la false) s else s
    | none => s
  | _ => s

/-- Start a transaction's step: invalidations, a forward, recalls of this E9's hosts, a far-memory read. -/
def State.homeStep (s : State) (n htid : Nat) (invs : List Nat) (discard : Bool) (fwd : Option (Nat × Nat × Bool × Bool))
    (host : Nat) (mem : Bool) (ph : HPh) : State :=
  match s.trk n htid with
  | none => s
  | some t =>
    let s := s.sendInv n t invs discard
    let s := match fwd with
      | some (o, opc, dh, pk) => s.sendFwd n t o opc dh pk
      | none => s
    let s := s.classifyTrk n t (!invs.isEmpty || fwd.isSome) mem
    let s := if mem && s.farFrozen (laLocal t.la) then s.voidTrk n t else s
    let w : BiWait := if discard then .drop else .home n htid
    let s := if host == 2 then (s.recallAll t.la w).recallExtend n t else if host == 1 then (s.recallEM t.la w).recallExtend n t else s
    let (tok, s) := if mem then (let (k, s) := s.farRead (laLocal t.la) n htid; (some k, s)) else (none, s)
    s.modTrk n htid fun t =>
      { t with invWait := invs, fwdWait := fwd.map (·.1), hostWait := host, memTok := if mem then tok else t.memTok, ph := ph,
               since := s.mtu.mt }

/-- Nothing of the present step is outstanding. -/
def State.settled (s : State) (t : Trk) : Bool :=
  t.invWait.isEmpty && (t.fwdWait.isNone || t.offered) && t.offerWait.isNone && t.memTok.isNone &&
    (if t.hostWait == 2 then s.noHosts t.la else if t.hostWait == 1 then s.noHostEM t.la else true)

/-- Members whose copies a step invalidates, and whether the request has a second step. -/
def Trk.v (t : Trk) : List Nat := bitsOf t.sharers

/-- The home copy leaves. -/
def State.dropHome (s : State) (n la : Nat) : State :=
  match s.findLine la with
  | some (w, _) => s.dropLine n la w true
  | none => s

/-- The home looks its own tags up for a request (Table 3.1): a peer's or a global one passes its tag pipeline; a request of its
own slice has been looked up, and a recall needs no lookup. What a right guess brings is kept for the read of the way (R55). -/
def State.homeTouch (s : State) (n : Nat) (t : Trk) : State :=
  let look : State := let (g, s) := s.touchLine 5 t.la; s.modTrk n t.htid fun t => { t with guess := g }
  match t.for_ with
  | .peer _ _ => look
  | .glob _ _ => look
  | _ => s

/-- The lookup must wait and is replayed (R48, R50). -/
def State.homeWaits (s : State) (n : Nat) (t : Trk) : Bool :=
  (match t.for_ with | .peer _ _ => true | .glob _ _ => true | _ => false) && s.tagWaits n (setOf s.part t.la)

/-- A local line whose write to far memory still waits in the victim buffer: the home's transaction takes the entry's data over, and with
it the duty to write it (Table 3.7). Requests that waited for the entry ask the home next. -/
def State.homeTakeVb (s : State) (n htid : Nat) : Bool × State :=
  match s.trk n htid with
  | none => (false, s)
  | some t =>
    match (s.slice n).vbs.find? fun v => v.la == t.la && v.action == 0 && !v.sent with
    | none => (false, s)
    | some v =>
      (true, ((s.modTrk n htid fun t => { t with data := some (v.data, v.poison || v.st == stP), dirty := true }).vbFree n v.idx).modSlice n
        fun x => { x with mrs := x.mrs.map fun m => if m.la == t.la && m.st == .waitVb then { m with st := .home } else m })

/-- Close a register. -/
def State.mrClose (s : State) (n i : Nat) : State := s.modSlice n fun x => { x with mrs := x.mrs.filter fun m => m.idx != i }

/-- This E9's own access to an absent line of a frozen far channel's range, which no peer owns: it is answered by Table 6.3 (R274). -/
def State.frozenOwn (s : State) (n : Nat) (t : Trk) : Option State :=
  match t.for_ with
  | .own reg =>
    if s.farFrozen (laLocal t.la) && (s.findLine t.la).isNone && !(t.dst == 2 || t.dst == 3) then
      (s.mr n reg).map fun m => (((m.prim :: m.secs).foldl (fun s r => s.reqFail r .stop) s).mrClose n reg).closeTrk n t
    else none
  | _ => none

/-- The first step of a transaction on a line whose directory state is known (Table 5.8, R131, R141, R142, R123). A home copy in S
under an owner goes before the owner is asked to give the line to another (R130). -/
def State.homeFirst (s : State) (n htid : Nat) : State :=
  match s.trk n htid with
  | none => s
  | some t =>
    let m := s.msgOf n t
    let r := s.reqMember t
    let o := t.owner
    let owned := t.dst == 2 || t.dst == 3
    let s := s.homeTouch n t
    let s := if owned && (s.opOf n t == .rdx || s.opOf n t == .upg) then s.dropHome n t.la else s
    let (took, s) := if (s.findLine t.la).isSome || s.opOf n t == .recall then (false, s) else s.homeTakeVb n htid
    let here := took || (s.findLine t.la).isSome
    match (if took then none else s.frozenOwn n t) with
    | some s => s
    | none =>
    match s.opOf n t with
    | .rds =>
      if owned then s.homeStep n htid [] false (some (o, opFWDS, false, false)) 0 false .fwd
      else s.homeStep n htid [] false none 1 (!here) .collect
    | .unc =>
      if owned then s.homeStep n htid [] false (some (o, opFWDS, true, true)) 0 false .fwd
      else s.homeStep n htid [] false none 1 (!here) .collect
    | .ownRd =>
      if owned then s.homeStep n htid [] false (some (o, opFWDS, true, false)) 0 false .fwd
      else s.homeStep n htid [] false none 1 (!here) .collect
    | .rdx => s.homeStep n htid t.v false none 2 (!here && !owned && !m.full) .collect
    | .upg =>
      if owned && o == r then s.homeStep n htid t.v false none 2 false .collect
      else if t.v.contains r then
        s.homeStep n htid (t.v.filter (· != r) ++ if t.dst == 3 then [o] else []) false none 2 false .collect
      else s.homeStep n htid t.v false none 2 (!here && !owned) .collect
    | .iwr =>
      if cohWhole m then s.homeStep n htid (t.v ++ if owned then [o] else []) true none 2 false .collect
      else if owned then s.homeStep n htid [] false (some (o, opFWDX, true, false)) 0 false .fwd
      else s.homeStep n htid t.v false none 2 false .collect
    | .atom => s.homeStep n htid t.v false (if owned then some (o, opFWDX, true, false) else none) 2 (!here && !owned) .collect
    | .ownWr =>
      let q := match t.for_ with | .own reg => s.ownReq n reg | _ => { src := .maint, kind := .read, la := 0 }
      let need := !here && !owned && !(q.kind == .write && q.be == fullMask)
      s.homeStep n htid t.v false (if owned then some (o, opFWDX, true, false) else none) 2 need .collect
    | .recall =>
      if t.discard then s.homeStep n htid (t.v ++ if owned then [o] else []) true none 0 false .collect
      else s.homeStep n htid t.v false (if owned then some (o, opFWDX, true, false) else none) 0 false .collect
    | .wbd => s
    | .offer => s

/-- A further step is due: FWDX after the invalidations of RDX and UPG, or the invalidations of a partial IWR after its
owner's data. -/
def State.homeWantsSecond (s : State) (n : Nat) (t : Trk) : Bool :=
  if t.second then false
  else
    let owned := t.dst == 2 || t.dst == 3
    match s.opOf n t with
    | .rdx => owned && !t.offered
    | .upg => owned && !t.offered && t.owner != s.reqMember t && !t.v.contains (s.reqMember t)
    | .iwr => owned && !cohWhole (s.msgOf n t)
    | _ => false

def State.homeSecond (s : State) (n htid : Nat) : State :=
  match s.trk n htid with
  | none => s
  | some t =>
    let s := s.modTrk n htid fun t => { t with second := true }
    match s.opOf n t with
    | .iwr => s.homeStep n htid t.v false none 2 false .collect
    | _ => s.homeStep n htid [] false (some (t.owner, opFWDX, false, false)) 0 false .fwd

/-! ### Completion -/

/-- The line's value at this home: an owner's answer (R130, R141), its near copy, or what else the transaction gathered. Dirty: it
differs from far memory. -/
def State.homeValue (s : State) (t : Trk) : Option (Line × Bool × Bool) :=
  if t.fromOwner then t.data.map fun (d, p) => (d, p, t.dirty)
  else match s.findLine t.la with
  | some (w, e) =>
    let (d, p) := s.wayGet (setOf s.part t.la) w
    -- a frozen near channel's way is not read (R275)
    let p := p || e.st == stP || s.nearFrozen (sliceOf t.la)
    some (if s.nearFrozen (sliceOf t.la) then Config.poisonLine else d, p, e.st == stM || e.st == stO || e.st == stP)
  | none => t.data.map fun (d, p) => (d, p, t.dirty)

/-- A data way is read for a lookup other than a demand's: an uncorrectable error leaves a clean line in I and a dirty one in P
(R65; DEDUCED, safe: notes/assumptions/96.md). -/
def State.wayCheck (s : State) (n la w : Nat) (st : BitVec 3) (here : Bool) : State :=
  let (x, s) := s.readWay n (setOf s.part la) w here
  if x == .ue then
    let s := s.ueData n (s.injNear n (setOf s.part la) w) (64 * la) w
    if st == stS || st == stE || st == stL then s.dropLine n la w true
    else if st == stP then s else s.setLineState n la w stP
  else s

/-- The home's near copy is read when its value is what the transaction needs. -/
def State.homeRead (s : State) (n : Nat) (t : Trk) : State :=
  if t.fromOwner then s
  else match s.findLine t.la with
    | some (w, e) => s.wayCheck n t.la w e.st (t.guess == w)
    | none => s

/-- Write a line's value at this home: into its near copy, which becomes M, or P with poison (R66), or to far memory. -/
def State.putHome (s : State) (n la : Nat) (d : Line) (poison : Bool) : State :=
  match s.findLine la with
  | some (w, _) => (s.wayPut n (setOf s.part la) w d poison).setLineState n la w (if poison then stP else stM)
  | none => s.farWriteLine (laLocal la) d poison

/-- An atomic at the home on its near copy (R74, R142), which ages the set as a hit does (Table 3.1): the result's line and poison.
A copy in P, or one whose read finds an uncorrectable error, takes no operation and is left in P. -/
def State.atomHere (s : State) (n la w : Nat) (st : BitVec 3) (o : BitVec 384) (stream here : Bool) : (Line × Bool) × State :=
  let set := setOf s.part la
  let (x, s) := s.readWay n set w here
  let s := (if x == .ue then s.ueData n (s.injNear n set w) (64 * la) w else s).hitAge n la w stream
  let (d, p) := s.wayGet set w
  if p || st == stP || x == .ue then ((Config.poisonLine, true), s.setLineState n la w stP)
  else
    let (d', res) := atomApply d o
    ((res, false), ((s.wayPut n set w d' false).setLineState n la w stM).event n 0x15 1)

/-- Install an offered or written-back line at its home (R86, R136): into a free way only, at AGE 2, ageing nothing. -/
def State.homeInstall (s : State) (n la : Nat) (st : BitVec 3) (d : Line) (poison : Bool) : Option State :=
  if s.noInstall || (s.findLine la).isSome then none
  else (s.freeWay n (setOf s.part la)).map fun w =>
    s.install n la w st 2 d poison false

/-- Complete a transaction whose steps are done. -/
def State.homeFinish (s : State) (n htid : Nat) : State :=
  let s : State := match s.trk n htid with
    | some t => if (s.findLine t.la).isSome || s.opOf n t == .recall then s else (s.homeTakeVb n htid).2
    | none => s
  match s.trk n htid with
  | none => s
  | some t =>
    let op := s.opOf n t
    let m := s.msgOf n t
    let r := s.reqMember t
    let owned := (t.dst == 2 || t.dst == 3) && !t.offered
    let needs : Bool := match op with
      | .rds => !owned
      | .unc => true
      | .ownRd => true
      | .rdx => !owned && !m.full
      | .upg => !owned && !t.v.contains r
      | .atom => true
      | .ownWr => !((s.msgOf n t).full && (match t.for_ with | .own reg => (s.ownReq n reg).kind == .write | _ => false))
      | _ => false
    -- an upgrade's grant writes the dirty home copy to far memory
    let grantAck := op == .upg && ((owned && t.owner == r) || t.v.contains r)
    let keeps := grantAck && t.dst == 1 &&
      (match s.findLine t.la with | some (_, e) => e.st == stO || e.st == stM || e.st == stP | none => false)
    let s := if (needs && op != .atom && op != .ownWr) || (op == .iwr && !cohWhole m) || keeps then s.homeRead n t else s
    match (if needs then s.homeValue t else some ((0 : Line), false, false)) with
    | none => s.homeStep n htid [] false none 0 true .collect
    | some (d, poison, dirty) =>
    match op with
    | .rds =>
      if owned then
        let s := if t.ownerGone then s.setDir n htid 1 0 (vecSet t.sharers r)
          else if t.kept then s.setDir n htid 3 t.owner (vecSet t.sharers r)
          else s.setDir n htid 1 0 (vecSet (vecSet t.sharers r) t.owner)
        s.homeDone n htid true
      else
        let here := s.findLine t.la
        let sole := (t.dst == 0 || t.offered) && t.sharers == 0 && here.isNone && s.noHosts t.la
        let s := match here with
          | some (w, e) => if e.st == stE then s.setLineState n t.la w stS else if e.st == stM then s.setLineState n t.la w stO else s
          | none => if dirty then s.farWriteLine (laLocal t.la) d poison else s
        let s := if sole then s.setDir n htid 2 r 0 else s.setDir n htid 1 0 (vecSet t.sharers r)
        (s.homeMsg n t opDATA (if sole then 2 else 1) d poison).homeDone n htid true
    | .unc =>
      let s := if t.dirty && !owned && (s.findLine t.la).isNone then s.farWriteLine (laLocal t.la) d poison else s
      let s := if t.offered || t.ownerGone then s.setDir n htid (if t.sharers == 0 then 0 else 1) 0 t.sharers else s
      (s.homeData n t d poison).homeDone n htid false
    | .rdx =>
      let (d, poison, dirty) := (s.homeValue t).getD (0, false, false)
      let s := s.dropHome n t.la
      let s := s.setDir n htid 2 r 0
      if owned then s.homeDone n htid true
      else if m.full && !dirty then (s.homeMsg n t opACK 3 0 false).homeDone n htid true
      else (s.homeMsg n t opDATA (if dirty then 3 else 2) d poison).homeDone n htid true
    | .upg =>
      let s := if keeps then
          match s.findLine t.la with
          | some (w, e) =>
            let (d, p) := s.wayGet (setOf s.part t.la) w
            s.farWriteLine (laLocal t.la) d (p || e.st == stP)
          | none => s
        else if grantAck && t.dirty then
          match t.data with
          | some (d, p) => s.farWriteLine (laLocal t.la) d p
          | none => s
        else s
      let s := s.dropHome n t.la
      let s := s.setDir n htid 2 r 0
      if grantAck then (s.homeMsg n t opACK 3 0 false).homeDone n htid true
      else if owned then s.homeDone n htid true
      else (s.homeMsg n t opDATA (if dirty then 3 else 2) d poison).homeDone n htid true
    | .iwr =>
      let s := if cohWhole m then s.putHome n t.la m.data m.poison
        else match s.homeValue t with
          | some (d, p, _) => s.putHome n t.la (mergeBytes d m.data (cohBytes m)) (p || m.poison)
          | none => s.farWrite (laLocal t.la) m.data m.poison (cohBytes m)
      ((s.setDir n htid 0 0 0).homeAck n t).homeDone n htid false
    | .atom =>
      match s.findLine t.la with
      | some (w, e) =>
        let ((res, p), s) := s.atomHere n t.la w e.st m.opnd false (t.guess == w)
        ((s.setDir n htid 0 0 0).homeData n t res p).homeDone n htid false
      | none =>
        if !s.noInstall then (s.setDir n htid 0 0 0).modTrk n htid fun x => { x with ph := .own, data := some (d, poison) }
        else
          let s := s.setDir n htid 0 0 0
          if poison then (s.homeData n t Config.poisonLine true).homeDone n htid false
          else
            let (d', res) := atomApply d m.opnd
            ((s.farWriteLine (laLocal t.la) d' false).homeData n t res false).homeDone n htid false
    | .ownRd =>
      let s := if owned && !t.ownerGone then
          (if t.kept then s.setDir n htid 3 t.owner t.sharers else s.setDir n htid 1 0 (vecSet t.sharers t.owner))
        else if t.offered || t.ownerGone then s.setDir n htid (if t.sharers == 0 then 0 else 1) 0 t.sharers else s
      let s := if t.dirty && !owned && (s.findLine t.la).isNone then s.farWriteLine (laLocal t.la) d poison else s
      let sole := !owned && t.sharers == 0 && s.noHosts t.la
      match t.for_ with
      | .own reg => (s.ownAnswer n reg (if sole then 2 else 1) (some (d, poison))).modTrk n htid fun x => { x with ph := .own }
      | _ => s
    | .ownWr =>
      let s := s.setDir n htid 0 0 0
      match t.for_ with
      | .own reg => (s.ownAnswer n reg 3 (some (d, poison))).modTrk n htid fun x => { x with ph := .own }
      | _ => s
    | .recall =>
      let s := match t.data with
        | some (d, p) => if t.dirty then s.farWriteLine (laLocal t.la) d p else s
        | none => s
      -- it closes when every answer has arrived (R123, R145)
      s.homeDone n htid false
    | .wbd => s
    | .offer => s

/-- The fill of an own request is done, and its transaction with it (R131). -/
def State.ownClose (s : State) (n reg : Nat) : State :=
  match (s.slice n).trks.find? fun t => t.for_ == .own reg && t.ph == .own with
  | some t => s.homeDone n t.htid false
  | none => s

/-- Go on with a transaction after an answer: the next step, or its completion. -/
def State.homeGo (s : State) (n htid : Nat) : State :=
  match s.trk n htid with
  | none => s
  | some t =>
    if !((t.ph == .collect || t.ph == .fwd) && s.settled t) then s
    else if s.homeWantsSecond n t then
      let s := s.homeSecond n htid
      match s.trk n htid with
      | some t => if s.settled t then s.homeFinish n htid else s
      | none => s
    else s.homeFinish n htid

/-- Begin a transaction: the first step, and what follows at once; a lookup that must wait for its tag block is replayed. -/
def State.homeBegin (s : State) (n htid : Nat) : State :=
  if (s.trk n htid).any (s.homeWaits n) then (s.modTrk n htid fun t => { t with ph := .tags }).event n 0x14 1
  else (s.homeFirst n htid).homeGo n htid

/-! ### Eviction messages (R86, R136) -/

/-- A WBD or OFFER from member `r`, the directory being known: the entry, the data, the acknowledgement. -/
def State.homeEvict (s : State) (n htid : Nat) : State :=
  match s.trk n htid with
  | none => s
  | some t =>
    let m := s.msgOf n t
    let r := s.reqMember t
    if s.homeWaits n t then (s.modTrk n htid fun t => { t with ph := .tags }).event n 0x14 1
    else
    let s := s.homeTouch n t
    if s.opOf n t == .wbd then
      if (t.dst == 2 || t.dst == 3) && t.owner == r then
        -- beside sharers the home copy is O, since Table 5.2 allows SH no M (DEDUCED, safe: notes/assumptions/95.md)
        let sole := t.dst == 2 || t.sharers == 0
        let s := if sole then s.setDir n htid 0 0 0 else s.setDir n htid 1 0 t.sharers
        let s := match s.homeInstall n t.la (if m.poison then stP else if sole then stM else stO) m.data m.poison with
          | some s => s
          | none => s.farWriteLine (laLocal t.la) m.data m.poison
        (s.homeMsg n t opACK 0 0 false).homeDone n htid false
      else (s.rec_ 0x16 (136 + n / 4) (s.reqNode t) (64 * t.la) m.opc).homeDone n htid false
    else
      let mine := (t.dst == 2 && t.owner == r) || ((t.dst == 1 || t.dst == 3) && t.sharers.getLsbD r)
      if !mine then s.homeDone n htid false
      else
        let v := if t.dst == 2 then 0 else vecClr t.sharers r
        let s := if t.dst == 3 then s.setDir n htid 3 t.owner v else s.setDir n htid (if v == 0 then 0 else 1) 0 v
        let s := if t.accept && !m.poison then
            match s.homeInstall n t.la (if t.dst != 3 && v == 0 then stE else stS) m.data false with
            | some s => s.event n 0x16 1
            | none => s
          else s
        s.homeDone n htid false

/-! ### Lookup and allocation (R119, R122, R123) -/

/-- The directory state of the line as the entry at `place` shows it. -/
def State.withEntry (s : State) (n htid : Nat) (place : Option (Nat × Nat)) : State :=
  match place with
  | none => s.modTrk n htid fun t => { t with dst := 0, owner := 0, sharers := 0, place := none }
  | some (set, w) =>
    let x := s.bank (n / 4)
    let e := x.ent set w
    let s := s.setBank (n / 4) (x.put set w { e with pin := true, age := 0 } true)
    s.modTrk n htid fun t => { t with dst := e.st, owner := e.owner, sharers := e.sharers, place := some (set, w) }

/-- The request needs a new entry when its line has none. -/
def HOp.allocates (op : HOp) : Bool := op == .rds || op == .rdx || op == .upg

/-- Open a recall tracker for a valid entry that leaves its way (R123): the lowest-numbered free one (DESIGN CHOICE, unsafe:
notes/assumptions/89.md). -/
def State.startRecall (s : State) (b set w : Nat) (discard : Bool) : Option State :=
  let x := s.bank b
  let e := x.ent set w
  (freeIdx 16 (x.recalls.map (·.1))).map fun r =>
    let la := mkLa s.nodeNo e.line
    let n := sliceOf la
    let t : Trk := { htid := htidRecall r, la := la, for_ := .recall r, ph := .collect, dst := e.st, owner := e.owner,
                     sharers := e.sharers, since := s.mtu.mt, discard := discard }
    let s := s.setBank b { x with recalls := x.recalls ++ [(r, n, la)] }
    let s := (s.modSlice n fun y => { y with trks := y.trks ++ [t] }).event (136 + b) 3 1
    s.homeFirst n (htidRecall r)

/-- Take a way for a new entry; none when every way is pinned, or the victim is valid and no recall tracker is free. -/
def State.dirAlloc (s : State) (n htid set : Nat) : Option State :=
  let b := n / 4
  match (s.bank b).allocWay set with
  | none => none
  | some w =>
    match s.trk n htid with
    | none => none
    | some t =>
      let go (s : State) : State :=
        let x := (s.bank b).ageSet set w
        let s := s.setBank b (x.put set w { line := laLocal t.la, st := 0, pin := true } true)
        s.modTrk n htid fun t => { t with place := some (set, w) }
      if ((s.bank b).ent set w).st == 0 then some (go s) else (s.startRecall b set w false).map go

/-- RETRY (R123, R137): with a ticket when the request carries neither PF nor TKT and the member's reserved tracker for the
class is free, which it then reserves; otherwise without. -/
def State.sendRetry (s : State) (n src : Nat) (m : CohMsg) : State :=
  let h := htidRes (src % 128) m.opc
  let ticket := !m.pf && !m.tkt && (s.trk n h).isNone
  let a : CohMsg := { opc := opRETRY, tkt := ticket, tid := m.tid, req := m.req, htid := if ticket then h else 0, la := m.la }
  let s := s.sendCoh src a
  if ticket then
    (s.modSlice n fun x =>
      { x with trks := x.trks ++ [{ htid := h, la := m.la, for_ := .peer src m, ph := .reserved, ticketEnd := s.beat + s.ticketLife (n / 4),
                                    ticketTid := m.tid }] }).event (136 + n / 4) 4 1
  else s.event (136 + n / 4) 5 1

/-- Go on once the directory lookup has its answer: allocate where a new entry is needed, then begin. A peer's request that
cannot have one is answered RETRY; one with a ticket waits in its tracker. -/
def State.homeKnown (s : State) (n htid : Nat) (place : Option (Nat × Nat)) : State :=
  let s := s.withEntry n htid place
  match s.trk n htid with
  | none => s
  | some t =>
    let op := s.opOf n t
    if op == .wbd || op == .offer then s.homeEvict n htid
    else if op.allocates && t.dst == 0 then
      match s.dirAlloc n htid (dirSetOf s.dirGib t.la) with
      | some s => s.homeBegin n htid
      | none =>
        match t.for_ with
        | .peer src m =>
          if 48 ≤ htid then s.modTrk n htid fun t => { t with ph := .alloc } else (s.dropTrk n htid).sendRetry n src m
        | _ => s
    else s.homeBegin n htid

/-- A transaction that waited for its tag block tries again (R48). -/
def State.homeTry (s : State) (n htid : Nat) : State :=
  match s.trk n htid with
  | some t =>
    if t.ph != .tags then s
    else if s.opOf n t == .wbd || s.opOf n t == .offer then s.homeEvict n htid else s.homeBegin n htid
  | none => s

/-- Look a line up in its directory bank (R119): a miss in the directory cache reads the store set first. A local request
that precedes the down sweep has its entry swept (R405); a lost bank holds nothing (R406). -/
def State.homeLook (s : State) (n htid : Nat) : State :=
  match s.trk n htid with
  | none => s
  | some t =>
    let b := n / 4
    let set := dirSetOf s.dirGib t.la
    let s := (s.event (136 + b) 1 1).modTrk n htid fun t => { t with since := s.mtu.mt }
    if (s.bank b).lost then s.homeKnown n htid none
    else if s.dom.downDue && s.sweepBlind b then (s.dirLose b).homeKnown n htid none
    else if s.dom.downDue then
      match (s.bank b).hit set (laLocal t.la) with
      | some w => (s.sweepEnt b set w).homeKnown n htid none
      | none => s.homeKnown n htid none
    else
      let read (s : State) : State := ((s.event (136 + b) 2 1).dirFetch b set).modTrk n htid fun t => { t with ph := .dirRead }
      match (s.bank b).dcHit set (laLocal t.la) with
      | some w =>
        if !s.finds.dc then s.homeKnown n htid (some (set, w))
        -- an uncorrectable error: fatal in a dirty entry; a clean one is discarded and the store read again (R121)
        else
          let s := (s.event 216 2 1).rec_ 0x02 (136 + b) 0xFFFF t.la 1
          if (s.bank b).dcDirty set w then s.fatal (136 + b) 1 else read (s.setBank b ((s.bank b).dcDrop set w))
      | none => read s

/-- Put a request into tracker `htid`: chained behind the line's open transaction (R128), or looked up at once. -/
def State.homeTake (s : State) (n htid la : Nat) (f : HomeFor) : State :=
  let open_ := (s.openTrk n la).isSome || ((s.slice n).trks.any fun t => t.la == la && t.ph == .chained)
  let ahead := ((s.slice n).trks.filter fun t => t.la == la && t.ph != .reserved).length
  let t : Trk := { htid := htid, la := la, for_ := f, ph := if open_ then .chained else .dirRead, seq := (s.slice n).nextRef,
                   since := s.mtu.mt, accept := s.offerAccept n }
  let s := (s.dropTrk n htid).modSlice n fun x => { x with trks := x.trks ++ [t], nextRef := x.nextRef + 1 }
  let s := match f with
    | .own reg => s.markIssued (s.ownReq n reg).src
    | _ => s
  if open_ then
    let s := s.event (136 + n / 4) 7 1
    match f with
    | .own reg => s.extendMr n reg (ahead * (s.bound 2 n).getD 0)
    | _ => s
  else s.homeLook n htid

/-- The home's own miss register asks its bank (R131); without a free general tracker it is replayed. -/
def State.homeOwn (s : State) (n reg : Nat) : State :=
  match s.mr n reg with
  | none => s
  | some m =>
    if (s.slice n).trks.any fun t => t.for_ == .own reg then s
    else match s.general n with
      | none => s.event n 0x14 1
      | some g => s.homeTake n g m.la (.own reg)

/-! ### Requests of other nodes -/

/-- The line lies within this E9's installed far memory. -/
def State.inFar (s : State) (la : Nat) : Bool := 64 * laLocal la < s.farBytes

/-- An owner's OFFER that crosses the snoop sent to it completes the waiting request as the U row gives; the MISS is still
awaited if it has not come (R145). -/
def State.offerIn (s : State) (n : Nat) (m : CohMsg) (accept : Bool) : State :=
  match s.openTrk n m.la with
  | none => s
  | some t =>
    let s := s.modTrk n t.htid fun t =>
      { t with offered := true, dst := 0, offerWait := none, data := some (m.data, m.poison), dirty := false }
    let s := if accept && !m.poison then
        match s.homeInstall n m.la (if t.sharers == 0 then stE else stS) m.data false with
        | some s => s.event n 0x16 1
        | none => s
      else s
    s.homeGo n t.htid

/-- The crossing of a WBD or OFFER with a snoop that this home has sent to its writer (R145): true when it was taken. -/
def State.crossing (s : State) (n src : Nat) (m : CohMsg) : Option State :=
  let r := src % 128
  match s.openTrk n m.la with
  | none => none
  | some t =>
    if m.opc == opWBD then
      if t.wbdDrop == some m.tid then some ((s.modTrk n t.htid fun t => { t with wbdDrop := none }).tryClose n t.htid)
      else if t.fwdWait == some r || (t.invWait.contains r && t.owner == r && (t.dst == 2 || t.dst == 3)) then
        some (s.modTrk n t.htid fun t => { t with held := some (src, m) })
      else none
    -- the answer of an owner that may yet have sent its data to a peer decides what the OFFER is
    else if t.fwdWait == some r && !t.offered && s.opOf n t == .rds then some (s.modTrk n t.htid fun t => { t with held := some (src, m) })
    else if (t.fwdWait == some r && !t.offered) || t.offerWait == some r then some (s.offerIn n m (s.offerAccept n))
    else none

/-- Take a WBD or OFFER: into the sender's reserved tracker for its class, else a general one (DESIGN CHOICE, unsafe:
notes/assumptions/89.md); with neither free it waits in the request input (R136). -/
def State.takeEvict (s : State) (src : Nat) (m : CohMsg) : State :=
  let n := sliceOf m.la
  let h := htidRes (src % 128) m.opc
  if (s.trk n h).isNone then s.homeTake n h m.la (.peer src m)
  else match s.general n with
    | some g => s.homeTake n g m.la (.peer src m)
    | none => { s with rtr := { s.rtr with delivered := s.rtr.delivered ++ [{ dst := s.nodeNo, src := src, vn := 0, body := .coh false m }] } }

/-- A refused node's request: NACK-DOWN or NACK-RANGE (R127, R180, R405). A refused coherence request is recorded as R180 records a global
one (DESIGN CHOICE, unsafe: notes/assumptions/113.md). -/
def State.nack (s : State) (src : Nat) (m : CohMsg) (glob : Bool) (opc : Nat) : State :=
  let a : CohMsg := { opc := opc, tid := m.tid, req := m.req, la := m.la }
  let s := s.rec_ 0x10 (136 + sliceOf m.la / 4) src (64 * m.la) m.opc
  if glob then s.sendGlob src a else s.sendCoh src a

/-- A coherence request from another node (R15, R127, R136–R138, R329, R357, R405). -/
def State.homeRequest (s : State) (src : Nat) (m : CohMsg) : State :=
  let s := s.consumeCoh src m
  let n := sliceOf m.la
  let bad (s : State) : State := s.rec_ 0x16 (136 + n / 4) src (64 * m.la) m.opc
  if !s.powered then s
  else if s.dom.st == 3 then s.nack src m false opNACKDOWN
  else if !(s.peerNode src && src != s.nodeNo) then bad s
  else if s.dom.st != 2 && !s.dom.sentReady then bad s
  else
    let s := s.domUp.sawUp (src % 128)
    if laNode m.la != s.nodeNo then bad s
    else if !s.inFar m.la then s.nack src m false opNACKRANGE
    else if m.opc == opATOM && opndBad m.opnd then
      (bad s).sendCoh src { opc := opDATA, tid := m.tid, req := m.req, la := m.la, poison := true, data := Config.poisonLine }
    else
      let evict := m.opc == opWBD || m.opc == opOFFER
      match (if evict then s.crossing n src m else none) with
      | some s => s
      | none =>
        let h := htidRes (src % 128) m.opc
        let res := s.trk n h
        let ticketed := m.tkt && m.htid == h && (match res with
          | some t => t.ph == .reserved && t.ticketTid == m.tid
          | none => false)
        -- a ticket that has been released is none (R138)
        let m := { m with tkt := ticketed }
        if evict then s.takeEvict src m
        else if ticketed then s.homeTake n h m.la (.peer src m)
        else match s.general n with
          | some g => s.homeTake n g m.la (.peer src m)
          | none =>
            s.sendRetry n src m

/-- A global-access request from any node (R180). -/
def State.globRequest (s : State) (src : Nat) (m : CohMsg) : State :=
  let s := s.consumeCoh src m
  let n := sliceOf m.la
  let write := m.opc == opGWR
  let a : CohMsg := { tid := m.tid, req := m.req, la := m.la }
  if !s.powered then s
  else if laNode m.la != s.nodeNo then s.rec_ 0x16 (136 + n / 4) src (64 * m.la) m.opc
  else if s.dom.st == 3 then s.nack src m true opNACKDOWN
  else if !s.inFar m.la then s.nack src m true opNACKRANGE
  else if s.mode == 2 || s.nearFrozen n then
    (s.rec_ 0x10 (136 + n / 4) src (64 * m.la) m.opc).sendGlob src
      (if write then { a with opc := opGACK } else { a with opc := opGDATA, poison := true, data := Config.poisonLine })
  else if m.opc == opGATOM && opndBad m.opnd then
    (s.rec_ 0x16 (136 + n / 4) src (64 * m.la) m.opc).sendGlob src { a with opc := opGDATA, poison := true, data := Config.poisonLine }
  else match s.general n with
    | some g => s.homeTake n g m.la (.glob src m)
    | none => s.sendGlob src { a with opc := opGBUSY }

/-- A directory-store read returns (R119), with what the code finds in each of the set's eight house lines (R39). An uncorrectable
entry is fatal (R121), and so is one whose STATE is not used (R117). A line that has gone into recall meanwhile is waited for
(R124). -/
def State.dirReadDone (s : State) (n htid : Nat) (errs : List ArrErr) : State :=
  match s.trk n htid with
  | none => s
  | some t =>
    let b := n / 4
    let set := dirSetOf s.dirGib t.la
    if t.ph != .dirRead then s
    -- a local request that precedes the down sweep has its entry swept first (R405)
    else if s.dom.downDue then s.homeLook n htid
    else if (s.dirErrs b set errs).contains .ue || (s.bank b).badSet set then (s.ueData (136 + b) (s.injDir b set) t.la 0).fatal (136 + b) 0
    else
      let s := (List.range 8).foldl (fun s j =>
        if (s.dirErrs b set errs)[j]? == some .ce then
          let (hs, hw) := houseSlot s.part s.houseWays (s.dirLine b set (2 * j))
          (s.bucket (136 + b)).ceWay (sliceOfSet s.part hs) hs hw
        else s) s
      if (s.slice n).trks.any fun x => x.la == t.la && x.htid != htid && x.ph != .reserved && x.ph != .chained then
        -- it waits for the line's recall, which counts as a transaction ahead of it (Table 9.7)
        let s := match t.for_ with
          | .own reg => s.extendMr n reg ((s.bound 2 n).getD 0)
          | _ => s
        s.modTrk n htid fun t => { t with ph := .chained }
      else s.homeKnown n htid (((s.bank b).hit set (laLocal t.la)).map fun w => (set, w))

/-- The next chained request of a line starts when nothing is open for it (R128); a ticketed request that waits for a store
way, and a home's own request that found no tracker, try again. -/
def State.chainStart (s : State) (n la : Nat) : State :=
  match s.openTrk n la with
  | some t =>
    if t.ph == .alloc then
      match s.dirAlloc n t.htid (dirSetOf s.dirGib la) with
      | some s => s.homeBegin n t.htid
      | none => s
    else s
  | none =>
    match (s.slice n).trks.filter fun t => t.la == la && t.ph == .chained with
    | [] =>
      match (s.slice n).mrs.find? fun m => m.la == la && m.st == .home with
      | some m => s.homeOwn n m.idx
      | none => s
    | t :: ts =>
      let first := ts.foldl (fun a b => if b.seq < a.seq then b else a) t
      (s.modTrk n first.htid fun t => { t with ph := .dirRead }).homeLook n first.htid

/-- A ticket not used within TICKET_LIFE beats is released (R138). -/
def State.ticketExpire (s : State) (n htid : Nat) : State :=
  match s.trk n htid with
  | some t =>
    if t.ph == .reserved && t.ticketEnd ≤ s.beat then
      (s.dropTrk n htid).rec_ 0xFF (136 + n / 4) (s.reqNode t) (64 * t.la) htid
    else s
  | none => s

/-! ### Answers that reach the home -/

/-- A snoop answer or confirmation for tracker `htid` from node `src` (R129, R145): `data` and `kept` as the message says. -/
def State.homeAnswer (s : State) (src : Nat) (m : CohMsg) : State :=
  let n := sliceOf m.la
  match s.trk n m.htid with
  | none => s
  | some t =>
    if t.la != m.la then s
    else
      let r := src % 128
      -- the WBD or OFFER of `src` that came before the snoop went out, and stands behind this transaction
      let behind (opc : Nat) : Option Trk := (s.slice n).trks.find? fun x => x.la == t.la && x.ph == .chained &&
        (match x.for_ with | .peer k y => k == src && y.opc == opc && (opc == opOFFER || y.tid == m.tid) | _ => false)
      let dropWbd (s : State) : State :=
        -- EV: the WBD with this TID is dropped, whether it has come or not
        -- a WBD held for an answer without EV was sent after it, and is handled next
        match t.held with
        | some (hs, hm) =>
          let s := s.modTrk n t.htid fun t => { t with held := none }
          if m.ev then s else s.takeEvict hs hm
        | none =>
          if !m.ev then s
          else match behind opWBD with
            | some x => s.dropTrk n x.htid
            | none => s.modTrk n t.htid fun t => { t with wbdDrop := some m.tid, wbdAt := s.mtu.mt }
      if t.invWait.contains r then
        ((dropWbd s).modTrk n t.htid fun t => { t with invWait := t.invWait.filter (· != r) }).homeGo n t.htid
      else if t.fwdWait == some r then
        if m.missF then
          if t.offered then (s.modTrk n t.htid fun t => { t with fwdWait := none }).tryClose n t.htid
          else if t.held.any fun h => h.1 == src && h.2.opc == opOFFER then
            match t.held with
            | some (_, y) =>
              (s.modTrk n t.htid fun t => { t with held := none, fwdWait := none, offerWait := some r }).offerIn n y (s.offerAccept n)
            | none => s
          else match behind opOFFER with
          | some x =>
            match x.for_ with
            | .peer _ y => ((s.dropTrk n x.htid).modTrk n t.htid fun t => { t with fwdWait := none, offerWait := some r }).offerIn n y x.accept
            | _ => s
          | none => s.modTrk n t.htid fun t => { t with fwdWait := none, offerWait := some r, offerAt := s.mtu.mt }
        -- its OFFER has come first and has completed the request
        else if t.offered then (s.modTrk n t.htid fun t => { t with fwdWait := none }).tryClose n t.htid
        else
          let hasData := m.opc == opDATA || m.opc == opDATAO
          let dirtyOwner := t.dst == 3 || m.opc == opDATAO || m.ev || t.dst == 2
          let s := (dropWbd s).modTrk n t.htid fun t =>
            { t with fwdWait := none, kept := (m.kept || m.opc == opDATAO) && !m.ev, ownerGone := m.ev,
                     data := if hasData then some (m.data, m.poison) else t.data, fromOwner := t.fromOwner || hasData,
                     dirty := if hasData then dirtyOwner else t.dirty }
          -- an EV answer leaves no owner; its dirty data goes to far memory
          let s := if m.ev && hasData then s.farWriteLine (laLocal t.la) m.data m.poison else s
          s.homeGo n t.htid
      else if t.ph == .cnf && r == s.reqMember t && m.opc == opACK then
        (s.modTrk n t.htid fun t => { t with confirmed := true }).tryClose n t.htid
      else if r == s.reqMember t && m.opc == opACK then s.modTrk n t.htid fun t => { t with confirmed := true }
      else s

/-- A far-memory read that its channel has made reaches its tracker (R67, R245): hosts' or owners' newer data stands. -/
def State.memDone (s : State) (tok : Nat) : State :=
  match s.mem.reads.find? fun r => r.tok == tok with
  | none => s
  | some r =>
    match r.got with
    | none => s
    | some g =>
      -- a copy that level-1 memory grants waits for room in the HSF, and MEMORY_READ_DONE is tried again (R143)
      let full := if r.n != 64 then none else (s.hreq r.htid).bind fun h => if h.req.copy && !h.mute then s.hsfVictim h.la false else none
      match full with
      | some old => s.hsfEvict old
      | none =>
      let s : State := { s with mem := { s.mem with reads := s.mem.reads.filter fun r => r.tok != tok } }
      -- a read of level-1 memory goes straight to its host request (R410)
      if r.n == 64 then (match s.hreq r.htid with
        | some h =>
          let others := (s.hsfCopies h.la false).any fun c => c.link != h.link
          let val := if !h.req.copy || g.2 then 0 else if h.req.excl && !others then 2 else 1
          s.reqDone { src := .host h.rid, kind := .read, la := h.la, aid := aidHost h.rid } (if g.2 then Config.poisonLine else g.1) g.2 val
        | none => s)
      else match s.trk r.n r.htid with
      | some t =>
        if t.memTok == some tok then
          (s.modTrk r.n r.htid fun t => { t with memTok := none, data := t.data.or (some g) }).homeGo r.n r.htid
        else s
      | none => s

end Sys2Proof.Machine
end

