-- ==== Sys2Proof/Machine/Miss.lean ====
section
/-! DEFINITION. Miss registers: what they send, refusals and the hold-back, answers and failures (R67–R76, R139, R181). -/

namespace Sys2Proof.Machine

/-- The link a request came by. -/
def State.linkOf (s : State) (r : Req) : Option Nat :=
  match r.src with
  | .host rid => (s.hreq rid).map (·.link)
  | .pwb l _ => some l
  | _ => none

/-- State of the line's entry in this near memory, I when absent. -/
def State.lineState (s : State) (la : Nat) : BitVec 3 :=
  match s.findLine la with
  | some (_, e) => e.st
  | none => stI

/-- The request goes to its home uncached: a global-window access (R21, R179), a read that never hits a copy (R69, R288), or
any access of a remote line in BYPASS (R108), or of an absent one while BYPASS is being entered. -/
def State.uncached (s : State) (r : Req) : Bool :=
  r.glob || r.atHome || s.mode == 1 || (s.entering && s.lineState r.la == stI)

/-- Opcode of a register's transaction for a line of another node. -/
def State.mrOpc (s : State) (r : Req) : Nat :=
  let other := s.classOf r.la == .other
  match r.kind with
  | .read => if other then opGRD else opRDS
  | .prefetch => if other then opGRD else opRDS
  | .atomic => if other then opGATOM else opATOM
  | .write =>
    if other then opGWR
    else if s.uncached r then opIWR
    else
      let st := s.lineState r.la
      if st == stS || st == stO || (st == stP && r.be == fullMask) then opUPG else opRDX

/-- The message of a register. -/
def State.mrMsg (s : State) (n : Nat) (m : Mr) (opc : Nat) (pf : Bool) : CohMsg :=
  let r := m.prim
  let wr := opc == opIWR || opc == opGWR
  let at_ := opc == opATOM || opc == opGATOM
  { opc := opc, pf := pf, tkt := m.ticket.isSome, tid := tidMr n m.idx, req := s.nodeNo,
    htid := m.ticket.getD 0, la := m.la,
    unc := (opc == opRDS && s.uncached r) || (opc == opGRD && (r.atHome || s.mode == 1)),
    full := opc == opRDX && r.be == fullMask,
    data := if wr then r.data else 0, poison := wr && r.poison, partialWr := wr && r.be != fullMask,
    mask := if wr && r.be != fullMask then r.be else 0, opnd := if at_ then r.opnd else 0 }

/-- End a register whose transaction fails: its requests end with it. -/
def State.mrFail (s : State) (n i : Nat) (why : Why) : State :=
  match s.mr n i with
  | none => s
  | some m => ((m.prim :: m.secs).foldl (fun s r => s.reqFail r why) s).mrClose n i

/-- An uncached write is handed to the fabric: it joins the slice's outstanding writes (R190). With early acknowledgement it
counts complete at once and its register is free. -/
def State.writeOut (s : State) (n i : Nat) (m : Mr) (msg : CohMsg) (early : Bool) : State :=
  let r := m.prim
  let (t0, p0, more) : Nat × Nat × List Nat := match r.src with
    | .pwb l seq => match (s.link l).pwb.find? fun e => e.seq == seq with
      | some e => (e.t0, e.paused0, e.more)
      | none => (m.t0, m.paused0, [])
    | _ => (m.t0, m.paused0, [])
  let s := s.modSlice n fun x =>
    { x with outw := x.outw ++ [{ id := x.nextRef, tid := tidMr n i, la := m.la, home := laNode m.la, src := r.src, aid := r.aid, link := r.link,
                                  early := early, more := more, msg := msg, t0 := t0, paused0 := p0, gap := m.gap }],
             nextRef := x.nextRef + 1 }
  if !early then s
  else
    let s : State := match r.src with
      | .pwb l seq =>
        (s.modLink l fun x => { x with pwb := x.pwb.map fun e => if e.seq == seq then { e with early := true, issued := true } else e }).pwbRetire l
      | .host rid =>
        match s.hreq rid with
        | some h => (s.hostCmp h).hostGone rid
        | none => s
      | _ => s
    match m.secs with
    | [] => s.mrClose n i
    | _ => s.modMr n i fun m => { m with st := .answered, data := none, grant := 0 }

/-- Put a register's message on the fabric. -/
def State.mrTransmit (s : State) (n i : Nat) : State :=
  match s.mr n i with
  | none => s
  | some m =>
    let opc := if m.opc == 0x1F then s.mrOpc m.prim else m.opc
    let home := laNode m.la
    let pf := m.isPf
    let glob := opc == opGRD || opc == opGWR || opc == opGATOM
    let msg := s.mrMsg n m opc pf
    -- the epoch in force when the read is issued (R68)
    let s := (s.modMr n i fun m => { m with st := .sent, opc := opc, home := home, pf := pf, since := s.mtu.mt, advs := s.lse.count }).markIssued
      m.prim.src
    let s := if glob then s.sendGlob home msg else s.sendCoh home msg
    if opc == opIWR || opc == opGWR then
      (if m.refSeq != 0 && ((s.slice n).outw.any fun o => o.tid == tidMr n i && o.la == m.la) then s
       else s.writeOut n i m msg (m.prim.ea && m.refSeq == 0))
    else s

/-- Start a register's transaction (R67): its own directory bank for a local line, otherwise a message to the home, unless the
target cannot be reached, or a refused request of the class holds newer ones back. The value 0x1F of `opc` marks a
transaction whose opcode is still to be chosen. -/
def State.mrSend (s : State) (n i : Nat) : State :=
  match s.mr n i with
  | none => s
  | some m =>
    let r := m.prim
    let home := laNode m.la
    let s := s.modMr n i fun m =>
      { m with opc := 0x1F, ticket := none, data := none, grant := 0, upgLost := false, advs := s.lse.count, t0 := s.clk,
               paused0 := s.paused, since := s.mtu.mt, gap := s.retryGap (n / 4) }
    match s.classOf m.la with
    | .loc =>
      if !s.inFar m.la then s.mrFail n i .range
      else (s.modMr n i fun m => { m with st := .home }).homeOwn n i
    | .domRemote =>
      if s.dom.st != 2 then s.mrFail n i .down
      else if s.unreachable home && (r.glob || (match r.src with | .host _ => false | _ => true)) then s.mrFail n i .dead
      else
        let opc := s.mrOpc r
        let s := s.classifyMr n i (if r.glob then 3 else 2)
        if s.holdsRefused n home opc then s.modMr n i fun m => { m with st := .heldBack, opc := opc, home := home }
        else (s.modMr n i fun m => { m with opc := opc, home := home }).mrTransmit n i
    | .other =>
      if s.unreachable home then s.mrFail n i .dead
      else
        let opc := s.mrOpc r
        let s := s.classifyMr n i 3
        if s.holdsRefused n home opc then s.modMr n i fun m => { m with st := .heldBack, opc := opc, home := home }
        else (s.modMr n i fun m => { m with opc := opc, home := home }).mrTransmit n i

/-- Registers whose primary is a prefetch; free registers. -/
def Slice.freeMrs (x : Slice) : Nat := 64 - x.mrs.length

/-- Open a register for a request (R67, R75); none when none is free. -/
def State.mrOpen (s : State) (n : Nat) (r : Req) (st : MrSt) : Option (Nat × State) :=
  (freeIdx 64 ((s.slice n).mrs.map (·.idx))).map fun i =>
    let m : Mr := { idx := i, la := r.la, prim := r, st := st, isPf := r.kind == .prefetch, opc := 0x1F, since := s.mtu.mt }
    (i, (s.modSlice n fun x => { x with mrs := x.mrs ++ [m], mrHwm := max x.mrHwm (x.mrs.length + 1) }).event n 0x18 1)

/-! ### Refusals (R139, R140, R181) -/

/-- What holds a refused request: a register, a victim-buffer entry, or an early-acknowledged write. -/
inductive RefId where
  | mr (i : Nat)
  | vb (i : Nat)
  | out (id : Nat)
  deriving DecidableEq, Repr

/-- The oldest refused request of a class for a home: its order, and what holds it. -/
def State.oldestRefused (s : State) (n home opc : Nat) : Option (Nat × RefId) :=
  let x := s.slice n
  let a := (x.mrs.filter fun m => m.refSeq != 0 && m.home == home && m.opc == opc).map fun m => (m.refSeq, RefId.mr m.idx)
  let c := (x.outw.filter fun o => o.refSeq != 0 && o.home == home && o.msg.opc == opc).map fun o => (o.refSeq, RefId.out o.id)
  let b := if opc == opGWR then
      (x.vbs.filter fun v => v.refSeq != 0 && laNode v.la == home).map fun v => (v.refSeq, RefId.vb v.idx)
    else []
  match a ++ b ++ c with
  | [] => none
  | x :: xs => some (xs.foldl (fun p q => if q.1 < p.1 then q else p) x)

/-- Core clock from which a request refused now without a ticket goes again, its transaction having begun with RETRY_GAP `gap` (R139,
R148, R149, R181). -/
def State.gapFrom (s : State) (gap : Nat) : Nat := s.clk + 8 * gap

/-- Send an early-acknowledged write again. -/
def State.outResend (s : State) (n id : Nat) : State :=
  match (s.slice n).outw.find? fun o => o.id == id with
  | none => s
  | some o =>
    let m : CohMsg := { o.msg with tkt := o.ticket.isSome, htid := o.ticket.getD 0 }
    let s := s.modSlice n fun x => { x with outw := x.outw.map fun p => if p.id == id then { p with flying := true } else p }
    if m.opc == opGWR then s.sendGlob o.home m else s.sendCoh o.home m

/-- Send a victim-buffer entry's write-through again. -/
def State.vbResend (s : State) (n i : Nat) : State :=
  match s.vb n i with
  | none => s
  | some v =>
    (s.modVb n i fun v => { v with sent := true, refused := false }).sendGlob (laNode v.la)
      { opc := opGWR, tid := tidVb n i, req := s.nodeNo, la := v.la, data := v.data, poison := v.poison }

/-- A refused request has been accepted or has ended: the next oldest goes if it holds a ticket; with none left, those that
were held back go. -/
def State.release (s : State) (n home opc : Nat) : State :=
  match s.oldestRefused n home opc with
  | some (_, .mr i) =>
    match s.mr n i with
    | some m => if m.st == .refused && m.ticket.isSome then s.mrTransmit n i else s
    | none => s
  | some (_, .out id) =>
    if ((s.slice n).outw.any fun o => o.id == id && o.ticket.isSome && !o.flying) then s.outResend n id else s
  | some (_, .vb _) => s
  | none =>
    let s := ((s.slice n).mrs.filter fun m => m.st == .heldBack && m.home == home && m.opc == opc).foldl
      (fun s m => if s.holdsRefused n home opc then s else s.mrTransmit n m.idx) s
    if opc == opGWR then
      ((s.slice n).vbs.filter fun v => v.refused && v.refSeq == 0 && laNode v.la == home).foldl (fun s v => s.vbGo n v.idx) s
    else s

/-- RETRY or GBUSY for register `i` (R139, R140, R181, R90): a prefetch is dropped; a demand is held, to go at once with a
ticket when it is the oldest, or after RETRY_GAP. -/
def State.mrRefused (s : State) (n i : Nat) (ticket : Option Nat) : State :=
  match s.mr n i with
  | none => s
  | some m =>
    if m.st != .sent then s
    else if m.isPf then ((s.event n 0x0F 1).mrClose n i).release n m.home m.opc
    else
      let s := match ticket with
        | some _ => s.extendMr n i (2 * (48 * s.domHops) + (s.bound 2 n).getD 0)
        | none => if m.opc < 0x18 then (m.prim :: m.secs).foldl (fun s (r : Req) => s.void r.src) s else s
      let seq := if m.refSeq == 0 then (s.slice n).nextRef else m.refSeq
      let s := s.modSlice n fun x => { x with nextRef := x.nextRef + 1 }
      let s := s.modMr n i fun m => { m with st := .refused, refSeq := seq, ticket := ticket, gapEnd := s.gapFrom m.gap }
      match s.oldestRefused n m.home m.opc with
      | some (k, _) => if ticket.isSome && k == seq then s.mrTransmit n i else s
      | none => s

/-- RETRY or GBUSY for an early-acknowledged write: the first in flight with this TID and line (DESIGN CHOICE, unsafe:
notes/assumptions/110.md). -/
def State.outRefused (s : State) (n tid la : Nat) (ticket : Option Nat) : State :=
  match (s.slice n).outw.find? fun o => o.tid == tid && o.la == la && o.early && o.flying with
  | none => s
  | some o =>
    let seq := if o.refSeq == 0 then (s.slice n).nextRef else o.refSeq
    let s := s.modSlice n fun x =>
      { x with nextRef := x.nextRef + 1,
               outw := x.outw.map fun p => if p.id == o.id then { p with refSeq := seq, ticket := ticket, flying := false, gapEnd := s.gapFrom p.gap } else p }
    match s.oldestRefused n o.home o.msg.opc with
    | some (k, _) => if ticket.isSome && k == seq then s.outResend n o.id else s
    | none => s

/-- After RETRY_GAP the oldest refused request of a class for a home goes again (R139, R181). -/
def State.gapExpiry (s : State) (n home opc : Nat) : State :=
  match s.oldestRefused n home opc with
  | some (_, .mr i) =>
    match s.mr n i with
    | some m => if m.st == .refused && m.ticket.isNone && m.gapEnd ≤ s.clk then s.mrTransmit n i else s
    | none => s
  | some (_, .out id) =>
    if ((s.slice n).outw.any fun o => o.id == id && o.ticket.isNone && !o.flying && o.gapEnd ≤ s.clk) then s.outResend n id else s
  | some (_, .vb i) =>
    match s.vb n i with
    | some v => if v.refused && v.gapEnd ≤ s.clk then s.vbResend n i else s
    | none => s
  | none => s

/-- A register's answer has come (R76): the fill follows in the next pass. -/
def State.mrAnswer (s : State) (n i grant : Nat) (d : Option (Line × Bool)) : State :=
  match s.mr n i with
  | none => s
  | some m =>
    if m.st != .sent then s
    else
      let was := m.refSeq != 0
      let s := s.modMr n i fun m =>
        { m with st := .answered, grant := grant, data := d, refSeq := 0, ticket := none, early := m.secs.length,
                 won := if grant == 0 then 0 else m.secs.length }
      if was then s.release n m.home m.opc else s

/-- A register ends in failure, and what it held back may go. -/
def State.mrEnd (s : State) (n i : Nat) (why : Why) : State :=
  match s.mr n i with
  | none => s
  | some m =>
    let s := s.modSlice n fun x => { x with outw := x.outw.filter fun o => !(o.tid == tidMr n i && o.la == m.la && !o.early) }
    (s.mrFail n i why).release n m.home m.opc

/-- A write has been performed at its home (R175, R190): the oldest outstanding one with this TID and line. -/
def State.writeDone (s : State) (tid la : Nat) : State :=
  let n := sliceOf la
  match (s.slice n).outw.find? fun o => o.tid == tid && o.la == la with
  | none => s
  | some o =>
    let s := s.modSlice n fun x => { x with outw := x.outw.eraseP fun p => p.tid == tid && p.la == la }
    if o.early then
      let s : State := match o.src with
        | .pwb l seq => s.pwbEnd l seq
        | .piece p pid => s.pieceGot p pid 0 false 0
        | _ => s
      let s := (o.aid :: o.more).foldl (fun s a => s.accDone a) s
      if o.refSeq != 0 then s.release n o.home o.msg.opc else s
    else
      match s.mr n (tid % 64) with
      | some m =>
        if m.la == la && m.prim.kind == .write then
          let s := s.reqDone m.prim 0 false 0
          let was := m.refSeq != 0
          let s := match m.secs with
            | [] => s.mrClose n m.idx
            | _ => s.modMr n m.idx fun m => { m with st := .answered, grant := 0, data := none, refSeq := 0, ticket := none }
          if was then s.release n m.home m.opc else s
        else s.accDone o.aid
      | none => s.accDone o.aid

/-- Registers that waited for a victim-buffer entry of their line go on when it is free (Table 3.7). -/
def State.wakeVb (s : State) (n : Nat) : State :=
  ((s.slice n).mrs.filter fun m => m.st == .waitVb && !((s.slice n).vbs.any fun v => v.la == m.la)).foldl
    (fun s m => s.mrSend n m.idx) s

end Sys2Proof.Machine
end

