-- ==== Sys2Proof/Machine/Lookup.lean ====
section
/-! DEFINITION. The lookup of a slice's tag pipeline, hits, the stream prefetcher and the fill (R60–R91, chapter 3). -/

namespace Sys2Proof.Machine

/-- What a lookup comes to. -/
inductive Look where
  /-- the request has been served -/
  | served (s : State)
  /-- it is a miss, or a hit that needs a transaction; whether the prefetcher trains on it (R88) -/
  | needs (s : State) (trains : Bool)
  /-- it is replayed: host copies are being recalled -/
  | wait (s : State)

/-! ### Host copies (R144, R165, R166) -/

/-- The MetaValue a host read is granted: 0 I, 1 S, 2 A (R165; DEDUCED, safe: notes/assumptions/17.md). `own` says this E9 may grant A,
`held` that the line is in a way or a victim-buffer entry: without it a domain-remote line is granted no copy. -/
def State.grantVal (s : State) (r : Req) (own held : Bool) : Nat :=
  if !r.copy then 0
  else if s.classOf r.la == .other || r.glob then (if r.ali ≤ 1 then 1 else 0)
  else if s.classOf r.la == .domRemote && !held then 0
  else if r.excl && own && (s.hsfCopies r.la false).all (fun c => some c.link == s.linkOf r) then 2
  else 1

/-- The request and a copy of its own link reach a local line through different aliases (R19). -/
def State.otherAlias (s : State) (r : Req) (c : HsfCopy) : Bool :=
  some c.link == s.linkOf r && !r.flat && !r.glob && !c.glob && c.dom != r.domWin

/-- Copies that must go first: those of other links, every one for a write or atomic and those in E or M for a read
(DEDUCED, safe: notes/assumptions/18.md); and the link's own copy held through the other alias of the window (R19). -/
def State.blocking (s : State) (r : Req) (c : HsfCopy) : Bool :=
  let wr := r.kind == .write || r.kind == .atomic
  (some c.link != s.linkOf r && (c.em || wr)) || (wr && c.glob != r.glob) || s.otherAlias r c

/-- Make way for the request at the hosts: recall the copies that block it, and, for a read that takes a copy, the entry that must
leave a full HSF set (R143; DEDUCED, safe: notes/assumptions/97.md). None when nothing stands in its way. -/
def State.hostGate (s : State) (r : Req) : Option State :=
  let cs := (s.hsfCopies r.la r.flat).filter (s.blocking r)
  if s.biOpen r.la r.flat then some (s.recallWait r.src r.la r.flat)
  else if !cs.isEmpty then
    let w := BiWait.req (sliceOf r.la) r.la
    some ((cs.foldl (fun t c => t.sendBi r.la r.flat c (r.kind == .write || r.kind == .atomic || s.otherAlias r c) w) s).recallWait
      r.src r.la r.flat)
  else if r.copy then (s.hsfVictim r.la r.flat).map fun old => (s.hsfEvict old).recallWait r.src old.key old.flat
  else none

/-- The home's transaction makes the recalls of a local line itself (R130): only a copy held through the other alias (R19), and room
in the HSF, are waited for before it starts. -/
def State.gateFirst (s : State) (r : Req) : Bool :=
  s.classOf r.la != .loc || (s.hsfCopies r.la r.flat).any (s.otherAlias r) || (r.copy && (s.hsfVictim r.la r.flat).isSome)

/-! ### Prefetch (R88–R90) -/

/-- The line of page `p` that hashes to slice `n` (R88). -/
def pageLine (n p : Nat) : Nat := p * 64 + (n ^^^ sliceOf (p * 64))

/-- Line `la` lies in an enabled device range (R286). -/
def State.inDevr (s : State) (la : Nat) : Bool :=
  (List.range 8).any fun j =>
    let v := s.csrGet (offDevr j)
    let k := clampN (fld v 57 6) 12 42
    fbit v 63 && fld v 12 45 * 4096 / 2 ^ k == 64 * la / 2 ^ k

/-- SLC[n]_PFC and SLC[n]_ALC for a request: as they stood when it entered the tag pipeline (R93). -/
def State.pfcOf (s : State) (n : Nat) (r : Req) : Word := (r.ent.map (·.1)).getD (s.pfc n)
def State.alcOf (s : State) (n : Nat) (r : Req) : Word := (r.ent.map (·.2)).getD (s.csrGet (offSlc n 0x108))

/-- Prefetches may be issued at all (Table 3.8). -/
def State.prefetchOn (s : State) (n : Nat) (pfc : Word) : Bool := fbit pfc 0 && !s.inPause && !s.refusedHere n

/-- A prefetch of line `la` may be issued now (Table 3.8). -/
def State.mayPrefetch (s : State) (n la : Nat) (pfc : Word) (device : Bool) : Bool :=
  let cls := s.classOf la
  let x := s.slice n
  !(s.findLine la).isSome && !(x.vbs.any fun v => v.la == la) && !s.busyLine n la
    && (if cls == .other then fbit pfc 2 && !device && !s.inDevr la && !s.unreachable (laNode la)
          && !s.rtr.downDoms.contains (laNode la / 128)
        else if cls == .domRemote then s.dom.st == 2 && !s.unreachable (laNode la)
        else true)

/-- Issue one prefetch. -/
def State.prefetch (s : State) (n la : Nat) (ent : Word × Word) : State :=
  match s.mrOpen n { src := .prefetch, kind := .prefetch, la := la, ea := false, ent := some ent } .sent with
  | none => s
  | some (i, s) => (s.event n 0x0E 1).mrSend n i

/-- A prefetch whose tag lookup must wait stays at the slice input, and is judged when it can be (R48, R50). -/
def State.prefetchWait (s : State) (n la : Nat) (ent : Word × Word) (device : Bool) : State :=
  (s.event n 0x14 1).modSlice n fun x =>
    { x with inq := x.inq ++ [{ src := .prefetch, kind := .prefetch, la := la, dev := device, ent := some ent }] }

/-- A prefetch that waited there (Table 3.8). -/
def State.prefetchLate (s : State) (n : Nat) (r : Req) : State :=
  let ent := (s.pfcOf n r, s.alcOf n r)
  if s.prefetchOn n ent.1 && fld ent.1 24 8 < (s.slice n).freeMrs && s.mayPrefetch n r.la ent.1 r.dev then s.prefetch n r.la ent
  else s.event n 0x0F 1

/-- The prefetches of one trigger, judged one after another (R88); one that is not issued counts as dropped (R90). -/
def State.prefetchRun (s : State) (n p : Nat) (dir : Int) (ent : Word × Word) (device : Bool) : Nat → State
  | 0 => s
  | k + 1 =>
    let pfc := ent.1
    let step : Nat := fld pfc 12 2 + 1 - (k + 1)
    let t : Int := (p : Int) + dir * ((max (fld pfc 16 4) 1 + step : Nat) : Int)
    if t < 0 || t.toNat / 512 != p / 512 then s
    else if !s.prefetchOn n pfc then (s.event n 0x0F 1).prefetchRun n p dir ent device k
    else if (s.slice n).freeMrs ≤ fld pfc 24 8 then s.event n 0x0F (k + 1)
    else
      let la := pageLine n t.toNat
      (if s.tagWaits n (setOf s.part la) then s.prefetchWait n la ent device
        else
          let s := (s.touchLine 4 la).2
          if s.mayPrefetch n la pfc device then s.prefetch n la ent else s.event n 0x0F 1).prefetchRun n p dir ent device k

/-- The entry that a training lookup of page `p` finds, in the order of R88. -/
def findStream (xs : List (Option Stream)) (p : Nat) : Option Nat :=
  let at_ (f : Stream → Bool) : Option Nat :=
    (List.range 32).find? fun i => match (xs[i]?).join with | some e => f e | none => false
  ((at_ fun e => e.page == p).or
    (at_ fun e => e.dir != 0 && (e.page : Int) + e.dir == p)).or
    (at_ fun e => e.dir == 0 && (e.page == p + 1 || e.page + 1 == p))

/-- The entry to replace: the least recently used, of which an empty one is the lowest-numbered (DESIGN CHOICE, safe:
notes/assumptions/90.md). -/
def lruStream (xs : List (Option Stream)) : Nat :=
  match (List.range 32).find? fun i => ((xs[i]?).join).isNone with
  | some i => i
  | none =>
    let use (i : Nat) : Nat := match (xs[i]?).join with | some e => e.used | none => 0
    (List.range 32).foldl (fun a i => if use i < use a then i else a) 0

/-- A rank above every entry's. -/
def nextUse (xs : List (Option Stream)) : Nat :=
  xs.foldl (fun a e => match e with | some e => max a (e.used + 1) | none => a) 1

/-- Train on a lookup (R88): the access is a device one through alias 2 or to a device page. -/
def State.train (s : State) (n : Nat) (r : Req) : State :=
  if r.src == .prefetch || r.src == .maint then s
  else
    let p := r.la / 64
    let xs := (s.slice n).streams
    let device := r.dev || r.ali == 2
    let pfc := s.pfcOf n r
    let put (s : State) (i : Nat) (e : Stream) : State :=
      s.modSlice n fun x => { x with streams := x.streams.set i (some { e with used := nextUse xs }) }
    match findStream xs p with
    | none => put s (lruStream xs) { page := p, device := device }
    | some i =>
      match (xs[i]?).join with
      | none => s
      | some e =>
        if e.page == p then put s i { e with device := device }
        else
          let d : Int := if e.dir == 0 then (p : Int) - e.page else e.dir
          let c := min (e.conf + 1) 7
          let s := put s i { e with page := p, dir := d, conf := c, device := device }
          if c < max (fld pfc 8 3) 1 then s
          else s.prefetchRun n p d (pfc, s.alcOf n r) device (fld pfc 12 2 + 1)

/-! ### The lookup against the tag entries (R63–R65, R69, R72, Table 3.2) -/

/-- Remember when the read that supplies a host copy was issued (R167). -/
def State.stampAdvs (s : State) (src : Src) (k : Nat) : State :=
  match src with
  | .host rid => s.modReq rid fun h => { h with advs := k }
  | _ => s

/-! ### Locks (R103, R105) -/

/-- Change the counts of the range operation that runs. -/
def State.modRange (s : State) (f : RangeSt → RangeSt) : State :=
  { s with mgt := { s.mgt with range := s.mgt.range.map f } }

/-- Lock a present line, or count the refusal (R37, R79, R103). -/
def State.lockLine (s : State) (n la : Nat) : State :=
  match s.findLine la with
  | none => s
  | some (w, e) =>
    let set := setOf s.part la
    let b := s.tags n set
    if e.lock then s.modRange fun x => { x with affected := x.affected + 1 }
    else if s.classOf la == .other || 4 ≤ (b.ways.filter (·.lock)).length || !s.otherFree b w then
      s.modRange fun x => { x with refused := x.refused + 1 }
    else (s.putEnt n set w { e with lock := true }).modRange fun x => { x with affected := x.affected + 1 }

/-- A request that needs a register and finds none free stays at the slice input (R67, Table 9.7). -/
def State.noReg (s : State) (n : Nat) (r : Req) : State :=
  let s := match r.src with
    | .host rid => s.modReq rid fun h => if h.mrWait then h else { h with mrWait := true, add := h.add + s.longestBound }
    | _ => s
  (s.event n 0x14 1).modSlice n fun x => if x.inq.contains r then x else { x with inq := x.inq ++ [r] }

/-- Judge a request against the line's state (Table 3.2); `guess` is the way whose data a speculative read has brought (R55). -/
def State.serve (s : State) (n : Nat) (r : Req) (guess : Nat) : Look :=
  let set := setOf s.part r.la
  let b := s.tags n set
  let s := if b.ways.any fun x => s.stale x && x.tag == tagOf s.part r.la then s.event n 0x13 1 else s
  let cls := s.classOf r.la
  match s.matchWay b r.la with
  | none =>
    match s.hostGate r with
    | some t => if s.gateFirst r then .wait t else .needs t true
    | none => .needs s true
  | some w =>
    let t := b.get w
    if r.kind == .prefetch then .served s
    else if cls != .other && (r.glob || r.atHome) then .needs s true
    else if cls == .other && r.kind == .read && r.atHome then .needs s true
    else if t.st == stL && r.kind != .read && (s.slice n).freeMrs == 0 && !s.busyLine n r.la then .wait (s.noReg n r)
    else match s.hostGate r with
    | some s => .wait s
    | none =>
      let old := t.age == 3
      let owner := t.st == stE || t.st == stM
      let reads := r.kind == .read || (r.kind == .write && r.be != fullMask && (owner || t.st == stL))
      let (e, s) := if reads then s.readWay n set w (guess == w) else (ArrErr.none, s)
      if e == .ue && (t.st == stS || t.st == stE || t.st == stL) then
        .needs ((s.ueData n (s.injNear n set w) (64 * r.la) w).dropLine n r.la w true) true
      else
        let s := if e == .ue && t.st != stP then
            (s.ueData n (s.injNear n set w) (64 * r.la) w).setLineState n r.la w stP else s
        let t := (s.tags n set).get w
        let (d, p) := s.wayGet set w
        let bad := p || t.st == stP
        match r.kind with
        | .read =>
          let s := if t.age == 3 then s.train n r else s
          let s := (s.hitReq n w r).event n 2 1
          let s := if t.st == stL then s.event n 0x12 1 else s
          let s := s.stampAdvs r.src (if t.st == stL then s.entryAdvs t else s.lse.count)
          let s := if r.src == .maint then s.lockLine n r.la else s
          .served (s.reqDone r (if bad then Config.poisonLine else d) bad
            (if bad then 0 else s.grantVal r (t.st == stE || t.st == stM) true))
        | .write =>
          if t.st == stL then
            if (r.ali == 0 || r.ali == 3) && !r.dev then
              .needs ((s.wayPut n set w (mergeBytes d r.data r.be) (r.poison || p)).hitReq n w r) old
            else .needs ((s.hitReq n w r).dropLine n r.la w false) old
          else if t.st == stE || t.st == stM then
            let s := if t.age == 3 then s.train n r else s
            let s := (s.wayPut n set w (mergeBytes d r.data r.be) (r.poison || (p && r.be != fullMask))).hitReq n w r
            .served (((s.setLineState n r.la w (if r.poison then stP else stM)).event n 4 1).reqDone r 0 false 0)
          else if t.st == stP && r.be != fullMask then
            let s := if t.age == 3 then s.train n r else s
            .served (((s.hitReq n w r).rec_ 0xFF n 0xFFFF (64 * r.la) 0).reqDone r 0 false 0)
          else .needs s old
        | .atomic => .needs (if t.st == stL then s.dropLine n r.la w false else s) old
        | .prefetch => .served s

/-! ### The fill (R66–R68, R76–R81, R134, R205) -/

/-- Roster of an epoch value. -/
def Slice.roster (x : Slice) (ep : Nat) : List Nat :=
  match ep % 4 with | 0 => x.ros0 | 1 => x.ros1 | 2 => x.ros2 | _ => x.ros3
def Slice.setRoster (x : Slice) (ep : Nat) (l : List Nat) : Slice :=
  match ep % 4 with
  | 0 => { x with ros0 := l }
  | 1 => { x with ros1 := l }
  | 2 => { x with ros2 := l }
  | _ => { x with ros3 := l }

/-- An L fill may go in: the epoch has not advanced since the read was issued, and the roster has room (R68, R205). -/
def State.leaseOk (s : State) (n la : Nat) (advs : Nat) : Bool :=
  let ros := (s.slice n).roster s.lse.epoch.toNat
  s.lse.count == advs && (ros.getLast? == some (setOf s.part la) || ros.length < 2048)

/-- Append the set to the roster of the present epoch unless it is the last there (R205). -/
def State.enroll (s : State) (n la : Nat) : State :=
  let ep := s.lse.epoch.toNat
  s.modSlice n fun x =>
    let ros := x.roster ep
    if ros.getLast? == some (setOf s.part la) then x else x.setRoster ep (ros ++ [setOf s.part la])

/-- Start the hold of a line won by a grant (R134). -/
def State.startHold (s : State) (n la : Nat) : State :=
  let h := 8 * s.holdTime (n / 4)
  if h == 0 then s
  else s.modSlice n fun x => { x with holds := (x.holds.filter fun h => h.la != la) ++ [{ la := la, until_ := s.clk + h }] }

/-- The state a read's fill is installed in, 0 for none (Table 3.3, R108, R205). -/
def State.fillState (s : State) (n : Nat) (m : Mr) : BitVec 3 :=
  let r := m.prim
  if s.noInstall || s.nearFrozen n then stI
  else match s.classOf m.la with
    | .loc => if r.glob || r.atHome || !(fbit (s.alcOf n r) 0 || r.src == .maint) then stI else BitVec.ofNat 3 m.grant
    | .domRemote => if r.glob || r.atHome then stI else BitVec.ofNat 3 m.grant
    | .other => if r.atHome || r.dev || r.ali == 1 || r.ali == 2 || !s.leaseOk n m.la m.advs then stI else stL

/-- Serve a register's secondaries in order, each judged as a new lookup (R76). One that needs a transaction becomes what
the register works for; one that waits for host copies keeps the register, and FILL_INSTALL tries it again. -/
def State.serveSecs (s : State) (n i : Nat) : List Req → State
  | [] => s.mrClose n i
  | r :: rest =>
    let k := match s.mr n i with | some m => m.won | none => 0
    let hold (s : State) : State :=
      s.modMr n i fun m => { m with st := .hosts, prim := r, secs := rest, isPf := false, data := none, early := 0, won := k }
    let s := s.modMr n i fun m => { m with won := k - 1 }
    if s.refusedHere n then (s.reqFail r .stop).serveSecs n i rest
    else if s.mode == 0 && s.tagWaits n (setOf s.part r.la) then hold s
    else
    let (g, s) := if s.mode == 0 then s.touchGuess n (setOf s.part r.la) (some r.la) else (0, s)
    match s.serve n r g with
    | .served s => s.serveSecs n i rest
    | .needs s _ =>
      if r.kind == .prefetch then s.serveSecs n i rest
      else
        (s.modMr n i fun m =>
          { m with prim := r, secs := rest, isPf := false, refSeq := 0, ticket := none, grant := 0, data := none }).mrSend n i
    | .wait s => hold s

/-- Secondaries that arrived before data that could not be installed are served from the register's data (R68, R78): reads take it,
but for those that the home performs every time (R69; DEDUCED, safe: notes/assumptions/98.md); from the first that cannot, each is
judged as a new lookup. -/
def State.serveFrom (s : State) (n i : Nat) (d : Line) (advs : Nat) : Nat → List Req → State
  | _, [] => s.mrClose n i
  | 0, rs => s.serveSecs n i rs
  | k + 1, r :: rest =>
    if r.kind == .prefetch then s.serveFrom n i d advs k rest
    else if r.kind == .read && !r.atHome then
      match s.hostGate r with
      | some s => s.modMr n i fun m =>
          { m with st := .hosts, prim := r, secs := rest, isPf := false, data := some (d, false), early := k + 1, advs := advs }
      | none => ((s.stampAdvs r.src advs).reqDone r d false (s.grantVal r false false)).serveFrom n i d advs k rest
    else s.serveSecs n i (r :: rest)

/-- A request receives a poisoned fill (R66): a read or atomic its poison; a partial write, like one that meets P, is discarded and
recorded (Table 3.2). -/
def State.poisoned (s : State) (n advs : Nat) (r : Req) : State :=
  match r.kind with
  | .write => (s.rec_ 0xFF n 0xFFFF (64 * r.la) 0).reqDone r 0 false 0
  | .prefetch => s.event n 0x0F 1
  | _ => (s.stampAdvs r.src advs).reqDone r Config.poisonLine true 0

/-- A poisoned fill reaches every request that waited for it (R66, R78); a full-line write needs none of its data and is judged after. -/
def State.servePoison (s : State) (n i : Nat) (m : Mr) : State :=
  let es := m.secs.take m.early
  let whole (r : Req) : Bool := r.kind == .write && r.be == fullMask
  ((es.filter fun r => !whole r).foldl (fun s r => s.poisoned n m.advs r) s).serveSecs n i (es.filter whole ++ m.secs.drop m.early)

/-- The data of a line that has been won and cannot be installed goes back to its home: a local one to far memory, another by a WBD
from the victim buffer (R108, R135). None while no victim-buffer entry is free. -/
def State.passOn (s : State) (n la : Nat) (d : Line) (poison : Bool) : Option State :=
  if s.classOf la == .loc then some (s.farWriteLine (laLocal la) d poison)
  else s.vbTake n la d poison (if poison then stP else stM) 2 s.lse.count

/-- A write on a clean local line whose read finds an uncorrectable error: the entry becomes I, and the write asks the home again, as a
miss (R65). -/
def State.fillAgain (s : State) (n : Nat) (m : Mr) (w : Nat) : State :=
  ((((s.ueData n (s.injNear n (setOf s.part m.la) w) (64 * m.la) w).dropLine n m.la w true).ownClose n m.idx).mrSend n m.idx)

/-- A hold starts where `c` (R134). -/
def State.holdIf (s : State) (n la : Nat) (c : Bool) : State := if c then s.startHold n la else s

/-- A fill's outcome: done, or to be replayed from `s`. -/
def State.filled (s : State) (o : Option State) : Look := match o with
  | some t => .served t
  | none => .wait s

/-- Finish an own atomic or a write whose ownership is here: write the way, or install the line in M (R70, R74). It waits when
the fill must be replayed; where its transaction has started again, it needs that. -/
def State.fillOwned (s : State) (n g : Nat) (m : Mr) : Look :=
  let r := m.prim
  let cls := s.classOf m.la
  let (base, bad) := m.data.getD (Config.poisonLine, true)
  match s.findLine m.la with
  | some (w, e) =>
    if r.kind == .atomic then
      let ((res, p), s) := s.atomHere n m.la w e.st r.opnd r.stream (g == w)
      .served (s.reqDone r res p 0)
    else
      let set := setOf s.part m.la
      let fresh := m.data.isSome && cls != .loc
      let (x, s) := if fresh || r.be == fullMask then (ArrErr.none, s) else s.readWay n set w (g == w)
      if x == .ue && cls == .loc && (e.st == stS || e.st == stE) then .needs (s.fillAgain n m w) false
      else
      let s := if x == .ue then s.ueData n (s.injNear n set w) (64 * m.la) w else s
      let (d, p) := if fresh then (base, bad) else s.wayGet set w
      let p := r.poison || ((p || x == .ue || e.st == stP) && r.be != fullMask)
      let s := (s.wayPut n set w (mergeBytes d r.data r.be) p).setLineState n m.la w (if p then stP else stM)
      .served (((s.hitReq n w r).holdIf n m.la (cls == .domRemote)).reqDone r 0 false 0)
  | none =>
    let full := r.kind == .write && r.be == fullMask
    if bad && !full then
      if r.kind == .atomic && !s.noInstall then
        -- the operation is not applied and the line is left in P (R74)
        s.filled ((s.fill n m.la stP 0 Config.poisonLine true).map fun s => s.reqDone r Config.poisonLine true 0)
      else
        -- a fill that carries poison installs nothing (R66)
        let s := if cls == .loc then s.farWriteLine (laLocal m.la) Config.poisonLine true else s
        .served (s.poisoned n m.advs r)
    else
      let (d, res) := if r.kind == .atomic then atomApply base r.opnd else (mergeBytes base r.data r.be, (0 : Line))
      let s := if r.kind == .atomic then s.event n 0x15 1 else s
      if s.noInstall then s.filled ((s.passOn n m.la d r.poison).map fun s => s.reqDone r res false 0)
      else
        s.filled ((s.fill n m.la (if r.poison then stP else stM) (if r.stream && r.kind != .atomic then 3 else 0) d r.poison).map fun s =>
          (s.holdIf n m.la (cls == .domRemote)).reqDone r res false 0)

/-- A read's fill (R67, R78): install, the primary, then the secondaries. -/
def State.fillRead (s : State) (n i : Nat) (m : Mr) (d : Line) : State :=
  let r := m.prim
  let cls := s.classOf m.la
  let done (s : State) (own : Bool) : State :=
    let s := if r.src == .maint then s.lockLine n m.la else s
    ((s.stampAdvs r.src m.advs).reqDone r d false (s.grantVal r own true)).ownClose n i
  let st := s.fillState n m
  -- not installed because its epoch has passed or its roster is full (R68, R205)
  let lease := cls == .other && !(r.atHome || r.dev || r.ali == 1 || r.ali == 2) && !s.noInstall && !s.nearFrozen n && st == stI
  let s := if lease && s.lse.count == m.advs then s.event n 0x11 1 else s
  if st == stI then
    let s := if m.isPf then s.event n 0x0F 1 else s
    -- a line that is to be locked and cannot be installed is refused its lock
    let s := if r.src == .maint then s.modRange fun x => { x with refused := x.refused + 1 } else s
    let s := ((s.stampAdvs r.src m.advs).reqDone r d false (s.grantVal r (cls == .loc && m.grant == 2) false)).ownClose n i
    -- a domain-remote line that was granted goes back to its home (R135)
    let s := if cls == .domRemote && m.grant != 0 then
        (s.sendCoh (laNode m.la) { opc := opOFFER, tid := tidMr n i, req := s.nodeNo, la := m.la, data := d }).event n 0x0D 1
      else s
    if lease then s.serveFrom n i d m.advs m.early m.secs else s.serveSecs n i m.secs
  else match s.findLine m.la with
    -- an OFFER has brought the line meanwhile (R37)
    | some (w, _) => (done (if m.isPf then s else s.hitReq n w r) (m.grant == 2 || m.grant == 3)).serveSecs n i m.secs
    | none =>
      let st := if cls == .loc && st == stE && r.copy then stS else st
      match s.fill n m.la st (if m.isPf || r.stream then 3 else 0) d false with
      | some s =>
        let s := if st == stL then s.enroll n m.la else s
        let s := if cls == .domRemote && (st == stE || st == stM) then s.startHold n m.la else s
        (done s (m.grant == 2 || m.grant == 3)).serveSecs n i m.secs
      | none =>
        if m.isPf then
          let s := s.event n 0x0F 1
          let s := if cls == .domRemote then
              (s.sendCoh (laNode m.la) { opc := opOFFER, tid := tidMr n i, req := s.nodeNo, la := m.la, data := d }).event n 0x0D 1
            else s
          (s.ownClose n i).mrClose n i
        else s.event n 0x14 1

/-- The fill of an answered register (FILL_INSTALL). In HOLD, or with a frozen near channel, no tag or way is touched: what would
write one ends without its effect (R108, R275). -/
def State.fillMr (s : State) (n i : Nat) : State :=
  match s.mr n i with
  | none => s
  | some m =>
    if m.st == .hosts then
      match m.data with
      | some (d, _) => s.serveFrom n i d m.advs m.early (m.prim :: m.secs)
      | none => s.serveSecs n i (m.prim :: m.secs)
    else if m.st != .answered then s
    else
      let r := m.prim
      let cls := s.classOf m.la
      -- performed at its home, or here by this home (R71, R141)
      let away : Bool := match r.kind with
        | .write => match cls with
          | .other => true
          | .domRemote => m.opc == opIWR
          | .loc => r.glob
        | .atomic => cls != .loc
        | _ => false
      if !s.refusedHere n && s.tagWaits n (setOf s.part m.la) then s.event n 0x14 1
      else
      let (g, s) := if s.refusedHere n then (0, s) else s.touchGuess n (setOf s.part m.la) (some m.la)
      match r.kind with
      | .write =>
        if away then (if cls == .loc && r.glob then s.reqDone r 0 false 0 else s).serveSecs n i m.secs
        else if s.refusedHere n then ((s.reqFail r .stop).ownClose n i).serveSecs n i m.secs
        else
          let bad := (match m.data with | some (_, p) => p | none => true) && r.be != fullMask && (s.findLine m.la).isNone
          match s.fillOwned n g m with
          | .needs s _ => s
          | .served s => if bad then (s.ownClose n i).servePoison n i m else (s.ownClose n i).serveSecs n i m.secs
          | .wait s => s.event n 0x14 1
      | .atomic =>
        if away then
          let (d, p) := m.data.getD (Config.poisonLine, true)
          (s.reqDone r d p 0).serveSecs n i m.secs
        else if s.refusedHere n then ((s.reqFail r .stop).ownClose n i).serveSecs n i m.secs
        else match s.fillOwned n g m with
          | .served s | .needs s _ => (s.ownClose n i).serveSecs n i m.secs
          | .wait s => s.event n 0x14 1
      | _ =>
        let (d, p) := m.data.getD (Config.poisonLine, true)
        if p then
          let s := if r.src == .maint then s.modRange fun x => { x with refused := x.refused + 1 } else s
          ((s.poisoned n m.advs r).ownClose n i).servePoison n i m
        else match (if r.kind == .read then s.hostGate r else none) with
          | some s => s.event n 0x14 1
          | none => s.fillRead n i m d

/-- A home tracker finishes another node's atomic on an absent line: the line is allocated in M at AGE 0 and the operation applied; a
poisoned one is left in P (R74). -/
def State.fillTrk (s : State) (n htid : Nat) : State :=
  match s.trk n htid with
  | none => s
  | some t =>
    let own := match t.for_ with | .own _ => true | _ => false
    if t.ph != .own || own then s
    else
      let m := s.msgOf n t
      let (d, p) := t.data.getD (0, false)
      if s.refusedHere n then
        ((s.rec_ 0x10 (136 + n / 4) (s.reqNode t) (64 * t.la) m.opc).homeData n t Config.poisonLine true).homeDone n htid false
      else if s.tagWaits n (setOf s.part t.la) then s.event n 0x14 1
      else
        let (g, s) := s.touchGuess n (setOf s.part t.la) (some t.la)
        match s.findLine t.la with
        | some (w, e) =>
          let ((res, q), s) := s.atomHere n t.la w e.st m.opnd false (g == w)
          (s.homeData n t res q).homeDone n htid false
        | none =>
          let (d', res) := if p then (Config.poisonLine, Config.poisonLine) else atomApply d m.opnd
          if s.noInstall then ((s.farWriteLine (laLocal t.la) d' p).homeData n t res p).homeDone n htid false
          else match s.fill n t.la (if p then stP else stM) 0 d' p with
            | some s => (((if p then s else s.event n 0x15 1)).homeData n t res p).homeDone n htid false
            | none => s.event n 0x14 1

/-! ### One pass of a request (R62) -/

/-- Row of Table 3.1 for the trace (R455). -/
def Req.row (r : Req) : Nat :=
  if r.src == .maint then 7 else match r.kind with | .read => 1 | .write => 2 | .atomic => 3 | .prefetch => 4

/-- Take a request out of the slice input; it waits no longer for a roster step. -/
def State.dequeue (s : State) (n : Nat) (r : Req) : State :=
  (s.modSlice n fun x => { x with inq := x.inq.erase r }).rosterGone fun h => r.src == .host h.rid

/-- A miss, or a hit that needs a transaction: a register opens and its transaction starts (R67). A miss trains, and a hit on a way of
AGE 3 (R88). -/
def State.missOpen (s : State) (n : Nat) (r : Req) (trains : Bool) : State :=
  match s.mrOpen n r .sent with
  | none => s.noReg n r
  | some (i, s) =>
    let s := (s.dequeue n r).event n (if r.kind == .write then 5 else 3) 1
    let s := if trains then s.train n r else s
    s.mrSend n i

/-- Decide a request whose tag entries are known. -/
def State.judge (s : State) (n : Nat) (r : Req) (guess : Nat) : State :=
  if r.kind == .prefetch then (s.dequeue n r).prefetchLate n r
  else match s.serve n r guess with
  | .served s => s.dequeue n r
  | .wait s => s.event n 0x14 1
  | .needs s trains => s.missOpen n r trains

/-- The request waits in a register until the entry that holds its line is free, and then proceeds as a miss (Table 3.7, R88). -/
def State.waitVb (s : State) (n : Nat) (r : Req) : State :=
  match s.mrOpen n r .waitVb with
  | some (_, s) => ((s.dequeue n r).event n (if r.kind == .write then 5 else 3) 1).train n r
  | none => s.noReg n r

/-- A request that finds its line in the victim buffer (Table 3.7). A copy that a host is granted from the entry is recalled before
the line leaves (R85). A host that reads a local line from its entry is granted I, and no copy is recorded (DESIGN CHOICE, safe:
notes/assumptions/109.md). -/
def State.meetVb (s : State) (n : Nat) (r : Req) (v : Vb) : State :=
  let cls := s.classOf r.la
  match r.kind with
  | .read =>
    if (r.glob && cls != .other) || r.atHome then s.missOpen n r true
    else match s.hostGate r with
    | some s => s.event n 0x14 1
    | none =>
      let val := if cls == .loc then 0 else s.grantVal r false true
      let s := s.stampAdvs r.src (if v.st == stL then v.advs else s.lse.count)
      let s := s.reqDone r (if v.poison || v.st == stP then Config.poisonLine else v.data) (v.poison || v.st == stP) val
      let s := if v.sent && v.action != 0 && !s.noHosts v.la then s.recallAll v.la (.vb n v.idx) else s
      s.dequeue n r
  | .prefetch => (s.dequeue n r).event n 0x0F 1
  | .write =>
    if r.glob && cls != .other then s.missOpen n r true
    else if v.st == stM && !v.sent && cls != .other then
      match s.hostGate r with
      | some s => s.event n 0x14 1
      | none =>
        let p := r.poison || (v.poison && r.be != fullMask)
        ((s.modVb n v.idx fun v => { v with data := mergeBytes v.data r.data r.be, poison := p }).reqDone r 0 false 0).dequeue n r
    else s.waitVb n r
  | .atomic => s.waitVb n r

/-- An access to a flat slot (R22, R29, R99): no tag entry, no register; copies of other hosts go first. An uncorrectable
slot gives poison, and takes a full-line write (DEDUCED, safe: notes/assumptions/44.md). -/
def State.flatPass (s : State) (n : Nat) (r : Req) : State :=
  let (set, w) := flatSlot s.part s.houseWays r.la
  -- where the layout is not known the flat window is answered as HOLD answers (Table 15.2)
  if s.nearFrozen n || !s.layoutKnown then (s.reqFail r .stop).dequeue n r
  else match s.hostGate r with
  | some s => s.event n 0x14 1
  | none =>
    let reads := r.kind != .write || r.be != fullMask
    let (e, s) := if reads then s.readWay n set w false else (ArrErr.none, s)
    let s := if e == .ue then s.ueData n (s.injNear n set w) (slotAddr set w) w else s
    let (d, p) := s.wayGet set w
    let p := p || e == .ue
    let s := match r.kind with
      | .write => (s.wayPut n set w (mergeBytes d r.data r.be) (r.poison || (p && r.be != fullMask))).reqDone r 0 false 0
      | .atomic =>
        if p then s.reqDone r Config.poisonLine true 0
        else
          let (d', res) := atomApply d r.opnd
          (s.wayPut n set w d' false).reqDone r res false 0
      | _ =>
        let own := (s.hsfCopies r.la true).all fun c => some c.link == s.linkOf r
        s.reqDone r (if p then Config.poisonLine else d) p (if !r.copy || p then 0 else if r.excl && own then 2 else 1)
    s.dequeue n r

/-- A request that joins register `m` waits for what the register waits for, and has its additions (Table 9.7): a ticket's reissue, the
transactions ahead of it at this home, or a recall round of the line. -/
def State.joinTime (s : State) (n : Nat) (m : Mr) (r : Req) : State :=
  let bound := (s.bound 2 n).getD 0
  if m.st == .refused then (if m.ticket.isSome then s.extend r.src (2 * (48 * s.domHops) + bound) else s)
  else if m.st == .home then
    match (s.slice n).trks.find? fun t => t.for_ == .own m.idx with
    | none => s
    | some t =>
      if t.ph == .chained then
        s.extend r.src (((s.slice n).trks.filter fun x => x.la == t.la && x.ph != .reserved && x.seq < t.seq).length * bound)
      else if t.hostWait != 0 && s.biOpen m.la false then s.recallWait r.src m.la false
      else s
  else s

/-- A request joins the register open for its line (R75, R77): a prefetch becomes a demand, whatever joins it (DESIGN CHOICE, unsafe:
notes/assumptions/91.md). -/
def State.joinMr (s : State) (n : Nat) (m : Mr) (r : Req) : State :=
  let s := s.modMr n m.idx fun m => { m with secs := m.secs ++ [{ r with dl := some (s.clk, s.paused) }], isPf := false, prim :=
    if m.isPf then { m.prim with kind := .read, stream := r.stream } else m.prim }
  (((s.event n 0x0A 1).classify r.src m.cls).joinTime n m r).dequeue n r

/-- The request misses the tag cache: the tag block, and the predicted way, are read (R48, R55). -/
def State.tagMiss (s : State) (n idx : Nat) (r : Req) : State :=
  let (s, w) := s.tagIssue n (setOf s.part r.la) (some r.la)
  s.modSlice n fun x => { x with tbReads := x.tbReads ++ [rowOf s.part (setOf s.part r.la)], inq := x.inq.set idx { r with tb := some w } }

/-- The pass of the `idx`-th request at the slice input (R61, R62). `tcUe`: the tag-cache entry has a parity error (R52). -/
def State.lookup (s : State) (n idx : Nat) (tcUe : Bool) : State :=
  let x := s.slice n
  match x.inq[idx]? with
  | none => s
  | some r =>
    if (x.inq.take idx).any fun q => q.la == r.la && q.flat == r.flat then s
    else if r.flat then s.flatPass n r
    else
      let s := s.pipe n r.row r.la (if r.stream then 1 else 0)
      -- what the prefetch and allocation registers hold now goes with it (R93)
      let r := if r.ent.isSome then r else { r with ent := some (s.pfc n, s.csrGet (offSlc n 0x108)) }
      let s := s.modSlice n fun x => { x with inq := x.inq.set idx r }
      if s.refusedHere n then
        -- streams still train in HOLD (Table 3.8)
        ((if s.mode == 2 then s.train n r else s).reqFail r .stop).dequeue n r
      else match x.mrs.find? fun m => m.la == r.la with
      | some m =>
        if r.kind == .prefetch then (s.dequeue n r).event n 0x0F 1
        else if 8 ≤ m.secs.length || m.full then (s.modMr n m.idx fun m => { m with full := true }).event n 0x14 1
        else s.joinMr n m r
      | none =>
        match x.vbs.find? fun v => v.la == r.la with
        | some v => s.meetVb n r v
        | none =>
          let set := setOf s.part r.la
          let q := rowOf s.part set
          if s.mode == 1 then s.judge n r 0
          else if r.tb.isSome then s.event n 0x14 1
          else if !s.tccEn n then (s.event n 7 1).tagMiss n idx r
          else
            let alloc (s : State) : State := match s.tcAlloc n q with
              | some s => (s.event n 7 1).tagMiss n idx r
              | none => s.event n 0x14 1
            match x.tcFind q with
            | some (k, t) =>
              if t.pending then s.event n 0x14 1
              else if tcUe then
                alloc ((s.rec_ 0xFF n 0xFFFF set 0).modSlice n fun x => { x with tc := Tab.put none x.tc k none })
              else ((s.modSlice n fun x => x.tcUse k).event n 6 1).judge n r 0
            | none => alloc s

/-- A lookup whose tag block has been read goes on: the predictor learns the way that hit, and a wrong guess is counted (R55, R56). -/
def State.tagsKnown (s : State) (n : Nat) (r : Req) : State :=
  let x := s.slice n
  let g := r.tb.getD 0
  let r := { r with tb := none }
  if s.refusedHere n || (x.mrs.any fun m => m.la == r.la) || (x.vbs.any fun v => v.la == r.la)
    || ((x.inq.takeWhile fun z => z != r).any fun z => z.la == r.la && !z.flat) then s
  else
    let s := match (s.slice n).tcFind (rowOf s.part (setOf s.part r.la)) with
      | some (k, _) => s.modSlice n fun x => x.tcUse k
      | none => s
    let s := match s.matchWay (s.tags n (setOf s.part r.la)) r.la with
      | some w => (if g != 0 && w != g then (s.event n 8 1).guessLost n (setOf s.part r.la) g else s).predict n r.la w
      | none => s.guessLost n (setOf s.part r.la) g
    s.judge n r g

/-- A tag-block read arrives (R48, R55): it fills the pending entry and decides the lookups that wait for the row, in order. With the
tag cache disabled it decides the first lookup of the row that made one (R53). -/
def State.tagsArrive (s : State) (n q : Nat) (te : ArrErr) : State :=
  let x := s.slice n
  if !x.tbReads.contains q then s
  else
    let set := setOfRow s.part n q
    let s := (s.modSlice n fun x => { x with tbReads := x.tbReads.erase q }).tagRead n set te
    let (all, s) := match (s.slice n).tcFind q with
      | some (k, t) =>
        if !t.pending then (false, s)
        else if !s.tccEn n then (true, s.modSlice n fun x => { x with tc := Tab.put none x.tc k none })
        else
          (true, s.modSlice n fun x => { x with tc := Tab.put none x.tc k (some { t with pending := false, blk := s.nearTags set }) })
      | none => (false, s)
    let waiting := (s.slice n).inq.filter fun r => !r.flat && rowOf s.part (setOf s.part r.la) == q && (all || r.tb.isSome)
    let ws := if all then waiting else waiting.take 1
    let s := s.modSlice n fun x => { x with inq := x.inq.map fun r => if ws.contains r then { r with tb := none } else r }
    ws.foldl (fun s r => s.tagsKnown n r) s

end Sys2Proof.Machine
end

