-- ==== Sys2Proof/Machine/Snoop.lean ====
section
/-! DEFINITION. A device as snooped and as requester: INV, FWDS and FWDX (Table 5.9), holds, crossings (R84, R145), and the
answers of homes to its requests (R129, R133, R139, R147, R190). -/

namespace Sys2Proof.Machine

/-- Send a snoop's answer from a line in state `st` (Table 5.9): data goes to REQ, or to the home with DEST_HOME. `ev`: from a
victim-buffer entry whose WBD, with TID `tid`, has been sent (R84); its data then reaches the home when it stays owner of
nothing (DEDUCED, safe: notes/assumptions/19.md). The state the line is left in is returned. -/
def State.snoopSend (s : State) (home : Nat) (m : CohMsg) (st : BitVec 3) (d : Line) (poison ev : Bool) (tid : Nat) : BitVec 3 × State :=
  let p := poison || st == stP
  let toHome : CohMsg := { opc := opACK, req := m.req, tid := if ev then tid else m.tid, htid := m.htid, la := m.la, ev := ev }
  let toReq : CohMsg := { opc := opDATA, req := m.req, tid := m.tid, htid := m.htid, la := m.la, ev := ev, data := d, poison := p }
  let dirty := st == stM || st == stO || st == stP
  if m.opc == opINV then (stI, s.sendCoh home toHome)
  else if !dirty && st != stE then
    (st, (s.rec_ 0x16 (sliceOf m.la) home (64 * m.la) m.opc).sendCoh home { toHome with missF := true })
  else if m.opc == opFWDS then
    if m.destHome then
      let s := s.sendCoh home { toHome with opc := if dirty && !ev then opDATAO else opDATA, data := d, poison := p, kept := dirty && !ev }
      (if m.peek then st else if dirty then (if st == stP then stP else stO) else stS, s)
    else
      let s := s.sendCoh m.req { toReq with grant := 1 }
      let s := if ev then s.sendCoh home { toHome with opc := opDATA, data := d, poison := p }
        else s.sendCoh home { toHome with kept := dirty }
      (if dirty then (if st == stP then stP else stO) else stS, s)
  else if m.destHome then (stI, s.sendCoh home { toHome with opc := opDATA, data := d, poison := p })
  else (stI, (s.sendCoh m.req { toReq with grant := if dirty then 3 else 2 }).sendCoh home toHome)

/-- No copy and no victim-buffer entry: ACK with MISS (R132). -/
def State.snoopMiss (s : State) (home : Nat) (m : CohMsg) : State :=
  s.sendCoh home { opc := opACK, missF := true, req := m.req, tid := m.tid, htid := m.htid, la := m.la }

/-- A register that awaits the answer to a UPG loses its line (R133). -/
def State.markLost (s : State) (n la : Nat) : State :=
  s.modSlice n fun x => { x with mrs := x.mrs.map fun m => if m.la == la && m.opc == opUPG then { m with upgLost := true } else m }

/-- A register of the line holds a grant that is not installed yet, or a request that was there when the grant came (R134). -/
def State.granted (s : State) (n la : Nat) : Bool :=
  s.classOf la == .domRemote && (s.slice n).mrs.any fun r =>
    r.la == la && ((r.st == .answered && r.grant != 0) || (r.st == .hosts && r.won != 0))

/-- Handle a snoop from the line's state at this moment (R132), bringing hosts into line first (R144). -/
def State.snoop (s : State) (home : Nat) (m : CohMsg) : State :=
  let n := sliceOf m.la
  let x := s.slice n
  let wait (s : State) : State := s.modSlice n fun x => { x with waitSnoops := x.waitSnoops ++ [{ la := m.la, src := home, msg := m }] }
  let leavesI := m.opc == opINV || m.opc == opFWDX
  match x.holds.find? fun h => h.la == m.la && s.clk < h.until_ with
  | some _ =>
    (s.modSlice n fun x => { x with holds := x.holds.map fun h =>
      if h.la == m.la then { h with snoops := h.snoops ++ [(home, m)] } else h }).event n 0x17 1
  | none =>
    if s.granted n m.la then wait s
    else match x.vbs.find? fun v => v.la == m.la with
    | some v =>
      if !s.noHosts m.la && v.sent then wait (s.recallAll m.la (.snoop n m.la))
      else if v.sent && v.action == 2 then
        ((s.snoopSend home m v.st v.data v.poison true (tidVb n v.idx)).2.vbFree n v.idx).wakeVb n
      else if !s.noHosts m.la then wait (s.vbGo n v.idx)
      else
        let (st, s) := s.snoopSend home m v.st v.data v.poison false 0
        if st == stI then (s.vbFree n v.idx).wakeVb n
        else ((s.modVb n v.idx fun v => { v with st := st, action := if st == stS || st == stE then 1 else 2 }).vbGo n v.idx).wakeVb n
    | none =>
      if s.tagWaits n (setOf s.part m.la) then
        (s.modSlice n fun x => { x with waitSnoops := x.waitSnoops ++ [{ la := m.la, src := home, msg := m, tag := true }] }).event n 0x14 1
      else
      let (g, s) := if s.nearFrozen n then (0, s) else s.touchLine 6 m.la
      match s.findLine m.la with
      | none => s.snoopMiss home m
      | some (w, e) =>
        if leavesI && !s.noHosts m.la then
          wait (s.recallAll m.la (if m.discard then .drop else .snoop n m.la))
        else if !leavesI && !s.noHostEM m.la then wait (s.recallEM m.la (.snoop n m.la))
        else
          let set := setOf s.part m.la
          -- the data way is read for what sends it
          let s := if m.opc == opINV || e.st == stS then s else s.wayCheck n m.la w e.st (g == w)
          match s.findLine m.la with
          | none => (s.snoopMiss home m).markLost n m.la
          | some (w, e) =>
            let (d, p) := s.wayGet set w
            let (st, s) := s.snoopSend home m e.st d p false 0
            if st == stI then (s.dropLine n m.la w true).markLost n m.la
            else if st == e.st then s
            else s.setLineState n m.la w st

/-- A snoop arrives from the fabric (R15, R132): only from the line's home, a member of this E9's domain. -/
def State.snoopArrive (s : State) (src : Nat) (m : CohMsg) : State :=
  let s := s.consumeCoh src m
  if !s.powered then s
  else if !(s.peerNode src && s.dom.st == 2 && laNode m.la == src && src != s.nodeNo) then
    s.rec_ 0x16 (sliceOf m.la) src (64 * m.la) m.opc
  else s.snoop src m

/-- A hold's end: the snoops deferred in it are answered (R134). -/
def State.holdEnd (s : State) (n la : Nat) : State :=
  match (s.slice n).holds.find? fun h => h.la == la && h.until_ ≤ s.clk with
  | none => s
  | some h =>
    h.snoops.foldl (fun s (k, m) => s.snoop k m) (s.modSlice n fun x => { x with holds := x.holds.filter fun h => h.la != la })

/-- Snoops of a line that waited for hosts go on (R144). -/
def State.snoopsResume (s : State) (n la : Nat) : State :=
  let ws := (s.slice n).waitSnoops.filter fun w => w.la == la
  ws.foldl (fun s w => s.snoop w.src w.msg) (s.modSlice n fun x => { x with waitSnoops := x.waitSnoops.filter fun w => w.la != la })

/-- The tag block of a row has come: snoops and home requests that waited for tags try again, and wait on where theirs have not (R48,
R50). -/
def State.tagsResume (s : State) (n : Nat) : State :=
  let ws := (s.slice n).waitSnoops.filter (·.tag)
  let s := ws.foldl (fun s w => s.snoop w.src w.msg) (s.modSlice n fun x => { x with waitSnoops := x.waitSnoops.filter fun w => !w.tag })
  ((s.slice n).trks.filter fun t => t.ph == .tags).foldl (fun s t => s.homeTry n t.htid) s

/-! ### Answers to this E9's requests -/

/-- A victim-buffer entry's message has been answered: the entry is freed once the copies granted from it are gone (R85), and what it
held back may go (R139). -/
def State.vbEnd (s : State) (n : Nat) (v : Vb) : State :=
  let s := ((s.modVb n v.idx fun v => { v with done := true, refSeq := 0 }).vbGo n v.idx).wakeVb n
  if v.refSeq != 0 then s.release n (laNode v.la) opGWR else s

/-- The register a message's TID names, when it awaits an answer for the line. A refusal that may also name an early-acknowledged write is
the register's (DESIGN CHOICE, unsafe: notes/assumptions/110.md). -/
def State.mrNamed (s : State) (m : CohMsg) : Option Mr :=
  if 4096 ≤ m.tid then none
  else match s.mr (m.tid / 64 % 64) (m.tid % 64) with
    | some r => if r.la == m.la && r.st == .sent then some r else none
    | none => none

/-- The victim-buffer entry a message's TID names. -/
def State.vbNamed (s : State) (m : CohMsg) : Option Vb :=
  if m.tid < 4096 then none
  else match s.vb (m.tid / 64 % 64) (m.tid % 64) with
    | some v => if v.la == m.la && v.sent && !v.done then some v else none
    | none => none

/-- The confirming ACK of a grant (R129). -/
def State.confirm (s : State) (m : CohMsg) : State :=
  s.sendCoh (laNode m.la) { opc := opACK, tid := m.tid, req := s.nodeNo, htid := m.htid, la := m.la }

/-- ACK: a snoop answer or confirmation at the home; at a requester a grant, a write's acknowledgement or that of a WBD. -/
def State.ackArrive (s : State) (src : Nat) (m : CohMsg) : State :=
  let s := s.consumeCoh src m
  let n := sliceOf m.la
  if !s.powered then s
  else if laNode m.la == s.nodeNo then s.homeAnswer src m
  else match s.vbNamed m with
    | some v => if v.action == 2 then s.vbEnd n v else s
    | none =>
      match s.mrNamed m with
      | some r => if m.grant != 0 && r.opc != opIWR then (s.mrAnswer n r.idx m.grant none).confirm m else s.writeDone m.tid m.la
      | none => s.writeDone m.tid m.la

/-- DATA: an owner's answer at the home; at a requester the data of a read, with its grant, or an atomic's result. A
register whose UPG has not been lost takes no DATA (R133). -/
def State.dataArrive (s : State) (src : Nat) (m : CohMsg) : State :=
  let s := s.consumeCoh src m
  let n := sliceOf m.la
  if !s.powered then s
  else if laNode m.la == s.nodeNo then s.homeAnswer src m
  else match s.mrNamed m with
    | some r =>
      if r.opc == opUPG && !r.upgLost && r.prim.be != fullMask then s.rec_ 0x16 n src (64 * m.la) m.opc
      else
        let s := s.mrAnswer n r.idx m.grant (some (m.data, m.poison))
        if m.grant != 0 then s.confirm m else s
    | none => s

/-- DATAO reaches the home only (R131). -/
def State.dataoArrive (s : State) (src : Nat) (m : CohMsg) : State :=
  let s := s.consumeCoh src m
  if s.powered && laNode m.la == s.nodeNo then s.homeAnswer src m else s

/-- RETRY (R139, R140). -/
def State.retryArrive (s : State) (src : Nat) (m : CohMsg) : State :=
  let s := s.consumeCoh src m
  let t := if m.tkt then some m.htid else none
  if !s.powered then s
  else match s.mrNamed m with
    | some r => s.mrRefused (sliceOf m.la) r.idx t
    | none => s.outRefused (sliceOf m.la) m.tid m.la t

/-- An early-acknowledged write ends in failure (R127, R191): every such write is one of the global window or a porter. -/
def State.outDrop (s : State) (n : Nat) (o : OutW) (why : Why) : State :=
  let s := s.modSlice n fun x => { x with outw := x.outw.filter fun p => p.id != o.id }
  let r : Req := { src := o.src, kind := .write, la := o.la, aid := o.aid, link := o.link, glob := true }
  let s := o.more.foldl (fun s a => s.accDone a) (s.reqFail r why)
  if o.refSeq != 0 then s.release n o.home o.msg.opc else s

/-- The same for the first that is in flight with this TID and line (DESIGN CHOICE, unsafe: notes/assumptions/110.md). -/
def State.outEnd (s : State) (n tid la : Nat) (why : Why) : State :=
  match (s.slice n).outw.find? fun o => o.tid == tid && o.la == la && o.early && o.flying with
  | none => s
  | some o => s.outDrop n o why

/-- What an answer tells of another node's domain: known to be DOWN from a NACK-DOWN until a later access there is performed (R90;
DESIGN CHOICE, safe: notes/assumptions/99.md). -/
def State.domKnown (s : State) (d : Nat) (down : Bool) : State :=
  let ds := s.rtr.downDoms.filter (· != d)
  { s with rtr := { s.rtr with downDoms := if down then ds ++ [d] else ds } }

/-- NACK-DOWN or NACK-RANGE ends the request, write-back or write-through it answers (R127, R147, Table 3.5). -/
def State.nackArrive (s : State) (src : Nat) (m : CohMsg) (why : Why) : State :=
  let s := s.consumeCoh src m
  let n := sliceOf m.la
  if !s.powered then s
  else
    let s := if why == .down then s.domKnown (src / 128) true else s
    match s.vbNamed m with
    | some v => (s.rec_ 0x10 n src (64 * m.la) opGWR).vbEnd n v
    | none =>
      match s.mrNamed m with
      | some r => s.mrEnd n r.idx why
      | none => s.outEnd n m.tid m.la why

/-- GDATA (R180): the data of a global read, or an atomic's result. -/
def State.gdataArrive (s : State) (src : Nat) (m : CohMsg) : State :=
  let s := s.consumeCoh src m
  if !s.powered then s
  else
    let s := s.domKnown (src / 128) false
    match s.mrNamed m with
    | some r => s.mrAnswer (sliceOf m.la) r.idx 0 (some (m.data, m.poison))
    | none => s

/-- GACK (R190): a global write, or a victim-buffer entry's write-through, has been performed. -/
def State.gackArrive (s : State) (src : Nat) (m : CohMsg) : State :=
  let s := s.consumeCoh src m
  let n := sliceOf m.la
  if !s.powered then s
  else
    let s := s.domKnown (src / 128) false
    match s.vbNamed m with
    | some v => s.vbEnd n v
    | none => s.writeDone m.tid m.la

/-- GBUSY (R181). -/
def State.gbusyArrive (s : State) (src : Nat) (m : CohMsg) : State :=
  let s := s.consumeCoh src m
  let n := sliceOf m.la
  if !s.powered then s
  else match s.vbNamed m with
    | some v =>
      let s := s.modVb n v.idx fun v => { v with refused := true, gapEnd := s.gapFrom v.gap, refSeq := if v.refSeq == 0 then (s.slice n).nextRef else v.refSeq }
      s.modSlice n fun x => { x with nextRef := x.nextRef + 1 }
    | none =>
      match s.mrNamed m with
      | some r => s.mrRefused n r.idx none
      | none => s.outRefused n m.tid m.la none

/-! ### Deadlines (R182, R328) -/

/-- Eight beats of the fabric deadline in core clocks. -/
def deadlineClks : Nat := 16384

/-- The fabric deadline of a register or a victim-buffer entry's write-through (R182, R249, R368). It governs global accesses,
global-window accesses of own-domain lines on other nodes, porter pieces and table reads. -/
def State.governed (s : State) (r : Req) : Bool :=
  s.classOf r.la == .other || (s.classOf r.la == .domRemote && (r.glob ||
    (match r.src with | .piece _ _ => true | .walker _ _ => true | _ => false)))
/-- A register ends at its primary's deadline. One whose primary has none goes on, and each secondary ends at its own. -/
def State.deadlineMr (s : State) (n i : Nat) : State :=
  match s.mr n i with
  | none => s
  | some m =>
    let late (r : Req) : Bool := s.governed r && (match r.dl with | some (t, p) => decide (deadlineClks ≤ s.ran t p) | none => false)
    if !(m.st == .sent || m.st == .refused || m.st == .heldBack) then s
    else if s.governed m.prim then
      (if deadlineClks ≤ s.ran m.t0 m.paused0 then (s.mrEnd n i .dead).markUnreach (laNode m.la) else s)
    else if m.secs.any late then
      ((m.secs.filter late).foldl (fun s r => s.reqFail r .dead)
        (s.modMr n i fun m => { m with secs := m.secs.filter fun r => !late r })).markUnreach (laNode m.la)
    else s
def State.deadlineVb (s : State) (n i : Nat) : State :=
  match s.vb n i with
  | none => s
  | some v =>
    if v.action == 3 && v.sent && !v.done && deadlineClks ≤ s.ran v.t0 v.paused0 then
      ((s.rec_ 0x12 n (laNode v.la) (64 * v.la) 0).vbEnd n v).markUnreach (laNode v.la)
    else s

/-- The same for an early-acknowledged write of a porter, or a device store of a host (DEV_EA), whose register is free (R182, R190). -/
def State.deadlineOut (s : State) (n i : Nat) : State :=
  match (s.slice n).outw.find? fun o => o.early && o.tid == tidMr n i && (match o.src with | .piece _ _ => true | .host _ => true | _ => false) with
  | none => s
  | some o => if s.ran o.t0 o.paused0 < deadlineClks then s else (s.outDrop n o .dead).markUnreach o.home

/-- COH_TIMEOUT of a register, tracker or recall tracker that waits for one message of one node (R328). -/
def State.cohWaitMr (s : State) (n i : Nat) : State :=
  match s.mr n i with
  | none => s
  | some m =>
    if m.st == .sent && s.classOf m.la == .domRemote && !m.prim.glob && s.cohTimeout * 1024 ≤ s.mtu.mt - m.since then
      s.fatal n (laNode m.la)
    else s
def State.cohWaitTrk (s : State) (n htid : Nat) : State :=
  match s.trk n htid with
  | none => s
  | some t =>
    let long (t0 : Nat) : Bool := s.cohTimeout * 1024 ≤ s.mtu.mt - t0
    if ((!t.invWait.isEmpty || t.fwdWait.isSome) && long t.since) || (t.offerWait.isSome && long t.offerAt)
        || (t.wbdDrop.isSome && long t.wbdAt) || (t.ph == .cnf && !t.confirmed && long t.cnfAt) then s.fatal (136 + n / 4) t.la else s

/-! ### The commands -/

def execRds (src : Nat) (m : CohMsg) (fd : Finds) (s : State) : Host.Outcome State Fault Refusal :=
  .next (s.finding fd fun s => s.homeRequest src { m with opc := opRDS })
def execRdx (src : Nat) (m : CohMsg) (fd : Finds) (s : State) : Host.Outcome State Fault Refusal :=
  .next (s.finding fd fun s => s.homeRequest src { m with opc := opRDX })
def execUpg (src : Nat) (m : CohMsg) (fd : Finds) (s : State) : Host.Outcome State Fault Refusal :=
  .next (s.finding fd fun s => s.homeRequest src { m with opc := opUPG })
def execWbd (src : Nat) (m : CohMsg) (fd : Finds) (s : State) : Host.Outcome State Fault Refusal :=
  .next (s.finding fd fun s => s.homeRequest src { m with opc := opWBD })
def execOffer (src : Nat) (m : CohMsg) (fd : Finds) (s : State) : Host.Outcome State Fault Refusal :=
  .next (s.finding fd fun s => s.homeRequest src { m with opc := opOFFER })
def execIwr (src : Nat) (m : CohMsg) (fd : Finds) (s : State) : Host.Outcome State Fault Refusal :=
  .next (s.finding fd fun s => s.homeRequest src { m with opc := opIWR })
def execAtom (src : Nat) (m : CohMsg) (fd : Finds) (s : State) : Host.Outcome State Fault Refusal :=
  .next (s.finding fd fun s => s.homeRequest src { m with opc := opATOM })
def execDirectoryStoreReadDone (n htid : Nat) (errs : List ArrErr) (fd : Finds) (s : State) : Host.Outcome State Fault Refusal :=
  .next (s.finding fd fun s => s.dirReadDone n htid errs)
def execChainedRequestStart (n la : Nat) (fd : Finds) (s : State) : Host.Outcome State Fault Refusal :=
  .next (s.finding fd fun s => s.chainStart n la)
def execTicketExpiry (n htid : Nat) (s : State) : Host.Outcome State Fault Refusal := .next (s.ticketExpire n htid)
def execInv (src : Nat) (m : CohMsg) (fd : Finds) (s : State) : Host.Outcome State Fault Refusal :=
  .next (s.finding fd fun s => s.snoopArrive src { m with opc := opINV })
def execFwds (src : Nat) (m : CohMsg) (fd : Finds) (s : State) : Host.Outcome State Fault Refusal :=
  .next (s.finding fd fun s => s.snoopArrive src { m with opc := opFWDS })
def execFwdx (src : Nat) (m : CohMsg) (fd : Finds) (s : State) : Host.Outcome State Fault Refusal :=
  .next (s.finding fd fun s => s.snoopArrive src { m with opc := opFWDX })
def execHoldExpiry (n la : Nat) (fd : Finds) (s : State) : Host.Outcome State Fault Refusal := .next (s.finding fd fun s => s.holdEnd n la)
def execAck (src : Nat) (m : CohMsg) (fd : Finds) (s : State) : Host.Outcome State Fault Refusal :=
  .next (s.finding fd fun s => s.ackArrive src { m with opc := opACK })
def execData (src : Nat) (m : CohMsg) (fd : Finds) (s : State) : Host.Outcome State Fault Refusal :=
  .next (s.finding fd fun s => s.dataArrive src { m with opc := opDATA })
def execDatao (src : Nat) (m : CohMsg) (fd : Finds) (s : State) : Host.Outcome State Fault Refusal :=
  .next (s.finding fd fun s => s.dataoArrive src { m with opc := opDATAO })
def execRetry (src : Nat) (m : CohMsg) (s : State) : Host.Outcome State Fault Refusal := .next (s.retryArrive src { m with opc := opRETRY })
def execRetryGapExpiry (n home opc : Nat) (s : State) : Host.Outcome State Fault Refusal := .next (s.gapExpiry n home opc)
def execNackDown (src : Nat) (m : CohMsg) (fd : Finds) (s : State) : Host.Outcome State Fault Refusal :=
  .next (s.finding fd fun s => s.nackArrive src { m with opc := opNACKDOWN } .down)
def execNackRange (src : Nat) (m : CohMsg) (fd : Finds) (s : State) : Host.Outcome State Fault Refusal :=
  .next (s.finding fd fun s => s.nackArrive src { m with opc := opNACKRANGE } .range)
def execGrd (src : Nat) (m : CohMsg) (fd : Finds) (s : State) : Host.Outcome State Fault Refusal :=
  .next (s.finding fd fun s => s.globRequest src { m with opc := opGRD })
def execGwr (src : Nat) (m : CohMsg) (fd : Finds) (s : State) : Host.Outcome State Fault Refusal :=
  .next (s.finding fd fun s => s.globRequest src { m with opc := opGWR })
def execGatom (src : Nat) (m : CohMsg) (fd : Finds) (s : State) : Host.Outcome State Fault Refusal :=
  .next (s.finding fd fun s => s.globRequest src { m with opc := opGATOM })
def execGdata (src : Nat) (m : CohMsg) (s : State) : Host.Outcome State Fault Refusal := .next (s.gdataArrive src { m with opc := opGDATA })
def execGack (src : Nat) (m : CohMsg) (fd : Finds) (s : State) : Host.Outcome State Fault Refusal :=
  .next (s.finding fd fun s => s.gackArrive src { m with opc := opGACK })
def execGbusy (src : Nat) (m : CohMsg) (s : State) : Host.Outcome State Fault Refusal := .next (s.gbusyArrive src { m with opc := opGBUSY })

/-- COH_TIMEOUT (R328). -/
def execCohTimeout (w : CohWait) (s : State) : Host.Outcome State Fault Refusal :=
  .next (match w with
    | .mr n r => s.cohWaitMr n r
    | .tracker n h => s.cohWaitTrk n h
    | .recall b r =>
      match (s.bank b).recalls.find? fun x => x.1 == r with
      | some (_, n, _) => s.cohWaitTrk n (htidRecall r)
      | none => s)

/-- MEMORY_READ_DONE (R67). -/
def execMemoryReadDone (tok : Nat) (fd : Finds) (s : State) : Host.Outcome State Fault Refusal :=
  .next (s.finding fd fun s => s.memDone tok)

end Sys2Proof.Machine
end

