-- ==== Sys2Proof/Machine/SliceCmds.lean ====
section
/-! DEFINITION. The commands of a slice's own structures: the passes of its tag pipeline, fills, way retirement, and the
actions of its registers (chapters 2 to 4). -/

namespace Sys2Proof.Machine

/-- Slice `n` exists and works. -/
def State.sliceOn (s : State) (n : Nat) : Bool := s.powered && n < 64

/-- Retire way `w` of a set once it may go (R110, R79); in HOLD, and beside a frozen near channel, tag blocks stay as they are (R108,
R275). A way that is being converted retires no more (R37, R100). -/
def State.wayRetire (s : State) (n set w : Nat) : State :=
  if !((s.slice n).retireDue.contains (set, w)) || s.refusedHere n then s
  else match s.touchSet n set with
  | none => s.event n 0x14 1
  | some s =>
    let b := s.tags n set
    let e := b.get w
    let done (s : State) : State := s.modSlice n fun x => { x with retireDue := x.retireDue.erase (set, w) }
    if !s.stayWay w || e.st == stX then done s
    else if s.valid e && s.busyLine n (lineOf s.part set e.tag) then s
    else if !s.otherFree b w then (done s).rec_ 0x05 n 0xFFFF set (set * 16 + w)
    else match s.evictWay n set w with
      | none => s
      | some s =>
        let s := s.putEnt n set w { st := stX }
        let r := s.setRec set
        ((done s).putRec n set { r with retire := r.retire ||| BitVec.ofNat 14 (2 ^ (w - 1)) }).rec_ 0x04 n 0xFFFF set (set * 16 + w)

/-- Start a tag-cache action (R58): its walk begins at set 0. With `inv` the entries valid now are to leave
(DEDUCED, unsafe: notes/assumptions/26.md). -/
def State.tcAction (s : State) (n : Nat) (inv : Bool) : State :=
  s.modSlice n fun x =>
    { x with tcBusy := true, tcPos := 0, tcOut := [], tc := if inv then x.tc.map fun (k, v) => (k, v.map TcEnt.mark) else x.tc }

/-- TAG_PIPELINE_LOOKUP (R61, R62). -/
def execTagPipelineLookup (n idx : Nat) (hsfUe : Bool) (fd : Finds) (s : State) : Host.Outcome State Fault Refusal :=
  .next (if !s.sliceOn n then s
    else
      -- an uncorrectable HSF entry is a fatal internal error (R404)
      let s := match (s.slice n).inq[idx]? with
        | some r => if hsfUe || s.met 5 (fld (s.csrGet (offRas 0x10)) 0 8) r.la .none == ArrErr.ue then s.fatalErr 152 (s.injected 5 (fld (s.csrGet (offRas 0x10)) 0 8) r.la) n else s
        | none => s
      s.finding fd fun s => s.lookup n idx fd.tcUe)

/-- TAG_BLOCK_READ_DONE (R48, R55). -/
def execTagBlockReadDone (n q : Nat) (te : ArrErr) (fd : Finds) (s : State) : Host.Outcome State Fault Refusal :=
  .next (if s.sliceOn n then s.finding fd fun s => (s.tagsArrive n q te).tagsResume n else s)

/-- A register's fill, and then the snoops of its line that came after the grant (R134). -/
def State.fillDone (s : State) (n i : Nat) : State :=
  match s.mr n i with
  | none => s
  | some m =>
    if m.st != .answered && m.st != .hosts then s
    else
      let s := s.fillMr n i
      if s.granted n m.la then s else s.snoopsResume n m.la

/-- FILL_INSTALL (R76, R78, R81): of miss register `i`, or, from 64 on, of home tracker `i - 64` (R74) (DESIGN CHOICE, safe: notes/assumptions/80.md). -/
def execFillInstall (n i : Nat) (fd : Finds) (s : State) : Host.Outcome State Fault Refusal :=
  .next (if !s.sliceOn n then s else s.finding fd fun s => if i < 64 then s.fillDone n i else s.fillTrk n (i - 64))

/-- WAY_RETIRE (R110). -/
def execWayRetire (n set way : Nat) (fd : Finds) (s : State) : Host.Outcome State Fault Refusal :=
  .next (if s.sliceOn n then s.finding fd fun s => s.wayRetire n set way else s)

/-- INVALIDATE (R58): ignored while an action is in progress. -/
def execInvalidate (n : Nat) (s : State) : Host.Outcome State Fault Refusal :=
  .next (if s.sliceOn n && !(s.slice n).tcBusy then s.tcAction n true else s)

/-- FLUSH (R58): ignored while an action is in progress. -/
def execFlush (n : Nat) (s : State) : Host.Outcome State Fault Refusal :=
  .next (if s.sliceOn n && !(s.slice n).tcBusy then s.tcAction n false else s)

/-- TAG_CACHE_DISABLE (R53, R58): SLC[n]_TCC.EN is an RWL field. Every write of 0 invalidates; one during an action starts it anew
(DESIGN CHOICE, unsafe: notes/assumptions/93.md). -/
def execTagCacheDisable (n : Nat) (s : State) : Host.Outcome State Fault Refusal :=
  .next (if s.sliceOn n && s.rwlOpen then
    (s.tcAction n true).csrPut (offSlc n 8) (setFld (s.csrGet (offSlc n 8)) 0 1 0) else s)

/-- TAG_CACHE_ACTION_DONE (R58): not before the walk has visited its 2,048 sets, and the NMC has accepted every write-back that it
issued. -/
def execTagCacheActionDone (n : Nat) (s : State) : Host.Outcome State Fault Refusal :=
  .next (if s.sliceOn n && (s.slice n).tcBusy && 2048 ≤ (s.slice n).tcPos
      && !((List.range 2).any fun u => (s.cunit (nmcOf s.part n) u).hold.any fun r => (s.slice n).tcOut.contains r.seq) then
    s.modSlice n fun x => { x with tcBusy := false, tcOut := [] } else s)

/-- WAY_PREDICTOR_CLEAR (R59). -/
def execWayPredictorClear (n : Nat) (s : State) : Host.Outcome State Fault Refusal :=
  .next (if s.sliceOn n then s.modSlice n fun x => { x with wp := [], wpClk := s.clk + 1 } else s)

/-- STREAM_TABLE_CLEAR (R91). -/
def execStreamTableClear (n : Nat) (s : State) : Host.Outcome State Fault Refusal :=
  .next (if s.sliceOn n then s.modSlice n fun x => { x with streams := List.replicate 32 none } else s)

/-- MR_HWM_RESET (Table 3.11). -/
def execMrHwmReset (n : Nat) (s : State) : Host.Outcome State Fault Refusal :=
  .next (if s.sliceOn n then s.modSlice n fun x => { x with mrHwm := x.mrs.length } else s)

/-- VB_HWM_RESET (Table 3.12). -/
def execVbHwmReset (n : Nat) (s : State) : Host.Outcome State Fault Refusal :=
  .next (if s.sliceOn n then s.modSlice n fun x => { x with vbHwm := x.vbs.length } else s)

end Sys2Proof.Machine
end

