-- ==== Sys2Proof/Machine/Xlt.lean ====
section
/-! DEFINITION. The translation units: TLBs, walk caches, jobs and the queue (R287, R292–R302). The walks themselves are in
Walk.lean. -/

namespace Sys2Proof.Machine

/-- A fresh number for a host request, a translation job or a walker. -/
def State.newId (s : State) : Nat × State := (s.nextRid, { s with nextRid := s.nextRid + 1 })

/-! ### Reference bits (R294, as R50) -/

/-- Use entry `i` of the `n` entries from `base`: set its bit; when all would be set, clear the others. -/
def refUse {α : Type} [DecidableEq α] (ref : α → Bool) (set : α → Bool → α) (t : Tab (Option α)) (base n i : Nat) : Tab (Option α) :=
  let refAt (j : Nat) : Bool := match Tab.get none t (base + j) with | some e => ref e | none => false
  let all := (List.range n).all fun j => j == i || refAt j
  (List.range n).foldl (fun t j =>
    match Tab.get none t (base + j) with
    | some e => Tab.put none t (base + j) (some (set e (if j == i then true else if all then false else ref e)))
    | none => t) t

/-- The lowest-numbered entry whose reference bit is 0 (DEDUCED, unsafe: notes/assumptions/23.md). -/
def refVictim {α : Type} (ref : α → Bool) (t : Tab (Option α)) (base n : Nat) : Nat :=
  ((List.range n).find? fun j => match Tab.get none t (base + j) with | some e => !ref e | none => true).getD 0

def TlbEnt.useIn (t : Tab (Option TlbEnt)) (base n i : Nat) : Tab (Option TlbEnt) :=
  refUse (·.ref) (fun e r => { e with ref := r }) t base n i

/-- Put a leaf in place of the victim, or of the entry that already covers its address. -/
def TlbEnt.putIn (t : Tab (Option TlbEnt)) (base n : Nat) (e : TlbEnt) : Tab (Option TlbEnt) :=
  let same := (List.range n).find? fun j =>
    match Tab.get none t (base + j) with
    | some o => o.ctx == e.ctx && o.p == e.p && o.va == e.va
    | none => false
  let i := same.getD (refVictim (·.ref) t base n)
  TlbEnt.useIn (Tab.put none t (base + i) (some e)) base n i

/-! ### Matching -/

def TlbEnt.covers (e : TlbEnt) (ctx va : Nat) : Bool := e.ctx == ctx && va / 2 ^ e.p == e.va / 2 ^ e.p
def WcEnt.covers (e : WcEnt) (ctx va : Nat) : Bool := e.ctx == ctx && va / 2 ^ (9 * e.k + 12) == e.va / 2 ^ (9 * e.k + 12)

/-- An entry has not aged out (R296; DEDUCED, safe: notes/assumptions/27.md). -/
def State.young (s : State) (ctx beat : Nat) : Bool := s.beat ≤ beat + s.ctxMaxAge ctx

/-- A leaf may serve an access: a write needs W and D (R289). -/
def TlbEnt.serves (e : TlbEnt) (wr : Bool) : Bool := !wr || (e.w && e.d)

/-- The page is a device page: by its leaf, or by an enabled device range that it overlaps (R286). -/
def State.devPage (s : State) (e : TlbEnt) : Bool :=
  e.dev || (List.range 8).any fun j =>
    let v := s.csrGet (offDevr j)
    let k := clampN (fld v 57 6) 12 42
    let b := fld v 12 45 * 4096 / 2 ^ k * 2 ^ k
    fbit v 63 && e.ma < b + 2 ^ k && b < e.ma + 2 ^ e.p

/-- Set of a leaf in the L2 TLB (R294). -/
def l2Set (ctx va p : Nat) : Nat := (va / 2 ^ p % 1024) ^^^ (ctx % 1024)

/-- The entry among `n` from `base` that serves the access. -/
def State.tlbScan (s : State) (t : Tab (Option TlbEnt)) (base n ctx va : Nat) (wr : Bool) : Option (Nat × TlbEnt) :=
  (List.range n).findSome? fun i =>
    match Tab.get none t (base + i) with
    | some e => if e.covers ctx va && s.young ctx e.beat && e.serves wr then some (i, e) else none
    | none => none

/-- Install a leaf in the L1 TLB of the request's kind; a device page goes to the descriptor TLB (R293). -/
def State.l1Put (s : State) (x : Nat) (e : TlbEnt) (sync : Bool) : State :=
  let t := s.xlt x
  if sync || s.devPage e then s.setXlt x { t with l1s := TlbEnt.putIn t.l1s 0 32 { e with ref := false } }
  else s.setXlt x { t with l1d := TlbEnt.putIn t.l1d 0 64 { e with ref := false } }

/-- Install a leaf in the L2 TLB. -/
def State.l2Put (s : State) (x : Nat) (e : TlbEnt) : State :=
  let t := s.xlt x
  s.setXlt x { t with l2 := TlbEnt.putIn t.l2 (8 * l2Set e.ctx e.va e.p) 8 e }

/-- A lookup of a TLB or a walk cache meets an entry with a parity error, `bad`: the entry is dropped, with a record (R297). -/
def State.parity (s : State) (x va : Nat) (bad : Bool) (hit : Option Nat) (drop : Nat → Xlt → Xlt) : State :=
  match hit with
  | some i => if bad then (s.setXlt x (drop i (s.xlt x))).rec_ 0xFF (170 + x) 0xFFFF va 0 else s
  | none => s

/-- The entry of an L1 TLB that serves an access. -/
def State.l1Scan (s : State) (x ctx va : Nat) (wr sync : Bool) : Option (Nat × TlbEnt) :=
  s.tlbScan (if sync then (s.xlt x).l1s else (s.xlt x).l1d) 0 (if sync then 32 else 64) ctx va wr

/-- The entry of the L2 TLB that does, by its place. -/
def State.l2Scan (s : State) (x ctx va : Nat) (wr : Bool) : Option (Nat × TlbEnt) :=
  [12, 21, 30, 39].findSome? fun p =>
    (s.tlbScan (s.xlt x).l2 (8 * l2Set ctx va p) 8 ctx va wr).bind fun (i, e) =>
      if e.p == p then some (8 * l2Set ctx va p + i, e) else none

/-- Look a page up in the TLBs (R293): the L1 of the request's kind, then L2. -/
def State.tlbLook (s : State) (x ctx va : Nat) (wr sync : Bool) : Option TlbEnt × State :=
  let s := s.parity x va s.finds.tlb1 ((s.l1Scan x ctx va wr sync).map (·.1)) fun i t =>
    if sync then { t with l1s := Tab.put none t.l1s i none } else { t with l1d := Tab.put none t.l1d i none }
  match s.l1Scan x ctx va wr sync with
  | some (i, e) =>
    let t := s.xlt x
    let t' : Xlt := if sync then { t with l1s := TlbEnt.useIn t.l1s 0 32 i } else { t with l1d := TlbEnt.useIn t.l1d 0 64 i }
    (some e, (s.setXlt x t').event (170 + x) 1 1)
  | none =>
    let s := s.parity x va s.finds.tlb2 ((s.l2Scan x ctx va wr).map (·.1)) fun i t => { t with l2 := Tab.put none t.l2 i none }
    match s.l2Scan x ctx va wr with
    | some (i, e) =>
      let t := s.xlt x
      let s := s.setXlt x { t with l2 := TlbEnt.useIn t.l2 (i / 8 * 8) 8 (i % 8) }
      (some e, (s.l1Put x e sync).event (170 + x) 2 1)
    | none => (none, s)

/-! ### Jobs (R287) -/

/-- The walk queue's entries. -/
def Xlt.queued (x : Xlt) : Nat := (x.jobs.filter fun j => j.queued && j.walker.isNone).length

/-- Two jobs name one page of one context. -/
def samePage (c1 v1 c2 v2 : Nat) : Bool := c1 == c2 && v1 / 4096 == v2 / 4096

/-- A miss: it joins a queued or running walk of its page, or takes a place in the queue, or waits at its source. -/
def State.xmiss (s : State) (x ctx va : Nat) (wr sync : Bool) (f : XFor) (src : Nat) : State :=
  let t := s.xlt x
  let w := (t.walkers.find? fun w => samePage w.ctx w.va ctx va).map (·.w)
  let joins := w.isSome || t.jobs.any fun j => samePage j.ctx j.va ctx va
  let (id, s) := s.newId
  let j : XJob := { id := id, x := x, ctx := ctx, va := va, wr := wr, sync := sync, for_ := f, src := src,
                    queued := !joins && t.queued < 64, walker := w, wc := s.wcEn x }
  s.setXlt x { t with jobs := t.jobs ++ [j] }

/-- Translate an access: its leaf at once, or a job that will bring it. -/
def State.xlate (s : State) (x ctx va : Nat) (wr sync : Bool) (f : XFor) (src : Nat) : Option TlbEnt × State :=
  match s.tlbLook x ctx va wr sync with
  | (some e, s) => (some e, s)
  | (none, s) => (none, s.xmiss x ctx va wr sync f src)

/-! ### Invalidation (R282, R296, R298–R301) -/

/-- Every XLT of the part. -/
def State.xltNos (s : State) : List Nat := (List.range 5).filter s.part.xltPresent

/-- Remove every leaf and walk-cache pointer that the tests pick. -/
def Xlt.purge (x : Xlt) (leaf : TlbEnt → Bool) (ptr : WcEnt → Bool) : Xlt :=
  let cut (t : Tab (Option TlbEnt)) : Tab (Option TlbEnt) := t.filter fun e => match e.2 with | some l => !leaf l | none => true
  { x with l1s := cut x.l1s, l1d := cut x.l1d, l2 := cut x.l2,
           wc := x.wc.filter fun e => match e.2 with | some l => !ptr l | none => true }

/-- Apply a change to every XLT. -/
def State.eachXlt (s : State) (f : Nat → Xlt → Xlt) : State :=
  s.xltNos.foldl (fun s i => s.setXlt i (f i (s.xlt i))) s

/-- The leaves that walks have brought to porters for their next pieces, and that the test picks, are gone: the pieces look their pages up
again (R299, R301). -/
def State.porUnleaf (s : State) (hit : TlbEnt → Bool) : State :=
  { s with pors := s.pors.map fun (p, x) => (p, { x with descs := x.descs.map fun d =>
      { d with trSrc := d.trSrc.filter fun e => !hit e, trDst := d.trDst.filter fun e => !hit e } }) }

/-- Drop every entry of context `c`; walks of it in flight install nothing (R282). -/
def State.xltDropCtx (s : State) (c : Nat) : State :=
  (s.porUnleaf fun e => e.ctx == c).eachXlt fun _ x =>
    let y := x.purge (fun e => e.ctx == c) (fun e => e.ctx == c)
    { y with walkers := y.walkers.map fun w => if w.ctx == c then { w with inst := false } else w }

/-- The break-before-make drop of a fence of scope `sc` (R299). -/
def State.xltDropBbm (s : State) (sc : Nat) : State :=
  let hit (c : Nat) : Bool := !s.ctxExplicit c && s.ctxScope c ≤ sc
  (s.porUnleaf fun e => hit e.ctx).eachXlt fun _ x =>
    let y := x.purge (fun e => hit e.ctx) (fun e => hit e.ctx)
    { y with walkers := y.walkers.map fun w => if hit w.ctx then { w with inst := false } else w }

/-- An invalidation of Table 11.4: TYPE 1 ADDRESS, 2 CONTEXT, 3 ALL. -/
def State.xltInvalidate (s : State) (typ c va : Nat) : State :=
  let hitL (e : TlbEnt) : Bool := if typ == 1 then e.covers c va else typ == 3 || e.ctx == c
  (s.porUnleaf hitL).eachXlt fun _ x =>
    let hitP (e : WcEnt) : Bool := if typ == 1 then e.covers c va else typ == 3 || e.ctx == c
    let y := x.purge hitL hitP
    { y with walkers := y.walkers.map fun w =>
        if typ == 1 then (if w.ctx == c then { w with noVa := w.noVa ++ [va] } else w)
        else if typ == 3 || w.ctx == c then { w with inst := false } else w }

/-- Every TLB, walk cache, queue and walker is emptied (R298). -/
def State.xltEmpty (s : State) : State :=
  s.eachXlt fun _ x => { x with l1s := [], l1d := [], l2 := [], wc := [], jobs := [], walkers := [] }

/-- Remove the entries of XLT `i` that have aged out (R296). -/
def State.xltAge (s : State) (i : Nat) : State :=
  s.setXlt i ((s.xlt i).purge (fun e => !s.young e.ctx e.beat) (fun e => !s.young e.ctx e.beat))

/-- Remember which entry translated an unperformed access (R301). -/
def State.accTranslated (s : State) (aid : Nat) (e : TlbEnt) : State :=
  { s with accs := s.accs.map fun a => if a.aid == aid then { a with tr := some (e.ctx, e.va, e.p) } else a }

/-- Unperformed accesses that an invalidation waits for. -/
def State.accsUnder (s : State) (typ c va : Nat) : List Nat :=
  (s.accs.filter fun a => match a.tr with
    | some (k, v, p) => if typ == 1 then k == c && va / 2 ^ p == v / 2 ^ p else typ == 3 || k == c
    | none => false).map (·.aid)

end Sys2Proof.Machine
end

