-- ==== Sys2Proof/Machine/Host.lean ====
section
/-! DEFINITION. Host ports: decoders, admission and credits, the windows, the posted-write buffer, the host deadline,
back-invalidation answers and hot reset (chapters 6, 7 and 9). -/

namespace Sys2Proof.Machine

/-! ### Links and windows (R152–R158, R17–R24) -/

/-- The link exists, is up, and takes requests. -/
def State.linkOn (s : State) (l : Nat) : Bool := s.powered && s.linkExists l && (s.link l).up && !(s.link l).resetting

/-- The port of a link is bifurcated. -/
def State.bif (s : State) (l : Nat) : Bool := s.pcr.halves.getLsbD (l / 2)

/-- PWB entries of a link (R154). -/
def State.pwbSize (s : State) (l : Nat) : Nat := if s.bif l then 128 else 256

/-- One flat way in bytes, 9 GiB or 4.5 GiB. -/
def flatWayBytes (p : Part) : Nat := 9 * 2 ^ (p.setLowBits + 6)

/-- The window of decoder `i`, its DPA base, and its size on link `l` (Tables 1.3, 6.2, 16.1). -/
def decWin (i : Nat) : Win := match i with | 0 => .loc | 1 => .flat | 2 => .dom | _ => .glob
def decBase (i : Nat) : Nat := match i with
  | 0 => 0
  | 1 => 0x100000000000
  | 2 => 0x4000000000000
  | _ => 0x8000000000000
def State.winSize (s : State) (l i : Nat) : Nat :=
  match i with
  | 0 => if s.boot.level == 0 then 0 else if s.boot.level == 1 then 2 ^ (s.mem.rbits + 22) else s.farBytes
  | 1 => s.flatOpen * flatWayBytes s.part
  | 2 => match s.members.getLast? with | some m => (m + 1) * 2 ^ 42 | none => 0
  | _ => 4 * 2 ^ s.gwinA (l / 2) (l % 2)

def HLink.dec (x : HLink) (i : Nat) : Decoder := match i with | 0 => x.dec0 | 1 => x.dec1 | 2 => x.dec2 | _ => x.dec3
def HLink.setDec (x : HLink) (i : Nat) (d : Decoder) : HLink :=
  match i with
  | 0 => { x with dec0 := d }
  | 1 => { x with dec1 := d }
  | 2 => { x with dec2 := d }
  | _ => { x with dec3 := d }

/-- Interleave position of a link (Table 6.6). -/
def State.posOf (s : State) (l : Nat) : Nat := s.decPos (l / 2) (l % 2)

/-- A decoder commit's settings are good (R155–R157; DEDUCED, unsafe: notes/assumptions/28.md; that the link's position lies below the
ways is a DESIGN CHOICE, unsafe: notes/assumptions/111.md). `ways` is the base-2 logarithm of the ways. -/
def State.decGood (s : State) (l i base size ways gran : Nat) : Bool :=
  base == decBase i && size % 2 ^ 28 == 0 && size * 2 ^ ways ≤ s.winSize l i && ways ≤ 3
    && (ways == 0 || (8 ≤ gran && gran ≤ 14 && s.posOf l < 2 ^ ways
        && !((List.range 8).any fun k =>
          let d := (s.link k).dec i
          k != l && s.linkExists k && d.committed && d.ways == ways && d.gran == gran && s.posOf k == s.posOf l)))

/-- Window offset of a DPA offset `d` (R157). -/
def winOffset (d ways gran pos : Nat) : Nat :=
  if ways == 0 then d else d / 2 ^ gran * 2 ^ (gran + ways) + pos * 2 ^ gran + d % 2 ^ gran

/-- The window and offset of a DPA on a link; none when no committed decoder covers it. -/
def State.decode (s : State) (l dpa : Nat) : Option (Nat × Nat) :=
  (List.range 4).findSome? fun i =>
    let d := (s.link l).dec i
    if d.committed && d.base ≤ dpa && dpa < d.base + d.size then some (i, winOffset (dpa - d.base) d.ways d.gran (s.posOf l))
    else none

/-! ### Requests on their way -/

/-- Open demand requests at a slice (R160): at its input, and in its miss registers. -/
def Slice.demand (x : Slice) : Nat :=
  (x.inq.filter fun r => r.kind != .prefetch).length + (x.mrs.map fun m => m.secs.length + if m.isPf then 0 else 1).foldl (· + ·) 0

/-- Put a request at a slice's input. -/
def State.toSlice (s : State) (n : Nat) (r : Req) : State := s.modSlice n fun x => { x with inq := x.inq ++ [r] }

/-- The request that a host access makes at its slice. -/
def HostReq.toReq (h : HostReq) : Req :=
  let rd := h.req.op != .write
  { src := .host h.rid, kind := if rd then .read else .write, la := h.la, data := h.req.data, be := h.req.be,
    poison := h.req.poison, ali := h.ali, glob := h.win == .glob, dev := h.dev, ea := h.ea && !rd,
    atHome := h.win == .glob && rd && (h.ali == 1 || h.ali == 2 || h.dev), copy := h.req.copy && !(h.win == .glob && 2 ≤ h.ali),
    excl := h.req.excl, link := h.link, domWin := h.win == .dom, aid := aidHost h.rid, flat := h.win == .flat }

/-- The slice that handles a host access. -/
def State.sliceFor (s : State) (h : HostReq) : Nat :=
  if h.win == .flat then sliceOfSet s.part (flatSlot s.part s.houseWays h.la).1 else sliceOf h.la

/-- Send a host access to its slice, with the addition for requests ahead of it beyond the gate (R243, Table 9.7). -/
def State.hostIssue (s : State) (h : HostReq) : State :=
  let n := s.sliceFor h
  let k := (s.slice n).demand
  let gate := s.sliceGate (h.link / 2)
  let add := if gate ≤ k then ceilDiv' (k * 8) 7 - ceilDiv' ((gate - 1) * 8) 7 else 0
  -- a roster step waits at the slice (R243)
  let late := s.lse.blocked && !((s.slice n).roster ((s.lse.epoch + 1 : BitVec 2).toNat)).isEmpty
  (s.modReq h.rid fun x => { x with ph := .slice, add := x.add + add, rosterAt := if late then some s.clk else none }).toSlice n h.toReq

/-- End a host access at the port: a read is answered with poison, a write with Cmp and discarded (Table 6.3). -/
def State.hostEnd (s : State) (h : HostReq) : State :=
  ((if h.req.op == .write then s.hostCmp h else s.hostData h Config.poisonLine true 0).hostGone h.rid).accDone (aidHost h.rid)

/-- The same with its ledger record. -/
def State.hostRefuse (s : State) (h : HostReq) : State :=
  (s.rec_ 0x10 (211 + h.link / 2) 0xFFFF h.off (if h.req.op == .write then 1 else 0)).hostEnd h

/-- An access of this E9 to node `d` meets one marked unreachable (R192). -/
def State.hostDead (s : State) (h : HostReq) (node : Nat) : State :=
  let s := (s.rec_ 0x12 (211 + h.link / 2) node h.off (if h.req.op == .write then 1 else 0)).accFail (aidHost h.rid) h.link node false
  let s := if h.req.op == .write then s.modLink h.link fun x => { x with pwbDiscarded := satAdd 0xFFFF x.pwbDiscarded 1 } else s
  s.hostEnd h

/-! ### Level-1 memory (R410, R413) -/

/-- An access to level-1 memory goes to far memory, after the copies of other hosts that stand in its way. -/
def State.lowAccess (s : State) (h : HostReq) : State :=
  let wr := h.req.op == .write
  let cs := (s.hsfCopies h.la false).filter fun c => c.link != h.link && (c.em || wr)
  if s.biOpen h.la false then s.modReq h.rid fun x => { x with ph := .recall }
  else if !cs.isEmpty then
    (cs.foldl (fun s c => s.sendBi h.la false c wr (.req 64 h.la)) s).modReq h.rid fun x => { x with ph := .recall }
  else match (if h.req.copy then s.hsfVictim h.la false else none) with
  | some old => (s.hsfEvict old).modReq h.rid fun x => { x with ph := .recall }
  | none =>
  if s.farFrozen (laLocal h.la) then s.reqFail h.toReq .stop
  else if wr then (s.farWrite (laLocal h.la) h.req.data h.req.poison h.req.be).reqDone h.toReq 0 false 0
  else ((s.farRead (laLocal h.la) 64 h.rid).2).modReq h.rid fun x => { x with ph := .slice, issued := true }

/-! ### The posted-write buffer (R187–R191) -/

/-- Global-window accesses of the link accepted before access `rid` that are of alias 2, or may turn out to be. -/
def State.strongBefore (s : State) (l rid : Nat) : Bool :=
  s.hreqs.any fun h => h.link == l && h.win == .glob && h.rid < rid && h.ph != .acquire &&
    (h.ali == 2 || h.dev || (match h.ph with | .translate _ => true | _ => false))

/-- Every earlier global-window access of the link has been performed, or counts as complete (R183, R190). -/
def State.globDone (s : State) (l rid : Nat) : Bool :=
  !(s.hreqs.any fun h => h.link == l && h.win == .glob && h.rid < rid && h.ph != .acquire)
    && !((s.link l).pwb.any fun e => e.rid < rid)

/-- A store enters its link's PWB, or merges into the youngest entry (R187, R189), and is answered Cmp. None while the PWB
is full or an earlier store of the link has not entered. An alias-2 access that lies between two stores does not keep them from merging
(DESIGN CHOICE, unsafe: notes/assumptions/112.md). -/
def State.pwbEnter (s : State) (h : HostReq) : Option State :=
  let x := s.link h.link
  let h := if laNode h.la == s.nodeNo then h else { h with cls := 3 }
  let before := s.hreqs.any fun g =>
    g.link == h.link && g.win == .glob && g.rid < h.rid && g.req.op == .write && g.ali != 2 && !g.dev
  if before then none
  else
    let young := x.pwb.getLast?.filter fun e =>
      ordCombine h.ord && e.la == h.la && !e.issued && e.ali != 1 && h.ali != 1
    match young with
    | some e =>
      let e' : PwbEnt := { e with data := mergeBytes e.data h.req.data h.req.be, be := e.be ||| h.req.be,
                                  poison := e.poison || h.req.poison, more := e.more ++ [aidHost h.rid] }
      some (((s.setLink h.link { x with pwb := x.pwb.map fun p => if p.seq == e.seq then e' else p }).hostCmp h).hostGone h.rid)
    | none =>
      if s.pwbSize h.link ≤ x.pwb.length then none
      else
        let e : PwbEnt :=
          { seq := h.rid, rid := h.rid, la := h.la, data := h.req.data, be := h.req.be, poison := h.req.poison, ali := h.ali,
            ea := h.ea, t0 := s.clk, paused0 := s.paused,
            after := if h.ali == 1 then (s.accs.filter fun a => a.who == h.link && a.aid < aidHost h.rid).map (·.aid) else [] }
        let s := s.setLink h.link { x with pwb := x.pwb ++ [e], pwbHwm := max x.pwbHwm (x.pwb.length + 1) }
        some ((s.hostCmp h).hostGone h.rid)

/-- What a load takes from its link's PWB: none when it must wait; else the line and its poison (R189). -/
def pwbForward (es : List PwbEnt) : Option (Line × Bool) :=
  if !(es.any fun e => e.be == fullMask) then none
  else some (es.foldl (fun (d, p) e =>
    if e.be == fullMask then (e.data, e.poison) else (mergeBytes d e.data e.be, p || e.poison)) (0, false))

/-- Go on with a translated global-window access (Table 7.1). -/
def State.globGo (s : State) (h : HostReq) : State :=
  let strong := h.ali == 2 || h.dev
  let node := laNode h.la
  let wait (ph : HrPh) : State := s.modReq h.rid fun x => { x with ph := ph }
  if s.unreachable node && node != s.nodeNo then s.hostDead h node
  else if strong then (if s.globDone h.link h.rid then s.hostIssue h else wait .order)
  else if h.req.op == .write then
    match s.pwbEnter h with
    | some s => s
    | none => wait .pwbWait
  else if s.strongBefore h.link h.rid then wait .order
  else
    let es := (s.link h.link).pwb.filter fun e => e.la == h.la && e.rid < h.rid
    if es.isEmpty then s.hostIssue h
    else if h.ali == 1 then wait .pwbLoad
    else match pwbForward es with
      | some (d, p) => s.reqDone h.toReq (if p then Config.poisonLine else d) p 0
      | none => wait .pwbLoad

/-- A host access has its translation: the leaf's machine address and attributes (R20, R183, R190, R411). -/
def State.hostTranslated (s : State) (rid va : Nat) (e : TlbEnt) : State :=
  match s.hreq rid with
  | none => s
  | some h =>
    let la := (e.ma + va % 2 ^ e.p) / 64
    let dev := s.devPage e
    let ali := if dev then 2 else h.ali
    let ea := e.ea && (ali != 2 || ordDevEa h.ord)
    let h := { h with la := la, cls := if s.classOf la == .other then 3 else h.cls, dev := dev, ali := ali, ea := ea, ph := .order }
    let s := (s.accTranslated (aidHost rid) e).modReq rid fun _ => h
    if s.boot.level < 3 && laNode la != s.nodeNo then s.hostRefuse h
    else s.globGo h

/-- A host access's translation has failed (R304): no fence reports it. -/
def State.hostFault (s : State) (rid : Nat) : State :=
  match s.hreq rid with
  | none => s
  | some h => s.hostEnd h

/-! ### Acceptance (R159, R17–R24) -/

/-- The CXL range registers report the memory active (R410, R413). -/
def State.memActive (s : State) : Bool := s.boot.level != 0 && !s.boot.withdrawn

/-- Send an accepted access on its way, by window: the global window from level 2 on (R410). -/
def State.hostRoute (s : State) (h : HostReq) (i : Nat) : State :=
  if s.winSize h.link i ≤ h.off || (h.win == .glob && s.boot.level < 2) then s.hostRefuse h
  else match h.win with
    | .loc =>
      let h := { h with la := mkLa s.nodeNo (h.off / 64) }
      let s := s.modReq h.rid fun _ => h
      if s.boot.level == 1 then s.lowAccess h else s.hostIssue h
    | .dom =>
      let m := h.off / 2 ^ 42
      let h := { h with la := mkLa (s.ownDomain * 128 + m) (h.off % 2 ^ 42 / 64) }
      let s := s.modReq h.rid fun _ => h
      if s.boot.level < 3 || s.dom.st != 2 then
        let h := { h with voided := true }
        let s := s.accFail (aidHost h.rid) h.link (s.ownDomain * 128 + m) true
        s.hostRefuse h
      else if !s.isMember m then s.hostRefuse h
      else s.hostIssue h
    | .flat =>
      let h := { h with la := h.off / 64 }
      (s.modReq h.rid fun _ => h).hostIssue h
    | .glob =>
      let l := h.link
      let a := s.gwinA (l / 2) (l % 2)
      let ali := h.off / 2 ^ a % 4
      let va := s.gwinBase (l / 2) (l % 2) + h.off % 2 ^ a
      let sync := ali == 1 || ali == 2
      let wr := h.req.op == .write
      let h := { h with ali := ali }
      let s := s.modReq h.rid fun _ => h
      let ctx := s.gwinCtx (l / 2) (l % 2)
      match s.xlate (l / 2) ctx va wr sync (.host h.rid) l with
      | (some e, s) => s.hostTranslated h.rid va e
      | (none, s) =>
        -- two successive misses of a link on adjacent pages call for the next page (R291)
        let s := s.modLink l fun x => { x with miss2 := x.miss1, miss1 := some (va / 4096) }
        s.modReq h.rid fun x => { x with ph := .translate 0 }

/-- Credits a link's host holds: Req and RwD. -/
def HLink.reqCr (x : HLink) : Nat := x.credits.val.toNat % 64
def HLink.rwdCr (x : HLink) : Nat := x.credits.val.toNat / 64
def HLink.setCr (x : HLink) (req rwd : Nat) : HLink := { x with credits := Tmr.of (BitVec.ofNat 12 (req + 64 * rwd)) }

/-- A request bears a bound from its acceptance (Table 9.8). -/
def State.bears (s : State) : Bool := s.locked && !s.mtu.inLull && s.devState == 1 && s.boot.level == 3

/-- Every bound in flight is void (Table 9.8): on loss of lock, on a change of state or level. -/
def State.voidAll (s : State) : State := { s with hreqs := s.hreqs.map fun h => { h with voided := true } }

/-- Credits of a write, or of any other request. -/
def HLink.creditOf (x : HLink) (wr : Bool) : Nat := if wr then x.rwdCr else x.reqCr

/-- Take a credit of the request's class. -/
def State.takeCredit (s : State) (l : Nat) (wr : Bool) : State :=
  s.modLink l fun x => if wr then x.setCr x.reqCr (x.rwdCr - 1) else x.setCr (x.reqCr - 1) x.rwdCr

/-- The access that a request becomes, decoded as `d`. -/
def State.newHost (s : State) (l : Nat) (r : CxlReq) (d : Option (Nat × Nat)) : HostReq :=
  { rid := s.nextRid, link := l, req := r, win := (match d with | some (i, _) => decWin i | none => .loc),
    off := (match d with | some (_, o) => o | none => r.dpa), ph := .order, t0 := s.clk, ord := s.ordWord (l / 2),
    voided := !s.bears, preLull := !s.mtu.inLull }

/-- An access is accepted: it is numbered, and fences wait for it. -/
def State.book (s : State) (h : HostReq) : State :=
  let wr := h.req.op == .write
  { s with nextRid := s.nextRid + 1, hreqs := s.hreqs ++ [h],
           accs := s.accs ++ [{ aid := aidHost h.rid, who := h.link, rd := !wr, wr := wr }] }

/-- The event and the trace candidate of an accepted access (Table 18.1, capture point 3). -/
def State.seen (s : State) (h : HostReq) (dec : Nat) : State :=
  let k := if h.req.op == .write then 2 else 1
  let ali := if h.win == .glob then h.off / 2 ^ s.gwinA (h.link / 2) (h.link % 2) % 4 else 0
  (s.event (211 + h.link / 2) k 1).trace 3 (211 + h.link / 2) k h.off h.link h.req.tag.toNat (dec + 256 * ali)

/-- Accept a CXL.mem request (R159). Without a credit there is no acceptance. -/
def State.accept (s : State) (l : Nat) (r : CxlReq) : State :=
  if !s.linkOn l then s
  else if r.op == .unsupported then (s.emit (.cxlUnsupported l r.tag)).rec_ 0xFF (211 + l / 2) 0xFFFF r.dpa 0
  -- the BIConflict handshake, on an RwD credit (R166; PRESUMED, unsafe: notes/assumptions/100.md)
  else if r.op == .biConflict then
    (if (s.link l).creditOf true == 0 then s else (s.takeCredit l true).emit (.biConflictAck l r.tag))
  else if (s.link l).creditOf (r.op == .write) == 0 then s
  else
    let h := s.newHost l r (s.decode l r.dpa)
    let t := (s.takeCredit l (r.op == .write)).book h
    match s.decode l r.dpa with
    | none => (t.seen h 255).hostRefuse h
    | some (i, _) => if !s.memActive then (t.seen h i).hostRefuse h else (t.seen h i).hostRoute h i

/-- CXL_MEM_REQUEST (R159, R150). -/
def execCxlMemRequest (link : Nat) (r : CxlReq) (fd : Finds) (s : State) : Host.Outcome State Fault Refusal :=
  .next (s.finding fd fun s => s.accept link r)

/-- HDM_DECODER_COMMIT (R155, R157): `ways` is the base-2 logarithm of the interleave ways. A commit that fails leaves an earlier good one
in force and sets the error (DESIGN CHOICE, unsafe: notes/assumptions/111.md). -/
def execHdmDecoderCommit (link dec base size ways gran : Nat) (s : State) : Host.Outcome State Fault Refusal :=
  .next (if s.linkOn link && dec < 4 then
    s.modLink link fun x =>
      if s.decGood link dec base size ways gran then
        x.setDec dec { committed := true, base := base, size := size, ways := ways, gran := gran }
      else x.setDec dec { x.dec dec with err := true }
    else s)

/-- Float of a class on a link: half of it, and at least 1, on a bifurcated port (R160). -/
def State.floatOf (s : State) (l v : Nat) : Nat := if s.bif l then max 1 (v / 2) else v

/-- CREDIT_RETURN (R160): one credit of each class at most, once per clock. -/
def execCreditReturn (link : Nat) (s : State) : Host.Outcome State Fault Refusal :=
  let x := s.link link
  let gate := (List.range 64).any fun n => s.sliceGate (link / 2) ≤ (s.slice n).demand
  let held := if s.locked then s.inPause else s.mtu.inLull
  .next (if !s.linkOn link || gate || held || x.creditClk == s.clk + 1 then s
    else
      let rq := x.reqCr + 1 ≤ s.floatOf link (s.reqFloat (link / 2))
      let rw := x.rwdCr + 1 ≤ s.floatOf link (s.rwdFloat (link / 2))
      let s := s.setLink link { x.setCr (x.reqCr + if rq then 1 else 0) (x.rwdCr + if rw then 1 else 0) with creditClk := s.clk + 1 }
      let s := if rq then s.emit (.credit link false) else s
      if rw then s.emit (.credit link true) else s)

/-! ### The host deadline (R164, R187) -/

/-- A request that its slice has not issued leaves it: from the slice's input, or from the register in which it waits, whose next
request then goes on. -/
def State.sliceDrop (s : State) (n : Nat) (src : Src) : State :=
  let s := s.modSlice n fun x =>
    { x with inq := x.inq.filter fun r => r.src != src, mrs := x.mrs.map fun m => { m with secs := m.secs.filter fun q => q.src != src } }
  match (s.slice n).mrs.find? fun m => m.prim.src == src with
  | none => s
  | some m =>
    match m.secs with
    | [] => s.mrClose n m.idx
    | r :: rest =>
      let s := s.modMr n m.idx fun m => { m with prim := r, secs := rest }
      if m.st == .waitVb || m.st == .hosts then s else s.mrSend n m.idx

/-- Take a write that no slice has issued out of the machine. -/
def State.withdraw (s : State) (h : HostReq) : State :=
  ((s.sliceDrop (s.sliceFor h) (.host h.rid)).hostGone h.rid).accDone (aidHost h.rid)

/-- HOST_DEADLINE (R164): 24,000 core clocks after port receive. -/
def execHostDeadline (rid : Nat) (s : State) : Host.Outcome State Fault Refusal :=
  .next (match s.hreq rid with
    | none => s
    | some h =>
      if !s.powered || h.mute || s.clk - h.t0 < 24000 then s
      else
        let u := 211 + h.link / 2
        let late (x : HLink) : HLink :=
          if h.req.op == .write then { x with lateWr := satAdd 63 x.lateWr 1 } else { x with lateRd := satAdd 63 x.lateRd 1 }
        let s := s.modLink h.link late
        if h.req.op != .write then
          let s := (s.hostData h Config.poisonLine true 0).rec_ 0xFF u 0xFFFF h.off 0
          if h.ph == .acquire then s.hostGone rid else s.modReq rid fun x => { x with mute := true }
        else if h.issued then ((s.hostCmp h).modReq rid fun x => { x with mute := true }).rec_ 0xFF u 0xFFFF h.off 1
        else (s.noFinds fun s => (s.withdraw h).hostCmp h).rec_ 0x12 u 0xFFFF h.off 1)

/-! ### Back-invalidation answers (R144, R166–R168) -/

/-- What waited for a line's recall goes on: snoops, the victim buffer, the home's open transaction, level-1 requests, which may also
have waited for room in the HSF. -/
def State.lineResume (s : State) (la : Nat) : State :=
  let n := sliceOf la
  let s := s.snoopsResume n la
  let s := ((s.slice n).vbs.filter fun v => v.la == la && (!v.sent || v.done)).foldl (fun s v => s.vbGo n v.idx) s
  let s := match s.openTrk n la with
    | some t => s.homeGo n t.htid
    | none => s
  let s := s.wakeVb n
  (s.hreqs.filter fun h => h.ph == .recall).foldl (fun s h => s.lowAccess h) s

/-- A back-invalidation has ended: the copy's new state, dirty data, and whatever waited. -/
def State.biDone (s : State) (b : BiSnp) (d : Option (Line × Bool)) : State :=
  let s := ({ s with bisnps := s.bisnps.filter fun x => x.id != b.id } : State).roundEnd b.key b.flat
  let s := s.modCopies b.key b.flat fun cs =>
    if b.inv then cs.filter fun c => !b.of c else cs.map fun c => if b.of c then { c with em := false } else c
  let s := match d with
    | some (x, p) => if b.wait == .drop then s else s.mergeDirty b.key b.flat x p
    | none => s
  let s := if b.wait == .drop && !b.inv then s.recall b.key b.flat true b.of .drop else s
  if b.flat then s else s.lineResume b.key

/-- BIRSP (R166): the dirty data carries the host's poison mark. A late one is discarded (R168). -/
def execBirsp (id : Nat) (dirty : Option (Line × Bool)) (fd : Finds) (s : State) : Host.Outcome State Fault Refusal :=
  .next (s.finding fd fun s => (match s.bisnps.find? fun b => b.id == id with
    | none => s
    | some b => if s.powered then s.biDone b dirty else s))

/-- BISNP_TIMEOUT (R168): after 24,000 core clocks. -/
def execBisnpTimeout (id : Nat) (fd : Finds) (s : State) : Host.Outcome State Fault Refusal :=
  .next (s.finding fd fun s => (match s.bisnps.find? fun b => b.id == id with
    | none => s
    | some b =>
      if !s.powered || s.clk - b.t0 < 24000 then s
      else (s.biDone { b with inv := true } (if b.em then some (Config.poisonLine, true) else none)).rec_ 0xFF 152 0xFFFF (64 * b.key) b.link))

/-! ### Hot reset (R170, R171) -/

/-- A hot reset or link-down of one link (DEDUCED, safe: notes/assumptions/36.md). -/
def State.hotReset (s : State) (l : Nat) : State :=
  let s := s.modLink l fun x =>
    { x with up := false, resetting := true, rate := 0, width := 0, ide := false, flitLo := false, dec0 := {}, dec1 := {},
             dec2 := {}, dec3 := {}, credits := Tmr.of 0, pba := [], miss1 := none, miss2 := none }
  let s : State := { s with
    hreqs := s.hreqs.map fun h => if h.link == l then { h with mute := true } else h
    fnc := { s.fnc with fences := s.fnc.fences.map fun f => if f.link == l then { f with mute := true } else f }
    msix := s.msix.filter fun e => e.1 / 4096 != l
    hsf := (s.hsf.map fun e => { e with copies := e.copies.filter fun c => c.link != l }).filter fun e => !e.copies.isEmpty }
  -- a port hot reset is a reset like another to the prefetchers (R91, R419)
  let s := (List.range 64).foldl (fun s n => s.modSlice n fun x => { x with streams := List.replicate 32 none }) s
  (s.bisnps.filter fun b => b.link == l).foldl (fun s b => s.biDone { b with inv := true } none) s

/-- HOST_LINK_HOT_RESET (R171). -/
def execHostLinkHotReset (link : Nat) (s : State) : Host.Outcome State Fault Refusal :=
  .next (if s.linkOn link then s.noFinds fun s => s.hotReset link else s)

/-- IDE_INTEGRITY_FAILURE (R170). -/
def execIdeIntegrityFailure (link : Nat) (s : State) : Host.Outcome State Fault Refusal :=
  .next (if s.linkOn link && (s.link link).ide then s.noFinds fun s => s.hotReset link else s)

/-- HOST_LINK_UP (R171): credits start again from the CXL initialisation values, of which the host holds none (DESIGN CHOICE, unsafe: notes/assumptions/35.md). -/
def execHostLinkUp (link rate width : Nat) (ide flitLo : Bool) (s : State) : Host.Outcome State Fault Refusal :=
  .next (if s.live && s.linkExists link && !(s.link link).up then
    s.modLink link fun x =>
      { x with up := true, resetting := false, rate := rate, width := width, ide := ide, flitLo := flitLo, credits := Tmr.of 0 }
    else s)

/-! ### The PWB's commands -/

/-- PWB_ENTRY (R187): a store that waited enters. -/
def execPwbEntry (rid : Nat) (s : State) : Host.Outcome State Fault Refusal :=
  .next (match s.hreq rid with
    | some h => if s.powered && h.ph == .pwbWait then s.globGo h else s
    | none => s)

/-- The entry that issues next. -/
def HLink.nextPwb (x : HLink) : Option PwbEnt := x.pwb.find? fun e => !e.issued && !e.performed

/-- PWB_ISSUE (R188). From a guard start to its lull end entries are held (Table 7.7) (DEDUCED, safe: notes/assumptions/38.md). -/
def execPwbIssue (link : Nat) (s : State) : Host.Outcome State Fault Refusal :=
  .next (match (s.link link).nextPwb with
    | none => s
    | some e =>
      if !s.powered || s.inPause || s.strongBefore link e.rid then s
      else if e.ali == 1 && s.accs.any fun a => e.after.contains a.aid then s
      else
        let r : Req := { src := .pwb link e.seq, kind := .write, la := e.la, data := e.data, be := e.be, poison := e.poison,
                         ali := e.ali, glob := true, ea := e.ea, link := link, aid := aidHost e.rid }
        (s.modLink link fun x =>
          { x with pwb := x.pwb.map fun p => if p.seq == e.seq then { p with issued := true } else p }).toSlice (sliceOf e.la) r)

/-- End an issued write wherever its slice holds it. -/
def State.pwbDrop (s : State) (l : Nat) (e : PwbEnt) : State :=
  let n := sliceOf e.la
  let src := Src.pwb l e.seq
  let r : Req := { src := src, kind := .write, la := e.la, glob := true, aid := aidHost e.rid }
  match (s.slice n).mrs.find? fun m => m.prim.src == src with
  | some m =>
    if m.st == .answered then s
    -- it waits, and nothing has gone out for it: what merged behind it goes on
    else if m.st == .waitVb || m.st == .hosts || m.st == .heldBack then (s.sliceDrop n src).reqFail m.prim .dead
    -- an own line: the home goes on without the store's bytes; where its invalidations have dropped the line for a whole-line store, the
    -- line is left poisoned (DESIGN CHOICE, unsafe: notes/assumptions/101.md)
    else if m.st == .home then
      let begun := (s.slice n).trks.any fun t => t.for_ == .own m.idx && (t.ph == .collect || t.ph == .fwd || t.ph == .own)
      let rest : Req := if begun && m.prim.be == fullMask then { m.prim with src := .maint, data := Config.poisonLine, poison := true }
        else { m.prim with src := .maint, be := 0 }
      (s.modMr n m.idx fun m => { m with prim := rest }).reqFail m.prim .dead
    else s.mrEnd n m.idx .dead
  | none =>
    match (s.slice n).outw.find? fun o => o.src == src with
    | some o => s.outDrop n o .dead
    | none => (s.sliceDrop n src).reqFail r .dead

/-- PWB_DEADLINE_EXPIRY (R191): 8 beats after entry, guards and lulls not counted. -/
def execPwbDeadlineExpiry (link seq : Nat) (s : State) : Host.Outcome State Fault Refusal :=
  .next (if !s.powered then s
    else match (s.link link).pwb.find? fun e => e.seq == seq && !e.performed with
    | some e =>
      if s.ran e.t0 e.paused0 < deadlineClks then s
      else
        let s := s.noFinds fun s => s.pwbDrop link e
        if laNode e.la == s.nodeNo then s else s.markUnreach (laNode e.la)
    | none =>
      -- a write that retired early and has no acknowledgement yet
      (List.range 64).foldl (fun s n =>
        match (s.slice n).outw.find? fun o => o.early && o.src == .pwb link seq with
        | some o => if s.ran o.t0 o.paused0 < deadlineClks then s else (s.noFinds fun s => s.outDrop n o .dead).markUnreach o.home
        | none => s) s)

/-- PWB_HWM_RESET (Table 7.8). -/
def execPwbHwmReset (link : Nat) (s : State) : Host.Outcome State Fault Refusal :=
  .next (if s.powered then s.modLink link fun x => { x with pwbHwm := x.pwb.length } else s)

/-- ACQUIRE_LOAD_RESPONSE (R184): the load has been performed and its double advance is complete. -/
def execAcquireLoadResponse (rid : Nat) (s : State) : Host.Outcome State Fault Refusal :=
  .next (match s.hreq rid with
    | none => s
    | some h =>
      match h.resp with
      | some (d, p, val) =>
        if s.powered && h.ph == .acquire && h.advTicket ≤ s.lse.dblDone then (s.hostData h d p val).hostGone rid else s
      | none => s)

/-- Accesses that wait at their port try again (Table 7.1); a link issues in the order accepted. -/
def State.portClock (s : State) : State :=
  (s.hreqs.filter fun h => h.win == .glob && (h.ph == .order || h.ph == .pwbLoad)).foldl (fun s h =>
    match s.hreq h.rid with
    | some h => if h.ph == .order || h.ph == .pwbLoad then s.globGo h else s
    | none => s) s

end Sys2Proof.Machine
end

