-- ==== Sys2Proof/Machine/Sched.lean ====
section
/-! DEFINITION. The machine time unit: lock, marks, the schedule table and its firings, guards and lulls (chapter 8). -/

namespace Sys2Proof.Machine

/-! ### Schedule entries (Tables 8.6, 8.7, R221–R226) -/

/-- Schedule entry `i` as its registers hold it, and as it is in force: a change waits for the next beat boundary (R223). -/
def State.schReg (s : State) (i : Nat) : BitVec 96 := (Tab.get (Tmr.of 0) s.mtu.sch i).val
def State.sch (s : State) (i : Nat) : BitVec 96 :=
  match (if s.mtu.schBeat == s.beat then s.mtu.schOld.find? fun e => e.1 == i else none) with
  | some e => e.2
  | none => s.schReg i
def schEn (v : BitVec 96) : Bool := v.getLsbD 63
def schClass (v : BitVec 96) : Nat := v.toNat / 2 ^ 56 % 16
def schWidth (v : BitVec 96) : Nat := max 1 (v.toNat / 2 ^ 48 % 64)
def schPhase (v : BitVec 96) : Nat := v.toNat / 2 ^ 22 % 2 ^ 21
def schPeriod (v : BitVec 96) : Nat := v.toNat % 2 ^ 21
def schArg (v : BitVec 96) : Nat := v.toNat / 2 ^ 64

/-- Beats since the entry's last firing beat, at beat `b` (R221). -/
def schSince (v : BitVec 96) (b : Nat) : Nat := (b + schPeriod v - schPhase v) % schPeriod v

/-- Classes that fire without lock (Table 8.4). -/
def freeClass (c : Nat) : Bool := c == 3 || c == 5 || c == 7 || c == 8

/-- Entry `i`, of class `c`, is due in the present beat and has not fired (R221, R222, R235). -/
def State.due (s : State) (i c : Nat) : Bool :=
  let v := s.sch i
  let d := schSince v s.beat
  let now := d == 0 || (match s.mtu.stepFrom with | some (f, t) => t == s.beat && freeClass c && f + d < s.beat | none => false)
  i < 64 && schEn v && schClass v == c && 0 < schPeriod v && now && s.mtu.hold.isNone && (freeClass c || s.locked)
    && (!(c == 1 || c == 2) || s.mtu.resumeBeat ≤ s.beat)
    && !(s.mtu.firedBeat == s.beat && s.mtu.fired.contains i)

/-- The actions of two classes reach common units: refresh and scrub both act on the channels. -/
def sharesUnit (c d : Nat) : Bool := c == d || (c == 2 && d == 3) || (c == 3 && d == 2)

/-- A lull acts on the units of refresh, scrub and directory sweep. -/
def lullUnit (c : Nat) : Bool := c == 2 || c == 3 || c == 4

/-- The beat of a lull whose guard has run has come, and the lull has not started. -/
def State.lullDue (s : State) : Bool := s.mtu.inGuard && decide (s.mtu.lullBeat ≤ s.beat)
/-- Number of the enabled lull entry. -/
def State.lullEntry (s : State) : Option Nat := (List.range 64).find? fun i => schEn (s.sch i) && schClass (s.sch i) == 1

/-- Entry `i` fires now: the lower-numbered ones due at its units have fired, the lull's among them (R221). -/
def State.fires (s : State) (i c : Nat) : Bool :=
  s.due i c && !(s.lullDue && lullUnit c && (match s.lullEntry with | some j => decide (j < i) | none => false)) && !((List.range i).any fun j => sharesUnit (schClass (s.sch j)) c && s.due j (schClass (s.sch j)))

/-- The entry has fired in this beat. -/
def State.markFired (s : State) (i : Nat) : State :=
  { s with mtu := { s.mtu with firedBeat := s.beat, fired := if s.mtu.firedBeat == s.beat then s.mtu.fired ++ [i] else [i] } }

/-- A firing: none when the entry does not fire now. -/
def State.fire (s : State) (i c : Nat) : Option State := if s.powered && s.fires i c then some (s.markFired i) else none

/-- The enabled entry of class `c`. -/
def State.schOf (s : State) (c : Nat) : Option (BitVec 96) :=
  ((List.range 64).map s.sch).find? fun v => schEn v && schClass v == c

/-- G of R229. -/
def State.guardBeats (s : State) : Nat := max 1 (ceilDiv' s.longestBound 2048)

/-! ### Lock (R217–R220, R234, R235) -/

/-- Move to another lock state, of 0 to 3: a record, vector 3, and what a loss or gain of lock entails (DEDUCED, unsafe: notes/assumptions/42.md). -/
def State.setLock (s : State) (k : Nat) : State :=
  if s.mtu.lock == k then s
  else
    let lost := s.mtu.lock == 3
    let s : State := { s with mtu := { s.mtu with lock := min 3 k, goodMarks := if k == 3 then s.mtu.goodMarks else 0 } }
    let s : State := if lost then
        { s with mtu := { s.mtu with lockLosses := satAdd 0xFFFF s.mtu.lockLosses 1, inGuard := false },
                 mem := { s.mem with chans := s.mem.chans.map fun (c, ch) => (c, { ch with free := true }) } }
      else s
    let s : State := if k == 3 then { s with mtu := { s.mtu with resumeBeat := (s.mtu.mt + 1023) / 1024 + s.mtu.guard + 1 } } else s
    let s := (s.rec_ 0x17 209 0xFFFF 0 k).signalAll 3
    if lost then s.voidAll else s

/-- Correct MT to the reference value `v` (R220); `set` when TIME_SET loaded it. -/
def State.correct (s : State) (v : Nat) (set : Bool) : State :=
  let m := s.mtu
  if m.mt < v then
    { s with mtu := { m with mt := v, stepped := true, half := none, hold := none, slew := 0, ahead := m.ahead && m.hold.isNone,
                             guard := if v / 1024 != m.mt / 1024 && !m.inGuard then s.guardBeats else m.guard,
                             stepFrom := some (m.mt / 1024, v / 1024) } }
  else if m.mt - v ≤ 1048576 then { s with mtu := { m with half := if m.mt == v then none else some v, hold := none, slew := 0,
                                                                   ahead := m.ahead && m.hold.isNone } }
  else if set then { s with mtu := { m with hold := some v, half := none, ahead := true } }
  -- a neighbour's value: MT keeps counting
  else { s with mtu := { m with ahead := true, hold := none, half := none } }

/-- The neighbour to steer toward: the locked one of lowest stratum, on the lowest-numbered port. -/
def State.steerPort (s : State) : Option Nat :=
  let ps := (List.range s.part.fabricPorts).filter fun p => (s.port p).nbLocked && (s.port p).st == 5
  let low := ps.foldl (fun m p => min m (s.port p).nbStratum) 255
  ps.find? fun p => (s.port p).nbStratum == low

/-- The stratum and the neighbour as the ports now show them (R217): what was to be slewed toward another neighbour is not. -/
def State.restrata (s : State) : State :=
  let p := s.steerPort
  let st := if s.master then 0 else match p with | some p => min 254 ((s.port p).nbStratum + 1) | none => 255
  let p := if s.master then none else p
  { s with mtu := { s.mtu with stratum := st, steer := p, slew := if p == s.mtu.steer then s.mtu.slew else 0 } }

/-- Nearest multiple of 2^24 to MT, and MT lies within 64 ns of it. -/
def nearMark (mt : Nat) : Nat := (mt + 2 ^ 23) / 2 ^ 24 * 2 ^ 24
def dist (a b : Nat) : Nat := if a < b then b - a else a - b
def State.onMark (s : State) : Bool := dist s.mtu.mt (nearMark s.mtu.mt) ≤ 64

/-- Fabric refinement governs lock. -/
def State.refined (s : State) : Bool := s.fabRefine && !s.master

/-- Enter LOCKED when its conditions hold (Table 8.1), correcting MT to the reference value `v`. -/
def State.tryLock (s : State) (v : Nat) : State :=
  if s.mtu.lock == 2 && 3 ≤ s.mtu.goodMarks && (!s.refined || 8 ≤ s.mtu.goodOfs) && !s.mtu.ahead then
    (s.setLock 3).correct v false
  else s

/-- MT_REF_PRESENT (R218). -/
def execMtRefPresent (s : State) : Host.Outcome State Fault Refusal :=
  .next (if s.powered && s.mtu.lock == 0 then s.setLock 1 else s)

/-- MT_REF_LOST (R218). -/
def execMtRefLost (s : State) : Host.Outcome State Fault Refusal := .next (if s.powered then s.setLock 0 else s)

/-- What a mark does to MT and to the lock (R213, R215, R218, R220). A drop from LOCKED to VALUE at a mark or a measurement out of range brings
no reference value, and corrects nothing (DESIGN CHOICE, unsafe: notes/assumptions/123.md). -/
def State.mark (s : State) : State :=
  match s.mtu.pendingSet with
    | some v =>
      let s : State := { s with mtu := { s.mtu with pendingSet := none } }
      if s.mtu.lock == 3 && dist s.mtu.mt v ≤ 64 then s
      else
        let s : State := { s with mtu := { s.mtu with ahead := false, goodMarks := 0 } }
        (s.setLock 2).correct v true
    | none =>
      if s.mtu.lock == 1 then
        if s.refined && s.mtu.steer.isSome then (s.setLock 2).correct ((s.mtu.mt : Int) + s.mtu.ofs).toNat false else s
      else if s.mtu.lock == 2 then
        (({ s with mtu := { s.mtu with goodMarks := if s.onMark then s.mtu.goodMarks + 1 else 0 } }) : State).tryLock
          (nearMark s.mtu.mt)
      else if s.onMark then s
      else s.setLock 2

/-- MT_MARK_EDGE (R213): ignored in NOREF. -/
def execMtMarkEdge (s : State) : Host.Outcome State Fault Refusal :=
  .next (if !s.powered || s.mtu.lock == 0 then s
    else
      let s := s.mark
      { s with mtu := { s.mtu with markMt := s.mtu.mt } })

/-- Two successive expected positions have passed since the last mark. -/
def State.marksMissing (s : State) : Bool := s.mtu.markMt + 2 ^ 25 + 64 < s.mtu.mt

/-- MT_MARK_MISSING (Table 8.1): marks were missing at two successive expected positions. -/
def execMtMarkMissing (s : State) : Host.Outcome State Fault Refusal :=
  .next (if !s.powered || !s.marksMissing then s
    else if s.mtu.lock == 3 then s.setLock 2
    else { s with mtu := { s.mtu with goodMarks := 0 } })

/-- NEIGHBOUR_STAMP_TIMEOUT (Table 8.1): 256 beats without stamps. -/
def execNeighbourStampTimeout (s : State) : Host.Outcome State Fault Refusal :=
  .next (if s.powered && s.refined && s.mtu.lock == 3 && 256 ≤ s.beat - s.mtu.stampBeat then
    ({ s with mtu := { s.mtu with goodOfs := 0 } } : State).setLock 2 else s)

/-- MT_HOLD_END (R220): the reference value has reached MT. -/
def execMtHoldEnd (s : State) : Host.Outcome State Fault Refusal :=
  .next (match s.mtu.hold with
    | some v => if s.powered && s.mtu.mt ≤ v then { s with mtu := { s.mtu with hold := none, ahead := false } } else s
    | none => s)

/-- HALF_RATE_CATCH_UP_END (R220). -/
def execHalfRateCatchUpEnd (s : State) : Host.Outcome State Fault Refusal :=
  .next (match s.mtu.half with
    | some v => if s.powered && s.mtu.mt ≤ v then { s with mtu := { s.mtu with half := none } } else s
    | none => s)

/-- MT's next value at core clock `clk`: held, or at half rate, it waits for the reference value. Steering moves it by 1 ns in each
256 ns while fabric refinement is enabled (R217, R220; DESIGN CHOICE, unsafe: notes/assumptions/25.md). A hold goes on when the reference is lost,
its value counting from the core clock as MT itself does then (DESIGN CHOICE, unsafe: notes/assumptions/123.md). -/
def Mtu.count (m : Mtu) (clk : Nat) (refined : Bool) : Mtu :=
  match m.hold with
  | some v => { m with hold := some (v + 1), mt := max m.mt (v + 1) }
  | none => match m.half with
    | some v => { m with half := some (v + 1), mt := max (if clk % 4 == 0 then m.mt + 1 else m.mt) (v + 1) }
    | none =>
      if clk % 512 == 0 && refined && m.steer.isSome && 2 ≤ m.lock && m.slew != 0 then
        (if 0 < m.slew then { m with mt := m.mt + 2, slew := m.slew - 1 } else { m with slew := m.slew + 1 })
      else { m with mt := m.mt + 1 }

/-- One clock of MT (R212, R214): MT counts at every second core clock. -/
def State.mtClock (s : State) : State :=
  if s.clk % 2 == 1 then s
  else
    let next := s.mtu.count s.clk s.refined
    let g := if next.mt / 1024 != s.mtu.mt / 1024 && !s.mtu.inGuard then s.guardBeats else s.mtu.guard
    { s with mtu := { next with guard := g } }

/-- MTU_NOW_READ (R237): a 32-bit read of the low half latches the high half. -/
def execMtuNowRead (link : Nat) (s : State) : Host.Outcome State Fault Refusal :=
  .next (if s.linkOn link then
    ({ s with mtu := { s.mtu with latch := BitVec.ofNat 32 (s.mtu.mt / 2 ^ 32) } } : State).emit
      (.ioData link (BitVec.ofNat 64 (s.mtu.mt % 2 ^ 32))) else s)

/-! ### Writes of the table (R223, R225) -/

/-- The limits of R225 for entry `i` holding `v`, beside the others. -/
def State.schGood (s : State) (i : Nat) (v : BitVec 96) : Bool :=
  let c := schClass v
  let p := schPeriod v
  let w := v.toNat / 2 ^ 48 % 64
  let other (f : BitVec 96 → Bool) : Bool := (List.range 64).any fun j => j != i && schEn (s.schReg j) && f (s.schReg j)
  schPhase v < p && 1 ≤ p && p ≤ 1048576 && 1 ≤ c && c ≤ 8
    && (c != 1 || ((List.range 11).any fun k => p == 2 ^ (10 + k)) && 1 ≤ w && w ≤ 32 && !other fun u => schClass u == 1)
    && (c != 6 || p ≤ 1024 && !other fun u => schClass u == 6)
    && (c != 2 || !other fun u => schClass u == 2 && (schArg u % 2 == schArg v % 2))

/-- Bits that a write of `size` bytes at register byte `b` replaces in an old 64-bit value. -/
def mergeWrite (old : Word) (b size : Nat) (v : Word) : Word :=
  if size == 4 then setFld old (8 * (b % 8)) 32 (v.toNat % 2 ^ 32) else v

/-- A write of a schedule entry (R223, R225): the fields are RWL; a change takes effect at the next beat boundary (DEDUCED, unsafe: notes/assumptions/43.md). -/
def State.schWrite (s : State) (off size : Nat) (v : Word) : State :=
  let i := (off - offMtu 0x1000) / 16
  let isT := off % 16 < 8
  let old := s.schReg i
  let oldT : Word := BitVec.ofNat 64 old.toNat
  let oldA : Word := BitVec.ofNat 64 (old.toNat / 2 ^ 64)
  let okOff := offMtu 0x1000 ≤ off && off < offMtu 0x1400 && off % size == 0 && (size == 4 || size == 8)
  if !(s.powered && s.rwlOpen && okOff) then s
    else
      let t := if isT then (mergeWrite oldT off size v) &&& 0x8F3F07FFFFDFFFFF#64 else oldT
      let a := if isT then oldA else (mergeWrite oldA off size v) &&& 0xFFFFFFFF#64
      let new := BitVec.ofNat 96 (t.toNat + a.toNat * 2 ^ 64)
      let refuse := schEn new && !s.schGood i new
      let new := if refuse then new &&& ~~~(BitVec.ofNat 96 (2 ^ 63)) else new
      let s : State := if refuse then { s with mtu := { s.mtu with schErr := true, schErrEntry := i } } else s
      let held := if s.mtu.schBeat == s.beat then s.mtu.schOld else []
      let held := if held.any fun e => e.1 == i then held else held ++ [(i, old)]
      { s with mtu := { s.mtu with sch := Tab.put (Tmr.of 0) s.mtu.sch i (Tmr.of new), schOld := held, schBeat := s.beat } }

/-- SCHEDULE_ENTRY_WRITE (R225). -/
def execScheduleEntryWrite (link off size : Nat) (v : Word) (s : State) : Host.Outcome State Fault Refusal :=
  .next (if s.linkOn link then s.schWrite off size v else s)

/-! ### Guards and lulls (R229–R235) -/

/-- GUARD_START (R229): G beats before a firing of the enabled CLASS 1 entry. -/
def execGuardStart (s : State) : Host.Outcome State Fault Refusal :=
  .next (match s.schOf 1 with
    | none => s
    | some v =>
      let g := s.mtu.guard
      if s.powered && s.locked && !s.inPause && schSince v (s.beat + g) == 0 && s.mtu.resumeBeat ≤ s.beat + g then
        { s with mtu := { s.mtu with inGuard := true, guard := g, lullBeat := s.beat + g, lullWidth := schWidth v,
                                     lullArg := BitVec.ofNat 32 (schArg v) } }
      else s)

/-- Refresh-phase firings of near or far channels in the beats of the lull (R271): at most 8. -/
def State.lullFirings (s : State) (far : Bool) : Nat :=
  let es := ((List.range 64).map s.sch).filter fun v => schEn v && schClass v == 2 && 0 < schPeriod v && (schArg v % 2 == 1) == far
  min 8 ((List.range s.mtu.lullWidth).filter fun i => es.any fun v => schSince v (s.mtu.lullBeat + i) == 0).length

/-- What every channel must finish before its lull work (R162) is marked. -/
def CUnit.markPre (x : CUnit) : CUnit :=
  { x with q := x.q.map fun r => { r with pre := true }, hold := x.hold.map fun r => { r with pre := true } }

/-- A lull may start: the lower-numbered entries due at its units have fired (R221). -/
def State.lullMay (s : State) : Bool :=
  s.lullDue && (match s.lullEntry with
    | some j => !((List.range j).any fun i => lullUnit (schClass (s.sch i)) && s.due i (schClass (s.sch i)))
    | none => true)

/-- What a lull's start makes of a channel: it waits for its accesses (R162), and owes a refresh for each firing that its segment 1 takes the
place of (R271). A channel that does no lull work owes none (R270). -/
def Chan.lullStart (ch : Chan) (more : Nat) : Chan :=
  let works := ch.ready && !ch.frozen && !ch.training && !ch.bist && !ch.sr
  { ch with u0 := ch.u0.markPre, u1 := ch.u1.markPre, lull := { owed := if works then ch.lull.owed + more else 0 } }

/-- LULL_START (R229, R162). -/
def execLullStart (s : State) : Host.Outcome State Fault Refusal :=
  .next (if !(s.powered && s.lullMay) then s
    else
      let trks := (List.range 64).flatMap fun n =>
        ((s.slice n).trks.filter fun t => match t.for_ with
          | .peer _ _ => t.ph != .reserved
          | .glob src _ => s.peerNode src
          | _ => false).map fun t => (n, t.htid, t.seq)
      let s : State := { s with
        mtu := { s.mtu with inGuard := false, inLull := true, lullTrks := trks }
        hreqs := s.hreqs.map fun h => { h with preLull := true } }
      -- segment 1 makes up for the firings inside the lull (R271)
      let more (c : Nat) : Nat := if s.mtu.lullArg.getLsbD 1 then s.lullFirings (64 ≤ c) else 0
      s.mem.chans.foldl (fun s (c, ch) => s.setChan c (ch.lullStart (more c))) s)

/-- DIRECTORY_SWEEP (R226): one step pending in each bank; beyond 64 they are dropped and counted. A firing inside a lull does the same, and its
step may run in that lull (DESIGN CHOICE, unsafe: notes/assumptions/124.md). -/
def execDirectorySweep (entry : Nat) (s : State) : Host.Outcome State Fault Refusal :=
  .next (match s.fire entry 4 with
    | none => s
    | some s =>
      if s.boot.level < 2 then s
      else
        let k := schArg (s.sch entry) % 2 ^ 16
        s.noFinds fun s => (List.range 16).foldl (fun s b =>
          let x := s.bank b
          if x.sweepDue.length < 64 then s.setBank b { x with sweepDue := x.sweepDue ++ [k] }
          else { s with mtu := { s.mtu with deferred := satAdd 0xFFFF s.mtu.deferred 1 } }) s)

/-- LEASE_EPOCH_ADVANCE (R203): one step, never skipped or merged. -/
def execLeaseEpochAdvance (entry : Nat) (s : State) : Host.Outcome State Fault Refusal :=
  .next (match s.fire entry 6 with
    | none => s
    | some s => if s.boot.level < 2 then s else { s with lse := { s.lse with steps := s.lse.steps ++ [false] } })

/-- UNLOCKED_LEASE_ADVANCE (R203). -/
def execUnlockedLeaseAdvance (s : State) : Host.Outcome State Fault Refusal :=
  .next (if s.powered && 2 ≤ s.boot.level && !s.locked && s.unlockedPeriod * beatClks ≤ s.clk - s.lse.last
      && !s.lse.steps.contains false then
    { s with lse := { s.lse with steps := s.lse.steps ++ [false] } } else s)

end Sys2Proof.Machine
end

