-- ==== Sys2Proof/Machine/Fence.lean ====
section
/-! DEFINITION. Lease epochs (R203–R207), fences and the two combining trees (R193–R199, R337–R349), invalidation broadcasts
and explicit invalidations (R300, R301, R351). -/

namespace Sys2Proof.Machine

/-! ### Fences: status and completion -/

/-- Status word (Table 7.4). -/
def Fence.status (f : Fence) (code : Nat) : Word :=
  BitVec.ofNat 64 (code % 256 + (if f.seenDead then 256 else 0) + (if f.seenDown then 512 else 0)
    + (match f.node with | some n => n % 2 ^ 15 * 2 ^ 16 + 2 ^ 31 | none => 0))

/-- The most severe outcome of the fence's own accesses. -/
def Fence.own (f : Fence) : Nat := if f.seenDown then 2 else if f.seenDead then 1 else 0

/-- The fence's scope covers accesses of `who` (Table 7.3). -/
def Fence.covers (f : Fence) (who : Nat) : Bool := f.scope != 0 || who == f.link

/-- The fence reports the failures that it covers and no fence has reported (R192). -/
def State.takeFails (s : State) (f : Fence) : Fence × State :=
  ((s.fails.filter fun r => f.covers r.who).foldl Fence.charge f, { s with fails := s.fails.filter fun r => !f.covers r.who })

def State.modFence (s : State) (fid : Nat) (g : Fence → Fence) : State :=
  { s with fnc := { s.fnc with fences := s.fnc.fences.map fun f => if f.fid == fid then g f else f } }

/-- The fence leaves the FNC, and the oldest one that waited at its port takes its place (R338), and joins its tree's generation then
(R344). -/
def State.fenceGone (s : State) (fid : Nat) : State :=
  let rest := s.fnc.fences.filter fun f => f.fid != fid
  let fs := match rest.find? fun f => f.ph == .port with
    | some p =>
      if (rest.filter fun f => f.ph != .port).length < 64 then (
        let t := if p.scope == 3 then s.fnc.sys else s.fnc.dom
        rest.map fun f => if f.fid == p.fid then { f with ph := .wait, gen := if t.sent then (t.gen + 1) % 256 else t.gen } else f)
      else rest
    | none => rest
  { s with fnc := { s.fnc with fences := fs } }

/-- Complete a fence with a code (R339, R347). One answered DEADLINE before keeps silent (R348); the status word of one whose link was
reset is discarded (R171). -/
def State.fenceEnd (s : State) (f : Fence) (code : Nat) : State :=
  let s := s.fenceGone f.fid
  if f.gone then s
  else
    let s : State := { s with fnc := { s.fnc with completed := (s.fnc.completed + 1) % 2 ^ 32 } }
    if f.mute then s else s.emit (.ioData f.link (f.status code))

/-- Answer a fence DEADLINE (R198, R342). -/
def State.fenceLate (s : State) (f : Fence) : State :=
  if f.gone then s
  else
    let s := ({ s with fnc := { s.fnc with deadlines := satAdd 0xFFFF s.fnc.deadlines 1 } } : State).event 208 3 1
    if f.mute then s else s.emit (.ioData f.link (f.status 3))

/-! ### Trees (R340–R347) -/

def State.tree (s : State) (sys : Bool) : Tree := if sys then s.fnc.sys else s.fnc.dom
def State.setTree (s : State) (sys : Bool) (t : Tree) : State :=
  if sys then { s with fnc := { s.fnc with sys := t } } else { s with fnc := { s.fnc with dom := t } }
def State.treeKids (s : State) (sys : Bool) : List Nat := if sys then s.sysKids else s.fnc.domKids
def State.treeRoot (s : State) (sys : Bool) : Bool := if sys then s.sysRoot == s.nodeNo else s.fnc.domRank == 0
def State.treeParent (s : State) (sys : Bool) : Nat := if sys then s.sysParent else s.fnc.domParent
/-- The tree runs at this E9 (R343, R349). -/
def State.treeOn (s : State) (sys : Bool) : Bool := if sys then s.sysEn else s.dom.st == 2
/-- A fence of this tree has no collective phase: an E9 alone in its domain, or outside the system tree (R196, R343). -/
def State.alone (s : State) (sys : Bool) : Bool := if sys then !s.sysEn else s.others.isEmpty

/-- Send a tree packet: TYPE 2 on VN3 (R350). -/
def State.sendTree (s : State) (dst : Nat) (t : TreeMsg) : State := s.sendPkt dst 3 false false (.tree t)

/-- A tree packet is discarded (R346). -/
def State.treeDrop (s : State) : State := { s with fnc := { s.fnc with discarded := satAdd 0xFFFF s.fnc.discarded 1 } }

/-- A fence whose collective phase is over: a RELEASE completes, the others wait for the double advance (R347, R195). -/
def State.fenceOut (s : State) (f : Fence) (code ticket : Nat) : State :=
  if f.acq then s.modFence f.fid fun f => { f with ph := .adv ticket, code := code } else s.fenceEnd f code

/-- Fences that joined generation `g` of a tree. -/
def State.joined (s : State) (sys : Bool) (g : Nat) : List Fence :=
  s.fnc.fences.filter fun f => f.scope == (if sys then 3 else 2) && f.gen == g && (match f.ph with | .wait => true | .tree _ => true | _ => false)

/-- The downdraft of the current generation (R347). -/
def State.downdraft (s : State) (sys : Bool) (kinds : BitVec 2) (code : Nat) : State :=
  let t := s.tree sys
  let g := t.gen
  let s := (s.treeKids sys).foldl (fun s k => s.sendTree k { op := 2, sys := sys, gen := g, kinds := kinds, code := code }) s
  let fs := s.joined sys g
  let s := s.setTree sys { gen := (g + 1) % 256 }
  let (ticket, s) := if kinds.getLsbD 1 then (let (k, s) := s.reqAdvance; (k, s.xltDropBbm (if sys then 3 else 2))) else (0, s)
  fs.foldl (fun s f => s.fenceOut f code ticket) s

/-- Arrive for the current generation when every child has, and every fence that joined it has finished its local waits, of
which there is at least one (R344); the root sends the downdraft. -/
def State.tryArrive (s : State) (sys : Bool) : State :=
  let t := s.tree sys
  let fs := s.joined sys t.gen
  if t.sent || !s.treeOn sys || fs.isEmpty || !(fs.all fun f => f.localDone) || !((s.treeKids sys).all fun k => t.counted.contains k) then s
  else
    let kinds := fs.foldl (fun k f => k ||| (if f.rel then 1 else 0) ||| (if f.acq then 2 else 0)) t.kinds
    let code := fs.foldl (fun c f => max c f.code) t.code
    let code := if sys && s.dom.st == 3 then max code 2 else code
    if s.treeRoot sys then s.downdraft sys kinds code
    else (s.setTree sys { t with sent := true }).sendTree (s.treeParent sys)
      { op := 1, sys := sys, gen := t.gen, kinds := kinds, code := code }

/-! ### The fence page (R193, R337) -/

/-- Completer Abort for a misaligned access or one of the wrong size, with one GENERAL record (R464). -/
def State.badAccess (s : State) (link off : Nat) : State := (s.rec_ 0xFF 210 0xFFFF off 0).emit (.ioAbort link)

/-- The FNC serves fences of scope `sc` (Table 16.1). -/
def State.scopeOn (s : State) (sc : Nat) : Bool := if sc ≤ 1 then 2 ≤ s.boot.level else s.boot.level == 3

/-- FENCE_READ (R193, R199, R337, R338): `off` is the register-window offset. A fence whose scope is not in service yet reads as zero (DESIGN CHOICE,
unsafe: notes/assumptions/114.md) (DEDUCED, safe: notes/assumptions/39.md) (DEDUCED, unsafe: notes/assumptions/40.md). -/
def execFenceRead (link off size : Nat) (s : State) : Host.Outcome State Fault Refusal :=
  let o := off - 0x40000
  .next (if !(s.linkOn link && 0x40000 ≤ off && off < 0x41000) then s
    else if !((size == 4 || size == 8) && off % size == 0) then s.badAccess link off
    else if o / 256 != 0 || o % 16 != 0 || !s.scopeOn (o / 64 % 4) then s.emit (.ioData link 0)
    else
      let k := o / 16 % 4
      let sc := o / 64 % 4
      let (id, s) := s.newId
      let sys := sc == 3
      let t := s.tree sys
      let f : Fence :=
        { fid := id, link := link, scope := sc, rel := k != 1, acq := k != 0, t0 := s.clk,
          snap := [], ph := if 64 ≤ (s.fnc.fences.filter fun f => f.ph != .port).length then .port else .wait,
          gen := if t.sent then (t.gen + 1) % 256 else t.gen }
      let f := { f with snap := (s.accs.filter fun a => f.covers a.who).map (·.aid) }
      let (f, s) := s.takeFails f
      let s : State := { s with fnc := { s.fnc with fences := s.fnc.fences ++ [f] } }
      let s := s.event 208 1 1
      if sc == 2 && s.dom.st == 3 then s.fenceEnd { f with seenDown := f.seenDown } 2 else s)

/-- Accesses the fence still waits for: writes under RELEASE, reads under ACQUIRE (R194). -/
def State.fenceWaits (s : State) (f : Fence) : Bool :=
  s.accs.any fun a => f.snap.contains a.aid && ((f.rel && a.wr) || (f.acq && a.rd))

/-- FENCE_LOCAL_WAITS_DONE (R337, R339, R344). -/
def execFenceLocalWaitsDone (fid : Nat) (s : State) : Host.Outcome State Fault Refusal :=
  .next (match s.fnc.fences.find? fun f => f.fid == fid with
    | none => s
    | some f =>
      if !s.powered || f.ph != .wait || f.localDone || s.fenceWaits f then s
      else
        let f := { f with localDone := true, code := f.own }
        let s := s.modFence fid fun _ => f
        if f.scope == 0 then s.fenceEnd f f.code
        else if f.scope == 1 then (if f.acq then s.xltDropBbm 1 else s).fenceEnd f f.code
        else
          let sys := f.scope == 3
          if s.alone sys then
            if f.acq then
              let (k, s) := s.reqAdvance
              (s.xltDropBbm f.scope).fenceOut f (if sys && s.dom.st == 3 then max f.code 2 else f.code) k
            else s.fenceEnd f (if sys && s.dom.st == 3 then max f.code 2 else f.code)
          else (s.modFence fid fun f => { f with ph := .tree f.gen }).tryArrive sys)

/-- FENCE_DEADLINE (R198, R348): 22,000 core clocks after the read was received. -/
def execFenceDeadline (fid : Nat) (s : State) : Host.Outcome State Fault Refusal :=
  .next (match s.fnc.fences.find? fun f => f.fid == fid with
    | none => s
    | some f =>
      if !s.powered || f.gone || s.clk - f.t0 < 22000 then s
      else
        let s := s.fenceLate f
        let keeps := 2 ≤ f.scope && (match f.ph with | .wait => true | .tree _ => true | _ => false)
        if keeps then s.modFence fid fun f => { f with gone := true } else s.fenceGone fid)

/-- Tree packets of a DOWN domain are discarded (R349). -/
def State.treeMute (s : State) (sys : Bool) : Bool := !sys && s.dom.st == 3

/-- ARRIVE (R345, R346). -/
def execArrive (src : Nat) (m : TreeMsg) (s : State) : Host.Outcome State Fault Refusal :=
  let s := s.consume src (.tree m)
  let sys := m.sys
  let t := s.tree sys
  .next (if !s.powered || s.treeMute sys then s
    else if s.treeOn sys && (s.treeKids sys).contains src && m.gen == t.gen && !t.counted.contains src then
      ((s.event 208 2 1).setTree sys
        { t with counted := t.counted ++ [src], kinds := t.kinds ||| m.kinds, code := max t.code m.code }).tryArrive sys
    else s.treeDrop)

/-- DOWNDRAFT (R346, R347). -/
def execDowndraft (src : Nat) (m : TreeMsg) (s : State) : Host.Outcome State Fault Refusal :=
  let s := s.consume src (.tree m)
  let sys := m.sys
  .next (if !s.powered || s.treeMute sys then s
    else if s.treeOn sys && !s.treeRoot sys && src == s.treeParent sys && m.gen == (s.tree sys).gen then
      (s.downdraft sys m.kinds m.code).tryArrive sys
    else s.treeDrop)

/-- The domain enters DOWN: its pending fences complete, its tree is abandoned (R349). -/
def State.fencesDown (s : State) : State :=
  let fs := s.fnc.fences.filter fun f => f.scope == 2
  let s := fs.foldl (fun s f => s.fenceEnd f 2) s
  let s : State := { s with fnc := { s.fnc with dom := {}, bcDom := {} } }
  if s.xinv.busy && s.xinv.scope == 2 then
    { s with xinv := { s.xinv with busy := false, code := 2, again := none, num := none, done := s.xinv.done + 1 } } else s

/-! ### Registers of the system tree (R342) -/

/-- Writable bits of FNC_SYS_CFG and FNC_SYS_CHILD. -/
def sysMask (off : Nat) : Word := if off / 8 * 8 == offFnc 0x1000 then 0x80FF7FFF7FFF0000 else BitVec.allOnes 64

/-- A write of a system-tree register (R342). -/
def State.sysTreeWrite (s : State) (off size : Nat) (v : Word) : State :=
  let reg := off / 8 * 8
  if !(s.powered && offFnc 0x1000 ≤ off && off < offFnc 0x1028 && (size == 4 || size == 8) && off % size == 0) then s
    else
      let s := s.csrPut reg ((mergeWrite (s.csrGet reg) off size v) &&& sysMask reg)
      let fs := s.fnc.fences.filter fun f => f.scope == 3
      let s := fs.foldl (fun s f => (s.fenceLate f).fenceGone f.fid) s
      s.setTree true { gen := s.sysStartGen }

/-- SYSTEM_TREE_WRITE (R342). -/
def execSystemTreeWrite (link off size : Nat) (v : Word) (s : State) : Host.Outcome State Fault Refusal :=
  .next (if s.linkOn link then s.sysTreeWrite off size v else s)

/-! ### Lease epochs (R203–R206) -/

/-- Steps of double advances that wait, this one included, tell a first step from a second. -/
def Lse.firstOfDouble (l : Lse) : Bool := (l.steps.filter id).length % 2 == 0

/-- EPOCH_STEP_START (R206 steps 1 to 4). While the roster of the next epoch is not empty the step waits, and requests at the input of
such a slice gain the time that they wait through it, up to 1,024 ns (R243, Table 9.7). -/
def execEpochStepStart (s : State) : Host.Outcome State Fault Refusal :=
  .next (match s.lse.steps with
    | [] => s
    | dbl :: rest =>
      if !s.powered || s.lse.running.isSome then s
      else
        let e' := s.lse.epoch + 1
        let full := (List.range 64).filter fun n => !((s.slice n).roster e'.toNat).isEmpty
        if !full.isEmpty then
          if s.lse.blocked then s
          else
            ({ s with lse := { s.lse with blocked := true },
                      hreqs := s.hreqs.map fun h =>
                        let n := s.sliceFor h
                        if full.contains n && (s.slice n).inq.any fun r => r.src == .host h.rid then { h with rosterAt := some s.clk }
                        else h } : State)
        else
          let s := s.rosterGone fun _ => true
          let first := dbl && s.lse.firstOfDouble
          let s := s.event 209 4 1
          let s : State := { s with lse := { s.lse with
            epoch := e', advances := s.lse.advances + 1, count := s.lse.count + 1, steps := rest, running := some dbl,
            blocked := false, last := s.clk, dblStarted := s.lse.dblStarted + if first then 1 else 0 } }
          s.hsf.foldl (fun s h =>
            (h.copies.filter fun c => c.glob && 2 ≤ s.lse.count - c.advs).foldl (fun s c => s.sendBi h.key h.flat c true .epoch) s) s)

/-- EPOCH_STEP_COMPLETE (R206 step 5): its back-invalidations have been answered or ended. The second step of a double
advance completes the fences that waited for it (R347). -/
def execEpochStepComplete (s : State) : Host.Outcome State Fault Refusal :=
  .next (match s.lse.running with
    | none => s
    | some dbl =>
      let aged := s.hsf.any fun h => h.copies.any fun c => c.glob && 2 ≤ s.lse.count - c.advs
      if !s.powered || aged || (s.bisnps.any fun b => b.wait == .epoch) then s
      else
        let second := dbl && s.lse.firstOfDouble
        let s : State := { s with lse := { s.lse with running := none, dblDone := s.lse.dblDone + if second then 1 else 0 } }
        (s.fnc.fences.filter fun f => match f.ph with | .adv k => k ≤ s.lse.dblDone | _ => false).foldl
          (fun s f => s.fenceEnd f f.code) s)

/-- ROSTER_SWEEP (R206): the next set of the older stale roster, or else of the other; none while the cache is in HOLD, where no
tag block is touched (R108) (DEDUCED, safe: notes/assumptions/41.md). -/
def execRosterSweep (n : Nat) (s : State) : Host.Outcome State Fault Refusal :=
  .next (if !s.sliceOn n || s.mode == 2 then s
    else
      let x := s.slice n
      let e := s.lse.epoch.toNat
      let ep := if (x.roster ((e + 1) % 4)).isEmpty then (e + 2) % 4 else (e + 1) % 4
      match x.roster ep with
      | [] => s
      | set :: rest =>
        let b := s.tags n set
        let b' : TagBlk := { ways := b.ways.map fun t => if t.st == stL && t.ep.toNat == ep then { t with st := stI, ep := 0, lock := false } else t }
        let s := (s.putTags n set b').modSlice n fun x => x.setRoster ep rest
        -- the step that waited for this roster waits at the slice no more
        if rest.isEmpty && ep == (e + 1) % 4 then s.rosterGone fun h => s.sliceFor h == n else s)

/-! ### Invalidations (R300, R301, R351) -/

def State.bc (s : State) (sys : Bool) : BcChan := if sys then s.fnc.bcSys else s.fnc.bcDom
def State.setBc (s : State) (sys : Bool) (c : BcChan) : State :=
  if sys then { s with fnc := { s.fnc with bcSys := c } } else { s with fnc := { s.fnc with bcDom := c } }

/-- The awaited accesses of an invalidation have been performed or discarded. -/
def State.snapDone (s : State) (snap : List Nat) : Bool := !(s.accs.any fun a => snap.contains a.aid)

/-- The invalidation of this E9 ends with a code (R301). -/
def State.invEnd (s : State) (code : Nat) : State :=
  { s with xinv := { s.xinv with busy := false, code := code, again := none, num := none, snap := [], done := s.xinv.done + 1 } }

/-- The broadcast is complete here: BACK to the parent, or BDONE to the origin (R351 steps 5 and 6). A system one reports a DOWN domain as a
fence of that scope does (R199, R301). -/
def State.bcTry (s : State) (sys : Bool) : State :=
  let c := s.bc sys
  if !(c.active && c.waitKids.isEmpty && s.snapDone c.snap) then s
  else
    let code := if sys && s.dom.st == 3 then max c.code 2 else c.code
    let s := s.setBc sys { c with active := false, rootBusy := false, snap := [] }
    if s.treeRoot sys then
      (if c.origin == s.nodeNo then (if s.xinv.busy && s.xinv.num == some c.num && sys == (s.xinv.scope == 3) then s.invEnd code else s)
       else s.sendTree c.origin { c.msg with op := 6, gen := c.num, code := code })
    else s.sendTree (s.treeParent sys) { c.msg with op := 5, gen := c.num, code := code }

/-- Start a broadcast at this E9: forward it, invalidate, and wait (R351 step 4). One that comes while an earlier one is unfinished takes its
place (DESIGN CHOICE, safe: notes/assumptions/115.md). -/
def State.bcStart (s : State) (sys : Bool) (num : Nat) (m : TreeMsg) : State :=
  let kids := s.treeKids sys
  let s := kids.foldl (fun s k => s.sendTree k { m with op := 4, gen := num }) s
  let snap := s.accsUnder m.ityp m.ctx (m.vpage * 4096)
  let s := s.xltInvalidate m.ityp m.ctx (m.vpage * 4096)
  (s.setBc sys { s.bc sys with active := true, num := num, origin := m.origin, msg := m, waitKids := kids, code := 0, snap := snap }).bcTry sys

/-- The root takes a broadcast request, or answers BBUSY (R351 steps 2 and 3). -/
def State.bcRequest (s : State) (sys : Bool) (m : TreeMsg) : State :=
  let c := s.bc sys
  if c.rootBusy then
    (if m.origin == s.nodeNo then { s with xinv := { s.xinv with again := some (s.clk + 2048) } }
     else s.sendTree m.origin { m with op := 7 })
  else
    let s : State := if m.origin == s.nodeNo then { s with xinv := { s.xinv with num := some c.nextNum } } else s
    (s.setBc sys { c with rootBusy := true, nextNum := (c.nextNum + 1) % 256 }).bcStart sys c.nextNum m

/-- Send the request of this E9's invalidation to its tree's root. -/
def State.bcAsk (s : State) : State :=
  let sys := s.xinv.scope == 3
  if s.treeRoot sys then s.bcRequest sys s.xinv.msg
  else s.sendTree (if sys then s.sysRoot else s.fnc.domRoot) { s.xinv.msg with op := 3 }

/-- A write to XLT_INV_CMD (R300, R301): ignored while BUSY is 1. One of a domain that is still FORMING goes out when its tree runs. -/
def State.invStart (s : State) (typ ctx scope : Nat) : State :=
  if !s.powered || s.xinv.busy then s
  else
    let sc := if scope == 0 then 1 else scope
    let vp := fld (s.csrGet 0xE60000) 12 45
    let sys := sc == 3
    let m : TreeMsg := { op := 3, sys := sys, origin := s.nodeNo, ityp := typ, ctx := if typ == 3 then 0 else ctx,
                         vpage := if typ == 1 then vp else 0 }
    let worst := if sys && s.dom.st == 3 then 2 else 0
    let s : State := { s with xinv := { s.xinv with
      busy := true, t0 := s.clk, scope := sc, msg := m, snap := [], worst := worst, again := none, num := none } }
    if sc == 2 && s.dom.st == 3 then s.invEnd 2
    else if sc == 1 || s.alone sys then
      let snap := s.accsUnder typ ctx (vp * 4096)
      let s := s.xltInvalidate typ ctx (vp * 4096)
      if s.snapDone snap then s.invEnd s.xinv.worst else { s with xinv := { s.xinv with snap := snap, scope := 1 } }
    else if s.treeOn sys then s.bcAsk
    else { s with xinv := { s.xinv with again := some s.clk } }

/-- ADDRESS (Table 11.4). -/
def execAddress (link ctx scope : Nat) (s : State) : Host.Outcome State Fault Refusal :=
  .next (if s.linkOn link then s.invStart 1 ctx scope else s)
/-- CONTEXT (Table 11.4). -/
def execContext (link ctx scope : Nat) (s : State) : Host.Outcome State Fault Refusal :=
  .next (if s.linkOn link then s.invStart 2 ctx scope else s)
/-- ALL (Table 11.4). -/
def execAll (link scope : Nat) (s : State) : Host.Outcome State Fault Refusal :=
  .next (if s.linkOn link then s.invStart 3 0 scope else s)

/-- INVALIDATION_LIMIT (R301): 22,000 core clocks. -/
def execInvalidationLimit (s : State) : Host.Outcome State Fault Refusal :=
  .next (if s.powered && s.xinv.busy && 22000 ≤ s.clk - s.xinv.t0 then
    { s with xinv := { s.xinv with busy := false, code := 3, again := none, num := none, snap := [] } } else s)

/-- A write of a context register (R282). -/
def State.ctxWrite (s : State) (off size : Nat) (v : Word) : State :=
  let reg := off / 8 * 8
  let mask : Word := if off % 16 < 8 then 0x01FFFFFFFFFFF000 else 0x800000000FFF003F
  if !(s.powered && 0xE80000 ≤ off && off < 0xE90000 && (size == 4 || size == 8) && off % size == 0) then s
    else (s.csrPut reg ((mergeWrite (s.csrGet reg) off size v) &&& mask)).xltDropCtx ((off - 0xE80000) / 16)

/-- CONTEXT_REGISTER_WRITE (R282). -/
def execContextRegisterWrite (link off size : Nat) (v : Word) (s : State) : Host.Outcome State Fault Refusal :=
  .next (if s.linkOn link then s.ctxWrite off size v else s)

/-- BREQ (R351): the root of the tree takes it. -/
def execBreq (src : Nat) (m : TreeMsg) (s : State) : Host.Outcome State Fault Refusal :=
  let s := s.consume src (.tree m)
  .next (if !s.powered || s.treeMute m.sys then s
    else if s.treeOn m.sys && s.treeRoot m.sys && (m.sys || s.peerNode src) then s.bcRequest m.sys { m with origin := src }
    else s.treeDrop)

/-- Root of a tree. -/
def State.rootNode (s : State) (sys : Bool) : Nat := if sys then s.sysRoot else s.fnc.domRoot

/-- BBUSY (R351): the origin asks again 1,024 ns later. -/
def execBbusy (src : Nat) (m : TreeMsg) (s : State) : Host.Outcome State Fault Refusal :=
  let s := s.consume src (.tree m)
  .next (if !s.powered || s.treeMute m.sys then s
    else if src != s.rootNode m.sys then s.treeDrop
    else if s.xinv.busy && m.sys == (s.xinv.scope == 3) then { s with xinv := { s.xinv with again := some (s.clk + 2048) } }
    else s)

/-- BCAST (R351). -/
def execBcast (src : Nat) (m : TreeMsg) (s : State) : Host.Outcome State Fault Refusal :=
  let s := s.consume src (.tree m)
  .next (if !s.powered || s.treeMute m.sys then s
    else if s.treeOn m.sys && !s.treeRoot m.sys && src == s.treeParent m.sys then s.bcStart m.sys m.gen m
    else s.treeDrop)

/-- BACK (R351). -/
def execBack (src : Nat) (m : TreeMsg) (s : State) : Host.Outcome State Fault Refusal :=
  let s := s.consume src (.tree m)
  let c := s.bc m.sys
  .next (if !s.powered || s.treeMute m.sys then s
    else if c.active && c.waitKids.contains src && m.gen == c.num then
      (s.setBc m.sys { c with waitKids := c.waitKids.filter (· != src), code := max c.code m.code }).bcTry m.sys
    else s.treeDrop)

/-- BDONE (R351): one that comes after the limit is discarded. -/
def execBdone (src : Nat) (m : TreeMsg) (s : State) : Host.Outcome State Fault Refusal :=
  let s := s.consume src (.tree m)
  .next (if !s.powered || s.treeMute m.sys then s
    else if src != s.rootNode m.sys then s.treeDrop
    else if s.xinv.busy && m.sys == (s.xinv.scope == 3) && m.ityp == s.xinv.msg.ityp && m.ctx == s.xinv.msg.ctx && m.vpage == s.xinv.msg.vpage then s.invEnd m.code else s)

/-- One clock of the FNC and the invalidation registers: generations that have become complete, as when the domain enters UP (R344), waits that
have ended, and requests to send. -/
def State.fncClock (s : State) : State :=
  let s := (((s.tryArrive false).tryArrive true).bcTry false).bcTry true
  let s := if s.xinv.busy && s.xinv.scope == 1 && s.snapDone s.xinv.snap then s.invEnd s.xinv.worst else s
  match s.xinv.again with
  | some t => if s.xinv.busy && t ≤ s.clk && s.treeOn (s.xinv.scope == 3) then ({ s with xinv := { s.xinv with again := none } } : State).bcAsk else s
  | none => s

end Sys2Proof.Machine
end

