-- ==== Sys2Proof/Machine/Qmg.lean ====
section
/-! DEFINITION. The queue manager: the cell pool, enqueues, consumer operations and notification (R376–R383). -/

namespace Sys2Proof.Machine

def State.qent (s : State) (q : Nat) : QEnt := Tab.get {} s.qmg.qs q
def State.setQent (s : State) (q : Nat) (e : QEnt) : State := { s with qmg := { s.qmg with qs := Tab.put {} s.qmg.qs q e } }

/-- Cells a queue may hold (Table 14.7). -/
def QEnt.cap (e : QEnt) : Nat := max 64 e.limit

/-- Cells in the free list (R377). -/
def Qmg.freeCells (m : Qmg) : Nat := m.free.length + (m.freshEnd - m.fresh)

/-- `n` cells along the link words from cell `c`, each with its LAST mark. -/
def Qmg.walk (m : Qmg) : Nat → Nat → List (Nat × Bool)
  | 0, _ => []
  | n + 1, c =>
    let l := Tab.get {} m.links c
    (c, l.last) :: Qmg.walk m n l.next

/-- The cells of queue `q`, oldest first. -/
def Qmg.chain (m : Qmg) (q : Nat) : List (Nat × Bool) :=
  let e := Tab.get {} m.qs q
  Qmg.walk m e.count e.head

/-- The cells up to and with the first that ends its item. -/
def itemCells : List (Nat × Bool) → List Nat
  | [] => []
  | (c, last) :: t => c :: if last then [] else itemCells t

/-- The queue that holds cell `c`. -/
def Qmg.holder (m : Qmg) (c : Nat) : Option Nat :=
  (m.qs.find? fun e => (m.chain e.1).any fun x => x.1 == c).map (·.1)

/-- Cells return to the free list. -/
def Qmg.release (m : Qmg) (cs : List Nat) : Qmg :=
  { m with free := m.free ++ cs, links := cs.foldl (fun t c => Tab.put {} t c {}) m.links }

/-- Take `n` cells from the free list, in its order (DESIGN CHOICE, unsafe: notes/assumptions/22.md). -/
def Qmg.take (m : Qmg) : Nat → List Nat × Qmg
  | 0 => ([], m)
  | n + 1 =>
    match m.free with
    | c :: t =>
      let (cs, m) := Qmg.take { m with free := t } n
      (c :: cs, m)
    | [] =>
      if m.fresh < m.freshEnd then
        let (cs, m') := Qmg.take { m with fresh := m.fresh + 1 } n
        (m.fresh :: cs, m')
      else ([], m)

/-- The entry after its oldest `k` cells, all of its current item, have gone: `done` when they end the item. -/
def Qmg.advanceHead (m : Qmg) (q k : Nat) (done : Bool) : Qmg :=
  let e := Tab.get {} m.qs q
  let rest := (m.chain q).drop k
  let e := { e with count := e.count - k, head := match rest with | (c, _) :: _ => c | [] => 0 }
  let e := if done then
      { e with items := e.items - 1, curOff := 0, curLen := (itemCells rest).length, tail := if rest.isEmpty then 0 else e.tail }
    else { e with curOff := e.curOff + k }
  { m with qs := Tab.put {} m.qs q e }

/-- Remove the first `k` cells that remain of the current item. -/
def Qmg.remove (m : Qmg) (q k : Nat) : Qmg :=
  let item := itemCells (m.chain q)
  let k := min k item.length
  if k == 0 then m else (m.advanceHead q k (decide (k = item.length))).release (item.take k)

/-- Remove the rest of the current item. -/
def Qmg.dropItem (m : Qmg) (q : Nat) : Qmg := m.remove q (itemCells (m.chain q)).length

/-- Empty the queue. -/
def Qmg.empty (m : Qmg) (q : Nat) : Qmg :=
  let e := Tab.get {} m.qs q
  let cs := (m.chain q).map (·.1)
  ({ m with qs := Tab.put {} m.qs q { e with count := 0, items := 0, curLen := 0, curOff := 0, head := 0, tail := 0 } }).release cs

/-- Link a whole item at the tail (R379): the cells are written first. -/
def Qmg.link (m : Qmg) (q : Nat) (cells : List Line) : Qmg :=
  let (cs, m) := m.take cells.length
  let m : Qmg := { m with cells := (cs.zip cells).foldl (fun t x => Tab.put 0 t x.1 x.2) m.cells }
  let e := Tab.get {} m.qs q
  let links := if e.count == 0 then m.links else
    Tab.put {} m.links e.tail { (Tab.get {} m.links e.tail) with next := cs.headD 0 }
  let pairs := cs.zip (cs.drop 1 ++ [0])
  let links := pairs.foldl (fun t x => Tab.put {} t x.1 { last := decide (some x.1 = cs.getLast?), next := x.2 }) links
  let e := { e with count := e.count + cs.length, items := e.items + 1, tail := cs.getLastD 0,
                    head := if e.count == 0 then cs.headD 0 else e.head,
                    curLen := if e.count == 0 then cs.length else e.curLen, curOff := if e.count == 0 then 0 else e.curOff }
  { m with links := links, qs := Tab.put {} m.qs q e }

/-- OVERWRITE drops the oldest item; one that is being read, some of whose cells have been consumed, sets TORN (R379;
DEDUCED, unsafe: notes/assumptions/29.md). -/
def Qmg.overwrite (m : Qmg) (q : Nat) : Qmg :=
  let e := Tab.get {} m.qs q
  let m : Qmg := { m with qs := Tab.put {} m.qs q { e with lost := satAdd 0xFFFFFFFF e.lost 1, torn := e.torn || e.curOff != 0 } }
  m.dropItem q

/-- Drop oldest items while `more` asks for it and the queue is not empty: how many, and the result. -/
def Qmg.makeRoom (more : Qmg → Bool) (q : Nat) : Nat → Qmg → Nat × Qmg
  | 0, m => (0, m)
  | k + 1, m =>
    if more m && (Tab.get {} m.qs q).items != 0 then
      let (j, m) := Qmg.makeRoom more q k (m.overwrite q)
      (j + 1, m)
    else (0, m)

/-- What an enqueue comes to (Table 14.9): CODE, items dropped, and the manager after it (R379). A refusal counts in REFUSED
(DEDUCED, unsafe: notes/assumptions/29.md). -/
def Qmg.enqueue (m : Qmg) (q : Nat) (cells : List Line) : Nat × Nat × Qmg :=
  let e := Tab.get {} m.qs q
  let n := cells.length
  let refuse (code : Nat) : Nat × Nat × Qmg :=
    (code, 0, { m with qs := Tab.put {} m.qs q { e with refused := satAdd 0xFFFFFFFF e.refused 1 } })
  if !e.en then refuse 3
  else if e.err then refuse 4
  else if e.mode == 0 then
    if e.cap < e.count + n then refuse 1
    else if m.freeCells < n then refuse 2
    else (0, 0, m.link q cells)
  else
    let (a, m) := Qmg.makeRoom (fun m => e.cap < (Tab.get {} m.qs q).count + n) q (e.items + 1) m
    let (b, m) := Qmg.makeRoom (fun m => m.freeCells < n) q (e.items + 1) m
    if m.freeCells < n then
      let f := Tab.get {} m.qs q
      (2, a + b, { m with qs := Tab.put {} m.qs q { f with lost := satAdd 0xFFFFFFFF f.lost 1 } })
    else (0, a + b, m.link q cells)

/-- Push status word (Table 14.9). -/
def pushStatus (code dropped : Nat) : Word := BitVec.ofNat 64 (code % 256 + dropped % 2 ^ 16 * 2 ^ 16)

/-- The link word of cell `c` shows an uncorrectable error (R377): the queue that holds the cell takes ERR and loses the cells
beyond it, which leak; or the free list loses its rest. -/
def Qmg.linkUe (m : Qmg) (c : Nat) : Qmg :=
  match m.holder c with
  | some q =>
    let e := Tab.get {} m.qs q
    let ch := m.chain q
    let kept := (ch.takeWhile fun x => x.1 != c).length + 1
    let stays := ch.take kept
    let m : Qmg := { m with links := Tab.put {} m.links c { last := true, next := 0 } }
    let items := (stays.filter fun x => x.2 && x.1 != c).length + 1
    let cur := (itemCells ch).length
    { m with leaked := m.leaked + (ch.length - kept),
             links := (ch.drop kept).foldl (fun t x => Tab.put {} t x.1 {}) m.links,
             qs := Tab.put {} m.qs q { e with err := true, count := kept, items := items, tail := c,
                                              curLen := if kept < cur then e.curOff + kept else e.curLen } }
  | none =>
    if m.free.contains c then
      let kept := (m.free.takeWhile fun x => x != c).length + 1
      { m with leaked := m.leaked + (m.free.length - kept) + (m.freshEnd - m.fresh), free := m.free.take kept, freshEnd := m.fresh }
    else if m.fresh ≤ c && c < m.freshEnd then { m with leaked := m.leaked + (m.freshEnd - (c + 1)), freshEnd := c + 1 }
    else m

/-- A queue's COUNT has fallen: records held for it may be offered again (R372). -/
def State.countFell (s : State) (q : Nat) : State :=
  { s with pors := s.pors.map fun (p, x) => (p, { x with held := x.held.map fun r => if r.q == q then { r with at_ := 0 } else r }) }

/-- Errors that link words show at an operation: a queue that loses cells has a lower COUNT. -/
def State.linkErrs (s : State) (ue : List Nat) : State :=
  ue.foldl (fun s c =>
    let t : State := { s with qmg := s.qmg.linkUe c }
    match s.qmg.holder c with
    | some q => if (t.qent q).count < (s.qent q).count then t.countFell q else t
    | none => t) s

/-- House lines of cell `c` and of its link word (R97, R376). -/
def State.cellLine (s : State) (c : Nat) : Nat := (2 ^ 27 + s.dirGib * 2 ^ 30 + s.poolGib * 2 ^ 26) / 64 + c
def State.linkLine (s : State) (c : Nat) : Nat := (2 ^ 27 + s.dirGib * 2 ^ 30 + 4 * c) / 64

/-- The link words of cells are read, and written anew (R377). -/
def State.linksUsed (s : State) (cs : List Nat) : State :=
  (cs.map s.linkLine).dedup.foldl (fun s l =>
    let be := (cs.filter fun c => s.linkLine c == l).foldl (fun m c => m ||| BitVec.ofNat 64 (15 * 2 ^ (4 * c % 64))) (0 : BitVec 64)
    (s.houseRead l).2.houseMerge l be) s

/-- An enqueue, with the signal of R381. -/
def State.enqueueItem (s : State) (q : Nat) (cells : List Line) : (Nat × Nat) × State :=
  let was := s.qent q
  let (code, dropped, m) := s.qmg.enqueue q cells
  let s := { s with qmg := m }
  let s := if dropped != 0 then s.countFell q else s
  let lost := dropped + if code == 2 && was.mode == 1 then 1 else 0
  let s := if lost != 0 then s.event 207 3 lost else s
  if code != 0 then ((code, dropped), s.event 207 2 1)
  else
    -- the cells are written, and their link words (R379)
    let cs := (((m.chain q).map (·.1)).reverse.take cells.length).reverse
    let s := (cs.foldl (fun s c => s.houseAccess (s.cellLine c) true) s).linksUsed cs
    let s := s.event 207 1 1
    let sig := 96 ≤ was.nvec && ((was.nmode == 1 && was.items == 0) || was.nmode == 2)
    ((0, dropped), if sig then s.signal was.nlink was.nvec else s)

/-- The status of a queue as its registers show it needs no more than the entry; VIEW shows cell `i` of what remains of the
current item, zero beyond it (R382). -/
def State.view (s : State) (q i : Nat) : Line :=
  match (itemCells (s.qmg.chain q))[i]? with
  | some c => Tab.get 0 s.qmg.cells c
  | none => 0

/-- The pool as the level-2 step leaves it (R376–R378): every cell free, the table zero. -/
def State.poolInit (s : State) : State :=
  let c := 15 * s.poolGib * 2 ^ 20
  -- what stands before the manager is judged by the new table, and held records are offered again (R372)
  { s with qmg := { s.qmg with qs := [], cells := [], links := [], recCells := [], free := [], fresh := 0, freshEnd := c, total := c, leaked := 0 }
           pors := s.pors.map fun (p, x) => (p, { x with held := x.held.map fun r => { r with at_ := 0 } }) }

/-! ### Consumer operations (R383) -/

/-- ADVANCE by `adv` as the register gives it. -/
def State.qAdvance (s : State) (q adv : Nat) : State :=
  let k := if adv == 0 then 1 else min 64 adv
  if (s.qent q).count == 0 then s
  else (({ s with qmg := s.qmg.remove q k } : State).linksUsed ((itemCells (s.qmg.chain q)).take k)).countFell q

/-- DROP_PACKET. -/
def State.qDrop (s : State) (q : Nat) : State :=
  if (s.qent q).count == 0 then s
  else (({ s with qmg := s.qmg.dropItem q } : State).linksUsed (itemCells (s.qmg.chain q))).countFell q

/-- FLUSH. -/
def State.qFlush (s : State) (q : Nat) : State :=
  if (s.qent q).count == 0 then s
  else (({ s with qmg := s.qmg.empty q } : State).linksUsed ((s.qmg.chain q).map (·.1))).countFell q

/-- CLEAR. -/
def State.qClear (s : State) (q : Nat) : State := s.setQent q { s.qent q with lost := 0, refused := 0, torn := false }

end Sys2Proof.Machine
end

