-- ==== Sys2Proof/Machine/Porter.lean ====
section
/-! DEFINITION. The porters: descriptors, pieces, notifications, completion records, aborts and halts (R361–R375). -/

namespace Sys2Proof.Machine

/-! ### Descriptors (R361–R363) -/

/-- Word `i` of a cell. -/
def cellWord (c : Line) (i : Nat) : Nat := c.toNat / 2 ^ (64 * i) % 2 ^ 64

/-- Size of an ATOMIC's operand. -/
def Desc.opSize (d : Desc) : Nat := (aopSize d.aop).getD 0

/-- Operations that read a source. -/
def Desc.reads (d : Desc) : Bool := d.opc == 1 || d.opc == 4 || d.opc == 5 || d.opc == 6
/-- Operations whose accesses are made element by element. -/
def Desc.byElement (d : Desc) : Bool := d.opc == 4 || d.opc == 5

/-- Bytes that the descriptor's destination receives. -/
def Desc.total (d : Desc) : Nat :=
  if d.opc == 0 then 0
  else if d.opc == 7 then d.opSize
  else if d.byElement then d.count * d.len else d.len

def Desc.acquire (d : Desc) : Bool := d.flags.getLsbD 0
def Desc.release (d : Desc) : Bool := d.flags.getLsbD 1
def Desc.streaming (d : Desc) : Bool := d.flags.getLsbD 2
def Desc.crec (d : Desc) : Bool := d.flags.getLsbD 3
def Desc.irq (d : Desc) : Bool := d.flags.getLsbD 4
def Desc.srcFlat (d : Desc) : Bool := d.flags.getLsbD 5
def Desc.dstFlat (d : Desc) : Bool := d.flags.getLsbD 6

/-- The descriptor of a cell (Table 14.1), with the checks of R362; `multi`: its item has more than one cell, or it is a record (Table 14.8). -/
def descOf (seq : Nat) (c : Line) (multi : Bool) : Desc :=
  let w0 := cellWord c 0
  let w4 := cellWord c 4
  let w7 := cellWord c 7
  let d : Desc :=
    { seq := seq, cq := bits w0 48 16, ctx := bits w0 32 12, flags := BitVec.ofNat 8 (bits w0 24 8), aop := bits w0 16 8,
      opc := bits w0 0 8, src := cellWord c 1 % 2 ^ 57, dst := cellWord c 2 % 2 ^ 57, deadline := cellWord c 3 % 2 ^ 54,
      count := bits w4 40 24, len := bits w4 0 40, stride := (BitVec.ofNat 64 (cellWord c 5)).toInt,
      token := BitVec.ofNat 64 (cellWord c 6), w7 := BitVec.ofNat 64 w7,
      opnd := BitVec.ofNat 128 (w4 + cellWord c 5 * 2 ^ 64), cmp := BitVec.ofNat 128 (cellWord c 6 + w7 * 2 ^ 64) }
  let zeros := bits w0 44 4 != 0 || bits w0 8 8 != 0 || cellWord c 1 / 2 ^ 57 != 0 || cellWord c 2 / 2 ^ 57 != 0
    || cellWord c 3 / 2 ^ 54 != 0 || d.flags.getLsbD 7 || (d.opc != 7 && d.aop != 0)
    || (d.opc == 6 && (w7 / 2 ^ 63 != 0 || bits w7 16 32 != 0))
  let limits := d.byElement && (d.len == 0 || 2 ^ 20 < d.len || d.count == 0)
  let atom := d.opc == 7 && (match aopSize d.aop with | none => true | some k => d.dst % k != 0)
  { d with bad := multi || decide (7 < d.opc) || zeros || limits || atom }

/-- Target node and queue of a PUT's notification. -/
def Desc.tnode (d : Desc) : Nat := bits d.w7.toNat 48 15
def Desc.tq (d : Desc) : Nat := bits d.w7.toNat 0 16

/-- Address of source stream byte `k`, and of destination stream byte `k` (Table 14.2). -/
def Desc.srcAt (d : Desc) (k : Nat) : Nat :=
  if d.opc == 4 then (((d.src + k % d.len : Nat) : Int) + (k / d.len : Nat) * d.stride).emod (2 ^ 64) |>.toNat else d.src + k
def Desc.dstAt (d : Desc) (k : Nat) : Nat :=
  if d.opc == 5 then (((d.dst + k % d.len : Nat) : Int) + (k / d.len : Nat) * d.stride).emod (2 ^ 64) |>.toNat else d.dst + k

/-- Length of the piece that starts at stream byte `k` and address `a` (R201). -/
def Desc.pieceLen (d : Desc) (k a : Nat) : Nat :=
  min (64 - a % 64) (if d.byElement then d.len - k % d.len else d.total - k)

/-- Byte address `a` lies in the source range of the descriptor (R362). -/
def Desc.inSource (d : Desc) (a : Nat) : Bool :=
  if !d.reads || d.srcFlat != d.dstFlat then false
  else if d.opc == 4 then
    let x : Int := (a : Int) - d.src
    let n : Int := d.len
    let c : Int := (d.count : Int) - 1
    if d.stride == 0 then decide (0 ≤ x ∧ x < n)
    else
      -- the elements i of 0 … COUNT − 1 with 0 ≤ x − i × STRIDE < LENGTH
      let (lo, hi) : Int × Int := if 0 < d.stride then (-((n - 1 - x) / d.stride), x / d.stride)
        else (-(x / (-d.stride)), (n - 1 - x) / (-d.stride))
      decide (max 0 lo ≤ min c hi)
  else decide (d.src ≤ a ∧ a < d.src + d.total)

/-- Everything issued so far is performed, and nothing is left to issue. -/
def Desc.out (d : Desc) : Nat := d.rdOut + d.wrOut
def Desc.settled (d : Desc) : Bool :=
  d.ended || (d.out == 0 && (d.stat.isSome || (d.active && d.wrAt == d.total && !d.bad)))
/-- Every read of it is performed. -/
def Desc.readsDone (d : Desc) : Bool :=
  d.settled || (d.active && !d.bad && (if d.opc == 7 then d.wrAt != 0 && d.wrOut == 0
    else d.rdOut == 0 && (!d.reads || d.rdAt == d.total || d.stat.isSome)))

def Porter.desc (x : Porter) (seq : Nat) : Option Desc := x.descs.find? fun d => d.seq == seq
def State.modDesc (s : State) (p seq : Nat) (f : Desc → Desc) : State :=
  let x := s.por p
  s.setPor p { x with descs := x.descs.map fun d => if d.seq == seq then f d else d }

/-- The descriptors fetched before `seq` that the porter still has. -/
def Porter.before (x : Porter) (seq : Nat) : List Desc := x.descs.takeWhile fun d => d.seq != seq

def Porter.active (x : Porter) : List Desc := x.descs.filter fun d => d.active && !d.ended
def Porter.fetched (x : Porter) : List Desc := x.descs.filter fun d => !d.active && !d.ended

/-- The porter is present and its units work. -/
def State.porOn (s : State) (p : Nat) : Bool := s.powered && p < s.part.porters

/-! ### Records (R371, R372) -/

/-- A value's low bytes, placed at byte `b` of a cell. -/
def cellAt (b v n : Nat) : Nat := v % 2 ^ (8 * n) * 2 ^ (8 * b)

/-- The completion record (Table 14.6). -/
def Desc.record (d : Desc) (p : Nat) : Line :=
  let st := d.stat.getD 0
  let late := d.deadline != 0 && decide (d.deadline < d.endMt / 1024)
  let fl := (if late then 1 else 0) + (if d.opc == 7 && d.succ then 2 else 0) + (if st == 3 || st == 7 || st == 8 then 4 else 0)
  BitVec.ofNat 512 (cellAt 0 (if d.opc == 7 then 0 else d.token.toNat) 8 + cellAt 8 d.seq 4 + cellAt 12 st 1 + cellAt 13 d.opc 1
    + cellAt 14 p 1 + cellAt 15 fl 1 + cellAt 16 (d.bytes % 2 ^ 40) 8 + cellAt 24 d.endMt 8 + cellAt 32 d.failVa 8
    + cellAt 40 d.failSub 1 + cellAt 41 d.failSide 1 + cellAt 42 d.failNode 2 + cellAt 48 (if d.opc == 7 then d.old.toNat else 0) 16)

/-- Signal vector 64 + p on the porter's link. -/
def State.porSignal (s : State) (p : Nat) : State := s.signal (s.porLink p) (64 + p)

/-- An item stands at the queue manager. -/
def State.offer (s : State) (who : OfferBy) (q : Nat) (cells : List Line) : State :=
  { s with qmg := { s.qmg with offers := s.qmg.offers ++ [{ who := who, q := q, cells := cells, at_ := s.clk }] } }

/-- Offer held record `seq`. -/
def State.recOffer (s : State) (p seq : Nat) : State :=
  let x := s.por p
  match x.held.find? fun r => r.seq == seq with
  | none => s
  | some r =>
    (s.setPor p { x with held := x.held.map fun r => if r.seq == seq then { r with offered := true } else r }).offer (.porter p seq) r.q [r.cell]

/-- Records of ended descriptors go to their queues while the porter has room for them (R371, R372); from a guard start to its
lull's end none is posted (R368). A descriptor that ends DONE without CREC writes none. -/
def State.porPost (s : State) (p : Nat) : State :=
  (s.por p).descs.foldl (fun s d =>
    if !d.ended then s
    else
      let x := s.por p
      let gone : Porter := { x with descs := x.descs.filter fun e => e.seq != d.seq }
      if d.stat.getD 0 == 0 && !d.crec then
        let s := s.setPor p gone
        if d.irq then s.porSignal p else s
      else if 4 ≤ x.held.length then s
      else
        let s := s.setPor p { gone with held := x.held ++ [{ seq := d.seq, q := d.cq, cell := d.record p, irq := d.irq }] }
        if s.inPause then s else s.recOffer p d.seq) s

/-- A descriptor ends with its status (R371). -/
def State.descEnd (s : State) (p seq : Nat) : State :=
  let mt := s.mtu.mt
  let s := s.modDesc p seq fun d => { d with ended := true, buf := [], have_ := [], endMt := mt }
  let s := match (s.por p).desc seq with
    | some d => if d.deadline != 0 && d.deadline < mt / 1024 then s.event (175 + p) 3 1 else s
    | none => s
  (s.event (175 + p) 2 1).porPost p

/-! ### Notifications (R369, R370) -/

/-- Table 14.4. -/
def Desc.notice (d : Desc) (node p : Nat) : Line :=
  BitVec.ofNat 512 (cellAt 0 d.token.toNat 8 + cellAt 8 node 2 + cellAt 10 p 1 + cellAt 16 d.dst 8 + cellAt 24 d.len 8)

/-- The descriptor has no failure of its own yet: a halt of its porter is none (Table 14.8). -/
def Desc.sound (d : Desc) : Bool := d.stat.isNone || d.stat == some 7

/-- A notification fails: the descriptor ends (R370), with the status that an ABORT or an earlier failure has fixed where one has. -/
def State.noteFail (s : State) (p seq st : Nat) : State :=
  let s := s.modDesc p seq fun d =>
    { d with note := 0, stat := if d.sound then some st else d.stat, failSide := if d.sound then 2 else d.failSide,
             failNode := if d.sound && (st == 4 || st == 5) then d.tnode else d.failNode }
  s.descEnd p seq

/-- Send a notification attempt. -/
def State.noteSend (s : State) (p seq : Nat) : State :=
  match (s.por p).desc seq with
  | none => s
  | some d =>
    let s := s.modDesc p seq fun d => { d with note := 2, noteT0 := s.clk, notePaused0 := s.paused }
    if d.tnode == s.nodeNo then s.offer (.notify p seq) d.tq [d.notice s.nodeNo p]
    else if s.boot.level < 3 || s.unreachable d.tnode then s.noteFail p seq 4
    else if d.tnode / 128 == s.ownDomain && s.dom.st == 3 then s.noteFail p seq 5
    else s.sendPkt d.tnode 0 true false (.put d.tq p d.seq (d.notice s.nodeNo p))

/-- The answer to a notification attempt (R370, R373). -/
def State.noteAnswer (s : State) (p seq code : Nat) : State :=
  match (s.por p).desc seq with
  | none => s
  | some d =>
    if d.note != 2 || d.ended then s
    -- accepted: DONE, also where an ABORT came meanwhile; where its porter has halted, HALTED (R374, Table 14.8)
    else if code == 0 then (s.modDesc p seq fun d => { d with note := 0, stat := if d.stat == some 7 then some 7 else some 0 }).descEnd p seq
    else if code == 1 || code == 2 then
      (if d.stat.isNone then s.modDesc p seq fun d => { d with note := 3, noteAt := s.clk }
       else (s.modDesc p seq fun d => { d with note := 0 }).descEnd p seq)
    else s.noteFail p seq (if code == 5 then 5 else 9)

/-! ### Progress of a descriptor -/

/-- Request the double advance of an ACQUIRE descriptor whose reads are performed (R200, R204). -/
def State.porAcquire (s : State) (p seq : Nat) : State :=
  match (s.por p).desc seq with
  | none => s
  | some d =>
    if d.acquire && d.advTicket.isNone && d.readsDone then
      let (t, s) := s.reqAdvance
      let x := s.por p
      (s.setPor p { x with acqs := x.acqs ++ [(seq, t)] }).modDesc p seq fun d => { d with advTicket := some t }
    else s

/-- What follows when a descriptor has made progress: its commit point, its notification, or its end (R371, R373). -/
def State.porCheck (s : State) (p seq : Nat) : State :=
  let s := s.porAcquire p seq
  match (s.por p).desc seq with
  | none => s
  | some d =>
    if d.ended || d.out != 0 || !d.active then s
    else match d.stat with
    | some _ => if d.note == 2 then s else s.descEnd p seq
    | none =>
      if d.wrAt != d.total || d.note != 0 then s
      else if d.opc == 6 then s.noteSend p seq
      else (s.modDesc p seq fun d => { d with stat := some 0 }).descEnd p seq

/-- The first failure of a descriptor (R371): it issues nothing further. One of its own stands before the halt that another caused
(Table 14.8). -/
def State.descFail (s : State) (p seq st va sub side node : Nat) : State :=
  s.modDesc p seq fun d =>
    if !d.sound then d
    else { d with stat := some st, failVa := va, failSub := sub, failSide := side, failNode := if st == 4 || st == 5 then node else 0 }

/-- DATA_ERR or MEM_STOP halts the porter (R374): the other active descriptors issue nothing further. -/
def State.porHalt (s : State) (p cause va : Nat) : State :=
  if (s.por p).halted then s
  else
    let x := s.por p
    let seqs := x.active.map (·.seq)
    let x : Porter := { x with halted := true, haltCause := cause, descs := x.descs.map fun d =>
      if d.active && !d.ended && d.stat.isNone then { d with stat := some 7 } else d }
    let s := ((s.setPor p x).rec_ 0x14 (175 + p) 0xFFFF va cause).porSignal p
    seqs.foldl (fun s q => s.porCheck p q) s

/-! ### Pieces (R201, R364, R367) -/

/-- A piece that could issue: its stream offset and length, its address, and whether it writes the destination. -/
structure NextPiece where
  at_ : Nat
  len : Nat
  va : Nat
  wr : Bool
  deriving DecidableEq, Repr

/-- The next read of a descriptor. -/
def Desc.nextRead (d : Desc) : Option NextPiece :=
  if !d.reads || d.total ≤ d.rdAt then none
  else
    let a := d.srcAt d.rdAt
    some { at_ := d.rdAt, len := d.pieceLen d.rdAt a, va := a, wr := false }

/-- The next write of a descriptor whose bytes have been read; a RELEASE descriptor's first write waits for `earlier`, the
performance of every earlier descriptor (R200). One into the source waits until the whole source has been read, so that what lies outside
the overlap is right (R362). -/
def Desc.nextWrite (d : Desc) (earlier : Bool) : Option NextPiece :=
  if d.total ≤ d.wrAt || (d.release && d.wrAt == 0 && !earlier) then none
  else
    let a := d.dstAt d.wrAt
    let n := if d.opc == 7 then d.opSize else d.pieceLen d.wrAt a
    let unread := d.rdAt < d.total || d.rdOut != 0
    if d.reads && (!((List.range n).all fun i => Tab.get false d.have_ (d.wrAt + i))
        || (unread && (List.range n).any fun i => d.inSource (a + i))) then none
    else some { at_ := d.wrAt, len := n, va := a, wr := true }

/-- The pieces that a descriptor could issue next: a write whose data is there, then a read (DESIGN CHOICE, safe: notes/assumptions/30.md). One
whose translation is pending cannot issue. -/
def Porter.nexts (x : Porter) (d : Desc) : List NextPiece :=
  if !d.active || d.ended || d.stat.isSome || d.bad then []
  else
    let earlier := (x.before d.seq).all Desc.settled
    (match d.nextWrite earlier with | some n => if d.xdst then [] else [n] | none => []) ++
      (match d.nextRead with | some n => if d.xsrc then [] else [n] | none => [])

/-- The bytes that a write piece carries, placed in its line: a FILL's pattern, zeros, the bytes read; unspecified where the
destination overlaps the source (R362). -/
def Desc.writeLine (d : Desc) (free : Nat) (n : NextPiece) : Line :=
  let byte (i : Nat) : Nat :=
    let k := n.at_ + i
    if d.opc == 2 then bits d.w7.toNat (8 * (k % 8)) 8
    else if d.opc == 3 then 0
    else if d.inSource (n.va + i) then (Config.overlapByte (free + i)).toNat
    else (Memory.read8 d.buf k).toNat
  BitVec.ofNat 512 ((List.range n.len).foldl (fun v i => v + byte i * 2 ^ (8 * (n.va % 64 + i))) 0)

/-- Byte enables of `n` bytes from byte `lo` of a line. -/
def beOf (lo n : Nat) : BitVec 64 := BitVec.ofNat 64 ((2 ^ n - 1) * 2 ^ lo)

/-- Issue a piece whose address is known: `e` is its translation, none for a flat offset. -/
def State.pieceGo (s : State) (p : Nat) (d : Desc) (n : NextPiece) (e : Option TlbEnt) : State :=
  let flat := e.isNone
  let ma := match e with | some e => e.ma + n.va % 2 ^ e.p | none => n.va
  let la := ma / 64
  let node := if flat then s.nodeNo else laNode la
  let dev := match e with | some e => s.devPage e | none => false
  let x := s.por p
  let pid := x.nextPid
  let atom := d.opc == 7
  let aid := aidPiece p pid
  let r : Req :=
    { src := .piece p pid, kind := if atom then .atomic else if n.wr then .write else .read, la := la,
      data := if n.wr && !atom then d.writeLine s.free n else 0, be := beOf (n.va % 64) n.len,
      opnd := if atom then BitVec.ofNat 384 (d.opnd.toNat + d.cmp.toNat * 2 ^ 128 + d.aop * 2 ^ 256 + n.va % 64 * 2 ^ 264) else 0,
      glob := n.wr && !atom && !flat, dev := dev, ea := n.wr && (match e with | some e => e.ea && !dev | none => false),
      stream := d.streaming, atHome := !n.wr && !flat && (d.acquire || dev), aid := aid, flat := flat }
  let q : Piece := { pid := pid, seq := d.seq, wr := n.wr, at_ := n.at_, len := n.len, lo := n.va % 64, va := n.va, node := node }
  let s : State := { s with free := s.free + if n.wr then 64 else 0 }
  let acc : Acc := { aid := aid, who := 64 + p, rd := !n.wr || atom, wr := n.wr, tr := e.map fun e => (e.ctx, e.va, e.p) }
  let s : State := { s with accs := s.accs ++ [acc] }
  let s := s.setPor p { x with pieces := x.pieces ++ [q], nextPid := pid + 1 }
  let s := s.modDesc p d.seq fun d =>
    if n.wr then
      { d with wrAt := d.wrAt + n.len, wrOut := d.wrOut + 1, trDst := none,
               buf := d.buf.filter fun b => !(n.at_ ≤ b.1 && b.1 < n.at_ + n.len),
               have_ := d.have_.filter fun b => !(n.at_ ≤ b.1 && b.1 < n.at_ + n.len) }
    else { d with rdAt := d.rdAt + n.len, rdOut := d.rdOut + 1, trSrc := none }
  let s := s.event (175 + p) 1 1
  if flat && s.flatOpen * s.part.sets ≤ la then s.reqFail r .range
  -- DEAD_TARGET, with an ACCESS_REFUSED record (R411)
  else if !flat && s.boot.level < 3 && node != s.nodeNo then s.reqFail r .range
  else s.toSlice (if flat then sliceOfSet s.part (flatSlot s.part s.houseWays la).1 else sliceOf la) r

/-- Try to issue piece `n` of descriptor `d`: at once with its translation, or after a walk. True when it issued. -/
def State.pieceTry (s : State) (p : Nat) (d : Desc) (n : NextPiece) : Bool × State :=
  if if n.wr then d.dstFlat else d.srcFlat then (true, s.pieceGo p d n none)
  else
    let had := (if n.wr then d.trDst else d.trSrc).filter fun e => e.covers d.ctx n.va && s.young d.ctx e.beat
    match had with
    | some e => (true, s.pieceGo p d n (some e))
    | none =>
      match s.xlate 4 d.ctx n.va n.wr (d.acquire || d.release || d.opc == 7) (.piece p d.seq n.wr n.va) (0x80 + p) with
      | (some e, s) => (true, s.pieceGo p d n (some e))
      | (none, s) => (false, s.modDesc p d.seq fun d => if n.wr then { d with xdst := true } else { d with xsrc := true })

/-- Descriptors in the order of R366 and R367: the smallest DEADLINE first, 0 last, ties to the earlier fetch. -/
def byDeadline (ds : List Desc) : List Desc :=
  let key (d : Desc) : Nat := if d.deadline == 0 then 2 ^ 54 else d.deadline
  ds.foldl (fun acc d => (acc.takeWhile fun e => key e ≤ key d) ++ d :: acc.dropWhile fun e => key e ≤ key d) []

/-- Issue the first piece that can go among those listed. -/
def State.pieceFirst (s : State) (p : Nat) : List (Desc × NextPiece) → State
  | [] => s
  | (d, n) :: t =>
    let (went, s) := s.pieceTry p d n
    if went then s else State.pieceFirst s p t

/-- A walk has brought the leaf for a porter's piece. -/
def State.porterTranslated (s : State) (p seq : Nat) (dst : Bool) (e : TlbEnt) : State :=
  s.modDesc p seq fun d => if dst then { d with xdst := false, trDst := some e } else { d with xsrc := false, trSrc := some e }

/-- A translation fault ends the descriptor with XLATE (R304). -/
def State.porterFault (s : State) (p seq : Nat) (dst : Bool) (va code : Nat) : State :=
  let s := s.modDesc p seq fun d => if dst then { d with xdst := false } else { d with xsrc := false }
  (s.descFail p seq 2 va code (if dst then 1 else 0) 0).porCheck p seq

/-- A piece's answer reaches the porter (R202, R371, R374). -/
def State.pieceDone (s : State) (p : Nat) (q : Piece) (g : Line × Bool × Nat) : State :=
  let (line, poison, code) := g
  let x := s.por p
  let s := s.setPor p { x with pieces := x.pieces.filter fun y => y.pid != q.pid }
  match x.desc q.seq with
  | none => s
  | some d =>
    let st := if code != 0 then code else if poison && (!q.wr || d.opc == 7) then 3 else 0
    let s := s.modDesc p q.seq fun d => if q.wr then { d with wrOut := d.wrOut - 1 } else { d with rdOut := d.rdOut - 1 }
    if st != 0 then
      let s := s.descFail p q.seq st q.va 0 (if q.wr then 1 else 0) q.node
      let s := if st == 3 || st == 8 then s.porHalt p st q.va else s
      s.porCheck p q.seq
    else
      let s := s.modDesc p q.seq fun d =>
        let d := { d with bytes := (d.bytes + q.len) % 2 ^ 40 }
        if d.opc == 7 then { d with old := BitVec.ofNat 128 (line.toNat % 2 ^ 128), succ := line.getLsbD 128 }
        else if q.wr then d
        else { d with buf := (List.range q.len).foldl (fun m i => Memory.write8 m (q.at_ + i) (BitVec.ofNat 8 (line.toNat / 2 ^ (8 * (q.lo + i))))) d.buf,
                      have_ := (List.range q.len).foldl (fun t i => Tab.put false t (q.at_ + i) true) d.have_ }
      s.porCheck p q.seq

/-- Abort one descriptor (R373, R384). -/
def State.abort (s : State) (p seq : Nat) : State :=
  match (s.por p).desc seq with
  | none => s
  | some d =>
    if d.ended then s
    else
      -- an attempt in flight is waited for: its answer decides
      let s := s.modDesc p seq fun d => { d with note := if d.note == 2 then 2 else 0, stat := some (d.stat.getD 1) }
      if !d.active then s.descEnd p seq else s.porCheck p seq

/-! ### The commands of the porters -/

/-- The porter fetches its queue's current item (R365). A cell with an uncorrectable error gives a descriptor of free contents that ends
DATA_ERR (R377; DEDUCED, safe: notes/assumptions/106.md). -/
def State.porFetch (s : State) (p : Nat) : State :=
  let x := s.por p
  let q := s.porDq p
  if !s.porEn p || x.halted || s.inPause || 8 ≤ x.fetched.length then s
  else match itemCells (s.qmg.chain q) with
  | [] => s
  | c :: _ =>
    let multi : Bool := 1 < (s.qent q).curLen
    let (e, s) := s.houseRead (s.cellLine c)
    let s := if e == .ue then s.ueData 207 (s.injHouse (s.cellLine c)) (64 * s.cellLine c) c else s
    -- a record of its own that it fetches is INVALID (Table 14.8)
    let bad : Bool := multi || Tab.get 0 s.qmg.recCells c == p + 1
    let d := if e == .ue then { descOf x.seqNext.toNat (Config.freeLine s.free) bad with lost := true }
      else descOf x.seqNext.toNat (Tab.get 0 s.qmg.cells c) bad
    let s : State := { s with free := s.free + if e == .ue then 1 else 0 }
    (s.setPor p { x with seqNext := x.seqNext + 1, descs := x.descs ++ [d] }).qDrop q

/-- PORTER_FETCH (R365). `ue`: link words that show an uncorrectable error (R377). -/
def execPorterFetch (p : Nat) (ue : List Nat) (fd : Finds) (s : State) : Host.Outcome State Fault Refusal :=
  .next (if s.porOn p then s.finding fd fun s => (s.linkErrs ue).porFetch p else s)

/-- A fetched descriptor may become active (R366). -/
def State.eligible (s : State) (x : Porter) (d : Desc) : Bool :=
  ((x.before d.seq).all fun e => !(e.acquire && e.advTicket.isNone && !e.ended))
  -- SEQ counts on modulo 2^32: those of the descriptors fetched before it
  && !((x.acqs.filter fun a => a.1 != d.seq && (d.seq + 2 ^ 32 - a.1) % 2 ^ 32 < 2 ^ 31).any fun a => s.lse.dblDone < a.2)

/-- PORTER_ACTIVATE (R366). A descriptor that R362 refuses ends INVALID, with no access. -/
def execPorterActivate (p : Nat) (s : State) : Host.Outcome State Fault Refusal :=
  .next (if !s.porOn p then s
    else
      let x := s.por p
      if x.halted || 4 ≤ x.active.length || (x.held.any (·.refused)) then s
      else match (byDeadline x.fetched).find? fun d => s.eligible x d with
      | none => s
      | some d =>
        let s := s.setPor p { x with acqs := x.acqs.filter fun a => s.lse.dblDone < a.2 }
        let s := s.modDesc p d.seq fun d => { d with active := true }
        if d.lost then ((s.descFail p d.seq 3 0 0 0 0).porHalt p 3 0).porCheck p d.seq
        else if d.bad then (s.modDesc p d.seq fun d => { d with stat := some 6 }).descEnd p d.seq
        else s.porCheck p d.seq)

/-- PIECE_ISSUE (R367, R368). -/
def execPieceIssue (p : Nat) (fd : Finds) (s : State) : Host.Outcome State Fault Refusal :=
  .next (s.finding fd fun s => (if !s.porOn p || s.inPause then s
    else
      let x := s.por p
      if x.halted then s
      else s.pieceFirst p ((byDeadline x.active).flatMap fun d => (x.nexts d).map fun n => (d, n))))

/-- PIECE_RESPONSE (R202). -/
def execPieceResponse (p pid : Nat) (s : State) : Host.Outcome State Fault Refusal :=
  .next (if !s.porOn p then s
    else match (s.por p).pieces.find? fun q => q.pid == pid with
    | some q => match q.got with
      | some g => s.pieceDone p q g
      | none => s
    | none => s)

/-- RECORD_RETRY (R372, R368): the records of the porter that are due are offered. -/
def execRecordRetry (p : Nat) (s : State) : Host.Outcome State Fault Refusal :=
  .next (if !s.porOn p || s.inPause then s
    else (s.por p).held.foldl (fun s r => if !r.offered && r.at_ ≤ s.clk then s.recOffer p r.seq else s) s)

/-- QUEUE_PUT (R369). -/
def execQueuePut (src tq porter seq : Nat) (cell : Line) (s : State) : Host.Outcome State Fault Refusal :=
  .next (
    let s := s.consume src (.put tq porter seq cell)
    if !s.powered then s
    else
      let answer (code : Nat) : State := s.sendPkt src 2 true false (.putAnswer porter seq (pushStatus code 0))
      let f := (s.qent tq).fabric
      if s.dom.st == 3 || s.dom.nack then answer 5
      else if f == 2 || (f == 1 && src / 128 == s.ownDomain) then s.offer (.fabric src porter seq) tq [cell]
      else answer 6)

/-- PUT_ANSWER (R370). One that no attempt waits for is discarded (R182). -/
def execPutAnswer (src porter seq : Nat) (status : Word) (s : State) : Host.Outcome State Fault Refusal :=
  .next (
    let s := s.consume src (.putAnswer porter seq status)
    if !s.porOn porter then s
    else match (s.por porter).desc seq with
    | some d => if d.tnode == src then s.noteAnswer porter seq (status.toNat % 256) else s
    | none => s)

/-- NOTIFY_RETRY (R370): 1,024 ns after the refusal. -/
def execNotifyRetry (p seq : Nat) (s : State) : Host.Outcome State Fault Refusal :=
  .next (if !s.porOn p then s
    else match (s.por p).desc seq with
    | some d => if d.note == 3 && !d.ended && d.noteAt + 2048 ≤ s.clk then s.noteSend p seq else s
    | none => s)

/-- ABORT_ONE (R373). -/
def execAbortOne (link p : Nat) (seq : BitVec 32) (s : State) : Host.Outcome State Fault Refusal :=
  .next (if s.linkOn link && s.porOn p then s.abort p seq.toNat else s)

/-- ABORT_ALL (R373): every active and fetched descriptor. -/
def State.abortEach (s : State) (p : Nat) : State := ((s.por p).descs.map (·.seq)).foldl (fun s q => s.abort p q) s
def execAbortAll (link p : Nat) (s : State) : Host.Outcome State Fault Refusal :=
  .next (if s.linkOn link && s.porOn p then s.abortEach p else s)

/-- RESUME (R374). -/
def State.porResume (s : State) (p : Nat) : State := s.setPor p { s.por p with halted := false, haltCause := 0 }
def execResume (link p : Nat) (s : State) : Host.Outcome State Fault Refusal :=
  .next (if s.linkOn link && s.porOn p then s.porResume p else s)

/-- PORTER_DISABLE (R375): EN becomes 0. -/
def execPorterDisable (link p : Nat) (s : State) : Host.Outcome State Fault Refusal :=
  .next (if s.linkOn link && s.porOn p then s.csrPut (offPor p 0) (setFld (s.csrGet (offPor p 0)) 63 1 0) else s)

/-- FABRIC_DEADLINE_EXPIRY (R182): eight beats, guards and lulls not counted. -/
def execFabricDeadlineExpiry (w : DlWait) (fd : Finds) (s : State) : Host.Outcome State Fault Refusal :=
  .next (s.finding fd fun s => (if !s.powered then s
    else match w with
    | .mr n i => (s.deadlineMr n i).deadlineOut n i
    | .vb n i => s.deadlineVb n i
    | .put p seq =>
      match (s.por p).desc seq with
      | some d =>
        if d.note == 2 && !d.ended && d.tnode != s.nodeNo && deadlineClks ≤ s.ran d.noteT0 d.notePaused0 then
          (s.noteFail p seq 4).markUnreach d.tnode
        else s
      | none => s))

/-! ### The commands of the queue manager -/

/-- An offer has been judged: its producer learns the outcome (R370–R372, R382). -/
def State.offerDone (s : State) (o : QOffer) (code dropped : Nat) : State :=
  match o.who with
  | .porter p seq =>
    let x := s.por p
    match x.held.find? fun r => r.seq == seq with
    | none => s
    | some r =>
      if code == 1 || code == 2 then
        s.setPor p { x with held := x.held.map fun r => if r.seq == seq then { r with offered := false, refused := true, at_ := s.clk + 2048 } else r }
      else
        let s := s.setPor p { x with held := x.held.filter fun r => r.seq != seq }
        let s := if code == 0 then s else s.rec_ 0x12 (175 + p) 0xFFFF o.q code
        let s := if r.irq then s.porSignal p else s
        s.porPost p
  | .notify p seq => s.noteAnswer p seq code
  | .slot l _ size => if s.linkOn l then s.emit (.ioData l (if size == 4 then pushStatus code dropped &&& 0xFFFFFFFF else pushStatus code dropped)) else s
  | .fabric node porter seq => s.sendPkt node 2 true false (.putAnswer porter seq (pushStatus code dropped))

/-- The porter that an offer comes from. -/
def QOffer.porter (o : QOffer) : Option Nat :=
  match o.who with | .porter p _ => some p | .notify p _ => some p | _ => none

/-- The next offer to take (R380): of those of the earliest clock, porters in rotation after the last one served, then the
others in arrival order. -/
def Qmg.pick (m : Qmg) (porters : Nat) : Option QOffer :=
  match m.offers with
  | [] => none
  | o :: _ =>
    let batch := m.offers.filter fun x => x.at_ == o.at_
    let turn := (List.range porters).map fun i => (m.lastPorter + 1 + i) % porters
    match turn.findSome? fun p => batch.find? fun x => x.porter == some p with
    | some x => some x
    | none => some o

/-- The cells of an item just enqueued hold a porter's record, or not (Table 14.8). -/
def State.markRec (s : State) (o : QOffer) : State :=
  let v := match o.who with | .porter p _ => p + 1 | _ => 0
  let cs := ((s.qmg.chain o.q).map (·.1)).reverse.take o.cells.length
  { s with qmg := { s.qmg with recCells := cs.foldl (fun t c => Tab.put 0 t c v) s.qmg.recCells } }

/-- Take up to `k` offers. -/
def State.serveOffers : Nat → State → State
  | 0, s => s
  | k + 1, s =>
    match s.qmg.pick s.part.porters with
    | none => s
    | some o =>
      let s : State := { s with qmg := { s.qmg with offers := s.qmg.offers.erase o, lastPorter := (o.porter).getD s.qmg.lastPorter } }
      let (r, s) := s.enqueueItem o.q o.cells
      State.serveOffers k ((if r.1 == 0 then s.markRec o else s).offerDone o r.1 r.2)

/-- ENQUEUE (R379, R380): at most four in a clock. `ue`: link words, and `qs`: queue-table entries, that show an
uncorrectable error (R377, Table 15.1). -/
def execEnqueue (ue qs : List Nat) (fd : Finds) (s : State) : Host.Outcome State Fault Refusal :=
  .next (if !s.powered then s
    else s.finding fd fun s =>
      State.serveOffers 4 (qs.foldl (fun s q => s.setQent q { s.qent q with err := true }) (s.linkErrs ue)))

/-- PUSH (R382): the first `n` cells of the slot's STAGE, as they stand at the read. -/
def execPush (link k n size : Nat) (s : State) : Host.Outcome State Fault Refusal :=
  .next (if !(s.linkOn link && decide (k < 64)) then s
    else s.offer (.slot link k size) (s.slotQueue k) ((List.range n).map fun i => Memory.readLine s.qmg.stage (4096 * k + 64 * i)))

/-- ADVANCE (R383). -/
def execAdvance (link k : Nat) (adv : BitVec 7) (ue : List Nat) (fd : Finds) (s : State) : Host.Outcome State Fault Refusal :=
  .next (if s.linkOn link then s.finding fd fun s => (s.linkErrs ue).qAdvance (s.slotQueue k) adv.toNat else s)

/-- DROP_PACKET (R383). -/
def execDropPacket (link k : Nat) (ue : List Nat) (fd : Finds) (s : State) : Host.Outcome State Fault Refusal :=
  .next (if s.linkOn link then s.finding fd fun s => (s.linkErrs ue).qDrop (s.slotQueue k) else s)

/-- QUEUE_FLUSH (R383). -/
def execQueueFlush (link k : Nat) (ue : List Nat) (fd : Finds) (s : State) : Host.Outcome State Fault Refusal :=
  .next (if s.linkOn link then s.finding fd fun s => (s.linkErrs ue).qFlush (s.slotQueue k) else s)

/-- CLEAR (R383). -/
def execClear (link k : Nat) (s : State) : Host.Outcome State Fault Refusal :=
  .next (if s.linkOn link then s.qClear (s.slotQueue k) else s)

/-- QUEUE_DISABLE (R378). -/
def execQueueDisable (link q : Nat) (s : State) : Host.Outcome State Fault Refusal :=
  .next (if s.linkOn link then s.setQent q { s.qent q with en := false } else s)

end Sys2Proof.Machine
end

