-- ==== Sys2Proof/Machine/Walk.lean ====
section
/-! DEFINITION. Table walks: their starts, reads, compare-and-swaps, faults and limits, and speculative translations
(R283–R291, R303, R304). -/

namespace Sys2Proof.Machine

def State.modWalker (s : State) (x w : Nat) (f : Walker → Walker) : State :=
  let t := s.xlt x
  s.setXlt x { t with walkers := t.walkers.map fun v => if v.w == w then f v else v }

/-- Jobs without a place take one as the queue has room, in arrival order; one whose page is queued already waits for that
walk (R287). -/
def promote : Nat → List XJob → List XJob → List XJob
  | _, _, [] => []
  | room, before, j :: t =>
    let waits := !j.queued && j.walker.isNone && room != 0
      && !(before.any fun b => b.walker.isNone && samePage b.ctx b.va j.ctx j.va)
    let j' : XJob := if waits then { j with queued := true } else j
    j' :: promote (if waits then room - 1 else room) (before ++ [j']) t
def Xlt.promote (x : Xlt) : Xlt := { x with jobs := Machine.promote (64 - x.queued) [] x.jobs }

/-- A walker ends; the jobs it served that `again` picks go back to the queue, the others leave. -/
def State.walkerGone (s : State) (x w : Nat) (again : XJob → Bool) : State :=
  let t := s.xlt x
  let jobs := t.jobs.filterMap fun j =>
    if j.walker == some w then (if again j then some { j with walker := none, queued := false } else none) else some j
  s.setXlt x (Xlt.promote { t with walkers := t.walkers.filter fun v => v.w != w, jobs := jobs })

/-- A fault reaches a requester (R304). -/
def State.faultTo (s : State) (va code : Nat) : XFor → State
  | .host rid => s.hostFault rid
  | .piece p seq dst v => s.porterFault p seq dst (if v == 0 then va else v) code
  | .spec => s

/-- A walk ends in a fault (R303): counted, captured, recorded and reported. A speculative walk is dropped (R291), and jobs
that waited for it walk for themselves; so do reads that waited for a write that may not be (R287). -/
def State.walkFault (s : State) (x : Nat) (w : Walker) (code : Nat) : State :=
  if w.spec then (s.event (170 + x) 6 1).walkerGone x w.w fun _ => true
  else
    let t := s.xlt x
    let level := if w.began then w.k else 0
    let t : Xlt := { t with faults := satAdd 0xFFFF t.faults 1 }
    let t : Xlt := if t.fltValid then { t with more := satAdd 0xFFFF t.more 1 }
      else { t with fltValid := true, fltVa := w.va, more := 0, fltCtx := w.ctx, fltLevel := level, fltSource := w.source,
                    fltWrite := w.wr, fltSub := code }
    let again (j : XJob) : Bool := code == 4 && !j.wr
    let took := t.jobs.filter fun j => j.walker == some w.w && !again j
    -- a record of the walk, and of each further host request that it answers (R163)
    let hosts := (took.filter fun j => match j.for_ with | .host _ => true | _ => false).length
    let s := ((List.range (max 1 hosts)).foldl (fun s _ =>
      s.rec_ 0x13 (170 + x) 0xFFFF w.va (code + w.ctx * 2 ^ 8 + level * 2 ^ 24)) (s.setXlt x t)).event (170 + x) 5 1
    let s := s.walkerGone x w.w again
    took.foldl (fun s j => s.faultTo w.va code j.for_) s

/-- The result may be installed for the walker's page (R282, R299, R301). -/
def Walker.installs (w : Walker) (p : Nat) : Bool := w.inst && !(w.noVa.any fun v => v / 2 ^ p == w.va / 2 ^ p)

/-- The deepest walk-cache pointer for a walk (R295), where the walk cache was enabled as its translation started (R306): its place and
entry. -/
def State.wcHit (s : State) (x : Nat) (w : Walker) : Option (Nat × WcEnt) :=
  if !w.wc then none
  else [1, 2, 3, 4].findSome? fun k => (List.range 128).findSome? fun i =>
    match Tab.get none (s.xlt x).wc i with
    | some e => if e.k == k && e.covers w.ctx w.va && s.young w.ctx e.beat then some (i, e) else none
    | none => none

def wcUse (t : Tab (Option WcEnt)) (i : Nat) : Tab (Option WcEnt) := refUse (·.ref) (fun e r => { e with ref := r }) t 0 128 i

/-- Install a pointer that a walk has found (R295). -/
def State.wcPut (s : State) (x : Nat) (w : Walker) (k tbl : Nat) : State :=
  if !w.wc || !w.installs (9 * k + 12) then s
  else
    let t := s.xlt x
    let e : WcEnt := { ctx := w.ctx, k := k, va := w.va / 2 ^ (9 * k + 12) * 2 ^ (9 * k + 12), tbl := tbl, beat := s.beat }
    let same := (List.range 128).find? fun j =>
      match Tab.get none t.wc j with | some o => o.ctx == e.ctx && o.k == k && o.va == e.va | none => false
    let i := same.getD (refVictim (·.ref) t.wc 0 128)
    s.setXlt x { t with wc := wcUse (Tab.put none t.wc i (some e)) i }

/-- Read the entry of the walker's level at its home (R286, R288). -/
def State.walkRead (s : State) (x : Nat) (w : Walker) : State :=
  let ma := w.tbl + 8 * (w.va / 2 ^ (9 * w.k + 3) % 512)
  let la := ma / 64
  if s.inDevr la then s.walkFault x w 6
  else if s.boot.level < 3 && laNode la != s.nodeNo then s.walkFault x w 8
  else
    let r : Req := { src := .walker x w.w, kind := .read, la := la, atHome := true }
    (s.modWalker x w.w fun v => { v with ma := ma, began := true, got := none, cas := none }).toSlice (sliceOf la) r

/-- A walker begins: context and range checks, then the first table line (R288, R295). -/
def State.walkBegin (s : State) (x : Nat) (w : Walker) : State :=
  let s := s.event (170 + x) 3 1
  let n := s.ctxLevels w.ctx
  if !s.ctxEn w.ctx || n < 3 || 5 < n then s.walkFault x w 5
  else if w.va / 2 ^ (12 + 9 * n) != 0 then s.walkFault x w 3
  else
    let s := s.parity x w.va s.finds.wc ((s.wcHit x w).map (·.1)) fun i t => { t with wc := Tab.put none t.wc i none }
    match s.wcHit x w with
    | some (i, e) =>
      let t := s.xlt x
      let s := (s.setXlt x { t with wc := wcUse t.wc i }).event (170 + x) 4 1
      let w := { w with k := e.k, tbl := e.tbl }
      (s.modWalker x w.w fun v => { v with k := e.k, tbl := e.tbl }).walkRead x w
    | none => s.walkRead x w

/-- A new walker for context `c` and address `va`, with the context's values as they stand (R282). -/
def State.newWalker (s : State) (w c va : Nat) (wr spec : Bool) (source : Nat) (wc : Bool) : Walker :=
  { w := w, ctx := c, va := va, wr := wr, spec := spec, source := source, k := s.ctxLevels c, tbl := s.ctxRoot c,
    levels := s.ctxLevels c, root := s.ctxRoot c, t0 := s.clk, paused0 := s.paused, wc := wc }

/-- WALK_START (R287): the oldest job of its queue takes a walker, with the jobs of its page. -/
def execWalkStart (job : Nat) (fd : Finds) (s : State) : Host.Outcome State Fault Refusal :=
  .next (s.finding fd fun s => (if !s.powered then s
    else match s.xltNos.find? fun x => (s.xlt x).jobs.any fun j => j.id == job with
    | none => s
    | some x =>
      let t := (s.xlt x).promote
      match t.jobs.find? fun j => j.queued && j.walker.isNone with
      | none => s
      | some j =>
        if j.id != job || 16 ≤ t.walkers.length then s
        else
          let (id, s) := s.newId
          let w := s.newWalker id j.ctx j.va j.wr false j.src j.wc
          let jobs := t.jobs.map fun i =>
            if i.walker.isNone && samePage i.ctx i.va j.ctx j.va then { i with walker := some id } else i
          (s.setXlt x (Xlt.promote { t with jobs := jobs, walkers := t.walkers ++ [w] })).walkBegin x w))

/-- Must-be-zero bits and places of an entry at level `k` (R284). -/
def badFormat (e k : Nat) : Bool :=
  bits e 57 3 != 0 ||
  (if bits e 1 1 == 1 then k == 1 || bits e 2 10 != 0
   else k == 5 || bits e 7 5 != 0 || bits e 12 45 * 4096 % 2 ^ (9 * k + 3) != 0)

/-- A walk has its leaf (R292, R293): it is installed, and its requesters go on. -/
def State.walkLeaf (s : State) (x : Nat) (w : Walker) (e : Nat) : State :=
  let p := 9 * w.k + 3
  let leaf : TlbEnt :=
    { ctx := w.ctx, va := w.va / 2 ^ p * 2 ^ p, p := p, ma := bits e 12 45 * 4096, w := bits e 2 1 == 1, d := bits e 4 1 == 1,
      dev := bits e 5 1 == 1, ea := bits e 6 1 == 1, beat := s.beat }
  let took := (s.xlt x).jobs.filter fun j => j.walker == some w.w && leaf.serves j.wr
  let ok := w.installs p
  let s := if ok then s.l2Put x leaf else s
  let s := s.walkerGone x w.w fun j => !leaf.serves j.wr
  took.foldl (fun s j =>
    let s := if ok && j.for_ != .spec then s.l1Put x leaf j.sync else s
    match j.for_ with
    | .host rid => s.hostTranslated rid j.va leaf
    | .piece pp seq dst _ => s.porterTranslated pp seq dst leaf
    | .spec => s) s

/-- A table line has come to its walker (R284, R288, R289). -/
def State.walkEntry (s : State) (x : Nat) (w : Walker) (line : Line) : State :=
  let e := line.toNat / 2 ^ (8 * (w.ma % 64)) % 2 ^ 64
  let s := s.modWalker x w.w fun v => { v with got := none }
  if bits e 0 1 == 0 then s.walkFault x w 1
  else if badFormat e w.k then s.walkFault x w 2
  else if bits e 1 1 == 1 then
    let tbl := bits e 12 45 * 4096
    let s := s.wcPut x w (w.k - 1) tbl
    let w := { w with k := w.k - 1, tbl := tbl }
    (s.modWalker x w.w fun v => { v with k := w.k, tbl := tbl }).walkRead x w
  else if w.wr && bits e 2 1 == 0 then s.walkFault x w 4
  else
    let need := 8 + if w.wr then 16 else 0
    if e &&& need == need then s.walkLeaf x w e
    else if w.spec then s.walkFault x w 0
    else
      -- a compare-and-swap of the entry at its home
      let swap := e ||| need
      let r : Req :=
        { src := .walker x w.w, kind := .atomic, la := w.ma / 64, atHome := true,
          opnd := BitVec.ofNat 384 (swap + e * 2 ^ 128 + 0x14 * 2 ^ 256 + w.ma % 64 * 2 ^ 264) }
      (s.modWalker x w.w fun v => { v with cas := some (BitVec.ofNat 64 e), need := BitVec.ofNat 64 need }).toSlice (sliceOf r.la) r

def Xlt.walker (x : Xlt) (w : Nat) : Option Walker := x.walkers.find? fun v => v.w == w

/-- WALK_TABLE_READ_DONE (R288). -/
def execWalkTableReadDone (x w : Nat) (s : State) : Host.Outcome State Fault Refusal :=
  .next (if !s.powered then s
    else match (s.xlt x).walker w with
    | none => s
    | some v =>
      match v.got with
      | none => s
      | some (line, poison, code) =>
        if v.cas.isSome then s
        else if code != 0 then s.walkFault x v code
        else if poison then s.walkFault x v 7
        else s.walkEntry x v line)

/-- WALK_CAS_DONE (R289). A failed compare restarts the walk from the root; a fourth ends it. -/
def execWalkCasDone (x w : Nat) (s : State) : Host.Outcome State Fault Refusal :=
  .next (if !s.powered then s
    else match (s.xlt x).walker w with
    | none => s
    | some v =>
      match v.cas, v.got with
      | some e, some (line, poison, code) =>
        if code != 0 then s.walkFault x v code
        else if poison then s.walkFault x v 7
        else if line.getLsbD 128 then s.walkLeaf x v (e.toNat ||| v.need.toNat)
        else if 3 ≤ v.restarts then s.walkFault x v 10
        else
          let t := s.xlt x
          let s := s.setXlt x { t with restarts := satAdd 0xFFFF t.restarts 1 }
          let f (v : Walker) : Walker := { v with restarts := v.restarts + 1, k := v.levels, tbl := v.root, cas := none, got := none }
          (s.modWalker x w f).walkRead x (f v)
      | _, _ => s)

/-- WALK_LIMIT (R290): 3,200 ns after the walk left the queue, guards and lulls not counted. -/
def execWalkLimit (x w : Nat) (s : State) : Host.Outcome State Fault Refusal :=
  .next (if !s.powered then s
    else match (s.xlt x).walker w with
    | none => s
    | some v => if s.ran v.t0 v.paused0 < 6400 then s else s.walkFault x v 9)

/-- The next page of a side of a running descriptor, in its direction and within its length (R291). -/
def Desc.nextPage (d : Desc) (dst : Bool) : Option Nat :=
  let k := if dst then d.wrAt else d.rdAt
  if !d.active || d.ended || d.opc == 0 || d.opc == 7 || d.total ≤ k || (if dst then d.dstFlat else d.srcFlat || !d.reads) then none
  else
    let a := if dst then d.dstAt k else d.srcAt k
    let last := if dst then d.dstAt (d.total - 1) else d.srcAt (d.total - 1)
    let down := d.stride < 0 && (if dst then d.opc == 5 else d.opc == 4)
    if down then (if last / 4096 < a / 4096 then some (a / 4096 - 1) else none)
    else if a / 4096 < last / 4096 then some (a / 4096 + 1) else none

/-- The page after two successive misses of a link on adjacent pages (R291). -/
def HLink.nextPage (x : HLink) : Option Nat :=
  match x.miss1, x.miss2 with
  | some a, some b => if a == b + 1 then some (a + 1) else if b == a + 1 && a != 0 then some (a - 1) else none
  | _, _ => none

/-- The context and page that a speculative translation of XLT `x` is for. -/
def State.specTarget (s : State) (x : Nat) : SpecFor → Option (Nat × Nat × Nat)
  | .porter p seq dst =>
    if x != 4 then none
    else ((s.por p).desc seq).bind fun d => (d.nextPage dst).map fun v => (d.ctx, v, 0x80 + p)
  | .link l =>
    if x != l / 2 || !s.linkOn l then none
    else (s.link l).nextPage.map fun v => (s.gwinCtx (l / 2) (l % 2), v, l)

/-- SPECULATIVE_WALK_START (R291): none for a page that is translated, or whose walk is queued or running. -/
def execSpeculativeWalkStart (x : Nat) (f : SpecFor) (fd : Finds) (s : State) : Host.Outcome State Fault Refusal :=
  .next (s.finding fd fun s => (if !s.powered || !s.part.xltPresent x || !s.specEn x then s
    else match s.specTarget x f with
    | none => s
    | some (c, page, source) =>
      let va := page * 4096
      let t := s.xlt x
      let known := [12, 21, 30, 39].any fun p =>
        match s.tlbScan t.l2 (8 * l2Set c va p) 8 c va false with | some (_, e) => e.p == p | none => false
      let known := known || (s.tlbScan t.l1s 0 32 c va false).isSome || (s.tlbScan t.l1d 0 64 c va false).isSome
      let busy := (t.jobs.any fun j => samePage j.ctx j.va c va) || (t.walkers.any fun w => samePage w.ctx w.va c va)
      if known || busy || 16 ≤ t.walkers.length then s
      else
        let (id, s) := s.newId
        let w := s.newWalker id c va false true source (s.wcEn x)
        (s.setXlt x { t with walkers := t.walkers ++ [w] }).walkBegin x w))

/-- TLB_ENTRY_AGE_OUT (R296). -/
def execTlbEntryAgeOut (x : Nat) (s : State) : Host.Outcome State Fault Refusal :=
  .next (if s.powered && s.part.xltPresent x then s.xltAge x else s)

end Sys2Proof.Machine
end

