-- ==== Sys2Proof/Machine/Mgmt.lean ====
section
/-! DEFINITION. Command packets: their opcodes and sizes, the checks that need no family of commands, replies, and the end of a
command (R427–R436, R439, R443). -/

namespace Sys2Proof.Machine

/-! ### Status codes (Table 17.4) -/

def stOK : Nat := 0
def stBadChecksum : Nat := 1
def stBadVersion : Nat := 2
def stBadOpcode : Nat := 3
def stBadLength : Nat := 4
def stNotPermitted : Nat := 5
def stBadState : Nat := 6
def stLevel : Nat := 7
def stInvalidInstance : Nat := 8
def stBadParam : Nat := 9
def stBusy : Nat := 10
def stRefused : Nat := 11
def stFailed : Nat := 12
def stTimeout : Nat := 13
def stDomainActive : Nat := 14

/-! ### Opcodes (Table 17.5) -/

/-- Opcode of a command. -/
def cmdOpc : CmdBody → Nat
  | .identify => 0x0101
  | .status => 0x0102
  | .setState _ => 0x0201
  | .partSetFlat _ => 0x0210
  | .cacheMode _ => 0x0211
  | .rangeOp _ _ _ _ => 0x0301
  | .unretire _ _ _ => 0x0302
  | .chThaw _ _ => 0x0310
  | .chRetrain _ _ => 0x0311
  | .pasrSet _ => 0x0312
  | .ppr _ _ _ _ _ _ _ => 0x0320
  | .chRawRead _ _ _ _ => 0x0330
  | .chRawWrite _ _ _ _ => 0x0331
  | .domSet _ _ => 0x0401
  | .domJoin => 0x0402
  | .domReform => 0x0403
  | .nodeSet _ => 0x0404
  | .fabPort _ _ => 0x0410
  | .fabClrUnreach _ => 0x0411
  | .timeSet _ => 0x0501
  | .ledgerRead _ _ => 0x0601
  | .ledgerClear => 0x0602
  | .tallyRoute _ => 0x0701
  | .traceSetup _ _ _ _ => 0x0710
  | .fwInfo => 0x0801
  | .fwErase => 0x0802
  | .fwWrite _ _ => 0x0803
  | .fwVerify => 0x0804
  | .fwActivate => 0x0805
  | .bistRun _ _ _ => 0x0F01
  | .repairStatus => 0x0F02
  | .other op _ => op.toNat

/-- Parameter bytes of a command, packed and little-endian in the order listed (R440). -/
def cmdParams : CmdBody → List Byte
  | .identify => []
  | .status => []
  | .setState st => [st]
  | .partSetFlat f => [f]
  | .cacheMode m => [m]
  | .rangeOp op fl base len => [op, fl] ++ leBytes 8 base.toNat ++ leBytes 8 len.toNat
  | .unretire sl set way => [sl] ++ leBytes 4 set.toNat ++ [way]
  | .chThaw k c => [k, c]
  | .chRetrain k c => [k, c]
  | .pasrSet m => [m]
  | .ppr ch sub rank bg bank row kind => [ch, sub, rank, bg, bank] ++ leBytes 4 row.toNat ++ [kind]
  | .chRawRead k c a n => [k, c] ++ leBytes 8 a.toNat ++ leBytes 2 n.toNat
  | .chRawWrite k c a d => [k, c] ++ leBytes 8 a.toNat ++ leBytes 64 d.toNat
  | .domSet d p => [d] ++ leBytes 16 p.toNat
  | .domJoin => []
  | .domReform => []
  | .nodeSet n => leBytes 2 n.toNat
  | .fabPort p a => [p, a]
  | .fabClrUnreach n => leBytes 2 n.toNat
  | .timeSet m => leBytes 8 m.toNat
  | .ledgerRead f n => leBytes 2 f.toNat ++ leBytes 2 n.toNat
  | .ledgerClear => []
  | .tallyRoute es => leBytes 2 es.length ++ es.flatMap fun (u, c, e) => [u, c] ++ leBytes 2 e.toNat
  | .traceSetup a b c d => leBytes 8 a.toNat ++ leBytes 8 b.toNat ++ leBytes 8 c.toNat ++ leBytes 8 d.toNat
  | .fwInfo => []
  | .fwErase => []
  | .fwWrite o bs => leBytes 4 o.toNat ++ bs
  | .fwVerify => []
  | .fwActivate => []
  | .bistRun t i p => [t, i, p]
  | .repairStatus => []
  | .other _ ps => ps

/-- Conflict groups (R435). -/
inductive CmdGroup where
  | none
  | c
  | m
  | d
  | t
  | f
  | all
  deriving DecidableEq, Repr

/-- A row of Table 17.5: the states BRINGUP, SERVICE and MAINTENANCE that accept the command, its level, its group, and the
least and most parameter bytes. -/
structure CmdInfo where
  bringup : Bool
  service : Bool
  maint : Bool
  level : Nat
  grp : CmdGroup
  least : Nat
  most : Nat
  deriving DecidableEq, Repr

def cmdInfo (op : Nat) : Option CmdInfo :=
  let row (b s m : Bool) (l : Nat) (g : CmdGroup) (lo hi : Nat) : Option CmdInfo := some ⟨b, s, m, l, g, lo, hi⟩
  if op == 0x0101 || op == 0x0102 then row true true true 0 .none 0 0
  else if op == 0x0201 then row false true true 3 .all 1 1
  else if op == 0x0210 || op == 0x0211 then row false false true 3 .c 1 1
  else if op == 0x0301 then row false true true 3 .c 18 18
  else if op == 0x0302 then row false false true 3 .c 6 6
  else if op == 0x0310 || op == 0x0311 then row false false true 3 .m 2 2
  else if op == 0x0312 then row false false true 3 .c 1 1
  else if op == 0x0320 then row false false true 3 .m 10 10
  else if op == 0x0330 then row false false true 3 .m 12 12
  else if op == 0x0331 then row false false true 3 .m 74 74
  else if op == 0x0401 then row true false true 0 .d 17 17
  else if op == 0x0402 then row true false true 3 .d 0 0
  else if op == 0x0403 then row false false true 3 .d 0 0
  else if op == 0x0404 then row true false false 0 .d 2 2
  else if op == 0x0410 then row true true true 0 .none 2 2
  else if op == 0x0411 then row false true true 3 .none 2 2
  else if op == 0x0501 then row true false true 0 .t 8 8
  else if op == 0x0601 then row true true true 1 .none 4 4
  else if op == 0x0602 then row true true true 1 .none 0 0
  else if op == 0x0701 then row true false true 1 .none 6 3074
  else if op == 0x0710 then row true true true 1 .none 32 32
  else if op == 0x0801 then row true true true 0 .none 0 0
  else if op == 0x0802 then row true true true 0 .f 0 0
  else if op == 0x0803 then row true true true 0 .f 5 4096
  else if op == 0x0804 || op == 0x0805 then row true true true 0 .f 0 0
  else if op == 0x0F01 then row true false true 0 .m 3 3
  else if op == 0x0F02 then row true true true 0 .none 0 0
  else none

/-- The mailbox runs the command as a CXL background operation (R428). -/
def cmdBackground (op : Nat) : Bool :=
  op == 0x0210 || op == 0x0211 || op == 0x0301 || op == 0x0312 || op == 0x0310 || op == 0x0320 || op == 0x0402 || op == 0x0403
    || op == 0x0802 || op == 0x0804

/-- The command that an opcode and parameter bytes spell; `other` where they spell none. -/
def cmdOf (op : Nat) (ps : List Byte) : CmdBody :=
  let n (o k : Nat) : Nat := leNat ((ps.drop o).take k)
  let b (o : Nat) : BitVec 8 := (ps[o]?).getD 0
  let other : CmdBody := .other (BitVec.ofNat 16 op) ps
  match cmdInfo op with
  | none => other
  | some i =>
    if ps.length < i.least || i.most < ps.length then other
    else if op == 0x0101 then .identify
    else if op == 0x0102 then .status
    else if op == 0x0201 then .setState (b 0)
    else if op == 0x0210 then .partSetFlat (b 0)
    else if op == 0x0211 then .cacheMode (b 0)
    else if op == 0x0301 then .rangeOp (b 0) (b 1) (BitVec.ofNat 64 (n 2 8)) (BitVec.ofNat 64 (n 10 8))
    else if op == 0x0302 then .unretire (b 0) (BitVec.ofNat 32 (n 1 4)) (b 5)
    else if op == 0x0310 then .chThaw (b 0) (b 1)
    else if op == 0x0311 then .chRetrain (b 0) (b 1)
    else if op == 0x0312 then .pasrSet (b 0)
    else if op == 0x0320 then .ppr (b 0) (b 1) (b 2) (b 3) (b 4) (BitVec.ofNat 32 (n 5 4)) (b 9)
    else if op == 0x0330 then .chRawRead (b 0) (b 1) (BitVec.ofNat 64 (n 2 8)) (BitVec.ofNat 16 (n 10 2))
    else if op == 0x0331 then .chRawWrite (b 0) (b 1) (BitVec.ofNat 64 (n 2 8)) (BitVec.ofNat 512 (n 10 64))
    else if op == 0x0401 then .domSet (b 0) (BitVec.ofNat 128 (n 1 16))
    else if op == 0x0402 then .domJoin
    else if op == 0x0403 then .domReform
    else if op == 0x0404 then .nodeSet (BitVec.ofNat 16 (n 0 2))
    else if op == 0x0410 then .fabPort (b 0) (b 1)
    else if op == 0x0411 then .fabClrUnreach (BitVec.ofNat 16 (n 0 2))
    else if op == 0x0501 then .timeSet (BitVec.ofNat 64 (n 0 8))
    else if op == 0x0601 then .ledgerRead (BitVec.ofNat 16 (n 0 2)) (BitVec.ofNat 16 (n 2 2))
    else if op == 0x0602 then .ledgerClear
    else if op == 0x0701 then
      (if ps.length == 2 + 4 * n 0 2 then
        .tallyRoute ((List.range (n 0 2)).map fun k => (b (2 + 4 * k), b (3 + 4 * k), BitVec.ofNat 16 (n (4 + 4 * k) 2)))
       else other)
    else if op == 0x0710 then .traceSetup (BitVec.ofNat 64 (n 0 8)) (BitVec.ofNat 64 (n 8 8)) (BitVec.ofNat 64 (n 16 8)) (BitVec.ofNat 64 (n 24 8))
    else if op == 0x0801 then .fwInfo
    else if op == 0x0802 then .fwErase
    else if op == 0x0803 then .fwWrite (BitVec.ofNat 32 (n 0 4)) (ps.drop 4)
    else if op == 0x0804 then .fwVerify
    else if op == 0x0805 then .fwActivate
    else if op == 0x0F01 then .bistRun (b 0) (b 1) (b 2)
    else if op == 0x0F02 then .repairStatus
    else other

/-! ### The header (R431) -/

/-- Header bytes with the checksum field as given. -/
def hdrBytes (op : Nat) (h : CmdHdr) (sum : Nat) : List Byte :=
  leBytes 2 op ++ leBytes 2 h.tag.toNat ++ [h.flags, h.version] ++ leBytes 2 h.plen ++ leBytes 20 h.zeros.toNat ++ leBytes 4 sum

def hdrChk (h : CmdHdr) : Bool := h.flags.getLsbD 0
def hdrDry (h : CmdHdr) : Bool := h.flags.getLsbD 1

/-- The header's own checks, steps 1 to 4 of R433. -/
def hdrCheck (h : CmdHdr) (b : CmdBody) : Nat :=
  let op := cmdOpc b
  let ps := cmdParams b
  if hdrChk h && h.checksum != crc32c (hdrBytes op h 0 ++ ps) then stBadChecksum
  else if h.version != 1 then stBadVersion
  else match cmdInfo op with
    | none => stBadOpcode
    | some i =>
      let n := ps.length
      let fits := h.plen == n && i.least ≤ n && n ≤ i.most
      if h.zeros != 0 || h.flags.toNat / 4 != 0 || (!hdrChk h && h.checksum != 0) || !fits || (match b with | .other _ _ => true | _ => false)
      then stBadLength else stOK

/-! ### The management I3C target and the SPD buses (R482) -/

/-- Static address of the management I3C target. -/
def i3cStatic : BitVec 7 := 0x52

/-- The address the target answers: the dynamic one once it is assigned. -/
def State.i3cAddress (s : State) : BitVec 7 := s.mgt.i3c.getD i3cStatic

/-- The I3C controller assigns a dynamic address: by SETDASA to the static address `st`, or by ENTDAA, which names no address. A target
that has one takes no second (PRESUMED, unsafe: notes/assumptions/102.md; the table has no row for either). -/
def State.i3cAssign (s : State) (st : Option (BitVec 7)) (a : BitVec 7) : State :=
  if s.mgt.i3c.isSome || st.any (· != i3cStatic) then s else { s with mgt := { s.mgt with i3c := some a } }

/-- SPD bus of a far channel. -/
def spdBus (k : Nat) : Nat := k / 4

/-! ### Replies (R432) -/

/-- The bytes of a reply. A payload goes with status OK, and the UNMATCHED vector with TIMEOUT (R330; DEDUCED, safe: notes/assumptions/33.md). -/
def replyBytes (op : Nat) (h : CmdHdr) (status : Nat) (payload : List Byte) : List Byte :=
  let pl := if status == stOK || status == stTimeout then payload.take 4096 else []
  let head (sum : Nat) : List Byte :=
    leBytes 2 op ++ leBytes 2 h.tag.toNat ++ leBytes 2 status ++ leBytes 1 (if hdrChk h then 1 else 0) ++ leBytes 1 1
      ++ leBytes 2 pl.length ++ leBytes 2 0 ++ leBytes 4 sum
  head (if hdrChk h then (crc32c (head 0 ++ pl)).toNat else 0) ++ pl

/-- Send bytes to a node as fragments (R332). -/
def State.sendFragments (s : State) (node tag : Nat) (bs : List Byte) : State :=
  let n := (bs.length + 191) / 192
  (List.range n).foldl (fun s i =>
    s.sendPkt node 3 false false (.mgt { tag := tag, index := i, count := n, total := bs.length, body := (bs.drop (192 * i)).take 192 })) s

/-- A command opcode's CXL opcode on the mailbox (R428). -/
def mboxOpcode (op : Nat) : Nat := 0xC000 + op
/-- The reply's bytes on their carrier (R428, R429). -/
def State.carry (s : State) (via : Transport) (op tag : Nat) (bs : List Byte) : State :=
  match via with
  | .mailbox l => s.emit (.mailbox l (mboxOpcode op) bs)
  | .mctp e => s.emit (.mctp e Config.vendorId bs)
  | .fabric node => s.sendFragments node tag bs

/-- Send a reply on the transport that carried the command (R427, R428), without what is common to all of that carrier's traffic
(PRESUMED, unsafe: notes/assumptions/121.md). -/
def State.cmdReply (s : State) (op : Nat) (h : CmdHdr) (status : Nat) (payload : List Byte) : State :=
  let bs := replyBytes op h status payload
  match h.via with
  | .mailbox l => ((s.modLink l fun x => { x with mboxBusy := false, mboxReply := bs }).carry h.via op h.tag.toNat bs).signal l 0
  | _ => s.carry h.via op h.tag.toNat bs

/-- A command that executes has ended: its reply (R434). -/
def State.cmdEnd (s : State) (id status : Nat) (payload : List Byte) : State :=
  match s.mgt.running.find? fun r => r.id == id with
  | none => s
  | some r =>
    let s : State := { s with mgt := { s.mgt with running := s.mgt.running.filter fun x => x.id != id } }
    (s.cmdReply (cmdOpc r.body) r.hdr status payload).event 210 1 1

/-- The command of a kind that executes. -/
def State.cmdRunning (s : State) (p : CmdBody → Bool) : Option Run := s.mgt.running.find? fun r => p r.body

end Sys2Proof.Machine
end

