-- ==== Sys2Proof/Machine/Fabric.lean ====
section
/-! DEFINITION. Fabric ports and the router: training, ident blocks, flits and replay, packing and credits, routing, OSEQ order,
link reports and route-fail notices (R307–R324, R501), and time packets (R216, R217, R325). -/

namespace Sys2Proof.Machine

/-- Port `p` is present, and its unit works. -/
def State.portOn (s : State) (p : Nat) : Bool := s.live && p < s.part.fabricPorts
def State.modPort (s : State) (p : Nat) (f : FPort → FPort) : State := s.setPort p (f (s.port p))

/-! ### Links that go down (R314, R321, R501) -/

/-- Time packets are link-local: they are never routed or resent (R325). -/
def Packet.isTime (p : Packet) : Bool := match p.body with | .time _ => true | _ => false

/-- Put packets back before the router, ahead of those that wait there, on the VC on which they came (R319, R321). -/
def State.requeue (s : State) (ps : List Packet) : State :=
  { s with rtr := { s.rtr with q := (ps.filter fun p => !Machine.Packet.isTime p).map (fun p => { p with vc := p.arr, arr := 0 }) ++ s.rtr.q } }

/-- What a link needs to know of what its peer received is known: `r` is the SEQ of the last data flit that the peer received
in order, none when it received none. The flits up to it are dropped, and the packets of the rest go by their next choice. -/
def State.settle (s : State) (p : Nat) (r : Option Nat) : State :=
  let x := s.port p
  if x.downAt.isNone then s
  else
    let rest : List RFlit := match r with
      | some n => if x.replayBuf.any fun f => f.seq == n then (x.replayBuf.dropWhile fun f => f.seq != n).drop 1 else x.replayBuf
      | none => x.replayBuf
    (s.setPort p { x with replayBuf := [], resend := [], downAt := none }).requeue (rest.flatMap (·.pkts))

/-- The link of port `p` goes down (R314): counted, reported to its peer, and trained again unless the port is disabled or held. -/
def State.linkDown (s : State) (p cause : Nat) (en : Bool) : State :=
  let x := s.port p
  if x.st == 0 then s
  else
    let beats := (x.downBeats.filter fun b => s.beat < b + 1024) ++ [s.beat]
    let held := 4 ≤ beats.length && en
    let y : FPort :=
      { x with st := if held || !en then 0 else 1, held := x.held || held, width := 0, downs := satAdd 255 x.downs 1,
               cause := if held then 6 else cause, downBeats := beats, sentValid := false, gotValid := false,
               downAt := if x.replayBuf.isEmpty then none else some s.clk, txq := [], used := [], toReturn := [], rxHold := false, rxSkip := 0,
               sendNak := false, sameReplay := 0, resend := [], t1 := none, rxTime := [], nbLocked := false, nbStratum := 255 }
    let s := (s.setPort p y).rec_ 0x15 (153 + p) (if x.peerValid then x.peerNode else 0xFFFF) 0 (if held then 6 else cause)
    -- the input buffers of the new link are empty
    let s : State := { s with rtr := { s.rtr with q := s.rtr.q.map fun k => if k.inp == p + 1 then { k with inp := 0 } else k } }
    let s := (s.requeue x.txq).restrata
    if x.st == 5 && x.peerValid then
      s.sendPkt x.peerNode 3 false false (.linkReport p x.peerPort (if x.rxAny then some x.rxSeq else none))
    else s

/-! ### Training and ident blocks (R308–R310) -/

/-- This end's ident block. -/
def State.identOf (s : State) (p : Nat) : IdentBlk :=
  let x := s.port p
  { valid := s.boot.nodeSet, node := if s.boot.nodeSet then s.nodeNo else 0, port := p,
    part := match s.part with | .f144 => 1 | .s72 => 2, domain := s.tableDomain, digest := s.dom.digest,
    rseq := if x.trainedOnce && x.rxAny then some x.rxSeq else none }

/-- Send an ident block. -/
def State.sendIdent (s : State) (p : Nat) : State :=
  (s.modPort p fun x => { x with sentValid := s.boot.nodeSet }).emit (.ident p (s.identOf p))

/-- Blocks with NODE_VALID = 1 have gone both ways (R309): two ends of one node number stay in IDENT, with cause 7 and a record; others
enter ACTIVE once step 5 has begun (R414). -/
def State.tryActive (s : State) (p : Nat) : State :=
  let x := s.port p
  if !(x.st == 4 && x.sentValid && x.gotValid) then s
  else if x.peerNode == s.nodeNo then (s.setPort p { x with cause := 7 }).rec_ 0xFF (153 + p) x.peerNode 0 7
  else if s.rtr.enabled then
    s.setPort p { x with st := 5, trainedOnce := true, txSeq := 0, rxSeq := 1023, rxAny := false, rxHold := false, rxSkip := 0,
                         sendNak := false, resend := [], used := [], toReturn := [], lastRx := s.clk, flits := 0, sameReplay := 0 }
  else s

/-- Lanes that a port trains at (R310): eight, or four where the table's rule lets it, or none. -/
def State.trainWidth (s : State) (p : Nat) (lanes : BitVec 8) : Nat :=
  if lanes == 0xFF then 8
  else if s.degradeOk p && (lanes &&& 0x0F == 0x0F || lanes &&& 0xF0 == 0xF0) then 4 else 0

/-- TRAINING_STATE_COMPLETE (R308, R310): `lanes` are those that work. An enabled port leaves OFF at its first (DEDUCED, safe: notes/assumptions/46.md). -/
def execTrainingStateComplete (p : Nat) (lanes : BitVec 8) (s : State) : Host.Outcome State Fault Refusal :=
  .next (if !s.portOn p || !s.portEn p then s
    else
      let x := s.port p
      if x.held || 4 ≤ x.st then s
      else if x.st != 3 then s.setPort p { x with st := x.st + 1 }
      else
        let w := s.trainWidth p lanes
        if w == 0 then s.setPort p { x with st := 1 }
        else (s.setPort p { x with st := 4, width := w, lastRx := s.clk }).sendIdent p)

/-- IDENT_BLOCK (R309). A block from a link that went down settles its held flits (R501). -/
def execIdentBlock (p : Nat) (b : IdentBlk) (s : State) : Host.Outcome State Fault Refusal :=
  .next (if !s.portOn p || (s.port p).st != 4 then s
    else
      let s := s.settle p b.rseq
      if b.valid then
        (s.modPort p fun x => { x with peerValid := true, peerNode := b.node, peerPort := b.port, gotValid := true }).tryActive p
      else s)

/-- Step 5 begins (R309, R414): every port in IDENT sends a new block. -/
def State.portsStep5 (s : State) : State :=
  (List.range s.part.fabricPorts).foldl (fun s p => if (s.port p).st == 4 then (s.sendIdent p).tryActive p else s) s

/-! ### Receiving flits (R313, R314) -/

/-- Buffer of a packet: its VN, VC and class (R316). -/
def bufKey (vn vc : Nat) (bulk : Bool) : Nat := vn * 4 + vc * 2 + if bulk then 1 else 0

/-- The peer has received every data flit up to `ack`. -/
def FPort.acked (x : FPort) (ack : Nat) : FPort :=
  if x.replayBuf.any fun f => f.seq == ack then
    let rest := (x.replayBuf.dropWhile fun f => f.seq != ack).drop 1
    { x with replayBuf := rest, resend := x.resend.filter fun q => rest.any fun f => f.seq == q,
             sameReplay := 0 }
  else x

/-- A NAK (R314): every data flit after `ack` goes again. -/
def State.nakTake (s : State) (p ack : Nat) : State :=
  let x := (s.port p).acked ack
  s.setPort p { x with resend := x.replayBuf.map (·.seq) }

/-- Flit `q` has been sent again (R314): where it is the oldest that the peer has not acknowledged, a replay has begun. The eighth of one
flit in succession takes the link down; so does one beyond REPLAY_LIMIT in a beat (DEDUCED, unsafe: notes/assumptions/119.md). -/
def State.replayed (s : State) (p q : Nat) : State :=
  let x := s.port p
  if x.replayBuf.head?.map (·.seq) != some q then s
  else
    let same := if x.lastReplayed == q && x.sameReplay != 0 then x.sameReplay + 1 else 1
    let cnt := if x.replayBeat == s.beat then x.replayCnt + 1 else 1
    let s := s.setPort p { x with lastReplayed := q, sameReplay := same, replayBeat := s.beat, replayCnt := cnt }
    if 8 ≤ same then s.linkDown p 1 (s.portEn p)
    else if s.replayLimit p < cnt then s.linkDown p 3 (s.portEn p)
    else s

/-- A packet at capture point 1 (received) or 2 (sent) of port `p` (R455). -/
def State.tracePkt (s : State) (point p : Nat) (k : Packet) : State :=
  let typ := bodyTyp k.body
  let node := if point == 1 then k.src else k.dst
  let detail := bits (pktHeader k).toNat 82 16
  match k.body with
  | .coh g m => s.trace point (153 + p) (if g then 0x21 else m.opc) m.la node m.tid detail
  | _ => s.trace point (153 + p) (0x20 + typ) 0 node 0 detail

/-- A packet has left the input buffer of port `p` that it came into: its slots of credit go back to the peer (R316). -/
def State.creditBack (s : State) (p : Nat) (k : Packet) : State :=
  s.modPort p fun x =>
    let b := bufKey k.vn k.vc k.bulk
    { x with toReturn := Tab.put 0 x.toReturn b (Tab.get 0 x.toReturn b + pktLen k) }

/-- A packet has crossed the link into port `p`, and waits in its input buffer for the router (R316). Time packets end here; until step 5
every packet is discarded (R414) (DESIGN CHOICE, unsafe: notes/assumptions/48.md). -/
def State.pktIn (s : State) (p : Nat) (replay : Bool) (k : Packet) : State :=
  let s := s.tracePkt 1 p k
  if Machine.Packet.isTime k then
    let s := s.creditBack p k
    (if replay then s
     else
      let s : State := { s with rtr := { s.rtr with delivered := s.rtr.delivered ++ [{ k with vc := p }] } }
      match k.body with
      | .time t => s.modPort p fun x => { x with rxTime := x.rxTime ++ [(t, s.mtu.mt)] }
      | _ => s)
  else if !s.rtr.enabled then s.creditBack p k
  else { s with rtr := { s.rtr with q := s.rtr.q ++ [{ k with hops := k.hops + 1, inp := p + 1 }] } }

/-- FLIT (R313, R314): correction, CRC, acknowledgement, credit, and a data flit's packets in order. -/
def execFlit (p : Nat) (f : BitVec 2048) (s : State) : Host.Outcome State Fault Refusal :=
  .next (if !s.portOn p || (s.port p).st < 4 then s
    else
      let (bs, fixed) := flitFix f
      let s := if fixed then (s.modPort p fun x => { x with fecCorr := x.fecCorr + 1 }).event (153 + p) 4 1 else s
      if !flitGood bs then
        s.modPort p fun x => { x with crcFail := satAdd 0xFFFF x.crcFail 1, rxHold := true, rxSkip := x.rxSkip + 1, sendNak := true }
      else
        let h := flitHdr bs
        let s := s.modPort p fun x =>
          let b := h.cvn * 4 + h.cvc * 2 + h.ccl
          let x := if h.ft == 2 then x else x.acked h.ack
          { x with lastRx := s.clk, used := Tab.put 0 x.used b (Tab.get 0 x.used b - h.crd) }
        if h.ft == 2 then s.nakTake p h.ack
        else if h.ft != 0 || (s.port p).st != 5 then s
        else
          let x := s.port p
          if h.seq == (x.rxSeq + 1) % 1024 then
            let replay := x.rxHold || 0 < x.rxSkip
            let s := (s.setPort p { x with rxSeq := h.seq, rxAny := true, rxHold := false, rxSkip := x.rxSkip - 1, sendNak := false }).event (153 + p) 2 1
            (pktsOf 15 (flitSlots bs)).foldl (fun s k => s.pktIn p replay k) s
          -- one already received is passed over; a later one waits for the replay
          else if (x.rxSeq + 1024 - h.seq) % 1024 < 512 then s
          else s.setPort p { x with rxHold := true, rxSkip := max x.rxSkip ((h.seq + 1024 - x.rxSeq) % 1024), sendNak := x.sendNak || !x.rxHold })

/-- NAK (R314). -/
def execNak (p ackSeq : Nat) (s : State) : Host.Outcome State Fault Refusal :=
  .next (if s.portOn p && (s.port p).st == 5 then s.nakTake p ackSeq else s)

/-- NO_FLIT_TIMEOUT (R314): 256 ns. -/
def execNoFlitTimeout (p : Nat) (s : State) : Host.Outcome State Fault Refusal :=
  .next (if s.portOn p && (s.port p).st == 5 && (s.port p).lastRx + 512 ≤ s.clk then s.linkDown p 2 (s.portEn p) else s)

/-- LANE_LOCK_LOST (R314). -/
def execLaneLockLost (p : Nat) (s : State) : Host.Outcome State Fault Refusal :=
  .next (if s.portOn p && 4 ≤ (s.port p).st then s.linkDown p 4 (s.portEn p) else s)

/-- Take a port's link down and train it again (R314). -/
def State.portRetrain (s : State) (p : Nat) : State := s.linkDown p 5 (s.portEn p)

/-- Write a port's EN (R314): 0 takes the link down; 1 releases a held port. -/
def State.portEnable (s : State) (p : Nat) (en : Bool) : State :=
  let s := s.csrPut (offFpt p 0) (setFld (s.csrGet (offFpt p 0)) 0 1 (if en then 1 else 0))
  if en then
    s.modPort p fun x => if x.held || x.st == 0 then { x with held := false, st := 1, downBeats := [] } else x
  else (s.linkDown p 5 false).modPort p fun x => { x with held := false }

/-- RETRAIN (R314). -/
def execRetrain (p : Nat) (s : State) : Host.Outcome State Fault Refusal := .next (if s.portOn p then s.portRetrain p else s)

/-- PORT_ENABLE_WRITE (R314). -/
def execPortEnableWrite (p : Nat) (en : Bool) (s : State) : Host.Outcome State Fault Refusal :=
  .next (if s.portOn p then s.portEnable p en else s)

/-! ### Packing (R316, R317) -/

/-- Slots of credit left in the peer's buffer. -/
def FPort.credit (x : FPort) (b : Nat) : Nat := 64 - Tab.get 0 x.used b

/-- The first packet of the output queue of a VN and class, with VC, that fits `room` slots and whose buffer has credit. Packets
of one buffer keep their order. -/
def FPort.pickPkt (x : FPort) (vn : Nat) (bulk : Bool) (room : Nat) : Option Packet :=
  [0, 1].findSome? fun vc =>
    match x.txq.find? fun k => k.vn == vn && k.bulk == bulk && k.vc == vc with
    | some k => if pktLen k ≤ room && pktLen k ≤ x.credit (bufKey vn vc bulk) then some k else none
    | none => none

/-- Move one packet from the output queue into the flit. -/
def FPort.takePkt (x : FPort) (k : Packet) : FPort :=
  let b := bufKey k.vn k.vc k.bulk
  { x with txq := x.txq.erase k, used := Tab.put 0 x.used b (Tab.get 0 x.used b + pktLen k) }

/-- Fill `room` slots from one VN and class, `k` packets at most. -/
def packOne (vn : Nat) (bulk : Bool) : Nat → Nat → FPort → List Packet × Nat × FPort
  | 0, room, x => ([], room, x)
  | k + 1, room, x =>
    match x.pickPkt vn bulk room with
    | none => ([], room, x)
    | some p =>
      let (ps, r, y) := packOne vn bulk k (room - pktLen p) (x.takePkt p)
      (p :: ps, r, y)

/-- Fill slots from bulk packets, rotating among VN2, VN1 and VN0. -/
def packBulk : Nat → Nat → FPort → List Packet × Nat × FPort
  | 0, room, x => ([], room, x)
  | k + 1, room, x =>
    let turn := [2, 1, 0, 2, 1].drop (x.bulkTurn % 3) |>.take 3
    match turn.findSome? fun vn => (x.pickPkt vn true room).map fun p => (vn, p) with
    | none => ([], room, x)
    | some (vn, p) =>
      let (ps, r, y) := packBulk k (room - pktLen p) ({ x.takePkt p with bulkTurn := 3 - vn } : FPort)
      (p :: ps, r, y)

/-- The VN3 packets of the next data flit, with their slots: at most 4 slots of them. A longer one, which only a management fragment
is, goes by itself, since no packet spans flits (R315, R317; DEDUCED, unsafe: notes/assumptions/107.md). -/
def FPort.packVn3 (x : FPort) : List Packet × Nat × FPort :=
  let (a, r, y) := packOne 3 false 4 4 x
  if !a.isEmpty then (a, 4 - r, y)
  else match x.pickPkt 3 false 15 with
    | some k => ([k], pktLen k, x.takePkt k)
    | none => ([], 0, x)

/-- The packets of the next data flit, in the order of R317. -/
def FPort.pack (x : FPort) : List Packet × FPort :=
  let (a, used, x) := x.packVn3
  let room := 15 - used
  let bounded (room : Nat) (x : FPort) : List Packet × Nat × FPort :=
    let (b, r, x) := packOne 2 false 15 room x
    let (c, r, x) := packOne 1 false 15 r x
    let (d, r, x) := packOne 0 false 15 r x
    (b ++ c ++ d, r, x)
  if x.flits % 8 == 7 then
    let (b, r, x) := packBulk 15 room x
    let (c, _, x) := bounded r x
    (a ++ b ++ c, x)
  else
    let (b, r, x) := bounded room x
    let (c, _, x) := packBulk 15 r x
    (a ++ b ++ c, x)

/-- A time packet takes its transmit stamp as its flit starts (R325). -/
def stampTime (mt : Nat) (k : Packet) : Packet :=
  match k.body with
  | .time t => { k with body := .time (if t.response then { t with t3 := if t.locked then mt else 0 } else { t with t1 := mt }) }
  | _ => k

/-- Send a flit with the acknowledgement and one buffer's returned credit. -/
def State.sendFlit (s : State) (p ft seq : Nat) (slots : List (BitVec 128)) : State :=
  let x := s.port p
  let (b, crd) : Nat × Nat := match x.toReturn.head? with | some (b, n) => (b, min 63 n) | none => (0, 0)
  let h : FlitHdr := { ft := ft, seq := seq, ack := x.rxSeq, cvn := b / 4, cvc := b / 2 % 2, ccl := b % 2, crd := crd }
  (s.setPort p { x with toReturn := Tab.put 0 x.toReturn b (Tab.get 0 x.toReturn b - crd), flits := x.flits + 1 }).emit
    (.flit p (flitBits h slots))

/-- FLIT_PACK (R311, R314, R317): a NAK, a flit to send again, a new data flit, or an idle one. -/
def execFlitPack (p : Nat) (s : State) : Host.Outcome State Fault Refusal :=
  .next (if !s.portOn p || (s.port p).st < 4 then s
    else
      let x := s.port p
      if x.sendNak then (s.setPort p { x with sendNak := false }).sendFlit p 2 0 []
      else if x.st != 5 then s.sendFlit p 1 0 []
      else match x.resend with
      | q :: rest =>
        let pkts := match x.replayBuf.find? fun f => f.seq == q with | some f => f.pkts | none => []
        -- the exchange of a request that goes again yields no measurement (R325)
        let t1 := if pkts.any fun k => (match k.body with | .time t => !t.response | _ => false) then none else x.t1
        (((s.setPort p { x with resend := rest, replays := satAdd 0xFFFF x.replays 1, t1 := t1 }).event (153 + p) 3 1).sendFlit p 0 q
          (pkts.flatMap pktSlots)).replayed p q
      | [] =>
        let (pkts, y) := x.pack
        let s := if y.txq.isEmpty then s else s.event (153 + p) 5 1
        if pkts.isEmpty || 64 ≤ x.replayBuf.length then s.sendFlit p 1 0 []
        else
          let pkts := pkts.map (stampTime s.mtu.mt)
          let t1 := (pkts.findSome? fun k => match k.body with | .time t => if t.response then none else some t.t1 | _ => none).or y.t1
          let s := pkts.foldl (fun s k => s.tracePkt 2 p k) s
          ((s.setPort p { y with txSeq := (y.txSeq + 1) % 1024, replayBuf := y.replayBuf ++ [{ seq := y.txSeq, pkts := pkts }],
                                 t1 := t1 }).event (153 + p) 1 1).sendFlit p 0 y.txSeq (pkts.flatMap pktSlots))

/-! ### Delivery (R192, R324) -/

/-- The packet's type or code is not used (R126, R179, R350, Table 12.5). -/
def Packet.unusedCode (k : Packet) : Bool :=
  match k.body with
  | .coh g m => opcUnused g m.opc
  | .unused _ _ => true
  | _ => false

/-- Deliver a packet to this E9's own units. A packet from a node clears its unreachable mark. -/
def State.deliver (s : State) (k : Packet) : State :=
  let s : State := { s with rtr := { s.rtr with unreach := s.rtr.unreach.filter fun n => n != k.src } }
  if Machine.Packet.unusedCode k then s.rec_ 0x16 169 k.src 0 (bodyTyp k.body)
  else match k.body with
    | .tree t => if t.op == 0 || 7 < t.op then s else { s with rtr := { s.rtr with delivered := s.rtr.delivered ++ [k] } }
    | _ => { s with rtr := { s.rtr with delivered := s.rtr.delivered ++ [k] } }

/-- Held packets of a source, in OSEQ order from `x`. -/
def Rtr.heldOf (r : Rtr) (src x : Nat) : List Packet :=
  (List.range 64).filterMap fun d => (r.store.find? fun e => e.2.src == src && e.2.oseq == (x + d) % 256).map (·.2)

/-- Deliver the packets that are now in turn (R324). -/
def State.inTurn : Nat → Nat → State → State
  | 0, _, s => s
  | k + 1, src, s =>
    let x := Tab.get 0 s.rtr.oseqRx src
    match s.rtr.store.find? fun e => e.2.src == src && e.2.oseq == x with
    | none => s
    | some e =>
      let r : Rtr := { s.rtr with store := s.rtr.store.erase e, oseqRx := Tab.put 0 s.rtr.oseqRx src ((x + 1) % 256) }
      State.inTurn k src (({ s with rtr := r }).deliver e.2)

/-- Release every held packet of a source in OSEQ order, with `more` among them, and set its next OSEQ beyond the last (R324). -/
def State.releaseSrc (s : State) (src : Nat) (more : List Packet) : State :=
  let x := Tab.get 0 s.rtr.oseqRx src
  let all := s.rtr.store ++ more.map fun k => (s.clk, k)
  let ps := Rtr.heldOf { s.rtr with store := all } src x
  let nx := match ps.getLast? with | some k => (k.oseq + 1) % 256 | none => x
  let r : Rtr := { s.rtr with store := s.rtr.store.filter fun e => e.2.src != src, oseqRx := Tab.put 0 s.rtr.oseqRx src nx,
                              oseqGap := satAdd 0xFFFF s.rtr.oseqGap 1 }
  ps.foldl (fun s k => s.deliver k) ((({ s with rtr := r } : State)).rec_ 0xFF 169 src 0 nx)

/-- A VN0 packet for this node, by its OSEQ (R324). -/
def State.ordered (s : State) (k : Packet) : State :=
  let x := Tab.get 0 s.rtr.oseqRx k.src
  let d := (k.oseq + 256 - x) % 256
  if d == 0 then
    let s : State := { s with rtr := { s.rtr with oseqRx := Tab.put 0 s.rtr.oseqRx k.src ((x + 1) % 256) } }
    State.inTurn 64 k.src (s.deliver k)
  else if d ≤ 63 then
    if s.rtr.store.length < 64 then { s with rtr := { s.rtr with store := s.rtr.store ++ [(s.clk, k)] } }
    else
      -- the store is full: the source that has waited longest is released first
      match s.rtr.store with
      | [] => s
      | (_, o) :: _ =>
        if o.src == k.src then s.releaseSrc k.src [k]
        else
          let s := s.releaseSrc o.src []
          { s with rtr := { s.rtr with store := s.rtr.store ++ [(s.clk, k)] } }
  else
    -- the source has restarted its numbering
    let s := (s.releaseSrc k.src []).deliver k
    { s with rtr := { s.rtr with oseqRx := Tab.put 0 s.rtr.oseqRx k.src ((k.oseq + 1) % 256) } }

/-! ### Routing (R318–R323) -/

/-- A route entry's ports and VC actions (Table 12.6). -/
structure Route where
  v : Bool
  a : Nat
  va : Nat
  b : Nat
  vb : Nat
  adapt : Bool
  deriving DecidableEq, Repr

def State.route (s : State) (d : Nat) : Route :=
  let w := s.csrGet (offRt d)
  { v := fbit w 63 && !s.rtr.badRt.contains d, a := fld w 58 5, va := fld w 56 2, b := fld w 51 5, vb := fld w 49 2, adapt := fbit w 48 }

/-- A port can carry traffic. -/
def State.usable (s : State) (p : Nat) : Bool := p < s.part.fabricPorts && (s.port p).st == 5

/-- VC after a VC action. -/
def vcAfter (vc action : Nat) : Nat := if action == 1 then 0 else if action == 2 then 1 else vc

/-- The port and VC that a packet leaves by (R319); none without a way. -/
def State.choose (s : State) (r : Route) (k : Packet) : Option (Nat × Nat × Bool) :=
  let okA := r.v && s.usable r.a
  let okB := r.v && s.usable r.b
  let byA := (r.a, vcAfter k.vc r.va, false)
  let byB := (r.b, vcAfter k.vc r.vb, true)
  if okB && k.alt then some byB
  else if okA && okB && r.adapt && k.bulk && k.vn != 0
    && (s.port r.a).credit (bufKey k.vn (vcAfter k.vc r.va) k.bulk) < (s.port r.b).credit (bufKey k.vn (vcAfter k.vc r.vb) k.bulk) then some byB
  else if okA then some byA
  else if okB then some byB
  else none

/-- Discard a packet, recorded, and answer a VN0 packet with a route-fail notice (R322, R323). -/
def State.routeDiscard (s : State) (k : Packet) (hop : Bool) : State :=
  let r : Rtr := if hop then { s.rtr with hopDiscard := satAdd 0xFFFF s.rtr.hopDiscard 1 }
    else { s.rtr with routeFail := satAdd 0xFFFF s.rtr.routeFail 1 }
  let s := ({ s with rtr := r } : State).rec_ 0xFF 169 k.dst 0 (if hop then 1 else 2)
  let s := if hop then s.event 169 2 1 else s
  if k.vn == 0 then s.sendPkt k.src 2 false false (.routeFail (pktHeader k) ((bodySlots k.body).headD 0)) else s

/-- Destinations with packets held for a link that went down: later packets to them wait (R321). -/
def State.heldDsts (s : State) : List Nat :=
  (List.range s.part.fabricPorts).flatMap fun p =>
    let x := s.port p
    if x.downAt.isSome then (x.replayBuf.flatMap (·.pkts)).map (·.dst) else []

/-- ROUTE_PACKET (R318, R319, R322): the first packet that need not wait. `ue`: its route entry shows an uncorrectable error and
acts as V = 0 (Table 15.1) (DESIGN CHOICE, unsafe: notes/assumptions/21.md) (DEDUCED, safe: notes/assumptions/45.md) (DEDUCED, safe: notes/assumptions/75.md). -/
def execRoutePacket (ue : Bool) (s : State) : Host.Outcome State Fault Refusal :=
  .next (if !s.powered then s
    else
      let held := s.heldDsts
      match s.rtr.q.find? fun k => k.dst == s.nodeNo || !held.contains k.dst with
      | none => s
      | some k =>
        let s : State := { s with rtr := { s.rtr with q := s.rtr.q.erase k } }
        let s := if k.inp == 0 then s else s.creditBack (k.inp - 1) k
        let k : Packet := { k with inp := 0 }
        if k.dst == s.nodeNo then (if k.vn == 0 then s.ordered k else s.deliver k)
        else if !s.rtr.enabled then s
        else if 8 ≤ k.hops then s.routeDiscard k true
        else
          let s : State := if ue then { s with rtr := { s.rtr with badRt := if s.rtr.badRt.contains k.dst then s.rtr.badRt else s.rtr.badRt ++ [k.dst] } } else s
          match s.choose (s.route k.dst) k with
          | none => s.routeDiscard k false
          | some (p, vc, b) =>
            let s := if b then s.event 169 1 1 else s
            s.modPort p fun x => { x with txq := x.txq ++ [{ k with vc := vc, arr := k.vc }] })

/-- OSEQ_GAP_TIMEOUT (R324): a gap of 1 beat. -/
def execOseqGapTimeout (src : Nat) (s : State) : Host.Outcome State Fault Refusal :=
  .next (if s.powered && (match s.rtr.store.find? fun e => e.2.src == src with | some e => e.1 + 2048 ≤ s.clk | none => false)
    then s.releaseSrc src [] else s)

/-- A global access ends as one whose fabric deadline has passed (R323). -/
def State.globLost (s : State) (m : CohMsg) : State :=
  let n := sliceOf m.la
  match s.vbNamed m with
  | some v =>
    let s := ((s.vbFree n v.idx).wakeVb n).rec_ 0x12 n (laNode v.la) (64 * v.la) 0
    if v.refSeq != 0 then s.release n (laNode v.la) opGWR else s
  | none =>
    match s.mrNamed m with
    | some r => s.mrEnd n r.idx .dead
    | none => s.outEnd n m.tid m.la .dead

/-- ROUTE_FAIL_NOTICE (R323): `hdr` and `slot` are the discarded packet's first two slots. -/
def execRouteFailNotice (src : Nat) (hdr slot : BitVec 128) (s : State) : Host.Outcome State Fault Refusal :=
  .next (
    let s := s.consume src (.routeFail hdr slot)
    if !s.powered then s
    else
      let typ := bits hdr.toNat 82 4
      let dst := bits hdr.toNat 113 15
      if typ == 1 then (s.noFinds fun s => s.globLost (cohOfHeader slot)).markUnreach dst
      else if typ == 9 then
        let p := bits slot.toNat 16 8
        let seq := bits slot.toNat 32 32
        let s := match (s.por p).desc seq with
          | some d => if d.note == 2 && !d.ended && d.tnode == dst then s.noteFail p seq 4 else s
          | none => s
        s.markUnreach dst
      else s.rec_ 0xFF 169 dst 0 3)

/-! ### Link reports (R501) -/

/-- LINK_REPORT (R501). -/
def execLinkReport (src port peerPort : Nat) (rseq : Option Nat) (s : State) : Host.Outcome State Fault Refusal :=
  .next (
    let s := s.consume src (.linkReport port peerPort rseq)
    let x := s.port peerPort
    if s.portOn peerPort && x.peerNode == src && x.peerPort == port && x.st != 5 then s.settle peerPort rseq else s)

/-- LINK_REPORT_TIMEOUT (R501): within 1 beat neither a report nor a retraining came. -/
def execLinkReportTimeout (p : Nat) (s : State) : Host.Outcome State Fault Refusal :=
  .next (if !s.portOn p then s
    else
      let x := s.port p
      match x.downAt with
      | none => s
      | some t =>
        if s.clk < t + 2048 then s
        else (s.setPort p { x with replayBuf := [], resend := [], downAt := none }).rec_ 0xFF (153 + p) x.peerNode 0
          ((x.replayBuf.flatMap (·.pkts)).length))

/-! ### Time packets (R216, R217, R325) -/

/-- Put a time packet on the port's output. -/
def State.sendTime (s : State) (p : Nat) (t : TimeMsg) : State :=
  s.modPort p fun x => { x with txq := x.txq ++ [{ dst := x.peerNode, src := s.nodeNo, vn := 3, body := .time t }] }

/-- TIME_EXCHANGE (R216): a request every 16 beats on a link that is up. -/
def execTimeExchange (p : Nat) (s : State) : Host.Outcome State Fault Refusal :=
  .next (if !s.portOn p || !s.fabRefine || (s.port p).st != 5 then s
    else if (match (s.port p).exAt with | some t => decide (s.clk < t + 16 * beatClks) | none => false) then s
    else (s.modPort p fun x => { x with exAt := some s.clk, t1 := none }).sendTime p
      { response := false, stratum := s.mtu.stratum, locked := s.locked })

/-- A measurement from the neighbour that this E9 steers toward (R217, Table 8.1). -/
def State.measured (s : State) (ofs : Int) : State :=
  let small := decide (ofs.natAbs ≤ 8)
  let large := decide (12 < ofs.natAbs)
  let m : Mtu := { s.mtu with ofs := ofs, slew := ofs, goodOfs := if small then s.mtu.goodOfs + 1 else 0,
                              badOfs := if large then s.mtu.badOfs + 1 else 0 }
  let s : State := { s with mtu := m }
  if s.refined && m.lock == 3 && 4 ≤ m.badOfs then ({ s with mtu := { s.mtu with goodOfs := 0, badOfs := 0 } } : State).setLock 2
  else if s.refined then s.tryLock ((m.mt : Int) + ofs).toNat else s

/-- TIME_PACKET (R216, R325): a request is answered; a response is measured. One from a replayed flit is discarded. -/
def execTimePacket (p : Nat) (t : TimeMsg) (replayed : Bool) (s : State) : Host.Outcome State Fault Refusal :=
  .next (
    let s : State := { s with rtr := { s.rtr with delivered := s.rtr.delivered.eraseP fun k => decide (k.body = .time t ∧ k.vc = p) } }
    -- MT at the receive point
    let rx := match (s.port p).rxTime.find? fun e => e.1 == t with | some e => e.2 | none => s.mtu.mt
    let s := s.modPort p fun x => { x with rxTime := x.rxTime.eraseP fun e => e.1 == t }
    if !s.portOn p || replayed || (s.port p).st != 5 || !s.fabRefine then s
    else if !t.response then
      s.sendTime p { response := true, stratum := s.mtu.stratum, locked := s.locked, t1 := t.t1, t2 := if s.locked then rx else 0 }
    else if (s.port p).t1 != some t.t1 then s
    else if !t.locked then
      (s.modPort p fun x => { x with t1 := none, nbLocked := false, nbStratum := 255 }).restrata
    else
      let t4 : Int := rx
      let ofs : Int := (((t.t2 : Int) - t.t1) - (t4 - t.t3)) / 2
      let dly : Int := ((t4 - t.t1) - ((t.t3 : Int) - t.t2)) / 2
      let s := (s.modPort p fun x => { x with t1 := none, nbLocked := true, nbStratum := t.stratum,
                                              delay := min 255 dly.toNat }).restrata
      -- stamps of a neighbour of lower stratum have come (Table 8.1)
      let s : State := if t.stratum < s.mtu.stratum then { s with mtu := { s.mtu with stampBeat := s.beat } } else s
      if s.mtu.steer == some p then s.measured ofs else s)

end Sys2Proof.Machine
end

