-- ==== Sys2Proof/Machine/Member.lean ====
section
/-! DEFINITION. Heartbeats, membership, domain-fail notices, and the effects of the domain and fabric commands (R326–R335, R404). -/

namespace Sys2Proof.Machine

/-! ### Heartbeats (R326, R327) -/

/-- Node number of member `m` of the table's domain. -/
def State.memberNode (s : State) (m : Nat) : Nat := s.tableDomain * 128 + m

/-- One heartbeat, by route B in an odd beat (R326). -/
def State.sendHb (s : State) (m : Nat) : State :=
  s.sendPkt (s.memberNode m) 3 false (s.beat % 2 == 1) (.heartbeat s.tableDomain s.dom.st s.dom.digest)

/-- HEARTBEAT_SEND (R326): once in each beat. -/
def execHeartbeatSend (s : State) : Host.Outcome State Fault Refusal :=
  .next (if !s.live || s.dom.st != 2 || s.dom.hbBeat == some s.beat then s
    else s.others.foldl (fun s m => s.sendHb m) { s with dom := { s.dom with hbBeat := some s.beat } })

/-- The source is another member of the table, and names this E9's domain and digest. -/
def State.ownTable (s : State) (src domain : Nat) (digest : BitVec 32) : Bool :=
  s.peerNode src && src != s.nodeNo && domain == s.tableDomain && digest == s.dom.digest

/-- A packet of the membership kind that does not fit is discarded and recorded (R326, R334). -/
def State.memberBad (s : State) (src detail : Nat) : State := s.rec_ 0x16 169 src 0 detail

/-- The DOM_JOIN command that runs ends once the domain is UP, or DOWN (R330, R443). -/
def State.joinEnd (s : State) : State :=
  match s.cmdRunning (fun b => decide (b = .domJoin)) with
  | none => s
  | some r =>
    if s.dom.st == 2 then
      ({ s with dom := { s.dom with joining := false } } : State).cmdEnd r.id stOK (leBytes 16 0)
    else if s.dom.st == 3 then s.cmdEnd r.id stFailed []
    else s

/-- Every member has sent READY, and so has this E9: UP (R330 step 3). -/
def State.joinTry (s : State) : State :=
  if s.dom.st == 1 && s.dom.joining && s.dom.sentReady && s.others.all s.dom.gotReady.contains then s.domUp.joinEnd else s

/-- HEARTBEAT (R326, R329, R330): one from an UP member tells a joiner that has not sent READY that the domain runs. -/
def execHeartbeat (src domain state : Nat) (digest : BitVec 32) (s : State) : Host.Outcome State Fault Refusal :=
  .next (
    let s := s.consume src (.heartbeat domain state digest)
    if !s.live then s
    else if !s.ownTable src domain digest then s.memberBad src 4
    else
      let m := src % 128
      if s.dom.st == 2 || (s.dom.st == 1 && s.dom.sentReady) then
        let s := (s.domUp.sawUp m).joinEnd
        { s with dom := { s.dom with hb := Tab.put 0 s.dom.hb m s.clk } }
      else if s.dom.st == 1 && s.dom.joining then
        match s.cmdRunning (fun b => decide (b = .domJoin)) with
        | some r => ({ s with dom := { s.dom with joining := false } } : State).cmdEnd r.id stDomainActive []
        | none => s
      else s)

/-- MEMBER_DEAD (R327): no heartbeat from `m` for 4 beats. -/
def execMemberDead (m : Nat) (s : State) : Host.Outcome State Fault Refusal :=
  .next (if s.live && s.dom.st == 2 && s.isMember m && m != s.ownMember && 8192 ≤ s.clk - Tab.get 0 s.dom.hb m then
    s.enterDown { domain := s.tableDomain, digest := s.dom.digest, cause := 1, reporter := s.nodeNo, subject := s.memberNode m }
    else s)

/-! ### Membership (R329, R330) -/

def addOnce (l : List Nat) (m : Nat) : List Nat := if l.contains m then l else l ++ [m]

/-- Send a membership packet. -/
def State.sendMember (s : State) (m phase : Nat) : State :=
  s.sendPkt (s.memberNode m) 3 false false (.member phase s.tableDomain s.dom.digest)

/-- JOIN (R330 steps 2 and 4). -/
def execJoin (src domain : Nat) (digest : BitVec 32) (s : State) : Host.Outcome State Fault Refusal :=
  .next (
    let s := s.consume src (.member 1 domain digest)
    if !s.live then s
    else if !s.ownTable src domain digest then s.memberBad src 5
    else
      let m := src % 128
      if s.dom.st == 1 then { s with dom := { s.dom with gotJoin := addOnce s.dom.gotJoin m } }
      else if s.dom.st == 2 then (if s.dom.readyAfter then s.sendMember m 2 else s.sendHb m)
      else s)

/-- READY (R330 steps 2 and 3). -/
def execReady (src domain : Nat) (digest : BitVec 32) (s : State) : Host.Outcome State Fault Refusal :=
  .next (
    let s := s.consume src (.member 2 domain digest)
    if !s.live then s
    else if !s.ownTable src domain digest then s.memberBad src 5
    else if s.dom.st == 1 then
      ({ s with dom := { s.dom with gotReady := addOnce s.dom.gotReady (src % 128) } } : State).joinTry
    else s)

/-- MEMBERSHIP_BEAT (R330 steps 1 to 3): once in each beat. -/
def execMembershipBeat (s : State) : Host.Outcome State Fault Refusal :=
  .next (if !s.live || s.dom.memBeat == some s.beat then s
    else if s.dom.st == 1 && s.dom.joining then
      let s : State := { s with dom := { s.dom with memBeat := some s.beat } }
      if s.others.all fun m => s.dom.gotJoin.contains m || s.dom.gotReady.contains m then
        (s.others.foldl (fun (s : State) m => s.sendMember m 2) { s with dom := { s.dom with sentReady := true } }).joinTry
      else s.others.foldl (fun s m => s.sendMember m 1) s
    else if s.dom.st == 2 && s.dom.readyAfter then
      s.others.foldl (fun s m => s.sendMember m 2) { s with dom := { s.dom with memBeat := some s.beat } }
    else s)

/-- DOM_JOIN_TIMEOUT (R330 step 5). -/
def execDomJoinTimeout (s : State) : Host.Outcome State Fault Refusal :=
  .next (match s.cmdRunning (fun b => decide (b = .domJoin)) with
    | none => s
    | some r =>
      if s.live && s.dom.st == 1 && s.dom.joining && s.dom.joinBeat + 16384 ≤ s.beat then
        let miss := (s.others.filter fun m => !s.dom.gotReady.contains m).foldl (fun v m => v + 2 ^ m) 0
        ({ s with dom := { s.dom with joining := false } } : State).cmdEnd r.id stTimeout (leBytes 16 miss)
      else s)

/-! ### Domain-fail notices (R404) -/

/-- DOMAIN_FAIL_NOTICE (R404). -/
def execDomainFailNotice (src : Nat) (f : FailNotice) (s : State) : Host.Outcome State Fault Refusal :=
  .next (
    let s := s.consume src (.fail f)
    if s.live && (s.dom.st == 1 || s.dom.st == 2) && f.domain == s.tableDomain && f.digest == s.dom.digest then s.enterDown f else s)

/-- DOMAIN_FAIL_NOTICE_RESEND (R404): once in each of the four beats that follow the first sending. -/
def execDomainFailNoticeResend (s : State) : Host.Outcome State Fault Refusal :=
  .next (match s.dom.notice with
    | none => s
    | some (k, n) =>
      if !s.live || s.dom.noticeBeat == some s.beat then s
      else
        let s : State := { s with dom := { s.dom with notice := if k ≤ 1 then none else some (k - 1, n), noticeBeat := some s.beat } }
        s.sendNotice n)

/-! ### The domain and fabric commands (Table 12.9) -/

/-- The conditions of DOM_SET beyond the common checks: a domain that is UP (R329), and a table without a member (R14) (DEDUCED, unsafe: notes/assumptions/52.md). -/
def State.domSetCheck (s : State) (presence : BitVec 128) : Nat :=
  if presence == 0 then stBadParam else if s.dom.st == 2 then stDomainActive else stOK

/-- DOM_SET (R329, R331): the table, its digest, FORMING unless DOWN. The command ends at the next clock. -/
def State.domSetGo (s : State) (domain : BitVec 8) (presence : BitVec 128) : State :=
  let digest := domDigest domain.toNat presence.toNat
  let d : Dom := { s.dom with table := Tmr.of (BitVec.ofNat 136 (presence.toNat + domain.toNat * 2 ^ 128)), digest := digest,
                              st := if s.dom.st == 3 then 3 else 1, gotJoin := [], gotReady := [], sentReady := false, joining := false }
  { s with dom := d }

/-- DOM_JOIN is refused while the domain is UNSET, or DOWN. -/
def State.domJoinCheck (s : State) : Nat := if s.dom.st == 0 || s.dom.st == 3 then stRefused else stOK

/-- DOM_JOIN (R330). -/
def State.domJoinGo (s : State) (id : Nat) : State :=
  if s.dom.st == 2 then s.cmdEnd id stOK (leBytes 16 0)
  else if s.others.isEmpty then s.domUp.joinEnd
  else { s with dom := { s.dom with joining := true, joinBeat := s.beat, memBeat := none } }

/-- FAB_PORT (R335, R314): 0 disable, 1 enable, 2 retrain. -/
def State.fabPortCheck (s : State) (port action : BitVec 8) : Nat :=
  if s.part.fabricPorts ≤ port.toNat then stInvalidInstance else if 2 < action.toNat then stBadParam else stOK
def State.fabPortGo (s : State) (id : Nat) (port action : BitVec 8) : State :=
  let p := port.toNat
  let s := if action == 0 then s.portEnable p false else if action == 1 then s.portEnable p true else s.portRetrain p
  s.cmdEnd id stOK (leBytes 4 (s.port p).st)

/-- FAB_CLR_UNREACH (R335). -/
def fabClrCheck (node : BitVec 16) : Nat := if node == 0xFFFF || node.toNat ≤ 0x7FFF then stOK else stBadParam
def State.fabClrGo (s : State) (id : Nat) (node : BitVec 16) : State :=
  let keep := if node == 0xFFFF then [] else s.rtr.unreach.filter (· != node.toNat)
  let n := s.rtr.unreach.length - keep.length
  ({ s with rtr := { s.rtr with unreach := keep } } : State).cmdEnd id stOK (leBytes 4 n)

/-- TIME_SET (R215): a multiple of 2^24, loaded at the next mark acted on. -/
def timeSetCheck (m : Word) : Nat := if m.toNat % 2 ^ 24 == 0 then stOK else stBadParam
def State.timeSetGo (s : State) (id : Nat) (m : Word) : State :=
  ({ s with mtu := { s.mtu with pendingSet := some m.toNat } } : State).cmdEnd id stOK []

/-- REASSEMBLY_TIMEOUT (R333): a buffer incomplete for 1,024 beats is freed, and its command counts as dropped. -/
def execReassemblyTimeout (buf : Nat) (s : State) : Host.Outcome State Fault Refusal :=
  .next (match s.rtr.bufs[buf]? with
    | some b =>
      if s.live && b.beat + 1024 ≤ s.beat then
        { s with rtr := { s.rtr with bufs := s.rtr.bufs.eraseIdx buf, mgtRefused := satAdd 0xFFFF s.rtr.mgtRefused 1 } }
      else s
    | none => s)

end Sys2Proof.Machine
end

