-- ==== Sys2Proof/Machine/Chan.lean ====
section
/-! DEFINITION. Near and far memory channels: the pick, refresh windows, row disturbance, lull segments, self-refresh, freeze and
scrub (chapter 10, R390, R393, R395, R397). -/

namespace Sys2Proof.Machine

/-! ### One channel -/

/-- Channel `c` is present: NMC[c] below 64, FMC[c - 64] above (R252, R253, R2). -/
def State.chanPresent (s : State) (c : Nat) : Bool := c < s.part.nmcs || (64 ≤ c && c < 72)
/-- The channels that are present, near or far. -/
def State.chansOf (s : State) (far : Bool) : List Nat := if far then (List.range 8).map (· + 64) else List.range s.part.nmcs
/-- Banks of a command unit (Table 10.1). -/
def State.chanBanks (s : State) (c : Nat) : Nat := if c < 64 then 48 else 32 * 2 ^ s.mem.kbits
/-- The channel can issue commands. -/
def State.chanRuns (s : State) (c : Nat) : Bool :=
  let ch := s.chan c
  s.powered && s.chanPresent c && ch.ready && !ch.frozen && !ch.training && !ch.bist
/-- It serves accesses: neither in self-refresh nor in a lull segment (R232, R272). -/
def State.chanServes (s : State) (c : Nat) : Bool := s.chanRuns c && !(s.chan c).sr && (s.chan c).lull.cur.isNone

/-! ### Row disturbance (R265–R267) -/

/-- RD_THRESH in force: a write applies from the next refresh window (R278). -/
def Chan.thresh (ch : Chan) (c : Nat) : Nat := if ch.th == 0 then (if c < 64 then 1024 else 2048) else ch.th

/-- A bank's activate-count table; at reset its entries are empty with half the threshold, and empty with 0 after the first lull. -/
def Chan.table (ch : Chan) (c : Nat) (b : BankSt) : List ActEnt :=
  if b.tbl.isEmpty then List.replicate 32 { cnt := if ch.fresh then (if c < 64 then 512 else 1024) else 0 } else b.tbl

/-- The first place of the least value of `f`. -/
def argMin (f : ActEnt → Nat) (t : List ActEnt) : Nat :=
  let m := t.foldl (fun a e => min a (f e)) (2 ^ 64)
  (t.findIdx? fun e => f e == m).getD 0

/-- Count an activate of `row` (R265). -/
def actCount (t : List ActEnt) (th row : Nat) : List ActEnt :=
  let i := match t.findIdx? fun e => e.row == some row with
    | some i => i
    | none => argMin (·.cnt) t
  let e := (t[i]?).getD {}
  t.set i { row := some row, cnt := e.cnt + 1, pend := e.pend || th ≤ e.cnt + 1 }

/-- The pending entry with the highest count, lowest-numbered on a tie. -/
def pendPick (t : List ActEnt) : Option Nat :=
  let m := t.foldl (fun a e => if e.pend then max a (e.cnt + 1) else a) 0
  if m == 0 then none else t.findIdx? fun e => e.pend && e.cnt + 1 == m

/-- Bank `b` of unit `u` is refreshed in a window: precharged, refreshed, and at most one neighbour action, which on a far bank is
one RFMsb that also serves the rolling count (R262, R265). -/
def State.refreshBank (s : State) (c u b : Nat) : State :=
  let ch := s.chan c
  let x := s.cunit c u
  let bk := x.bank b
  let t := ch.table c bk
  let act := if s.rdEn c then pendPick t else none
  let rfm := 64 ≤ c && (act.isSome || Config.raaimt ≤ bk.raa)
  let raa := bk.raa - Config.raaRefresh - (if rfm then Config.raaDecrement else 0)
  let t' := match act with
    | some i => t.set i { ((t[i]?).getD {}) with cnt := 0, pend := false }
    | none => bk.tbl
  let x := x.setBank b { bk with row := 0, hits := 0, acts := 0, raa := if c < 64 then bk.raa else raa, tbl := t' }
  let s := s.setCunit c u { x with win := x.win.erase b }
  match act with
  | some _ => (s.setChan c { s.chan c with nbr := satAdd 0xFFFF (s.chan c).nbr 1 }).event (64 + c) 6 1
  | none => s

/-- Open a refresh window: every bank of both units takes part (R262). -/
def State.openWindow (s : State) (c : Nat) : State :=
  let ch := s.chan c
  let all := List.range (s.chanBanks c)
  (s.setChan c { ch with u0 := { ch.u0 with win := all }, u1 := { ch.u1 with win := all }, th := s.rdThresh c,
                         nextRefresh := s.clk + 8192 }).event (64 + c) 5 1

/-! ### Far accesses as their channel performs them -/

/-- The page of an uncorrectable line can be decoded: an enabled, initialised region, and e + 2s ≤ 2T, with 32 erasures for each of its lines
that reads as uncorrectable and the symbols in error elsewhere (R394–R396). A page that its parity slot does not agree with is taken as
beyond the code (DEDUCED, unsafe: notes/assumptions/57.md). -/
def State.pageDecodes (s : State) (lo : Nat) : Option Bool :=
  match s.pgcRegion lo with
  | some r =>
    let flipped := (s.ras.latent.filter fun e => e.target == 2 && e.addr / 4096 == pageOf lo && e.addr != 64 * lo && e.err == some ArrErr.ue).length
    if Tab.get false s.ras.pgcInit r then none
    else some (decide (32 * (1 + flipped + s.finds.pgc.1) + 2 * s.finds.pgc.2 ≤ 2 * s.pgcT r) && s.pgcHolds r (pageOf lo))
  | none => none

/-- Read a far line with what its code finds: the value, poison where it cannot be corrected, and the state with its counts and
records (R386, R389, R395, R398). -/
def State.farFetch (s : State) (lo : Nat) (e : ArrErr) : (Line × Bool) × State :=
  let k := farCh lo
  if s.readsZero lo then ((0, false), s)
  else
    let v := s.farValue lo
    -- poison has been recorded where it arose; stored contents that do not decode are met here (R413)
    if v.2 then (v, if s.farKnown lo then s else s.ueData (128 + k) false (64 * lo) 0)
    else match s.met 2 k (64 * lo) e with
      | .none => (v, s)
      | .ce => (v, s.bucket (128 + k))
      | .ue =>
        let inj := s.injected 2 k (64 * lo)
        match s.pageDecodes lo with
        -- the corrected line is rewritten
        | some true => (v, (s.recErr 0x0B (128 + k) inj (64 * lo) 0).flipMend 2 k (64 * lo))
        | some false => ((Config.poisonLine, true), s.recErr 0x0C (128 + k) inj (64 * lo) 0)
        | none => ((Config.poisonLine, true), s.ueData (128 + k) (s.injected 2 k (64 * lo)) (64 * lo) 0)

/-- Answer a far read. -/
def State.farAnswer (s : State) (tok : Nat) (v : Line × Bool) : State :=
  { s with mem := { s.mem with reads := s.mem.reads.map fun r => if r.tok == tok then { r with got := some v } else r } }

/-- Write a partial word: read, correct, merge, write (R390). A poisoned word stays poisoned (R389). -/
def State.farMerge (s : State) (lo : Nat) (d : Line) (poison : Bool) (be : BitVec 64) (e : ArrErr) : State :=
  let (v, s) := s.farFetch lo e
  let s := s.event (128 + farCh lo) 9 1
  (s.firstWrite lo).farStore lo (mergeBytes v.1 d be) (v.2 || poison)

/-- The column command of one queued access. -/
def State.column (s : State) (c u : Nat) (r : ChReq) (e : ArrErr) : State :=
  let x := s.cunit c u
  let bk := x.bank r.bank
  let other := x.q.any fun q => q.bank == r.bank && q.row != r.row
  let bk := { bk with lastCol := s.clk, hits := if other then bk.hits + 1 else 0, ord := bk.ord.filter (· != r.seq) }
  let x := { (x.setBank r.bank bk) with q := x.q.filter fun q => q.seq != r.seq, lastRd := !r.wr }
  let s := ((s.setCunit c u x).setChan c { (s.setCunit c u x).chan c with idleBeat := s.beat }).event (64 + c) (if r.wr then 3 else 2) 1
  let s := s.chanRefill c u
  if c < 64 then s
  else match r.data, r.be with
    | some (d, p), none => (s.firstWrite r.addr).farStore r.addr d p
    | some (d, p), some be => s.farMerge r.addr d p be e
    | none, _ =>
      match r.tok with
      | some t =>
        let (v, s) := s.farFetch r.addr e
        s.farAnswer t v
      -- a scrub read, whose word has been judged
      | none => s

/-! ### The pick (R258–R261) -/

/-- The access may issue a column command now: its row is open, its bank is neither at the hit cap (R259) nor in in-order mode
with an earlier access (R261), and a first write has its zeroing tracker (R393). -/
def State.columnReady (s : State) (c u : Nat) (r : ChReq) : Bool :=
  let x := s.cunit c u
  let bk := x.bank r.bank
  let capped := 4 ≤ bk.hits && x.q.any fun q => q.bank == r.bank && q.row != r.row
  let first := match x.q.find? fun q => q.bank == r.bank with | some h => h.seq == r.seq | none => true
  bk.row == r.row + 1 && !capped && (bk.ord.isEmpty || first)
    && (!r.wr || c < 64 || !s.zmapOn || Tab.get false s.mem.zmap (pageOf r.addr) || s.zeroTrackerFree r.addr)

/-- The oldest ready access: reads before writes, or the two in turn while the unit drains. -/
def State.pickColumn (s : State) (c u : Nat) : Option ChReq :=
  let x := s.cunit c u
  let rd := x.q.find? fun r => !r.wr && s.columnReady c u r
  let wr := x.q.find? fun r => r.wr && s.columnReady c u r
  if x.drain && x.lastRd then wr.or rd else rd.or wr

/-- The bank whose head needs an activate that is ready, in rotation after the last. -/
def State.pickActivate (s : State) (c u : Nat) : Option ChReq :=
  let x := s.cunit c u
  let n := s.chanBanks c
  (List.range n).findSome? fun i =>
    let b := (x.lastAct + i + 1) % n
    let bk := x.bank b
    if bk.row == 0 && bk.acts < 88 then x.q.find? fun r => r.bank == b else none

def State.activate (s : State) (c u : Nat) (r : ChReq) : State :=
  let ch := s.chan c
  let x := s.cunit c u
  let bk := x.bank r.bank
  let bk := { bk with row := r.row + 1, hits := 0, lastCol := s.clk, acts := bk.acts + 1, raa := bk.raa + 1,
                      tbl := actCount (ch.table c bk) (ch.thresh c) r.row }
  (s.setCunit c u { (x.setBank r.bank bk) with lastAct := r.bank }).event (64 + c) 1 1

/-- A bank's open-row timer has run out (R260). -/
def State.idleOut (s : State) (c u b : Nat) : Bool :=
  let bk := (s.cunit c u).bank b
  bk.row != 0 && s.idleTimer c * 8 ≤ s.clk - bk.lastCol

/-- Precharge a bank. -/
def State.precharge (s : State) (c u b : Nat) : State :=
  let x := s.cunit c u
  s.setCunit c u (x.setBank b { x.bank b with row := 0, hits := 0 })

/-- The bank to precharge: one whose head needs another row, or that is at the hit cap; then one whose timer has run out. -/
def State.pickPrecharge (s : State) (c u : Nat) : Option (Nat × Bool) :=
  let x := s.cunit c u
  let need := (List.range (s.chanBanks c)).find? fun b =>
    let bk := x.bank b
    bk.row != 0 && ((match x.q.find? fun r => r.bank == b with | some h => bk.row != h.row + 1 | none => false)
      || (4 ≤ bk.hits && x.q.any fun r => r.bank == b && bk.row != r.row + 1))
  match need with
  | some b => some (b, false)
  | none => ((List.range (s.chanBanks c)).find? fun b => s.idleOut c u b).map fun b => (b, true)

/-- An idle slot serves one line that a tracker owes and whose bank has no queued access: it is zeroed once its row is open, which takes
a precharge and an activate like any other access (R265, R393). -/
def State.zeroOne (s : State) (c u : Nat) : State :=
  let x := s.cunit c u
  let lines := s.mem.ztrk.flatMap fun z =>
    ((List.range 64).filter fun i => z.mask.getLsbD i).map fun i => z.page * 64 + i
  let may (lo : Nat) : Bool :=
    let bk := x.bank (s.farBank lo)
    64 + farCh lo == c && farSub lo == u && !(x.q.any fun r => r.bank == s.farBank lo) && (bk.row != 0 || bk.acts < 88)
  match lines.find? may with
  | none => s
  | some lo =>
    let r : ChReq := { seq := 0, bank := s.farBank lo, row := farRow s.mem.rbits lo, wr := true, addr := lo }
    let bk := x.bank r.bank
    if bk.row == r.row + 1 then
      (((s.setCunit c u (x.setBank r.bank { bk with lastCol := s.clk })).farStore lo 0 false).event (64 + c) 3 1)
    else if bk.row != 0 then s.precharge c u r.bank
    else s.activate c u r

/-- Far write-backs that waited for room at the command units of a far channel go (Table 3.5, R257). -/
def State.vbPump (s : State) (c : Nat) : State :=
  if c < 64 then s
  else (List.range 64).foldl (fun s n =>
    let vs := (s.slice n).vbs.filter fun v => v.action == 0 && !v.sent && 64 + farCh (laLocal v.la) == c
    if vs.isEmpty then s else (vs.foldl (fun s v => s.vbGo n v.idx) s).wakeVb n) s

/-- COMMAND_SLOT_PICK (R258): one command slot of unit `u`; `e` is what the code finds if it reads far memory. -/
def execCommandSlotPick (c u : Nat) (e : ArrErr) (fd : Finds) (s : State) : Host.Outcome State Fault Refusal :=
  .next (s.finding fd fun s => (if !(s.chanServes c && u < 2) then s
    else match (s.cunit c u).win with
    | b :: _ => s.refreshBank c u b
    | [] =>
      let x := s.cunit c u
      let s := s.setCunit c u { x with drain := 48 ≤ x.writes || (x.drain && 32 < x.writes) }
      match s.pickColumn c u with
      | some r => (s.column c u r e).vbPump c
      | none => match s.pickActivate c u with
        | some r => s.activate c u r
        | none => match s.pickPrecharge c u with
          | some (b, timer) => if timer then (s.precharge c u b).event (64 + c) 4 1 else s.precharge c u b
          | none => if c < 64 then s else s.zeroOne c u))

/-- ROW_IDLE_TIMEOUT (R260). -/
def execRowIdleTimeout (c u bank : Nat) (s : State) : Host.Outcome State Fault Refusal :=
  .next (if s.chanServes c && u < 2 && s.idleOut c u bank then (s.precharge c u bank).event (64 + c) 4 1 else s)

/-- What a house word belongs to that a merge has written poisoned: a directory entry (R121), a zero-map line (R403), link words, each of
which its queue or the free list loses (R377). -/
def State.houseLost (s : State) (c addr : Nat) : State :=
  let (_, set) := s.rowSet c (addr / 16)
  match s.housePart (s.houseIndex set (addr % 16)) with
  | .zmap o => s.zmapLost (o / 64)
  | .dir o => s.fatal (136 + o / 32 / 16 / (s.dirGib * 2 ^ 17)) 0
  | .links o => s.linkErrs ((List.range 16).map fun i => o / 4 + i)
  | _ => s
/-- The house words whose merges have met an uncorrectable error (R390). -/
def State.houseSettle (s : State) : State :=
  s.mem.houseUe.foldl (fun s e => s.houseLost e.1 e.2) { s with mem := { s.mem with houseUe := [] } }

/-- MERGE_BUFFER_TIMEOUT (R390): 64 ns after its first write the entry leaves to be written by read-modify-write; a far one joins its
bank's list (R257). -/
def execMergeBufferTimeout (c u addr : Nat) (e : ArrErr) (fd : Finds) (s : State) : Host.Outcome State Fault Refusal :=
  .next (s.finding fd fun s => (match (s.cunit c u).merge.find? fun m => m.addr == addr with
    | none => s
    | some m =>
      if !(s.chanServes c && 128 ≤ s.clk - m.t0) then s
      else if c < 64 then (({ s with finds := { s.finds with way := e :: s.finds.way } } : State).houseOut c u m).houseSettle
      else s.mergeFlush c u m))

/-! ### Refresh (R262–R264, R271) -/

/-- A firing of a second refresh entry in one beat is part of the same window (DESIGN CHOICE, unsafe: notes/assumptions/34.md). -/
def State.refreshFired (s : State) : Bool :=
  s.mtu.firedBeat == s.beat && 2 ≤ (s.mtu.fired.filter fun i => schClass (s.sch i) == 2).length

/-- Requests in progress meet one more window (Table 9.7): the first is counted in the bound. -/
def State.meetWindow (s : State) : State :=
  if s.refreshFired then s
  else { s with hreqs := s.hreqs.map fun h => { h with fires := h.fires + 1, add := if 1 ≤ h.fires then h.add + 260 else h.add } }

/-- REFRESH_CADENCE_PHASE (R262, R271). -/
def execRefreshCadencePhase (entry : Nat) (s : State) : Host.Outcome State Fault Refusal :=
  .next (match s.fire entry 2 with
    | none => s
    | some s =>
      let cs := (s.chansOf (schArg (s.sch entry) % 2 == 1)).filter fun c => s.chanRuns c && !(s.chan c).sr
      -- the channel's rotation is aligned again (R235)
      let s := cs.foldl (fun s c => s.setChan c { s.chan c with free := false }) s
      -- inside such a lull the catch-up of segment 1 takes the firing's place (R226)
      if (s.mtu.inLull || s.lullDue) && s.mtu.lullArg.getLsbD 1 then s
      else cs.foldl (fun s c => s.openWindow c) s.meetWindow)

/-- FREE_RUNNING_REFRESH (R264); after lock it goes on until the first refresh-phase firing (R235). -/
def execFreeRunningRefresh (c : Nat) (s : State) : Host.Outcome State Fault Refusal :=
  .next (if s.chanRuns c && !(s.chan c).sr && (!s.locked || (s.chan c).free) && (s.chan c).nextRefresh ≤ s.clk then s.openWindow c else s)

/-! ### Freeze (R274, R275) -/

/-- Every access of a unit, those that wait outside included. -/
def CUnit.all (x : CUnit) : List ChReq := x.q ++ x.hold

/-- Take accesses out of a unit; a bank they kept in in-order mode returns to the pick (R261). -/
def CUnit.without (x : CUnit) (p : ChReq → Bool) : CUnit :=
  let gone := (x.q.filter p).map (·.seq)
  { x with q := x.q.filter fun r => !p r, hold := x.hold.filter fun r => !p r,
           banks := x.banks.map fun (b, k) => (b, { k with ord := k.ord.filter fun i => !gone.contains i }) }

def Chan.queued (ch : Chan) (wr : Bool) : Nat := ((ch.u0.q ++ ch.u1.q).filter fun r => r.wr == wr).length

/-- The queued accesses of a frozen far channel are answered: reads poison, writes discarded, each recorded (R274 step 3). -/
def State.answerFrozen (s : State) (c : Nat) : State :=
  let ch := s.chan c
  let s := (ch.u0.all ++ ch.u1.all).foldl (fun s r =>
    let s := match r.tok with
      | some k =>
        let s := match s.mem.reads.find? fun (q : MemRd) => q.tok == k with
          | some q => (match s.trk q.n q.htid with | some t => s.voidTrk q.n t | none => s)
          | none => s
        s.farAnswer k (Config.poisonLine, true)
      | none => s
    if !r.wr && r.tok.isNone then s else s.rec_ 0x10 (64 + c) 0xFFFF (64 * r.addr) (if r.wr then 0 else 1)) s
  let s := (ch.u0.merge ++ ch.u1.merge).foldl (fun s m => s.rec_ 0x10 (64 + c) 0xFFFF (64 * m.addr) 0) s
  (s.setChan c { s.chan c with u0 := { ch.u0 with merge := [], hold := [] }, u1 := { ch.u1 with merge := [], hold := [] } }).vbPump c

/-- Freeze a channel. A near freeze is a fatal internal error (R275). -/
def State.freeze (s : State) (c cause : Nat) (f : FrzCmd) : State :=
  let ch := s.chan c
  let s := s.setChan c { ch with frozen := true, cause := cause, frzMt := s.mtu.mt % 2 ^ 32, frzRd := ch.queued false,
                                 frzWr := ch.queued true, frzCmd := if cause == 1 then f else {}, lull := { ch.lull with cur := none }, scrubQ := [],
                                 u0 := { ch.u0 with win := [] }, u1 := { ch.u1 with win := [] } }
  let s := s.recPut { mt := s.mtu.mt, typ := 0x0D, sev := if c < 64 then 4 else 3, unlocked := !s.locked, u := 64 + c, detail := cause }
  if c < 64 then s.fatal (64 + c) cause else s.answerFrozen c

/-- CHANNEL_FREEZE (R274): cause 1, command-address parity, or 2, a queue error. On a frozen channel a parity error of its refresh
stops the refresh. -/
def execChannelFreeze (c cause : Nat) (f : FrzCmd) (s : State) : Host.Outcome State Fault Refusal :=
  .next (
    let ch := s.chan c
    if !(s.powered && s.chanPresent c && (cause == 1 || cause == 2)) then s
    else if !ch.frozen then s.noFinds fun s => s.freeze c cause f
    else if cause == 1 && (f.cmd == 5 || f.cmd == 6) && !ch.refreshLost then
      (s.setChan c { ch with refreshLost := true }).rec_ 0xFF (64 + c) 0xFFFF 0 0
    else s)

/-! ### Lull work (R162, R232, R270, R271) -/

/-- The set of a near slice's or flat request lies at the channel, or its far line decodes to it. -/
def State.reqAtChan (s : State) (c : Nat) (h : HostReq) : Bool :=
  let n := s.sliceFor h
  if c < 64 then nmcOf s.part n == c
  else h.win != .flat && s.classOf h.la == .loc && 64 + farCh (laLocal h.la) == c
def State.lineAtChan (s : State) (c la : Nat) : Bool :=
  if c < 64 then nmcOf s.part (sliceOf la) == c else 64 + farCh (laLocal la) == c

/-- The request carries a bound (R162, Table 9.8): no global access does. -/
def State.bounded (s : State) (h : HostReq) : Bool :=
  !h.voided && h.cls < 3 && !(h.win == .glob && (laNode h.la != s.nodeNo || (match h.ph with | .translate _ => true | _ => false)))

/-- Everything that the channel waits for at lull start has completed (R162). -/
def State.lullReady (s : State) (c : Nat) : Bool :=
  let ch := s.chan c
  !((ch.u0.all ++ ch.u1.all).any (·.pre))
    && !(s.hreqs.any fun h => h.preLull && s.bounded h && s.reqAtChan c h)
    && !(s.mtu.lullTrks.any fun (n, htid, seq) =>
      match s.trk n htid with
      | some t => t.seq == seq && s.lineAtChan c t.la
      | none => false)

/-- Directory banks whose slices' set rows an NMC holds. -/
def State.banksOf (s : State) (c : Nat) : List Nat := match s.part with | .f144 => [c / 4] | .s72 => [c / 4, c / 4 + 8]

/-- Worst-case duration of a segment of kind `k` (Table 10.4). -/
def segTime (c k : Nat) : Nat :=
  if k == 1 then (if c < 64 then 900 else 1000) else if k == 2 then (if c < 64 then 1600 else 2300) else 4096

/-- A segment of kind `k` is due. -/
def State.segDue (s : State) (c k : Nat) : Bool :=
  let a := s.mtu.lullArg
  if k == 1 then true
  else if k == 2 then a.getLsbD 0 && s.retrainEn c
  else if k == 3 then a.getLsbD 2 && 64 ≤ c && (List.range 8).any s.pgcEn
  else k == 4 && a.getLsbD 3 && c < 64 && (s.banksOf c).any fun b => !(s.bank b).sweepDue.isEmpty

/-- Choose the next segment from kind `k` on; one of kind 1 or 2 that does not fit is deferred and counted (R232). A scrub segment that does
not fit is not counted (R270); nor is a pending sweep step, which stays pending (DESIGN CHOICE, unsafe: notes/assumptions/124.md). -/
def State.segChoose (s : State) (c : Nat) : Nat → Nat → State
  | 0, _ => s
  | fuel + 1, k =>
    let ch := s.chan c
    let fin := (s.mtu.lullBeat + s.mtu.lullWidth) * 1024
    if 5 ≤ k then s.setChan c { ch with lull := { ch.lull with next := 5 } }
    else if !s.segDue c k then s.segChoose c fuel (k + 1)
    else if s.mtu.mt + segTime c k ≤ fin then
      s.setChan c { ch with lull := { ch.lull with next := k, cur := some k } }
    else if k ≤ 2 then
      ({ s with mtu := { s.mtu with deferred := satAdd 0xFFFF s.mtu.deferred 1 } } : State).segChoose c fuel (k + 1)
    else s.segChoose c fuel (k + 1)

/-- LULL_SEGMENT_START (R232, R270): no segment starts after a loss of lock (Table 8.8). -/
def execLullSegmentStart (c : Nat) (s : State) : Host.Outcome State Fault Refusal :=
  .next (
    let ch := s.chan c
    if !(s.chanServes c && s.mtu.inLull && s.locked && ch.lull.next < 5) then s
    else if !(if ch.lull.started then !((ch.u0.all ++ ch.u1.all).any (·.pre)) else s.lullReady c) then s
    else (s.setChan c { ch with lull := { ch.lull with started := true } }).segChoose c 5 ch.lull.next)

/-- Segments 1 and 2 of the lull that a channel has not begun: deferred to the next lull (R232); a channel that is frozen or in self-refresh
performs none (R270). -/
def State.segsLeft (s : State) (c : Nat) : Nat :=
  let ch := s.chan c
  if !s.chanRuns c || ch.sr then 0
  else ([1, 2].filter fun k => ch.lull.next ≤ k && ch.lull.cur != some k && s.segDue c k).length

/-- LULL_END (R232, R234). -/
def execLullEnd (s : State) : Host.Outcome State Fault Refusal :=
  .next (if s.powered && s.mtu.inLull && s.mtu.lullBeat + s.mtu.lullWidth ≤ s.beat then
    let left := ((s.chansOf false ++ s.chansOf true).map s.segsLeft).foldl (· + ·) 0
    { s with mtu := { s.mtu with inLull := false, lullTrks := [], deferred := satAdd 0xFFFF s.mtu.deferred left } } else s)

/-- Every pending neighbour action of a unit; at the first lull after reset, one for every named row, and every count 0 (R267,
R271): the unit, and the number of actions. -/
def CUnit.flushRows (x : CUnit) (far fresh en : Bool) (owed : Nat) : CUnit × Nat :=
  let hit (e : ActEnt) : Bool := en && (if fresh then e.row.isSome else e.pend)
  let n := x.banks.foldl (fun a (_, bk) => a + (bk.tbl.filter hit).length) 0
  let banks := x.banks.foldl (fun t (b, bk) =>
    let k := (bk.tbl.filter hit).length
    let tbl := bk.tbl.map fun e => if hit e || fresh then { e with cnt := 0, pend := false } else e
    let raa := if far then bk.raa - owed * Config.raaRefresh - k * Config.raaDecrement else bk.raa
    let row := if owed == 0 then bk.row else 0
    Tab.put {} t b { bk with row := row, hits := if owed == 0 then bk.hits else 0,
                             acts := if owed == 0 then bk.acts else 0, raa := raa, tbl := tbl }) x.banks
  ({ x with banks := banks }, n)

/-- One pending directory-sweep step of a bank: its store sets are read and checked, as `errs` says of them; every dirty cache entry goes
to the store, and the pointer advances (R120, R121, R226) (DEDUCED, safe: notes/assumptions/56.md). -/
def State.sweepStep (s : State) (b : Nat) (errs : List (Nat × ArrErr)) : State :=
  let x := s.bank b
  match x.sweepDue with
  | [] => s
  | k :: rest =>
    let n := s.dirGib * 2 ^ 17
    let sets := (List.range (min k n)).map fun j => (j, (x.sweepPtr + j) % n)
    -- what injection made of a line of the set is met too
    let of (j : Nat) : ArrErr :=
      let ds := s.dirErrs b ((x.sweepPtr + j) % n) []
      let e := match errs.find? fun e => e.1 == j with | some e => e.2 | none => .none
      if ds.contains .ue then .ue else if e == .none && ds.contains .ce then .ce else e
    let s := sets.foldl (fun s (_, set) =>
      (List.range 8).foldl (fun s j => s.houseAccess (s.dirLine b set (2 * j)) true) (s.dirFetch b set)) s
    if sets.any fun (j, set) => of j == .ue || x.badSet set then
      (s.ueData (136 + b) (sets.any fun (_, set) => s.injDir b set) 0 1).fatal (136 + b) 0
    else
      let s := sets.foldl (fun s (j, set) =>
        if of j == .ce then
          let (hs, hw) := houseSlot s.part s.houseWays (s.dirLine b set 0)
          (s.bucket (136 + b)).ceWay (sliceOfSet s.part hs) hs hw
        else s) s
      let x := x.dc.foldl (fun x (key, v) =>
        match v with
        | some e => if e.dirty then
            { x with store := Tab.put {} x.store (e.set * 16 + e.way) e.ent, dc := Tab.put none x.dc key (some { e with dirty := false }) }
          else x
        | none => x) x
      s.setBank b { x with sweepDue := rest, sweepPtr := (x.sweepPtr + k) % n }

/-- The next page that the page-code scrub decodes, and its region: in address order over the enabled regions (R396; DESIGN CHOICE, unsafe:
notes/assumptions/103.md). -/
def State.pgcNext (s : State) : Option Nat :=
  let rs := (List.range 8).filter fun r => s.pgcEn r && !Tab.get false s.ras.pgcInit r && 4096 ≤ s.pgcSize r
  let first (r : Nat) : Nat := max (s.pgcBase r / 4096) s.ras.pgcScrub
  let low (ps : List Nat) : Option Nat := match ps with | [] => none | p :: ps => some (ps.foldl min p)
  (low ((rs.filter fun r => first r < (s.pgcBase r + s.pgcSize r) / 4096).map first)).or (low (rs.map fun r => s.pgcBase r / 4096))

/-- Decode one page, and correct it in place (R395, R396): `e` says what the page's code finds. -/
def State.pgcDecode (s : State) (c : Nat) (e : ArrErr) : State :=
  match s.pgcNext with
  | none => s
  | some p =>
    let s := match e with
      | .none => s
      | .ce => s.rec_ 0x0B (64 + c) 0xFFFF (4096 * p) 0
      | .ue => s.rec_ 0x0C (64 + c) 0xFFFF (4096 * p) 0
    { s with ras := { s.ras with pgcScrub := p + 1 } }

/-- A retraining ended (R269): three failures in succession freeze the channel with cause 3 (DEDUCED, safe: notes/assumptions/54.md). -/
def State.retrained (s : State) (c : Nat) (ok : Bool) : State :=
  let ch := s.chan c
  if ok then s.setChan c { ch with retrainFails := 0 }
  else
    let s := (s.setChan c { ch with retrainFails := ch.retrainFails + 1 }).rec_ 0xFF (64 + c) 0xFFFF 0 (ch.retrainFails + 1)
    if 3 ≤ ch.retrainFails + 1 then s.freeze c 3 {} else s

/-- What a finished segment of kind `k` has done. -/
def State.segDone (s : State) (c k : Nat) (ok : Bool) (errs : List (Nat × ArrErr)) : State :=
  let ch := s.chan c
  if k == 1 then
    let en := s.rdEn c
    let (u0, n0) := ch.u0.flushRows (64 ≤ c) ch.fresh en ch.lull.owed
    let (u1, n1) := ch.u1.flushRows (64 ≤ c) ch.fresh en ch.lull.owed
    (s.setChan c { ch with u0 := u0, u1 := u1, fresh := false, nbr := satAdd 0xFFFF ch.nbr (n0 + n1),
                           lull := { ch.lull with owed := 0 } }).event (64 + c) 6 (n0 + n1)
  else if k == 2 then s.retrained c ok
  else if k == 3 then s.pgcDecode c (match errs with | e :: _ => e.2 | [] => .none)
  else match (s.banksOf c).find? fun b => !(s.bank b).sweepDue.isEmpty with
    | some b => s.sweepStep b errs
    | none => s

/-- LULL_SEGMENT_DONE (R232), with what the codes find in what the segment read, by place: the waiting requests are served before the next segment (DESIGN CHOICE, safe: notes/assumptions/66.md). -/
def execLullSegmentDone (c : Nat) (ok : Bool) (errs : List (Nat × ArrErr)) (s : State) : Host.Outcome State Fault Refusal :=
  .next (match (s.chan c).lull.cur with
    | none => s
    | some k =>
      if !(s.powered && s.chanPresent c) then s
      else
        let ch := s.chan c
        let s := s.setChan c { ch with u0 := ch.u0.markPre, u1 := ch.u1.markPre,
                                       lull := { ch.lull with cur := none, next := if k ≤ 2 then k + 1 else k } }
        s.noFinds fun s => s.segDone c k ok errs)

/-! ### Self-refresh and partial-array self-refresh (R272, R273) -/

/-- The line lies in a rank block that the mask names. -/
def State.inRanks (s : State) (mask : BitVec 8) (lo : Nat) : Bool := mask.getLsbD (farRank s.mem.rbits s.mem.kbits lo)

/-- Directory entries of the blocks, as bank and line. -/
def State.rankEntries (s : State) (mask : BitVec 8) : List (Nat × Nat) :=
  (List.range 16).flatMap fun b =>
    let x := s.bank b
    let cached := x.dc.filterMap fun (_, v) => v.bind fun e => if e.ent.st != 0 && s.inRanks mask e.ent.line then some e.ent.line else none
    let stored := x.store.filterMap fun (k, e) =>
      if e.st != 0 && s.inRanks mask e.line && (x.dcKey (k / 16) (k % 16)).isNone then some e.line else none
    (cached ++ stored).map fun l => (b, l)

/-- Step 1 of R273: the named blocks' pages are unwritten; queued writes to them are gone, and what is on its way from them is zero. -/
def State.pasrWipe (s : State) (mask : BitVec 8) : State :=
  let hit (lo : Nat) : Bool := s.inRanks mask lo
  let m := s.mem
  let s : State := { s with mem := { m with zmap := Tab.drop m.zmap fun p => hit (p * 64), ztrk := m.ztrk.filter fun z => !hit (z.page * 64) } }
  let s := (s.chansOf true).foldl (fun s c =>
    let ch := s.chan c
    let keep (x : CUnit) : CUnit := { (x.without fun r => r.wr && hit r.addr) with merge := x.merge.filter fun e => !hit e.addr }
    s.setChan c { ch with u0 := keep ch.u0, u1 := keep ch.u1 }) s
  let mine (la : Nat) : Bool := s.classOf la == .loc && hit (laLocal la)
  let zero (d : Option (Line × Bool)) : Option (Line × Bool) := d.map fun _ => (0, false)
  let s : State := { s with mem := { s.mem with reads := s.mem.reads.map fun r => if hit r.lo then { r with got := zero r.got } else r } }
  (List.range 64).foldl (fun s n => s.modSlice n fun x => { x with
    trks := x.trks.map fun t => if mine t.la then { t with data := zero t.data } else t
    mrs := x.mrs.map fun m => if mine m.la then { m with data := zero m.data } else m }) s

/-- The last part of step 2 of R273: this E9's own copies of the blocks go, and its hosts' copies are recalled, with their data dropped. -/
def State.pasrOwn (s : State) (mask : BitVec 8) : State :=
  let mine (la : Nat) : Bool := s.classOf la == .loc && s.inRanks mask (laLocal la)
  let s := (List.range 64).foldl (fun s n =>
    if (s.slice n).vbs.any fun v => mine v.la then
      (s.modSlice n fun x => { x with vbs := x.vbs.filter fun v => !mine v.la }).wakeVb n
    else s) s
  let s := s.mem.tags.foldl (fun s (set, _) =>
    let n := sliceOfSet s.part set
    (List.range 14).foldl (fun s i =>
      let e := (s.tags n set).get (i + 1)
      let la := lineOf s.part set e.tag
      if s.nearFrozen n then s
      else if s.cacheWay (i + 1) && s.valid e && mine la then s.dropLine n la (i + 1) false
      else s) s) s
  s.hsf.foldl (fun s e => if !e.flat && mine e.key then s.recallDrop e.key false else s) s

/-- Steps 1 and 2 of R273 for the named blocks begin: the pages are unwritten, and the directory entries are recalled one after another;
the copies of this E9 and of its hosts follow (DESIGN CHOICE, safe: notes/assumptions/58.md). `cmd` is the PASR_SET that asks for it, its mask and the
pages it marks; the exit of a channel from self-refresh asks with none, and a clearing in progress takes both. -/
def State.pasrClear (s : State) (mask : BitVec 8) (cmd : Option (Nat × BitVec 8 × Nat)) : State :=
  let old : Pasr := s.mgt.pasr.getD {}
  let mask := old.mask ||| mask
  let s := s.pasrWipe mask
  let new : Pasr := { old with mask := mask, pass := 0, due := s.rankEntries mask }
  let new := match cmd with
    | some (id, m, pages) => { new with runId := some id, set := some m, pages := pages }
    | none => new
  { s with mgt := { s.mgt with pasr := some new } }

/-- One local line number that PASR clears: its directory entry's recall starts where a recall tracker is free and the entry is not
pinned; else it stays in the list. -/
def State.pasrLine (s : State) (left : List (Nat × Nat)) (n b lo : Nat) : (List (Nat × Nat) × Nat) × State :=
  let set := dirSetOf s.dirGib (mkLa s.nodeNo lo)
  match (s.bank b).hit set lo with
  | none => ((left, n), s)
  | some w =>
    if ((s.bank b).ent set w).pin then ((left ++ [(b, lo)], n), s)
    else match s.startRecall b set w true with
      | some t => ((left, n + 1), t.setBank b ((t.bank b).put set w {} true))
      | none => ((left ++ [(b, lo)], n), s)

/-- The clearing has ended: PASR_EN and its mask become what the command asked for, and the channels that waited for it have left
self-refresh (R273). -/
def State.pasrEnd (s : State) (p : Pasr) : State :=
  let s : State := { s with mgt := { s.mgt with pasr := none } }
  let s := (s.chansOf true).foldl (fun s c => if (s.chan c).waking then s.setChan c { s.chan c with sr := false, waking := false } else s) s
  let s : State := match p.set with
    | some m => { s with mem := { s.mem with pasrMask := m, pasrEn := m != 0 } }
    | none => s
  match p.runId with
  | some id => s.cmdEnd id stOK (leBytes 4 p.recalled ++ leBytes 4 p.pages)
  | none => s

/-- Recall the next entries while recall trackers are free. When all are recalled, what came back meanwhile is wiped too and the copies of
this E9 and its hosts go; then the entries that appeared meanwhile are recalled, and the clearing ends (R273). -/
def State.pasrPump (s : State) : State :=
  match s.mgt.pasr with
  | none => s
  | some p =>
    let (r, s) := p.due.foldl (fun (a : (List (Nat × Nat) × Nat) × State) e => a.2.pasrLine a.1.1 a.1.2 e.1 e.2) (([], 0), s)
    let left := r.1
    let p : Pasr := { p with due := left, recalled := p.recalled + r.2 }
    let open_ := ((List.range 64).any fun k => (s.slice k).trks.any fun t => t.discard)
      || s.bisnps.any fun b => b.wait == .drop && !b.flat && s.classOf b.key == .loc && s.inRanks p.mask (laLocal b.key)
    if !left.isEmpty || open_ then { s with mgt := { s.mgt with pasr := some p } }
    else if p.pass == 0 then
      let s := (s.pasrWipe p.mask).pasrOwn p.mask
      let p : Pasr := { p with pass := 1, due := s.rankEntries p.mask }
      if p.due.isEmpty && !(s.bisnps.any fun b => b.wait == .drop && !b.flat && s.classOf b.key == .loc && s.inRanks p.mask (laLocal b.key))
      then s.pasrEnd p
      else { s with mgt := { s.mgt with pasr := some p } }
    else s.pasrEnd p

/-- What one all-bank refresh leaves of a bank: it is precharged, and its counts of activates have gone down. -/
def BankSt.refreshed (b : BankSt) (far : Bool) : BankSt :=
  { b with row := 0, hits := 0, acts := 0, raa := if far then b.raa - Config.raaRefresh else b.raa }

/-- Leave self-refresh: a calibration and one all-bank refresh come before the first access (R272); with PASR_EN, so do steps 1 and 2
of R273. The rotation realigns at the next firing (R235). -/
def State.srExit (s : State) (c : Nat) : State :=
  let ch := s.chan c
  if !ch.sr || ch.waking then s
  else
    let ref (x : CUnit) : CUnit := { x with banks := x.banks.map fun (b, k) => (b, k.refreshed (64 ≤ c)) }
    let clears := 64 ≤ c && s.mem.pasrEn
    let s := s.setChan c { ch with sr := clears, waking := clears, free := true, idleBeat := s.beat, nextRefresh := s.clk + 8192,
                                   u0 := ref ch.u0, u1 := ref ch.u1 }
    if clears then (s.pasrClear s.mem.pasrMask none).pasrPump else s

/-- A channel is in self-refresh, or has not finished leaving it. -/
def State.anySr (s : State) : Bool := (s.chansOf false ++ s.chansOf true).any fun c => (s.chan c).sr
def State.srExitAll (s : State) : State := (s.chansOf false ++ s.chansOf true).foldl (fun s c => s.srExit c) s

/-- SELF_REFRESH_ENTRY (R272): the beats are counted from the channel's last access; a refresh window and lull work are tested at the entry
and do not restart the count (DESIGN CHOICE, unsafe: notes/assumptions/118.md). -/
def execSelfRefreshEntry (c : Nat) (s : State) : Host.Outcome State Fault Refusal :=
  .next (
    let ch := s.chan c
    let idle := ch.u0.all.isEmpty && ch.u1.all.isEmpty && ch.u0.win.isEmpty && ch.u1.win.isEmpty && ch.u0.merge.isEmpty && ch.u1.merge.isEmpty
    let may := s.devState == 2 || (s.devState == 0 && (s.boot.level == 1 || s.boot.level == 2))
    if s.chanServes c && idle && may && s.srIdle c != 0 && s.srIdle c ≤ s.beat - ch.idleBeat then
      s.setChan c { ch with sr := true } else s)

/-- SELF_REFRESH_EXIT (R272): on the first access. A transition to SERVICE makes every channel exit (State.srExitAll). -/
def execSelfRefreshExit (c : Nat) (fd : Finds) (s : State) : Host.Outcome State Fault Refusal :=
  .next (s.finding fd fun s => (
    let ch := s.chan c
    let wanted := !(ch.u0.all.isEmpty && ch.u1.all.isEmpty && ch.u0.merge.isEmpty && ch.u1.merge.isEmpty)
    if s.chanRuns c && wanted then s.srExit c else s))

/-! ### Scrubbing (R397) -/

/-- Code words of a channel. -/
def State.chanWords (s : State) (c : Nat) : Nat := if c < 64 then 9 * 2 ^ 18 * 16 else s.farBytes / 512

/-- A near scrub read of slot `k` of a set row. Poison is no error (R389); a corrected word is rewritten; in HOLD tag blocks and data are left
untouched (R108). -/
def State.scrubNear (s : State) (c w : Nat) (e : ArrErr) : State :=
  let u := w / 16
  let k := w % 16
  let (n, set) := s.rowSet c u
  match (if Tab.get false s.mem.nearPoison (slotNo set k) then .none else s.metNear n set k e) with
  | .none => s
  | .ce =>
    let s := s.flipMend (if k == 0 then 3 else 1) c (64 * w)
    if k == 0 || k == 15 then (s.bucket (64 + c)).recErr 0x01 (64 + c) (s.injNear n set k) set (if k == 0 then 0 else 1) else s.ceWay n set k
  | .ue =>
    if k == 0 then
      let s := s.ueData (64 + c) (s.injNear n set 0) set 0
      if s.mode == 2 then s else s.putTags n set (s.rebuilt (s.setRec set))
    else if s.cacheWay k then
      let ent := (s.tags n set).get k
      let s := s.ueData (64 + c) (s.injNear n set k) (u * 1024 + 64 * k) (set * 16 + k)
      if !s.valid ent || ent.st == stP || s.mode == 2 then s
      else if ent.st == stM || ent.st == stO then s.putEnt n set k { ent with st := stP }
      else s.dropLine n (lineOf s.part set ent.tag) k false
    else s.ueData (64 + c) (s.injNear n set k) (u * 1024 + 64 * k) (set * 16 + k)

/-- Far line number `j` of channel `k`, in ascending order of line index. -/
def farNth (k j : Nat) : Nat := 8 * j + (k ^^^ bits (8 * j) 16 3)

/-- A far scrub read. -/
def State.scrubFar (s : State) (c j : Nat) (e : ArrErr) : State :=
  let lo := farNth (c - 64) j
  if s.readsZero lo || Tab.get false s.mem.farPoison lo then s
  else
    let t := (s.farFetch lo e).2
    if s.met 2 (farCh lo) (64 * lo) e == .ce then t.flipMend 2 (farCh lo) (64 * lo) else t

/-- Command unit of code word `w` of a channel, and the access that reads it. -/
def State.scrubReq (s : State) (c w : Nat) : Nat × ChReq :=
  if c < 64 then
    (nmcUnit (w / 16), { seq := 0, bank := nmcBank (w / 16), row := nmcRow (w / 16), wr := false, addr := w })
  else
    let lo := farNth (c - 64) w
    (farSub lo, { seq := 0, bank := s.farBank lo, row := farRow s.mem.rbits lo, wr := false, addr := lo })

/-- A scrub read issues, to a bank with no queued access, and enters its list as an access like any other (R259, R397); what the code
finds follows. -/
def State.scrubRead (s : State) (c w : Nat) (e : ArrErr) : State :=
  let (u, r) := s.scrubReq c w
  let s := (s.chanEnq c u r).event (64 + c) 0x0B 1
  if c < 64 then s.scrubNear c w e else s.scrubFar c w e

/-- A channel's scrub reads that wait: those whose bank has no queued access issue, in order (R397). -/
def State.scrubPump (s : State) (c : Nat) : State :=
  let ws := (s.chan c).scrubQ
  ws.foldl (fun s (w, e) =>
    let (u, r) := s.scrubReq c w
    if (s.cunit c u).all.any fun q => q.bank == r.bank then s.setChan c { s.chan c with scrubQ := (s.chan c).scrubQ ++ [(w, e)] }
    else s.scrubRead c w e) (s.setChan c { s.chan c with scrubQ := [] })

/-- One scrub read at the channel's pointer, which advances. A far line of an unwritten page is passed over without an
access (R397; DEDUCED, safe: notes/assumptions/56.md). -/
def State.scrubOne (s : State) (c : Nat) (e : ArrErr) : State :=
  let ch := s.chan c
  let n := s.chanWords c
  if n == 0 then s
  else
    let skip := 64 ≤ c && s.readsZero (farNth (c - 64) ch.scrub)
    s.setChan c { ch with scrub := (ch.scrub + 1) % n, scrubQ := if skip then ch.scrubQ else ch.scrubQ ++ [(ch.scrub, e)] }

/-- One clock: the scrub reads that wait, outside guards and lulls. -/
def State.scrubClock (s : State) : State :=
  s.mem.chans.foldl (fun s (c, _) => if (s.chan c).scrubQ.isEmpty || !s.chanServes c || s.inPause then s else s.scrubPump c) s

/-- SCRUB_STEP (R397): `errs` names what the codes find, as channel, place within the step, and verdict. A firing between guard
start and lull end is skipped (R226). -/
def execScrubStep (entry : Nat) (errs : List (Nat × Nat × ArrErr)) (s : State) : Host.Outcome State Fault Refusal :=
  .next (match s.fire entry 3 with
    | none => s
    | some s =>
      if s.inPause then s
      else
        let a := schArg (s.sch entry)
        let cs := (if bits a 16 1 == 1 then s.chansOf false else []) ++ (if bits a 17 1 == 1 then s.chansOf true else [])
        s.noFinds fun s => (cs.filter fun c => s.chanServes c).foldl (fun s c =>
          ((List.range (a % 2 ^ 16)).foldl (fun s i =>
            let e := match errs.find? fun x => x.1 == c && x.2.1 == i with | some x => x.2.2 | none => .none
            s.scrubOne c e) s).scrubPump c) s)

end Sys2Proof.Machine
end

