-- ==== Sys2Proof/Machine/ChCmd.lean ====
section
/-! DEFINITION. The channel commands: PASR_SET, CH_THAW, CH_RETRAIN, the raw access path, and post-package repair (R273, R276,
R279, R400, R441). Each gives its check of instance and parameters, and its execution. -/

namespace Sys2Proof.Machine

/-- The channel that KIND and CHANNEL name: 0 near, 1 far. -/
def State.chanNamed (s : State) (kind ch : BitVec 8) : Option Nat :=
  let c := if kind == 1 then 64 + ch.toNat else ch.toNat
  if (kind == 0 || kind == 1) && (kind == 1 || ch.toNat < 64) && s.chanPresent c then some c else none

/-! ### PASR_SET (R273) -/

def State.pasrSetCheck (s : State) (mask : BitVec 8) : Nat := if mask.toNat < 2 ^ 2 ^ s.mem.kbits then stOK else stBadParam
def State.pasrSetGo (s : State) (id : Nat) (mask : BitVec 8) : State :=
  let n := ((List.range 8).filter fun i => mask.getLsbD i).length
  -- a channel in self-refresh exits first (Table 10.6)
  let s := (s.chansOf true).foldl (fun s c => s.srExit c) s
  (s.pasrClear mask (some (id, mask, n * 2 ^ (s.mem.rbits + 10)))).pasrPump

/-! ### CH_THAW and CH_RETRAIN (R276, R279) -/

def State.chThawCheck (s : State) (kind ch : BitVec 8) : Nat :=
  match s.chanNamed kind ch with
  | none => stInvalidInstance
  | some c => if !(s.chan c).frozen then stInvalidInstance else if c < 64 && s.dom.st != 3 then stRefused else stOK
def State.chThawGo (s : State) (id : Nat) (kind ch : BitVec 8) : State :=
  match s.chanNamed kind ch with
  | none => s.cmdEnd id stFailed []
  | some c =>
    let x := s.chan c
    s.setChan c { x with u0 := {}, u1 := {}, scrubQ := [], training := true, thaw := true, discarded := x.queued false + x.queued true, sr := false }

def State.chRetrainCheck (s : State) (kind ch : BitVec 8) : Nat :=
  match s.chanNamed kind ch with
  | none => stInvalidInstance
  | some c => if (s.chan c).frozen || !(s.chan c).trained || (s.chan c).bist then stInvalidInstance else stOK
def State.chRetrainGo (s : State) (id : Nat) (kind ch : BitVec 8) : State :=
  match s.chanNamed kind ch with
  | none => s.cmdEnd id stFailed []
  | some c =>
    let s := s.srExit c
    s.setChan c { s.chan c with training := true, thaw := false }

/-- Every set row of a near channel as the bring-up sweep writes it (R40). -/
def State.sweepChan (s : State) (c : Nat) : State :=
  let mine (set : Nat) : Bool := nmcOf s.part (sliceOfSet s.part set) == c
  let s : State := { s with mem := { s.mem with tags := Tab.drop s.mem.tags mine, recs := Tab.drop s.mem.recs mine } }
  ((List.range 64).filter fun n => nmcOf s.part n == c).foldl (fun s n => s.modSlice n fun x =>
    { x with tc := [], tbReads := [], inq := x.inq.map fun r => { r with tb := none } }) s

/-- A thawed near channel is cleared as a sweep clears it; its zero-map lines wait for the next reform (R407). -/
def State.thawSweep (s : State) (c : Nat) : State :=
  let s := s.sweepChan c
  { s with mgt := { s.mgt with thawed := s.mgt.thawed ++ [c] } }

/-- CHANNEL_TRAINING_COMPLETE (R276, R279). -/
def execChannelTrainingComplete (c : Nat) (ok : Bool) (s : State) : Host.Outcome State Fault Refusal :=
  .next (
    let ch := s.chan c
    if !(s.powered && s.chanPresent c && ch.training) then s
    else
      let run := s.cmdRunning fun b => match b with
        | .chThaw k x => ch.thaw && s.chanNamed k x == some c
        | .chRetrain k x => !ch.thaw && s.chanNamed k x == some c
        | _ => false
      let reply (s : State) (st : Nat) (p : List Byte) : State := match run with
        | some r => s.cmdEnd r.id st p
        | none => s
      let s := s.setChan c { ch with training := false, thaw := false, idleBeat := s.beat, nextRefresh := s.clk + 8192 }
      if ch.thaw then
        if ok then
          let s := s.setChan c { s.chan c with frozen := false, cause := 0, trained := true, ready := true, retrainFails := 0, refreshLost := false }
          let s := if c < 64 then s.thawSweep c else s
          reply s stOK (leBytes 4 ch.discarded)
        else reply (s.setChan c { s.chan c with trained := false, ready := false }) stFailed []
      else reply (s.noFinds fun s => s.retrained c ok) stOK (leBytes 4 (if ok then 0 else 1)))

/-! ### Stored code words (R32, R33, R38, R97, R117, R376, R391) -/

def tagEntBits (e : TagEnt) : Nat :=
  e.tag.toNat * 2 ^ 8 + e.st.toNat * 2 ^ 5 + e.age.toNat * 2 ^ 3 + e.ep.toNat * 2 + (if e.lock then 1 else 0)
def tagEntOf (x : Nat) : TagEnt :=
  { tag := BitVec.ofNat 28 (bits x 8 28), st := BitVec.ofNat 3 (bits x 5 3), age := BitVec.ofNat 2 (bits x 3 2),
    ep := BitVec.ofNat 2 (bits x 1 2), lock := x % 2 == 1 }
/-- Slot 0 of a set row. -/
def tagBlkBits (b : TagBlk) : Line := BitVec.ofNat 512 ((List.range 14).foldl (fun a i => a + tagEntBits (b.get (i + 1)) * 2 ^ (36 * i)) 0)
def tagBlkOf (l : Line) : TagBlk := { ways := (List.range 14).map fun i => tagEntOf (bits l.toNat (36 * i) 36) }
/-- Slot 15 of a set row. -/
def setRecBits (r : SetRec) : Line :=
  BitVec.ofNat 512 (r.retire.toNat * 2 ^ 266 + r.lastBeat.toNat * 2 ^ 224
    + (List.range 14).foldl (fun a i => a + ((r.ce[i]?).getD 0).toNat * 2 ^ (16 * i)) 0)
def setRecOf (l : Line) : SetRec :=
  { retire := BitVec.ofNat 14 (bits l.toNat 266 14), lastBeat := BitVec.ofNat 32 (bits l.toNat 224 32),
    ce := (List.range 14).map fun i => BitVec.ofNat 16 (bits l.toNat (16 * i) 16) }
/-- A directory entry with its CHECK field (Table 5.3). -/
def dirEntBits (e : DirEnt) : Nat :=
  let x := e.line % 2 ^ 36 * 2 ^ 220 + e.st % 8 * 2 ^ 217 + (if e.pin then 2 ^ 216 else 0) + e.owner % 128 * 2 ^ 208
    + e.age % 4 * 2 ^ 206 + e.sharers.toNat
  x + (Config.dirCheck (BitVec.ofNat 256 x)).toNat * 2 ^ 128
/-- The entry's CHECK field fits its other bits (R117). -/
def dirChecks (x : Nat) : Bool := Config.dirCheck (BitVec.ofNat 256 (x - bits x 128 16 * 2 ^ 128)) == BitVec.ofNat 16 (bits x 128 16)
/-- The entry that its code reads (Table 15.1): as stored, with one bit corrected, or uncorrectable, which a STATE that is not used marks. -/
def dirEntOf (x : Nat) : DirEnt :=
  let e (x : Nat) : DirEnt :=
    { line := bits x 220 36, st := bits x 217 3, pin := bits x 216 1 == 1, owner := bits x 208 7, age := bits x 206 2,
      sharers := BitVec.ofNat 128 (bits x 0 128) }
  if dirChecks x then e x
  else match (List.range 256).find? fun i => dirChecks (x ^^^ 2 ^ i) with
    | some i => e (x ^^^ 2 ^ i)
    | none => { e x with st := 4 }

/-- The link word of a pool cell (R376): of a free cell it names the next in the free list (DEDUCED, unsafe: notes/assumptions/64.md). -/
def State.linkBits (s : State) (i : Nat) : Nat :=
  let q := s.qmg
  match q.free.findIdx? (· == i) with
  | some k => ((q.free[k + 1]?).getD q.fresh) % 2 ^ 27
  | none =>
    if q.fresh ≤ i && i < q.freshEnd then (i + 1) % 2 ^ 27
    else
      let w := Tab.get {} q.links i
      (if w.last then 2 ^ 31 else 0) + w.next % 2 ^ 27

/-- Bank, and place in its store, of entry number `k` of the directory store (R118). -/
def State.dirPlace (s : State) (k : Nat) : Nat × Nat := (k / 16 / (s.dirGib * 2 ^ 17), k % (s.dirGib * 2 ^ 21))

/-- The line that a house slot stores. -/
def State.houseLine (s : State) (set w : Nat) : Line :=
  match s.housePart (s.houseIndex set w) with
  | .zmap o => BitVec.ofNat 512 ((List.range 512).foldl (fun a i => if Tab.get false s.mem.zmap (8 * o + i) then a + 2 ^ i else a) 0)
  | .dir o => BitVec.ofNat 512 ((List.range 2).foldl (fun a i =>
      let (b, k) := s.dirPlace (o / 32 + i)
      a + dirEntBits (Tab.get {} (s.bank b).store k) * 2 ^ (256 * i)) 0)
  | .links o => BitVec.ofNat 512 ((List.range 16).foldl (fun a i => a + s.linkBits (o / 4 + i) * 2 ^ (32 * i)) 0)
  | .cells o => Tab.get 0 s.qmg.cells (o / 64)
  | .rest => (s.wayGet set w).1

/-- Write a house slot's line. -/
def State.putHouseLine (s : State) (set w : Nat) (l : Line) : State :=
  match s.housePart (s.houseIndex set w) with
  | .zmap o => { s with mem := { s.mem with zmap := (List.range 512).foldl (fun t i => Tab.put false t (8 * o + i) (l.getLsbD i)) s.mem.zmap } }
  | .dir o => (List.range 2).foldl (fun s i =>
      let (b, k) := s.dirPlace (o / 32 + i)
      let x := s.bank b
      s.setBank b { x with store := Tab.put {} x.store k (dirEntOf (bits l.toNat (256 * i) 256)) }) s
  | .links o => { s with qmg := { s.qmg with links := (List.range 16).foldl (fun t i =>
      let w := bits l.toNat (32 * i) 32
      Tab.put {} t (o / 4 + i) { last := bits w 31 1 == 1, next := bits w 0 27 }) s.qmg.links } }
  | .cells o => { s with qmg := { s.qmg with cells := Tab.put 0 s.qmg.cells (o / 64) l } }
  | .rest => { s with mem := { s.mem with near := Memory.writeLine s.mem.near (slotAddr set w) l } }

/-- The line that slot `k` of a set row holds, in the model's own form. -/
def State.slotLine (s : State) (set k : Nat) : Line :=
  if k == 0 then tagBlkBits (s.nearTags set) else if k == 15 then setRecBits (s.setRec set)
  else if 15 - s.houseWays ≤ k then s.houseLine set k else (s.wayGet set k).1
/-- The line as stored: what the raw path wrote, as long as nothing has changed the slot since. -/
def State.slotRaw (s : State) (set k : Nat) : Line :=
  match s.mem.raw.find? fun e => e.1 == slotNo set k with
  | some e => if e.2.2 == s.slotLine set k then e.2.1 else s.slotLine set k
  | none => s.slotLine set k
/-- How the stored bits of words that injection corrupted differ (R399): of the word at `addr`, or of the directory entries of a house line. -/
def State.flipBits (s : State) (target inst addr : Nat) (house : Option Nat) : Line × BitVec 128 :=
  s.ras.latent.foldl (fun a e =>
    if e.at_ target inst addr then (a.1 ^^^ e.data, a.2 ^^^ e.chk)
    else if e.target == 4 && some (e.addr / 64) == house then (a.1 ^^^ (e.data <<< (e.addr % 64 * 8)), a.2 ^^^ e.chk)
    else a) (0, 0)

/-- Data and check bytes of a near slot as stored (R386, R389). -/
def State.rawNear (s : State) (c x : Nat) : List Byte :=
  let set := (s.rowSet c (x / 1024)).2
  let k := x / 64 % 16
  let l := s.slotRaw set k
  let f := s.flipBits (if k == 0 then 3 else 1) c (x / 64 * 64) (if 15 - s.houseWays ≤ k && k < 15 then some (s.houseIndex set k) else none)
  let chk := Config.nearCheck l ^^^ (if Tab.get false s.mem.nearPoison (slotNo set k) then Config.nearPoison else 0) ^^^ f.2.setWidth 64
  leBytes 64 (l ^^^ f.1).toNat ++ leBytes 8 chk.toNat

/-- Data and check bytes of a far line as stored: of one that nothing has written, what the DRAM held (R413) (DESIGN CHOICE, safe: notes/assumptions/20.md). -/
def State.rawFar (s : State) (lo : Nat) : List Byte :=
  if s.farKnown lo then
    let l := Memory.readLine s.mem.far (64 * lo)
    let f := s.flipBits 2 (farCh lo) (64 * lo) none
    leBytes 64 (l ^^^ f.1).toNat
      ++ leBytes 16 (Config.farCheck l ^^^ (if Tab.get false s.mem.farPoison lo then Config.farPoison else 0) ^^^ f.2).toNat
  else leBytes 64 (Config.dramData s.mem.dram lo).toNat ++ leBytes 16 (Config.dramCheck s.mem.dram lo).toNat

/-- Bytes of a near channel (R254). -/
def nearBytes : Nat := 9 * 2 ^ 18 * 1024

/-- ADDR names a code word of the channel. -/
def State.rawAddr (s : State) (c a : Nat) : Bool :=
  a % 64 == 0 && (if c < 64 then a < nearBytes else a < s.farBytes && 64 + farCh (a / 64) == c)

/-! ### CH_RAW_READ and CH_RAW_WRITE (R441) -/

def State.rawCheck (s : State) (kind ch : BitVec 8) (addr : Word) : Nat :=
  match s.chanNamed kind ch with
  | none => stInvalidInstance
  | some c => if s.rawAddr c addr.toNat then stOK else stBadParam
def State.chRawReadCheck (s : State) (kind ch : BitVec 8) (addr : Word) (count : BitVec 16) : Nat :=
  let r := s.rawCheck kind ch addr
  if r == stOK && !(1 ≤ count.toNat && count.toNat ≤ 51) then stBadParam else r

/-- The far lines of channel `c` from line `lo` upward, at most `n` of them and below the end of far memory. -/
def State.farFrom (s : State) (c lo n : Nat) : List Nat :=
  (((List.range (n + 1)).map fun i => farNth (c - 64) (lo / 8 + i)).filter fun x => lo ≤ x && 64 * x < s.farBytes).take n

def State.chRawReadGo (s : State) (id : Nat) (kind ch : BitVec 8) (addr : Word) (count : BitVec 16) : State :=
  match s.chanNamed kind ch with
  | none => s.cmdEnd id stFailed []
  | some c =>
    let a := addr.toNat
    if (s.chan c).refreshLost then s.cmdEnd id stFailed []
    else
      let s := s.srExit c
      if c < 64 then
        let n := min count.toNat ((nearBytes - a) / 64)
        s.cmdEnd id stOK ((List.range n).flatMap fun i => s.rawNear c (a + 64 * i))
      else
        s.cmdEnd id stOK ((s.farFrom c (a / 64) count.toNat).flatMap s.rawFar)

/-- A raw write is accepted only on a frozen channel, or in HOLD. -/
def State.chRawWriteCheck (s : State) (kind ch : BitVec 8) (addr : Word) : Nat :=
  let r := s.rawCheck kind ch addr
  if r != stOK then r
  else match s.chanNamed kind ch with
    | none => stInvalidInstance
    | some c => if (s.chan c).frozen || s.mode == 2 then stOK else stRefused
def State.chRawWriteGo (s : State) (id : Nat) (kind ch : BitVec 8) (addr : Word) (l : Line) : State :=
  match s.chanNamed kind ch with
  | none => s.cmdEnd id stFailed []
  | some c =>
    let a := addr.toNat
    if (s.chan c).refreshLost then s.cmdEnd id stFailed []
    else
      let s := s.srExit c
      let s : State := if c < 64 then
          let set := (s.rowSet c (a / 1024)).2
          let k := a / 64 % 16
          let s : State := { s with mem := { s.mem with nearPoison := Tab.put false s.mem.nearPoison (slotNo set k) false } }.flipNear c (a / 64)
          let s : State :=
            if k == 0 then { s with mem := { s.mem with tags := Tab.put {} s.mem.tags set (tagBlkOf l) } }
            else if k == 15 then { s with mem := { s.mem with recs := Tab.put {} s.mem.recs set (setRecOf l) } }
            else if 15 - s.houseWays ≤ k then s.putHouseLine set k l
            else { s with mem := { s.mem with near := Memory.writeLine s.mem.near (slotAddr set k) l } }
          -- bits that the model's own form drops stay in the slot
          { s with mem := { s.mem with raw := Tab.drop s.mem.raw (· == slotNo set k)
                                        ++ (if s.slotLine set k == l then [] else [(slotNo set k, (l, s.slotLine set k))]) } }
        else
          let v := s.flipLine 2 (c - 64) l false
          let s := s.flipDone 2 (c - 64) a
          { s with mem := { s.mem with far := Memory.writeLine s.mem.far a v.1
                                       farPoison := Tab.put false s.mem.farPoison (a / 64) v.2
                                       farWritten := Tab.put false s.mem.farWritten (a / 64) true } }
      s.cmdEnd id stOK []

/-! ### PPR (R400) -/

/-- The line index at a place of a far channel: the inverse of R256. -/
def State.farLine (s : State) (ch sub rank bg bank row col : Nat) : Nat :=
  (ch ^^^ bits row 0 3) + 8 * sub + 2 ^ 4 * col + 2 ^ 11 * bank + 2 ^ 13 * (bg ^^^ bits row 3 3) + 2 ^ 16 * row
    + 2 ^ (s.mem.rbits + 16) * rank

def State.pprCheck (s : State) (ch sub rank bg bank : BitVec 8) (row : BitVec 32) (kind : BitVec 8) : Nat :=
  if 8 ≤ ch.toNat || (s.chan (64 + ch.toNat)).frozen then stInvalidInstance
  else if sub.toNat < 2 && rank.toNat < 2 ^ s.mem.kbits && bg.toNat < 8 && bank.toNat < 4 && row.toNat < 2 ^ s.mem.rbits && kind.toNat < 2
    then stOK else stBadParam

/-- One line of a row under repair: whether it can be corrected is the DIMM's, a free value; a line that cannot, or is poisoned, is
written back poisoned, and counts (DESIGN CHOICE, safe: notes/assumptions/59.md). -/
def State.pprLine (s : State) (lo bad : Nat) : Nat × State :=
  if s.readsZero lo then (bad, s)
  else
    let (l, p) := s.farValue lo
    let (lost, s) := s.freeBool
    (if p || lost then bad + 1 else bad, s.farStore lo (if p || lost then Config.poisonLine else l) (p || lost))

/-- PPR: the row's lines, then the repair. A hard repair without a spare leaves the row as it was. -/
def State.pprGo (s : State) (id : Nat) (ch sub rank bg bank : BitVec 8) (row : BitVec 32) (kind : BitVec 8) : State :=
  let key := ch.toNat * 2 + sub.toNat
  let hard := kind == 1
  let done := Tab.get 0 (if hard then s.mem.hardPpr else s.mem.softPpr) key
  let r := Config.pprResult [ch.toNat, sub.toNat, rank.toNat, bg.toNat, bank.toNat, row.toNat, kind.toNat, done] % 3
  let r := if !hard && r == 2 then 1 else r
  if r == 2 then s.cmdEnd id stOK (leBytes 4 2 ++ leBytes 4 0)
  else
    let (bad, s) := (List.range 128).foldl (fun (a : Nat × State) col =>
      a.2.pprLine (a.2.farLine ch.toNat sub.toNat rank.toNat bg.toNat bank.toNat row.toNat col) a.1) (0, s)
    let s : State := if r != 0 then s
      else if hard then { s with mem := { s.mem with hardPpr := Tab.put 0 s.mem.hardPpr key (done + 1) } }
      else { s with mem := { s.mem with softPpr := Tab.put 0 s.mem.softPpr key (done + 1) } }
    s.cmdEnd id stOK (leBytes 4 r ++ leBytes 4 bad)

end Sys2Proof.Machine
end

