-- ==== Sys2Proof/Machine/Ras.lean ====
section
/-! DEFINITION. Domain failure and reform, page-code regions, injection, leaky buckets and the ledger's commands (chapter 15,
R147). -/

namespace Sys2Proof.Machine

/-! ### Entry into DOWN (R147, R405, R406) -/

/-- This E9's own copies of domain-remote lines go to I; the lines that were dirty are counted (R405 step 1). -/
def State.dropRemote (s : State) : Nat × State :=
  let (n, s) := s.mem.tags.foldl (fun (k, s) (set, _) =>
    let sl := sliceOfSet s.part set
    (List.range 14).foldl (fun (k, s) i =>
      let e := (s.tags sl set).get (i + 1)
      let la := lineOf s.part set e.tag
      if s.cacheWay (i + 1) && s.valid e && s.classOf la == .domRemote && !s.nearFrozen sl then
        (if e.st == stM || e.st == stO then k + 1 else k, s.dropLine sl la (i + 1) false)
      else (k, s)) (k, s)) (0, s)
  (List.range 64).foldl (fun (k, s) sl =>
    let gone := (s.slice sl).vbs.filter fun v => s.classOf v.la == .domRemote
    (k + (gone.filter fun v => v.st == stM || v.st == stO).length,
     s.modSlice sl fun x => { x with vbs := x.vbs.filter fun v => s.classOf v.la != .domRemote })) (n, s)

/-- Host copies of domain-remote lines are back-invalidated, with returned data dropped. -/
def State.recallRemote (s : State) : State :=
  s.hsf.foldl (fun s e => if !e.flat && s.classOf e.key == .domRemote then s.recallDrop e.key false else s) s

/-- An open recall tracker is swept with the state it still holds for its line (R405 step 2), and closed. -/
def State.sweepRecall (s : State) (b : Nat) (r n la : Nat) : State :=
  let s := match s.trk n (htidRecall r) with
    | none => s
    | some t =>
      let lo := laLocal la
      let s := if t.discard then s
        -- the owner has answered: its data is written
        else if t.dirty then (match t.data with | some (d, p) => s.farWriteLine lo d p | none => s)
        else if t.dst == 2 then s.farWriteLine lo Config.poisonLine true
        else if t.dst == 3 then
          -- a frozen near channel's tag blocks and ways are not accessed (R275)
          match (if s.nearFrozen n then none else s.findLine la) with
          | some (w, e) =>
            if e.st == stS then
              s.farWriteLine lo (s.wayGet (setOf s.part la) w).1 (s.wayGet (setOf s.part la) w).2
            else s.farWriteLine lo Config.poisonLine true
          | none => s.farWriteLine lo Config.poisonLine true
        else s
      s.dropTrk n (htidRecall r)
  let x := s.bank b
  s.setBank b { x with recalls := x.recalls.filter fun y => y.1 != r }

/-- The down sweep of a bank. Where its store cannot be read whole its directory is lost (R406). Without a known layout nothing is swept,
and no way is read (Table 15.2). -/
def State.downSweep (s : State) (b : Nat) (lay : Bool) : State :=
  let s := if lay then (s.bank b).recalls.foldl (fun s (r, n, la) => s.sweepRecall b r n la) s
    else (((s.bank b).recalls.foldl (fun s (r, n, _) => s.dropTrk n (htidRecall r)) s).setBank b { s.bank b with recalls := [] })
  if s.sweepBlind b then s.dirLose b
  else
    let x := s.bank b
    let places := (x.dc.filterMap fun (_, v) => v.map fun e => (e.set, e.way)) ++ x.store.map fun (k, _) => (k / 16, k % 16)
    places.foldl (fun s (set, w) => s.sweepEnt b set w) s

/-- The home has answered its own register: the fill alone is left. -/
def Trk.answered (t : Trk) : Bool := t.ph == .own && (match t.for_ with | .own _ => true | _ => false)

/-- Open home transactions end: those of other nodes with NACK-DOWN; the home's own requests start again, but for those that have been
answered (R147). -/
def State.endTrackers (s : State) : State :=
  (List.range 64).foldl (fun s n =>
    let ts := (s.slice n).trks.filter fun t => !t.answered
    let s := s.modSlice n fun x => { x with trks := x.trks.filter Trk.answered, holds := [], waitSnoops := [] }
    ts.foldl (fun s t =>
      match t.for_ with
      | .peer src m => if t.ph == .reserved then s else s.nack src m false opNACKDOWN
      | .glob src m => s.nack src m true opNACKDOWN
      | .own reg => s.homeOwn n reg
      | .recall _ => s) s) s

/-- Miss registers that await a domain message for a domain-remote line end with poison (R147), and those that wait for a victim-buffer
entry, which has been dropped. -/
def State.endRemoteMrs (s : State) : State :=
  (List.range 64).foldl (fun s n =>
    ((s.slice n).mrs.filter fun m => s.classOf m.la == .domRemote
        && (m.st == .sent || m.st == .refused || m.st == .heldBack || m.st == .waitVb)).foldl (fun s m => s.mrEnd n m.idx .down) s) s

/-- The steps that follow an entry into DOWN (R147, R405, R406). -/
def State.downSteps (s : State) : State :=
  let lay := s.layoutKnown
  let (n, s) := if lay then s.dropRemote else (0, s)
  let s := if lay then s.recallRemote else s
  let s := (List.range 16).foldl (fun s b => s.downSweep b lay) s
  let s : State := { s with dom := { s.dom with downDue := false, sentReady := false, readyAfter := false } }
  let s := (s.endTrackers.endRemoteMrs.fencesDown.joinEnd).rec_ 0x1A 210 0xFFFF 0 n
  s.signalAll 4

/-- DOMAIN_DOWN_ENTRY (R147, R405, R406). -/
def execDomainDownEntry (fd : Finds) (s : State) : Host.Outcome State Fault Refusal :=
  .next (s.finding fd fun s => (if s.powered && s.dom.st == 3 && s.dom.downDue then s.downSteps else s))

/-! ### DOM_REFORM (R407) -/

def State.domReformCheck (s : State) : Nat := if s.dom.st == 3 && s.layoutKnown then stOK else stRefused

/-- Zero-map lines of the thawed channels (R97, R407). -/
def State.zmapThawed (s : State) : List Nat :=
  (List.range (s.farBytes / 2 ^ 21)).filter fun z =>
    s.mgt.thawed.contains (nmcOf s.part (sliceOfSet s.part (houseSlot s.part s.houseWays z).1))

/-- What a reform empties beside the directory (Table 16.5, R298): translations, the walk queue, whose requests wait at their sources
again, the speculative trackers, streams, and the system tree's generation. -/
def State.reformClear (s : State) : State :=
  let empty (x : Xlt) : Xlt :=
    { x with l1s := [], l1d := [], l2 := [], wc := [],
             jobs := x.jobs.map fun j => if j.walker.isNone then { j with queued := false } else j }
  let s : State := { s with xlts := s.xlts.map fun (i, x) => (i, empty x)
                            links := s.links.map fun (l, x) => (l, { x with miss1 := none, miss2 := none })
                            fnc := { s.fnc with sys := { gen := s.sysStartGen } } }
  (List.range 64).foldl (fun s n => s.modSlice n fun x => { x with streams := List.replicate 32 none }) s

def State.domReformGo (s : State) (id : Nat) : State :=
  let s := if s.dom.downDue then s.downSteps else s
  let lost := (List.range 16).foldl (fun a b => if (s.bank b).lost then a + 2 ^ b else a) 0
  let s := s.endTrackers
  let s := (List.range 16).foldl (fun s b => s.setBank b { s.bank b with store := [], dc := [], recalls := [], lost := false }) s
  let s := if s.mgt.thawed.isEmpty then s
    else
      let s := s.zmapThawed.foldl (fun s z => s.zmapLost z) s.poolInit
      { s with mgt := { s.mgt with thawed := [] } }
  let s := s.reformClear
  ({ s with dom := { s.dom with nack := false, st := 1, gotJoin := [], gotReady := [], sentReady := false, joining := false,
                                notice := none } } : State).cmdEnd id stOK (leBytes 2 lost)

/-! ### Page-code regions (R394–R396) -/

/-- PAGE_CODE_ENABLE (R396): EN is an RWL field. -/
def execPageCodeEnable (link r : Nat) (s : State) : Host.Outcome State Fault Refusal :=
  .next (if s.linkOn link && s.rwlOpen && r < s.part.pgcRegions then
    let s := s.csrPut (offRas (0x100 + 16 * r)) (setFld (s.csrGet (offRas (0x100 + 16 * r))) 63 1 1)
    { s with ras := { s.ras with pgcInit := Tab.put false s.ras.pgcInit r true } }
    else s)

/-- The parity slot of an unwritten page is zero. -/
def State.pgcZero (s : State) (r page : Nat) : State :=
  s.pgcPut r page (List.replicate (4 * s.pgcT r) 0)

/-- PAGE_CODE_INIT_DONE (R396). -/
def execPageCodeInitDone (r : Nat) (s : State) : Host.Outcome State Fault Refusal :=
  .next (if s.powered && r < s.part.pgcRegions && Tab.get false s.ras.pgcInit r then
    let first := s.pgcBase r / 4096
    let s := s.noFinds fun s => (List.range (s.pgcSize r / 4096)).foldl (fun s k =>
      if s.zmapOn && !Tab.get false s.mem.zmap (first + k) then s.pgcZero r (first + k) else s.pgcParity r (first + k)) s
    { s with ras := { s.ras with pgcInit := Tab.put false s.ras.pgcInit r false } }
    else s)

/-! ### Injection (R399) -/

/-- A write of RAS_FLIP_CTL: the fields take effect; ARM is set only while INJ_EN is 1. -/
def State.flipCtl (s : State) (v : Word) : State :=
  let s := s.csrPut (offRas 0x10) (v &&& 0x00FF003F000007FF#64)
  if fbit v 63 && s.injEn then { s with ras := { s.ras with arm := true, flipAt := none } } else s
/-- ARM. -/
def execArm (link : Nat) (v : Word) (s : State) : Host.Outcome State Fault Refusal :=
  .next (if s.linkOn link then s.flipCtl v else s)

/-! ### Leaky buckets (R398) -/

/-- A firing subtracts `k` from every LEVEL. -/
def State.leak (s : State) (k : Nat) : State :=
  { s with ras := { s.ras with bkt := s.ras.bkt.foldl (fun t (u, b) =>
    let lv := b.level - k
    Tab.put {} t u { b with level := lv, told := b.told && s.bktLimit u / 2 < lv }) s.ras.bkt } }
/-- The end of a clock: its firings follow the additions of the same clock. -/
def State.leakClock (s : State) : State := s.ras.leaks.foldl (fun s k => s.leak k) { s with ras := { s.ras with leaks := [] } }

/-- LEAKY_BUCKET_LEAK: a firing subtracts ARG[7:0] from every LEVEL, at the end of its clock. -/
def execLeakyBucketLeak (entry : Nat) (s : State) : Host.Outcome State Fault Refusal :=
  .next (match s.fire entry 7 with
    | none => s
    | some s =>
      { s with ras := { s.ras with leaks := s.ras.leaks ++ [schArg (s.sch entry) % 256] } })

/-! ### The ledger (R408, R409, Table 15.5) -/

/-- A record's 32 bytes. -/
def recBytes (r : LRec) : List Byte :=
  leBytes 8 r.mt ++ leBytes 2 r.typ ++ leBytes 1 r.sev ++ leBytes 1 ((if r.inj then 1 else 0) + (if r.unlocked then 2 else 0))
    ++ leBytes 2 r.u ++ leBytes 2 r.node ++ leBytes 8 r.addr ++ leBytes 8 r.detail

def ledgerReadCheck (count : BitVec 16) : Nat := if 1 ≤ count.toNat && count.toNat ≤ 128 then stOK else stBadParam
def State.ledgerReadGo (s : State) (id : Nat) (first count : BitVec 16) : State :=
  s.cmdEnd id stOK (((s.ras.ring.drop first.toNat).take count.toNat).flatMap fun x => recBytes x.2)
def State.ledgerClearGo (s : State) (id : Nat) : State :=
  let n := s.ras.ring.length
  ({ s with ras := { s.ras with ring := [] } } : State).cmdEnd id stOK (leBytes 4 n)

/-- The ledger enters service: the held records are written in event order, before any later one (R499). -/
def State.ledgerOpen (s : State) : State :=
  if s.ras.inService then s
  else
    let p := s.ras.pend
    p.foldl (fun s r => s.ringPut r)
      { s with ras := { s.ras with inService := true, pend := [], lost := satAdd 0xFFFF s.ras.lost s.ras.pendLost, pendLost := 0 } }

end Sys2Proof.Machine
end

