-- ==== Sys2Proof/Machine/Maint.lean ====
section
/-! DEFINITION. Cache maintenance: range operations, partition changes, cache modes and UNRETIRE (chapter 4). -/

namespace Sys2Proof.Machine

/-! ### One line (Table 4.3) -/

/-- A request that maintenance makes for a line: the ZERO of R105, or the fetch of LOCK. -/
def State.maintReq (s : State) (la : Nat) (wr : Bool) : Req :=
  { src := .maint, kind := if wr then .write else .read, la := la, be := if wr then fullMask else 0, glob := wr && s.classOf la == .other }

/-- A request of maintenance for the line waits at the slice. -/
def State.maintWaits (s : State) (n la : Nat) : Bool := (s.slice n).inq.any fun r => r.src == .maint && r.la == la

/-- Evict a way for maintenance, counting its line, lock and dirty data; none while it must wait. -/
def State.maintEvict (s : State) (n set w : Nat) : Option State :=
  let e := (s.tags n set).get w
  (s.evictWay n set w).map fun s => s.modRange fun x =>
    { x with affected := x.affected + 1, lost := if e.lock then x.lost + 1 else x.lost,
             dirty := if e.st == stM || e.st == stO || e.st == stP then x.dirty + 1 else x.dirty }

/-- Drop a way's line with its data. -/
def State.maintDrop (s : State) (n set w : Nat) : State :=
  let e := (s.tags n set).get w
  (s.dropLine n (lineOf s.part set e.tag) w false).modRange fun x =>
    { x with affected := x.affected + 1, lost := if e.lock then x.lost + 1 else x.lost }

def State.rangeAffected (s : State) : State := s.modRange fun x => { x with affected := x.affected + 1 }
def State.rangeRefused (s : State) : State := s.modRange fun x => { x with refused := x.refused + 1 }
def State.rangePoison (s : State) : State := s.modRange fun x => { x with poison := x.poison + 1 }

/-- CLEAN writes a local dirty line to far memory (Table 4.3); a line found uncorrectable stays, in P (R65). -/
def State.cleanWay (s : State) (n set w : Nat) (e : TagEnt) (here : Bool) : State :=
  let la := lineOf s.part set e.tag
  let (x, s) := s.readWay n set w here
  if x == .ue then (s.ueData n (s.injNear n set w) (64 * la) w).setLineState n la w stP
  else
    let d := s.wayGet set w
    (s.farWriteLine (laLocal la) d.1 d.2).setLineState n la w (if e.st == stM then stE else stS)

/-- Apply operation `op` to the line that way `w` holds; none while it must wait (R105, R106) (DEDUCED, unsafe:
notes/assumptions/60.md). `here`: its data has been read with the tags (R55). -/
def State.visitWay (s : State) (n set w op : Nat) (hosts keep here : Bool) : Option State :=
  let e := (s.tags n set).get w
  let la := lineOf s.part set e.tag
  let cls := s.classOf la
  if s.busyLine n la || s.maintWaits n la then none
  else if hosts && !s.noHosts la then none
  else
    let s := if e.st == stP then s.rangePoison else s
    if op == 0 then
      if e.st != stM && e.st != stO then some s
      else if cls == .loc then
        let s := s.cleanWay n set w e here
        some (if ((s.tags n set).get w).st == stP then s.rangePoison else s.rangeAffected)
      else s.maintEvict n set w
    else if op == 1 || (op == 3 && cls == .domRemote) then (if keep && e.lock then some s else s.maintEvict n set w)
    else if op == 2 then some ((s.toSlice n (s.maintReq la true)).rangeAffected)
    else if op == 3 then (if keep && e.lock then some s else some (s.maintDrop n set w))
    else if op == 4 then some (s.lockLine n la)
    else if cls == .other then some s
    else if e.lock then some ((s.putEnt n set w { e with lock := false }).rangeAffected)
    else some s

/-- With HOSTS, recall the host copies of a line first; under DISCARD their dirty data is dropped. -/
def State.visitHosts (s : State) (la op : Nat) (hosts : Bool) : State :=
  if hosts && !s.noHosts la then s.recallAll la (if op == 3 then .drop else .maint) else s

/-- A slice's visit to one line of a range: whether it is done, and the state (R105, R106). A visit to a victim-buffer entry leaves the
eviction to finish; ZERO waits for it, and LOCK, which fetches the line afterwards (DEDUCED, safe: notes/assumptions/104.md). LOCK of an absent line while
MODE is BYPASS, where nothing may be installed, fetches nothing and counts in LOCKS_REFUSED (DESIGN CHOICE, unsafe:
notes/assumptions/120.md). -/
def State.visitLine (s : State) (n la : Nat) (r : RangeSt) : Bool × State :=
  let set := setOf s.part la
  if s.tagWaits n set then (false, s.event n 0x14 1)
  else
  let (g, s) := s.touchLine 7 la
  if s.busyLine n la || s.maintWaits n la then (false, s)
  else if (s.slice n).vbs.any fun v => v.la == la then
    let s := s.visitHosts la r.op r.hosts
    (r.op != 2 && r.op != 4 && (!r.hosts || s.noHosts la), s)
  else match s.findLine la with
  | some (w, _) =>
    let s := s.visitHosts la r.op r.hosts
    match s.visitWay n set w r.op r.hosts r.keep (g == w) with
    | some s => (true, s)
    | none => (false, s)
  | none =>
    if r.op == 2 then (true, (s.toSlice n (s.maintReq la true)).rangeAffected)
    else if r.op == 4 then
      if s.classOf la == .other || s.mode != 0 then (true, s.rangeRefused)
      else (true, s.toSlice n (s.maintReq la false))
    else (true, s)

/-- The ways of the set that slice `n` visits that are done. -/
def RangeSt.wayDone (r : RangeSt) (n w : Nat) : Bool := (Tab.get 0 r.ways n).testBit w
def RangeSt.markWay (r : RangeSt) (n w : Nat) : RangeSt :=
  if r.wayDone n w then r else { r with ways := Tab.put 0 r.ways n (Tab.get 0 r.ways n + 2 ^ w) }

/-- A visit to every valid cache-way entry of a set, each entry once (R105, R106): whether all are done, and the state. -/
def State.visitSet (s : State) (n set op : Nat) (hosts keep : Bool) : Bool × State :=
  match s.touchSet n set with
  | none => (false, s.event n 0x14 1)
  | some s =>
  (List.range 14).foldl (fun (ok, s) i =>
    let e := (s.tags n set).get (i + 1)
    if (s.mgt.range.any fun r => r.wayDone n (i + 1)) || !s.cacheWay (i + 1) || !s.valid e then (ok, s)
    else
      let s := s.visitHosts (lineOf s.part set e.tag) op hosts
      match s.visitWay n set (i + 1) op hosts keep false with
      | some s => (ok, s.modRange fun r => r.markWay n (i + 1))
      | none => (false, s)) (true, s)

/-! ### Partition sweeps (R100, R101) -/

/-- Give back to R79 a set whose remaining ways 1 to `c` are all locked or X (R100 step 4). -/
def State.restoreSet (s : State) (n set c : Nat) : State :=
  let b := s.tags n set
  let ws := (List.range c).map (· + 1)
  if ws.any fun w => !(b.get w).lock && (b.get w).st != stX then s
  else match ws.reverse.find? fun w => (b.get w).lock with
    | some w => (s.putEnt n set w { b.get w with lock := false }).modRange fun x => { x with lost := x.lost + 1 }
    | none =>
      let r := s.setRec set
      let s := (s.putEnt n set 1 {}).putRec n set { r with retire := r.retire &&& ~~~1#14, ce := r.ce.set 0 0 }
      (s.rec_ 0x05 n 0xFFFF set (set * 16 + 1)).modRange fun x => { x with restored := x.restored + 1 }

/-- Convert the ways of one set to flat ways up to `f` of them: whether all could go, and the state (R100). -/
def State.raiseSet (s : State) (n set f : Nat) : Bool × State :=
  match s.touchSet n set with
  | none => (false, s.event n 0x14 1)
  | some s =>
  let h := s.houseWays
  let lo := 14 - h - f + 1
  let ws := (List.range 15).filter fun w => lo ≤ w && w ≤ 14 - h - s.flatWays
  let (ok, s) := ws.foldl (fun (ok, s) w =>
    let e := (s.tags n set).get w
    if !s.valid e then (ok, s)
    else if s.busyLine n (lineOf s.part set e.tag) then (false, s)
    else match s.maintEvict n set w with
      | some s => (ok, s)
      | none => (false, s)) (true, s)
  if !ok then (false, s)
  else
    let s := ws.foldl (fun s w =>
      let e := (s.tags n set).get w
      let s := if e.st == stX then s.modRange fun x => { x with retired := x.retired + 1 } else s
      (s.putEnt n set w {}).wayPut n set w 0 false) s
    (true, s.restoreSet n set (lo - 1))

/-- Write I in the ways of one set that go back to the cache, which keep `f` flat ways (R101 step 4). -/
def State.lowerSet (s : State) (n set f : Nat) : Bool × State :=
  match s.touchSet n set with
  | none => (false, s.event n 0x14 1)
  | some s =>
    (true, ((List.range 15).filter fun w => s.cacheWays < w && w ≤ 14 - s.houseWays - f).foldl (fun s w => s.putEnt n set w {}) s)

/-- The retired ones among the ways from `lo` to `hi` become X as they become cache ways, which no flat way's entry is (R37, R101 step 4). -/
def State.retiredBack (s : State) (lo hi : Nat) : State :=
  s.mem.recs.foldl (fun s (set, r) =>
    ((List.range 15).filter fun w => lo ≤ w && w ≤ hi && r.retire.getLsbD (w - 1)).foldl (fun s w =>
      s.putEnt (sliceOfSet s.part set) set w { st := stX }) s) s

/-- Every accepted access to flat lines at and beyond `f` flat ways has completed (R101 step 2). -/
def State.flatQuiet (s : State) (f : Nat) : Bool :=
  let lim := 9 * f * 2 ^ s.part.setLowBits
  !(s.hreqs.any fun h => h.win == .flat && lim ≤ h.la)
    && (List.range 64).all fun n => !((s.slice n).inq.any fun r => r.flat && lim ≤ r.la)

/-- The host copies of those lines are back-invalidated, and dirty data that comes back is dropped (R101 step 3); whether none is left. -/
def State.flatRecall (s : State) (f : Nat) : Bool × State :=
  let lim := 9 * f * 2 ^ s.part.setLowBits
  let s := s.hsf.foldl (fun s e => if e.flat && lim ≤ e.key then s.recall e.key true true (fun _ => true) .drop else s) s
  (!(s.hsf.any fun e => e.flat && lim ≤ e.key) && !(s.bisnps.any fun b => b.flat && lim ≤ b.key), s)

/-! ### The walk of a slice (R106) -/

/-- Rows of a slice, or blocks of 64 lines of the range, that a slice visits. -/
def State.rangeSize (s : State) (r : RangeSt) : Nat :=
  if r.whole || 6 ≤ r.op then 9 * 2 ^ (s.part.setLowBits - 6) else (r.base + r.len - 1) / 4096 + 1 - r.base / 4096

/-- Visit item `i` of slice `n`: whether it is done, and the state
(DESIGN CHOICE, unsafe: notes/assumptions/92.md). -/
def State.visit (s : State) (n i : Nat) (r : RangeSt) : Bool × State :=
  if r.op == 6 then s.raiseSet n (setOfRow s.part n i) r.arg
  else if r.op == 8 then
    (if !s.flatQuiet r.arg then (false, s)
     else
      let (ok, s) := s.flatRecall r.arg
      if ok then s.lowerSet n (setOfRow s.part n i) r.arg else (false, s))
  else if r.whole || r.op == 7 then s.visitSet n (setOfRow s.part n i) (if r.op == 7 then 1 else r.op) r.hosts r.keep
  else
    let la := pageLine n (r.base / 4096 + i)
    if r.base ≤ 64 * la && 64 * la < r.base + r.len then s.visitLine n la r else (true, s)

/-- Every slice has finished. -/
def State.rangeDone (s : State) (r : RangeSt) : Bool := (List.range 64).all fun n => s.rangeSize r ≤ Tab.get 0 r.ptr n

/-- Payload of a partition change: LINES_EVICTED, LOCKS_LOST, RETIRED_SLOTS, WAYS_RESTORED (DEDUCED, safe: notes/assumptions/51.md). -/
def partBytes (r : RangeSt) : List Byte := leBytes 4 r.affected ++ leBytes 4 r.lost ++ leBytes 4 r.retired ++ leBytes 4 r.restored

/-- A partition change ends: the new partition is in force and the command replies (R100). -/
def State.partEnd (s : State) : State :=
  match s.mgt.range with
  | none => s
  | some r =>
    if !(r.op == 6 || r.op == 8) || !s.rangeDone r then s
    else
      let h := s.houseWays
      let s := if r.op == 8 then s.retiredBack (s.cacheWays + 1) (14 - h - r.arg) else s
      ({ s with glbPart := Tmr.of (partWord r.arg h (14 - h - r.arg)), mgt := { s.mgt with range := none, moving := false } } : State).cmdEnd
        r.runId stOK (partBytes r)

/-- Slice `n` visits its next line or set (R106). -/
def State.maintLookup (s : State) (n : Nat) : State :=
  match s.mgt.range with
    | none => s
    | some r =>
      let i := Tab.get 0 r.ptr n
      if !s.sliceOn n || s.nearFrozen n || s.rangeSize r ≤ i then s
      else
        let (ok, s) := s.visit n i r
        if ok then (s.modRange fun x => { x with ptr := Tab.put 0 x.ptr n (i + 1), ways := Tab.put 0 x.ways n 0 }).partEnd else s

/-- MAINTENANCE_LOOKUP (R106). -/
def execMaintenanceLookup (n : Nat) (fd : Finds) (s : State) : Host.Outcome State Fault Refusal :=
  .next (s.finding fd fun s => s.maintLookup n)

/-! ### The commands (R113) -/

/-- PART_SET_FLAT (R95, R100, R101): with its start a lowered F bounds the flat window (State.flatOpen); GLB_PART changes at the end. -/
def State.partSetFlatCheck (s : State) (f : BitVec 8) : Nat :=
  if f.toNat ≤ 10 && s.houseWays + f.toNat ≤ 12 && s.layoutKnown then stOK else stRefused
def State.partSetFlatGo (s : State) (id : Nat) (f : BitVec 8) : State :=
  let f' := f.toNat
  let f0 := s.flatWays
  if f' == f0 then s.cmdEnd id stOK (leBytes 16 0)
  else { s with mgt := { s.mgt with moving := true, range := some { runId := id, op := if f0 < f' then 6 else 8, arg := f' } } }

/-- CACHE_MODE (R108). -/
def State.cacheModeCheck (s : State) (m : BitVec 8) : Nat :=
  if 3 ≤ m.toNat then stBadParam
  else if !s.layoutKnown then stRefused
  else if m == 2 && !(s.others.isEmpty || s.dom.st == 3) then stRefused
  else stOK
/-- The check has refused a mode above 2. -/
def State.cacheModeGo (s : State) (id : Nat) (m : BitVec 8) : State :=
  if m == 1 && s.mode != 1 then
    { s with mgt := { s.mgt with transition := true, range := some { runId := id, op := 7, whole := true, hosts := true } } }
  else ({ s with mode := min 2 m.toNat } : State).cmdEnd id stOK (leBytes 8 0)

/-- RANGE_OP (R105). -/
def rangeOpCheck (op flags : BitVec 8) (base len : Word) : Nat :=
  let fits := base.toNat % 64 == 0 && len.toNat % 64 == 0 && 64 ≤ len.toNat && len.toNat ≤ 2 ^ 42 && base.toNat < 2 ^ 57
  if op.toNat ≤ 5 && flags.toNat ≤ 7 && (flags.getLsbD 0 || fits) then stOK else stBadParam
def State.rangeOpGo (s : State) (id : Nat) (op flags : BitVec 8) (base len : Word) : State :=
  { s with mgt := { s.mgt with range := some { runId := id, op := op.toNat, whole := flags.getLsbD 0, hosts := flags.getLsbD 1,
                                               keep := flags.getLsbD 2, base := base.toNat, len := len.toNat } } }

/-- What a range operation started is over: no request of maintenance is open, and every write-back of its lines has been
accepted or acknowledged (R107). -/
def State.rangeQuiet (s : State) (r : RangeSt) : Bool :=
  let mine (la : Nat) : Bool := r.whole || (r.base ≤ 64 * la && 64 * la < r.base + r.len)
  (List.range 64).all fun n =>
    let x := s.slice n
    !(x.inq.any fun q => q.src == .maint) && !(x.mrs.any fun m => (m.prim :: m.secs).any fun q => q.src == .maint)
      && !(x.outw.any fun o => o.src == .maint) && !(x.vbs.any fun v => mine v.la)
      && !((List.range 8).any fun k => (List.range 2).any fun u =>
        (s.cunit (64 + k) u).hold.any fun q => q.wr && mine (mkLa s.nodeNo q.addr))

/-- The cache ways hold no valid line. -/
def State.cacheEmpty (s : State) : Bool :=
  s.mem.tags.all fun (set, _) =>
    (List.range 14).all fun i => !(s.cacheWay (i + 1) && s.valid ((s.tags (sliceOfSet s.part set) set).get (i + 1)))

/-- RANGE_OP_COMPLETE (R107); with it the entry into BYPASS completes, after another pass where a line has come in behind the
first (R108). -/
def execRangeOpComplete (s : State) : Host.Outcome State Fault Refusal :=
  .next (match s.mgt.range with
    | none => s
    | some r =>
      if !s.powered || r.op == 6 || r.op == 8 || !s.rangeDone r || !s.rangeQuiet r then s
      else if r.op == 7 then
        if s.cacheEmpty then
          ({ s with mode := 1, mgt := { s.mgt with range := none, transition := false } } : State).cmdEnd r.runId stOK
            (leBytes 4 r.affected ++ leBytes 4 r.dirty)
        else s.modRange fun x => { x with ptr := [], ways := [] }
      else ({ s with mgt := { s.mgt with range := none } } : State).cmdEnd r.runId stOK
        (leBytes 4 r.affected ++ leBytes 4 r.refused ++ leBytes 4 r.lost ++ leBytes 4 r.poison))

/-- UNRETIRE (R112): all-ones names every slice or every set, way 0 every way (DEDUCED, unsafe: notes/assumptions/81.md). -/
def State.unretireCheck (s : State) (slice : BitVec 8) (set : BitVec 32) (way : BitVec 8) : Nat :=
  if 64 ≤ slice.toNat && slice != 0xFF then stInvalidInstance
  else if (set.toNat < s.part.sets || set == 0xFFFFFFFF) && way.toNat ≤ 14 then stOK else stBadParam
def State.unretireGo (s : State) (id : Nat) (slice : BitVec 8) (set : BitVec 32) (way : BitVec 8) : State :=
  let (k, s) := s.mem.tags.foldl (fun (k, s) (i, _) =>
    let n := sliceOfSet s.part i
    if s.nearFrozen n || !((slice == 0xFF || slice.toNat == n) && (set == 0xFFFFFFFF || set.toNat == i)) then (k, s)
    else (List.range 14).foldl (fun (k, s) j =>
      let w := j + 1
      if (way == 0 || way.toNat == w) && ((s.tags n i).get w).st == stX then
        let r := s.setRec i
        (k + 1, (s.putEnt n i w {}).putRec n i { r with retire := r.retire &&& ~~~(BitVec.ofNat 14 (2 ^ j)), ce := r.ce.set j 0 })
      else (k, s)) (k, s.touch n i none)) (0, s)
  s.cmdEnd id stOK (leBytes 4 k)

end Sys2Proof.Machine
end

