-- ==== Sys2Proof/Machine/RegView.lean ====
section
/-! DEFINITION. What every register of the window reads as (R463, R465, R469–R472 and the register tables of each chapter). An offset
that no table defines, or that lies in an absent instance, reads zero. -/

namespace Sys2Proof.Machine

/-- A register from its fields: low bit, width, value. -/
def pk (fs : List (Nat × Nat × Nat)) : Word := BitVec.ofNat 64 (fs.foldl (fun a f => a + f.2.2 % 2 ^ f.2.1 * 2 ^ f.1) 0)

/-- One bit as a number. -/
def b2n (b : Bool) : Nat := if b then 1 else 0

/-! ### Global registers (Tables 19.4–19.8, 16.7, 16.8, 4.1, 4.2, 4.4) -/

/-- FROZEN of the channels from `c`, `n` of them, bit by bit. -/
def State.frozenBits (s : State) (c n : Nat) : Nat :=
  (List.range n).foldl (fun a k => a + b2n (s.chan (c + k)).frozen * 2 ^ k) 0

/-- GLB_BOOT (Table 16.7). -/
def State.glbBoot (s : State) : Word :=
  pk [(32, 32, s.boot.fwVersion.toNat), (24, 8, s.boot.stopUnit), (16, 8, s.boot.stopCause), (12, 4, s.boot.step),
      (11, 1, b2n s.boot.fwFallback), (10, 1, b2n s.boot.fwSlot), (9, 1, b2n s.boot.fwRom), (8, 1, b2n s.boot.nodeSet),
      (6, 2, s.boot.lastReset), (4, 2, s.devState), (0, 2, s.boot.level)]

/-- GLB_PART (Table 4.1). -/
def State.glbPartReg (s : State) : Word := pk [(16, 1, b2n s.mgt.moving), (0, 16, s.glbPart.val.toNat)]

/-- GLB_CACHE (Table 4.4). -/
def State.glbCache (s : State) : Word := pk [(16, 16, s.retireThresh), (2, 1, b2n s.mgt.transition), (0, 2, s.mode)]

/-- RAS_LDG (Table 15.7): HEAD is the slot that the next record takes, or, while BLOCKED, that of the oldest record. -/
def State.rasLdg (s : State) : Word :=
  let n := s.ras.ring.length
  let full := decide (4096 ≤ n)
  let next := if full then (ringTake s.ras.ring).map (·.1) else some n
  let head := next.getD ((s.ras.ring.head?.map (·.1)).getD 0)
  pk [(48, 16, s.ras.lost), (32, 12, min 4095 n), (31, 1, b2n full), (30, 1, b2n next.isNone), (0, 12, head)]

/-- MTU_STS (Table 8.9). -/
def State.mtuSts (s : State) : Word :=
  pk [(48, 16, s.mtu.lockLosses), (32, 16, s.mtu.deferred), (31, 1, b2n s.mtu.schErr), (25, 6, s.mtu.schErrEntry), (16, 2, s.mtu.guard),
      (10, 1, b2n (s.locked && !s.inPause)), (9, 1, b2n s.mtu.ahead), (8, 1, b2n s.mtu.stepped), (5, 1, b2n s.mtu.inLull),
      (4, 1, b2n s.mtu.inGuard), (0, 3, s.mtu.lock)]

/-- RTR_DOM (Table 12.14). -/
def State.rtrDom (s : State) : Word := pk [(56, 8, s.tableDomain), (48, 2, s.dom.st), (0, 32, s.dom.digest.toNat)]

/-- GLB_STS (Table 19.7). -/
def State.glbSts (s : State) : Word :=
  pk [(56, 8, s.frozenBits 64 8), (40, 8, ((List.range s.part.nmcs).filter fun n => (s.chan n).frozen).length),
      (32, 8, ((List.range s.part.porters).filter fun p => (s.por p).halted).length), (11, 1, b2n s.pcr.thermWarn),
      (10, 1, b2n (decide (4096 ≤ s.ras.ring.length))), (8, 2, s.dom.st),
      (7, 1, b2n (s.devState == 1 && s.boot.level == 3 && s.locked && !s.inPause)), (6, 1, b2n s.locked), (4, 2, s.devState),
      (0, 2, s.boot.level)]

def State.readGlb (s : State) (r : Nat) : Word :=
  if r == 0x00 then
    pk [(48, 16, Config.vendorId.toNat), (40, 8, match s.part with | .f144 => 1 | .s72 => 2), (32, 8, Config.stepping.toNat),
        (24, 8, s.part.hostPorts), (16, 8, s.part.fabricPorts), (8, 8, s.part.porters), (4, 4, s.part.pgcRegions), (0, 4, s.part.stacks)]
  else if r == 0x08 then pk [(63, 1, b2n s.boot.nodeSet), (0, 15, s.nodeNo)]
  else if r == 0x10 then Config.uniqueId
  else if r == 0x18 then
    pk [(48, 16, s.winSize 0 0 / 2 ^ 28), (32, 16, s.winSize 0 1 / 2 ^ 28), (12, 10, if s.dom.st == 0 then 0 else s.winSize 0 2 / 2 ^ 40)]
  else if r == 0x20 then s.glbSts
  else if r == 0x28 then pk [(0, 6, s.irq.toNat)]
  else if r == 0x100 then s.glbBoot
  else if r == 0x108 then pk [(0, 2, s.boot.stopAt.toNat)]
  else if r == 0x200 then s.glbPartReg
  else if r == 0x208 then pk [(0, 33, s.glbHouse.val.toNat)]
  else if r == 0x210 then s.glbCache
  else 0

/-! ### MTU, RAS, FNC, LSE, PCR -/

/-- Beat of the next lull start, or of the lull in progress (Table 8.11); zero while VALID is 0 and no lull is in progress. -/
def State.nextLull (s : State) : Nat :=
  if s.inPause then s.mtu.lullBeat
  else match s.schOf 1 with
  | none => 0
  | some v =>
    let m := max (s.beat + 1) s.mtu.resumeBeat
    m + (schPeriod v - schSince v m) % schPeriod v

def State.readMtu (s : State) (r : Nat) : Word :=
  if r == 0x00 then s.mtuSts
  else if r == 0x08 then s.csrGet (offMtu 8)
  else if r == 0x10 then BitVec.ofNat 64 s.mtu.mt
  else if r == 0x18 then pk [(32, 8, s.mtu.stratum), (0, 16, (BitVec.ofInt 16 s.mtu.ofs).toNat)]
  else if r == 0x20 then
    (let on := s.locked && (s.schOf 1).isSome
     pk [(63, 1, b2n on), (0, 54, if on || s.mtu.inLull then s.nextLull else 0)])
  else if 0x1000 ≤ r && r < 0x1400 then
    (let v := (s.schReg ((r - 0x1000) / 16)).toNat
     if r % 16 == 0 then BitVec.ofNat 64 v else BitVec.ofNat 64 (v / 2 ^ 64))
  else 0

def State.readRas (s : State) (r : Nat) : Word :=
  if r == 0x08 then s.rasLdg
  else if r == 0x10 then s.csrGet (offRas 0x10) ||| pk [(63, 1, b2n s.ras.arm)]
  else if r == 0x20 then s.ras.flipAdr
  else if r == 0x00 || r == 0x18 then s.csrGet (offRas r)
  else if 0x100 ≤ r && r < 0x100 + 16 * s.part.pgcRegions then
    s.csrGet (offRas r) ||| (if r % 16 == 0 then pk [(62, 1, b2n (Tab.get false s.ras.pgcInit ((r - 0x100) / 16)))] else 0)
  else if 0x1000 ≤ r && r < 0x1000 + 8 * 217 then
    (let b := Tab.get {} s.ras.bkt ((r - 0x1000) / 8)
     s.csrGet (offRas r) ||| pk [(32, 1, b2n b.ovf), (0, 16, b.level)])
  else 0

def State.readFnc (s : State) (r : Nat) : Word :=
  if 0x1000 ≤ r && r < 0x1028 then s.csrGet (offFnc r)
  else if r == 0x1028 then
    pk [(56, 8, s.fnc.dom.gen), (47, 5, s.fnc.domKids.length), (32, 15, s.fnc.domRoot), (16, 15, s.fnc.domParent), (0, 7, s.fnc.domRank)]
  else if r == 0x1030 then
    pk [(48, 16, s.fnc.discarded), (40, 8, s.fnc.sys.gen), (33, 1, b2n s.fnc.sys.sent), (32, 1, b2n s.fnc.dom.sent),
        (16, 7, (s.fnc.fences.filter fun f => f.ph != .port).length), (8, 5, s.fnc.sys.counted.length), (0, 5, s.fnc.dom.counted.length)]
  else if r == 0x1038 then pk [(32, 32, s.fnc.completed), (16, 16, s.fnc.deadlines)]
  else 0

def State.readLse (s : State) (r : Nat) : Word :=
  if r == 0 then s.csrGet 0x50000
  else if r == 8 then
    pk [(32, 32, s.lse.advances.toNat), (3, 1, b2n s.locked), (2, 1, b2n (s.lse.steps.contains true || s.lse.running == some true)),
        (0, 2, s.lse.epoch.toNat)]
  else 0

/-- Sensors present (R484, R489). -/
def hasSensor (p : Part) (k : Nat) : Bool := k < 16 + p.stacks

/-- The sensor with the highest last sample, the lowest number among equals. -/
def State.hottest (s : State) : Option (Nat × Int) :=
  (List.range 20).foldl (fun a k =>
    let t := Tab.get {} s.pcr.temps k
    if !t.valid then a
    else match a with
      | some (_, m) => if m < t.t.toInt then some (k, t.t.toInt) else a
      | none => some (k, t.t.toInt)) none

def State.readPcr (s : State) (r : Nat) : Word :=
  if r == 0 then s.csrGet 0x70000
  else if r == 8 then
    (let h := s.hottest
     pk [(56, 8, 105), (32, 8, s.pcr.railFault.toNat), (31, 1, b2n s.pcr.tripped), (16, 5, (h.map (·.1)).getD 0),
         (0, 16, (BitVec.ofInt 16 ((h.map (·.2)).getD 0)).toNat)])
  else if 0x100 ≤ r && r < 0x100 + 8 * 20 then
    (let t := Tab.get {} s.pcr.temps ((r - 0x100) / 8)
     pk [(32, 16, t.max.toNat), (16, 1, b2n t.valid), (0, 16, t.t.toNat)])
  else 0

/-! ### Counters and trace (Tables 18.2, 18.6) -/

/-- CYCLES (R444). -/
def State.cycles (s : State) : Nat := (s.clk - s.cyc0) % 2 ^ 64

def Cnt.cfg (c : Cnt) : Word :=
  pk [(48, 16, c.evsel.toNat), (4, 1, b2n c.routing), (3, 1, b2n c.ovf), (2, 1, b2n c.chain), (1, 1, b2n c.edge), (0, 1, b2n c.en)]

def State.readTly (s : State) (u r : Nat) : Word :=
  let t := s.tly u
  if r == 0 then BitVec.ofNat 64 s.cycles
  else if 0x10 ≤ r && r < 0x50 then (Tab.get {} t.cnt ((r - 0x10) / 8)).cfg
  else if 0x50 ≤ r && r < 0x90 then BitVec.ofNat 64 (Tab.get {} t.cnt ((r - 0x50) / 8)).count
  else if r == 0x90 then pk [(32, 32, t.seq.toNat)]
  else if r == 0x98 then BitVec.ofNat 64 t.snapMt
  else if r == 0xA0 then BitVec.ofNat 64 t.snapCyc
  else if 0xA8 ≤ r && r < 0xE8 then BitVec.ofNat 64 (Tab.get 0 t.snap ((r - 0xA8) / 8))
  else 0

/-- TRC_STS. -/
def State.trcSts (s : State) : Word :=
  pk [(48, 16, s.trc.dropped), (32, 16, s.trc.wraps), (31, 1, b2n s.trc.triggered), (30, 1, b2n s.trc.full), (0, 17, s.trc.next)]

def State.readTrc (s : State) (r : Nat) : Word :=
  if r ≤ 0x18 || r == 0x28 then s.csrGet (offTrc r)
  else if r == 0x20 then s.trcSts
  else if 0x1000 ≤ r && r < 0x2000 && !fbit s.trcCfg 63 then
    (let k := (r - 0x1000) / 32
     BitVec.ofNat 64 ((Tab.get 0 s.trc.buf ((fld (s.csrGet (offTrc 0x28)) 0 17 + k) % 131072)).toNat / 2 ^ (8 * (r % 32))))
  else 0

/-! ### Host ports (Tables 6.5–6.9, 7.8, 7.9, 9.9; R169) -/

/-- LINK0 and LINK1 of HPT[n]_STS. -/
def HLink.sts (x : HLink) : Nat :=
  b2n x.up * 2 ^ 15 + x.rate % 8 * 2 ^ 12 + x.width % 32 * 2 ^ 7 + b2n x.ide * 2 ^ 6 + b2n x.resetting * 2 ^ 5 + b2n x.flitLo * 2 ^ 4

/-- A sum over the two halves of a port, each saturating at `m`. -/
def State.halvesSum (s : State) (n m : Nat) (f : HLink → Nat) : Nat := satAdd m (f (s.link (2 * n))) (f (s.link (2 * n + 1)))

/-- Some early-acknowledged write of link `l` lacks its ACK. -/
def State.earlyOut (s : State) (l : Nat) : Bool :=
  (List.range 64).any fun n => (s.slice n).outw.any fun o => o.early && (match o.src with | .pwb k _ => k == l | .host _ => o.link == l | _ => false)

/-- Entry of link `l` to L1 or L2 is deferred; entry of the device to a low-power state is while it is for any link (R209, Table 7.7). -/
def State.sleepDeferred (s : State) (l : Nat) : Bool := !((s.link l).pwb.isEmpty && !s.earlyOut l)

/-- Condition 2 of R160, and condition 3, hold credits back. -/
def State.gateHold (s : State) (n : Nat) : Bool := (List.range 64).any fun k => s.sliceGate n ≤ (s.slice k).demand
def State.lullHold (s : State) : Bool := if s.locked then s.inPause else s.mtu.inLull

def State.readPwb (s : State) (l : Nat) : Word :=
  let x := s.link l
  pk [(48, 16, x.pwbDiscarded), (40, 1, b2n (!s.sleepDeferred l)), (16, 9, x.pwbHwm), (0, 9, x.pwb.length)]

def State.readHpt (s : State) (n r : Nat) : Word :=
  if r == 0 then
    pk [(32, 1, b2n (s.bif (2 * n))), (16, 16, if s.bif (2 * n) then (s.link (2 * n + 1)).sts else 0), (0, 16, (s.link (2 * n)).sts)]
  else if r == 0x08 || r == 0x10 || r == 0x18 || r == 0x20 || r == 0x50 then s.csrGet (offHpt n r)
  else if r == 0x28 then
    pk [(41, 1, b2n s.lullHold), (40, 1, b2n (s.gateHold n)), (24, 6, s.halvesSum n 63 (·.lateWr)), (18, 6, s.halvesSum n 63 (·.lateRd)),
        (6, 6, s.halvesSum n 63 (·.rwdCr)), (0, 6, s.halvesSum n 63 (·.reqCr))]
  else if r == 0x30 then
    pk [(48, 16, s.halvesSum n 0xFFFF (·.overrun)), (32, 16, s.halvesSum n 0xFFFF (·.voided)), (16, 16, s.halvesSum n 0xFFFF (·.extended))]
  else if r == 0x40 then s.readPwb (2 * n)
  else if r == 0x48 then (if s.bif (2 * n) then s.readPwb (2 * n + 1) else pk [(40, 1, 1)])
  else if 0x8000 ≤ r && r < 0x18000 then
    (let h := (r - 0x8000) / 0x8000
     if s.linkExists (2 * n + h) then s.msixGet (msixKey (2 * n + h) ((r - 0x8000) % 0x8000 / 16) (r % 16 / 8)) else 0)
  else if 0x18000 ≤ r && r < 0x18200 then
    (let p := (s.link (2 * n + (r - 0x18000) / 0x100)).pba
     BitVec.ofNat 64 ((List.range 64).foldl (fun a i => a + b2n (p.contains (r % 0x100 * 8 + i)) * 2 ^ i) 0))
  else 0

/-! ### Fabric (Tables 12.6, 12.10–12.15) -/

def State.readFpt (s : State) (p r : Nat) : Word :=
  let x := s.port p
  if r == 0 then s.csrGet (offFpt p 0)
  else if r == 8 then
    pk [(63, 1, b2n x.peerValid), (48, 15, x.peerNode), (44, 4, x.peerPort), (32, 8, x.delay), (24, 8, x.downs), (16, 4, x.cause),
        (8, 4, x.width), (3, 1, b2n x.held), (0, 3, x.st)]
  else if r == 0x10 then pk [(32, 32, x.fecCorr.toNat), (16, 16, x.replays), (0, 16, x.crcFail)]
  else 0

def State.readRtr (s : State) (r : Nat) : Word :=
  if r == 0 || r == 8 then s.csrGet (offRtr r)
  else if r == 0x10 then s.rtrDom
  else if r == 0x18 then BitVec.ofNat 64 s.presence
  else if r == 0x20 then BitVec.ofNat 64 (s.presence / 2 ^ 64)
  else if r == 0x28 then pk [(48, 16, s.rtr.hopDiscard), (32, 16, s.rtr.routeFail), (16, 16, s.rtr.oseqGap), (0, 16, s.rtr.mgtRefused)]
  else 0

/-! ### Slices, channels, directory (Tables 2.9–2.11, 3.9–3.12, 10.7–10.10, 5.11, 5.12) -/

/-- SLC[n]. VALID_COUNT counts no entry whose block is still being read (DESIGN CHOICE, unsafe: notes/assumptions/94.md). -/
def State.readSlc (s : State) (n r : Nat) : Word :=
  let x := s.slice n
  if r == 0 then
    pk [(48, 8, n), (40, 8, nmcOf s.part n), (39, 1, match s.part with | .f144 => 0 | .s72 => n / 32), (32, 5, s.part.setLowBits), (28, 4, 14),
        (0, 24, s.part.sets / 64)]
  else if r == 8 then
    s.csrGet (offSlc n 8) ||| pk [(16, 16, (x.tc.filter fun e => e.2.any fun t => !t.pending).length), (3, 1, b2n x.tcBusy)]
  else if r == 0x10 || r == 0x100 || r == 0x108 then s.csrGet (offSlc n r)
  else if r == 0x110 then pk [(16, 7, x.mrHwm), (8, 7, (x.mrs.filter (·.isPf)).length), (0, 7, x.mrs.length)]
  else if r == 0x118 then pk [(16, 5, x.vbHwm), (8, 5, (x.vbs.filter fun v => !v.sent && v.action != 0 && !s.noHosts v.la).length), (0, 5, x.vbs.length)]
  else 0

def State.readCh (s : State) (c r : Nat) : Word :=
  let x := s.chan c
  let q := x.u0.q ++ x.u1.q
  if r == 0 then s.csrGet (offCh c 0) ||| pk [(2, 1, b2n (64 ≤ c && s.mem.pasrEn))]
  else if r == 8 then
    pk [(48, 16, x.nbr), (32, 16, x.inorder), (28, 4, x.retrainFails), (16, 8, x.cause), (8, 8, (q.filter (·.wr)).length), (3, 1, b2n x.sr),
        (2, 1, b2n x.trained), (1, 1, b2n x.frozen), (0, 1, 1)]
  else if r == 0x10 then pk [(32, 32, x.frzMt), (24, 8, x.frzRd), (16, 8, x.frzWr)]
  else if r == 0x18 then
    pk [(60, 4, x.frzCmd.cmd), (56, 2, x.frzCmd.rank), (55, 1, x.frzCmd.cu), (50, 5, x.frzCmd.bank), (40, 7, x.frzCmd.col), (0, 18, x.frzCmd.row)]
  else 0

def State.readDir (s : State) (b r : Nat) : Word :=
  let trks := (List.range 4).flatMap fun i => (s.slice (4 * b + i)).trks
  if r == 0 then s.csrGet (offDir b 0)
  else if r == 8 then
    pk [(48, 5, (s.bank b).recalls.length), (32, 16, ((s.bank b).dc.filter fun e => e.2.isSome).length),
        (16, 12, (trks.filter fun t => 48 ≤ t.htid && t.htid < 0x3F0).length), (0, 8, (trks.filter fun t => t.htid < 48).length)]
  else 0

/-! ### Translation (Tables 11.8–11.16) -/

def State.readXlt (s : State) (i r : Nat) : Word :=
  let x := s.xlt i
  if r == 0 then s.csrGet (offXlt i 0)
  else if r == 8 then pk [(48, 16, x.faults), (32, 16, x.restarts), (16, 5, x.walkers.length), (0, 7, x.queued)]
  else if r == 0x10 then pk [(63, 1, b2n x.fltValid), (0, 57, x.fltVa)]
  else if r == 0x18 then
    pk [(48, 16, x.more), (28, 12, x.fltCtx), (24, 4, x.fltLevel), (16, 8, x.fltSource), (8, 1, b2n x.fltWrite), (0, 8, x.fltSub)]
  else 0

def State.readXinv (s : State) (r : Nat) : Word :=
  if r == 0 then s.csrGet 0xE60000
  else if r == 0x10 then pk [(32, 32, s.xinv.done.toNat), (8, 8, s.xinv.code), (0, 1, b2n s.xinv.busy)]
  else 0

/-! ### Porters and queues (Tables 14.7, 14.10–14.13) -/

/-- STATE of POR[p]_STS: OFF once EN is 0 and nothing is left (R375), RUN while a descriptor is fetched or active. -/
def State.porState (s : State) (p : Nat) : Nat :=
  let x := s.por p
  let work := !(x.descs.isEmpty && x.held.isEmpty)
  if x.halted then 3 else if work then 2 else if s.porEn p then 1 else 0

def State.readPor (s : State) (p r : Nat) : Word :=
  let x := s.por p
  if r == 0 then s.csrGet (offPor p 0)
  else if r == 0x10 then
    pk [(32, 32, x.seqNext.toNat), (24, 4, x.haltCause), (20, 3, x.held.length), (16, 4, (x.descs.filter fun d => !d.active && !d.ended).length),
        (12, 3, (x.descs.filter fun d => d.active && !d.ended).length), (0, 2, s.porState p)]
  else 0

/-- The 64-bit words of a queue-table entry. -/
def QEnt.word (e : QEnt) (k : Nat) : Word :=
  if k == 3 then pk [(36, 28, e.head), (8, 28, e.tail)]
  else if k == 4 then pk [(36, 28, e.items), (24, 7, e.curLen), (16, 6, e.curOff)]
  else if k == 5 then pk [(36, 28, e.limit), (4, 28, e.count)]
  else if k == 6 then
    pk [(32, 32, e.refused), (16, 12, e.nvec), (13, 3, e.nlink), (11, 2, e.nmode), (9, 2, e.fabric), (8, 1, e.mode), (4, 1, b2n e.torn),
        (3, 1, b2n e.err), (0, 1, b2n e.en)]
  else if k == 7 then pk [(0, 32, e.lost)]
  else 0

def State.readSlot (s : State) (k r : Nat) : Word :=
  if r < 0x1000 then BitVec.ofNat 64 (Memory.readLE s.qmg.stage (4096 * k + r) 8)
  else if r < 0x2000 then BitVec.ofNat 64 ((s.view (s.slotQueue k) ((r - 0x1000) / 64)).toNat / 2 ^ (8 * (r % 64)))
  else if r == 0x2000 then s.csrGet (offSlot k 0x2000)
  else 0

/-- A read of a slot's VIEW, with what the code finds in the cell: a cell with an uncorrectable error is a poisoned completion, and stands in
the ledger (R377, R382). The table has no row for a register read: this is what one at these offsets returns. -/
def State.viewRead (s : State) (k r : Nat) (e : ArrErr) : Option Word × State :=
  match (itemCells (s.qmg.chain (s.slotQueue k)))[(r - 0x1000) / 64]? with
  | none => (some 0, s)
  | some c =>
    let s := s.houseAccess (s.cellLine c) false
    match e with
    | .none => (some (s.readSlot k r), s)
    | .ce => (some (s.readSlot k r), s.houseCe (s.cellLine c))
    | .ue => (none, s.ueData 207 (s.injHouse (s.cellLine c)) (64 * s.cellLine c) c)

/-! ### Test access (Tables 21.4, 21.5) -/

/-- TAP_RPR[u] (R497). -/
def State.tapRpr (s : State) (u : Nat) : Word :=
  if !s.unitPresent u then 0
  else pk [(48, 16, (Config.fused u).toNat), (32, 16, Tab.get 0 s.tap.soft u), (16, 16, (Config.sparesLeft u).toNat - Tab.get 0 s.tap.soft u),
           (0, 1, b2n (Tab.get false s.tap.unrep u))]

def State.readTap (s : State) (r : Nat) : Word :=
  if r == 0 then pk [(8, 1, b2n s.tap.refused), (0, 8, s.tap.ir.toNat)]
  else if 0x1000 ≤ r && r < 0x1000 + 8 * 217 then s.tapRpr ((r - 0x1000) / 8)
  else 0

/-! ### The window (R463, Table 19.1) -/

/-- What the 64-bit register at window offset `o`, a multiple of 8, reads as. Reads that act (the fence page, PUSH, and the latching
reads of R237 and R452) are commands of their own. -/
def State.readReg (s : State) (o : Nat) : Word :=
  if o < 0x10000 then s.readGlb o
  else if o < 0x20000 then 0
  else if o < 0x30000 then s.readMtu (o - 0x20000)
  else if o < 0x40000 then s.readRas (o - 0x30000)
  else if o < 0x50000 then s.readFnc (o - 0x40000)
  else if o < 0x60000 then s.readLse (o - 0x50000)
  else if o < 0x70000 then 0
  else if o < 0x80000 then s.readPcr (o - 0x70000)
  else if o < 0x86000 then s.readTly ((o - 0x80000) / 0x100) (o % 0x100)
  else if o < 0x88000 then 0
  else if o < 0x8A000 then s.readTrc (o - 0x88000)
  else if o < 0x100000 then 0
  else if o < 0x200000 then (if (o - 0x100000) / 0x40000 < s.part.hostPorts then s.readHpt ((o - 0x100000) / 0x40000) (o % 0x40000) else 0)
  else if o < 0x300000 then (if (o - 0x200000) / 0x10000 < s.part.fabricPorts then s.readFpt ((o - 0x200000) / 0x10000) (o % 0x10000) else 0)
  else if o < 0x340000 then s.csrGet o
  else if o < 0x350000 then s.readRtr (o - 0x340000)
  else if o < 0x400000 then 0
  else if o < 0x800000 then s.readSlc ((o - 0x400000) / 0x10000) (o % 0x10000)
  else if o < 0xC00000 then (if (o - 0x800000) / 0x10000 < s.part.nmcs then s.readCh ((o - 0x800000) / 0x10000) (o % 0x10000) else 0)
  else if o < 0xD00000 then s.readCh (64 + (o - 0xC00000) / 0x20000) (o % 0x20000)
  else if o < 0xE00000 then s.readDir ((o - 0xD00000) / 0x10000) (o % 0x10000)
  else if o < 0xE50000 then (if s.part.xltPresent ((o - 0xE00000) / 0x10000) then s.readXlt ((o - 0xE00000) / 0x10000) (o % 0x10000) else 0)
  else if o < 0xE60000 then 0
  else if o < 0xE70000 then s.readXinv (o - 0xE60000)
  else if o < 0xE80000 then (if o < 0xE70040 then s.csrGet o else 0)
  else if o < 0xE90000 then s.csrGet o
  else if o < 0xF00000 then 0
  else if o < 0xF20000 then (if (o - 0xF00000) / 0x1000 < s.part.porters then s.readPor ((o - 0xF00000) / 0x1000) (o % 0x1000) else 0)
  else if o < 0x1000000 then 0
  else if o < 0x1400000 then (s.qent ((o - 0x1000000) / 64)).word (o % 64 / 8)
  else if o < 0x1500000 then 0
  else if o == 0x1500000 then pk [(32, 28, s.qmg.freeCells), (0, 28, s.qmg.total)]
  else if o == 0x1500008 then pk [(36, 28, s.qmg.leaked), (0, 16, min 0xFFFF (s.qmg.qs.filter fun e => e.2.err).length)]
  else if o < 0x1510000 then 0
  else if o < 0x1610000 then s.readSlot ((o - 0x1510000) / 0x4000) ((o - 0x1510000) % 0x4000)
  else if o < 0x1F00000 then 0
  else if o < 0x2000000 then s.readTap (o - 0x1F00000)
  else 0

end Sys2Proof.Machine
end

