-- ==== Sys2Proof/Machine/Boot.lean ====
section
/-! DEFINITION. Power, resets, the firmware image and the bring-up steps (chapters 16 and 20). -/

namespace Sys2Proof.Machine

/-! ### Firmware images (R415–R417) -/

/-- Byte `o` of a slot (PRESUMED, unsafe: notes/assumptions/53.md). -/
def FlashSlot.byte (f : FlashSlot) (o : Nat) : Byte := ~~~(Memory.read8 f.bytes o)
def FlashSlot.read (f : FlashSlot) (o n : Nat) : List Byte := (List.range n).map fun i => f.byte (o + i)
def FlashSlot.num (f : FlashSlot) (o n : Nat) : Nat := leNat (f.read o n)

def FlashSlot.magic (f : FlashSlot) : Bool := f.num 0 4 == 0x53544C46
def FlashSlot.version (f : FlashSlot) : Nat := f.num 4 4
def FlashSlot.svn (f : FlashSlot) : Nat := f.num 8 4
def FlashSlot.length (f : FlashSlot) : Nat := f.num 12 4

/-- The image is valid (R416). -/
def FlashSlot.valid (f : FlashSlot) : Bool :=
  !f.broken && f.magic && ((f.read 20 12).all (· == 0) && (f.read 129 7).all (· == 0) && (f.read 232 280).all (· == 0))
    && (4 ≤ f.length && f.length ≤ 1835008 && f.num 16 4 < f.length)
    && Config.minSvn ≤ f.svn && Config.keyTrusted (f.read 32 97)
    && Config.sigValid (f.read 32 97) (f.read 136 96) (f.read 0 136 ++ f.read 0x200 f.length)

/-- A slot, `true` for B. -/
def State.flash (s : State) (b : Bool) : FlashSlot := if b then s.mgt.flashB else s.mgt.flashA
def State.setFlash (s : State) (b : Bool) (f : FlashSlot) : State :=
  if b then { s with mgt := { s.mgt with flashB := f } } else { s with mgt := { s.mgt with flashA := f } }

/-- The selection rule (R417): the highest SVN, then the highest VERSION, slot A on a tie. -/
def State.fwSelect (s : State) : Option Bool :=
  let a := s.mgt.flashA
  let b := s.mgt.flashB
  match a.valid, b.valid with
  | false, false => none
  | true, false => some false
  | false, true => some true
  | true, true => some (decide (a.svn < b.svn ∨ (a.svn = b.svn ∧ a.version < b.version)))

/-- The slot that the firmware commands act on (R442), `true` for B. -/
def State.fwTarget (s : State) : Bool :=
  if s.boot.fwRom then (match s.fwSelect with | some b => !b | none => true) else !s.boot.fwSlot

/-- The command programs the slot it acts on. -/
def programsFlash : CmdBody → Bool
  | .fwErase | .fwWrite _ _ => true
  | _ => false

/-- A slot as a reset leaves it: one that FW_ERASE or FW_WRITE was at work on fails verification (R442, Table 16.6). -/
def State.flashLeft (s : State) (b : Bool) : FlashSlot :=
  if s.fwTarget == b && s.mgt.running.any fun r => programsFlash r.body then { s.flash b with broken := true } else s.flash b

/-! ### Resets (R419–R424, Tables 16.4 and 16.5) -/

/-- What outlasts a cold reset: the flash, hard repairs (R400), the kept PCR fields (R488), and the model's own counters (DEDUCED, unsafe: notes/assumptions/62.md). -/
def State.coldReset (s : State) : State :=
  { State.resetOf s.part with
    clk := s.clk, cyc0 := s.clk, free := s.free, outs := s.outs, pending := s.pending
    pcr := { railFault := s.pcr.railFault, tripped := s.pcr.tripped, thermtripLow := s.pcr.thermtripLow, halves := s.pcr.halves }
    mem := { hardPpr := s.mem.hardPpr }
    mgt := { flashA := s.flashLeft false, flashB := s.flashLeft true } }

/-- Registers that a warm reset keeps (R420): MTU, PCR, the route table and RTR_MGT. -/
def warmKept (o : Nat) : Bool :=
  (0x20000 ≤ o && o < 0x30000) || (0x70000 ≤ o && o < 0x80000) || (0x300000 ≤ o && o < 0x340000) || o == offRtr 8

/-- Staged fields of GLB_HOUSE (Table 4.2). -/
def houseStaged : BitVec 33 := 0xF1FF0000#33

/-- A warm reset: everything but the state of R420 takes its reset value. -/
def State.warmReset (s : State) : State :=
  let r := State.resetOf s.part
  let s : State := { r with
    clk := s.clk, cyc0 := s.clk, paused := s.paused, free := s.free, outs := s.outs, pending := s.pending
    pcr := s.pcr
    boot := { lastReset := 2, nodeSet := s.boot.nodeSet, stopAt := s.boot.stopAt }
    node := s.node
    csr := s.csr.filter fun e => warmKept e.1
    glbHouse := Tmr.of ((houseReset s.part &&& ~~~houseStaged) ||| (s.glbHouse.val &&& houseStaged))
    rtr := { oseqTx := s.rtr.oseqTx, oseqRx := s.rtr.oseqRx, badRt := s.rtr.badRt }
    dom := { table := s.dom.table, digest := s.dom.digest }
    mtu := { s.mtu with lullTrks := [] }
    mem := { softPpr := s.mem.softPpr, hardPpr := s.mem.hardPpr }
    ras := { ring := s.ras.ring, lost := s.ras.lost }
    mgt := { flashA := s.flashLeft false, flashB := s.flashLeft true, i3c := s.mgt.i3c }
    tap := if s.tap.control then { ir := s.tap.ir, control := true, bsr := s.tap.bsr } else { bsr := s.tap.bsr } }
  -- no port has a neighbour now (R217)
  s.restrata

/-- POWER_GOOD_RISE (R419, R424, R476): bring-up starts at step 1, at once, or when RESET_N rises, or when every rail is in range. -/
def execPowerGoodRise (halves : BitVec 4) (railsOk resetLow : Bool) (s : State) : Host.Outcome State Fault Refusal :=
  .next (if s.pcr.pwrGood then s
    else
      let s := s.coldReset
      let hs := halves &&& BitVec.ofNat 4 (2 ^ s.part.hostPorts - 1)
      { s with pcr := { s.pcr with pwrGood := true, stopped := false, railHold := !railsOk, resetLow := resetLow, halves := hs } })

/-- POWER_GOOD_FALL (R424, R486): every unit stops; THERMTRIP_N is released. -/
def execPowerGoodFall (s : State) : Host.Outcome State Fault Refusal :=
  .next { s with pcr := { s.pcr with pwrGood := false, stopped := false, thermtripLow := false } }

/-- RESET_N_ASSERT (R419, R421, R424). -/
def execResetNAssert (s : State) : Host.Outcome State Fault Refusal :=
  .next (
    let s := if s.powered && !s.pcr.resetLow then s.warmReset else s
    { s with pcr := { s.pcr with resetLow := true } })

/-- WARM (R419, Table 16.8): a write of 1 to GLB_RST.WARM. -/
def execWarm (link : Nat) (s : State) : Host.Outcome State Fault Refusal := .next (if s.linkOn link then s.warmReset else s)

/-- RESET_N_RELEASE (R412, R493): step 1 starts, and the lands return to their functional drivers. -/
def execResetNRelease (s : State) : Host.Outcome State Fault Refusal :=
  .next (if !s.pcr.resetLow then s
    else
      let s : State := { s with cyc0 := s.clk, pcr := { s.pcr with resetLow := false } }
      if s.tap.control then ({ s with tap := { s.tap with control := false } } : State).emit (.lands 0 0) else s)

/-- RAILS_IN_RANGE (R476): the held bring-up starts step 1. -/
def execRailsInRange (s : State) : Host.Outcome State Fault Refusal :=
  .next (if s.pcr.pwrGood && s.pcr.railHold then { s with pcr := { s.pcr with railHold := false } } else s)

/-- RAIL_FAULT (R476, Table 20.6): ignored while PWR_GOOD is low. -/
def execRailFault (rail : Nat) (s : State) : Host.Outcome State Fault Refusal :=
  .next (if s.pcr.pwrGood && rail < 8 then
    { s with pcr := { s.pcr with stopped := true, railFault := s.pcr.railFault ||| BitVec.ofNat 8 (2 ^ rail) } } else s)

/-- THERMAL_TRIP (R486) (DEDUCED, unsafe: notes/assumptions/78.md). -/
def execThermalTrip (sensor : Nat) (s : State) : Host.Outcome State Fault Refusal :=
  .next (if hasSensor s.part sensor && sensor < 20 then
    let s := if s.pcr.thermtripLow then s else s.emit .thermtrip
    { s with pcr := { s.pcr with stopped := s.pcr.stopped || s.pcr.pwrGood, tripped := true, thermtripLow := true } }
    else s)

/-- THERMAL_SAMPLE (R484, R485): a firing samples every present sensor; a sample at or above WARN sets the warning, which clears
once every last sample lies below WARN - 3. -/
def execThermalSample (entry : Nat) (temps : List (BitVec 16)) (s : State) : Host.Outcome State Fault Refusal :=
  .next (match s.fire entry 8 with
    | none => s
    | some s =>
      let ks := (List.range 20).filter fun k => hasSensor s.part k
      let tab := ks.foldl (fun t k =>
        let o := Tab.get {} t k
        let v := (temps[k]?).getD o.t
        Tab.put {} t k { valid := true, t := v, max := if !o.valid || o.max.toInt < v.toInt then v else o.max }) s.pcr.temps
      let now := ks.map fun k => (Tab.get {} tab k).t.toInt
      let w : Int := 16 * s.warnLevel
      let hot := (now.filter fun v => w ≤ v).length
      let s : State := { s with pcr := { s.pcr with temps := tab } }
      if 0 < hot then (({ s with pcr := { s.pcr with thermWarn := true } } : State).signalAll 5).event 215 1 1
      else if now.all fun v => v < w - 48 then { s with pcr := { s.pcr with thermWarn := false } }
      else s)

/-! ### The work of step 2 (R417, R418) -/

/-- The work of step 2: the selected image runs, or the ROM keeps the mailbox (R417, R418). -/
def State.fwLoad (s : State) : State :=
  match s.fwSelect with
  | none => { s with boot := { s.boot with fwRom := true, fwVersion := 0 } }
  | some b =>
    let o := s.flash (!b)
    let fall := !o.valid && (s.flash b).version < o.version
    let s : State := { s with boot := { s.boot with fwRom := false, fwSlot := b, fwFallback := fall,
                                                    fwVersion := BitVec.ofNat 32 (s.flash b).version } }
    if fall then s.rec_ 0xFF 210 0xFFFF 0 0 else s

/-! ### The steps (R410–R414) -/

/-- Bring-up stops (DEDUCED, unsafe: notes/assumptions/69.md). -/
def State.bootStop (s : State) (cause unit : Nat) : State :=
  { s with boot := { s.boot with stopped := true, stopCause := cause, stopUnit := unit } }

/-- Step `k` of bring-up is in progress. -/
def State.inStep (s : State) (k : Nat) : Bool := s.live && s.boot.step == k && !s.boot.stopped && !s.boot.paused

/-- A new service level, of 0 to 3: vector 1 (R412). -/
def State.setLevel (s : State) (l : Nat) : State :=
  if s.boot.level == l then s else ({ s with boot := { s.boot with level := min 3 l } } : State).signalAll 1

/-- Step 4 starts (R413): every host copy is back-invalidated and what it returns is dropped; the windows are withdrawn (DEDUCED, unsafe: notes/assumptions/68.md). -/
def State.step4Start (s : State) : State :=
  let s := s.hsf.foldl (fun s e => s.recallDrop e.key e.flat) s
  -- the far channels are in training again: firings that reach them are ignored (Table 16.6)
  let s := (s.chansOf true).foldl (fun s c => s.setChan c { s.chan c with trained := false, ready := false }) s
  { s with boot := { s.boot with step := 4, withdrawn := true } }

/-- The next step after step `k`. -/
def State.nextStep (s : State) (k : Nat) : State :=
  let s : State := { s with boot := { s.boot with paused := false } }
  if k == 3 then s.step4Start else { s with boot := { s.boot with step := k + 1 } }

/-- Step `k` has ended at level `l`: bring-up pauses there, or goes on (R412) (DEDUCED, safe: notes/assumptions/67.md). -/
def State.stepEnd (s : State) (k l : Nat) : State :=
  if s.boot.stopAt.toNat == l then { s with boot := { s.boot with paused := true } } else s.nextStep k

/-- BRINGUP_STEP_1_END (R412). -/
def execBringupStep1End (fuseOk : Bool) (s : State) : Host.Outcome State Fault Refusal :=
  .next (if !s.inStep 1 then s else if fuseOk then s.nextStep 1 else s.bootStop 5 210)

/-- BRINGUP_STEP_2_END (R412, R417). -/
def execBringupStep2End (s : State) : Host.Outcome State Fault Refusal :=
  .next (if !s.inStep 2 then s
    else
      let s := s.fwLoad
      if s.boot.fwRom then s.bootStop 1 210 else s.stepEnd 2 0)

/-- The channel's population obeys R255. -/
def chanPopGood (p : ChanPop) : Bool :=
  p.x4 && p.density < 3 && !p.mixed && (p.dimms == 1 || p.dimms == 2) && (p.ranksPerDimm == 1 || p.ranksPerDimm == 2)

/-- The first of eight channels that fails. -/
def firstBad (ok : Nat → Bool) (n : Nat) : Option Nat := (List.range n).find? fun k => !ok k

/-- BRINGUP_STEP_3_END (R255, R412): SPD of each channel, and which channels trained on rank index 0. -/
def execBringupStep3End (spd : List ChanPop) (trained : BitVec 8) (s : State) : Host.Outcome State Fault Refusal :=
  .next (if !s.inStep 3 then s
    else match firstBad (fun k => (match spd[k]? with | some p => chanPopGood p && decide (spd[0]? = some p) | none => false)) 8 with
    | some k => (s.bootStop 2 (128 + k)).rec_ 0xFF (128 + k) 0xFFFF 0 2
    | none =>
      match firstBad (fun k => trained.getLsbD k) 8 with
      | some k => s.bootStop 3 (128 + k)
      | none =>
        let p := (spd[0]?).getD { density := 0, dimms := 1, ranksPerDimm := 1, partNo := 0, x4 := true }
        let ranks := p.dimms * p.ranksPerDimm
        let s := s.dramFresh
        let s : State := { s with mem := { s.mem with rbits := 16 + p.density, popSet := true,
                                                      kbits := if ranks == 1 then 0 else if ranks == 2 then 1 else 2 } }
        -- TRAINED waits for the full training of step 4 (R278)
        let s := (List.range 8).foldl (fun s k => s.setChan (64 + k) { ready := true, idleBeat := s.beat, nextRefresh := s.clk + 8192 }) s
        ((s.ledgerOpen).setLevel 1).stepEnd 3 1)

/-- The house layout that the level-2 step applies (R98): H, DIR_GIB, POOL_GIB, and whether the staged one was rejected. -/
def State.houseApply (s : State) : Nat × Nat × Nat × Bool :=
  let v := s.glbHouse.val.toNat
  let h := bits v 28 4
  let d := bits v 20 5
  let p := bits v 16 4
  let space := match s.part with | .f144 => 72 * h | .s72 => 36 * h
  let hOk := match s.part with | .f144 => 1 ≤ h && h ≤ 3 | .s72 => 2 ≤ h && h ≤ 6
  if 2 ≤ d && d ≤ 16 && 1 ≤ p && p ≤ 8 && 1 + 8 * (d + p) ≤ space && hOk then (h, d, p, false)
  else (s.part.houseWays, 6, 2, true)

/-- The level-2 step's work on the near cache, the directory, the zero map and the pool (R40, R98, R117, R391, R377, R378, R96). -/
def State.level2 (s : State) : State :=
  let a := s.houseApply
  let house := (s.glbHouse.val &&& houseStaged) ||| BitVec.ofNat 33 (b2n a.2.2.2 * 2 ^ 32 + a.2.1 * 2 ^ 8 + a.2.2.1 * 2 ^ 4)
  let s := if a.2.2.2 then s.rec_ 0xFF 210 0xFFFF 0 0 else s
  let s := s.dramFresh
  let m := s.mem
  let s : State := { s with
    glbPart := Tmr.of (partWord 0 a.1 (14 - a.1)), glbHouse := Tmr.of house, slices := [], banks := []
    mem := { m with zmap := [], ztrk := [], near := [], nearPoison := [], tags := [],
                    recs := [] } }
  let s := s.poolInit
  { s with ras := { s.ras with latent := [] } }

/-- BRINGUP_STEP_4_END (R412, R413): which far and near channels trained. -/
def execBringupStep4End (farOk : BitVec 8) (nearOk : BitVec 64) (s : State) : Host.Outcome State Fault Refusal :=
  .next (if !s.inStep 4 then s
    else match firstBad (fun k => farOk.getLsbD k) 8 with
    | some k =>
      let s : State := { s with boot := { s.boot with withdrawn := false } }
      -- the channels that fail are untrained (R268)
      let s := (List.range 8).foldl (fun s k => s.setChan (64 + k) { s.chan (64 + k) with trained := farOk.getLsbD k, ready := farOk.getLsbD k }) s
      (s.bootStop 3 (128 + k)).setLevel 0
    | none =>
      let up (s : State) (c : Nat) : State := s.setChan c { s.chan c with trained := true, ready := true, idleBeat := s.beat, nextRefresh := s.clk + 8192 }
      let s := (s.chansOf true).foldl up s
      match firstBad (fun n => nearOk.getLsbD n) s.part.nmcs with
      | some n =>
        let s := ((s.chansOf false).filter fun c => nearOk.getLsbD c).foldl up s
        let s := s.dramFresh
        let s : State := { s with boot := { s.boot with withdrawn := false } }
        s.bootStop 4 (64 + n)
      | none =>
        let s := ((s.chansOf false).foldl up s).level2
        let s : State := { s with boot := { s.boot with withdrawn := false } }
        (s.setLevel 2).stepEnd 4 2)

/-- BRINGUP_STEP_5_START (R414): a node number has been accepted. -/
def execBringupStep5Start (s : State) : Host.Outcome State Fault Refusal :=
  .next (if !(s.inStep 5 && s.boot.nodeSet) then s
    else
      let s : State := { s with rtr := { s.rtr with enabled := true }, dom := { s.dom with st := if s.presence == 0 then 0 else 1 } }
      let s := s.portsStep5.setLevel 3
      ({ s with boot := { s.boot with step := 6, dev := Tmr.of 2 } } : State).signalAll 1)

/-- A write of GLB_RST.STOP_AT (R412): one that raises it resumes a paused bring-up. -/
def State.setStopAt (s : State) (v : BitVec 2) : State :=
  let up := s.boot.stopAt < v
  let s : State := { s with boot := { s.boot with stopAt := v } }
  if up && s.boot.paused && s.live && s.boot.level < v.toNat then s.nextStep s.boot.step else s

/-- STOP_AT_RAISE (R412). -/
def execStopAtRaise (v : BitVec 2) (s : State) : Host.Outcome State Fault Refusal :=
  .next (if s.live && s.boot.stopAt < v then s.setStopAt v else s)

/-! ### Clerk restart (R402, R418, R443) -/

/-- What a restart interrupts ends: every command that executes, but `keep`, ends FAILED; its visits of slices stop, except those of a
partition or mode change, which the slices finish (DEDUCED, unsafe: notes/assumptions/50.md). -/
def State.failRunning (s : State) (keep : Option Nat) : State :=
  let ids := (s.mgt.running.map (·.id)).filter fun i => some i != keep
  let s : State := { s with dom := { s.dom with joining := false },
                            mgt := { s.mgt with range := s.mgt.range.filter fun r => 6 ≤ r.op } }
  ids.foldl (fun s i => s.cmdEnd i stFailed []) s

/-- A clerk restart: the work of step 2 again, then the replies that it owes. A bring-up step in progress starts again; a stop for want of
an image ends when there is one. -/
def State.clerkRestart (s : State) (keep : Option Nat) : State :=
  let s := s.fwLoad
  let s : State :=
    if s.boot.fwRom then (if s.boot.step < 6 then s.bootStop 1 210 else { s with boot := { s.boot with stopCause := 1, stopUnit := 210 } })
    else if s.boot.stopCause == 1 then { s with boot := { s.boot with stopped := false, stopCause := 0, stopUnit := 0xFF } } else s
  let s := if s.inStep 4 then s.step4Start else s
  s.failRunning keep

/-- The clerks run: step 1 has ended with a good fuse map. -/
def State.clerksOn (s : State) : Bool := s.live && 2 ≤ s.boot.step && s.boot.stopCause != 5

/-- CLERK_RESTART (R418). -/
def execClerkRestart (s : State) : Host.Outcome State Fault Refusal := .next (if s.clerksOn then s.clerkRestart none else s)

/-- CLERK_TRAP (R402). -/
def execClerkTrap (clerk : Nat) (s : State) : Host.Outcome State Fault Refusal :=
  .next (if s.clerksOn && clerk < 4 then (s.rec_ 0x18 210 0xFFFF 0 clerk).clerkRestart none else s)

end Sys2Proof.Machine
end

