-- ==== Sys2Proof/Machine/Tally.lean ====
section
/-! DEFINITION. Tally counters and trace (chapter 18). -/

namespace Sys2Proof.Machine

/-! ### Events (R445–R447, Table 18.1) -/

/-- The most that event `code` of unit `u` delivers in a clock; 0 where Table 18.1 lists no such event. -/
def evMax (u code : Nat) : Nat :=
  let one (n : Nat) : Nat := if 1 ≤ code && code ≤ n then 1 else 0
  if u < 64 then (if code == 9 then 64 else if code == 0x0B then 16 else if code == 0x0E || code == 0x0F then 4 else one 0x18)
  else if u < 136 then
    (if code == 8 then 128 else if code == 5 then 1 else if code == 0x0A then (if u < 128 then 0 else 16)
     else 2 * one 0x0B)
  else if u < 152 then (if code == 3 then 1 else if code == 6 then 192 else 4 * one 7)
  else if u == 152 then (if code == 3 then 1 else 8 * one 3)
  else if u < 169 then one 5
  else if u == 169 then (if code == 3 then 64 else 16 * one 3)
  else if u < 175 then (if code == 5 || code == 6 then 1 else 2 * one 6)
  else if u < 207 then one 3
  else if u == 207 then 4 * one 3
  else if u == 208 then (if code == 2 then 17 else 8 * one 3)
  else if u == 209 then one 4
  else if u == 210 then 4 * one 1
  else if u < 215 then (if code == 3 || code == 4 then 1 else if code == 5 then 256 else 2 * one 6)
  else if u == 215 then one 1
  else if u == 216 then (if code == 3 then 1 else 16 * one 3)
  else 0

/-- Table 18.1 lists the event and its source is present (R445, R462). -/
def State.eventListed (s : State) (ev : Nat) : Bool := s.unitPresent (ev / 256) && evMax (ev / 256) (ev % 256) != 0

/-- Some packet of the port waits for credit. -/
def FPort.starved (x : FPort) : Bool := x.txq.any fun k => (x.pickPkt k.vn k.bulk 15).isNone

/-- The value of a level event now; none for an event that counts occurrences. -/
def State.levelEvent (s : State) (u code : Nat) : Option Nat :=
  if u < 64 then (if code == 9 then some (s.slice u).mrs.length else if code == 0x0B then some (s.slice u).vbs.length else none)
  else if u < 136 then
    (let c := u - 64
     if code == 8 then some ((((s.chan c).u0.q ++ (s.chan c).u1.q).filter fun r => !r.wr).length)
     else if code == 0x0A then some (s.mem.ztrk.filter fun z => 64 ≤ c && z.ch == c - 64).length else none)
  else if u < 152 then
    (if code == 6 then some (((List.range 4).map fun i => ((s.slice (4 * (u - 136) + i)).trks.filter fun t => t.htid < 48).length).foldl (· + ·) 0)
     else none)
  else if u == 169 then (if code == 3 then some s.rtr.store.length else none)
  else if 153 ≤ u && u < 169 then (if code == 5 then some (b2n (s.port (u - 153)).starved) else none)
  else if u == 209 then (if code == 2 then some (b2n s.mtu.inLull) else if code == 3 then some (b2n s.mtu.inGuard) else none)
  else if 211 ≤ u && u < 215 then
    (let n := u - 211
     if code == 3 then some (b2n (s.gateHold n)) else if code == 4 then some (b2n s.lullHold)
     else if code == 5 then some ((s.link (2 * n)).pwb.length + (s.link (2 * n + 1)).pwb.length) else none)
  else none

/-- An event's value in this clock (R446, R447) (DESIGN CHOICE, unsafe: notes/assumptions/55.md). -/
def State.eventVal (s : State) (ev : Nat) : Nat :=
  if !s.eventListed ev then 0
  else min (evMax (ev / 256) (ev % 256)) ((s.levelEvent (ev / 256) (ev % 256)).getD (Tab.get 0 s.events ev))

/-! ### Counting (R448, R449) -/

/-- One counter takes the event's value, and the carry of the counter before it; it may wrap. -/
def Cnt.count1 (c : Cnt) (chained : Bool) (v carry : Nat) : Cnt × Bool :=
  let add := if !c.en || c.routing then 0
    else if chained then carry
    else if c.edge then (if v != 0 && !c.was then 1 else 0)
    else v
  let n := c.count + add
  ({ c with was := v != 0, count := n % 2 ^ 48, ovf := c.ovf || decide (2 ^ 48 ≤ n) }, decide (2 ^ 48 ≤ n))

/-- The trigger of the trace unit (R458). -/
def State.trigger (s : State) (u i : Nat) : State :=
  let cfg := s.trcCfg
  if !(fbit cfg 20 && fld cfg 24 8 == u && fld cfg 21 3 == i) || s.trc.triggered then s
  else
    let post := fld cfg 0 16
    let s : State := { s with trc := { s.trc with triggered := true, postLeft := if fbit cfg 63 then some post else none } }
    if fbit cfg 63 && post == 0 then s.trcStop else s

/-- Counter `i` of unit `u` counts one clock; the answer is its carry. -/
def State.countOne (s : State) (u i carry : Nat) : Nat × State :=
  let t := s.tly u
  let c := Tab.get {} t.cnt i
  if c == ({} : Cnt) then (0, s)
  else
    let r := c.count1 (c.chain && i != 0) (s.eventVal c.evsel.toNat) carry
    let s := s.setTly u { t with cnt := Tab.put {} t.cnt i r.1 }
    if r.2 then (1, s.trigger u i) else (0, s)

/-- Every counter counts one clock; the clock's events are then gone. A counter whose route has had 64 clocks counts again (R451). -/
def State.tallyClock (s : State) : State :=
  let s := (s.tlys.map (·.1)).foldl (fun s u =>
    ((List.range 8).foldl (fun (a : Nat × State) i => a.2.countOne u i a.1) (0, s)).2) s
  { s with events := [] }

/-! ### Routes (R451, R462) -/

def State.modCnt (s : State) (u i : Nat) (f : Cnt → Cnt) : State :=
  s.setTly u { s.tly u with cnt := Tab.put {} (s.tly u).cnt i (f (Tab.get {} (s.tly u).cnt i)) }

/-- A write of EVSEL. -/
def State.setEvsel (s : State) (u i : Nat) (ev : BitVec 16) : State :=
  s.modCnt u i fun c => if c.evsel == ev then c else { c with evsel := ev, routing := true, routeAt := s.clk }

/-- A command whose counters have all settled replies with their number. -/
def State.routesSettled (s : State) : State :=
  s.mgt.running.foldl (fun s r => match r.body with
    | .tallyRoute es =>
      if es.any fun e => (Tab.get {} (s.tly e.1.toNat).cnt e.2.1.toNat).routing then s else s.cmdEnd r.id stOK (leBytes 4 es.length)
    | _ => s) s

/-- A counter's route settles. -/
def State.routeDone (s : State) (u i : Nat) : State :=
  if (Tab.get {} (s.tly u).cnt i).routing then (s.modCnt u i fun c => { c with routing := false }).routesSettled else s

/-- ROUTING_DONE (R451). -/
def execRoutingDone (u i : Nat) (s : State) : Host.Outcome State Fault Refusal :=
  .next (if s.powered && u < 96 && i < 8 then s.routeDone u i else s)

/-- Routes that have had their 64 clocks (R451). -/
def State.routesDue (s : State) : State :=
  s.tlys.foldl (fun s t => t.2.cnt.foldl (fun s c => if c.2.routing && c.2.routeAt + 64 ≤ s.clk then s.routeDone t.1 c.1 else s) s) s

/-- EVSEL_WRITE (R451): EVSEL is RWL. -/
def execEvselWrite (link u i : Nat) (evsel : BitVec 16) (s : State) : Host.Outcome State Fault Refusal :=
  .next (if s.linkOn link && s.rwlOpen && u < 96 && i < 8 then s.setEvsel u i evsel else s)

def State.tallyRouteCheck (s : State) (es : List (BitVec 8 × BitVec 8 × BitVec 16)) : Nat :=
  if 1 ≤ es.length && es.length ≤ 768 && es.all fun e => e.1.toNat < 96 && e.2.1.toNat < 8 && s.eventListed e.2.2.toNat
  then stOK else stBadParam

def State.tallyRouteGo (s : State) (es : List (BitVec 8 × BitVec 8 × BitVec 16)) : State :=
  (es.foldl (fun s e =>
    (s.modCnt e.1.toNat e.2.1.toNat fun c => { c with en := false, count := 0, ovf := false }).setEvsel e.1.toNat e.2.1.toNat e.2.2) s).routesSettled

/-! ### TLY[u]_CTL and the counters (R450, R461) -/

/-- A write of TLY[u]_CTL: STOP wins over START. -/
def State.tlyCtl (s : State) (u : Nat) (start stop : BitVec 8) (clr : Bool) : State :=
  (List.range 8).foldl (fun s i =>
    if !(start.getLsbD i || stop.getLsbD i || clr) then s
    else s.modCnt u i fun c =>
      { c with en := !stop.getLsbD i && (start.getLsbD i || c.en), count := if clr then 0 else c.count, ovf := c.ovf && !clr }) s

/-- START (R450). -/
def execStart (link u : Nat) (mask : BitVec 8) (s : State) : Host.Outcome State Fault Refusal :=
  .next (if s.linkOn link && u < 96 then s.tlyCtl u mask 0 false else s)
/-- STOP (R450). -/
def execStop (link u : Nat) (mask : BitVec 8) (s : State) : Host.Outcome State Fault Refusal :=
  .next (if s.linkOn link && u < 96 then s.tlyCtl u 0 mask false else s)
/-- COUNTER_CLEAR (R461). -/
def execCounterClear (link u : Nat) (s : State) : Host.Outcome State Fault Refusal :=
  .next (if s.linkOn link && u < 96 then s.tlyCtl u 0 0 true else s)

/-! ### Snapshots (R453) and split reads (R452) -/

/-- COUNTER_SNAPSHOT. -/
def execCounterSnapshot (entry : Nat) (s : State) : Host.Outcome State Fault Refusal :=
  .next (match s.fire entry 5 with
    | none => s
    | some s =>
      let arg := schArg (s.sch entry)
      ((List.range 96).filter fun u => arg.testBit (u / 3)).foldl (fun s u =>
        let t := s.tly u
        s.setTly u { t with seq := t.seq + 1, snapMt := s.beat * 1024, snapCyc := s.cycles,
                            snap := (List.range 8).foldl (fun m i => Tab.put 0 m i (Tab.get {} t.cnt i).count) t.snap }) s)

/-- TALLY_LOW_HALF_READ: the upper half of the counter at `off` is latched. -/
def execTallyLowHalfRead (link off : Nat) (s : State) : Host.Outcome State Fault Refusal :=
  .next (if s.linkOn link && 0x80000 ≤ off && off < 0x86000 && off % 8 == 0 then
    let u := (off - 0x80000) / 0x100
    let v := (s.readReg off).toNat
    (s.setTly u { s.tly u with latch := Tab.put 0 (s.tly u).latch (off % 0x100) (v / 2 ^ 32) }).emit (.ioData link (BitVec.ofNat 64 (v % 2 ^ 32)))
    else s)

/-- What a 32-bit read returns (R464, R466): the upper halves of MTU_NOW and of the tally registers are those last latched (DEDUCED, unsafe: notes/assumptions/74.md). -/
def State.read32 (s : State) (o : Nat) : BitVec 32 :=
  if o % 8 == 4 && o == offMtu 0x14 then s.mtu.latch
  else if o % 8 == 4 && 0x80000 ≤ o && o < 0x86000 then BitVec.ofNat 32 (Tab.get 0 (s.tly ((o - 0x80000) / 0x100)).latch ((o - 4) % 0x100))
  else BitVec.ofNat 32 ((s.readReg (o / 8 * 8)).toNat / 2 ^ (8 * (o % 8)))

/-! ### Trace (R455–R459) -/

/-- CAPTURE is written 1 (R458). -/
def State.captureStart (s : State) : State :=
  { s with trc := { s.trc with next := 0, wraps := 0, dropped := 0, full := false, triggered := false, postLeft := none } }

/-- A write of TRC_CFG. -/
def State.trcCfgWrite (s : State) (v : Word) : State :=
  let s := s.csrPut (offTrc 0) (v &&& 0xC0FFFF00FFF0FFFF#64)
  if fbit v 63 then s.captureStart else s

/-- CAPTURE. -/
def execCapture (link : Nat) (s : State) : Host.Outcome State Fault Refusal :=
  .next (if s.linkOn link then s.trcCfgWrite (setFld s.trcCfg 63 1 1) else s)

/-- TRACE_SETUP (R462): the trace registers in the order listed. -/
def State.traceSetupGo (s : State) (f0 f1 f2 cfg : Word) : State :=
  (((s.csrPut (offTrc 8) f0).csrPut (offTrc 0x10) f1).csrPut (offTrc 0x18) (f2 &&& 0xFFFF#64)).trcCfgWrite cfg

end Sys2Proof.Machine
end

