-- ==== Sys2Proof/Machine/RegWrite.lean ====
section
/-! DEFINITION. Writes of the register window (R464, R465, R467): every field of every register, with the effect its table gives a
write, and the accesses that are refused. -/

namespace Sys2Proof.Machine

/-- A write as a 64-bit register sees it: the bits that it reaches, and their values. -/
structure RegW where
  wm : Word
  wv : Word
  deriving DecidableEq, Repr

/-- The write of `size` bytes at window offset `off` (R464). -/
def regW (off size : Nat) (v : Word) : RegW :=
  if size == 4 then
    let k := 8 * (off % 8)
    { wm := BitVec.ofNat 64 ((2 ^ 32 - 1) * 2 ^ k), wv := BitVec.ofNat 64 (v.toNat % 2 ^ 32 * 2 ^ k) }
  else { wm := BitVec.allOnes 64, wv := v }

/-- An old value with the reached bits of `mask` replaced. -/
def RegW.on (w : RegW) (mask old : Word) : Word := (old &&& ~~~(mask &&& w.wm)) ||| (w.wv &&& mask)

/-- Bit `i` is written 1; bit `i` is reached. -/
def RegW.one (w : RegW) (i : Nat) : Bool := fbit w.wv i
def RegW.hits (w : RegW) (i : Nat) : Bool := fbit w.wm i

/-- RW fields, and RWL fields, of a register. -/
def State.wrRW (s : State) (o : Nat) (w : RegW) (mask : Word) : State := s.csrPut o (w.on mask (s.csrGet o))
def State.wrRWL (s : State) (o : Nat) (w : RegW) (mask : Word) : State := if s.rwlOpen then s.wrRW o w mask else s

def State.writeGlb (s : State) (r : Nat) (w : RegW) : State :=
  if r == 0x28 then { s with irq := s.irq &&& ~~~(w.wv.setWidth 6) }
  else if r == 0x108 then
    (let s := if w.hits 0 then s.setStopAt (w.wv.setWidth 2) else s
     if w.one 2 then s.warmReset else s)
  else if r == 0x208 then
    (if s.rwlOpen then { s with glbHouse := Tmr.of ((w.on (houseStaged.setWidth 64) (s.glbHouse.val.setWidth 64)).setWidth 33) } else s)
  else if r == 0x210 then s.wrRWL 0x210 w 0xFFFF0000
  else s

def State.writeMtu (s : State) (r : Nat) (w : RegW) : State :=
  if r == 0 then { s with mtu := { s.mtu with schErr := s.mtu.schErr && !w.one 31, stepped := s.mtu.stepped && !w.one 8 } }
  else if r == 8 then (s.wrRWL (offMtu 8) w 0x0000000F00010100).restrata
  else s

def State.writeRas (s : State) (r : Nat) (w : RegW) : State :=
  if r == 0 then (s.wrRWL (offRas 0) w 0x100).wrRW (offRas 0) w 7
  else if r == 0x10 then s.flipCtl (w.on (BitVec.allOnes 64) (s.csrGet (offRas 0x10)))
  else if r == 0x18 then s.wrRW (offRas 0x18) w (BitVec.allOnes 64)
  else if 0x100 ≤ r && r < 0x100 + 16 * s.part.pgcRegions then
    (if r % 16 == 8 then s.wrRWL (offRas r) w 0x000003FFFFFFF000
     else
      let s' := s.wrRWL (offRas r) w 0x807F03FFFFFFFFFF
      if s.rwlOpen && w.one 63 then { s' with ras := { s'.ras with pgcInit := Tab.put false s'.ras.pgcInit ((r - 0x100) / 16) true } } else s')
  else if 0x1000 ≤ r && r < 0x1000 + 8 * 217 then
    (let u := (r - 0x1000) / 8
     let b := Tab.get {} s.ras.bkt u
     (({ s with ras := { s.ras with bkt := Tab.put {} s.ras.bkt u { b with ovf := b.ovf && !w.one 32 } } } : State)).wrRW (offRas r) w 0xFFFF0000)
  else s

def State.writePcr (s : State) (r : Nat) (w : RegW) : State :=
  if r == 0 then s.wrRWL 0x70000 w 0xFF00
  else if r == 8 then
    { s with pcr := { s.pcr with railFault := s.pcr.railFault &&& ~~~((w.wv >>> 32).setWidth 8), tripped := s.pcr.tripped && !w.one 31 } }
  else s

def State.writeTly (s : State) (u r : Nat) (w : RegW) : State :=
  if r == 8 then s.tlyCtl u (w.wv.setWidth 8) ((w.wv >>> 8).setWidth 8) (w.one 16)
  else if 0x10 ≤ r && r < 0x50 then
    (let i := (r - 0x10) / 8
     let s := if w.hits 63 && s.rwlOpen then s.setEvsel u i ((w.wv >>> 48).setWidth 16) else s
     if w.hits 0 then s.modCnt u i fun c => { c with ovf := c.ovf && !w.one 3, chain := w.one 2, edge := w.one 1, en := w.one 0 } else s)
  else if 0x50 ≤ r && r < 0x90 then
    s.modCnt u ((r - 0x50) / 8) fun c => { c with count := (w.on 0x0000FFFFFFFFFFFF (BitVec.ofNat 64 c.count)).toNat }
  else s

def State.writeTrc (s : State) (r : Nat) (w : RegW) : State :=
  if r == 0 then
    (let s := s.wrRW (offTrc 0) w 0xC0FFFF00FFF0FFFF
     if w.one 63 then s.captureStart else s)
  else if r == 8 || r == 0x10 then s.wrRW (offTrc r) w (BitVec.allOnes 64)
  else if r == 0x18 then s.wrRW (offTrc r) w 0xFFFF
  else if r == 0x28 then s.wrRW (offTrc r) w 0x1FFFF
  else s

/-- A write of an MSI-X entry's word: an entry that is unmasked sends its pending message (R169). -/
def State.msixWrite (s : State) (l v k : Nat) (w : RegW) : State :=
  let key := msixKey l v k
  let s := s.msixPut key (w.on (if k == 1 then 0x00000001FFFFFFFF else BitVec.allOnes 64) (s.msixGet key))
  if !s.masked l v && (s.link l).pba.contains v then (s.modLink l fun x => { x with pba := x.pba.erase v }).emit (.msix l v) else s

/-- BOUND_CLEAR (R250): of both halves of a port. -/
def State.boundClear (s : State) (n : Nat) : State :=
  let left (c : Nat) : Nat := if c == s.clk + 1 then 1 else 0
  let f (x : HLink) : HLink := { x with overrun := left x.overClk, voided := left x.voidClk, extended := left x.extClk }
  (s.modLink (2 * n) f).modLink (2 * n + 1) f

def State.writeHpt (s : State) (n r : Nat) (w : RegW) : State :=
  if r == 8 then s.wrRW (offHpt n r) w 0x707
  else if r == 0x10 || r == 0x18 then s.wrRWL (offHpt n r) w 0x01FFFFFF003F0FFF
  else if r == 0x20 then s.wrRWL (offHpt n r) w 0x003F003F003F0000
  else if r == 0x30 then (if w.one 0 then s.boundClear n else s)
  else if r == 0x40 || r == 0x48 then
    (if w.one 41 then s.modLink (2 * n + (r - 0x40) / 8) fun x => { x with pwbHwm := x.pwb.length } else s)
  else if r == 0x50 then s.wrRWL (offHpt n r) w 3
  else if 0x8000 ≤ r && r < 0x18000 then
    (let l := 2 * n + (r - 0x8000) / 0x8000
     if s.linkExists l then s.msixWrite l ((r - 0x8000) % 0x8000 / 16) (r % 16 / 8) w else s)
  else s

def State.writeFpt (s : State) (p r : Nat) (w : RegW) : State :=
  if r != 0 || !w.hits 0 then s
  else
    let s := s.wrRWL (offFpt p 0) w 0xFF000004
    if w.one 0 then
      let s := s.portEnable p true
      if w.one 1 then s.portRetrain p else s
    else if s.portEn p then s.portEnable p false else s

/-- A route-table write also replaces an entry that had an uncorrectable error. -/
def State.writeRt (s : State) (o : Nat) (w : RegW) : State :=
  let d := (o - 0x300000) / 8
  ({ s with rtr := { s.rtr with badRt := s.rtr.badRt.filter (· != d) } } : State).wrRW o w 0xFFFF000000000000

def State.writeRtr (s : State) (r : Nat) (w : RegW) : State :=
  if r == 0 then s.wrRWL (offRtr 0) w 0x0000FFFF00000000
  else if r == 8 then s.wrRWL (offRtr 8) w 0xCFFFFFFFFFFFFFFF
  else s

def State.writeSlc (s : State) (n r : Nat) (w : RegW) : State :=
  if r == 8 then
    (let act := !(s.slice n).tcBusy
     if w.hits 0 && !w.one 0 && s.rwlOpen then (s.tcAction n true).wrRWL (offSlc n 8) w 1
     else
      let s := s.wrRWL (offSlc n 8) w 1
      if act && w.one 2 then s.tcAction n true else if act && w.one 1 then s.tcAction n false else s)
  else if r == 0x10 then
    (let s := s.wrRWL (offSlc n r) w 1
     if w.one 1 then s.modSlice n fun x => { x with wp := [] } else s)
  else if r == 0x100 then
    (let s := s.wrRWL (offSlc n r) w 0xFF0F3705
     if w.one 1 then s.modSlice n fun x => { x with streams := List.replicate 32 none } else s)
  else if r == 0x108 then s.wrRWL (offSlc n r) w 3
  else if r == 0x110 then (if w.one 32 then s.modSlice n fun x => { x with mrHwm := x.mrs.length } else s)
  else if r == 0x118 then (if w.one 32 then s.modSlice n fun x => { x with vbHwm := x.vbs.length } else s)
  else s

def State.writeXlt (s : State) (i r : Nat) (w : RegW) : State :=
  if r == 0 then s.wrRWL (offXlt i 0) w 3
  else if r == 0x10 then (if w.one 63 then s.setXlt i { s.xlt i with fltValid := false, more := 0 } else s)
  else s

def State.writeXinv (s : State) (r : Nat) (w : RegW) : State :=
  if r == 0 then s.wrRW 0xE60000 w 0x01FFFFFFFFFFF000
  else if r == 8 then (if fld w.wv 0 2 != 0 then s.invStart (fld w.wv 0 2) (fld w.wv 16 12) (fld w.wv 8 2) else s)
  else s

def State.writePor (s : State) (p r : Nat) (w : RegW) : State :=
  if r == 0 then s.wrRW (offPor p 0) w 0x8000FFFF07000000
  else if r == 8 then
    (let s := if w.one 62 then s.abortEach p else if w.one 32 then s.abort p (fld w.wv 0 32) else s
     if w.one 63 then s.porResume p else s)
  else s

/-- A write of a queue-table entry's word (R378): with EN at 1 only EN changes. -/
def State.writeQ (s : State) (q k : Nat) (w : RegW) : State :=
  let e := s.qent q
  if k == 5 then
    (if e.en then s else s.setQent q { e with limit := fld (w.on 0xFFFFFFF000000000 (pk [(36, 28, e.limit)])) 36 28 })
  else if k == 6 && w.hits 0 then
    (if e.en then s.setQent q { e with en := w.one 0 }
     else s.setQent q { e with nvec := fld w.wv 16 12, nlink := fld w.wv 13 3, nmode := fld w.wv 11 2, fabric := fld w.wv 9 2,
                               mode := fld w.wv 8 1, en := w.one 0 })
  else s

def State.writeSlot (s : State) (k r off size : Nat) (v : Word) : State :=
  let w := regW off size v
  if r < 0x1000 then
    { s with qmg := { s.qmg with stage := Memory.writeLE s.qmg.stage (4096 * k + r + off % 8) (v.toNat % 2 ^ (8 * size)) size } }
  else if r == 0x2000 then s.wrRW (offSlot k 0x2000) w 0xFFFF
  else if r == 0x2008 then
    (let q := s.slotQueue k
     if w.one 9 then s.qFlush q
     else
      let s := if w.one 7 then s.qAdvance q (fld w.wv 0 7) else s
      let s := if w.one 8 then s.qDrop q else s
      if w.one 10 then s.qClear q else s)
  else s

/-- A write of `size` bytes at window offset `off`, aligned, by a host link or a clerk. -/
def State.regWrite (s : State) (off size : Nat) (v : Word) : State :=
  let o := off / 8 * 8
  let w := regW off size v
  if o < 0x10000 then s.writeGlb o w
  else if o < 0x20000 then s
  else if o < 0x30000 then (if 0x21000 ≤ o && o < 0x21400 then s.schWrite off size v else s.writeMtu (o - 0x20000) w)
  else if o < 0x40000 then s.writeRas (o - 0x30000) w
  else if o < 0x50000 then s.sysTreeWrite off size v
  else if o < 0x60000 then (if o == 0x50000 then s.wrRWL o w 0x7FF else s)
  else if o < 0x70000 then s
  else if o < 0x80000 then s.writePcr (o - 0x70000) w
  else if o < 0x86000 then s.writeTly ((o - 0x80000) / 0x100) (o % 0x100) w
  else if o < 0x88000 then s
  else if o < 0x8A000 then s.writeTrc (o - 0x88000) w
  else if o < 0x100000 then s
  else if o < 0x200000 then (if (o - 0x100000) / 0x40000 < s.part.hostPorts then s.writeHpt ((o - 0x100000) / 0x40000) (o % 0x40000) w else s)
  else if o < 0x300000 then
    (if (o - 0x200000) / 0x10000 < s.part.fabricPorts then s.writeFpt ((o - 0x200000) / 0x10000) (o % 0x10000) w else s)
  else if o < 0x340000 then s.writeRt o w
  else if o < 0x350000 then s.writeRtr (o - 0x340000) w
  else if o < 0x400000 then s
  else if o < 0x800000 then s.writeSlc ((o - 0x400000) / 0x10000) (o % 0x10000) w
  else if o < 0xC00000 then
    (if (o - 0x800000) / 0x10000 < s.part.nmcs && o % 0x10000 == 0 then s.wrRWL o w 0xFFFFFFFF00FF0003 else s)
  else if o < 0xD00000 then (if o % 0x20000 == 0 then s.wrRWL o w 0xFFFFFFFF00FF0003 else s)
  else if o < 0xE00000 then (if o % 0x10000 == 0 then s.wrRWL o w 0x000000FF00FF00FF else s)
  else if o < 0xE50000 then
    (if s.part.xltPresent ((o - 0xE00000) / 0x10000) then s.writeXlt ((o - 0xE00000) / 0x10000) (o % 0x10000) w else s)
  else if o < 0xE60000 then s
  else if o < 0xE70000 then s.writeXinv (o - 0xE60000) w
  else if o < 0xE80000 then (if o < 0xE70040 then s.wrRWL o w 0xFFFFFFFFFFFFF000 else s)
  else if o < 0xE90000 then s.ctxWrite off size v
  else if o < 0xF00000 then s
  else if o < 0xF20000 then (if (o - 0xF00000) / 0x1000 < s.part.porters then s.writePor ((o - 0xF00000) / 0x1000) (o % 0x1000) w else s)
  else if o < 0x1000000 then s
  else if o < 0x1400000 then s.writeQ ((o - 0x1000000) / 64) (o % 64 / 8) w
  else if o < 0x1510000 then s
  else if o < 0x1610000 then s.writeSlot ((o - 0x1510000) / 0x4000) ((o - 0x1510000) % 0x4000) off size v
  else if o < 0x1F00000 then s
  else if o == 0x1F00000 then { s with tap := { s.tap with refused := s.tap.refused && !w.one 8 } }
  else s

/-- An access of 4 or 8 bytes, aligned to its size (R464). -/
def okAccess (off size : Nat) : Bool := (size == 4 || size == 8) && off % size == 0

/-- REGISTER_WRITE (R464, R465). -/
def execRegisterWrite (link off size : Nat) (v : Word) (s : State) : Host.Outcome State Fault Refusal :=
  .next (if !s.linkOn link then s else if okAccess off size then s.noFinds fun s => s.regWrite off size v else s.badAccess link off)

/-- BAD_REGISTER_ACCESS (R464). -/
def execBadRegisterAccess (link off size : Nat) (_write : Bool) (s : State) : Host.Outcome State Fault Refusal :=
  .next (if s.linkOn link && !okAccess off size then s.badAccess link off else s)

/-- BOUND_CLEAR (R250, Table 9.9). -/
def execBoundClear (link port : Nat) (s : State) : Host.Outcome State Fault Refusal :=
  .next (if s.linkOn link && port < s.part.hostPorts then s.boundClear port else s)

end Sys2Proof.Machine
end

