-- ==== Sys2Proof/Machine/Tap.lean ====
section
/-! DEFINITION. Test access: the TAP's instructions, memory BIST and the repair status (chapter 21). -/

namespace Sys2Proof.Machine

/-! ### The TAP (R490–R493, R498) -/

/-- Load an instruction: the instruction register's captured value shifts out (R491). -/
def State.tapLoad (s : State) (code : BitVec 8) : State :=
  ({ s with tap := { s.tap with ir := code } } : State).emit (.tdo 8 1)

/-- No instruction controls the lands any more. -/
def State.tapRelease (s : State) : State :=
  if s.tap.control then ({ s with tap := { s.tap with control := false } } : State).emit (.lands 0 0) else s

/-- A scan of the bypass register. -/
def State.tapBypass (s : State) : State := s.tapRelease.emit (.tdo 1 0)

/-- What the boundary register captures from the lands; the receive cells of lands that the S72 leaves unconnected capture 0 (R495). -/
def State.boundaryIn (s : State) : BitVec 2400 :=
  match s.part with
  | .f144 => Config.boundary s.free
  | .s72 => Config.boundary s.free &&& ~~~Config.absentCells

/-- What the boundary register drives: on the S72 nothing of the cells of unconnected lands (R495). -/
def State.boundaryOut (s : State) (d : BitVec 2400) : BitVec 2400 :=
  match s.part with
  | .f144 => d
  | .s72 => d &&& ~~~Config.absentCells

/-- A scan of the boundary register: what the lands show is captured and shifts out, and `tdi` shifts in. -/
def State.tapBoundary (s : State) (tdi : BitVec 2400) : State :=
  ({ s with free := s.free + 1, tap := { s.tap with bsr := tdi } } : State).emit (.tdo 2400 (s.boundaryIn.setWidth 13888))

/-- A controlling instruction (R493): only while RESET_N is low; at any other time it acts as BYPASS. -/
def State.tapControl (s : State) (code : BitVec 8) (go : State → State) : State :=
  let s := s.tapLoad code
  if s.pcr.resetLow then go { s with tap := { s.tap with control := true } }
  else ({ s with tap := { s.tap with refused := true } } : State).tapBypass

/-- TEST_LOGIC_RESET (R490). -/
def execTestLogicReset (s : State) : Host.Outcome State Fault Refusal :=
  .next ({ s.tapRelease with tap := { s.tapRelease.tap with ir := 1 } })

/-- EXTEST: the lands are driven from the boundary register, which takes `tdi`. -/
def execExtest (tdi : BitVec 2400) (s : State) : Host.Outcome State Fault Refusal :=
  .next (s.tapControl 0 fun s => (s.tapBoundary tdi).emit (.lands 1 (s.boundaryOut tdi)))
/-- EXTEST_PULSE. -/
def execExtestPulse (tdi : BitVec 2400) (s : State) : Host.Outcome State Fault Refusal :=
  .next (s.tapControl 3 fun s => (s.tapBoundary tdi).emit (.lands 2 (s.boundaryOut tdi)))
/-- EXTEST_TRAIN. -/
def execExtestTrain (tdi : BitVec 2400) (s : State) : Host.Outcome State Fault Refusal :=
  .next (s.tapControl 4 fun s => (s.tapBoundary tdi).emit (.lands 3 (s.boundaryOut tdi)))
/-- CLAMP: outputs from the boundary register, bypass selected. -/
def execClamp (s : State) : Host.Outcome State Fault Refusal :=
  .next (s.tapControl 5 fun s => (s.emit (.lands 4 (s.boundaryOut s.tap.bsr))).emit (.tdo 1 0))
/-- HIGHZ. -/
def execHighz (s : State) : Host.Outcome State Fault Refusal := .next (s.tapControl 6 fun s => (s.emit (.lands 5 0)).emit (.tdo 1 0))

/-- The identification register (R492). -/
def State.idcode (s : State) : BitVec 32 :=
  BitVec.ofNat 32 (Config.stepping.toNat % 16 * 2 ^ 28 + (match s.part with | .f144 => 0xE901 | .s72 => 0xE902) * 2 ^ 12
    + Config.jep106.toNat * 2 + 1)

/-- IDCODE. -/
def execIdcode (s : State) : Host.Outcome State Fault Refusal :=
  .next ((s.tapLoad 1).tapRelease.emit (.tdo 32 (s.idcode.setWidth 13888)))
/-- SAMPLE_PRELOAD. -/
def execSamplePreload (tdi : BitVec 2400) (s : State) : Host.Outcome State Fault Refusal := .next ((s.tapLoad 2).tapRelease.tapBoundary tdi)
/-- BYPASS, and every code that Table 21.1 does not list. -/
def execBypass (code : BitVec 8) (s : State) : Host.Outcome State Fault Refusal := .next (s.tapLoad code).tapBypass

/-- TAP_RPR[0] to [216], the first in the lowest bits. -/
def State.rprBits (s : State) : Nat := (List.range 217).foldl (fun a u => a + (s.tapRpr u).toNat * 2 ^ (64 * u)) 0
/-- REPAIR_SCAN (R498). -/
def execRepairScan (s : State) : Host.Outcome State Fault Refusal :=
  .next ((s.tapLoad 0x10).tapRelease.emit (.tdo 13888 (BitVec.ofNat 13888 s.rprBits)))

/-- The REPAIR_STATUS reply: TAP_RPR, then HARD_PPR and SOFT_PPR of each far channel and subchannel (Table 21.3). -/
def State.repairBytes (s : State) : List Byte :=
  leBytes 1736 s.rprBits ++ (List.range 16).flatMap fun i =>
    [BitVec.ofNat 8 (min 255 (Tab.get 0 s.mem.hardPpr i)), BitVec.ofNat 8 (min 255 (Tab.get 0 s.mem.softPpr i))]

/-! ### Memory BIST (R496) -/

/-- Channel that TARGET and INSTANCE name. -/
def bistChan (target inst : BitVec 8) : Nat := if target == 2 then inst.toNat else 64 + inst.toNat

def State.bistInst (s : State) (target inst : BitVec 8) : Nat :=
  if (target == 2 && s.part.nmcs ≤ inst.toNat) || (target == 3 && 8 ≤ inst.toNat) then stInvalidInstance else stOK

/-- Steps 8 and 9 of R433, and the conditions that R496 answers with REFUSED. -/
def State.bistCheck (s : State) (target inst pattern : BitVec 8) : Nat :=
  if s.bistInst target inst != stOK then stInvalidInstance
  else if !(1 ≤ target.toNat && target.toNat ≤ 3) || 3 ≤ pattern.toNat then stBadParam
  else
    let ok := if target == 1 then s.boot.level == 0 && s.boot.paused && s.boot.step == 2 && s.boot.stopAt == 0 && !s.boot.fwRom
      else if target == 2 then s.devState == 2 && (s.dom.st == 0 || s.dom.st == 3)
      else (s.chan (64 + inst.toNat)).frozen || (s.mode == 2 && !s.mgt.transition)
    if ok then stOK else stRefused

/-- Sets whose rows a near channel holds. -/
def State.ofChan (s : State) (c set : Nat) : Bool := nmcOf s.part (sliceOfSet s.part set) == c

/-- Every local line held in M or O in a near channel goes to far memory, as CLEAN writes it (Table 4.3) (DEDUCED, unsafe: notes/assumptions/77.md). -/
def State.bistClean (s : State) (c : Nat) : State :=
  ((s.mem.tags.map (·.1)).filter fun set => s.ofChan c set).foldl (fun s set =>
    let n := sliceOfSet s.part set
    (List.range 14).foldl (fun s i =>
      let e := (s.tags n set).get (i + 1)
      let la := lineOf s.part set e.tag
      if s.cacheWay (i + 1) && (e.st == stM || e.st == stO) && s.classOf la == .loc then s.cleanWay n set (i + 1) e false
      else s) s) s

def State.bistGo (s : State) (id : Nat) (target inst : BitVec 8) : State :=
  let s : State := { s with mgt := { s.mgt with bist := some (id, target.toNat, inst.toNat) } }
  if target == 1 then s
  else
    let c := bistChan target inst
    let s := if target == 2 then s.bistClean c else s
    s.setChan c { s.chan c with bist := true }

/-- A near channel as its BIST leaves it: every slot zero, the pool, the queue table and the directory store anew, and the flat lines that
it held counted as lost. -/
def State.bistNearDone (s : State) (c : Nat) : State :=
  let s := s.sweepChan c
  let s : State := { s with mem := { s.mem with
    near := Tab.drop s.mem.near fun a => s.ofChan c (a / 1024)
    nearPoison := Tab.drop s.mem.nearPoison fun k => s.ofChan c (k / 16) } }
  let zs := (List.range (s.farBytes / 2 ^ 21)).filter fun z => s.ofChan c (houseSlot s.part s.houseWays z).1
  let s := zs.foldl (fun s z => s.zmapLost z) s.poolInit
  let s := (List.range 16).foldl (fun s b => s.setBank b { s.bank b with store := [], dc := [], recalls := [], lost := false }) s
  let flat := s.flatWays * (s.part.sets / s.part.nmcs)
  let s := if flat == 0 then s else s.rec_ 0xFF (64 + c) 0xFFFF 0 flat
  s.setChan c { s.chan c with bist := false }

/-- A far channel as its BIST leaves it: every line zero. -/
def State.bistFarDone (s : State) (k fails : Nat) : State :=
  let s : State := { s with mem := { s.mem with
    far := Tab.drop s.mem.far fun a => farCh (a / 64) == k
    farPoison := Tab.drop s.mem.farPoison fun lo => farCh lo == k
    farZero := s.mem.farZero ||| BitVec.ofNat 8 (2 ^ k) } }
  (s.rec_ 0xFF (128 + k) 0xFFFF 0 fails).setChan (64 + k) { s.chan (64 + k) with bist := false }

/-- Rows and columns of the arrays that failed: repaired while a spare is left (R496). -/
def State.bistRepair (s : State) (arrays : List (Nat × Nat × Bool)) : State :=
  arrays.foldl (fun s a =>
    let n := Tab.get 0 s.tap.soft a.1
    let k := min a.2.1 ((Config.sparesLeft a.1).toNat - n)
    { s with tap := { s.tap with soft := Tab.put 0 s.tap.soft a.1 (n + k)
                                 unrep := if a.2.2 || k < a.2.1 then Tab.put false s.tap.unrep a.1 true else s.tap.unrep } }) s

/-- BIST_COMPLETE (R496): `arrays` names, for TARGET 1, units with how many of their rows and columns failed, and whether a failure
found no spare. -/
def execBistComplete (result fails firstAddr : Nat) (arrays : List (Nat × Nat × Bool)) (s : State) : Host.Outcome State Fault Refusal :=
  .next (match s.mgt.bist with
    | none => s
    | some (id, target, inst) =>
      if !s.powered then s
      else
        let s : State := { s with mgt := { s.mgt with bist := none } }
        let s := if target == 1 then s.bistRepair arrays else if target == 2 then s.noFinds fun s => s.bistNearDone inst else s.bistFarDone inst fails
        s.cmdEnd id stOK (leBytes 1 result ++ leBytes 4 fails ++ leBytes 8 firstAddr))

end Sys2Proof.Machine
end

