-- ==== Sys2Proof/Machine/Commands.lean ====
section
/-! DEFINITION. Command packets: the commands of chapter 17, the checks of R433, the queue and the clerks, conflicts, fabric reassembly,
and the meaning of every command row. -/

namespace Sys2Proof.Machine

/-! ### The commands of Table 17.7 and NODE_SET (R426, R438–R442) -/

/-- The part number in 16 bytes of ASCII. -/
def partName : Part → List Byte
  | .f144 => [0x57, 0x5A, 0x2D, 0x45, 0x39, 0x2D, 0x46, 0x31, 0x34, 0x34, 0, 0, 0, 0, 0, 0]
  | .s72 => [0x57, 0x5A, 0x2D, 0x45, 0x39, 0x2D, 0x53, 0x37, 0x32, 0, 0, 0, 0, 0, 0, 0]

/-- The IDENTIFY payload. -/
def State.identifyBytes (s : State) : List Byte :=
  partName s.part ++ [Config.stepping] ++ leBytes 1 s.part.hostPorts ++ leBytes 1 s.part.fabricPorts ++ leBytes 1 s.part.porters
    ++ leBytes 1 s.part.pgcRegions ++ leBytes 2 (s.part.sets / 2 ^ 20) ++ leBytes 2 (if s.boot.level == 0 then 0 else s.farBytes / 2 ^ 30)
    ++ leBytes 8 Config.uniqueId.toNat ++ leBytes 4 Config.romVersion.toNat ++ leBytes 4 s.boot.fwVersion.toNat

/-- The STATUS payload. -/
def State.statusBytes (s : State) : List Byte :=
  leBytes 8 s.glbBoot.toNat ++ leBytes 8 s.glbPartReg.toNat ++ leBytes 8 s.glbCache.toNat ++ leBytes 8 s.mtuSts.toNat
    ++ leBytes 8 s.rtrDom.toNat ++ leBytes 8 (s.frozenBits 0 s.part.nmcs) ++ leBytes 1 (s.frozenBits 64 8) ++ leBytes 8 s.rasLdg.toNat

/-- SET_STATE: step 9 of R433, and the conditions of R438. -/
def State.setStateCheck (s : State) (st : BitVec 8) : Nat :=
  if !(st == 1 || st == 2) then stBadParam
  else if st == 1 && s.devState == 2 && (s.mode == 2 || s.mgt.transition) then stRefused
  else stOK

/-- The state changes: vector 1, and the reply (R438). -/
def State.stateChange (s : State) (id st : Nat) : State :=
  let prev := s.devState
  let s : State := { s with boot := { s.boot with dev := Tmr.of (BitVec.ofNat 2 st) } }
  (s.signalAll 1).cmdEnd id stOK (leBytes 1 prev)

/-- SET_STATE (R438). MAINTENANCE takes effect at once, and requests already accepted keep their bounds (DEDUCED, unsafe:
notes/assumptions/70.md); SERVICE when every channel has left self-refresh (R272). -/
def State.setStateGo (s : State) (id : Nat) (st : BitVec 8) : State :=
  if s.devState == st.toNat then s.cmdEnd id stOK (leBytes 1 s.devState)
  else
    let s := if st == 1 then s.srExitAll else s
    if st == 1 && s.anySr then s else s.stateChange id st.toNat

/-- A SET_STATE that waits for the channels changes the state when the last has left self-refresh. -/
def State.stateDue (s : State) : State :=
  match s.cmdRunning fun b => match b with | .setState _ => true | _ => false with
  | some r =>
    -- one that has entered it again meanwhile leaves it too
    let s := s.srExitAll
    if s.anySr then s else s.stateChange r.id 1
  | none => s

/-- NODE_SET (R426): a NODE above 0x7FFF is refused. -/
def nodeSetCheck (node : BitVec 16) : Nat := if node.toNat ≤ 0x7FFF then stOK else stBadParam
def State.nodeSetGo (s : State) (id : Nat) (node : BitVec 16) : State :=
  ({ s with node := Tmr.of (node.setWidth 15), boot := { s.boot with nodeSet := true } } : State).cmdEnd id stOK []

/-- VALID, VERSION and SVN of a slot. -/
def FlashSlot.info (f : FlashSlot) : List Byte := leBytes 1 (b2n f.valid) ++ leBytes 4 f.version ++ leBytes 4 f.svn

def State.fwInfoGo (s : State) (id : Nat) : State :=
  s.cmdEnd id stOK (s.mgt.flashA.info ++ s.mgt.flashB.info ++ leBytes 1 (if s.boot.fwRom then 0xFF else b2n s.boot.fwSlot))

/-- FW_ERASE: the whole slot. The command ends at the next clock. -/
def State.fwEraseGo (s : State) : State := s.setFlash s.fwTarget { erased := true }

/-- FW_WRITE: refused where a byte has not been erased since the last FW_ERASE. -/
def State.fwWriteCheck (s : State) (off : BitVec 32) (bytes : List Byte) : Nat :=
  let f := s.flash s.fwTarget
  let lo := off.toNat
  let hi := lo + bytes.length
  if 2 ^ 22 ≤ lo || 2 ^ 22 < hi then stBadParam
  else if !f.erased || f.prog.any fun r => lo < r.1 + r.2 && r.1 < hi then stRefused
  else stOK
def flashWrite (m : Memory) (off : Nat) : List Byte → Memory
  | [] => m
  | b :: t => flashWrite (Memory.write8 m off (~~~b)) (off + 1) t
/-- FW_WRITE: the bytes. The command ends at the next clock. -/
def State.fwWriteGo (s : State) (off : BitVec 32) (bytes : List Byte) : State :=
  let f := s.flash s.fwTarget
  s.setFlash s.fwTarget { f with bytes := flashWrite f.bytes off.toNat bytes, prog := f.prog ++ [(off.toNat, bytes.length)] }

def State.fwVerifyGo (s : State) (id : Nat) : State := s.cmdEnd id stOK (s.flash s.fwTarget).info

/-- FW_ACTIVATE: a clerk restart, whose firmware replies; without a valid image the ROM answers FAILED (DEDUCED, unsafe: notes/assumptions/71.md). -/
def State.fwActivateGo (s : State) (id : Nat) : State :=
  let s := s.clerkRestart (some id)
  if s.boot.fwRom then s.cmdEnd id stFailed [] else s.cmdEnd id stOK (leBytes 1 (b2n s.boot.fwSlot))

/-! ### What a command is checked for, and what it does -/

/-- Steps 8 and 9 of R433, and the rules that may still refuse the command when it executes. -/
def State.bodyCheck (s : State) : CmdBody → Nat
  | .setState st => s.setStateCheck st
  | .partSetFlat f => s.partSetFlatCheck f
  | .cacheMode m => s.cacheModeCheck m
  | .rangeOp op fl base len => rangeOpCheck op fl base len
  | .unretire sl set way => s.unretireCheck sl set way
  | .chThaw k c => s.chThawCheck k c
  | .chRetrain k c => s.chRetrainCheck k c
  | .pasrSet m => s.pasrSetCheck m
  | .ppr ch sub rank bg bank row kind => s.pprCheck ch sub rank bg bank row kind
  | .chRawRead k c a n => s.chRawReadCheck k c a n
  | .chRawWrite k c a _ => s.chRawWriteCheck k c a
  | .domSet _ p => s.domSetCheck p
  | .domJoin => s.domJoinCheck
  | .domReform => s.domReformCheck
  | .nodeSet n => nodeSetCheck n
  | .fabPort p a => s.fabPortCheck p a
  | .fabClrUnreach n => fabClrCheck n
  | .timeSet m => timeSetCheck m
  | .ledgerRead _ n => ledgerReadCheck n
  | .tallyRoute es => s.tallyRouteCheck es
  | .fwWrite o bs => s.fwWriteCheck o bs
  | .bistRun t i p => s.bistCheck t i p
  | .identify | .status | .ledgerClear | .traceSetup _ _ _ _ | .fwInfo | .fwErase | .fwVerify | .fwActivate | .repairStatus => stOK
  | .other _ _ => stBadOpcode

/-- The command's effect; it ends at once, or a later event ends it. -/
def State.bodyGo (s : State) (id : Nat) : CmdBody → State
  | .identify => s.cmdEnd id stOK s.identifyBytes
  | .status => s.cmdEnd id stOK s.statusBytes
  | .setState st => s.setStateGo id st
  | .partSetFlat f => s.partSetFlatGo id f
  | .cacheMode m => s.cacheModeGo id m
  | .rangeOp op fl base len => s.rangeOpGo id op fl base len
  | .unretire sl set way => s.unretireGo id sl set way
  | .chThaw k c => s.chThawGo id k c
  | .chRetrain k c => s.chRetrainGo id k c
  | .pasrSet m => s.pasrSetGo id m
  | .ppr ch sub rank bg bank row kind => s.pprGo id ch sub rank bg bank row kind
  | .chRawRead k c a n => s.chRawReadGo id k c a n
  | .chRawWrite k c a d => s.chRawWriteGo id k c a d
  | .domSet d p => s.domSetGo d p
  | .domJoin => s.domJoinGo id
  | .domReform => s.domReformGo id
  | .nodeSet n => s.nodeSetGo id n
  | .fabPort p a => s.fabPortGo id p a
  | .fabClrUnreach n => s.fabClrGo id n
  | .timeSet m => s.timeSetGo id m
  | .ledgerRead f n => s.ledgerReadGo id f n
  | .ledgerClear => s.ledgerClearGo id
  | .tallyRoute es => s.tallyRouteGo es
  | .traceSetup a b c d => (let s := s.traceSetupGo a b c d; s.cmdEnd id stOK (leBytes 8 s.trcSts.toNat))
  | .fwInfo => s.fwInfoGo id
  | .fwErase => s.fwEraseGo
  | .fwWrite o bs => s.fwWriteGo o bs
  | .fwVerify => s.fwVerifyGo id
  | .fwActivate => s.fwActivateGo id
  | .bistRun t i _ => s.bistGo id t i
  | .repairStatus => s.cmdEnd id stOK s.repairBytes
  | .other _ _ => s

/-! ### Conflicts, the queue and the clerks (R434, R435) -/

def cmdGroup (b : CmdBody) : CmdGroup := match cmdInfo (cmdOpc b) with | some i => i.grp | none => .none

/-- A group is held by a command that is queued or executing. -/
def State.groupHeld (s : State) (g : CmdGroup) : Bool := (s.mgt.queue ++ s.mgt.running).any fun r => cmdGroup r.body == g

/-- The unit that the command needs is still at work on what a restart of the clerks left, or on a channel's own exit from self-refresh:
the command stays queued (DEDUCED, unsafe: notes/assumptions/50.md). -/
def State.unitBusy (s : State) : CmdBody → Bool
  | .partSetFlat _ | .cacheMode _ | .rangeOp _ _ _ _ => s.mgt.range.isSome
  | .pasrSet _ => s.mgt.pasr.isSome
  | .chThaw k c | .chRetrain k c | .chRawRead k c _ _ | .chRawWrite k c _ _ =>
    (match s.chanNamed k c with | some n => (s.chan n).training | none => false)
  | .ppr ch _ _ _ _ _ _ => (s.chan (64 + ch.toNat)).training
  | .bistRun _ _ _ => s.mgt.bist.isSome
  | _ => false

/-- Step 10 of R433. -/
def State.conflict (s : State) (b : CmdBody) : Bool :=
  match cmdGroup b with
  | .none => false
  | .all => [CmdGroup.all, .c, .m, .d, .t, .f].any s.groupHeld
  | g => s.groupHeld g || s.groupHeld .all

/-- The command makes the clerk access a channel's memory: it starts no such access from guard start to lull end (R231). -/
def CmdBody.rawAccess : CmdBody → Bool
  | .chRawRead _ _ _ _ | .chRawWrite _ _ _ _ | .ppr _ _ _ _ _ _ _ => true
  | _ => false

/-- A clerk takes the oldest queued command and executes it. -/
def State.runOne (s : State) : State :=
  match s.mgt.queue with
  | [] => s
  | r :: rest =>
    if 4 ≤ s.mgt.running.length || (s.inPause && CmdBody.rawAccess r.body) || s.unitBusy r.body then s
    else
      let s : State := { s with mgt := { s.mgt with queue := rest, running := s.mgt.running ++ [{ r with down := s.dom.st == 3 }] } }
      let c := s.bodyCheck r.body
      if c == stOK then s.bodyGo r.id r.body else s.cmdEnd r.id c []

/-- What takes a clerk to the next clock ends: the programming of flash; DOM_SET, which a domain that has gone DOWN meanwhile fails (R443). -/
def State.runEnds (s : State) : State := s.mgt.running.foldl (fun s r => match r.body with
  | .fwErase | .fwWrite _ _ => s.cmdEnd r.id stOK []
  | .domSet d p => if s.dom.st == 3 && !r.down then s.cmdEnd r.id stFailed [] else s.cmdEnd r.id stOK (leBytes 4 (domDigest d.toNat p.toNat).toNat)
  | _ => s) s

/-- The clerks take what they can (R434). -/
def State.mgtPump (s : State) : State := if s.clerksOn then (List.range 16).foldl (fun s _ => s.runOne) s else s

/-! ### Receiving a command (R427–R433, R436) -/

/-- The carrier can bring a command here and now. -/
def State.carrierOn (s : State) (via : Transport) : Bool :=
  s.clerksOn && (match via with | .mailbox l => s.linkOn l | .mctp _ => true | .fabric _ => s.rtr.enabled)

/-- R430, R333: RTR_MGT admits commands from this node. -/
def State.fabricAllowed (s : State) (node : Nat) : Bool :=
  s.mgtAllow == 2 || (s.mgtAllow == 1 && (List.range 4).any fun i => s.mgr i == node)

/-- The carrier still awaits a reply: the mailbox's command, or one of the MCTP endpoint (Table 17.1, R429) (DEDUCED, safe: notes/assumptions/72.md). -/
def State.carrierBusy (s : State) (via : Transport) : Bool :=
  match via with
  | .mailbox l => (s.link l).mboxBusy
  | .mctp e => (s.mgt.queue ++ s.mgt.running).any fun r => decide (r.hdr.via = .mctp e)
  | .fabric _ => false

/-- Steps 5 to 7 of R433. -/
def State.stateCheck (s : State) (h : CmdHdr) (op : Nat) : Nat :=
  match cmdInfo op with
  | none => stBadOpcode
  | some i =>
    let grp := op / 256
    let fab := match h.via with | .fabric _ => true | _ => false
    if fab && (grp == 0x08 || grp == 0x0F) then stNotPermitted
    else if !(if s.devState == 1 then i.service else if s.devState == 2 then i.maint else i.bringup) then stBadState
    else if s.boot.fwRom then (if grp == 0x01 || grp == 0x08 then stOK else stLevel)
    else if s.boot.level < i.level then stLevel
    else stOK

/-- The status that the checks of R433 give: 0 where the command may be queued. -/
def State.cmdCheck (s : State) (h : CmdHdr) (b : CmdBody) : Nat :=
  let c := hdrCheck h b
  if c != stOK then c
  else
    let c := s.stateCheck h (cmdOpc b)
    if c != stOK then c
    else
      let c := s.bodyCheck b
      if c == stInvalidInstance || c == stBadParam then c
      else if s.conflict b || 16 ≤ s.mgt.queue.length then stBusy
      else stOK

/-- The place of a carrier among those whose commands arrive in one clock (R434). -/
def viaRank : Transport → Nat
  | .mailbox l => l
  | .mctp _ => 8
  | .fabric _ => 9
/-- A queued command goes before those of its own clock whose carrier comes later (R434). -/
def queueIn (q : List Run) (r : Run) : List Run :=
  let later (x : Run) : Bool := x.clk == r.clk && r.rank < x.rank
  q.filter (fun x => !later x) ++ r :: q.filter later

/-- A command packet arrives (R427–R436); `rank` is its carrier's place. -/
def State.mgtAccept (s : State) (h : CmdHdr) (b : CmdBody) (rank : Nat) : State :=
  let op := cmdOpc b
  if !s.carrierOn h.via then s
  else if (match h.via with | .fabric n => !s.fabricAllowed n | _ => false) then
    { s with rtr := { s.rtr with mgtRefused := satAdd 0xFFFF s.rtr.mgtRefused 1 } }
  else if s.carrierBusy h.via then s.carry h.via op h.tag.toNat (replyBytes op h stBusy [])
  else
    let c := s.cmdCheck h b
    if c != stOK || hdrDry h then s.cmdReply op h c []
    else
      let id := s.mgt.nextId
      let r : Run := { id := id, hdr := h, body := b, clk := s.clk, rank := rank }
      let s : State := { s with mgt := { s.mgt with nextId := id + 1, queue := queueIn s.mgt.queue r } }
      let s := match h.via with
        | .mailbox l =>
          let s := s.modLink l fun x => { x with mboxBusy := true }
          if cmdBackground op then s.emit (.background l) else s
        | _ => s
      s.noFinds fun s => s.mgtPump
def State.mgtReceive (s : State) (h : CmdHdr) (b : CmdBody) : State := s.mgtAccept h b (viaRank h.via)

/-! ### Fabric commands (R332, R333) -/

/-- The bytes of a complete buffer. -/
def ReBuf.bytes (b : ReBuf) : List Byte :=
  (List.range b.count).flatMap fun i => match b.got.find? fun g => g.1 == i with | some g => g.2 | none => []

/-- The lowest-numbered reassembly buffer that is free. -/
def State.freeBuf (s : State) : Nat := ((List.range 4).find? fun k => s.rtr.bufs.all fun b => b.slot != k).getD 0

/-- A command from node `src` that buffer `slot` has reassembled. -/
def State.mgtBytes (s : State) (src slot : Nat) (bs : List Byte) : State :=
  let n (o k : Nat) : Nat := leNat ((bs.drop o).take k)
  let h : CmdHdr := { via := .fabric src, tag := BitVec.ofNat 16 (n 2 2), flags := BitVec.ofNat 8 (n 4 1), version := BitVec.ofNat 8 (n 5 1),
                      plen := n 6 2, zeros := BitVec.ofNat 160 (n 8 20), checksum := BitVec.ofNat 32 (n 28 4) }
  s.mgtAccept h (cmdOf (n 0 2) (bs.drop 32)) (9 + slot)

def State.mgtDropped (s : State) : State := { s with rtr := { s.rtr with mgtRefused := satAdd 0xFFFF s.rtr.mgtRefused 1 } }

/-- MANAGEMENT_FRAGMENT (R333): the first fragment takes a buffer, or is refused or answered BUSY; a command without a buffer is lost (DEDUCED, safe: notes/assumptions/73.md). -/
def execManagementFragment (src : Nat) (f : Fragment) (s : State) : Host.Outcome State Fault Refusal :=
  .next (
    let s := s.consume src (.mgt f)
    if !(s.clerksOn && s.rtr.enabled) then s
    else if !s.fabricAllowed src then (if f.index == 0 then s.mgtDropped else s)
    else
      let mine (b : ReBuf) : Bool := b.src == src && b.tag == f.tag
      match s.rtr.bufs.find? mine with
      | none =>
        if f.index != 0 then s
        else if 4 ≤ s.rtr.bufs.length then
          let n (o k : Nat) : Nat := leNat ((f.body.drop o).take k)
          let h : CmdHdr := { via := .fabric src, tag := BitVec.ofNat 16 (n 2 2), flags := BitVec.ofNat 8 (n 4 1) }
          (s.mgtDropped).cmdReply (n 0 2) h stBusy []
        else if f.count == 1 then (if f.body.length == f.total && 32 ≤ f.total then s.mgtBytes src s.freeBuf f.body else s.mgtDropped)
        else
          let b : ReBuf := { slot := s.freeBuf, src := src, tag := f.tag, count := f.count, total := f.total, got := [(0, f.body)], beat := s.beat }
          { s with rtr := { s.rtr with bufs := s.rtr.bufs ++ [b] } }
      | some b =>
        if f.count != b.count || f.total != b.total || b.got.any fun g => g.1 == f.index then s
        else
          let b' : ReBuf := { b with got := b.got ++ [(f.index, f.body)] }
          if b'.got.length < b'.count then
            { s with rtr := { s.rtr with bufs := s.rtr.bufs.map fun x => if mine x then b' else x } }
          else
            let s : State := { s with rtr := { s.rtr with bufs := s.rtr.bufs.filter fun x => !mine x } }
            if b'.bytes.length == b'.total && 32 ≤ b'.total then s.mgtBytes src b'.slot b'.bytes else s.mgtDropped)

/-! ### The command rows -/

/-- IDENTIFY (R440). -/
def execIdentify (h : CmdHdr) (s : State) : Host.Outcome State Fault Refusal := .next (s.mgtReceive h .identify)
/-- STATUS (R440). -/
def execStatus (h : CmdHdr) (s : State) : Host.Outcome State Fault Refusal := .next (s.mgtReceive h .status)
/-- SET_STATE (R438). -/
def execSetState (h : CmdHdr) (st : BitVec 8) (s : State) : Host.Outcome State Fault Refusal := .next (s.mgtReceive h (.setState st))
/-- PART_SET_FLAT (R100). -/
def execPartSetFlat (h : CmdHdr) (f : BitVec 8) (s : State) : Host.Outcome State Fault Refusal := .next (s.mgtReceive h (.partSetFlat f))
/-- CACHE_MODE (R108). -/
def execCacheMode (h : CmdHdr) (m : BitVec 8) (s : State) : Host.Outcome State Fault Refusal := .next (s.mgtReceive h (.cacheMode m))
/-- RANGE_OP (R105). -/
def execRangeOp (h : CmdHdr) (op flags : BitVec 8) (base len : Word) (s : State) : Host.Outcome State Fault Refusal :=
  .next (s.mgtReceive h (.rangeOp op flags base len))
/-- UNRETIRE (R112). -/
def execUnretire (h : CmdHdr) (slice : BitVec 8) (set : BitVec 32) (way : BitVec 8) (s : State) : Host.Outcome State Fault Refusal :=
  .next (s.mgtReceive h (.unretire slice set way))
/-- CH_THAW (R276). -/
def execChThaw (h : CmdHdr) (kind ch : BitVec 8) (s : State) : Host.Outcome State Fault Refusal := .next (s.mgtReceive h (.chThaw kind ch))
/-- CH_RETRAIN (R279). -/
def execChRetrain (h : CmdHdr) (kind ch : BitVec 8) (s : State) : Host.Outcome State Fault Refusal := .next (s.mgtReceive h (.chRetrain kind ch))
/-- PASR_SET (R273). -/
def execPasrSet (h : CmdHdr) (mask : BitVec 8) (s : State) : Host.Outcome State Fault Refusal := .next (s.mgtReceive h (.pasrSet mask))
/-- PPR (R400). -/
def execPpr (h : CmdHdr) (ch sub rank bg bank : BitVec 8) (row : BitVec 32) (kind : BitVec 8) (s : State) : Host.Outcome State Fault Refusal :=
  .next (s.mgtReceive h (.ppr ch sub rank bg bank row kind))
/-- CH_RAW_READ (R441). -/
def execChRawRead (h : CmdHdr) (kind ch : BitVec 8) (addr : Word) (count : BitVec 16) (s : State) : Host.Outcome State Fault Refusal :=
  .next (s.mgtReceive h (.chRawRead kind ch addr count))
/-- CH_RAW_WRITE (R441). -/
def execChRawWrite (h : CmdHdr) (kind ch : BitVec 8) (addr : Word) (data : Line) (s : State) : Host.Outcome State Fault Refusal :=
  .next (s.mgtReceive h (.chRawWrite kind ch addr data))
/-- DOM_SET (R329). -/
def execDomSet (h : CmdHdr) (domain : BitVec 8) (presence : BitVec 128) (s : State) : Host.Outcome State Fault Refusal :=
  .next (s.mgtReceive h (.domSet domain presence))
/-- DOM_JOIN (R330). -/
def execDomJoin (h : CmdHdr) (s : State) : Host.Outcome State Fault Refusal := .next (s.mgtReceive h .domJoin)
/-- DOM_REFORM (R407). -/
def execDomReform (h : CmdHdr) (s : State) : Host.Outcome State Fault Refusal := .next (s.mgtReceive h .domReform)
/-- NODE_SET (R426). -/
def execNodeSet (h : CmdHdr) (node : BitVec 16) (s : State) : Host.Outcome State Fault Refusal := .next (s.mgtReceive h (.nodeSet node))
/-- FAB_PORT (R335). -/
def execFabPort (h : CmdHdr) (port action : BitVec 8) (s : State) : Host.Outcome State Fault Refusal := .next (s.mgtReceive h (.fabPort port action))
/-- FAB_CLR_UNREACH (R335). -/
def execFabClrUnreach (h : CmdHdr) (node : BitVec 16) (s : State) : Host.Outcome State Fault Refusal := .next (s.mgtReceive h (.fabClrUnreach node))
/-- TIME_SET (R215). -/
def execTimeSet (h : CmdHdr) (markMt : Word) (s : State) : Host.Outcome State Fault Refusal := .next (s.mgtReceive h (.timeSet markMt))
/-- LEDGER_READ (R409). -/
def execLedgerRead (h : CmdHdr) (first count : BitVec 16) (s : State) : Host.Outcome State Fault Refusal :=
  .next (s.mgtReceive h (.ledgerRead first count))
/-- LEDGER_CLEAR (R409). -/
def execLedgerClear (h : CmdHdr) (s : State) : Host.Outcome State Fault Refusal := .next (s.mgtReceive h .ledgerClear)
/-- TALLY_ROUTE (R462). -/
def execTallyRoute (h : CmdHdr) (entries : List (BitVec 8 × BitVec 8 × BitVec 16)) (s : State) : Host.Outcome State Fault Refusal :=
  .next (s.mgtReceive h (.tallyRoute entries))
/-- TRACE_SETUP (R462). -/
def execTraceSetup (h : CmdHdr) (f0 f1 f2 cfg : Word) (s : State) : Host.Outcome State Fault Refusal :=
  .next (s.mgtReceive h (.traceSetup f0 f1 f2 cfg))
/-- FW_INFO (R440). -/
def execFwInfo (h : CmdHdr) (s : State) : Host.Outcome State Fault Refusal := .next (s.mgtReceive h .fwInfo)
/-- FW_ERASE (R442). -/
def execFwErase (h : CmdHdr) (s : State) : Host.Outcome State Fault Refusal := .next (s.mgtReceive h .fwErase)
/-- FW_WRITE (R442). -/
def execFwWrite (h : CmdHdr) (off : BitVec 32) (bytes : List Byte) (s : State) : Host.Outcome State Fault Refusal :=
  .next (s.mgtReceive h (.fwWrite off bytes))
/-- FW_VERIFY (R442). -/
def execFwVerify (h : CmdHdr) (s : State) : Host.Outcome State Fault Refusal := .next (s.mgtReceive h .fwVerify)
/-- FW_ACTIVATE (R442). -/
def execFwActivate (h : CmdHdr) (s : State) : Host.Outcome State Fault Refusal := .next (s.mgtReceive h .fwActivate)
/-- BIST_RUN (R496). -/
def execBistRun (h : CmdHdr) (target inst pattern : BitVec 8) (s : State) : Host.Outcome State Fault Refusal :=
  .next (s.mgtReceive h (.bistRun target inst pattern))
/-- REPAIR_STATUS (R497). -/
def execRepairStatus (h : CmdHdr) (s : State) : Host.Outcome State Fault Refusal := .next (s.mgtReceive h .repairStatus)
/-- BAD_OPCODE_COMMAND (R439). -/
def execBadOpcodeCommand (h : CmdHdr) (op : BitVec 16) (params : List Byte) (s : State) : Host.Outcome State Fault Refusal :=
  .next (s.mgtReceive h (cmdOf op.toNat params))

end Sys2Proof.Machine
end

