-- ==== Sys2Proof/Machine/Dispatch.lean ====
section
/-! DEFINITION. exec: one arm per command. -/

namespace Sys2Proof.Machine

/-- A command's effect on everything but the queue. -/
def exec (i : Instr) (s : State) : Host.Outcome State Fault Refusal :=
  match i with
  | .powerGoodRise halves railsOk resetLow => Sys2Proof.Machine.execPowerGoodRise halves railsOk resetLow s
  | .powerGoodFall => Sys2Proof.Machine.execPowerGoodFall s
  | .resetNAssert => Sys2Proof.Machine.execResetNAssert s
  | .warm link => Sys2Proof.Machine.execWarm link s
  | .resetNRelease => Sys2Proof.Machine.execResetNRelease s
  | .bringupStep1End fuseOk => Sys2Proof.Machine.execBringupStep1End fuseOk s
  | .bringupStep2End => Sys2Proof.Machine.execBringupStep2End s
  | .bringupStep3End spd trained => Sys2Proof.Machine.execBringupStep3End spd trained s
  | .bringupStep4End farOk nearOk => Sys2Proof.Machine.execBringupStep4End farOk nearOk s
  | .bringupStep5Start => Sys2Proof.Machine.execBringupStep5Start s
  | .stopAtRaise v => Sys2Proof.Machine.execStopAtRaise v s
  | .nodeSet h node => Sys2Proof.Machine.execNodeSet h node s
  | .clerkRestart => Sys2Proof.Machine.execClerkRestart s
  | .clerkTrap clerk => Sys2Proof.Machine.execClerkTrap clerk s
  | .railFault rail => Sys2Proof.Machine.execRailFault rail s
  | .thermalTrip sensor => Sys2Proof.Machine.execThermalTrip sensor s
  | .cxlMemRequest link r fd => Sys2Proof.Machine.execCxlMemRequest link r fd s
  | .hdmDecoderCommit link dec base size ways gran => Sys2Proof.Machine.execHdmDecoderCommit link dec base size ways gran s
  | .creditReturn link => Sys2Proof.Machine.execCreditReturn link s
  | .hostDeadline rid => Sys2Proof.Machine.execHostDeadline rid s
  | .hostLinkHotReset link => Sys2Proof.Machine.execHostLinkHotReset link s
  | .ideIntegrityFailure link => Sys2Proof.Machine.execIdeIntegrityFailure link s
  | .birsp id dirty fd => Sys2Proof.Machine.execBirsp id dirty fd s
  | .bisnpTimeout id fd => Sys2Proof.Machine.execBisnpTimeout id fd s
  | .badRegisterAccess link off size write => Sys2Proof.Machine.execBadRegisterAccess link off size write s
  | .registerWrite link off size v => Sys2Proof.Machine.execRegisterWrite link off size v s
  | .tagPipelineLookup n idx hsfUe fd => Sys2Proof.Machine.execTagPipelineLookup n idx hsfUe fd s
  | .tagBlockReadDone n q te fd => Sys2Proof.Machine.execTagBlockReadDone n q te fd s
  | .fillInstall n idx fd => Sys2Proof.Machine.execFillInstall n idx fd s
  | .wayRetire n set way fd => Sys2Proof.Machine.execWayRetire n set way fd s
  | .invalidate n => Sys2Proof.Machine.execInvalidate n s
  | .flush n => Sys2Proof.Machine.execFlush n s
  | .tagCacheDisable n => Sys2Proof.Machine.execTagCacheDisable n s
  | .tagCacheActionDone n => Sys2Proof.Machine.execTagCacheActionDone n s
  | .wayPredictorClear n => Sys2Proof.Machine.execWayPredictorClear n s
  | .streamTableClear n => Sys2Proof.Machine.execStreamTableClear n s
  | .mrHwmReset n => Sys2Proof.Machine.execMrHwmReset n s
  | .vbHwmReset n => Sys2Proof.Machine.execVbHwmReset n s
  | .rds src m fd => Sys2Proof.Machine.execRds src m fd s
  | .rdx src m fd => Sys2Proof.Machine.execRdx src m fd s
  | .upg src m fd => Sys2Proof.Machine.execUpg src m fd s
  | .wbd src m fd => Sys2Proof.Machine.execWbd src m fd s
  | .offer src m fd => Sys2Proof.Machine.execOffer src m fd s
  | .iwr src m fd => Sys2Proof.Machine.execIwr src m fd s
  | .atom src m fd => Sys2Proof.Machine.execAtom src m fd s
  | .directoryStoreReadDone n htid errs fd => Sys2Proof.Machine.execDirectoryStoreReadDone n htid errs fd s
  | .chainedRequestStart n la fd => Sys2Proof.Machine.execChainedRequestStart n la fd s
  | .ticketExpiry n htid => Sys2Proof.Machine.execTicketExpiry n htid s
  | .inv src m fd => Sys2Proof.Machine.execInv src m fd s
  | .fwds src m fd => Sys2Proof.Machine.execFwds src m fd s
  | .fwdx src m fd => Sys2Proof.Machine.execFwdx src m fd s
  | .holdExpiry n la fd => Sys2Proof.Machine.execHoldExpiry n la fd s
  | .ack src m fd => Sys2Proof.Machine.execAck src m fd s
  | .data src m fd => Sys2Proof.Machine.execData src m fd s
  | .datao src m fd => Sys2Proof.Machine.execDatao src m fd s
  | .retry src m => Sys2Proof.Machine.execRetry src m s
  | .retryGapExpiry n home opc => Sys2Proof.Machine.execRetryGapExpiry n home opc s
  | .nackDown src m fd => Sys2Proof.Machine.execNackDown src m fd s
  | .nackRange src m fd => Sys2Proof.Machine.execNackRange src m fd s
  | .cohTimeout w => Sys2Proof.Machine.execCohTimeout w s
  | .grd src m fd => Sys2Proof.Machine.execGrd src m fd s
  | .gwr src m fd => Sys2Proof.Machine.execGwr src m fd s
  | .gatom src m fd => Sys2Proof.Machine.execGatom src m fd s
  | .gdata src m => Sys2Proof.Machine.execGdata src m s
  | .gack src m fd => Sys2Proof.Machine.execGack src m fd s
  | .gbusy src m => Sys2Proof.Machine.execGbusy src m s
  | .fabricDeadlineExpiry w fd => Sys2Proof.Machine.execFabricDeadlineExpiry w fd s
  | .pwbEntry rid => Sys2Proof.Machine.execPwbEntry rid s
  | .pwbIssue link => Sys2Proof.Machine.execPwbIssue link s
  | .pwbDeadlineExpiry link seq => Sys2Proof.Machine.execPwbDeadlineExpiry link seq s
  | .pwbHwmReset link => Sys2Proof.Machine.execPwbHwmReset link s
  | .acquireLoadResponse rid => Sys2Proof.Machine.execAcquireLoadResponse rid s
  | .fenceRead link off size => Sys2Proof.Machine.execFenceRead link off size s
  | .fenceLocalWaitsDone fid => Sys2Proof.Machine.execFenceLocalWaitsDone fid s
  | .fenceDeadline fid => Sys2Proof.Machine.execFenceDeadline fid s
  | .arrive src m => Sys2Proof.Machine.execArrive src m s
  | .downdraft src m => Sys2Proof.Machine.execDowndraft src m s
  | .breq src m => Sys2Proof.Machine.execBreq src m s
  | .bbusy src m => Sys2Proof.Machine.execBbusy src m s
  | .bcast src m => Sys2Proof.Machine.execBcast src m s
  | .back src m => Sys2Proof.Machine.execBack src m s
  | .bdone src m => Sys2Proof.Machine.execBdone src m s
  | .systemTreeWrite link off size v => Sys2Proof.Machine.execSystemTreeWrite link off size v s
  | .leaseEpochAdvance entry => Sys2Proof.Machine.execLeaseEpochAdvance entry s
  | .unlockedLeaseAdvance => Sys2Proof.Machine.execUnlockedLeaseAdvance s
  | .epochStepStart => Sys2Proof.Machine.execEpochStepStart s
  | .rosterSweep n => Sys2Proof.Machine.execRosterSweep n s
  | .epochStepComplete => Sys2Proof.Machine.execEpochStepComplete s
  | .walkStart job fd => Sys2Proof.Machine.execWalkStart job fd s
  | .walkTableReadDone x w => Sys2Proof.Machine.execWalkTableReadDone x w s
  | .walkCasDone x w => Sys2Proof.Machine.execWalkCasDone x w s
  | .walkLimit x w => Sys2Proof.Machine.execWalkLimit x w s
  | .speculativeWalkStart x f fd => Sys2Proof.Machine.execSpeculativeWalkStart x f fd s
  | .tlbEntryAgeOut x => Sys2Proof.Machine.execTlbEntryAgeOut x s
  | .address link ctx scope => Sys2Proof.Machine.execAddress link ctx scope s
  | .context link ctx scope => Sys2Proof.Machine.execContext link ctx scope s
  | .all link scope => Sys2Proof.Machine.execAll link scope s
  | .invalidationLimit => Sys2Proof.Machine.execInvalidationLimit s
  | .contextRegisterWrite link off size v => Sys2Proof.Machine.execContextRegisterWrite link off size v s
  | .trainingStateComplete p lanes => Sys2Proof.Machine.execTrainingStateComplete p lanes s
  | .identBlock p b => Sys2Proof.Machine.execIdentBlock p b s
  | .flit p f => Sys2Proof.Machine.execFlit p f s
  | .nak p ackSeq => Sys2Proof.Machine.execNak p ackSeq s
  | .noFlitTimeout p => Sys2Proof.Machine.execNoFlitTimeout p s
  | .flitPack p => Sys2Proof.Machine.execFlitPack p s
  | .routePacket ue => Sys2Proof.Machine.execRoutePacket ue s
  | .oseqGapTimeout src => Sys2Proof.Machine.execOseqGapTimeout src s
  | .routeFailNotice src hdr slot => Sys2Proof.Machine.execRouteFailNotice src hdr slot s
  | .linkReport src port peerPort rseq => Sys2Proof.Machine.execLinkReport src port peerPort rseq s
  | .linkReportTimeout p => Sys2Proof.Machine.execLinkReportTimeout p s
  | .timeExchange p => Sys2Proof.Machine.execTimeExchange p s
  | .timePacket p t replayed => Sys2Proof.Machine.execTimePacket p t replayed s
  | .heartbeatSend => Sys2Proof.Machine.execHeartbeatSend s
  | .heartbeat src domain state digest => Sys2Proof.Machine.execHeartbeat src domain state digest s
  | .memberDead m => Sys2Proof.Machine.execMemberDead m s
  | .join src domain digest => Sys2Proof.Machine.execJoin src domain digest s
  | .ready src domain digest => Sys2Proof.Machine.execReady src domain digest s
  | .membershipBeat => Sys2Proof.Machine.execMembershipBeat s
  | .domJoinTimeout => Sys2Proof.Machine.execDomJoinTimeout s
  | .managementFragment src f => Sys2Proof.Machine.execManagementFragment src f s
  | .reassemblyTimeout buf => Sys2Proof.Machine.execReassemblyTimeout buf s
  | .domainFailNotice src f => Sys2Proof.Machine.execDomainFailNotice src f s
  | .retrain p => Sys2Proof.Machine.execRetrain p s
  | .portEnableWrite p en => Sys2Proof.Machine.execPortEnableWrite p en s
  | .domSet h domain presence => Sys2Proof.Machine.execDomSet h domain presence s
  | .domJoin h => Sys2Proof.Machine.execDomJoin h s
  | .fabPort h port action => Sys2Proof.Machine.execFabPort h port action s
  | .fabClrUnreach h node => Sys2Proof.Machine.execFabClrUnreach h node s
  | .mtRefPresent => Sys2Proof.Machine.execMtRefPresent s
  | .mtRefLost => Sys2Proof.Machine.execMtRefLost s
  | .mtMarkEdge => Sys2Proof.Machine.execMtMarkEdge s
  | .mtHoldEnd => Sys2Proof.Machine.execMtHoldEnd s
  | .timeSet h markMt => Sys2Proof.Machine.execTimeSet h markMt s
  | .scheduleEntryWrite link off size v => Sys2Proof.Machine.execScheduleEntryWrite link off size v s
  | .mtuNowRead link => Sys2Proof.Machine.execMtuNowRead link s
  | .guardStart => Sys2Proof.Machine.execGuardStart s
  | .lullStart => Sys2Proof.Machine.execLullStart s
  | .lullEnd => Sys2Proof.Machine.execLullEnd s
  | .lullSegmentStart c => Sys2Proof.Machine.execLullSegmentStart c s
  | .lullSegmentDone c ok errs => Sys2Proof.Machine.execLullSegmentDone c ok errs s
  | .refreshCadencePhase entry => Sys2Proof.Machine.execRefreshCadencePhase entry s
  | .freeRunningRefresh c => Sys2Proof.Machine.execFreeRunningRefresh c s
  | .scrubStep entry errs => Sys2Proof.Machine.execScrubStep entry errs s
  | .directorySweep entry => Sys2Proof.Machine.execDirectorySweep entry s
  | .counterSnapshot entry => Sys2Proof.Machine.execCounterSnapshot entry s
  | .leakyBucketLeak entry => Sys2Proof.Machine.execLeakyBucketLeak entry s
  | .thermalSample entry temps => Sys2Proof.Machine.execThermalSample entry temps s
  | .commandSlotPick c u e fd => Sys2Proof.Machine.execCommandSlotPick c u e fd s
  | .rowIdleTimeout c u bank => Sys2Proof.Machine.execRowIdleTimeout c u bank s
  | .selfRefreshEntry c => Sys2Proof.Machine.execSelfRefreshEntry c s
  | .selfRefreshExit c fd => Sys2Proof.Machine.execSelfRefreshExit c fd s
  | .channelFreeze c cause f => Sys2Proof.Machine.execChannelFreeze c cause f s
  | .mergeBufferTimeout c u addr e fd => Sys2Proof.Machine.execMergeBufferTimeout c u addr e fd s
  | .pasrSet h mask => Sys2Proof.Machine.execPasrSet h mask s
  | .chThaw h kind ch => Sys2Proof.Machine.execChThaw h kind ch s
  | .chRetrain h kind ch => Sys2Proof.Machine.execChRetrain h kind ch s
  | .chRawRead h kind ch addr count => Sys2Proof.Machine.execChRawRead h kind ch addr count s
  | .chRawWrite h kind ch addr data => Sys2Proof.Machine.execChRawWrite h kind ch addr data s
  | .porterFetch p ue fd => Sys2Proof.Machine.execPorterFetch p ue fd s
  | .porterActivate p => Sys2Proof.Machine.execPorterActivate p s
  | .pieceIssue p fd => Sys2Proof.Machine.execPieceIssue p fd s
  | .pieceResponse p pid => Sys2Proof.Machine.execPieceResponse p pid s
  | .recordRetry p => Sys2Proof.Machine.execRecordRetry p s
  | .queuePut src tq porter seq cell => Sys2Proof.Machine.execQueuePut src tq porter seq cell s
  | .putAnswer src porter seq status => Sys2Proof.Machine.execPutAnswer src porter seq status s
  | .notifyRetry p seq => Sys2Proof.Machine.execNotifyRetry p seq s
  | .abortOne link p seq => Sys2Proof.Machine.execAbortOne link p seq s
  | .abortAll link p => Sys2Proof.Machine.execAbortAll link p s
  | .resume link p => Sys2Proof.Machine.execResume link p s
  | .porterDisable link p => Sys2Proof.Machine.execPorterDisable link p s
  | .enqueue ue qs fd => Sys2Proof.Machine.execEnqueue ue qs fd s
  | .push link k n size => Sys2Proof.Machine.execPush link k n size s
  | .advance link k adv ue fd => Sys2Proof.Machine.execAdvance link k adv ue fd s
  | .dropPacket link k ue fd => Sys2Proof.Machine.execDropPacket link k ue fd s
  | .queueFlush link k ue fd => Sys2Proof.Machine.execQueueFlush link k ue fd s
  | .clear link k => Sys2Proof.Machine.execClear link k s
  | .queueDisable link q => Sys2Proof.Machine.execQueueDisable link q s
  | .domainDownEntry fd => Sys2Proof.Machine.execDomainDownEntry fd s
  | .pageCodeEnable link r => Sys2Proof.Machine.execPageCodeEnable link r s
  | .pageCodeInitDone r => Sys2Proof.Machine.execPageCodeInitDone r s
  | .arm link v => Sys2Proof.Machine.execArm link v s
  | .ppr h ch sub rank bg bank row kind => Sys2Proof.Machine.execPpr h ch sub rank bg bank row kind s
  | .domReform h => Sys2Proof.Machine.execDomReform h s
  | .ledgerRead h first count => Sys2Proof.Machine.execLedgerRead h first count s
  | .ledgerClear h => Sys2Proof.Machine.execLedgerClear h s
  | .partSetFlat h f => Sys2Proof.Machine.execPartSetFlat h f s
  | .cacheMode h m => Sys2Proof.Machine.execCacheMode h m s
  | .rangeOp h op flags base len => Sys2Proof.Machine.execRangeOp h op flags base len s
  | .maintenanceLookup n fd => Sys2Proof.Machine.execMaintenanceLookup n fd s
  | .rangeOpComplete => Sys2Proof.Machine.execRangeOpComplete s
  | .unretire h slice set way => Sys2Proof.Machine.execUnretire h slice set way s
  | .identify h => Sys2Proof.Machine.execIdentify h s
  | .status h => Sys2Proof.Machine.execStatus h s
  | .setState h st => Sys2Proof.Machine.execSetState h st s
  | .fwInfo h => Sys2Proof.Machine.execFwInfo h s
  | .fwErase h => Sys2Proof.Machine.execFwErase h s
  | .fwWrite h off bytes => Sys2Proof.Machine.execFwWrite h off bytes s
  | .fwVerify h => Sys2Proof.Machine.execFwVerify h s
  | .fwActivate h => Sys2Proof.Machine.execFwActivate h s
  | .tallyRoute h entries => Sys2Proof.Machine.execTallyRoute h entries s
  | .traceSetup h f0 f1 f2 cfg => Sys2Proof.Machine.execTraceSetup h f0 f1 f2 cfg s
  | .start link u mask => Sys2Proof.Machine.execStart link u mask s
  | .stop link u mask => Sys2Proof.Machine.execStop link u mask s
  | .counterClear link u => Sys2Proof.Machine.execCounterClear link u s
  | .evselWrite link u idx evsel => Sys2Proof.Machine.execEvselWrite link u idx evsel s
  | .routingDone u idx => Sys2Proof.Machine.execRoutingDone u idx s
  | .capture link => Sys2Proof.Machine.execCapture link s
  | .boundClear link port => Sys2Proof.Machine.execBoundClear link port s
  | .bistRun h target inst pattern => Sys2Proof.Machine.execBistRun h target inst pattern s
  | .bistComplete result fails firstAddr arrays => Sys2Proof.Machine.execBistComplete result fails firstAddr arrays s
  | .repairStatus h => Sys2Proof.Machine.execRepairStatus h s
  | .testLogicReset => Sys2Proof.Machine.execTestLogicReset s
  | .extest tdi => Sys2Proof.Machine.execExtest tdi s
  | .idcode => Sys2Proof.Machine.execIdcode s
  | .samplePreload tdi => Sys2Proof.Machine.execSamplePreload tdi s
  | .extestPulse tdi => Sys2Proof.Machine.execExtestPulse tdi s
  | .extestTrain tdi => Sys2Proof.Machine.execExtestTrain tdi s
  | .clamp => Sys2Proof.Machine.execClamp s
  | .highz => Sys2Proof.Machine.execHighz s
  | .repairScan => Sys2Proof.Machine.execRepairScan s
  | .bypass code => Sys2Proof.Machine.execBypass code s
  | .mtMarkMissing => Sys2Proof.Machine.execMtMarkMissing s
  | .neighbourStampTimeout => Sys2Proof.Machine.execNeighbourStampTimeout s
  | .halfRateCatchUpEnd => Sys2Proof.Machine.execHalfRateCatchUpEnd s
  | .laneLockLost p => Sys2Proof.Machine.execLaneLockLost p s
  | .railsInRange => Sys2Proof.Machine.execRailsInRange s
  | .hostLinkUp link rate width ide flitLo => Sys2Proof.Machine.execHostLinkUp link rate width ide flitLo s
  | .memoryReadDone tok fd => Sys2Proof.Machine.execMemoryReadDone tok fd s
  | .badOpcodeCommand h op params => Sys2Proof.Machine.execBadOpcodeCommand h op params s
  | .tallyLowHalfRead link off => Sys2Proof.Machine.execTallyLowHalfRead link off s
  | .domainFailNoticeResend => Sys2Proof.Machine.execDomainFailNoticeResend s
  | .channelTrainingComplete c ok => Sys2Proof.Machine.execChannelTrainingComplete c ok s

end Sys2Proof.Machine
end

