-- ==== Sys2Proof/Machine/Tick.lean ====
section
/-! DEFINITION. What one core clock does when no command waits: time passes, triple-stored words are read, requests that wait for a
moment go on, the clerks take queued commands, and the counters count (DESIGN CHOICE, unsafe: notes/assumptions/2.md). -/

namespace Sys2Proof.Machine

/-! ### Triple-stored words (R388, Table 15.2) -/

/-- Read one triple-stored word: a disagreement is recorded and the word rewritten; without a majority `lost` follows. -/
def State.tmrRead {n : Nat} (s : State) (unit word : Nat) (t : Tmr n) (put : State → Tmr n → State) (lost : State → State) : State :=
  if !t.disagrees then s
  else match t.value with
    | some v => put (s.rec_ 0x08 unit 0xFFFF 0 word) (Tmr.of v)
    | none => lost (s.rec_ 0x09 unit 0xFFFF 0 word)

/-- A word whose loss has been told is read no more. -/
def State.tmrUntold (s : State) (word : Nat) (f : State → State) : State := if s.ras.tmrTold.contains word then s else f s

/-- The outcome of Table 15.2 for a word that stays without a majority: once. -/
def State.tmrOnce (s : State) (word : Nat) (f : State → State) : State :=
  if s.ras.tmrTold.contains word then s else f { s with ras := { s.ras with tmrTold := s.ras.tmrTold ++ [word] } }

/-- GLB_PART or GLB_HOUSE has no majority: HOLD at once, MAINTENANCE, and a fatal internal error. A command whose visits stop with
the layout ends FAILED (DEDUCED, unsafe: notes/assumptions/50.md). -/
def State.layoutLost (s : State) (word : Nat) : State :=
  let s := match s.mgt.range with | some r => s.cmdEnd r.runId stFailed [] | none => s
  let s : State := { s with mode := 2, mgt := { s.mgt with transition := false, moving := false, range := none } }
  let s := if s.devState == 2 then s
    else (({ s with boot := { s.boot with dev := Tmr.of 2 } } : State).voidAll).signalAll 1
  s.fatal 210 word

/-- A schedule entry without a majority (Table 15.2): EN 0, CLASS 0, SCH_ERR; its other fields are free (DEDUCED, safe: notes/assumptions/76.md). -/
def State.schLost (s : State) (i : Nat) : State :=
  let v := BitVec.ofNat 96 ((Config.freeWord s.free).toNat % 2 ^ 56 % 2 ^ 54 + (Config.freeWord (s.free + 1)).toNat % 2 ^ 32 * 2 ^ 64)
  { s with free := s.free + 2,
           mtu := { s.mtu with sch := Tab.put (Tmr.of 0) s.mtu.sch i (Tmr.of (v &&& 0xFFFFFFFF003F07FFFFDFFFFF#96)), schErr := true,
                               schErrEntry := i } }

/-- The clerk state flags have no majority: a clerk restart, and MAINTENANCE. -/
def State.devLost (s : State) : State :=
  let s := ({ s with boot := { s.boot with dev := Tmr.of 2 } } : State).voidAll
  (s.signalAll 1).clerkRestart none

/-- Read every triple-stored word. -/
def State.tmrClock (s : State) : State :=
  let s := s.tmrUntold 0 fun s => s.tmrRead 210 0 s.node (fun s t => { s with node := t }) fun s => s.tmrOnce 0 fun s => s.fatal 210 0
  let s := s.tmrUntold 1 fun s => s.tmrRead 169 1 s.dom.table (fun s t => { s with dom := { s.dom with table := t } }) fun s =>
    s.tmrOnce 1 fun s => s.fatal 169 1
  let s := s.tmrUntold 2 fun s => s.tmrRead 210 2 s.glbPart (fun s t => { s with glbPart := t }) fun s => s.tmrOnce 2 fun s => s.layoutLost 2
  let s := s.tmrUntold 3 fun s => s.tmrRead 210 3 s.glbHouse (fun s t => { s with glbHouse := t }) fun s => s.tmrOnce 3 fun s => s.layoutLost 3
  let s := s.tmrRead 210 4 s.boot.dev (fun s t => { s with boot := { s.boot with dev := t } }) fun s => s.devLost
  let s := s.mtu.sch.foldl (fun s e =>
    s.tmrRead 209 (16 + e.1) e.2 (fun s t => { s with mtu := { s.mtu with sch := Tab.put (Tmr.of 0) s.mtu.sch e.1 t } }) fun s =>
      s.schLost e.1) s
  s.links.foldl (fun s e =>
    s.tmrRead (211 + e.1 / 2) (128 + e.1) e.2.credits (fun s t => s.modLink e.1 fun x => { x with credits := t }) fun s => s.hotReset e.1) s

/-! ### The clock -/

/-- The clock's count, the clocks that deadlines do not count, and MT. -/
def State.timeClock (s : State) : State :=
  let b := s.beat
  let s := ({ s with clk := s.clk + 1, paused := if s.inPause then s.paused + 1 else s.paused } : State).mtClock
  if s.beat != b then s.event 209 1 1 else s

/-- One core clock; none passes while the units are stopped (R424). -/
def tick (s : State) : State :=
  if !s.powered then s
  else s.noFinds fun s =>
    let s := s.leakClock.timeClock.houseSettle.fatalsDue.tmrClock.portClock.fncClock.joinEnd.runEnds.pasrPump.stateDue.scrubClock
    let s := s.slices.foldl (fun s (n, _) => s.tcStep n) s
    (s.mgtPump.routesDue).tallyClock

end Sys2Proof.Machine
end

