-- ==== Sys2Proof/Safety.lean ====
section
/-! DEFINITION. The terms in which claims speak of states: the pieces of a state and what "only these pieces change" means, and the
invariant that every step keeps. -/

namespace Sys2Proof.Machine

/-- A link's registers and buffers without its pending interrupt bits. -/
def HLink.noPba (x : HLink) : HLink := { x with pba := [] }

/-- A choice of pieces of the state. -/
structure Mask where
  /-- core clock -/
  clk : Bool := false
  /-- start of CYCLES -/
  cyc0 : Bool := false
  /-- clocks that deadlines do not count -/
  paused : Bool := false
  /-- free values taken (the model's own) -/
  free : Bool := false
  /-- what the codes will find (the model's own) -/
  finds : Bool := false
  /-- errors that reads have met and that the next clock acts on -/
  due : Bool := false
  /-- power, sensors -/
  pcr : Bool := false
  /-- bring-up, level, device state -/
  boot : Bool := false
  /-- node number -/
  node : Bool := false
  /-- software-writable registers; TRC_CFG is `trcCfg` -/
  csr : Bool := false
  /-- TRC_CFG, whose EN a trace record may clear -/
  trcCfg : Bool := false
  /-- MSI-X tables -/
  msix : Bool := false
  /-- GLB_IRQ -/
  irq : Bool := false
  /-- GLB_PART -/
  glbPart : Bool := false
  /-- GLB_HOUSE -/
  glbHouse : Bool := false
  /-- GLB_CACHE.MODE -/
  mode : Bool := false
  /-- cache slices -/
  slices : Bool := false
  /-- directory banks -/
  banks : Bool := false
  /-- memory channels -/
  chans : Bool := false
  /-- far memory: bytes, poison, lines written, zero map, zeroing trackers -/
  far : Bool := false
  /-- near memory: data ways, poison, tag blocks, set records, slots as the raw path wrote them -/
  near : Bool := false
  /-- reads on their way and the order numbers of accesses -/
  memIo : Bool := false
  /-- population, PASR, repairs -/
  memCfg : Bool := false
  /-- host snoop filter -/
  hsf : Bool := false
  /-- outstanding back-invalidations -/
  bisnps : Bool := false
  /-- host links; their pending interrupt bits are `pba` -/
  links : Bool := false
  /-- pending interrupt bits of the links -/
  pba : Bool := false
  /-- accepted host requests -/
  hreqs : Bool := false
  /-- next request number -/
  nextRid : Bool := false
  /-- unperformed accesses, and failed ones that a fence will report -/
  accs : Bool := false
  /-- lease tracker -/
  lse : Bool := false
  /-- fence unit -/
  fnc : Bool := false
  /-- translation units -/
  xlts : Bool := false
  /-- invalidation registers -/
  xinv : Bool := false
  /-- fabric ports -/
  ports : Bool := false
  /-- packets waiting for a routing decision, and OSEQ to stamp -/
  rtrTx : Bool := false
  /-- packets delivered and not yet taken -/
  rtrRx : Bool := false
  /-- nodes marked unreachable -/
  rtrUn : Bool := false
  /-- the rest of the router -/
  rtr : Bool := false
  /-- domain -/
  dom : Bool := false
  /-- MT, and the value at which it is held or runs at half rate -/
  mt : Bool := false
  /-- the rest of machine time -/
  mtu : Bool := false
  /-- porters -/
  pors : Bool := false
  /-- queue manager -/
  qmg : Bool := false
  /-- ledger: ring, records lost, records held -/
  ledger : Bool := false
  /-- leaky buckets, and the leaks of this clock -/
  bkt : Bool := false
  /-- injection: ARM, RAS_FLIP_ADR, the word last corrupted, the words that stay corrupted -/
  flip : Bool := false
  /-- the rest of RAS -/
  ras : Bool := false
  /-- firmware slots -/
  flash : Bool := false
  /-- commands queued and executing -/
  mgtq : Bool := false
  /-- work of executing commands -/
  mgt : Bool := false
  /-- counters -/
  tlys : Bool := false
  /-- events of the present clock -/
  events : Bool := false
  /-- trace buffer -/
  trc : Bool := false
  /-- test access -/
  tap : Bool := false
  /-- what the E9 has sent -/
  outs : Bool := false
  deriving DecidableEq, Repr

/-- Nothing where the piece is hidden. -/
def hide {α : Type} (h : Bool) (x : α) : Option α := match h with | true => none | false => some x

/-- The state as its pieces, those of a mask hidden. The part number and the queue of commands are always shown. -/
structure View where
  part : Part
  pending : List Instr
  clk : Option (Nat)
  cyc0 : Option (Nat)
  paused : Option (Nat)
  free : Option (Nat)
  finds : Option (Finds)
  due : Option (List (Nat × Bool × Nat) × List (Nat × Nat))
  pcr : Option (Pcr)
  boot : Option (Boot)
  node : Option (Tmr 15)
  csr : Option (Nat → Word)
  trcCfg : Option (Word)
  msix : Option (Tab Word)
  irq : Option (BitVec 6)
  glbPart : Option (Tmr 16)
  glbHouse : Option (Tmr 33)
  mode : Option (Nat)
  slices : Option (Tab Slice)
  banks : Option (Tab Bank)
  chans : Option (Tab Chan)
  far : Option (Memory × Tab Bool × Tab Bool × BitVec 8 × Tab Bool × List ZTrk)
  near : Option (Memory × Tab Bool × Tab TagBlk × Tab SetRec × Tab (Line × Line))
  memIo : Option (List MemRd × Nat × Nat)
  memCfg : Option (BitVec 8 × Bool × Nat × Nat × Bool × Tab Nat × Tab Nat × Nat)
  hsf : Option (List HsfEnt)
  bisnps : Option (List BiSnp × Nat)
  links : Option (Nat → HLink)
  pba : Option (Nat → List Nat)
  hreqs : Option (List HostReq)
  nextRid : Option (Nat)
  accs : Option (List Acc × List FailRec)
  lse : Option (Lse)
  fnc : Option (Fnc)
  xlts : Option (Tab Xlt)
  xinv : Option (XInv)
  ports : Option (Tab FPort)
  rtrTx : Option (List Packet × Tab Nat)
  rtrRx : Option (List Packet)
  rtrUn : Option (List Nat)
  rtr : Option (Bool × Tab Nat × List (Nat × Packet) × Nat × Nat × Nat × Nat × List ReBuf × List Nat × List Nat)
  dom : Option (Dom)
  mt : Option (Nat × Option Nat × Option Nat)
  mtu : Option (Mtu)
  pors : Option (Tab Porter)
  qmg : Option (Qmg)
  ledger : Option (List (Nat × LRec) × Nat × List LRec × Nat)
  bkt : Option (Tab Bucket × List Nat)
  flip : Option (Bool × Word × Option (Nat × Nat × Nat) × List Flip)
  ras : Option (Bool × Tab Bool × Nat × List Nat × List Nat)
  flash : Option (FlashSlot × FlashSlot)
  mgtq : Option (List Run × List Run × Nat)
  mgt : Option (Option RangeSt × Bool × Bool × Option (Nat × Nat × Nat) × Option Pasr × List Nat × Option (BitVec 7))
  tlys : Option (Tab Tly)
  events : Option (Tab Nat)
  trc : Option (Trc)
  tap : Option (Tap)
  outs : Option (List Out)

/-- What a mask leaves in sight. -/
def view (m : Mask) (s : State) : View where
  part := s.part
  pending := s.pending
  clk := hide m.clk (s.clk)
  cyc0 := hide m.cyc0 (s.cyc0)
  paused := hide m.paused (s.paused)
  free := hide m.free (s.free)
  finds := hide m.finds (s.finds)
  due := hide m.due ((s.ras.fatalDue, s.mem.houseUe))
  pcr := hide m.pcr (s.pcr)
  boot := hide m.boot (s.boot)
  node := hide m.node (s.node)
  csr := hide m.csr (fun o => if o = offTrc 0 then 0 else csrReset o ^^^ Tab.get 0 s.csr o)
  trcCfg := hide m.trcCfg (csrReset (offTrc 0) ^^^ Tab.get 0 s.csr (offTrc 0))
  msix := hide m.msix (s.msix)
  irq := hide m.irq (s.irq)
  glbPart := hide m.glbPart (s.glbPart)
  glbHouse := hide m.glbHouse (s.glbHouse)
  mode := hide m.mode (s.mode)
  slices := hide m.slices (s.slices)
  banks := hide m.banks (s.banks)
  chans := hide m.chans (s.mem.chans)
  far := hide m.far ((s.mem.far, s.mem.farPoison, s.mem.farWritten, s.mem.farZero, s.mem.zmap, s.mem.ztrk))
  near := hide m.near ((s.mem.near, s.mem.nearPoison, s.mem.tags, s.mem.recs, s.mem.raw))
  memIo := hide m.memIo ((s.mem.reads, s.mem.nextTok, s.mem.nextSeq))
  memCfg := hide m.memCfg ((s.mem.pasrMask, s.mem.pasrEn, s.mem.rbits, s.mem.kbits, s.mem.popSet, s.mem.softPpr, s.mem.hardPpr, s.mem.dram))
  hsf := hide m.hsf (s.hsf)
  bisnps := hide m.bisnps ((s.bisnps, s.nextBi))
  links := hide m.links (fun l => (Tab.get {} s.links l).noPba)
  pba := hide m.pba (fun l => (Tab.get {} s.links l).pba)
  hreqs := hide m.hreqs (s.hreqs)
  nextRid := hide m.nextRid (s.nextRid)
  accs := hide m.accs ((s.accs, s.fails))
  lse := hide m.lse (s.lse)
  fnc := hide m.fnc (s.fnc)
  xlts := hide m.xlts (s.xlts)
  xinv := hide m.xinv (s.xinv)
  ports := hide m.ports (s.ports)
  rtrTx := hide m.rtrTx ((s.rtr.q, s.rtr.oseqTx))
  rtrRx := hide m.rtrRx (s.rtr.delivered)
  rtrUn := hide m.rtrUn (s.rtr.unreach)
  rtr := hide m.rtr ((s.rtr.enabled, s.rtr.oseqRx, s.rtr.store, s.rtr.hopDiscard, s.rtr.routeFail, s.rtr.oseqGap, s.rtr.mgtRefused, s.rtr.bufs, s.rtr.downDoms, s.rtr.badRt))
  dom := hide m.dom (s.dom)
  mt := hide m.mt ((s.mtu.mt, s.mtu.half, s.mtu.hold))
  mtu := hide m.mtu (({ s.mtu with mt := 0, half := none, hold := none } : Mtu))
  pors := hide m.pors (s.pors)
  qmg := hide m.qmg (s.qmg)
  ledger := hide m.ledger ((s.ras.ring, s.ras.lost, s.ras.pend, s.ras.pendLost))
  bkt := hide m.bkt ((s.ras.bkt, s.ras.leaks))
  flip := hide m.flip ((s.ras.arm, s.ras.flipAdr, s.ras.flipAt, s.ras.latent))
  ras := hide m.ras ((s.ras.inService, s.ras.pgcInit, s.ras.pgcScrub, s.ras.zcache, s.ras.tmrTold))
  flash := hide m.flash ((s.mgt.flashA, s.mgt.flashB))
  mgtq := hide m.mgtq ((s.mgt.queue, s.mgt.running, s.mgt.nextId))
  mgt := hide m.mgt ((s.mgt.range, s.mgt.moving, s.mgt.transition, s.mgt.bist, s.mgt.pasr, s.mgt.thawed, s.mgt.i3c))
  tlys := hide m.tlys (s.tlys)
  events := hide m.events (s.events)
  trc := hide m.trc (s.trc)
  tap := hide m.tap (s.tap)
  outs := hide m.outs (s.outs)

/-- Going from `s` to `t` changes nothing outside the pieces of `m`; the part number and the waiting commands are the same. -/
def Only (m : Mask) (s t : State) : Prop := view m t = view m s

/-- Bounds and canonical forms that hold in every state a run can reach:
the byte memories list their addresses strictly rising and no byte equal to what an unlisted address reads as; the service level and the
cache mode are among those the spec names (R410, Table 4.4); machine time's lock state is one of four (R219); the ledger holds at most
4,096 records and 64 waiting ones (R408, R499); the clerks hold at most 16 queued commands and execute at most four (R434). -/
structure StateInv (s : State) : Prop where
  far : Memory.wf s.mem.far = true
  near : Memory.wf s.mem.near = true
  stage : Memory.wf s.qmg.stage = true
  flashA : Memory.wf s.mgt.flashA.bytes = true
  flashB : Memory.wf s.mgt.flashB.bytes = true
  level : s.boot.level ≤ 3
  mode : s.mode ≤ 2
  lock : s.mtu.lock ≤ 3
  ring : s.ras.ring.length ≤ 4096
  pend : s.ras.pend.length ≤ 64
  queue : s.mgt.queue.length ≤ 16
  running : s.mgt.running.length ≤ 4

/-- Going from `s` to `t`, request `q` has come to the input of slice `n`, and no slice has changed otherwise. -/
def Arrives (n : Nat) (q : Req) (s t : State) : Prop :=
  ∀ k, t.slice k = if k = n then { s.slice n with inq := (s.slice n).inq ++ [q] } else s.slice k

/-- Going from `s` to `t`, exactly these messages have entered the router, in this order: their destinations and bodies. -/
def Sends (l : List (Nat × PktBody)) (s t : State) : Prop :=
  t.rtr.q.map (fun p => (p.dst, p.body)) = s.rtr.q.map (fun p => (p.dst, p.body)) ++ l

/-- The tracker that takes a request of opcode `opc` from `src`: the reserved one of the ticket it carries (R138), else general tracker `g`. -/
def State.takenBy (s : State) (src opc : Nat) (m : CohMsg) (g : Nat) : Nat :=
  if m.tkt && m.htid == htidRes (src % 128) opc && (match s.trk (sliceOf m.la) m.htid with
    | some t => t.ph == .reserved && t.ticketTid == m.tid
    | none => false) then m.htid else g

/-- No near channel's merge buffer holds a write. -/
def NoMerges (s : State) : Prop :=
  ∀ c < 64, ∀ u < 2, (s.cunit c u).merge = []

/-- Line `la` is homed on this working E9, no tracker is open for it, general tracker `g` of its slice is free, and the directory cache
holds its entry `e` in way `w` of its store set; a lookup of the line's set need not wait. -/
structure LineReady (s : State) (la g w : Nat) (e : DirEnt) : Prop where
  powered : s.powered = true
  here : laNode la = s.nodeNo
  far : s.inFar la = true
  free : s.general (sliceOf la) = some g
  idle : ∀ t ∈ (s.slice (sliceOf la)).trks, t.la = la → t.ph = .reserved
  hit : (s.bank (sliceOf la / 4)).dcHit (dirSetOf s.dirGib la) (laLocal la) = some w
  ent : (s.bank (sliceOf la / 4)).ent (dirSetOf s.dirGib la) w = e
  sound : (s.bank (sliceOf la / 4)).lost = false
  swept : s.dom.downDue = false
  looks : s.tagWaits (sliceOf la) (setOf s.part la) = false

/-- This E9's domain is UP, and `src` is another of its members. -/
structure PeerUp (s : State) (src : Nat) : Prop where
  up : s.dom.st = 2
  member : s.peerNode src = true
  other : src ≠ s.nodeNo

/-- This working E9 holds line `la` of another member, the sender `home`, in way `w` with entry `e`; no hold runs on it, the victim buffer
does not hold it, no register holds a grant of it, no host of this E9 holds it, its near channel works, and no tag-cache entry of its
slice stands before the near-memory tag block, which obeys R42; no word that injection corrupted stands. -/
structure HeldHere (s : State) (home la w : Nat) (e : TagEnt) : Prop where
  powered : s.powered = true
  peer : PeerUp s home
  home : laNode la = home
  free : ∀ h ∈ (s.slice (sliceOf la)).holds, h.la = la → h.until_ ≤ s.clk
  noVb : ∀ v ∈ (s.slice (sliceOf la)).vbs, v.la ≠ la
  noHost : s.hsfCopies la false = [] ∧ s.biOpen la false = false
  noCache : (s.slice (sliceOf la)).tc = []
  block : (s.nearTags (setOf s.part la)).ways.length = 14
  sound : tagError s.part (setOf s.part la) (s.nearTags (setOf s.part la)) = false
  works : s.nearFrozen (sliceOf la) = false
  settled : s.granted (sliceOf la) la = false
  clean : s.ras.latent = []
  held : s.findLine la = some (w, e)

/-- No tag-cache entry of another row stands for the set. -/
def State.rowsApart (s : State) (n set : Nat) : Prop :=
  ∀ k e, Tab.get none (s.slice n).tc k = some e → setOfRow s.part n e.row = set → e.row = rowOf s.part set

/-- Miss register `r` of slice `sliceOf la` is the only one there, waits for an answer from line `la`'s home on another node, and nothing
of the slice is held back or waits in its victim buffer or among its handed-over writes. -/
structure OnlyRegister (s : State) (la : Nat) (r : Mr) : Prop where
  powered : s.powered = true
  away : laNode la ≠ s.nodeNo
  only : (s.slice (sliceOf la)).mrs = [r]
  line : r.la = la
  number : r.idx < 64
  sent : r.st = .sent
  fresh : r.refSeq = 0
  noOut : (s.slice (sliceOf la)).outw = []
  noVb : (s.slice (sliceOf la)).vbs = []

/-- No leaf in any TLB of `x` that `leaf` picks, and no walk-cache pointer that `ptr` picks. -/
structure Lacks (x : Xlt) (leaf : TlbEnt → Bool) (ptr : WcEnt → Bool) : Prop where
  l1s : ∀ k e, Tab.get none x.l1s k = some e → leaf e = false
  l1d : ∀ k e, Tab.get none x.l1d k = some e → leaf e = false
  l2 : ∀ k e, Tab.get none x.l2 k = some e → leaf e = false
  wc : ∀ k e, Tab.get none x.wc k = some e → ptr e = false

/-- The walk of walker `v` of XLT `x` has ended in a fault with this code, which the empty fault registers have captured, and its walker is
free. -/
structure WalkFaulted (x : Nat) (v : Walker) (code : Nat) (s t : State) : Prop where
  gone : (t.xlt x).walkers = []
  count : (t.xlt x).faults = satAdd 0xFFFF (s.xlt x).faults 1
  valid : (t.xlt x).fltValid = true
  sub : (t.xlt x).fltSub = code
  va : (t.xlt x).fltVa = v.va
  ctx : (t.xlt x).fltCtx = v.ctx
  l1s : (t.xlt x).l1s = (s.xlt x).l1s
  l1d : (t.xlt x).l1d = (s.xlt x).l1d
  l2 : (t.xlt x).l2 = (s.xlt x).l2

/-- XLT `x` of this working E9 is present, has `v` as its only walker, no job, no walk-cache pointer and no captured fault, and `v` is no
speculative walk. -/
structure OneWalk (s : State) (x : Nat) (v : Walker) : Prop where
  powered : s.powered = true
  present : s.part.xltPresent x = true
  walker : (s.xlt x).walkers = [v]
  jobs : (s.xlt x).jobs = []
  fresh : (s.xlt x).fltValid = false
  demand : v.spec = false

/-- What a warm reset leaves (R419, R420, R423): `lullTrks` is the model's own note of the lull in progress; what machine
time shows of its neighbours goes with the ports. -/
structure KeptByWarmReset (s t : State) : Prop where
  mtu : t.mtu = { s.mtu with lullTrks := [], stratum := if s.master then 0 else 255, steer := none,
                             slew := if s.mtu.steer = none then s.mtu.slew else 0 }
  node : t.node = s.node
  table : t.dom = { table := s.dom.table, digest := s.dom.digest }
  routes : ∀ o, 0x300000 ≤ o → o < 0x340000 → t.csrGet o = s.csrGet o
  rtrMgt : t.csrGet (offRtr 8) = s.csrGet (offRtr 8)
  pcrRegs : ∀ o, 0x70000 ≤ o → o < 0x80000 → t.csrGet o = s.csrGet o
  oseq : t.rtr = { oseqTx := s.rtr.oseqTx, oseqRx := s.rtr.oseqRx, badRt := s.rtr.badRt }
  house : t.glbHouse.val &&& houseStaged = s.glbHouse.val &&& houseStaged
  ledger : t.ras = { ring := s.ras.ring, lost := s.ras.lost }
  repairs : t.mem = { softPpr := s.mem.softPpr, hardPpr := s.mem.hardPpr }
  boot : t.boot = { lastReset := 2, nodeSet := s.boot.nodeSet, stopAt := s.boot.stopAt }
  part : t.glbPart = Tmr.of (partReset s.part) ∧ t.mode = 0
  caches : t.slices = [] ∧ t.banks = [] ∧ t.hsf = [] ∧ t.bisnps = []
  hosts : t.links = [] ∧ t.hreqs = [] ∧ t.accs = [] ∧ t.lse = {} ∧ t.fnc = {}
  units : t.xlts = [] ∧ t.ports = [] ∧ t.pors = [] ∧ t.qmg = {} ∧ t.tlys = [] ∧ t.trc = {}
  images : t.mgt = { flashA := s.flashLeft false, flashB := s.flashLeft true, i3c := s.mgt.i3c }

/-- The command constructor that carries a command packet with body `b`. -/
def cmdInstr (h : CmdHdr) : CmdBody → Instr
  | .identify => .identify h
  | .status => .status h
  | .setState st => .setState h st
  | .partSetFlat f => .partSetFlat h f
  | .cacheMode m => .cacheMode h m
  | .rangeOp op fl base len => .rangeOp h op fl base len
  | .unretire sl set way => .unretire h sl set way
  | .chThaw k c => .chThaw h k c
  | .chRetrain k c => .chRetrain h k c
  | .pasrSet m => .pasrSet h m
  | .ppr ch sub rank bg bank row kind => .ppr h ch sub rank bg bank row kind
  | .chRawRead k c a n => .chRawRead h k c a n
  | .chRawWrite k c a d => .chRawWrite h k c a d
  | .domSet d p => .domSet h d p
  | .domJoin => .domJoin h
  | .domReform => .domReform h
  | .nodeSet n => .nodeSet h n
  | .fabPort p a => .fabPort h p a
  | .fabClrUnreach n => .fabClrUnreach h n
  | .timeSet m => .timeSet h m
  | .ledgerRead f n => .ledgerRead h f n
  | .ledgerClear => .ledgerClear h
  | .tallyRoute es => .tallyRoute h es
  | .traceSetup a b c d => .traceSetup h a b c d
  | .fwInfo => .fwInfo h
  | .fwErase => .fwErase h
  | .fwWrite o bs => .fwWrite h o bs
  | .fwVerify => .fwVerify h
  | .fwActivate => .fwActivate h
  | .bistRun t i p => .bistRun h t i p
  | .repairStatus => .repairStatus h
  | .other op ps => .badOpcodeCommand h op ps

/-- The clerks work and are free: no command waits or executes, and no work goes on that holds a conflict group (R434, R435). -/
structure ClerksFree (s : State) : Prop where
  on : s.clerksOn = true
  queue : s.mgt.queue = []
  running : s.mgt.running = []
  range : s.mgt.range = none
  pasr : s.mgt.pasr = none
  bist : s.mgt.bist = none
  training : ∀ c, (s.chan c).training = false

/-- Command `b` comes to free clerks over MCTP endpoint `e`, well formed and to be executed, in a device state and at a level that accept
it (R433 steps 1 to 7). -/
structure Issued (s : State) (h : CmdHdr) (b : CmdBody) (e : Nat) : Prop where
  free : ClerksFree s
  via : h.via = .mctp e
  sound : hdrCheck h b = 0
  dry : hdrDry h = false
  state : s.stateCheck h (cmdOpc b) = 0

/-- Going from `s` to `t`, the E9 has sent endpoint `e` one reply to a command of opcode `op`, and the clerks are free again. -/
def Replied (h : CmdHdr) (e op status : Nat) (payload : List Byte) (s t : State) : Prop :=
  t.outs = s.outs ++ [.mctp e Config.vendorId (replyBytes op h status payload)] ∧ t.mgt.queue = [] ∧ t.mgt.running = []

/-- Slice `n` of this working E9 comes to line `la` of range operation `r`, its item `i`; the slice holds the line in way `w` with entry `e`,
no host operation is asked for, and nothing keeps the line or stands before its tag block. -/
structure Visiting (s : State) (n i la w : Nat) (r : RangeSt) (e : TagEnt) : Prop where
  on : s.sliceOn n = true
  runs : s.nearFrozen n = false
  range : s.mgt.range = some r
  plain : r.op ≤ 5 ∧ r.whole = false ∧ r.hosts = false ∧ r.keep = false
  here : Tab.get 0 r.ptr n = i
  more : i < s.rangeSize r
  line : pageLine n (r.base / 4096 + i) = la
  inside : r.base ≤ 64 * la ∧ 64 * la < r.base + r.len
  home : sliceOf la = n
  held : s.findLine la = some (w, e)
  noCache : (s.slice n).tc = []
  block : (s.nearTags (setOf s.part la)).ways.length = 14
  free : s.busyLine n la = false ∧ s.maintWaits n la = false
  noEntry : ∀ v ∈ (s.slice n).vbs, v.la ≠ la
  sound : tagError s.part (setOf s.part la) (s.nearTags (setOf s.part la)) = false
  noFlip : s.ras.latent = []

/-- A scan of the instruction register: its captured value shifts out (R491). -/
def irScan : Out := .tdo 8 1
/-- A scan of the bypass register. -/
def bypassScan : Out := .tdo 1 0

end Sys2Proof.Machine

namespace Sys2Proof
open Machine

/-! ### Well-formed packets and commands, as their encodings carry them -/

/-- A line, an operand block and a byte mask stand only in a message whose opcode carries them (Table 5.7, Table 7.12). -/
def CohMsg.carried (m : CohMsg) : Bool := (opcLine m.opc || m.data == 0) && (opcOpnd m.opc || m.opnd == 0) && (opcMask m || m.mask == 0)

/-- Every field of the body of a packet on virtual network `vn` lies in its range (Table 12.5). -/
def PktBody.sound (vn : Nat) : PktBody → Bool
  | .coh _ m => m.opc < 32 && m.grant < 8 && m.tid < 8192 && m.req < 32768 && m.htid < 1024 && m.la < 2 ^ 51 && m.carried
  | .tree t => t.op < 16 && t.gen < 256 && t.code < 256 && t.origin < 32768 && t.ityp < 4 && t.ctx < 4096 && t.vpage < 2 ^ 45
  | .time t => t.stratum < 256 && t.t1 < 2 ^ 64 && t.t2 < 2 ^ 64 && t.t3 < 2 ^ 64
  | .heartbeat d st _ => d < 256 && st < 256
  | .member ph d _ => ph < 256 && d < 256
  | .fail n => n.domain < 256 && n.cause < 256 && n.reporter < 65536 && n.subject < 65536
  | .mgt f => f.tag < 65536 && f.index < 256 && f.count < 256 && f.total < 2 ^ 32 && f.body.length == fragLen f.total f.index
  | .routeFail _ _ => true
  | .put tq porter seq _ => vn == 0 && tq < 65536 && porter < 256 && seq < 2 ^ 32
  | .putAnswer porter seq _ => vn != 0 && porter < 256 && seq < 2 ^ 32
  | .linkReport p q r => p < 256 && q < 256 && r.all fun x => x < 1024
  | .unused typ slots => 11 ≤ typ && typ < 16 && slots.length < 15

/-- Every field of the packet lies in its range (Table 12.4), and the packet is on a link: `arr`, which no slot carries, is 0. -/
def Packet.sound (p : Packet) : Bool :=
  p.dst < 32768 && p.src < 32768 && p.vn < 4 && p.vc < 2 && p.arr == 0 && p.hops < 16 && p.oseq < 256 && p.body.sound p.vn

/-- Every field of a flit's header lies in its range (Table 12.3). -/
def Machine.FlitHdr.sound (h : FlitHdr) : Bool :=
  h.ft < 4 && h.seq < 1024 && h.ack < 1024 && h.cvn < 4 && h.cvc < 2 && h.ccl < 2 && h.crd < 64

/-- The body of a command of Table 17.5, with a length that its row admits. -/
def CmdBody.sound : CmdBody → Bool
  | .tallyRoute es => 1 ≤ es.length && es.length ≤ 768
  | .fwWrite _ bs => 1 ≤ bs.length && bs.length ≤ 4092
  | .other _ _ => false
  | _ => true

end Sys2Proof
end

