-- ==== Sys2Proof/Certificates/Slice0/Obligations.lean ====
section
/-! DEFINITION. The statements for the provers. A frame is said by `Only`: nothing but the named pieces of the state changes. -/

open Sys2Proof Sys2Proof.Machine

/-- For every command c and state s whose queue has c at its front, the step's outcome is the outcome of c on s with the rest of the queue.
The queue is the model's (notes/assumptions/2.md). -/
def Obligations.StepRunsFrontCommand : Prop :=
  ∀ (c : Instr) (rest : List Instr) (s : State), s.pending = c :: rest → step s = exec c { s with pending := rest }

/-- On an empty queue a step answers a next state. While the units work, the core clock counts one, and MT, when it is neither held nor at
half rate and no neighbour steers it or no offset is left to slew, counts one at every second core clock and none between; the part
number and the queue stay. While the units are stopped, nothing changes. That a step with an empty queue is a core clock is the model's
choice (notes/assumptions/2.md). -/
def Obligations.IdleStepIsOneCoreClock : Prop :=
  ∀ s : State, s.pending = [] →
    ∃ t, step s = .next t ∧ t.pending = [] ∧ t.part = s.part ∧ (s.powered = false → t = s) ∧
      (s.powered = true → t.clk = s.clk + 1 ∧ t.cyc0 = s.cyc0 ∧
        (s.mtu.hold = none → s.mtu.half = none → s.mtu.steer = none ∨ s.mtu.slew = 0 →
          t.mtu.mt = s.mtu.mt + (if s.clk % 2 = 0 then 0 else 1)))

/-- For every command and every state, the command answers a next state: no command faults or is refused. The part number and the queue of
waiting commands are the same after it. -/
def Obligations.EveryCommandCompletes : Prop :=
  ∀ (c : Instr) (s : State), ∃ t, exec c s = .next t ∧ t.part = s.part ∧ t.pending = s.pending

/-- From every state that meets StateInv, whether or not a run from reset reaches it, a step that answers a next state answers one that
meets StateInv: far and near memory, the slot stages and both firmware slots keep their canonical form; the service level stays 0 to 3,
the cache mode 0 to 2, the lock state 0 to 3; the ledger holds at most 4,096 records and at most 64 wait for it; at most 16 commands are
queued and at most 4 execute. -/
def Obligations.EveryStepKeepsTheInvariant : Prop :=
  ∀ s t : State, StateInv s → step s = .next t → StateInv t

/-- StateInv holds of the state right after reset: its memories list nothing, its level, mode and lock state are 0, and its ledger and
command queue are empty. -/
def Obligations.InvariantHoldsAtReset : Prop :=
  StateInv State.reset

/-- After reset LEVEL is 0, STEP is 1, LAST_RESET is 1, the device state is BRINGUP, STOP_AT is 3, STOP_CAUSE is 0 and STOP_UNIT is 0xFF; MT
is 0 in lock state NOREF and the schedule table is that of Table 8.3; the domain is UNSET; GLB_PART and GLB_HOUSE hold their reset
values; the cache mode is 0; no slice, directory bank, link, porter or translation unit holds anything; the ledger, the fabric's buffers
and the command queue are empty. That it is an F144 whose PWR_GOOD has just risen is the model's choice (notes/assumptions/11.md). -/
def Obligations.ResetState : Prop :=
  State.reset.boot = { level := 0, step := 1, lastReset := 1, stopAt := 3, stopCause := 0, stopUnit := 0xFF, dev := Tmr.of 0, fwRom := true } ∧
  State.reset.mtu = { mt := 0, lock := 0, sch := schReset, guard := 1 } ∧ State.reset.dom.st = 0 ∧ State.reset.node = Tmr.of 0 ∧
  State.reset.glbPart = Tmr.of 0x01D0#16 ∧ State.reset.glbHouse = Tmr.of 0x010620620#33 ∧ State.reset.mode = 0 ∧
  State.reset.slices = [] ∧ State.reset.banks = [] ∧ State.reset.hsf = [] ∧ State.reset.links = [] ∧ State.reset.xlts = [] ∧
  State.reset.ports = [] ∧ State.reset.pors = [] ∧ State.reset.csr = [] ∧ State.reset.mem = {} ∧ State.reset.qmg = {} ∧
  State.reset.ras = {} ∧ State.reset.rtr = {} ∧ State.reset.lse = {} ∧ State.reset.fnc = {} ∧ State.reset.mgt = {} ∧
  State.reset.pending = []

/-- A rise of PWR_GOOD on a part whose PWR_GOOD is low clears everything but the firmware slots (one that FW_ERASE or FW_WRITE was at work
on fails verification from then on) and the hard far-memory repairs: MT is 0 and the schedule table that of Table 8.3, the node number,
domain table, routes, OSEQ counters, ledger, caches, directory, queues and porters are empty, and bring-up stands at step 1 with
LAST_RESET 1. A low RESET_N or a rail out of range holds step 1. A rise of a PWR_GOOD that is high changes nothing. Its fall stops every
unit and releases THERMTRIP_N, and changes nothing else. RESET_N going low on a working part, and a write of 1 to GLB_RST.WARM over a
link that is up, perform a warm reset: the MTU (but for the stratum and the neighbour that the ports showed it), the firmware slots as
after a cold one, the node number, the domain table, the route table and RTR_MGT, the OSEQ counters of both directions, STOP_AT, the
staged fields of GLB_HOUSE, the ledger's records, the count of lost records and the soft and hard far-memory repairs stay; the level is
0, the step 1, LAST_RESET is 2, the device state BRINGUP; the slices, directory, near and far contents, snoop filter, links, fences,
translations, porters, queues, router queues and counters are empty. While RESET_N is low already, its assertion changes nothing but
RESET_N's own level. RESET_N rising lets bring-up start, and changes nothing else but what drives the lands and the start of CYCLES. -/
def Obligations.Resets : Prop :=
  (∀ (s : State) (halves : BitVec 4) (ok low : Bool), s.pcr.pwrGood = false →
    ∃ t, exec (.powerGoodRise halves ok low) s = .next t ∧ t.powered = true ∧ t.pcr.resetLow = low ∧ t.pcr.railHold = !ok ∧
      t.boot = {} ∧ t.node = Tmr.of 0 ∧ t.csr = [] ∧ t.mtu = { sch := schReset } ∧ t.slices = [] ∧ t.banks = [] ∧
      t.mem = { hardPpr := s.mem.hardPpr } ∧ t.hsf = [] ∧ t.links = [] ∧ t.lse = {} ∧ t.fnc = {} ∧ t.xlts = [] ∧ t.ports = [] ∧
      t.rtr = {} ∧ t.dom = {} ∧ t.pors = [] ∧ t.qmg = {} ∧ t.ras = {} ∧
      t.mgt = { flashA := s.flashLeft false, flashB := s.flashLeft true } ∧ t.glbPart = Tmr.of (partReset s.part) ∧
      t.glbHouse = Tmr.of (houseReset s.part) ∧ t.mode = 0) ∧
  (∀ (s : State) (halves : BitVec 4) (ok low : Bool), s.pcr.pwrGood = true → exec (.powerGoodRise halves ok low) s = .next s) ∧
  (∀ s : State, ∃ t, exec .powerGoodFall s = .next t ∧ t.powered = false ∧ t.pcr.thermtripLow = false ∧ Only { pcr := true } s t) ∧
  (∀ s : State, s.powered = true → s.pcr.resetLow = false →
    ∃ t, exec .resetNAssert s = .next t ∧ t.pcr = { s.pcr with resetLow := true } ∧ KeptByWarmReset s t) ∧
  (∀ (s : State) (l : Nat), s.linkOn l = true → ∃ t, exec (.warm l) s = .next t ∧ t.pcr = s.pcr ∧ KeptByWarmReset s t) ∧
  (∀ s : State, s.pcr.resetLow = true → ∃ t, exec .resetNAssert s = .next t ∧ t = s) ∧
  (∀ s : State, s.pcr.resetLow = true →
    ∃ t, exec .resetNRelease s = .next t ∧ t.pcr.resetLow = false ∧ t.powered = s.powered ∧ t.tap.control = false ∧
      Only { pcr := true, cyc0 := true, tap := true, outs := true } s t)

/-- Step 1 with a good fuse map leads to step 2; without a majority it stops with STOP_CAUSE 5. Step 2 with a valid image loads it, shows
its slot, leaves the ROM, and leads to step 3 unless STOP_AT is 0; without one it stops with STOP_CAUSE 1. Step 3 with a good population
and every far channel trained raises the level to 1, puts the ledger in service and leads to step 4 unless STOP_AT is 1; a bad
population stops it with STOP_CAUSE 2. Step 4 with every channel trained raises the level to 2, empties far and near memory, tags,
records, the zero map and the directory store, sets F to 0 and leads to step 5 unless STOP_AT is 2; with a far channel that fails the
level is 0 and STOP_CAUSE 3. Step 5, with a node number set, enables the router, sets the domain FORMING where a table is held and UNSET
otherwise, raises the level to 3, and leaves STEP 6 and MAINTENANCE; without a node number it waits. -/
def Obligations.BringupSteps : Prop :=
  (∀ s : State, s.inStep 1 = true →
    (∃ t, exec (.bringupStep1End true) s = .next t ∧ t.boot = { s.boot with step := 2, paused := false } ∧ Only { boot := true } s t) ∧
    (∃ t, exec (.bringupStep1End false) s = .next t ∧ t.boot.stopped = true ∧ t.boot.stopCause = 5 ∧ t.boot.level = s.boot.level ∧
      Only { boot := true } s t)) ∧
  (∀ s : State, s.inStep 2 = true → s.boot.stopAt ≠ 0 →
    ∃ t, exec .bringupStep2End s = .next t ∧ t.boot.level = s.boot.level ∧
      (∀ b, s.fwSelect = some b → t.boot.step = 3 ∧ t.boot.fwRom = false ∧ t.boot.fwSlot = b ∧ t.boot.stopped = false) ∧
      (s.fwSelect = none → t.boot.stopped = true ∧ t.boot.stopCause = 1 ∧ t.boot.fwRom = true ∧ Only { boot := true } s t)) ∧
  (∀ (s : State) (p : ChanPop), s.inStep 3 = true → chanPopGood p = true → s.boot.stopAt = 3 →
    ∃ t, exec (.bringupStep3End (List.replicate 8 p) 0xFF) s = .next t ∧ t.boot.level = 1 ∧ t.boot.step = 4 ∧ t.ras.inService = true ∧
      t.mem.rbits = 16 + p.density) ∧
  (∀ (s : State) (tr : BitVec 8), s.inStep 3 = true →
    ∃ t, exec (.bringupStep3End [] tr) s = .next t ∧ t.boot.stopped = true ∧ t.boot.stopCause = 2 ∧ t.boot.stopUnit = 128 ∧
      t.boot.level = s.boot.level) ∧
  (∀ s : State, s.inStep 4 = true → s.boot.stopAt = 3 →
    ∃ t, exec (.bringupStep4End 0xFF 0xFFFFFFFFFFFFFFFF) s = .next t ∧ t.boot.level = 2 ∧ t.boot.step = 5 ∧ t.boot.withdrawn = false ∧
      t.mem.tags = [] ∧ t.mem.recs = [] ∧ t.mem.far = [] ∧ t.mem.near = [] ∧ t.mem.zmap = [] ∧ t.banks = [] ∧
      t.glbPart.val.toNat % 16 = 0) ∧
  (∀ (s : State) (n : BitVec 64), s.inStep 4 = true →
    ∃ t, exec (.bringupStep4End 0 n) s = .next t ∧ t.boot.level = 0 ∧ t.boot.stopped = true ∧ t.boot.stopCause = 3 ∧ t.boot.stopUnit = 128) ∧
  (∀ s : State, s.inStep 5 = true → s.boot.nodeSet = true →
    ∃ t, exec .bringupStep5Start s = .next t ∧ t.boot.level = 3 ∧ t.boot.step = 6 ∧ t.devState = 2 ∧ t.rtr.enabled = true ∧
      t.dom.st = (if s.presence = 0 then 0 else 1)) ∧
  (∀ s : State, s.boot.nodeSet = false → exec .bringupStep5Start s = .next s)

/-- A write that raises STOP_AT above the level at which bring-up has paused, after a step other than 3, resumes it at the next step. A rail
fault stops every unit and sets its bit; rails that come into range start step 1. A thermal trip of a present sensor stops every unit
and drives THERMTRIP_N low. A clerk restart, and a clerk trap after its record, leave the selected image running with its slot shown and
lift STOP_CAUSE 1, or, without a valid image, leave the ROM serving the mailbox with STOP_CAUSE 1; neither changes the level or the
device state. -/
def Obligations.BringupPausesAndResumes : Prop :=
  (∀ (s : State) (v : BitVec 2), s.live = true → s.boot.stopAt < v → s.boot.paused = true → s.boot.step ≠ 3 → s.boot.level < v.toNat →
    ∃ t, exec (.stopAtRaise v) s = .next t ∧ t.boot = { s.boot with stopAt := v, paused := false, step := s.boot.step + 1 } ∧
      Only { boot := true } s t) ∧
  (∀ (s : State) (r : Nat), s.pcr.pwrGood = true → r < 8 →
    ∃ t, exec (.railFault r) s = .next t ∧ t.powered = false ∧ t.pcr.railFault = s.pcr.railFault ||| BitVec.ofNat 8 (2 ^ r) ∧
      Only { pcr := true } s t) ∧
  (∀ s : State, s.pcr.pwrGood = true → s.pcr.railHold = true →
    ∃ t, exec .railsInRange s = .next t ∧ t.pcr = { s.pcr with railHold := false } ∧ Only { pcr := true } s t) ∧
  (∀ (s : State) (k : Nat), hasSensor s.part k = true → k < 20 →
    ∃ t, exec (.thermalTrip k) s = .next t ∧ t.powered = false ∧ t.pcr.tripped = true ∧ t.pcr.thermtripLow = true ∧
      Only { pcr := true, outs := true } s t) ∧
  (∀ (s : State) (k : Nat), s.clerksOn = true → k < 4 →
    (∃ t, exec .clerkRestart s = .next t ∧ t.boot.level = s.boot.level ∧ t.boot.dev = s.boot.dev ∧
      (s.fwSelect = none → t.boot.fwRom = true ∧ t.boot.stopCause = 1) ∧
      ∀ b, s.fwSelect = some b → t.boot.fwRom = false ∧ t.boot.fwSlot = b ∧ t.boot.stopCause ≠ 1) ∧
    ∃ t, exec (.clerkTrap k) s = .next t ∧ t.boot.level = s.boot.level ∧ t.boot.dev = s.boot.dev ∧
      (s.fwSelect = none → t.boot.fwRom = true ∧ t.boot.stopCause = 1) ∧
      ∀ b, s.fwSelect = some b → t.boot.fwRom = false ∧ t.boot.fwSlot = b ∧ t.boot.stopCause ≠ 1)

/-- On a link that is up, a CXL.mem request of a supported kind for which the host holds a credit is accepted: it takes one credit of its
class and the next request number, and becomes an access that fences wait for. At level 2 or 3, with memory not withdrawn, a request
that a committed decoder places inside the local window goes to the input of the slice of its line: the line of the window offset at
this E9's own node. A request that no committed decoder covers, or one at level 0, or one while memory is withdrawn, reaches no slice: a
read is answered with poison, a write with Cmp. A request of an unsupported kind takes no credit and gets the response CXL prescribes. A
BIConflict takes one write credit and is answered with BIConflictAck (the place of that handshake among the credit classes is the
model's choice, notes/assumptions/100.md). On a link that is not up, and for a request without a credit, nothing changes but the counts
of the errors that the codes correct meanwhile (fd, notes/assumptions/82.md). -/
def Obligations.HostRequestIsAccepted : Prop :=
  (∀ (s : State) (l off : Nat) (r : CxlReq) (fd : Finds), s.linkOn l = true → r.op ≠ .unsupported → r.op ≠ .biConflict →
    0 < (s.link l).creditOf (r.op == .write) → 2 ≤ s.boot.level → s.boot.withdrawn = false → s.decode l r.dpa = some (0, off) → off < s.winSize l 0 →
    ∃ t q, exec (.cxlMemRequest l r fd) s = .next t ∧
      Arrives (sliceOf (mkLa s.nodeNo (off / 64))) q s t ∧
      q.la = mkLa s.nodeNo (off / 64) ∧ q.src = .host s.nextRid ∧ q.data = r.data ∧ q.be = r.be ∧
      q.kind = (if r.op = .write then .write else .read) ∧ q.flat = false ∧ q.glob = false ∧
      (∃ h ∈ t.hreqs, h.rid = s.nextRid ∧ h.link = l ∧ h.req = r ∧ h.la = q.la ∧ h.t0 = s.clk ∧ h.ph = .slice) ∧
      t.accs = s.accs ++ [{ aid := 2 * s.nextRid, who := l, rd := r.op != .write, wr := r.op == .write }] ∧
      t.nextRid = s.nextRid + 1 ∧
      (t.link l).reqCr = (s.link l).reqCr - (if r.op = .write then 0 else 1) ∧
      (t.link l).rwdCr = (s.link l).rwdCr - (if r.op = .write then 1 else 0) ∧
      Only { links := true, pba := true, nextRid := true, hreqs := true, accs := true, slices := true, events := true, trc := true,
             trcCfg := true, ledger := true, bkt := true, due := true, irq := true, outs := true } s t) ∧
  (∀ (s : State) (l : Nat) (r : CxlReq) (fd : Finds), s.linkOn l = true → r.op ≠ .unsupported → r.op ≠ .biConflict →
    0 < (s.link l).creditOf (r.op == .write) → s.decode l r.dpa = none ∨ s.boot.level = 0 ∨ s.boot.withdrawn = true →
    ∃ t, exec (.cxlMemRequest l r fd) s = .next t ∧ t.slices = s.slices ∧ t.nextRid = s.nextRid + 1 ∧
      t.outs.getLast? = some (if r.op = .write then .cmp l r.tag else .memData l r.tag Config.poisonLine true 0) ∧
      (∀ h ∈ t.hreqs, h.rid ≠ s.nextRid)) ∧
  (∀ (s : State) (l : Nat) (r : CxlReq) (fd : Finds), s.linkOn l = true → r.op = .biConflict → 0 < (s.link l).rwdCr →
    ∃ t, exec (.cxlMemRequest l r fd) s = .next t ∧ t.outs.getLast? = some (.biConflictAck l r.tag) ∧
      (t.link l).rwdCr = (s.link l).rwdCr - 1 ∧ (t.link l).reqCr = (s.link l).reqCr ∧ (∀ k, k ≠ l → (t.link k).credits = (s.link k).credits) ∧
      Only { links := true, pba := true, outs := true, events := true, trc := true, trcCfg := true, ledger := true, bkt := true,
             due := true, irq := true } s t) ∧
  (∀ (s : State) (l : Nat) (r : CxlReq) (fd : Finds), s.linkOn l = true → r.op = .unsupported →
    ∃ t, exec (.cxlMemRequest l r fd) s = .next t ∧ .cxlUnsupported l r.tag ∈ t.outs ∧ t.hreqs = s.hreqs ∧ t.slices = s.slices ∧
      ∀ k, (t.link k).credits = (s.link k).credits) ∧
  (∀ (s : State) (l : Nat) (r : CxlReq) (fd : Finds),
    s.linkOn l = false ∨ r.op ≠ .unsupported ∧ (s.link l).creditOf (r.op == .write || r.op == .biConflict) = 0 →
    exec (.cxlMemRequest l r fd) s = .next (s.noted fd))

/-- On a link that is up, a commit of good settings makes the decoder committed with them, and a commit of others sets the decoder's error
and leaves the rest of it; the link's other decoders and every other link stay. Without interleave, settings are good exactly when the
base is the window's own, the size is a multiple of 256 MiB and the window is at least that large (the rules for which settings are good
beyond the spec's words are the model's, notes/assumptions/28.md). A link that exists and is down comes up with the given rate, width,
IDE and flit mode and no credits; one that is up stays as it is. A hot reset of a link that is up, with no back-invalidation outstanding
to it, takes it down with its decoders uncommitted and no credits; its accesses are no longer answered, its fences complete unanswered,
its interrupt table is at its reset value, no host copy of any line is recorded for it, and the prefetchers of every slice have
forgotten their streams; an IDE integrity failure does the same on a link that runs IDE and nothing on one that does not. Nothing else
changes. -/
def Obligations.HostDecodersAndLinks : Prop :=
  (∀ (s : State) (l d base size ways gran : Nat), s.linkOn l = true → d < 4 →
    (s.decGood l d base size ways gran = true →
      ∃ t, exec (.hdmDecoderCommit l d base size ways gran) s = .next t ∧
        (t.link l).dec d = { committed := true, base := base, size := size, ways := ways, gran := gran } ∧
        (∀ e, e < 4 → e ≠ d → (t.link l).dec e = (s.link l).dec e) ∧ (∀ k, k ≠ l → t.link k = s.link k) ∧ Only { links := true } s t) ∧
    (s.decGood l d base size ways gran = false →
      ∃ t, exec (.hdmDecoderCommit l d base size ways gran) s = .next t ∧ (t.link l).dec d = { (s.link l).dec d with err := true } ∧
        (∀ e, e < 4 → e ≠ d → (t.link l).dec e = (s.link l).dec e) ∧ (∀ k, k ≠ l → t.link k = s.link k) ∧ Only { links := true } s t)) ∧
  (∀ (s : State) (l d base size gran : Nat),
    s.decGood l d base size 0 gran = true ↔ base = decBase d ∧ size % 2 ^ 28 = 0 ∧ size ≤ s.winSize l d) ∧
  (∀ (s : State) (l rate width : Nat) (ide lo : Bool), s.live = true → s.linkExists l = true → (s.link l).up = false →
    ∃ t, exec (.hostLinkUp l rate width ide lo) s = .next t ∧
      t.link l = { s.link l with up := true, resetting := false, rate := rate, width := width, ide := ide, flitLo := lo,
                                 credits := Tmr.of 0 } ∧
      (∀ k, k ≠ l → t.link k = s.link k) ∧ Only { links := true } s t) ∧
  (∀ (s : State) (l rate width : Nat) (ide lo : Bool), (s.link l).up = true → exec (.hostLinkUp l rate width ide lo) s = .next s) ∧
  (∀ (s : State) (l : Nat), s.linkOn l = true → (∀ b ∈ s.bisnps, b.link ≠ l) →
    ∃ t, exec (.hostLinkHotReset l) s = .next t ∧ ((s.link l).ide = true → exec (.ideIntegrityFailure l) s = .next t) ∧
      (t.link l).up = false ∧ (t.link l).resetting = true ∧ (t.link l).reqCr = 0 ∧ (t.link l).rwdCr = 0 ∧
      (∀ d, d < 4 → (t.link l).dec d = {}) ∧ (t.link l).pwb = (s.link l).pwb ∧ (∀ k, k ≠ l → t.link k = s.link k) ∧
      (∀ h ∈ t.hreqs, h.link = l → h.mute = true) ∧ (∀ f ∈ t.fnc.fences, f.link = l → f.mute = true) ∧
      (∀ n, t.slice n = if n < 64 then { s.slice n with streams := List.replicate 32 none } else s.slice n) ∧ (∀ e ∈ t.hsf, ∀ c ∈ e.copies, c.link ≠ l) ∧
      (∀ v w, v < 2048 → w < 2 → t.msixGet (msixKey l v w) = msixReset (msixKey l v w)) ∧
      Only { links := true, pba := true, hreqs := true, fnc := true, msix := true, hsf := true, slices := true } s t) ∧
  (∀ (s : State) (l : Nat), (s.link l).ide = false → exec (.ideIntegrityFailure l) s = .next s)

/-- From 24,000 core clocks after its receipt on, an access that has not been answered is answered at its host deadline: a read with poison,
LATE_RD counting one; a write with Cmp, LATE_WR counting one (stated where the write has been issued, or is not the first of a register
that waits, behind which others would go on). A read, and a write its slice has issued, stay open but are not answered again; a write
not issued, and a load that waits only for its double advance, leave the machine. Before that nothing happens. An answer to an
outstanding back-invalidation of a flat line ends it: after BISnpInv the host no longer holds the copy that was recalled, after
BISnpData not in E or M, and if its data was to be dropped a BISnpInv follows. An answer to one that is not outstanding changes nothing
but the counts of the errors that the codes correct meanwhile. A back-invalidation of a flat line that is 24,000 core clocks old is
ended at its timeout, and the host then does not hold that copy; a younger one is not touched. No other line's copies change. A link
that is up returns, once in a clock, one credit of each class whose held credits are below its float, while no slice is over the gate
and no lull holds it back; a second return in the same clock, or one that is held back, changes nothing. -/
def Obligations.HostDeadlineAndAnswers : Prop :=
  (∀ (s : State) (rid : Nat) (h : HostReq), s.powered = true → s.hreq rid = some h → h.mute = false → 24000 ≤ s.clk - h.t0 →
    h.req.op ≠ .write →
    ∃ t, exec (.hostDeadline rid) s = .next t ∧ .memData h.link h.req.tag Config.poisonLine true 0 ∈ t.outs ∧
      (t.link h.link).lateRd = min 63 ((s.link h.link).lateRd + 1) ∧ (∀ g ∈ t.hreqs, g.rid = rid → h.ph ≠ .acquire ∧ g.mute = true) ∧
      t.slices = s.slices) ∧
  (∀ (s : State) (rid : Nat) (h : HostReq), s.powered = true → s.hreq rid = some h → h.mute = false → 24000 ≤ s.clk - h.t0 →
    h.req.op = .write →
    ∃ t, exec (.hostDeadline rid) s = .next t ∧ .cmp h.link h.req.tag ∈ t.outs ∧
      (h.issued = true ∨ (∀ m ∈ (s.slice (s.sliceFor h)).mrs, m.prim.src ≠ .host rid) →
        (t.link h.link).lateWr = min 63 ((s.link h.link).lateWr + 1)) ∧
      (∀ g ∈ t.hreqs, g.rid = rid → h.issued = true ∧ g.mute = true)) ∧
  (∀ (s : State) (rid : Nat) (h : HostReq), s.hreq rid = some h → s.clk - h.t0 < 24000 →
    exec (.hostDeadline rid) s = .next s) ∧
  (∀ (s : State) (id : Nat) (b : BiSnp) (d : Option (Line × Bool)) (fd : Finds), s.powered = true → s.bisnps.find? (fun x => x.id == id) = some b →
    b.flat = true →
    ∃ t, exec (.birsp id d fd) s = .next t ∧ (b.wait ≠ .drop ∨ b.inv = true → t.bisnps = s.bisnps.filter (fun x => x.id != b.id)) ∧
      (b.wait = .drop → b.inv = false → (∀ x ∈ s.bisnps, x.key = b.key → x.flat = true → x.id = b.id) →
        ∀ c ∈ t.hsfCopies b.key true, b.of c = true → ∃ x ∈ t.bisnps, x.key = b.key ∧ x.flat = true ∧ x.inv = true ∧ x.of c = true) ∧
      (∀ e ∈ t.hsf, e.key = b.key → e.flat = true → ∀ c ∈ e.copies, b.of c = true → b.inv = false ∧ c.em = false) ∧
      (∀ e ∈ t.hsf, e.key ≠ b.key ∨ e.flat = false → e ∈ s.hsf)) ∧
  (∀ (s : State) (id : Nat) (d : Option (Line × Bool)) (fd : Finds), s.bisnps.find? (fun x => x.id == id) = none →
    exec (.birsp id d fd) s = .next (s.noted fd)) ∧
  (∀ (s : State) (id : Nat) (b : BiSnp) (fd : Finds), s.powered = true → s.bisnps.find? (fun x => x.id == id) = some b → b.flat = true →
    24000 ≤ s.clk - b.t0 →
    ∃ t, exec (.bisnpTimeout id fd) s = .next t ∧ t.bisnps = s.bisnps.filter (fun x => x.id != b.id) ∧
      (∀ e ∈ t.hsf, e.key = b.key → e.flat = true → ∀ c ∈ e.copies, b.of c = false) ∧
      (∀ e ∈ t.hsf, e.key ≠ b.key ∨ e.flat = false → e ∈ s.hsf)) ∧
  (∀ (s : State) (id : Nat) (b : BiSnp) (fd : Finds), s.bisnps.find? (fun x => x.id == id) = some b → s.clk - b.t0 < 24000 →
    exec (.bisnpTimeout id fd) s = .next (s.noted fd)) ∧
  (∀ (s : State) (l : Nat), s.linkOn l = true → (s.link l).reqCr ≤ 48 → (s.link l).rwdCr ≤ 32 →
    ((∀ n < 64, (s.slice n).demand < s.sliceGate (l / 2)) → (if s.locked then s.inPause else s.mtu.inLull) = false → (s.link l).creditClk ≠ s.clk + 1 →
      ∃ t, exec (.creditReturn l) s = .next t ∧ (∀ k, k ≠ l → t.link k = s.link k) ∧ Only { links := true, outs := true } s t ∧
      (t.link l).reqCr = (s.link l).reqCr + (if (s.link l).reqCr < s.floatOf l (s.reqFloat (l / 2)) then 1 else 0) ∧
      (t.link l).rwdCr = (s.link l).rwdCr + (if (s.link l).rwdCr < s.floatOf l (s.rwdFloat (l / 2)) then 1 else 0) ∧
      t.outs = s.outs ++ (if (s.link l).reqCr < s.floatOf l (s.reqFloat (l / 2)) then [.credit l false] else []) ++
        (if (s.link l).rwdCr < s.floatOf l (s.rwdFloat (l / 2)) then [.credit l true] else []) ∧ exec (.creditReturn l) t = .next t) ∧
    ((∃ n < 64, s.sliceGate (l / 2) ≤ (s.slice n).demand) ∨ s.mtu.inLull = true ∧ s.locked = false ∨ s.inPause = true ∧ s.locked = true ∨
      (s.link l).creditClk = s.clk + 1 → exec (.creditReturn l) s = .next s))

/-- A store that waited enters its link's posted-write buffer when no earlier store of the link still waits, the buffer has room and its
youngest entry is of another line: it is answered with Cmp and stands as the youngest entry with its line, bytes and data. The oldest
entry that has not issued goes to the slice of its line as a write, once, unless a guard or lull runs, or an earlier strong access of
the link is not performed; an alias-1 entry also waits for every access before it. While one of these holds it stays. Eight beats after
its entry, guards and lulls not counted, an entry for another node that no register of its slice holds (and whose slice evicts nothing
meanwhile) marks that node unreachable and is given up; before that nothing happens. A load through alias 1 that has been performed is
answered once its double advance is complete, with the MetaValue it was granted, I where that lease has aged out meanwhile, and not
before. A write to PWB_HWM sets it to the entries held now. -/
def Obligations.PostedWriteBuffer : Prop :=
  (∀ (s : State) (rid : Nat) (h : HostReq), s.powered = true → s.hreq rid = some h → h.ph = .pwbWait → h.req.op = .write → h.ali ≠ 2 →
    h.dev = false → h.mute = false → s.unreachable (laNode h.la) = false → (s.link h.link).pwb.length < s.pwbSize h.link →
    (∀ e ∈ (s.link h.link).pwb, e.la ≠ h.la) →
    (∀ g ∈ s.hreqs, g.link = h.link → g.win = .glob → g.rid < h.rid → g.req.op = .write → g.ali = 2 ∨ g.dev = true) →
    ∃ t e, exec (.pwbEntry rid) s = .next t ∧ .cmp h.link h.req.tag ∈ t.outs ∧ (∀ g ∈ t.hreqs, g.rid ≠ h.rid) ∧
      (t.link h.link).pwb = (s.link h.link).pwb ++ [e] ∧ e.la = h.la ∧ e.data = h.req.data ∧ e.be = h.req.be ∧ e.issued = false ∧
      (∀ k, k ≠ h.link → (t.link k).pwb = (s.link k).pwb) ∧ t.slices = s.slices) ∧
  (∀ (s : State) (l : Nat) (e : PwbEnt), s.powered = true → (s.link l).nextPwb = some e → s.inPause = false →
    s.strongBefore l e.rid = false → (e.ali = 1 → ∀ a ∈ s.accs, a.aid ∉ e.after) →
    ∃ t q, exec (.pwbIssue l) s = .next t ∧
      Arrives (sliceOf e.la) q s t ∧
      q.src = .pwb l e.seq ∧ q.kind = .write ∧ q.la = e.la ∧ q.data = e.data ∧ q.be = e.be ∧
      (∀ p ∈ (t.link l).pwb, p.seq = e.seq → p.issued = true) ∧
      (∀ k, k ≠ l → t.link k = s.link k) ∧ Only { slices := true, links := true } s t) ∧
  (∀ (s : State) (l : Nat) (e : PwbEnt), (s.link l).nextPwb = some e →
    s.inPause = true ∨ s.strongBefore l e.rid = true ∨ (e.ali = 1 ∧ ∃ a ∈ s.accs, a.aid ∈ e.after) →
    exec (.pwbIssue l) s = .next s) ∧
  (∀ (s : State) (l seq : Nat) (e : PwbEnt), s.powered = true →
    (s.link l).pwb.find? (fun p => p.seq == seq && !p.performed) = some e → 8 * beatClks ≤ s.ran e.t0 e.paused0 →
    laNode e.la ≠ s.nodeNo → (s.slice (sliceOf e.la)).mrs = [] → (s.slice (sliceOf e.la)).vbs = [] →
    ∃ t, exec (.pwbDeadlineExpiry l seq) s = .next t ∧ t.unreachable (laNode e.la) = true ∧
      ∀ p ∈ (t.link l).pwb, p.seq = seq → p.performed = true) ∧
  (∀ (s : State) (l seq : Nat) (e : PwbEnt), (s.link l).pwb.find? (fun p => p.seq == seq && !p.performed) = some e →
    s.ran e.t0 e.paused0 < 8 * beatClks → exec (.pwbDeadlineExpiry l seq) s = .next s) ∧
  (∀ (s : State) (rid : Nat) (h : HostReq) (d : Line) (p : Bool) (v : Nat), s.powered = true → s.hreq rid = some h → h.resp = some (d, p, v) →
    h.ph = .acquire → h.mute = false → h.advTicket ≤ s.lse.dblDone →
    ∃ t, exec (.acquireLoadResponse rid) s = .next t ∧ .memData h.link h.req.tag d p (if h.win = .glob ∧ 2 ≤ s.lse.count - h.advs then 0 else v) ∈ t.outs ∧ ∀ g ∈ t.hreqs, g.rid ≠ rid) ∧
  (∀ (s : State) (rid : Nat) (h : HostReq), s.hreq rid = some h → s.lse.dblDone < h.advTicket →
    exec (.acquireLoadResponse rid) s = .next s) ∧
  (∀ (s : State) (l : Nat), s.powered = true →
    ∃ t, exec (.pwbHwmReset l) s = .next t ∧ t.link l = { s.link l with pwbHwm := (s.link l).pwb.length } ∧
      (∀ k, k ≠ l → t.link k = s.link k) ∧ Only { links := true } s t)

/-- An access of a size other than 4 or 8 bytes, or not aligned to its size, is answered with Completer Abort and leaves every register,
cache, memory and unit as it was; only the ledger record it writes, what that record signals, and the trace can change. An access that
is well formed is no bad access. A write to a block that Table 19.1 marks reserved, to an offset between blocks, to the read-only GLB_ID
or slice-status registers, or to the registers of a host port, fabric port, porter or translation unit that the part does not have,
changes nothing. In SERVICE a write to SLC_ALC, LSE_CFG, XLT_CFG, HPT_GWIN or HPT_ORD changes nothing; outside SERVICE a 64-bit write to
SLC_ALC sets exactly its two fields. A write of ones to GLB_IRQ clears those bits and no others. A write over a link that is down
changes nothing. -/
def Obligations.RegisterAccess : Prop :=
  (∀ (s : State) (l off size : Nat) (v : Word) (w : Bool), s.linkOn l = true → ¬ ((size = 4 ∨ size = 8) ∧ off % size = 0) →
    ∃ t, exec (.registerWrite l off size v) s = .next t ∧ exec (.badRegisterAccess l off size w) s = .next t ∧
      t.outs.getLast? = some (.ioAbort l) ∧
      Only { ledger := true, irq := true, pba := true, outs := true, events := true, trc := true, trcCfg := true } s t) ∧
  (∀ (s : State) (l off size : Nat) (w : Bool), (size = 4 ∨ size = 8) → off % size = 0 →
    exec (.badRegisterAccess l off size w) s = .next s) ∧
  (∀ (s : State) (l off : Nat) (v : Word), s.linkOn l = true → off % 8 = 0 →
    ((0x10000 ≤ off ∧ off < 0x20000) ∨ (0x60000 ≤ off ∧ off < 0x70000) ∨ (0x8A000 ≤ off ∧ off < 0x100000) ∨
      (0x350000 ≤ off ∧ off < 0x400000) ∨ (0xE90000 ≤ off ∧ off < 0xF00000) ∨ (0x1610000 ≤ off ∧ off < 0x1F00000) ∨
      off = 0 ∨ (∃ n, n < 64 ∧ off = offSlc n 0) ∨
      (∃ p r, s.part.hostPorts ≤ p ∧ p < 4 ∧ r < 0x40000 ∧ off = offHpt p r) ∨
      (∃ p r, s.part.fabricPorts ≤ p ∧ p < 16 ∧ r < 0x10000 ∧ off = offFpt p r) ∨
      (∃ p r, s.part.porters ≤ p ∧ p < 32 ∧ r < 0x1000 ∧ off = offPor p r) ∨
      (∃ i r, s.part.xltPresent i = false ∧ i < 5 ∧ r < 0x10000 ∧ off = offXlt i r)) →
    exec (.registerWrite l off 8 v) s = .next s) ∧
  (∀ (s : State) (l n : Nat) (v : Word), s.linkOn l = true → n < 64 → s.devState = 1 → ∀ o, (o = offSlc n 0x108 ∨ o = 0x50000 ∨
      o = offXlt (n % 5) 0 ∨ o = offHpt (n % 4) 0x10 ∨ o = offHpt (n % 4) 0x18 ∨ o = offHpt (n % 4) 0x50) →
    exec (.registerWrite l o 8 v) s = .next s) ∧
  (∀ (s : State) (l n : Nat) (v : Word), s.linkOn l = true → n < 64 → s.devState ≠ 1 →
    ∃ t, exec (.registerWrite l (offSlc n 0x108) 8 v) s = .next t ∧
      t.csrGet (offSlc n 0x108) = (s.csrGet (offSlc n 0x108) &&& ~~~3#64) ||| (v &&& 3#64) ∧
      (∀ o, o ≠ offSlc n 0x108 → t.csrGet o = s.csrGet o) ∧ Only { csr := true } s t) ∧
  (∀ (s : State) (l : Nat) (v : Word), s.linkOn l = true →
    ∃ t, exec (.registerWrite l 0x28 8 v) s = .next t ∧ t.irq = s.irq &&& ~~~(v.setWidth 6) ∧ Only { irq := true } s t) ∧
  (∀ (s : State) (l off size : Nat) (v : Word) (w : Bool), s.linkOn l = false →
    exec (.registerWrite l off size v) s = .next s ∧ exec (.badRegisterAccess l off size w) s = .next s)

/-- A request behind an earlier request for its line is not served, and nothing changes. A request whose line has an open miss register
joins it as its last secondary, and a register that worked for a prefetch works for a demand from then on; a register that has held
eight secondaries takes no more, however few it holds now: the request stays at the slice input, and the register is marked full. In
cache mode HOLD a request is not served from the cache: it leaves the slice input without a miss register. A request whose row the tag
cache does not hold, or any with the tag cache off, reads the tag block from near memory and stays at the slice input. A read of a local
line that the tag cache shows in S, E, M or O, that no host holds and in whose way the code finds no uncorrectable error, is answered
with the way's data and leaves the slice input. (All this where no word that injection corrupted stands.) A request takes with it what
the prefetch and allocation registers hold when it enters (R93). What the codes correct meanwhile (fd, notes/assumptions/82.md) is
counted beside all this. -/
def Obligations.TagPipelineLookups : Prop :=
  (∀ (s : State) (n idx : Nat) (fd : Finds) (r : Req), s.sliceOn n = true → s.ras.latent = [] → (s.slice n).inq[idx]? = some r →
    (∃ q ∈ (s.slice n).inq.take idx, q.la = r.la ∧ q.flat = r.flat) →
    exec (.tagPipelineLookup n idx false fd) s = .next (s.noted fd)) ∧
  (∀ (s : State) (n idx : Nat) (fd : Finds) (r : Req) (m : Mr), s.sliceOn n = true → s.ras.latent = [] →
    (s.slice n).inq[idx]? = some r → (∀ q ∈ (s.slice n).inq.take idx, q.la = r.la → q.flat ≠ r.flat) → r.flat = false → r.kind ≠ .prefetch → s.refusedHere n = false →
    (s.slice n).mrs.find? (fun x => x.la == r.la) = some m →
    ∃ t e, exec (.tagPipelineLookup n idx false fd) s = .next t ∧
      (m.secs.length < 8 → m.full = false →
        (∃ x ∈ (t.slice n).mrs, x.idx = m.idx ∧ x.la = r.la ∧ x.secs = m.secs ++ [{ r with ent := e, dl := some (s.clk, s.paused) }] ∧
          x.isPf = false) ∧
        (t.slice n).inq = (s.slice n).inq.eraseIdx idx ∧
        Only { slices := true, hreqs := true, events := true, trc := true, trcCfg := true, ledger := true, bkt := true, due := true, irq := true,
               pba := true, outs := true } s t) ∧
      (8 ≤ m.secs.length ∨ m.full = true → (t.slice n).inq = (s.slice n).inq.set idx { r with ent := e } ∧
        (t.slice n).mrs = (s.slice n).mrs.map (fun x => if x.idx = m.idx then { x with full := true } else x) ∧
        Only { slices := true, events := true, trc := true, trcCfg := true, ledger := true, bkt := true, due := true, irq := true,
               pba := true, outs := true } s t)) ∧
  (∀ (s : State) (n idx : Nat) (fd : Finds) (r : Req), s.sliceOn n = true → s.ras.latent = [] →
    (s.slice n).inq[idx]? = some r → (∀ q ∈ (s.slice n).inq.take idx, q.la = r.la → q.flat ≠ r.flat) → r.flat = false → s.mode = 2 →
    ∃ t, exec (.tagPipelineLookup n idx false fd) s = .next t ∧ (t.slice n).inq = (s.slice n).inq.eraseIdx idx ∧
      (t.slice n).mrs = (s.slice n).mrs ∧ t.mem.near = s.mem.near ∧ t.mem.tags = s.mem.tags) ∧
  (∀ (s : State) (n idx : Nat) (fd : Finds) (r : Req), s.sliceOn n = true → s.ras.latent = [] →
    (s.slice n).inq[idx]? = some r → (∀ q ∈ (s.slice n).inq.take idx, q.la = r.la → q.flat ≠ r.flat) → r.flat = false → r.tb = none → s.mode = 0 →
    s.refusedHere n = false → (∀ m ∈ (s.slice n).mrs, m.la ≠ r.la) → (∀ v ∈ (s.slice n).vbs, v.la ≠ r.la) →
    s.tccEn n = false ∨
      (s.tccEn n = true ∧ (s.slice n).tcFind (rowOf s.part (setOf s.part r.la)) = none ∧
        (s.tcAlloc n (rowOf s.part (setOf s.part r.la))).isSome = true) →
    ∃ t e w, exec (.tagPipelineLookup n idx false fd) s = .next t ∧
      (t.slice n).tbReads = (s.slice n).tbReads ++ [rowOf s.part (setOf s.part r.la)] ∧
      (t.slice n).inq = (s.slice n).inq.set idx { r with ent := e, tb := some w } ∧
      (t.slice n).mrs = (s.slice n).mrs ∧ t.hreqs = s.hreqs ∧ t.mem.near = s.mem.near) ∧
  (∀ (s : State) (n idx w k : Nat) (fd : Finds) (r : Req) (c : TcEnt) (rid : Nat) (h : HostReq), s.sliceOn n = true → s.ras.latent = [] →
    (s.slice n).inq[idx]? = some r → (∀ q ∈ (s.slice n).inq.take idx, q.la = r.la → q.flat ≠ r.flat) → r.flat = false → r.tb = none →
    s.mode = 0 → s.refusedHere n = false → (∀ m ∈ (s.slice n).mrs, m.la ≠ r.la) → (∀ v ∈ (s.slice n).vbs, v.la ≠ r.la) →
    s.tccEn n = true → (s.slice n).tcFind (rowOf s.part (setOf s.part r.la)) = some (k, c) → c.pending = false →
    fd.tcUe = false → fd.way.head? ≠ some .ue →
    s.classOf r.la = .loc → r.kind = .read → r.glob = false → r.atHome = false → r.copy = false →
    s.matchWay c.blk r.la = some w → (c.blk.get w).st ∈ [stS, stE, stM, stO] → (c.blk.get w).age ≠ 3 →
    (s.wayGet (setOf s.part r.la) w).2 = false → s.hsfCopies r.la false = [] → s.biOpen r.la false = false →
    r.src = .host rid → s.hreq rid = some h → h.win = .loc → h.mute = false →
    ∃ t, exec (.tagPipelineLookup n idx false fd) s = .next t ∧
      .memData h.link h.req.tag (s.wayGet (setOf s.part r.la) w).1 false 0 ∈ t.outs ∧ (∀ g ∈ t.hreqs, g.rid ≠ rid) ∧
      (t.slice n).inq = (s.slice n).inq.eraseIdx idx)

/-- A tag-block read that no lookup, snoop or home request waits for fills the pending tag-cache entry of its row with the near-memory
block; with the tag cache off it drops the entry; one with an uncorrectable error first rebuilds the block from RETIRE_MASK, X in the
retired cache ways and zero in the rest. A read that is not outstanding changes nothing. The fill of an answered read of a local line
that no host holds, in a set with a free way, puts the data into that way, whose entry takes the line's tag, the granted state and AGE
0, and closes the register. A fill that carries poison changes no way and no tag block. A register that has no answer is not filled. Of
the codes, the block and the fills suppose that they find no error in a tag block, no uncorrectable one in a way that was read by a
guess, and no word that injection corrupted; what they correct elsewhere (fd, notes/assumptions/82.md) is counted beside all this. (A
tag block has fourteen entries; the statement of an install supposes it.) -/
def Obligations.TagBlocksAndFills : Prop :=
  (∀ (s : State) (n q k : Nat) (fd : Finds) (c : TcEnt), s.sliceOn n = true → (s.slice n).tbReads.contains q = true →
    (∀ r ∈ (s.slice n).inq, r.flat = false → rowOf s.part (setOf s.part r.la) ≠ q) → (∀ x ∈ (s.slice n).waitSnoops, x.tag = false) →
    (∀ x ∈ (s.slice n).trks, x.ph ≠ .tags) → s.ras.latent = [] → (s.slice n).tcFind q = some (k, c) → c.pending = true →
    (tagError s.part (setOfRow s.part n q) (s.nearTags (setOfRow s.part n q)) = false →
      ∃ t, exec (.tagBlockReadDone n q .none fd) s = .next t ∧ (t.slice n).tbReads = (s.slice n).tbReads.erase q ∧
      Tab.get none (t.slice n).tc k =
        (if s.tccEn n then some { c with pending := false, blk := s.nearTags (setOfRow s.part n q) } else none) ∧
      Only { slices := true, events := true, trc := true, trcCfg := true, ledger := true, bkt := true, due := true, irq := true, pba := true,
             outs := true } s t) ∧
    (s.tccEn n = true → s.nearFrozen n = false →
      ∃ t, exec (.tagBlockReadDone n q .ue fd) s = .next t ∧
      t.nearTags (setOfRow s.part n q) = s.rebuilt (s.setRec (setOfRow s.part n q)) ∧
      Tab.get none (t.slice n).tc k = some { c with pending := false, blk := s.rebuilt (s.setRec (setOfRow s.part n q)) } ∧
      (∀ k, k ≠ setOfRow s.part n q → t.nearTags k = s.nearTags k) ∧ t.mem.near = s.mem.near ∧ t.mem.recs = s.mem.recs ∧
      Only { slices := true, near := true, chans := true, memIo := true, flip := true, free := true, events := true, trc := true,
             trcCfg := true, ledger := true, bkt := true, due := true, irq := true, pba := true, outs := true } s t)) ∧
  (∀ (s : State) (n q : Nat) (te : ArrErr) (fd : Finds), s.sliceOn n = true → (s.slice n).tbReads.contains q = false →
    exec (.tagBlockReadDone n q te fd) s = .next (s.noted fd)) ∧
  (∀ (s : State) (n i w : Nat) (m : Mr) (d : Line) (fd : Finds), s.sliceOn n = true → i < 64 → s.mr n i = some m → m.st = .answered →
    m.prim.kind = .read → m.prim.src ≠ .maint → m.prim.glob = false → m.prim.atHome = false → m.prim.stream = false →
    m.prim.copy = false → m.isPf = false → m.secs = [] → m.data = some (d, false) → s.classOf m.la = .loc → m.prim.la = m.la → s.noInstall = false →
    s.nearFrozen n = false → fbit (s.alcOf n m.prim) 0 = true → m.grant = 1 ∨ m.grant = 2 → (s.slice n).tc = [] → fd.tag = [] → s.ras.latent = [] →
    tagError s.part (setOf s.part m.la) (s.nearTags (setOf s.part m.la)) = false →
    s.hsfCopies m.la m.prim.flat = [] → s.biOpen m.la m.prim.flat = false → s.findLine m.la = none →
    (∀ x ∈ (s.slice n).waitSnoops, x.la ≠ m.la) → sliceOf m.la = n →
    (s.nearTags (setOf s.part m.la)).ways.length = 14 → s.victim n (setOf s.part m.la) = some w → 1 ≤ w → w ≤ 14 →
    ((s.nearTags (setOf s.part m.la)).get w).st = stI → s.ras.arm = false → (∀ e ∈ fd.way, e ≠ .ue) →
    ∃ t, exec (.fillInstall n i fd) s = .next t ∧ t.wayGet (setOf s.part m.la) w = (d, false) ∧
      (t.nearTags (setOf s.part m.la)).get w = { tag := tagOf s.part m.la, st := BitVec.ofNat 3 m.grant, age := 0 } ∧
      t.mr n i = none) ∧
  (∀ (s : State) (n i : Nat) (m : Mr) (d : Line) (fd : Finds), s.sliceOn n = true → i < 64 → s.mr n i = some m → m.st = .answered →
    m.prim.kind = .read → m.secs = [] → m.data = some (d, true) → (s.slice n).tc = [] → fd.tag = [] → s.ras.latent = [] →
    tagError s.part (setOf s.part m.la) (s.nearTags (setOf s.part m.la)) = false → (∀ x ∈ (s.slice n).waitSnoops, x.la ≠ m.la) →
    ∃ t, exec (.fillInstall n i fd) s = .next t ∧ t.mr n i = none ∧ t.mem.near = s.mem.near ∧ t.mem.tags = s.mem.tags) ∧
  (∀ (s : State) (n i : Nat) (m : Mr) (fd : Finds), s.sliceOn n = true → i < 64 → s.mr n i = some m → m.st ≠ .answered →
    m.st ≠ .hosts → exec (.fillInstall n i fd) s = .next (s.noted fd))

/-- FLUSH and INVALIDATE start a walk of the tag cache at its set 0 and set BUSY; INVALIDATE, and turning the tag cache off, which SERVICE
does not allow, also choose every entry that is not awaiting its block to leave. In each core clock the walk visits one set, unless an
age-dirty entry there meets a full write path: no entry of the set that is not awaiting its block is then age-dirty or still to leave,
the chosen ones are gone, and the block of an age-dirty one is back in near memory with stale L entries written I (unless the channel is
frozen); no other set of the tag cache changes. While BUSY is 1, FLUSH and INVALIDATE are ignored; BUSY clears once all 2,048 sets are
visited and the near channel has taken in every write-back of the walk, and not before. Clearing the way predictor, clearing the stream
table and resetting either high-water mark change only that, in that slice (for the predictor also the note that makes later updates of
the same clock void). A way due for retirement whose entry is I, where the codes find no error in the tag block, in a set that keeps
another usable way, takes state X and its bit in RETIRE_MASK; where no other usable way would remain it is not retired. A way that is
not due does not change. -/
def Obligations.SliceMaintenanceRegisters : Prop :=
  (∀ (s : State) (n : Nat), s.sliceOn n = true → (s.slice n).tcBusy = false →
    (∃ t, exec (.flush n) s = .next t ∧ t.slice n = { s.slice n with tcBusy := true, tcPos := 0, tcOut := [] } ∧
      (∀ k, k ≠ n → t.slice k = s.slice k) ∧ Only { slices := true } s t) ∧
    (∃ t, exec (.invalidate n) s = .next t ∧
      t.slice n = { s.slice n with tcBusy := true, tcPos := 0, tcOut := [], tc := (s.slice n).tc.map fun (k, v) => (k, v.map TcEnt.mark) } ∧
      (∀ k, k ≠ n → t.slice k = s.slice k) ∧ Only { slices := true } s t)) ∧
  (∀ e : TcEnt, e.mark = if e.pending then e else { e with doomed := true }) ∧
  (∀ (s : State) (n : Nat), (s.slice n).tcBusy = true → exec (.flush n) s = .next s ∧ exec (.invalidate n) s = .next s) ∧
  (∀ (s : State) (n : Nat), (s.slice n).tcBusy = true → (s.slice n).tcPos < 2048 →
    (∀ k e, k / 12 = (s.slice n).tcPos → Tab.get none (s.slice n).tc k = some e → e.ageDirty = true → e.pending = true ∨
      s.nearFull n (setOfRow s.part n e.row) = false) →
    ((s.tcStep n).slice n).tcPos = (s.slice n).tcPos + 1 ∧
    (∀ k, k / 12 ≠ (s.slice n).tcPos → Tab.get none ((s.tcStep n).slice n).tc k = Tab.get none (s.slice n).tc k) ∧
    (∀ k e, k / 12 = (s.slice n).tcPos → Tab.get none (s.slice n).tc k = some e →
      Tab.get none ((s.tcStep n).slice n).tc k =
        (if e.pending then some e else if e.doomed then none else some { e with ageDirty := false }))) ∧
  (∀ (s : State) (n k : Nat) (e : TcEnt), (s.slice n).tcBusy = true → (s.slice n).tcPos < 2048 → k / 12 = (s.slice n).tcPos →
    (s.slice n).tc = [(k, some e)] → e.pending = false → e.ageDirty = true → s.nearFrozen n = false →
    (s.nearFull n (setOfRow s.part n e.row) = false → (s.tcStep n).nearTags (setOfRow s.part n e.row) = s.dropStale e.blk) ∧
    (s.nearFull n (setOfRow s.part n e.row) = true → s.tcStep n = s)) ∧
  (∀ (s : State) (n : Nat), s.sliceOn n = true → s.devState ≠ 1 →
    ∃ t, exec (.tagCacheDisable n) s = .next t ∧ t.tccEn n = false ∧
      t.slice n = { s.slice n with tcBusy := true, tcPos := 0, tcOut := [], tc := (s.slice n).tc.map fun (k, v) => (k, v.map TcEnt.mark) } ∧
      (∀ k, k ≠ n → t.slice k = s.slice k) ∧ Only { slices := true, csr := true } s t) ∧
  (∀ (s : State) (n : Nat), s.devState = 1 → exec (.tagCacheDisable n) s = .next s) ∧
  (∀ (s : State) (n : Nat), s.sliceOn n = true →
    ((s.slice n).tcBusy = true → 2048 ≤ (s.slice n).tcPos → (∀ u < 2, ∀ a ∈ (s.cunit (nmcOf s.part n) u).hold, a.seq ∉ (s.slice n).tcOut) →
      ∃ t, exec (.tagCacheActionDone n) s = .next t ∧ t.slice n = { s.slice n with tcBusy := false, tcOut := [] } ∧
        (∀ k, k ≠ n → t.slice k = s.slice k) ∧ Only { slices := true } s t) ∧
    (∃ t, exec (.wayPredictorClear n) s = .next t ∧ t.slice n = { s.slice n with wp := [], wpClk := s.clk + 1 } ∧
      (∀ k, k ≠ n → t.slice k = s.slice k) ∧ Only { slices := true } s t) ∧
    (∃ t, exec (.streamTableClear n) s = .next t ∧ t.slice n = { s.slice n with streams := List.replicate 32 none } ∧
      (∀ k, k ≠ n → t.slice k = s.slice k) ∧ Only { slices := true } s t) ∧
    (∃ t, exec (.mrHwmReset n) s = .next t ∧ t.slice n = { s.slice n with mrHwm := (s.slice n).mrs.length } ∧
      (∀ k, k ≠ n → t.slice k = s.slice k) ∧ Only { slices := true } s t) ∧
    (∃ t, exec (.vbHwmReset n) s = .next t ∧ t.slice n = { s.slice n with vbHwm := (s.slice n).vbs.length } ∧
      (∀ k, k ≠ n → t.slice k = s.slice k) ∧ Only { slices := true } s t)) ∧
  (∀ (s : State) (n : Nat), (s.slice n).tcPos < 2048 ∨ (∃ u < 2, ∃ a ∈ (s.cunit (nmcOf s.part n) u).hold, a.seq ∈ (s.slice n).tcOut) →
    exec (.tagCacheActionDone n) s = .next s) ∧
  (∀ (s : State) (n set w : Nat) (fd : Finds), s.sliceOn n = true → s.refusedHere n = false →
    (s.slice n).retireDue.contains (set, w) = true → s.stayWay w = true → w ≤ 14 →
    (s.slice n).tc = [] → (s.nearTags set).ways.length = 14 → ((s.nearTags set).get w).st = stI → fd.tag = [] → s.ras.latent = [] → tagError s.part set (s.nearTags set) = false →
    ∃ t, exec (.wayRetire n set w fd) s = .next t ∧ (t.slice n).retireDue = (s.slice n).retireDue.erase (set, w) ∧
      (s.otherFree (s.nearTags set) w = true →
        ((t.nearTags set).get w).st = stX ∧ (t.setRec set).retire = (s.setRec set).retire ||| BitVec.ofNat 14 (2 ^ (w - 1))) ∧
      (s.otherFree (s.nearTags set) w = false → t.mem.tags = s.mem.tags ∧ t.mem.recs = s.mem.recs)) ∧
  (∀ (s : State) (n set w : Nat) (fd : Finds), s.sliceOn n = true → (s.slice n).retireDue.contains (set, w) = false →
    exec (.wayRetire n set w fd) s = .next (s.noted fd))

/-- For a line with a directory entry and no open transaction, a peer's request goes into the reserved tracker of the ticket it carries, or
else into a free general tracker, unless the code finds its directory-cache entry in error. RDS to a line in EX or OW sends the owner
FWDS for the requester, and nothing else, and waits for it. RDX, UPG, IWR or ATOM to a line in SH sends INV to every sharer but an
upgrading requester, with DISCARD for an IWR of the whole line, and nothing else, and waits for them, when there is one. UPG from the
only sharer, with no host of the home holding the line, is answered at once with ACK granting M, the entry becoming EX with the
requester as owner. A coherence request from a node that is no member of this E9's domain table is answered with nothing and takes no
tracker. -/
def Obligations.HomeTakesPeerRequests : Prop :=
  (∀ (s : State) (src g k w : Nat) (m : CohMsg) (e : DirEnt) (fd : Finds), LineReady s m.la g w e → PeerUp s src →
    k = s.takenBy src opRDS m g → fd.dc = false → m.unc = false → e.st = 2 ∨ e.st = 3 →
    ∃ t x, exec (.rds src m fd) s = .next t ∧
      Sends [(s.ownDomain * 128 + e.owner, .coh false { opc := opFWDS, req := src, tid := m.tid, htid := k, la := m.la })] s t ∧
      t.trk (sliceOf m.la) k = some x ∧ x.ph = .fwd ∧ x.fwdWait = some e.owner) ∧
  (∀ (s : State) (src g k w : Nat) (m : CohMsg) (e : DirEnt) (fd : Finds) (c : Instr) (vs : List Nat) (discard : Bool),
    LineReady s m.la g w e → PeerUp s src → fd.dc = false → e.st = 1 → opndBad m.opnd = false → vs ≠ [] →
    (c = .rdx src m fd ∧ k = s.takenBy src opRDX m g ∧ vs = bitsOf e.sharers ∧ discard = false) ∨
      (c = .upg src m fd ∧ k = s.takenBy src opUPG m g ∧ src % 128 ∈ bitsOf e.sharers ∧
        vs = (bitsOf e.sharers).filter (· != src % 128) ∧ discard = false) ∨
      (c = .iwr src m fd ∧ k = s.takenBy src opIWR m g ∧ vs = bitsOf e.sharers ∧ discard = !m.partialWr) ∨
      (c = .atom src m fd ∧ k = s.takenBy src opATOM m g ∧ vs = bitsOf e.sharers ∧ discard = false) →
    ∃ t x, exec c s = .next t ∧
      Sends (vs.map fun v => (s.ownDomain * 128 + v, .coh false { opc := opINV, discard := discard, req := src, tid := m.tid, htid := k, la := m.la }))
        s t ∧
      t.trk (sliceOf m.la) k = some x ∧ x.ph = .collect ∧ x.invWait = vs) ∧
  (∀ (s : State) (src g k w : Nat) (m : CohMsg) (e : DirEnt) (fd : Finds), LineReady s m.la g w e → PeerUp s src →
    k = s.takenBy src opUPG m g → fd.dc = false → e.st = 1 → bitsOf e.sharers = [src % 128] → s.noHosts m.la = true →
    ∃ t x, exec (.upg src m fd) s = .next t ∧
      Sends [(src, .coh false { opc := opACK, grant := 3, tid := m.tid, req := m.req, htid := k, la := m.la })] s t ∧
      t.trk (sliceOf m.la) k = some x ∧ x.ph = .cnf ∧
      (t.bank (sliceOf m.la / 4)).ent (dirSetOf s.dirGib m.la) w = { line := laLocal m.la, st := 2, pin := true, owner := src % 128 }) ∧
  (∀ (s : State) (src : Nat) (m : CohMsg) (fd : Finds), s.powered = true → s.dom.st = 2 → s.peerNode src = false →
    ∀ c ∈ [Instr.rds src m fd, .rdx src m fd, .upg src m fd, .wbd src m fd, .offer src m fd, .iwr src m fd, .atom src m fd],
      ∃ t, exec c s = .next t ∧ Sends [] s t ∧ t.slices = s.slices ∧ t.banks = s.banks)

/-- WBD from the owner of a line in EX is answered ACK and nothing else, the entry becomes free and no tracker stays open; OFFER from that
owner does the same without an answer. A coherence request for a line beyond the installed far memory is answered NACK-RANGE, and one
that reaches an E9 whose domain is DOWN is answered NACK-DOWN, with no tracker taken and no directory change. A ticket whose life is
over is released, and one whose life is not over is kept. When a line's open transaction has closed, the oldest request chained behind
it starts; a directory-store read that finds an owner, where the lookup of the line's set need not wait, sends a waiting RDS's forward,
and one in which any of the set's house lines has an uncorrectable error, or an entry a STATE that is not used, brings the domain DOWN. -/
def Obligations.HomeTakesEvictionsAndRefusals : Prop :=
  (∀ (s : State) (src g w : Nat) (m : CohMsg) (e : DirEnt) (fd : Finds), LineReady s m.la g w e → PeerUp s src → fd.dc = false → e.st = 2 →
    e.owner = src % 128 →
    (s.trk (sliceOf m.la) (htidRes (src % 128) opWBD) = none →
      ∃ t, exec (.wbd src m fd) s = .next t ∧
        Sends [(src, .coh false { opc := opACK, tid := m.tid, req := m.req, htid := htidRes (src % 128) opWBD, la := m.la })] s t ∧
        t.trk (sliceOf m.la) (htidRes (src % 128) opWBD) = none ∧
        (t.bank (sliceOf m.la / 4)).ent (dirSetOf s.dirGib m.la) w = {}) ∧
    (s.trk (sliceOf m.la) (htidRes (src % 128) opOFFER) = none →
      ∃ t, exec (.offer src m fd) s = .next t ∧ Sends [] s t ∧ t.trk (sliceOf m.la) (htidRes (src % 128) opOFFER) = none ∧
        (t.bank (sliceOf m.la / 4)).ent (dirSetOf s.dirGib m.la) w = {})) ∧
  (∀ (s : State) (src : Nat) (m : CohMsg) (fd : Finds), s.powered = true → PeerUp s src → laNode m.la = s.nodeNo → s.inFar m.la = false →
    ∀ c ∈ [Instr.rds src m fd, .rdx src m fd, .upg src m fd, .wbd src m fd, .offer src m fd, .iwr src m fd, .atom src m fd],
      ∃ t, exec c s = .next t ∧ Sends [(src, .coh false { opc := opNACKRANGE, tid := m.tid, req := m.req, la := m.la })] s t ∧
        t.slices = s.slices ∧ t.banks = s.banks ∧ t.rtr.unreach = s.rtr.unreach) ∧
  (∀ (s : State) (src : Nat) (m : CohMsg) (fd : Finds), s.powered = true → s.dom.st = 3 →
    ∀ c ∈ [Instr.rds src m fd, .rdx src m fd, .upg src m fd, .wbd src m fd, .offer src m fd, .iwr src m fd, .atom src m fd],
      ∃ t, exec c s = .next t ∧ Sends [(src, .coh false { opc := opNACKDOWN, tid := m.tid, req := m.req, la := m.la })] s t ∧
        t.slices = s.slices ∧ t.banks = s.banks) ∧
  (∀ (s : State) (n h : Nat) (x : Trk), s.trk n h = some x → x.ph = .reserved →
    (x.ticketEnd ≤ s.beat → ∃ t, exec (.ticketExpiry n h) s = .next t ∧ t.trk n h = none ∧
      Only { slices := true, ledger := true, irq := true, pba := true, outs := true, events := true, trc := true, trcCfg := true } s t) ∧
    (s.beat < x.ticketEnd → exec (.ticketExpiry n h) s = .next s)) ∧
  (∀ (s : State) (n la : Nat) (x : Trk) (fd : Finds), s.openTrk n la = none → (s.slice n).trks.filter (fun y => y.la == la && y.ph == .chained) = [x] →
    s.trk n x.htid = some x → (s.bank (n / 4)).lost = false → s.dom.downDue = false → (s.bank (n / 4)).dcHit (dirSetOf s.dirGib la) (laLocal la) = none →
    ∃ t y, exec (.chainedRequestStart n la fd) s = .next t ∧ t.trk n x.htid = some y ∧ y.ph = .dirRead ∧
      t.mem.near = s.mem.near ∧ t.mem.tags = s.mem.tags ∧
      Only { slices := true, free := true, chans := true, near := true, memIo := true, events := true, trc := true, trcCfg := true,
             ledger := true, bkt := true, due := true, flip := true, irq := true, pba := true, outs := true } s t) ∧
  (∀ (s : State) (n h w : Nat) (x : Trk) (src : Nat) (m : CohMsg) (e : DirEnt) (fd : Finds) (errs : List ArrErr), s.trk n h = some x → x.ph = .dirRead → x.for_ = .peer src m →
    m.opc = opRDS → m.unc = false → s.dom.downDue = false → (s.bank (n / 4)).hit (dirSetOf s.dirGib x.la) (laLocal x.la) = some w →
    (s.bank (n / 4)).ent (dirSetOf s.dirGib x.la) w = e → e.st = 2 ∨ e.st = 3 →
    ((s.dirErrs (n / 4) (dirSetOf s.dirGib x.la) errs).contains .ue = false → s.tagWaits n (setOf s.part x.la) = false →
      (s.bank (n / 4)).badSet (dirSetOf s.dirGib x.la) = false →
      (∀ y ∈ (s.slice n).trks, y.la = x.la → y.htid = h ∨ y.ph = .reserved ∨ y.ph = .chained) →
      ∃ t, exec (.directoryStoreReadDone n h errs fd) s = .next t ∧ Sends [(s.ownDomain * 128 + e.owner, .coh false { opc := opFWDS, req := src, tid := m.tid, htid := x.htid, la := x.la })] s t) ∧
    (s.dom.st = 2 → (s.dirErrs (n / 4) (dirSetOf s.dirGib x.la) errs).contains .ue = true ∨ (s.bank (n / 4)).badSet (dirSetOf s.dirGib x.la) = true →
      ∃ t, exec (.directoryStoreReadDone n h errs fd) s = .next t ∧ t.dom.st = 3 ∧ t.banks = s.banks))

/-- A device that holds the line of a snoop in S, E, M, O or P, with no host copy of it, answers INV with ACK to the home and is left in I.
In M it answers FWDS for a requester with DATA granting S to the requester and ACK KEPT to the home and is left in O, and FWDX with DATA
granting M to the requester and ACK to the home and is left in I. (Here the codes find no uncorrectable error in the tag block and ways
that it reads, fd, notes/assumptions/82.md.) Without a copy and a victim-buffer entry it answers with ACK MISS, and no data way and no
tag block changes. It sends nothing else. (The lookups here need not wait for a tag block.) A snoop from a node that is not the line's
home is answered with nothing. A snoop during a hold of its line is deferred: nothing is sent. When the hold ends its deferred snoops
are answered, and a hold that has not ended stays. -/
def Obligations.SnoopsOfADevice : Prop :=
  (∀ (s : State) (home w : Nat) (m : CohMsg) (e : TagEnt) (fd : Finds), HeldHere s home m.la w e → fd.tag = [] → (∀ x ∈ fd.way, x ≠ .ue) →
    (∃ t, exec (.inv home m fd) s = .next t ∧
      Sends [(home, .coh false { opc := opACK, req := m.req, tid := m.tid, htid := m.htid, la := m.la })] s t ∧
      ((t.nearTags (setOf s.part m.la)).get w).st = stI) ∧
    (e.st = Machine.stM → m.destHome = false →
      (∃ t, exec (.fwds home m fd) s = .next t ∧
        Sends [(m.req, .coh false { opc := opDATA, grant := 1, req := m.req, tid := m.tid, htid := m.htid, la := m.la,
                                    data := (s.wayGet (setOf s.part m.la) w).1, poison := (s.wayGet (setOf s.part m.la) w).2 }),
               (home, .coh false { opc := opACK, kept := true, req := m.req, tid := m.tid, htid := m.htid, la := m.la })] s t ∧
        ((t.nearTags (setOf s.part m.la)).get w).st = stO) ∧
      (∃ t, exec (.fwdx home m fd) s = .next t ∧
        Sends [(m.req, .coh false { opc := opDATA, grant := 3, req := m.req, tid := m.tid, htid := m.htid, la := m.la,
                                    data := (s.wayGet (setOf s.part m.la) w).1, poison := (s.wayGet (setOf s.part m.la) w).2 }),
               (home, .coh false { opc := opACK, req := m.req, tid := m.tid, htid := m.htid, la := m.la })] s t ∧
        ((t.nearTags (setOf s.part m.la)).get w).st = stI))) ∧
  (∀ (s : State) (home : Nat) (m : CohMsg) (fd : Finds), s.powered = true → PeerUp s home → laNode m.la = home →
    (∀ h ∈ (s.slice (sliceOf m.la)).holds, h.la = m.la → h.until_ ≤ s.clk) → (∀ v ∈ (s.slice (sliceOf m.la)).vbs, v.la ≠ m.la) →
    s.granted (sliceOf m.la) m.la = false → s.findLine m.la = none → fd.tcUe = false →
    s.tagWaits (sliceOf m.la) (setOf s.part m.la) = false → s.rowsApart (sliceOf m.la) (setOf s.part m.la) →
    ∀ c ∈ [Instr.inv home m fd, .fwds home m fd, .fwdx home m fd], ∃ t, exec c s = .next t ∧
      Sends [(home, .coh false { opc := opACK, missF := true, req := m.req, tid := m.tid, htid := m.htid, la := m.la })] s t ∧
      t.mem.near = s.mem.near ∧ (fd.tag = [] → (s.slice (sliceOf m.la)).tc = [] → s.ras.latent = [] →
        tagError s.part (setOf s.part m.la) (s.nearTags (setOf s.part m.la)) = false → t.mem.tags = s.mem.tags) ∧
      Only { rtrTx := true, rtrRx := true, slices := true, chans := true, near := true, memIo := true, free := true, flip := true,
             events := true, trc := true, trcCfg := true, ledger := true, bkt := true, due := true, irq := true, pba := true, outs := true } s t) ∧
  (∀ (s : State) (src : Nat) (m : CohMsg) (fd : Finds), s.powered = true → laNode m.la ≠ src →
    ∀ c ∈ [Instr.inv src m fd, .fwds src m fd, .fwdx src m fd], ∃ t, exec c s = .next t ∧ Sends [] s t ∧ t.slices = s.slices ∧ t.mem.tags = s.mem.tags) ∧
  (∀ (s : State) (home : Nat) (m : CohMsg) (fd : Finds), s.powered = true → PeerUp s home → laNode m.la = home →
    (∃ h ∈ (s.slice (sliceOf m.la)).holds, h.la = m.la ∧ s.clk < h.until_) →
    ∀ c ∈ [Instr.inv home m fd, .fwds home m fd, .fwdx home m fd], ∃ t, exec c s = .next t ∧ Sends [] s t ∧ t.mem.tags = s.mem.tags ∧
      ∃ h ∈ (t.slice (sliceOf m.la)).holds, h.la = m.la ∧ ∃ x ∈ h.snoops, x.1 = home) ∧
  (∀ (s : State) (n la home : Nat) (m : CohMsg) (h : Hold) (fd : Finds), fd.tcUe = false → s.granted n la = false → (s.slice n).holds = [h] → h.la = la → h.until_ ≤ s.clk →
    h.snoops = [(home, m)] → m.la = la → n = sliceOf la → (∀ v ∈ (s.slice n).vbs, v.la ≠ la) → s.findLine la = none →
    s.tagWaits n (setOf s.part la) = false → s.rowsApart n (setOf s.part la) →
    ∃ t, exec (.holdExpiry n la fd) s = .next t ∧ (t.slice n).holds = [] ∧
      Sends [(home, .coh false { opc := opACK, missF := true, req := m.req, tid := m.tid, htid := m.htid, la := m.la })] s t) ∧
  (∀ (s : State) (n la : Nat) (fd : Finds), (∀ h ∈ (s.slice n).holds, h.la = la → s.clk < h.until_) →
    exec (.holdExpiry n la fd) s = .next (s.noted fd))

/-- DATA with a grant gives the register that its TID names its data and its granted state and sends the home the confirming ACK, and
nothing else. The ACK of a write-back frees its victim-buffer entry. The confirming ACK closes the tracker that waits for it. DATAO from
the owner that a home's own read waits for gives the register the data. RETRY without a ticket holds a demand request for reissue and
sends nothing; with a ticket, the register being the oldest refused of its class, it is sent again at once with the ticket; a prefetch
is dropped. After RETRY_GAP, and not before, the oldest refused request goes again. NACK-DOWN and NACK-RANGE end the register's request:
a porter's piece gets poison and the status DOMAIN_DOWN or DEAD_TARGET. A request that waits for one message longer than COH_TIMEOUT
brings the domain DOWN; before that nothing changes. -/
def Obligations.AnswersAtRequesterAndHome : Prop :=
  (∀ (s : State) (src : Nat) (m : CohMsg) (r : Mr) (fd : Finds), OnlyRegister s m.la r → m.tid = tidMr (sliceOf m.la) r.idx → r.opc ≠ opUPG → m.grant ≠ 0 →
    ∃ t, exec (.data src m fd) s = .next t ∧
      t.mr (sliceOf m.la) r.idx =
        some { r with st := .answered, grant := m.grant, data := some (m.data, m.poison), ticket := none, early := r.secs.length,
                      won := r.secs.length } ∧
      Sends [(laNode m.la, .coh false { opc := opACK, tid := m.tid, req := s.nodeNo, htid := m.htid, la := m.la })] s t) ∧
  (∀ (s : State) (src : Nat) (m : CohMsg) (v : Vb) (fd : Finds), s.powered = true → laNode m.la ≠ s.nodeNo →
    (s.slice (sliceOf m.la)).vbs = [v] → v.idx < 16 → v.la = m.la → v.sent = true → v.done = false → v.refSeq = 0 → s.noHosts m.la = true →
    v.action = 2 → m.tid = tidVb (sliceOf m.la) v.idx → (s.slice (sliceOf m.la)).mrs = [] →
    ∃ t, exec (.ack src m fd) s = .next t ∧ (t.slice (sliceOf m.la)).vbs = [] ∧ Sends [] s t ∧
      Only { slices := true, rtrRx := true, events := true, trc := true, trcCfg := true, ledger := true, bkt := true, due := true, irq := true, pba := true, outs := true } s t) ∧
  (∀ (s : State) (src : Nat) (m : CohMsg) (x : Trk) (r : CohMsg) (fd : Finds), s.powered = true → laNode m.la = s.nodeNo →
    s.trk (sliceOf m.la) m.htid = some x → x.la = m.la → x.ph = .cnf → x.for_ = .peer src r → x.invWait = [] → x.fwdWait = none →
    x.wbdDrop = none →
    ∃ t, exec (.ack src m fd) s = .next t ∧ t.trk (sliceOf m.la) m.htid = none ∧ Sends [] s t ∧
      t.mem.near = s.mem.near ∧ t.mem.tags = s.mem.tags ∧
      Only { slices := true, banks := true, rtrRx := true, free := true, flip := true, chans := true, near := true, memIo := true,
             events := true, trc := true, trcCfg := true, ledger := true, bkt := true, due := true, irq := true, pba := true, outs := true } s t) ∧
  (∀ (s : State) (src : Nat) (m : CohMsg) (x : Trk) (r : Mr) (fd : Finds), s.powered = true → laNode m.la = s.nodeNo →
    s.trk (sliceOf m.la) m.htid = some x → x.la = m.la → x.ph = .fwd → x.for_ = .own r.idx → s.mr (sliceOf m.la) r.idx = some r →
    r.prim.kind = .read → r.prim.glob = false → r.prim.atHome = false → x.invWait = [] → x.fwdWait = some (src % 128) →
    x.offerWait = none → x.memTok = none → x.hostWait = 0 → x.wbdDrop = none → x.held = none → x.offered = false → x.dst = 2 ∨ x.dst = 3 →
    m.missF = false → m.ev = false → (∀ v ∈ (s.slice (sliceOf m.la)).vbs, v.la ≠ m.la) →
    ∃ t y, exec (.datao src m fd) s = .next t ∧ t.mr (sliceOf m.la) r.idx = some y ∧ y.st = .answered ∧
      y.data = some (m.data, m.poison) ∧ Sends [] s t) ∧
  (∀ (s : State) (src : Nat) (m : CohMsg) (r : Mr), OnlyRegister s m.la r → m.tid = tidMr (sliceOf m.la) r.idx → r.opc ∈ [opRDS, opRDX, opUPG, opATOM] →
    (s.slice (sliceOf m.la)).nextRef ≠ 0 →
    (r.isPf = true → ∃ t, exec (.retry src m) s = .next t ∧ t.mr (sliceOf m.la) r.idx = none ∧ Sends [] s t) ∧
    (r.isPf = false → m.tkt = false → ∃ t y, exec (.retry src m) s = .next t ∧ t.mr (sliceOf m.la) r.idx = some y ∧ y.st = .refused ∧
      y.refSeq ≠ 0 ∧ y.ticket = none ∧ Sends [] s t) ∧
    (r.isPf = false → m.tkt = true → r.home = laNode m.la →
      ∃ t a, exec (.retry src m) s = .next t ∧ Sends [(laNode m.la, .coh false a)] s t ∧ a.opc = r.opc ∧ a.tkt = true ∧
        a.htid = m.htid ∧ a.tid = m.tid ∧ a.la = m.la)) ∧
  (∀ (s : State) (n home opc i k : Nat) (r : Mr), s.oldestRefused n home opc = some (k, .mr i) → s.mr n i = some r → r.st = .refused →
    r.gapEnd ≤ s.clk → r.ticket = none → r.opc ∈ [opRDS, opRDX, opUPG, opATOM] →
    ∃ t y a, exec (.retryGapExpiry n home opc) s = .next t ∧ t.mr n i = some y ∧ y.st = .sent ∧
      Sends [(laNode r.la, .coh false a)] s t ∧ a.opc = r.opc ∧ a.tkt = false ∧ a.la = r.la) ∧
  (∀ (s : State) (n home opc i k : Nat) (r : Mr), s.oldestRefused n home opc = some (k, .mr i) → s.mr n i = some r → s.clk < r.gapEnd →
    exec (.retryGapExpiry n home opc) s = .next s) ∧
  (∀ (s : State) (src p pid : Nat) (m : CohMsg) (r : Mr) (fd : Finds), OnlyRegister s m.la r → m.tid = tidMr (sliceOf m.la) r.idx →
    r.prim.src = .piece p pid → r.secs = [] → r.prim.kind = .read →
    (∃ t, exec (.nackDown src m fd) s = .next t ∧ t.mr (sliceOf m.la) r.idx = none ∧ Sends [] s t ∧
      ∀ q ∈ (t.por p).pieces, q.pid = pid → q.got = some (Config.poisonLine, true, 5)) ∧
    (∃ t, exec (.nackRange src m fd) s = .next t ∧ t.mr (sliceOf m.la) r.idx = none ∧ Sends [] s t ∧
      ∀ q ∈ (t.por p).pieces, q.pid = pid → q.got = some (Config.poisonLine, true, 4))) ∧
  (∀ (s : State) (n i : Nat) (r : Mr), s.mr n i = some r → r.st = .sent → s.classOf r.la = .domRemote → r.prim.glob = false →
    (s.cohTimeout * 1024 ≤ s.mtu.mt - r.since → ∃ t, exec (.cohTimeout (.mr n i)) s = .next t ∧ t.dom.st = 3 ∧ t.slices = s.slices) ∧
    (s.mtu.mt - r.since < s.cohTimeout * 1024 → exec (.cohTimeout (.mr n i)) s = .next s))

/-- GRD of a line that peers share and this home holds, no host having it in E or M, is answered GDATA with the home copy's value. GWR and
GATOM of a line in SH send every sharer INV and wait. With no general tracker free each is answered GBUSY, and nothing else changes;
beyond the installed far memory each is answered NACK-RANGE. GDATA gives the named register its data; GBUSY holds it for reissue; GACK
ends a write, whose porter piece is then done, or frees the victim-buffer entry that wrote through. A register older than the fabric
deadline ends and its target is marked unreachable; a younger one stays. A far-memory read that its channel has made answers the host of
level-1 memory it was made for; one that has not been made does nothing. (Of the codes, GRD supposes that they find no uncorrectable
error in what it reads; what they correct, fd, notes/assumptions/82.md, is counted beside all this.) -/
def Obligations.GlobalAccesses : Prop :=
  (∀ (s : State) (src g w v : Nat) (m : CohMsg) (e : DirEnt) (x : TagEnt) (fd : Finds), LineReady s m.la g w e → s.dom.st ≠ 3 → e.st = 1 →
    s.mode ≠ 2 → s.nearFrozen (sliceOf m.la) = false → fd.dc = false → fd.tcUe = false → fd.tag = [] → (∀ y ∈ fd.way, y ≠ .ue) →
    s.ras.latent = [] → s.rowsApart (sliceOf m.la) (setOf s.part m.la) →
    tagError s.part (setOf s.part m.la) (s.nearTags (setOf s.part m.la)) = false → s.findLine m.la = some (v, x) → s.noHostEM m.la = true →
    ∃ t, exec (.grd src m fd) s = .next t ∧
      Sends [(src, .coh true { opc := opGDATA, tid := m.tid, req := m.req, la := m.la, data := (s.wayGet (setOf s.part m.la) v).1,
                               poison := (s.wayGet (setOf s.part m.la) v).2 || x.st == stP })] s t ∧
      t.trk (sliceOf m.la) g = none ∧ t.mem.near = s.mem.near ∧ ((s.slice (sliceOf m.la)).tc = [] → t.mem.tags = s.mem.tags)) ∧
  (∀ (s : State) (src g w : Nat) (m : CohMsg) (e : DirEnt) (fd : Finds) (c : Instr) (discard : Bool), LineReady s m.la g w e →
    s.dom.st ≠ 3 → e.st = 1 → fd.dc = false → s.mode ≠ 2 → s.nearFrozen (sliceOf m.la) = false → opndBad m.opnd = false → bitsOf e.sharers ≠ [] →
    (c = .gwr src m fd ∧ discard = !m.partialWr) ∨ (c = .gatom src m fd ∧ discard = false) →
    ∃ t x, exec c s = .next t ∧
      Sends ((bitsOf e.sharers).map fun v =>
        (s.ownDomain * 128 + v, .coh false { opc := opINV, discard := discard, req := src, tid := m.tid, htid := g, la := m.la })) s t ∧
      t.trk (sliceOf m.la) g = some x ∧ x.ph = .collect ∧ x.invWait = bitsOf e.sharers) ∧
  (∀ (s : State) (src : Nat) (m : CohMsg) (fd : Finds), s.powered = true → laNode m.la = s.nodeNo → s.dom.st ≠ 3 →
    ∀ c ∈ [Instr.grd src m fd, .gwr src m fd, .gatom src m fd],
      (s.inFar m.la = false → ∃ t, exec c s = .next t ∧ t.slices = s.slices ∧ t.banks = s.banks ∧
        Sends [(src, .coh true { opc := opNACKRANGE, tid := m.tid, req := m.req, la := m.la })] s t) ∧
      (s.inFar m.la = true → s.mode ≠ 2 → s.nearFrozen (sliceOf m.la) = false → opndBad m.opnd = false → s.general (sliceOf m.la) = none →
        ∃ t, exec c s = .next t ∧ Only { rtrTx := true, rtrRx := true, events := true, trc := true, trcCfg := true, ledger := true, bkt := true, due := true, irq := true, pba := true, outs := true } s t ∧
          Sends [(src, .coh true { opc := opGBUSY, tid := m.tid, req := m.req, la := m.la })] s t)) ∧
  (∀ (s : State) (src : Nat) (m : CohMsg) (r : Mr), OnlyRegister s m.la r → m.tid = tidMr (sliceOf m.la) r.idx →
    (∃ t, exec (.gdata src m) s = .next t ∧
      t.mr (sliceOf m.la) r.idx = some { r with st := .answered, grant := 0, data := some (m.data, m.poison), ticket := none,
                                                    early := r.secs.length, won := 0 } ∧ Sends [] s t) ∧
    (r.isPf = false → (s.slice (sliceOf m.la)).nextRef ≠ 0 → ∃ t y, exec (.gbusy src m) s = .next t ∧ t.mr (sliceOf m.la) r.idx = some y ∧
      y.st = .refused ∧ y.refSeq ≠ 0 ∧ y.ticket = none ∧ Sends [] s t)) ∧
  (∀ (s : State) (src p pid : Nat) (m : CohMsg) (r : Mr) (o : OutW) (fd : Finds), s.powered = true → (s.slice (sliceOf m.la)).mrs = [r] → r.idx < 64 →
    r.la = m.la → r.prim.kind = .write → r.prim.src = .piece p pid → r.refSeq = 0 → r.secs = [] → (s.slice (sliceOf m.la)).outw = [o] →
    o.early = false → o.tid = m.tid → o.la = m.la → m.tid = tidMr (sliceOf m.la) r.idx →
    ∃ t, exec (.gack src m fd) s = .next t ∧ t.mr (sliceOf m.la) r.idx = none ∧ (t.slice (sliceOf m.la)).outw = [] ∧ Sends [] s t ∧
      ∀ q ∈ (t.por p).pieces, q.pid = pid → q.got = some (0, false, 0)) ∧
  (∀ (s : State) (src : Nat) (m : CohMsg) (v : Vb) (fd : Finds), s.powered = true → (s.slice (sliceOf m.la)).vbs = [v] → v.idx < 16 →
    v.la = m.la → v.sent = true → v.done = false → s.noHosts m.la = true → v.refSeq = 0 → m.tid = tidVb (sliceOf m.la) v.idx → (s.slice (sliceOf m.la)).mrs = [] →
    ∃ t, exec (.gack src m fd) s = .next t ∧ (t.slice (sliceOf m.la)).vbs = [] ∧
      Only { slices := true, rtrRx := true, rtr := true, events := true, trc := true, trcCfg := true, ledger := true, bkt := true, due := true, irq := true, pba := true, outs := true } s t) ∧
  (∀ (s : State) (r : Mr) (fd : Finds), OnlyRegister s r.la r → s.classOf r.la = .other →
    (deadlineClks ≤ s.ran r.t0 r.paused0 → ∃ t, exec (.fabricDeadlineExpiry (.mr (sliceOf r.la) r.idx) fd) s = .next t ∧
      t.mr (sliceOf r.la) r.idx = none ∧ t.unreachable (laNode r.la) = true) ∧
    (s.ran r.t0 r.paused0 < deadlineClks → exec (.fabricDeadlineExpiry (.mr (sliceOf r.la) r.idx) fd) s = .next (s.noted fd))) ∧
  (∀ (s : State) (tok : Nat) (r : MemRd) (h : HostReq) (d : Line) (fd : Finds), s.mem.reads.find? (fun x => x.tok == tok) = some r → r.n = 64 →
    r.got = some (d, false) → s.hreq r.htid = some h → h.win = .loc → h.mute = false → h.req.op = .read → h.req.copy = false →
    ∃ t, exec (.memoryReadDone tok fd) s = .next t ∧ .memData h.link h.req.tag d false 0 ∈ t.outs ∧ (∀ g ∈ t.hreqs, g.rid ≠ h.rid) ∧
      ∀ x ∈ t.mem.reads, x.tok ≠ tok) ∧
  (∀ (s : State) (tok : Nat) (fd : Finds), (∀ r ∈ s.mem.reads, r.tok = tok → r.got = none) →
    exec (.memoryReadDone tok fd) s = .next (s.noted fd))

/-- With a place free in the FNC and its scope in service (port and device from level 2, the wider ones at level 3), an aligned read of a
scope and kind of the fence page adds one pending fence with that scope and kind, whose snapshot holds the accesses its scope covers,
and answers nothing yet. A read of another offset of the page returns 0 and starts none, as does one of a scope not in service (the
model's choice, log 114); a misaligned one gets Completer Abort; a domain-scope one in a DOWN domain is answered at once with
DOMAIN_DOWN. The fence takes the failures of accesses that it covers and no fence has reported; a later failure is charged to every
pending fence whose snapshot holds the access. While an access the fence waits for is unperformed, its local waits do not end; when they
end, a port-scope fence is answered OK, or DOMAIN_DOWN with the node when an access that it covers failed at a DOWN domain, and leaves.
From 22,000 core clocks after the read, and not before, a fence is answered DEADLINE; one of domain or system scope keeps its place,
another leaves. -/
def Obligations.FencePageReads : Prop :=
  (∀ (s : State) (l sc k size : Nat), s.linkOn l = true → sc < 4 → k < 4 → size = 4 ∨ size = 8 →
    (if sc < 2 then 2 ≤ s.boot.level else s.boot.level = 3) → (s.fnc.fences.filter fun f => f.ph != .port).length < 64 → (sc = 2 → s.dom.st ≠ 3) →
    ∃ (t : State) (f : Fence), exec (.fenceRead l (0x40000 + 64 * sc + 16 * k) size) s = .next t ∧ t.fnc.fences = s.fnc.fences ++ [f] ∧ f.link = l ∧
      f.scope = sc ∧ f.rel = (k != 1) ∧ f.acq = (k != 0) ∧ f.t0 = s.clk ∧ f.ph = .wait ∧ f.localDone = false ∧ f.gone = false ∧ f.mute = false ∧
      f.snap = (s.accs.filter fun a => sc != 0 || a.who == l).map (·.aid) ∧ t.accs = s.accs ∧
      (∀ r : FailRec, s.fails = [r] → (sc ≠ 0 ∨ r.who = l → t.fails = [] ∧ f.seenDown = r.down ∧ f.seenDead = !r.down ∧ f.node = some r.node) ∧
        (sc = 0 → r.who ≠ l → t.fails = [r] ∧ f.seenDown = false ∧ f.seenDead = false ∧ f.node = none)) ∧
      Only { nextRid := true, accs := true, fnc := true, events := true } s t) ∧
  (∀ (s : State) (aid who node : Nat) (down : Bool), (∃ f ∈ s.fnc.fences, aid ∈ f.snap ∧ f.gone = false ∧ f.mute = false) →
    (s.accFail aid who node down).fails = s.fails ∧
    ∀ f ∈ s.fnc.fences, aid ∈ f.snap → ∃ g ∈ (s.accFail aid who node down).fnc.fences, g.fid = f.fid ∧ g.snap = f.snap ∧
      (down = true → g.seenDown = true) ∧ (down = false → g.seenDead = true) ∧ (f.node = none → g.node = some node)) ∧
  (∀ (s : State) (l o size : Nat), s.linkOn l = true → o < 0x1000 →
    (size = 4 ∨ size = 8 → o % size = 0 → 0x100 ≤ o ∨ o % 16 ≠ 0 →
      exec (.fenceRead l (0x40000 + o) size) s = .next (s.emit (.ioData l 0))) ∧
    (s.boot.level < 2 ∨ (0x80 ≤ o ∧ s.boot.level = 2) → size = 4 ∨ size = 8 → o % size = 0 →
      exec (.fenceRead l (0x40000 + o) size) s = .next (s.emit (.ioData l 0))) ∧
    (o % size ≠ 0 → ∃ t, exec (.fenceRead l (0x40000 + o) size) s = .next t ∧ t.fnc = s.fnc ∧ t.outs.getLast? = some (.ioAbort l)) ∧
    (s.boot.level = 3 → s.dom.st = 3 → o = 0x80 ∨ o = 0x90 ∨ o = 0xA0 → size = 8 → s.fnc.fences = [] →
      ∃ (t : State) (v : Word), exec (.fenceRead l (0x40000 + o) size) s = .next t ∧ t.outs = s.outs ++ [.ioData l v] ∧ v.toNat % 256 = 2 ∧ t.fnc.fences = [])) ∧
  (∀ (s : State) (f : Fence), s.powered = true → s.fnc.fences = [f] → f.ph = .wait → f.localDone = false →
    (s.fenceWaits f = true → exec (.fenceLocalWaitsDone f.fid) s = .next s) ∧
    (s.fenceWaits f = false → f.scope = 0 → f.gone = false → f.mute = false → f.seenDead = false →
      (f.seenDown = false → f.node = none →
        ∃ t, exec (.fenceLocalWaitsDone f.fid) s = .next t ∧ t.outs = s.outs ++ [.ioData f.link 0] ∧ t.fnc.fences = [] ∧
          t.fnc.completed = (s.fnc.completed + 1) % 2 ^ 32 ∧ Only { fnc := true, outs := true } s t) ∧
      (f.seenDown = true → ∀ n < 2 ^ 15, f.node = some n →
        ∃ (t : State) (v : Word), exec (.fenceLocalWaitsDone f.fid) s = .next t ∧ t.outs = s.outs ++ [.ioData f.link v] ∧ t.fnc.fences = [] ∧
          v.toNat = 2 + 2 ^ 9 + n * 2 ^ 16 + 2 ^ 31 ∧ Only { fnc := true, outs := true } s t))) ∧
  (∀ (s : State) (f : Fence), s.powered = true → s.fnc.fences = [f] → f.gone = false → f.mute = false →
    (s.clk - f.t0 < 22000 → exec (.fenceDeadline f.fid) s = .next s) ∧
    (22000 ≤ s.clk - f.t0 → ∃ (t : State) (v : Word), exec (.fenceDeadline f.fid) s = .next t ∧ t.outs = s.outs ++ [.ioData f.link v] ∧ v.toNat % 256 = 3 ∧
      (f.scope < 2 → t.fnc.fences = []) ∧ (2 ≤ f.scope → f.ph = .wait → t.fnc.fences = [{ f with gone := true }]) ∧
      Only { fnc := true, outs := true, events := true } s t))

/-- In an UP domain, ARRIVE of the current generation from a child of the domain tree that has not been counted is counted, with its KINDS
and CODE; any other is discarded and counted in FNC_STS.DISCARDED. At a root whose only child arrives while its one fence of the
generation, a RELEASE fence, has ended its local waits, the downdraft goes to the child, the fence is answered with the largest CODE and
the generation number rises by one. At a member below the root the downdraft of its generation goes on to its children, completes its
fence likewise and opens the next generation; a downdraft from elsewhere is discarded. When the local waits of the one fence of a member
without children end, it sends its arrival to its parent. A write of a system-tree register sets the register, answers the pending
system-scope fence DEADLINE and sets the generation to START_GEN. -/
def Obligations.CombiningTrees : Prop :=
  (∀ (s : State) (src : Nat) (m : TreeMsg), s.powered = true → s.dom.st = 2 → m.sys = false → m.gen = s.fnc.dom.gen → src ∈ s.fnc.domKids →
    src ∉ s.fnc.dom.counted →
    (s.fnc.fences = [] → ∃ t, exec (.arrive src m) s = .next t ∧ Sends [] s t ∧
      t.fnc.dom = { s.fnc.dom with counted := s.fnc.dom.counted ++ [src], kinds := s.fnc.dom.kinds ||| m.kinds, code := max s.fnc.dom.code m.code } ∧
      Only { fnc := true, events := true, rtrRx := true } s t) ∧
    (∀ f, s.fnc.fences = [f] → f.scope = 2 → f.ph = .tree m.gen → f.gen = m.gen → f.localDone = true → f.rel = true → f.acq = false →
      f.gone = false → f.mute = false → s.fnc.domRank = 0 → s.fnc.domKids = [src] → s.fnc.dom.sent = false → s.fnc.dom.kinds = 0 → s.fnc.dom.code = 0 →
      m.kinds.getLsbD 1 = false → m.gen < 255 →
      ∃ t, exec (.arrive src m) s = .next t ∧
        Sends [(src, .tree { op := 2, sys := false, gen := m.gen, kinds := m.kinds ||| 1, code := max m.code f.code })] s t ∧
        t.fnc.dom = { gen := m.gen + 1 } ∧ t.fnc.fences = [] ∧ t.outs = s.outs ++ [.ioData f.link (f.status (max m.code f.code))])) ∧
  (∀ (s : State) (src : Nat) (m : TreeMsg), s.powered = true → s.dom.st = 2 → m.sys = false →
    (m.gen ≠ s.fnc.dom.gen ∨ src ∉ s.fnc.domKids ∨ src ∈ s.fnc.dom.counted →
      ∃ t, exec (.arrive src m) s = .next t ∧ t.fnc = { s.fnc with discarded := satAdd 0xFFFF s.fnc.discarded 1 } ∧
        Only { fnc := true, rtrRx := true } s t) ∧
    (m.gen ≠ s.fnc.dom.gen ∨ src ≠ s.fnc.domParent ∨ s.fnc.domRank = 0 →
      ∃ t, exec (.downdraft src m) s = .next t ∧ t.fnc = { s.fnc with discarded := satAdd 0xFFFF s.fnc.discarded 1 } ∧
        Only { fnc := true, rtrRx := true } s t)) ∧
  (∀ (s : State) (src : Nat) (m : TreeMsg) (f : Fence), s.powered = true → s.dom.st = 2 → m.sys = false → m.gen = s.fnc.dom.gen → m.gen < 255 →
    src = s.fnc.domParent → s.fnc.domRank ≠ 0 → m.kinds.getLsbD 1 = false → s.fnc.fences = [f] → f.scope = 2 →
    f.ph = .tree m.gen → f.gen = m.gen → f.acq = false → f.gone = false → f.mute = false →
    ∃ t, exec (.downdraft src m) s = .next t ∧
      Sends (s.fnc.domKids.map fun k => (k, .tree { op := 2, sys := false, gen := m.gen, kinds := m.kinds, code := m.code })) s t ∧
      t.fnc.dom = { gen := m.gen + 1 } ∧ t.fnc.fences = [] ∧ t.outs = s.outs ++ [.ioData f.link (f.status m.code)]) ∧
  (∀ (s : State) (f : Fence), s.powered = true → s.dom.st = 2 → s.others ≠ [] → s.fnc.domKids = [] → s.fnc.domRank ≠ 0 →
    s.fnc.dom = { gen := f.gen } → s.fnc.fences = [f] → f.scope = 2 → f.ph = .wait → f.localDone = false → s.fenceWaits f = false →
    f.seenDead = false → f.seenDown = false →
    ∃ t, exec (.fenceLocalWaitsDone f.fid) s = .next t ∧ t.outs = s.outs ∧ t.fnc.dom.sent = true ∧
      Sends [(s.fnc.domParent, .tree { op := 1, sys := false, gen := f.gen, code := 0,
                                       kinds := (if f.rel then 1 else 0) ||| (if f.acq then 2 else 0) })] s t) ∧
  (∀ (s : State) (l k : Nat) (v : Word) (f : Fence), s.linkOn l = true → k < 5 → s.fnc.fences = [f] → f.scope = 3 → f.gone = false → f.mute = false →
    ∃ (t : State) (a : Word), exec (.systemTreeWrite l (0x41000 + 8 * k) 8 v) s = .next t ∧ t.csrGet (0x41000 + 8 * k) = v &&& sysMask (0x41000 + 8 * k) ∧
      t.fnc.fences = [] ∧ t.fnc.sys = { gen := t.sysStartGen } ∧ t.fnc.dom = s.fnc.dom ∧ t.outs = s.outs ++ [.ioData f.link a] ∧
      a.toNat % 256 = 3 ∧ Only { csr := true, fnc := true, events := true, outs := true } s t)

/-- In an UP domain with other members, ADDRESS, CONTEXT and ALL of domain scope at a member below the root ask the root with BREQ, naming
what to drop, and stay busy; 22,000 core clocks later the limit ends them DEADLINE. BREQ at a domain tree's idle root from another
member sends BCAST with the next number to every child and drops the named entries everywhere; while a broadcast is in progress it is
answered BBUSY. BCAST from the parent at a member that has none in progress goes on to its children, drops the named entries and, with
no child and no access to wait for, is answered BACK. BACK from the last awaited child makes the root send BDONE to the origin, with the
largest CODE. BDONE for the invalidation in progress ends it with its CODE; BBUSY makes its origin ask again 2,048 core clocks later. -/
def Obligations.InvalidationBroadcasts : Prop :=
  (∀ (s : State) (l ctx : Nat), s.linkOn l = true → s.dom.st = 2 → s.others ≠ [] → s.fnc.domRank ≠ 0 → s.xinv.busy = false →
    ∀ p ∈ [(Instr.address l ctx 2, 1), (.context l ctx 2, 2), (.all l 2, 3)], ∃ (t : State) (m : TreeMsg), exec p.1 s = .next t ∧
      Sends [(s.fnc.domRoot, .tree m)] s t ∧ m.op = 3 ∧ m.sys = false ∧ m.origin = s.nodeNo ∧ m.ityp = p.2 ∧ (p.2 ≠ 3 → m.ctx = ctx) ∧
      (p.2 = 1 → m.vpage = fld (s.csrGet 0xE60000) 12 45) ∧ t.xinv.busy = true ∧ t.xinv.scope = 2 ∧ t.xinv.t0 = s.clk ∧ t.xinv.msg = m ∧
      Only { xinv := true, rtrTx := true } s t) ∧
  (∀ s : State, s.powered = true → s.xinv.busy = true → s.xinv.scope = 2 → 22000 ≤ s.clk - s.xinv.t0 →
    ∃ t, exec .invalidationLimit s = .next t ∧ t.xinv.busy = false ∧ t.xinv.code = 3 ∧ Only { xinv := true } s t) ∧
  (∀ (s : State) (src : Nat) (m : TreeMsg), s.powered = true → PeerUp s src → m.sys = false → s.fnc.domRank = 0 →
    (s.fnc.bcDom.rootBusy = false → s.fnc.domKids ≠ [] → ∃ t, exec (.breq src m) s = .next t ∧
      Sends (s.fnc.domKids.map fun k => (k, .tree { m with origin := src, op := 4, gen := s.fnc.bcDom.nextNum })) s t ∧
      t.fnc.bcDom.rootBusy = true ∧ t.fnc.bcDom.nextNum = (s.fnc.bcDom.nextNum + 1) % 256 ∧ t.fnc.bcDom.waitKids = s.fnc.domKids ∧
      t.fnc.bcDom.active = true ∧
      (m.ityp = 1 → ∀ i, s.part.xltPresent i = true → i < 5 →
        Lacks (t.xlt i) (fun e => e.covers m.ctx (m.vpage * 4096)) (fun e => e.covers m.ctx (m.vpage * 4096))) ∧
      (m.ityp = 1 → t.pors = (s.porUnleaf fun e => e.covers m.ctx (m.vpage * 4096)).pors) ∧
      Only { fnc := true, xlts := true, pors := true, rtrTx := true, rtrRx := true } s t) ∧
    (s.fnc.bcDom.rootBusy = true → ∃ t, exec (.breq src m) s = .next t ∧ Sends [(src, .tree { m with origin := src, op := 7 })] s t ∧
      Only { rtrTx := true, rtrRx := true } s t)) ∧
  (∀ (s : State) (m : TreeMsg), s.powered = true → s.dom.st = 2 → m.sys = false → s.fnc.domRank ≠ 0 → s.fnc.bcDom.active = false →
    s.accs = [] → s.fnc.domKids = [] →
    ∃ t, exec (.bcast s.fnc.domParent m) s = .next t ∧ Sends [(s.fnc.domParent, .tree { m with op := 5, code := 0 })] s t ∧
      t.fnc.bcDom.active = false ∧
      (m.ityp = 2 → ∀ i, s.part.xltPresent i = true → i < 5 → Lacks (t.xlt i) (fun e => e.ctx == m.ctx) (fun e => e.ctx == m.ctx)) ∧
      (m.ityp = 3 → ∀ i, s.part.xltPresent i = true → i < 5 → Lacks (t.xlt i) (fun _ => true) (fun _ => true)) ∧
      (m.ityp = 2 → t.pors = (s.porUnleaf fun e => e.ctx == m.ctx).pors) ∧ (m.ityp = 3 → t.pors = (s.porUnleaf fun _ => true).pors) ∧
      Only { fnc := true, xlts := true, pors := true, rtrTx := true, rtrRx := true } s t) ∧
  (∀ (s : State) (src : Nat) (m : TreeMsg), s.powered = true → s.dom.st = 2 → m.sys = false → s.fnc.bcDom.active = true →
    m.gen = s.fnc.bcDom.num → s.fnc.bcDom.waitKids = [src] → s.accs = [] → s.fnc.domRank = 0 → s.fnc.bcDom.origin ≠ s.nodeNo →
    ∃ t, exec (.back src m) s = .next t ∧
      Sends [(s.fnc.bcDom.origin, .tree { s.fnc.bcDom.msg with op := 6, gen := m.gen, code := max s.fnc.bcDom.code m.code })] s t ∧
      t.fnc.bcDom.active = false ∧ t.fnc.bcDom.rootBusy = false ∧ Only { fnc := true, rtrTx := true, rtrRx := true } s t) ∧
  (∀ (s : State) (m : TreeMsg), s.powered = true → s.dom.st ≠ 3 → m.sys = false → s.xinv.busy = true → s.xinv.scope = 2 →
    (m.ityp = s.xinv.msg.ityp → m.ctx = s.xinv.msg.ctx → m.vpage = s.xinv.msg.vpage → ∃ t, exec (.bdone s.fnc.domRoot m) s = .next t ∧
      t.xinv.busy = false ∧ t.xinv.code = m.code ∧ t.xinv.done = s.xinv.done + 1 ∧ Only { xinv := true, rtrRx := true } s t) ∧
    (∃ t, exec (.bbusy s.fnc.domRoot m) s = .next t ∧ t.xinv = { s.xinv with again := some (s.clk + 2048) } ∧
      Only { xinv := true, rtrRx := true } s t)) ∧
  (∀ (s : State) (src : Nat) (m : TreeMsg), s.powered = true → s.dom.st = 2 → m.sys = false → s.fnc.bcDom.active = false →
    ∃ t, exec (.back src m) s = .next t ∧ t.fnc = { s.fnc with discarded := satAdd 0xFFFF s.fnc.discarded 1 } ∧
      Only { fnc := true, rtrRx := true } s t)

/-- On a link that is up, with no invalidation in progress and no access unperformed, ADDRESS, CONTEXT and ALL of device scope drop from
every present XLT, and from the porters' waiting pieces, each TLB entry and walk-cache pointer that they name and end at once with CODE
0; while one is in progress a command is ignored. With an access unperformed that a named entry translated, the invalidation stays busy.
Of domain scope in a DOWN domain it ends with DOMAIN_DOWN. An invalidation is ended DEADLINE after 22,000 core clocks and not before. A
write of a context register sets its fields and drops every entry of the context. An XLT's entries that are older than MAX_AGE leave it,
and the younger leaves of its L2 TLB stay. -/
def Obligations.TranslationInvalidations : Prop :=
  (∀ (s : State) (l ctx sc : Nat), s.linkOn l = true → s.xinv.busy = false → sc < 2 → s.accs = [] →
    (∃ t, exec (.address l ctx sc) s = .next t ∧ t.xinv.busy = false ∧ t.xinv.code = 0 ∧ t.xinv.done = s.xinv.done + 1 ∧
      (∀ i < 5, s.part.xltPresent i = true → Lacks (t.xlt i) (fun e => e.covers ctx (fld (s.csrGet 0xE60000) 12 45 * 4096))
        (fun e => e.covers ctx (fld (s.csrGet 0xE60000) 12 45 * 4096))) ∧
      t.pors = (s.porUnleaf fun e => e.covers ctx (fld (s.csrGet 0xE60000) 12 45 * 4096)).pors ∧
      Only { xlts := true, xinv := true, pors := true } s t) ∧
    (∃ t, exec (.context l ctx sc) s = .next t ∧ t.xinv.busy = false ∧ t.xinv.code = 0 ∧ t.xinv.done = s.xinv.done + 1 ∧
      (∀ i < 5, s.part.xltPresent i = true → Lacks (t.xlt i) (fun e => e.ctx == ctx) (fun e => e.ctx == ctx)) ∧
      t.pors = (s.porUnleaf fun e => e.ctx == ctx).pors ∧ Only { xlts := true, xinv := true, pors := true } s t) ∧
    (∃ t, exec (.all l sc) s = .next t ∧ t.xinv.busy = false ∧ t.xinv.code = 0 ∧ t.xinv.done = s.xinv.done + 1 ∧
      (∀ i < 5, s.part.xltPresent i = true → Lacks (t.xlt i) (fun _ => true) (fun _ => true)) ∧
      t.pors = (s.porUnleaf fun _ => true).pors ∧ Only { xlts := true, xinv := true, pors := true } s t)) ∧
  (∀ (s : State) (l ctx sc : Nat), s.linkOn l = true →
    (s.xinv.busy = true → ∀ c ∈ [Instr.address l ctx sc, .context l ctx sc, .all l sc], exec c s = .next s) ∧
    (s.xinv.busy = false → s.dom.st = 3 → ∀ c ∈ [Instr.address l ctx 2, .context l ctx 2, .all l 2], ∃ t, exec c s = .next t ∧
      t.xinv.busy = false ∧ t.xinv.code = 2 ∧ t.xlts = s.xlts) ∧
    (s.xinv.busy = false → ∀ a, s.accs = [a] → a.tr ≠ none → ∃ t, exec (.all l 1) s = .next t ∧ t.xinv.busy = true ∧ t.xinv.snap = [a.aid])) ∧
  (∀ s : State, s.powered = true → s.xinv.busy = true →
    (22000 ≤ s.clk - s.xinv.t0 → ∃ t, exec .invalidationLimit s = .next t ∧ t.xinv.busy = false ∧ t.xinv.code = 3 ∧ t.xinv.done = s.xinv.done ∧
      Only { xinv := true } s t) ∧
    (s.clk - s.xinv.t0 < 22000 → exec .invalidationLimit s = .next s)) ∧
  (∀ (s : State) (l c : Nat) (v : Word), s.linkOn l = true → c < 4096 →
    (∃ t, exec (.contextRegisterWrite l (offCtx c 0) 8 v) s = .next t ∧ t.csrGet (offCtx c 0) = v &&& 0x01FFFFFFFFFFF000 ∧
      (∀ i < 5, s.part.xltPresent i = true → Lacks (t.xlt i) (fun e => e.ctx == c) (fun e => e.ctx == c)) ∧
      (∀ o, o ≠ offCtx c 0 → t.csrGet o = s.csrGet o) ∧ t.pors = (s.porUnleaf fun e => e.ctx == c).pors ∧
      Only { csr := true, xlts := true, pors := true } s t) ∧
    (∃ t, exec (.contextRegisterWrite l (offCtx c 8) 8 v) s = .next t ∧ t.csrGet (offCtx c 8) = v &&& 0x800000000FFF003F ∧
      (∀ i < 5, s.part.xltPresent i = true → Lacks (t.xlt i) (fun e => e.ctx == c) (fun e => e.ctx == c)) ∧
      (∀ o, o ≠ offCtx c 8 → t.csrGet o = s.csrGet o) ∧ t.pors = (s.porUnleaf fun e => e.ctx == c).pors ∧
      Only { csr := true, xlts := true, pors := true } s t)) ∧
  (∀ (s : State) (x : Nat), s.powered = true → s.part.xltPresent x = true →
    ∃ t, exec (.tlbEntryAgeOut x) s = .next t ∧ Lacks (t.xlt x) (fun e => !s.young e.ctx e.beat) (fun e => !s.young e.ctx e.beat) ∧
      (∀ k e, Tab.get none (s.xlt x).l2 k = some e → s.young e.ctx e.beat = true → Tab.get none (t.xlt x).l2 k = some e) ∧
      Only { xlts := true } s t)

/-- A firing of an enabled CLASS 6 entry adds one waiting step, at level 2 or 3; one that does not fire adds none. Without lock, a step is
added when a whole unlocked period has passed since the last advance and none waits. With no step running and the rosters of the next
epoch empty, the oldest waiting step starts: the epoch and the counts of advances rise by one. While a roster of the next epoch is not
empty, no step starts. Outside HOLD and with its near channel in service, a roster sweep takes the next set of the older stale roster,
and leaves no leased line of that epoch in it. A running step that no aged global copy and no back-invalidation of it still awaits is
completed; the second step of a double advance completes the fences that waited for it. -/
def Obligations.LeaseEpochs : Prop :=
  (∀ (s : State) (i : Nat), s.powered = true →
    (s.fires i 6 = true → 2 ≤ s.boot.level → ∃ t, exec (.leaseEpochAdvance i) s = .next t ∧ t.lse = { s.lse with steps := s.lse.steps ++ [false] } ∧
      Only { lse := true, mtu := true } s t) ∧
    (s.fires i 6 = false → exec (.leaseEpochAdvance i) s = .next s)) ∧
  (∀ s : State, s.powered = true → 2 ≤ s.boot.level → s.locked = false →
    (s.unlockedPeriod * 2048 ≤ s.clk - s.lse.last → false ∉ s.lse.steps → ∃ t, exec .unlockedLeaseAdvance s = .next t ∧
      t.lse = { s.lse with steps := s.lse.steps ++ [false] } ∧ Only { lse := true } s t) ∧
    (s.clk - s.lse.last < s.unlockedPeriod * 2048 → exec .unlockedLeaseAdvance s = .next s)) ∧
  (∀ (s : State) (dbl : Bool) (rest : List Bool), s.powered = true → s.lse.running = none → s.lse.steps = dbl :: rest →
    ((∀ n < 64, (s.slice n).roster (s.lse.epoch + 1).toNat = []) → ∃ t, exec .epochStepStart s = .next t ∧ t.lse.epoch = s.lse.epoch + 1 ∧
      t.lse.advances = s.lse.advances + 1 ∧ t.lse.count = s.lse.count + 1 ∧ t.lse.steps = rest ∧ t.lse.running = some dbl ∧
      t.lse.last = s.clk ∧ Only { bisnps := true, hreqs := true, lse := true, outs := true, events := true } s t) ∧
    ((∃ n < 64, (s.slice n).roster (s.lse.epoch + 1).toNat ≠ []) → ∃ t, exec .epochStepStart s = .next t ∧ t.lse = { s.lse with blocked := true } ∧
      Only { lse := true, hreqs := true } s t)) ∧
  (∀ (s : State) (n set ep : Nat) (rest : List Nat), s.powered = true → n < 64 → s.mode ≠ 2 → s.nearFrozen n = false → ep = (s.lse.epoch.toNat + 1) % 4 →
    (s.slice n).roster ep = set :: rest →
    ∃ t, exec (.rosterSweep n) s = .next t ∧ (t.slice n).roster ep = rest ∧
      (∀ e ∈ (t.tags n set).ways, e.st = stL → e.ep.toNat ≠ ep) ∧ (∀ k, k ≠ n → t.slice k = s.slice k)) ∧
  (∀ (s : State) (f : Fence), s.powered = true → s.lse.running = some true → s.hsf = [] → s.bisnps = [] → s.lse.steps = [] →
    s.fnc.fences = [f] → f.ph = .adv (s.lse.dblDone + 1) → f.gone = false → f.mute = false →
    ∃ t, exec .epochStepComplete s = .next t ∧ t.lse.running = none ∧ t.lse.dblDone = s.lse.dblDone + 1 ∧ t.fnc.fences = [] ∧
      t.outs = s.outs ++ [.ioData f.link (f.status f.code)] ∧ Only { lse := true, fnc := true, outs := true } s t) ∧
  (∀ s : State, s.powered = true → s.lse.running = some false → s.hsf = [] → s.bisnps = [] →
    ∃ t, exec .epochStepComplete s = .next t ∧ t.lse = { s.lse with running := none } ∧ t.fnc.fences.length ≤ s.fnc.fences.length) ∧
  (∀ s : State, s.lse.running = none → exec .epochStepComplete s = .next s)

/-- Of an XLT with fewer than 16 walks, the oldest queued job starts one, and the jobs of its page wait for it: with no pointer of the walk
cache, and an enabled context of 3 to 5 levels whose range holds the address, the walker reads the root table's line at its home,
outside the device ranges, at level 3. With its context disabled, the walk of a lone job ends in a CONTEXT fault, which the empty fault
registers capture; the host request that waited for it is answered and leaves. Where a link's misses or a porter's descriptor foretell a
page of a context of which nothing is held or under way, a speculative walk starts likewise; with speculation off, or no page foretold,
none does. What the codes of the arrays find on the way is noted in each case. A write of a context register leaves each walk of that
context in flight with its walker, and it will install nothing. An XLT's walk-cache pointers that are older than MAX_AGE leave it, the
younger stay, and its jobs and walkers go on. -/
def Obligations.TableWalkStarts : Prop :=
  (∀ (s : State) (x ma : Nat) (j : XJob) (fd : Finds), s.powered = true → x < 5 → s.part.xltPresent x = true →
    (∀ y < x, s.part.xltPresent y = true → ∀ i ∈ (s.xlt y).jobs, i.id ≠ j.id) →
    ((s.xlt x).promote.jobs.find? fun i => i.queued && i.walker.isNone) = some j →
    (s.xlt x).walkers.length < 16 → (∀ v ∈ (s.xlt x).walkers, v.w ≠ s.nextRid) →
    (j.wc = false ∨ (s.xlt x).wc = [] → s.ctxEn j.ctx = true → 3 ≤ s.ctxLevels j.ctx → s.ctxLevels j.ctx ≤ 5 →
      j.va < 2 ^ (12 + 9 * s.ctxLevels j.ctx) →
      ma = s.ctxRoot j.ctx + 8 * (j.va / 2 ^ (9 * s.ctxLevels j.ctx + 3) % 512) → s.inDevr (ma / 64) = false → s.boot.level = 3 →
      ∃ t w, exec (.walkStart j.id fd) s = .next t ∧
        Arrives (sliceOf (ma / 64)) { src := .walker x s.nextRid, kind := .read, la := ma / 64, atHome := true } s t ∧
        (t.xlt x).walkers = (s.xlt x).walkers ++ [w] ∧ w.w = s.nextRid ∧ w.ctx = j.ctx ∧ w.va = j.va ∧ w.wr = j.wr ∧ w.ma = ma ∧
        w.spec = false ∧ w.t0 = s.clk ∧ t.nextRid = s.nextRid + 1 ∧
        (∀ i ∈ (s.xlt x).jobs, i.walker = none → i.ctx = j.ctx → i.va / 4096 = j.va / 4096 →
          ∃ k ∈ (t.xlt x).jobs, k.id = i.id ∧ k.walker = some s.nextRid) ∧
        (∀ y, y ≠ x → t.xlt y = s.xlt y) ∧ (t.xlt x).l1s = (s.xlt x).l1s ∧ (t.xlt x).l1d = (s.xlt x).l1d ∧ (t.xlt x).l2 = (s.xlt x).l2 ∧
        (t.xlt x).wc = (s.xlt x).wc ∧
        Only { slices := true, xlts := true, nextRid := true, due := true, events := true, trc := true, trcCfg := true, ledger := true,
               bkt := true, irq := true, pba := true, outs := true } s t) ∧
    (s.ctxEn j.ctx = false → (s.xlt x).jobs = [j] → (s.xlt x).walkers = [] → (s.xlt x).fltValid = false →
      j.for_ = .spec ∨ (∃ rid, j.for_ = .host rid) → ∃ t v, exec (.walkStart j.id fd) s = .next t ∧
      v.va = j.va ∧ v.ctx = j.ctx ∧ WalkFaulted x v 5 s t ∧ (t.xlt x).jobs = [] ∧ (∀ rid, j.for_ = .host rid → t.hreq rid = none) ∧
      (∀ y, y ≠ x → t.xlt y = s.xlt y) ∧
      Only { free := true, due := true, trcCfg := true, irq := true, hsf := true, bisnps := true, links := true, pba := true, hreqs := true,
             nextRid := true, accs := true, xlts := true, ledger := true, bkt := true, flip := true, events := true, trc := true,
             outs := true } s t)) ∧
  (∀ (s : State) (x page c ma src : Nat) (f : SpecFor) (fd : Finds), s.powered = true → s.part.xltPresent x = true →
    ((∃ l, f = .link l ∧ x = l / 2 ∧ s.linkOn l = true ∧ (s.link l).nextPage = some page ∧ c = s.gwinCtx x (l % 2) ∧ src = l) ∨
      (∃ p seq dst d, f = .porter p seq dst ∧ x = 4 ∧ (s.por p).desc seq = some d ∧ d.nextPage dst = some page ∧ c = d.ctx ∧ src = 0x80 + p)) →
    (∀ k e, Tab.get none (s.xlt x).l1s k = some e ∨ Tab.get none (s.xlt x).l1d k = some e ∨ Tab.get none (s.xlt x).l2 k = some e → e.ctx ≠ c) →
    (∀ k e, Tab.get none (s.xlt x).wc k = some e → e.ctx ≠ c) → (∀ j ∈ (s.xlt x).jobs, j.ctx ≠ c) →
    (∀ v ∈ (s.xlt x).walkers, v.ctx ≠ c ∧ v.w ≠ s.nextRid) → (s.xlt x).walkers.length < 16 →
    s.specEn x = true → s.ctxEn c = true → 3 ≤ s.ctxLevels c → s.ctxLevels c ≤ 5 → page * 4096 < 2 ^ (12 + 9 * s.ctxLevels c) →
    ma = s.ctxRoot c + 8 * (page * 4096 / 2 ^ (9 * s.ctxLevels c + 3) % 512) → s.inDevr (ma / 64) = false → s.boot.level = 3 →
    ∃ t w, exec (.speculativeWalkStart x f fd) s = .next t ∧
      Arrives (sliceOf (ma / 64)) { src := .walker x s.nextRid, kind := .read, la := ma / 64, atHome := true } s t ∧
      (t.xlt x).walkers = (s.xlt x).walkers ++ [w] ∧ w.w = s.nextRid ∧ w.spec = true ∧ w.wr = false ∧ w.ctx = c ∧ w.va = page * 4096 ∧
      w.source = src ∧ w.ma = ma ∧ w.t0 = s.clk ∧ t.nextRid = s.nextRid + 1 ∧ (t.xlt x).jobs = (s.xlt x).jobs ∧
      (∀ y, y ≠ x → t.xlt y = s.xlt y) ∧ (t.xlt x).l1s = (s.xlt x).l1s ∧ (t.xlt x).l1d = (s.xlt x).l1d ∧ (t.xlt x).l2 = (s.xlt x).l2 ∧
      (t.xlt x).wc = (s.xlt x).wc ∧
      Only { slices := true, xlts := true, nextRid := true, due := true, events := true, trc := true, trcCfg := true, ledger := true,
             bkt := true, irq := true, pba := true, outs := true } s t) ∧
  (∀ (s : State) (x : Nat) (f : SpecFor) (fd : Finds), s.specEn x = false ∨ s.specTarget x f = none →
    exec (.speculativeWalkStart x f fd) s = .next (s.noted fd)) ∧
  (∀ (s : State) (l c x : Nat) (v : Word) (w : Walker), s.linkOn l = true → c < 4096 → x < 5 → s.part.xltPresent x = true →
    (s.xlt x).walkers = [w] → w.ctx = c → ∀ h ∈ [0, 8], ∃ t, exec (.contextRegisterWrite l (offCtx c h) 8 v) s = .next t ∧
      (t.xlt x).walkers = [{ w with inst := false }] ∧ (t.xlt x).jobs = (s.xlt x).jobs ∧
      t.pors = (s.porUnleaf fun e => e.ctx == c).pors ∧ Only { csr := true, xlts := true, pors := true } s t) ∧
  (∀ (s : State) (x : Nat), s.powered = true → s.part.xltPresent x = true → ∃ t, exec (.tlbEntryAgeOut x) s = .next t ∧
    (∀ i e, Tab.get none (t.xlt x).wc i = some e → s.young e.ctx e.beat = true) ∧
    (∀ i e, Tab.get none (s.xlt x).wc i = some e → s.young e.ctx e.beat = true → Tab.get none (t.xlt x).wc i = some e) ∧
    (t.xlt x).walkers = (s.xlt x).walkers ∧ (t.xlt x).jobs = (s.xlt x).jobs ∧ Only { xlts := true } s t)

/-- A table line whose entry is not valid ends the walk in a fault NOT_MAPPED; one with a table pointer sends the read of the next level;
one with a readable leaf installs the leaf in the L2 TLB and frees the walker. A compare-and-swap that succeeded installs the leaf; one
that failed restarts the walk from the root, and the fourth ends it in a fault. With no answer yet, both do nothing. From 6,400 core
clocks after it left the queue a walk ends in a fault, and not before. -/
def Obligations.TableWalks : Prop :=
  (∀ (s : State) (x e : Nat) (v : Walker) (line : Line), OneWalk s x v → v.got = some (line, false, 0) → v.cas = none →
    e = line.toNat / 2 ^ (8 * (v.ma % 64)) % 2 ^ 64 →
    (e % 2 = 0 → ∃ t, exec (.walkTableReadDone x v.w) s = .next t ∧ WalkFaulted x v 1 s t) ∧
    (e % 4 = 3 → badFormat e v.k = false → s.boot.level = 3 → (s.xlt x).wc = [] →
      s.inDevr ((e / 2 ^ 12 % 2 ^ 45 * 4096 + 8 * (v.va / 2 ^ (9 * (v.k - 1) + 3) % 512)) / 64) = false → ∃ t la, exec (.walkTableReadDone x v.w) s = .next t ∧
      la = (e / 2 ^ 12 % 2 ^ 45 * 4096 + 8 * (v.va / 2 ^ (9 * (v.k - 1) + 3) % 512)) / 64 ∧
      Arrives (sliceOf la) { src := .walker x v.w, kind := .read, la := la, atHome := true } s t ∧ Only { slices := true, xlts := true } s t) ∧
    (e % 4 = 1 → badFormat e v.k = false → v.wr = false → e.testBit 3 = true → v.inst = true → v.noVa = [] → v.k < 5 →
      ∃ t, exec (.walkTableReadDone x v.w) s = .next t ∧ (t.xlt x).walkers = [] ∧
        (t.tlbScan (t.xlt x).l2 (8 * l2Set v.ctx v.va (9 * v.k + 3)) 8 v.ctx v.va false).isSome = true ∧ Only { xlts := true } s t)) ∧
  (∀ (s : State) (x : Nat) (v : Walker) (line : Line) (c : Word), OneWalk s x v → v.cas = some c →
    (v.got = some (line, false, 0) → line.getLsbD 128 = true → v.inst = true → v.noVa = [] → ∃ t, exec (.walkCasDone x v.w) s = .next t ∧
      (t.xlt x).walkers = [] ∧ (∃ i k, Tab.get none (t.xlt x).l2 i = some k ∧ k.covers v.ctx v.va = true ∧ k.beat = s.beat ∧
        k.ma = (c.toNat ||| v.need.toNat) / 2 ^ 12 % 2 ^ 45 * 4096) ∧ Only { xlts := true } s t) ∧
    (v.got = some (line, false, 0) → line.getLsbD 128 = false →
      (v.restarts < 3 → s.boot.level = 3 → s.inDevr ((v.root + 8 * (v.va / 2 ^ (9 * v.levels + 3) % 512)) / 64) = false →
        ∃ t y la, exec (.walkCasDone x v.w) s = .next t ∧ la = (v.root + 8 * (v.va / 2 ^ (9 * v.levels + 3) % 512)) / 64 ∧
          Arrives (sliceOf la) { src := .walker x v.w, kind := .read, la := la, atHome := true } s t ∧ (t.xlt x).walkers = [y] ∧
          y.restarts = v.restarts + 1 ∧ y.cas = none ∧ (t.xlt x).restarts = satAdd 0xFFFF (s.xlt x).restarts 1) ∧
      (3 ≤ v.restarts → ∃ t, exec (.walkCasDone x v.w) s = .next t ∧ WalkFaulted x v 10 s t)) ∧
    (v.got = none → exec (.walkCasDone x v.w) s = .next s ∧ exec (.walkTableReadDone x v.w) s = .next s)) ∧
  (∀ (s : State) (x : Nat) (v : Walker), OneWalk s x v →
    (6400 ≤ s.ran v.t0 v.paused0 → ∃ t, exec (.walkLimit x v.w) s = .next t ∧ WalkFaulted x v 9 s t) ∧
    (s.ran v.t0 v.paused0 < 6400 → exec (.walkLimit x v.w) s = .next s))

/-- An enabled port that is not held goes one training state on, sends an ident block when it has trained at eight lanes, and starts again
when the lanes do not suffice. In IDENT, an ident block of another node with a valid number, when this end's has gone and step 5 has
begun, makes the port ACTIVE and names its peer; one of the same node number leaves it in IDENT with DOWN_CAUSE 7. RETRAIN, a lost lane
lock, and 512 core clocks without a flit take an active link down to training, with DOWN_CAUSE 5, 4 or 2, and a report to the peer.
PORT_ENABLE 0 takes the port to OFF; 1 releases it. A link report of the last flit the peer received drops the flits up to it, and none
received puts their packets back before the router. After 2,048 core clocks without one the held flits are dropped. -/
def Obligations.PortTraining : Prop :=
  (∀ (s : State) (p : Nat) (lanes : BitVec 8), s.portOn p = true → s.portEn p = true → (s.port p).held = false →
    ((s.port p).st < 3 → ∃ t, exec (.trainingStateComplete p lanes) s = .next t ∧ t.port p = { s.port p with st := (s.port p).st + 1 } ∧
      Only { ports := true } s t) ∧
    ((s.port p).st = 3 → lanes = 0xFF → ∃ t, exec (.trainingStateComplete p lanes) s = .next t ∧ (t.port p).st = 4 ∧ (t.port p).width = 8 ∧
      t.outs = s.outs ++ [.ident p (s.identOf p)] ∧ Only { ports := true, outs := true } s t) ∧
    ((s.port p).st = 3 → lanes ≠ 0xFF → s.degradeOk p = false → ∃ t, exec (.trainingStateComplete p lanes) s = .next t ∧ (t.port p).st = 1 ∧
      Only { ports := true } s t)) ∧
  (∀ (s : State) (p : Nat) (b : IdentBlk), s.portOn p = true → (s.port p).st = 4 → (s.port p).downAt = none → b.valid = true →
    (s.port p).sentValid = true →
    (b.node ≠ s.nodeNo → s.rtr.enabled = true → ∃ t, exec (.identBlock p b) s = .next t ∧ (t.port p).st = 5 ∧ (t.port p).peerValid = true ∧
      (t.port p).peerNode = b.node ∧ (t.port p).peerPort = b.port ∧ (t.port p).txSeq = 0 ∧ (t.port p).rxSeq = 1023 ∧ Only { ports := true } s t) ∧
    (b.node = s.nodeNo → ∃ t, exec (.identBlock p b) s = .next t ∧ (t.port p).st = 4 ∧ (t.port p).cause = 7 ∧
      Only { ports := true, ledger := true, irq := true, pba := true, outs := true, events := true, trc := true, trcCfg := true } s t)) ∧
  (∀ (s : State) (p cause : Nat) (c : Instr), s.portOn p = true → s.portEn p = true → (s.port p).st = 5 → (s.port p).downBeats = [] →
    (s.port p).txq = [] → (s.port p).peerValid = true →
    c = .retrain p ∧ cause = 5 ∨ c = .laneLockLost p ∧ cause = 4 ∨ c = .noFlitTimeout p ∧ cause = 2 ∧ (s.port p).lastRx + 512 ≤ s.clk →
    ∃ t, exec c s = .next t ∧ (t.port p).st = 1 ∧ (t.port p).cause = cause ∧ (t.port p).downs = satAdd 255 (s.port p).downs 1 ∧
      (t.port p).held = (s.port p).held ∧ (∀ q, q ≠ p → t.port q = s.port q) ∧
      Sends [((s.port p).peerNode, .linkReport p (s.port p).peerPort (if (s.port p).rxAny then some (s.port p).rxSeq else none))] s t) ∧
  (∀ (s : State) (p : Nat), (s.port p).st = 5 → s.clk < (s.port p).lastRx + 512 → exec (.noFlitTimeout p) s = .next s) ∧
  (∀ (s : State) (p : Nat), s.portOn p = true →
    ((s.port p).held = true ∨ (s.port p).st = 0 → ∃ t, exec (.portEnableWrite p true) s = .next t ∧ t.portEn p = true ∧ (t.port p).st = 1 ∧
      (t.port p).held = false ∧ Only { ports := true, csr := true } s t) ∧
    (∃ t, exec (.portEnableWrite p false) s = .next t ∧ t.portEn p = false ∧ (t.port p).st = 0 ∧ (t.port p).held = false ∧
      ∀ q, q ≠ p → t.port q = s.port q)) ∧
  (∀ (s : State) (p port d : Nat) (f : RFlit), s.portOn p = true → (s.port p).peerPort = port → (s.port p).st ≠ 5 →
    (s.port p).downAt = some d → (s.port p).replayBuf = [f] →
    (∃ t, exec (.linkReport (s.port p).peerNode port p (some f.seq)) s = .next t ∧ (t.port p).replayBuf = [] ∧ (t.port p).downAt = none ∧
      t.rtr.q = s.rtr.q ∧ Only { ports := true, rtrTx := true, rtrRx := true } s t) ∧
    (∃ t, exec (.linkReport (s.port p).peerNode port p none) s = .next t ∧ (t.port p).replayBuf = [] ∧
      t.rtr.q = (f.pkts.filter fun k => !Machine.Packet.isTime k).map (fun k => { k with vc := k.arr, arr := 0 }) ++ s.rtr.q ∧ Only { ports := true, rtrTx := true, rtrRx := true } s t) ∧
    (d + 2048 ≤ s.clk → ∃ t, exec (.linkReportTimeout p) s = .next t ∧ (t.port p).replayBuf = [] ∧ (t.port p).downAt = none ∧
      t.rtr = s.rtr) ∧
    (s.clk < d + 2048 → exec (.linkReportTimeout p) s = .next s))

/-- A flit whose CRC does not match after correction is counted and makes the port send a NAK; no packet comes out of it. A data flit in
order, on an active port, hands its packets to the router with one hop more each and becomes the last one received. A NAK makes every
later data flit go again; an acknowledgement of the last flit empties the replay buffer. Packing sends a NAK when one is owed, else the
next flit to send again, whose eighth resending in a row takes the link down with DOWN_CAUSE 1, else the packet that waits, in a data
flit with the next SEQ that the replay buffer keeps, else an idle flit. Each flit acknowledges the last data flit received. -/
def Obligations.FlitsAndReplay : Prop :=
  (∀ (s : State) (p : Nat) (f : BitVec 2048), s.portOn p = true → 4 ≤ (s.port p).st → (flitFix f).2 = false →
    (flitGood (flitFix f).1 = false → ∃ t, exec (.flit p f) s = .next t ∧
      t.port p = { s.port p with crcFail := satAdd 0xFFFF (s.port p).crcFail 1, rxHold := true, rxSkip := (s.port p).rxSkip + 1,
                                    sendNak := true } ∧ Only { ports := true } s t) ∧
    (flitGood (flitFix f).1 = true → (flitHdr (flitFix f).1).ft = 1 → ∃ t, exec (.flit p f) s = .next t ∧ (t.port p).lastRx = s.clk ∧
      (t.port p).rxSeq = (s.port p).rxSeq ∧ Only { ports := true } s t) ∧
    (flitGood (flitFix f).1 = true → (flitHdr (flitFix f).1).ft = 0 → (s.port p).st = 5 → (s.port p).rxHold = false → s.rtr.enabled = true →
      (flitHdr (flitFix f).1).seq = ((s.port p).rxSeq + 1) % 1024 → (∀ k ∈ pktsOf 15 (flitSlots (flitFix f).1), Machine.Packet.isTime k = false) →
      ∃ t, exec (.flit p f) s = .next t ∧ (t.port p).rxSeq = ((s.port p).rxSeq + 1) % 1024 ∧ (t.port p).rxAny = true ∧ (t.port p).sendNak = false ∧
        t.rtr.q = s.rtr.q ++ (pktsOf 15 (flitSlots (flitFix f).1)).map fun (k : Packet) => { k with hops := k.hops + 1, inp := p + 1 })) ∧
  (∀ (s : State) (p : Nat) (r : RFlit), s.portOn p = true → (s.port p).st = 5 → (s.port p).replayBuf = [r] →
    (∃ t, exec (.nak p r.seq) s = .next t ∧ (t.port p).replayBuf = [] ∧ (t.port p).st = 5 ∧ Only { ports := true } s t) ∧
    (∀ ack, ack ≠ r.seq → ∃ t, exec (.nak p ack) s = .next t ∧
      (t.port p).resend = [r.seq] ∧ (t.port p).sameReplay = (s.port p).sameReplay ∧ (t.port p).replayBuf = [r] ∧ (t.port p).st = 5 ∧
      Only { ports := true } s t)) ∧
  (∀ (s : State) (p : Nat), s.portOn p = true → 4 ≤ (s.port p).st →
    ((s.port p).sendNak = true → ∃ (t : State) (h : FlitHdr), exec (.flitPack p) s = .next t ∧ t.outs = s.outs ++ [.flit p (flitBits h [])] ∧ h.ft = 2 ∧
      h.ack = (s.port p).rxSeq ∧ (t.port p).sendNak = false ∧ Only { ports := true, outs := true } s t) ∧
    ((s.port p).sendNak = false → (s.port p).st = 5 →
      ((s.port p).resend = [] → (s.port p).txq = [] → ∃ (t : State) (h : FlitHdr), exec (.flitPack p) s = .next t ∧ t.outs = s.outs ++ [.flit p (flitBits h [])] ∧
        h.ft = 1 ∧ h.ack = (s.port p).rxSeq ∧ (t.port p).replayBuf = (s.port p).replayBuf ∧ Only { ports := true, outs := true } s t) ∧
      (∀ r : RFlit, (s.port p).resend = [r.seq] → (s.port p).replayBuf = [r] → (s.port p).replayBeat ≠ s.beat →
        ((s.port p).lastReplayed ≠ r.seq ∨ (s.port p).sameReplay < 7 → ∃ (t : State) (h : FlitHdr), exec (.flitPack p) s = .next t ∧
          t.outs = s.outs ++ [.flit p (flitBits h (r.pkts.flatMap pktSlots))] ∧ h.ft = 0 ∧ h.seq = r.seq ∧ (t.port p).resend = [] ∧
          (t.port p).replayBuf = [r] ∧ (t.port p).st = 5 ∧ (t.port p).replays = satAdd 0xFFFF (s.port p).replays 1 ∧
          (t.port p).sameReplay = (if (s.port p).lastReplayed = r.seq then (s.port p).sameReplay + 1 else 1) ∧
          Only { ports := true, outs := true, events := true } s t) ∧
        ((s.port p).lastReplayed = r.seq → (s.port p).sameReplay = 7 → (s.port p).downBeats = [] → s.portEn p = true →
          ∃ t, exec (.flitPack p) s = .next t ∧ (t.port p).st = 1 ∧ (t.port p).cause = 1 ∧ (∀ q, q ≠ p → t.port q = s.port q))) ∧
      (∀ k : Packet, (s.port p).resend = [] → (s.port p).replayBuf = [] → (s.port p).txq = [k] → (s.port p).flits % 8 ≠ 7 → k.vn < 3 → k.bulk = false →
        k.vc < 2 → Machine.Packet.isTime k = false → pktLen k ≤ 15 → pktLen k ≤ (s.port p).credit (bufKey k.vn k.vc k.bulk) → s.trcCfg.getLsbD 63 = false →
        ∃ (t : State) (h : FlitHdr), exec (.flitPack p) s = .next t ∧ t.outs = s.outs ++ [.flit p (flitBits h (pktSlots k))] ∧ h.ft = 0 ∧ h.seq = (s.port p).txSeq ∧
          h.ack = (s.port p).rxSeq ∧ (t.port p).txq = [] ∧ (t.port p).txSeq = ((s.port p).txSeq + 1) % 1024 ∧
          (t.port p).replayBuf = [{ seq := (s.port p).txSeq, pkts := [k] }] ∧ Only { ports := true, outs := true, events := true } s t)))

/-- The packet at the head of the router's queue that is for this node is delivered, off VN0 at once, on VN0 when its OSEQ is the expected
one, and otherwise held; its source's unreachable mark is cleared, and its slots of credit go back to the link that it came by. A packet
for another node leaves by port A of its route when that port is ACTIVE. One that has made eight hops, or one without a usable route, or
one whose route entry has an uncorrectable error is discarded and counted, and its source gets a route-fail notice when it was on VN0. A
gap in a source's OSEQ of one beat releases the packets held for it, in order. A route-fail notice for a global request of this E9 ends
the named register and marks the destination unreachable; one for a PUT notification marks it too. -/
def Obligations.RoutingAndOrder : Prop :=
  (∀ (s : State) (k : Packet), s.powered = true → s.rtr.q = [k] → k.dst = s.nodeNo → Machine.Packet.unusedCode k = false → (∀ m, k.body ≠ .tree m) →
    (k.vn ≠ 0 ∨ s.rtr.store = [] ∧ Tab.get 0 s.rtr.oseqRx k.src = k.oseq ∧ k.oseq < 256 → ∃ t, exec (.routePacket false) s = .next t ∧
      t.rtr.delivered = s.rtr.delivered ++ [{ k with inp := 0 }] ∧ t.rtr.q = [] ∧ t.unreachable k.src = false ∧
      (k.inp ≠ 0 → Tab.get 0 (t.port (k.inp - 1)).toReturn (bufKey k.vn k.vc k.bulk) =
        Tab.get 0 (s.port (k.inp - 1)).toReturn (bufKey k.vn k.vc k.bulk) + pktLen k) ∧
      (k.vn = 0 → Tab.get 0 t.rtr.oseqRx k.src = (k.oseq + 1) % 256) ∧ Only { ports := true, rtrTx := true, rtrRx := true, rtrUn := true, rtr := true } s t) ∧
    (∀ d, k.vn = 0 → s.rtr.store = [] → 0 < d → d < 64 → k.oseq = (Tab.get 0 s.rtr.oseqRx k.src + d) % 256 → Tab.get 0 s.rtr.oseqRx k.src < 256 →
      ∃ t, exec (.routePacket false) s = .next t ∧ t.rtr.store = [(s.clk, { k with inp := 0 })] ∧ t.rtr.delivered = s.rtr.delivered ∧
        t.rtr.q = [] ∧ Only { ports := true, rtrTx := true, rtr := true } s t)) ∧
  (∀ (s : State) (k : Packet), s.powered = true → s.rtr.q = [k] → k.dst ≠ s.nodeNo → s.rtr.enabled = true → s.heldDsts = [] →
    (k.hops < 8 → (s.route k.dst).v = true → s.usable (s.route k.dst).a = true → k.alt = false → (s.route k.dst).adapt = false →
      ∃ t, exec (.routePacket false) s = .next t ∧ t.rtr.q = [] ∧
        (t.port (s.route k.dst).a).txq = (s.port (s.route k.dst).a).txq ++ [{ k with vc := vcAfter k.vc (s.route k.dst).va, arr := k.vc, inp := 0 }] ∧
        Only { ports := true, rtrTx := true } s t) ∧
    (8 ≤ k.hops → ∃ t, exec (.routePacket false) s = .next t ∧ t.rtr.hopDiscard = satAdd 0xFFFF s.rtr.hopDiscard 1 ∧ (∀ p, (t.port p).txq = (s.port p).txq) ∧
      t.rtr.q.map (fun x => (x.dst, x.body)) =
        if k.vn = 0 then [(k.src, .routeFail (pktHeader k) ((bodySlots k.body).headD 0))] else []) ∧
    (k.hops < 8 → (s.route k.dst).v = false → ∃ t, exec (.routePacket false) s = .next t ∧
      t.rtr.routeFail = satAdd 0xFFFF s.rtr.routeFail 1 ∧ (∀ p, (t.port p).txq = (s.port p).txq) ∧
      t.rtr.q.map (fun x => (x.dst, x.body)) =
        if k.vn = 0 then [(k.src, .routeFail (pktHeader k) ((bodySlots k.body).headD 0))] else []) ∧
    (k.hops < 8 → ∃ t, exec (.routePacket true) s = .next t ∧ (t.route k.dst).v = false ∧
      t.rtr.routeFail = satAdd 0xFFFF s.rtr.routeFail 1 ∧ (∀ p, (t.port p).txq = (s.port p).txq))) ∧
  (∀ (s : State) (k : Packet) (t0 : Nat), s.powered = true → s.rtr.store = [(t0, k)] → Machine.Packet.unusedCode k = false → (∀ m, k.body ≠ .tree m) →
    (t0 + 2048 ≤ s.clk → ∀ d < 64, k.oseq = (Tab.get 0 s.rtr.oseqRx k.src + d) % 256 → ∃ t, exec (.oseqGapTimeout k.src) s = .next t ∧
      t.rtr.store = [] ∧ t.rtr.delivered = s.rtr.delivered ++ [k] ∧ Tab.get 0 t.rtr.oseqRx k.src = (k.oseq + 1) % 256 ∧
      t.rtr.oseqGap = satAdd 0xFFFF s.rtr.oseqGap 1) ∧
    (s.clk < t0 + 2048 → exec (.oseqGapTimeout k.src) s = .next s)) ∧
  (∀ (s : State) (src : Nat) (hdr slot : BitVec 128), s.powered = true →
    (bits hdr.toNat 82 4 = 1 → ∀ r, OnlyRegister s (cohOfHeader slot).la r → (cohOfHeader slot).tid = tidMr (sliceOf r.la) r.idx →
      ∃ t, exec (.routeFailNotice src hdr slot) s = .next t ∧ t.mr (sliceOf r.la) r.idx = none ∧ t.unreachable (bits hdr.toNat 113 15) = true) ∧
    (bits hdr.toNat 82 4 = 9 → ∃ t, exec (.routeFailNotice src hdr slot) s = .next t ∧ t.unreachable (bits hdr.toNat 113 15) = true))

/-- An active port with fabric refinement on sends a time request when none has gone or the last is 16 beats old, and none sooner or with
refinement off. A request is answered on the same port with the request's t1, and with MT at the receive point as t2 when this E9 is
locked, else 0. A locked neighbour's answer to the request that is out records the neighbour's stratum, that it is locked, and half the
excess of the round trip, to MT at the receive point, as its delay, at most 255; an unlocked one's ends the exchange and names no
stratum; an answer to another request, a packet from a replayed flit, and any packet with refinement off change nothing but that their
stamp is used up. -/
def Obligations.TimeExchange : Prop :=
  (∀ (s : State) (p : Nat), s.portOn p = true →
    (s.fabRefine = true → (s.port p).st = 5 → (s.port p).exAt = none ∨ (∃ c, (s.port p).exAt = some c ∧ c + 32768 ≤ s.clk) →
      ∃ t, exec (.timeExchange p) s = .next t ∧ t.port p = { s.port p with exAt := some s.clk, t1 := none, txq := (s.port p).txq ++
        [{ dst := (s.port p).peerNode, src := s.nodeNo, vn := 3,
           body := .time { response := false, stratum := s.mtu.stratum, locked := s.locked } }] } ∧ Only { ports := true } s t) ∧
    (s.fabRefine = false ∨ (∃ c, (s.port p).exAt = some c ∧ s.clk < c + 32768) → exec (.timeExchange p) s = .next s)) ∧
  (∀ (s : State) (p v : Nat) (m : TimeMsg), s.portOn p = true → (s.port p).st = 5 → (s.port p).rxTime = [(m, v)] →
    (s.fabRefine = true → m.response = false → ∃ t, exec (.timePacket p m false) s = .next t ∧ t.port p = { s.port p with rxTime := [], txq := (s.port p).txq ++
        [{ dst := (s.port p).peerNode, src := s.nodeNo, vn := 3,
           body := .time { response := true, stratum := s.mtu.stratum, locked := s.locked, t1 := m.t1, t2 := if s.locked then v else 0 } }] } ∧
      Only { ports := true, rtrRx := true } s t) ∧
    (s.fabRefine = true → m.response = true → (s.port p).t1 = some m.t1 → m.locked = true → ∃ t, exec (.timePacket p m false) s = .next t ∧
      (t.port p).nbLocked = true ∧ (t.port p).nbStratum = m.stratum ∧ (t.port p).t1 = none ∧
      (t.port p).delay = min 255 ((((v : Int) - m.t1) - ((m.t3 : Int) - m.t2)) / 2).toNat) ∧
    (s.fabRefine = true → m.response = true → (s.port p).t1 = some m.t1 → m.locked = false → ∃ t, exec (.timePacket p m false) s = .next t ∧
      (t.port p).nbLocked = false ∧ (t.port p).nbStratum = 255 ∧ (t.port p).t1 = none ∧ Only { ports := true, mtu := true, rtrRx := true } s t) ∧
    (s.fabRefine = false ∨ (m.response = true ∧ (s.port p).t1 ≠ some m.t1) → ∃ t, exec (.timePacket p m false) s = .next t ∧ t.port p = { s.port p with rxTime := [] } ∧
      Only { ports := true, rtrRx := true } s t) ∧
    (∃ t, exec (.timePacket p m true) s = .next t ∧ t.port p = { s.port p with rxTime := [] } ∧ Only { ports := true, rtrRx := true } s t))

/-- A reference that appears takes NOREF to the next state. Its loss takes any other state to NOREF, MT and a hold going on (the model's
choice, log 123); a loss of LOCKED is counted, ends a guard and voids the bounds in progress. In LOCKED a mark within 64 ns of a
multiple of 2^24 changes only the note of the last mark; one beyond takes LOCKED away and corrects nothing (log 123). In the state
before LOCKED a mark beyond 64 ns starts the count of good marks again (log 42), one within counts, and from the third, without fabric
refinement and with MT not ahead, it enters LOCKED and corrects MT: forward at once, back by half rate. Below that state a mark of a
refined E9 with a neighbour takes the neighbour's value, forward, back by half rate, or, beyond 2^20 ns, by marking MT ahead; else it
changes only the note. A pending TIME_SET value that differs by more than 64 ns takes effect at the mark: forward at once, back by half
rate, or by holding MT beyond 2^20 ns; one within 64 ns in LOCKED is only used up. When two expected positions have passed since the
last mark, the report that marks are missing takes LOCKED away, or else the count of good marks; before that it changes nothing. With
fabric refinement, 256 beats without stamps take LOCKED away. A hold and a half-rate catch-up end when the reference value has reached
MT, and not before. -/
def Obligations.MachineTimeLock : Prop :=
  (∀ s : State, s.powered = true →
    (s.mtu.lock = 0 → ∃ t, exec .mtRefPresent s = .next t ∧ t.mtu = { s.mtu with lock := 1, goodMarks := 0 } ∧ t.irq.getLsbD 3 = true ∧
      Only { mtu := true, ledger := true, irq := true, pba := true, outs := true, events := true, trc := true, trcCfg := true } s t) ∧
    (s.mtu.lock ≠ 0 → exec .mtRefPresent s = .next s) ∧
    (s.mtu.lock = 0 → exec .mtRefLost s = .next s ∧ exec .mtMarkEdge s = .next s) ∧
    (s.mtu.lock = 1 ∨ s.mtu.lock = 2 → ∃ t, exec .mtRefLost s = .next t ∧ t.mtu = { s.mtu with lock := 0, goodMarks := 0 } ∧ t.irq.getLsbD 3 = true ∧
      Only { mtu := true, ledger := true, irq := true, pba := true, outs := true, events := true, trc := true, trcCfg := true } s t) ∧
    (s.mtu.lock = 3 → ∃ t, exec .mtRefLost s = .next t ∧ t.mtu = { s.mtu with
        lock := 0, goodMarks := 0, lockLosses := satAdd 0xFFFF s.mtu.lockLosses 1, inGuard := false } ∧
      t.irq.getLsbD 3 = true ∧ t.hreqs = s.hreqs.map (fun h => { h with voided := true }) ∧
      Only { mtu := true, chans := true, hreqs := true, ledger := true, irq := true, pba := true, outs := true, events := true, trc := true,
             trcCfg := true } s t)) ∧
  (∀ s : State, s.powered = true → s.mtu.pendingSet = none →
    (s.mtu.lock = 3 → s.onMark = true → exec .mtMarkEdge s = .next { s with mtu := { s.mtu with markMt := s.mtu.mt } }) ∧
    (s.mtu.lock = 3 → s.onMark = false → ∃ t, exec .mtMarkEdge s = .next t ∧ t.mtu = { s.mtu with
        lock := 2, goodMarks := 0, lockLosses := satAdd 0xFFFF s.mtu.lockLosses 1, inGuard := false, markMt := s.mtu.mt } ∧
      t.hreqs = s.hreqs.map (fun h => { h with voided := true }) ∧
      Only { mtu := true, chans := true, hreqs := true, ledger := true, irq := true, pba := true, outs := true, events := true, trc := true,
             trcCfg := true } s t) ∧
    (s.mtu.lock = 2 → s.onMark = false → exec .mtMarkEdge s = .next { s with mtu := { s.mtu with goodMarks := 0, markMt := s.mtu.mt } }) ∧
    (s.mtu.lock = 2 → s.onMark = true → s.mtu.goodMarks < 2 →
      exec .mtMarkEdge s = .next { s with mtu := { s.mtu with goodMarks := s.mtu.goodMarks + 1, markMt := s.mtu.mt } }) ∧
    (s.mtu.lock = 2 → s.onMark = true → 2 ≤ s.mtu.goodMarks → s.refined = false → s.mtu.ahead = false →
      ∃ t, exec .mtMarkEdge s = .next t ∧ t.mtu.lock = 3 ∧ t.irq.getLsbD 3 = true ∧ t.hreqs = s.hreqs ∧
        (s.mtu.mt ≤ nearMark s.mtu.mt → t.mtu.mt = nearMark s.mtu.mt ∧ t.mtu.half = none) ∧
        (nearMark s.mtu.mt < s.mtu.mt → t.mtu.mt = s.mtu.mt ∧ t.mtu.half = some (nearMark s.mtu.mt)) ∧
      Only { mt := true, mtu := true, chans := true, hreqs := true, ledger := true, irq := true, pba := true, outs := true, events := true, trc := true,
             trcCfg := true } s t) ∧
    (s.mtu.lock = 1 → s.refined = false ∨ s.mtu.steer = none →
      exec .mtMarkEdge s = .next { s with mtu := { s.mtu with markMt := s.mtu.mt } }) ∧
    (∀ v, s.mtu.lock = 1 → s.refined = true → s.mtu.steer ≠ none → v = ((s.mtu.mt : Int) + s.mtu.ofs).toNat →
      ∃ t, exec .mtMarkEdge s = .next t ∧ t.mtu.lock = 2 ∧ (s.mtu.mt < v → t.mtu.mt = v ∧ t.mtu.stepped = true) ∧
        (v < s.mtu.mt → s.mtu.mt ≤ v + 1048576 → t.mtu.mt = s.mtu.mt ∧ t.mtu.half = some v) ∧
        (v + 1048576 < s.mtu.mt → t.mtu.mt = s.mtu.mt ∧ t.mtu.ahead = true ∧ t.mtu.hold = none) ∧
      Only { mt := true, mtu := true, chans := true, hreqs := true, ledger := true, irq := true, pba := true, outs := true, events := true, trc := true,
             trcCfg := true } s t)) ∧
  (∀ (s : State) (v : Nat), s.powered = true → s.mtu.pendingSet = some v → s.mtu.lock ≠ 0 →
    (64 < Machine.dist s.mtu.mt v → ∃ t, exec .mtMarkEdge s = .next t ∧ t.mtu.pendingSet = none ∧ t.mtu.lock = 2 ∧
      (s.mtu.mt < v → t.mtu.mt = v ∧ t.mtu.stepped = true) ∧
      (v < s.mtu.mt → s.mtu.mt ≤ v + 1048576 → t.mtu.mt = s.mtu.mt ∧ t.mtu.half = some v) ∧
      (v + 1048576 < s.mtu.mt → t.mtu.mt = s.mtu.mt ∧ t.mtu.hold = some v ∧ t.mtu.ahead = true) ∧
      Only { mt := true, mtu := true, chans := true, hreqs := true, ledger := true, irq := true, pba := true, outs := true, events := true, trc := true,
             trcCfg := true } s t) ∧
    (s.mtu.lock = 3 → Machine.dist s.mtu.mt v ≤ 64 →
      exec .mtMarkEdge s = .next { s with mtu := { s.mtu with pendingSet := none, markMt := s.mtu.mt } })) ∧
  (∀ s : State, s.powered = true →
    (s.mtu.markMt + 2 ^ 25 + 64 < s.mtu.mt → s.mtu.lock = 3 → ∃ t, exec .mtMarkMissing s = .next t ∧ t.mtu = { s.mtu with
        lock := 2, goodMarks := 0, lockLosses := satAdd 0xFFFF s.mtu.lockLosses 1, inGuard := false } ∧
      Only { mtu := true, chans := true, hreqs := true, ledger := true, irq := true, pba := true, outs := true, events := true, trc := true,
             trcCfg := true } s t) ∧
    (s.mtu.mt ≤ s.mtu.markMt + 2 ^ 25 + 64 → exec .mtMarkMissing s = .next s) ∧
    (s.mtu.markMt + 2 ^ 25 + 64 < s.mtu.mt → s.mtu.lock ≠ 3 → exec .mtMarkMissing s = .next { s with mtu := { s.mtu with goodMarks := 0 } }) ∧
    (s.refined = true → s.mtu.lock = 3 → 256 ≤ s.beat - s.mtu.stampBeat → ∃ t, exec .neighbourStampTimeout s = .next t ∧ t.mtu = { s.mtu with
        lock := 2, goodMarks := 0, goodOfs := 0, lockLosses := satAdd 0xFFFF s.mtu.lockLosses 1, inGuard := false } ∧
      Only { mtu := true, chans := true, hreqs := true, ledger := true, irq := true, pba := true, outs := true, events := true, trc := true,
             trcCfg := true } s t) ∧
    (s.refined = false ∨ s.mtu.lock ≠ 3 ∨ s.beat - s.mtu.stampBeat < 256 → exec .neighbourStampTimeout s = .next s)) ∧
  (∀ (s : State) (v : Nat), s.powered = true →
    (s.mtu.hold = some v → s.mtu.mt ≤ v → exec .mtHoldEnd s = .next { s with mtu := { s.mtu with hold := none, ahead := false } }) ∧
    (s.mtu.hold = none ∨ s.mtu.hold = some v ∧ v < s.mtu.mt → exec .mtHoldEnd s = .next s) ∧
    (s.mtu.half = some v → s.mtu.mt ≤ v → exec .halfRateCatchUpEnd s = .next { s with mtu := { s.mtu with half := none } }) ∧
    (s.mtu.half = none ∨ s.mtu.half = some v ∧ v < s.mtu.mt → exec .halfRateCatchUpEnd s = .next s))

/-- While RWL fields may be written, a write of a schedule entry's T word sets it, in force from the next beat on; an entry that is enabled
against the limits of R225 is stored disabled and SCH_ERR names it. In SERVICE such a write changes nothing. A 32-bit read of MTU_NOW's
low half returns it and latches the high half. When MT is locked, no guard or lull is in progress and the CLASS 1 entry fires
MTU_STS.GUARD beats ahead, the guard starts with that lull's beat, width and ARG; when it does not fire then, nothing changes. At its
beat, once the lower-numbered refresh, scrub and sweep entries due have fired, the guard turns into the lull, and every request in
progress is marked as one that the lull waits for; the lull ends after its width, and the segments that have then not started are
counted as deferred. Neither happens early. -/
def Obligations.ScheduleAndLulls : Prop :=
  (∀ (s : State) (l i : Nat) (v : Word), s.linkOn l = true → i < 64 →
    (s.rwlOpen = false → exec (.scheduleEntryWrite l (0x21000 + 16 * i) 8 v) s = .next s) ∧
    (s.rwlOpen = true → v.getLsbD 63 = false → ∃ t, exec (.scheduleEntryWrite l (0x21000 + 16 * i) 8 v) s = .next t ∧
      (t.schReg i).toNat % 2 ^ 64 = (v &&& 0x8F3F07FFFFDFFFFF).toNat ∧ (t.schReg i).toNat / 2 ^ 64 = (s.schReg i).toNat / 2 ^ 64 ∧
      (∀ j, j ≠ i → t.schReg j = s.schReg j) ∧ (∀ j, t.sch j = s.sch j) ∧
      (∀ m, m / 1024 ≠ s.beat → ({ t with mtu := { t.mtu with mt := m } } : State).sch i = t.schReg i) ∧ t.mtu.schErr = s.mtu.schErr ∧ Only { mtu := true } s t) ∧
    (s.rwlOpen = true → v.getLsbD 63 = true →
      s.schGood i (BitVec.ofNat 96 ((v &&& 0x8F3F07FFFFDFFFFF).toNat + (s.schReg i).toNat / 2 ^ 64 * 2 ^ 64)) = false →
      ∃ t, exec (.scheduleEntryWrite l (0x21000 + 16 * i) 8 v) s = .next t ∧ schEn (t.schReg i) = false ∧ t.mtu.schErr = true ∧
        t.mtu.schErrEntry = i ∧ (∀ j, j ≠ i → t.schReg j = s.schReg j) ∧ (∀ j, t.sch j = s.sch j) ∧ Only { mtu := true } s t) ∧
    (∃ t, exec (.mtuNowRead l) s = .next t ∧ t.outs = s.outs ++ [.ioData l (BitVec.ofNat 64 (s.mtu.mt % 2 ^ 32))] ∧
      t.mtu = { s.mtu with latch := BitVec.ofNat 32 (s.mtu.mt / 2 ^ 32) } ∧ Only { mtu := true, outs := true } s t)) ∧
  (∀ (s : State) (v : BitVec 96), s.powered = true → s.schOf 1 = some v → s.locked = true → s.inPause = false →
    (schSince v (s.beat + s.mtu.guard) = 0 → s.mtu.resumeBeat ≤ s.beat + s.mtu.guard →
      exec .guardStart s = .next { s with mtu := { s.mtu with inGuard := true, lullBeat := s.beat + s.mtu.guard,
                                                              lullWidth := schWidth v, lullArg := BitVec.ofNat 32 (schArg v) } }) ∧
    (schSince v (s.beat + s.mtu.guard) ≠ 0 → exec .guardStart s = .next s)) ∧
  (∀ s : State, s.powered = true →
    (s.mtu.inGuard = true → s.mtu.lullBeat ≤ s.beat →
      (∀ j, s.lullEntry = some j → ∀ i < j, s.due i (schClass (s.sch i)) = true → schClass (s.sch i) ∉ [2, 3, 4]) → ∃ t, exec .lullStart s = .next t ∧ t.mtu.inLull = true ∧ t.mtu.inGuard = false ∧
      t.mtu.lullBeat = s.mtu.lullBeat ∧ (∀ h ∈ t.hreqs, h.preLull = true) ∧ Only { mtu := true, hreqs := true, chans := true } s t) ∧
    (s.beat < s.mtu.lullBeat → exec .lullStart s = .next s) ∧
    (∀ i j, s.lullEntry = some j → i < j → s.due i (schClass (s.sch i)) = true → schClass (s.sch i) ∈ [2, 3, 4] →
      exec .lullStart s = .next s) ∧
    (s.mtu.inLull = true → s.mtu.lullBeat + s.mtu.lullWidth ≤ s.beat →
      exec .lullEnd s = .next { s with mtu := { s.mtu with inLull := false, lullTrks := [], deferred := satAdd 0xFFFF s.mtu.deferred (((s.chansOf false ++ s.chansOf true).map s.segsLeft).foldl (· + ·) 0) } }) ∧
    (s.beat < s.mtu.lullBeat + s.mtu.lullWidth → exec .lullEnd s = .next s))

/-- A firing of CLASS 4 leaves one step pending in each directory bank that has room; one of CLASS 5 copies the named units' counters to
their snapshots; one of CLASS 7 takes ARG[7:0] from every leaky bucket at the end of its clock; one of CLASS 8 samples every present
sensor, and a sample at or above the warning level sets the warning and signals vector 5, while all of them 3 degrees below it clear the
warning; one of CLASS 3 advances each named serving channel's scrub pointer by the reads it names, and in a guard or lull is skipped.
Without its firing, each changes nothing. -/
def Obligations.ScheduledWork : Prop :=
  (∀ (s : State) (i : Nat), s.powered = true → s.fires i 4 = true → 2 ≤ s.boot.level →
    ∃ t, exec (.directorySweep i) s = .next t ∧
      (∀ b < 16, (s.bank b).sweepDue.length < 64 → t.bank b = { s.bank b with sweepDue := (s.bank b).sweepDue ++ [schArg (s.sch i) % 2 ^ 16] }) ∧
      Only { banks := true, mtu := true } s t) ∧
  (∀ (s : State) (i u k : Nat), s.powered = true → s.fires i 5 = true → u < 96 → k < 8 →
    ∃ t, exec (.counterSnapshot i) s = .next t ∧ Only { tlys := true, mtu := true } s t ∧
      ((schArg (s.sch i)).testBit (u / 3) = true → Tab.get 0 (t.tly u).snap k = (Tab.get {} (s.tly u).cnt k).count ∧
        (t.tly u).seq = (s.tly u).seq + 1 ∧ (t.tly u).snapMt = s.beat * 1024 ∧ (t.tly u).cnt = (s.tly u).cnt) ∧
      ((schArg (s.sch i)).testBit (u / 3) = false → t.tly u = s.tly u)) ∧
  (∀ (s : State) (i u : Nat) (b : Bucket), s.powered = true → s.fires i 7 = true → s.ras.bkt = [(u, b)] →
    ∃ t, exec (.leakyBucketLeak i) s = .next t ∧ t.ras.bkt = s.ras.bkt ∧ t.ras.leaks = s.ras.leaks ++ [schArg (s.sch i) % 256] ∧
      (s.ras.leaks = [] → (Tab.get {} t.leakClock.ras.bkt u).level = b.level - schArg (s.sch i) % 256 ∧
        (Tab.get {} t.leakClock.ras.bkt u).ovf = b.ovf) ∧ Only { bkt := true, mtu := true } s t) ∧
  (∀ (s : State) (i : Nat) (temps : List (BitVec 16)), s.powered = true → s.fires i 8 = true → temps.length = 20 →
    ∃ t, exec (.thermalSample i temps) s = .next t ∧
      (∀ k < 20, hasSensor s.part k = true → (Tab.get {} t.pcr.temps k).valid = true ∧ (Tab.get {} t.pcr.temps k).t = (temps[k]?).getD 0) ∧
      ((∃ k < 20, hasSensor s.part k = true ∧ 16 * s.warnLevel ≤ ((temps[k]?).getD 0).toInt) → t.pcr.thermWarn = true ∧ t.irq.getLsbD 5 = true) ∧
      ((∀ k < 20, hasSensor s.part k = true → ((temps[k]?).getD 0).toInt < 16 * s.warnLevel - 48) → t.pcr.thermWarn = false) ∧
      Only { pcr := true, mtu := true, irq := true, pba := true, outs := true, events := true } s t) ∧
  (∀ (s : State) (i c : Nat), s.powered = true → s.fires i 3 = true →
    (s.inPause = true → ∃ t, exec (.scrubStep i []) s = .next t ∧ Only { mtu := true } s t) ∧
    (s.inPause = false → c < 64 → s.chanServes c = true → bits (schArg (s.sch i)) 16 1 = 1 → bits (schArg (s.sch i)) 17 1 = 0 →
      (s.chan c).scrub < 37748736 → ∃ t, exec (.scrubStep i []) s = .next t ∧
        (t.chan c).scrub = ((s.chan c).scrub + schArg (s.sch i) % 2 ^ 16) % 37748736)) ∧
  (∀ (s : State) (i : Nat),
    (s.fires i 4 = false → exec (.directorySweep i) s = .next s) ∧ (s.fires i 5 = false → exec (.counterSnapshot i) s = .next s) ∧
    (s.fires i 7 = false → exec (.leakyBucketLeak i) s = .next s) ∧ (∀ ts, s.fires i 8 = false → exec (.thermalSample i ts) s = .next s) ∧
    (∀ es, s.fires i 3 = false → exec (.scrubStep i es) s = .next s))

/-- In an UP domain this E9 sends each other member one heartbeat in a beat, with ALT in an odd one, and no second one. A heartbeat of this
table from another member marks when it came; one to a member that forms and has sent READY brings it UP; one to a joiner that has not
ends its DOM_JOIN with DOMAIN_ACTIVE. A heartbeat, JOIN or READY of another table or node is recorded and changes nothing of the domain.
A member silent for 8,192 core clocks brings the domain DOWN with a notice of cause 1 to every other member, and none sooner. A JOIN is
remembered while forming; in an UP domain it is answered with a heartbeat, or with READY while members have still to be seen UP. READY
is remembered while forming; that of the last awaited member brings a joining E9 that has sent its own READY UP and ends its DOM_JOIN
with OK. In each beat, once, a joining E9 sends JOIN to the others, or READY once each has been heard of, which brings it UP when all
were ready; while UP it repeats READY until all have been seen UP. A DOM_JOIN whose time is over ends TIMEOUT with the members that did
not answer (log 33), and none sooner. -/
def Obligations.DomainMembership : Prop :=
  (∀ s : State, s.live = true → s.dom.st = 2 →
    (s.dom.hbBeat ≠ some s.beat → ∃ t, exec .heartbeatSend s = .next t ∧ t.rtr.q = s.rtr.q ++ s.others.map (fun m =>
        { dst := s.tableDomain * 128 + m, src := s.nodeNo, vn := 3, alt := s.beat % 2 == 1, body := .heartbeat s.tableDomain 2 s.dom.digest }) ∧
      t.dom = { s.dom with hbBeat := some s.beat } ∧ Only { rtrTx := true, dom := true } s t) ∧
    (s.dom.hbBeat = some s.beat → exec .heartbeatSend s = .next s)) ∧
  (∀ s : State, s.dom.st ≠ 2 → exec .heartbeatSend s = .next s) ∧
  (∀ (s : State) (src d st : Nat) (g : BitVec 32), s.live = true →
    (s.ownTable src d g = true → (∀ r ∈ s.mgt.running, r.body ≠ .domJoin) → s.dom.st = 2 ∨ s.dom.st = 1 ∧ s.dom.sentReady = true →
      ∃ t, exec (.heartbeat src d st g) s = .next t ∧ t.dom.st = 2 ∧ Tab.get 0 t.dom.hb (src % 128) = s.clk ∧ t.dom.table = s.dom.table ∧
        t.dom.digest = s.dom.digest ∧ t.dom.notice = s.dom.notice ∧ Only { dom := true, fnc := true, rtrRx := true, ledger := true, irq := true, pba := true, outs := true, events := true, trc := true, trcCfg := true } s t) ∧
    (∀ (r : Run) (e : Nat), s.ownTable src d g = true → s.dom.st = 1 → s.dom.sentReady = false → s.dom.joining = true → s.mgt.running = [r] →
      r.body = .domJoin → r.hdr.via = .mctp e → ∃ t, exec (.heartbeat src d st g) s = .next t ∧ t.dom = { s.dom with joining := false } ∧
        t.mgt.running = [] ∧ t.outs = s.outs ++ [.mctp e Config.vendorId (replyBytes 0x0402 r.hdr 14 [])]) ∧
    (s.ownTable src d g = false → ∃ t, exec (.heartbeat src d st g) s = .next t ∧ t.dom = s.dom ∧ t.rtr.q = s.rtr.q ∧ Only { rtrRx := true, ledger := true, irq := true, pba := true, outs := true, events := true, trc := true, trcCfg := true } s t)) ∧
  (∀ (s : State) (m : Nat), s.live = true → s.dom.st = 2 → s.isMember m = true → m ≠ s.ownMember →
    (8192 ≤ s.clk - Tab.get 0 s.dom.hb m → ∃ (t : State) (n : FailNotice), exec (.memberDead m) s = .next t ∧
      t.dom = { s.dom with st := 3, downDue := true, nack := true, joining := false, sentReady := false, readyAfter := false,
                           notice := some (4, n), noticeBeat := some s.beat } ∧
      n.cause = 1 ∧ n.reporter = s.nodeNo ∧ n.subject = s.tableDomain * 128 + m ∧ n.domain = s.tableDomain ∧ n.digest = s.dom.digest ∧
      Sends (s.others.flatMap fun k => [(s.tableDomain * 128 + k, .fail n), (s.tableDomain * 128 + k, .fail n)]) s t ∧
      Only { rtrTx := true, dom := true } s t) ∧
    (s.clk - Tab.get 0 s.dom.hb m < 8192 → exec (.memberDead m) s = .next s)) ∧
  (∀ (s : State) (src d : Nat) (g : BitVec 32), s.live = true →
    (s.ownTable src d g = false → ∀ c ∈ [Instr.join src d g, .ready src d g], ∃ t, exec c s = .next t ∧ t.dom = s.dom ∧ t.rtr.q = s.rtr.q ∧
      Only { rtrRx := true, ledger := true, irq := true, pba := true, outs := true, events := true, trc := true, trcCfg := true } s t) ∧
    (s.ownTable src d g = true → s.dom.st = 1 → ∃ t, exec (.join src d g) s = .next t ∧
      t.dom = { s.dom with gotJoin := addOnce s.dom.gotJoin (src % 128) } ∧ Only { dom := true, rtrRx := true } s t) ∧
    (s.ownTable src d g = true → s.dom.st = 2 → ∃ t, exec (.join src d g) s = .next t ∧
      Sends [(s.tableDomain * 128 + src % 128, if s.dom.readyAfter = true then .member 2 s.tableDomain s.dom.digest
                                               else .heartbeat s.tableDomain 2 s.dom.digest)] s t ∧
      Only { rtrTx := true, rtrRx := true } s t) ∧
    (s.ownTable src d g = true → s.dom.st = 1 → s.dom.joining = false ∨ s.dom.sentReady = false ∨
        (∃ m ∈ s.others, m ∉ s.dom.gotReady ∧ m ≠ src % 128) → ∃ t, exec (.ready src d g) s = .next t ∧
      t.dom = { s.dom with gotReady := addOnce s.dom.gotReady (src % 128) } ∧ Only { dom := true, rtrRx := true } s t) ∧
    (∀ (r : Run) (e : Nat), s.ownTable src d g = true → s.dom.st = 1 → s.dom.joining = true → s.dom.sentReady = true →
      (∀ m ∈ s.others, m ∈ s.dom.gotReady ∨ m = src % 128) → s.mgt.running = [r] → r.body = .domJoin → r.hdr.via = .mctp e →
      ∃ t, exec (.ready src d g) s = .next t ∧ t.dom.st = 2 ∧ t.dom.joining = false ∧ t.dom.table = s.dom.table ∧ t.mgt.running = [] ∧
        t.outs.getLast? = some (.mctp e Config.vendorId (replyBytes 0x0402 r.hdr 0 (leBytes 16 0))))) ∧
  (∀ s : State, s.live = true →
    (s.dom.st = 1 → s.dom.joining = true → s.dom.memBeat ≠ some s.beat →
      ((∃ m ∈ s.others, m ∉ s.dom.gotJoin ∧ m ∉ s.dom.gotReady) → ∃ t, exec .membershipBeat s = .next t ∧
        Sends (s.others.map fun m => (s.tableDomain * 128 + m, .member 1 s.tableDomain s.dom.digest)) s t ∧
        t.dom = { s.dom with memBeat := some s.beat } ∧ Only { dom := true, rtrTx := true } s t) ∧
      ((∀ m ∈ s.others, m ∈ s.dom.gotJoin ∨ m ∈ s.dom.gotReady) → (∃ m ∈ s.others, m ∉ s.dom.gotReady) → ∃ t, exec .membershipBeat s = .next t ∧
        Sends (s.others.map fun m => (s.tableDomain * 128 + m, .member 2 s.tableDomain s.dom.digest)) s t ∧
        t.dom = { s.dom with memBeat := some s.beat, sentReady := true } ∧ Only { dom := true, rtrTx := true } s t) ∧
      ((∀ m ∈ s.others, m ∈ s.dom.gotReady) → (∀ r ∈ s.mgt.running, r.body ≠ .domJoin) → ∃ t, exec .membershipBeat s = .next t ∧
        Sends (s.others.map fun m => (s.tableDomain * 128 + m, .member 2 s.tableDomain s.dom.digest)) s t ∧ t.dom.st = 2 ∧
        t.dom.table = s.dom.table)) ∧
    (s.dom.st = 2 → s.dom.readyAfter = true → s.dom.memBeat ≠ some s.beat → ∃ t, exec .membershipBeat s = .next t ∧
      Sends (s.others.map fun m => (s.tableDomain * 128 + m, .member 2 s.tableDomain s.dom.digest)) s t ∧
      t.dom = { s.dom with memBeat := some s.beat } ∧ Only { dom := true, rtrTx := true } s t) ∧
    (s.dom.memBeat = some s.beat → exec .membershipBeat s = .next s)) ∧
  (∀ (s : State) (r : Run) (e : Nat), s.live = true → s.mgt.running = [r] → r.body = .domJoin → r.hdr.via = .mctp e → s.dom.st = 1 →
    s.dom.joining = true →
    (s.dom.joinBeat + 16384 ≤ s.beat → ∃ t, exec .domJoinTimeout s = .next t ∧ t.dom = { s.dom with joining := false } ∧ t.mgt.running = [] ∧
      t.outs = s.outs ++ [.mctp e Config.vendorId (replyBytes 0x0402 r.hdr 13
        (leBytes 16 ((s.others.filter fun m => !s.dom.gotReady.contains m).foldl (fun v m => v + 2 ^ m) 0)))] ∧
      Only { links := true, pba := true, rtrTx := true, dom := true, mgtq := true, events := true, outs := true } s t) ∧
    (s.beat < s.dom.joinBeat + 16384 → exec .domJoinTimeout s = .next s))

/-- A domain-fail notice for this E9's table brings an UP or FORMING domain DOWN, and is passed on to the other members; one for another
table changes nothing of the domain. It goes again once in each of the following beats, four times in all, and not twice in a beat. The
entry's steps end every domain-scope fence, abandon the domain tree and signal vector 4; when they are not due, the command does nothing
but count what codes corrected. A fabric command's first fragment from a node that RTR_MGT does not admit is refused and counted; from
an admitted one with more to come it takes a reassembly buffer; a whole command of version 0 is answered BAD_VERSION. A fragment that
completes a command of the wrong length frees its buffer and counts it as refused, and a buffer incomplete for 1,024 beats does the
same, and not sooner. -/
def Obligations.DomainFailureAndManagementFragments : Prop :=
  (∀ (s : State) (src : Nat) (f : FailNotice), s.live = true → s.dom.st = 1 ∨ s.dom.st = 2 →
    (f.domain = s.tableDomain → f.digest = s.dom.digest → ∃ t, exec (.domainFailNotice src f) s = .next t ∧ t.dom.st = 3 ∧ t.dom.downDue = true ∧
      t.dom.notice = some (4, f) ∧ Sends (s.others.flatMap fun k => [(s.tableDomain * 128 + k, .fail f), (s.tableDomain * 128 + k, .fail f)]) s t ∧
      Only { dom := true, rtrTx := true, rtrRx := true } s t) ∧
    (f.domain ≠ s.tableDomain ∨ f.digest ≠ s.dom.digest → ∃ t, exec (.domainFailNotice src f) s = .next t ∧ Only { rtrRx := true } s t)) ∧
  (∀ (s : State) (k : Nat) (f : FailNotice), s.live = true → s.dom.notice = some (k, f) →
    (s.dom.noticeBeat ≠ some s.beat → ∃ t, exec .domainFailNoticeResend s = .next t ∧
      Sends (s.others.flatMap fun m => [(s.tableDomain * 128 + m, .fail f), (s.tableDomain * 128 + m, .fail f)]) s t ∧
      t.dom.notice = (if k ≤ 1 then none else some (k - 1, f)) ∧ t.dom.noticeBeat = some s.beat ∧ Only { dom := true, rtrTx := true } s t) ∧
    (s.dom.noticeBeat = some s.beat → exec .domainFailNoticeResend s = .next s)) ∧
  (∀ (s : State) (fd : Finds), s.powered = true → s.dom.st = 3 →
    (s.dom.downDue = true → ∃ t, exec (.domainDownEntry fd) s = .next t ∧ t.dom.st = 3 ∧ t.dom.downDue = false ∧ t.irq.getLsbD 4 = true ∧
      (∀ f ∈ t.fnc.fences, f.scope ≠ 2) ∧ t.fnc.dom = {} ∧ t.mtu = s.mtu ∧ t.boot = s.boot) ∧
    (s.dom.downDue = false → exec (.domainDownEntry fd) s = .next (s.noted fd))) ∧
  (∀ (s : State) (src : Nat) (f : Fragment), s.clerksOn = true → s.rtr.enabled = true →
    (s.fabricAllowed src = false → f.index = 0 → ∃ t, exec (.managementFragment src f) s = .next t ∧
      t.rtr.mgtRefused = satAdd 0xFFFF s.rtr.mgtRefused 1 ∧ Only { rtr := true, rtrRx := true } s t) ∧
    (s.fabricAllowed src = true → s.rtr.bufs = [] → f.index = 0 → f.count ≠ 1 → ∃ t, exec (.managementFragment src f) s = .next t ∧
      t.rtr.bufs = [{ src := src, tag := f.tag, count := f.count, total := f.total, got := [(0, f.body)], beat := s.beat }] ∧
      Only { rtr := true, rtrRx := true } s t) ∧
    (s.fabricAllowed src = true → s.rtr.bufs = [] → f = { tag := 0, index := 0, count := 1, total := 32, body := List.replicate 32 0 } →
      ∃ t, exec (.managementFragment src f) s = .next t ∧ Sends [(src, .mgt
        { tag := 0, index := 0, count := 1, total := 16, body := replyBytes 0 { via := .fabric src, version := 0 } 2 [] })] s t ∧ Only { rtrTx := true, rtrRx := true } s t) ∧
    (∀ (b : ReBuf) (x : List Byte), s.fabricAllowed src = true → s.rtr.bufs = [b] → b.src = src → b.tag = f.tag → b.count = 2 → b.total = f.total →
      f.count = 2 → b.got = [(0, x)] → f.index = 1 → x.length + f.body.length ≠ f.total → ∃ t, exec (.managementFragment src f) s = .next t ∧
      t.rtr.bufs = [] ∧ t.rtr.mgtRefused = satAdd 0xFFFF s.rtr.mgtRefused 1 ∧ Only { rtr := true, rtrRx := true } s t)) ∧
  (∀ (s : State) (b : ReBuf), s.live = true → s.rtr.bufs = [b] →
    (b.beat + 1024 ≤ s.beat → ∃ t, exec (.reassemblyTimeout 0) s = .next t ∧ t.rtr.bufs = [] ∧
      t.rtr.mgtRefused = satAdd 0xFFFF s.rtr.mgtRefused 1 ∧ Only { rtr := true } s t) ∧
    (s.beat < b.beat + 1024 → exec (.reassemblyTimeout 0) s = .next s))

/-- In a refresh window a slot precharges and refreshes the next bank of the window. Otherwise a far read whose row is open answers with the
line's bytes and poison mark and leaves its queue; a near access whose row is open leaves its queue, and one that waited outside for
room takes its place; a far write stores its line and mark; a first write to an unwritten page sets the page's zero-map bit, and every
other line of the page reads zero (the codes finding nothing wrong in the zero-map line read on the way). An access whose bank has no
row open and fewer than 88 activates since the last window opens its row; one whose bank has another row open has the bank precharged. A
row whose timer has expired is precharged, and none sooner. A far merge-buffer entry 64 ns old joins its bank's list, and not sooner; a
slot merges such a write into the stored line by read, modify and write, and the line keeps its poison. -/
def Obligations.ChannelCommandSlots : Prop :=
  (∀ (s : State) (c u b : Nat) (rest : List Nat) (e : ArrErr) (fd : Finds), s.chanServes c = true → u < 2 → (s.cunit c u).win = b :: rest →
    ∃ t, exec (.commandSlotPick c u e fd) s = .next t ∧ (t.cunit c u).win = rest ∧ ((t.cunit c u).bank b).row = 0 ∧
      ((t.cunit c u).bank b).acts = 0 ∧ (t.cunit c u).q = (s.cunit c u).q ∧
      Only { chans := true, events := true, trc := true, trcCfg := true, ledger := true, bkt := true, irq := true, pba := true, outs := true, due := true } s t) ∧
  (∀ (s : State) (c u k : Nat) (r : ChReq) (rd : MemRd) (fd : Finds), s.chanServes c = true → 64 ≤ c → u < 2 → (s.cunit c u).win = [] →
    (s.cunit c u).q = [r] → (s.cunit c u).hold = [] → (∀ n < 64, (s.slice n).vbs = []) → r.wr = false → r.data = none → r.tok = some k → s.mem.reads = [rd] → rd.tok = k →
    ((s.cunit c u).bank r.bank).row = r.row + 1 → ((s.cunit c u).bank r.bank).ord = [] → s.readsZero r.addr = false → s.farKnown r.addr = true →
    s.ras.latent = [] → ∃ t, exec (.commandSlotPick c u .none fd) s = .next t ∧ (t.cunit c u).q = [] ∧
      t.mem.reads = [{ rd with got := some (Memory.readLine s.mem.far (64 * r.addr), Tab.get false s.mem.farPoison r.addr) }] ∧
      Only { chans := true, memIo := true, events := true, trc := true, trcCfg := true, ledger := true, bkt := true, irq := true, pba := true, outs := true, due := true } s t) ∧
  (∀ (s : State) (c u : Nat) (r h : ChReq) (e : ArrErr) (fd : Finds), s.chanServes c = true → c < 64 → u < 2 → (s.cunit c u).win = [] →
    (s.cunit c u).q = [r] → (s.cunit c u).hold = [h] → ((s.cunit c u).bank r.bank).row = r.row + 1 → ((s.cunit c u).bank r.bank).ord = [] →
    ∃ t, exec (.commandSlotPick c u e fd) s = .next t ∧ (t.cunit c u).q = [{ h with seq := s.mem.nextSeq }] ∧ (t.cunit c u).hold = [] ∧
      Only { chans := true, memIo := true, events := true, trc := true, trcCfg := true, ledger := true, bkt := true, irq := true, pba := true, outs := true, due := true } s t) ∧
  (∀ (s : State) (c u : Nat) (r : ChReq) (d : Line) (p : Bool) (e : ArrErr) (fd : Finds), s.chanServes c = true → 64 ≤ c → u < 2 → (s.cunit c u).win = [] →
    (s.cunit c u).q = [r] → (s.cunit c u).hold = [] → (∀ n < 64, (s.slice n).vbs = []) → fd.zmap = .none → NoMerges s → r.wr = true → r.data = some (d, p) → r.be = none → ((s.cunit c u).bank r.bank).row = r.row + 1 →
    ((s.cunit c u).bank r.bank).ord = [] → s.ras.arm = false → s.ras.latent = [] → s.pgcRegion r.addr = none →
    (Tab.get false s.mem.zmap (pageOf r.addr) = true → ∃ t, exec (.commandSlotPick c u e fd) s = .next t ∧ (t.cunit c u).q = [] ∧
      Memory.readLine t.mem.far (64 * r.addr) = d ∧ Tab.get false t.mem.farPoison r.addr = p ∧ t.readsZero r.addr = false ∧
      (∀ a, (a < 64 * r.addr ∨ 64 * r.addr + 64 ≤ a) → Memory.read8 t.mem.far a = Memory.read8 s.mem.far a) ∧ t.mem.zmap = s.mem.zmap ∧
      Only { chans := true, far := true, memIo := true, ras := true, events := true, trc := true, trcCfg := true, ledger := true, bkt := true, irq := true, pba := true, outs := true, due := true } s t) ∧
    (Tab.get false s.mem.zmap (pageOf r.addr) = false → s.zmapOn = true → s.zeroTrackerFree r.addr = true →
      ∃ t, exec (.commandSlotPick c u e fd) s = .next t ∧ (t.cunit c u).q = [] ∧ Tab.get false t.mem.zmap (pageOf r.addr) = true ∧
      Memory.readLine t.mem.far (64 * r.addr) = d ∧ t.readsZero r.addr = false ∧
      (∀ lo, pageOf lo = pageOf r.addr → lo ≠ r.addr → t.readsZero lo = true) ∧
      Only { chans := true, far := true, memIo := true, ras := true, events := true, trc := true, trcCfg := true, ledger := true, bkt := true, irq := true, pba := true, outs := true, due := true } s t)) ∧
  (∀ (s : State) (c u : Nat) (r : ChReq) (e : ArrErr) (fd : Finds), s.chanServes c = true → u < 2 → (s.cunit c u).win = [] → (s.cunit c u).q = [r] →
    r.bank < s.chanBanks c →
    (((s.cunit c u).bank r.bank).row = 0 → ((s.cunit c u).bank r.bank).acts < 88 → ∃ t, exec (.commandSlotPick c u e fd) s = .next t ∧
      ((t.cunit c u).bank r.bank).row = r.row + 1 ∧ ((t.cunit c u).bank r.bank).acts = ((s.cunit c u).bank r.bank).acts + 1 ∧
      (t.cunit c u).q = [r] ∧
      Only { chans := true, events := true, trc := true, trcCfg := true, ledger := true, bkt := true, irq := true, pba := true, outs := true, due := true } s t) ∧
    (((s.cunit c u).bank r.bank).row ≠ 0 → ((s.cunit c u).bank r.bank).row ≠ r.row + 1 → ∃ t, exec (.commandSlotPick c u e fd) s = .next t ∧
      ((t.cunit c u).bank r.bank).row = 0 ∧ (t.cunit c u).q = [r] ∧
      Only { chans := true, events := true, trc := true, trcCfg := true, ledger := true, bkt := true, irq := true, pba := true, outs := true, due := true } s t)) ∧
  (∀ (s : State) (c u b : Nat), s.chanServes c = true → u < 2 → ((s.cunit c u).bank b).row ≠ 0 →
    (s.idleTimer c * 8 ≤ s.clk - ((s.cunit c u).bank b).lastCol → ∃ t, exec (.rowIdleTimeout c u b) s = .next t ∧
      ((t.cunit c u).bank b).row = 0 ∧ (∀ k, k ≠ b → (t.cunit c u).bank k = (s.cunit c u).bank k) ∧ (t.cunit c u).q = (s.cunit c u).q ∧
      Only { chans := true, events := true } s t) ∧
    (s.clk - ((s.cunit c u).bank b).lastCol < s.idleTimer c * 8 → exec (.rowIdleTimeout c u b) s = .next s)) ∧
  (∀ (s : State) (c u : Nat) (m : MergeEnt) (e : ArrErr) (fd : Finds), s.chanServes c = true → 64 ≤ c → u < 2 → (s.cunit c u).merge = [m] →
    (s.clk - m.t0 < 128 → exec (.mergeBufferTimeout c u m.addr e fd) s = .next (s.noted fd)) ∧
    (128 ≤ s.clk - m.t0 → (s.cunit c u).q = [] → (s.cunit c u).hold = [] → c = 64 + farCh m.addr → u = farSub m.addr →
      ∃ t r, exec (.mergeBufferTimeout c u m.addr e fd) s = .next t ∧ (t.cunit c u).merge = [] ∧ (t.cunit c u).q = [r] ∧ r.wr = true ∧
        r.addr = m.addr ∧ r.bank = s.farBank m.addr ∧ r.row = farRow s.mem.rbits m.addr ∧ r.data = some (m.data, m.poison) ∧
        r.be = (if m.be = fullMask then none else some m.be) ∧
        Only { chans := true, memIo := true, events := true, trc := true, trcCfg := true, ledger := true, bkt := true, irq := true, pba := true,
               outs := true, due := true } s t)) ∧
  (∀ (s : State) (c u : Nat) (r : ChReq) (d : Line) (p : Bool) (be : BitVec 64) (fd : Finds), s.chanServes c = true → 64 ≤ c → u < 2 →
    (s.cunit c u).win = [] → (s.cunit c u).q = [r] → (s.cunit c u).hold = [] → (∀ n < 64, (s.slice n).vbs = []) → fd.zmap = .none → NoMerges s →
    r.wr = true → r.data = some (d, p) → r.be = some be → ((s.cunit c u).bank r.bank).row = r.row + 1 → ((s.cunit c u).bank r.bank).ord = [] →
    s.ras.arm = false → s.ras.latent = [] → s.pgcRegion r.addr = none → s.readsZero r.addr = false → s.farKnown r.addr = true →
    Tab.get false s.mem.zmap (pageOf r.addr) = true → ∃ t, exec (.commandSlotPick c u .none fd) s = .next t ∧ (t.cunit c u).q = [] ∧
      Memory.readLine t.mem.far (64 * r.addr) = mergeBytes (Memory.readLine s.mem.far (64 * r.addr)) d be ∧
      Tab.get false t.mem.farPoison r.addr = (Tab.get false s.mem.farPoison r.addr || p) ∧
      (∀ a, (a < 64 * r.addr ∨ 64 * r.addr + 64 ≤ a) → Memory.read8 t.mem.far a = Memory.read8 s.mem.far a) ∧
      Only { chans := true, far := true, memIo := true, ras := true, events := true, trc := true, trcCfg := true, ledger := true, bkt := true,
             irq := true, pba := true, outs := true, due := true } s t)

/-- A firing of a refresh entry opens a window over every bank of every running channel of its kind that is not in self-refresh; inside a
lull with ARG bit 1, or in the beat in which it is due, none opens, since the lull's catch-up refresh takes its place. Without lock, and
after it until its first refresh firing, a channel opens its window when it is due; otherwise or before it is due none. An idle channel
enters self-refresh after SR_IDLE beats in MAINTENANCE, and leaves it when an access waits, its banks precharged and refreshed. A near
freeze brings the domain DOWN with cause 2. A far freeze records what was queued, answers its queued read with poison, and leaves the
domain. A retraining or thaw that ends answers its command: a good retraining clears the failure count, a good thaw unfreezes the
channel, replies the discarded accesses and clears a near channel's tags, a failed thaw leaves it frozen and replies FAILED. -/
def Obligations.RefreshAndFreeze : Prop :=
  (∀ (s : State) (i c : Nat), s.powered = true → s.fires i 2 = true →
    (((s.mtu.inLull || s.lullDue) && s.mtu.lullArg.getLsbD 1) = false → ∃ t, exec (.refreshCadencePhase i) s = .next t ∧
      (c ∈ s.chansOf (schArg (s.sch i) % 2 == 1) → s.chanRuns c = true → (s.chan c).sr = false →
        (t.cunit c 0).win = List.range (s.chanBanks c) ∧ (t.cunit c 1).win = List.range (s.chanBanks c) ∧ (t.chan c).th = s.rdThresh c ∧ (t.chan c).free = false) ∧
      (c ∉ s.chansOf (schArg (s.sch i) % 2 == 1) → t.chan c = s.chan c) ∧ Only { chans := true, hreqs := true, mtu := true, events := true } s t) ∧
    (((s.mtu.inLull || s.lullDue) && s.mtu.lullArg.getLsbD 1) = true → ∃ t, exec (.refreshCadencePhase i) s = .next t ∧
      (c ∈ s.chansOf (schArg (s.sch i) % 2 == 1) → s.chanRuns c = true → (s.chan c).sr = false →
        t.chan c = { s.chan c with free := false }) ∧
      (c ∉ s.chansOf (schArg (s.sch i) % 2 == 1) → t.chan c = s.chan c) ∧ Only { chans := true, mtu := true } s t)) ∧
  (∀ (s : State) (c : Nat), s.chanRuns c = true → (s.chan c).sr = false →
    (s.locked = false ∨ (s.chan c).free = true → (s.chan c).nextRefresh ≤ s.clk → ∃ t, exec (.freeRunningRefresh c) s = .next t ∧
      (t.cunit c 0).win = List.range (s.chanBanks c) ∧ (t.cunit c 1).win = List.range (s.chanBanks c) ∧
      (t.chan c).nextRefresh = s.clk + 8192 ∧ Only { chans := true, events := true } s t) ∧
    (s.locked = true ∧ (s.chan c).free = false ∨ s.clk < (s.chan c).nextRefresh → exec (.freeRunningRefresh c) s = .next s)) ∧
  (∀ (s : State) (c : Nat), s.chanServes c = true → s.devState = 2 →
    (∀ u, u < 2 → (s.cunit c u).all = [] ∧ (s.cunit c u).win = [] ∧ (s.cunit c u).merge = []) → s.srIdle c ≠ 0 →
    (s.srIdle c ≤ s.beat - (s.chan c).idleBeat → ∃ t, exec (.selfRefreshEntry c) s = .next t ∧ t.chan c = { s.chan c with sr := true } ∧
      Only { chans := true } s t) ∧
    (s.beat - (s.chan c).idleBeat < s.srIdle c → exec (.selfRefreshEntry c) s = .next s)) ∧
  (∀ (s : State) (c : Nat) (fd : Finds), s.chanRuns c = true → (s.chan c).sr = true → (s.chan c).waking = false → s.mem.pasrEn = false →
    ((s.cunit c 0).q ≠ [] → ∃ t, exec (.selfRefreshExit c fd) s = .next t ∧ (t.chan c).sr = false ∧ (t.cunit c 0).q = (s.cunit c 0).q ∧
      (∀ u b, u < 2 → ((t.cunit c u).bank b).row = 0 ∧ ((t.cunit c u).bank b).acts = 0) ∧
      Only { chans := true, events := true, trc := true, trcCfg := true, ledger := true, bkt := true, irq := true, pba := true, outs := true, due := true } s t) ∧
    ((∀ u, u < 2 → (s.cunit c u).all = [] ∧ (s.cunit c u).merge = []) → exec (.selfRefreshExit c fd) s = .next (s.noted fd))) ∧
  (∀ (s : State) (c cause : Nat) (f : FrzCmd), s.powered = true → s.chanPresent c = true → (s.chan c).frozen = false → cause = 1 ∨ cause = 2 →
    (c < 64 → s.dom.st ≠ 3 → ∃ t, exec (.channelFreeze c cause f) s = .next t ∧ (t.chan c).frozen = true ∧ (t.chan c).cause = cause ∧
      (t.chan c).frzMt = s.mtu.mt % 2 ^ 32 ∧ t.dom.st = 3 ∧ t.dom.downDue = true ∧
      (s.dom.st ≠ 0 → ∃ n, t.dom.notice = some (4, n) ∧ n.cause = 2)) ∧
    (∀ (r : ChReq) (rd : MemRd) (k : Nat), 64 ≤ c → (∀ n < 64, (s.slice n).vbs = []) → s.cunit c 1 = {} → (s.cunit c 0).q = [r] → (s.cunit c 0).hold = [] →
      (s.cunit c 0).merge = [] → r.wr = false →
      r.tok = some k → s.mem.reads = [rd] → rd.tok = k → ∃ t, exec (.channelFreeze c cause f) s = .next t ∧ (t.chan c).frozen = true ∧
      (t.chan c).cause = cause ∧ (t.chan c).frzMt = s.mtu.mt % 2 ^ 32 ∧ (t.chan c).frzRd = 1 ∧ (t.chan c).frzWr = 0 ∧
      t.mem.reads = [{ rd with got := some (Config.poisonLine, true) }] ∧ t.dom = s.dom ∧ (∀ k, k ≠ c → t.chan k = s.chan k))) ∧
  (∀ (s : State) (c e : Nat) (r : Run) (k x : BitVec 8), s.powered = true → s.chanPresent c = true → (s.chan c).training = true →
    s.mgt.running = [r] → r.hdr.via = .mctp e → s.chanNamed k x = some c →
    (r.body = .chRetrain k x → (s.chan c).thaw = false → ∃ t, exec (.channelTrainingComplete c true) s = .next t ∧
      (t.chan c).training = false ∧ (t.chan c).retrainFails = 0 ∧ t.mgt.running = [] ∧
      t.outs = s.outs ++ [.mctp e Config.vendorId (replyBytes 0x0311 r.hdr 0 (leBytes 4 0))] ∧
      Only { chans := true, mgtq := true, outs := true, events := true } s t) ∧
    (r.body = .chThaw k x → (s.chan c).thaw = true → 64 ≤ c → ∃ t, exec (.channelTrainingComplete c true) s = .next t ∧
      (t.chan c).frozen = false ∧ (t.chan c).cause = 0 ∧ (t.chan c).trained = true ∧ t.mgt.running = [] ∧
      t.outs = s.outs ++ [.mctp e Config.vendorId (replyBytes 0x0310 r.hdr 0 (leBytes 4 (s.chan c).discarded))] ∧
      Only { chans := true, mgtq := true, outs := true, events := true } s t) ∧
    (r.body = .chThaw k x → (s.chan c).thaw = true → c < 64 → ∃ t, exec (.channelTrainingComplete c true) s = .next t ∧
      (t.chan c).frozen = false ∧ (t.chan c).trained = true ∧ t.mgt.running = [] ∧ t.mgt.thawed = s.mgt.thawed ++ [c] ∧
      ∀ set, nmcOf s.part (sliceOfSet s.part set) = c → t.nearTags set = {}) ∧
    (r.body = .chThaw k x → (s.chan c).thaw = true → ∃ t, exec (.channelTrainingComplete c false) s = .next t ∧
      (t.chan c).frozen = (s.chan c).frozen ∧ (t.chan c).trained = false ∧ t.mgt.running = [] ∧
      t.outs = s.outs ++ [.mctp e Config.vendorId (replyBytes 0x0310 r.hdr 12 [])] ∧
      Only { chans := true, mgtq := true, outs := true, events := true } s t))

/-- In a lull, with MT locked, a channel starts segment 1 once nothing queued from before the lull is left there; one that does not fit
before the lull's end is deferred and counted. While such an access is queued, or without lock, nothing starts. When segment 1 ends no
neighbour action is pending and, at the first lull, every count is 0, the tables are fresh no longer, and no refresh is owed. When
segment 2 ends well the failure count is 0; when it ends badly the count rises, and the third failure freezes a far channel with cause
3. Segment 3 decodes the next page of the page-code scrub, which moves on; with no page to scrub it does nothing. Segment 4 performs a
directory bank's oldest pending sweep step: where it meets no entry of an unused STATE, no entry of its cache is dirty then, and its
pointer advances. -/
def Obligations.LullWork : Prop :=
  (∀ (s : State) (c : Nat), s.chanServes c = true → s.mtu.inLull = true → (s.chan c).lull.next = 1 →
    (s.locked = false → exec (.lullSegmentStart c) s = .next s) ∧
    (((s.cunit c 0).all ++ (s.cunit c 1).all).any (·.pre) = true → exec (.lullSegmentStart c) s = .next s) ∧
    (s.locked = true → ((s.cunit c 0).all ++ (s.cunit c 1).all).any (·.pre) = false → s.hreqs = [] → s.mtu.lullTrks = [] →
      (s.mtu.mt + (if c < 64 then 900 else 1000) ≤ (s.mtu.lullBeat + s.mtu.lullWidth) * 1024 →
        ∃ t, exec (.lullSegmentStart c) s = .next t ∧ (t.chan c).lull.cur = some 1 ∧ Only { chans := true } s t) ∧
      ((s.mtu.lullBeat + s.mtu.lullWidth) * 1024 < s.mtu.mt + (if c < 64 then 900 else 1000) → s.mtu.lullArg = 0 →
        ∃ t, exec (.lullSegmentStart c) s = .next t ∧ (t.chan c).lull.cur = none ∧ (t.chan c).lull.next = 5 ∧
        t.mtu = { s.mtu with deferred := satAdd 0xFFFF s.mtu.deferred 1 } ∧ Only { chans := true, mtu := true } s t))) ∧
  (∀ (s : State) (c : Nat) (ok : Bool) (errs : List (Nat × ArrErr)), s.powered = true → s.chanPresent c = true →
    ((s.chan c).lull.cur = none → exec (.lullSegmentDone c ok errs) s = .next s) ∧
    ((s.chan c).lull.cur = some 1 → ∃ t, exec (.lullSegmentDone c ok errs) s = .next t ∧ (t.chan c).lull.cur = none ∧ (t.chan c).lull.next = 2 ∧
      (t.chan c).lull.owed = 0 ∧ (∀ (u b : Nat) (e : ActEnt), u < 2 → e ∈ ((t.cunit c u).bank b).tbl →
        (s.rdEn c = true → e.pend = false) ∧ ((s.chan c).fresh = true → e.cnt = 0)) ∧ (t.chan c).fresh = false ∧
      Only { chans := true, events := true } s t) ∧
    ((s.chan c).lull.cur = some 2 → ok = true → ∃ t, exec (.lullSegmentDone c ok errs) s = .next t ∧ (t.chan c).retrainFails = 0 ∧
      (t.chan c).lull.next = 3 ∧ (t.chan c).frozen = (s.chan c).frozen ∧ Only { chans := true } s t) ∧
    ((s.chan c).lull.cur = some 2 → ok = false → (s.chan c).retrainFails < 2 → ∃ t, exec (.lullSegmentDone c ok errs) s = .next t ∧
      (t.chan c).retrainFails = (s.chan c).retrainFails + 1 ∧ (t.chan c).frozen = (s.chan c).frozen ∧ t.dom = s.dom) ∧
    ((s.chan c).lull.cur = some 2 → ok = false → (s.chan c).retrainFails = 2 → 64 ≤ c → (∀ n < 64, (s.slice n).vbs = []) → ∃ t, exec (.lullSegmentDone c ok errs) s = .next t ∧
      (t.chan c).frozen = true ∧ (t.chan c).cause = 3 ∧ t.dom = s.dom) ∧
    ((s.chan c).lull.cur = some 3 → errs = [] → ∃ t, exec (.lullSegmentDone c ok errs) s = .next t ∧ (t.chan c).lull.next = 3 ∧
      (∀ p, s.pgcNext = some p → t.ras = { s.ras with pgcScrub := p + 1 }) ∧ (s.pgcNext = none → t.ras = s.ras) ∧
      Only { chans := true, ras := true } s t) ∧
    (∀ (b k : Nat) (rest : List Nat), (s.chan c).lull.cur = some 4 → (s.banksOf c).find? (fun b => !(s.bank b).sweepDue.isEmpty) = some b →
      (s.bank b).sweepDue = k :: rest → errs = [] → s.ras.latent = [] → (∀ set, (s.bank b).badSet set = false) →
      ∃ t, exec (.lullSegmentDone c ok errs) s = .next t ∧ (t.bank b).sweepDue = rest ∧
      (t.bank b).sweepPtr = ((s.bank b).sweepPtr + k) % (s.dirGib * 2 ^ 17) ∧
      (∀ j e, Tab.get none (t.bank b).dc j = some e → e.dirty = false) ∧ (∀ j, j ≠ b → t.bank j = s.bank j) ∧
      Only { chans := true, banks := true, slices := true, near := true, memIo := true, events := true, trc := true, trcCfg := true, ledger := true, bkt := true,
             irq := true, pba := true, outs := true, flip := true, free := true, due := true } s t))

/-- An enabled porter with fewer than 8 fetched descriptors takes the first cell of its queue's current item as the descriptor that takes
the next number, and the whole item leaves the queue; an item of several cells, or one that is a record of the porter's own, gives a
descriptor that is refused; with EN 0, while halted, in a guard or lull, or from an empty queue it fetches nothing. A cell with an
uncorrectable error gives a descriptor that, once active, ends DATA_ERR and halts the porter. An eligible fetched descriptor becomes
active; one that R362 refuses ends INVALID with a record and no access; a NOP without CREC ends DONE without one. While halted or with
four active descriptors none is activated. The record holds SEQ, the status, the operation, the porter and the end time, and the TOKEN
unless it is an ATOMIC's. A held record that is due is offered again outside guards and lulls, and not sooner. Writing EN to 0 clears it
and changes nothing else. -/
def Obligations.PorterDescriptors : Prop :=
  (∀ (s : State) (p c : Nat) (cs : List Nat) (fd : Finds), s.porOn p = true →
    (fd.way = [] → s.ras.latent = [] → s.porEn p = true → (s.por p).halted = false → s.inPause = false → (s.por p).fetched.length < 8 →
      itemCells (s.qmg.chain (s.porDq p)) = c :: cs → ∃ t, exec (.porterFetch p [] fd) s = .next t ∧
      (t.por p).descs = (s.por p).descs ++
        [descOf (s.por p).seqNext.toNat (Tab.get 0 s.qmg.cells c)
          (decide (1 < (s.qent (s.porDq p)).curLen) || Tab.get 0 s.qmg.recCells c == p + 1)] ∧
      (t.por p).seqNext = (s.por p).seqNext + 1 ∧ (t.qent (s.porDq p)).items = (s.qent (s.porDq p)).items - 1 ∧
      (t.qent (s.porDq p)).count = (s.qent (s.porDq p)).count - (cs.length + 1) ∧ t.qmg.free = s.qmg.free ++ c :: cs ∧
      Only { pors := true, qmg := true, free := true, due := true, chans := true, memIo := true, events := true, trc := true, trcCfg := true, ledger := true, bkt := true, flip := true, irq := true, pba := true, outs := true } s t) ∧
    (fd.way = [.ue] → s.ras.latent = [] → NoMerges s → s.porEn p = true → (s.por p).halted = false → s.inPause = false → (s.por p).fetched.length < 8 →
      itemCells (s.qmg.chain (s.porDq p)) = c :: cs → ∃ (t : State) (d : Desc), exec (.porterFetch p [] fd) s = .next t ∧
      (t.por p).descs = (s.por p).descs ++ [d] ∧ d.seq = (s.por p).seqNext.toNat ∧ d.lost = true ∧ t.qmg.free = s.qmg.free ++ c :: cs) ∧
    (s.porEn p = false ∨ (s.por p).halted = true ∨ s.inPause = true ∨ (s.qent (s.porDq p)).count = 0 →
      exec (.porterFetch p [] fd) s = .next (s.noted fd))) ∧
  (∀ (s : State) (p : Nat) (d : Desc), s.porOn p = true → (s.por p).halted = false → (s.por p).descs = [d] → (s.por p).held = [] →
    (s.por p).acqs = [] → d.active = false → d.ended = false → d.stat = none → d.acquire = false → d.rdOut = 0 → d.wrOut = 0 →
    (d.lost = false → d.bad = true → s.inPause = false → ∃ (t : State) (h : HeldRec), exec (.porterActivate p) s = .next t ∧ (t.por p).descs = [] ∧
      (t.por p).held = [h] ∧ h.seq = d.seq ∧ h.q = d.cq ∧ bits h.cell.toNat 96 8 = 6 ∧ bits h.cell.toNat 128 40 = d.bytes % 2 ^ 40 ∧
      t.qmg.offers = s.qmg.offers ++ [{ who := .porter p d.seq, q := d.cq, cells := [h.cell], at_ := s.clk }] ∧
      Only { pors := true, qmg := true, events := true } s t) ∧
    (d.lost = false → d.bad = false → d.opc = 0 → d.wrAt = 0 → d.note = 0 → d.crec = false → d.irq = false → ∃ t, exec (.porterActivate p) s = .next t ∧
      (t.por p).descs = [] ∧ (t.por p).held = [] ∧ Only { pors := true, events := true } s t) ∧
    (d.lost = true → d.note = 0 → s.inPause = false → ∃ (t : State) (h : HeldRec), exec (.porterActivate p) s = .next t ∧ (t.por p).descs = [] ∧
      (t.por p).halted = true ∧ (t.por p).haltCause = 3 ∧ (t.por p).held = [h] ∧ h.seq = d.seq ∧ bits h.cell.toNat 96 8 = 3 ∧ t.accs = s.accs) ∧
    (d.lost = false → d.bad = false → d.wrAt < d.total → ∃ t, exec (.porterActivate p) s = .next t ∧ (t.por p).descs = [{ d with active := true }] ∧
      (t.por p).held = [] ∧ Only { pors := true } s t)) ∧
  (∀ (s : State) (p : Nat), (s.por p).halted = true ∨ 4 ≤ (s.por p).active.length → exec (.porterActivate p) s = .next s) ∧
  (∀ (d : Desc) (p st : Nat), d.stat = some st → st < 16 → bits (d.record p).toNat 96 8 = st ∧ bits (d.record p).toNat 64 32 = d.seq % 2 ^ 32 ∧
    bits (d.record p).toNat 104 8 = d.opc % 2 ^ 8 ∧ bits (d.record p).toNat 112 8 = p % 2 ^ 8 ∧ bits (d.record p).toNat 192 64 = d.endMt % 2 ^ 64 ∧
    (d.opc ≠ 7 → bits (d.record p).toNat 0 64 = d.token.toNat)) ∧
  (∀ (s : State) (p : Nat) (h : HeldRec), s.porOn p = true → (s.por p).held = [h] → h.offered = false →
    (s.inPause = false → h.at_ ≤ s.clk → ∃ t, exec (.recordRetry p) s = .next t ∧ (t.por p).held = [{ h with offered := true }] ∧
      t.qmg.offers = s.qmg.offers ++ [{ who := .porter p h.seq, q := h.q, cells := [h.cell], at_ := s.clk }] ∧
      Only { pors := true, qmg := true } s t) ∧
    (s.inPause = true ∨ s.clk < h.at_ → exec (.recordRetry p) s = .next s)) ∧
  (∀ (s : State) (l p : Nat), s.linkOn l = true → s.porOn p = true → ∃ t, exec (.porterDisable l p) s = .next t ∧ t.porEn p = false ∧
    t.porDq p = s.porDq p ∧ t.porLink p = s.porLink p ∧ (∀ o, o ≠ offPor p 0 → t.csrGet o = s.csrGet o) ∧ Only { csr := true } s t)

/-- A porter with one active descriptor issues one piece: the write of a fill or the read of a copy, at the flat line or the line that its
translation gives, as long as the line and the stream allow; in a guard or lull, or halted, none. The answer to the last piece of a
descriptor with CREC ends it DONE, with a record offered to its queue. A read's answer is kept byte by byte for the writes. A failed
piece ends the descriptor with its status; poison read ends it DATA_ERR and halts the porter. A notification refused FULL or POOL is
sent again after 1,024 ns, and not sooner. An accepting answer ends a put DONE, DOMAIN_DOWN ends it so, and one from another node
changes nothing of it. -/
def Obligations.PorterPieces : Prop :=
  (∀ (s : State) (p : Nat) (d : Desc) (fd : Finds), s.porOn p = true → (s.por p).halted = false → (s.por p).descs = [d] → d.active = true → d.ended = false →
    d.stat = none → d.bad = false →
    (s.inPause = true → exec (.pieceIssue p fd) s = .next (s.noted fd)) ∧
    (s.inPause = false → d.opc = 2 → d.wrAt = 0 → 0 < d.len → d.xdst = false →
      (d.dstFlat = true → d.dst / 64 < s.flatOpen * s.part.sets → ∃ (t : State) (r : Req) (q : Piece), exec (.pieceIssue p fd) s = .next t ∧
        Arrives (sliceOfSet s.part (flatSlot s.part s.houseWays (d.dst / 64)).1) r s t ∧ r.kind = .write ∧ r.flat = true ∧ r.la = d.dst / 64 ∧
        r.be = beOf (d.dst % 64) (min (64 - d.dst % 64) d.len) ∧ (t.por p).pieces = (s.por p).pieces ++ [q] ∧ q.seq = d.seq ∧ q.wr = true ∧
        q.at_ = 0 ∧ q.len = min (64 - d.dst % 64) d.len ∧ (∀ i < q.len, bits r.data.toNat (8 * (d.dst % 64 + i)) 8 = bits d.w7.toNat (8 * (i % 8)) 8) ∧
        (t.por p).descs.map (fun d => (d.wrAt, d.wrOut)) = [(q.len, d.wrOut + 1)]) ∧
      (∀ e : TlbEnt, d.dstFlat = false → d.trDst = some e → e.covers d.ctx d.dst = true → s.young d.ctx e.beat = true →
        laNode ((e.ma + d.dst % 2 ^ e.p) / 64) = s.nodeNo → ∃ (t : State) (r : Req), exec (.pieceIssue p fd) s = .next t ∧
        Arrives (sliceOf ((e.ma + d.dst % 2 ^ e.p) / 64)) r s t ∧ r.kind = .write ∧ r.flat = false ∧ r.la = (e.ma + d.dst % 2 ^ e.p) / 64 ∧
        r.be = beOf (d.dst % 64) (min (64 - d.dst % 64) d.len))) ∧
    (s.inPause = false → d.opc = 1 → d.rdAt = 0 → d.wrAt = 0 → 0 < d.len → d.have_ = [] → d.xsrc = false → d.srcFlat = true →
      d.src / 64 < s.flatOpen * s.part.sets → ∃ (t : State) (r : Req) (q : Piece), exec (.pieceIssue p fd) s = .next t ∧
        Arrives (sliceOfSet s.part (flatSlot s.part s.houseWays (d.src / 64)).1) r s t ∧ r.kind = .read ∧ r.flat = true ∧ r.la = d.src / 64 ∧
        (t.por p).pieces = (s.por p).pieces ++ [q] ∧ q.wr = false ∧ q.at_ = 0 ∧ q.len = min (64 - d.src % 64) d.len ∧
        (t.por p).descs.map (fun d => (d.rdAt, d.rdOut)) = [(q.len, d.rdOut + 1)])) ∧
  (∀ (s : State) (p : Nat) (d : Desc) (q : Piece) (v : Line) (x : Bool) (code : Nat), s.porOn p = true → (s.por p).descs = [d] →
    (s.por p).pieces = [q] → (s.por p).held = [] → (s.por p).halted = false → q.seq = d.seq → q.got = some (v, x, code) → d.active = true →
    d.ended = false → d.stat = none → d.note = 0 → d.acquire = false → d.irq = false → s.inPause = false →
    (q.wr = true → code = 0 → d.opc = 1 → d.wrOut = 1 → d.rdOut = 0 → d.wrAt = d.total → d.crec = true →
      ∃ (t : State) (h : HeldRec), exec (.pieceResponse p q.pid) s = .next t ∧ (t.por p).descs = [] ∧ (t.por p).pieces = [] ∧
      (t.por p).held = [h] ∧ h.seq = d.seq ∧ h.q = d.cq ∧ bits h.cell.toNat 96 8 = 0 ∧ bits h.cell.toNat 128 40 = (d.bytes + q.len) % 2 ^ 40 ∧
      t.qmg.offers = s.qmg.offers ++ [{ who := .porter p d.seq, q := d.cq, cells := [h.cell], at_ := s.clk }]) ∧
    (q.wr = false → code = 0 → x = false → d.opc = 1 → d.wrAt < d.total → d.bad = false → ∃ (t : State) (e : Desc), exec (.pieceResponse p q.pid) s = .next t ∧
      (t.por p).descs = [e] ∧ (t.por p).pieces = [] ∧ e.rdOut = d.rdOut - 1 ∧ e.bytes = (d.bytes + q.len) % 2 ^ 40 ∧
      (∀ i < q.len, Memory.read8 e.buf (q.at_ + i) = BitVec.ofNat 8 (v.toNat / 2 ^ (8 * (q.lo + i))) ∧ Tab.get false e.have_ (q.at_ + i) = true) ∧
      Only { pors := true } s t) ∧
    (q.wr = false → code = 0 → x = true → d.opc = 1 → d.rdOut = 1 → d.wrOut = 0 → ∃ (t : State) (h : HeldRec),
      exec (.pieceResponse p q.pid) s = .next t ∧ (t.por p).halted = true ∧ (t.por p).haltCause = 3 ∧ (t.por p).descs = [] ∧
      (t.por p).held = [h] ∧ bits h.cell.toNat 96 8 = 3 ∧ bits h.cell.toNat 256 64 = q.va % 2 ^ 64 ∧ t.mem = s.mem) ∧
    (code = 4 → d.opc = 1 → d.rdOut + d.wrOut = 1 → (q.wr = true ↔ d.wrOut = 1) → ∃ (t : State) (h : HeldRec), exec (.pieceResponse p q.pid) s = .next t ∧
      (t.por p).halted = false ∧ (t.por p).descs = [] ∧ (t.por p).held = [h] ∧ bits h.cell.toNat 96 8 = 4 ∧
      bits h.cell.toNat 336 16 = q.node % 2 ^ 16)) ∧
  (∀ (s : State) (p : Nat) (d : Desc), s.porOn p = true → (s.por p).descs = [d] → d.ended = false → d.note = 3 →
    (s.clk < d.noteAt + 2048 → exec (.notifyRetry p d.seq) s = .next s) ∧
    (d.noteAt + 2048 ≤ s.clk → d.tnode = s.nodeNo → ∃ t, exec (.notifyRetry p d.seq) s = .next t ∧
      t.qmg.offers = s.qmg.offers ++ [{ who := .notify p d.seq, q := d.tq, cells := [d.notice s.nodeNo p], at_ := s.clk }] ∧
      (t.por p).descs.map (·.note) = [2] ∧ Only { pors := true, qmg := true } s t) ∧
    (d.noteAt + 2048 ≤ s.clk → d.tnode ≠ s.nodeNo → s.boot.level = 3 → s.unreachable d.tnode = false → s.dom.st ≠ 3 →
      ∃ t, exec (.notifyRetry p d.seq) s = .next t ∧ Sends [(d.tnode, .put d.tq p d.seq (d.notice s.nodeNo p))] s t ∧
      (t.por p).descs.map (·.note) = [2] ∧ Only { pors := true, rtrTx := true } s t)) ∧
  (∀ (s : State) (p src : Nat) (d : Desc), s.porOn p = true → (s.por p).descs = [d] → (s.por p).held = [] → d.ended = false → d.note = 2 →
    d.stat = none → d.crec = false → d.irq = false → s.inPause = false →
    (d.tnode = src → ∃ t, exec (.putAnswer src p d.seq 0) s = .next t ∧ (t.por p).descs = [] ∧ (t.por p).held = [] ∧
      Only { pors := true, rtrRx := true, events := true } s t) ∧
    (d.tnode = src → ∃ t, exec (.putAnswer src p d.seq 1) s = .next t ∧ (t.por p).descs = [{ d with note := 3, noteAt := s.clk }] ∧
      Only { pors := true, rtrRx := true } s t) ∧
    (d.tnode = src → ∃ (t : State) (h : HeldRec), exec (.putAnswer src p d.seq 5) s = .next t ∧ (t.por p).descs = [] ∧
      (t.por p).held = [h] ∧ bits h.cell.toNat 96 8 = 5) ∧
    (d.tnode ≠ src → ∃ t, exec (.putAnswer src p d.seq 0) s = .next t ∧ Only { rtrRx := true } s t))

/-- An abort of a fetched descriptor ends it ABORTED with a record and no access; an abort of an active one with pieces out fixes ABORTED as
its status, and it ends when they are done; with none out it ends at once; a status that a failure has fixed stands. An attempt in
flight is waited for. An abort of a number the porter does not have changes nothing. ABORT_ALL does the same to every descriptor. RESUME
leaves HALTED and keeps the fetched descriptors. Each leaves memory as it was. -/
def Obligations.PorterAborts : Prop :=
  (∀ (s : State) (l p : Nat) (q : BitVec 32), s.linkOn l = true → s.porOn p = true →
    ((∀ d ∈ (s.por p).descs, d.seq ≠ q.toNat) → exec (.abortOne l p q) s = .next s) ∧
    (∀ d : Desc, (s.por p).descs = [d] → d.seq = q.toNat → d.ended = false → (s.por p).held = [] → d.irq = false → s.inPause = false →
      d.acquire = false →
      (d.active = false → d.stat = none → ∃ (t : State) (h : HeldRec), exec (.abortOne l p q) s = .next t ∧ (t.por p).descs = [] ∧
        (t.por p).held = [h] ∧ h.seq = d.seq ∧ h.q = d.cq ∧ bits h.cell.toNat 96 8 = 1 ∧ t.accs = s.accs ∧
        Only { pors := true, qmg := true, events := true } s t) ∧
      (d.active = true → d.note ≠ 2 → 0 < d.out → d.stat = none → ∃ t, exec (.abortOne l p q) s = .next t ∧
        (t.por p).descs = [{ d with note := 0, stat := some 1 }] ∧ (t.por p).held = [] ∧ Only { pors := true } s t) ∧
      (d.active = true → d.note ≠ 2 → 0 < d.out → ∀ st, d.stat = some st → ∃ t, exec (.abortOne l p q) s = .next t ∧
        (t.por p).descs = [{ d with note := 0 }] ∧ Only { pors := true } s t) ∧
      (d.active = true → d.note ≠ 2 → d.out = 0 → d.stat = none → ∃ (t : State) (h : HeldRec), exec (.abortOne l p q) s = .next t ∧
        (t.por p).descs = [] ∧ (t.por p).held = [h] ∧ bits h.cell.toNat 96 8 = 1 ∧ Only { pors := true, qmg := true, events := true } s t) ∧
      (d.active = true → d.note = 2 → d.out = 0 → d.stat = none → ∃ t, exec (.abortOne l p q) s = .next t ∧
        (t.por p).descs = [{ d with stat := some 1 }] ∧ (t.por p).held = [] ∧ Only { pors := true } s t))) ∧
  (∀ (s : State) (l p : Nat) (d e : Desc), s.linkOn l = true → s.porOn p = true → (s.por p).descs = [d, e] → d.seq ≠ e.seq →
    (s.por p).held = [] → s.inPause = false → d.ended = false → e.ended = false → d.active = true → e.active = false → d.note ≠ 2 →
    0 < d.out → d.stat = none → e.stat = none → d.acquire = false → e.acquire = false → e.irq = false →
    ∃ (t : State) (h : HeldRec), exec (.abortAll l p) s = .next t ∧ (t.por p).descs = [{ d with note := 0, stat := some 1 }] ∧
      (t.por p).held = [h] ∧ h.seq = e.seq ∧ bits h.cell.toNat 96 8 = 1 ∧ Only { pors := true, qmg := true, events := true } s t) ∧
  (∀ (s : State) (l p : Nat), s.linkOn l = true → s.porOn p = true → ∃ t, exec (.resume l p) s = .next t ∧
    t.por p = { s.por p with halted := false, haltCause := 0 } ∧ (∀ k, k ≠ p → t.por k = s.por k) ∧ Only { pors := true } s t)

/-- A fabric notification is offered to a queue whose FABRIC field admits the sender, and otherwise answered 6, or 5 while the domain is
DOWN. A PUSH offers the first n cells of the slot's stage. An item that fits a REFUSE queue is linked with COUNT and ITEMS raised; a
one-cell item in an empty queue is its whole chain, and NMODE 1 signals it. A full REFUSE queue answers FULL and counts; one with EN at
0 answers DISABLED. A full OVERWRITE queue drops its oldest item, counts it as lost, and takes the new one. A doorbell gets the push
status word; a porter's accepted record is held no more, and one refused FULL is offered again after 2,048 clocks. The codes of the
arrays find nothing at the house lines that the item's cells and links take, and no injected error stands. -/
def Obligations.QueueEnqueues : Prop :=
  (∀ (s : State) (src q p n : Nat) (c : Line), s.powered = true →
    (s.dom.st ≠ 3 → s.dom.nack = false → (s.qent q).fabric = 2 ∨ (s.qent q).fabric = 1 ∧ src / 128 = s.ownDomain →
      ∃ t, exec (.queuePut src q p n c) s = .next t ∧
      t.qmg = { s.qmg with offers := s.qmg.offers ++ [{ who := .fabric src p n, q := q, cells := [c], at_ := s.clk }] } ∧
      Only { qmg := true, rtrRx := true } s t) ∧
    (s.dom.st ≠ 3 → s.dom.nack = false → (s.qent q).fabric = 0 ∨ (s.qent q).fabric = 1 ∧ src / 128 ≠ s.ownDomain →
      ∃ t, exec (.queuePut src q p n c) s = .next t ∧ Sends [(src, .putAnswer p n 6)] s t ∧ Only { rtrTx := true, rtrRx := true } s t) ∧
    (s.dom.st = 3 → ∃ t, exec (.queuePut src q p n c) s = .next t ∧ Sends [(src, .putAnswer p n 5)] s t ∧
      Only { rtrTx := true, rtrRx := true } s t)) ∧
  (∀ (s : State) (l k n z : Nat), s.linkOn l = true → k < 64 → ∃ t, exec (.push l k n z) s = .next t ∧
    t.qmg.offers = s.qmg.offers ++
      [⟨.slot l k z, s.slotQueue k, (List.range n).map (fun i => Memory.readLine s.qmg.stage (4096 * k + 64 * i)), s.clk⟩] ∧ Only { qmg := true } s t) ∧
  (∀ (s : State) (l k : Nat) (o : QOffer) (fd : Finds), fd.way = [] → s.ras.latent = [] → s.powered = true → s.linkOn l = true → s.qmg.offers = [o] → o.who = .slot l k 8 → o.cells ≠ [] →
    ((s.qent o.q).en = true → (s.qent o.q).err = false → (s.qent o.q).mode = 0 → (s.qent o.q).nmode = 0 →
      (s.qent o.q).count + o.cells.length ≤ (s.qent o.q).cap → o.cells.length ≤ s.qmg.freeCells → ∃ t, exec (.enqueue [] [] fd) s = .next t ∧
      t.outs = (s.noted fd).outs ++ [.ioData l 0] ∧ (t.qent o.q).count = (s.qent o.q).count + o.cells.length ∧
      (t.qent o.q).items = (s.qent o.q).items + 1 ∧ t.qmg.offers = [] ∧ t.qmg.freeCells = s.qmg.freeCells - o.cells.length ∧
      Only { qmg := true, free := true, chans := true, memIo := true, events := true, trc := true, trcCfg := true, ledger := true, bkt := true, flip := true, irq := true, pba := true, outs := true, due := true } s t) ∧
    (∀ (c : Nat) (cell : Line) (rest : List Nat), o.cells = [cell] → s.qmg.free = c :: rest → (s.qent o.q).en = true → (s.qent o.q).err = false →
      (s.qent o.q).mode = 0 → (s.qent o.q).count = 0 → (s.qent o.q).items = 0 → (s.qent o.q).nmode = 1 → 96 ≤ (s.qent o.q).nvec →
      s.linkExists (s.qent o.q).nlink = true → s.masked (s.qent o.q).nlink (s.qent o.q).nvec = false → ∃ t, exec (.enqueue [] [] fd) s = .next t ∧
      t.qmg.chain o.q = [(c, true)] ∧ Tab.get 0 t.qmg.cells c = cell ∧ t.qmg.free = rest ∧ (t.qent o.q).curLen = 1 ∧ (t.qent o.q).curOff = 0 ∧
      t.outs = (s.noted fd).outs ++ [.msix (s.qent o.q).nlink (s.qent o.q).nvec, .ioData l 0]) ∧
    ((s.qent o.q).en = true → (s.qent o.q).err = false → (s.qent o.q).mode = 0 → (s.qent o.q).cap < (s.qent o.q).count + o.cells.length →
      ∃ t, exec (.enqueue [] [] fd) s = .next t ∧ t.outs = (s.noted fd).outs ++ [.ioData l 1] ∧ t.qmg.links = s.qmg.links ∧ t.qmg.cells = s.qmg.cells ∧
      t.qent o.q = { s.qent o.q with refused := satAdd 0xFFFFFFFF (s.qent o.q).refused 1 } ∧ Only { qmg := true, events := true, trc := true, trcCfg := true, ledger := true, bkt := true, irq := true, pba := true, outs := true, due := true } s t) ∧
    ((s.qent o.q).en = false → ∃ t, exec (.enqueue [] [] fd) s = .next t ∧ t.outs = (s.noted fd).outs ++ [.ioData l 3] ∧
      t.qent o.q = { s.qent o.q with refused := satAdd 0xFFFFFFFF (s.qent o.q).refused 1 } ∧ Only { qmg := true, events := true, trc := true, trcCfg := true, ledger := true, bkt := true, irq := true, pba := true, outs := true, due := true } s t) ∧
    (∀ (c : Nat) (cell : Line), o.cells = [cell] → (s.qent o.q).en = true → (s.qent o.q).err = false → (s.qent o.q).mode = 1 →
      (s.qent o.q).nmode = 0 → (s.qent o.q).count = (s.qent o.q).cap → (s.qent o.q).items ≠ 0 → itemCells (s.qmg.chain o.q) = [c] →
      (s.qent o.q).curOff = 0 → ∃ t, exec (.enqueue [] [] fd) s = .next t ∧ t.outs = (s.noted fd).outs ++ [.ioData l 0x10000] ∧
      (t.qent o.q).count = (s.qent o.q).count ∧ (t.qent o.q).items = (s.qent o.q).items ∧
      (t.qent o.q).lost = satAdd 0xFFFFFFFF (s.qent o.q).lost 1 ∧ (t.qent o.q).torn = (s.qent o.q).torn)) ∧
  (∀ (s : State) (p : Nat) (h : HeldRec) (o : QOffer) (fd : Finds), fd.way = [] → s.ras.latent = [] → s.powered = true → p < s.part.porters → (s.por p).held = [h] → (s.por p).descs = [] →
    h.irq = false → s.qmg.offers = [o] → o.who = .porter p h.seq → o.cells = [h.cell] → (s.qent o.q).en = true → (s.qent o.q).err = false →
    (s.qent o.q).mode = 0 →
    ((s.qent o.q).count + 1 ≤ (s.qent o.q).cap → 1 ≤ s.qmg.freeCells → (s.qent o.q).nmode = 0 → ∃ t, exec (.enqueue [] [] fd) s = .next t ∧
      (t.por p).held = [] ∧ (t.qent o.q).count = (s.qent o.q).count + 1 ∧ Only { qmg := true, pors := true, free := true, chans := true, memIo := true, events := true, trc := true, trcCfg := true, ledger := true, bkt := true, flip := true, irq := true, pba := true, outs := true, due := true } s t) ∧
    ((s.qent o.q).cap < (s.qent o.q).count + 1 → ∃ t, exec (.enqueue [] [] fd) s = .next t ∧
      (t.por p).held = [{ h with offered := false, refused := true, at_ := s.clk + 2048 }] ∧ (t.qent o.q).count = (s.qent o.q).count ∧
      Only { qmg := true, pors := true, events := true, trc := true, trcCfg := true, ledger := true, bkt := true, irq := true, pba := true, outs := true, due := true } s t))

/-- ADVANCE removes as many cells as ADV says, never beyond the current item: with cells of the item left it moves CUR_OFF, and when the
item is used up the next is current with CUR_OFF 0. DROP-PACKET removes the rest of the item, FLUSH every cell of the queue. The cells
join the free list behind those in it, and LOST does not change. On an empty queue none changes anything but the counts of corrected
errors. The codes of the arrays find nothing at the link words, and no injected error stands. CLEAR sets LOST, REFUSED and TORN to 0;
writing EN to 0 keeps the contents. Records held for the queue may be offered again at once. -/
def Obligations.QueueConsumers : Prop :=
  (∀ (s : State) (l k : Nat) (v : BitVec 7) (fd : Finds), fd.way = [] → s.ras.latent = [] → s.linkOn l = true →
    ((s.qent (s.slotQueue k)).count = 0 → exec (.advance l k v [] fd) s = .next (s.noted fd) ∧
      exec (.dropPacket l k [] fd) s = .next (s.noted fd) ∧ exec (.queueFlush l k [] fd) s = .next (s.noted fd)) ∧
    ((s.qent (s.slotQueue k)).count ≠ 0 →
      ((if v = 0 then 1 else min 64 v.toNat) < (itemCells (s.qmg.chain (s.slotQueue k))).length → ∃ t, exec (.advance l k v [] fd) s = .next t ∧
        (t.qent (s.slotQueue k)).count = (s.qent (s.slotQueue k)).count - (if v = 0 then 1 else min 64 v.toNat) ∧
        (t.qent (s.slotQueue k)).curOff = (s.qent (s.slotQueue k)).curOff + (if v = 0 then 1 else min 64 v.toNat) ∧
        (t.qent (s.slotQueue k)).items = (s.qent (s.slotQueue k)).items ∧ (t.qent (s.slotQueue k)).lost = (s.qent (s.slotQueue k)).lost ∧
        t.qmg.free = s.qmg.free ++ (itemCells (s.qmg.chain (s.slotQueue k))).take (if v = 0 then 1 else min 64 v.toNat) ∧
        Only { qmg := true, pors := true, free := true, chans := true, memIo := true, events := true, trc := true, trcCfg := true, ledger := true, bkt := true, flip := true, irq := true, pba := true, outs := true, due := true } s t) ∧
      ((itemCells (s.qmg.chain (s.slotQueue k))).length ≤ (if v = 0 then 1 else min 64 v.toNat) → ∃ t, exec (.advance l k v [] fd) s = .next t ∧
        (t.qent (s.slotQueue k)).items = (s.qent (s.slotQueue k)).items - 1 ∧ (t.qent (s.slotQueue k)).curOff = 0 ∧
        t.qmg.free = s.qmg.free ++ itemCells (s.qmg.chain (s.slotQueue k)) ∧ Only { qmg := true, pors := true, free := true, chans := true, memIo := true, events := true, trc := true, trcCfg := true, ledger := true, bkt := true, flip := true, irq := true, pba := true, outs := true, due := true } s t) ∧
      (∃ t, exec (.dropPacket l k [] fd) s = .next t ∧
        (t.qent (s.slotQueue k)).count = (s.qent (s.slotQueue k)).count - (itemCells (s.qmg.chain (s.slotQueue k))).length ∧
        (t.qent (s.slotQueue k)).items = (s.qent (s.slotQueue k)).items - 1 ∧ (t.qent (s.slotQueue k)).curOff = 0 ∧
        (t.qent (s.slotQueue k)).lost = (s.qent (s.slotQueue k)).lost ∧ t.qmg.free = s.qmg.free ++ itemCells (s.qmg.chain (s.slotQueue k)) ∧
        (∀ q, q ≠ s.slotQueue k → t.qent q = s.qent q) ∧ Only { qmg := true, pors := true, free := true, chans := true, memIo := true, events := true, trc := true, trcCfg := true, ledger := true, bkt := true, flip := true, irq := true, pba := true, outs := true, due := true } s t) ∧
      (∃ t, exec (.queueFlush l k [] fd) s = .next t ∧ (t.qent (s.slotQueue k)).count = 0 ∧ (t.qent (s.slotQueue k)).items = 0 ∧
        (t.qent (s.slotQueue k)).lost = (s.qent (s.slotQueue k)).lost ∧ (t.qent (s.slotQueue k)).en = (s.qent (s.slotQueue k)).en ∧
        t.qmg.free = s.qmg.free ++ (s.qmg.chain (s.slotQueue k)).map (·.1) ∧ (∀ q, q ≠ s.slotQueue k → t.qent q = s.qent q) ∧
        (∀ p h, h ∈ (t.por p).held → h.q = s.slotQueue k → h.at_ = 0) ∧ Only { qmg := true, pors := true, free := true, chans := true, memIo := true, events := true, trc := true, trcCfg := true, ledger := true, bkt := true, flip := true, irq := true, pba := true, outs := true, due := true } s t)) ∧
    (∃ t, exec (.clear l k) s = .next t ∧ t.qent (s.slotQueue k) = { s.qent (s.slotQueue k) with lost := 0, refused := 0, torn := false } ∧
      (∀ q, q ≠ s.slotQueue k → t.qent q = s.qent q) ∧ Only { qmg := true } s t)) ∧
  (∀ (s : State) (l q : Nat), s.linkOn l = true → ∃ t, exec (.queueDisable l q) s = .next t ∧ t.qent q = { s.qent q with en := false } ∧
    (∀ r, r ≠ q → t.qent r = s.qent r) ∧ t.qmg.links = s.qmg.links ∧ t.qmg.cells = s.qmg.cells ∧ t.qmg.free = s.qmg.free ∧
    Only { qmg := true } s t)

/-- While RWL fields may be written, writing EN of a present region to 1 enables it and starts its initialisation; in SERVICE it changes
nothing. The pass ends with INIT 0: in each page's parity slot the first 4T bytes are the parity of the page's lines, or zero for an
unwritten page; nothing outside the slots changes (the slots' pages are written already, no injection stands and none is armed). While
INJ_EN is 1, writing 1 to ARM arms the injection; while it is 0, ARM stays as it was; the other fields take effect either way.
(pageParity is R394's code; the order of its symbols in the slot is the model's: notes/assumptions/6.md.) -/
def Obligations.PageCodesAndInjection : Prop :=
  (∀ (s : State) (l r : Nat), s.linkOn l = true → r < s.part.pgcRegions →
    (s.rwlOpen = true → ∃ t, exec (.pageCodeEnable l r) s = .next t ∧ t.csrGet (offRas (0x100 + 16 * r)) = s.csrGet (offRas (0x100 + 16 * r)) ||| 0x8000000000000000 ∧
      Tab.get false t.ras.pgcInit r = true ∧ (∀ o, o ≠ offRas (0x100 + 16 * r) → t.csrGet o = s.csrGet o) ∧
      (∀ k, k ≠ r → Tab.get false t.ras.pgcInit k = Tab.get false s.ras.pgcInit k) ∧ Only { csr := true, ras := true } s t) ∧
    (s.rwlOpen = false → exec (.pageCodeEnable l r) s = .next s)) ∧
  (∀ (s : State) (r : Nat), s.powered = true → r < s.part.pgcRegions →
    (Tab.get false s.ras.pgcInit r = false → exec (.pageCodeInitDone r) s = .next s) ∧
    (Tab.get false s.ras.pgcInit r = true → s.ras.latent = [] → s.ras.arm = false →
      (∀ k, k < s.pgcSize r / 4096 → s.zmapOn = true → Tab.get false s.mem.zmap ((s.pgcPBase r + 256 * k) / 4096) = true) →
      s.pgcPBase r + 256 * (s.pgcSize r / 4096) ≤ s.pgcBase r ∨ s.pgcBase r + s.pgcSize r ≤ s.pgcPBase r →
      ∃ t, exec (.pageCodeInitDone r) s = .next t ∧ Tab.get false t.ras.pgcInit r = false ∧
      (∀ k i, k < s.pgcSize r / 4096 → i < 4 * s.pgcT r → Memory.read8 t.mem.far (s.pgcPBase r + 256 * k + i) =
        if s.zmapOn && !Tab.get false s.mem.zmap (s.pgcBase r / 4096 + k) then 0
        else (pageParity (s.pgcT r) (s.pageLines (s.pgcBase r / 4096 + k))).getD i 0) ∧
      (∀ a, a < s.pgcPBase r ∨ s.pgcPBase r + 256 * (s.pgcSize r / 4096) ≤ a → Memory.read8 t.mem.far a = Memory.read8 s.mem.far a) ∧
      (∀ lo, Tab.get false t.mem.farPoison lo = Tab.get false s.mem.farPoison lo) ∧ t.mem.zmap = s.mem.zmap ∧
      Only { far := true, ras := true, free := true, chans := true, memIo := true, flip := true, events := true } s t)) ∧
  (∀ (s : State) (l : Nat) (v : Word), s.linkOn l = true →
    ∃ t, exec (.arm l v) s = .next t ∧ t.csrGet (offRas 0x10) = v &&& 0x00FF003F000007FF ∧
      (∀ o, o ≠ offRas 0x10 → t.csrGet o = s.csrGet o) ∧ (v.getLsbD 63 = true → s.injEn = true → t.ras.arm = true ∧ t.ras.flipAt = none) ∧
      (v.getLsbD 63 = false ∨ s.injEn = false → t.ras = s.ras) ∧ Only { csr := true, flip := true } s t)

/-- For every command: a wrong checksum is answered BAD_CHECKSUM, another version BAD_VERSION, an opcode outside Table 17.5 BAD_OPCODE, a
parameter length that is not the header's BAD_LENGTH; a device state that does not accept it BAD_STATE; a level below its own, or the
ROM for a group other than 01 and 08, LEVEL; a held conflict group or a full queue BUSY, as is a second command while one of the
endpoint waits. None of these changes anything but what is sent. Over the fabric the groups 08 and 0F are answered NOT_PERMITTED.
IDENTIFY and STATUS are answered with 41 and 57 bytes of what they report, over the mailbox, MCTP and the fabric alike. -/
def Obligations.CommandChecks : Prop :=
  (∀ (s : State) (h : CmdHdr) (b : CmdBody) (e : Nat), s.clerksOn = true → h.via = .mctp e → (∀ op ps, b = .other op ps → cmdInfo op.toNat = none) →
    ∀ k : Nat,
    (s.carrierBusy h.via = true ∧ k = 10) ∨ (s.carrierBusy h.via = false ∧
      ((hdrChk h = true ∧ h.checksum ≠ crc32c (hdrBytes (cmdOpc b) h 0 ++ cmdParams b) ∧ k = 1) ∨
       (hdrChk h = false ∧ h.version ≠ 1 ∧ k = 2) ∨
       (hdrChk h = false ∧ h.version = 1 ∧ cmdInfo (cmdOpc b) = none ∧ k = 3) ∨
       (hdrChk h = false ∧ h.version = 1 ∧ cmdInfo (cmdOpc b) ≠ none ∧ h.plen ≠ (cmdParams b).length ∧ k = 4) ∨
       (hdrCheck h b = 0 ∧ ∃ i, cmdInfo (cmdOpc b) = some i ∧
         ((s.devState = 0 ∧ i.bringup = false ∨ s.devState = 1 ∧ i.service = false ∨ s.devState = 2 ∧ i.maint = false) ∧ k = 6 ∨
          (s.devState = 0 ∧ i.bringup = true ∨ s.devState = 1 ∧ i.service = true ∨ s.devState = 2 ∧ i.maint = true) ∧
            (s.boot.fwRom = true ∧ cmdOpc b / 256 ≠ 1 ∧ cmdOpc b / 256 ≠ 8 ∨ s.boot.fwRom = false ∧ s.boot.level < i.level) ∧ k = 7)) ∨
       (hdrCheck h b = 0 ∧ s.stateCheck h (cmdOpc b) = 0 ∧ s.bodyCheck b = 0 ∧ (s.conflict b = true ∨ 16 ≤ s.mgt.queue.length) ∧ k = 10))) →
    exec (cmdInstr h b) s = .next { s with outs := s.outs ++ [.mctp e Config.vendorId (replyBytes (cmdOpc b) h k [])] }) ∧
  (∀ (s : State) (h : CmdHdr) (b : CmdBody) (n : Nat), s.clerksOn = true → h.via = .fabric n → s.rtr.enabled = true → s.fabricAllowed n = true →
    hdrCheck h b = 0 → cmdOpc b / 256 = 8 ∨ cmdOpc b / 256 = 15 → ∃ t, exec (cmdInstr h b) s = .next t ∧
      Sends [(n, .mgt { tag := h.tag.toNat, index := 0, count := 1, total := 16, body := replyBytes (cmdOpc b) h 5 [] })] s t ∧ Only { rtrTx := true } s t) ∧
  (∀ (s : State) (h : CmdHdr) (e : Nat),
    (Issued s h .identify e → ∃ t, exec (.identify h) s = .next t ∧ Replied h e 0x0101 0 s.identifyBytes s t ∧
      Only { mgtq := true, outs := true, events := true } s t) ∧
    (Issued s h .status e → ∃ t, exec (.status h) s = .next t ∧ Replied h e 0x0102 0 s.statusBytes s t ∧
      Only { mgtq := true, outs := true, events := true } s t)) ∧
  (∀ (s : State) (h : CmdHdr), ClerksFree s → hdrCheck h .status = 0 → hdrDry h = false → s.stateCheck h 0x0102 = 0 →
    (∀ l : Nat, h.via = .mailbox l → s.linkOn l = true → (s.link l).mboxBusy = false → s.masked l 0 = false → ∃ t, exec (.status h) s = .next t ∧
      t.outs = s.outs ++ [.mailbox l 0xC102 (replyBytes 0x0102 h 0 s.statusBytes), .msix l 0] ∧ (t.link l).mboxBusy = false ∧
      (t.link l).mboxReply = replyBytes 0x0102 h 0 s.statusBytes ∧ Only { mgtq := true, outs := true, events := true, links := true } s t) ∧
    (∀ n : Nat, h.via = .fabric n → s.rtr.enabled = true → s.fabricAllowed n = true → ∃ t, exec (.status h) s = .next t ∧
      Sends [(n, .mgt { tag := h.tag.toNat, index := 0, count := 1, total := 73, body := replyBytes 0x0102 h 0 s.statusBytes })] s t ∧
      Only { mgtq := true, rtrTx := true, events := true } s t)) ∧
  (∀ (s : State) (h : CmdHdr) (e : Nat) (op : BitVec 16) (ps : List Byte), s.clerksOn = true → h.via = .mctp e → s.carrierBusy h.via = false →
    hdrChk h = false → h.version = 1 → cmdInfo op.toNat = none →
    exec (.badOpcodeCommand h op ps) s = .next { s with outs := s.outs ++ [.mctp e Config.vendorId (replyBytes op.toNat h 3 [])] }) ∧
  (∀ s : State, s.identifyBytes.length = 41 ∧ s.statusBytes.length = 57 ∧ s.statusBytes.take 8 = leBytes 8 s.glbBoot.toNat ∧
    (s.identifyBytes.drop 16).take 5 = [Config.stepping, BitVec.ofNat 8 s.part.hostPorts, BitVec.ofNat 8 s.part.fabricPorts,
      BitVec.ofNat 8 s.part.porters, BitVec.ofNat 8 s.part.pgcRegions])

/-- Every command with DRY_RUN set that reaches the clerks is answered with the status that the checks of R433 give through step 10, in a
reply without payload; the commands queued and executing, and all else but what is sent and the mailbox's own registers, stay as they
were, so no group is held by it that was not held before. (The check of the header, of the state, of the instance and parameters, and of
conflicts is the model's State.cmdCheck, which takes them in R433's order.) (17_management_commands.md R436) -/
def Obligations.DryRunExecutesNothing : Prop :=
  ∀ (s : State) (h : CmdHdr) (b : CmdBody), s.clerksOn = true → s.carrierBusy h.via = false → hdrDry h = true →
    (∀ op ps, b = .other op ps → cmdInfo op.toNat = none) →
    (∀ l : Nat, h.via = .mailbox l → s.linkOn l = true → ∃ (t : State) (more : List Out), exec (cmdInstr h b) s = .next t ∧
      t.outs = s.outs ++ .mailbox l (0xC000 + cmdOpc b) (replyBytes (cmdOpc b) h (s.cmdCheck h b) []) :: more ∧ t.mgt = s.mgt ∧ (∀ g, t.groupHeld g = s.groupHeld g) ∧
      Only { outs := true, links := true, pba := true } s t) ∧
    (∀ e : Nat, h.via = .mctp e → exec (cmdInstr h b) s =
      .next { s with outs := s.outs ++ [.mctp e Config.vendorId (replyBytes (cmdOpc b) h (s.cmdCheck h b) [])] }) ∧
    (∀ n : Nat, h.via = .fabric n → s.rtr.enabled = true → s.fabricAllowed n = true → ∃ t, exec (cmdInstr h b) s = .next t ∧
      Sends [(n, .mgt { tag := h.tag.toNat, index := 0, count := 1, total := 16, body := replyBytes (cmdOpc b) h (s.cmdCheck h b) [] })] s t ∧
      t.mgt = s.mgt ∧ (∀ g, t.groupHeld g = s.groupHeld g) ∧ Only { rtrTx := true } s t)

/-- NODE_SET with a number up to 0x7FFF makes it the node number and is answered OK; a larger one is answered BAD_PARAM and leaves it.
SET_STATE enters the state it names, signals vector 1 and replies the previous state; SERVICE wakes every channel, and is entered once
all are awake; it is refused in HOLD or while a cache-mode change runs, and a state other than 1 and 2 is BAD_PARAM. TIME_SET with a
multiple of 2^24 stores it for the next mark; another value is BAD_PARAM. LEDGER_READ replies the records asked for, oldest first, and
BAD_PARAM for a count of 0 or above 128. LEDGER_CLEAR empties the ledger and replies how many records it held. -/
def Obligations.DeviceAndLedgerCommands : Prop :=
  (∀ (s : State) (h : CmdHdr) (e : Nat) (n : BitVec 16), Issued s h (.nodeSet n) e →
    (n.toNat ≤ 0x7FFF → ∃ t, exec (.nodeSet h n) s = .next t ∧ t.nodeNo = n.toNat ∧ t.boot = { s.boot with nodeSet := true } ∧
      Replied h e 0x0404 0 [] s t ∧ Only { node := true, boot := true, mgtq := true, outs := true, events := true } s t) ∧
    (0x7FFF < n.toNat → ∃ t, exec (.nodeSet h n) s = .next t ∧ t.nodeNo = s.nodeNo ∧ Replied h e 0x0404 9 [] s t ∧ Only { outs := true } s t)) ∧
  (∀ (s : State) (h : CmdHdr) (e : Nat) (v : BitVec 8), Issued s h (.setState v) e →
    (v = 1 → s.devState = 2 → s.mode ≠ 2 → s.mgt.transition = false → s.mem.pasrEn = false →
      ((∀ c, (s.chan c).waking = false) → ∃ t, exec (.setState h v) s = .next t ∧ t.devState = 1 ∧
        t.irq.getLsbD 1 = true ∧ t.boot = { s.boot with dev := t.boot.dev } ∧
        t.outs.getLast? = some (.mctp e Config.vendorId (replyBytes 0x0201 h 0 [2])) ∧ (∀ c, s.chanPresent c = true → (t.chan c).sr = false)) ∧
      (∀ c, s.chanPresent c = true → (s.chan c).sr = true → (s.chan c).waking = true → ∃ (t : State) (r : Run), exec (.setState h v) s = .next t ∧
        t.devState = 2 ∧ t.mgt.running = [r] ∧ r.body = .setState v ∧ t.outs = s.outs ∧ Only { chans := true, mgtq := true } s t)) ∧
    (v = 2 → s.devState = 1 → ∃ t, exec (.setState h v) s = .next t ∧ t.devState = 2 ∧ t.irq.getLsbD 1 = true ∧
      t.outs.getLast? = some (.mctp e Config.vendorId (replyBytes 0x0201 h 0 [1])) ∧
      Only { boot := true, irq := true, pba := true, mgtq := true, outs := true, events := true } s t) ∧
    (v.toNat = s.devState → v = 2 → ∃ t, exec (.setState h v) s = .next t ∧ Replied h e 0x0201 0 [2] s t ∧
      Only { mgtq := true, outs := true, events := true } s t) ∧
    (v = 1 → s.devState = 2 → s.mode = 2 ∨ s.mgt.transition = true → ∃ t, exec (.setState h v) s = .next t ∧ Replied h e 0x0201 11 [] s t ∧
      Only { mgtq := true, outs := true, events := true } s t) ∧
    (v ≠ 1 → v ≠ 2 → ∃ t, exec (.setState h v) s = .next t ∧ Replied h e 0x0201 9 [] s t ∧ Only { outs := true } s t)) ∧
  (∀ (s : State) (h : CmdHdr) (e : Nat) (m : Word), Issued s h (.timeSet m) e →
    (m.toNat % 16777216 = 0 → ∃ t, exec (.timeSet h m) s = .next t ∧ t.mtu = { s.mtu with pendingSet := some m.toNat } ∧
      Replied h e 0x0501 0 [] s t ∧ Only { mtu := true, mgtq := true, outs := true, events := true } s t) ∧
    (m.toNat % 16777216 ≠ 0 → ∃ t, exec (.timeSet h m) s = .next t ∧ Replied h e 0x0501 9 [] s t ∧ Only { outs := true } s t)) ∧
  (∀ (s : State) (h : CmdHdr) (e : Nat) (f n : BitVec 16), Issued s h (.ledgerRead f n) e →
    (1 ≤ n.toNat → n.toNat ≤ 128 → ∃ t, exec (.ledgerRead h f n) s = .next t ∧
      Replied h e 0x0601 0 (((s.ras.ring.drop f.toNat).take n.toNat).flatMap fun x => recBytes x.2) s t ∧
      Only { mgtq := true, outs := true, events := true } s t) ∧
    (n = 0 ∨ 128 < n.toNat → ∃ t, exec (.ledgerRead h f n) s = .next t ∧ Replied h e 0x0601 9 [] s t ∧ Only { outs := true } s t)) ∧
  (∀ (s : State) (h : CmdHdr) (e : Nat), Issued s h .ledgerClear e → ∃ t, exec (.ledgerClear h) s = .next t ∧ t.ras = { s.ras with ring := [] } ∧
    Replied h e 0x0602 0 (leBytes 4 s.ras.ring.length) s t ∧ Only { ledger := true, mgtq := true, outs := true, events := true } s t)

/-- DOM_SET stores the table, makes the domain FORMING unless it is DOWN, and replies the table's digest when the next clock passes
(State.runEnds, which every clock does); for an UP domain it is DOMAIN_ACTIVE, without a member BAD_PARAM. DOM_JOIN is refused while
UNSET or DOWN, answered OK with no UNMATCHED member while UP, brings a lone FORMING member UP, and with other members starts joining
without a reply yet. DOM_REFORM of a DOWN domain whose entry steps are done makes it FORMING with an empty directory, and replies the
banks that were lost; otherwise it is refused. FAB_PORT disables or enables a port and replies its state; an absent port is
INVALID_INSTANCE, an unknown action BAD_PARAM. FAB_CLR_UNREACH clears one mark or all and replies how many. -/
def Obligations.DomainAndFabricCommands : Prop :=
  (∀ (s : State) (h : CmdHdr) (e : Nat) (d : BitVec 8) (p : BitVec 128), Issued s h (.domSet d p) e →
    (p ≠ 0 → s.dom.st ≠ 2 → ∃ (t : State) (r : Run), exec (.domSet h d p) s = .next t ∧ t.tableDomain = d.toNat ∧ t.presence = p.toNat ∧
      t.dom.digest = domDigest d.toNat p.toNat ∧ t.dom.st = (if s.dom.st = 3 then 3 else 1) ∧ t.dom.gotReady = [] ∧ t.dom.joining = false ∧
      t.mgt.running = [r] ∧ r.body = .domSet d p ∧ t.outs = s.outs ∧ Only { dom := true, mgtq := true } s t ∧
      Replied h e 0x0401 0 (leBytes 4 (domDigest d.toNat p.toNat).toNat) s t.runEnds) ∧
    (p ≠ 0 → s.dom.st = 2 → ∃ t, exec (.domSet h d p) s = .next t ∧ Replied h e 0x0401 14 [] s t ∧
      Only { mgtq := true, outs := true, events := true } s t) ∧
    (p = 0 → ∃ t, exec (.domSet h d p) s = .next t ∧ Replied h e 0x0401 9 [] s t ∧ Only { outs := true } s t)) ∧
  (∀ (s : State) (h : CmdHdr) (e : Nat), Issued s h .domJoin e →
    (s.dom.st = 0 ∨ s.dom.st = 3 → ∃ t, exec (.domJoin h) s = .next t ∧ Replied h e 0x0402 11 [] s t ∧
      Only { mgtq := true, outs := true, events := true } s t) ∧
    (s.dom.st = 2 → ∃ t, exec (.domJoin h) s = .next t ∧ Replied h e 0x0402 0 (leBytes 16 0) s t ∧
      Only { mgtq := true, outs := true, events := true } s t) ∧
    (s.dom.st = 1 → s.others = [] → ∃ t, exec (.domJoin h) s = .next t ∧ t.dom.st = 2 ∧ t.mgt.running = [] ∧
      t.outs.getLast? = some (.mctp e Config.vendorId (replyBytes 0x0402 h 0 (leBytes 16 0)))) ∧
    (s.dom.st = 1 → s.others ≠ [] → ∃ (t : State) (r : Run), exec (.domJoin h) s = .next t ∧ t.dom = { s.dom with joining := true, joinBeat := s.beat, memBeat := none } ∧
      t.mgt.running = [r] ∧ r.body = .domJoin ∧ r.hdr = h ∧ Only { dom := true, mgtq := true } s t)) ∧
  (∀ (s : State) (h : CmdHdr) (e : Nat), Issued s h .domReform e →
    (s.dom.st ≠ 3 → ∃ t, exec (.domReform h) s = .next t ∧ Replied h e 0x0403 11 [] s t ∧ Only { mgtq := true, outs := true, events := true } s t) ∧
    (s.dom.st = 3 → s.layoutKnown = true → s.dom.downDue = false → s.mgt.thawed = [] → ∃ t, exec (.domReform h) s = .next t ∧ t.dom.st = 1 ∧
      t.dom.nack = false ∧ t.dom.table = s.dom.table ∧ (∀ b < 16, (t.bank b).store = [] ∧ (t.bank b).dc = [] ∧ (t.bank b).lost = false) ∧
      t.mgt.running = [] ∧ t.outs.getLast? = some (.mctp e Config.vendorId (replyBytes 0x0403 h 0
        (leBytes 2 ((List.range 16).foldl (fun a b => if (s.bank b).lost then a + 2 ^ b else a) 0)))))) ∧
  (∀ (s : State) (h : CmdHdr) (e : Nat) (p a : BitVec 8), Issued s h (.fabPort p a) e →
    (s.part.fabricPorts ≤ p.toNat → ∃ t, exec (.fabPort h p a) s = .next t ∧ Replied h e 0x0410 8 [] s t ∧ Only { outs := true } s t) ∧
    (p.toNat < s.part.fabricPorts → 2 < a.toNat → ∃ t, exec (.fabPort h p a) s = .next t ∧ Replied h e 0x0410 9 [] s t ∧ Only { outs := true } s t) ∧
    (p.toNat < s.part.fabricPorts → a = 0 → ∃ t, exec (.fabPort h p a) s = .next t ∧ t.portEn p.toNat = false ∧ (t.port p.toNat).st = 0 ∧
      (∀ k, k ≠ p.toNat → t.port k = s.port k) ∧ t.outs.getLast? = some (.mctp e Config.vendorId (replyBytes 0x0410 h 0 (leBytes 4 0)))) ∧
    (p.toNat < s.part.fabricPorts → a = 1 → (s.port p.toNat).st = 0 → ∃ t, exec (.fabPort h p a) s = .next t ∧ t.portEn p.toNat = true ∧
      (t.port p.toNat).st = 1 ∧ (∀ k, k ≠ p.toNat → t.port k = s.port k) ∧ Replied h e 0x0410 0 (leBytes 4 1) s t)) ∧
  (∀ (s : State) (h : CmdHdr) (e : Nat) (n : BitVec 16), Issued s h (.fabClrUnreach n) e →
    (n = 0xFFFF → ∃ t, exec (.fabClrUnreach h n) s = .next t ∧ t.rtr.unreach = [] ∧ Replied h e 0x0411 0 (leBytes 4 s.rtr.unreach.length) s t ∧
      Only { rtrUn := true, mgtq := true, outs := true, events := true } s t) ∧
    (n.toNat ≤ 0x7FFF → ∃ t, exec (.fabClrUnreach h n) s = .next t ∧ (∀ k, t.unreachable k = (s.unreachable k && k != n.toNat)) ∧
      Only { rtrUn := true, mgtq := true, outs := true, events := true } s t))

/-- PASR_SET 0 ends partial-array self-refresh; a mask makes every page of its rank blocks unwritten, replies the lines recalled and the
pages, and PASR is on; a mask outside the ranks is BAD_PARAM. CH_THAW of a frozen channel discards its queue and starts training; of a
near one outside DOWN it is refused; CH_RETRAIN starts training; the wrong kind of channel is INVALID_INSTANCE. CH_RAW_WRITE on a frozen
channel or in HOLD stores the line without a poison mark; CH_RAW_READ replies the line and its check bytes as stored; misaligned or with
a count of 0 or above 51 it is BAD_PARAM. From guard start to the end of a lull CH_RAW_READ, CH_RAW_WRITE and PPR wait in the queue. PPR
replies one of its results, counts a repair made, and a soft repair is never without a spare. No injected error stands at what is read,
and none is armed for what is written. -/
def Obligations.ChannelManagementCommands : Prop :=
  (∀ (s : State) (h : CmdHdr) (e : Nat) (m : BitVec 8), Issued s h (.pasrSet m) e →
    (2 ^ 2 ^ s.mem.kbits ≤ m.toNat → ∃ t, exec (.pasrSet h m) s = .next t ∧ Replied h e 0x0312 9 [] s t ∧ Only { outs := true } s t) ∧
    (m = 0 → (∀ c ∈ s.chansOf true, (s.chan c).sr = false) → ∃ t, exec (.pasrSet h m) s = .next t ∧ t.mem.pasrEn = false ∧ t.mem.pasrMask = 0 ∧
      Replied h e 0x0312 0 (leBytes 8 0) s t ∧ (∀ c, t.chan c = s.chan c) ∧ (∀ n, t.slice n = s.slice n) ∧
      Only { memCfg := true, chans := true, slices := true, mgtq := true, outs := true, events := true } s t) ∧
    (m ≠ 0 → m.toNat < 2 ^ 2 ^ s.mem.kbits → s.mem.tags = [] → s.hsf = [] → s.banks = [] → s.slices = [] → s.bisnps = [] →
      (∀ c ∈ s.chansOf true, (s.chan c).sr = false) → ∃ t, exec (.pasrSet h m) s = .next t ∧ t.mem.pasrEn = true ∧ t.mem.pasrMask = m ∧
      (∀ p, Tab.get false t.mem.zmap p = (Tab.get false s.mem.zmap p && !s.inRanks m (p * 64))) ∧
      Replied h e 0x0312 0 (leBytes 4 0 ++ leBytes 4 (((List.range 8).filter fun i => m.getLsbD i).length * 2 ^ (s.mem.rbits + 10))) s t)) ∧
  (∀ (s : State) (h : CmdHdr) (e c : Nat) (k x : BitVec 8), s.chanNamed k x = some c →
    (Issued s h (.chThaw k x) e → (s.chan c).frozen = true → 64 ≤ c ∨ s.dom.st = 3 → ∃ (t : State) (r : Run), exec (.chThaw h k x) s = .next t ∧
      (t.chan c).training = true ∧ (t.chan c).thaw = true ∧ (t.cunit c 0).q = [] ∧ (t.cunit c 1).q = [] ∧ (t.chan c).frozen = true ∧
      (t.chan c).discarded = (s.chan c).queued false + (s.chan c).queued true ∧ t.mgt.running = [r] ∧ r.body = .chThaw k x ∧
      t.outs = s.outs ∧ Only { chans := true, mgtq := true } s t) ∧
    (Issued s h (.chThaw k x) e → (s.chan c).frozen = true → c < 64 → s.dom.st ≠ 3 → ∃ t, exec (.chThaw h k x) s = .next t ∧
      Replied h e 0x0310 11 [] s t ∧ Only { mgtq := true, outs := true, events := true } s t) ∧
    (Issued s h (.chThaw k x) e → (s.chan c).frozen = false → ∃ t, exec (.chThaw h k x) s = .next t ∧ Replied h e 0x0310 8 [] s t ∧
      Only { outs := true } s t) ∧
    (Issued s h (.chRetrain k x) e → (s.chan c).frozen = false → (s.chan c).trained = true → (s.chan c).bist = false → (s.chan c).sr = false →
      ∃ (t : State) (r : Run), exec (.chRetrain h k x) s = .next t ∧ t.chan c = { s.chan c with training := true, thaw := false } ∧
      t.mgt.running = [r] ∧ r.body = .chRetrain k x ∧ Only { chans := true, mgtq := true } s t) ∧
    (Issued s h (.chRetrain k x) e → (s.chan c).frozen = true → ∃ t, exec (.chRetrain h k x) s = .next t ∧ Replied h e 0x0311 8 [] s t ∧
      Only { outs := true } s t)) ∧
  (∀ (s : State) (h : CmdHdr) (e c : Nat) (k x : BitVec 8) (a : Word) (d : Line) (n : BitVec 16), s.chanNamed k x = some c → (s.chan c).sr = false →
    (s.chan c).refreshLost = false →
    (Issued s h (.chRawWrite k x a d) e → s.rawAddr c a.toNat = true → s.inPause = true → ∃ (t : State) (r : Run),
      exec (.chRawWrite h k x a d) s = .next t ∧ t.mgt.queue = [r] ∧ r.body = .chRawWrite k x a d ∧ t.mgt.running = [] ∧ Only { mgtq := true } s t) ∧
    (Issued s h (.chRawRead k x a n) e → s.rawAddr c a.toNat = true → n = 1 → s.inPause = true → ∃ (t : State) (r : Run),
      exec (.chRawRead h k x a n) s = .next t ∧ t.mgt.queue = [r] ∧ r.body = .chRawRead k x a n ∧ t.mgt.running = [] ∧ Only { mgtq := true } s t) ∧
    (Issued s h (.chRawWrite k x a d) e → s.inPause = false → s.ras.arm = false → s.rawAddr c a.toNat = true → (s.chan c).frozen = true ∨ s.mode = 2 →
      (64 ≤ c → ∃ t, exec (.chRawWrite h k x a d) s = .next t ∧ Memory.readLine t.mem.far a.toNat = d ∧
        Tab.get false t.mem.farPoison (a.toNat / 64) = false ∧ (∀ b, b < a.toNat ∨ a.toNat + 64 ≤ b → Memory.read8 t.mem.far b = Memory.read8 s.mem.far b) ∧
        Replied h e 0x0331 0 [] s t ∧ Only { far := true, flip := true, mgtq := true, outs := true, events := true } s t) ∧
      (c < 64 → 1 ≤ a.toNat / 64 % 16 → a.toNat / 64 % 16 < 15 - s.houseWays → ∃ t, exec (.chRawWrite h k x a d) s = .next t ∧
        t.wayGet (s.rowSet c (a.toNat / 1024)).2 (a.toNat / 64 % 16) = (d, false) ∧ Replied h e 0x0331 0 [] s t ∧
        Only { near := true, flip := true, mgtq := true, outs := true, events := true } s t)) ∧
    (Issued s h (.chRawWrite k x a d) e → s.inPause = false → s.rawAddr c a.toNat = true → (s.chan c).frozen = false → s.mode ≠ 2 → ∃ t,
      exec (.chRawWrite h k x a d) s = .next t ∧ Replied h e 0x0331 11 [] s t ∧ Only { mgtq := true, outs := true, events := true } s t) ∧
    (Issued s h (.chRawRead k x a n) e → s.rawAddr c a.toNat = false ∨ n = 0 ∨ 51 < n.toNat → ∃ t, exec (.chRawRead h k x a n) s = .next t ∧
      Replied h e 0x0330 9 [] s t ∧ Only { outs := true } s t) ∧
    (Issued s h (.chRawRead k x a n) e → s.inPause = false → n = 1 → s.ras.latent = [] → s.rawAddr c a.toNat = true →
      (64 ≤ c → s.farKnown (a.toNat / 64) = true → ∃ t, exec (.chRawRead h k x a n) s = .next t ∧
        Replied h e 0x0330 0 (leBytes 64 (Memory.readLine s.mem.far a.toNat).toNat ++ leBytes 16 (Config.farCheck (Memory.readLine s.mem.far a.toNat) ^^^
          (if Tab.get false s.mem.farPoison (a.toNat / 64) then Config.farPoison else 0)).toNat) s t ∧ Only { mgtq := true, outs := true, events := true } s t) ∧
      (c < 64 → 1 ≤ a.toNat / 64 % 16 → a.toNat / 64 % 16 < 15 - s.houseWays → s.mem.raw = [] → ∃ t, exec (.chRawRead h k x a n) s = .next t ∧
        Replied h e 0x0330 0 (leBytes 64 (s.wayGet (s.rowSet c (a.toNat / 1024)).2 (a.toNat / 64 % 16)).1.toNat ++
          leBytes 8 (Config.nearCheck (s.wayGet (s.rowSet c (a.toNat / 1024)).2 (a.toNat / 64 % 16)).1 ^^^
            (if (s.wayGet (s.rowSet c (a.toNat / 1024)).2 (a.toNat / 64 % 16)).2 then Config.nearPoison else 0)).toNat) s t ∧
        Only { mgtq := true, outs := true, events := true } s t))) ∧
  (∀ (s : State) (h : CmdHdr) (e : Nat) (ch sub rank bg bank kind : BitVec 8) (row : BitVec 32), Issued s h (.ppr ch sub rank bg bank row kind) e →
    (8 ≤ ch.toNat ∨ (s.chan (64 + ch.toNat)).frozen = true → ∃ t, exec (.ppr h ch sub rank bg bank row kind) s = .next t ∧
      Replied h e 0x0320 8 [] s t ∧ Only { outs := true } s t) ∧
    (s.pprCheck ch sub rank bg bank row kind = 0 → s.inPause = true → ∃ (t : State) (r : Run), exec (.ppr h ch sub rank bg bank row kind) s = .next t ∧
      t.mgt.queue = [r] ∧ r.body = .ppr ch sub rank bg bank row kind ∧ t.mgt.running = [] ∧ Only { mgtq := true } s t) ∧
    (s.pprCheck ch sub rank bg bank row kind = 0 → s.inPause = false → s.ras.latent = [] → s.ras.arm = false → ∃ (t : State) (r bad : Nat), exec (.ppr h ch sub rank bg bank row kind) s = .next t ∧
      Replied h e 0x0320 0 (leBytes 4 r ++ leBytes 4 bad) s t ∧ r ≤ 2 ∧ bad ≤ 128 ∧ (kind = 0 → r ≠ 2) ∧
      Tab.get 0 t.mem.hardPpr (ch.toNat * 2 + sub.toNat) = Tab.get 0 s.mem.hardPpr (ch.toNat * 2 + sub.toNat) + (if r = 0 ∧ kind = 1 then 1 else 0) ∧
      Tab.get 0 t.mem.softPpr (ch.toNat * 2 + sub.toNat) = Tab.get 0 s.mem.softPpr (ch.toNat * 2 + sub.toNat) + (if r = 0 ∧ kind = 0 then 1 else 0)))

/-- PART_SET_FLAT to the number in force replies zeros; to more ways it starts a sweep in which the partition stays as it is; to fewer the
flat window is bounded to them at once, a sweep returns the others to the cache, and the partition stays as it is until it ends; above
10 ways, or beyond 12 with the house ways, it is refused. CACHE_MODE 0 sets the mode at once; 1 starts the entry into BYPASS; 2 is
refused while other members are in a domain that is not DOWN, and otherwise sets HOLD; a larger mode is BAD_PARAM. RANGE_OP starts the
operation over its range; an unknown operation or a misaligned range is BAD_PARAM. UNRETIRE of a retired way makes it invalid, clears
its mark and its count, and replies 1; outside the slices it is INVALID_INSTANCE. -/
def Obligations.CacheManagementCommands : Prop :=
  (∀ (s : State) (h : CmdHdr) (e : Nat) (f : BitVec 8), Issued s h (.partSetFlat f) e → s.layoutKnown = true →
    (10 < f.toNat ∨ 12 < s.houseWays + f.toNat → ∃ t, exec (.partSetFlat h f) s = .next t ∧ Replied h e 0x0210 11 [] s t ∧
      Only { mgtq := true, outs := true, events := true } s t) ∧
    (f.toNat ≤ 10 → s.houseWays + f.toNat ≤ 12 →
      (f.toNat = s.flatWays → ∃ t, exec (.partSetFlat h f) s = .next t ∧ Replied h e 0x0210 0 (leBytes 16 0) s t ∧
        Only { mgtq := true, outs := true, events := true } s t) ∧
      (s.flatWays < f.toNat → ∃ (t : State) (r : Run) (x : RangeSt), exec (.partSetFlat h f) s = .next t ∧ t.glbPart = s.glbPart ∧
        t.mgt.moving = true ∧ t.mgt.range = some x ∧ x.op = 6 ∧ x.arg = f.toNat ∧ x.runId = r.id ∧ t.mgt.running = [r] ∧ r.body = .partSetFlat f ∧
        t.outs = s.outs ∧ Only { mgt := true, mgtq := true } s t) ∧
      (f.toNat < s.flatWays → ∃ (t : State) (r : Run) (x : RangeSt), exec (.partSetFlat h f) s = .next t ∧ t.flatOpen = f.toNat ∧
        t.glbPart = s.glbPart ∧ t.mgt.moving = true ∧ t.mgt.range = some x ∧ x.op = 8 ∧ x.arg = f.toNat ∧
        x.runId = r.id ∧ t.mgt.running = [r] ∧ t.outs = s.outs ∧ Only { mgt := true, mgtq := true } s t))) ∧
  (∀ (s : State) (h : CmdHdr) (e : Nat) (m : BitVec 8), Issued s h (.cacheMode m) e →
    (3 ≤ m.toNat → ∃ t, exec (.cacheMode h m) s = .next t ∧ Replied h e 0x0211 9 [] s t ∧ Only { outs := true } s t) ∧
    (s.layoutKnown = true → m = 0 ∨ m = 2 ∧ (s.others = [] ∨ s.dom.st = 3) ∨ m = 1 ∧ s.mode = 1 → ∃ t, exec (.cacheMode h m) s = .next t ∧
      t.mode = m.toNat ∧ Replied h e 0x0211 0 (leBytes 8 0) s t ∧ Only { mode := true, mgtq := true, outs := true, events := true } s t) ∧
    (s.layoutKnown = true → m = 2 → s.others ≠ [] → s.dom.st ≠ 3 → ∃ t, exec (.cacheMode h m) s = .next t ∧ Replied h e 0x0211 11 [] s t ∧
      Only { mgtq := true, outs := true, events := true } s t) ∧
    (s.layoutKnown = true → m = 1 → s.mode ≠ 1 → ∃ (t : State) (r : Run) (x : RangeSt), exec (.cacheMode h m) s = .next t ∧ t.mode = s.mode ∧
      t.mgt.transition = true ∧ t.mgt.range = some x ∧ x.op = 7 ∧ x.whole = true ∧ x.hosts = true ∧ x.runId = r.id ∧ t.mgt.running = [r] ∧
      Only { mgt := true, mgtq := true } s t)) ∧
  (∀ (s : State) (h : CmdHdr) (e : Nat) (op fl : BitVec 8) (base len : Word), Issued s h (.rangeOp op fl base len) e →
    (5 < op.toNat ∨ 7 < fl.toNat ∨ fl.getLsbD 0 = false ∧ (base.toNat % 64 ≠ 0 ∨ len.toNat % 64 ≠ 0 ∨ len = 0 ∨ 2 ^ 42 < len.toNat) →
      ∃ t, exec (.rangeOp h op fl base len) s = .next t ∧ Replied h e 0x0301 9 [] s t ∧ Only { outs := true } s t) ∧
    (op.toNat ≤ 5 → fl.toNat ≤ 7 → fl.getLsbD 0 = true ∨ base.toNat % 64 = 0 ∧ base.toNat < 2 ^ 57 ∧ len.toNat % 64 = 0 ∧ len ≠ 0 ∧ len.toNat ≤ 2 ^ 42 →
      ∃ (t : State) (r : Run) (x : RangeSt), exec (.rangeOp h op fl base len) s = .next t ∧ t.mgt.range = some x ∧ x.op = op.toNat ∧ x.whole = fl.getLsbD 0 ∧
      x.hosts = fl.getLsbD 1 ∧ x.keep = fl.getLsbD 2 ∧ x.base = base.toNat ∧ x.len = len.toNat ∧ x.ptr = [] ∧ x.runId = r.id ∧ t.mgt.running = [r] ∧
      r.body = .rangeOp op fl base len ∧ t.outs = s.outs ∧ Only { mgt := true, mgtq := true } s t)) ∧
  (∀ (s : State) (h : CmdHdr) (e i : Nat) (sl way : BitVec 8) (set : BitVec 32) (b : TagBlk), Issued s h (.unretire sl set way) e →
    (64 ≤ sl.toNat → sl ≠ 0xFF → ∃ t, exec (.unretire h sl set way) s = .next t ∧ Replied h e 0x0302 8 [] s t ∧ Only { outs := true } s t) ∧
    (sl = 0xFF ∨ sl.toNat < 64 → 14 < way.toNat → ∃ t, exec (.unretire h sl set way) s = .next t ∧ Replied h e 0x0302 9 [] s t ∧ Only { outs := true } s t) ∧
    (set.toNat = i → i < s.part.sets → s.nearFrozen (sliceOfSet s.part i) = false → sl.toNat = sliceOfSet s.part i → 1 ≤ way.toNat → way.toNat ≤ 14 → s.mem.tags = [(i, b)] →
      b.ways.length = 14 → tagError s.part i b = false → s.ras.latent = [] → (s.setRec i).ce.length = 14 → (s.slice (sliceOfSet s.part i)).tc = [] → (b.get way.toNat).st = stX →
      ∃ t, exec (.unretire h sl set way) s = .next t ∧ (t.nearTags i).get way.toNat = {} ∧ (t.setRec i).retire.getLsbD (way.toNat - 1) = false ∧
      (t.setRec i).ce[way.toNat - 1]? = some 0 ∧ Replied h e 0x0302 0 (leBytes 4 1) s t))

/-- A visit moves on to the next item and: CLEAN of a local modified line makes it E and hands its data to far memory, leaving the way;
FLUSH of a local clean line and DISCARD of a local line make the way invalid; LOCK and UNLOCK set and clear the lock of a local line;
ZERO sends the slice a full-line write of zeros. A line that is the subject of an open miss is not visited yet: the operation's place
and counts stay. The codes of the arrays find nothing in the tag block and the way read. Lowering the flat ways returns a set's ways as
invalid; when the change ends, those that the set records mark are retired. When every slice is done and nothing it started is left, the
operation replies its counts; a BYPASS entry then sets the mode once the ways are empty; and before that nothing changes. -/
def Obligations.CacheMaintenanceVisits : Prop :=
  (∀ (s : State) (n i la w : Nat) (r : RangeSt) (e : TagEnt) (fd : Finds), fd.tag = [] → fd.way = [] → Visiting s n i la w r e → s.classOf la = .loc →
    (r.op = 0 → e.st = Machine.stM → s.farFrozen (laLocal la) = false →
      (s.cunit (64 + farCh (laLocal la)) (farSub (laLocal la))).merge = [] → ∃ (t : State) (x : RangeSt), exec (.maintenanceLookup n fd) s = .next t ∧ t.mgt.range = some x ∧
      Tab.get 0 x.ptr n = i + 1 ∧ x.affected = r.affected + 1 ∧ ((t.nearTags (setOf s.part la)).get w).st = stE ∧
      (t.cunit (64 + farCh (laLocal la)) (farSub (laLocal la))).all.any (fun q => q.wr && decide (q.addr = laLocal la ∧ q.data = some (s.wayGet (setOf s.part la) w))) = true) ∧
    (r.op = 1 → e.st = stE ∨ e.st = stS → ∃ (t : State) (x : RangeSt), exec (.maintenanceLookup n fd) s = .next t ∧ t.mgt.range = some x ∧
      Tab.get 0 x.ptr n = i + 1 ∧ x.affected = r.affected + 1 ∧ ((t.nearTags (setOf s.part la)).get w).st = stI) ∧
    (r.op = 3 → ∃ (t : State) (x : RangeSt), exec (.maintenanceLookup n fd) s = .next t ∧ t.mgt.range = some x ∧
      Tab.get 0 x.ptr n = i + 1 ∧ x.affected = r.affected + 1 ∧ ((t.nearTags (setOf s.part la)).get w).st = stI ∧ t.mem.far = s.mem.far) ∧
    (r.op = 4 → e.lock = false → e.st ≠ stP → ((s.nearTags (setOf s.part la)).ways.filter (·.lock)).length < 4 →
      s.otherFree (s.nearTags (setOf s.part la)) w = true → ∃ (t : State) (x : RangeSt), exec (.maintenanceLookup n fd) s = .next t ∧ t.mgt.range = some x ∧
      Tab.get 0 x.ptr n = i + 1 ∧ x.affected = r.affected + 1 ∧ ((t.nearTags (setOf s.part la)).get w).lock = true) ∧
    (r.op = 5 → e.lock = true → ∃ (t : State) (x : RangeSt), exec (.maintenanceLookup n fd) s = .next t ∧ t.mgt.range = some x ∧
      Tab.get 0 x.ptr n = i + 1 ∧ x.affected = r.affected + 1 ∧ ((t.nearTags (setOf s.part la)).get w).lock = false) ∧
    (r.op = 2 → ∃ (t : State) (q : Req), exec (.maintenanceLookup n fd) s = .next t ∧ (t.slice n).inq = (s.slice n).inq ++ [q] ∧ q.kind = .write ∧ q.la = la ∧
      q.data = 0 ∧ q.be = fullMask ∧ q.src = .maint)) ∧
  (∀ (s : State) (n i la : Nat) (r : RangeSt) (fd : Finds), s.nearFrozen n = false → s.sliceOn n = true → s.mgt.range = some r → r.op ≤ 5 → r.whole = false → r.hosts = false →
    Tab.get 0 r.ptr n = i → pageLine n (r.base / 4096 + i) = la → r.base ≤ 64 * la ∧ 64 * la < r.base + r.len → s.busyLine n la = true →
    ∃ t, exec (.maintenanceLookup n fd) s = .next t ∧ t.mgt = s.mgt ∧ t.mem.far = s.mem.far ∧ (t.slice n).inq = (s.slice n).inq ∧
      (t.slice n).mrs = (s.slice n).mrs) ∧
  (∀ (s : State) (n i w : Nat) (r : RangeSt) (x : SetRec) (fd : Finds), s.hsf = [] → s.bisnps = [] → s.sliceOn n = true → s.nearFrozen n = false → s.mgt.range = some r → r.op = 8 →
    s.flatQuiet r.arg = true → Tab.get 0 r.ptr n = i → i < s.rangeSize r → (s.slice n).tc = [] →
    (s.nearTags (setOfRow s.part n i)).ways.length = 14 → s.cacheWays < w → w ≤ 14 - s.houseWays - r.arg →
    ∃ t, exec (.maintenanceLookup n fd) s = .next t ∧
      (t.mgt.range ≠ none → (t.tags n (setOfRow s.part n i)).get w = {}) ∧
      (t.mgt.range = none → s.mem.recs = [(setOfRow s.part n i, x)] →
        (t.tags n (setOfRow s.part n i)).get w = (if x.retire.getLsbD (w - 1) then { st := stX } else {}))) ∧
  (∀ (s : State) (r : RangeSt) (x : Run) (e : Nat), s.powered = true → s.mgt.range = some r → s.mgt.running = [x] → x.id = r.runId → s.mgt.queue = [] →
    x.hdr.via = .mctp e →
    (r.op ≤ 5 → s.rangeDone r = true → s.rangeQuiet r = true → x.body = .rangeOp (BitVec.ofNat 8 r.op) 0 0 0 → ∃ t, exec .rangeOpComplete s = .next t ∧
      t.mgt.range = none ∧ Replied x.hdr e 0x0301 0 (leBytes 4 r.affected ++ leBytes 4 r.refused ++ leBytes 4 r.lost ++ leBytes 4 r.poison) s t ∧
      Only { mgt := true, mgtq := true, outs := true, events := true } s t) ∧
    (r.op = 7 → s.rangeDone r = true → s.rangeQuiet r = true → s.cacheEmpty = true → x.body = .cacheMode 1 → ∃ t, exec .rangeOpComplete s = .next t ∧
      t.mode = 1 ∧ t.mgt.transition = false ∧ t.mgt.range = none ∧ Replied x.hdr e 0x0211 0 (leBytes 4 r.affected ++ leBytes 4 r.dirty) s t ∧
      Only { mode := true, mgt := true, mgtq := true, outs := true, events := true } s t) ∧
    (s.rangeDone r = false ∨ s.rangeQuiet r = false → exec .rangeOpComplete s = .next s))

/-- FW_INFO replies each slot's VALID, VERSION and SVN and the slot that runs. FW_ERASE makes every byte of the target slot 0xFF and leaves
the other slot. FW_WRITE into erased bytes stores exactly its bytes there and is then refused for any of them until the next FW_ERASE;
into bytes that are not erased it is REFUSED; beyond the slot's 4 MiB it is BAD_PARAM. FW_ERASE and FW_WRITE reply when the next clock
passes (State.runEnds, which every clock does). FW_VERIFY replies the target slot's VALID, VERSION and SVN. FW_ACTIVATE restarts the
clerks: the slot that the selection rule picks runs and is replied; where no image is valid the ROM serves and answers FAILED. -/
def Obligations.FirmwareCommands : Prop :=
  ∀ (s : State) (h : CmdHdr) (e : Nat),
    (Issued s h .fwInfo e → ∃ t, exec (.fwInfo h) s = .next t ∧ Replied h e 0x0801 0
      (s.mgt.flashA.info ++ s.mgt.flashB.info ++ leBytes 1 (if s.boot.fwRom then 0xFF else if s.boot.fwSlot then 1 else 0)) s t ∧
      Only { mgtq := true, outs := true, events := true } s t) ∧
    (Issued s h .fwErase e → ∃ (t : State) (r : Run), exec (.fwErase h) s = .next t ∧ (∀ o, (t.flash s.fwTarget).byte o = 0xFF) ∧
      (t.flash s.fwTarget).erased = true ∧ (t.flash s.fwTarget).prog = [] ∧ t.flash (!s.fwTarget) = s.flash (!s.fwTarget) ∧
      t.mgt.running = [r] ∧ r.body = .fwErase ∧ t.outs = s.outs ∧ Only { flash := true, mgtq := true } s t ∧ Replied h e 0x0802 0 [] s t.runEnds) ∧
    (∀ (o : BitVec 32) (bs : List Byte), Issued s h (.fwWrite o bs) e →
      (o.toNat < 2 ^ 22 → o.toNat + bs.length ≤ 2 ^ 22 → (s.flash s.fwTarget).erased = true →
        (∀ r ∈ (s.flash s.fwTarget).prog, o.toNat + bs.length ≤ r.1 ∨ r.1 + r.2 ≤ o.toNat) → ∃ (t : State) (r : Run), exec (.fwWrite h o bs) s = .next t ∧
        (t.flash s.fwTarget).read o.toNat bs.length = bs ∧ t.flash (!s.fwTarget) = s.flash (!s.fwTarget) ∧
        (∀ a, a < o.toNat ∨ o.toNat + bs.length ≤ a → (t.flash s.fwTarget).byte a = (s.flash s.fwTarget).byte a) ∧
        (o.toNat, bs.length) ∈ (t.flash s.fwTarget).prog ∧ (t.flash s.fwTarget).erased = true ∧
        t.mgt.running = [r] ∧ r.body = .fwWrite o bs ∧ t.outs = s.outs ∧ Only { flash := true, mgtq := true } s t ∧ Replied h e 0x0803 0 [] s t.runEnds) ∧
      (o.toNat < 2 ^ 22 → o.toNat + bs.length ≤ 2 ^ 22 → (s.flash s.fwTarget).erased = false ∨
        (∃ r ∈ (s.flash s.fwTarget).prog, o.toNat < r.1 + r.2 ∧ r.1 < o.toNat + bs.length) → ∃ t, exec (.fwWrite h o bs) s = .next t ∧
        Replied h e 0x0803 11 [] s t ∧ Only { mgtq := true, outs := true, events := true } s t) ∧
      (2 ^ 22 ≤ o.toNat ∨ 2 ^ 22 < o.toNat + bs.length → ∃ t, exec (.fwWrite h o bs) s = .next t ∧
        Replied h e 0x0803 9 [] s t ∧ Only { outs := true } s t)) ∧
    (Issued s h .fwVerify e → ∃ t, exec (.fwVerify h) s = .next t ∧ Replied h e 0x0804 0 (s.flash s.fwTarget).info s t ∧
      Only { mgtq := true, outs := true, events := true } s t) ∧
    (Issued s h .fwActivate e →
      (s.fwSelect = none → ∃ t, exec (.fwActivate h) s = .next t ∧ t.boot.fwRom = true ∧ t.boot.stopCause = 1 ∧ t.mgt.running = [] ∧
        t.outs.getLast? = some (.mctp e Config.vendorId (replyBytes 0x0805 h 12 []))) ∧
      (∀ b, s.fwSelect = some b → ∃ t, exec (.fwActivate h) s = .next t ∧ t.boot.fwRom = false ∧ t.boot.fwSlot = b ∧ t.mgt.running = [] ∧
        t.boot.fwVersion.toNat = (s.flash b).version % 2 ^ 32 ∧ t.boot.level = s.boot.level ∧
        t.outs.getLast? = some (.mctp e Config.vendorId (replyBytes 0x0805 h 0 [if b then 1 else 0]))))

/-- TALLY_ROUTE clears and stops each counter that it names and routes its event; it replies the number of entries when every route is
settled, at once where none changes, and BAD_PARAM where an entry fits no unit, counter or event. ROUTING_DONE settles one route and
lets a waiting TALLY_ROUTE reply. EVSEL_WRITE routes one counter outside SERVICE. START and STOP set and clear the enables of the
counters in the mask; COUNTER_CLEAR zeroes every count and overflow mark; the other units stay. A read of a counter's lower half latches
its upper half. TRACE_SETUP writes the trace registers and replies the trace status; CAPTURE clears the buffer and enables it.
BOUND_CLEAR zeroes the bound counts of both halves of a port; one that the same clock has counted up stays at 1. -/
def Obligations.TallyAndTrace : Prop :=
  (∀ (s : State) (h : CmdHdr) (e : Nat) (es : List (BitVec 8 × BitVec 8 × BitVec 16)), Issued s h (.tallyRoute es) e →
    ((∃ x ∈ es, 96 ≤ x.1.toNat ∨ 8 ≤ x.2.1.toNat ∨ s.eventListed x.2.2.toNat = false) → ∃ t, exec (.tallyRoute h es) s = .next t ∧
      Replied h e 0x0701 9 [] s t ∧ Only { outs := true } s t) ∧
    ((∀ x ∈ es, x.1.toNat < 96 ∧ x.2.1.toNat < 8 ∧ s.eventListed x.2.2.toNat = true) → ∃ t, exec (.tallyRoute h es) s = .next t ∧
      (∀ x ∈ es, (Tab.get {} (t.tly x.1.toNat).cnt x.2.1.toNat).en = false ∧ (Tab.get {} (t.tly x.1.toNat).cnt x.2.1.toNat).count = 0 ∧
        (Tab.get {} (t.tly x.1.toNat).cnt x.2.1.toNat).ovf = false) ∧
      ((es.map fun x => (x.1, x.2.1)).Nodup → ∀ x ∈ es, (Tab.get {} (t.tly x.1.toNat).cnt x.2.1.toNat).evsel = x.2.2) ∧
      (∀ u i, (∀ x ∈ es, ¬ (x.1.toNat = u ∧ x.2.1.toNat = i)) → Tab.get {} (t.tly u).cnt i = Tab.get {} (s.tly u).cnt i) ∧
      ((∀ x ∈ es, (Tab.get {} (s.tly x.1.toNat).cnt x.2.1.toNat).evsel = x.2.2 ∧ (Tab.get {} (s.tly x.1.toNat).cnt x.2.1.toNat).routing = false) →
        Replied h e 0x0701 0 (leBytes 4 es.length) s t ∧ Only { tlys := true, mgtq := true, outs := true, events := true } s t) ∧
      ((∃ x ∈ es, (Tab.get {} (s.tly x.1.toNat).cnt x.2.1.toNat).evsel ≠ x.2.2) → t.outs = s.outs ∧ Only { tlys := true, mgtq := true } s t ∧
        ∃ r : Run, t.mgt.running = [r] ∧ r.body = .tallyRoute es))) ∧
  (∀ (s : State) (u i : Nat), s.powered = true → u < 96 → i < 8 →
    ((Tab.get {} (s.tly u).cnt i).routing = false → exec (.routingDone u i) s = .next s) ∧
    ((Tab.get {} (s.tly u).cnt i).routing = true → s.mgt.running = [] → ∃ t, exec (.routingDone u i) s = .next t ∧
      Tab.get {} (t.tly u).cnt i = { Tab.get {} (s.tly u).cnt i with routing := false } ∧ Only { tlys := true } s t) ∧
    (∀ (x : Run) (es : List (BitVec 8 × BitVec 8 × BitVec 16)) (e : Nat), (Tab.get {} (s.tly u).cnt i).routing = true → s.mgt.running = [x] →
      s.mgt.queue = [] → x.body = .tallyRoute es → x.hdr.via = .mctp e →
      (∀ y ∈ es, (Tab.get {} (s.tly y.1.toNat).cnt y.2.1.toNat).routing = true → y.1.toNat = u ∧ y.2.1.toNat = i) →
      ∃ t, exec (.routingDone u i) s = .next t ∧ (Tab.get {} (t.tly u).cnt i).routing = false ∧
        Replied x.hdr e 0x0701 0 (leBytes 4 es.length) s t ∧ Only { tlys := true, mgtq := true, outs := true, events := true } s t)) ∧
  (∀ (s : State) (l u : Nat), s.linkOn l = true → u < 96 →
    (∀ m : BitVec 8, ∃ t, exec (.start l u m) s = .next t ∧ (∀ k ≠ u, t.tly k = s.tly k) ∧ Only { tlys := true } s t ∧
      ∀ i < 8, Tab.get {} (t.tly u).cnt i = { Tab.get {} (s.tly u).cnt i with en := (Tab.get {} (s.tly u).cnt i).en || m.getLsbD i }) ∧
    (∀ m : BitVec 8, ∃ t, exec (.stop l u m) s = .next t ∧ (∀ k ≠ u, t.tly k = s.tly k) ∧ Only { tlys := true } s t ∧
      ∀ i < 8, Tab.get {} (t.tly u).cnt i = { Tab.get {} (s.tly u).cnt i with en := (Tab.get {} (s.tly u).cnt i).en && !m.getLsbD i }) ∧
    (∃ t, exec (.counterClear l u) s = .next t ∧ (∀ k ≠ u, t.tly k = s.tly k) ∧ Only { tlys := true } s t ∧
      ∀ i < 8, Tab.get {} (t.tly u).cnt i = { Tab.get {} (s.tly u).cnt i with count := 0, ovf := false }) ∧
    (∀ i < 8, ∀ v : BitVec 16, ∃ t, exec (.evselWrite l u i v) s = .next t ∧ (s.devState = 1 → t = s) ∧
      (s.devState ≠ 1 → v ≠ (Tab.get {} (s.tly u).cnt i).evsel → Tab.get {} (t.tly u).cnt i =
        { Tab.get {} (s.tly u).cnt i with evsel := v, routing := true, routeAt := s.clk }) ∧
      (∀ k ≠ u, t.tly k = s.tly k) ∧ Only { tlys := true } s t) ∧
    (∀ r < 0x100, r % 8 = 0 → ∃ t, exec (.tallyLowHalfRead l (0x80000 + 0x100 * u + r)) s = .next t ∧
      t.outs = s.outs ++ [.ioData l (BitVec.ofNat 64 ((s.readReg (0x80000 + 0x100 * u + r)).toNat % 2 ^ 32))] ∧
      t.read32 (0x80000 + 0x100 * u + r + 4) = (s.readReg (0x80000 + 0x100 * u + r)).extractLsb' 32 32 ∧ Only { tlys := true, outs := true } s t)) ∧
  (∀ (s : State) (h : CmdHdr) (e : Nat) (f0 f1 f2 cfg : Word), Issued s h (.traceSetup f0 f1 f2 cfg) e → ∃ t, exec (.traceSetup h f0 f1 f2 cfg) s = .next t ∧
    t.csrGet (offTrc 8) = f0 ∧ t.csrGet (offTrc 0x10) = f1 ∧ t.csrGet (offTrc 0x18) = f2 &&& 0xFFFF#64 ∧ t.trcCfg = cfg &&& 0xC0FFFF00FFF0FFFF#64 ∧
    t.trc = (if cfg.getLsbD 63 then { s.trc with next := 0, wraps := 0, dropped := 0, full := false, triggered := false, postLeft := none } else s.trc) ∧
    Replied h e 0x0710 0 (leBytes 8 t.trcSts.toNat) s t ∧
    Only { csr := true, trcCfg := true, trc := true, mgtq := true, outs := true, events := true } s t) ∧
  (∀ (s : State) (l : Nat), s.linkOn l = true →
    (∃ t, exec (.capture l) s = .next t ∧ t.trcCfg = (s.trcCfg ||| 0x8000000000000000#64) &&& 0xC0FFFF00FFF0FFFF#64 ∧
      t.trc = { s.trc with next := 0, wraps := 0, dropped := 0, full := false, triggered := false, postLeft := none } ∧
      (∀ o, o ≠ offTrc 0 → t.csrGet o = s.csrGet o) ∧ Only { csr := true, trcCfg := true, trc := true } s t) ∧
    (∀ p < s.part.hostPorts, ∃ t, exec (.boundClear l p) s = .next t ∧
      (∀ k, k / 2 = p → t.link k = { s.link k with overrun := if (s.link k).overClk = s.clk + 1 then 1 else 0, voided := if (s.link k).voidClk = s.clk + 1 then 1 else 0, extended := if (s.link k).extClk = s.clk + 1 then 1 else 0 }) ∧ (∀ k, k / 2 ≠ p → t.link k = s.link k) ∧
      Only { links := true, pba := true } s t))

/-- BIST_RUN of an absent channel is INVALID_INSTANCE and of an unknown target or pattern BAD_PARAM; for the arrays it is refused outside
the pause after step 2, for a near channel unless the device is in MAINTENANCE and the domain UNSET or DOWN, for a far channel unless it
is frozen or the mode is HOLD; otherwise it starts, and a channel under test is out of service. When it completes: every line of a far
channel reads zero without poison; every slot of a near channel's rows is zero and every directory store empty; of the arrays, each
failing part takes a spare while one is left and is marked unrepaired otherwise; the channel serves again, and the reply gives the
result. REPAIR_STATUS replies 1,768 bytes: the repair registers and the repair counts. -/
def Obligations.BistAndRepair : Prop :=
  (∀ (s : State) (h : CmdHdr) (e : Nat) (g i p : BitVec 8), Issued s h (.bistRun g i p) e →
    (g = 2 ∧ s.part.nmcs ≤ i.toNat ∨ g = 3 ∧ 8 ≤ i.toNat → ∃ t, exec (.bistRun h g i p) s = .next t ∧ Replied h e 0x0F01 8 [] s t ∧
      Only { outs := true } s t) ∧
    (g = 0 ∨ 3 < g.toNat ∨ g = 1 ∧ 3 ≤ p.toNat → ∃ t, exec (.bistRun h g i p) s = .next t ∧ Replied h e 0x0F01 9 [] s t ∧ Only { outs := true } s t) ∧
    (p.toNat < 3 → g = 1 ∧ (s.boot.level ≠ 0 ∨ s.boot.paused = false ∨ s.boot.step ≠ 2 ∨ s.boot.stopAt ≠ 0) ∨
        g = 2 ∧ i.toNat < s.part.nmcs ∧ (s.devState ≠ 2 ∨ s.dom.st = 1 ∨ s.dom.st = 2) ∨
        g = 3 ∧ i.toNat < 8 ∧ (s.chan (64 + i.toNat)).frozen = false ∧ s.mode ≠ 2 → ∃ t, exec (.bistRun h g i p) s = .next t ∧
      Replied h e 0x0F01 11 [] s t ∧ Only { mgtq := true, outs := true, events := true } s t) ∧
    (p.toNat < 3 → g = 1 → s.boot.level = 0 → s.boot.paused = true → s.boot.step = 2 → s.boot.stopAt = 0 → s.boot.fwRom = false →
      ∃ (t : State) (r : Run), exec (.bistRun h g i p) s = .next t ∧ t.mgt.bist = some (r.id, 1, i.toNat) ∧ t.mgt.running = [r] ∧
      r.body = .bistRun g i p ∧ t.outs = s.outs ∧ Only { mgt := true, mgtq := true } s t) ∧
    (p.toNat < 3 → g = 2 → i.toNat < s.part.nmcs → s.devState = 2 → s.dom.st = 0 ∨ s.dom.st = 3 → ∃ (t : State) (r : Run),
      exec (.bistRun h g i p) s = .next t ∧ t.mgt.bist = some (r.id, 2, i.toNat) ∧ t.mgt.running = [r] ∧ (t.chan i.toNat).bist = true ∧
      (s.mem.tags = [] → t.outs = s.outs ∧ Only { mgt := true, mgtq := true, chans := true } s t)) ∧
    (p.toNat < 3 → g = 3 → i.toNat < 8 → (s.chan (64 + i.toNat)).frozen = true → ∃ (t : State) (r : Run), exec (.bistRun h g i p) s = .next t ∧
      t.mgt.bist = some (r.id, 3, i.toNat) ∧ t.mgt.running = [r] ∧ t.chan (64 + i.toNat) = { s.chan (64 + i.toNat) with bist := true } ∧
      (∀ k, k ≠ 64 + i.toNat → t.chan k = s.chan k) ∧ t.outs = s.outs ∧ Only { mgt := true, mgtq := true, chans := true } s t)) ∧
  (∀ (s : State) (x : Run) (e res n first k : Nat) (as : List (Nat × Nat × Bool)), s.powered = true → s.mgt.running = [x] → s.mgt.queue = [] →
    x.hdr.via = .mctp e →
    (s.mgt.bist = none → exec (.bistComplete res n first as) s = .next s) ∧
    (s.mgt.bist = some (x.id, 3, k) → k < 8 → ∃ t, exec (.bistComplete res n first as) s = .next t ∧ t.mgt.bist = none ∧ t.mgt.running = [] ∧
      (∀ a, farCh (a / 64) = k → Memory.read8 t.mem.far a = 0) ∧ (∀ lo, farCh lo = k → Tab.get false t.mem.farPoison lo = false ∧ t.farKnown lo = true) ∧
      (∀ a, farCh (a / 64) ≠ k → Memory.read8 t.mem.far a = Memory.read8 s.mem.far a) ∧ (t.chan (64 + k)).bist = false ∧
      t.outs.getLast? = some (.mctp e Config.vendorId (replyBytes (cmdOpc x.body) x.hdr 0 (leBytes 1 res ++ leBytes 4 n ++ leBytes 8 first)))) ∧
    (s.mgt.bist = some (x.id, 2, k) → ∃ t, exec (.bistComplete res n first as) s = .next t ∧ t.mgt.bist = none ∧ t.mgt.running = [] ∧
      (∀ a, s.ofChan k (a / 1024) = true → Memory.read8 t.mem.near a = 0) ∧
      (∀ a, s.ofChan k (a / 1024) = false → Memory.read8 t.mem.near a = Memory.read8 s.mem.near a) ∧
      (∀ b < 16, (t.bank b).store = [] ∧ (t.bank b).dc = []) ∧ (t.chan k).bist = false ∧
      t.outs.getLast? = some (.mctp e Config.vendorId (replyBytes (cmdOpc x.body) x.hdr 0 (leBytes 1 res ++ leBytes 4 n ++ leBytes 8 first)))) ∧
    (∀ (u f : Nat) (lost : Bool), s.mgt.bist = some (x.id, 1, k) → as = [(u, f, lost)] → ∃ t, exec (.bistComplete res n first as) s = .next t ∧
      t.mgt.bist = none ∧ Tab.get 0 t.tap.soft u = Tab.get 0 s.tap.soft u + min f ((Config.sparesLeft u).toNat - Tab.get 0 s.tap.soft u) ∧
      Tab.get false t.tap.unrep u = (Tab.get false s.tap.unrep u || lost || decide ((Config.sparesLeft u).toNat - Tab.get 0 s.tap.soft u < f)) ∧
      Replied x.hdr e (cmdOpc x.body) 0 (leBytes 1 res ++ leBytes 4 n ++ leBytes 8 first) s t ∧
      Only { tap := true, mgt := true, mgtq := true, outs := true, events := true } s t)) ∧
  (∀ (s : State) (h : CmdHdr) (e : Nat), Issued s h .repairStatus e → s.repairBytes.length = 1768 ∧ ∃ t, exec (.repairStatus h) s = .next t ∧
    Replied h e 0x0F02 0 s.repairBytes s t ∧ Only { mgtq := true, outs := true, events := true } s t ∧
    (∀ u < 217, (s.repairBytes.drop (8 * u)).take 8 = leBytes 8 (s.tapRpr u).toNat) ∧
    (∀ i < 16, s.repairBytes[1736 + 2 * i]? = some (BitVec.ofNat 8 (min 255 (Tab.get 0 s.mem.hardPpr i))) ∧
      s.repairBytes[1737 + 2 * i]? = some (BitVec.ofNat 8 (min 255 (Tab.get 0 s.mem.softPpr i)))))

/-- Loading an instruction makes it the one in force and shifts out the captured 8 bits 0b0000_0001. IDCODE shifts out the identification
register, REPAIR_SCAN the 217 repair registers, BYPASS and every unlisted code one bit; SAMPLE_PRELOAD puts the scanned bits into the
boundary register. EXTEST, EXTEST_PULSE, EXTEST_TRAIN, CLAMP and HIGHZ take control of the lands while RESET_N is low: driven from the
boundary register, on the S72 without the cells of its unconnected lands (Config.absentCells: notes/assumptions/3.md), or high-impedance
for HIGHZ; otherwise each acts as BYPASS and sets REFUSED. Test-Logic-Reset loads IDCODE and gives up the lands. None of them changes
anything outside the TAP. -/
def Obligations.TestAccessPort : Prop :=
  ∀ s : State, (∀ d, s.boundaryOut d = match s.part with | .f144 => d | .s72 => d &&& ~~~Config.absentCells) ∧
  (s.tap.control = false →
    (∃ t, exec .testLogicReset s = .next t ∧ t.tap = { s.tap with ir := 1 } ∧ Only { tap := true } s t) ∧
    (∃ t, exec .idcode s = .next t ∧ t.tap = { s.tap with ir := 1 } ∧
      t.outs = s.outs ++ [irScan, .tdo 32 (s.idcode.setWidth 13888)] ∧ Only { tap := true, outs := true } s t) ∧
    (s.idcode.getLsbD 0 = true ∧ s.idcode.extractLsb' 12 16 = (match s.part with | .f144 => 0xE901#16 | .s72 => 0xE902#16)) ∧
    (∃ t, exec .repairScan s = .next t ∧ t.tap = { s.tap with ir := 0x10 } ∧ (∃ v : BitVec 13888, t.outs = s.outs ++ [irScan, .tdo 13888 v] ∧
      ∀ u < 217, v.extractLsb' (64 * u) 64 = s.tapRpr u) ∧ Only { tap := true, outs := true } s t) ∧
    (∀ code : BitVec 8, ∃ t, exec (.bypass code) s = .next t ∧ t.tap = { s.tap with ir := code } ∧ t.outs = s.outs ++ [irScan, bypassScan] ∧
      Only { tap := true, outs := true } s t) ∧
    (∀ tdi : BitVec 2400, ∃ t, exec (.samplePreload tdi) s = .next t ∧ t.tap = { s.tap with ir := 2, bsr := tdi } ∧
      (∃ v : BitVec 13888, t.outs = s.outs ++ [irScan, .tdo 2400 v]) ∧ Only { tap := true, free := true, outs := true } s t)) ∧
  (s.tap.control = true → ∃ t, exec .testLogicReset s = .next t ∧ t.tap = { s.tap with ir := 1, control := false } ∧
    t.outs = s.outs ++ [.lands 0 0] ∧ Only { tap := true, outs := true } s t) ∧
  (s.pcr.resetLow = true →
    (∀ tdi : BitVec 2400, (∃ t, exec (.extest tdi) s = .next t ∧ t.tap = { s.tap with ir := 0, control := true, bsr := tdi } ∧
        (∃ v : BitVec 13888, t.outs = s.outs ++ [irScan, .tdo 2400 v, .lands 1 (s.boundaryOut tdi)]) ∧ Only { tap := true, free := true, outs := true } s t) ∧
      (∃ t, exec (.extestPulse tdi) s = .next t ∧ t.tap = { s.tap with ir := 3, control := true, bsr := tdi } ∧
        (∃ v : BitVec 13888, t.outs = s.outs ++ [irScan, .tdo 2400 v, .lands 2 (s.boundaryOut tdi)]) ∧ Only { tap := true, free := true, outs := true } s t) ∧
      (∃ t, exec (.extestTrain tdi) s = .next t ∧ t.tap = { s.tap with ir := 4, control := true, bsr := tdi } ∧
        (∃ v : BitVec 13888, t.outs = s.outs ++ [irScan, .tdo 2400 v, .lands 3 (s.boundaryOut tdi)]) ∧ Only { tap := true, free := true, outs := true } s t)) ∧
    (∃ t, exec .clamp s = .next t ∧ t.tap = { s.tap with ir := 5, control := true } ∧
      t.outs = s.outs ++ [irScan, .lands 4 (s.boundaryOut s.tap.bsr), bypassScan] ∧ Only { tap := true, outs := true } s t) ∧
    (∃ t, exec .highz s = .next t ∧ t.tap = { s.tap with ir := 6, control := true } ∧
      t.outs = s.outs ++ [irScan, .lands 5 0, bypassScan] ∧ Only { tap := true, outs := true } s t)) ∧
  (s.pcr.resetLow = false → s.tap.control = false → ∀ tdi : BitVec 2400, ∀ c ∈ [(0, Instr.extest tdi), (3, .extestPulse tdi), (4, .extestTrain tdi), (5, .clamp), (6, .highz)],
    ∃ t, exec c.2 s = .next t ∧ t.tap = { s.tap with ir := BitVec.ofNat 8 c.1, refused := true } ∧ t.outs = s.outs ++ [irScan, bypassScan] ∧
      Only { tap := true, outs := true } s t)

/-- In every state whose cache, flat and house ways C, F and H add up to 14: the cache ways are exactly the ways 1 to C; the lines of flat
way k, for k from 0 to F - 1, stand in way 14 - H - k; and the lines of the house stand in ways 15 - H to 14, each of which holds some
of them. The partition at reset has such numbers. (04_cache_maintenance_and_partitioning.md R94) -/
def Obligations.WayClasses : Prop :=
  (∀ s : State, s.cacheWays + s.flatWays + s.houseWays = 14 →
    (∀ w, s.cacheWay w = true ↔ 1 ≤ w ∧ w ≤ s.cacheWays) ∧
    (∀ k a, k < s.flatWays → k * (9 * 2 ^ s.part.setLowBits) ≤ a → a < (k + 1) * (9 * 2 ^ s.part.setLowBits) →
      (flatSlot s.part s.houseWays a).2 = 14 - s.houseWays - k ∧ (flatSlot s.part s.houseWays a).1 < s.part.sets) ∧
    (∀ a, a < s.houseWays * (9 * 2 ^ s.part.setLowBits) →
      15 - s.houseWays ≤ (houseSlot s.part s.houseWays a).2 ∧ (houseSlot s.part s.houseWays a).2 ≤ 14) ∧
    (∀ w, 15 - s.houseWays ≤ w → w ≤ 14 → ∃ a, a < s.houseWays * (9 * 2 ^ s.part.setLowBits) ∧ (houseSlot s.part s.houseWays a).2 = w)) ∧
  State.reset.cacheWays + State.reset.flatWays + State.reset.houseWays = 14

/-- For every command body of Table 17.5 whose length its row admits, the opcode and parameter bytes that carry it are read back as that
command. For every list of packets whose fields lie in their ranges, of every type, the slots that carry them one after another are read
back as those packets. For every flit header in range and every fifteen slots, the flit sent is received with nothing corrected, with
its CRC good, and with that header and those slots. -/
def Obligations.EncodingsAgree : Prop :=
  (∀ b : CmdBody, b.sound = true → cmdOf (cmdOpc b) (cmdParams b) = b) ∧
  (∀ ps : List Packet, (∀ p ∈ ps, p.sound = true) → pktsOf (ps.flatMap pktSlots).length (ps.flatMap pktSlots) = ps) ∧
  (∀ (h : FlitHdr) (ss : List (BitVec 128)), h.sound = true → ss.length = 15 → ∃ bs, flitFix (flitBits h ss) = (bs, false) ∧
    flitGood bs = true ∧ flitHdr bs = h ∧ flitSlots bs = ss)
end

