-- ==== Sys2Proof/Laws/Tab.lean ====
section
/-! SUPPORT. Laws of sparse tables and memories: reading after writing, and that every write keeps the canonical form. -/

set_option Elab.async false

namespace Sys2Proof.Machine

theorem Tab.get_ins {α : Type} (d : α) (t : Tab α) (k j : Nat) (v : α) :
    Tab.get d (Tab.ins t k v) j = if j = k then v else Tab.get d t j := by
  induction t with
  | nil => simp only [Tab.ins, Tab.get, eq_comm]
  | cons e t ih =>
    obtain ⟨i, w⟩ := e
    simp only [Tab.ins]
    split
    · simp only [Tab.get, eq_comm (a := k)]
    · split
      · rename_i h
        subst h
        simp only [Tab.get, eq_comm (a := k)]
        split <;> rfl
      · rename_i h1 h2
        simp only [Tab.get, ih]
        split
        · rename_i h
          have : ¬ j = k := fun hc => h2 (hc ▸ h.symm)
          simp [this]
        · rfl

/-- What a filter on places leaves. -/
theorem Tab.get_filter {α : Type} (d : α) (t : Tab α) (p : Nat → Bool) (k : Nat) :
    Tab.get d (t.filter fun e => p e.1) k = if p k = true then Tab.get d t k else d := by
  induction t with
  | nil => simp [Tab.get]
  | cons e t ih =>
    obtain ⟨i, w⟩ := e
    by_cases hp : p i = true
    · simp only [List.filter_cons, hp, if_true, Tab.get, ih]
      by_cases hk : i = k
      · subst hk; simp [hp]
      · simp [hk]
    · have hf : p i = false := by simpa using hp
      rw [List.filter_cons]
      simp only [hf, Bool.false_eq_true, if_false, ih, Tab.get]
      by_cases hk : i = k
      · subst hk; simp [hf]
      · simp [hk]

/-- Reading after writing. -/
theorem Tab.get_put {α : Type} [DecidableEq α] (d : α) (t : Tab α) (k j : Nat) (v : α) :
    Tab.get d (Tab.put d t k v) j = if j = k then v else Tab.get d t j := by
  unfold Tab.put
  split
  · rename_i h
    rw [Tab.get_filter d t (fun i => i != k) j]
    by_cases hj : j = k <;> simp [hj, h]
  · exact Tab.get_ins d t k j v

theorem Tab.get_put_ne {α : Type} [DecidableEq α] (d : α) (t : Tab α) (k j : Nat) (v : α) (h : j ≠ k) :
    Tab.get d (Tab.put d t k v) j = Tab.get d t j := by rw [Tab.get_put, if_neg h]

@[simp] theorem Tab.get_put_self {α : Type} [DecidableEq α] (d : α) (t : Tab α) (k : Nat) (v : α) :
    Tab.get d (Tab.put d t k v) k = v := by rw [Tab.get_put, if_pos rfl]

theorem Tab.wfFrom_weaken {α : Type} [DecidableEq α] (d : α) (t : Tab α) (b : Option Nat) (c : Nat)
    (h : Tab.wfFrom d (some c) t = true) (hb : ∀ x, b = some x → x ≤ c) : Tab.wfFrom d b t = true := by
  cases t with
  | nil => rfl
  | cons e t =>
    obtain ⟨i, w⟩ := e
    simp only [Tab.wfFrom, Bool.and_eq_true, decide_eq_true_eq] at h ⊢
    refine ⟨⟨?_, h.1.2⟩, h.2⟩
    cases b with
    | none => rfl
    | some x =>
      have := hb x rfl
      simp only [decide_eq_true_eq]
      omega

theorem Tab.wfFrom_filter {α : Type} [DecidableEq α] (d : α) (t : Tab α) (b : Option Nat) (p : Nat × α → Bool)
    (h : Tab.wfFrom d b t = true) : Tab.wfFrom d b (t.filter p) = true := by
  induction t generalizing b with
  | nil => rfl
  | cons e t ih =>
    obtain ⟨i, w⟩ := e
    have h0 := h
    simp only [Tab.wfFrom, Bool.and_eq_true, decide_eq_true_eq] at h
    rw [List.filter_cons]
    split
    · simp only [Tab.wfFrom, Bool.and_eq_true, decide_eq_true_eq]
      exact ⟨h.1, ih (some i) h.2⟩
    · refine ih b (Tab.wfFrom_weaken d t b i h.2 ?_)
      intro x hx
      subst hx
      simpa using Nat.le_of_lt (by simpa using h.1.1)

theorem Tab.wfFrom_ins {α : Type} [DecidableEq α] (d : α) (t : Tab α) (b : Option Nat) (k : Nat) (v : α) (hv : v ≠ d)
    (h : Tab.wfFrom d b t = true) (hb : ∀ x, b = some x → x < k) : Tab.wfFrom d b (Tab.ins t k v) = true := by
  have hbk : ∀ b : Option Nat, (∀ x, b = some x → x < k) → (match b with | none => true | some x => decide (x < k)) = true := by
    intro b hb
    cases b with
    | none => rfl
    | some x => simpa using hb x rfl
  induction t generalizing b with
  | nil => simp only [Tab.ins, Tab.wfFrom, Bool.and_eq_true, decide_eq_true_eq]; exact ⟨⟨hbk b hb, hv⟩, trivial⟩
  | cons e t ih =>
    obtain ⟨i, w⟩ := e
    simp only [Tab.wfFrom, Bool.and_eq_true, decide_eq_true_eq] at h
    simp only [Tab.ins]
    split
    · rename_i hki
      simp only [Tab.wfFrom, Bool.and_eq_true, decide_eq_true_eq]
      exact ⟨⟨hbk b hb, hv⟩, ⟨hki, h.1.2⟩, h.2⟩
    · split
      · rename_i hki
        subst hki
        simp only [Tab.wfFrom, Bool.and_eq_true, decide_eq_true_eq]
        exact ⟨⟨hbk b hb, hv⟩, h.2⟩
      · rename_i h1 h2
        have hi : i < k := by omega
        simp only [Tab.wfFrom, Bool.and_eq_true, decide_eq_true_eq]
        exact ⟨h.1, ih (some i) h.2 (fun x hx => by cases hx; exact hi)⟩

/-- A write keeps the canonical form. -/
theorem Tab.wf_put {α : Type} [DecidableEq α] (d : α) (t : Tab α) (k : Nat) (v : α) (h : Tab.wf d t = true) :
    Tab.wf d (Tab.put d t k v) = true := by
  unfold Tab.put
  split
  · exact Tab.wfFrom_filter d t none _ h
  · rename_i hv
    exact Tab.wfFrom_ins d t none k v hv h (by simp)

/-- Removing entries keeps the canonical form. -/
theorem Tab.wf_filter {α : Type} [DecidableEq α] (d : α) (t : Tab α) (p : Nat × α → Bool) (h : Tab.wf d t = true) :
    Tab.wf d (t.filter p) = true := Tab.wfFrom_filter d t none p h

theorem Tab.wf_drop {α : Type} [DecidableEq α] (d : α) (t : Tab α) (p : Nat → Bool) (h : Tab.wf d t = true) :
    Tab.wf d (t.drop p) = true := Tab.wf_filter d t _ h

/-! ### Memories -/

theorem Memory.wf_nil : Memory.wf [] = true := rfl

theorem Memory.wf_write8 (m : Memory) (a : Nat) (b : Byte) (h : m.wf = true) : (m.write8 a b).wf = true := Tab.wf_put 0 m a b h

theorem Memory.wf_writeLE (m : Memory) (a v n : Nat) (h : m.wf = true) : (m.writeLE a v n).wf = true := by
  induction n generalizing m a v with
  | zero => exact h
  | succ n ih => exact ih _ _ _ (Memory.wf_write8 m a _ h)

theorem Memory.wf_writeLine (m : Memory) (a : Nat) (l : Line) (h : m.wf = true) : (m.writeLine a l).wf = true :=
  Memory.wf_writeLE m a _ 64 h

theorem Memory.wf_foldl {α : Type} (f : Memory → α → Memory) (hf : ∀ m a, m.wf = true → (f m a).wf = true) (l : List α) (m : Memory)
    (h : m.wf = true) : (l.foldl f m).wf = true := by
  induction l generalizing m with
  | nil => exact h
  | cons a l ih => exact ih _ (hf m a h)

/-- One byte written reads back, and leaves every other byte alone. -/
theorem Memory.read8_write8 (m : Memory) (a c : Nat) (b : Byte) :
    (m.write8 a b).read8 c = if c = a then b else m.read8 c := Tab.get_put 0 m a c b

theorem Memory.read8_write8_ne (m : Memory) (a c : Nat) (b : Byte) (h : c ≠ a) : (m.write8 a b).read8 c = m.read8 c :=
  Tab.get_put_ne 0 m a c b h

/-- A store of n bytes leaves every byte outside them alone. -/
theorem Memory.read8_writeLE_ne (m : Memory) (a v n c : Nat) (h : c < a ∨ a + n ≤ c) : (m.writeLE a v n).read8 c = m.read8 c := by
  induction n generalizing m a v with
  | zero => rfl
  | succ n ih =>
    rw [Memory.writeLE, ih _ _ _ (by omega), Memory.read8_write8_ne _ _ _ _ (by omega)]

/-- Byte i of a store of n bytes is byte i of the value. -/
theorem Memory.read8_writeLE (m : Memory) (a v n i : Nat) (hi : i < n) :
    (m.writeLE a v n).read8 (a + i) = BitVec.ofNat 8 (v / 256 ^ i) := by
  induction n generalizing m a v i with
  | zero => omega
  | succ n ih =>
    cases i with
    | zero =>
      rw [Memory.writeLE, Memory.read8_writeLE_ne _ _ _ _ _ (by omega), Memory.read8_write8]
      simp
    | succ i =>
      have := ih (m.write8 a (BitVec.ofNat 8 v)) (a + 1) (v / 256) i (by omega)
      rw [Memory.writeLE, show a + (i + 1) = a + 1 + i by omega, this, Nat.div_div_eq_div_mul, Nat.pow_succ', ]

theorem Memory.readLE_writeLE_ne (m : Memory) (a v k n c : Nat) (h : c + n ≤ a ∨ a + k ≤ c) :
    Memory.readLE (m.writeLE a v k) c n = Memory.readLE m c n := by
  induction n generalizing c with
  | zero => rfl
  | succ n ih => rw [Memory.readLE, Memory.readLE, ih (c + 1) (by omega), Memory.read8_writeLE_ne _ _ _ _ _ (by omega)]

/-- Writing one line leaves every other line alone. -/
theorem Memory.readLine_writeLine_ne (m : Memory) (a c : Nat) (l : Line) (h : c + 64 ≤ a ∨ a + 64 ≤ c) :
    (m.writeLine a l).readLine c = m.readLine c :=
  congrArg (BitVec.ofNat 512) (Memory.readLE_writeLE_ne m a l.toNat 64 64 c h)

theorem Memory.readLE_writeLE (m : Memory) (a v n : Nat) :
    Memory.readLE (m.writeLE a v n) a n = v % 256 ^ n := by
  induction n generalizing m a v with
  | zero => simp [Memory.readLE, Nat.mod_one]
  | succ n ih =>
    have e : v % 256 ^ (n + 1) = v % 256 + 256 * (v / 256 % 256 ^ n) := by rw [Nat.pow_succ', Nat.mod_mul]
    have hb : (BitVec.ofNat 8 v).toNat = v % 256 := BitVec.toNat_ofNat v 8
    rw [Memory.readLE, Memory.writeLE, ih, Memory.read8_writeLE_ne _ _ _ _ _ (by omega),
      Memory.read8_write8, if_pos rfl, hb, e]

theorem pow_256 (n : Nat) : 256 ^ n = 2 ^ (8 * n) := by rw [Nat.pow_mul]

/-- A line reads back as it was written. -/
theorem Memory.readLine_writeLine (m : Memory) (a : Nat) (l : Line) : (m.writeLine a l).readLine a = l := by
  have k := Memory.readLE_writeLE m a l.toNat 64
  rw [pow_256 64] at k
  apply BitVec.eq_of_toNat_eq
  rw [Memory.readLine, Memory.writeLine, BitVec.toNat_ofNat, k, Nat.mod_mod, Nat.mod_eq_of_lt l.isLt]

end Sys2Proof.Machine
end

