-- ==== Sys2Proof/Laws/Within.lean ====
section
/-! SUPPORT. "Within": the relation that every operation's lemma states once, namely which pieces of the state it can change and that it
keeps the invariant; and its rules of composition. -/

set_option Elab.async false

namespace Sys2Proof.Machine

/-- Every piece of `a` is one of `b`. -/
def Mask.le (a b : Mask) : Bool :=
  (!a.clk || b.clk) &&
  (!a.cyc0 || b.cyc0) &&
  (!a.paused || b.paused) &&
  (!a.free || b.free) &&
  (!a.finds || b.finds) &&
  (!a.due || b.due) &&
  (!a.pcr || b.pcr) &&
  (!a.boot || b.boot) &&
  (!a.node || b.node) &&
  (!a.csr || b.csr) &&
  (!a.trcCfg || b.trcCfg) &&
  (!a.msix || b.msix) &&
  (!a.irq || b.irq) &&
  (!a.glbPart || b.glbPart) &&
  (!a.glbHouse || b.glbHouse) &&
  (!a.mode || b.mode) &&
  (!a.slices || b.slices) &&
  (!a.banks || b.banks) &&
  (!a.chans || b.chans) &&
  (!a.far || b.far) &&
  (!a.near || b.near) &&
  (!a.memIo || b.memIo) &&
  (!a.memCfg || b.memCfg) &&
  (!a.hsf || b.hsf) &&
  (!a.bisnps || b.bisnps) &&
  (!a.links || b.links) &&
  (!a.pba || b.pba) &&
  (!a.hreqs || b.hreqs) &&
  (!a.nextRid || b.nextRid) &&
  (!a.accs || b.accs) &&
  (!a.lse || b.lse) &&
  (!a.fnc || b.fnc) &&
  (!a.xlts || b.xlts) &&
  (!a.xinv || b.xinv) &&
  (!a.ports || b.ports) &&
  (!a.rtrTx || b.rtrTx) &&
  (!a.rtrRx || b.rtrRx) &&
  (!a.rtrUn || b.rtrUn) &&
  (!a.rtr || b.rtr) &&
  (!a.dom || b.dom) &&
  (!a.mt || b.mt) &&
  (!a.mtu || b.mtu) &&
  (!a.pors || b.pors) &&
  (!a.qmg || b.qmg) &&
  (!a.ledger || b.ledger) &&
  (!a.bkt || b.bkt) &&
  (!a.flip || b.flip) &&
  (!a.ras || b.ras) &&
  (!a.flash || b.flash) &&
  (!a.mgtq || b.mgtq) &&
  (!a.mgt || b.mgt) &&
  (!a.tlys || b.tlys) &&
  (!a.events || b.events) &&
  (!a.trc || b.trc) &&
  (!a.tap || b.tap) &&
  (!a.outs || b.outs)

/-- The pieces of both. -/
def Mask.or (a b : Mask) : Mask where
  clk := a.clk || b.clk
  cyc0 := a.cyc0 || b.cyc0
  paused := a.paused || b.paused
  free := a.free || b.free
  finds := a.finds || b.finds
  due := a.due || b.due
  pcr := a.pcr || b.pcr
  boot := a.boot || b.boot
  node := a.node || b.node
  csr := a.csr || b.csr
  trcCfg := a.trcCfg || b.trcCfg
  msix := a.msix || b.msix
  irq := a.irq || b.irq
  glbPart := a.glbPart || b.glbPart
  glbHouse := a.glbHouse || b.glbHouse
  mode := a.mode || b.mode
  slices := a.slices || b.slices
  banks := a.banks || b.banks
  chans := a.chans || b.chans
  far := a.far || b.far
  near := a.near || b.near
  memIo := a.memIo || b.memIo
  memCfg := a.memCfg || b.memCfg
  hsf := a.hsf || b.hsf
  bisnps := a.bisnps || b.bisnps
  links := a.links || b.links
  pba := a.pba || b.pba
  hreqs := a.hreqs || b.hreqs
  nextRid := a.nextRid || b.nextRid
  accs := a.accs || b.accs
  lse := a.lse || b.lse
  fnc := a.fnc || b.fnc
  xlts := a.xlts || b.xlts
  xinv := a.xinv || b.xinv
  ports := a.ports || b.ports
  rtrTx := a.rtrTx || b.rtrTx
  rtrRx := a.rtrRx || b.rtrRx
  rtrUn := a.rtrUn || b.rtrUn
  rtr := a.rtr || b.rtr
  dom := a.dom || b.dom
  mt := a.mt || b.mt
  mtu := a.mtu || b.mtu
  pors := a.pors || b.pors
  qmg := a.qmg || b.qmg
  ledger := a.ledger || b.ledger
  bkt := a.bkt || b.bkt
  flip := a.flip || b.flip
  ras := a.ras || b.ras
  flash := a.flash || b.flash
  mgtq := a.mgtq || b.mgtq
  mgt := a.mgt || b.mgt
  tlys := a.tlys || b.tlys
  events := a.events || b.events
  trc := a.trc || b.trc
  tap := a.tap || b.tap
  outs := a.outs || b.outs

theorem hide_mono {α : Type} {p q : Bool} {x y : α} (h : (!p || q) = true) (k : hide p y = hide p x) : hide q y = hide q x := by
  cases p with
  | false => rw [Option.some.inj k]
  | true => cases q with
    | true => rfl
    | false => cases h

theorem hide_of {α : Type} {q : Bool} {x y : α} (h : q = true ∨ y = x) : hide q y = hide q x := by
  rcases h with h | h
  · rw [h]; rfl
  · rw [h]

theorem hide_some {α : Type} {p : Bool} {x y : α} (h : p = false) (k : hide p y = hide p x) : y = x := by
  rw [h] at k
  exact Option.some.inj k

/-- Piecewise proof that only the pieces of a mask change. -/
theorem Only.of {m : Mask} {s t : State} (hpart : t.part = s.part) (hpending : t.pending = s.pending)
    (h_clk : m.clk = true ∨ (t.clk) = (s.clk))
    (h_cyc0 : m.cyc0 = true ∨ (t.cyc0) = (s.cyc0))
    (h_paused : m.paused = true ∨ (t.paused) = (s.paused))
    (h_free : m.free = true ∨ (t.free) = (s.free))
    (h_finds : m.finds = true ∨ (t.finds) = (s.finds))
    (h_due : m.due = true ∨ ((t.ras.fatalDue, t.mem.houseUe)) = ((s.ras.fatalDue, s.mem.houseUe)))
    (h_pcr : m.pcr = true ∨ (t.pcr) = (s.pcr))
    (h_boot : m.boot = true ∨ (t.boot) = (s.boot))
    (h_node : m.node = true ∨ (t.node) = (s.node))
    (h_csr : m.csr = true ∨ (fun o => if o = offTrc 0 then 0 else csrReset o ^^^ Tab.get 0 t.csr o) = (fun o => if o = offTrc 0 then 0 else csrReset o ^^^ Tab.get 0 s.csr o))
    (h_trcCfg : m.trcCfg = true ∨ (csrReset (offTrc 0) ^^^ Tab.get 0 t.csr (offTrc 0)) = (csrReset (offTrc 0) ^^^ Tab.get 0 s.csr (offTrc 0)))
    (h_msix : m.msix = true ∨ (t.msix) = (s.msix))
    (h_irq : m.irq = true ∨ (t.irq) = (s.irq))
    (h_glbPart : m.glbPart = true ∨ (t.glbPart) = (s.glbPart))
    (h_glbHouse : m.glbHouse = true ∨ (t.glbHouse) = (s.glbHouse))
    (h_mode : m.mode = true ∨ (t.mode) = (s.mode))
    (h_slices : m.slices = true ∨ (t.slices) = (s.slices))
    (h_banks : m.banks = true ∨ (t.banks) = (s.banks))
    (h_chans : m.chans = true ∨ (t.mem.chans) = (s.mem.chans))
    (h_far : m.far = true ∨ ((t.mem.far, t.mem.farPoison, t.mem.farWritten, t.mem.farZero, t.mem.zmap, t.mem.ztrk)) = ((s.mem.far, s.mem.farPoison, s.mem.farWritten, s.mem.farZero, s.mem.zmap, s.mem.ztrk)))
    (h_near : m.near = true ∨ ((t.mem.near, t.mem.nearPoison, t.mem.tags, t.mem.recs, t.mem.raw)) = ((s.mem.near, s.mem.nearPoison, s.mem.tags, s.mem.recs, s.mem.raw)))
    (h_memIo : m.memIo = true ∨ ((t.mem.reads, t.mem.nextTok, t.mem.nextSeq)) = ((s.mem.reads, s.mem.nextTok, s.mem.nextSeq)))
    (h_memCfg : m.memCfg = true ∨ ((t.mem.pasrMask, t.mem.pasrEn, t.mem.rbits, t.mem.kbits, t.mem.popSet, t.mem.softPpr, t.mem.hardPpr, t.mem.dram)) = ((s.mem.pasrMask, s.mem.pasrEn, s.mem.rbits, s.mem.kbits, s.mem.popSet, s.mem.softPpr, s.mem.hardPpr, s.mem.dram)))
    (h_hsf : m.hsf = true ∨ (t.hsf) = (s.hsf))
    (h_bisnps : m.bisnps = true ∨ ((t.bisnps, t.nextBi)) = ((s.bisnps, s.nextBi)))
    (h_links : m.links = true ∨ (fun l => (Tab.get {} t.links l).noPba) = (fun l => (Tab.get {} s.links l).noPba))
    (h_pba : m.pba = true ∨ (fun l => (Tab.get {} t.links l).pba) = (fun l => (Tab.get {} s.links l).pba))
    (h_hreqs : m.hreqs = true ∨ (t.hreqs) = (s.hreqs))
    (h_nextRid : m.nextRid = true ∨ (t.nextRid) = (s.nextRid))
    (h_accs : m.accs = true ∨ ((t.accs, t.fails)) = ((s.accs, s.fails)))
    (h_lse : m.lse = true ∨ (t.lse) = (s.lse))
    (h_fnc : m.fnc = true ∨ (t.fnc) = (s.fnc))
    (h_xlts : m.xlts = true ∨ (t.xlts) = (s.xlts))
    (h_xinv : m.xinv = true ∨ (t.xinv) = (s.xinv))
    (h_ports : m.ports = true ∨ (t.ports) = (s.ports))
    (h_rtrTx : m.rtrTx = true ∨ ((t.rtr.q, t.rtr.oseqTx)) = ((s.rtr.q, s.rtr.oseqTx)))
    (h_rtrRx : m.rtrRx = true ∨ (t.rtr.delivered) = (s.rtr.delivered))
    (h_rtrUn : m.rtrUn = true ∨ (t.rtr.unreach) = (s.rtr.unreach))
    (h_rtr : m.rtr = true ∨ ((t.rtr.enabled, t.rtr.oseqRx, t.rtr.store, t.rtr.hopDiscard, t.rtr.routeFail, t.rtr.oseqGap, t.rtr.mgtRefused, t.rtr.bufs, t.rtr.downDoms, t.rtr.badRt)) = ((s.rtr.enabled, s.rtr.oseqRx, s.rtr.store, s.rtr.hopDiscard, s.rtr.routeFail, s.rtr.oseqGap, s.rtr.mgtRefused, s.rtr.bufs, s.rtr.downDoms, s.rtr.badRt)))
    (h_dom : m.dom = true ∨ (t.dom) = (s.dom))
    (h_mt : m.mt = true ∨ ((t.mtu.mt, t.mtu.half, t.mtu.hold)) = ((s.mtu.mt, s.mtu.half, s.mtu.hold)))
    (h_mtu : m.mtu = true ∨ (({ t.mtu with mt := 0, half := none, hold := none } : Mtu)) = (({ s.mtu with mt := 0, half := none, hold := none } : Mtu)))
    (h_pors : m.pors = true ∨ (t.pors) = (s.pors))
    (h_qmg : m.qmg = true ∨ (t.qmg) = (s.qmg))
    (h_ledger : m.ledger = true ∨ ((t.ras.ring, t.ras.lost, t.ras.pend, t.ras.pendLost)) = ((s.ras.ring, s.ras.lost, s.ras.pend, s.ras.pendLost)))
    (h_bkt : m.bkt = true ∨ ((t.ras.bkt, t.ras.leaks)) = ((s.ras.bkt, s.ras.leaks)))
    (h_flip : m.flip = true ∨ ((t.ras.arm, t.ras.flipAdr, t.ras.flipAt, t.ras.latent)) = ((s.ras.arm, s.ras.flipAdr, s.ras.flipAt, s.ras.latent)))
    (h_ras : m.ras = true ∨ ((t.ras.inService, t.ras.pgcInit, t.ras.pgcScrub, t.ras.zcache, t.ras.tmrTold)) = ((s.ras.inService, s.ras.pgcInit, s.ras.pgcScrub, s.ras.zcache, s.ras.tmrTold)))
    (h_flash : m.flash = true ∨ ((t.mgt.flashA, t.mgt.flashB)) = ((s.mgt.flashA, s.mgt.flashB)))
    (h_mgtq : m.mgtq = true ∨ ((t.mgt.queue, t.mgt.running, t.mgt.nextId)) = ((s.mgt.queue, s.mgt.running, s.mgt.nextId)))
    (h_mgt : m.mgt = true ∨ ((t.mgt.range, t.mgt.moving, t.mgt.transition, t.mgt.bist, t.mgt.pasr, t.mgt.thawed, t.mgt.i3c)) = ((s.mgt.range, s.mgt.moving, s.mgt.transition, s.mgt.bist, s.mgt.pasr, s.mgt.thawed, s.mgt.i3c)))
    (h_tlys : m.tlys = true ∨ (t.tlys) = (s.tlys))
    (h_events : m.events = true ∨ (t.events) = (s.events))
    (h_trc : m.trc = true ∨ (t.trc) = (s.trc))
    (h_tap : m.tap = true ∨ (t.tap) = (s.tap))
    (h_outs : m.outs = true ∨ (t.outs) = (s.outs)) :
    Only m s t := by
  unfold Only view
  rw [hpart, hpending]
  congr 1
  · exact hide_of h_clk
  · exact hide_of h_cyc0
  · exact hide_of h_paused
  · exact hide_of h_free
  · exact hide_of h_finds
  · exact hide_of h_due
  · exact hide_of h_pcr
  · exact hide_of h_boot
  · exact hide_of h_node
  · exact hide_of h_csr
  · exact hide_of h_trcCfg
  · exact hide_of h_msix
  · exact hide_of h_irq
  · exact hide_of h_glbPart
  · exact hide_of h_glbHouse
  · exact hide_of h_mode
  · exact hide_of h_slices
  · exact hide_of h_banks
  · exact hide_of h_chans
  · exact hide_of h_far
  · exact hide_of h_near
  · exact hide_of h_memIo
  · exact hide_of h_memCfg
  · exact hide_of h_hsf
  · exact hide_of h_bisnps
  · exact hide_of h_links
  · exact hide_of h_pba
  · exact hide_of h_hreqs
  · exact hide_of h_nextRid
  · exact hide_of h_accs
  · exact hide_of h_lse
  · exact hide_of h_fnc
  · exact hide_of h_xlts
  · exact hide_of h_xinv
  · exact hide_of h_ports
  · exact hide_of h_rtrTx
  · exact hide_of h_rtrRx
  · exact hide_of h_rtrUn
  · exact hide_of h_rtr
  · exact hide_of h_dom
  · exact hide_of h_mt
  · exact hide_of h_mtu
  · exact hide_of h_pors
  · exact hide_of h_qmg
  · exact hide_of h_ledger
  · exact hide_of h_bkt
  · exact hide_of h_flip
  · exact hide_of h_ras
  · exact hide_of h_flash
  · exact hide_of h_mgtq
  · exact hide_of h_mgt
  · exact hide_of h_tlys
  · exact hide_of h_events
  · exact hide_of h_trc
  · exact hide_of h_tap
  · exact hide_of h_outs

theorem Only.refl (m : Mask) (s : State) : Only m s s := rfl

theorem Only.trans {m : Mask} {s t u : State} (h : Only m s t) (k : Only m t u) : Only m s u := Eq.trans k h

theorem Only.part {m : Mask} {s t : State} (h : Only m s t) : t.part = s.part := congrArg View.part h
theorem Only.pending {m : Mask} {s t : State} (h : Only m s t) : t.pending = s.pending := congrArg View.pending h

theorem Only.mono {a b : Mask} {s t : State} (h : a.le b = true) (k : Only a s t) : Only b s t := by
  simp only [Mask.le, Bool.and_eq_true] at h
  obtain ⟨⟨⟨⟨⟨⟨⟨⟨⟨⟨⟨⟨⟨⟨⟨⟨⟨⟨⟨⟨⟨⟨⟨⟨⟨⟨⟨⟨⟨⟨⟨⟨⟨⟨⟨⟨⟨⟨⟨⟨⟨⟨⟨⟨⟨⟨⟨⟨⟨⟨⟨⟨⟨⟨⟨h_clk, h_cyc0⟩, h_paused⟩, h_free⟩, h_finds⟩, h_due⟩, h_pcr⟩, h_boot⟩, h_node⟩, h_csr⟩, h_trcCfg⟩, h_msix⟩, h_irq⟩, h_glbPart⟩, h_glbHouse⟩, h_mode⟩, h_slices⟩, h_banks⟩, h_chans⟩, h_far⟩, h_near⟩, h_memIo⟩, h_memCfg⟩, h_hsf⟩, h_bisnps⟩, h_links⟩, h_pba⟩, h_hreqs⟩, h_nextRid⟩, h_accs⟩, h_lse⟩, h_fnc⟩, h_xlts⟩, h_xinv⟩, h_ports⟩, h_rtrTx⟩, h_rtrRx⟩, h_rtrUn⟩, h_rtr⟩, h_dom⟩, h_mt⟩, h_mtu⟩, h_pors⟩, h_qmg⟩, h_ledger⟩, h_bkt⟩, h_flip⟩, h_ras⟩, h_flash⟩, h_mgtq⟩, h_mgt⟩, h_tlys⟩, h_events⟩, h_trc⟩, h_tap⟩, h_outs⟩ := h
  unfold Only view at k ⊢
  simp only [View.mk.injEq] at k ⊢
  obtain ⟨k_part, k_pending, k_clk, k_cyc0, k_paused, k_free, k_finds, k_due, k_pcr, k_boot, k_node, k_csr, k_trcCfg, k_msix, k_irq, k_glbPart, k_glbHouse, k_mode, k_slices, k_banks, k_chans, k_far, k_near, k_memIo, k_memCfg, k_hsf, k_bisnps, k_links, k_pba, k_hreqs, k_nextRid, k_accs, k_lse, k_fnc, k_xlts, k_xinv, k_ports, k_rtrTx, k_rtrRx, k_rtrUn, k_rtr, k_dom, k_mt, k_mtu, k_pors, k_qmg, k_ledger, k_bkt, k_flip, k_ras, k_flash, k_mgtq, k_mgt, k_tlys, k_events, k_trc, k_tap, k_outs⟩ := k
  exact ⟨k_part, k_pending, hide_mono h_clk k_clk, hide_mono h_cyc0 k_cyc0, hide_mono h_paused k_paused, hide_mono h_free k_free, hide_mono h_finds k_finds, hide_mono h_due k_due, hide_mono h_pcr k_pcr, hide_mono h_boot k_boot, hide_mono h_node k_node, hide_mono h_csr k_csr, hide_mono h_trcCfg k_trcCfg, hide_mono h_msix k_msix, hide_mono h_irq k_irq, hide_mono h_glbPart k_glbPart, hide_mono h_glbHouse k_glbHouse, hide_mono h_mode k_mode, hide_mono h_slices k_slices, hide_mono h_banks k_banks, hide_mono h_chans k_chans, hide_mono h_far k_far, hide_mono h_near k_near, hide_mono h_memIo k_memIo, hide_mono h_memCfg k_memCfg, hide_mono h_hsf k_hsf, hide_mono h_bisnps k_bisnps, hide_mono h_links k_links, hide_mono h_pba k_pba, hide_mono h_hreqs k_hreqs, hide_mono h_nextRid k_nextRid, hide_mono h_accs k_accs, hide_mono h_lse k_lse, hide_mono h_fnc k_fnc, hide_mono h_xlts k_xlts, hide_mono h_xinv k_xinv, hide_mono h_ports k_ports, hide_mono h_rtrTx k_rtrTx, hide_mono h_rtrRx k_rtrRx, hide_mono h_rtrUn k_rtrUn, hide_mono h_rtr k_rtr, hide_mono h_dom k_dom, hide_mono h_mt k_mt, hide_mono h_mtu k_mtu, hide_mono h_pors k_pors, hide_mono h_qmg k_qmg, hide_mono h_ledger k_ledger, hide_mono h_bkt k_bkt, hide_mono h_flip k_flip, hide_mono h_ras k_ras, hide_mono h_flash k_flash, hide_mono h_mgtq k_mgtq, hide_mono h_mgt k_mgt, hide_mono h_tlys k_tlys, hide_mono h_events k_events, hide_mono h_trc k_trc, hide_mono h_tap k_tap, hide_mono h_outs k_outs⟩

theorem Only.clk {m : Mask} {s t : State} (h : Only m s t) (hm : m.clk = false) :
    (t.clk) = (s.clk) := hide_some hm (congrArg View.clk h)
theorem Only.cyc0 {m : Mask} {s t : State} (h : Only m s t) (hm : m.cyc0 = false) :
    (t.cyc0) = (s.cyc0) := hide_some hm (congrArg View.cyc0 h)
theorem Only.paused {m : Mask} {s t : State} (h : Only m s t) (hm : m.paused = false) :
    (t.paused) = (s.paused) := hide_some hm (congrArg View.paused h)
theorem Only.free {m : Mask} {s t : State} (h : Only m s t) (hm : m.free = false) :
    (t.free) = (s.free) := hide_some hm (congrArg View.free h)
theorem Only.finds {m : Mask} {s t : State} (h : Only m s t) (hm : m.finds = false) :
    (t.finds) = (s.finds) := hide_some hm (congrArg View.finds h)
theorem Only.due {m : Mask} {s t : State} (h : Only m s t) (hm : m.due = false) :
    ((t.ras.fatalDue, t.mem.houseUe)) = ((s.ras.fatalDue, s.mem.houseUe)) := hide_some hm (congrArg View.due h)
theorem Only.pcr {m : Mask} {s t : State} (h : Only m s t) (hm : m.pcr = false) :
    (t.pcr) = (s.pcr) := hide_some hm (congrArg View.pcr h)
theorem Only.boot {m : Mask} {s t : State} (h : Only m s t) (hm : m.boot = false) :
    (t.boot) = (s.boot) := hide_some hm (congrArg View.boot h)
theorem Only.node {m : Mask} {s t : State} (h : Only m s t) (hm : m.node = false) :
    (t.node) = (s.node) := hide_some hm (congrArg View.node h)
theorem Only.csr {m : Mask} {s t : State} (h : Only m s t) (hm : m.csr = false) :
    (fun o => if o = offTrc 0 then 0 else csrReset o ^^^ Tab.get 0 t.csr o) = (fun o => if o = offTrc 0 then 0 else csrReset o ^^^ Tab.get 0 s.csr o) := hide_some hm (congrArg View.csr h)
theorem Only.trcCfg {m : Mask} {s t : State} (h : Only m s t) (hm : m.trcCfg = false) :
    (csrReset (offTrc 0) ^^^ Tab.get 0 t.csr (offTrc 0)) = (csrReset (offTrc 0) ^^^ Tab.get 0 s.csr (offTrc 0)) := hide_some hm (congrArg View.trcCfg h)
theorem Only.msix {m : Mask} {s t : State} (h : Only m s t) (hm : m.msix = false) :
    (t.msix) = (s.msix) := hide_some hm (congrArg View.msix h)
theorem Only.irq {m : Mask} {s t : State} (h : Only m s t) (hm : m.irq = false) :
    (t.irq) = (s.irq) := hide_some hm (congrArg View.irq h)
theorem Only.glbPart {m : Mask} {s t : State} (h : Only m s t) (hm : m.glbPart = false) :
    (t.glbPart) = (s.glbPart) := hide_some hm (congrArg View.glbPart h)
theorem Only.glbHouse {m : Mask} {s t : State} (h : Only m s t) (hm : m.glbHouse = false) :
    (t.glbHouse) = (s.glbHouse) := hide_some hm (congrArg View.glbHouse h)
theorem Only.mode {m : Mask} {s t : State} (h : Only m s t) (hm : m.mode = false) :
    (t.mode) = (s.mode) := hide_some hm (congrArg View.mode h)
theorem Only.slices {m : Mask} {s t : State} (h : Only m s t) (hm : m.slices = false) :
    (t.slices) = (s.slices) := hide_some hm (congrArg View.slices h)
theorem Only.banks {m : Mask} {s t : State} (h : Only m s t) (hm : m.banks = false) :
    (t.banks) = (s.banks) := hide_some hm (congrArg View.banks h)
theorem Only.chans {m : Mask} {s t : State} (h : Only m s t) (hm : m.chans = false) :
    (t.mem.chans) = (s.mem.chans) := hide_some hm (congrArg View.chans h)
theorem Only.far {m : Mask} {s t : State} (h : Only m s t) (hm : m.far = false) :
    ((t.mem.far, t.mem.farPoison, t.mem.farWritten, t.mem.farZero, t.mem.zmap, t.mem.ztrk)) = ((s.mem.far, s.mem.farPoison, s.mem.farWritten, s.mem.farZero, s.mem.zmap, s.mem.ztrk)) := hide_some hm (congrArg View.far h)
theorem Only.near {m : Mask} {s t : State} (h : Only m s t) (hm : m.near = false) :
    ((t.mem.near, t.mem.nearPoison, t.mem.tags, t.mem.recs, t.mem.raw)) = ((s.mem.near, s.mem.nearPoison, s.mem.tags, s.mem.recs, s.mem.raw)) := hide_some hm (congrArg View.near h)
theorem Only.memIo {m : Mask} {s t : State} (h : Only m s t) (hm : m.memIo = false) :
    ((t.mem.reads, t.mem.nextTok, t.mem.nextSeq)) = ((s.mem.reads, s.mem.nextTok, s.mem.nextSeq)) := hide_some hm (congrArg View.memIo h)
theorem Only.memCfg {m : Mask} {s t : State} (h : Only m s t) (hm : m.memCfg = false) :
    ((t.mem.pasrMask, t.mem.pasrEn, t.mem.rbits, t.mem.kbits, t.mem.popSet, t.mem.softPpr, t.mem.hardPpr, t.mem.dram)) = ((s.mem.pasrMask, s.mem.pasrEn, s.mem.rbits, s.mem.kbits, s.mem.popSet, s.mem.softPpr, s.mem.hardPpr, s.mem.dram)) := hide_some hm (congrArg View.memCfg h)
theorem Only.hsf {m : Mask} {s t : State} (h : Only m s t) (hm : m.hsf = false) :
    (t.hsf) = (s.hsf) := hide_some hm (congrArg View.hsf h)
theorem Only.bisnps {m : Mask} {s t : State} (h : Only m s t) (hm : m.bisnps = false) :
    ((t.bisnps, t.nextBi)) = ((s.bisnps, s.nextBi)) := hide_some hm (congrArg View.bisnps h)
theorem Only.links {m : Mask} {s t : State} (h : Only m s t) (hm : m.links = false) :
    (fun l => (Tab.get {} t.links l).noPba) = (fun l => (Tab.get {} s.links l).noPba) := hide_some hm (congrArg View.links h)
theorem Only.pba {m : Mask} {s t : State} (h : Only m s t) (hm : m.pba = false) :
    (fun l => (Tab.get {} t.links l).pba) = (fun l => (Tab.get {} s.links l).pba) := hide_some hm (congrArg View.pba h)
theorem Only.hreqs {m : Mask} {s t : State} (h : Only m s t) (hm : m.hreqs = false) :
    (t.hreqs) = (s.hreqs) := hide_some hm (congrArg View.hreqs h)
theorem Only.nextRid {m : Mask} {s t : State} (h : Only m s t) (hm : m.nextRid = false) :
    (t.nextRid) = (s.nextRid) := hide_some hm (congrArg View.nextRid h)
theorem Only.accs {m : Mask} {s t : State} (h : Only m s t) (hm : m.accs = false) :
    ((t.accs, t.fails)) = ((s.accs, s.fails)) := hide_some hm (congrArg View.accs h)
theorem Only.lse {m : Mask} {s t : State} (h : Only m s t) (hm : m.lse = false) :
    (t.lse) = (s.lse) := hide_some hm (congrArg View.lse h)
theorem Only.fnc {m : Mask} {s t : State} (h : Only m s t) (hm : m.fnc = false) :
    (t.fnc) = (s.fnc) := hide_some hm (congrArg View.fnc h)
theorem Only.xlts {m : Mask} {s t : State} (h : Only m s t) (hm : m.xlts = false) :
    (t.xlts) = (s.xlts) := hide_some hm (congrArg View.xlts h)
theorem Only.xinv {m : Mask} {s t : State} (h : Only m s t) (hm : m.xinv = false) :
    (t.xinv) = (s.xinv) := hide_some hm (congrArg View.xinv h)
theorem Only.ports {m : Mask} {s t : State} (h : Only m s t) (hm : m.ports = false) :
    (t.ports) = (s.ports) := hide_some hm (congrArg View.ports h)
theorem Only.rtrTx {m : Mask} {s t : State} (h : Only m s t) (hm : m.rtrTx = false) :
    ((t.rtr.q, t.rtr.oseqTx)) = ((s.rtr.q, s.rtr.oseqTx)) := hide_some hm (congrArg View.rtrTx h)
theorem Only.rtrRx {m : Mask} {s t : State} (h : Only m s t) (hm : m.rtrRx = false) :
    (t.rtr.delivered) = (s.rtr.delivered) := hide_some hm (congrArg View.rtrRx h)
theorem Only.rtrUn {m : Mask} {s t : State} (h : Only m s t) (hm : m.rtrUn = false) :
    (t.rtr.unreach) = (s.rtr.unreach) := hide_some hm (congrArg View.rtrUn h)
theorem Only.rtr {m : Mask} {s t : State} (h : Only m s t) (hm : m.rtr = false) :
    ((t.rtr.enabled, t.rtr.oseqRx, t.rtr.store, t.rtr.hopDiscard, t.rtr.routeFail, t.rtr.oseqGap, t.rtr.mgtRefused, t.rtr.bufs, t.rtr.downDoms, t.rtr.badRt)) = ((s.rtr.enabled, s.rtr.oseqRx, s.rtr.store, s.rtr.hopDiscard, s.rtr.routeFail, s.rtr.oseqGap, s.rtr.mgtRefused, s.rtr.bufs, s.rtr.downDoms, s.rtr.badRt)) := hide_some hm (congrArg View.rtr h)
theorem Only.dom {m : Mask} {s t : State} (h : Only m s t) (hm : m.dom = false) :
    (t.dom) = (s.dom) := hide_some hm (congrArg View.dom h)
theorem Only.mt {m : Mask} {s t : State} (h : Only m s t) (hm : m.mt = false) :
    ((t.mtu.mt, t.mtu.half, t.mtu.hold)) = ((s.mtu.mt, s.mtu.half, s.mtu.hold)) := hide_some hm (congrArg View.mt h)
theorem Only.mtu {m : Mask} {s t : State} (h : Only m s t) (hm : m.mtu = false) :
    (({ t.mtu with mt := 0, half := none, hold := none } : Mtu)) = (({ s.mtu with mt := 0, half := none, hold := none } : Mtu)) := hide_some hm (congrArg View.mtu h)
theorem Only.pors {m : Mask} {s t : State} (h : Only m s t) (hm : m.pors = false) :
    (t.pors) = (s.pors) := hide_some hm (congrArg View.pors h)
theorem Only.qmg {m : Mask} {s t : State} (h : Only m s t) (hm : m.qmg = false) :
    (t.qmg) = (s.qmg) := hide_some hm (congrArg View.qmg h)
theorem Only.ledger {m : Mask} {s t : State} (h : Only m s t) (hm : m.ledger = false) :
    ((t.ras.ring, t.ras.lost, t.ras.pend, t.ras.pendLost)) = ((s.ras.ring, s.ras.lost, s.ras.pend, s.ras.pendLost)) := hide_some hm (congrArg View.ledger h)
theorem Only.bkt {m : Mask} {s t : State} (h : Only m s t) (hm : m.bkt = false) :
    ((t.ras.bkt, t.ras.leaks)) = ((s.ras.bkt, s.ras.leaks)) := hide_some hm (congrArg View.bkt h)
theorem Only.flip {m : Mask} {s t : State} (h : Only m s t) (hm : m.flip = false) :
    ((t.ras.arm, t.ras.flipAdr, t.ras.flipAt, t.ras.latent)) = ((s.ras.arm, s.ras.flipAdr, s.ras.flipAt, s.ras.latent)) := hide_some hm (congrArg View.flip h)
theorem Only.ras {m : Mask} {s t : State} (h : Only m s t) (hm : m.ras = false) :
    ((t.ras.inService, t.ras.pgcInit, t.ras.pgcScrub, t.ras.zcache, t.ras.tmrTold)) = ((s.ras.inService, s.ras.pgcInit, s.ras.pgcScrub, s.ras.zcache, s.ras.tmrTold)) := hide_some hm (congrArg View.ras h)
theorem Only.flash {m : Mask} {s t : State} (h : Only m s t) (hm : m.flash = false) :
    ((t.mgt.flashA, t.mgt.flashB)) = ((s.mgt.flashA, s.mgt.flashB)) := hide_some hm (congrArg View.flash h)
theorem Only.mgtq {m : Mask} {s t : State} (h : Only m s t) (hm : m.mgtq = false) :
    ((t.mgt.queue, t.mgt.running, t.mgt.nextId)) = ((s.mgt.queue, s.mgt.running, s.mgt.nextId)) := hide_some hm (congrArg View.mgtq h)
theorem Only.mgt {m : Mask} {s t : State} (h : Only m s t) (hm : m.mgt = false) :
    ((t.mgt.range, t.mgt.moving, t.mgt.transition, t.mgt.bist, t.mgt.pasr, t.mgt.thawed, t.mgt.i3c)) = ((s.mgt.range, s.mgt.moving, s.mgt.transition, s.mgt.bist, s.mgt.pasr, s.mgt.thawed, s.mgt.i3c)) := hide_some hm (congrArg View.mgt h)
theorem Only.tlys {m : Mask} {s t : State} (h : Only m s t) (hm : m.tlys = false) :
    (t.tlys) = (s.tlys) := hide_some hm (congrArg View.tlys h)
theorem Only.events {m : Mask} {s t : State} (h : Only m s t) (hm : m.events = false) :
    (t.events) = (s.events) := hide_some hm (congrArg View.events h)
theorem Only.trc {m : Mask} {s t : State} (h : Only m s t) (hm : m.trc = false) :
    (t.trc) = (s.trc) := hide_some hm (congrArg View.trc h)
theorem Only.tap {m : Mask} {s t : State} (h : Only m s t) (hm : m.tap = false) :
    (t.tap) = (s.tap) := hide_some hm (congrArg View.tap h)
theorem Only.outs {m : Mask} {s t : State} (h : Only m s t) (hm : m.outs = false) :
    (t.outs) = (s.outs) := hide_some hm (congrArg View.outs h)

/-- Going from `s` to `t` changes only the pieces of `m` and keeps the invariant. -/
structure Within (m : Mask) (s t : State) : Prop where
  only : Only m s t
  inv : StateInv s → StateInv t

theorem Within.refl (m : Mask) (s : State) : Within m s s := ⟨rfl, id⟩

theorem Within.trans {m : Mask} {s t u : State} (h : Within m s t) (k : Within m t u) : Within m s u :=
  ⟨h.only.trans k.only, fun i => k.inv (h.inv i)⟩

theorem Within.mono {a b : Mask} {s t : State} (h : a.le b = true) (k : Within a s t) : Within b s t := ⟨k.only.mono h, k.inv⟩

/-- After an operation that stays within `a`, inside `b`. -/
theorem Within.app {a b : Mask} {s t u : State} (k : Within a t u) (h : a.le b = true) (w : Within b s t) : Within b s u :=
  w.trans (k.mono h)

theorem Within.ite {m : Mask} {s a b : State} {c : Prop} {i : Decidable c} (h : Within m s a) (k : Within m s b) :
    Within m s (@ite State c i a b) := by
  cases i <;> assumption

theorem Within.foldl {m : Mask} {s t : State} {α : Type} {f : State → α → State} {l : List α} (h : ∀ x a, Within m x (f x a))
    (w : Within m s t) : Within m s (l.foldl f t) := by
  induction l generalizing t with
  | nil => exact w
  | cons a l ih => exact ih (w.trans (h t a))

theorem Within.foldl_fst {m : Mask} {s : State} {α β : Type} {f : State × β → α → State × β} {l : List α} {p : State × β}
    (h : ∀ x a, Within m x.1 (f x a).1) (w : Within m s p.1) : Within m s (l.foldl f p).1 := by
  induction l generalizing p with
  | nil => exact w
  | cons a l ih => exact ih (w.trans (h p a))

theorem Within.foldl_snd {m : Mask} {s : State} {α β : Type} {f : β × State → α → β × State} {l : List α} {p : β × State}
    (h : ∀ x a, Within m x.2 (f x a).2) (w : Within m s p.2) : Within m s (l.foldl f p).2 := by
  induction l generalizing p with
  | nil => exact w
  | cons a l ih => exact ih (w.trans (h p a))

/-- Cut: an intermediate state may be forgotten once it is known to lie within the mask. -/
theorem Within.cut {m : Mask} {s x t : State} (h : Within m s x) (k : Within m s x → Within m s t) : Within m s t := k h

/-- The same for a local function that goes on from the state it is given. -/
theorem Within.cutS {m : Mask} {s t : State} {x : State → State} (h : ∀ y, Within m y (x y))
    (k : (∀ y, Within m y (x y)) → Within m s t) : Within m s t := k h

theorem Within.cutS1 {m : Mask} {s t : State} {α : Type} {x : State → α → State} (h : ∀ y a, Within m y (x y a))
    (k : (∀ y a, Within m y (x y a)) → Within m s t) : Within m s t := k h

theorem Within.cutF {m : Mask} {s t : State} {α : Type} {x : α → State} (h : ∀ a, Within m s (x a))
    (k : (∀ a, Within m s (x a)) → Within m s t) : Within m s t := k h

theorem Within.callS {m : Mask} {s t : State} {x : State → State} (h : ∀ y, Within m y (x y)) (w : Within m s t) : Within m s (x t) :=
  w.trans (h t)

theorem Within.callS1 {m : Mask} {s t : State} {α : Type} {a : α} {x : State → α → State} (h : ∀ y a, Within m y (x y a))
    (w : Within m s t) : Within m s (x t a) := w.trans (h t a)

theorem Within.cutS2 {t : State} {m : Mask} {s : State} {β γ : Type} {x : State → β → γ → State} (h : ∀ y b c, Within m y (x y b c))
    (k : (∀ y b c, Within m y (x y b c)) → Within m s t) : Within m s t := k h
theorem Within.callS2 {m : Mask} {s t : State} {β γ : Type} {b : β} {c : γ} {x : State → β → γ → State}
    (h : ∀ y b c, Within m y (x y b c)) (w : Within m s t) : Within m s (x t b c) := w.trans (h t b c)

/-- An operation that answers no state, or one within the mask. -/
def WithinO (m : Mask) (s : State) (o : Option State) : Prop := ∀ u, o = some u → Within m s u

theorem WithinO.none (m : Mask) (s : State) : WithinO m s none := fun _ h => nomatch h
theorem WithinO.some {m : Mask} {s t : State} (w : Within m s t) : WithinO m s (some t) := fun _ h => Option.some.inj h ▸ w
theorem WithinO.ite {m : Mask} {s : State} {a b : Option State} {c : Prop} {i : Decidable c} (h : WithinO m s a) (k : WithinO m s b) :
    WithinO m s (@ite (Option State) c i a b) := by
  cases i <;> assumption
theorem WithinO.mapS {m : Mask} {s : State} {f : State → State} {o : Option State} (h : ∀ t, Within m t (f t)) (w : WithinO m s o) :
    WithinO m s (o.map f) := by
  intro u e
  cases o with
  | none => cases e
  | some a => cases e; exact (w a rfl).trans (h a)
theorem WithinO.map {m : Mask} {s : State} {α : Type} {f : α → State} {o : Option α} (h : ∀ a, Within m s (f a)) :
    WithinO m s (o.map f) := by
  intro u e
  cases o with
  | none => cases e
  | some a => cases e; exact h a
theorem WithinO.cut {m : Mask} {s x : State} {o : Option State} (h : Within m s x) (k : Within m s x → WithinO m s o) : WithinO m s o :=
  k h
theorem WithinO.cutS {o : Option State} {m : Mask} {s : State} {x : State → State} (h : ∀ y, Within m y (x y))
    (k : (∀ y, Within m y (x y)) → WithinO m s o) : WithinO m s o := k h
theorem WithinO.cutS1 {o : Option State} {m : Mask} {s : State} {β : Type} {x : State → β → State} (h : ∀ y b, Within m y (x y b))
    (k : (∀ y b, Within m y (x y b)) → WithinO m s o) : WithinO m s o := k h
theorem WithinO.cutF {o : Option State} {m : Mask} {s : State} {β : Type} {x : β → State} (h : ∀ b, Within m s (x b))
    (k : (∀ b, Within m s (x b)) → WithinO m s o) : WithinO m s o := k h
theorem WithinO.cutS2 {o : Option State} {m : Mask} {s : State} {β γ : Type} {x : State → β → γ → State} (h : ∀ y b c, Within m y (x y b c))
    (k : (∀ y b c, Within m y (x y b c)) → WithinO m s o) : WithinO m s o := k h
theorem WithinO.app {a b : Mask} {s t : State} {o : Option State} (k : WithinO a t o) (h : a.le b = true) (w : Within b s t) :
    WithinO b s o := fun u e => (k u e).app h w
theorem WithinO.get {a b : Mask} {s t u : State} {o : Option State} (k : WithinO a t o) (e : o = .some u) (h : a.le b = true)
    (w : Within b s t) : Within b s u := (k u e).app h w

/-- An operation that answers a value beside a state within the mask. -/
def WithinP {α : Type} (m : Mask) (s : State) (p : α × State) : Prop := Within m s p.2

theorem WithinP.mk {α : Type} {m : Mask} {s t : State} {a : α} (w : Within m s t) : WithinP m s (a, t) := w
theorem WithinP.ite {α : Type} {m : Mask} {s : State} {a b : α × State} {c : Prop} {i : Decidable c} (h : WithinP m s a)
    (k : WithinP m s b) : WithinP m s (@ite (α × State) c i a b) := by
  cases i <;> assumption
theorem WithinP.cut {α : Type} {m : Mask} {s x : State} {p : α × State} (h : Within m s x) (k : Within m s x → WithinP m s p) :
    WithinP m s p := k h
theorem WithinP.cutS {α : Type} {o : α × State} {m : Mask} {s : State} {x : State → State} (h : ∀ y, Within m y (x y))
    (k : (∀ y, Within m y (x y)) → WithinP m s o) : WithinP m s o := k h
theorem WithinP.cutS1 {α : Type} {o : α × State} {m : Mask} {s : State} {β : Type} {x : State → β → State} (h : ∀ y b, Within m y (x y b))
    (k : (∀ y b, Within m y (x y b)) → WithinP m s o) : WithinP m s o := k h
theorem WithinP.cutF {α : Type} {o : α × State} {m : Mask} {s : State} {β : Type} {x : β → State} (h : ∀ b, Within m s (x b))
    (k : (∀ b, Within m s (x b)) → WithinP m s o) : WithinP m s o := k h
theorem WithinP.cutS2 {α : Type} {o : α × State} {m : Mask} {s : State} {β γ : Type} {x : State → β → γ → State} (h : ∀ y b c, Within m y (x y b c))
    (k : (∀ y b c, Within m y (x y b c)) → WithinP m s o) : WithinP m s o := k h
theorem WithinP.app {α : Type} {a b : Mask} {s t : State} {p : α × State} (k : WithinP a t p) (h : a.le b = true) (w : Within b s t) :
    WithinP b s p := Within.app k h w
theorem WithinP.snd {α : Type} {a b : Mask} {s t : State} {p : α × State} (k : WithinP a t p) (h : a.le b = true) (w : Within b s t) :
    Within b s p.2 := Within.app k h w
theorem WithinP.get {α : Type} {a b : Mask} {s t u : State} {x : α} {p : α × State} (k : WithinP a t p) (e : p = (x, u))
    (h : a.le b = true) (w : Within b s t) : Within b s u := by
  subst e; exact Within.app k h w

theorem WithinP.eq {α : Type} {m : Mask} {s u : State} {a : α} {p : α × State} (e : p = (a, u)) (w : WithinP m s p) : Within m s u := by
  subst e; exact w
theorem WithinO.eq {m : Mask} {s u : State} {o : Option State} (e : o = .some u) (w : WithinO m s o) : Within m s u := w u e
theorem WithinP.foldl {α β : Type} {m : Mask} {s : State} {f : α × State → β → α × State} {l : List β} {p : α × State}
    (h : ∀ a t b, WithinP m t (f (a, t) b)) (w : WithinP m s p) : WithinP m s (l.foldl f p) := by
  induction l generalizing p with
  | nil => exact w
  | cons b l ih => exact ih (w.trans (h p.1 p.2 b))

/-- An operation that answers a state within the mask beside a value. -/
theorem Within.getF {α : Type} {a b : Mask} {s t u : State} {x : α} {p : State × α} (k : Within a t p.1) (e : p = (u, x))
    (h : a.le b = true) (w : Within b s t) : Within b s u := by
  subst e; exact Within.app k h w

/-- A command's outcome: a next state, within the mask. -/
def WithinX (m : Mask) (s : State) (o : Host.Outcome State Fault Refusal) : Prop := ∃ t, o = .next t ∧ Within m s t

theorem WithinX.next {m : Mask} {s t : State} (w : Within m s t) : WithinX m s (.next t) := ⟨t, rfl, w⟩

/-! ### The invariant by component -/

/-- The invariant of one component. -/
structure MemI (x : Mem) : Prop where
  far : Memory.wf x.far = true
  near : Memory.wf x.near = true

theorem MemI.of {x : Mem} {a_chans a_far a_farPoison a_farWritten a_farZero a_houseUe a_dram a_zmap a_ztrk a_reads a_nextTok a_nextSeq a_near a_nearPoison a_tags a_recs a_raw a_pasrMask a_pasrEn a_rbits a_kbits a_popSet a_softPpr a_hardPpr}
    (h_far : Memory.wf x.far = true → Memory.wf a_far = true)
    (h_near : Memory.wf x.near = true → Memory.wf a_near = true) :
    MemI x → MemI (Mem.mk a_chans a_far a_farPoison a_farWritten a_farZero a_houseUe a_dram a_zmap a_ztrk a_reads a_nextTok a_nextSeq a_near a_nearPoison a_tags a_recs a_raw a_pasrMask a_pasrEn a_rbits a_kbits a_popSet a_softPpr a_hardPpr) :=
  fun i => ⟨h_far i.far, h_near i.near⟩

/-- The invariant of one component. -/
structure QmgI (x : Qmg) : Prop where
  stage : Memory.wf x.stage = true

theorem QmgI.of {x : Qmg} {a_qs a_cells a_links a_free a_fresh a_freshEnd a_total a_leaked a_offers a_recCells a_lastPorter a_stage}
    (h_stage : Memory.wf x.stage = true → Memory.wf a_stage = true) :
    QmgI x → QmgI (Qmg.mk a_qs a_cells a_links a_free a_fresh a_freshEnd a_total a_leaked a_offers a_recCells a_lastPorter a_stage) :=
  fun i => ⟨h_stage i.stage⟩

/-- The invariant of one component. -/
structure MgtI (x : Mgt) : Prop where
  flashA : Memory.wf x.flashA.bytes = true
  flashB : Memory.wf x.flashB.bytes = true
  queue : x.queue.length ≤ 16
  running : x.running.length ≤ 4

theorem MgtI.of {x : Mgt} {a_queue a_running a_nextId a_range a_moving a_transition a_flashA a_flashB a_bist a_pasr a_thawed a_i3c}
    (h_flashA : Memory.wf x.flashA.bytes = true → Memory.wf a_flashA.bytes = true)
    (h_flashB : Memory.wf x.flashB.bytes = true → Memory.wf a_flashB.bytes = true)
    (h_queue : x.queue.length ≤ 16 → a_queue.length ≤ 16)
    (h_running : x.running.length ≤ 4 → a_running.length ≤ 4) :
    MgtI x → MgtI (Mgt.mk a_queue a_running a_nextId a_range a_moving a_transition a_flashA a_flashB a_bist a_pasr a_thawed a_i3c) :=
  fun i => ⟨h_flashA i.flashA, h_flashB i.flashB, h_queue i.queue, h_running i.running⟩

/-- The invariant of one component. -/
structure RasI (x : Ras) : Prop where
  ring : x.ring.length ≤ 4096
  pend : x.pend.length ≤ 64

theorem RasI.of {x : Ras} {a_ring a_lost a_inService a_pend a_pendLost a_bkt a_arm a_flipAdr a_flipAt a_pgcInit a_pgcScrub a_zcache a_latent a_fatalDue a_leaks a_tmrTold}
    (h_ring : x.ring.length ≤ 4096 → a_ring.length ≤ 4096)
    (h_pend : x.pend.length ≤ 64 → a_pend.length ≤ 64) :
    RasI x → RasI (Ras.mk a_ring a_lost a_inService a_pend a_pendLost a_bkt a_arm a_flipAdr a_flipAt a_pgcInit a_pgcScrub a_zcache a_latent a_fatalDue a_leaks a_tmrTold) :=
  fun i => ⟨h_ring i.ring, h_pend i.pend⟩

/-- The invariant of one component. -/
structure BootI (x : Boot) : Prop where
  level : x.level ≤ 3

theorem BootI.of {x : Boot} {a_level a_step a_paused a_stopped a_stopCause a_stopUnit a_fwFallback a_fwSlot a_fwRom a_fwVersion a_nodeSet a_lastReset a_dev a_stopAt a_withdrawn}
    (h_level : x.level ≤ 3 → a_level ≤ 3) :
    BootI x → BootI (Boot.mk a_level a_step a_paused a_stopped a_stopCause a_stopUnit a_fwFallback a_fwSlot a_fwRom a_fwVersion a_nodeSet a_lastReset a_dev a_stopAt a_withdrawn) :=
  fun i => ⟨h_level i.level⟩

/-- The invariant of one component. -/
structure MtuI (x : Mtu) : Prop where
  lock : x.lock ≤ 3

theorem MtuI.of {x : Mtu} {a_mt a_lock a_lockLosses a_deferred a_schErr a_schErrEntry a_guard a_stepped a_ahead a_inGuard a_inLull a_lullBeat a_lullWidth a_lullArg a_pendingSet a_goodMarks a_markMt a_half a_hold a_ofs a_slew a_stratum a_steer a_goodOfs a_badOfs a_stampBeat a_latch a_sch a_schOld a_schBeat a_firedBeat a_fired a_resumeBeat a_stepFrom a_lullTrks}
    (h_lock : x.lock ≤ 3 → a_lock ≤ 3) :
    MtuI x → MtuI (Mtu.mk a_mt a_lock a_lockLosses a_deferred a_schErr a_schErrEntry a_guard a_stepped a_ahead a_inGuard a_inLull a_lullBeat a_lullWidth a_lullArg a_pendingSet a_goodMarks a_markMt a_half a_hold a_ofs a_slew a_stratum a_steer a_goodOfs a_badOfs a_stampBeat a_latch a_sch a_schOld a_schBeat a_firedBeat a_fired a_resumeBeat a_stepFrom a_lullTrks) :=
  fun i => ⟨h_lock i.lock⟩

/-- A record update of `x`, piece by piece and component by component. -/
theorem Within.upd {m : Mask} {s x : State} {a_clk a_cyc0 a_paused a_free a_finds a_pcr a_boot a_node a_csr a_msix a_irq a_glbPart a_glbHouse a_mode a_slices a_banks a_mem a_hsf a_bisnps a_nextBi a_links a_hreqs a_nextRid a_accs a_fails a_lse a_fnc a_xlts a_xinv a_ports a_rtr a_dom a_mtu a_pors a_qmg a_ras a_mgt a_tlys a_events a_trc a_tap a_outs}
    (w : Within m s x)
    (h_clk : m.clk = true ∨ (a_clk) = (x.clk))
    (h_cyc0 : m.cyc0 = true ∨ (a_cyc0) = (x.cyc0))
    (h_paused : m.paused = true ∨ (a_paused) = (x.paused))
    (h_free : m.free = true ∨ (a_free) = (x.free))
    (h_finds : m.finds = true ∨ (a_finds) = (x.finds))
    (h_due : m.due = true ∨ ((a_ras.fatalDue, a_mem.houseUe)) = ((x.ras.fatalDue, x.mem.houseUe)))
    (h_pcr : m.pcr = true ∨ (a_pcr) = (x.pcr))
    (h_boot : m.boot = true ∨ (a_boot) = (x.boot))
    (h_node : m.node = true ∨ (a_node) = (x.node))
    (h_csr : m.csr = true ∨ (fun o => if o = offTrc 0 then 0 else csrReset o ^^^ Tab.get 0 a_csr o) = (fun o => if o = offTrc 0 then 0 else csrReset o ^^^ Tab.get 0 x.csr o))
    (h_trcCfg : m.trcCfg = true ∨ (csrReset (offTrc 0) ^^^ Tab.get 0 a_csr (offTrc 0)) = (csrReset (offTrc 0) ^^^ Tab.get 0 x.csr (offTrc 0)))
    (h_msix : m.msix = true ∨ (a_msix) = (x.msix))
    (h_irq : m.irq = true ∨ (a_irq) = (x.irq))
    (h_glbPart : m.glbPart = true ∨ (a_glbPart) = (x.glbPart))
    (h_glbHouse : m.glbHouse = true ∨ (a_glbHouse) = (x.glbHouse))
    (h_mode : m.mode = true ∨ (a_mode) = (x.mode))
    (h_slices : m.slices = true ∨ (a_slices) = (x.slices))
    (h_banks : m.banks = true ∨ (a_banks) = (x.banks))
    (h_chans : m.chans = true ∨ (a_mem.chans) = (x.mem.chans))
    (h_far : m.far = true ∨ ((a_mem.far, a_mem.farPoison, a_mem.farWritten, a_mem.farZero, a_mem.zmap, a_mem.ztrk)) = ((x.mem.far, x.mem.farPoison, x.mem.farWritten, x.mem.farZero, x.mem.zmap, x.mem.ztrk)))
    (h_near : m.near = true ∨ ((a_mem.near, a_mem.nearPoison, a_mem.tags, a_mem.recs, a_mem.raw)) = ((x.mem.near, x.mem.nearPoison, x.mem.tags, x.mem.recs, x.mem.raw)))
    (h_memIo : m.memIo = true ∨ ((a_mem.reads, a_mem.nextTok, a_mem.nextSeq)) = ((x.mem.reads, x.mem.nextTok, x.mem.nextSeq)))
    (h_memCfg : m.memCfg = true ∨ ((a_mem.pasrMask, a_mem.pasrEn, a_mem.rbits, a_mem.kbits, a_mem.popSet, a_mem.softPpr, a_mem.hardPpr, a_mem.dram)) = ((x.mem.pasrMask, x.mem.pasrEn, x.mem.rbits, x.mem.kbits, x.mem.popSet, x.mem.softPpr, x.mem.hardPpr, x.mem.dram)))
    (h_hsf : m.hsf = true ∨ (a_hsf) = (x.hsf))
    (h_bisnps : m.bisnps = true ∨ ((a_bisnps, a_nextBi)) = ((x.bisnps, x.nextBi)))
    (h_links : m.links = true ∨ (fun l => (Tab.get {} a_links l).noPba) = (fun l => (Tab.get {} x.links l).noPba))
    (h_pba : m.pba = true ∨ (fun l => (Tab.get {} a_links l).pba) = (fun l => (Tab.get {} x.links l).pba))
    (h_hreqs : m.hreqs = true ∨ (a_hreqs) = (x.hreqs))
    (h_nextRid : m.nextRid = true ∨ (a_nextRid) = (x.nextRid))
    (h_accs : m.accs = true ∨ ((a_accs, a_fails)) = ((x.accs, x.fails)))
    (h_lse : m.lse = true ∨ (a_lse) = (x.lse))
    (h_fnc : m.fnc = true ∨ (a_fnc) = (x.fnc))
    (h_xlts : m.xlts = true ∨ (a_xlts) = (x.xlts))
    (h_xinv : m.xinv = true ∨ (a_xinv) = (x.xinv))
    (h_ports : m.ports = true ∨ (a_ports) = (x.ports))
    (h_rtrTx : m.rtrTx = true ∨ ((a_rtr.q, a_rtr.oseqTx)) = ((x.rtr.q, x.rtr.oseqTx)))
    (h_rtrRx : m.rtrRx = true ∨ (a_rtr.delivered) = (x.rtr.delivered))
    (h_rtrUn : m.rtrUn = true ∨ (a_rtr.unreach) = (x.rtr.unreach))
    (h_rtr : m.rtr = true ∨ ((a_rtr.enabled, a_rtr.oseqRx, a_rtr.store, a_rtr.hopDiscard, a_rtr.routeFail, a_rtr.oseqGap, a_rtr.mgtRefused, a_rtr.bufs, a_rtr.downDoms, a_rtr.badRt)) = ((x.rtr.enabled, x.rtr.oseqRx, x.rtr.store, x.rtr.hopDiscard, x.rtr.routeFail, x.rtr.oseqGap, x.rtr.mgtRefused, x.rtr.bufs, x.rtr.downDoms, x.rtr.badRt)))
    (h_dom : m.dom = true ∨ (a_dom) = (x.dom))
    (h_mt : m.mt = true ∨ ((a_mtu.mt, a_mtu.half, a_mtu.hold)) = ((x.mtu.mt, x.mtu.half, x.mtu.hold)))
    (h_mtu : m.mtu = true ∨ (({ a_mtu with mt := 0, half := none, hold := none } : Mtu)) = (({ x.mtu with mt := 0, half := none, hold := none } : Mtu)))
    (h_pors : m.pors = true ∨ (a_pors) = (x.pors))
    (h_qmg : m.qmg = true ∨ (a_qmg) = (x.qmg))
    (h_ledger : m.ledger = true ∨ ((a_ras.ring, a_ras.lost, a_ras.pend, a_ras.pendLost)) = ((x.ras.ring, x.ras.lost, x.ras.pend, x.ras.pendLost)))
    (h_bkt : m.bkt = true ∨ ((a_ras.bkt, a_ras.leaks)) = ((x.ras.bkt, x.ras.leaks)))
    (h_flip : m.flip = true ∨ ((a_ras.arm, a_ras.flipAdr, a_ras.flipAt, a_ras.latent)) = ((x.ras.arm, x.ras.flipAdr, x.ras.flipAt, x.ras.latent)))
    (h_ras : m.ras = true ∨ ((a_ras.inService, a_ras.pgcInit, a_ras.pgcScrub, a_ras.zcache, a_ras.tmrTold)) = ((x.ras.inService, x.ras.pgcInit, x.ras.pgcScrub, x.ras.zcache, x.ras.tmrTold)))
    (h_flash : m.flash = true ∨ ((a_mgt.flashA, a_mgt.flashB)) = ((x.mgt.flashA, x.mgt.flashB)))
    (h_mgtq : m.mgtq = true ∨ ((a_mgt.queue, a_mgt.running, a_mgt.nextId)) = ((x.mgt.queue, x.mgt.running, x.mgt.nextId)))
    (h_mgt : m.mgt = true ∨ ((a_mgt.range, a_mgt.moving, a_mgt.transition, a_mgt.bist, a_mgt.pasr, a_mgt.thawed, a_mgt.i3c)) = ((x.mgt.range, x.mgt.moving, x.mgt.transition, x.mgt.bist, x.mgt.pasr, x.mgt.thawed, x.mgt.i3c)))
    (h_tlys : m.tlys = true ∨ (a_tlys) = (x.tlys))
    (h_events : m.events = true ∨ (a_events) = (x.events))
    (h_trc : m.trc = true ∨ (a_trc) = (x.trc))
    (h_tap : m.tap = true ∨ (a_tap) = (x.tap))
    (h_outs : m.outs = true ∨ (a_outs) = (x.outs))
    (i_mem : MemI x.mem → MemI a_mem)
    (i_qmg : QmgI x.qmg → QmgI a_qmg)
    (i_mgt : MgtI x.mgt → MgtI a_mgt)
    (i_ras : RasI x.ras → RasI a_ras)
    (i_boot : BootI x.boot → BootI a_boot)
    (i_mtu : MtuI x.mtu → MtuI a_mtu)
    (i_mode : x.mode ≤ 2 → a_mode ≤ 2) :
    Within m s (State.mk x.part a_clk a_cyc0 a_paused a_free a_finds a_pcr a_boot a_node a_csr a_msix a_irq a_glbPart a_glbHouse a_mode a_slices a_banks a_mem a_hsf a_bisnps a_nextBi a_links a_hreqs a_nextRid a_accs a_fails a_lse a_fnc a_xlts a_xinv a_ports a_rtr a_dom a_mtu a_pors a_qmg a_ras a_mgt a_tlys a_events a_trc a_tap a_outs x.pending) := by
  refine w.trans ⟨?_, fun i => ?_⟩
  · exact Only.of rfl rfl h_clk h_cyc0 h_paused h_free h_finds h_due h_pcr h_boot h_node h_csr h_trcCfg h_msix h_irq h_glbPart h_glbHouse h_mode h_slices h_banks h_chans h_far h_near h_memIo h_memCfg h_hsf h_bisnps h_links h_pba h_hreqs h_nextRid h_accs h_lse h_fnc h_xlts h_xinv h_ports h_rtrTx h_rtrRx h_rtrUn h_rtr h_dom h_mt h_mtu h_pors h_qmg h_ledger h_bkt h_flip h_ras h_flash h_mgtq h_mgt h_tlys h_events h_trc h_tap h_outs
  · have j1 := i_mem ⟨i.far, i.near⟩
    have j2 := i_qmg ⟨i.stage⟩
    have j3 := i_mgt ⟨i.flashA, i.flashB, i.queue, i.running⟩
    have j4 := i_ras ⟨i.ring, i.pend⟩
    have j5 := i_boot ⟨i.level⟩
    have j6 := i_mtu ⟨i.lock⟩
    exact ⟨j1.far, j1.near, j2.stage, j3.flashA, j3.flashB, j5.level, i_mode i.mode, j6.lock, j4.ring, j4.pend, j3.queue, j3.running⟩

/-- A look-up's answer: a state within the mask, whichever the answer. -/
def WithinL (m : Mask) (s : State) (l : Look) : Prop := match l with
  | .served t => Within m s t
  | .needs t _ => Within m s t
  | .wait t => Within m s t

theorem WithinL.served {m : Mask} {s t : State} (w : Within m s t) : WithinL m s (.served t) := w
theorem WithinL.needs {m : Mask} {s t : State} {b : Bool} (w : Within m s t) : WithinL m s (.needs t b) := w
theorem WithinL.wait {m : Mask} {s t : State} (w : Within m s t) : WithinL m s (.wait t) := w
theorem WithinL.ite {m : Mask} {s : State} {a b : Look} {c : Prop} {i : Decidable c} (h : WithinL m s a) (k : WithinL m s b) :
    WithinL m s (@ite Look c i a b) := by
  cases i <;> assumption
theorem WithinL.cut {m : Mask} {s x : State} {p : Look} (h : Within m s x) (k : Within m s x → WithinL m s p) : WithinL m s p := k h
theorem WithinL.ofServed {a b : Mask} {s t u : State} {l : Look} (k : WithinL a t l) (e : l = .served u) (h : a.le b = true)
    (w : Within b s t) : Within b s u := by
  subst e; exact Within.app k h w
theorem WithinL.ofNeeds {a b : Mask} {s t u : State} {l : Look} {c : Bool} (k : WithinL a t l) (e : l = .needs u c) (h : a.le b = true)
    (w : Within b s t) : Within b s u := by
  subst e; exact Within.app k h w
theorem WithinL.ofWait {a b : Mask} {s t u : State} {l : Look} (k : WithinL a t l) (e : l = .wait u) (h : a.le b = true)
    (w : Within b s t) : Within b s u := by
  subst e; exact Within.app k h w
theorem WithinP.ofMap {α β : Type} {m : Mask} {s u : State} {o : Option β} {f : β → α × State} {a : α} (h : ∀ b, WithinP m s (f b))
    (e : o.map f = .some (a, u)) : Within m s u := by
  cases o with
  | none => cases e
  | some b => exact WithinP.eq (Option.some.inj e) (h b)

theorem WithinX.cutS2 {o : Host.Outcome State Fault Refusal} {m : Mask} {s : State} {β γ : Type} {x : State → β → γ → State} (h : ∀ y b c, Within m y (x y b c))
    (k : (∀ y b c, Within m y (x y b c)) → WithinX m s o) : WithinX m s o := k h
theorem WithinX.cut {o : Host.Outcome State Fault Refusal} {m : Mask} {s x : State} (h : Within m s x)
    (k : Within m s x → WithinX m s o) : WithinX m s o := k h
theorem WithinX.cutS {o : Host.Outcome State Fault Refusal} {m : Mask} {s : State} {x : State → State} (h : ∀ y, Within m y (x y))
    (k : (∀ y, Within m y (x y)) → WithinX m s o) : WithinX m s o := k h
theorem WithinX.cutS1 {o : Host.Outcome State Fault Refusal} {m : Mask} {s : State} {β : Type} {x : State → β → State}
    (h : ∀ y b, Within m y (x y b)) (k : (∀ y b, Within m y (x y b)) → WithinX m s o) : WithinX m s o := k h


/-- A value under another name, so that a proof about it knows no more of it. -/
theorem named {α : Sort _} (x : α) : ∃ y, y = x := ⟨x, rfl⟩

end Sys2Proof.Machine
end

