-- ==== Sys2Proof/Laws/Csr.lean ====
section
/-! SUPPORT. For each operation of Machine/Csr.lean one lemma: which pieces of the state it can change, and that it keeps the
invariant of Safety.lean. -/

set_option Elab.async false

namespace Sys2Proof.Machine

theorem State.csrPut_within (s : State) (a1) (a2) :
    Within { csr := true, trcCfg := true } s (State.csrPut s a1 a2) := by
  unfold State.csrPut
  with_reducible (apply Within.upd <;> try first | exact .inl rfl | exact .inr rfl | exact id | assumption | exact Within.refl _ _)

end Sys2Proof.Machine
end

