-- ==== Sys2Proof/Laws/State.lean ====
section
/-! SUPPORT. What the basic updates of the state leave in each of its fields, and what one instance of a unit reads after an update. -/

set_option Elab.async false

namespace Sys2Proof.Machine

theorem State.slice_setSlice (s : State) (n k : Nat) (x : Slice) : (s.setSlice n x).slice k = if k = n then x else s.slice k :=
  Tab.get_put _ _ _ _ _
@[simp] theorem State.slice_setSlice_self (s : State) (n : Nat) (x : Slice) : (s.setSlice n x).slice n = x := Tab.get_put_self _ _ _ _
theorem State.slice_setSlice_ne (s : State) (n k : Nat) (x : Slice) (h : k ≠ n) : (s.setSlice n x).slice k = s.slice k := Tab.get_put_ne _ _ _ _ _ h
theorem State.link_setLink (s : State) (n k : Nat) (x : HLink) : (s.setLink n x).link k = if k = n then x else s.link k :=
  Tab.get_put _ _ _ _ _
@[simp] theorem State.link_setLink_self (s : State) (n : Nat) (x : HLink) : (s.setLink n x).link n = x := Tab.get_put_self _ _ _ _
theorem State.link_setLink_ne (s : State) (n k : Nat) (x : HLink) (h : k ≠ n) : (s.setLink n x).link k = s.link k := Tab.get_put_ne _ _ _ _ _ h
theorem State.port_setPort (s : State) (n k : Nat) (x : FPort) : (s.setPort n x).port k = if k = n then x else s.port k :=
  Tab.get_put _ _ _ _ _
@[simp] theorem State.port_setPort_self (s : State) (n : Nat) (x : FPort) : (s.setPort n x).port n = x := Tab.get_put_self _ _ _ _
theorem State.port_setPort_ne (s : State) (n k : Nat) (x : FPort) (h : k ≠ n) : (s.setPort n x).port k = s.port k := Tab.get_put_ne _ _ _ _ _ h
theorem State.por_setPor (s : State) (n k : Nat) (x : Porter) : (s.setPor n x).por k = if k = n then x else s.por k :=
  Tab.get_put _ _ _ _ _
@[simp] theorem State.por_setPor_self (s : State) (n : Nat) (x : Porter) : (s.setPor n x).por n = x := Tab.get_put_self _ _ _ _
theorem State.por_setPor_ne (s : State) (n k : Nat) (x : Porter) (h : k ≠ n) : (s.setPor n x).por k = s.por k := Tab.get_put_ne _ _ _ _ _ h
theorem State.xlt_setXlt (s : State) (n k : Nat) (x : Xlt) : (s.setXlt n x).xlt k = if k = n then x else s.xlt k :=
  Tab.get_put _ _ _ _ _
@[simp] theorem State.xlt_setXlt_self (s : State) (n : Nat) (x : Xlt) : (s.setXlt n x).xlt n = x := Tab.get_put_self _ _ _ _
theorem State.xlt_setXlt_ne (s : State) (n k : Nat) (x : Xlt) (h : k ≠ n) : (s.setXlt n x).xlt k = s.xlt k := Tab.get_put_ne _ _ _ _ _ h
theorem State.tly_setTly (s : State) (n k : Nat) (x : Tly) : (s.setTly n x).tly k = if k = n then x else s.tly k :=
  Tab.get_put _ _ _ _ _
@[simp] theorem State.tly_setTly_self (s : State) (n : Nat) (x : Tly) : (s.setTly n x).tly n = x := Tab.get_put_self _ _ _ _
theorem State.tly_setTly_ne (s : State) (n k : Nat) (x : Tly) (h : k ≠ n) : (s.setTly n x).tly k = s.tly k := Tab.get_put_ne _ _ _ _ _ h
theorem State.chan_setChan (s : State) (n k : Nat) (x : Chan) : (s.setChan n x).chan k = if k = n then x else s.chan k :=
  Tab.get_put _ _ _ _ _
@[simp] theorem State.chan_setChan_self (s : State) (n : Nat) (x : Chan) : (s.setChan n x).chan n = x := Tab.get_put_self _ _ _ _
theorem State.chan_setChan_ne (s : State) (n k : Nat) (x : Chan) (h : k ≠ n) : (s.setChan n x).chan k = s.chan k := Tab.get_put_ne _ _ _ _ _ h
@[simp] theorem State.link_setSlice (s : State) (n k : Nat) (x : Slice) : (s.setSlice n x).link k = s.link k := rfl
@[simp] theorem State.port_setSlice (s : State) (n k : Nat) (x : Slice) : (s.setSlice n x).port k = s.port k := rfl
@[simp] theorem State.por_setSlice (s : State) (n k : Nat) (x : Slice) : (s.setSlice n x).por k = s.por k := rfl
@[simp] theorem State.xlt_setSlice (s : State) (n k : Nat) (x : Slice) : (s.setSlice n x).xlt k = s.xlt k := rfl
@[simp] theorem State.tly_setSlice (s : State) (n k : Nat) (x : Slice) : (s.setSlice n x).tly k = s.tly k := rfl
@[simp] theorem State.chan_setSlice (s : State) (n k : Nat) (x : Slice) : (s.setSlice n x).chan k = s.chan k := rfl
@[simp] theorem State.slice_setLink (s : State) (n k : Nat) (x : HLink) : (s.setLink n x).slice k = s.slice k := rfl
@[simp] theorem State.port_setLink (s : State) (n k : Nat) (x : HLink) : (s.setLink n x).port k = s.port k := rfl
@[simp] theorem State.por_setLink (s : State) (n k : Nat) (x : HLink) : (s.setLink n x).por k = s.por k := rfl
@[simp] theorem State.xlt_setLink (s : State) (n k : Nat) (x : HLink) : (s.setLink n x).xlt k = s.xlt k := rfl
@[simp] theorem State.tly_setLink (s : State) (n k : Nat) (x : HLink) : (s.setLink n x).tly k = s.tly k := rfl
@[simp] theorem State.chan_setLink (s : State) (n k : Nat) (x : HLink) : (s.setLink n x).chan k = s.chan k := rfl
@[simp] theorem State.slice_setPort (s : State) (n k : Nat) (x : FPort) : (s.setPort n x).slice k = s.slice k := rfl
@[simp] theorem State.link_setPort (s : State) (n k : Nat) (x : FPort) : (s.setPort n x).link k = s.link k := rfl
@[simp] theorem State.por_setPort (s : State) (n k : Nat) (x : FPort) : (s.setPort n x).por k = s.por k := rfl
@[simp] theorem State.xlt_setPort (s : State) (n k : Nat) (x : FPort) : (s.setPort n x).xlt k = s.xlt k := rfl
@[simp] theorem State.tly_setPort (s : State) (n k : Nat) (x : FPort) : (s.setPort n x).tly k = s.tly k := rfl
@[simp] theorem State.chan_setPort (s : State) (n k : Nat) (x : FPort) : (s.setPort n x).chan k = s.chan k := rfl
@[simp] theorem State.slice_setPor (s : State) (n k : Nat) (x : Porter) : (s.setPor n x).slice k = s.slice k := rfl
@[simp] theorem State.link_setPor (s : State) (n k : Nat) (x : Porter) : (s.setPor n x).link k = s.link k := rfl
@[simp] theorem State.port_setPor (s : State) (n k : Nat) (x : Porter) : (s.setPor n x).port k = s.port k := rfl
@[simp] theorem State.xlt_setPor (s : State) (n k : Nat) (x : Porter) : (s.setPor n x).xlt k = s.xlt k := rfl
@[simp] theorem State.tly_setPor (s : State) (n k : Nat) (x : Porter) : (s.setPor n x).tly k = s.tly k := rfl
@[simp] theorem State.chan_setPor (s : State) (n k : Nat) (x : Porter) : (s.setPor n x).chan k = s.chan k := rfl
@[simp] theorem State.slice_setXlt (s : State) (n k : Nat) (x : Xlt) : (s.setXlt n x).slice k = s.slice k := rfl
@[simp] theorem State.link_setXlt (s : State) (n k : Nat) (x : Xlt) : (s.setXlt n x).link k = s.link k := rfl
@[simp] theorem State.port_setXlt (s : State) (n k : Nat) (x : Xlt) : (s.setXlt n x).port k = s.port k := rfl
@[simp] theorem State.por_setXlt (s : State) (n k : Nat) (x : Xlt) : (s.setXlt n x).por k = s.por k := rfl
@[simp] theorem State.tly_setXlt (s : State) (n k : Nat) (x : Xlt) : (s.setXlt n x).tly k = s.tly k := rfl
@[simp] theorem State.chan_setXlt (s : State) (n k : Nat) (x : Xlt) : (s.setXlt n x).chan k = s.chan k := rfl
@[simp] theorem State.slice_setTly (s : State) (n k : Nat) (x : Tly) : (s.setTly n x).slice k = s.slice k := rfl
@[simp] theorem State.link_setTly (s : State) (n k : Nat) (x : Tly) : (s.setTly n x).link k = s.link k := rfl
@[simp] theorem State.port_setTly (s : State) (n k : Nat) (x : Tly) : (s.setTly n x).port k = s.port k := rfl
@[simp] theorem State.por_setTly (s : State) (n k : Nat) (x : Tly) : (s.setTly n x).por k = s.por k := rfl
@[simp] theorem State.xlt_setTly (s : State) (n k : Nat) (x : Tly) : (s.setTly n x).xlt k = s.xlt k := rfl
@[simp] theorem State.chan_setTly (s : State) (n k : Nat) (x : Tly) : (s.setTly n x).chan k = s.chan k := rfl
@[simp] theorem State.slice_setChan (s : State) (n k : Nat) (x : Chan) : (s.setChan n x).slice k = s.slice k := rfl
@[simp] theorem State.link_setChan (s : State) (n k : Nat) (x : Chan) : (s.setChan n x).link k = s.link k := rfl
@[simp] theorem State.port_setChan (s : State) (n k : Nat) (x : Chan) : (s.setChan n x).port k = s.port k := rfl
@[simp] theorem State.por_setChan (s : State) (n k : Nat) (x : Chan) : (s.setChan n x).por k = s.por k := rfl
@[simp] theorem State.xlt_setChan (s : State) (n k : Nat) (x : Chan) : (s.setChan n x).xlt k = s.xlt k := rfl
@[simp] theorem State.tly_setChan (s : State) (n k : Nat) (x : Chan) : (s.setChan n x).tly k = s.tly k := rfl

/-- Three equal good copies read as the word. -/
@[simp] theorem Tmr.val_of {n : Nat} (v : BitVec n) : (Tmr.of v).val = v := by
  simp [Tmr.val, Tmr.value, Tmr.usable, Tmr.of]

theorem State.csrGet_csrPut (s : State) (o p : Nat) (v : Word) : (s.csrPut o v).csrGet p = if p = o then v else s.csrGet p := by
  simp only [State.csrGet, State.csrPut, Tab.get_put]
  split
  · rename_i h; subst h; rw [← BitVec.xor_assoc, BitVec.xor_self, BitVec.zero_xor]
  · rfl
@[simp] theorem State.csrGet_csrPut_self (s : State) (o : Nat) (v : Word) : (s.csrPut o v).csrGet o = v := by
  rw [State.csrGet_csrPut, if_pos rfl]
theorem State.msixGet_msixPut (s : State) (k j : Nat) (v : Word) : (s.msixPut k v).msixGet j = if j = k then v else s.msixGet j := by
  simp only [State.msixGet, State.msixPut, Tab.get_put]
  split
  · rename_i h; subst h; rw [← BitVec.xor_assoc, BitVec.xor_self, BitVec.zero_xor]
  · rfl

@[simp] theorem State.setSlice_part (s : State) (n : Nat) (x : Slice) : (s.setSlice n x).part = s.part := rfl
@[simp] theorem State.setSlice_clk (s : State) (n : Nat) (x : Slice) : (s.setSlice n x).clk = s.clk := rfl
@[simp] theorem State.setSlice_cyc0 (s : State) (n : Nat) (x : Slice) : (s.setSlice n x).cyc0 = s.cyc0 := rfl
@[simp] theorem State.setSlice_paused (s : State) (n : Nat) (x : Slice) : (s.setSlice n x).paused = s.paused := rfl
@[simp] theorem State.setSlice_free (s : State) (n : Nat) (x : Slice) : (s.setSlice n x).free = s.free := rfl
@[simp] theorem State.setSlice_finds (s : State) (n : Nat) (x : Slice) : (s.setSlice n x).finds = s.finds := rfl
@[simp] theorem State.setSlice_pcr (s : State) (n : Nat) (x : Slice) : (s.setSlice n x).pcr = s.pcr := rfl
@[simp] theorem State.setSlice_boot (s : State) (n : Nat) (x : Slice) : (s.setSlice n x).boot = s.boot := rfl
@[simp] theorem State.setSlice_node (s : State) (n : Nat) (x : Slice) : (s.setSlice n x).node = s.node := rfl
@[simp] theorem State.setSlice_csr (s : State) (n : Nat) (x : Slice) : (s.setSlice n x).csr = s.csr := rfl
@[simp] theorem State.setSlice_msix (s : State) (n : Nat) (x : Slice) : (s.setSlice n x).msix = s.msix := rfl
@[simp] theorem State.setSlice_irq (s : State) (n : Nat) (x : Slice) : (s.setSlice n x).irq = s.irq := rfl
@[simp] theorem State.setSlice_glbPart (s : State) (n : Nat) (x : Slice) : (s.setSlice n x).glbPart = s.glbPart := rfl
@[simp] theorem State.setSlice_glbHouse (s : State) (n : Nat) (x : Slice) : (s.setSlice n x).glbHouse = s.glbHouse := rfl
@[simp] theorem State.setSlice_mode (s : State) (n : Nat) (x : Slice) : (s.setSlice n x).mode = s.mode := rfl
@[simp] theorem State.setSlice_banks (s : State) (n : Nat) (x : Slice) : (s.setSlice n x).banks = s.banks := rfl
@[simp] theorem State.setSlice_mem (s : State) (n : Nat) (x : Slice) : (s.setSlice n x).mem = s.mem := rfl
@[simp] theorem State.setSlice_hsf (s : State) (n : Nat) (x : Slice) : (s.setSlice n x).hsf = s.hsf := rfl
@[simp] theorem State.setSlice_bisnps (s : State) (n : Nat) (x : Slice) : (s.setSlice n x).bisnps = s.bisnps := rfl
@[simp] theorem State.setSlice_nextBi (s : State) (n : Nat) (x : Slice) : (s.setSlice n x).nextBi = s.nextBi := rfl
@[simp] theorem State.setSlice_links (s : State) (n : Nat) (x : Slice) : (s.setSlice n x).links = s.links := rfl
@[simp] theorem State.setSlice_hreqs (s : State) (n : Nat) (x : Slice) : (s.setSlice n x).hreqs = s.hreqs := rfl
@[simp] theorem State.setSlice_nextRid (s : State) (n : Nat) (x : Slice) : (s.setSlice n x).nextRid = s.nextRid := rfl
@[simp] theorem State.setSlice_accs (s : State) (n : Nat) (x : Slice) : (s.setSlice n x).accs = s.accs := rfl
@[simp] theorem State.setSlice_fails (s : State) (n : Nat) (x : Slice) : (s.setSlice n x).fails = s.fails := rfl
@[simp] theorem State.setSlice_lse (s : State) (n : Nat) (x : Slice) : (s.setSlice n x).lse = s.lse := rfl
@[simp] theorem State.setSlice_fnc (s : State) (n : Nat) (x : Slice) : (s.setSlice n x).fnc = s.fnc := rfl
@[simp] theorem State.setSlice_xlts (s : State) (n : Nat) (x : Slice) : (s.setSlice n x).xlts = s.xlts := rfl
@[simp] theorem State.setSlice_xinv (s : State) (n : Nat) (x : Slice) : (s.setSlice n x).xinv = s.xinv := rfl
@[simp] theorem State.setSlice_ports (s : State) (n : Nat) (x : Slice) : (s.setSlice n x).ports = s.ports := rfl
@[simp] theorem State.setSlice_rtr (s : State) (n : Nat) (x : Slice) : (s.setSlice n x).rtr = s.rtr := rfl
@[simp] theorem State.setSlice_dom (s : State) (n : Nat) (x : Slice) : (s.setSlice n x).dom = s.dom := rfl
@[simp] theorem State.setSlice_mtu (s : State) (n : Nat) (x : Slice) : (s.setSlice n x).mtu = s.mtu := rfl
@[simp] theorem State.setSlice_pors (s : State) (n : Nat) (x : Slice) : (s.setSlice n x).pors = s.pors := rfl
@[simp] theorem State.setSlice_qmg (s : State) (n : Nat) (x : Slice) : (s.setSlice n x).qmg = s.qmg := rfl
@[simp] theorem State.setSlice_ras (s : State) (n : Nat) (x : Slice) : (s.setSlice n x).ras = s.ras := rfl
@[simp] theorem State.setSlice_mgt (s : State) (n : Nat) (x : Slice) : (s.setSlice n x).mgt = s.mgt := rfl
@[simp] theorem State.setSlice_tlys (s : State) (n : Nat) (x : Slice) : (s.setSlice n x).tlys = s.tlys := rfl
@[simp] theorem State.setSlice_events (s : State) (n : Nat) (x : Slice) : (s.setSlice n x).events = s.events := rfl
@[simp] theorem State.setSlice_trc (s : State) (n : Nat) (x : Slice) : (s.setSlice n x).trc = s.trc := rfl
@[simp] theorem State.setSlice_tap (s : State) (n : Nat) (x : Slice) : (s.setSlice n x).tap = s.tap := rfl
@[simp] theorem State.setSlice_outs (s : State) (n : Nat) (x : Slice) : (s.setSlice n x).outs = s.outs := rfl
@[simp] theorem State.setSlice_pending (s : State) (n : Nat) (x : Slice) : (s.setSlice n x).pending = s.pending := rfl

@[simp] theorem State.setLink_part (s : State) (l : Nat) (x : HLink) : (s.setLink l x).part = s.part := rfl
@[simp] theorem State.setLink_clk (s : State) (l : Nat) (x : HLink) : (s.setLink l x).clk = s.clk := rfl
@[simp] theorem State.setLink_cyc0 (s : State) (l : Nat) (x : HLink) : (s.setLink l x).cyc0 = s.cyc0 := rfl
@[simp] theorem State.setLink_paused (s : State) (l : Nat) (x : HLink) : (s.setLink l x).paused = s.paused := rfl
@[simp] theorem State.setLink_free (s : State) (l : Nat) (x : HLink) : (s.setLink l x).free = s.free := rfl
@[simp] theorem State.setLink_finds (s : State) (l : Nat) (x : HLink) : (s.setLink l x).finds = s.finds := rfl
@[simp] theorem State.setLink_pcr (s : State) (l : Nat) (x : HLink) : (s.setLink l x).pcr = s.pcr := rfl
@[simp] theorem State.setLink_boot (s : State) (l : Nat) (x : HLink) : (s.setLink l x).boot = s.boot := rfl
@[simp] theorem State.setLink_node (s : State) (l : Nat) (x : HLink) : (s.setLink l x).node = s.node := rfl
@[simp] theorem State.setLink_csr (s : State) (l : Nat) (x : HLink) : (s.setLink l x).csr = s.csr := rfl
@[simp] theorem State.setLink_msix (s : State) (l : Nat) (x : HLink) : (s.setLink l x).msix = s.msix := rfl
@[simp] theorem State.setLink_irq (s : State) (l : Nat) (x : HLink) : (s.setLink l x).irq = s.irq := rfl
@[simp] theorem State.setLink_glbPart (s : State) (l : Nat) (x : HLink) : (s.setLink l x).glbPart = s.glbPart := rfl
@[simp] theorem State.setLink_glbHouse (s : State) (l : Nat) (x : HLink) : (s.setLink l x).glbHouse = s.glbHouse := rfl
@[simp] theorem State.setLink_mode (s : State) (l : Nat) (x : HLink) : (s.setLink l x).mode = s.mode := rfl
@[simp] theorem State.setLink_slices (s : State) (l : Nat) (x : HLink) : (s.setLink l x).slices = s.slices := rfl
@[simp] theorem State.setLink_banks (s : State) (l : Nat) (x : HLink) : (s.setLink l x).banks = s.banks := rfl
@[simp] theorem State.setLink_mem (s : State) (l : Nat) (x : HLink) : (s.setLink l x).mem = s.mem := rfl
@[simp] theorem State.setLink_hsf (s : State) (l : Nat) (x : HLink) : (s.setLink l x).hsf = s.hsf := rfl
@[simp] theorem State.setLink_bisnps (s : State) (l : Nat) (x : HLink) : (s.setLink l x).bisnps = s.bisnps := rfl
@[simp] theorem State.setLink_nextBi (s : State) (l : Nat) (x : HLink) : (s.setLink l x).nextBi = s.nextBi := rfl
@[simp] theorem State.setLink_hreqs (s : State) (l : Nat) (x : HLink) : (s.setLink l x).hreqs = s.hreqs := rfl
@[simp] theorem State.setLink_nextRid (s : State) (l : Nat) (x : HLink) : (s.setLink l x).nextRid = s.nextRid := rfl
@[simp] theorem State.setLink_accs (s : State) (l : Nat) (x : HLink) : (s.setLink l x).accs = s.accs := rfl
@[simp] theorem State.setLink_fails (s : State) (l : Nat) (x : HLink) : (s.setLink l x).fails = s.fails := rfl
@[simp] theorem State.setLink_lse (s : State) (l : Nat) (x : HLink) : (s.setLink l x).lse = s.lse := rfl
@[simp] theorem State.setLink_fnc (s : State) (l : Nat) (x : HLink) : (s.setLink l x).fnc = s.fnc := rfl
@[simp] theorem State.setLink_xlts (s : State) (l : Nat) (x : HLink) : (s.setLink l x).xlts = s.xlts := rfl
@[simp] theorem State.setLink_xinv (s : State) (l : Nat) (x : HLink) : (s.setLink l x).xinv = s.xinv := rfl
@[simp] theorem State.setLink_ports (s : State) (l : Nat) (x : HLink) : (s.setLink l x).ports = s.ports := rfl
@[simp] theorem State.setLink_rtr (s : State) (l : Nat) (x : HLink) : (s.setLink l x).rtr = s.rtr := rfl
@[simp] theorem State.setLink_dom (s : State) (l : Nat) (x : HLink) : (s.setLink l x).dom = s.dom := rfl
@[simp] theorem State.setLink_mtu (s : State) (l : Nat) (x : HLink) : (s.setLink l x).mtu = s.mtu := rfl
@[simp] theorem State.setLink_pors (s : State) (l : Nat) (x : HLink) : (s.setLink l x).pors = s.pors := rfl
@[simp] theorem State.setLink_qmg (s : State) (l : Nat) (x : HLink) : (s.setLink l x).qmg = s.qmg := rfl
@[simp] theorem State.setLink_ras (s : State) (l : Nat) (x : HLink) : (s.setLink l x).ras = s.ras := rfl
@[simp] theorem State.setLink_mgt (s : State) (l : Nat) (x : HLink) : (s.setLink l x).mgt = s.mgt := rfl
@[simp] theorem State.setLink_tlys (s : State) (l : Nat) (x : HLink) : (s.setLink l x).tlys = s.tlys := rfl
@[simp] theorem State.setLink_events (s : State) (l : Nat) (x : HLink) : (s.setLink l x).events = s.events := rfl
@[simp] theorem State.setLink_trc (s : State) (l : Nat) (x : HLink) : (s.setLink l x).trc = s.trc := rfl
@[simp] theorem State.setLink_tap (s : State) (l : Nat) (x : HLink) : (s.setLink l x).tap = s.tap := rfl
@[simp] theorem State.setLink_outs (s : State) (l : Nat) (x : HLink) : (s.setLink l x).outs = s.outs := rfl
@[simp] theorem State.setLink_pending (s : State) (l : Nat) (x : HLink) : (s.setLink l x).pending = s.pending := rfl

@[simp] theorem State.setPort_part (s : State) (p : Nat) (x : FPort) : (s.setPort p x).part = s.part := rfl
@[simp] theorem State.setPort_clk (s : State) (p : Nat) (x : FPort) : (s.setPort p x).clk = s.clk := rfl
@[simp] theorem State.setPort_cyc0 (s : State) (p : Nat) (x : FPort) : (s.setPort p x).cyc0 = s.cyc0 := rfl
@[simp] theorem State.setPort_paused (s : State) (p : Nat) (x : FPort) : (s.setPort p x).paused = s.paused := rfl
@[simp] theorem State.setPort_free (s : State) (p : Nat) (x : FPort) : (s.setPort p x).free = s.free := rfl
@[simp] theorem State.setPort_finds (s : State) (p : Nat) (x : FPort) : (s.setPort p x).finds = s.finds := rfl
@[simp] theorem State.setPort_pcr (s : State) (p : Nat) (x : FPort) : (s.setPort p x).pcr = s.pcr := rfl
@[simp] theorem State.setPort_boot (s : State) (p : Nat) (x : FPort) : (s.setPort p x).boot = s.boot := rfl
@[simp] theorem State.setPort_node (s : State) (p : Nat) (x : FPort) : (s.setPort p x).node = s.node := rfl
@[simp] theorem State.setPort_csr (s : State) (p : Nat) (x : FPort) : (s.setPort p x).csr = s.csr := rfl
@[simp] theorem State.setPort_msix (s : State) (p : Nat) (x : FPort) : (s.setPort p x).msix = s.msix := rfl
@[simp] theorem State.setPort_irq (s : State) (p : Nat) (x : FPort) : (s.setPort p x).irq = s.irq := rfl
@[simp] theorem State.setPort_glbPart (s : State) (p : Nat) (x : FPort) : (s.setPort p x).glbPart = s.glbPart := rfl
@[simp] theorem State.setPort_glbHouse (s : State) (p : Nat) (x : FPort) : (s.setPort p x).glbHouse = s.glbHouse := rfl
@[simp] theorem State.setPort_mode (s : State) (p : Nat) (x : FPort) : (s.setPort p x).mode = s.mode := rfl
@[simp] theorem State.setPort_slices (s : State) (p : Nat) (x : FPort) : (s.setPort p x).slices = s.slices := rfl
@[simp] theorem State.setPort_banks (s : State) (p : Nat) (x : FPort) : (s.setPort p x).banks = s.banks := rfl
@[simp] theorem State.setPort_mem (s : State) (p : Nat) (x : FPort) : (s.setPort p x).mem = s.mem := rfl
@[simp] theorem State.setPort_hsf (s : State) (p : Nat) (x : FPort) : (s.setPort p x).hsf = s.hsf := rfl
@[simp] theorem State.setPort_bisnps (s : State) (p : Nat) (x : FPort) : (s.setPort p x).bisnps = s.bisnps := rfl
@[simp] theorem State.setPort_nextBi (s : State) (p : Nat) (x : FPort) : (s.setPort p x).nextBi = s.nextBi := rfl
@[simp] theorem State.setPort_links (s : State) (p : Nat) (x : FPort) : (s.setPort p x).links = s.links := rfl
@[simp] theorem State.setPort_hreqs (s : State) (p : Nat) (x : FPort) : (s.setPort p x).hreqs = s.hreqs := rfl
@[simp] theorem State.setPort_nextRid (s : State) (p : Nat) (x : FPort) : (s.setPort p x).nextRid = s.nextRid := rfl
@[simp] theorem State.setPort_accs (s : State) (p : Nat) (x : FPort) : (s.setPort p x).accs = s.accs := rfl
@[simp] theorem State.setPort_fails (s : State) (p : Nat) (x : FPort) : (s.setPort p x).fails = s.fails := rfl
@[simp] theorem State.setPort_lse (s : State) (p : Nat) (x : FPort) : (s.setPort p x).lse = s.lse := rfl
@[simp] theorem State.setPort_fnc (s : State) (p : Nat) (x : FPort) : (s.setPort p x).fnc = s.fnc := rfl
@[simp] theorem State.setPort_xlts (s : State) (p : Nat) (x : FPort) : (s.setPort p x).xlts = s.xlts := rfl
@[simp] theorem State.setPort_xinv (s : State) (p : Nat) (x : FPort) : (s.setPort p x).xinv = s.xinv := rfl
@[simp] theorem State.setPort_rtr (s : State) (p : Nat) (x : FPort) : (s.setPort p x).rtr = s.rtr := rfl
@[simp] theorem State.setPort_dom (s : State) (p : Nat) (x : FPort) : (s.setPort p x).dom = s.dom := rfl
@[simp] theorem State.setPort_mtu (s : State) (p : Nat) (x : FPort) : (s.setPort p x).mtu = s.mtu := rfl
@[simp] theorem State.setPort_pors (s : State) (p : Nat) (x : FPort) : (s.setPort p x).pors = s.pors := rfl
@[simp] theorem State.setPort_qmg (s : State) (p : Nat) (x : FPort) : (s.setPort p x).qmg = s.qmg := rfl
@[simp] theorem State.setPort_ras (s : State) (p : Nat) (x : FPort) : (s.setPort p x).ras = s.ras := rfl
@[simp] theorem State.setPort_mgt (s : State) (p : Nat) (x : FPort) : (s.setPort p x).mgt = s.mgt := rfl
@[simp] theorem State.setPort_tlys (s : State) (p : Nat) (x : FPort) : (s.setPort p x).tlys = s.tlys := rfl
@[simp] theorem State.setPort_events (s : State) (p : Nat) (x : FPort) : (s.setPort p x).events = s.events := rfl
@[simp] theorem State.setPort_trc (s : State) (p : Nat) (x : FPort) : (s.setPort p x).trc = s.trc := rfl
@[simp] theorem State.setPort_tap (s : State) (p : Nat) (x : FPort) : (s.setPort p x).tap = s.tap := rfl
@[simp] theorem State.setPort_outs (s : State) (p : Nat) (x : FPort) : (s.setPort p x).outs = s.outs := rfl
@[simp] theorem State.setPort_pending (s : State) (p : Nat) (x : FPort) : (s.setPort p x).pending = s.pending := rfl

@[simp] theorem State.setPor_part (s : State) (p : Nat) (x : Porter) : (s.setPor p x).part = s.part := rfl
@[simp] theorem State.setPor_clk (s : State) (p : Nat) (x : Porter) : (s.setPor p x).clk = s.clk := rfl
@[simp] theorem State.setPor_cyc0 (s : State) (p : Nat) (x : Porter) : (s.setPor p x).cyc0 = s.cyc0 := rfl
@[simp] theorem State.setPor_paused (s : State) (p : Nat) (x : Porter) : (s.setPor p x).paused = s.paused := rfl
@[simp] theorem State.setPor_free (s : State) (p : Nat) (x : Porter) : (s.setPor p x).free = s.free := rfl
@[simp] theorem State.setPor_finds (s : State) (p : Nat) (x : Porter) : (s.setPor p x).finds = s.finds := rfl
@[simp] theorem State.setPor_pcr (s : State) (p : Nat) (x : Porter) : (s.setPor p x).pcr = s.pcr := rfl
@[simp] theorem State.setPor_boot (s : State) (p : Nat) (x : Porter) : (s.setPor p x).boot = s.boot := rfl
@[simp] theorem State.setPor_node (s : State) (p : Nat) (x : Porter) : (s.setPor p x).node = s.node := rfl
@[simp] theorem State.setPor_csr (s : State) (p : Nat) (x : Porter) : (s.setPor p x).csr = s.csr := rfl
@[simp] theorem State.setPor_msix (s : State) (p : Nat) (x : Porter) : (s.setPor p x).msix = s.msix := rfl
@[simp] theorem State.setPor_irq (s : State) (p : Nat) (x : Porter) : (s.setPor p x).irq = s.irq := rfl
@[simp] theorem State.setPor_glbPart (s : State) (p : Nat) (x : Porter) : (s.setPor p x).glbPart = s.glbPart := rfl
@[simp] theorem State.setPor_glbHouse (s : State) (p : Nat) (x : Porter) : (s.setPor p x).glbHouse = s.glbHouse := rfl
@[simp] theorem State.setPor_mode (s : State) (p : Nat) (x : Porter) : (s.setPor p x).mode = s.mode := rfl
@[simp] theorem State.setPor_slices (s : State) (p : Nat) (x : Porter) : (s.setPor p x).slices = s.slices := rfl
@[simp] theorem State.setPor_banks (s : State) (p : Nat) (x : Porter) : (s.setPor p x).banks = s.banks := rfl
@[simp] theorem State.setPor_mem (s : State) (p : Nat) (x : Porter) : (s.setPor p x).mem = s.mem := rfl
@[simp] theorem State.setPor_hsf (s : State) (p : Nat) (x : Porter) : (s.setPor p x).hsf = s.hsf := rfl
@[simp] theorem State.setPor_bisnps (s : State) (p : Nat) (x : Porter) : (s.setPor p x).bisnps = s.bisnps := rfl
@[simp] theorem State.setPor_nextBi (s : State) (p : Nat) (x : Porter) : (s.setPor p x).nextBi = s.nextBi := rfl
@[simp] theorem State.setPor_links (s : State) (p : Nat) (x : Porter) : (s.setPor p x).links = s.links := rfl
@[simp] theorem State.setPor_hreqs (s : State) (p : Nat) (x : Porter) : (s.setPor p x).hreqs = s.hreqs := rfl
@[simp] theorem State.setPor_nextRid (s : State) (p : Nat) (x : Porter) : (s.setPor p x).nextRid = s.nextRid := rfl
@[simp] theorem State.setPor_accs (s : State) (p : Nat) (x : Porter) : (s.setPor p x).accs = s.accs := rfl
@[simp] theorem State.setPor_fails (s : State) (p : Nat) (x : Porter) : (s.setPor p x).fails = s.fails := rfl
@[simp] theorem State.setPor_lse (s : State) (p : Nat) (x : Porter) : (s.setPor p x).lse = s.lse := rfl
@[simp] theorem State.setPor_fnc (s : State) (p : Nat) (x : Porter) : (s.setPor p x).fnc = s.fnc := rfl
@[simp] theorem State.setPor_xlts (s : State) (p : Nat) (x : Porter) : (s.setPor p x).xlts = s.xlts := rfl
@[simp] theorem State.setPor_xinv (s : State) (p : Nat) (x : Porter) : (s.setPor p x).xinv = s.xinv := rfl
@[simp] theorem State.setPor_ports (s : State) (p : Nat) (x : Porter) : (s.setPor p x).ports = s.ports := rfl
@[simp] theorem State.setPor_rtr (s : State) (p : Nat) (x : Porter) : (s.setPor p x).rtr = s.rtr := rfl
@[simp] theorem State.setPor_dom (s : State) (p : Nat) (x : Porter) : (s.setPor p x).dom = s.dom := rfl
@[simp] theorem State.setPor_mtu (s : State) (p : Nat) (x : Porter) : (s.setPor p x).mtu = s.mtu := rfl
@[simp] theorem State.setPor_qmg (s : State) (p : Nat) (x : Porter) : (s.setPor p x).qmg = s.qmg := rfl
@[simp] theorem State.setPor_ras (s : State) (p : Nat) (x : Porter) : (s.setPor p x).ras = s.ras := rfl
@[simp] theorem State.setPor_mgt (s : State) (p : Nat) (x : Porter) : (s.setPor p x).mgt = s.mgt := rfl
@[simp] theorem State.setPor_tlys (s : State) (p : Nat) (x : Porter) : (s.setPor p x).tlys = s.tlys := rfl
@[simp] theorem State.setPor_events (s : State) (p : Nat) (x : Porter) : (s.setPor p x).events = s.events := rfl
@[simp] theorem State.setPor_trc (s : State) (p : Nat) (x : Porter) : (s.setPor p x).trc = s.trc := rfl
@[simp] theorem State.setPor_tap (s : State) (p : Nat) (x : Porter) : (s.setPor p x).tap = s.tap := rfl
@[simp] theorem State.setPor_outs (s : State) (p : Nat) (x : Porter) : (s.setPor p x).outs = s.outs := rfl
@[simp] theorem State.setPor_pending (s : State) (p : Nat) (x : Porter) : (s.setPor p x).pending = s.pending := rfl

@[simp] theorem State.setXlt_part (s : State) (i : Nat) (x : Xlt) : (s.setXlt i x).part = s.part := rfl
@[simp] theorem State.setXlt_clk (s : State) (i : Nat) (x : Xlt) : (s.setXlt i x).clk = s.clk := rfl
@[simp] theorem State.setXlt_cyc0 (s : State) (i : Nat) (x : Xlt) : (s.setXlt i x).cyc0 = s.cyc0 := rfl
@[simp] theorem State.setXlt_paused (s : State) (i : Nat) (x : Xlt) : (s.setXlt i x).paused = s.paused := rfl
@[simp] theorem State.setXlt_free (s : State) (i : Nat) (x : Xlt) : (s.setXlt i x).free = s.free := rfl
@[simp] theorem State.setXlt_finds (s : State) (i : Nat) (x : Xlt) : (s.setXlt i x).finds = s.finds := rfl
@[simp] theorem State.setXlt_pcr (s : State) (i : Nat) (x : Xlt) : (s.setXlt i x).pcr = s.pcr := rfl
@[simp] theorem State.setXlt_boot (s : State) (i : Nat) (x : Xlt) : (s.setXlt i x).boot = s.boot := rfl
@[simp] theorem State.setXlt_node (s : State) (i : Nat) (x : Xlt) : (s.setXlt i x).node = s.node := rfl
@[simp] theorem State.setXlt_csr (s : State) (i : Nat) (x : Xlt) : (s.setXlt i x).csr = s.csr := rfl
@[simp] theorem State.setXlt_msix (s : State) (i : Nat) (x : Xlt) : (s.setXlt i x).msix = s.msix := rfl
@[simp] theorem State.setXlt_irq (s : State) (i : Nat) (x : Xlt) : (s.setXlt i x).irq = s.irq := rfl
@[simp] theorem State.setXlt_glbPart (s : State) (i : Nat) (x : Xlt) : (s.setXlt i x).glbPart = s.glbPart := rfl
@[simp] theorem State.setXlt_glbHouse (s : State) (i : Nat) (x : Xlt) : (s.setXlt i x).glbHouse = s.glbHouse := rfl
@[simp] theorem State.setXlt_mode (s : State) (i : Nat) (x : Xlt) : (s.setXlt i x).mode = s.mode := rfl
@[simp] theorem State.setXlt_slices (s : State) (i : Nat) (x : Xlt) : (s.setXlt i x).slices = s.slices := rfl
@[simp] theorem State.setXlt_banks (s : State) (i : Nat) (x : Xlt) : (s.setXlt i x).banks = s.banks := rfl
@[simp] theorem State.setXlt_mem (s : State) (i : Nat) (x : Xlt) : (s.setXlt i x).mem = s.mem := rfl
@[simp] theorem State.setXlt_hsf (s : State) (i : Nat) (x : Xlt) : (s.setXlt i x).hsf = s.hsf := rfl
@[simp] theorem State.setXlt_bisnps (s : State) (i : Nat) (x : Xlt) : (s.setXlt i x).bisnps = s.bisnps := rfl
@[simp] theorem State.setXlt_nextBi (s : State) (i : Nat) (x : Xlt) : (s.setXlt i x).nextBi = s.nextBi := rfl
@[simp] theorem State.setXlt_links (s : State) (i : Nat) (x : Xlt) : (s.setXlt i x).links = s.links := rfl
@[simp] theorem State.setXlt_hreqs (s : State) (i : Nat) (x : Xlt) : (s.setXlt i x).hreqs = s.hreqs := rfl
@[simp] theorem State.setXlt_nextRid (s : State) (i : Nat) (x : Xlt) : (s.setXlt i x).nextRid = s.nextRid := rfl
@[simp] theorem State.setXlt_accs (s : State) (i : Nat) (x : Xlt) : (s.setXlt i x).accs = s.accs := rfl
@[simp] theorem State.setXlt_fails (s : State) (i : Nat) (x : Xlt) : (s.setXlt i x).fails = s.fails := rfl
@[simp] theorem State.setXlt_lse (s : State) (i : Nat) (x : Xlt) : (s.setXlt i x).lse = s.lse := rfl
@[simp] theorem State.setXlt_fnc (s : State) (i : Nat) (x : Xlt) : (s.setXlt i x).fnc = s.fnc := rfl
@[simp] theorem State.setXlt_xinv (s : State) (i : Nat) (x : Xlt) : (s.setXlt i x).xinv = s.xinv := rfl
@[simp] theorem State.setXlt_ports (s : State) (i : Nat) (x : Xlt) : (s.setXlt i x).ports = s.ports := rfl
@[simp] theorem State.setXlt_rtr (s : State) (i : Nat) (x : Xlt) : (s.setXlt i x).rtr = s.rtr := rfl
@[simp] theorem State.setXlt_dom (s : State) (i : Nat) (x : Xlt) : (s.setXlt i x).dom = s.dom := rfl
@[simp] theorem State.setXlt_mtu (s : State) (i : Nat) (x : Xlt) : (s.setXlt i x).mtu = s.mtu := rfl
@[simp] theorem State.setXlt_pors (s : State) (i : Nat) (x : Xlt) : (s.setXlt i x).pors = s.pors := rfl
@[simp] theorem State.setXlt_qmg (s : State) (i : Nat) (x : Xlt) : (s.setXlt i x).qmg = s.qmg := rfl
@[simp] theorem State.setXlt_ras (s : State) (i : Nat) (x : Xlt) : (s.setXlt i x).ras = s.ras := rfl
@[simp] theorem State.setXlt_mgt (s : State) (i : Nat) (x : Xlt) : (s.setXlt i x).mgt = s.mgt := rfl
@[simp] theorem State.setXlt_tlys (s : State) (i : Nat) (x : Xlt) : (s.setXlt i x).tlys = s.tlys := rfl
@[simp] theorem State.setXlt_events (s : State) (i : Nat) (x : Xlt) : (s.setXlt i x).events = s.events := rfl
@[simp] theorem State.setXlt_trc (s : State) (i : Nat) (x : Xlt) : (s.setXlt i x).trc = s.trc := rfl
@[simp] theorem State.setXlt_tap (s : State) (i : Nat) (x : Xlt) : (s.setXlt i x).tap = s.tap := rfl
@[simp] theorem State.setXlt_outs (s : State) (i : Nat) (x : Xlt) : (s.setXlt i x).outs = s.outs := rfl
@[simp] theorem State.setXlt_pending (s : State) (i : Nat) (x : Xlt) : (s.setXlt i x).pending = s.pending := rfl

@[simp] theorem State.setTly_part (s : State) (u : Nat) (x : Tly) : (s.setTly u x).part = s.part := rfl
@[simp] theorem State.setTly_clk (s : State) (u : Nat) (x : Tly) : (s.setTly u x).clk = s.clk := rfl
@[simp] theorem State.setTly_cyc0 (s : State) (u : Nat) (x : Tly) : (s.setTly u x).cyc0 = s.cyc0 := rfl
@[simp] theorem State.setTly_paused (s : State) (u : Nat) (x : Tly) : (s.setTly u x).paused = s.paused := rfl
@[simp] theorem State.setTly_free (s : State) (u : Nat) (x : Tly) : (s.setTly u x).free = s.free := rfl
@[simp] theorem State.setTly_finds (s : State) (u : Nat) (x : Tly) : (s.setTly u x).finds = s.finds := rfl
@[simp] theorem State.setTly_pcr (s : State) (u : Nat) (x : Tly) : (s.setTly u x).pcr = s.pcr := rfl
@[simp] theorem State.setTly_boot (s : State) (u : Nat) (x : Tly) : (s.setTly u x).boot = s.boot := rfl
@[simp] theorem State.setTly_node (s : State) (u : Nat) (x : Tly) : (s.setTly u x).node = s.node := rfl
@[simp] theorem State.setTly_csr (s : State) (u : Nat) (x : Tly) : (s.setTly u x).csr = s.csr := rfl
@[simp] theorem State.setTly_msix (s : State) (u : Nat) (x : Tly) : (s.setTly u x).msix = s.msix := rfl
@[simp] theorem State.setTly_irq (s : State) (u : Nat) (x : Tly) : (s.setTly u x).irq = s.irq := rfl
@[simp] theorem State.setTly_glbPart (s : State) (u : Nat) (x : Tly) : (s.setTly u x).glbPart = s.glbPart := rfl
@[simp] theorem State.setTly_glbHouse (s : State) (u : Nat) (x : Tly) : (s.setTly u x).glbHouse = s.glbHouse := rfl
@[simp] theorem State.setTly_mode (s : State) (u : Nat) (x : Tly) : (s.setTly u x).mode = s.mode := rfl
@[simp] theorem State.setTly_slices (s : State) (u : Nat) (x : Tly) : (s.setTly u x).slices = s.slices := rfl
@[simp] theorem State.setTly_banks (s : State) (u : Nat) (x : Tly) : (s.setTly u x).banks = s.banks := rfl
@[simp] theorem State.setTly_mem (s : State) (u : Nat) (x : Tly) : (s.setTly u x).mem = s.mem := rfl
@[simp] theorem State.setTly_hsf (s : State) (u : Nat) (x : Tly) : (s.setTly u x).hsf = s.hsf := rfl
@[simp] theorem State.setTly_bisnps (s : State) (u : Nat) (x : Tly) : (s.setTly u x).bisnps = s.bisnps := rfl
@[simp] theorem State.setTly_nextBi (s : State) (u : Nat) (x : Tly) : (s.setTly u x).nextBi = s.nextBi := rfl
@[simp] theorem State.setTly_links (s : State) (u : Nat) (x : Tly) : (s.setTly u x).links = s.links := rfl
@[simp] theorem State.setTly_hreqs (s : State) (u : Nat) (x : Tly) : (s.setTly u x).hreqs = s.hreqs := rfl
@[simp] theorem State.setTly_nextRid (s : State) (u : Nat) (x : Tly) : (s.setTly u x).nextRid = s.nextRid := rfl
@[simp] theorem State.setTly_accs (s : State) (u : Nat) (x : Tly) : (s.setTly u x).accs = s.accs := rfl
@[simp] theorem State.setTly_fails (s : State) (u : Nat) (x : Tly) : (s.setTly u x).fails = s.fails := rfl
@[simp] theorem State.setTly_lse (s : State) (u : Nat) (x : Tly) : (s.setTly u x).lse = s.lse := rfl
@[simp] theorem State.setTly_fnc (s : State) (u : Nat) (x : Tly) : (s.setTly u x).fnc = s.fnc := rfl
@[simp] theorem State.setTly_xlts (s : State) (u : Nat) (x : Tly) : (s.setTly u x).xlts = s.xlts := rfl
@[simp] theorem State.setTly_xinv (s : State) (u : Nat) (x : Tly) : (s.setTly u x).xinv = s.xinv := rfl
@[simp] theorem State.setTly_ports (s : State) (u : Nat) (x : Tly) : (s.setTly u x).ports = s.ports := rfl
@[simp] theorem State.setTly_rtr (s : State) (u : Nat) (x : Tly) : (s.setTly u x).rtr = s.rtr := rfl
@[simp] theorem State.setTly_dom (s : State) (u : Nat) (x : Tly) : (s.setTly u x).dom = s.dom := rfl
@[simp] theorem State.setTly_mtu (s : State) (u : Nat) (x : Tly) : (s.setTly u x).mtu = s.mtu := rfl
@[simp] theorem State.setTly_pors (s : State) (u : Nat) (x : Tly) : (s.setTly u x).pors = s.pors := rfl
@[simp] theorem State.setTly_qmg (s : State) (u : Nat) (x : Tly) : (s.setTly u x).qmg = s.qmg := rfl
@[simp] theorem State.setTly_ras (s : State) (u : Nat) (x : Tly) : (s.setTly u x).ras = s.ras := rfl
@[simp] theorem State.setTly_mgt (s : State) (u : Nat) (x : Tly) : (s.setTly u x).mgt = s.mgt := rfl
@[simp] theorem State.setTly_events (s : State) (u : Nat) (x : Tly) : (s.setTly u x).events = s.events := rfl
@[simp] theorem State.setTly_trc (s : State) (u : Nat) (x : Tly) : (s.setTly u x).trc = s.trc := rfl
@[simp] theorem State.setTly_tap (s : State) (u : Nat) (x : Tly) : (s.setTly u x).tap = s.tap := rfl
@[simp] theorem State.setTly_outs (s : State) (u : Nat) (x : Tly) : (s.setTly u x).outs = s.outs := rfl
@[simp] theorem State.setTly_pending (s : State) (u : Nat) (x : Tly) : (s.setTly u x).pending = s.pending := rfl

@[simp] theorem State.setChan_part (s : State) (c : Nat) (x : Chan) : (s.setChan c x).part = s.part := rfl
@[simp] theorem State.setChan_clk (s : State) (c : Nat) (x : Chan) : (s.setChan c x).clk = s.clk := rfl
@[simp] theorem State.setChan_cyc0 (s : State) (c : Nat) (x : Chan) : (s.setChan c x).cyc0 = s.cyc0 := rfl
@[simp] theorem State.setChan_paused (s : State) (c : Nat) (x : Chan) : (s.setChan c x).paused = s.paused := rfl
@[simp] theorem State.setChan_free (s : State) (c : Nat) (x : Chan) : (s.setChan c x).free = s.free := rfl
@[simp] theorem State.setChan_finds (s : State) (c : Nat) (x : Chan) : (s.setChan c x).finds = s.finds := rfl
@[simp] theorem State.setChan_pcr (s : State) (c : Nat) (x : Chan) : (s.setChan c x).pcr = s.pcr := rfl
@[simp] theorem State.setChan_boot (s : State) (c : Nat) (x : Chan) : (s.setChan c x).boot = s.boot := rfl
@[simp] theorem State.setChan_node (s : State) (c : Nat) (x : Chan) : (s.setChan c x).node = s.node := rfl
@[simp] theorem State.setChan_csr (s : State) (c : Nat) (x : Chan) : (s.setChan c x).csr = s.csr := rfl
@[simp] theorem State.setChan_msix (s : State) (c : Nat) (x : Chan) : (s.setChan c x).msix = s.msix := rfl
@[simp] theorem State.setChan_irq (s : State) (c : Nat) (x : Chan) : (s.setChan c x).irq = s.irq := rfl
@[simp] theorem State.setChan_glbPart (s : State) (c : Nat) (x : Chan) : (s.setChan c x).glbPart = s.glbPart := rfl
@[simp] theorem State.setChan_glbHouse (s : State) (c : Nat) (x : Chan) : (s.setChan c x).glbHouse = s.glbHouse := rfl
@[simp] theorem State.setChan_mode (s : State) (c : Nat) (x : Chan) : (s.setChan c x).mode = s.mode := rfl
@[simp] theorem State.setChan_slices (s : State) (c : Nat) (x : Chan) : (s.setChan c x).slices = s.slices := rfl
@[simp] theorem State.setChan_banks (s : State) (c : Nat) (x : Chan) : (s.setChan c x).banks = s.banks := rfl
@[simp] theorem State.setChan_hsf (s : State) (c : Nat) (x : Chan) : (s.setChan c x).hsf = s.hsf := rfl
@[simp] theorem State.setChan_bisnps (s : State) (c : Nat) (x : Chan) : (s.setChan c x).bisnps = s.bisnps := rfl
@[simp] theorem State.setChan_nextBi (s : State) (c : Nat) (x : Chan) : (s.setChan c x).nextBi = s.nextBi := rfl
@[simp] theorem State.setChan_links (s : State) (c : Nat) (x : Chan) : (s.setChan c x).links = s.links := rfl
@[simp] theorem State.setChan_hreqs (s : State) (c : Nat) (x : Chan) : (s.setChan c x).hreqs = s.hreqs := rfl
@[simp] theorem State.setChan_nextRid (s : State) (c : Nat) (x : Chan) : (s.setChan c x).nextRid = s.nextRid := rfl
@[simp] theorem State.setChan_accs (s : State) (c : Nat) (x : Chan) : (s.setChan c x).accs = s.accs := rfl
@[simp] theorem State.setChan_fails (s : State) (c : Nat) (x : Chan) : (s.setChan c x).fails = s.fails := rfl
@[simp] theorem State.setChan_lse (s : State) (c : Nat) (x : Chan) : (s.setChan c x).lse = s.lse := rfl
@[simp] theorem State.setChan_fnc (s : State) (c : Nat) (x : Chan) : (s.setChan c x).fnc = s.fnc := rfl
@[simp] theorem State.setChan_xlts (s : State) (c : Nat) (x : Chan) : (s.setChan c x).xlts = s.xlts := rfl
@[simp] theorem State.setChan_xinv (s : State) (c : Nat) (x : Chan) : (s.setChan c x).xinv = s.xinv := rfl
@[simp] theorem State.setChan_ports (s : State) (c : Nat) (x : Chan) : (s.setChan c x).ports = s.ports := rfl
@[simp] theorem State.setChan_rtr (s : State) (c : Nat) (x : Chan) : (s.setChan c x).rtr = s.rtr := rfl
@[simp] theorem State.setChan_dom (s : State) (c : Nat) (x : Chan) : (s.setChan c x).dom = s.dom := rfl
@[simp] theorem State.setChan_mtu (s : State) (c : Nat) (x : Chan) : (s.setChan c x).mtu = s.mtu := rfl
@[simp] theorem State.setChan_pors (s : State) (c : Nat) (x : Chan) : (s.setChan c x).pors = s.pors := rfl
@[simp] theorem State.setChan_qmg (s : State) (c : Nat) (x : Chan) : (s.setChan c x).qmg = s.qmg := rfl
@[simp] theorem State.setChan_ras (s : State) (c : Nat) (x : Chan) : (s.setChan c x).ras = s.ras := rfl
@[simp] theorem State.setChan_mgt (s : State) (c : Nat) (x : Chan) : (s.setChan c x).mgt = s.mgt := rfl
@[simp] theorem State.setChan_tlys (s : State) (c : Nat) (x : Chan) : (s.setChan c x).tlys = s.tlys := rfl
@[simp] theorem State.setChan_events (s : State) (c : Nat) (x : Chan) : (s.setChan c x).events = s.events := rfl
@[simp] theorem State.setChan_trc (s : State) (c : Nat) (x : Chan) : (s.setChan c x).trc = s.trc := rfl
@[simp] theorem State.setChan_tap (s : State) (c : Nat) (x : Chan) : (s.setChan c x).tap = s.tap := rfl
@[simp] theorem State.setChan_outs (s : State) (c : Nat) (x : Chan) : (s.setChan c x).outs = s.outs := rfl
@[simp] theorem State.setChan_pending (s : State) (c : Nat) (x : Chan) : (s.setChan c x).pending = s.pending := rfl
@[simp] theorem State.setChan_mem_far (s : State) (c : Nat) (x : Chan) : (s.setChan c x).mem.far = s.mem.far := rfl
@[simp] theorem State.setChan_mem_farPoison (s : State) (c : Nat) (x : Chan) : (s.setChan c x).mem.farPoison = s.mem.farPoison := rfl
@[simp] theorem State.setChan_mem_farWritten (s : State) (c : Nat) (x : Chan) : (s.setChan c x).mem.farWritten = s.mem.farWritten := rfl
@[simp] theorem State.setChan_mem_farZero (s : State) (c : Nat) (x : Chan) : (s.setChan c x).mem.farZero = s.mem.farZero := rfl
@[simp] theorem State.setChan_mem_houseUe (s : State) (c : Nat) (x : Chan) : (s.setChan c x).mem.houseUe = s.mem.houseUe := rfl
@[simp] theorem State.setChan_mem_dram (s : State) (c : Nat) (x : Chan) : (s.setChan c x).mem.dram = s.mem.dram := rfl
@[simp] theorem State.setChan_mem_zmap (s : State) (c : Nat) (x : Chan) : (s.setChan c x).mem.zmap = s.mem.zmap := rfl
@[simp] theorem State.setChan_mem_ztrk (s : State) (c : Nat) (x : Chan) : (s.setChan c x).mem.ztrk = s.mem.ztrk := rfl
@[simp] theorem State.setChan_mem_reads (s : State) (c : Nat) (x : Chan) : (s.setChan c x).mem.reads = s.mem.reads := rfl
@[simp] theorem State.setChan_mem_nextTok (s : State) (c : Nat) (x : Chan) : (s.setChan c x).mem.nextTok = s.mem.nextTok := rfl
@[simp] theorem State.setChan_mem_nextSeq (s : State) (c : Nat) (x : Chan) : (s.setChan c x).mem.nextSeq = s.mem.nextSeq := rfl
@[simp] theorem State.setChan_mem_near (s : State) (c : Nat) (x : Chan) : (s.setChan c x).mem.near = s.mem.near := rfl
@[simp] theorem State.setChan_mem_nearPoison (s : State) (c : Nat) (x : Chan) : (s.setChan c x).mem.nearPoison = s.mem.nearPoison := rfl
@[simp] theorem State.setChan_mem_tags (s : State) (c : Nat) (x : Chan) : (s.setChan c x).mem.tags = s.mem.tags := rfl
@[simp] theorem State.setChan_mem_recs (s : State) (c : Nat) (x : Chan) : (s.setChan c x).mem.recs = s.mem.recs := rfl
@[simp] theorem State.setChan_mem_raw (s : State) (c : Nat) (x : Chan) : (s.setChan c x).mem.raw = s.mem.raw := rfl
@[simp] theorem State.setChan_mem_pasrMask (s : State) (c : Nat) (x : Chan) : (s.setChan c x).mem.pasrMask = s.mem.pasrMask := rfl
@[simp] theorem State.setChan_mem_pasrEn (s : State) (c : Nat) (x : Chan) : (s.setChan c x).mem.pasrEn = s.mem.pasrEn := rfl
@[simp] theorem State.setChan_mem_rbits (s : State) (c : Nat) (x : Chan) : (s.setChan c x).mem.rbits = s.mem.rbits := rfl
@[simp] theorem State.setChan_mem_kbits (s : State) (c : Nat) (x : Chan) : (s.setChan c x).mem.kbits = s.mem.kbits := rfl
@[simp] theorem State.setChan_mem_popSet (s : State) (c : Nat) (x : Chan) : (s.setChan c x).mem.popSet = s.mem.popSet := rfl
@[simp] theorem State.setChan_mem_softPpr (s : State) (c : Nat) (x : Chan) : (s.setChan c x).mem.softPpr = s.mem.softPpr := rfl
@[simp] theorem State.setChan_mem_hardPpr (s : State) (c : Nat) (x : Chan) : (s.setChan c x).mem.hardPpr = s.mem.hardPpr := rfl

@[simp] theorem State.csrPut_part (s : State) (o : Nat) (v : Word) : (s.csrPut o v).part = s.part := rfl
@[simp] theorem State.csrPut_clk (s : State) (o : Nat) (v : Word) : (s.csrPut o v).clk = s.clk := rfl
@[simp] theorem State.csrPut_cyc0 (s : State) (o : Nat) (v : Word) : (s.csrPut o v).cyc0 = s.cyc0 := rfl
@[simp] theorem State.csrPut_paused (s : State) (o : Nat) (v : Word) : (s.csrPut o v).paused = s.paused := rfl
@[simp] theorem State.csrPut_free (s : State) (o : Nat) (v : Word) : (s.csrPut o v).free = s.free := rfl
@[simp] theorem State.csrPut_finds (s : State) (o : Nat) (v : Word) : (s.csrPut o v).finds = s.finds := rfl
@[simp] theorem State.csrPut_pcr (s : State) (o : Nat) (v : Word) : (s.csrPut o v).pcr = s.pcr := rfl
@[simp] theorem State.csrPut_boot (s : State) (o : Nat) (v : Word) : (s.csrPut o v).boot = s.boot := rfl
@[simp] theorem State.csrPut_node (s : State) (o : Nat) (v : Word) : (s.csrPut o v).node = s.node := rfl
@[simp] theorem State.csrPut_msix (s : State) (o : Nat) (v : Word) : (s.csrPut o v).msix = s.msix := rfl
@[simp] theorem State.csrPut_irq (s : State) (o : Nat) (v : Word) : (s.csrPut o v).irq = s.irq := rfl
@[simp] theorem State.csrPut_glbPart (s : State) (o : Nat) (v : Word) : (s.csrPut o v).glbPart = s.glbPart := rfl
@[simp] theorem State.csrPut_glbHouse (s : State) (o : Nat) (v : Word) : (s.csrPut o v).glbHouse = s.glbHouse := rfl
@[simp] theorem State.csrPut_mode (s : State) (o : Nat) (v : Word) : (s.csrPut o v).mode = s.mode := rfl
@[simp] theorem State.csrPut_slices (s : State) (o : Nat) (v : Word) : (s.csrPut o v).slices = s.slices := rfl
@[simp] theorem State.csrPut_banks (s : State) (o : Nat) (v : Word) : (s.csrPut o v).banks = s.banks := rfl
@[simp] theorem State.csrPut_mem (s : State) (o : Nat) (v : Word) : (s.csrPut o v).mem = s.mem := rfl
@[simp] theorem State.csrPut_hsf (s : State) (o : Nat) (v : Word) : (s.csrPut o v).hsf = s.hsf := rfl
@[simp] theorem State.csrPut_bisnps (s : State) (o : Nat) (v : Word) : (s.csrPut o v).bisnps = s.bisnps := rfl
@[simp] theorem State.csrPut_nextBi (s : State) (o : Nat) (v : Word) : (s.csrPut o v).nextBi = s.nextBi := rfl
@[simp] theorem State.csrPut_links (s : State) (o : Nat) (v : Word) : (s.csrPut o v).links = s.links := rfl
@[simp] theorem State.csrPut_hreqs (s : State) (o : Nat) (v : Word) : (s.csrPut o v).hreqs = s.hreqs := rfl
@[simp] theorem State.csrPut_nextRid (s : State) (o : Nat) (v : Word) : (s.csrPut o v).nextRid = s.nextRid := rfl
@[simp] theorem State.csrPut_accs (s : State) (o : Nat) (v : Word) : (s.csrPut o v).accs = s.accs := rfl
@[simp] theorem State.csrPut_fails (s : State) (o : Nat) (v : Word) : (s.csrPut o v).fails = s.fails := rfl
@[simp] theorem State.csrPut_lse (s : State) (o : Nat) (v : Word) : (s.csrPut o v).lse = s.lse := rfl
@[simp] theorem State.csrPut_fnc (s : State) (o : Nat) (v : Word) : (s.csrPut o v).fnc = s.fnc := rfl
@[simp] theorem State.csrPut_xlts (s : State) (o : Nat) (v : Word) : (s.csrPut o v).xlts = s.xlts := rfl
@[simp] theorem State.csrPut_xinv (s : State) (o : Nat) (v : Word) : (s.csrPut o v).xinv = s.xinv := rfl
@[simp] theorem State.csrPut_ports (s : State) (o : Nat) (v : Word) : (s.csrPut o v).ports = s.ports := rfl
@[simp] theorem State.csrPut_rtr (s : State) (o : Nat) (v : Word) : (s.csrPut o v).rtr = s.rtr := rfl
@[simp] theorem State.csrPut_dom (s : State) (o : Nat) (v : Word) : (s.csrPut o v).dom = s.dom := rfl
@[simp] theorem State.csrPut_mtu (s : State) (o : Nat) (v : Word) : (s.csrPut o v).mtu = s.mtu := rfl
@[simp] theorem State.csrPut_pors (s : State) (o : Nat) (v : Word) : (s.csrPut o v).pors = s.pors := rfl
@[simp] theorem State.csrPut_qmg (s : State) (o : Nat) (v : Word) : (s.csrPut o v).qmg = s.qmg := rfl
@[simp] theorem State.csrPut_ras (s : State) (o : Nat) (v : Word) : (s.csrPut o v).ras = s.ras := rfl
@[simp] theorem State.csrPut_mgt (s : State) (o : Nat) (v : Word) : (s.csrPut o v).mgt = s.mgt := rfl
@[simp] theorem State.csrPut_tlys (s : State) (o : Nat) (v : Word) : (s.csrPut o v).tlys = s.tlys := rfl
@[simp] theorem State.csrPut_events (s : State) (o : Nat) (v : Word) : (s.csrPut o v).events = s.events := rfl
@[simp] theorem State.csrPut_trc (s : State) (o : Nat) (v : Word) : (s.csrPut o v).trc = s.trc := rfl
@[simp] theorem State.csrPut_tap (s : State) (o : Nat) (v : Word) : (s.csrPut o v).tap = s.tap := rfl
@[simp] theorem State.csrPut_outs (s : State) (o : Nat) (v : Word) : (s.csrPut o v).outs = s.outs := rfl
@[simp] theorem State.csrPut_pending (s : State) (o : Nat) (v : Word) : (s.csrPut o v).pending = s.pending := rfl

@[simp] theorem State.msixPut_part (s : State) (k : Nat) (v : Word) : (s.msixPut k v).part = s.part := rfl
@[simp] theorem State.msixPut_clk (s : State) (k : Nat) (v : Word) : (s.msixPut k v).clk = s.clk := rfl
@[simp] theorem State.msixPut_cyc0 (s : State) (k : Nat) (v : Word) : (s.msixPut k v).cyc0 = s.cyc0 := rfl
@[simp] theorem State.msixPut_paused (s : State) (k : Nat) (v : Word) : (s.msixPut k v).paused = s.paused := rfl
@[simp] theorem State.msixPut_free (s : State) (k : Nat) (v : Word) : (s.msixPut k v).free = s.free := rfl
@[simp] theorem State.msixPut_finds (s : State) (k : Nat) (v : Word) : (s.msixPut k v).finds = s.finds := rfl
@[simp] theorem State.msixPut_pcr (s : State) (k : Nat) (v : Word) : (s.msixPut k v).pcr = s.pcr := rfl
@[simp] theorem State.msixPut_boot (s : State) (k : Nat) (v : Word) : (s.msixPut k v).boot = s.boot := rfl
@[simp] theorem State.msixPut_node (s : State) (k : Nat) (v : Word) : (s.msixPut k v).node = s.node := rfl
@[simp] theorem State.msixPut_csr (s : State) (k : Nat) (v : Word) : (s.msixPut k v).csr = s.csr := rfl
@[simp] theorem State.msixPut_irq (s : State) (k : Nat) (v : Word) : (s.msixPut k v).irq = s.irq := rfl
@[simp] theorem State.msixPut_glbPart (s : State) (k : Nat) (v : Word) : (s.msixPut k v).glbPart = s.glbPart := rfl
@[simp] theorem State.msixPut_glbHouse (s : State) (k : Nat) (v : Word) : (s.msixPut k v).glbHouse = s.glbHouse := rfl
@[simp] theorem State.msixPut_mode (s : State) (k : Nat) (v : Word) : (s.msixPut k v).mode = s.mode := rfl
@[simp] theorem State.msixPut_slices (s : State) (k : Nat) (v : Word) : (s.msixPut k v).slices = s.slices := rfl
@[simp] theorem State.msixPut_banks (s : State) (k : Nat) (v : Word) : (s.msixPut k v).banks = s.banks := rfl
@[simp] theorem State.msixPut_mem (s : State) (k : Nat) (v : Word) : (s.msixPut k v).mem = s.mem := rfl
@[simp] theorem State.msixPut_hsf (s : State) (k : Nat) (v : Word) : (s.msixPut k v).hsf = s.hsf := rfl
@[simp] theorem State.msixPut_bisnps (s : State) (k : Nat) (v : Word) : (s.msixPut k v).bisnps = s.bisnps := rfl
@[simp] theorem State.msixPut_nextBi (s : State) (k : Nat) (v : Word) : (s.msixPut k v).nextBi = s.nextBi := rfl
@[simp] theorem State.msixPut_links (s : State) (k : Nat) (v : Word) : (s.msixPut k v).links = s.links := rfl
@[simp] theorem State.msixPut_hreqs (s : State) (k : Nat) (v : Word) : (s.msixPut k v).hreqs = s.hreqs := rfl
@[simp] theorem State.msixPut_nextRid (s : State) (k : Nat) (v : Word) : (s.msixPut k v).nextRid = s.nextRid := rfl
@[simp] theorem State.msixPut_accs (s : State) (k : Nat) (v : Word) : (s.msixPut k v).accs = s.accs := rfl
@[simp] theorem State.msixPut_fails (s : State) (k : Nat) (v : Word) : (s.msixPut k v).fails = s.fails := rfl
@[simp] theorem State.msixPut_lse (s : State) (k : Nat) (v : Word) : (s.msixPut k v).lse = s.lse := rfl
@[simp] theorem State.msixPut_fnc (s : State) (k : Nat) (v : Word) : (s.msixPut k v).fnc = s.fnc := rfl
@[simp] theorem State.msixPut_xlts (s : State) (k : Nat) (v : Word) : (s.msixPut k v).xlts = s.xlts := rfl
@[simp] theorem State.msixPut_xinv (s : State) (k : Nat) (v : Word) : (s.msixPut k v).xinv = s.xinv := rfl
@[simp] theorem State.msixPut_ports (s : State) (k : Nat) (v : Word) : (s.msixPut k v).ports = s.ports := rfl
@[simp] theorem State.msixPut_rtr (s : State) (k : Nat) (v : Word) : (s.msixPut k v).rtr = s.rtr := rfl
@[simp] theorem State.msixPut_dom (s : State) (k : Nat) (v : Word) : (s.msixPut k v).dom = s.dom := rfl
@[simp] theorem State.msixPut_mtu (s : State) (k : Nat) (v : Word) : (s.msixPut k v).mtu = s.mtu := rfl
@[simp] theorem State.msixPut_pors (s : State) (k : Nat) (v : Word) : (s.msixPut k v).pors = s.pors := rfl
@[simp] theorem State.msixPut_qmg (s : State) (k : Nat) (v : Word) : (s.msixPut k v).qmg = s.qmg := rfl
@[simp] theorem State.msixPut_ras (s : State) (k : Nat) (v : Word) : (s.msixPut k v).ras = s.ras := rfl
@[simp] theorem State.msixPut_mgt (s : State) (k : Nat) (v : Word) : (s.msixPut k v).mgt = s.mgt := rfl
@[simp] theorem State.msixPut_tlys (s : State) (k : Nat) (v : Word) : (s.msixPut k v).tlys = s.tlys := rfl
@[simp] theorem State.msixPut_events (s : State) (k : Nat) (v : Word) : (s.msixPut k v).events = s.events := rfl
@[simp] theorem State.msixPut_trc (s : State) (k : Nat) (v : Word) : (s.msixPut k v).trc = s.trc := rfl
@[simp] theorem State.msixPut_tap (s : State) (k : Nat) (v : Word) : (s.msixPut k v).tap = s.tap := rfl
@[simp] theorem State.msixPut_outs (s : State) (k : Nat) (v : Word) : (s.msixPut k v).outs = s.outs := rfl
@[simp] theorem State.msixPut_pending (s : State) (k : Nat) (v : Word) : (s.msixPut k v).pending = s.pending := rfl

@[simp] theorem State.emit_part (s : State) (o : Out) : (s.emit o).part = s.part := rfl
@[simp] theorem State.emit_clk (s : State) (o : Out) : (s.emit o).clk = s.clk := rfl
@[simp] theorem State.emit_cyc0 (s : State) (o : Out) : (s.emit o).cyc0 = s.cyc0 := rfl
@[simp] theorem State.emit_paused (s : State) (o : Out) : (s.emit o).paused = s.paused := rfl
@[simp] theorem State.emit_free (s : State) (o : Out) : (s.emit o).free = s.free := rfl
@[simp] theorem State.emit_finds (s : State) (o : Out) : (s.emit o).finds = s.finds := rfl
@[simp] theorem State.emit_pcr (s : State) (o : Out) : (s.emit o).pcr = s.pcr := rfl
@[simp] theorem State.emit_boot (s : State) (o : Out) : (s.emit o).boot = s.boot := rfl
@[simp] theorem State.emit_node (s : State) (o : Out) : (s.emit o).node = s.node := rfl
@[simp] theorem State.emit_csr (s : State) (o : Out) : (s.emit o).csr = s.csr := rfl
@[simp] theorem State.emit_msix (s : State) (o : Out) : (s.emit o).msix = s.msix := rfl
@[simp] theorem State.emit_irq (s : State) (o : Out) : (s.emit o).irq = s.irq := rfl
@[simp] theorem State.emit_glbPart (s : State) (o : Out) : (s.emit o).glbPart = s.glbPart := rfl
@[simp] theorem State.emit_glbHouse (s : State) (o : Out) : (s.emit o).glbHouse = s.glbHouse := rfl
@[simp] theorem State.emit_mode (s : State) (o : Out) : (s.emit o).mode = s.mode := rfl
@[simp] theorem State.emit_slices (s : State) (o : Out) : (s.emit o).slices = s.slices := rfl
@[simp] theorem State.emit_banks (s : State) (o : Out) : (s.emit o).banks = s.banks := rfl
@[simp] theorem State.emit_mem (s : State) (o : Out) : (s.emit o).mem = s.mem := rfl
@[simp] theorem State.emit_hsf (s : State) (o : Out) : (s.emit o).hsf = s.hsf := rfl
@[simp] theorem State.emit_bisnps (s : State) (o : Out) : (s.emit o).bisnps = s.bisnps := rfl
@[simp] theorem State.emit_nextBi (s : State) (o : Out) : (s.emit o).nextBi = s.nextBi := rfl
@[simp] theorem State.emit_links (s : State) (o : Out) : (s.emit o).links = s.links := rfl
@[simp] theorem State.emit_hreqs (s : State) (o : Out) : (s.emit o).hreqs = s.hreqs := rfl
@[simp] theorem State.emit_nextRid (s : State) (o : Out) : (s.emit o).nextRid = s.nextRid := rfl
@[simp] theorem State.emit_accs (s : State) (o : Out) : (s.emit o).accs = s.accs := rfl
@[simp] theorem State.emit_fails (s : State) (o : Out) : (s.emit o).fails = s.fails := rfl
@[simp] theorem State.emit_lse (s : State) (o : Out) : (s.emit o).lse = s.lse := rfl
@[simp] theorem State.emit_fnc (s : State) (o : Out) : (s.emit o).fnc = s.fnc := rfl
@[simp] theorem State.emit_xlts (s : State) (o : Out) : (s.emit o).xlts = s.xlts := rfl
@[simp] theorem State.emit_xinv (s : State) (o : Out) : (s.emit o).xinv = s.xinv := rfl
@[simp] theorem State.emit_ports (s : State) (o : Out) : (s.emit o).ports = s.ports := rfl
@[simp] theorem State.emit_rtr (s : State) (o : Out) : (s.emit o).rtr = s.rtr := rfl
@[simp] theorem State.emit_dom (s : State) (o : Out) : (s.emit o).dom = s.dom := rfl
@[simp] theorem State.emit_mtu (s : State) (o : Out) : (s.emit o).mtu = s.mtu := rfl
@[simp] theorem State.emit_pors (s : State) (o : Out) : (s.emit o).pors = s.pors := rfl
@[simp] theorem State.emit_qmg (s : State) (o : Out) : (s.emit o).qmg = s.qmg := rfl
@[simp] theorem State.emit_ras (s : State) (o : Out) : (s.emit o).ras = s.ras := rfl
@[simp] theorem State.emit_mgt (s : State) (o : Out) : (s.emit o).mgt = s.mgt := rfl
@[simp] theorem State.emit_tlys (s : State) (o : Out) : (s.emit o).tlys = s.tlys := rfl
@[simp] theorem State.emit_events (s : State) (o : Out) : (s.emit o).events = s.events := rfl
@[simp] theorem State.emit_trc (s : State) (o : Out) : (s.emit o).trc = s.trc := rfl
@[simp] theorem State.emit_tap (s : State) (o : Out) : (s.emit o).tap = s.tap := rfl
@[simp] theorem State.emit_pending (s : State) (o : Out) : (s.emit o).pending = s.pending := rfl

@[simp] theorem State.event_part (s : State) (u c k : Nat) : (s.event u c k).part = s.part := rfl
@[simp] theorem State.event_clk (s : State) (u c k : Nat) : (s.event u c k).clk = s.clk := rfl
@[simp] theorem State.event_cyc0 (s : State) (u c k : Nat) : (s.event u c k).cyc0 = s.cyc0 := rfl
@[simp] theorem State.event_paused (s : State) (u c k : Nat) : (s.event u c k).paused = s.paused := rfl
@[simp] theorem State.event_free (s : State) (u c k : Nat) : (s.event u c k).free = s.free := rfl
@[simp] theorem State.event_finds (s : State) (u c k : Nat) : (s.event u c k).finds = s.finds := rfl
@[simp] theorem State.event_pcr (s : State) (u c k : Nat) : (s.event u c k).pcr = s.pcr := rfl
@[simp] theorem State.event_boot (s : State) (u c k : Nat) : (s.event u c k).boot = s.boot := rfl
@[simp] theorem State.event_node (s : State) (u c k : Nat) : (s.event u c k).node = s.node := rfl
@[simp] theorem State.event_csr (s : State) (u c k : Nat) : (s.event u c k).csr = s.csr := rfl
@[simp] theorem State.event_msix (s : State) (u c k : Nat) : (s.event u c k).msix = s.msix := rfl
@[simp] theorem State.event_irq (s : State) (u c k : Nat) : (s.event u c k).irq = s.irq := rfl
@[simp] theorem State.event_glbPart (s : State) (u c k : Nat) : (s.event u c k).glbPart = s.glbPart := rfl
@[simp] theorem State.event_glbHouse (s : State) (u c k : Nat) : (s.event u c k).glbHouse = s.glbHouse := rfl
@[simp] theorem State.event_mode (s : State) (u c k : Nat) : (s.event u c k).mode = s.mode := rfl
@[simp] theorem State.event_slices (s : State) (u c k : Nat) : (s.event u c k).slices = s.slices := rfl
@[simp] theorem State.event_banks (s : State) (u c k : Nat) : (s.event u c k).banks = s.banks := rfl
@[simp] theorem State.event_mem (s : State) (u c k : Nat) : (s.event u c k).mem = s.mem := rfl
@[simp] theorem State.event_hsf (s : State) (u c k : Nat) : (s.event u c k).hsf = s.hsf := rfl
@[simp] theorem State.event_bisnps (s : State) (u c k : Nat) : (s.event u c k).bisnps = s.bisnps := rfl
@[simp] theorem State.event_nextBi (s : State) (u c k : Nat) : (s.event u c k).nextBi = s.nextBi := rfl
@[simp] theorem State.event_links (s : State) (u c k : Nat) : (s.event u c k).links = s.links := rfl
@[simp] theorem State.event_hreqs (s : State) (u c k : Nat) : (s.event u c k).hreqs = s.hreqs := rfl
@[simp] theorem State.event_nextRid (s : State) (u c k : Nat) : (s.event u c k).nextRid = s.nextRid := rfl
@[simp] theorem State.event_accs (s : State) (u c k : Nat) : (s.event u c k).accs = s.accs := rfl
@[simp] theorem State.event_fails (s : State) (u c k : Nat) : (s.event u c k).fails = s.fails := rfl
@[simp] theorem State.event_lse (s : State) (u c k : Nat) : (s.event u c k).lse = s.lse := rfl
@[simp] theorem State.event_fnc (s : State) (u c k : Nat) : (s.event u c k).fnc = s.fnc := rfl
@[simp] theorem State.event_xlts (s : State) (u c k : Nat) : (s.event u c k).xlts = s.xlts := rfl
@[simp] theorem State.event_xinv (s : State) (u c k : Nat) : (s.event u c k).xinv = s.xinv := rfl
@[simp] theorem State.event_ports (s : State) (u c k : Nat) : (s.event u c k).ports = s.ports := rfl
@[simp] theorem State.event_rtr (s : State) (u c k : Nat) : (s.event u c k).rtr = s.rtr := rfl
@[simp] theorem State.event_dom (s : State) (u c k : Nat) : (s.event u c k).dom = s.dom := rfl
@[simp] theorem State.event_mtu (s : State) (u c k : Nat) : (s.event u c k).mtu = s.mtu := rfl
@[simp] theorem State.event_pors (s : State) (u c k : Nat) : (s.event u c k).pors = s.pors := rfl
@[simp] theorem State.event_qmg (s : State) (u c k : Nat) : (s.event u c k).qmg = s.qmg := rfl
@[simp] theorem State.event_ras (s : State) (u c k : Nat) : (s.event u c k).ras = s.ras := rfl
@[simp] theorem State.event_mgt (s : State) (u c k : Nat) : (s.event u c k).mgt = s.mgt := rfl
@[simp] theorem State.event_tlys (s : State) (u c k : Nat) : (s.event u c k).tlys = s.tlys := rfl
@[simp] theorem State.event_trc (s : State) (u c k : Nat) : (s.event u c k).trc = s.trc := rfl
@[simp] theorem State.event_tap (s : State) (u c k : Nat) : (s.event u c k).tap = s.tap := rfl
@[simp] theorem State.event_outs (s : State) (u c k : Nat) : (s.event u c k).outs = s.outs := rfl
@[simp] theorem State.event_pending (s : State) (u c k : Nat) : (s.event u c k).pending = s.pending := rfl

@[simp] theorem State.accDone_part (s : State) (aid : Nat) : (s.accDone aid).part = s.part := rfl
@[simp] theorem State.accDone_clk (s : State) (aid : Nat) : (s.accDone aid).clk = s.clk := rfl
@[simp] theorem State.accDone_cyc0 (s : State) (aid : Nat) : (s.accDone aid).cyc0 = s.cyc0 := rfl
@[simp] theorem State.accDone_paused (s : State) (aid : Nat) : (s.accDone aid).paused = s.paused := rfl
@[simp] theorem State.accDone_free (s : State) (aid : Nat) : (s.accDone aid).free = s.free := rfl
@[simp] theorem State.accDone_finds (s : State) (aid : Nat) : (s.accDone aid).finds = s.finds := rfl
@[simp] theorem State.accDone_pcr (s : State) (aid : Nat) : (s.accDone aid).pcr = s.pcr := rfl
@[simp] theorem State.accDone_boot (s : State) (aid : Nat) : (s.accDone aid).boot = s.boot := rfl
@[simp] theorem State.accDone_node (s : State) (aid : Nat) : (s.accDone aid).node = s.node := rfl
@[simp] theorem State.accDone_csr (s : State) (aid : Nat) : (s.accDone aid).csr = s.csr := rfl
@[simp] theorem State.accDone_msix (s : State) (aid : Nat) : (s.accDone aid).msix = s.msix := rfl
@[simp] theorem State.accDone_irq (s : State) (aid : Nat) : (s.accDone aid).irq = s.irq := rfl
@[simp] theorem State.accDone_glbPart (s : State) (aid : Nat) : (s.accDone aid).glbPart = s.glbPart := rfl
@[simp] theorem State.accDone_glbHouse (s : State) (aid : Nat) : (s.accDone aid).glbHouse = s.glbHouse := rfl
@[simp] theorem State.accDone_mode (s : State) (aid : Nat) : (s.accDone aid).mode = s.mode := rfl
@[simp] theorem State.accDone_slices (s : State) (aid : Nat) : (s.accDone aid).slices = s.slices := rfl
@[simp] theorem State.accDone_banks (s : State) (aid : Nat) : (s.accDone aid).banks = s.banks := rfl
@[simp] theorem State.accDone_mem (s : State) (aid : Nat) : (s.accDone aid).mem = s.mem := rfl
@[simp] theorem State.accDone_hsf (s : State) (aid : Nat) : (s.accDone aid).hsf = s.hsf := rfl
@[simp] theorem State.accDone_bisnps (s : State) (aid : Nat) : (s.accDone aid).bisnps = s.bisnps := rfl
@[simp] theorem State.accDone_nextBi (s : State) (aid : Nat) : (s.accDone aid).nextBi = s.nextBi := rfl
@[simp] theorem State.accDone_links (s : State) (aid : Nat) : (s.accDone aid).links = s.links := rfl
@[simp] theorem State.accDone_hreqs (s : State) (aid : Nat) : (s.accDone aid).hreqs = s.hreqs := rfl
@[simp] theorem State.accDone_nextRid (s : State) (aid : Nat) : (s.accDone aid).nextRid = s.nextRid := rfl
@[simp] theorem State.accDone_fails (s : State) (aid : Nat) : (s.accDone aid).fails = s.fails := rfl
@[simp] theorem State.accDone_lse (s : State) (aid : Nat) : (s.accDone aid).lse = s.lse := rfl
@[simp] theorem State.accDone_fnc (s : State) (aid : Nat) : (s.accDone aid).fnc = s.fnc := rfl
@[simp] theorem State.accDone_xlts (s : State) (aid : Nat) : (s.accDone aid).xlts = s.xlts := rfl
@[simp] theorem State.accDone_xinv (s : State) (aid : Nat) : (s.accDone aid).xinv = s.xinv := rfl
@[simp] theorem State.accDone_ports (s : State) (aid : Nat) : (s.accDone aid).ports = s.ports := rfl
@[simp] theorem State.accDone_rtr (s : State) (aid : Nat) : (s.accDone aid).rtr = s.rtr := rfl
@[simp] theorem State.accDone_dom (s : State) (aid : Nat) : (s.accDone aid).dom = s.dom := rfl
@[simp] theorem State.accDone_mtu (s : State) (aid : Nat) : (s.accDone aid).mtu = s.mtu := rfl
@[simp] theorem State.accDone_pors (s : State) (aid : Nat) : (s.accDone aid).pors = s.pors := rfl
@[simp] theorem State.accDone_qmg (s : State) (aid : Nat) : (s.accDone aid).qmg = s.qmg := rfl
@[simp] theorem State.accDone_ras (s : State) (aid : Nat) : (s.accDone aid).ras = s.ras := rfl
@[simp] theorem State.accDone_mgt (s : State) (aid : Nat) : (s.accDone aid).mgt = s.mgt := rfl
@[simp] theorem State.accDone_tlys (s : State) (aid : Nat) : (s.accDone aid).tlys = s.tlys := rfl
@[simp] theorem State.accDone_events (s : State) (aid : Nat) : (s.accDone aid).events = s.events := rfl
@[simp] theorem State.accDone_trc (s : State) (aid : Nat) : (s.accDone aid).trc = s.trc := rfl
@[simp] theorem State.accDone_tap (s : State) (aid : Nat) : (s.accDone aid).tap = s.tap := rfl
@[simp] theorem State.accDone_outs (s : State) (aid : Nat) : (s.accDone aid).outs = s.outs := rfl
@[simp] theorem State.accDone_pending (s : State) (aid : Nat) : (s.accDone aid).pending = s.pending := rfl

@[simp] theorem State.accFail_part (s : State) (aid who node : Nat) (down : Bool) : (s.accFail aid who node down).part = s.part := rfl
@[simp] theorem State.accFail_clk (s : State) (aid who node : Nat) (down : Bool) : (s.accFail aid who node down).clk = s.clk := rfl
@[simp] theorem State.accFail_cyc0 (s : State) (aid who node : Nat) (down : Bool) : (s.accFail aid who node down).cyc0 = s.cyc0 := rfl
@[simp] theorem State.accFail_paused (s : State) (aid who node : Nat) (down : Bool) : (s.accFail aid who node down).paused = s.paused := rfl
@[simp] theorem State.accFail_free (s : State) (aid who node : Nat) (down : Bool) : (s.accFail aid who node down).free = s.free := rfl
@[simp] theorem State.accFail_finds (s : State) (aid who node : Nat) (down : Bool) : (s.accFail aid who node down).finds = s.finds := rfl
@[simp] theorem State.accFail_pcr (s : State) (aid who node : Nat) (down : Bool) : (s.accFail aid who node down).pcr = s.pcr := rfl
@[simp] theorem State.accFail_boot (s : State) (aid who node : Nat) (down : Bool) : (s.accFail aid who node down).boot = s.boot := rfl
@[simp] theorem State.accFail_node (s : State) (aid who node : Nat) (down : Bool) : (s.accFail aid who node down).node = s.node := rfl
@[simp] theorem State.accFail_csr (s : State) (aid who node : Nat) (down : Bool) : (s.accFail aid who node down).csr = s.csr := rfl
@[simp] theorem State.accFail_msix (s : State) (aid who node : Nat) (down : Bool) : (s.accFail aid who node down).msix = s.msix := rfl
@[simp] theorem State.accFail_irq (s : State) (aid who node : Nat) (down : Bool) : (s.accFail aid who node down).irq = s.irq := rfl
@[simp] theorem State.accFail_glbPart (s : State) (aid who node : Nat) (down : Bool) : (s.accFail aid who node down).glbPart = s.glbPart := rfl
@[simp] theorem State.accFail_glbHouse (s : State) (aid who node : Nat) (down : Bool) : (s.accFail aid who node down).glbHouse = s.glbHouse := rfl
@[simp] theorem State.accFail_mode (s : State) (aid who node : Nat) (down : Bool) : (s.accFail aid who node down).mode = s.mode := rfl
@[simp] theorem State.accFail_slices (s : State) (aid who node : Nat) (down : Bool) : (s.accFail aid who node down).slices = s.slices := rfl
@[simp] theorem State.accFail_banks (s : State) (aid who node : Nat) (down : Bool) : (s.accFail aid who node down).banks = s.banks := rfl
@[simp] theorem State.accFail_mem (s : State) (aid who node : Nat) (down : Bool) : (s.accFail aid who node down).mem = s.mem := rfl
@[simp] theorem State.accFail_hsf (s : State) (aid who node : Nat) (down : Bool) : (s.accFail aid who node down).hsf = s.hsf := rfl
@[simp] theorem State.accFail_bisnps (s : State) (aid who node : Nat) (down : Bool) : (s.accFail aid who node down).bisnps = s.bisnps := rfl
@[simp] theorem State.accFail_nextBi (s : State) (aid who node : Nat) (down : Bool) : (s.accFail aid who node down).nextBi = s.nextBi := rfl
@[simp] theorem State.accFail_links (s : State) (aid who node : Nat) (down : Bool) : (s.accFail aid who node down).links = s.links := rfl
@[simp] theorem State.accFail_hreqs (s : State) (aid who node : Nat) (down : Bool) : (s.accFail aid who node down).hreqs = s.hreqs := rfl
@[simp] theorem State.accFail_nextRid (s : State) (aid who node : Nat) (down : Bool) : (s.accFail aid who node down).nextRid = s.nextRid := rfl
@[simp] theorem State.accFail_accs (s : State) (aid who node : Nat) (down : Bool) : (s.accFail aid who node down).accs = s.accs := rfl
@[simp] theorem State.accFail_lse (s : State) (aid who node : Nat) (down : Bool) : (s.accFail aid who node down).lse = s.lse := rfl
@[simp] theorem State.accFail_xlts (s : State) (aid who node : Nat) (down : Bool) : (s.accFail aid who node down).xlts = s.xlts := rfl
@[simp] theorem State.accFail_ports (s : State) (aid who node : Nat) (down : Bool) : (s.accFail aid who node down).ports = s.ports := rfl
@[simp] theorem State.accFail_rtr (s : State) (aid who node : Nat) (down : Bool) : (s.accFail aid who node down).rtr = s.rtr := rfl
@[simp] theorem State.accFail_dom (s : State) (aid who node : Nat) (down : Bool) : (s.accFail aid who node down).dom = s.dom := rfl
@[simp] theorem State.accFail_mtu (s : State) (aid who node : Nat) (down : Bool) : (s.accFail aid who node down).mtu = s.mtu := rfl
@[simp] theorem State.accFail_pors (s : State) (aid who node : Nat) (down : Bool) : (s.accFail aid who node down).pors = s.pors := rfl
@[simp] theorem State.accFail_qmg (s : State) (aid who node : Nat) (down : Bool) : (s.accFail aid who node down).qmg = s.qmg := rfl
@[simp] theorem State.accFail_ras (s : State) (aid who node : Nat) (down : Bool) : (s.accFail aid who node down).ras = s.ras := rfl
@[simp] theorem State.accFail_mgt (s : State) (aid who node : Nat) (down : Bool) : (s.accFail aid who node down).mgt = s.mgt := rfl
@[simp] theorem State.accFail_tlys (s : State) (aid who node : Nat) (down : Bool) : (s.accFail aid who node down).tlys = s.tlys := rfl
@[simp] theorem State.accFail_events (s : State) (aid who node : Nat) (down : Bool) : (s.accFail aid who node down).events = s.events := rfl
@[simp] theorem State.accFail_trc (s : State) (aid who node : Nat) (down : Bool) : (s.accFail aid who node down).trc = s.trc := rfl
@[simp] theorem State.accFail_tap (s : State) (aid who node : Nat) (down : Bool) : (s.accFail aid who node down).tap = s.tap := rfl
@[simp] theorem State.accFail_outs (s : State) (aid who node : Nat) (down : Bool) : (s.accFail aid who node down).outs = s.outs := rfl
@[simp] theorem State.accFail_pending (s : State) (aid who node : Nat) (down : Bool) : (s.accFail aid who node down).pending = s.pending := rfl

end Sys2Proof.Machine
end

