-- ==== Sys2Proof/Laws/Ops.lean ====
section
/-! SUPPORT. For each operation of Machine/Ops.lean one lemma: which pieces of the state it can change, and that it keeps the
invariant of Safety.lean. -/

set_option Elab.async false

namespace Sys2Proof.Machine

theorem State.accDone_within (s : State) (a1) :
    Within { accs := true } s (State.accDone s a1) := by
  unfold State.accDone
  with_reducible (apply Within.upd <;> try first | exact .inl rfl | exact .inr rfl | exact id | assumption | exact Within.refl _ _)

theorem State.accFail_within (s : State) (a1) (a2) (a3) (a4) :
    Within { accs := true, fnc := true, xinv := true } s (State.accFail s a1 a2 a3 a4) := by
  unfold State.accFail
  extract_lets +onlyGivenNames x
  clear_value x
  extract_lets +onlyGivenNames x
  clear_value x
  with_reducible (apply Within.upd <;> try first | exact .inl rfl | exact .inr rfl | exact id | assumption | exact Within.refl _ _)

theorem State.event_within (s : State) (a1) (a2) (a3) :
    Within { events := true } s (State.event s a1 a2 a3) := by
  unfold State.event
  with_reducible (apply Within.upd <;> try first | exact .inl rfl | exact .inr rfl | exact id | assumption | exact Within.refl _ _)

theorem State.csrPut_trc_within (s : State) (v : Word) : Within { trcCfg := true } s (s.csrPut (offTrc 0) v) := by
  refine ⟨?_, fun i => ⟨i.1, i.2, i.3, i.4, i.5, i.6, i.7, i.8, i.9, i.10, i.11, i.12⟩⟩
  apply Only.of
  case h_csr =>
    right
    funext o
    by_cases h : o = offTrc 0
    · simp only [h, if_true]
    · simp only [h, if_false, State.csrPut, Tab.get_put_ne _ _ _ _ _ h]
  all_goals first | exact .inl rfl | exact .inr rfl | rfl

theorem State.trcStop_within (s : State) : Within { trcCfg := true } s s.trcStop := s.csrPut_trc_within _

theorem State.trace_within (s : State) (a1) (a2) (a3) (a4) (a5) (a6) (a7) :
    Within { trcCfg := true, trc := true } s (State.trace s a1 a2 a3 a4 a5 a6 a7) := by
  unfold State.trace
  extract_lets +onlyGivenNames x
  clear_value x
  extract_lets +onlyGivenNames x
  clear_value x
  extract_lets +onlyGivenNames x
  clear_value x
  refine Within.ite ?_ ?_
  · exact Within.refl _ _
  refine Within.ite ?_ ?_
  · exact Within.refl _ _
  refine Within.ite ?_ ?_
  · exact Within.refl _ _
  refine Within.ite ?_ ?_
  · with_reducible (apply Within.upd <;> try first | exact .inl rfl | exact .inr rfl | exact id | assumption | exact Within.refl _ _)
  extract_lets +onlyGivenNames x
  clear_value x
  extract_lets +onlyGivenNames x
  clear_value x
  extract_lets +onlyGivenNames x
  clear_value x
  extract_lets +onlyGivenNames x
  clear_value x
  extract_lets +onlyGivenNames x
  clear_value x
  extract_lets +onlyGivenNames x
  clear_value x
  extract_lets +onlyGivenNames x
  clear_value x
  extract_lets +onlyGivenNames x
  refine Within.cut (x := x) ?_ ?_ <;> [(unfold x; clear x); (obtain ⟨y, e⟩ := named x; rewrite [← e]; clear e x; intro _)]
  · with_reducible (apply Within.upd <;> try first | exact .inl rfl | exact .inr rfl | exact id | assumption | exact Within.refl _ _)
  refine Within.ite ?_ ?_
  · refine Within.app (State.trcStop_within _) rfl ?_
    assumption
  assumption

theorem State.setLink_within (s : State) (a1) (a2) :
    Within { links := true, pba := true } s (State.setLink s a1 a2) := by
  unfold State.setLink
  with_reducible (apply Within.upd <;> try first | exact .inl rfl | exact .inr rfl | exact id | assumption | exact Within.refl _ _)

theorem State.modLink_within (s : State) (a1) (a2) :
    Within { links := true, pba := true } s (State.modLink s a1 a2) := by
  unfold State.modLink
  refine Within.app (State.setLink_within _ _ _) rfl ?_
  exact Within.refl _ _

theorem State.emit_within (s : State) (a1) :
    Within { outs := true } s (State.emit s a1) := by
  unfold State.emit
  with_reducible (apply Within.upd <;> try first | exact .inl rfl | exact .inr rfl | exact id | assumption | exact Within.refl _ _)

theorem State.setLink_pba_within (s : State) (l : Nat) (x : HLink) (h : x.noPba = (s.link l).noPba) :
    Within { pba := true } s (s.setLink l x) := by
  refine ⟨?_, fun i => ⟨i.1, i.2, i.3, i.4, i.5, i.6, i.7, i.8, i.9, i.10, i.11, i.12⟩⟩
  apply Only.of
  case h_links =>
    right
    funext k
    by_cases e : k = l
    · rw [e]
      exact (congrArg HLink.noPba (State.link_setLink_self s l x)).trans h
    · exact congrArg HLink.noPba (State.link_setLink_ne s l k x e)
  all_goals first | exact .inl rfl | exact .inr rfl | rfl

theorem State.signal_within (s : State) (l v : Nat) : Within { pba := true, outs := true } s (s.signal l v) := by
  unfold State.signal
  split
  · exact Within.refl _ _
  · split
    · refine Within.app (State.setLink_pba_within s l _ ?_) rfl (Within.refl _ _)
      beta_reduce
      split <;> rfl
    · exact Within.app (s.emit_within _) rfl (Within.refl _ _)

theorem State.signalAll_within (s : State) (a1) :
    Within { irq := true, pba := true, outs := true } s (State.signalAll s a1) := by
  unfold State.signalAll
  refine Within.foldl (fun _ _ => ?_) ?_
  · refine Within.app (State.signal_within _ _ _) rfl ?_
    exact Within.refl _ _
  with_reducible (apply Within.upd <;> try first | exact .inl rfl | exact .inr rfl | exact id | assumption | exact Within.refl _ _)

theorem ringTake_length (l : List (Nat × LRec)) (k : Nat) (r : List (Nat × LRec)) (h : ringTake l = some (k, r)) :
    r.length + 1 = l.length := by
  induction l generalizing k r with
  | nil => cases h
  | cons e t ih =>
    obtain ⟨j, x⟩ := e
    simp only [ringTake] at h
    split at h
    · cases h; rfl
    · cases e : ringTake t with
      | none => rw [e] at h; cases h
      | some p =>
        rw [e] at h
        simp only [Option.map_some, Option.some.injEq, Prod.mk.injEq] at h
        rw [← h.2]
        simpa using ih p.1 p.2 e

theorem State.ledgerRing_within (s : State) (ring : List (Nat × LRec)) (h : s.ras.ring.length ≤ 4096 → ring.length ≤ 4096) :
    Within { ledger := true } s { s with ras := { s.ras with ring := ring } } :=
by
  with_reducible (apply Within.upd; (on_goal 1 => first | assumption | exact Within.refl _ _); all_goals try first | exact .inl rfl | exact .inr rfl | exact id)
  exact RasI.of h id

theorem State.ringPut_within (s : State) (r : LRec) : Within { trcCfg := true, irq := true, pba := true, ledger := true, events := true, trc := true, outs := true } s (s.ringPut r) := by
  unfold State.ringPut
  extract_lets +onlyGivenNames x wr
  have hw : ∀ ring, (s.ras.ring.length ≤ 4096 → ring.length ≤ 4096) → Within { trcCfg := true, irq := true, pba := true, ledger := true, events := true, trc := true, outs := true } s (wr ring) := by
    intro ring h
    unfold wr
    clear wr
    extract_lets +onlyGivenNames a
    extract_lets +onlyGivenNames b
    have ha : Within { trcCfg := true, irq := true, pba := true, ledger := true, events := true, trc := true, outs := true } s a :=
      Within.app (State.event_within _ ..) rfl (Within.app (s.ledgerRing_within ring h) rfl (Within.refl _ _))
    have hb : Within { trcCfg := true, irq := true, pba := true, ledger := true, events := true, trc := true, outs := true } s b := Within.app (State.trace_within a ..) rfl ha
    split
    · exact Within.app (State.signalAll_within b ..) rfl hb
    · exact hb
  split
  · rename_i hl
    refine hw _ fun _ => ?_
    rw [List.length_append, List.length_singleton]
    omega
  · split
    · rename_i hk
      have := ringTake_length _ _ _ hk
      refine hw _ fun hi => ?_
      rw [List.length_append, List.length_singleton]
      omega
    · with_reducible (apply Within.upd; (on_goal 1 => first | assumption | exact Within.refl _ _); all_goals try first | exact .inl rfl | exact .inr rfl | exact id)
      exact RasI.of id id

theorem State.recPut_within (s : State) (a1) :
    Within { trcCfg := true, irq := true, pba := true, ledger := true, events := true, trc := true, outs := true } s (State.recPut s a1) := by
  unfold State.recPut
  split
  · exact Within.app (State.ringPut_within s _) rfl (Within.refl _ _)
  · split
    · rename_i hl
      with_reducible (apply Within.upd; (on_goal 1 => first | assumption | exact Within.refl _ _); all_goals try first | exact .inl rfl | exact .inr rfl | exact id)
      refine RasI.of id fun _ => ?_
      rw [List.length_append, List.length_singleton]
      exact hl
    · with_reducible (apply Within.upd; (on_goal 1 => first | assumption | exact Within.refl _ _); all_goals try first | exact .inl rfl | exact .inr rfl | exact id)
      exact RasI.of id id

theorem State.rec__within (s : State) (a1) (a2) (a3) (a4) (a5) :
    Within { trcCfg := true, irq := true, pba := true, ledger := true, events := true, trc := true, outs := true } s (State.rec_ s a1 a2 a3 a4 a5) := by
  unfold State.rec_
  refine Within.app (State.recPut_within _ _) rfl ?_
  exact Within.refl _ _

theorem State.bucket_within (s : State) (a1) :
    Within { trcCfg := true, irq := true, pba := true, ledger := true, bkt := true, events := true, trc := true, outs := true } s (State.bucket s a1) := by
  unfold State.bucket
  extract_lets +onlyGivenNames x
  clear_value x
  extract_lets +onlyGivenNames x
  clear_value x
  extract_lets +onlyGivenNames x
  clear_value x
  extract_lets +onlyGivenNames x
  clear_value x
  extract_lets +onlyGivenNames x
  extract_lets +onlyGivenNames x
  refine Within.cut (x := x) ?_ ?_ <;> [(unfold x; clear x); (obtain ⟨y, e⟩ := named x; rewrite [← e]; clear e x; intro _)]
  · refine Within.app (State.event_within _ _ _ _) rfl ?_
    with_reducible (apply Within.upd <;> try first | exact .inl rfl | exact .inr rfl | exact id | assumption | exact Within.refl _ _)
    with_reducible refine RasI.of ?_ ?_ <;> try exact id
  refine Within.ite ?_ ?_
  · refine Within.app (State.rec__within _ _ _ _ _ _) rfl ?_
    assumption
  assumption

theorem State.consume_within (s : State) (a1) (a2) :
    Within { rtrRx := true } s (State.consume s a1 a2) := by
  unfold State.consume
  with_reducible (apply Within.upd <;> try first | exact .inl rfl | exact .inr rfl | exact id | assumption | exact Within.refl _ _)

theorem State.consumeCoh_within (s : State) (a1) (a2) :
    Within { rtrRx := true } s (State.consumeCoh s a1 a2) := by
  unfold State.consumeCoh
  with_reducible (apply Within.upd <;> try first | exact .inl rfl | exact .inr rfl | exact id | assumption | exact Within.refl _ _)

theorem State.flipDone_within (s : State) (a1) (a2) (a3) :
    Within { free := true, flip := true } s (State.flipDone s a1 a2 a3) := by
  unfold State.flipDone
  refine Within.ite ?_ ?_
  · with_reducible (apply Within.upd <;> try first | exact .inl rfl | exact .inr rfl | exact id | assumption | exact Within.refl _ _)
    extract_lets +onlyGivenNames x
    with_reducible refine RasI.of ?_ ?_ <;> try exact id
  refine Within.ite ?_ ?_
  · exact Within.refl _ _
  with_reducible (apply Within.upd <;> try first | exact .inl rfl | exact .inr rfl | exact id | assumption | exact Within.refl _ _)
  extract_lets +onlyGivenNames x
  with_reducible refine RasI.of ?_ ?_ <;> try exact id

theorem State.flipMend_within (s : State) (a1) (a2) (a3) :
    Within { flip := true } s (State.flipMend s a1 a2 a3) := by
  unfold State.flipMend
  refine Within.ite ?_ ?_
  · exact Within.refl _ _
  with_reducible (apply Within.upd <;> try first | exact .inl rfl | exact .inr rfl | exact id | assumption | exact Within.refl _ _)
  extract_lets +onlyGivenNames x
  with_reducible refine RasI.of ?_ ?_ <;> try exact id

theorem State.freeBool_within (s : State) :
    WithinP { free := true } s (State.freeBool s) := by
  unfold State.freeBool
  refine WithinP.mk ?_
  with_reducible (apply Within.upd <;> try first | exact .inl rfl | exact .inr rfl | exact id | assumption | exact Within.refl _ _)

theorem State.freeLine_within (s : State) :
    WithinP { free := true } s (State.freeLine s) := by
  unfold State.freeLine
  refine WithinP.mk ?_
  with_reducible (apply Within.upd <;> try first | exact .inl rfl | exact .inr rfl | exact id | assumption | exact Within.refl _ _)

theorem State.markUnreach_within (s : State) (a1) :
    Within { rtrUn := true } s (State.markUnreach s a1) := by
  unfold State.markUnreach
  refine Within.ite ?_ ?_
  · exact Within.refl _ _
  with_reducible (apply Within.upd <;> try first | exact .inl rfl | exact .inr rfl | exact id | assumption | exact Within.refl _ _)

theorem State.setSlice_within (s : State) (a1) (a2) :
    Within { slices := true } s (State.setSlice s a1 a2) := by
  unfold State.setSlice
  with_reducible (apply Within.upd <;> try first | exact .inl rfl | exact .inr rfl | exact id | assumption | exact Within.refl _ _)

theorem State.modSlice_within (s : State) (a1) (a2) :
    Within { slices := true } s (State.modSlice s a1 a2) := by
  unfold State.modSlice
  refine Within.app (State.setSlice_within _ _ _) rfl ?_
  exact Within.refl _ _

theorem State.msixPut_within (s : State) (a1) (a2) :
    Within { msix := true } s (State.msixPut s a1 a2) := by
  unfold State.msixPut
  with_reducible (apply Within.upd <;> try first | exact .inl rfl | exact .inr rfl | exact id | assumption | exact Within.refl _ _)

theorem State.recErr_within (s : State) (a1) (a2) (a3) (a4) (a5) :
    Within { trcCfg := true, irq := true, pba := true, ledger := true, events := true, trc := true, outs := true } s (State.recErr s a1 a2 a3 a4 a5) := by
  unfold State.recErr
  refine Within.app (State.recPut_within _ _) rfl ?_
  exact Within.refl _ _

theorem State.sendPkt_within (s : State) (a1) (a2) (a3) (a4) (a5) :
    Within { rtrTx := true } s (State.sendPkt s a1 a2 a3 a4 a5) := by
  unfold State.sendPkt
  extract_lets +onlyGivenNames x
  clear_value x
  extract_lets +onlyGivenNames x
  clear_value x
  extract_lets +onlyGivenNames x
  clear_value x
  with_reducible (apply Within.upd <;> try first | exact .inl rfl | exact .inr rfl | exact id | assumption | exact Within.refl _ _)

theorem State.sendCoh_within (s : State) (a1) (a2) :
    Within { rtrTx := true } s (State.sendCoh s a1 a2) := by
  unfold State.sendCoh
  refine Within.app (State.sendPkt_within _ _ _ _ _ _) rfl ?_
  exact Within.refl _ _

theorem State.sendGlob_within (s : State) (a1) (a2) :
    Within { rtrTx := true } s (State.sendGlob s a1 a2) := by
  unfold State.sendGlob
  refine Within.app (State.sendPkt_within _ _ _ _ _ _) rfl ?_
  exact Within.refl _ _

theorem State.setChan_within (s : State) (a1) (a2) :
    Within { chans := true } s (State.setChan s a1 a2) := by
  unfold State.setChan
  with_reducible (apply Within.upd <;> try first | exact .inl rfl | exact .inr rfl | exact id | assumption | exact Within.refl _ _)
  extract_lets +onlyGivenNames x
  with_reducible refine MemI.of ?_ ?_ <;> try exact id

theorem State.setCunit_within (s : State) (a1) (a2) (a3) :
    Within { chans := true } s (State.setCunit s a1 a2 a3) := by
  unfold State.setCunit
  extract_lets +onlyGivenNames x
  clear_value x
  refine Within.app (State.setChan_within _ _ _) rfl ?_
  exact Within.refl _ _

theorem State.setPor_within (s : State) (a1) (a2) :
    Within { pors := true } s (State.setPor s a1 a2) := by
  unfold State.setPor
  with_reducible (apply Within.upd <;> try first | exact .inl rfl | exact .inr rfl | exact id | assumption | exact Within.refl _ _)

theorem State.setPort_within (s : State) (a1) (a2) :
    Within { ports := true } s (State.setPort s a1 a2) := by
  unfold State.setPort
  with_reducible (apply Within.upd <;> try first | exact .inl rfl | exact .inr rfl | exact id | assumption | exact Within.refl _ _)

theorem State.setTly_within (s : State) (a1) (a2) :
    Within { tlys := true } s (State.setTly s a1 a2) := by
  unfold State.setTly
  with_reducible (apply Within.upd <;> try first | exact .inl rfl | exact .inr rfl | exact id | assumption | exact Within.refl _ _)

theorem State.setXlt_within (s : State) (a1) (a2) :
    Within { xlts := true } s (State.setXlt s a1 a2) := by
  unfold State.setXlt
  with_reducible (apply Within.upd <;> try first | exact .inl rfl | exact .inr rfl | exact id | assumption | exact Within.refl _ _)

end Sys2Proof.Machine
end

