-- ==== Sys2Proof/Laws/Near.lean ====
section
/-! SUPPORT. For each operation of Machine/Near.lean one lemma: which pieces of the state it can change, and that it keeps the
invariant of Safety.lean. -/

set_option Elab.async false

namespace Sys2Proof.Machine

theorem State.ceCount_within (s : State) (a1) :
    Within { trcCfg := true, irq := true, pba := true, ledger := true, bkt := true, events := true, trc := true, outs := true } s (State.ceCount s a1) := by
  unfold State.ceCount
  refine Within.foldl (fun _ _ => ?_) ?_
  · refine Within.app (State.bucket_within _ _) rfl ?_
    exact Within.refl _ _
  exact Within.refl _ _

theorem State.popRec_within (s : State) :
    WithinP { finds := true } s (State.popRec s) := by
  unfold State.popRec
  split
  · refine WithinP.mk ?_
    exact Within.refl _ _
  refine WithinP.mk ?_
  with_reducible (apply Within.upd <;> try first | exact .inl rfl | exact .inr rfl | exact id | assumption | exact Within.refl _ _)

theorem State.chanIn_within (s : State) (a1) (a2) (a3) :
    Within { chans := true, memIo := true, events := true } s (State.chanIn s a1 a2 a3) := by
  unfold State.chanIn
  extract_lets +onlyGivenNames x
  clear_value x
  extract_lets +onlyGivenNames x
  clear_value x
  extract_lets +onlyGivenNames x
  clear_value x
  extract_lets +onlyGivenNames x
  clear_value x
  extract_lets +onlyGivenNames x
  clear_value x
  extract_lets +onlyGivenNames x
  clear_value x
  extract_lets +onlyGivenNames x
  extract_lets +onlyGivenNames x
  refine Within.cut (x := x) ?_ ?_ <;> [(unfold x; clear x); (obtain ⟨y, e⟩ := named x; rewrite [← e]; clear e x; intro _)]
  · refine Within.app (State.setCunit_within _ _ _ _) rfl ?_
    with_reducible (apply Within.upd <;> try first | exact .inl rfl | exact .inr rfl | exact id | assumption | exact Within.refl _ _)
    with_reducible refine MemI.of ?_ ?_ <;> try exact id
  extract_lets +onlyGivenNames x
  clear_value x
  extract_lets +onlyGivenNames x
  refine Within.cut (x := x) ?_ ?_ <;> [(unfold x; clear x); (obtain ⟨y, e⟩ := named x; rewrite [← e]; clear e x; intro _)]
  · refine Within.app (State.setChan_within _ _ _) rfl ?_
    assumption
  refine Within.ite ?_ ?_
  · refine Within.app (State.event_within _ _ _ _) rfl ?_
    assumption
  assumption

theorem State.chanEnq_within (s : State) (a1) (a2) (a3) :
    Within { chans := true, memIo := true, events := true } s (State.chanEnq s a1 a2 a3) := by
  unfold State.chanEnq
  extract_lets +onlyGivenNames x
  clear_value x
  refine Within.ite ?_ ?_
  · refine Within.app (State.chanIn_within _ _ _ _) rfl ?_
    exact Within.refl _ _
  refine Within.app (State.setCunit_within _ _ _ _) rfl ?_
  with_reducible (apply Within.upd <;> try first | exact .inl rfl | exact .inr rfl | exact id | assumption | exact Within.refl _ _)
  extract_lets +onlyGivenNames x
  with_reducible refine MemI.of ?_ ?_ <;> try exact id

theorem State.flipNear_within (s : State) (a1) (a2) :
    Within { free := true, flip := true } s (State.flipNear s a1 a2) := by
  unfold State.flipNear
  refine Within.app (State.flipDone_within _ _ _ _) rfl ?_
  exact Within.refl _ _

theorem State.nearAccess_within (s : State) (a1) (a2) (a3) (a4) :
    Within { free := true, chans := true, memIo := true, flip := true, events := true } s (State.nearAccess s a1 a2 a3 a4) := by
  unfold State.nearAccess
  extract_lets +onlyGivenNames x
  clear_value x
  extract_lets +onlyGivenNames x
  clear_value x
  refine Within.ite ?_ ?_
  · exact Within.refl _ _
  refine Within.app (State.chanEnq_within _ _ _ _) rfl ?_
  refine Within.ite ?_ ?_
  · refine Within.app (State.flipNear_within _ _ _) rfl ?_
    exact Within.refl _ _
  exact Within.refl _ _

theorem State.ueData_within (s : State) (a1) (a2) (a3) (a4) :
    Within { trcCfg := true, irq := true, pba := true, ledger := true, events := true, trc := true, outs := true } s (State.ueData s a1 a2 a3 a4) := by
  unfold State.ueData
  refine Within.app (State.recErr_within _ _ _ _ _ _) rfl ?_
  refine Within.app (State.event_within _ _ _ _) rfl ?_
  exact Within.refl _ _

theorem State.putRec_within (s : State) (a1) (a2) (a3) :
    Within { free := true, finds := true, trcCfg := true, irq := true, chans := true, near := true, memIo := true, pba := true, ledger := true, bkt := true, flip := true, events := true, trc := true, outs := true } s (State.putRec s a1 a2 a3) := by
  unfold State.putRec
  refine Within.ite ?_ ?_
  · exact Within.refl _ _
  split
  extract_lets +onlyGivenNames x
  clear_value x
  extract_lets +onlyGivenNames x
  clear_value x
  split
  refine Within.app (State.nearAccess_within _ _ _ _ _) rfl ?_
  with_reducible (apply Within.upd <;> try first | exact .inl rfl | exact .inr rfl | exact id | assumption | exact Within.refl _ _)
  · refine WithinP.eq (by assumption) ?_
    split
    · refine WithinP.mk ?_
      refine WithinP.get (State.popRec_within _) (by assumption) rfl ?_
      refine Within.app (State.nearAccess_within _ _ _ _ _) rfl ?_
      exact Within.refl _ _
    · refine WithinP.mk ?_
      refine Within.app (State.recErr_within _ _ _ _ _ _) rfl ?_
      refine Within.app (State.bucket_within _ _) rfl ?_
      refine WithinP.get (State.popRec_within _) (by assumption) rfl ?_
      refine Within.app (State.nearAccess_within _ _ _ _ _) rfl ?_
      exact Within.refl _ _
    refine WithinP.mk ?_
    extract_lets +onlyGivenNames x
    refine Within.cut (x := x) ?_ ?_ <;> [(unfold x; clear x); (obtain ⟨y, e⟩ := named x; rewrite [← e]; clear e x; intro _)]
    · refine Within.app (State.ueData_within _ _ _ _ _) rfl ?_
      refine WithinP.get (State.popRec_within _) (by assumption) rfl ?_
      refine Within.app (State.nearAccess_within _ _ _ _ _) rfl ?_
      exact Within.refl _ _
    with_reducible (apply Within.upd <;> try first | exact .inl rfl | exact .inr rfl | exact id | assumption | exact Within.refl _ _)
  extract_lets +onlyGivenNames x
  with_reducible refine MemI.of ?_ ?_ <;> try exact id

theorem State.ceWay_within (s : State) (a1) (a2) (a3) :
    Within { free := true, finds := true, trcCfg := true, irq := true, slices := true, chans := true, near := true, memIo := true, pba := true, ledger := true, bkt := true, flip := true, events := true, trc := true, outs := true } s (State.ceWay s a1 a2 a3) := by
  unfold State.ceWay
  extract_lets +onlyGivenNames x
  clear_value x
  extract_lets +onlyGivenNames x
  clear_value x
  extract_lets +onlyGivenNames x
  clear_value x
  extract_lets +onlyGivenNames x
  refine Within.cut (x := x) ?_ ?_ <;> [(unfold x; clear x); (obtain ⟨y, e⟩ := named x; rewrite [← e]; clear e x; intro _)]
  · refine Within.app (State.putRec_within _ _ _ _) rfl ?_
    exact Within.refl _ _
  extract_lets +onlyGivenNames x
  refine Within.cut (x := x) ?_ ?_ <;> [(unfold x; clear x); (obtain ⟨y, e⟩ := named x; rewrite [← e]; clear e x; intro _)]
  · refine Within.app (State.bucket_within _ _) rfl ?_
    assumption
  extract_lets +onlyGivenNames x
  clear_value x
  refine Within.ite ?_ ?_
  · assumption
  refine Within.ite ?_ ?_
  · refine Within.app (State.modSlice_within _ _ _) rfl ?_
    assumption
  refine Within.ite ?_ ?_
  · refine Within.app (State.rec__within _ _ _ _ _ _) rfl ?_
    assumption
  assumption

theorem State.chanRefill_within (s : State) (a1) (a2) :
    Within { chans := true, memIo := true, events := true } s (State.chanRefill s a1 a2) := by
  unfold State.chanRefill
  refine Within.foldl (fun _ _ => ?_) ?_
  · split
    · refine Within.app (State.chanIn_within _ _ _ _) rfl ?_
      refine Within.app (State.setCunit_within _ _ _ _) rfl ?_
      exact Within.refl _ _
    exact Within.refl _ _
  exact Within.refl _ _

theorem State.noted_within (s : State) (a1) :
    Within { due := true, trcCfg := true, irq := true, pba := true, ledger := true, bkt := true, events := true, trc := true, outs := true } s (State.noted s a1) := by
  unfold State.noted
  extract_lets +onlyGivenNames x
  refine Within.cut (x := x) ?_ ?_ <;> [(unfold x; clear x); (obtain ⟨y, e⟩ := named x; rewrite [← e]; clear e x; intro _)]
  · refine Within.app (State.ceCount_within _ _) rfl ?_
    exact Within.refl _ _
  extract_lets +onlyGivenNames x
  extract_lets +onlyGivenNames x
  refine Within.cut (x := x) ?_ ?_ <;> [(unfold x; clear x); (obtain ⟨y, e⟩ := named x; rewrite [← e]; clear e x; intro _)]
  · refine Within.ite ?_ ?_
    · with_reducible (apply Within.upd <;> try first | exact .inl rfl | exact .inr rfl | exact id | assumption | exact Within.refl _ _)
      with_reducible refine RasI.of ?_ ?_ <;> try exact id
    assumption
  refine Within.ite ?_ ?_
  · assumption
  with_reducible (apply Within.upd <;> try first | exact .inl rfl | exact .inr rfl | exact id | assumption | exact Within.refl _ _)

/-- What the codes find is put back as it was. -/
theorem Within.restore {m : Mask} {s t : State} (w : Within { m with finds := true } s t) :
    Within m s { t with finds := s.finds } := by
  refine ⟨?_, fun i => ?_⟩
  · have k := w.only
    unfold Only view at k ⊢
    simp only [View.mk.injEq] at k ⊢
    simp only [k, and_self, true_and, and_true]
  · have j := w.inv i
    exact ⟨j.1, j.2, j.3, j.4, j.5, j.6, j.7, j.8, j.9, j.10, j.11, j.12⟩

theorem State.finding_within {m : Mask} {s x : State} (fd : Finds) {go : State → State} (hm : Mask.le { finds := true, due := true, trcCfg := true, irq := true, pba := true, ledger := true, bkt := true, events := true, trc := true, outs := true } { m with finds := true } = true)
    (w : Within m s x) (h : ∀ y, Within { m with finds := true } y (go y)) : Within m s (x.finding fd go) := by
  unfold State.finding
  refine w.trans ?_
  have hb : Within { m with finds := true } x (go { x.noted fd with finds := fd }) := by
    refine Within.trans (Within.mono (a := { finds := true, due := true, trcCfg := true, irq := true, pba := true, ledger := true, bkt := true, events := true, trc := true, outs := true }) hm ?_) (h _)
    refine Within.trans (Within.mono rfl (State.noted_within x fd)) ?_
    with_reducible (apply Within.upd; (on_goal 1 => first | assumption | exact Within.refl _ _); all_goals try first | exact .inl rfl | exact .inr rfl | exact id)
  generalize go { x.noted fd with finds := fd } = t at hb
  exact Within.restore hb

/-- A command that does nothing still counts the errors that it was given. -/
theorem State.finding_idle (s : State) (fd : Finds) : s.finding fd (fun x => x) = s.noted fd := by
  have h : (s.noted fd).finds = s.finds := (State.noted_within s fd).only.finds rfl
  unfold State.finding
  simp only [← h]

theorem State.popWay_within (s : State) :
    WithinP { finds := true } s (State.popWay s) := by
  unfold State.popWay
  split
  · refine WithinP.mk ?_
    exact Within.refl _ _
  refine WithinP.mk ?_
  with_reducible (apply Within.upd <;> try first | exact .inl rfl | exact .inr rfl | exact id | assumption | exact Within.refl _ _)

theorem State.wordErr_within (s : State) (a1) (a2) (a3) :
    WithinP { free := true, finds := true, trcCfg := true, irq := true, slices := true, chans := true, near := true, memIo := true, pba := true, ledger := true, bkt := true, flip := true, events := true, trc := true, outs := true } s (State.wordErr s a1 a2 a3) := by
  unfold State.wordErr
  dsimp -zeta only
  extract_lets +onlyGivenNames x
  clear_value x
  refine WithinP.mk ?_
  refine Within.ite ?_ ?_
  · refine Within.app (State.ceWay_within _ _ _ _) rfl ?_
    refine WithinP.snd (State.popWay_within _) rfl ?_
    exact Within.refl _ _
  refine WithinP.snd (State.popWay_within _) rfl ?_
  exact Within.refl _ _

theorem State.guessLost_within (s : State) (a1) (a2) (a3) :
    Within { free := true, finds := true, trcCfg := true, irq := true, slices := true, chans := true, near := true, memIo := true, pba := true, ledger := true, bkt := true, flip := true, events := true, trc := true, outs := true } s (State.guessLost s a1 a2 a3) := by
  unfold State.guessLost
  refine Within.ite ?_ ?_
  · exact Within.refl _ _
  refine WithinP.snd (State.wordErr_within _ _ _ _) rfl ?_
  exact Within.refl _ _

theorem State.houseOut_within (s : State) (a1) (a2) (a3) :
    Within { free := true, finds := true, due := true, trcCfg := true, irq := true, slices := true, chans := true, near := true, memIo := true, pba := true, ledger := true, bkt := true, flip := true, events := true, trc := true, outs := true } s (State.houseOut s a1 a2 a3) := by
  unfold State.houseOut
  extract_lets +onlyGivenNames x
  clear_value x
  extract_lets +onlyGivenNames x
  clear_value x
  extract_lets +onlyGivenNames x
  clear_value x
  extract_lets +onlyGivenNames x
  clear_value x
  extract_lets +onlyGivenNames x
  refine Within.cut (x := x) ?_ ?_ <;> [(unfold x; clear x); (obtain ⟨y, e⟩ := named x; rewrite [← e]; clear e x; intro _)]
  · refine Within.app (State.setCunit_within _ _ _ _) rfl ?_
    exact Within.refl _ _
  refine Within.ite ?_ ?_
  · refine Within.app (State.chanEnq_within _ _ _ _) rfl ?_
    refine Within.app (State.flipNear_within _ _ _) rfl ?_
    assumption
  split
  split
  extract_lets +onlyGivenNames x
  refine Within.cut (x := x) ?_ ?_ <;> [(unfold x; clear x); (obtain ⟨y, e⟩ := named x; rewrite [← e]; clear e x; intro _)]
  · refine Within.app (State.ueData_within _ _ _ _ _) rfl ?_
    refine WithinP.get (State.wordErr_within _ _ _ _) (by assumption) rfl ?_
    refine Within.app (State.chanEnq_within _ _ _ _) rfl ?_
    assumption
  extract_lets +onlyGivenNames x
  extract_lets +onlyGivenNames x
  refine Within.cut (x := x) ?_ ?_ <;> [(unfold x; clear x); (obtain ⟨y, e⟩ := named x; rewrite [← e]; clear e x; intro _)]
  · refine Within.ite ?_ ?_
    · refine WithinP.get (State.wordErr_within _ _ _ _) (by assumption) rfl ?_
      refine Within.app (State.chanEnq_within _ _ _ _) rfl ?_
      assumption
    with_reducible (apply Within.upd <;> try first | exact .inl rfl | exact .inr rfl | exact id | assumption | exact Within.refl _ _)
    with_reducible refine MemI.of ?_ ?_ <;> try exact id
  refine Within.app (State.chanEnq_within _ _ _ _) rfl ?_
  refine Within.app (State.flipNear_within _ _ _) rfl ?_
  assumption

theorem State.houseAccess_within (s : State) (a1) (a2) :
    Within { free := true, finds := true, due := true, trcCfg := true, irq := true, slices := true, chans := true, near := true, memIo := true, pba := true, ledger := true, bkt := true, flip := true, events := true, trc := true, outs := true } s (State.houseAccess s a1 a2) := by
  unfold State.houseAccess
  split
  refine Within.ite ?_ ?_
  · exact Within.refl _ _
  extract_lets +onlyGivenNames x
  clear_value x
  extract_lets +onlyGivenNames x
  refine Within.cut (x := x) ?_ ?_ <;> [(unfold x; clear x); (obtain ⟨y, e⟩ := named x; rewrite [← e]; clear e x; intro _)]
  · split
    · refine Within.ite ?_ ?_
      · refine Within.app (State.setCunit_within _ _ _ _) rfl ?_
        exact Within.refl _ _
      refine Within.app (State.houseOut_within _ _ _ _) rfl ?_
      exact Within.refl _ _
    exact Within.refl _ _
  refine Within.app (State.nearAccess_within _ _ _ _ _) rfl ?_
  assumption

theorem State.houseCe_within (s : State) (a1) :
    Within { free := true, finds := true, trcCfg := true, irq := true, slices := true, chans := true, near := true, memIo := true, pba := true, ledger := true, bkt := true, flip := true, events := true, trc := true, outs := true } s (State.houseCe s a1) := by
  unfold State.houseCe
  split
  refine Within.app (State.ceWay_within _ _ _ _) rfl ?_
  exact Within.refl _ _

theorem State.houseMerge_within (s : State) (a1) (a2) :
    Within { free := true, finds := true, due := true, trcCfg := true, irq := true, slices := true, chans := true, near := true, memIo := true, pba := true, ledger := true, bkt := true, flip := true, events := true, trc := true, outs := true } s (State.houseMerge s a1 a2) := by
  unfold State.houseMerge
  split
  refine Within.ite ?_ ?_
  · exact Within.refl _ _
  split
  · extract_lets +onlyGivenNames x
    clear_value x
    refine Within.ite ?_ ?_
    · refine Within.app (State.houseOut_within _ _ _ _) rfl ?_
      exact Within.refl _ _
    refine Within.app (State.setCunit_within _ _ _ _) rfl ?_
    exact Within.refl _ _
  extract_lets +onlyGivenNames x
  refine Within.cut (x := x) ?_ ?_ <;> [(unfold x; clear x); (obtain ⟨y, e⟩ := named x; rewrite [← e]; clear e x; intro _)]
  · refine Within.ite ?_ ?_
    · exact Within.refl _ _
    split
    · refine Within.app (State.houseOut_within _ _ _ _) rfl ?_
      exact Within.refl _ _
    exact Within.refl _ _
  refine Within.app (State.setCunit_within _ _ _ _) rfl ?_
  assumption

theorem State.houseRead_within (s : State) (a1) :
    WithinP { free := true, finds := true, due := true, trcCfg := true, irq := true, slices := true, chans := true, near := true, memIo := true, pba := true, ledger := true, bkt := true, flip := true, events := true, trc := true, outs := true } s (State.houseRead s a1) := by
  unfold State.houseRead
  dsimp -zeta only
  extract_lets +onlyGivenNames x
  clear_value x
  refine WithinP.mk ?_
  refine Within.ite ?_ ?_
  · refine Within.app (State.houseCe_within _ _) rfl ?_
    refine WithinP.snd (State.popWay_within _) rfl ?_
    refine Within.app (State.houseAccess_within _ _ _) rfl ?_
    exact Within.refl _ _
  refine WithinP.snd (State.popWay_within _) rfl ?_
  refine Within.app (State.houseAccess_within _ _ _) rfl ?_
  exact Within.refl _ _

theorem State.noFinds_within {m : Mask} {s x : State} {go : State → State}
    (w : Within m s x) (h : ∀ y, Within { m with finds := true } y (go y)) : Within m s (x.noFinds go) := by
  unfold State.noFinds
  refine w.trans ?_
  have hb : Within { m with finds := true } x (go { x with finds := {} }) := by
    refine Within.trans ?_ (h _)
    with_reducible (apply Within.upd; (on_goal 1 => first | assumption | exact Within.refl _ _); all_goals try first | exact .inl rfl | exact .inr rfl | exact id)
  generalize go { x with finds := {} } = t at hb
  exact Within.restore hb

theorem State.pipe_within (s : State) (a1) (a2) (a3) (a4) :
    Within { trcCfg := true, events := true, trc := true } s (State.pipe s a1 a2 a3 a4) := by
  unfold State.pipe
  refine Within.app (State.trace_within _ _ _ _ _ _ _ _) rfl ?_
  refine Within.app (State.event_within _ _ _ _) rfl ?_
  exact Within.refl _ _

theorem State.popTag_within (s : State) :
    WithinP { finds := true } s (State.popTag s) := by
  unfold State.popTag
  split
  · refine WithinP.mk ?_
    exact Within.refl _ _
  refine WithinP.mk ?_
  with_reducible (apply Within.upd <;> try first | exact .inl rfl | exact .inr rfl | exact id | assumption | exact Within.refl _ _)

theorem State.predict_within (s : State) (a1) (a2) (a3) :
    Within { slices := true } s (State.predict s a1 a2 a3) := by
  unfold State.predict
  refine Within.app (State.modSlice_within _ _ _) rfl ?_
  exact Within.refl _ _

theorem State.putNearTags_within (s : State) (a1) (a2) (a3) :
    Within { free := true, chans := true, near := true, memIo := true, flip := true, events := true } s (State.putNearTags s a1 a2 a3) := by
  unfold State.putNearTags
  refine Within.ite ?_ ?_
  · exact Within.refl _ _
  refine Within.app (State.nearAccess_within _ _ _ _ _) rfl ?_
  with_reducible (apply Within.upd <;> try first | exact .inl rfl | exact .inr rfl | exact id | assumption | exact Within.refl _ _)
  extract_lets +onlyGivenNames x
  with_reducible refine MemI.of ?_ ?_ <;> try exact id

theorem State.putTags_within (s : State) (a1) (a2) (a3) :
    Within { free := true, slices := true, chans := true, near := true, memIo := true, flip := true, events := true } s (State.putTags s a1 a2 a3) := by
  unfold State.putTags
  extract_lets +onlyGivenNames x
  clear_value x
  refine Within.ite ?_ ?_
  · exact Within.refl _ _
  split
  · refine Within.ite ?_ ?_
    · refine Within.app (State.putNearTags_within _ _ _ _) rfl ?_
      exact Within.refl _ _
    refine Within.ite ?_ ?_
    · refine Within.app (State.modSlice_within _ _ _) rfl ?_
      exact Within.refl _ _
    refine Within.ite ?_ ?_
    · exact Within.refl _ _
    extract_lets +onlyGivenNames x
    clear_value x
    refine Within.app (State.putNearTags_within _ _ _ _) rfl ?_
    refine Within.app (State.modSlice_within _ _ _) rfl ?_
    exact Within.refl _ _
  refine Within.ite ?_ ?_
  · exact Within.refl _ _
  refine Within.app (State.putNearTags_within _ _ _ _) rfl ?_
  exact Within.refl _ _

theorem State.putEnt_within (s : State) (a1) (a2) (a3) (a4) :
    Within { free := true, slices := true, chans := true, near := true, memIo := true, flip := true, events := true } s (State.putEnt s a1 a2 a3 a4) := by
  unfold State.putEnt
  refine Within.app (State.putTags_within _ _ _ _) rfl ?_
  exact Within.refl _ _

theorem State.readWay_within (s : State) (a1) (a2) (a3) (a4) :
    WithinP { free := true, finds := true, trcCfg := true, irq := true, slices := true, chans := true, near := true, memIo := true, pba := true, ledger := true, bkt := true, flip := true, events := true, trc := true, outs := true } s (State.readWay s a1 a2 a3 a4) := by
  unfold State.readWay
  refine WithinP.app (State.wordErr_within _ _ _ _) rfl ?_
  refine Within.ite ?_ ?_
  · exact Within.refl _ _
  refine Within.app (State.nearAccess_within _ _ _ _ _) rfl ?_
  exact Within.refl _ _

theorem State.tagIssue_within (s : State) (n set : Nat) (la : Option Nat) : Within { free := true, chans := true, memIo := true, flip := true, events := true } s (s.tagIssue n set la).1 := by
  unfold State.tagIssue
  extract_lets +onlyGivenNames x
  have hx : Within { free := true, chans := true, memIo := true, flip := true, events := true } s x := Within.app (State.nearAccess_within _ _ _ _ _) rfl (Within.refl _ _)
  clear_value x
  split
  · extract_lets +onlyGivenNames w
    clear_value w
    split
    · exact Within.app (State.nearAccess_within _ _ _ _ _) rfl hx
    · exact hx
  · exact hx

theorem State.tagRead_within (s : State) (a1) (a2) (a3) :
    Within { free := true, trcCfg := true, irq := true, chans := true, near := true, memIo := true, pba := true, ledger := true, bkt := true, flip := true, events := true, trc := true, outs := true } s (State.tagRead s a1 a2 a3) := by
  unfold State.tagRead
  extract_lets +onlyGivenNames x
  clear_value x
  extract_lets +onlyGivenNames x
  clear_value x
  extract_lets +onlyGivenNames x
  refine Within.cut (x := x) ?_ ?_ <;> [(unfold x; clear x); (obtain ⟨y, e⟩ := named x; rewrite [← e]; clear e x; intro _)]
  · refine Within.ite ?_ ?_
    · refine Within.app (State.recErr_within _ _ _ _ _ _) rfl ?_
      refine Within.app (State.bucket_within _ _) rfl ?_
      exact Within.refl _ _
    exact Within.refl _ _
  refine Within.ite ?_ ?_
  · refine Within.app (State.putNearTags_within _ _ _ _) rfl ?_
    refine Within.app (State.ueData_within _ _ _ _ _) rfl ?_
    assumption
  assumption

theorem State.tcWriteBack_within (s : State) (a1) (a2) :
    Within { free := true, chans := true, near := true, memIo := true, flip := true, events := true } s (State.tcWriteBack s a1 a2) := by
  unfold State.tcWriteBack
  refine Within.ite ?_ ?_
  · refine Within.app (State.putNearTags_within _ _ _ _) rfl ?_
    exact Within.refl _ _
  exact Within.refl _ _

theorem State.tcAlloc_within (s : State) (a1) (a2) :
    WithinO { free := true, slices := true, chans := true, near := true, memIo := true, flip := true, events := true } s (State.tcAlloc s a1 a2) := by
  unfold State.tcAlloc
  extract_lets +onlyGivenNames x
  clear_value x
  refine WithinO.map fun _ => ?_
  extract_lets +onlyGivenNames x
  refine Within.cut (x := x) ?_ ?_ <;> [(unfold x; clear x); (obtain ⟨y, e⟩ := named x; rewrite [← e]; clear e x; intro _)]
  · split
    · refine Within.app (State.tcWriteBack_within _ _ _) rfl ?_
      exact Within.refl _ _
    exact Within.refl _ _
  refine Within.app (State.modSlice_within _ _ _) rfl ?_
  assumption

theorem State.tcKeep_within (s : State) (a1) (a2) (a3) :
    Within { free := true, slices := true, chans := true, near := true, memIo := true, flip := true, events := true } s (State.tcKeep s a1 a2 a3) := by
  unfold State.tcKeep
  refine Within.ite ?_ ?_
  · exact Within.refl _ _
  split
  · refine Within.app (State.modSlice_within _ _ _) rfl ?_
    refine WithinO.get (State.tcAlloc_within _ _ _) (by assumption) rfl ?_
    exact Within.refl _ _
  exact Within.refl _ _

theorem State.tcStep_within (s : State) (a1) :
    Within { free := true, slices := true, chans := true, near := true, memIo := true, flip := true, events := true } s (State.tcStep s a1) := by
  unfold State.tcStep
  extract_lets +onlyGivenNames x
  clear_value x
  refine Within.ite ?_ ?_
  · exact Within.refl _ _
  extract_lets +onlyGivenNames x
  clear_value x
  refine Within.ite ?_ ?_
  · exact Within.refl _ _
  refine Within.app (State.modSlice_within _ _ _) rfl ?_
  refine Within.foldl (fun _ _ => ?_) ?_
  · split
    refine Within.ite ?_ ?_
    · exact Within.refl _ _
    extract_lets +onlyGivenNames x
    clear_value x
    refine Within.app (State.modSlice_within _ _ _) rfl ?_
    refine Within.app (State.tcWriteBack_within _ _ _) rfl ?_
    exact Within.refl _ _
  exact Within.refl _ _

theorem State.touchMiss_within (s : State) (a1) (a2) (a3) :
    WithinP { free := true, finds := true, trcCfg := true, irq := true, slices := true, chans := true, near := true, memIo := true, pba := true, ledger := true, bkt := true, flip := true, events := true, trc := true, outs := true } s (State.touchMiss s a1 a2 a3) := by
  unfold State.touchMiss
  dsimp -zeta only
  extract_lets +onlyGivenNames x
  refine WithinP.cut (x := x) ?_ ?_ <;> [(unfold x; clear x); (obtain ⟨y, e⟩ := named x; rewrite [← e]; clear e x; intro _)]
  · refine Within.app (State.tcKeep_within _ _ _ _) rfl ?_
    refine Within.app (State.tagRead_within _ _ _ _) rfl ?_
    refine Within.app (State.tagIssue_within _ _ _ _) rfl ?_
    refine WithinP.snd (State.popTag_within _) rfl ?_
    refine Within.app (State.event_within _ _ _ _) rfl ?_
    exact Within.refl _ _
  split
  · refine WithinP.ite ?_ ?_
    · refine WithinP.mk ?_
      refine Within.app (State.predict_within _ _ _ _) rfl ?_
      assumption
    refine WithinP.mk ?_
    refine Within.app (State.predict_within _ _ _ _) rfl ?_
    refine Within.app (State.guessLost_within _ _ _ _) rfl ?_
    refine Within.ite ?_ ?_
    · assumption
    refine Within.app (State.event_within _ _ _ _) rfl ?_
    assumption
  refine WithinP.mk ?_
  refine Within.app (State.guessLost_within _ _ _ _) rfl ?_
  assumption

theorem State.touchGuess_within (s : State) (a1) (a2) (a3) :
    WithinP { free := true, finds := true, trcCfg := true, irq := true, slices := true, chans := true, near := true, memIo := true, pba := true, ledger := true, bkt := true, flip := true, events := true, trc := true, outs := true } s (State.touchGuess s a1 a2 a3) := by
  unfold State.touchGuess
  extract_lets +onlyGivenNames x
  clear_value x
  refine WithinP.ite ?_ ?_
  · refine WithinP.mk ?_
    exact Within.refl _ _
  split
  · refine WithinP.ite ?_ ?_
    · refine WithinP.app (State.touchMiss_within _ _ _ _) rfl ?_
      exact Within.refl _ _
    refine WithinP.ite ?_ ?_
    · refine WithinP.mk ?_
      exact Within.refl _ _
    refine WithinP.ite ?_ ?_
    · refine WithinP.app (State.touchMiss_within _ _ _ _) rfl ?_
      refine Within.app (State.modSlice_within _ _ _) rfl ?_
      refine Within.app (State.rec__within _ _ _ _ _ _) rfl ?_
      exact Within.refl _ _
    refine WithinP.mk ?_
    refine Within.app (State.event_within _ _ _ _) rfl ?_
    refine Within.app (State.modSlice_within _ _ _) rfl ?_
    exact Within.refl _ _
  refine WithinP.app (State.touchMiss_within _ _ _ _) rfl ?_
  exact Within.refl _ _

theorem State.touch_within (s : State) (a1) (a2) (a3) :
    Within { free := true, finds := true, trcCfg := true, irq := true, slices := true, chans := true, near := true, memIo := true, pba := true, ledger := true, bkt := true, flip := true, events := true, trc := true, outs := true } s (State.touch s a1 a2 a3) := by
  unfold State.touch
  refine WithinP.snd (State.touchGuess_within _ _ _ _) rfl ?_
  exact Within.refl _ _

theorem State.touchLine_within (s : State) (a1) (a2) :
    WithinP { free := true, finds := true, trcCfg := true, irq := true, slices := true, chans := true, near := true, memIo := true, pba := true, ledger := true, bkt := true, flip := true, events := true, trc := true, outs := true } s (State.touchLine s a1 a2) := by
  unfold State.touchLine
  refine WithinP.app (State.touchGuess_within _ _ _ _) rfl ?_
  refine Within.app (State.pipe_within _ _ _ _ _) rfl ?_
  exact Within.refl _ _

theorem State.touchSet_within (s : State) (a1) (a2) :
    WithinO { free := true, finds := true, trcCfg := true, irq := true, slices := true, chans := true, near := true, memIo := true, pba := true, ledger := true, bkt := true, flip := true, events := true, trc := true, outs := true } s (State.touchSet s a1 a2) := by
  unfold State.touchSet
  refine WithinO.ite ?_ ?_
  · exact WithinO.none _ _
  refine WithinO.some ?_
  refine Within.app (State.touch_within _ _ _ _) rfl ?_
  refine Within.app (State.pipe_within _ _ _ _ _) rfl ?_
  exact Within.refl _ _

theorem State.wayPut_within (s : State) (a1) (a2) (a3) (a4) (a5) :
    Within { free := true, chans := true, near := true, memIo := true, flip := true, events := true } s (State.wayPut s a1 a2 a3 a4 a5) := by
  unfold State.wayPut
  extract_lets +onlyGivenNames x
  clear_value x
  refine Within.ite ?_ ?_
  · exact Within.refl _ _
  split
  refine Within.app (State.nearAccess_within _ _ _ _ _) rfl ?_
  with_reducible (apply Within.upd <;> try first | exact .inl rfl | exact .inr rfl | exact id | assumption | exact Within.refl _ _)
  extract_lets +onlyGivenNames x
  with_reducible refine MemI.of ?_ ?_ <;> try exact id
  with_reducible exact fun h => Memory.wf_writeLine _ _ _ h

end Sys2Proof.Machine
end

