-- ==== Sys2Proof/Laws/Far.lean ====
section
/-! SUPPORT. For each operation of Machine/Far.lean one lemma: which pieces of the state it can change, and that it keeps the
invariant of Safety.lean. -/

set_option Elab.async false

namespace Sys2Proof.Machine

theorem State.dramFresh_within (s : State) :
    Within { free := true, far := true, memCfg := true, flip := true } s (State.dramFresh s) := by
  unfold State.dramFresh
  with_reducible (apply Within.upd <;> try first | exact .inl rfl | exact .inr rfl | exact id | assumption | exact Within.refl _ _)
  · extract_lets +onlyGivenNames x
    with_reducible refine MemI.of ?_ ?_ <;> try exact id
    exact fun _ => rfl
  extract_lets +onlyGivenNames x
  with_reducible refine RasI.of ?_ ?_ <;> try exact id

theorem State.farEnqW_within (s : State) (a1) (a2) (a3) (a4) :
    Within { chans := true, memIo := true, events := true } s (State.farEnqW s a1 a2 a3 a4) := by
  unfold State.farEnqW
  refine Within.app (State.chanEnq_within _ _ _ _) rfl ?_
  exact Within.refl _ _

theorem State.farPut_within (s : State) (a1) (a2) (a3) :
    Within { far := true } s (State.farPut s a1 a2 a3) := by
  unfold State.farPut
  extract_lets +onlyGivenNames x
  clear_value x
  with_reducible (apply Within.upd <;> try first | exact .inl rfl | exact .inr rfl | exact id | assumption | exact Within.refl _ _)
  extract_lets +onlyGivenNames x
  with_reducible refine MemI.of ?_ ?_ <;> try exact id
  with_reducible exact fun h => Memory.wf_writeLine _ _ _ h

theorem State.mergeFlush_within (s : State) (a1) (a2) (a3) :
    Within { chans := true, memIo := true, events := true } s (State.mergeFlush s a1 a2 a3) := by
  unfold State.mergeFlush
  extract_lets +onlyGivenNames x
  clear_value x
  extract_lets +onlyGivenNames x
  refine Within.cut (x := x) ?_ ?_ <;> [(unfold x; clear x); (obtain ⟨y, e⟩ := named x; rewrite [← e]; clear e x; intro _)]
  · refine Within.app (State.setCunit_within _ _ _ _) rfl ?_
    exact Within.refl _ _
  refine Within.ite ?_ ?_
  · assumption
  refine Within.app (State.farEnqW_within _ _ _ _ _) rfl ?_
  assumption

theorem State.zmapLost_within (s : State) (a1) :
    Within { free := true, finds := true, due := true, trcCfg := true, irq := true, slices := true, chans := true, far := true, near := true, memIo := true, pba := true, ledger := true, bkt := true, flip := true, events := true, trc := true, outs := true } s (State.zmapLost s a1) := by
  unfold State.zmapLost
  refine Within.app (State.rec__within _ _ _ _ _ _) rfl ?_
  refine Within.app (State.houseAccess_within _ _ _) rfl ?_
  with_reducible (apply Within.upd <;> try first | exact .inl rfl | exact .inr rfl | exact id | assumption | exact Within.refl _ _)
  extract_lets +onlyGivenNames x
  with_reducible refine MemI.of ?_ ?_ <;> try exact id

theorem State.zmapLook_within (s : State) (a1) :
    Within { free := true, finds := true, due := true, trcCfg := true, irq := true, slices := true, chans := true, far := true, near := true, memIo := true, pba := true, ledger := true, bkt := true, flip := true, ras := true, events := true, trc := true, outs := true } s (State.zmapLook s a1) := by
  unfold State.zmapLook
  extract_lets +onlyGivenNames x
  clear_value x
  refine Within.ite ?_ ?_
  · exact Within.refl _ _
  extract_lets +onlyGivenNames x
  refine Within.cut (x := x) ?_ ?_ <;> [(unfold x; clear x); (obtain ⟨y, e⟩ := named x; rewrite [← e]; clear e x; intro _)]
  · refine Within.app (State.houseAccess_within _ _ _) rfl ?_
    exact Within.refl _ _
  extract_lets +onlyGivenNames x
  clear_value x
  extract_lets +onlyGivenNames x
  extract_lets +onlyGivenNames x
  refine Within.cut (x := x) ?_ ?_ <;> [(unfold x; clear x); (obtain ⟨y, e⟩ := named x; rewrite [← e]; clear e x; intro _)]
  · with_reducible (apply Within.upd <;> try first | exact .inl rfl | exact .inr rfl | exact id | assumption | exact Within.refl _ _)
    with_reducible refine RasI.of ?_ ?_ <;> try exact id
  extract_lets +onlyGivenNames x
  clear_value x
  refine Within.ite ?_ ?_
  · refine Within.app (State.zmapLost_within _ _) rfl ?_
    assumption
  refine Within.ite ?_ ?_
  · refine Within.app (State.houseCe_within _ _) rfl ?_
    assumption
  assumption

theorem State.farRead_within (s : State) (a1) (a2) (a3) :
    WithinP { free := true, finds := true, due := true, trcCfg := true, irq := true, slices := true, chans := true, far := true, near := true, memIo := true, pba := true, ledger := true, bkt := true, flip := true, ras := true, events := true, trc := true, outs := true } s (State.farRead s a1 a2 a3) := by
  unfold State.farRead
  extract_lets +onlyGivenNames x
  clear_value x
  extract_lets +onlyGivenNames x
  clear_value x
  extract_lets +onlyGivenNames x
  clear_value x
  extract_lets +onlyGivenNames x
  extract_lets +onlyGivenNames x
  refine WithinP.cut (x := x) ?_ ?_ <;> [(unfold x; clear x); (obtain ⟨y, e⟩ := named x; rewrite [← e]; clear e x; intro _)]
  · with_reducible (apply Within.upd <;> try first | exact .inl rfl | exact .inr rfl | exact id | assumption | exact Within.refl _ _)
    with_reducible refine MemI.of ?_ ?_ <;> try exact id
  extract_lets +onlyGivenNames x
  refine WithinP.cutS1 (x := x) ?_ ?_ <;> [(intro _ _; unfold x; clear x; try beta_reduce); (intro _; clear_value x)]
  · with_reducible (apply Within.upd <;> try first | exact .inl rfl | exact .inr rfl | exact id | assumption | exact Within.refl _ _)
    extract_lets +onlyGivenNames x
    with_reducible refine MemI.of ?_ ?_ <;> try exact id
  refine WithinP.ite ?_ ?_
  · refine WithinP.mk ?_
    refine Within.app (State.rec__within _ _ _ _ _ _) rfl ?_
    refine Within.callS1 (by assumption) ?_
    assumption
  extract_lets +onlyGivenNames x
  refine WithinP.cut (x := x) ?_ ?_ <;> [(unfold x; clear x); (obtain ⟨y, e⟩ := named x; rewrite [← e]; clear e x; intro _)]
  · split
    · refine Within.app (State.mergeFlush_within _ _ _ _) rfl ?_
      assumption
    assumption
  extract_lets +onlyGivenNames x
  refine WithinP.cut (x := x) ?_ ?_ <;> [(unfold x; clear x); (obtain ⟨y, e⟩ := named x; rewrite [← e]; clear e x; intro _)]
  · refine Within.app (State.zmapLook_within _ _) rfl ?_
    assumption
  extract_lets +onlyGivenNames x
  clear_value x
  refine WithinP.ite ?_ ?_
  · refine WithinP.mk ?_
    refine Within.callS1 (by assumption) ?_
    assumption
  refine WithinP.mk ?_
  refine Within.app (State.chanEnq_within _ _ _ _) rfl ?_
  refine Within.callS1 (by assumption) ?_
  assumption

theorem State.firstWrite_within (s : State) (a1) :
    Within { free := true, finds := true, due := true, trcCfg := true, irq := true, slices := true, chans := true, far := true, near := true, memIo := true, pba := true, ledger := true, bkt := true, flip := true, ras := true, events := true, trc := true, outs := true } s (State.firstWrite s a1) := by
  unfold State.firstWrite
  extract_lets +onlyGivenNames x
  refine Within.cut (x := x) ?_ ?_ <;> [(unfold x; clear x); (obtain ⟨y, e⟩ := named x; rewrite [← e]; clear e x; intro _)]
  · refine Within.app (State.zmapLook_within _ _) rfl ?_
    exact Within.refl _ _
  refine Within.ite ?_ ?_
  · refine Within.app (State.houseMerge_within _ _ _) rfl ?_
    with_reducible (apply Within.upd <;> try first | exact .inl rfl | exact .inr rfl | exact id | assumption | exact Within.refl _ _)
    extract_lets +onlyGivenNames x
    with_reducible refine MemI.of ?_ ?_ <;> try exact id
  assumption

theorem State.pgcPut_within (s : State) (a1) (a2) (a3) :
    Within { free := true, finds := true, due := true, trcCfg := true, irq := true, slices := true, chans := true, far := true, near := true, memIo := true, pba := true, ledger := true, bkt := true, flip := true, ras := true, events := true, trc := true, outs := true } s (State.pgcPut s a1 a2 a3) := by
  unfold State.pgcPut
  extract_lets +onlyGivenNames x
  clear_value x
  refine Within.foldl (fun _ _ => ?_) ?_
  · extract_lets +onlyGivenNames x
    clear_value x
    extract_lets +onlyGivenNames x
    clear_value x
    extract_lets +onlyGivenNames x
    clear_value x
    extract_lets +onlyGivenNames x
    clear_value x
    refine Within.app (State.farPut_within _ _ _ _) rfl ?_
    refine Within.app (State.firstWrite_within _ _) rfl ?_
    exact Within.refl _ _
  exact Within.refl _ _

theorem State.pgcDelta_within (s : State) (a1) (a2) (a3) :
    Within { free := true, finds := true, due := true, trcCfg := true, irq := true, slices := true, chans := true, far := true, near := true, memIo := true, pba := true, ledger := true, bkt := true, flip := true, ras := true, events := true, trc := true, outs := true } s (State.pgcDelta s a1 a2 a3) := by
  unfold State.pgcDelta
  extract_lets +onlyGivenNames x
  clear_value x
  refine Within.app (State.pgcPut_within _ _ _ _) rfl ?_
  exact Within.refl _ _

theorem State.farStore_within (s : State) (a1) (a2) (a3) :
    Within { free := true, finds := true, due := true, trcCfg := true, irq := true, slices := true, chans := true, far := true, near := true, memIo := true, pba := true, ledger := true, bkt := true, flip := true, ras := true, events := true, trc := true, outs := true } s (State.farStore s a1 a2 a3) := by
  unfold State.farStore
  extract_lets +onlyGivenNames x
  clear_value x
  extract_lets +onlyGivenNames x
  clear_value x
  split
  extract_lets +onlyGivenNames x
  refine Within.cut (x := x) ?_ ?_ <;> [(unfold x; clear x); (obtain ⟨y, e⟩ := named x; rewrite [← e]; clear e x; intro _)]
  · refine Within.app (State.farPut_within _ _ _ _) rfl ?_
    refine Within.app (State.flipDone_within _ _ _ _) rfl ?_
    exact Within.refl _ _
  split
  · refine Within.app (State.pgcDelta_within _ _ _ _) rfl ?_
    assumption
  assumption

theorem State.farWrite_within (s : State) (a1) (a2) (a3) (a4) :
    Within { trcCfg := true, irq := true, chans := true, memIo := true, pba := true, ledger := true, events := true, trc := true, outs := true } s (State.farWrite s a1 a2 a3 a4) := by
  unfold State.farWrite
  extract_lets +onlyGivenNames x
  clear_value x
  extract_lets +onlyGivenNames x
  clear_value x
  refine Within.ite ?_ ?_
  · refine Within.app (State.rec__within _ _ _ _ _ _) rfl ?_
    exact Within.refl _ _
  extract_lets +onlyGivenNames x
  clear_value x
  split
  · extract_lets +onlyGivenNames x
    clear_value x
    extract_lets +onlyGivenNames x
    refine Within.cut (x := x) ?_ ?_ <;> [(unfold x; clear x); (obtain ⟨y, e⟩ := named x; rewrite [← e]; clear e x; intro _)]
    · refine Within.app (State.setCunit_within _ _ _ _) rfl ?_
      exact Within.refl _ _
    refine Within.ite ?_ ?_
    · refine Within.app (State.mergeFlush_within _ _ _ _) rfl ?_
      assumption
    assumption
  refine Within.ite ?_ ?_
  · refine Within.app (State.farEnqW_within _ _ _ _ _) rfl ?_
    exact Within.refl _ _
  extract_lets +onlyGivenNames x
  refine Within.cut (x := x) ?_ ?_ <;> [(unfold x; clear x); (obtain ⟨y, e⟩ := named x; rewrite [← e]; clear e x; intro _)]
  · refine Within.ite ?_ ?_
    · exact Within.refl _ _
    split
    · refine Within.app (State.mergeFlush_within _ _ _ _) rfl ?_
      exact Within.refl _ _
    exact Within.refl _ _
  extract_lets +onlyGivenNames x
  clear_value x
  refine Within.app (State.setCunit_within _ _ _ _) rfl ?_
  assumption

theorem State.farWriteLine_within (s : State) (a1) (a2) (a3) :
    Within { trcCfg := true, irq := true, chans := true, memIo := true, pba := true, ledger := true, events := true, trc := true, outs := true } s (State.farWriteLine s a1 a2 a3) := by
  unfold State.farWriteLine
  refine Within.app (State.farWrite_within _ _ _ _ _) rfl ?_
  exact Within.refl _ _

theorem State.pgcParity_within (s : State) (a1) (a2) :
    Within { free := true, finds := true, due := true, trcCfg := true, irq := true, slices := true, chans := true, far := true, near := true, memIo := true, pba := true, ledger := true, bkt := true, flip := true, ras := true, events := true, trc := true, outs := true } s (State.pgcParity s a1 a2) := by
  unfold State.pgcParity
  refine Within.app (State.pgcPut_within _ _ _ _) rfl ?_
  exact Within.refl _ _

end Sys2Proof.Machine
end

