-- ==== Sys2Proof/Laws/Reply.lean ====
section
/-! SUPPORT. For each operation of Machine/Reply.lean one lemma: which pieces of the state it can change, and that it keeps the
invariant of Safety.lean. -/

set_option Elab.async false

namespace Sys2Proof.Machine

theorem State.account_within (s : State) (a1) :
    Within { trcCfg := true, irq := true, links := true, pba := true, ledger := true, events := true, trc := true, outs := true } s (State.account s a1) := by
  unfold State.account
  refine Within.ite ?_ ?_
  · refine Within.app (State.modLink_within _ _ _) rfl ?_
    exact Within.refl _ _
  split
  · exact Within.refl _ _
  refine Within.ite ?_ ?_
  · refine Within.app (State.rec__within _ _ _ _ _ _) rfl ?_
    refine Within.app (State.event_within _ _ _ _) rfl ?_
    refine Within.app (State.modLink_within _ _ _) rfl ?_
    exact Within.refl _ _
  refine Within.ite ?_ ?_
  · refine Within.app (State.modLink_within _ _ _) rfl ?_
    exact Within.refl _ _
  exact Within.refl _ _

theorem State.modReq_within (s : State) (a1) (a2) :
    Within { hreqs := true } s (State.modReq s a1 a2) := by
  unfold State.modReq
  with_reducible (apply Within.upd <;> try first | exact .inl rfl | exact .inr rfl | exact id | assumption | exact Within.refl _ _)

theorem State.classify_within (s : State) (a1) (a2) :
    Within { hreqs := true } s (State.classify s a1 a2) := by
  unfold State.classify
  split
  · refine Within.app (State.modReq_within _ _ _) rfl ?_
    exact Within.refl _ _
  exact Within.refl _ _

theorem State.extend_within (s : State) (a1) (a2) :
    Within { hreqs := true } s (State.extend s a1 a2) := by
  unfold State.extend
  split
  · refine Within.app (State.modReq_within _ _ _) rfl ?_
    exact Within.refl _ _
  exact Within.refl _ _

theorem State.flatPut_within (s : State) (a1) (a2) (a3) :
    Within { free := true, chans := true, near := true, memIo := true, flip := true, events := true } s (State.flatPut s a1 a2 a3) := by
  unfold State.flatPut
  split
  refine Within.app (State.wayPut_within _ _ _ _ _ _) rfl ?_
  exact Within.refl _ _

theorem State.hostCmp_within (s : State) (a1) :
    Within { trcCfg := true, irq := true, links := true, pba := true, ledger := true, events := true, trc := true, outs := true } s (State.hostCmp s a1) := by
  unfold State.hostCmp
  refine Within.ite ?_ ?_
  · exact Within.refl _ _
  refine Within.app (State.emit_within _ _) rfl ?_
  refine Within.app (State.account_within _ _) rfl ?_
  exact Within.refl _ _

theorem State.hsfWrite_within (s : State) (a1) :
    Within { free := true, due := true, trcCfg := true, irq := true, pba := true, ledger := true, bkt := true, flip := true, events := true, trc := true, outs := true } s (State.hsfWrite s a1) := by
  unfold State.hsfWrite
  extract_lets +onlyGivenNames x
  clear_value x
  extract_lets +onlyGivenNames x
  extract_lets +onlyGivenNames x
  refine Within.cut (x := x) ?_ ?_ <;> [(unfold x; clear x); (obtain ⟨y, e⟩ := named x; rewrite [← e]; clear e x; intro _)]
  · split
    · exact Within.refl _ _
    · refine Within.app (State.bucket_within _ _) rfl ?_
      exact Within.refl _ _
    with_reducible (apply Within.upd <;> try first | exact .inl rfl | exact .inr rfl | exact id | assumption | exact Within.refl _ _)
    with_reducible refine RasI.of ?_ ?_ <;> try exact id
  refine Within.app (State.flipDone_within _ _ _ _) rfl ?_
  assumption

theorem State.modCopies_within (s : State) (a1) (a2) (a3) :
    Within { free := true, due := true, trcCfg := true, irq := true, hsf := true, pba := true, ledger := true, bkt := true, flip := true, events := true, trc := true, outs := true } s (State.modCopies s a1 a2 a3) := by
  unfold State.modCopies
  extract_lets +onlyGivenNames x
  refine Within.cut (x := x) ?_ ?_ <;> [(unfold x; clear x); (obtain ⟨y, e⟩ := named x; rewrite [← e]; clear e x; intro _)]
  · refine Within.app (State.hsfWrite_within _ _) rfl ?_
    exact Within.refl _ _
  extract_lets +onlyGivenNames x
  clear_value x
  with_reducible (apply Within.upd <;> try first | exact .inl rfl | exact .inr rfl | exact id | assumption | exact Within.refl _ _)

theorem State.sendBi_within (s : State) (a1) (a2) (a3) (a4) (a5) :
    Within { bisnps := true, events := true, outs := true } s (State.sendBi s a1 a2 a3 a4 a5) := by
  unfold State.sendBi
  refine Within.ite ?_ ?_
  · exact Within.refl _ _
  extract_lets +onlyGivenNames x
  clear_value x
  extract_lets +onlyGivenNames x
  refine Within.cut (x := x) ?_ ?_ <;> [(unfold x; clear x); (obtain ⟨y, e⟩ := named x; rewrite [← e]; clear e x; intro _)]
  · with_reducible (apply Within.upd <;> try first | exact .inl rfl | exact .inr rfl | exact id | assumption | exact Within.refl _ _)
  refine Within.app (State.event_within _ _ _ _) rfl ?_
  refine Within.app (State.emit_within _ _) rfl ?_
  assumption

theorem State.hsfEvict_within (s : State) (a1) :
    Within { bisnps := true, events := true, outs := true } s (State.hsfEvict s a1) := by
  unfold State.hsfEvict
  refine Within.ite ?_ ?_
  · exact Within.refl _ _
  refine Within.app (State.event_within _ _ _ _) rfl ?_
  refine Within.foldl (fun _ _ => ?_) ?_
  · refine Within.app (State.sendBi_within _ _ _ _ _ _) rfl ?_
    exact Within.refl _ _
  exact Within.refl _ _

theorem State.recordCopy_within (s : State) (a1) (a2) (a3) :
    Within { free := true, due := true, trcCfg := true, irq := true, hsf := true, bisnps := true, pba := true, ledger := true, bkt := true, flip := true, events := true, trc := true, outs := true } s (State.recordCopy s a1 a2 a3) := by
  unfold State.recordCopy
  refine Within.ite ?_ ?_
  · refine Within.app (State.modCopies_within _ _ _ _) rfl ?_
    exact Within.refl _ _
  extract_lets +onlyGivenNames x
  refine Within.cut (x := x) ?_ ?_ <;> [(unfold x; clear x); (obtain ⟨y, e⟩ := named x; rewrite [← e]; clear e x; intro _)]
  · split
    · exact Within.refl _ _
    extract_lets +onlyGivenNames x
    refine Within.cut (x := x) ?_ ?_ <;> [(unfold x; clear x); (obtain ⟨y, e⟩ := named x; rewrite [← e]; clear e x; intro _)]
    · refine Within.app (State.hsfEvict_within _ _) rfl ?_
      exact Within.refl _ _
    with_reducible (apply Within.upd <;> try first | exact .inl rfl | exact .inr rfl | exact id | assumption | exact Within.refl _ _)
  extract_lets +onlyGivenNames x
  refine Within.cut (x := x) ?_ ?_ <;> [(unfold x; clear x); (obtain ⟨y, e⟩ := named x; rewrite [← e]; clear e x; intro _)]
  · refine Within.app (State.hsfWrite_within _ _) rfl ?_
    assumption
  with_reducible (apply Within.upd <;> try first | exact .inl rfl | exact .inr rfl | exact id | assumption | exact Within.refl _ _)

theorem State.hostData_within (s : State) (a1) (a2) (a3) (a4) :
    Within { free := true, due := true, trcCfg := true, irq := true, hsf := true, bisnps := true, links := true, pba := true, ledger := true, bkt := true, flip := true, events := true, trc := true, outs := true } s (State.hostData s a1 a2 a3 a4) := by
  unfold State.hostData
  refine Within.ite ?_ ?_
  · exact Within.refl _ _
  extract_lets +onlyGivenNames x
  clear_value x
  extract_lets +onlyGivenNames x
  refine Within.cut (x := x) ?_ ?_ <;> [(unfold x; clear x); (obtain ⟨y, e⟩ := named x; rewrite [← e]; clear e x; intro _)]
  · refine Within.app (State.emit_within _ _) rfl ?_
    refine Within.app (State.account_within _ _) rfl ?_
    exact Within.refl _ _
  refine Within.ite ?_ ?_
  · assumption
  refine Within.app (State.recordCopy_within _ _ _ _) rfl ?_
  assumption

theorem State.hostGone_within (s : State) (a1) :
    Within { hreqs := true } s (State.hostGone s a1) := by
  unfold State.hostGone
  with_reducible (apply Within.upd <;> try first | exact .inl rfl | exact .inr rfl | exact id | assumption | exact Within.refl _ _)

theorem State.markIssued_within (s : State) (a1) :
    Within { hreqs := true } s (State.markIssued s a1) := by
  unfold State.markIssued
  split
  · refine Within.app (State.modReq_within _ _ _) rfl ?_
    exact Within.refl _ _
  exact Within.refl _ _

theorem State.mergeDirty_within (s : State) (a1) (a2) (a3) (a4) :
    Within { free := true, trcCfg := true, irq := true, slices := true, chans := true, near := true, memIo := true, pba := true, ledger := true, flip := true, events := true, trc := true, outs := true } s (State.mergeDirty s a1 a2 a3 a4) := by
  unfold State.mergeDirty
  refine Within.ite ?_ ?_
  · refine Within.app (State.flatPut_within _ _ _ _) rfl ?_
    exact Within.refl _ _
  extract_lets +onlyGivenNames x
  clear_value x
  extract_lets +onlyGivenNames x
  clear_value x
  refine Within.ite ?_ ?_
  · refine Within.app (State.setSlice_within _ _ _) rfl ?_
    exact Within.refl _ _
  split
  · refine Within.ite ?_ ?_
    · refine Within.app (State.setSlice_within _ _ _) rfl ?_
      exact Within.refl _ _
    extract_lets +onlyGivenNames x
    clear_value x
    refine Within.app (State.putEnt_within _ _ _ _ _) rfl ?_
    refine Within.app (State.wayPut_within _ _ _ _ _ _) rfl ?_
    exact Within.refl _ _
  refine Within.ite ?_ ?_
  · refine Within.app (State.setSlice_within _ _ _) rfl ?_
    exact Within.refl _ _
  refine Within.ite ?_ ?_
  · refine Within.app (State.farWriteLine_within _ _ _ _) rfl ?_
    exact Within.refl _ _
  exact Within.refl _ _

theorem State.pieceGot_within (s : State) (a1) (a2) (a3) (a4) (a5) :
    Within { pors := true } s (State.pieceGot s a1 a2 a3 a4 a5) := by
  unfold State.pieceGot
  extract_lets +onlyGivenNames x
  clear_value x
  refine Within.app (State.setPor_within _ _ _) rfl ?_
  exact Within.refl _ _

theorem State.pwbRetire_within (s : State) (a1) :
    Within { links := true, pba := true } s (State.pwbRetire s a1) := by
  unfold State.pwbRetire
  refine Within.app (State.modLink_within _ _ _) rfl ?_
  exact Within.refl _ _

theorem State.pwbEnd_within (s : State) (a1) (a2) :
    Within { links := true, pba := true, accs := true } s (State.pwbEnd s a1 a2) := by
  unfold State.pwbEnd
  extract_lets +onlyGivenNames x
  clear_value x
  extract_lets +onlyGivenNames x
  refine Within.cut (x := x) ?_ ?_ <;> [(unfold x; clear x); (obtain ⟨y, e⟩ := named x; rewrite [← e]; clear e x; intro _)]
  · refine Within.foldl (fun _ _ => ?_) ?_
    · refine Within.app (State.accDone_within _ _) rfl ?_
      exact Within.refl _ _
    exact Within.refl _ _
  refine Within.app (State.pwbRetire_within _ _) rfl ?_
  refine Within.app (State.modLink_within _ _ _) rfl ?_
  assumption

theorem State.recall_within (s : State) (a1) (a2) (a3) (a4) (a5) :
    Within { bisnps := true, events := true, outs := true } s (State.recall s a1 a2 a3 a4 a5) := by
  unfold State.recall
  refine Within.foldl (fun _ _ => ?_) ?_
  · refine Within.app (State.sendBi_within _ _ _ _ _ _) rfl ?_
    exact Within.refl _ _
  exact Within.refl _ _

theorem State.recallAll_within (s : State) (a1) (a2) :
    Within { bisnps := true, events := true, outs := true } s (State.recallAll s a1 a2) := by
  unfold State.recallAll
  refine Within.app (State.recall_within _ _ _ _ _ _) rfl ?_
  exact Within.refl _ _

theorem State.recallDrop_within (s : State) (a1) (a2) :
    Within { bisnps := true, events := true, outs := true } s (State.recallDrop s a1 a2) := by
  unfold State.recallDrop
  extract_lets +onlyGivenNames x
  refine Within.cut (x := x) ?_ ?_ <;> [(unfold x; clear x); (obtain ⟨y, e⟩ := named x; rewrite [← e]; clear e x; intro _)]
  · with_reducible (apply Within.upd <;> try first | exact .inl rfl | exact .inr rfl | exact id | assumption | exact Within.refl _ _)
  refine Within.app (State.recall_within _ _ _ _ _ _) rfl ?_
  assumption

theorem State.recallEM_within (s : State) (a1) (a2) :
    Within { bisnps := true, events := true, outs := true } s (State.recallEM s a1 a2) := by
  unfold State.recallEM
  refine Within.app (State.recall_within _ _ _ _ _ _) rfl ?_
  exact Within.refl _ _

theorem State.recallWait_within (s : State) (a1) (a2) (a3) :
    Within { hreqs := true } s (State.recallWait s a1 a2 a3) := by
  unfold State.recallWait
  split
  · refine Within.app (State.modReq_within _ _ _) rfl ?_
    exact Within.refl _ _
  exact Within.refl _ _

theorem State.reqAdvance_within (s : State) :
    WithinP { lse := true } s (State.reqAdvance s) := by
  unfold State.reqAdvance
  extract_lets +onlyGivenNames x
  refine WithinP.mk ?_
  refine Within.ite ?_ ?_
  · exact Within.refl _ _
  with_reducible (apply Within.upd <;> try first | exact .inl rfl | exact .inr rfl | exact id | assumption | exact Within.refl _ _)

theorem State.walkerGot_within (s : State) (a1) (a2) (a3) (a4) (a5) :
    Within { xlts := true } s (State.walkerGot s a1 a2 a3 a4 a5) := by
  unfold State.walkerGot
  extract_lets +onlyGivenNames x
  clear_value x
  refine Within.app (State.setXlt_within _ _ _) rfl ?_
  exact Within.refl _ _

theorem State.reqDone_within (s : State) (a1) (a2) (a3) (a4) :
    Within { free := true, due := true, trcCfg := true, irq := true, hsf := true, bisnps := true, links := true, pba := true, hreqs := true, accs := true, lse := true, xlts := true, pors := true, ledger := true, bkt := true, flip := true, events := true, trc := true, outs := true } s (State.reqDone s a1 a2 a3 a4) := by
  unfold State.reqDone
  extract_lets +onlyGivenNames x
  refine Within.cut (x := x) ?_ ?_ <;> [(unfold x; clear x); (obtain ⟨y, e⟩ := named x; rewrite [← e]; clear e x; intro _)]
  · split
    · split
      · exact Within.refl _ _
      refine Within.ite ?_ ?_
      · refine Within.app (State.hostGone_within _ _) rfl ?_
        refine Within.app (State.hostCmp_within _ _) rfl ?_
        exact Within.refl _ _
      extract_lets +onlyGivenNames x
      refine Within.cut (x := x) ?_ ?_ <;> [(unfold x; clear x); (obtain ⟨y, e⟩ := named x; rewrite [← e]; clear e x; intro _)]
      · refine Within.ite ?_ ?_
        · refine Within.app (State.rec__within _ _ _ _ _ _) rfl ?_
          exact Within.refl _ _
        exact Within.refl _ _
      refine Within.ite ?_ ?_
      · split
        refine Within.app (State.modReq_within _ _ _) rfl ?_
        refine WithinP.get (State.reqAdvance_within _) (by assumption) rfl ?_
        assumption
      refine Within.app (State.hostGone_within _ _) rfl ?_
      refine Within.app (State.hostData_within _ _ _ _ _) rfl ?_
      assumption
    · refine Within.app (State.pwbEnd_within _ _ _) rfl ?_
      exact Within.refl _ _
    · refine Within.app (State.pieceGot_within _ _ _ _ _ _) rfl ?_
      exact Within.refl _ _
    · refine Within.app (State.walkerGot_within _ _ _ _ _ _) rfl ?_
      exact Within.refl _ _
    · exact Within.refl _ _
    exact Within.refl _ _
  refine Within.app (State.accDone_within _ _) rfl ?_
  assumption

theorem State.reqFail_within (s : State) (a1) (a2) :
    Within { free := true, due := true, trcCfg := true, irq := true, hsf := true, bisnps := true, links := true, pba := true, hreqs := true, accs := true, fnc := true, xlts := true, xinv := true, pors := true, ledger := true, bkt := true, flip := true, mgt := true, events := true, trc := true, outs := true } s (State.reqFail s a1 a2) := by
  unfold State.reqFail
  extract_lets +onlyGivenNames x
  clear_value x
  extract_lets +onlyGivenNames x
  clear_value x
  extract_lets +onlyGivenNames x
  refine Within.cut (x := x) ?_ ?_ <;> [(unfold x; clear x); (obtain ⟨y, e⟩ := named x; rewrite [← e]; clear e x; intro _)]
  · refine Within.ite ?_ ?_
    · refine Within.app (State.event_within _ _ _ _) rfl ?_
      exact Within.refl _ _
    refine Within.ite ?_ ?_
    · exact Within.refl _ _
    refine Within.app (State.rec__within _ _ _ _ _ _) rfl ?_
    exact Within.refl _ _
  extract_lets +onlyGivenNames x
  refine Within.cut (x := x) ?_ ?_ <;> [(unfold x; clear x); (obtain ⟨y, e⟩ := named x; rewrite [← e]; clear e x; intro _)]
  · split
    · refine Within.ite ?_ ?_
      · assumption
      refine Within.app (State.accFail_within _ _ _ _ _) rfl ?_
      assumption
    assumption
  extract_lets +onlyGivenNames x
  refine Within.cut (x := x) ?_ ?_ <;> [(unfold x; clear x); (obtain ⟨y, e⟩ := named x; rewrite [← e]; clear e x; intro _)]
  · refine Within.ite ?_ ?_
    · refine Within.app (State.modLink_within _ _ _) rfl ?_
      assumption
    assumption
  extract_lets +onlyGivenNames x
  extract_lets +onlyGivenNames x
  refine Within.cut (x := x) ?_ ?_ <;> [(unfold x; clear x); (obtain ⟨y, e⟩ := named x; rewrite [← e]; clear e x; intro _)]
  · split
    · split
      · assumption
      extract_lets +onlyGivenNames x
      clear_value x
      refine Within.app (State.hostGone_within _ _) rfl ?_
      refine Within.ite ?_ ?_
      · refine Within.app (State.hostCmp_within _ _) rfl ?_
        assumption
      refine Within.app (State.hostData_within _ _ _ _ _) rfl ?_
      assumption
    · refine Within.app (State.pwbEnd_within _ _ _) rfl ?_
      refine Within.ite ?_ ?_
      · refine Within.app (State.modLink_within _ _ _) rfl ?_
        assumption
      assumption
    · refine Within.app (State.pieceGot_within _ _ _ _ _ _) rfl ?_
      assumption
    · refine Within.app (State.walkerGot_within _ _ _ _ _ _) rfl ?_
      assumption
    · assumption
    refine Within.ite ?_ ?_
    · assumption
    with_reducible (apply Within.upd <;> try first | exact .inl rfl | exact .inr rfl | exact id | assumption | exact Within.refl _ _)
    with_reducible refine MgtI.of ?_ ?_ ?_ ?_ <;> try exact id
  refine Within.app (State.accDone_within _ _) rfl ?_
  assumption

theorem State.rosterGone_within (s : State) (a1) :
    Within { hreqs := true } s (State.rosterGone s a1) := by
  unfold State.rosterGone
  with_reducible (apply Within.upd <;> try first | exact .inl rfl | exact .inr rfl | exact id | assumption | exact Within.refl _ _)

theorem State.roundEnd_within (s : State) (a1) (a2) :
    Within { hreqs := true } s (State.roundEnd s a1 a2) := by
  unfold State.roundEnd
  refine Within.ite ?_ ?_
  · exact Within.refl _ _
  with_reducible (apply Within.upd <;> try first | exact .inl rfl | exact .inr rfl | exact id | assumption | exact Within.refl _ _)

theorem State.void_within (s : State) (a1) :
    Within { hreqs := true } s (State.void s a1) := by
  unfold State.void
  split
  · refine Within.app (State.modReq_within _ _ _) rfl ?_
    exact Within.refl _ _
  exact Within.refl _ _

end Sys2Proof.Machine
end

