-- ==== Sys2Proof/Laws/Evict.lean ====
section
/-! SUPPORT. For each operation of Machine/Evict.lean one lemma: which pieces of the state it can change, and that it keeps the
invariant of Safety.lean. -/

set_option Elab.async false

namespace Sys2Proof.Machine

theorem State.dropLine_within (s : State) (a1) (a2) (a3) (a4) :
    Within { free := true, slices := true, chans := true, near := true, memIo := true, flip := true, events := true } s (State.dropLine s a1 a2 a3 a4) := by
  unfold State.dropLine
  extract_lets +onlyGivenNames x
  clear_value x
  extract_lets +onlyGivenNames x
  clear_value x
  extract_lets +onlyGivenNames x
  refine Within.cut (x := x) ?_ ?_ <;> [(unfold x; clear x); (obtain ⟨y, e⟩ := named x; rewrite [← e]; clear e x; intro _)]
  · refine Within.app (State.putEnt_within _ _ _ _ _) rfl ?_
    exact Within.refl _ _
  refine Within.ite ?_ ?_
  · refine Within.app (State.event_within _ _ _ _) rfl ?_
    assumption
  assumption

theorem State.vbFree_within (s : State) (a1) (a2) :
    Within { slices := true } s (State.vbFree s a1 a2) := by
  unfold State.vbFree
  refine Within.app (State.modSlice_within _ _ _) rfl ?_
  exact Within.refl _ _

theorem State.modVb_within (s : State) (a1) (a2) (a3) :
    Within { slices := true } s (State.modVb s a1 a2 a3) := by
  unfold State.modVb
  refine Within.app (State.modSlice_within _ _ _) rfl ?_
  exact Within.refl _ _

theorem State.vbGo_within (s : State) (a1) (a2) :
    Within { trcCfg := true, irq := true, slices := true, chans := true, memIo := true, bisnps := true, pba := true, rtrTx := true, ledger := true, events := true, trc := true, outs := true } s (State.vbGo s a1 a2) := by
  unfold State.vbGo
  split
  · exact Within.refl _ _
  refine Within.ite ?_ ?_
  · exact Within.refl _ _
  refine Within.ite ?_ ?_
  · refine Within.app (State.recallAll_within _ _ _) rfl ?_
    exact Within.refl _ _
  refine Within.ite ?_ ?_
  · refine Within.app (State.vbFree_within _ _ _) rfl ?_
    exact Within.refl _ _
  extract_lets +onlyGivenNames x
  clear_value x
  extract_lets +onlyGivenNames x
  clear_value x
  split
  · refine Within.ite ?_ ?_
    · refine Within.app (State.vbFree_within _ _ _) rfl ?_
      refine Within.app (State.farWriteLine_within _ _ _ _) rfl ?_
      exact Within.refl _ _
    exact Within.refl _ _
  · refine Within.ite ?_ ?_
    · refine Within.app (State.event_within _ _ _ _) rfl ?_
      refine Within.app (State.sendCoh_within _ _ _) rfl ?_
      refine Within.app (State.modVb_within _ _ _ _) rfl ?_
      exact Within.refl _ _
    refine Within.app (State.vbFree_within _ _ _) rfl ?_
    refine Within.app (State.event_within _ _ _ _) rfl ?_
    refine Within.app (State.sendCoh_within _ _ _) rfl ?_
    exact Within.refl _ _
  · refine Within.app (State.event_within _ _ _ _) rfl ?_
    refine Within.app (State.sendCoh_within _ _ _) rfl ?_
    refine Within.app (State.modVb_within _ _ _ _) rfl ?_
    exact Within.refl _ _
  refine Within.ite ?_ ?_
  · refine Within.app (State.vbFree_within _ _ _) rfl ?_
    exact Within.refl _ _
  refine Within.ite ?_ ?_
  · refine Within.app (State.modVb_within _ _ _ _) rfl ?_
    exact Within.refl _ _
  refine Within.app (State.sendGlob_within _ _ _) rfl ?_
  refine Within.app (State.modVb_within _ _ _ _) rfl ?_
  exact Within.refl _ _

theorem State.vbTake_within (s : State) (a1) (a2) (a3) (a4) (a5) (a6) (a7) :
    WithinO { trcCfg := true, irq := true, slices := true, chans := true, memIo := true, bisnps := true, pba := true, rtrTx := true, ledger := true, events := true, trc := true, outs := true } s (State.vbTake s a1 a2 a3 a4 a5 a6 a7) := by
  unfold State.vbTake
  refine WithinO.map fun _ => ?_
  extract_lets +onlyGivenNames x
  clear_value x
  refine Within.app (State.vbGo_within _ _ _) rfl ?_
  refine Within.app (State.modSlice_within _ _ _) rfl ?_
  exact Within.refl _ _

theorem State.evictWay_within (s : State) (a1) (a2) (a3) :
    WithinO { free := true, finds := true, trcCfg := true, irq := true, slices := true, chans := true, near := true, memIo := true, bisnps := true, pba := true, rtrTx := true, ledger := true, bkt := true, flip := true, events := true, trc := true, outs := true } s (State.evictWay s a1 a2 a3) := by
  unfold State.evictWay
  extract_lets +onlyGivenNames x
  clear_value x
  extract_lets +onlyGivenNames x
  refine WithinO.cutS (x := x) ?_ ?_ <;> [(intro _; unfold x; clear x; try beta_reduce); (intro _; clear_value x)]
  · refine Within.app (State.putEnt_within _ _ _ _ _) rfl ?_
    exact Within.refl _ _
  refine WithinO.ite ?_ ?_
  · refine WithinO.ite ?_ ?_
    · refine WithinO.some ?_
      exact Within.refl _ _
    refine WithinO.some ?_
    apply_assumption
  extract_lets +onlyGivenNames x
  clear_value x
  split
  · refine WithinO.some ?_
    apply_assumption
  refine WithinO.ite ?_ ?_
  · exact WithinO.none _ _
  split
  extract_lets +onlyGivenNames x
  refine WithinO.cut (x := x) ?_ ?_ <;> [(unfold x; clear x); (obtain ⟨y, e⟩ := named x; rewrite [← e]; clear e x; intro _)]
  · refine Within.ite ?_ ?_
    · refine Within.app (State.ueData_within _ _ _ _ _) rfl ?_
      refine WithinP.get (State.readWay_within _ _ _ _ _) (by assumption) rfl ?_
      exact Within.refl _ _
    refine WithinP.get (State.readWay_within _ _ _ _ _) (by assumption) rfl ?_
    exact Within.refl _ _
  split
  refine WithinO.app (State.vbTake_within _ _ _ _ _ _ _ _) rfl ?_
  refine Within.callS (by assumption) ?_
  assumption

theorem State.install_within (s : State) (a1) (a2) (a3) (a4) (a5) (a6) (a7) (a8) :
    Within { free := true, slices := true, chans := true, near := true, memIo := true, flip := true, events := true } s (State.install s a1 a2 a3 a4 a5 a6 a7 a8) := by
  unfold State.install
  extract_lets +onlyGivenNames x
  clear_value x
  extract_lets +onlyGivenNames x
  clear_value x
  extract_lets +onlyGivenNames x
  clear_value x
  extract_lets +onlyGivenNames x
  clear_value x
  refine Within.app (State.predict_within _ _ _ _) rfl ?_
  refine Within.app (State.wayPut_within _ _ _ _ _ _) rfl ?_
  refine Within.app (State.putTags_within _ _ _ _) rfl ?_
  exact Within.refl _ _

theorem State.fill_within (s : State) (a1) (a2) (a3) (a4) (a5) (a6) :
    WithinO { free := true, finds := true, trcCfg := true, irq := true, slices := true, chans := true, near := true, memIo := true, bisnps := true, pba := true, rtrTx := true, ledger := true, bkt := true, flip := true, events := true, trc := true, outs := true } s (State.fill s a1 a2 a3 a4 a5 a6) := by
  unfold State.fill
  extract_lets +onlyGivenNames x
  clear_value x
  split
  · exact WithinO.none _ _
  refine WithinO.mapS (fun _ => ?_) ?_
  · refine Within.app (State.install_within _ _ _ _ _ _ _ _ _) rfl ?_
    exact Within.refl _ _
  refine WithinO.app (State.evictWay_within _ _ _ _) rfl ?_
  exact Within.refl _ _

theorem State.hitAge_within (s : State) (a1) (a2) (a3) (a4) :
    Within { free := true, slices := true, chans := true, near := true, memIo := true, flip := true, events := true } s (State.hitAge s a1 a2 a3 a4) := by
  unfold State.hitAge
  extract_lets +onlyGivenNames x
  clear_value x
  extract_lets +onlyGivenNames x
  clear_value x
  extract_lets +onlyGivenNames x
  clear_value x
  refine Within.app (State.putTags_within _ _ _ _) rfl ?_
  exact Within.refl _ _

theorem State.hitReq_within (s : State) (a1) (a2) (a3) :
    Within { free := true, slices := true, chans := true, near := true, memIo := true, flip := true, events := true } s (State.hitReq s a1 a2 a3) := by
  unfold State.hitReq
  refine Within.ite ?_ ?_
  · exact Within.refl _ _
  refine Within.app (State.hitAge_within _ _ _ _ _) rfl ?_
  exact Within.refl _ _

theorem State.modMr_within (s : State) (a1) (a2) (a3) :
    Within { slices := true } s (State.modMr s a1 a2 a3) := by
  unfold State.modMr
  refine Within.app (State.modSlice_within _ _ _) rfl ?_
  exact Within.refl _ _

theorem State.setLineState_within (s : State) (a1) (a2) (a3) (a4) :
    Within { free := true, slices := true, chans := true, near := true, memIo := true, flip := true, events := true } s (State.setLineState s a1 a2 a3 a4) := by
  unfold State.setLineState
  extract_lets +onlyGivenNames x
  clear_value x
  refine Within.app (State.putEnt_within _ _ _ _ _) rfl ?_
  exact Within.refl _ _

end Sys2Proof.Machine
end

