-- ==== Sys2Proof/Laws/Dir.lean ====
section
/-! SUPPORT. For each operation of Machine/Dir.lean one lemma: which pieces of the state it can change, and that it keeps the
invariant of Safety.lean. -/

set_option Elab.async false

namespace Sys2Proof.Machine

theorem State.buildTree_within (s : State) :
    Within { fnc := true } s (State.buildTree s) := by
  unfold State.buildTree
  extract_lets +onlyGivenNames x
  clear_value x
  extract_lets +onlyGivenNames x
  clear_value x
  extract_lets +onlyGivenNames x
  clear_value x
  extract_lets +onlyGivenNames x
  clear_value x
  with_reducible (apply Within.upd <;> try first | exact .inl rfl | exact .inr rfl | exact id | assumption | exact Within.refl _ _)

theorem State.dirFetch_within (s : State) (a1) (a2) :
    Within { free := true, finds := true, due := true, trcCfg := true, irq := true, slices := true, chans := true, near := true, memIo := true, pba := true, ledger := true, bkt := true, flip := true, events := true, trc := true, outs := true } s (State.dirFetch s a1 a2) := by
  unfold State.dirFetch
  refine Within.foldl (fun _ _ => ?_) ?_
  · refine Within.app (State.houseAccess_within _ _ _) rfl ?_
    exact Within.refl _ _
  exact Within.refl _ _

theorem State.setBank_within (s : State) (a1) (a2) :
    Within { free := true, finds := true, due := true, trcCfg := true, irq := true, slices := true, banks := true, chans := true, near := true, memIo := true, pba := true, ledger := true, bkt := true, flip := true, events := true, trc := true, outs := true } s (State.setBank s a1 a2) := by
  unfold State.setBank
  extract_lets +onlyGivenNames x
  clear_value x
  extract_lets +onlyGivenNames x
  refine Within.cut (x := x) ?_ ?_ <;> [(unfold x; clear x); (obtain ⟨y, e⟩ := named x; rewrite [← e]; clear e x; intro _)]
  · refine Within.foldl (fun _ _ => ?_) ?_
    · refine Within.app (State.flipDone_within _ _ _ _) rfl ?_
      exact Within.refl _ _
    exact Within.refl _ _
  extract_lets +onlyGivenNames x
  refine Within.cut (x := x) ?_ ?_ <;> [(unfold x; clear x); (obtain ⟨y, e⟩ := named x; rewrite [← e]; clear e x; intro _)]
  · refine Within.foldl (fun _ _ => ?_) ?_
    · refine Within.app (State.houseMerge_within _ _ _) rfl ?_
      exact Within.refl _ _
    assumption
  with_reducible (apply Within.upd <;> try first | exact .inl rfl | exact .inr rfl | exact id | assumption | exact Within.refl _ _)

theorem State.dirLose_within (s : State) (a1) :
    Within { free := true, finds := true, due := true, trcCfg := true, irq := true, slices := true, banks := true, chans := true, near := true, memIo := true, pba := true, ledger := true, bkt := true, flip := true, events := true, trc := true, outs := true } s (State.dirLose s a1) := by
  unfold State.dirLose
  refine Within.ite ?_ ?_
  · exact Within.refl _ _
  refine Within.app (State.rec__within _ _ _ _ _ _) rfl ?_
  refine Within.app (State.setBank_within _ _ _) rfl ?_
  exact Within.refl _ _

theorem State.domUp_within (s : State) :
    Within { trcCfg := true, irq := true, pba := true, fnc := true, dom := true, ledger := true, events := true, trc := true, outs := true } s (State.domUp s) := by
  unfold State.domUp
  refine Within.ite ?_ ?_
  · exact Within.refl _ _
  extract_lets +onlyGivenNames x
  clear_value x
  extract_lets +onlyGivenNames x
  clear_value x
  refine Within.app (State.rec__within _ _ _ _ _ _) rfl ?_
  refine Within.app (State.buildTree_within _) rfl ?_
  with_reducible (apply Within.upd <;> try first | exact .inl rfl | exact .inr rfl | exact id | assumption | exact Within.refl _ _)

theorem State.dropTrk_within (s : State) (a1) (a2) :
    Within { slices := true } s (State.dropTrk s a1 a2) := by
  unfold State.dropTrk
  refine Within.app (State.modSlice_within _ _ _) rfl ?_
  exact Within.refl _ _

theorem State.sendNotice_within (s : State) (a1) :
    Within { rtrTx := true } s (State.sendNotice s a1) := by
  unfold State.sendNotice
  refine Within.foldl (fun _ _ => ?_) ?_
  · refine Within.app (State.sendPkt_within _ _ _ _ _ _) rfl ?_
    refine Within.app (State.sendPkt_within _ _ _ _ _ _) rfl ?_
    exact Within.refl _ _
  exact Within.refl _ _

theorem State.enterDown_within (s : State) (a1) :
    Within { rtrTx := true, dom := true } s (State.enterDown s a1) := by
  unfold State.enterDown
  extract_lets +onlyGivenNames x
  clear_value x
  extract_lets +onlyGivenNames x
  clear_value x
  extract_lets +onlyGivenNames x
  refine Within.cut (x := x) ?_ ?_ <;> [(unfold x; clear x); (obtain ⟨y, e⟩ := named x; rewrite [← e]; clear e x; intro _)]
  · with_reducible (apply Within.upd <;> try first | exact .inl rfl | exact .inr rfl | exact id | assumption | exact Within.refl _ _)
  refine Within.ite ?_ ?_
  · refine Within.app (State.sendNotice_within _ _) rfl ?_
    assumption
  assumption

theorem State.fatalErr_within (s : State) (a1) (a2) (a3) :
    Within { trcCfg := true, irq := true, pba := true, rtrTx := true, dom := true, ledger := true, events := true, trc := true, outs := true } s (State.fatalErr s a1 a2 a3) := by
  unfold State.fatalErr
  extract_lets +onlyGivenNames x
  refine Within.cut (x := x) ?_ ?_ <;> [(unfold x; clear x); (obtain ⟨y, e⟩ := named x; rewrite [← e]; clear e x; intro _)]
  · refine Within.app (State.recErr_within _ _ _ _ _ _) rfl ?_
    exact Within.refl _ _
  refine Within.ite ?_ ?_
  · assumption
  refine Within.app (State.enterDown_within _ _) rfl ?_
  assumption

theorem State.fatal_within (s : State) (a1) (a2) :
    Within { trcCfg := true, irq := true, pba := true, rtrTx := true, dom := true, ledger := true, events := true, trc := true, outs := true } s (State.fatal s a1 a2) := by
  unfold State.fatal
  refine Within.app (State.fatalErr_within _ _ _ _) rfl ?_
  exact Within.refl _ _

theorem State.fatalsDue_within (s : State) :
    Within { due := true, trcCfg := true, irq := true, pba := true, rtrTx := true, dom := true, ledger := true, events := true, trc := true, outs := true } s (State.fatalsDue s) := by
  unfold State.fatalsDue
  refine Within.foldl (fun _ _ => ?_) ?_
  · refine Within.app (State.fatalErr_within _ _ _ _) rfl ?_
    exact Within.refl _ _
  with_reducible (apply Within.upd <;> try first | exact .inl rfl | exact .inr rfl | exact id | assumption | exact Within.refl _ _)
  extract_lets +onlyGivenNames x
  with_reducible refine RasI.of ?_ ?_ <;> try exact id

theorem State.modTrk_within (s : State) (a1) (a2) (a3) :
    Within { slices := true } s (State.modTrk s a1 a2 a3) := by
  unfold State.modTrk
  refine Within.app (State.modSlice_within _ _ _) rfl ?_
  exact Within.refl _ _

theorem State.sawUp_within (s : State) (a1) :
    Within { dom := true } s (State.sawUp s a1) := by
  unfold State.sawUp
  extract_lets +onlyGivenNames x
  clear_value x
  with_reducible (apply Within.upd <;> try first | exact .inl rfl | exact .inr rfl | exact id | assumption | exact Within.refl _ _)

theorem State.sweepEnt_within (s : State) (a1) (a2) (a3) :
    Within { free := true, finds := true, due := true, trcCfg := true, irq := true, slices := true, banks := true, chans := true, near := true, memIo := true, pba := true, ledger := true, bkt := true, flip := true, events := true, trc := true, outs := true } s (State.sweepEnt s a1 a2 a3) := by
  unfold State.sweepEnt
  extract_lets +onlyGivenNames x
  clear_value x
  refine Within.ite ?_ ?_
  · exact Within.refl _ _
  extract_lets +onlyGivenNames x
  clear_value x
  extract_lets +onlyGivenNames x
  refine Within.cut (x := x) ?_ ?_ <;> [(unfold x; clear x); (obtain ⟨y, e⟩ := named x; rewrite [← e]; clear e x; intro _)]
  · refine Within.ite ?_ ?_
    · refine Within.app (State.farWriteLine_within _ _ _ _) rfl ?_
      exact Within.refl _ _
    refine Within.ite ?_ ?_
    · split
      · refine Within.ite ?_ ?_
        · refine Within.app (State.farWriteLine_within _ _ _ _) rfl ?_
          exact Within.refl _ _
        refine Within.ite ?_ ?_
        · refine Within.app (State.farWriteLine_within _ _ _ _) rfl ?_
          exact Within.refl _ _
        refine Within.app (State.farWriteLine_within _ _ _ _) rfl ?_
        exact Within.refl _ _
      refine Within.app (State.farWriteLine_within _ _ _ _) rfl ?_
      exact Within.refl _ _
    exact Within.refl _ _
  refine Within.app (State.setBank_within _ _ _) rfl ?_
  assumption

end Sys2Proof.Machine
end

