-- ==== Sys2Proof/Laws/Home.lean ====
section
/-! SUPPORT. For each operation of Machine/Home.lean one lemma: which pieces of the state it can change, and that it keeps the
invariant of Safety.lean. -/

set_option Elab.async false

namespace Sys2Proof.Machine

theorem State.atomHere_within (s : State) (a1) (a2) (a3) (a4) (a5) (a6) (a7) :
    WithinP { free := true, finds := true, trcCfg := true, irq := true, slices := true, chans := true, near := true, memIo := true, pba := true, ledger := true, bkt := true, flip := true, events := true, trc := true, outs := true } s (State.atomHere s a1 a2 a3 a4 a5 a6 a7) := by
  unfold State.atomHere
  extract_lets +onlyGivenNames x
  clear_value x
  dsimp -zeta only
  extract_lets +onlyGivenNames x
  refine WithinP.cut (x := x) ?_ ?_ <;> [(unfold x; clear x); (obtain ⟨y, e⟩ := named x; rewrite [← e]; clear e x; intro _)]
  · refine Within.app (State.hitAge_within _ _ _ _ _) rfl ?_
    refine Within.ite ?_ ?_
    · refine Within.app (State.ueData_within _ _ _ _ _) rfl ?_
      refine WithinP.snd (State.readWay_within _ _ _ _ _) rfl ?_
      exact Within.refl _ _
    refine WithinP.snd (State.readWay_within _ _ _ _ _) rfl ?_
    exact Within.refl _ _
  refine WithinP.ite ?_ ?_
  · refine WithinP.mk ?_
    refine Within.app (State.setLineState_within _ _ _ _ _) rfl ?_
    assumption
  refine WithinP.mk ?_
  refine Within.app (State.event_within _ _ _ _) rfl ?_
  refine Within.app (State.setLineState_within _ _ _ _ _) rfl ?_
  refine Within.app (State.wayPut_within _ _ _ _ _ _) rfl ?_
  assumption

theorem State.homeTouch_within (s : State) (a1) (a2) :
    Within { free := true, finds := true, trcCfg := true, irq := true, slices := true, chans := true, near := true, memIo := true, pba := true, ledger := true, bkt := true, flip := true, events := true, trc := true, outs := true } s (State.homeTouch s a1 a2) := by
  unfold State.homeTouch
  extract_lets +onlyGivenNames x
  refine Within.cut (x := x) ?_ ?_ <;> [(unfold x; clear x); (obtain ⟨y, e⟩ := named x; rewrite [← e]; clear e x; intro _)]
  · split
    refine Within.app (State.modTrk_within _ _ _ _) rfl ?_
    refine WithinP.get (State.touchLine_within _ _ _) (by assumption) rfl ?_
    exact Within.refl _ _
  split
  · assumption
  · assumption
  exact Within.refl _ _

theorem State.dropHome_within (s : State) (a1) (a2) :
    Within { free := true, slices := true, chans := true, near := true, memIo := true, flip := true, events := true } s (State.dropHome s a1 a2) := by
  unfold State.dropHome
  split
  · refine Within.app (State.dropLine_within _ _ _ _ _) rfl ?_
    exact Within.refl _ _
  exact Within.refl _ _

theorem State.homeTakeVb_within (s : State) (a1) (a2) :
    WithinP { slices := true } s (State.homeTakeVb s a1 a2) := by
  unfold State.homeTakeVb
  split
  · refine WithinP.mk ?_
    exact Within.refl _ _
  split
  · refine WithinP.mk ?_
    exact Within.refl _ _
  refine WithinP.mk ?_
  refine Within.app (State.modSlice_within _ _ _) rfl ?_
  refine Within.app (State.vbFree_within _ _ _) rfl ?_
  refine Within.app (State.modTrk_within _ _ _ _) rfl ?_
  exact Within.refl _ _

theorem State.closeTrk_within (s : State) (a1) (a2) :
    Within { free := true, finds := true, due := true, trcCfg := true, irq := true, slices := true, banks := true, chans := true, near := true, memIo := true, pba := true, ledger := true, bkt := true, flip := true, events := true, trc := true, outs := true } s (State.closeTrk s a1 a2) := by
  unfold State.closeTrk
  extract_lets +onlyGivenNames x
  clear_value x
  extract_lets +onlyGivenNames x
  refine Within.cut (x := x) ?_ ?_ <;> [(unfold x; clear x); (obtain ⟨y, e⟩ := named x; rewrite [← e]; clear e x; intro _)]
  · refine Within.app (State.dropTrk_within _ _ _) rfl ?_
    exact Within.refl _ _
  split
  · refine Within.app (State.setBank_within _ _ _) rfl ?_
    assumption
  split
  · extract_lets +onlyGivenNames x
    clear_value x
    extract_lets +onlyGivenNames x
    clear_value x
    refine Within.app (State.setBank_within _ _ _) rfl ?_
    assumption
  assumption

theorem State.mrClose_within (s : State) (a1) (a2) :
    Within { slices := true } s (State.mrClose s a1 a2) := by
  unfold State.mrClose
  refine Within.app (State.modSlice_within _ _ _) rfl ?_
  exact Within.refl _ _

theorem State.frozenOwn_within (s : State) (a1) (a2) :
    WithinO { free := true, finds := true, due := true, trcCfg := true, irq := true, slices := true, banks := true, chans := true, near := true, memIo := true, hsf := true, bisnps := true, links := true, pba := true, hreqs := true, accs := true, fnc := true, xlts := true, xinv := true, pors := true, ledger := true, bkt := true, flip := true, mgt := true, events := true, trc := true, outs := true } s (State.frozenOwn s a1 a2) := by
  unfold State.frozenOwn
  split
  · refine WithinO.ite ?_ ?_
    · refine WithinO.map fun _ => ?_
      refine Within.app (State.closeTrk_within _ _ _) rfl ?_
      refine Within.app (State.mrClose_within _ _ _) rfl ?_
      refine Within.foldl (fun _ _ => ?_) ?_
      · refine Within.app (State.reqFail_within _ _ _) rfl ?_
        exact Within.refl _ _
      exact Within.refl _ _
    exact WithinO.none _ _
  exact WithinO.none _ _

theorem State.sendInv_within (s : State) (a1) (a2) (a3) (a4) :
    Within { rtrTx := true } s (State.sendInv s a1 a2 a3 a4) := by
  unfold State.sendInv
  refine Within.foldl (fun _ _ => ?_) ?_
  · refine Within.app (State.sendCoh_within _ _ _) rfl ?_
    exact Within.refl _ _
  exact Within.refl _ _

theorem State.sendFwd_within (s : State) (a1) (a2) (a3) (a4) (a5) (a6) :
    Within { rtrTx := true } s (State.sendFwd s a1 a2 a3 a4 a5 a6) := by
  unfold State.sendFwd
  refine Within.app (State.sendCoh_within _ _ _) rfl ?_
  exact Within.refl _ _

theorem State.classifyMr_within (s : State) (a1) (a2) (a3) :
    Within { slices := true, hreqs := true } s (State.classifyMr s a1 a2 a3) := by
  unfold State.classifyMr
  split
  · exact Within.refl _ _
  refine Within.foldl (fun _ _ => ?_) ?_
  · refine Within.app (State.classify_within _ _ _) rfl ?_
    exact Within.refl _ _
  refine Within.app (State.modMr_within _ _ _ _) rfl ?_
  exact Within.refl _ _

theorem State.classifyTrk_within (s : State) (a1) (a2) (a3) (a4) :
    Within { slices := true, hreqs := true } s (State.classifyTrk s a1 a2 a3 a4) := by
  unfold State.classifyTrk
  split
  · refine Within.ite ?_ ?_
    · refine Within.app (State.classifyMr_within _ _ _ _) rfl ?_
      exact Within.refl _ _
    refine Within.ite ?_ ?_
    · refine Within.app (State.classifyMr_within _ _ _ _) rfl ?_
      exact Within.refl _ _
    exact Within.refl _ _
  exact Within.refl _ _

theorem State.voidTrk_within (s : State) (a1) (a2) :
    Within { hreqs := true } s (State.voidTrk s a1 a2) := by
  unfold State.voidTrk
  split
  · split
    · refine Within.foldl (fun _ _ => ?_) ?_
      · refine Within.app (State.void_within _ _) rfl ?_
        exact Within.refl _ _
      exact Within.refl _ _
    exact Within.refl _ _
  exact Within.refl _ _

theorem State.recallExtend_within (s : State) (a1) (a2) :
    Within { hreqs := true } s (State.recallExtend s a1 a2) := by
  unfold State.recallExtend
  split
  · split
    · refine Within.ite ?_ ?_
      · refine Within.foldl (fun _ _ => ?_) ?_
        · refine Within.app (State.recallWait_within _ _ _ _) rfl ?_
          exact Within.refl _ _
        exact Within.refl _ _
      exact Within.refl _ _
    exact Within.refl _ _
  exact Within.refl _ _

theorem State.homeStep_within (s : State) (a1) (a2) (a3) (a4) (a5) (a6) (a7) (a8) :
    Within { free := true, finds := true, due := true, trcCfg := true, irq := true, slices := true, chans := true, far := true, near := true, memIo := true, bisnps := true, pba := true, hreqs := true, rtrTx := true, ledger := true, bkt := true, flip := true, ras := true, events := true, trc := true, outs := true } s (State.homeStep s a1 a2 a3 a4 a5 a6 a7 a8) := by
  unfold State.homeStep
  split
  · exact Within.refl _ _
  extract_lets +onlyGivenNames x
  refine Within.cut (x := x) ?_ ?_ <;> [(unfold x; clear x); (obtain ⟨y, e⟩ := named x; rewrite [← e]; clear e x; intro _)]
  · refine Within.app (State.sendInv_within _ _ _ _ _) rfl ?_
    exact Within.refl _ _
  extract_lets +onlyGivenNames x
  refine Within.cut (x := x) ?_ ?_ <;> [(unfold x; clear x); (obtain ⟨y, e⟩ := named x; rewrite [← e]; clear e x; intro _)]
  · split
    · refine Within.app (State.sendFwd_within _ _ _ _ _ _ _) rfl ?_
      assumption
    assumption
  extract_lets +onlyGivenNames x
  refine Within.cut (x := x) ?_ ?_ <;> [(unfold x; clear x); (obtain ⟨y, e⟩ := named x; rewrite [← e]; clear e x; intro _)]
  · refine Within.app (State.classifyTrk_within _ _ _ _ _) rfl ?_
    assumption
  extract_lets +onlyGivenNames x
  refine Within.cut (x := x) ?_ ?_ <;> [(unfold x; clear x); (obtain ⟨y, e⟩ := named x; rewrite [← e]; clear e x; intro _)]
  · refine Within.ite ?_ ?_
    · refine Within.app (State.voidTrk_within _ _ _) rfl ?_
      assumption
    assumption
  extract_lets +onlyGivenNames x
  clear_value x
  extract_lets +onlyGivenNames x
  refine Within.cut (x := x) ?_ ?_ <;> [(unfold x; clear x); (obtain ⟨y, e⟩ := named x; rewrite [← e]; clear e x; intro _)]
  · refine Within.ite ?_ ?_
    · refine Within.app (State.recallExtend_within _ _ _) rfl ?_
      refine Within.app (State.recallAll_within _ _ _) rfl ?_
      assumption
    refine Within.ite ?_ ?_
    · refine Within.app (State.recallExtend_within _ _ _) rfl ?_
      refine Within.app (State.recallEM_within _ _ _) rfl ?_
      assumption
    assumption
  split
  refine Within.app (State.modTrk_within _ _ _ _) rfl ?_
  refine WithinP.eq (by assumption) ?_
  refine WithinP.ite ?_ ?_
  · dsimp -zeta only
    refine WithinP.mk ?_
    refine WithinP.snd (State.farRead_within _ _ _ _) rfl ?_
    assumption
  refine WithinP.mk ?_
  assumption

theorem State.homeFirst_within (s : State) (a1) (a2) :
    Within { free := true, finds := true, due := true, trcCfg := true, irq := true, slices := true, banks := true, chans := true, far := true, near := true, memIo := true, hsf := true, bisnps := true, links := true, pba := true, hreqs := true, accs := true, fnc := true, xlts := true, xinv := true, rtrTx := true, pors := true, ledger := true, bkt := true, flip := true, ras := true, mgt := true, events := true, trc := true, outs := true } s (State.homeFirst s a1 a2) := by
  unfold State.homeFirst
  split
  · exact Within.refl _ _
  extract_lets +onlyGivenNames x
  clear_value x
  extract_lets +onlyGivenNames x
  clear_value x
  extract_lets +onlyGivenNames x
  clear_value x
  extract_lets +onlyGivenNames x
  clear_value x
  extract_lets +onlyGivenNames x
  refine Within.cut (x := x) ?_ ?_ <;> [(unfold x; clear x); (obtain ⟨y, e⟩ := named x; rewrite [← e]; clear e x; intro _)]
  · refine Within.app (State.homeTouch_within _ _ _) rfl ?_
    exact Within.refl _ _
  extract_lets +onlyGivenNames x
  refine Within.cut (x := x) ?_ ?_ <;> [(unfold x; clear x); (obtain ⟨y, e⟩ := named x; rewrite [← e]; clear e x; intro _)]
  · refine Within.ite ?_ ?_
    · refine Within.app (State.dropHome_within _ _ _) rfl ?_
      assumption
    assumption
  split
  extract_lets +onlyGivenNames x
  clear_value x
  split
  · refine WithinO.eq (by assumption) ?_
    refine WithinO.ite ?_ ?_
    · exact WithinO.none _ _
    refine WithinO.app (State.frozenOwn_within _ _ _) rfl ?_
    refine WithinP.eq (by assumption) ?_
    refine WithinP.ite ?_ ?_
    · refine WithinP.mk ?_
      assumption
    refine WithinP.app (State.homeTakeVb_within _ _ _) rfl ?_
    assumption
  split
  · refine Within.ite ?_ ?_
    · refine Within.app (State.homeStep_within _ _ _ _ _ _ _ _ _) rfl ?_
      refine WithinP.eq (by assumption) ?_
      refine WithinP.ite ?_ ?_
      · refine WithinP.mk ?_
        assumption
      refine WithinP.app (State.homeTakeVb_within _ _ _) rfl ?_
      assumption
    refine Within.app (State.homeStep_within _ _ _ _ _ _ _ _ _) rfl ?_
    refine WithinP.eq (by assumption) ?_
    refine WithinP.ite ?_ ?_
    · refine WithinP.mk ?_
      assumption
    refine WithinP.app (State.homeTakeVb_within _ _ _) rfl ?_
    assumption
  · refine Within.ite ?_ ?_
    · refine Within.app (State.homeStep_within _ _ _ _ _ _ _ _ _) rfl ?_
      refine WithinP.eq (by assumption) ?_
      refine WithinP.ite ?_ ?_
      · refine WithinP.mk ?_
        assumption
      refine WithinP.app (State.homeTakeVb_within _ _ _) rfl ?_
      assumption
    refine Within.app (State.homeStep_within _ _ _ _ _ _ _ _ _) rfl ?_
    refine WithinP.eq (by assumption) ?_
    refine WithinP.ite ?_ ?_
    · refine WithinP.mk ?_
      assumption
    refine WithinP.app (State.homeTakeVb_within _ _ _) rfl ?_
    assumption
  · refine Within.ite ?_ ?_
    · refine Within.app (State.homeStep_within _ _ _ _ _ _ _ _ _) rfl ?_
      refine WithinP.eq (by assumption) ?_
      refine WithinP.ite ?_ ?_
      · refine WithinP.mk ?_
        assumption
      refine WithinP.app (State.homeTakeVb_within _ _ _) rfl ?_
      assumption
    refine Within.app (State.homeStep_within _ _ _ _ _ _ _ _ _) rfl ?_
    refine WithinP.eq (by assumption) ?_
    refine WithinP.ite ?_ ?_
    · refine WithinP.mk ?_
      assumption
    refine WithinP.app (State.homeTakeVb_within _ _ _) rfl ?_
    assumption
  · refine Within.app (State.homeStep_within _ _ _ _ _ _ _ _ _) rfl ?_
    refine WithinP.eq (by assumption) ?_
    refine WithinP.ite ?_ ?_
    · refine WithinP.mk ?_
      assumption
    refine WithinP.app (State.homeTakeVb_within _ _ _) rfl ?_
    assumption
  · refine Within.ite ?_ ?_
    · refine Within.app (State.homeStep_within _ _ _ _ _ _ _ _ _) rfl ?_
      refine WithinP.eq (by assumption) ?_
      refine WithinP.ite ?_ ?_
      · refine WithinP.mk ?_
        assumption
      refine WithinP.app (State.homeTakeVb_within _ _ _) rfl ?_
      assumption
    refine Within.ite ?_ ?_
    · refine Within.app (State.homeStep_within _ _ _ _ _ _ _ _ _) rfl ?_
      refine WithinP.eq (by assumption) ?_
      refine WithinP.ite ?_ ?_
      · refine WithinP.mk ?_
        assumption
      refine WithinP.app (State.homeTakeVb_within _ _ _) rfl ?_
      assumption
    refine Within.app (State.homeStep_within _ _ _ _ _ _ _ _ _) rfl ?_
    refine WithinP.eq (by assumption) ?_
    refine WithinP.ite ?_ ?_
    · refine WithinP.mk ?_
      assumption
    refine WithinP.app (State.homeTakeVb_within _ _ _) rfl ?_
    assumption
  · refine Within.ite ?_ ?_
    · refine Within.app (State.homeStep_within _ _ _ _ _ _ _ _ _) rfl ?_
      refine WithinP.eq (by assumption) ?_
      refine WithinP.ite ?_ ?_
      · refine WithinP.mk ?_
        assumption
      refine WithinP.app (State.homeTakeVb_within _ _ _) rfl ?_
      assumption
    refine Within.ite ?_ ?_
    · refine Within.app (State.homeStep_within _ _ _ _ _ _ _ _ _) rfl ?_
      refine WithinP.eq (by assumption) ?_
      refine WithinP.ite ?_ ?_
      · refine WithinP.mk ?_
        assumption
      refine WithinP.app (State.homeTakeVb_within _ _ _) rfl ?_
      assumption
    refine Within.app (State.homeStep_within _ _ _ _ _ _ _ _ _) rfl ?_
    refine WithinP.eq (by assumption) ?_
    refine WithinP.ite ?_ ?_
    · refine WithinP.mk ?_
      assumption
    refine WithinP.app (State.homeTakeVb_within _ _ _) rfl ?_
    assumption
  · refine Within.app (State.homeStep_within _ _ _ _ _ _ _ _ _) rfl ?_
    refine WithinP.eq (by assumption) ?_
    refine WithinP.ite ?_ ?_
    · refine WithinP.mk ?_
      assumption
    refine WithinP.app (State.homeTakeVb_within _ _ _) rfl ?_
    assumption
  · extract_lets +onlyGivenNames x
    clear_value x
    extract_lets +onlyGivenNames x
    clear_value x
    refine Within.app (State.homeStep_within _ _ _ _ _ _ _ _ _) rfl ?_
    refine WithinP.eq (by assumption) ?_
    refine WithinP.ite ?_ ?_
    · refine WithinP.mk ?_
      assumption
    refine WithinP.app (State.homeTakeVb_within _ _ _) rfl ?_
    assumption
  · refine Within.ite ?_ ?_
    · refine Within.app (State.homeStep_within _ _ _ _ _ _ _ _ _) rfl ?_
      refine WithinP.eq (by assumption) ?_
      refine WithinP.ite ?_ ?_
      · refine WithinP.mk ?_
        assumption
      refine WithinP.app (State.homeTakeVb_within _ _ _) rfl ?_
      assumption
    refine Within.app (State.homeStep_within _ _ _ _ _ _ _ _ _) rfl ?_
    refine WithinP.eq (by assumption) ?_
    refine WithinP.ite ?_ ?_
    · refine WithinP.mk ?_
      assumption
    refine WithinP.app (State.homeTakeVb_within _ _ _) rfl ?_
    assumption
  · refine WithinP.eq (by assumption) ?_
    refine WithinP.ite ?_ ?_
    · refine WithinP.mk ?_
      assumption
    refine WithinP.app (State.homeTakeVb_within _ _ _) rfl ?_
    assumption
  refine WithinP.eq (by assumption) ?_
  refine WithinP.ite ?_ ?_
  · refine WithinP.mk ?_
    assumption
  refine WithinP.app (State.homeTakeVb_within _ _ _) rfl ?_
  assumption

theorem State.startRecall_within (s : State) (a1) (a2) (a3) (a4) :
    WithinO { free := true, finds := true, due := true, trcCfg := true, irq := true, slices := true, banks := true, chans := true, far := true, near := true, memIo := true, hsf := true, bisnps := true, links := true, pba := true, hreqs := true, accs := true, fnc := true, xlts := true, xinv := true, rtrTx := true, pors := true, ledger := true, bkt := true, flip := true, ras := true, mgt := true, events := true, trc := true, outs := true } s (State.startRecall s a1 a2 a3 a4) := by
  unfold State.startRecall
  extract_lets +onlyGivenNames x
  clear_value x
  extract_lets +onlyGivenNames x
  clear_value x
  refine WithinO.map fun _ => ?_
  extract_lets +onlyGivenNames x
  clear_value x
  extract_lets +onlyGivenNames x
  clear_value x
  extract_lets +onlyGivenNames x
  clear_value x
  extract_lets +onlyGivenNames x
  refine Within.cut (x := x) ?_ ?_ <;> [(unfold x; clear x); (obtain ⟨y, e⟩ := named x; rewrite [← e]; clear e x; intro _)]
  · refine Within.app (State.setBank_within _ _ _) rfl ?_
    exact Within.refl _ _
  extract_lets +onlyGivenNames x
  refine Within.cut (x := x) ?_ ?_ <;> [(unfold x; clear x); (obtain ⟨y, e⟩ := named x; rewrite [← e]; clear e x; intro _)]
  · refine Within.app (State.event_within _ _ _ _) rfl ?_
    refine Within.app (State.modSlice_within _ _ _) rfl ?_
    assumption
  refine Within.app (State.homeFirst_within _ _ _) rfl ?_
  assumption

theorem State.dirAlloc_within (s : State) (a1) (a2) (a3) :
    WithinO { free := true, finds := true, due := true, trcCfg := true, irq := true, slices := true, banks := true, chans := true, far := true, near := true, memIo := true, hsf := true, bisnps := true, links := true, pba := true, hreqs := true, accs := true, fnc := true, xlts := true, xinv := true, rtrTx := true, pors := true, ledger := true, bkt := true, flip := true, ras := true, mgt := true, events := true, trc := true, outs := true } s (State.dirAlloc s a1 a2 a3) := by
  unfold State.dirAlloc
  extract_lets +onlyGivenNames x
  clear_value x
  split
  · exact WithinO.none _ _
  split
  · exact WithinO.none _ _
  extract_lets +onlyGivenNames x
  refine WithinO.cutS (x := x) ?_ ?_ <;> [(intro _; unfold x; clear x; try beta_reduce); (intro _; clear_value x)]
  · extract_lets +onlyGivenNames x
    clear_value x
    extract_lets +onlyGivenNames x
    refine Within.cut (x := x) ?_ ?_ <;> [(unfold x; clear x); (obtain ⟨y, e⟩ := named x; rewrite [← e]; clear e x; intro _)]
    · refine Within.app (State.setBank_within _ _ _) rfl ?_
      exact Within.refl _ _
    refine Within.app (State.modTrk_within _ _ _ _) rfl ?_
    assumption
  refine WithinO.ite ?_ ?_
  · refine WithinO.some ?_
    apply_assumption
  refine WithinO.mapS (fun _ => ?_) ?_
  · apply_assumption
  refine WithinO.app (State.startRecall_within _ _ _ _ _) rfl ?_
  exact Within.refl _ _

theorem State.homeSecond_within (s : State) (a1) (a2) :
    Within { free := true, finds := true, due := true, trcCfg := true, irq := true, slices := true, chans := true, far := true, near := true, memIo := true, bisnps := true, pba := true, hreqs := true, rtrTx := true, ledger := true, bkt := true, flip := true, ras := true, events := true, trc := true, outs := true } s (State.homeSecond s a1 a2) := by
  unfold State.homeSecond
  split
  · exact Within.refl _ _
  extract_lets +onlyGivenNames x
  refine Within.cut (x := x) ?_ ?_ <;> [(unfold x; clear x); (obtain ⟨y, e⟩ := named x; rewrite [← e]; clear e x; intro _)]
  · refine Within.app (State.modTrk_within _ _ _ _) rfl ?_
    exact Within.refl _ _
  split
  · refine Within.app (State.homeStep_within _ _ _ _ _ _ _ _ _) rfl ?_
    assumption
  refine Within.app (State.homeStep_within _ _ _ _ _ _ _ _ _) rfl ?_
  assumption

theorem State.wayCheck_within (s : State) (a1) (a2) (a3) (a4) (a5) :
    Within { free := true, finds := true, trcCfg := true, irq := true, slices := true, chans := true, near := true, memIo := true, pba := true, ledger := true, bkt := true, flip := true, events := true, trc := true, outs := true } s (State.wayCheck s a1 a2 a3 a4 a5) := by
  unfold State.wayCheck
  split
  refine Within.ite ?_ ?_
  · extract_lets +onlyGivenNames x
    refine Within.cut (x := x) ?_ ?_ <;> [(unfold x; clear x); (obtain ⟨y, e⟩ := named x; rewrite [← e]; clear e x; intro _)]
    · refine Within.app (State.ueData_within _ _ _ _ _) rfl ?_
      refine WithinP.get (State.readWay_within _ _ _ _ _) (by assumption) rfl ?_
      exact Within.refl _ _
    refine Within.ite ?_ ?_
    · refine Within.app (State.dropLine_within _ _ _ _ _) rfl ?_
      assumption
    refine Within.ite ?_ ?_
    · assumption
    refine Within.app (State.setLineState_within _ _ _ _ _) rfl ?_
    assumption
  refine WithinP.get (State.readWay_within _ _ _ _ _) (by assumption) rfl ?_
  exact Within.refl _ _

theorem State.homeRead_within (s : State) (a1) (a2) :
    Within { free := true, finds := true, trcCfg := true, irq := true, slices := true, chans := true, near := true, memIo := true, pba := true, ledger := true, bkt := true, flip := true, events := true, trc := true, outs := true } s (State.homeRead s a1 a2) := by
  unfold State.homeRead
  refine Within.ite ?_ ?_
  · exact Within.refl _ _
  split
  · refine Within.app (State.wayCheck_within _ _ _ _ _ _) rfl ?_
    exact Within.refl _ _
  exact Within.refl _ _

theorem State.setDir_within (s : State) (a1) (a2) (a3) (a4) (a5) :
    Within { free := true, finds := true, due := true, trcCfg := true, irq := true, slices := true, banks := true, chans := true, near := true, memIo := true, pba := true, ledger := true, bkt := true, flip := true, events := true, trc := true, outs := true } s (State.setDir s a1 a2 a3 a4 a5) := by
  unfold State.setDir
  split
  · exact Within.refl _ _
  split
  · exact Within.refl _ _
  extract_lets +onlyGivenNames x
  clear_value x
  extract_lets +onlyGivenNames x
  clear_value x
  extract_lets +onlyGivenNames x
  refine Within.cut (x := x) ?_ ?_ <;> [(unfold x; clear x); (obtain ⟨y, e⟩ := named x; rewrite [← e]; clear e x; intro _)]
  · refine Within.app (State.setBank_within _ _ _) rfl ?_
    exact Within.refl _ _
  refine Within.ite ?_ ?_
  · refine Within.app (State.modTrk_within _ _ _ _) rfl ?_
    assumption
  assumption

theorem State.tryClose_within (s : State) (a1) (a2) :
    Within { free := true, finds := true, due := true, trcCfg := true, irq := true, slices := true, banks := true, chans := true, near := true, memIo := true, pba := true, ledger := true, bkt := true, flip := true, events := true, trc := true, outs := true } s (State.tryClose s a1 a2) := by
  unfold State.tryClose
  split
  · refine Within.ite ?_ ?_
    · refine Within.app (State.closeTrk_within _ _ _) rfl ?_
      exact Within.refl _ _
    exact Within.refl _ _
  exact Within.refl _ _

theorem State.homeDone_within (s : State) (a1) (a2) (a3) :
    Within { free := true, finds := true, due := true, trcCfg := true, irq := true, slices := true, banks := true, chans := true, near := true, memIo := true, pba := true, ledger := true, bkt := true, flip := true, events := true, trc := true, outs := true } s (State.homeDone s a1 a2 a3) := by
  unfold State.homeDone
  refine Within.app (State.tryClose_within _ _ _) rfl ?_
  refine Within.app (State.modTrk_within _ _ _ _) rfl ?_
  exact Within.refl _ _

theorem State.homeMsg_within (s : State) (a1) (a2) (a3) (a4) (a5) (a6) :
    Within { rtrTx := true } s (State.homeMsg s a1 a2 a3 a4 a5 a6) := by
  unfold State.homeMsg
  extract_lets +onlyGivenNames x
  clear_value x
  extract_lets +onlyGivenNames x
  clear_value x
  split
  · refine Within.app (State.sendCoh_within _ _ _) rfl ?_
    exact Within.refl _ _
  · refine Within.app (State.sendGlob_within _ _ _) rfl ?_
    exact Within.refl _ _
  exact Within.refl _ _

theorem State.ownAnswer_within (s : State) (a1) (a2) (a3) (a4) :
    Within { slices := true } s (State.ownAnswer s a1 a2 a3 a4) := by
  unfold State.ownAnswer
  refine Within.app (State.modMr_within _ _ _ _) rfl ?_
  exact Within.refl _ _

theorem State.homeData_within (s : State) (a1) (a2) (a3) (a4) :
    Within { slices := true, rtrTx := true } s (State.homeData s a1 a2 a3 a4) := by
  unfold State.homeData
  split
  · refine Within.app (State.ownAnswer_within _ _ _ _ _) rfl ?_
    exact Within.refl _ _
  · refine Within.app (State.homeMsg_within _ _ _ _ _ _ _) rfl ?_
    exact Within.refl _ _
  refine Within.app (State.homeMsg_within _ _ _ _ _ _ _) rfl ?_
  exact Within.refl _ _

theorem State.putHome_within (s : State) (a1) (a2) (a3) (a4) :
    Within { free := true, trcCfg := true, irq := true, slices := true, chans := true, near := true, memIo := true, pba := true, ledger := true, flip := true, events := true, trc := true, outs := true } s (State.putHome s a1 a2 a3 a4) := by
  unfold State.putHome
  split
  · refine Within.app (State.setLineState_within _ _ _ _ _) rfl ?_
    refine Within.app (State.wayPut_within _ _ _ _ _ _) rfl ?_
    exact Within.refl _ _
  refine Within.app (State.farWriteLine_within _ _ _ _) rfl ?_
  exact Within.refl _ _

theorem State.homeAck_within (s : State) (a1) (a2) :
    Within { slices := true, rtrTx := true } s (State.homeAck s a1 a2) := by
  unfold State.homeAck
  split
  · refine Within.app (State.ownAnswer_within _ _ _ _ _) rfl ?_
    exact Within.refl _ _
  · refine Within.app (State.homeMsg_within _ _ _ _ _ _ _) rfl ?_
    exact Within.refl _ _
  refine Within.app (State.homeMsg_within _ _ _ _ _ _ _) rfl ?_
  exact Within.refl _ _

theorem State.homeFinish_within (s : State) (a1) (a2) :
    Within { free := true, finds := true, due := true, trcCfg := true, irq := true, slices := true, banks := true, chans := true, far := true, near := true, memIo := true, bisnps := true, pba := true, hreqs := true, rtrTx := true, ledger := true, bkt := true, flip := true, ras := true, events := true, trc := true, outs := true } s (State.homeFinish s a1 a2) := by
  unfold State.homeFinish
  extract_lets +onlyGivenNames x
  refine Within.cut (x := x) ?_ ?_ <;> [(unfold x; clear x); (obtain ⟨y, e⟩ := named x; rewrite [← e]; clear e x; intro _)]
  · split
    · refine Within.ite ?_ ?_
      · exact Within.refl _ _
      refine WithinP.snd (State.homeTakeVb_within _ _ _) rfl ?_
      exact Within.refl _ _
    exact Within.refl _ _
  split
  · assumption
  extract_lets +onlyGivenNames x
  clear_value x
  extract_lets +onlyGivenNames x
  clear_value x
  extract_lets +onlyGivenNames x
  clear_value x
  extract_lets +onlyGivenNames x
  clear_value x
  extract_lets +onlyGivenNames x
  clear_value x
  extract_lets +onlyGivenNames x
  clear_value x
  extract_lets +onlyGivenNames x
  clear_value x
  extract_lets +onlyGivenNames x
  refine Within.cut (x := x) ?_ ?_ <;> [(unfold x; clear x); (obtain ⟨y, e⟩ := named x; rewrite [← e]; clear e x; intro _)]
  · refine Within.ite ?_ ?_
    · refine Within.app (State.homeRead_within _ _ _) rfl ?_
      assumption
    assumption
  split
  · refine Within.app (State.homeStep_within _ _ _ _ _ _ _ _ _) rfl ?_
    assumption
  split
  · refine Within.ite ?_ ?_
    · extract_lets +onlyGivenNames x
      refine Within.cut (x := x) ?_ ?_ <;> [(unfold x; clear x); (obtain ⟨y, e⟩ := named x; rewrite [← e]; clear e x; intro _)]
      · refine Within.ite ?_ ?_
        · refine Within.app (State.setDir_within _ _ _ _ _ _) rfl ?_
          assumption
        refine Within.ite ?_ ?_
        · refine Within.app (State.setDir_within _ _ _ _ _ _) rfl ?_
          assumption
        refine Within.app (State.setDir_within _ _ _ _ _ _) rfl ?_
        assumption
      refine Within.app (State.homeDone_within _ _ _ _) rfl ?_
      assumption
    extract_lets +onlyGivenNames x
    clear_value x
    extract_lets +onlyGivenNames x
    clear_value x
    extract_lets +onlyGivenNames x
    refine Within.cut (x := x) ?_ ?_ <;> [(unfold x; clear x); (obtain ⟨y, e⟩ := named x; rewrite [← e]; clear e x; intro _)]
    · split
      · refine Within.ite ?_ ?_
        · refine Within.app (State.setLineState_within _ _ _ _ _) rfl ?_
          assumption
        refine Within.ite ?_ ?_
        · refine Within.app (State.setLineState_within _ _ _ _ _) rfl ?_
          assumption
        assumption
      refine Within.ite ?_ ?_
      · refine Within.app (State.farWriteLine_within _ _ _ _) rfl ?_
        assumption
      assumption
    extract_lets +onlyGivenNames x
    refine Within.cut (x := x) ?_ ?_ <;> [(unfold x; clear x); (obtain ⟨y, e⟩ := named x; rewrite [← e]; clear e x; intro _)]
    · refine Within.ite ?_ ?_
      · refine Within.app (State.setDir_within _ _ _ _ _ _) rfl ?_
        assumption
      refine Within.app (State.setDir_within _ _ _ _ _ _) rfl ?_
      assumption
    refine Within.app (State.homeDone_within _ _ _ _) rfl ?_
    refine Within.app (State.homeMsg_within _ _ _ _ _ _ _) rfl ?_
    assumption
  · extract_lets +onlyGivenNames x
    refine Within.cut (x := x) ?_ ?_ <;> [(unfold x; clear x); (obtain ⟨y, e⟩ := named x; rewrite [← e]; clear e x; intro _)]
    · refine Within.ite ?_ ?_
      · refine Within.app (State.farWriteLine_within _ _ _ _) rfl ?_
        assumption
      assumption
    extract_lets +onlyGivenNames x
    refine Within.cut (x := x) ?_ ?_ <;> [(unfold x; clear x); (obtain ⟨y, e⟩ := named x; rewrite [← e]; clear e x; intro _)]
    · refine Within.ite ?_ ?_
      · refine Within.app (State.setDir_within _ _ _ _ _ _) rfl ?_
        assumption
      assumption
    refine Within.app (State.homeDone_within _ _ _ _) rfl ?_
    refine Within.app (State.homeData_within _ _ _ _ _) rfl ?_
    assumption
  · split
    extract_lets +onlyGivenNames x
    refine Within.cut (x := x) ?_ ?_ <;> [(unfold x; clear x); (obtain ⟨y, e⟩ := named x; rewrite [← e]; clear e x; intro _)]
    · refine Within.app (State.dropHome_within _ _ _) rfl ?_
      assumption
    extract_lets +onlyGivenNames x
    refine Within.cut (x := x) ?_ ?_ <;> [(unfold x; clear x); (obtain ⟨y, e⟩ := named x; rewrite [← e]; clear e x; intro _)]
    · refine Within.app (State.setDir_within _ _ _ _ _ _) rfl ?_
      assumption
    refine Within.ite ?_ ?_
    · refine Within.app (State.homeDone_within _ _ _ _) rfl ?_
      assumption
    refine Within.ite ?_ ?_
    · refine Within.app (State.homeDone_within _ _ _ _) rfl ?_
      refine Within.app (State.homeMsg_within _ _ _ _ _ _ _) rfl ?_
      assumption
    refine Within.app (State.homeDone_within _ _ _ _) rfl ?_
    refine Within.app (State.homeMsg_within _ _ _ _ _ _ _) rfl ?_
    assumption
  · extract_lets +onlyGivenNames x
    refine Within.cut (x := x) ?_ ?_ <;> [(unfold x; clear x); (obtain ⟨y, e⟩ := named x; rewrite [← e]; clear e x; intro _)]
    · refine Within.ite ?_ ?_
      · split
        · split
          refine Within.app (State.farWriteLine_within _ _ _ _) rfl ?_
          assumption
        assumption
      refine Within.ite ?_ ?_
      · split
        · refine Within.app (State.farWriteLine_within _ _ _ _) rfl ?_
          assumption
        assumption
      assumption
    extract_lets +onlyGivenNames x
    refine Within.cut (x := x) ?_ ?_ <;> [(unfold x; clear x); (obtain ⟨y, e⟩ := named x; rewrite [← e]; clear e x; intro _)]
    · refine Within.app (State.dropHome_within _ _ _) rfl ?_
      assumption
    extract_lets +onlyGivenNames x
    refine Within.cut (x := x) ?_ ?_ <;> [(unfold x; clear x); (obtain ⟨y, e⟩ := named x; rewrite [← e]; clear e x; intro _)]
    · refine Within.app (State.setDir_within _ _ _ _ _ _) rfl ?_
      assumption
    refine Within.ite ?_ ?_
    · refine Within.app (State.homeDone_within _ _ _ _) rfl ?_
      refine Within.app (State.homeMsg_within _ _ _ _ _ _ _) rfl ?_
      assumption
    refine Within.ite ?_ ?_
    · refine Within.app (State.homeDone_within _ _ _ _) rfl ?_
      assumption
    refine Within.app (State.homeDone_within _ _ _ _) rfl ?_
    refine Within.app (State.homeMsg_within _ _ _ _ _ _ _) rfl ?_
    assumption
  · extract_lets +onlyGivenNames x
    refine Within.cut (x := x) ?_ ?_ <;> [(unfold x; clear x); (obtain ⟨y, e⟩ := named x; rewrite [← e]; clear e x; intro _)]
    · refine Within.ite ?_ ?_
      · refine Within.app (State.putHome_within _ _ _ _ _) rfl ?_
        assumption
      split
      · refine Within.app (State.putHome_within _ _ _ _ _) rfl ?_
        assumption
      refine Within.app (State.farWrite_within _ _ _ _ _) rfl ?_
      assumption
    refine Within.app (State.homeDone_within _ _ _ _) rfl ?_
    refine Within.app (State.homeAck_within _ _ _) rfl ?_
    refine Within.app (State.setDir_within _ _ _ _ _ _) rfl ?_
    assumption
  · split
    · split
      refine Within.app (State.homeDone_within _ _ _ _) rfl ?_
      refine Within.app (State.homeData_within _ _ _ _ _) rfl ?_
      refine Within.app (State.setDir_within _ _ _ _ _ _) rfl ?_
      refine WithinP.get (State.atomHere_within _ _ _ _ _ _ _ _) (by assumption) rfl ?_
      assumption
    refine Within.ite ?_ ?_
    · refine Within.app (State.modTrk_within _ _ _ _) rfl ?_
      refine Within.app (State.setDir_within _ _ _ _ _ _) rfl ?_
      assumption
    extract_lets +onlyGivenNames x
    refine Within.cut (x := x) ?_ ?_ <;> [(unfold x; clear x); (obtain ⟨y, e⟩ := named x; rewrite [← e]; clear e x; intro _)]
    · refine Within.app (State.setDir_within _ _ _ _ _ _) rfl ?_
      assumption
    refine Within.ite ?_ ?_
    · refine Within.app (State.homeDone_within _ _ _ _) rfl ?_
      refine Within.app (State.homeData_within _ _ _ _ _) rfl ?_
      assumption
    split
    refine Within.app (State.homeDone_within _ _ _ _) rfl ?_
    refine Within.app (State.homeData_within _ _ _ _ _) rfl ?_
    refine Within.app (State.farWriteLine_within _ _ _ _) rfl ?_
    assumption
  · extract_lets +onlyGivenNames x
    refine Within.cut (x := x) ?_ ?_ <;> [(unfold x; clear x); (obtain ⟨y, e⟩ := named x; rewrite [← e]; clear e x; intro _)]
    · refine Within.ite ?_ ?_
      · refine Within.ite ?_ ?_
        · refine Within.app (State.setDir_within _ _ _ _ _ _) rfl ?_
          assumption
        refine Within.app (State.setDir_within _ _ _ _ _ _) rfl ?_
        assumption
      refine Within.ite ?_ ?_
      · refine Within.app (State.setDir_within _ _ _ _ _ _) rfl ?_
        assumption
      assumption
    extract_lets +onlyGivenNames x
    refine Within.cut (x := x) ?_ ?_ <;> [(unfold x; clear x); (obtain ⟨y, e⟩ := named x; rewrite [← e]; clear e x; intro _)]
    · refine Within.ite ?_ ?_
      · refine Within.app (State.farWriteLine_within _ _ _ _) rfl ?_
        assumption
      assumption
    extract_lets +onlyGivenNames x
    clear_value x
    split
    · refine Within.app (State.modTrk_within _ _ _ _) rfl ?_
      refine Within.app (State.ownAnswer_within _ _ _ _ _) rfl ?_
      assumption
    assumption
  · extract_lets +onlyGivenNames x
    refine Within.cut (x := x) ?_ ?_ <;> [(unfold x; clear x); (obtain ⟨y, e⟩ := named x; rewrite [← e]; clear e x; intro _)]
    · refine Within.app (State.setDir_within _ _ _ _ _ _) rfl ?_
      assumption
    split
    · refine Within.app (State.modTrk_within _ _ _ _) rfl ?_
      refine Within.app (State.ownAnswer_within _ _ _ _ _) rfl ?_
      assumption
    assumption
  · extract_lets +onlyGivenNames x
    refine Within.cut (x := x) ?_ ?_ <;> [(unfold x; clear x); (obtain ⟨y, e⟩ := named x; rewrite [← e]; clear e x; intro _)]
    · split
      · refine Within.ite ?_ ?_
        · refine Within.app (State.farWriteLine_within _ _ _ _) rfl ?_
          assumption
        assumption
      assumption
    refine Within.app (State.homeDone_within _ _ _ _) rfl ?_
    assumption
  · assumption
  assumption

theorem State.homeGo_within (s : State) (a1) (a2) :
    Within { free := true, finds := true, due := true, trcCfg := true, irq := true, slices := true, banks := true, chans := true, far := true, near := true, memIo := true, bisnps := true, pba := true, hreqs := true, rtrTx := true, ledger := true, bkt := true, flip := true, ras := true, events := true, trc := true, outs := true } s (State.homeGo s a1 a2) := by
  unfold State.homeGo
  split
  · exact Within.refl _ _
  refine Within.ite ?_ ?_
  · exact Within.refl _ _
  refine Within.ite ?_ ?_
  · extract_lets +onlyGivenNames x
    refine Within.cut (x := x) ?_ ?_ <;> [(unfold x; clear x); (obtain ⟨y, e⟩ := named x; rewrite [← e]; clear e x; intro _)]
    · refine Within.app (State.homeSecond_within _ _ _) rfl ?_
      exact Within.refl _ _
    split
    · refine Within.ite ?_ ?_
      · refine Within.app (State.homeFinish_within _ _ _) rfl ?_
        assumption
      assumption
    assumption
  refine Within.app (State.homeFinish_within _ _ _) rfl ?_
  exact Within.refl _ _

theorem State.homeBegin_within (s : State) (a1) (a2) :
    Within { free := true, finds := true, due := true, trcCfg := true, irq := true, slices := true, banks := true, chans := true, far := true, near := true, memIo := true, hsf := true, bisnps := true, links := true, pba := true, hreqs := true, accs := true, fnc := true, xlts := true, xinv := true, rtrTx := true, pors := true, ledger := true, bkt := true, flip := true, ras := true, mgt := true, events := true, trc := true, outs := true } s (State.homeBegin s a1 a2) := by
  unfold State.homeBegin
  refine Within.ite ?_ ?_
  · refine Within.app (State.event_within _ _ _ _) rfl ?_
    refine Within.app (State.modTrk_within _ _ _ _) rfl ?_
    exact Within.refl _ _
  refine Within.app (State.homeGo_within _ _ _) rfl ?_
  refine Within.app (State.homeFirst_within _ _ _) rfl ?_
  exact Within.refl _ _

theorem State.extendMr_within (s : State) (a1) (a2) (a3) :
    Within { hreqs := true } s (State.extendMr s a1 a2 a3) := by
  unfold State.extendMr
  split
  · exact Within.refl _ _
  refine Within.foldl (fun _ _ => ?_) ?_
  · refine Within.app (State.extend_within _ _ _) rfl ?_
    exact Within.refl _ _
  exact Within.refl _ _

theorem State.withEntry_within (s : State) (a1) (a2) (a3) :
    Within { free := true, finds := true, due := true, trcCfg := true, irq := true, slices := true, banks := true, chans := true, near := true, memIo := true, pba := true, ledger := true, bkt := true, flip := true, events := true, trc := true, outs := true } s (State.withEntry s a1 a2 a3) := by
  unfold State.withEntry
  split
  · refine Within.app (State.modTrk_within _ _ _ _) rfl ?_
    exact Within.refl _ _
  extract_lets +onlyGivenNames x
  clear_value x
  extract_lets +onlyGivenNames x
  clear_value x
  extract_lets +onlyGivenNames x
  refine Within.cut (x := x) ?_ ?_ <;> [(unfold x; clear x); (obtain ⟨y, e⟩ := named x; rewrite [← e]; clear e x; intro _)]
  · refine Within.app (State.setBank_within _ _ _) rfl ?_
    exact Within.refl _ _
  refine Within.app (State.modTrk_within _ _ _ _) rfl ?_
  assumption

theorem State.homeInstall_within (s : State) (a1) (a2) (a3) (a4) (a5) :
    WithinO { free := true, slices := true, chans := true, near := true, memIo := true, flip := true, events := true } s (State.homeInstall s a1 a2 a3 a4 a5) := by
  unfold State.homeInstall
  refine WithinO.ite ?_ ?_
  · exact WithinO.none _ _
  refine WithinO.map fun _ => ?_
  refine Within.app (State.install_within _ _ _ _ _ _ _ _ _) rfl ?_
  exact Within.refl _ _

theorem State.homeEvict_within (s : State) (a1) (a2) :
    Within { free := true, finds := true, due := true, trcCfg := true, irq := true, slices := true, banks := true, chans := true, near := true, memIo := true, pba := true, rtrTx := true, ledger := true, bkt := true, flip := true, events := true, trc := true, outs := true } s (State.homeEvict s a1 a2) := by
  unfold State.homeEvict
  split
  · exact Within.refl _ _
  extract_lets +onlyGivenNames x
  clear_value x
  extract_lets +onlyGivenNames x
  clear_value x
  refine Within.ite ?_ ?_
  · refine Within.app (State.event_within _ _ _ _) rfl ?_
    refine Within.app (State.modTrk_within _ _ _ _) rfl ?_
    exact Within.refl _ _
  extract_lets +onlyGivenNames x
  refine Within.cut (x := x) ?_ ?_ <;> [(unfold x; clear x); (obtain ⟨y, e⟩ := named x; rewrite [← e]; clear e x; intro _)]
  · refine Within.app (State.homeTouch_within _ _ _) rfl ?_
    exact Within.refl _ _
  refine Within.ite ?_ ?_
  · refine Within.ite ?_ ?_
    · extract_lets +onlyGivenNames x
      clear_value x
      extract_lets +onlyGivenNames x
      refine Within.cut (x := x) ?_ ?_ <;> [(unfold x; clear x); (obtain ⟨y, e⟩ := named x; rewrite [← e]; clear e x; intro _)]
      · refine Within.ite ?_ ?_
        · refine Within.app (State.setDir_within _ _ _ _ _ _) rfl ?_
          assumption
        refine Within.app (State.setDir_within _ _ _ _ _ _) rfl ?_
        assumption
      extract_lets +onlyGivenNames x
      refine Within.cut (x := x) ?_ ?_ <;> [(unfold x; clear x); (obtain ⟨y, e⟩ := named x; rewrite [← e]; clear e x; intro _)]
      · split
        · refine WithinO.get (State.homeInstall_within _ _ _ _ _ _) (by assumption) rfl ?_
          assumption
        refine Within.app (State.farWriteLine_within _ _ _ _) rfl ?_
        assumption
      refine Within.app (State.homeDone_within _ _ _ _) rfl ?_
      refine Within.app (State.homeMsg_within _ _ _ _ _ _ _) rfl ?_
      assumption
    refine Within.app (State.homeDone_within _ _ _ _) rfl ?_
    refine Within.app (State.rec__within _ _ _ _ _ _) rfl ?_
    assumption
  extract_lets +onlyGivenNames x
  clear_value x
  refine Within.ite ?_ ?_
  · refine Within.app (State.homeDone_within _ _ _ _) rfl ?_
    assumption
  extract_lets +onlyGivenNames x
  clear_value x
  extract_lets +onlyGivenNames x
  refine Within.cut (x := x) ?_ ?_ <;> [(unfold x; clear x); (obtain ⟨y, e⟩ := named x; rewrite [← e]; clear e x; intro _)]
  · refine Within.ite ?_ ?_
    · refine Within.app (State.setDir_within _ _ _ _ _ _) rfl ?_
      assumption
    refine Within.app (State.setDir_within _ _ _ _ _ _) rfl ?_
    assumption
  extract_lets +onlyGivenNames x
  refine Within.cut (x := x) ?_ ?_ <;> [(unfold x; clear x); (obtain ⟨y, e⟩ := named x; rewrite [← e]; clear e x; intro _)]
  · refine Within.ite ?_ ?_
    · split
      · refine Within.app (State.event_within _ _ _ _) rfl ?_
        refine WithinO.get (State.homeInstall_within _ _ _ _ _ _) (by assumption) rfl ?_
        assumption
      assumption
    assumption
  refine Within.app (State.homeDone_within _ _ _ _) rfl ?_
  assumption

theorem State.sendRetry_within (s : State) (a1) (a2) (a3) :
    Within { slices := true, rtrTx := true, events := true } s (State.sendRetry s a1 a2 a3) := by
  unfold State.sendRetry
  extract_lets +onlyGivenNames x
  clear_value x
  extract_lets +onlyGivenNames x
  clear_value x
  extract_lets +onlyGivenNames x
  clear_value x
  extract_lets +onlyGivenNames x
  refine Within.cut (x := x) ?_ ?_ <;> [(unfold x; clear x); (obtain ⟨y, e⟩ := named x; rewrite [← e]; clear e x; intro _)]
  · refine Within.app (State.sendCoh_within _ _ _) rfl ?_
    exact Within.refl _ _
  refine Within.ite ?_ ?_
  · refine Within.app (State.event_within _ _ _ _) rfl ?_
    refine Within.app (State.modSlice_within _ _ _) rfl ?_
    assumption
  refine Within.app (State.event_within _ _ _ _) rfl ?_
  assumption

theorem State.homeKnown_within (s : State) (a1) (a2) (a3) :
    Within { free := true, finds := true, due := true, trcCfg := true, irq := true, slices := true, banks := true, chans := true, far := true, near := true, memIo := true, hsf := true, bisnps := true, links := true, pba := true, hreqs := true, accs := true, fnc := true, xlts := true, xinv := true, rtrTx := true, pors := true, ledger := true, bkt := true, flip := true, ras := true, mgt := true, events := true, trc := true, outs := true } s (State.homeKnown s a1 a2 a3) := by
  unfold State.homeKnown
  extract_lets +onlyGivenNames x
  refine Within.cut (x := x) ?_ ?_ <;> [(unfold x; clear x); (obtain ⟨y, e⟩ := named x; rewrite [← e]; clear e x; intro _)]
  · refine Within.app (State.withEntry_within _ _ _ _) rfl ?_
    exact Within.refl _ _
  split
  · assumption
  extract_lets +onlyGivenNames x
  clear_value x
  refine Within.ite ?_ ?_
  · refine Within.app (State.homeEvict_within _ _ _) rfl ?_
    assumption
  refine Within.ite ?_ ?_
  · split
    · refine Within.app (State.homeBegin_within _ _ _) rfl ?_
      refine WithinO.get (State.dirAlloc_within _ _ _ _) (by assumption) rfl ?_
      assumption
    split
    · refine Within.ite ?_ ?_
      · refine Within.app (State.modTrk_within _ _ _ _) rfl ?_
        assumption
      refine Within.app (State.sendRetry_within _ _ _ _) rfl ?_
      refine Within.app (State.dropTrk_within _ _ _) rfl ?_
      assumption
    assumption
  refine Within.app (State.homeBegin_within _ _ _) rfl ?_
  assumption

theorem State.homeLook_within (s : State) (a1) (a2) :
    Within { free := true, finds := true, due := true, trcCfg := true, irq := true, slices := true, banks := true, chans := true, far := true, near := true, memIo := true, hsf := true, bisnps := true, links := true, pba := true, hreqs := true, accs := true, fnc := true, xlts := true, xinv := true, rtrTx := true, dom := true, pors := true, ledger := true, bkt := true, flip := true, ras := true, mgt := true, events := true, trc := true, outs := true } s (State.homeLook s a1 a2) := by
  unfold State.homeLook
  split
  · exact Within.refl _ _
  extract_lets +onlyGivenNames x
  clear_value x
  extract_lets +onlyGivenNames x
  clear_value x
  extract_lets +onlyGivenNames x
  refine Within.cut (x := x) ?_ ?_ <;> [(unfold x; clear x); (obtain ⟨y, e⟩ := named x; rewrite [← e]; clear e x; intro _)]
  · refine Within.app (State.modTrk_within _ _ _ _) rfl ?_
    refine Within.app (State.event_within _ _ _ _) rfl ?_
    exact Within.refl _ _
  refine Within.ite ?_ ?_
  · refine Within.app (State.homeKnown_within _ _ _ _) rfl ?_
    assumption
  refine Within.ite ?_ ?_
  · refine Within.app (State.homeKnown_within _ _ _ _) rfl ?_
    refine Within.app (State.dirLose_within _ _) rfl ?_
    assumption
  refine Within.ite ?_ ?_
  · split
    · refine Within.app (State.homeKnown_within _ _ _ _) rfl ?_
      refine Within.app (State.sweepEnt_within _ _ _ _) rfl ?_
      assumption
    refine Within.app (State.homeKnown_within _ _ _ _) rfl ?_
    assumption
  extract_lets +onlyGivenNames x
  refine Within.cutS (x := x) ?_ ?_ <;> [(intro _; unfold x; clear x; try beta_reduce); (intro _; clear_value x)]
  · refine Within.app (State.modTrk_within _ _ _ _) rfl ?_
    refine Within.app (State.dirFetch_within _ _ _) rfl ?_
    refine Within.app (State.event_within _ _ _ _) rfl ?_
    exact Within.refl _ _
  split
  · refine Within.ite ?_ ?_
    · refine Within.app (State.homeKnown_within _ _ _ _) rfl ?_
      assumption
    extract_lets +onlyGivenNames x
    refine Within.cut (x := x) ?_ ?_ <;> [(unfold x; clear x); (obtain ⟨y, e⟩ := named x; rewrite [← e]; clear e x; intro _)]
    · refine Within.app (State.rec__within _ _ _ _ _ _) rfl ?_
      refine Within.app (State.event_within _ _ _ _) rfl ?_
      assumption
    refine Within.ite ?_ ?_
    · refine Within.app (State.fatal_within _ _ _) rfl ?_
      assumption
    refine Within.callS (by assumption) ?_
    refine Within.app (State.setBank_within _ _ _) rfl ?_
    assumption
  refine Within.callS (by assumption) ?_
  assumption

theorem State.homeTake_within (s : State) (a1) (a2) (a3) (a4) :
    Within { free := true, finds := true, due := true, trcCfg := true, irq := true, slices := true, banks := true, chans := true, far := true, near := true, memIo := true, hsf := true, bisnps := true, links := true, pba := true, hreqs := true, accs := true, fnc := true, xlts := true, xinv := true, rtrTx := true, dom := true, pors := true, ledger := true, bkt := true, flip := true, ras := true, mgt := true, events := true, trc := true, outs := true } s (State.homeTake s a1 a2 a3 a4) := by
  unfold State.homeTake
  extract_lets +onlyGivenNames x
  clear_value x
  extract_lets +onlyGivenNames x
  clear_value x
  extract_lets +onlyGivenNames x
  clear_value x
  extract_lets +onlyGivenNames x
  refine Within.cut (x := x) ?_ ?_ <;> [(unfold x; clear x); (obtain ⟨y, e⟩ := named x; rewrite [← e]; clear e x; intro _)]
  · refine Within.app (State.modSlice_within _ _ _) rfl ?_
    refine Within.app (State.dropTrk_within _ _ _) rfl ?_
    exact Within.refl _ _
  extract_lets +onlyGivenNames x
  refine Within.cut (x := x) ?_ ?_ <;> [(unfold x; clear x); (obtain ⟨y, e⟩ := named x; rewrite [← e]; clear e x; intro _)]
  · split
    · refine Within.app (State.markIssued_within _ _) rfl ?_
      assumption
    assumption
  refine Within.ite ?_ ?_
  · extract_lets +onlyGivenNames x
    refine Within.cut (x := x) ?_ ?_ <;> [(unfold x; clear x); (obtain ⟨y, e⟩ := named x; rewrite [← e]; clear e x; intro _)]
    · refine Within.app (State.event_within _ _ _ _) rfl ?_
      assumption
    split
    · refine Within.app (State.extendMr_within _ _ _ _) rfl ?_
      assumption
    assumption
  refine Within.app (State.homeLook_within _ _ _) rfl ?_
  assumption

theorem State.homeOwn_within (s : State) (a1) (a2) :
    Within { free := true, finds := true, due := true, trcCfg := true, irq := true, slices := true, banks := true, chans := true, far := true, near := true, memIo := true, hsf := true, bisnps := true, links := true, pba := true, hreqs := true, accs := true, fnc := true, xlts := true, xinv := true, rtrTx := true, dom := true, pors := true, ledger := true, bkt := true, flip := true, ras := true, mgt := true, events := true, trc := true, outs := true } s (State.homeOwn s a1 a2) := by
  unfold State.homeOwn
  split
  · exact Within.refl _ _
  refine Within.ite ?_ ?_
  · exact Within.refl _ _
  split
  · refine Within.app (State.event_within _ _ _ _) rfl ?_
    exact Within.refl _ _
  refine Within.app (State.homeTake_within _ _ _ _ _) rfl ?_
  exact Within.refl _ _

theorem State.chainStart_within (s : State) (a1) (a2) :
    Within { free := true, finds := true, due := true, trcCfg := true, irq := true, slices := true, banks := true, chans := true, far := true, near := true, memIo := true, hsf := true, bisnps := true, links := true, pba := true, hreqs := true, accs := true, fnc := true, xlts := true, xinv := true, rtrTx := true, dom := true, pors := true, ledger := true, bkt := true, flip := true, ras := true, mgt := true, events := true, trc := true, outs := true } s (State.chainStart s a1 a2) := by
  unfold State.chainStart
  split
  · refine Within.ite ?_ ?_
    · split
      · refine Within.app (State.homeBegin_within _ _ _) rfl ?_
        refine WithinO.get (State.dirAlloc_within _ _ _ _) (by assumption) rfl ?_
        exact Within.refl _ _
      exact Within.refl _ _
    exact Within.refl _ _
  split
  · split
    · refine Within.app (State.homeOwn_within _ _ _) rfl ?_
      exact Within.refl _ _
    exact Within.refl _ _
  extract_lets +onlyGivenNames x
  clear_value x
  refine Within.app (State.homeLook_within _ _ _) rfl ?_
  refine Within.app (State.modTrk_within _ _ _ _) rfl ?_
  exact Within.refl _ _

theorem State.offerIn_within (s : State) (a1) (a2) (a3) :
    Within { free := true, finds := true, due := true, trcCfg := true, irq := true, slices := true, banks := true, chans := true, far := true, near := true, memIo := true, bisnps := true, pba := true, hreqs := true, rtrTx := true, ledger := true, bkt := true, flip := true, ras := true, events := true, trc := true, outs := true } s (State.offerIn s a1 a2 a3) := by
  unfold State.offerIn
  split
  · exact Within.refl _ _
  extract_lets +onlyGivenNames x
  refine Within.cut (x := x) ?_ ?_ <;> [(unfold x; clear x); (obtain ⟨y, e⟩ := named x; rewrite [← e]; clear e x; intro _)]
  · refine Within.app (State.modTrk_within _ _ _ _) rfl ?_
    exact Within.refl _ _
  extract_lets +onlyGivenNames x
  refine Within.cut (x := x) ?_ ?_ <;> [(unfold x; clear x); (obtain ⟨y, e⟩ := named x; rewrite [← e]; clear e x; intro _)]
  · refine Within.ite ?_ ?_
    · split
      · refine Within.app (State.event_within _ _ _ _) rfl ?_
        refine WithinO.get (State.homeInstall_within _ _ _ _ _ _) (by assumption) rfl ?_
        assumption
      assumption
    assumption
  refine Within.app (State.homeGo_within _ _ _) rfl ?_
  assumption

theorem State.crossing_within (s : State) (a1) (a2) (a3) :
    WithinO { free := true, finds := true, due := true, trcCfg := true, irq := true, slices := true, banks := true, chans := true, far := true, near := true, memIo := true, bisnps := true, pba := true, hreqs := true, rtrTx := true, ledger := true, bkt := true, flip := true, ras := true, events := true, trc := true, outs := true } s (State.crossing s a1 a2 a3) := by
  unfold State.crossing
  extract_lets +onlyGivenNames x
  clear_value x
  split
  · exact WithinO.none _ _
  refine WithinO.ite ?_ ?_
  · refine WithinO.ite ?_ ?_
    · refine WithinO.some ?_
      refine Within.app (State.tryClose_within _ _ _) rfl ?_
      refine Within.app (State.modTrk_within _ _ _ _) rfl ?_
      exact Within.refl _ _
    refine WithinO.ite ?_ ?_
    · refine WithinO.some ?_
      refine Within.app (State.modTrk_within _ _ _ _) rfl ?_
      exact Within.refl _ _
    exact WithinO.none _ _
  refine WithinO.ite ?_ ?_
  · refine WithinO.some ?_
    refine Within.app (State.modTrk_within _ _ _ _) rfl ?_
    exact Within.refl _ _
  refine WithinO.ite ?_ ?_
  · refine WithinO.some ?_
    refine Within.app (State.offerIn_within _ _ _ _) rfl ?_
    exact Within.refl _ _
  exact WithinO.none _ _

theorem State.dirReadDone_within (s : State) (a1) (a2) (a3) :
    Within { free := true, finds := true, due := true, trcCfg := true, irq := true, slices := true, banks := true, chans := true, far := true, near := true, memIo := true, hsf := true, bisnps := true, links := true, pba := true, hreqs := true, accs := true, fnc := true, xlts := true, xinv := true, rtrTx := true, dom := true, pors := true, ledger := true, bkt := true, flip := true, ras := true, mgt := true, events := true, trc := true, outs := true } s (State.dirReadDone s a1 a2 a3) := by
  unfold State.dirReadDone
  split
  · exact Within.refl _ _
  extract_lets +onlyGivenNames x
  clear_value x
  extract_lets +onlyGivenNames x
  clear_value x
  refine Within.ite ?_ ?_
  · exact Within.refl _ _
  refine Within.ite ?_ ?_
  · refine Within.app (State.homeLook_within _ _ _) rfl ?_
    exact Within.refl _ _
  refine Within.ite ?_ ?_
  · refine Within.app (State.fatal_within _ _ _) rfl ?_
    refine Within.app (State.ueData_within _ _ _ _ _) rfl ?_
    exact Within.refl _ _
  extract_lets +onlyGivenNames x
  refine Within.cut (x := x) ?_ ?_ <;> [(unfold x; clear x); (obtain ⟨y, e⟩ := named x; rewrite [← e]; clear e x; intro _)]
  · refine Within.foldl (fun _ _ => ?_) ?_
    · refine Within.ite ?_ ?_
      · split
        refine Within.app (State.ceWay_within _ _ _ _) rfl ?_
        refine Within.app (State.bucket_within _ _) rfl ?_
        exact Within.refl _ _
      exact Within.refl _ _
    exact Within.refl _ _
  refine Within.ite ?_ ?_
  · extract_lets +onlyGivenNames x
    refine Within.cut (x := x) ?_ ?_ <;> [(unfold x; clear x); (obtain ⟨y, e⟩ := named x; rewrite [← e]; clear e x; intro _)]
    · split
      · refine Within.app (State.extendMr_within _ _ _ _) rfl ?_
        assumption
      assumption
    refine Within.app (State.modTrk_within _ _ _ _) rfl ?_
    assumption
  refine Within.app (State.homeKnown_within _ _ _ _) rfl ?_
  assumption

theorem State.nack_within (s : State) (a1) (a2) (a3) (a4) :
    Within { trcCfg := true, irq := true, pba := true, rtrTx := true, ledger := true, events := true, trc := true, outs := true } s (State.nack s a1 a2 a3 a4) := by
  unfold State.nack
  extract_lets +onlyGivenNames x
  clear_value x
  extract_lets +onlyGivenNames x
  refine Within.cut (x := x) ?_ ?_ <;> [(unfold x; clear x); (obtain ⟨y, e⟩ := named x; rewrite [← e]; clear e x; intro _)]
  · refine Within.app (State.rec__within _ _ _ _ _ _) rfl ?_
    exact Within.refl _ _
  refine Within.ite ?_ ?_
  · refine Within.app (State.sendGlob_within _ _ _) rfl ?_
    assumption
  refine Within.app (State.sendCoh_within _ _ _) rfl ?_
  assumption

theorem State.globRequest_within (s : State) (a1) (a2) :
    Within { free := true, finds := true, due := true, trcCfg := true, irq := true, slices := true, banks := true, chans := true, far := true, near := true, memIo := true, hsf := true, bisnps := true, links := true, pba := true, hreqs := true, accs := true, fnc := true, xlts := true, xinv := true, rtrTx := true, rtrRx := true, dom := true, pors := true, ledger := true, bkt := true, flip := true, ras := true, mgt := true, events := true, trc := true, outs := true } s (State.globRequest s a1 a2) := by
  unfold State.globRequest
  extract_lets +onlyGivenNames x
  refine Within.cut (x := x) ?_ ?_ <;> [(unfold x; clear x); (obtain ⟨y, e⟩ := named x; rewrite [← e]; clear e x; intro _)]
  · refine Within.app (State.consumeCoh_within _ _ _) rfl ?_
    exact Within.refl _ _
  extract_lets +onlyGivenNames x
  clear_value x
  extract_lets +onlyGivenNames x
  clear_value x
  extract_lets +onlyGivenNames x
  clear_value x
  refine Within.ite ?_ ?_
  · assumption
  refine Within.ite ?_ ?_
  · refine Within.app (State.rec__within _ _ _ _ _ _) rfl ?_
    assumption
  refine Within.ite ?_ ?_
  · refine Within.app (State.nack_within _ _ _ _ _) rfl ?_
    assumption
  refine Within.ite ?_ ?_
  · refine Within.app (State.nack_within _ _ _ _ _) rfl ?_
    assumption
  refine Within.ite ?_ ?_
  · refine Within.app (State.sendGlob_within _ _ _) rfl ?_
    refine Within.app (State.rec__within _ _ _ _ _ _) rfl ?_
    assumption
  refine Within.ite ?_ ?_
  · refine Within.app (State.sendGlob_within _ _ _) rfl ?_
    refine Within.app (State.rec__within _ _ _ _ _ _) rfl ?_
    assumption
  split
  · refine Within.app (State.homeTake_within _ _ _ _ _) rfl ?_
    assumption
  refine Within.app (State.sendGlob_within _ _ _) rfl ?_
  assumption

theorem State.takeEvict_within (s : State) (a1) (a2) :
    Within { free := true, finds := true, due := true, trcCfg := true, irq := true, slices := true, banks := true, chans := true, far := true, near := true, memIo := true, hsf := true, bisnps := true, links := true, pba := true, hreqs := true, accs := true, fnc := true, xlts := true, xinv := true, rtrTx := true, rtrRx := true, dom := true, pors := true, ledger := true, bkt := true, flip := true, ras := true, mgt := true, events := true, trc := true, outs := true } s (State.takeEvict s a1 a2) := by
  unfold State.takeEvict
  extract_lets +onlyGivenNames x
  clear_value x
  extract_lets +onlyGivenNames x
  clear_value x
  refine Within.ite ?_ ?_
  · refine Within.app (State.homeTake_within _ _ _ _ _) rfl ?_
    exact Within.refl _ _
  split
  · refine Within.app (State.homeTake_within _ _ _ _ _) rfl ?_
    exact Within.refl _ _
  with_reducible (apply Within.upd <;> try first | exact .inl rfl | exact .inr rfl | exact id | assumption | exact Within.refl _ _)

theorem State.homeAnswer_within (s : State) (a1) (a2) :
    Within { free := true, finds := true, due := true, trcCfg := true, irq := true, slices := true, banks := true, chans := true, far := true, near := true, memIo := true, hsf := true, bisnps := true, links := true, pba := true, hreqs := true, accs := true, fnc := true, xlts := true, xinv := true, rtrTx := true, rtrRx := true, dom := true, pors := true, ledger := true, bkt := true, flip := true, ras := true, mgt := true, events := true, trc := true, outs := true } s (State.homeAnswer s a1 a2) := by
  unfold State.homeAnswer
  extract_lets +onlyGivenNames x
  clear_value x
  split
  · exact Within.refl _ _
  refine Within.ite ?_ ?_
  · exact Within.refl _ _
  extract_lets +onlyGivenNames x
  clear_value x
  extract_lets +onlyGivenNames x
  clear_value x
  extract_lets +onlyGivenNames x
  refine Within.cutS (x := x) ?_ ?_ <;> [(intro _; unfold x; clear x; try beta_reduce); (intro _; clear_value x)]
  · split
    · extract_lets +onlyGivenNames x
      refine Within.cut (x := x) ?_ ?_ <;> [(unfold x; clear x); (obtain ⟨y, e⟩ := named x; rewrite [← e]; clear e x; intro _)]
      · refine Within.app (State.modTrk_within _ _ _ _) rfl ?_
        exact Within.refl _ _
      refine Within.ite ?_ ?_
      · assumption
      refine Within.app (State.takeEvict_within _ _ _) rfl ?_
      assumption
    refine Within.ite ?_ ?_
    · exact Within.refl _ _
    split
    · refine Within.app (State.dropTrk_within _ _ _) rfl ?_
      exact Within.refl _ _
    refine Within.app (State.modTrk_within _ _ _ _) rfl ?_
    exact Within.refl _ _
  refine Within.ite ?_ ?_
  · refine Within.app (State.homeGo_within _ _ _) rfl ?_
    refine Within.app (State.modTrk_within _ _ _ _) rfl ?_
    apply_assumption
  refine Within.ite ?_ ?_
  · refine Within.ite ?_ ?_
    · refine Within.ite ?_ ?_
      · refine Within.app (State.tryClose_within _ _ _) rfl ?_
        refine Within.app (State.modTrk_within _ _ _ _) rfl ?_
        exact Within.refl _ _
      refine Within.ite ?_ ?_
      · split
        · refine Within.app (State.offerIn_within _ _ _ _) rfl ?_
          refine Within.app (State.modTrk_within _ _ _ _) rfl ?_
          exact Within.refl _ _
        exact Within.refl _ _
      split
      · split
        · refine Within.app (State.offerIn_within _ _ _ _) rfl ?_
          refine Within.app (State.modTrk_within _ _ _ _) rfl ?_
          refine Within.app (State.dropTrk_within _ _ _) rfl ?_
          exact Within.refl _ _
        exact Within.refl _ _
      refine Within.app (State.modTrk_within _ _ _ _) rfl ?_
      exact Within.refl _ _
    refine Within.ite ?_ ?_
    · refine Within.app (State.tryClose_within _ _ _) rfl ?_
      refine Within.app (State.modTrk_within _ _ _ _) rfl ?_
      exact Within.refl _ _
    extract_lets +onlyGivenNames x
    clear_value x
    extract_lets +onlyGivenNames x
    clear_value x
    extract_lets +onlyGivenNames x
    refine Within.cut (x := x) ?_ ?_ <;> [(unfold x; clear x); (obtain ⟨y, e⟩ := named x; rewrite [← e]; clear e x; intro _)]
    · refine Within.app (State.modTrk_within _ _ _ _) rfl ?_
      apply_assumption
    extract_lets +onlyGivenNames x
    refine Within.cut (x := x) ?_ ?_ <;> [(unfold x; clear x); (obtain ⟨y, e⟩ := named x; rewrite [← e]; clear e x; intro _)]
    · refine Within.ite ?_ ?_
      · refine Within.app (State.farWriteLine_within _ _ _ _) rfl ?_
        assumption
      assumption
    refine Within.app (State.homeGo_within _ _ _) rfl ?_
    assumption
  refine Within.ite ?_ ?_
  · refine Within.app (State.tryClose_within _ _ _) rfl ?_
    refine Within.app (State.modTrk_within _ _ _ _) rfl ?_
    exact Within.refl _ _
  refine Within.ite ?_ ?_
  · refine Within.app (State.modTrk_within _ _ _ _) rfl ?_
    exact Within.refl _ _
  exact Within.refl _ _

theorem State.homeRequest_within (s : State) (a1) (a2) :
    Within { free := true, finds := true, due := true, trcCfg := true, irq := true, slices := true, banks := true, chans := true, far := true, near := true, memIo := true, hsf := true, bisnps := true, links := true, pba := true, hreqs := true, accs := true, fnc := true, xlts := true, xinv := true, rtrTx := true, rtrRx := true, dom := true, pors := true, ledger := true, bkt := true, flip := true, ras := true, mgt := true, events := true, trc := true, outs := true } s (State.homeRequest s a1 a2) := by
  unfold State.homeRequest
  extract_lets +onlyGivenNames x
  refine Within.cut (x := x) ?_ ?_ <;> [(unfold x; clear x); (obtain ⟨y, e⟩ := named x; rewrite [← e]; clear e x; intro _)]
  · refine Within.app (State.consumeCoh_within _ _ _) rfl ?_
    exact Within.refl _ _
  extract_lets +onlyGivenNames x
  clear_value x
  extract_lets +onlyGivenNames x
  refine Within.cutS (x := x) ?_ ?_ <;> [(intro _; unfold x; clear x; try beta_reduce); (intro _; clear_value x)]
  · refine Within.app (State.rec__within _ _ _ _ _ _) rfl ?_
    exact Within.refl _ _
  refine Within.ite ?_ ?_
  · assumption
  refine Within.ite ?_ ?_
  · refine Within.app (State.nack_within _ _ _ _ _) rfl ?_
    assumption
  refine Within.ite ?_ ?_
  · refine Within.callS (by assumption) ?_
    assumption
  refine Within.ite ?_ ?_
  · refine Within.callS (by assumption) ?_
    assumption
  extract_lets +onlyGivenNames x
  refine Within.cut (x := x) ?_ ?_ <;> [(unfold x; clear x); (obtain ⟨y, e⟩ := named x; rewrite [← e]; clear e x; intro _)]
  · refine Within.app (State.sawUp_within _ _) rfl ?_
    refine Within.app (State.domUp_within _) rfl ?_
    assumption
  refine Within.ite ?_ ?_
  · refine Within.callS (by assumption) ?_
    assumption
  refine Within.ite ?_ ?_
  · refine Within.app (State.nack_within _ _ _ _ _) rfl ?_
    assumption
  refine Within.ite ?_ ?_
  · refine Within.app (State.sendCoh_within _ _ _) rfl ?_
    refine Within.callS (by assumption) ?_
    assumption
  extract_lets +onlyGivenNames x
  clear_value x
  split
  · refine WithinO.eq (by assumption) ?_
    refine WithinO.ite ?_ ?_
    · refine WithinO.app (State.crossing_within _ _ _ _) rfl ?_
      assumption
    exact WithinO.none _ _
  extract_lets +onlyGivenNames x
  clear_value x
  extract_lets +onlyGivenNames x
  clear_value x
  extract_lets +onlyGivenNames x
  clear_value x
  extract_lets +onlyGivenNames x
  clear_value x
  refine Within.ite ?_ ?_
  · refine Within.app (State.takeEvict_within _ _ _) rfl ?_
    assumption
  refine Within.ite ?_ ?_
  · refine Within.app (State.homeTake_within _ _ _ _ _) rfl ?_
    assumption
  split
  · refine Within.app (State.homeTake_within _ _ _ _ _) rfl ?_
    assumption
  refine Within.app (State.sendRetry_within _ _ _ _) rfl ?_
  assumption

theorem State.homeTry_within (s : State) (a1) (a2) :
    Within { free := true, finds := true, due := true, trcCfg := true, irq := true, slices := true, banks := true, chans := true, far := true, near := true, memIo := true, hsf := true, bisnps := true, links := true, pba := true, hreqs := true, accs := true, fnc := true, xlts := true, xinv := true, rtrTx := true, pors := true, ledger := true, bkt := true, flip := true, ras := true, mgt := true, events := true, trc := true, outs := true } s (State.homeTry s a1 a2) := by
  unfold State.homeTry
  split
  · refine Within.ite ?_ ?_
    · exact Within.refl _ _
    refine Within.ite ?_ ?_
    · refine Within.app (State.homeEvict_within _ _ _) rfl ?_
      exact Within.refl _ _
    refine Within.app (State.homeBegin_within _ _ _) rfl ?_
    exact Within.refl _ _
  exact Within.refl _ _

theorem State.memDone_within (s : State) (a1) :
    Within { free := true, finds := true, due := true, trcCfg := true, irq := true, slices := true, banks := true, chans := true, far := true, near := true, memIo := true, hsf := true, bisnps := true, links := true, pba := true, hreqs := true, accs := true, lse := true, xlts := true, rtrTx := true, pors := true, ledger := true, bkt := true, flip := true, ras := true, events := true, trc := true, outs := true } s (State.memDone s a1) := by
  unfold State.memDone
  split
  · exact Within.refl _ _
  split
  · exact Within.refl _ _
  extract_lets +onlyGivenNames x
  clear_value x
  split
  · refine Within.app (State.hsfEvict_within _ _) rfl ?_
    exact Within.refl _ _
  extract_lets +onlyGivenNames x
  extract_lets +onlyGivenNames x
  refine Within.cut (x := x) ?_ ?_ <;> [(unfold x; clear x); (obtain ⟨y, e⟩ := named x; rewrite [← e]; clear e x; intro _)]
  · with_reducible (apply Within.upd <;> try first | exact .inl rfl | exact .inr rfl | exact id | assumption | exact Within.refl _ _)
    with_reducible refine MemI.of ?_ ?_ <;> try exact id
  refine Within.ite ?_ ?_
  · split
    · extract_lets +onlyGivenNames x
      clear_value x
      extract_lets +onlyGivenNames x
      clear_value x
      refine Within.app (State.reqDone_within _ _ _ _ _) rfl ?_
      assumption
    assumption
  split
  · refine Within.ite ?_ ?_
    · refine Within.app (State.homeGo_within _ _ _) rfl ?_
      refine Within.app (State.modTrk_within _ _ _ _) rfl ?_
      assumption
    assumption
  assumption

theorem State.ownClose_within (s : State) (a1) (a2) :
    Within { free := true, finds := true, due := true, trcCfg := true, irq := true, slices := true, banks := true, chans := true, near := true, memIo := true, pba := true, ledger := true, bkt := true, flip := true, events := true, trc := true, outs := true } s (State.ownClose s a1 a2) := by
  unfold State.ownClose
  split
  · refine Within.app (State.homeDone_within _ _ _ _) rfl ?_
    exact Within.refl _ _
  exact Within.refl _ _

theorem State.ticketExpire_within (s : State) (a1) (a2) :
    Within { trcCfg := true, irq := true, slices := true, pba := true, ledger := true, events := true, trc := true, outs := true } s (State.ticketExpire s a1 a2) := by
  unfold State.ticketExpire
  split
  · refine Within.ite ?_ ?_
    · refine Within.app (State.rec__within _ _ _ _ _ _) rfl ?_
      refine Within.app (State.dropTrk_within _ _ _) rfl ?_
      exact Within.refl _ _
    exact Within.refl _ _
  exact Within.refl _ _

end Sys2Proof.Machine
end

