-- ==== Sys2Proof/Laws/Miss.lean ====
section
/-! SUPPORT. For each operation of Machine/Miss.lean one lemma: which pieces of the state it can change, and that it keeps the
invariant of Safety.lean. -/

set_option Elab.async false

namespace Sys2Proof.Machine

theorem State.writeOut_within (s : State) (a1) (a2) (a3) (a4) (a5) :
    Within { trcCfg := true, irq := true, slices := true, links := true, pba := true, hreqs := true, ledger := true, events := true, trc := true, outs := true } s (State.writeOut s a1 a2 a3 a4 a5) := by
  unfold State.writeOut
  extract_lets +onlyGivenNames x
  clear_value x
  split
  extract_lets +onlyGivenNames x
  refine Within.cut (x := x) ?_ ?_ <;> [(unfold x; clear x); (obtain ⟨y, e⟩ := named x; rewrite [← e]; clear e x; intro _)]
  · refine Within.app (State.modSlice_within _ _ _) rfl ?_
    exact Within.refl _ _
  refine Within.ite ?_ ?_
  · assumption
  extract_lets +onlyGivenNames x
  refine Within.cut (x := x) ?_ ?_ <;> [(unfold x; clear x); (obtain ⟨y, e⟩ := named x; rewrite [← e]; clear e x; intro _)]
  · split
    · refine Within.app (State.pwbRetire_within _ _) rfl ?_
      refine Within.app (State.modLink_within _ _ _) rfl ?_
      assumption
    · split
      · refine Within.app (State.hostGone_within _ _) rfl ?_
        refine Within.app (State.hostCmp_within _ _) rfl ?_
        assumption
      assumption
    assumption
  split
  · refine Within.app (State.mrClose_within _ _ _) rfl ?_
    assumption
  refine Within.app (State.modMr_within _ _ _ _) rfl ?_
  assumption

theorem State.mrTransmit_within (s : State) (a1) (a2) :
    Within { trcCfg := true, irq := true, slices := true, links := true, pba := true, hreqs := true, rtrTx := true, ledger := true, events := true, trc := true, outs := true } s (State.mrTransmit s a1 a2) := by
  unfold State.mrTransmit
  split
  · exact Within.refl _ _
  extract_lets +onlyGivenNames x
  clear_value x
  extract_lets +onlyGivenNames x
  clear_value x
  extract_lets +onlyGivenNames x
  clear_value x
  extract_lets +onlyGivenNames x
  clear_value x
  extract_lets +onlyGivenNames x
  clear_value x
  extract_lets +onlyGivenNames x
  refine Within.cut (x := x) ?_ ?_ <;> [(unfold x; clear x); (obtain ⟨y, e⟩ := named x; rewrite [← e]; clear e x; intro _)]
  · refine Within.app (State.markIssued_within _ _) rfl ?_
    refine Within.app (State.modMr_within _ _ _ _) rfl ?_
    exact Within.refl _ _
  extract_lets +onlyGivenNames x
  refine Within.cut (x := x) ?_ ?_ <;> [(unfold x; clear x); (obtain ⟨y, e⟩ := named x; rewrite [← e]; clear e x; intro _)]
  · refine Within.ite ?_ ?_
    · refine Within.app (State.sendGlob_within _ _ _) rfl ?_
      assumption
    refine Within.app (State.sendCoh_within _ _ _) rfl ?_
    assumption
  refine Within.ite ?_ ?_
  · refine Within.ite ?_ ?_
    · assumption
    refine Within.app (State.writeOut_within _ _ _ _ _ _) rfl ?_
    assumption
  assumption

theorem State.outResend_within (s : State) (a1) (a2) :
    Within { slices := true, rtrTx := true } s (State.outResend s a1 a2) := by
  unfold State.outResend
  split
  · exact Within.refl _ _
  extract_lets +onlyGivenNames x
  clear_value x
  extract_lets +onlyGivenNames x
  clear_value x
  extract_lets +onlyGivenNames x
  refine Within.cut (x := x) ?_ ?_ <;> [(unfold x; clear x); (obtain ⟨y, e⟩ := named x; rewrite [← e]; clear e x; intro _)]
  · refine Within.app (State.modSlice_within _ _ _) rfl ?_
    exact Within.refl _ _
  refine Within.ite ?_ ?_
  · refine Within.app (State.sendGlob_within _ _ _) rfl ?_
    assumption
  refine Within.app (State.sendCoh_within _ _ _) rfl ?_
  assumption

theorem State.vbResend_within (s : State) (a1) (a2) :
    Within { slices := true, rtrTx := true } s (State.vbResend s a1 a2) := by
  unfold State.vbResend
  split
  · exact Within.refl _ _
  refine Within.app (State.sendGlob_within _ _ _) rfl ?_
  refine Within.app (State.modVb_within _ _ _ _) rfl ?_
  exact Within.refl _ _

theorem State.gapExpiry_within (s : State) (a1) (a2) (a3) :
    Within { trcCfg := true, irq := true, slices := true, links := true, pba := true, hreqs := true, rtrTx := true, ledger := true, events := true, trc := true, outs := true } s (State.gapExpiry s a1 a2 a3) := by
  unfold State.gapExpiry
  split
  · split
    · refine Within.ite ?_ ?_
      · refine Within.app (State.mrTransmit_within _ _ _) rfl ?_
        exact Within.refl _ _
      exact Within.refl _ _
    exact Within.refl _ _
  · refine Within.ite ?_ ?_
    · refine Within.app (State.outResend_within _ _ _) rfl ?_
      exact Within.refl _ _
    exact Within.refl _ _
  · split
    · refine Within.ite ?_ ?_
      · refine Within.app (State.vbResend_within _ _ _) rfl ?_
        exact Within.refl _ _
      exact Within.refl _ _
    exact Within.refl _ _
  exact Within.refl _ _

theorem State.release_within (s : State) (a1) (a2) (a3) :
    Within { trcCfg := true, irq := true, slices := true, chans := true, memIo := true, bisnps := true, links := true, pba := true, hreqs := true, rtrTx := true, ledger := true, events := true, trc := true, outs := true } s (State.release s a1 a2 a3) := by
  unfold State.release
  split
  · split
    · refine Within.ite ?_ ?_
      · refine Within.app (State.mrTransmit_within _ _ _) rfl ?_
        exact Within.refl _ _
      exact Within.refl _ _
    exact Within.refl _ _
  · refine Within.ite ?_ ?_
    · refine Within.app (State.outResend_within _ _ _) rfl ?_
      exact Within.refl _ _
    exact Within.refl _ _
  · exact Within.refl _ _
  extract_lets +onlyGivenNames x
  refine Within.cut (x := x) ?_ ?_ <;> [(unfold x; clear x); (obtain ⟨y, e⟩ := named x; rewrite [← e]; clear e x; intro _)]
  · refine Within.foldl (fun _ _ => ?_) ?_
    · refine Within.ite ?_ ?_
      · exact Within.refl _ _
      refine Within.app (State.mrTransmit_within _ _ _) rfl ?_
      exact Within.refl _ _
    exact Within.refl _ _
  refine Within.ite ?_ ?_
  · refine Within.foldl (fun _ _ => ?_) ?_
    · refine Within.app (State.vbGo_within _ _ _) rfl ?_
      exact Within.refl _ _
    assumption
  assumption

theorem State.mrAnswer_within (s : State) (a1) (a2) (a3) (a4) :
    Within { trcCfg := true, irq := true, slices := true, chans := true, memIo := true, bisnps := true, links := true, pba := true, hreqs := true, rtrTx := true, ledger := true, events := true, trc := true, outs := true } s (State.mrAnswer s a1 a2 a3 a4) := by
  unfold State.mrAnswer
  split
  · exact Within.refl _ _
  refine Within.ite ?_ ?_
  · exact Within.refl _ _
  extract_lets +onlyGivenNames x
  clear_value x
  extract_lets +onlyGivenNames x
  refine Within.cut (x := x) ?_ ?_ <;> [(unfold x; clear x); (obtain ⟨y, e⟩ := named x; rewrite [← e]; clear e x; intro _)]
  · refine Within.app (State.modMr_within _ _ _ _) rfl ?_
    exact Within.refl _ _
  refine Within.ite ?_ ?_
  · refine Within.app (State.release_within _ _ _ _) rfl ?_
    assumption
  assumption

theorem State.mrFail_within (s : State) (a1) (a2) (a3) :
    Within { free := true, due := true, trcCfg := true, irq := true, slices := true, hsf := true, bisnps := true, links := true, pba := true, hreqs := true, accs := true, fnc := true, xlts := true, xinv := true, pors := true, ledger := true, bkt := true, flip := true, mgt := true, events := true, trc := true, outs := true } s (State.mrFail s a1 a2 a3) := by
  unfold State.mrFail
  split
  · exact Within.refl _ _
  refine Within.app (State.mrClose_within _ _ _) rfl ?_
  refine Within.foldl (fun _ _ => ?_) ?_
  · refine Within.app (State.reqFail_within _ _ _) rfl ?_
    exact Within.refl _ _
  exact Within.refl _ _

theorem State.mrEnd_within (s : State) (a1) (a2) (a3) :
    Within { free := true, due := true, trcCfg := true, irq := true, slices := true, chans := true, memIo := true, hsf := true, bisnps := true, links := true, pba := true, hreqs := true, accs := true, fnc := true, xlts := true, xinv := true, rtrTx := true, pors := true, ledger := true, bkt := true, flip := true, mgt := true, events := true, trc := true, outs := true } s (State.mrEnd s a1 a2 a3) := by
  unfold State.mrEnd
  split
  · exact Within.refl _ _
  extract_lets +onlyGivenNames x
  refine Within.cut (x := x) ?_ ?_ <;> [(unfold x; clear x); (obtain ⟨y, e⟩ := named x; rewrite [← e]; clear e x; intro _)]
  · refine Within.app (State.modSlice_within _ _ _) rfl ?_
    exact Within.refl _ _
  refine Within.app (State.release_within _ _ _ _) rfl ?_
  refine Within.app (State.mrFail_within _ _ _ _) rfl ?_
  assumption

theorem State.mrOpen_within {s u : State} {n i : Nat} {r : Req} {st : MrSt} (h : s.mrOpen n r st = some (i, u)) :
    Within { slices := true, events := true } s u := by
  unfold State.mrOpen at h
  refine WithinP.ofMap (fun _ => ?_) h
  extract_lets +onlyGivenNames x
  clear_value x
  refine WithinP.mk ?_
  refine Within.app (State.event_within _ _ _ _) rfl ?_
  refine Within.app (State.modSlice_within _ _ _) rfl ?_
  exact Within.refl _ _

theorem State.mrRefused_within (s : State) (a1) (a2) (a3) :
    Within { trcCfg := true, irq := true, slices := true, chans := true, memIo := true, bisnps := true, links := true, pba := true, hreqs := true, rtrTx := true, ledger := true, events := true, trc := true, outs := true } s (State.mrRefused s a1 a2 a3) := by
  unfold State.mrRefused
  split
  · exact Within.refl _ _
  refine Within.ite ?_ ?_
  · exact Within.refl _ _
  refine Within.ite ?_ ?_
  · refine Within.app (State.release_within _ _ _ _) rfl ?_
    refine Within.app (State.mrClose_within _ _ _) rfl ?_
    refine Within.app (State.event_within _ _ _ _) rfl ?_
    exact Within.refl _ _
  extract_lets +onlyGivenNames x
  refine Within.cut (x := x) ?_ ?_ <;> [(unfold x; clear x); (obtain ⟨y, e⟩ := named x; rewrite [← e]; clear e x; intro _)]
  · split
    · refine Within.app (State.extendMr_within _ _ _ _) rfl ?_
      exact Within.refl _ _
    refine Within.ite ?_ ?_
    · refine Within.foldl (fun _ _ => ?_) ?_
      · refine Within.app (State.void_within _ _) rfl ?_
        exact Within.refl _ _
      exact Within.refl _ _
    exact Within.refl _ _
  extract_lets +onlyGivenNames x
  clear_value x
  extract_lets +onlyGivenNames x
  refine Within.cut (x := x) ?_ ?_ <;> [(unfold x; clear x); (obtain ⟨y, e⟩ := named x; rewrite [← e]; clear e x; intro _)]
  · refine Within.app (State.modSlice_within _ _ _) rfl ?_
    assumption
  extract_lets +onlyGivenNames x
  refine Within.cut (x := x) ?_ ?_ <;> [(unfold x; clear x); (obtain ⟨y, e⟩ := named x; rewrite [← e]; clear e x; intro _)]
  · refine Within.app (State.modMr_within _ _ _ _) rfl ?_
    assumption
  split
  · refine Within.ite ?_ ?_
    · refine Within.app (State.mrTransmit_within _ _ _) rfl ?_
      assumption
    assumption
  assumption

theorem State.mrSend_within (s : State) (a1) (a2) :
    Within { free := true, finds := true, due := true, trcCfg := true, irq := true, slices := true, banks := true, chans := true, far := true, near := true, memIo := true, hsf := true, bisnps := true, links := true, pba := true, hreqs := true, accs := true, fnc := true, xlts := true, xinv := true, rtrTx := true, dom := true, pors := true, ledger := true, bkt := true, flip := true, ras := true, mgt := true, events := true, trc := true, outs := true } s (State.mrSend s a1 a2) := by
  unfold State.mrSend
  split
  · exact Within.refl _ _
  extract_lets +onlyGivenNames x
  clear_value x
  extract_lets +onlyGivenNames x
  clear_value x
  extract_lets +onlyGivenNames x
  refine Within.cut (x := x) ?_ ?_ <;> [(unfold x; clear x); (obtain ⟨y, e⟩ := named x; rewrite [← e]; clear e x; intro _)]
  · refine Within.app (State.modMr_within _ _ _ _) rfl ?_
    exact Within.refl _ _
  split
  · refine Within.ite ?_ ?_
    · refine Within.app (State.mrFail_within _ _ _ _) rfl ?_
      assumption
    refine Within.app (State.homeOwn_within _ _ _) rfl ?_
    refine Within.app (State.modMr_within _ _ _ _) rfl ?_
    assumption
  · refine Within.ite ?_ ?_
    · refine Within.app (State.mrFail_within _ _ _ _) rfl ?_
      assumption
    refine Within.ite ?_ ?_
    · refine Within.app (State.mrFail_within _ _ _ _) rfl ?_
      assumption
    extract_lets +onlyGivenNames x
    clear_value x
    extract_lets +onlyGivenNames x
    refine Within.cut (x := x) ?_ ?_ <;> [(unfold x; clear x); (obtain ⟨y, e⟩ := named x; rewrite [← e]; clear e x; intro _)]
    · refine Within.app (State.classifyMr_within _ _ _ _) rfl ?_
      assumption
    refine Within.ite ?_ ?_
    · refine Within.app (State.modMr_within _ _ _ _) rfl ?_
      assumption
    refine Within.app (State.mrTransmit_within _ _ _) rfl ?_
    refine Within.app (State.modMr_within _ _ _ _) rfl ?_
    assumption
  refine Within.ite ?_ ?_
  · refine Within.app (State.mrFail_within _ _ _ _) rfl ?_
    assumption
  extract_lets +onlyGivenNames x
  clear_value x
  extract_lets +onlyGivenNames x
  refine Within.cut (x := x) ?_ ?_ <;> [(unfold x; clear x); (obtain ⟨y, e⟩ := named x; rewrite [← e]; clear e x; intro _)]
  · refine Within.app (State.classifyMr_within _ _ _ _) rfl ?_
    assumption
  refine Within.ite ?_ ?_
  · refine Within.app (State.modMr_within _ _ _ _) rfl ?_
    assumption
  refine Within.app (State.mrTransmit_within _ _ _) rfl ?_
  refine Within.app (State.modMr_within _ _ _ _) rfl ?_
  assumption

theorem State.outRefused_within (s : State) (a1) (a2) (a3) (a4) :
    Within { slices := true, rtrTx := true } s (State.outRefused s a1 a2 a3 a4) := by
  unfold State.outRefused
  split
  · exact Within.refl _ _
  extract_lets +onlyGivenNames x
  clear_value x
  extract_lets +onlyGivenNames x
  refine Within.cut (x := x) ?_ ?_ <;> [(unfold x; clear x); (obtain ⟨y, e⟩ := named x; rewrite [← e]; clear e x; intro _)]
  · refine Within.app (State.modSlice_within _ _ _) rfl ?_
    exact Within.refl _ _
  split
  · refine Within.ite ?_ ?_
    · refine Within.app (State.outResend_within _ _ _) rfl ?_
      assumption
    assumption
  assumption

theorem State.wakeVb_within (s : State) (a1) :
    Within { free := true, finds := true, due := true, trcCfg := true, irq := true, slices := true, banks := true, chans := true, far := true, near := true, memIo := true, hsf := true, bisnps := true, links := true, pba := true, hreqs := true, accs := true, fnc := true, xlts := true, xinv := true, rtrTx := true, dom := true, pors := true, ledger := true, bkt := true, flip := true, ras := true, mgt := true, events := true, trc := true, outs := true } s (State.wakeVb s a1) := by
  unfold State.wakeVb
  refine Within.foldl (fun _ _ => ?_) ?_
  · refine Within.app (State.mrSend_within _ _ _) rfl ?_
    exact Within.refl _ _
  exact Within.refl _ _

theorem State.writeDone_within (s : State) (a1) (a2) :
    Within { free := true, due := true, trcCfg := true, irq := true, slices := true, chans := true, memIo := true, hsf := true, bisnps := true, links := true, pba := true, hreqs := true, accs := true, lse := true, xlts := true, rtrTx := true, pors := true, ledger := true, bkt := true, flip := true, events := true, trc := true, outs := true } s (State.writeDone s a1 a2) := by
  unfold State.writeDone
  extract_lets +onlyGivenNames x
  clear_value x
  split
  · exact Within.refl _ _
  extract_lets +onlyGivenNames x
  refine Within.cut (x := x) ?_ ?_ <;> [(unfold x; clear x); (obtain ⟨y, e⟩ := named x; rewrite [← e]; clear e x; intro _)]
  · refine Within.app (State.modSlice_within _ _ _) rfl ?_
    exact Within.refl _ _
  refine Within.ite ?_ ?_
  · extract_lets +onlyGivenNames x
    refine Within.cut (x := x) ?_ ?_ <;> [(unfold x; clear x); (obtain ⟨y, e⟩ := named x; rewrite [← e]; clear e x; intro _)]
    · split
      · refine Within.app (State.pwbEnd_within _ _ _) rfl ?_
        assumption
      · refine Within.app (State.pieceGot_within _ _ _ _ _ _) rfl ?_
        assumption
      assumption
    extract_lets +onlyGivenNames x
    refine Within.cut (x := x) ?_ ?_ <;> [(unfold x; clear x); (obtain ⟨y, e⟩ := named x; rewrite [← e]; clear e x; intro _)]
    · refine Within.foldl (fun _ _ => ?_) ?_
      · refine Within.app (State.accDone_within _ _) rfl ?_
        exact Within.refl _ _
      assumption
    refine Within.ite ?_ ?_
    · refine Within.app (State.release_within _ _ _ _) rfl ?_
      assumption
    assumption
  split
  · refine Within.ite ?_ ?_
    · extract_lets +onlyGivenNames x
      refine Within.cut (x := x) ?_ ?_ <;> [(unfold x; clear x); (obtain ⟨y, e⟩ := named x; rewrite [← e]; clear e x; intro _)]
      · refine Within.app (State.reqDone_within _ _ _ _ _) rfl ?_
        assumption
      extract_lets +onlyGivenNames x
      clear_value x
      extract_lets +onlyGivenNames x
      refine Within.cut (x := x) ?_ ?_ <;> [(unfold x; clear x); (obtain ⟨y, e⟩ := named x; rewrite [← e]; clear e x; intro _)]
      · split
        · refine Within.app (State.mrClose_within _ _ _) rfl ?_
          assumption
        refine Within.app (State.modMr_within _ _ _ _) rfl ?_
        assumption
      refine Within.ite ?_ ?_
      · refine Within.app (State.release_within _ _ _ _) rfl ?_
        assumption
      assumption
    refine Within.app (State.accDone_within _ _) rfl ?_
    assumption
  refine Within.app (State.accDone_within _ _) rfl ?_
  assumption

end Sys2Proof.Machine
end

