-- ==== Sys2Proof/Laws/Lookup.lean ====
section
/-! SUPPORT. For each operation of Machine/Lookup.lean one lemma: which pieces of the state it can change, and that it keeps the
invariant of Safety.lean. -/

set_option Elab.async false

namespace Sys2Proof.Machine

theorem State.dequeue_within (s : State) (a1) (a2) :
    Within { slices := true, hreqs := true } s (State.dequeue s a1 a2) := by
  unfold State.dequeue
  refine Within.app (State.rosterGone_within _ _) rfl ?_
  refine Within.app (State.modSlice_within _ _ _) rfl ?_
  exact Within.refl _ _

theorem State.enroll_within (s : State) (a1) (a2) :
    Within { slices := true } s (State.enroll s a1 a2) := by
  unfold State.enroll
  extract_lets +onlyGivenNames x
  clear_value x
  refine Within.app (State.modSlice_within _ _ _) rfl ?_
  exact Within.refl _ _

theorem State.fillAgain_within (s : State) (a1) (a2) (a3) :
    Within { free := true, finds := true, due := true, trcCfg := true, irq := true, slices := true, banks := true, chans := true, far := true, near := true, memIo := true, hsf := true, bisnps := true, links := true, pba := true, hreqs := true, accs := true, fnc := true, xlts := true, xinv := true, rtrTx := true, dom := true, pors := true, ledger := true, bkt := true, flip := true, ras := true, mgt := true, events := true, trc := true, outs := true } s (State.fillAgain s a1 a2 a3) := by
  unfold State.fillAgain
  refine Within.app (State.mrSend_within _ _ _) rfl ?_
  refine Within.app (State.ownClose_within _ _ _) rfl ?_
  refine Within.app (State.dropLine_within _ _ _ _ _) rfl ?_
  refine Within.app (State.ueData_within _ _ _ _ _) rfl ?_
  exact Within.refl _ _

theorem State.hostGate_within (s : State) (a1) :
    WithinO { bisnps := true, hreqs := true, events := true, outs := true } s (State.hostGate s a1) := by
  unfold State.hostGate
  extract_lets +onlyGivenNames x
  clear_value x
  refine WithinO.ite ?_ ?_
  · refine WithinO.some ?_
    refine Within.app (State.recallWait_within _ _ _ _) rfl ?_
    exact Within.refl _ _
  refine WithinO.ite ?_ ?_
  · extract_lets +onlyGivenNames x
    clear_value x
    refine WithinO.some ?_
    refine Within.app (State.recallWait_within _ _ _ _) rfl ?_
    refine Within.foldl (fun _ _ => ?_) ?_
    · refine Within.app (State.sendBi_within _ _ _ _ _ _) rfl ?_
      exact Within.refl _ _
    exact Within.refl _ _
  refine WithinO.ite ?_ ?_
  · refine WithinO.map fun _ => ?_
    refine Within.app (State.recallWait_within _ _ _ _) rfl ?_
    refine Within.app (State.hsfEvict_within _ _) rfl ?_
    exact Within.refl _ _
  exact WithinO.none _ _

theorem State.noReg_within (s : State) (a1) (a2) :
    Within { slices := true, hreqs := true, events := true } s (State.noReg s a1 a2) := by
  unfold State.noReg
  extract_lets +onlyGivenNames x
  refine Within.cut (x := x) ?_ ?_ <;> [(unfold x; clear x); (obtain ⟨y, e⟩ := named x; rewrite [← e]; clear e x; intro _)]
  · split
    · refine Within.app (State.modReq_within _ _ _) rfl ?_
      exact Within.refl _ _
    exact Within.refl _ _
  refine Within.app (State.modSlice_within _ _ _) rfl ?_
  refine Within.app (State.event_within _ _ _ _) rfl ?_
  assumption

theorem State.prefetchWait_within (s : State) (a1) (a2) (a3) (a4) :
    Within { slices := true, events := true } s (State.prefetchWait s a1 a2 a3 a4) := by
  unfold State.prefetchWait
  refine Within.app (State.modSlice_within _ _ _) rfl ?_
  refine Within.app (State.event_within _ _ _ _) rfl ?_
  exact Within.refl _ _

theorem State.prefetch_within (s : State) (a1) (a2) (a3) :
    Within { free := true, finds := true, due := true, trcCfg := true, irq := true, slices := true, banks := true, chans := true, far := true, near := true, memIo := true, hsf := true, bisnps := true, links := true, pba := true, hreqs := true, accs := true, fnc := true, xlts := true, xinv := true, rtrTx := true, dom := true, pors := true, ledger := true, bkt := true, flip := true, ras := true, mgt := true, events := true, trc := true, outs := true } s (State.prefetch s a1 a2 a3) := by
  unfold State.prefetch
  split
  · exact Within.refl _ _
  refine Within.app (State.mrSend_within _ _ _) rfl ?_
  refine Within.app (State.event_within _ _ _ _) rfl ?_
  refine Within.app (State.mrOpen_within (by assumption)) rfl ?_
  exact Within.refl _ _

theorem State.prefetchRun_within (s : State) (a1) (a2) (a3) (a4) (a5) (a6) :
    Within { free := true, finds := true, due := true, trcCfg := true, irq := true, slices := true, banks := true, chans := true, far := true, near := true, memIo := true, hsf := true, bisnps := true, links := true, pba := true, hreqs := true, accs := true, fnc := true, xlts := true, xinv := true, rtrTx := true, dom := true, pors := true, ledger := true, bkt := true, flip := true, ras := true, mgt := true, events := true, trc := true, outs := true } s (State.prefetchRun s a1 a2 a3 a4 a5 a6) := by
  induction a6 generalizing s with
  | zero => unfold State.prefetchRun; exact Within.refl _ _
  | succ k ih =>
    unfold State.prefetchRun
    extract_lets +onlyGivenNames x
    clear_value x
    extract_lets +onlyGivenNames x
    clear_value x
    extract_lets +onlyGivenNames x
    clear_value x
    refine Within.ite ?_ ?_
    · exact Within.refl _ _
    refine Within.ite ?_ ?_
    · refine Within.trans ?_ (ih ..)
      refine Within.app (State.event_within _ _ _ _) rfl ?_
      exact Within.refl _ _
    refine Within.ite ?_ ?_
    · refine Within.app (State.event_within _ _ _ _) rfl ?_
      exact Within.refl _ _
    extract_lets +onlyGivenNames x
    clear_value x
    refine Within.trans ?_ (ih ..)
    refine Within.ite ?_ ?_
    · refine Within.app (State.prefetchWait_within _ _ _ _ _) rfl ?_
      exact Within.refl _ _
    extract_lets +onlyGivenNames x
    refine Within.cut (x := x) ?_ ?_ <;> [(unfold x; clear x); (obtain ⟨y, e⟩ := named x; rewrite [← e]; clear e x; intro _)]
    · refine WithinP.snd (State.touchLine_within _ _ _) rfl ?_
      exact Within.refl _ _
    refine Within.ite ?_ ?_
    · refine Within.app (State.prefetch_within _ _ _ _) rfl ?_
      assumption
    refine Within.app (State.event_within _ _ _ _) rfl ?_
    assumption

theorem State.train_within (s : State) (a1) (a2) :
    Within { free := true, finds := true, due := true, trcCfg := true, irq := true, slices := true, banks := true, chans := true, far := true, near := true, memIo := true, hsf := true, bisnps := true, links := true, pba := true, hreqs := true, accs := true, fnc := true, xlts := true, xinv := true, rtrTx := true, dom := true, pors := true, ledger := true, bkt := true, flip := true, ras := true, mgt := true, events := true, trc := true, outs := true } s (State.train s a1 a2) := by
  unfold State.train
  refine Within.ite ?_ ?_
  · exact Within.refl _ _
  extract_lets +onlyGivenNames x
  clear_value x
  extract_lets +onlyGivenNames x
  clear_value x
  extract_lets +onlyGivenNames x
  clear_value x
  extract_lets +onlyGivenNames x
  clear_value x
  extract_lets +onlyGivenNames x
  refine Within.cutS2 (x := x) ?_ ?_ <;> [(intro _ _ _; unfold x; clear x; try beta_reduce); (intro _; clear_value x)]
  · refine Within.app (State.modSlice_within _ _ _) rfl ?_
    exact Within.refl _ _
  split
  · apply_assumption
  split
  · exact Within.refl _ _
  refine Within.ite ?_ ?_
  · apply_assumption
  extract_lets +onlyGivenNames x
  clear_value x
  extract_lets +onlyGivenNames x
  clear_value x
  extract_lets +onlyGivenNames x
  refine Within.cut (x := x) ?_ ?_ <;> [(unfold x; clear x); (obtain ⟨y, e⟩ := named x; rewrite [← e]; clear e x; intro _)]
  · apply_assumption
  refine Within.ite ?_ ?_
  · assumption
  refine Within.app (State.prefetchRun_within _ _ _ _ _ _ _) rfl ?_
  assumption

theorem State.stampAdvs_within (s : State) (a1) (a2) :
    Within { hreqs := true } s (State.stampAdvs s a1 a2) := by
  unfold State.stampAdvs
  split
  · refine Within.app (State.modReq_within _ _ _) rfl ?_
    exact Within.refl _ _
  exact Within.refl _ _

theorem State.modRange_within (s : State) (a1) :
    Within { mgt := true } s (State.modRange s a1) := by
  unfold State.modRange
  with_reducible (apply Within.upd <;> try first | exact .inl rfl | exact .inr rfl | exact id | assumption | exact Within.refl _ _)
  extract_lets +onlyGivenNames x
  with_reducible refine MgtI.of ?_ ?_ ?_ ?_ <;> try exact id

theorem State.lockLine_within (s : State) (a1) (a2) :
    Within { free := true, slices := true, chans := true, near := true, memIo := true, flip := true, mgt := true, events := true } s (State.lockLine s a1 a2) := by
  unfold State.lockLine
  split
  · exact Within.refl _ _
  extract_lets +onlyGivenNames x
  clear_value x
  extract_lets +onlyGivenNames x
  clear_value x
  refine Within.ite ?_ ?_
  · refine Within.app (State.modRange_within _ _) rfl ?_
    exact Within.refl _ _
  refine Within.ite ?_ ?_
  · refine Within.app (State.modRange_within _ _) rfl ?_
    exact Within.refl _ _
  refine Within.app (State.modRange_within _ _) rfl ?_
  refine Within.app (State.putEnt_within _ _ _ _ _) rfl ?_
  exact Within.refl _ _

theorem State.serve_within (s : State) (n : Nat) (r : Req) (guess : Nat) : WithinL { free := true, finds := true, due := true, trcCfg := true, irq := true, slices := true, banks := true, chans := true, far := true, near := true, memIo := true, hsf := true, bisnps := true, links := true, pba := true, hreqs := true, accs := true, lse := true, fnc := true, xlts := true, xinv := true, rtrTx := true, dom := true, pors := true, ledger := true, bkt := true, flip := true, ras := true, mgt := true, events := true, trc := true, outs := true } s (s.serve n r guess) := by
  unfold State.serve
  extract_lets +onlyGivenNames x
  clear_value x
  extract_lets +onlyGivenNames x
  clear_value x
  extract_lets +onlyGivenNames x
  refine WithinL.cut (x := x) ?_ ?_ <;> [(unfold x; clear x); (obtain ⟨y, e⟩ := named x; rewrite [← e]; clear e x; intro _)]
  · refine Within.ite ?_ ?_
    · refine Within.app (State.event_within _ _ _ _) rfl ?_
      exact Within.refl _ _
    exact Within.refl _ _
  extract_lets +onlyGivenNames x
  clear_value x
  split
  · split
    · refine WithinL.ite ?_ ?_
      · refine WithinL.wait ?_
        refine WithinO.get (State.hostGate_within _ _) (by assumption) rfl ?_
        assumption
      refine WithinL.needs ?_
      refine WithinO.get (State.hostGate_within _ _) (by assumption) rfl ?_
      assumption
    refine WithinL.needs ?_
    assumption
  extract_lets +onlyGivenNames x
  clear_value x
  refine WithinL.ite ?_ ?_
  · refine WithinL.served ?_
    assumption
  refine WithinL.ite ?_ ?_
  · refine WithinL.needs ?_
    assumption
  refine WithinL.ite ?_ ?_
  · refine WithinL.needs ?_
    assumption
  refine WithinL.ite ?_ ?_
  · refine WithinL.wait ?_
    refine Within.app (State.noReg_within _ _ _) rfl ?_
    assumption
  split
  · refine WithinL.wait ?_
    refine WithinO.get (State.hostGate_within _ _) (by assumption) rfl ?_
    assumption
  extract_lets +onlyGivenNames x
  clear_value x
  extract_lets +onlyGivenNames x
  clear_value x
  extract_lets +onlyGivenNames x
  clear_value x
  split
  refine WithinL.ite ?_ ?_
  · refine WithinL.needs ?_
    refine Within.app (State.dropLine_within _ _ _ _ _) rfl ?_
    refine Within.app (State.ueData_within _ _ _ _ _) rfl ?_
    refine WithinP.eq (by assumption) ?_
    refine WithinP.ite ?_ ?_
    · refine WithinP.app (State.readWay_within _ _ _ _ _) rfl ?_
      assumption
    refine WithinP.mk ?_
    assumption
  extract_lets +onlyGivenNames x
  refine WithinL.cut (x := x) ?_ ?_ <;> [(unfold x; clear x); (obtain ⟨y, e⟩ := named x; rewrite [← e]; clear e x; intro _)]
  · refine Within.ite ?_ ?_
    · refine Within.app (State.setLineState_within _ _ _ _ _) rfl ?_
      refine Within.app (State.ueData_within _ _ _ _ _) rfl ?_
      refine WithinP.eq (by assumption) ?_
      refine WithinP.ite ?_ ?_
      · refine WithinP.app (State.readWay_within _ _ _ _ _) rfl ?_
        assumption
      refine WithinP.mk ?_
      assumption
    refine WithinP.eq (by assumption) ?_
    refine WithinP.ite ?_ ?_
    · refine WithinP.app (State.readWay_within _ _ _ _ _) rfl ?_
      assumption
    refine WithinP.mk ?_
    assumption
  extract_lets +onlyGivenNames x
  clear_value x
  split
  extract_lets +onlyGivenNames x
  clear_value x
  split
  · extract_lets +onlyGivenNames x
    refine WithinL.cut (x := x) ?_ ?_ <;> [(unfold x; clear x); (obtain ⟨y, e⟩ := named x; rewrite [← e]; clear e x; intro _)]
    · refine Within.ite ?_ ?_
      · refine Within.app (State.train_within _ _ _) rfl ?_
        assumption
      assumption
    extract_lets +onlyGivenNames x
    refine WithinL.cut (x := x) ?_ ?_ <;> [(unfold x; clear x); (obtain ⟨y, e⟩ := named x; rewrite [← e]; clear e x; intro _)]
    · refine Within.app (State.event_within _ _ _ _) rfl ?_
      refine Within.app (State.hitReq_within _ _ _ _) rfl ?_
      assumption
    extract_lets +onlyGivenNames x
    refine WithinL.cut (x := x) ?_ ?_ <;> [(unfold x; clear x); (obtain ⟨y, e⟩ := named x; rewrite [← e]; clear e x; intro _)]
    · refine Within.ite ?_ ?_
      · refine Within.app (State.event_within _ _ _ _) rfl ?_
        assumption
      assumption
    extract_lets +onlyGivenNames x
    refine WithinL.cut (x := x) ?_ ?_ <;> [(unfold x; clear x); (obtain ⟨y, e⟩ := named x; rewrite [← e]; clear e x; intro _)]
    · refine Within.app (State.stampAdvs_within _ _ _) rfl ?_
      assumption
    extract_lets +onlyGivenNames x
    refine WithinL.cut (x := x) ?_ ?_ <;> [(unfold x; clear x); (obtain ⟨y, e⟩ := named x; rewrite [← e]; clear e x; intro _)]
    · refine Within.ite ?_ ?_
      · refine Within.app (State.lockLine_within _ _ _) rfl ?_
        assumption
      assumption
    refine WithinL.served ?_
    refine Within.app (State.reqDone_within _ _ _ _ _) rfl ?_
    assumption
  · refine WithinL.ite ?_ ?_
    · refine WithinL.ite ?_ ?_
      · refine WithinL.needs ?_
        refine Within.app (State.hitReq_within _ _ _ _) rfl ?_
        refine Within.app (State.wayPut_within _ _ _ _ _ _) rfl ?_
        assumption
      refine WithinL.needs ?_
      refine Within.app (State.dropLine_within _ _ _ _ _) rfl ?_
      refine Within.app (State.hitReq_within _ _ _ _) rfl ?_
      assumption
    refine WithinL.ite ?_ ?_
    · extract_lets +onlyGivenNames x
      refine WithinL.cut (x := x) ?_ ?_ <;> [(unfold x; clear x); (obtain ⟨y, e⟩ := named x; rewrite [← e]; clear e x; intro _)]
      · refine Within.ite ?_ ?_
        · refine Within.app (State.train_within _ _ _) rfl ?_
          assumption
        assumption
      extract_lets +onlyGivenNames x
      refine WithinL.cut (x := x) ?_ ?_ <;> [(unfold x; clear x); (obtain ⟨y, e⟩ := named x; rewrite [← e]; clear e x; intro _)]
      · refine Within.app (State.hitReq_within _ _ _ _) rfl ?_
        refine Within.app (State.wayPut_within _ _ _ _ _ _) rfl ?_
        assumption
      refine WithinL.served ?_
      refine Within.app (State.reqDone_within _ _ _ _ _) rfl ?_
      refine Within.app (State.event_within _ _ _ _) rfl ?_
      refine Within.app (State.setLineState_within _ _ _ _ _) rfl ?_
      assumption
    refine WithinL.ite ?_ ?_
    · extract_lets +onlyGivenNames x
      refine WithinL.cut (x := x) ?_ ?_ <;> [(unfold x; clear x); (obtain ⟨y, e⟩ := named x; rewrite [← e]; clear e x; intro _)]
      · refine Within.ite ?_ ?_
        · refine Within.app (State.train_within _ _ _) rfl ?_
          assumption
        assumption
      refine WithinL.served ?_
      refine Within.app (State.reqDone_within _ _ _ _ _) rfl ?_
      refine Within.app (State.rec__within _ _ _ _ _ _) rfl ?_
      refine Within.app (State.hitReq_within _ _ _ _) rfl ?_
      assumption
    refine WithinL.needs ?_
    assumption
  · refine WithinL.needs ?_
    refine Within.ite ?_ ?_
    · refine Within.app (State.dropLine_within _ _ _ _ _) rfl ?_
      assumption
    assumption
  refine WithinL.served ?_
  assumption

theorem State.serveSecs_within (s : State) (a1) (a2) (a3) :
    Within { free := true, finds := true, due := true, trcCfg := true, irq := true, slices := true, banks := true, chans := true, far := true, near := true, memIo := true, hsf := true, bisnps := true, links := true, pba := true, hreqs := true, accs := true, lse := true, fnc := true, xlts := true, xinv := true, rtrTx := true, dom := true, pors := true, ledger := true, bkt := true, flip := true, ras := true, mgt := true, events := true, trc := true, outs := true } s (State.serveSecs s a1 a2 a3) := by
  induction a3 generalizing s with
  | nil => unfold State.serveSecs; exact Within.app (State.mrClose_within _ _ _) rfl (Within.refl _ _)
  | cons r rest ih =>
    unfold State.serveSecs
    extract_lets +onlyGivenNames x
    clear_value x
    extract_lets +onlyGivenNames x
    refine Within.cutS (x := x) ?_ ?_ <;> [(intro _; unfold x; clear x; try beta_reduce); (intro _; clear_value x)]
    · refine Within.app (State.modMr_within _ _ _ _) rfl ?_
      exact Within.refl _ _
    extract_lets +onlyGivenNames x
    refine Within.cut (x := x) ?_ ?_ <;> [(unfold x; clear x); (obtain ⟨y, e⟩ := named x; rewrite [← e]; clear e x; intro _)]
    · refine Within.app (State.modMr_within _ _ _ _) rfl ?_
      exact Within.refl _ _
    refine Within.ite ?_ ?_
    · refine Within.trans ?_ (ih ..)
      refine Within.app (State.reqFail_within _ _ _) rfl ?_
      assumption
    refine Within.ite ?_ ?_
    · refine Within.callS (by assumption) ?_
      assumption
    split
    split
    · refine Within.trans ?_ (ih ..)
      refine WithinL.ofServed (State.serve_within _ _ _ _) (by assumption) rfl ?_
      refine WithinP.eq (by assumption) ?_
      refine WithinP.ite ?_ ?_
      · refine WithinP.app (State.touchGuess_within _ _ _ _) rfl ?_
        assumption
      refine WithinP.mk ?_
      assumption
    · refine Within.ite ?_ ?_
      · refine Within.trans ?_ (ih ..)
        refine WithinL.ofNeeds (State.serve_within _ _ _ _) (by assumption) rfl ?_
        refine WithinP.eq (by assumption) ?_
        refine WithinP.ite ?_ ?_
        · refine WithinP.app (State.touchGuess_within _ _ _ _) rfl ?_
          assumption
        refine WithinP.mk ?_
        assumption
      refine Within.app (State.mrSend_within _ _ _) rfl ?_
      refine Within.app (State.modMr_within _ _ _ _) rfl ?_
      refine WithinL.ofNeeds (State.serve_within _ _ _ _) (by assumption) rfl ?_
      refine WithinP.eq (by assumption) ?_
      refine WithinP.ite ?_ ?_
      · refine WithinP.app (State.touchGuess_within _ _ _ _) rfl ?_
        assumption
      refine WithinP.mk ?_
      assumption
    refine Within.callS (by assumption) ?_
    refine WithinL.ofWait (State.serve_within _ _ _ _) (by assumption) rfl ?_
    refine WithinP.eq (by assumption) ?_
    refine WithinP.ite ?_ ?_
    · refine WithinP.app (State.touchGuess_within _ _ _ _) rfl ?_
      assumption
    refine WithinP.mk ?_
    assumption

theorem State.serveFrom_within (s : State) (a1) (a2) (a3) (a4) (a5) (a6) :
    Within { free := true, finds := true, due := true, trcCfg := true, irq := true, slices := true, banks := true, chans := true, far := true, near := true, memIo := true, hsf := true, bisnps := true, links := true, pba := true, hreqs := true, accs := true, lse := true, fnc := true, xlts := true, xinv := true, rtrTx := true, dom := true, pors := true, ledger := true, bkt := true, flip := true, ras := true, mgt := true, events := true, trc := true, outs := true } s (State.serveFrom s a1 a2 a3 a4 a5 a6) := by
  induction a6 generalizing s a5 with
  | nil =>
    unfold State.serveFrom
    cases a5 <;> exact Within.app (State.mrClose_within _ _ _) rfl (Within.refl _ _)
  | cons r rest ih =>
    cases a5 with
    | zero =>
      unfold State.serveFrom
      refine Within.app (State.serveSecs_within _ _ _ _) rfl ?_
      exact Within.refl _ _
    | succ k =>
      unfold State.serveFrom
      refine Within.ite ?_ ?_
      · refine Within.trans ?_ (ih ..)
        exact Within.refl _ _
      refine Within.ite ?_ ?_
      · split
        · refine Within.app (State.modMr_within _ _ _ _) rfl ?_
          refine WithinO.get (State.hostGate_within _ _) (by assumption) rfl ?_
          exact Within.refl _ _
        refine Within.trans ?_ (ih ..)
        refine Within.app (State.reqDone_within _ _ _ _ _) rfl ?_
        refine Within.app (State.stampAdvs_within _ _ _) rfl ?_
        exact Within.refl _ _
      refine Within.app (State.serveSecs_within _ _ _ _) rfl ?_
      exact Within.refl _ _

theorem State.startHold_within (s : State) (a1) (a2) :
    Within { slices := true } s (State.startHold s a1 a2) := by
  unfold State.startHold
  extract_lets +onlyGivenNames x
  clear_value x
  refine Within.ite ?_ ?_
  · exact Within.refl _ _
  refine Within.app (State.modSlice_within _ _ _) rfl ?_
  exact Within.refl _ _

theorem State.holdIf_within (s : State) (a1) (a2) (a3) :
    Within { slices := true } s (State.holdIf s a1 a2 a3) := by
  unfold State.holdIf
  refine Within.ite ?_ ?_
  · refine Within.app (State.startHold_within _ _ _) rfl ?_
    exact Within.refl _ _
  exact Within.refl _ _

theorem State.filled_within {m : Mask} {s x : State} {o : Option State} (h : WithinO m s o) (w : Within m s x) :
    WithinL m s (x.filled o) := by
  unfold State.filled
  split
  · exact WithinL.served (h _ rfl)
  · exact WithinL.wait w

theorem State.poisoned_within (s : State) (a1) (a2) (a3) :
    Within { free := true, due := true, trcCfg := true, irq := true, hsf := true, bisnps := true, links := true, pba := true, hreqs := true, accs := true, lse := true, xlts := true, pors := true, ledger := true, bkt := true, flip := true, events := true, trc := true, outs := true } s (State.poisoned s a1 a2 a3) := by
  unfold State.poisoned
  split
  · refine Within.app (State.reqDone_within _ _ _ _ _) rfl ?_
    refine Within.app (State.rec__within _ _ _ _ _ _) rfl ?_
    exact Within.refl _ _
  · refine Within.app (State.event_within _ _ _ _) rfl ?_
    exact Within.refl _ _
  refine Within.app (State.reqDone_within _ _ _ _ _) rfl ?_
  refine Within.app (State.stampAdvs_within _ _ _) rfl ?_
  exact Within.refl _ _

theorem State.passOn_within (s : State) (a1) (a2) (a3) (a4) :
    WithinO { trcCfg := true, irq := true, slices := true, chans := true, memIo := true, bisnps := true, pba := true, rtrTx := true, ledger := true, events := true, trc := true, outs := true } s (State.passOn s a1 a2 a3 a4) := by
  unfold State.passOn
  refine WithinO.ite ?_ ?_
  · refine WithinO.some ?_
    refine Within.app (State.farWriteLine_within _ _ _ _) rfl ?_
    exact Within.refl _ _
  refine WithinO.app (State.vbTake_within _ _ _ _ _ _ _ _) rfl ?_
  exact Within.refl _ _

theorem State.fillOwned_within (s : State) (a1) (a2) (a3) :
    WithinL { free := true, finds := true, due := true, trcCfg := true, irq := true, slices := true, banks := true, chans := true, far := true, near := true, memIo := true, hsf := true, bisnps := true, links := true, pba := true, hreqs := true, accs := true, lse := true, fnc := true, xlts := true, xinv := true, rtrTx := true, dom := true, pors := true, ledger := true, bkt := true, flip := true, ras := true, mgt := true, events := true, trc := true, outs := true } s (State.fillOwned s a1 a2 a3) := by
  unfold State.fillOwned
  extract_lets +onlyGivenNames x
  clear_value x
  extract_lets +onlyGivenNames x
  clear_value x
  split
  split
  · refine WithinL.ite ?_ ?_
    · split
      refine WithinL.served ?_
      refine Within.app (State.reqDone_within _ _ _ _ _) rfl ?_
      refine WithinP.get (State.atomHere_within _ _ _ _ _ _ _ _) (by assumption) rfl ?_
      exact Within.refl _ _
    extract_lets +onlyGivenNames x
    clear_value x
    extract_lets +onlyGivenNames x
    clear_value x
    split
    refine WithinL.ite ?_ ?_
    · refine WithinL.needs ?_
      refine Within.app (State.fillAgain_within _ _ _ _) rfl ?_
      refine WithinP.eq (by assumption) ?_
      refine WithinP.ite ?_ ?_
      · refine WithinP.mk ?_
        exact Within.refl _ _
      refine WithinP.app (State.readWay_within _ _ _ _ _) rfl ?_
      exact Within.refl _ _
    extract_lets +onlyGivenNames x
    refine WithinL.cut (x := x) ?_ ?_ <;> [(unfold x; clear x); (obtain ⟨y, e⟩ := named x; rewrite [← e]; clear e x; intro _)]
    · refine Within.ite ?_ ?_
      · refine Within.app (State.ueData_within _ _ _ _ _) rfl ?_
        refine WithinP.eq (by assumption) ?_
        refine WithinP.ite ?_ ?_
        · refine WithinP.mk ?_
          exact Within.refl _ _
        refine WithinP.app (State.readWay_within _ _ _ _ _) rfl ?_
        exact Within.refl _ _
      refine WithinP.eq (by assumption) ?_
      refine WithinP.ite ?_ ?_
      · refine WithinP.mk ?_
        exact Within.refl _ _
      refine WithinP.app (State.readWay_within _ _ _ _ _) rfl ?_
      exact Within.refl _ _
    split
    extract_lets +onlyGivenNames x
    clear_value x
    extract_lets +onlyGivenNames x
    refine WithinL.cut (x := x) ?_ ?_ <;> [(unfold x; clear x); (obtain ⟨y, e⟩ := named x; rewrite [← e]; clear e x; intro _)]
    · refine Within.app (State.setLineState_within _ _ _ _ _) rfl ?_
      refine Within.app (State.wayPut_within _ _ _ _ _ _) rfl ?_
      assumption
    refine WithinL.served ?_
    refine Within.app (State.reqDone_within _ _ _ _ _) rfl ?_
    refine Within.app (State.holdIf_within _ _ _ _) rfl ?_
    refine Within.app (State.hitReq_within _ _ _ _) rfl ?_
    assumption
  extract_lets +onlyGivenNames x
  clear_value x
  refine WithinL.ite ?_ ?_
  · refine WithinL.ite ?_ ?_
    · refine State.filled_within ?_ ?_
      · refine WithinO.mapS (fun _ => ?_) ?_
        · refine Within.app (State.reqDone_within _ _ _ _ _) rfl ?_
          exact Within.refl _ _
        refine WithinO.app (State.fill_within _ _ _ _ _ _ _) rfl ?_
        exact Within.refl _ _
      exact Within.refl _ _
    extract_lets +onlyGivenNames x
    refine WithinL.cut (x := x) ?_ ?_ <;> [(unfold x; clear x); (obtain ⟨y, e⟩ := named x; rewrite [← e]; clear e x; intro _)]
    · refine Within.ite ?_ ?_
      · refine Within.app (State.farWriteLine_within _ _ _ _) rfl ?_
        exact Within.refl _ _
      exact Within.refl _ _
    refine WithinL.served ?_
    refine Within.app (State.poisoned_within _ _ _ _) rfl ?_
    assumption
  split
  extract_lets +onlyGivenNames x
  refine WithinL.cut (x := x) ?_ ?_ <;> [(unfold x; clear x); (obtain ⟨y, e⟩ := named x; rewrite [← e]; clear e x; intro _)]
  · refine Within.ite ?_ ?_
    · refine Within.app (State.event_within _ _ _ _) rfl ?_
      exact Within.refl _ _
    exact Within.refl _ _
  refine WithinL.ite ?_ ?_
  · refine State.filled_within ?_ ?_
    · refine WithinO.mapS (fun _ => ?_) ?_
      · refine Within.app (State.reqDone_within _ _ _ _ _) rfl ?_
        exact Within.refl _ _
      refine WithinO.app (State.passOn_within _ _ _ _ _) rfl ?_
      assumption
    assumption
  refine State.filled_within ?_ ?_
  · refine WithinO.mapS (fun _ => ?_) ?_
    · refine Within.app (State.reqDone_within _ _ _ _ _) rfl ?_
      refine Within.app (State.holdIf_within _ _ _ _) rfl ?_
      exact Within.refl _ _
    refine WithinO.app (State.fill_within _ _ _ _ _ _ _) rfl ?_
    assumption
  assumption

theorem State.servePoison_within (s : State) (a1) (a2) (a3) :
    Within { free := true, finds := true, due := true, trcCfg := true, irq := true, slices := true, banks := true, chans := true, far := true, near := true, memIo := true, hsf := true, bisnps := true, links := true, pba := true, hreqs := true, accs := true, lse := true, fnc := true, xlts := true, xinv := true, rtrTx := true, dom := true, pors := true, ledger := true, bkt := true, flip := true, ras := true, mgt := true, events := true, trc := true, outs := true } s (State.servePoison s a1 a2 a3) := by
  unfold State.servePoison
  extract_lets +onlyGivenNames x
  clear_value x
  extract_lets +onlyGivenNames x
  clear_value x
  refine Within.app (State.serveSecs_within _ _ _ _) rfl ?_
  refine Within.foldl (fun _ _ => ?_) ?_
  · refine Within.app (State.poisoned_within _ _ _ _) rfl ?_
    exact Within.refl _ _
  exact Within.refl _ _

theorem State.fillRead_within (s : State) (a1) (a2) (a3) (a4) :
    Within { free := true, finds := true, due := true, trcCfg := true, irq := true, slices := true, banks := true, chans := true, far := true, near := true, memIo := true, hsf := true, bisnps := true, links := true, pba := true, hreqs := true, accs := true, lse := true, fnc := true, xlts := true, xinv := true, rtrTx := true, dom := true, pors := true, ledger := true, bkt := true, flip := true, ras := true, mgt := true, events := true, trc := true, outs := true } s (State.fillRead s a1 a2 a3 a4) := by
  unfold State.fillRead
  extract_lets +onlyGivenNames x
  clear_value x
  extract_lets +onlyGivenNames x
  clear_value x
  extract_lets +onlyGivenNames x
  refine Within.cutS1 (x := x) ?_ ?_ <;> [(intro _ _; unfold x; clear x; try beta_reduce); (intro _; clear_value x)]
  · extract_lets +onlyGivenNames x
    refine Within.cut (x := x) ?_ ?_ <;> [(unfold x; clear x); (obtain ⟨y, e⟩ := named x; rewrite [← e]; clear e x; intro _)]
    · refine Within.ite ?_ ?_
      · refine Within.app (State.lockLine_within _ _ _) rfl ?_
        exact Within.refl _ _
      exact Within.refl _ _
    refine Within.app (State.ownClose_within _ _ _) rfl ?_
    refine Within.app (State.reqDone_within _ _ _ _ _) rfl ?_
    refine Within.app (State.stampAdvs_within _ _ _) rfl ?_
    assumption
  extract_lets +onlyGivenNames x
  clear_value x
  extract_lets +onlyGivenNames x
  clear_value x
  extract_lets +onlyGivenNames x
  refine Within.cut (x := x) ?_ ?_ <;> [(unfold x; clear x); (obtain ⟨y, e⟩ := named x; rewrite [← e]; clear e x; intro _)]
  · refine Within.ite ?_ ?_
    · refine Within.app (State.event_within _ _ _ _) rfl ?_
      exact Within.refl _ _
    exact Within.refl _ _
  refine Within.ite ?_ ?_
  · extract_lets +onlyGivenNames x
    refine Within.cut (x := x) ?_ ?_ <;> [(unfold x; clear x); (obtain ⟨y, e⟩ := named x; rewrite [← e]; clear e x; intro _)]
    · refine Within.ite ?_ ?_
      · refine Within.app (State.event_within _ _ _ _) rfl ?_
        assumption
      assumption
    extract_lets +onlyGivenNames x
    refine Within.cut (x := x) ?_ ?_ <;> [(unfold x; clear x); (obtain ⟨y, e⟩ := named x; rewrite [← e]; clear e x; intro _)]
    · refine Within.ite ?_ ?_
      · refine Within.app (State.modRange_within _ _) rfl ?_
        assumption
      assumption
    extract_lets +onlyGivenNames x
    refine Within.cut (x := x) ?_ ?_ <;> [(unfold x; clear x); (obtain ⟨y, e⟩ := named x; rewrite [← e]; clear e x; intro _)]
    · refine Within.app (State.ownClose_within _ _ _) rfl ?_
      refine Within.app (State.reqDone_within _ _ _ _ _) rfl ?_
      refine Within.app (State.stampAdvs_within _ _ _) rfl ?_
      assumption
    extract_lets +onlyGivenNames x
    refine Within.cut (x := x) ?_ ?_ <;> [(unfold x; clear x); (obtain ⟨y, e⟩ := named x; rewrite [← e]; clear e x; intro _)]
    · refine Within.ite ?_ ?_
      · refine Within.app (State.event_within _ _ _ _) rfl ?_
        refine Within.app (State.sendCoh_within _ _ _) rfl ?_
        assumption
      assumption
    refine Within.ite ?_ ?_
    · refine Within.app (State.serveFrom_within _ _ _ _ _ _ _) rfl ?_
      assumption
    refine Within.app (State.serveSecs_within _ _ _ _) rfl ?_
    assumption
  split
  · refine Within.app (State.serveSecs_within _ _ _ _) rfl ?_
    refine Within.callS1 (by assumption) ?_
    refine Within.ite ?_ ?_
    · assumption
    refine Within.app (State.hitReq_within _ _ _ _) rfl ?_
    assumption
  extract_lets +onlyGivenNames x
  clear_value x
  split
  · extract_lets +onlyGivenNames x
    refine Within.cut (x := x) ?_ ?_ <;> [(unfold x; clear x); (obtain ⟨y, e⟩ := named x; rewrite [← e]; clear e x; intro _)]
    · refine Within.ite ?_ ?_
      · refine Within.app (State.enroll_within _ _ _) rfl ?_
        refine WithinO.get (State.fill_within _ _ _ _ _ _ _) (by assumption) rfl ?_
        assumption
      refine WithinO.get (State.fill_within _ _ _ _ _ _ _) (by assumption) rfl ?_
      assumption
    extract_lets +onlyGivenNames x
    refine Within.cut (x := x) ?_ ?_ <;> [(unfold x; clear x); (obtain ⟨y, e⟩ := named x; rewrite [← e]; clear e x; intro _)]
    · refine Within.ite ?_ ?_
      · refine Within.app (State.startHold_within _ _ _) rfl ?_
        assumption
      assumption
    refine Within.app (State.serveSecs_within _ _ _ _) rfl ?_
    refine Within.callS1 (by assumption) ?_
    assumption
  refine Within.ite ?_ ?_
  · extract_lets +onlyGivenNames x
    refine Within.cut (x := x) ?_ ?_ <;> [(unfold x; clear x); (obtain ⟨y, e⟩ := named x; rewrite [← e]; clear e x; intro _)]
    · refine Within.app (State.event_within _ _ _ _) rfl ?_
      assumption
    extract_lets +onlyGivenNames x
    refine Within.cut (x := x) ?_ ?_ <;> [(unfold x; clear x); (obtain ⟨y, e⟩ := named x; rewrite [← e]; clear e x; intro _)]
    · refine Within.ite ?_ ?_
      · refine Within.app (State.event_within _ _ _ _) rfl ?_
        refine Within.app (State.sendCoh_within _ _ _) rfl ?_
        assumption
      assumption
    refine Within.app (State.mrClose_within _ _ _) rfl ?_
    refine Within.app (State.ownClose_within _ _ _) rfl ?_
    assumption
  refine Within.app (State.event_within _ _ _ _) rfl ?_
  assumption

theorem State.fillMr_within (s : State) (a1) (a2) :
    Within { free := true, finds := true, due := true, trcCfg := true, irq := true, slices := true, banks := true, chans := true, far := true, near := true, memIo := true, hsf := true, bisnps := true, links := true, pba := true, hreqs := true, accs := true, lse := true, fnc := true, xlts := true, xinv := true, rtrTx := true, dom := true, pors := true, ledger := true, bkt := true, flip := true, ras := true, mgt := true, events := true, trc := true, outs := true } s (State.fillMr s a1 a2) := by
  unfold State.fillMr
  split
  · exact Within.refl _ _
  refine Within.ite ?_ ?_
  · split
    · refine Within.app (State.serveFrom_within _ _ _ _ _ _ _) rfl ?_
      exact Within.refl _ _
    refine Within.app (State.serveSecs_within _ _ _ _) rfl ?_
    exact Within.refl _ _
  refine Within.ite ?_ ?_
  · exact Within.refl _ _
  extract_lets +onlyGivenNames x
  clear_value x
  extract_lets +onlyGivenNames x
  clear_value x
  extract_lets +onlyGivenNames x
  clear_value x
  refine Within.ite ?_ ?_
  · refine Within.app (State.event_within _ _ _ _) rfl ?_
    exact Within.refl _ _
  split
  split
  · refine Within.ite ?_ ?_
    · refine Within.app (State.serveSecs_within _ _ _ _) rfl ?_
      refine Within.ite ?_ ?_
      · refine Within.app (State.reqDone_within _ _ _ _ _) rfl ?_
        refine WithinP.eq (by assumption) ?_
        refine WithinP.ite ?_ ?_
        · refine WithinP.mk ?_
          exact Within.refl _ _
        refine WithinP.app (State.touchGuess_within _ _ _ _) rfl ?_
        exact Within.refl _ _
      refine WithinP.eq (by assumption) ?_
      refine WithinP.ite ?_ ?_
      · refine WithinP.mk ?_
        exact Within.refl _ _
      refine WithinP.app (State.touchGuess_within _ _ _ _) rfl ?_
      exact Within.refl _ _
    refine Within.ite ?_ ?_
    · refine Within.app (State.serveSecs_within _ _ _ _) rfl ?_
      refine Within.app (State.ownClose_within _ _ _) rfl ?_
      refine Within.app (State.reqFail_within _ _ _) rfl ?_
      refine WithinP.eq (by assumption) ?_
      refine WithinP.ite ?_ ?_
      · refine WithinP.mk ?_
        exact Within.refl _ _
      refine WithinP.app (State.touchGuess_within _ _ _ _) rfl ?_
      exact Within.refl _ _
    extract_lets +onlyGivenNames x
    clear_value x
    split
    · refine WithinL.ofNeeds (State.fillOwned_within _ _ _ _) (by assumption) rfl ?_
      refine WithinP.eq (by assumption) ?_
      refine WithinP.ite ?_ ?_
      · refine WithinP.mk ?_
        exact Within.refl _ _
      refine WithinP.app (State.touchGuess_within _ _ _ _) rfl ?_
      exact Within.refl _ _
    · refine Within.ite ?_ ?_
      · refine Within.app (State.servePoison_within _ _ _ _) rfl ?_
        refine Within.app (State.ownClose_within _ _ _) rfl ?_
        refine WithinL.ofServed (State.fillOwned_within _ _ _ _) (by assumption) rfl ?_
        refine WithinP.eq (by assumption) ?_
        refine WithinP.ite ?_ ?_
        · refine WithinP.mk ?_
          exact Within.refl _ _
        refine WithinP.app (State.touchGuess_within _ _ _ _) rfl ?_
        exact Within.refl _ _
      refine Within.app (State.serveSecs_within _ _ _ _) rfl ?_
      refine Within.app (State.ownClose_within _ _ _) rfl ?_
      refine WithinL.ofServed (State.fillOwned_within _ _ _ _) (by assumption) rfl ?_
      refine WithinP.eq (by assumption) ?_
      refine WithinP.ite ?_ ?_
      · refine WithinP.mk ?_
        exact Within.refl _ _
      refine WithinP.app (State.touchGuess_within _ _ _ _) rfl ?_
      exact Within.refl _ _
    refine Within.app (State.event_within _ _ _ _) rfl ?_
    refine WithinL.ofWait (State.fillOwned_within _ _ _ _) (by assumption) rfl ?_
    refine WithinP.eq (by assumption) ?_
    refine WithinP.ite ?_ ?_
    · refine WithinP.mk ?_
      exact Within.refl _ _
    refine WithinP.app (State.touchGuess_within _ _ _ _) rfl ?_
    exact Within.refl _ _
  · refine Within.ite ?_ ?_
    · split
      refine Within.app (State.serveSecs_within _ _ _ _) rfl ?_
      refine Within.app (State.reqDone_within _ _ _ _ _) rfl ?_
      refine WithinP.eq (by assumption) ?_
      refine WithinP.ite ?_ ?_
      · refine WithinP.mk ?_
        exact Within.refl _ _
      refine WithinP.app (State.touchGuess_within _ _ _ _) rfl ?_
      exact Within.refl _ _
    refine Within.ite ?_ ?_
    · refine Within.app (State.serveSecs_within _ _ _ _) rfl ?_
      refine Within.app (State.ownClose_within _ _ _) rfl ?_
      refine Within.app (State.reqFail_within _ _ _) rfl ?_
      refine WithinP.eq (by assumption) ?_
      refine WithinP.ite ?_ ?_
      · refine WithinP.mk ?_
        exact Within.refl _ _
      refine WithinP.app (State.touchGuess_within _ _ _ _) rfl ?_
      exact Within.refl _ _
    split
    · refine Within.app (State.serveSecs_within _ _ _ _) rfl ?_
      refine Within.app (State.ownClose_within _ _ _) rfl ?_
      refine WithinL.ofServed (State.fillOwned_within _ _ _ _) (by assumption) rfl ?_
      refine WithinP.eq (by assumption) ?_
      refine WithinP.ite ?_ ?_
      · refine WithinP.mk ?_
        exact Within.refl _ _
      refine WithinP.app (State.touchGuess_within _ _ _ _) rfl ?_
      exact Within.refl _ _
    · refine Within.app (State.serveSecs_within _ _ _ _) rfl ?_
      refine Within.app (State.ownClose_within _ _ _) rfl ?_
      refine WithinL.ofNeeds (State.fillOwned_within _ _ _ _) (by assumption) rfl ?_
      refine WithinP.eq (by assumption) ?_
      refine WithinP.ite ?_ ?_
      · refine WithinP.mk ?_
        exact Within.refl _ _
      refine WithinP.app (State.touchGuess_within _ _ _ _) rfl ?_
      exact Within.refl _ _
    refine Within.app (State.event_within _ _ _ _) rfl ?_
    refine WithinL.ofWait (State.fillOwned_within _ _ _ _) (by assumption) rfl ?_
    refine WithinP.eq (by assumption) ?_
    refine WithinP.ite ?_ ?_
    · refine WithinP.mk ?_
      exact Within.refl _ _
    refine WithinP.app (State.touchGuess_within _ _ _ _) rfl ?_
    exact Within.refl _ _
  split
  refine Within.ite ?_ ?_
  · extract_lets +onlyGivenNames x
    refine Within.cut (x := x) ?_ ?_ <;> [(unfold x; clear x); (obtain ⟨y, e⟩ := named x; rewrite [← e]; clear e x; intro _)]
    · refine Within.ite ?_ ?_
      · refine Within.app (State.modRange_within _ _) rfl ?_
        refine WithinP.eq (by assumption) ?_
        refine WithinP.ite ?_ ?_
        · refine WithinP.mk ?_
          exact Within.refl _ _
        refine WithinP.app (State.touchGuess_within _ _ _ _) rfl ?_
        exact Within.refl _ _
      refine WithinP.eq (by assumption) ?_
      refine WithinP.ite ?_ ?_
      · refine WithinP.mk ?_
        exact Within.refl _ _
      refine WithinP.app (State.touchGuess_within _ _ _ _) rfl ?_
      exact Within.refl _ _
    refine Within.app (State.servePoison_within _ _ _ _) rfl ?_
    refine Within.app (State.ownClose_within _ _ _) rfl ?_
    refine Within.app (State.poisoned_within _ _ _ _) rfl ?_
    assumption
  split
  · refine Within.app (State.event_within _ _ _ _) rfl ?_
    refine WithinO.eq (by assumption) ?_
    refine WithinO.ite ?_ ?_
    · refine WithinO.app (State.hostGate_within _ _) rfl ?_
      refine WithinP.eq (by assumption) ?_
      refine WithinP.ite ?_ ?_
      · refine WithinP.mk ?_
        exact Within.refl _ _
      refine WithinP.app (State.touchGuess_within _ _ _ _) rfl ?_
      exact Within.refl _ _
    exact WithinO.none _ _
  refine Within.app (State.fillRead_within _ _ _ _ _) rfl ?_
  refine WithinP.eq (by assumption) ?_
  refine WithinP.ite ?_ ?_
  · refine WithinP.mk ?_
    exact Within.refl _ _
  refine WithinP.app (State.touchGuess_within _ _ _ _) rfl ?_
  exact Within.refl _ _

theorem State.fillTrk_within (s : State) (a1) (a2) :
    Within { free := true, finds := true, due := true, trcCfg := true, irq := true, slices := true, banks := true, chans := true, near := true, memIo := true, bisnps := true, pba := true, rtrTx := true, ledger := true, bkt := true, flip := true, events := true, trc := true, outs := true } s (State.fillTrk s a1 a2) := by
  unfold State.fillTrk
  split
  · exact Within.refl _ _
  extract_lets +onlyGivenNames x
  clear_value x
  refine Within.ite ?_ ?_
  · exact Within.refl _ _
  extract_lets +onlyGivenNames x
  clear_value x
  split
  refine Within.ite ?_ ?_
  · refine Within.app (State.homeDone_within _ _ _ _) rfl ?_
    refine Within.app (State.homeData_within _ _ _ _ _) rfl ?_
    refine Within.app (State.rec__within _ _ _ _ _ _) rfl ?_
    exact Within.refl _ _
  refine Within.ite ?_ ?_
  · refine Within.app (State.event_within _ _ _ _) rfl ?_
    exact Within.refl _ _
  split
  split
  · split
    refine Within.app (State.homeDone_within _ _ _ _) rfl ?_
    refine Within.app (State.homeData_within _ _ _ _ _) rfl ?_
    refine WithinP.get (State.atomHere_within _ _ _ _ _ _ _ _) (by assumption) rfl ?_
    refine WithinP.get (State.touchGuess_within _ _ _ _) (by assumption) rfl ?_
    exact Within.refl _ _
  split
  refine Within.ite ?_ ?_
  · refine Within.app (State.homeDone_within _ _ _ _) rfl ?_
    refine Within.app (State.homeData_within _ _ _ _ _) rfl ?_
    refine Within.app (State.farWriteLine_within _ _ _ _) rfl ?_
    refine WithinP.get (State.touchGuess_within _ _ _ _) (by assumption) rfl ?_
    exact Within.refl _ _
  split
  · refine Within.app (State.homeDone_within _ _ _ _) rfl ?_
    refine Within.app (State.homeData_within _ _ _ _ _) rfl ?_
    refine Within.ite ?_ ?_
    · refine WithinO.get (State.fill_within _ _ _ _ _ _ _) (by assumption) rfl ?_
      refine WithinP.get (State.touchGuess_within _ _ _ _) (by assumption) rfl ?_
      exact Within.refl _ _
    refine Within.app (State.event_within _ _ _ _) rfl ?_
    refine WithinO.get (State.fill_within _ _ _ _ _ _ _) (by assumption) rfl ?_
    refine WithinP.get (State.touchGuess_within _ _ _ _) (by assumption) rfl ?_
    exact Within.refl _ _
  refine Within.app (State.event_within _ _ _ _) rfl ?_
  refine WithinP.get (State.touchGuess_within _ _ _ _) (by assumption) rfl ?_
  exact Within.refl _ _

theorem State.flatPass_within (s : State) (a1) (a2) :
    Within { free := true, finds := true, due := true, trcCfg := true, irq := true, slices := true, chans := true, near := true, memIo := true, hsf := true, bisnps := true, links := true, pba := true, hreqs := true, accs := true, lse := true, fnc := true, xlts := true, xinv := true, pors := true, ledger := true, bkt := true, flip := true, mgt := true, events := true, trc := true, outs := true } s (State.flatPass s a1 a2) := by
  unfold State.flatPass
  split
  refine Within.ite ?_ ?_
  · refine Within.app (State.dequeue_within _ _ _) rfl ?_
    refine Within.app (State.reqFail_within _ _ _) rfl ?_
    exact Within.refl _ _
  split
  · refine Within.app (State.event_within _ _ _ _) rfl ?_
    refine WithinO.get (State.hostGate_within _ _) (by assumption) rfl ?_
    exact Within.refl _ _
  extract_lets +onlyGivenNames x
  clear_value x
  split
  extract_lets +onlyGivenNames x
  refine Within.cut (x := x) ?_ ?_ <;> [(unfold x; clear x); (obtain ⟨y, e⟩ := named x; rewrite [← e]; clear e x; intro _)]
  · refine Within.ite ?_ ?_
    · refine Within.app (State.ueData_within _ _ _ _ _) rfl ?_
      refine WithinP.eq (by assumption) ?_
      refine WithinP.ite ?_ ?_
      · refine WithinP.app (State.readWay_within _ _ _ _ _) rfl ?_
        exact Within.refl _ _
      refine WithinP.mk ?_
      exact Within.refl _ _
    refine WithinP.eq (by assumption) ?_
    refine WithinP.ite ?_ ?_
    · refine WithinP.app (State.readWay_within _ _ _ _ _) rfl ?_
      exact Within.refl _ _
    refine WithinP.mk ?_
    exact Within.refl _ _
  split
  extract_lets +onlyGivenNames x
  clear_value x
  extract_lets +onlyGivenNames x
  clear_value x
  extract_lets +onlyGivenNames x
  refine Within.cut (x := x) ?_ ?_ <;> [(unfold x; clear x); (obtain ⟨y, e⟩ := named x; rewrite [← e]; clear e x; intro _)]
  · split
    · refine Within.app (State.reqDone_within _ _ _ _ _) rfl ?_
      refine Within.app (State.wayPut_within _ _ _ _ _ _) rfl ?_
      assumption
    · refine Within.ite ?_ ?_
      · refine Within.app (State.reqDone_within _ _ _ _ _) rfl ?_
        assumption
      split
      refine Within.app (State.reqDone_within _ _ _ _ _) rfl ?_
      refine Within.app (State.wayPut_within _ _ _ _ _ _) rfl ?_
      assumption
    refine Within.app (State.reqDone_within _ _ _ _ _) rfl ?_
    assumption
  refine Within.app (State.dequeue_within _ _ _) rfl ?_
  assumption

theorem State.joinTime_within (s : State) (a1) (a2) (a3) :
    Within { hreqs := true } s (State.joinTime s a1 a2 a3) := by
  unfold State.joinTime
  extract_lets +onlyGivenNames x
  clear_value x
  refine Within.ite ?_ ?_
  · refine Within.ite ?_ ?_
    · refine Within.app (State.extend_within _ _ _) rfl ?_
      exact Within.refl _ _
    exact Within.refl _ _
  refine Within.ite ?_ ?_
  · split
    · exact Within.refl _ _
    refine Within.ite ?_ ?_
    · refine Within.app (State.extend_within _ _ _) rfl ?_
      exact Within.refl _ _
    refine Within.ite ?_ ?_
    · refine Within.app (State.recallWait_within _ _ _ _) rfl ?_
      exact Within.refl _ _
    exact Within.refl _ _
  exact Within.refl _ _

theorem State.joinMr_within (s : State) (a1) (a2) (a3) :
    Within { slices := true, hreqs := true, events := true } s (State.joinMr s a1 a2 a3) := by
  unfold State.joinMr
  extract_lets +onlyGivenNames x
  refine Within.cut (x := x) ?_ ?_ <;> [(unfold x; clear x); (obtain ⟨y, e⟩ := named x; rewrite [← e]; clear e x; intro _)]
  · refine Within.app (State.modMr_within _ _ _ _) rfl ?_
    exact Within.refl _ _
  refine Within.app (State.dequeue_within _ _ _) rfl ?_
  refine Within.app (State.joinTime_within _ _ _ _) rfl ?_
  refine Within.app (State.classify_within _ _ _) rfl ?_
  refine Within.app (State.event_within _ _ _ _) rfl ?_
  assumption

theorem State.prefetchLate_within (s : State) (a1) (a2) :
    Within { free := true, finds := true, due := true, trcCfg := true, irq := true, slices := true, banks := true, chans := true, far := true, near := true, memIo := true, hsf := true, bisnps := true, links := true, pba := true, hreqs := true, accs := true, fnc := true, xlts := true, xinv := true, rtrTx := true, dom := true, pors := true, ledger := true, bkt := true, flip := true, ras := true, mgt := true, events := true, trc := true, outs := true } s (State.prefetchLate s a1 a2) := by
  unfold State.prefetchLate
  extract_lets +onlyGivenNames x
  clear_value x
  refine Within.ite ?_ ?_
  · refine Within.app (State.prefetch_within _ _ _ _) rfl ?_
    exact Within.refl _ _
  refine Within.app (State.event_within _ _ _ _) rfl ?_
  exact Within.refl _ _

theorem State.missOpen_within (s : State) (a1) (a2) (a3) :
    Within { free := true, finds := true, due := true, trcCfg := true, irq := true, slices := true, banks := true, chans := true, far := true, near := true, memIo := true, hsf := true, bisnps := true, links := true, pba := true, hreqs := true, accs := true, fnc := true, xlts := true, xinv := true, rtrTx := true, dom := true, pors := true, ledger := true, bkt := true, flip := true, ras := true, mgt := true, events := true, trc := true, outs := true } s (State.missOpen s a1 a2 a3) := by
  unfold State.missOpen
  split
  · refine Within.app (State.noReg_within _ _ _) rfl ?_
    exact Within.refl _ _
  extract_lets +onlyGivenNames x
  refine Within.cut (x := x) ?_ ?_ <;> [(unfold x; clear x); (obtain ⟨y, e⟩ := named x; rewrite [← e]; clear e x; intro _)]
  · refine Within.app (State.event_within _ _ _ _) rfl ?_
    refine Within.app (State.dequeue_within _ _ _) rfl ?_
    refine Within.app (State.mrOpen_within (by assumption)) rfl ?_
    exact Within.refl _ _
  extract_lets +onlyGivenNames x
  refine Within.cut (x := x) ?_ ?_ <;> [(unfold x; clear x); (obtain ⟨y, e⟩ := named x; rewrite [← e]; clear e x; intro _)]
  · refine Within.ite ?_ ?_
    · refine Within.app (State.train_within _ _ _) rfl ?_
      assumption
    assumption
  refine Within.app (State.mrSend_within _ _ _) rfl ?_
  assumption

theorem State.judge_within (s : State) (a1) (a2) (a3) :
    Within { free := true, finds := true, due := true, trcCfg := true, irq := true, slices := true, banks := true, chans := true, far := true, near := true, memIo := true, hsf := true, bisnps := true, links := true, pba := true, hreqs := true, accs := true, lse := true, fnc := true, xlts := true, xinv := true, rtrTx := true, dom := true, pors := true, ledger := true, bkt := true, flip := true, ras := true, mgt := true, events := true, trc := true, outs := true } s (State.judge s a1 a2 a3) := by
  unfold State.judge
  refine Within.ite ?_ ?_
  · refine Within.app (State.prefetchLate_within _ _ _) rfl ?_
    refine Within.app (State.dequeue_within _ _ _) rfl ?_
    exact Within.refl _ _
  split
  · refine Within.app (State.dequeue_within _ _ _) rfl ?_
    refine WithinL.ofServed (State.serve_within _ _ _ _) (by assumption) rfl ?_
    exact Within.refl _ _
  · refine Within.app (State.event_within _ _ _ _) rfl ?_
    refine WithinL.ofWait (State.serve_within _ _ _ _) (by assumption) rfl ?_
    exact Within.refl _ _
  refine Within.app (State.missOpen_within _ _ _ _) rfl ?_
  refine WithinL.ofNeeds (State.serve_within _ _ _ _) (by assumption) rfl ?_
  exact Within.refl _ _

theorem State.waitVb_within (s : State) (a1) (a2) :
    Within { free := true, finds := true, due := true, trcCfg := true, irq := true, slices := true, banks := true, chans := true, far := true, near := true, memIo := true, hsf := true, bisnps := true, links := true, pba := true, hreqs := true, accs := true, fnc := true, xlts := true, xinv := true, rtrTx := true, dom := true, pors := true, ledger := true, bkt := true, flip := true, ras := true, mgt := true, events := true, trc := true, outs := true } s (State.waitVb s a1 a2) := by
  unfold State.waitVb
  split
  · refine Within.app (State.train_within _ _ _) rfl ?_
    refine Within.app (State.event_within _ _ _ _) rfl ?_
    refine Within.app (State.dequeue_within _ _ _) rfl ?_
    refine Within.app (State.mrOpen_within (by assumption)) rfl ?_
    exact Within.refl _ _
  refine Within.app (State.noReg_within _ _ _) rfl ?_
  exact Within.refl _ _

theorem State.meetVb_within (s : State) (a1) (a2) (a3) :
    Within { free := true, finds := true, due := true, trcCfg := true, irq := true, slices := true, banks := true, chans := true, far := true, near := true, memIo := true, hsf := true, bisnps := true, links := true, pba := true, hreqs := true, accs := true, lse := true, fnc := true, xlts := true, xinv := true, rtrTx := true, dom := true, pors := true, ledger := true, bkt := true, flip := true, ras := true, mgt := true, events := true, trc := true, outs := true } s (State.meetVb s a1 a2 a3) := by
  unfold State.meetVb
  extract_lets +onlyGivenNames x
  clear_value x
  split
  · refine Within.ite ?_ ?_
    · refine Within.app (State.missOpen_within _ _ _ _) rfl ?_
      exact Within.refl _ _
    split
    · refine Within.app (State.event_within _ _ _ _) rfl ?_
      refine WithinO.get (State.hostGate_within _ _) (by assumption) rfl ?_
      exact Within.refl _ _
    extract_lets +onlyGivenNames x
    clear_value x
    extract_lets +onlyGivenNames x
    refine Within.cut (x := x) ?_ ?_ <;> [(unfold x; clear x); (obtain ⟨y, e⟩ := named x; rewrite [← e]; clear e x; intro _)]
    · refine Within.app (State.stampAdvs_within _ _ _) rfl ?_
      exact Within.refl _ _
    extract_lets +onlyGivenNames x
    refine Within.cut (x := x) ?_ ?_ <;> [(unfold x; clear x); (obtain ⟨y, e⟩ := named x; rewrite [← e]; clear e x; intro _)]
    · refine Within.app (State.reqDone_within _ _ _ _ _) rfl ?_
      assumption
    extract_lets +onlyGivenNames x
    refine Within.cut (x := x) ?_ ?_ <;> [(unfold x; clear x); (obtain ⟨y, e⟩ := named x; rewrite [← e]; clear e x; intro _)]
    · refine Within.ite ?_ ?_
      · refine Within.app (State.recallAll_within _ _ _) rfl ?_
        assumption
      assumption
    refine Within.app (State.dequeue_within _ _ _) rfl ?_
    assumption
  · refine Within.app (State.event_within _ _ _ _) rfl ?_
    refine Within.app (State.dequeue_within _ _ _) rfl ?_
    exact Within.refl _ _
  · refine Within.ite ?_ ?_
    · refine Within.app (State.missOpen_within _ _ _ _) rfl ?_
      exact Within.refl _ _
    refine Within.ite ?_ ?_
    · split
      · refine Within.app (State.event_within _ _ _ _) rfl ?_
        refine WithinO.get (State.hostGate_within _ _) (by assumption) rfl ?_
        exact Within.refl _ _
      extract_lets +onlyGivenNames x
      clear_value x
      refine Within.app (State.dequeue_within _ _ _) rfl ?_
      refine Within.app (State.reqDone_within _ _ _ _ _) rfl ?_
      refine Within.app (State.modVb_within _ _ _ _) rfl ?_
      exact Within.refl _ _
    refine Within.app (State.waitVb_within _ _ _) rfl ?_
    exact Within.refl _ _
  refine Within.app (State.waitVb_within _ _ _) rfl ?_
  exact Within.refl _ _

theorem State.tagMiss_within (s : State) (a1) (a2) (a3) :
    Within { free := true, slices := true, chans := true, memIo := true, flip := true, events := true } s (State.tagMiss s a1 a2 a3) := by
  unfold State.tagMiss
  split
  refine Within.app (State.modSlice_within _ _ _) rfl ?_
  refine Within.getF (State.tagIssue_within _ _ _ _) (by assumption) rfl ?_
  exact Within.refl _ _

theorem State.lookup_within (s : State) (a1) (a2) (a3) :
    Within { free := true, finds := true, due := true, trcCfg := true, irq := true, slices := true, banks := true, chans := true, far := true, near := true, memIo := true, hsf := true, bisnps := true, links := true, pba := true, hreqs := true, accs := true, lse := true, fnc := true, xlts := true, xinv := true, rtrTx := true, dom := true, pors := true, ledger := true, bkt := true, flip := true, ras := true, mgt := true, events := true, trc := true, outs := true } s (State.lookup s a1 a2 a3) := by
  unfold State.lookup
  extract_lets +onlyGivenNames x
  clear_value x
  split
  · exact Within.refl _ _
  refine Within.ite ?_ ?_
  · exact Within.refl _ _
  refine Within.ite ?_ ?_
  · refine Within.app (State.flatPass_within _ _ _) rfl ?_
    exact Within.refl _ _
  extract_lets +onlyGivenNames x
  refine Within.cut (x := x) ?_ ?_ <;> [(unfold x; clear x); (obtain ⟨y, e⟩ := named x; rewrite [← e]; clear e x; intro _)]
  · refine Within.app (State.pipe_within _ _ _ _ _) rfl ?_
    exact Within.refl _ _
  extract_lets +onlyGivenNames x
  clear_value x
  extract_lets +onlyGivenNames x
  refine Within.cut (x := x) ?_ ?_ <;> [(unfold x; clear x); (obtain ⟨y, e⟩ := named x; rewrite [← e]; clear e x; intro _)]
  · refine Within.app (State.modSlice_within _ _ _) rfl ?_
    assumption
  refine Within.ite ?_ ?_
  · refine Within.app (State.dequeue_within _ _ _) rfl ?_
    refine Within.app (State.reqFail_within _ _ _) rfl ?_
    refine Within.ite ?_ ?_
    · refine Within.app (State.train_within _ _ _) rfl ?_
      assumption
    assumption
  split
  · refine Within.ite ?_ ?_
    · refine Within.app (State.event_within _ _ _ _) rfl ?_
      refine Within.app (State.dequeue_within _ _ _) rfl ?_
      assumption
    refine Within.ite ?_ ?_
    · refine Within.app (State.event_within _ _ _ _) rfl ?_
      refine Within.app (State.modMr_within _ _ _ _) rfl ?_
      assumption
    refine Within.app (State.joinMr_within _ _ _ _) rfl ?_
    assumption
  split
  · refine Within.app (State.meetVb_within _ _ _ _) rfl ?_
    assumption
  extract_lets +onlyGivenNames x
  clear_value x
  extract_lets +onlyGivenNames x
  clear_value x
  refine Within.ite ?_ ?_
  · refine Within.app (State.judge_within _ _ _ _) rfl ?_
    assumption
  refine Within.ite ?_ ?_
  · refine Within.app (State.event_within _ _ _ _) rfl ?_
    assumption
  refine Within.ite ?_ ?_
  · refine Within.app (State.tagMiss_within _ _ _ _) rfl ?_
    refine Within.app (State.event_within _ _ _ _) rfl ?_
    assumption
  extract_lets +onlyGivenNames x
  refine Within.cutS (x := x) ?_ ?_ <;> [(intro _; unfold x; clear x; try beta_reduce); (intro _; clear_value x)]
  · split
    · refine Within.app (State.tagMiss_within _ _ _ _) rfl ?_
      refine Within.app (State.event_within _ _ _ _) rfl ?_
      refine WithinO.get (State.tcAlloc_within _ _ _) (by assumption) rfl ?_
      exact Within.refl _ _
    refine Within.app (State.event_within _ _ _ _) rfl ?_
    exact Within.refl _ _
  split
  · refine Within.ite ?_ ?_
    · refine Within.app (State.event_within _ _ _ _) rfl ?_
      assumption
    refine Within.ite ?_ ?_
    · refine Within.callS (by assumption) ?_
      refine Within.app (State.modSlice_within _ _ _) rfl ?_
      refine Within.app (State.rec__within _ _ _ _ _ _) rfl ?_
      assumption
    refine Within.app (State.judge_within _ _ _ _) rfl ?_
    refine Within.app (State.event_within _ _ _ _) rfl ?_
    refine Within.app (State.modSlice_within _ _ _) rfl ?_
    assumption
  refine Within.callS (by assumption) ?_
  assumption

theorem State.tagsKnown_within (s : State) (a1) (a2) :
    Within { free := true, finds := true, due := true, trcCfg := true, irq := true, slices := true, banks := true, chans := true, far := true, near := true, memIo := true, hsf := true, bisnps := true, links := true, pba := true, hreqs := true, accs := true, lse := true, fnc := true, xlts := true, xinv := true, rtrTx := true, dom := true, pors := true, ledger := true, bkt := true, flip := true, ras := true, mgt := true, events := true, trc := true, outs := true } s (State.tagsKnown s a1 a2) := by
  unfold State.tagsKnown
  extract_lets +onlyGivenNames x
  clear_value x
  extract_lets +onlyGivenNames x
  clear_value x
  extract_lets +onlyGivenNames x
  clear_value x
  refine Within.ite ?_ ?_
  · exact Within.refl _ _
  extract_lets +onlyGivenNames x
  refine Within.cut (x := x) ?_ ?_ <;> [(unfold x; clear x); (obtain ⟨y, e⟩ := named x; rewrite [← e]; clear e x; intro _)]
  · split
    · refine Within.app (State.modSlice_within _ _ _) rfl ?_
      exact Within.refl _ _
    exact Within.refl _ _
  extract_lets +onlyGivenNames x
  refine Within.cut (x := x) ?_ ?_ <;> [(unfold x; clear x); (obtain ⟨y, e⟩ := named x; rewrite [← e]; clear e x; intro _)]
  · split
    · refine Within.app (State.predict_within _ _ _ _) rfl ?_
      refine Within.ite ?_ ?_
      · refine Within.app (State.guessLost_within _ _ _ _) rfl ?_
        refine Within.app (State.event_within _ _ _ _) rfl ?_
        assumption
      assumption
    refine Within.app (State.guessLost_within _ _ _ _) rfl ?_
    assumption
  refine Within.app (State.judge_within _ _ _ _) rfl ?_
  assumption

theorem State.tagsArrive_within (s : State) (a1) (a2) (a3) :
    Within { free := true, finds := true, due := true, trcCfg := true, irq := true, slices := true, banks := true, chans := true, far := true, near := true, memIo := true, hsf := true, bisnps := true, links := true, pba := true, hreqs := true, accs := true, lse := true, fnc := true, xlts := true, xinv := true, rtrTx := true, dom := true, pors := true, ledger := true, bkt := true, flip := true, ras := true, mgt := true, events := true, trc := true, outs := true } s (State.tagsArrive s a1 a2 a3) := by
  unfold State.tagsArrive
  extract_lets +onlyGivenNames x
  clear_value x
  refine Within.ite ?_ ?_
  · exact Within.refl _ _
  extract_lets +onlyGivenNames x
  clear_value x
  extract_lets +onlyGivenNames x
  refine Within.cut (x := x) ?_ ?_ <;> [(unfold x; clear x); (obtain ⟨y, e⟩ := named x; rewrite [← e]; clear e x; intro _)]
  · refine Within.app (State.tagRead_within _ _ _ _) rfl ?_
    refine Within.app (State.modSlice_within _ _ _) rfl ?_
    exact Within.refl _ _
  split
  extract_lets +onlyGivenNames x
  clear_value x
  extract_lets +onlyGivenNames x
  clear_value x
  extract_lets +onlyGivenNames x
  refine Within.cut (x := x) ?_ ?_ <;> [(unfold x; clear x); (obtain ⟨y, e⟩ := named x; rewrite [← e]; clear e x; intro _)]
  · refine Within.app (State.modSlice_within _ _ _) rfl ?_
    refine WithinP.eq (by assumption) ?_
    split
    · refine WithinP.ite ?_ ?_
      · refine WithinP.mk ?_
        assumption
      refine WithinP.ite ?_ ?_
      · refine WithinP.mk ?_
        refine Within.app (State.modSlice_within _ _ _) rfl ?_
        assumption
      refine WithinP.mk ?_
      refine Within.app (State.modSlice_within _ _ _) rfl ?_
      assumption
    refine WithinP.mk ?_
    assumption
  refine Within.foldl (fun _ _ => ?_) ?_
  · refine Within.app (State.tagsKnown_within _ _ _) rfl ?_
    exact Within.refl _ _
  assumption

end Sys2Proof.Machine
end

