-- ==== Sys2Proof/Laws/Snoop.lean ====
section
/-! SUPPORT. For each operation of Machine/Snoop.lean one lemma: which pieces of the state it can change, and that it keeps the
invariant of Safety.lean. -/

set_option Elab.async false

namespace Sys2Proof.Machine

theorem State.vbEnd_within (s : State) (a1) (a2) :
    Within { free := true, finds := true, due := true, trcCfg := true, irq := true, slices := true, banks := true, chans := true, far := true, near := true, memIo := true, hsf := true, bisnps := true, links := true, pba := true, hreqs := true, accs := true, fnc := true, xlts := true, xinv := true, rtrTx := true, dom := true, pors := true, ledger := true, bkt := true, flip := true, ras := true, mgt := true, events := true, trc := true, outs := true } s (State.vbEnd s a1 a2) := by
  unfold State.vbEnd
  extract_lets +onlyGivenNames x
  refine Within.cut (x := x) ?_ ?_ <;> [(unfold x; clear x); (obtain ⟨y, e⟩ := named x; rewrite [← e]; clear e x; intro _)]
  · refine Within.app (State.wakeVb_within _ _) rfl ?_
    refine Within.app (State.vbGo_within _ _ _) rfl ?_
    refine Within.app (State.modVb_within _ _ _ _) rfl ?_
    exact Within.refl _ _
  refine Within.ite ?_ ?_
  · refine Within.app (State.release_within _ _ _ _) rfl ?_
    assumption
  assumption

theorem State.confirm_within (s : State) (a1) :
    Within { rtrTx := true } s (State.confirm s a1) := by
  unfold State.confirm
  refine Within.app (State.sendCoh_within _ _ _) rfl ?_
  exact Within.refl _ _

theorem State.ackArrive_within (s : State) (a1) (a2) :
    Within { free := true, finds := true, due := true, trcCfg := true, irq := true, slices := true, banks := true, chans := true, far := true, near := true, memIo := true, hsf := true, bisnps := true, links := true, pba := true, hreqs := true, accs := true, lse := true, fnc := true, xlts := true, xinv := true, rtrTx := true, rtrRx := true, dom := true, pors := true, ledger := true, bkt := true, flip := true, ras := true, mgt := true, events := true, trc := true, outs := true } s (State.ackArrive s a1 a2) := by
  unfold State.ackArrive
  extract_lets +onlyGivenNames x
  refine Within.cut (x := x) ?_ ?_ <;> [(unfold x; clear x); (obtain ⟨y, e⟩ := named x; rewrite [← e]; clear e x; intro _)]
  · refine Within.app (State.consumeCoh_within _ _ _) rfl ?_
    exact Within.refl _ _
  extract_lets +onlyGivenNames x
  clear_value x
  refine Within.ite ?_ ?_
  · assumption
  refine Within.ite ?_ ?_
  · refine Within.app (State.homeAnswer_within _ _ _) rfl ?_
    assumption
  split
  · refine Within.ite ?_ ?_
    · refine Within.app (State.vbEnd_within _ _ _) rfl ?_
      assumption
    assumption
  split
  · refine Within.ite ?_ ?_
    · refine Within.app (State.confirm_within _ _) rfl ?_
      refine Within.app (State.mrAnswer_within _ _ _ _ _) rfl ?_
      assumption
    refine Within.app (State.writeDone_within _ _ _) rfl ?_
    assumption
  refine Within.app (State.writeDone_within _ _ _) rfl ?_
  assumption

theorem State.cohWaitMr_within (s : State) (a1) (a2) :
    Within { trcCfg := true, irq := true, pba := true, rtrTx := true, dom := true, ledger := true, events := true, trc := true, outs := true } s (State.cohWaitMr s a1 a2) := by
  unfold State.cohWaitMr
  split
  · exact Within.refl _ _
  refine Within.ite ?_ ?_
  · refine Within.app (State.fatal_within _ _ _) rfl ?_
    exact Within.refl _ _
  exact Within.refl _ _

theorem State.cohWaitTrk_within (s : State) (a1) (a2) :
    Within { trcCfg := true, irq := true, pba := true, rtrTx := true, dom := true, ledger := true, events := true, trc := true, outs := true } s (State.cohWaitTrk s a1 a2) := by
  unfold State.cohWaitTrk
  split
  · exact Within.refl _ _
  extract_lets +onlyGivenNames x
  clear_value x
  refine Within.ite ?_ ?_
  · refine Within.app (State.fatal_within _ _ _) rfl ?_
    exact Within.refl _ _
  exact Within.refl _ _

theorem State.dataArrive_within (s : State) (a1) (a2) :
    Within { free := true, finds := true, due := true, trcCfg := true, irq := true, slices := true, banks := true, chans := true, far := true, near := true, memIo := true, hsf := true, bisnps := true, links := true, pba := true, hreqs := true, accs := true, fnc := true, xlts := true, xinv := true, rtrTx := true, rtrRx := true, dom := true, pors := true, ledger := true, bkt := true, flip := true, ras := true, mgt := true, events := true, trc := true, outs := true } s (State.dataArrive s a1 a2) := by
  unfold State.dataArrive
  extract_lets +onlyGivenNames x
  refine Within.cut (x := x) ?_ ?_ <;> [(unfold x; clear x); (obtain ⟨y, e⟩ := named x; rewrite [← e]; clear e x; intro _)]
  · refine Within.app (State.consumeCoh_within _ _ _) rfl ?_
    exact Within.refl _ _
  extract_lets +onlyGivenNames x
  clear_value x
  refine Within.ite ?_ ?_
  · assumption
  refine Within.ite ?_ ?_
  · refine Within.app (State.homeAnswer_within _ _ _) rfl ?_
    assumption
  split
  · refine Within.ite ?_ ?_
    · refine Within.app (State.rec__within _ _ _ _ _ _) rfl ?_
      assumption
    extract_lets +onlyGivenNames x
    refine Within.cut (x := x) ?_ ?_ <;> [(unfold x; clear x); (obtain ⟨y, e⟩ := named x; rewrite [← e]; clear e x; intro _)]
    · refine Within.app (State.mrAnswer_within _ _ _ _ _) rfl ?_
      assumption
    refine Within.ite ?_ ?_
    · refine Within.app (State.confirm_within _ _) rfl ?_
      assumption
    assumption
  assumption

theorem State.dataoArrive_within (s : State) (a1) (a2) :
    Within { free := true, finds := true, due := true, trcCfg := true, irq := true, slices := true, banks := true, chans := true, far := true, near := true, memIo := true, hsf := true, bisnps := true, links := true, pba := true, hreqs := true, accs := true, fnc := true, xlts := true, xinv := true, rtrTx := true, rtrRx := true, dom := true, pors := true, ledger := true, bkt := true, flip := true, ras := true, mgt := true, events := true, trc := true, outs := true } s (State.dataoArrive s a1 a2) := by
  unfold State.dataoArrive
  extract_lets +onlyGivenNames x
  refine Within.cut (x := x) ?_ ?_ <;> [(unfold x; clear x); (obtain ⟨y, e⟩ := named x; rewrite [← e]; clear e x; intro _)]
  · refine Within.app (State.consumeCoh_within _ _ _) rfl ?_
    exact Within.refl _ _
  refine Within.ite ?_ ?_
  · refine Within.app (State.homeAnswer_within _ _ _) rfl ?_
    assumption
  assumption

theorem State.deadlineMr_within (s : State) (a1) (a2) :
    Within { free := true, due := true, trcCfg := true, irq := true, slices := true, chans := true, memIo := true, hsf := true, bisnps := true, links := true, pba := true, hreqs := true, accs := true, fnc := true, xlts := true, xinv := true, rtrTx := true, rtrUn := true, pors := true, ledger := true, bkt := true, flip := true, mgt := true, events := true, trc := true, outs := true } s (State.deadlineMr s a1 a2) := by
  unfold State.deadlineMr
  split
  · exact Within.refl _ _
  extract_lets +onlyGivenNames x
  clear_value x
  refine Within.ite ?_ ?_
  · exact Within.refl _ _
  refine Within.ite ?_ ?_
  · refine Within.ite ?_ ?_
    · refine Within.app (State.markUnreach_within _ _) rfl ?_
      refine Within.app (State.mrEnd_within _ _ _ _) rfl ?_
      exact Within.refl _ _
    exact Within.refl _ _
  refine Within.ite ?_ ?_
  · refine Within.app (State.markUnreach_within _ _) rfl ?_
    refine Within.foldl (fun _ _ => ?_) ?_
    · refine Within.app (State.reqFail_within _ _ _) rfl ?_
      exact Within.refl _ _
    refine Within.app (State.modMr_within _ _ _ _) rfl ?_
    exact Within.refl _ _
  exact Within.refl _ _

theorem State.outDrop_within (s : State) (a1) (a2) (a3) :
    Within { free := true, due := true, trcCfg := true, irq := true, slices := true, chans := true, memIo := true, hsf := true, bisnps := true, links := true, pba := true, hreqs := true, accs := true, fnc := true, xlts := true, xinv := true, rtrTx := true, pors := true, ledger := true, bkt := true, flip := true, mgt := true, events := true, trc := true, outs := true } s (State.outDrop s a1 a2 a3) := by
  unfold State.outDrop
  extract_lets +onlyGivenNames x
  refine Within.cut (x := x) ?_ ?_ <;> [(unfold x; clear x); (obtain ⟨y, e⟩ := named x; rewrite [← e]; clear e x; intro _)]
  · refine Within.app (State.modSlice_within _ _ _) rfl ?_
    exact Within.refl _ _
  extract_lets +onlyGivenNames x
  clear_value x
  extract_lets +onlyGivenNames x
  refine Within.cut (x := x) ?_ ?_ <;> [(unfold x; clear x); (obtain ⟨y, e⟩ := named x; rewrite [← e]; clear e x; intro _)]
  · refine Within.foldl (fun _ _ => ?_) ?_
    · refine Within.app (State.accDone_within _ _) rfl ?_
      exact Within.refl _ _
    refine Within.app (State.reqFail_within _ _ _) rfl ?_
    assumption
  refine Within.ite ?_ ?_
  · refine Within.app (State.release_within _ _ _ _) rfl ?_
    assumption
  assumption

theorem State.deadlineOut_within (s : State) (a1) (a2) :
    Within { free := true, due := true, trcCfg := true, irq := true, slices := true, chans := true, memIo := true, hsf := true, bisnps := true, links := true, pba := true, hreqs := true, accs := true, fnc := true, xlts := true, xinv := true, rtrTx := true, rtrUn := true, pors := true, ledger := true, bkt := true, flip := true, mgt := true, events := true, trc := true, outs := true } s (State.deadlineOut s a1 a2) := by
  unfold State.deadlineOut
  split
  · exact Within.refl _ _
  refine Within.ite ?_ ?_
  · exact Within.refl _ _
  refine Within.app (State.markUnreach_within _ _) rfl ?_
  refine Within.app (State.outDrop_within _ _ _ _) rfl ?_
  exact Within.refl _ _

theorem State.deadlineVb_within (s : State) (a1) (a2) :
    Within { free := true, finds := true, due := true, trcCfg := true, irq := true, slices := true, banks := true, chans := true, far := true, near := true, memIo := true, hsf := true, bisnps := true, links := true, pba := true, hreqs := true, accs := true, fnc := true, xlts := true, xinv := true, rtrTx := true, rtrUn := true, dom := true, pors := true, ledger := true, bkt := true, flip := true, ras := true, mgt := true, events := true, trc := true, outs := true } s (State.deadlineVb s a1 a2) := by
  unfold State.deadlineVb
  split
  · exact Within.refl _ _
  refine Within.ite ?_ ?_
  · refine Within.app (State.markUnreach_within _ _) rfl ?_
    refine Within.app (State.vbEnd_within _ _ _) rfl ?_
    refine Within.app (State.rec__within _ _ _ _ _ _) rfl ?_
    exact Within.refl _ _
  exact Within.refl _ _

theorem State.domKnown_within (s : State) (a1) (a2) :
    Within { rtr := true } s (State.domKnown s a1 a2) := by
  unfold State.domKnown
  extract_lets +onlyGivenNames x
  clear_value x
  with_reducible (apply Within.upd <;> try first | exact .inl rfl | exact .inr rfl | exact id | assumption | exact Within.refl _ _)

theorem State.gackArrive_within (s : State) (a1) (a2) :
    Within { free := true, finds := true, due := true, trcCfg := true, irq := true, slices := true, banks := true, chans := true, far := true, near := true, memIo := true, hsf := true, bisnps := true, links := true, pba := true, hreqs := true, accs := true, lse := true, fnc := true, xlts := true, xinv := true, rtrTx := true, rtrRx := true, rtr := true, dom := true, pors := true, ledger := true, bkt := true, flip := true, ras := true, mgt := true, events := true, trc := true, outs := true } s (State.gackArrive s a1 a2) := by
  unfold State.gackArrive
  extract_lets +onlyGivenNames x
  refine Within.cut (x := x) ?_ ?_ <;> [(unfold x; clear x); (obtain ⟨y, e⟩ := named x; rewrite [← e]; clear e x; intro _)]
  · refine Within.app (State.consumeCoh_within _ _ _) rfl ?_
    exact Within.refl _ _
  extract_lets +onlyGivenNames x
  clear_value x
  refine Within.ite ?_ ?_
  · assumption
  extract_lets +onlyGivenNames x
  refine Within.cut (x := x) ?_ ?_ <;> [(unfold x; clear x); (obtain ⟨y, e⟩ := named x; rewrite [← e]; clear e x; intro _)]
  · refine Within.app (State.domKnown_within _ _ _) rfl ?_
    assumption
  split
  · refine Within.app (State.vbEnd_within _ _ _) rfl ?_
    assumption
  refine Within.app (State.writeDone_within _ _ _) rfl ?_
  assumption

theorem State.gbusyArrive_within (s : State) (a1) (a2) :
    Within { trcCfg := true, irq := true, slices := true, chans := true, memIo := true, bisnps := true, links := true, pba := true, hreqs := true, rtrTx := true, rtrRx := true, ledger := true, events := true, trc := true, outs := true } s (State.gbusyArrive s a1 a2) := by
  unfold State.gbusyArrive
  extract_lets +onlyGivenNames x
  refine Within.cut (x := x) ?_ ?_ <;> [(unfold x; clear x); (obtain ⟨y, e⟩ := named x; rewrite [← e]; clear e x; intro _)]
  · refine Within.app (State.consumeCoh_within _ _ _) rfl ?_
    exact Within.refl _ _
  extract_lets +onlyGivenNames x
  clear_value x
  refine Within.ite ?_ ?_
  · assumption
  split
  · extract_lets +onlyGivenNames x
    refine Within.cut (x := x) ?_ ?_ <;> [(unfold x; clear x); (obtain ⟨y, e⟩ := named x; rewrite [← e]; clear e x; intro _)]
    · refine Within.app (State.modVb_within _ _ _ _) rfl ?_
      assumption
    refine Within.app (State.modSlice_within _ _ _) rfl ?_
    assumption
  split
  · refine Within.app (State.mrRefused_within _ _ _ _) rfl ?_
    assumption
  refine Within.app (State.outRefused_within _ _ _ _ _) rfl ?_
  assumption

theorem State.gdataArrive_within (s : State) (a1) (a2) :
    Within { trcCfg := true, irq := true, slices := true, chans := true, memIo := true, bisnps := true, links := true, pba := true, hreqs := true, rtrTx := true, rtrRx := true, rtr := true, ledger := true, events := true, trc := true, outs := true } s (State.gdataArrive s a1 a2) := by
  unfold State.gdataArrive
  extract_lets +onlyGivenNames x
  refine Within.cut (x := x) ?_ ?_ <;> [(unfold x; clear x); (obtain ⟨y, e⟩ := named x; rewrite [← e]; clear e x; intro _)]
  · refine Within.app (State.consumeCoh_within _ _ _) rfl ?_
    exact Within.refl _ _
  refine Within.ite ?_ ?_
  · assumption
  extract_lets +onlyGivenNames x
  refine Within.cut (x := x) ?_ ?_ <;> [(unfold x; clear x); (obtain ⟨y, e⟩ := named x; rewrite [← e]; clear e x; intro _)]
  · refine Within.app (State.domKnown_within _ _ _) rfl ?_
    assumption
  split
  · refine Within.app (State.mrAnswer_within _ _ _ _ _) rfl ?_
    assumption
  assumption

theorem State.snoopSend_within (s : State) (a1) (a2) (a3) (a4) (a5) (a6) (a7) :
    WithinP { trcCfg := true, irq := true, pba := true, rtrTx := true, ledger := true, events := true, trc := true, outs := true } s (State.snoopSend s a1 a2 a3 a4 a5 a6 a7) := by
  unfold State.snoopSend
  extract_lets +onlyGivenNames x
  clear_value x
  extract_lets +onlyGivenNames x
  clear_value x
  extract_lets +onlyGivenNames x
  clear_value x
  extract_lets +onlyGivenNames x
  clear_value x
  refine WithinP.ite ?_ ?_
  · refine WithinP.mk ?_
    refine Within.app (State.sendCoh_within _ _ _) rfl ?_
    exact Within.refl _ _
  refine WithinP.ite ?_ ?_
  · refine WithinP.mk ?_
    refine Within.app (State.sendCoh_within _ _ _) rfl ?_
    refine Within.app (State.rec__within _ _ _ _ _ _) rfl ?_
    exact Within.refl _ _
  refine WithinP.ite ?_ ?_
  · refine WithinP.ite ?_ ?_
    · extract_lets +onlyGivenNames x
      refine WithinP.cut (x := x) ?_ ?_ <;> [(unfold x; clear x); (obtain ⟨y, e⟩ := named x; rewrite [← e]; clear e x; intro _)]
      · refine Within.app (State.sendCoh_within _ _ _) rfl ?_
        exact Within.refl _ _
      refine WithinP.mk ?_
      assumption
    extract_lets +onlyGivenNames x
    refine WithinP.cut (x := x) ?_ ?_ <;> [(unfold x; clear x); (obtain ⟨y, e⟩ := named x; rewrite [← e]; clear e x; intro _)]
    · refine Within.app (State.sendCoh_within _ _ _) rfl ?_
      exact Within.refl _ _
    extract_lets +onlyGivenNames x
    refine WithinP.cut (x := x) ?_ ?_ <;> [(unfold x; clear x); (obtain ⟨y, e⟩ := named x; rewrite [← e]; clear e x; intro _)]
    · refine Within.ite ?_ ?_
      · refine Within.app (State.sendCoh_within _ _ _) rfl ?_
        assumption
      refine Within.app (State.sendCoh_within _ _ _) rfl ?_
      assumption
    refine WithinP.mk ?_
    assumption
  refine WithinP.ite ?_ ?_
  · refine WithinP.mk ?_
    refine Within.app (State.sendCoh_within _ _ _) rfl ?_
    exact Within.refl _ _
  refine WithinP.mk ?_
  refine Within.app (State.sendCoh_within _ _ _) rfl ?_
  refine Within.app (State.sendCoh_within _ _ _) rfl ?_
  exact Within.refl _ _

theorem State.snoopMiss_within (s : State) (a1) (a2) :
    Within { rtrTx := true } s (State.snoopMiss s a1 a2) := by
  unfold State.snoopMiss
  refine Within.app (State.sendCoh_within _ _ _) rfl ?_
  exact Within.refl _ _

theorem State.markLost_within (s : State) (a1) (a2) :
    Within { slices := true } s (State.markLost s a1 a2) := by
  unfold State.markLost
  refine Within.app (State.modSlice_within _ _ _) rfl ?_
  exact Within.refl _ _

theorem State.snoop_within (s : State) (a1) (a2) :
    Within { free := true, finds := true, due := true, trcCfg := true, irq := true, slices := true, banks := true, chans := true, far := true, near := true, memIo := true, hsf := true, bisnps := true, links := true, pba := true, hreqs := true, accs := true, fnc := true, xlts := true, xinv := true, rtrTx := true, dom := true, pors := true, ledger := true, bkt := true, flip := true, ras := true, mgt := true, events := true, trc := true, outs := true } s (State.snoop s a1 a2) := by
  unfold State.snoop
  extract_lets +onlyGivenNames x
  clear_value x
  extract_lets +onlyGivenNames x
  clear_value x
  extract_lets +onlyGivenNames x
  refine Within.cutS (x := x) ?_ ?_ <;> [(intro _; unfold x; clear x; try beta_reduce); (intro _; clear_value x)]
  · refine Within.app (State.modSlice_within _ _ _) rfl ?_
    exact Within.refl _ _
  extract_lets +onlyGivenNames x
  clear_value x
  split
  · refine Within.app (State.event_within _ _ _ _) rfl ?_
    refine Within.app (State.modSlice_within _ _ _) rfl ?_
    exact Within.refl _ _
  refine Within.ite ?_ ?_
  · apply_assumption
  split
  · refine Within.ite ?_ ?_
    · refine Within.callS (by assumption) ?_
      refine Within.app (State.recallAll_within _ _ _) rfl ?_
      exact Within.refl _ _
    refine Within.ite ?_ ?_
    · refine Within.app (State.wakeVb_within _ _) rfl ?_
      refine Within.app (State.vbFree_within _ _ _) rfl ?_
      refine WithinP.snd (State.snoopSend_within _ _ _ _ _ _ _ _) rfl ?_
      exact Within.refl _ _
    refine Within.ite ?_ ?_
    · refine Within.callS (by assumption) ?_
      refine Within.app (State.vbGo_within _ _ _) rfl ?_
      exact Within.refl _ _
    split
    refine Within.ite ?_ ?_
    · refine Within.app (State.wakeVb_within _ _) rfl ?_
      refine Within.app (State.vbFree_within _ _ _) rfl ?_
      refine WithinP.get (State.snoopSend_within _ _ _ _ _ _ _ _) (by assumption) rfl ?_
      exact Within.refl _ _
    refine Within.app (State.wakeVb_within _ _) rfl ?_
    refine Within.app (State.vbGo_within _ _ _) rfl ?_
    refine Within.app (State.modVb_within _ _ _ _) rfl ?_
    refine WithinP.get (State.snoopSend_within _ _ _ _ _ _ _ _) (by assumption) rfl ?_
    exact Within.refl _ _
  refine Within.ite ?_ ?_
  · refine Within.app (State.event_within _ _ _ _) rfl ?_
    refine Within.app (State.modSlice_within _ _ _) rfl ?_
    exact Within.refl _ _
  split
  split
  · refine Within.app (State.snoopMiss_within _ _ _) rfl ?_
    refine WithinP.eq (by assumption) ?_
    refine WithinP.ite ?_ ?_
    · refine WithinP.mk ?_
      exact Within.refl _ _
    refine WithinP.app (State.touchLine_within _ _ _) rfl ?_
    exact Within.refl _ _
  refine Within.ite ?_ ?_
  · refine Within.callS (by assumption) ?_
    refine Within.app (State.recallAll_within _ _ _) rfl ?_
    refine WithinP.eq (by assumption) ?_
    refine WithinP.ite ?_ ?_
    · refine WithinP.mk ?_
      exact Within.refl _ _
    refine WithinP.app (State.touchLine_within _ _ _) rfl ?_
    exact Within.refl _ _
  refine Within.ite ?_ ?_
  · refine Within.callS (by assumption) ?_
    refine Within.app (State.recallEM_within _ _ _) rfl ?_
    refine WithinP.eq (by assumption) ?_
    refine WithinP.ite ?_ ?_
    · refine WithinP.mk ?_
      exact Within.refl _ _
    refine WithinP.app (State.touchLine_within _ _ _) rfl ?_
    exact Within.refl _ _
  extract_lets +onlyGivenNames x
  clear_value x
  extract_lets +onlyGivenNames x
  refine Within.cut (x := x) ?_ ?_ <;> [(unfold x; clear x); (obtain ⟨y, e⟩ := named x; rewrite [← e]; clear e x; intro _)]
  · refine Within.ite ?_ ?_
    · refine WithinP.eq (by assumption) ?_
      refine WithinP.ite ?_ ?_
      · refine WithinP.mk ?_
        exact Within.refl _ _
      refine WithinP.app (State.touchLine_within _ _ _) rfl ?_
      exact Within.refl _ _
    refine Within.app (State.wayCheck_within _ _ _ _ _ _) rfl ?_
    refine WithinP.eq (by assumption) ?_
    refine WithinP.ite ?_ ?_
    · refine WithinP.mk ?_
      exact Within.refl _ _
    refine WithinP.app (State.touchLine_within _ _ _) rfl ?_
    exact Within.refl _ _
  split
  · refine Within.app (State.markLost_within _ _ _) rfl ?_
    refine Within.app (State.snoopMiss_within _ _ _) rfl ?_
    assumption
  split
  split
  refine Within.ite ?_ ?_
  · refine Within.app (State.markLost_within _ _ _) rfl ?_
    refine Within.app (State.dropLine_within _ _ _ _ _) rfl ?_
    refine WithinP.get (State.snoopSend_within _ _ _ _ _ _ _ _) (by assumption) rfl ?_
    assumption
  refine Within.ite ?_ ?_
  · refine WithinP.get (State.snoopSend_within _ _ _ _ _ _ _ _) (by assumption) rfl ?_
    assumption
  refine Within.app (State.setLineState_within _ _ _ _ _) rfl ?_
  refine WithinP.get (State.snoopSend_within _ _ _ _ _ _ _ _) (by assumption) rfl ?_
  assumption

theorem State.holdEnd_within (s : State) (a1) (a2) :
    Within { free := true, finds := true, due := true, trcCfg := true, irq := true, slices := true, banks := true, chans := true, far := true, near := true, memIo := true, hsf := true, bisnps := true, links := true, pba := true, hreqs := true, accs := true, fnc := true, xlts := true, xinv := true, rtrTx := true, dom := true, pors := true, ledger := true, bkt := true, flip := true, ras := true, mgt := true, events := true, trc := true, outs := true } s (State.holdEnd s a1 a2) := by
  unfold State.holdEnd
  split
  · exact Within.refl _ _
  refine Within.foldl (fun _ _ => ?_) ?_
  · split
    refine Within.app (State.snoop_within _ _ _) rfl ?_
    exact Within.refl _ _
  refine Within.app (State.modSlice_within _ _ _) rfl ?_
  exact Within.refl _ _

theorem State.outEnd_within (s : State) (a1) (a2) (a3) (a4) :
    Within { free := true, due := true, trcCfg := true, irq := true, slices := true, chans := true, memIo := true, hsf := true, bisnps := true, links := true, pba := true, hreqs := true, accs := true, fnc := true, xlts := true, xinv := true, rtrTx := true, pors := true, ledger := true, bkt := true, flip := true, mgt := true, events := true, trc := true, outs := true } s (State.outEnd s a1 a2 a3 a4) := by
  unfold State.outEnd
  split
  · exact Within.refl _ _
  refine Within.app (State.outDrop_within _ _ _ _) rfl ?_
  exact Within.refl _ _

theorem State.nackArrive_within (s : State) (a1) (a2) (a3) :
    Within { free := true, finds := true, due := true, trcCfg := true, irq := true, slices := true, banks := true, chans := true, far := true, near := true, memIo := true, hsf := true, bisnps := true, links := true, pba := true, hreqs := true, accs := true, fnc := true, xlts := true, xinv := true, rtrTx := true, rtrRx := true, rtr := true, dom := true, pors := true, ledger := true, bkt := true, flip := true, ras := true, mgt := true, events := true, trc := true, outs := true } s (State.nackArrive s a1 a2 a3) := by
  unfold State.nackArrive
  extract_lets +onlyGivenNames x
  refine Within.cut (x := x) ?_ ?_ <;> [(unfold x; clear x); (obtain ⟨y, e⟩ := named x; rewrite [← e]; clear e x; intro _)]
  · refine Within.app (State.consumeCoh_within _ _ _) rfl ?_
    exact Within.refl _ _
  extract_lets +onlyGivenNames x
  clear_value x
  refine Within.ite ?_ ?_
  · assumption
  extract_lets +onlyGivenNames x
  refine Within.cut (x := x) ?_ ?_ <;> [(unfold x; clear x); (obtain ⟨y, e⟩ := named x; rewrite [← e]; clear e x; intro _)]
  · refine Within.ite ?_ ?_
    · refine Within.app (State.domKnown_within _ _ _) rfl ?_
      assumption
    assumption
  split
  · refine Within.app (State.vbEnd_within _ _ _) rfl ?_
    refine Within.app (State.rec__within _ _ _ _ _ _) rfl ?_
    assumption
  split
  · refine Within.app (State.mrEnd_within _ _ _ _) rfl ?_
    assumption
  refine Within.app (State.outEnd_within _ _ _ _ _) rfl ?_
  assumption

theorem State.retryArrive_within (s : State) (a1) (a2) :
    Within { trcCfg := true, irq := true, slices := true, chans := true, memIo := true, bisnps := true, links := true, pba := true, hreqs := true, rtrTx := true, rtrRx := true, ledger := true, events := true, trc := true, outs := true } s (State.retryArrive s a1 a2) := by
  unfold State.retryArrive
  extract_lets +onlyGivenNames x
  refine Within.cut (x := x) ?_ ?_ <;> [(unfold x; clear x); (obtain ⟨y, e⟩ := named x; rewrite [← e]; clear e x; intro _)]
  · refine Within.app (State.consumeCoh_within _ _ _) rfl ?_
    exact Within.refl _ _
  extract_lets +onlyGivenNames x
  clear_value x
  refine Within.ite ?_ ?_
  · assumption
  split
  · refine Within.app (State.mrRefused_within _ _ _ _) rfl ?_
    assumption
  refine Within.app (State.outRefused_within _ _ _ _ _) rfl ?_
  assumption

theorem State.snoopArrive_within (s : State) (a1) (a2) :
    Within { free := true, finds := true, due := true, trcCfg := true, irq := true, slices := true, banks := true, chans := true, far := true, near := true, memIo := true, hsf := true, bisnps := true, links := true, pba := true, hreqs := true, accs := true, fnc := true, xlts := true, xinv := true, rtrTx := true, rtrRx := true, dom := true, pors := true, ledger := true, bkt := true, flip := true, ras := true, mgt := true, events := true, trc := true, outs := true } s (State.snoopArrive s a1 a2) := by
  unfold State.snoopArrive
  extract_lets +onlyGivenNames x
  refine Within.cut (x := x) ?_ ?_ <;> [(unfold x; clear x); (obtain ⟨y, e⟩ := named x; rewrite [← e]; clear e x; intro _)]
  · refine Within.app (State.consumeCoh_within _ _ _) rfl ?_
    exact Within.refl _ _
  refine Within.ite ?_ ?_
  · assumption
  refine Within.ite ?_ ?_
  · refine Within.app (State.rec__within _ _ _ _ _ _) rfl ?_
    assumption
  refine Within.app (State.snoop_within _ _ _) rfl ?_
  assumption

theorem State.snoopsResume_within (s : State) (a1) (a2) :
    Within { free := true, finds := true, due := true, trcCfg := true, irq := true, slices := true, banks := true, chans := true, far := true, near := true, memIo := true, hsf := true, bisnps := true, links := true, pba := true, hreqs := true, accs := true, fnc := true, xlts := true, xinv := true, rtrTx := true, dom := true, pors := true, ledger := true, bkt := true, flip := true, ras := true, mgt := true, events := true, trc := true, outs := true } s (State.snoopsResume s a1 a2) := by
  unfold State.snoopsResume
  extract_lets +onlyGivenNames x
  clear_value x
  refine Within.foldl (fun _ _ => ?_) ?_
  · refine Within.app (State.snoop_within _ _ _) rfl ?_
    exact Within.refl _ _
  refine Within.app (State.modSlice_within _ _ _) rfl ?_
  exact Within.refl _ _

theorem State.tagsResume_within (s : State) (a1) :
    Within { free := true, finds := true, due := true, trcCfg := true, irq := true, slices := true, banks := true, chans := true, far := true, near := true, memIo := true, hsf := true, bisnps := true, links := true, pba := true, hreqs := true, accs := true, fnc := true, xlts := true, xinv := true, rtrTx := true, dom := true, pors := true, ledger := true, bkt := true, flip := true, ras := true, mgt := true, events := true, trc := true, outs := true } s (State.tagsResume s a1) := by
  unfold State.tagsResume
  extract_lets +onlyGivenNames x
  clear_value x
  extract_lets +onlyGivenNames x
  refine Within.cut (x := x) ?_ ?_ <;> [(unfold x; clear x); (obtain ⟨y, e⟩ := named x; rewrite [← e]; clear e x; intro _)]
  · refine Within.foldl (fun _ _ => ?_) ?_
    · refine Within.app (State.snoop_within _ _ _) rfl ?_
      exact Within.refl _ _
    refine Within.app (State.modSlice_within _ _ _) rfl ?_
    exact Within.refl _ _
  refine Within.foldl (fun _ _ => ?_) ?_
  · refine Within.app (State.homeTry_within _ _ _) rfl ?_
    exact Within.refl _ _
  assumption

theorem execAck_within (a0) (a1) (a2) (s : State) :
    WithinX { free := true, due := true, trcCfg := true, irq := true, slices := true, banks := true, chans := true, far := true, near := true, memIo := true, hsf := true, bisnps := true, links := true, pba := true, hreqs := true, accs := true, lse := true, fnc := true, xlts := true, xinv := true, rtrTx := true, rtrRx := true, dom := true, pors := true, ledger := true, bkt := true, flip := true, ras := true, mgt := true, events := true, trc := true, outs := true } s (execAck a0 a1 a2 s) := by
  unfold execAck
  refine WithinX.next ?_
  refine State.finding_within _ rfl ?_ (fun _ => ?_)
  · exact Within.refl _ _
  refine Within.app (State.ackArrive_within _ _ _) rfl ?_
  exact Within.refl _ _

theorem execAtom_within (a0) (a1) (a2) (s : State) :
    WithinX { free := true, due := true, trcCfg := true, irq := true, slices := true, banks := true, chans := true, far := true, near := true, memIo := true, hsf := true, bisnps := true, links := true, pba := true, hreqs := true, accs := true, fnc := true, xlts := true, xinv := true, rtrTx := true, rtrRx := true, dom := true, pors := true, ledger := true, bkt := true, flip := true, ras := true, mgt := true, events := true, trc := true, outs := true } s (execAtom a0 a1 a2 s) := by
  unfold execAtom
  refine WithinX.next ?_
  refine State.finding_within _ rfl ?_ (fun _ => ?_)
  · exact Within.refl _ _
  refine Within.app (State.homeRequest_within _ _ _) rfl ?_
  exact Within.refl _ _

theorem execChainedRequestStart_within (a0) (a1) (a2) (s : State) :
    WithinX { free := true, due := true, trcCfg := true, irq := true, slices := true, banks := true, chans := true, far := true, near := true, memIo := true, hsf := true, bisnps := true, links := true, pba := true, hreqs := true, accs := true, fnc := true, xlts := true, xinv := true, rtrTx := true, dom := true, pors := true, ledger := true, bkt := true, flip := true, ras := true, mgt := true, events := true, trc := true, outs := true } s (execChainedRequestStart a0 a1 a2 s) := by
  unfold execChainedRequestStart
  refine WithinX.next ?_
  refine State.finding_within _ rfl ?_ (fun _ => ?_)
  · exact Within.refl _ _
  refine Within.app (State.chainStart_within _ _ _) rfl ?_
  exact Within.refl _ _

theorem execCohTimeout_within (a0) (s : State) :
    WithinX { trcCfg := true, irq := true, pba := true, rtrTx := true, dom := true, ledger := true, events := true, trc := true, outs := true } s (execCohTimeout a0 s) := by
  unfold execCohTimeout
  refine WithinX.next ?_
  split
  · refine Within.app (State.cohWaitMr_within _ _ _) rfl ?_
    exact Within.refl _ _
  · refine Within.app (State.cohWaitTrk_within _ _ _) rfl ?_
    exact Within.refl _ _
  split
  · refine Within.app (State.cohWaitTrk_within _ _ _) rfl ?_
    exact Within.refl _ _
  exact Within.refl _ _

theorem execData_within (a0) (a1) (a2) (s : State) :
    WithinX { free := true, due := true, trcCfg := true, irq := true, slices := true, banks := true, chans := true, far := true, near := true, memIo := true, hsf := true, bisnps := true, links := true, pba := true, hreqs := true, accs := true, fnc := true, xlts := true, xinv := true, rtrTx := true, rtrRx := true, dom := true, pors := true, ledger := true, bkt := true, flip := true, ras := true, mgt := true, events := true, trc := true, outs := true } s (execData a0 a1 a2 s) := by
  unfold execData
  refine WithinX.next ?_
  refine State.finding_within _ rfl ?_ (fun _ => ?_)
  · exact Within.refl _ _
  refine Within.app (State.dataArrive_within _ _ _) rfl ?_
  exact Within.refl _ _

theorem execDatao_within (a0) (a1) (a2) (s : State) :
    WithinX { free := true, due := true, trcCfg := true, irq := true, slices := true, banks := true, chans := true, far := true, near := true, memIo := true, hsf := true, bisnps := true, links := true, pba := true, hreqs := true, accs := true, fnc := true, xlts := true, xinv := true, rtrTx := true, rtrRx := true, dom := true, pors := true, ledger := true, bkt := true, flip := true, ras := true, mgt := true, events := true, trc := true, outs := true } s (execDatao a0 a1 a2 s) := by
  unfold execDatao
  refine WithinX.next ?_
  refine State.finding_within _ rfl ?_ (fun _ => ?_)
  · exact Within.refl _ _
  refine Within.app (State.dataoArrive_within _ _ _) rfl ?_
  exact Within.refl _ _

theorem execDirectoryStoreReadDone_within (a0) (a1) (a2) (a3) (s : State) :
    WithinX { free := true, due := true, trcCfg := true, irq := true, slices := true, banks := true, chans := true, far := true, near := true, memIo := true, hsf := true, bisnps := true, links := true, pba := true, hreqs := true, accs := true, fnc := true, xlts := true, xinv := true, rtrTx := true, dom := true, pors := true, ledger := true, bkt := true, flip := true, ras := true, mgt := true, events := true, trc := true, outs := true } s (execDirectoryStoreReadDone a0 a1 a2 a3 s) := by
  unfold execDirectoryStoreReadDone
  refine WithinX.next ?_
  refine State.finding_within _ rfl ?_ (fun _ => ?_)
  · exact Within.refl _ _
  refine Within.app (State.dirReadDone_within _ _ _ _) rfl ?_
  exact Within.refl _ _

theorem execFwds_within (a0) (a1) (a2) (s : State) :
    WithinX { free := true, due := true, trcCfg := true, irq := true, slices := true, banks := true, chans := true, far := true, near := true, memIo := true, hsf := true, bisnps := true, links := true, pba := true, hreqs := true, accs := true, fnc := true, xlts := true, xinv := true, rtrTx := true, rtrRx := true, dom := true, pors := true, ledger := true, bkt := true, flip := true, ras := true, mgt := true, events := true, trc := true, outs := true } s (execFwds a0 a1 a2 s) := by
  unfold execFwds
  refine WithinX.next ?_
  refine State.finding_within _ rfl ?_ (fun _ => ?_)
  · exact Within.refl _ _
  refine Within.app (State.snoopArrive_within _ _ _) rfl ?_
  exact Within.refl _ _

theorem execFwdx_within (a0) (a1) (a2) (s : State) :
    WithinX { free := true, due := true, trcCfg := true, irq := true, slices := true, banks := true, chans := true, far := true, near := true, memIo := true, hsf := true, bisnps := true, links := true, pba := true, hreqs := true, accs := true, fnc := true, xlts := true, xinv := true, rtrTx := true, rtrRx := true, dom := true, pors := true, ledger := true, bkt := true, flip := true, ras := true, mgt := true, events := true, trc := true, outs := true } s (execFwdx a0 a1 a2 s) := by
  unfold execFwdx
  refine WithinX.next ?_
  refine State.finding_within _ rfl ?_ (fun _ => ?_)
  · exact Within.refl _ _
  refine Within.app (State.snoopArrive_within _ _ _) rfl ?_
  exact Within.refl _ _

theorem execGack_within (a0) (a1) (a2) (s : State) :
    WithinX { free := true, due := true, trcCfg := true, irq := true, slices := true, banks := true, chans := true, far := true, near := true, memIo := true, hsf := true, bisnps := true, links := true, pba := true, hreqs := true, accs := true, lse := true, fnc := true, xlts := true, xinv := true, rtrTx := true, rtrRx := true, rtr := true, dom := true, pors := true, ledger := true, bkt := true, flip := true, ras := true, mgt := true, events := true, trc := true, outs := true } s (execGack a0 a1 a2 s) := by
  unfold execGack
  refine WithinX.next ?_
  refine State.finding_within _ rfl ?_ (fun _ => ?_)
  · exact Within.refl _ _
  refine Within.app (State.gackArrive_within _ _ _) rfl ?_
  exact Within.refl _ _

theorem execGatom_within (a0) (a1) (a2) (s : State) :
    WithinX { free := true, due := true, trcCfg := true, irq := true, slices := true, banks := true, chans := true, far := true, near := true, memIo := true, hsf := true, bisnps := true, links := true, pba := true, hreqs := true, accs := true, fnc := true, xlts := true, xinv := true, rtrTx := true, rtrRx := true, dom := true, pors := true, ledger := true, bkt := true, flip := true, ras := true, mgt := true, events := true, trc := true, outs := true } s (execGatom a0 a1 a2 s) := by
  unfold execGatom
  refine WithinX.next ?_
  refine State.finding_within _ rfl ?_ (fun _ => ?_)
  · exact Within.refl _ _
  refine Within.app (State.globRequest_within _ _ _) rfl ?_
  exact Within.refl _ _

theorem execGbusy_within (a0) (a1) (s : State) :
    WithinX { trcCfg := true, irq := true, slices := true, chans := true, memIo := true, bisnps := true, links := true, pba := true, hreqs := true, rtrTx := true, rtrRx := true, ledger := true, events := true, trc := true, outs := true } s (execGbusy a0 a1 s) := by
  unfold execGbusy
  refine WithinX.next ?_
  refine Within.app (State.gbusyArrive_within _ _ _) rfl ?_
  exact Within.refl _ _

theorem execGdata_within (a0) (a1) (s : State) :
    WithinX { trcCfg := true, irq := true, slices := true, chans := true, memIo := true, bisnps := true, links := true, pba := true, hreqs := true, rtrTx := true, rtrRx := true, rtr := true, ledger := true, events := true, trc := true, outs := true } s (execGdata a0 a1 s) := by
  unfold execGdata
  refine WithinX.next ?_
  refine Within.app (State.gdataArrive_within _ _ _) rfl ?_
  exact Within.refl _ _

theorem execGrd_within (a0) (a1) (a2) (s : State) :
    WithinX { free := true, due := true, trcCfg := true, irq := true, slices := true, banks := true, chans := true, far := true, near := true, memIo := true, hsf := true, bisnps := true, links := true, pba := true, hreqs := true, accs := true, fnc := true, xlts := true, xinv := true, rtrTx := true, rtrRx := true, dom := true, pors := true, ledger := true, bkt := true, flip := true, ras := true, mgt := true, events := true, trc := true, outs := true } s (execGrd a0 a1 a2 s) := by
  unfold execGrd
  refine WithinX.next ?_
  refine State.finding_within _ rfl ?_ (fun _ => ?_)
  · exact Within.refl _ _
  refine Within.app (State.globRequest_within _ _ _) rfl ?_
  exact Within.refl _ _

theorem execGwr_within (a0) (a1) (a2) (s : State) :
    WithinX { free := true, due := true, trcCfg := true, irq := true, slices := true, banks := true, chans := true, far := true, near := true, memIo := true, hsf := true, bisnps := true, links := true, pba := true, hreqs := true, accs := true, fnc := true, xlts := true, xinv := true, rtrTx := true, rtrRx := true, dom := true, pors := true, ledger := true, bkt := true, flip := true, ras := true, mgt := true, events := true, trc := true, outs := true } s (execGwr a0 a1 a2 s) := by
  unfold execGwr
  refine WithinX.next ?_
  refine State.finding_within _ rfl ?_ (fun _ => ?_)
  · exact Within.refl _ _
  refine Within.app (State.globRequest_within _ _ _) rfl ?_
  exact Within.refl _ _

theorem execHoldExpiry_within (a0) (a1) (a2) (s : State) :
    WithinX { free := true, due := true, trcCfg := true, irq := true, slices := true, banks := true, chans := true, far := true, near := true, memIo := true, hsf := true, bisnps := true, links := true, pba := true, hreqs := true, accs := true, fnc := true, xlts := true, xinv := true, rtrTx := true, dom := true, pors := true, ledger := true, bkt := true, flip := true, ras := true, mgt := true, events := true, trc := true, outs := true } s (execHoldExpiry a0 a1 a2 s) := by
  unfold execHoldExpiry
  refine WithinX.next ?_
  refine State.finding_within _ rfl ?_ (fun _ => ?_)
  · exact Within.refl _ _
  refine Within.app (State.holdEnd_within _ _ _) rfl ?_
  exact Within.refl _ _

theorem execInv_within (a0) (a1) (a2) (s : State) :
    WithinX { free := true, due := true, trcCfg := true, irq := true, slices := true, banks := true, chans := true, far := true, near := true, memIo := true, hsf := true, bisnps := true, links := true, pba := true, hreqs := true, accs := true, fnc := true, xlts := true, xinv := true, rtrTx := true, rtrRx := true, dom := true, pors := true, ledger := true, bkt := true, flip := true, ras := true, mgt := true, events := true, trc := true, outs := true } s (execInv a0 a1 a2 s) := by
  unfold execInv
  refine WithinX.next ?_
  refine State.finding_within _ rfl ?_ (fun _ => ?_)
  · exact Within.refl _ _
  refine Within.app (State.snoopArrive_within _ _ _) rfl ?_
  exact Within.refl _ _

theorem execIwr_within (a0) (a1) (a2) (s : State) :
    WithinX { free := true, due := true, trcCfg := true, irq := true, slices := true, banks := true, chans := true, far := true, near := true, memIo := true, hsf := true, bisnps := true, links := true, pba := true, hreqs := true, accs := true, fnc := true, xlts := true, xinv := true, rtrTx := true, rtrRx := true, dom := true, pors := true, ledger := true, bkt := true, flip := true, ras := true, mgt := true, events := true, trc := true, outs := true } s (execIwr a0 a1 a2 s) := by
  unfold execIwr
  refine WithinX.next ?_
  refine State.finding_within _ rfl ?_ (fun _ => ?_)
  · exact Within.refl _ _
  refine Within.app (State.homeRequest_within _ _ _) rfl ?_
  exact Within.refl _ _

theorem execMemoryReadDone_within (a0) (a1) (s : State) :
    WithinX { free := true, due := true, trcCfg := true, irq := true, slices := true, banks := true, chans := true, far := true, near := true, memIo := true, hsf := true, bisnps := true, links := true, pba := true, hreqs := true, accs := true, lse := true, xlts := true, rtrTx := true, pors := true, ledger := true, bkt := true, flip := true, ras := true, events := true, trc := true, outs := true } s (execMemoryReadDone a0 a1 s) := by
  unfold execMemoryReadDone
  refine WithinX.next ?_
  refine State.finding_within _ rfl ?_ (fun _ => ?_)
  · exact Within.refl _ _
  refine Within.app (State.memDone_within _ _) rfl ?_
  exact Within.refl _ _

theorem execNackDown_within (a0) (a1) (a2) (s : State) :
    WithinX { free := true, due := true, trcCfg := true, irq := true, slices := true, banks := true, chans := true, far := true, near := true, memIo := true, hsf := true, bisnps := true, links := true, pba := true, hreqs := true, accs := true, fnc := true, xlts := true, xinv := true, rtrTx := true, rtrRx := true, rtr := true, dom := true, pors := true, ledger := true, bkt := true, flip := true, ras := true, mgt := true, events := true, trc := true, outs := true } s (execNackDown a0 a1 a2 s) := by
  unfold execNackDown
  refine WithinX.next ?_
  refine State.finding_within _ rfl ?_ (fun _ => ?_)
  · exact Within.refl _ _
  refine Within.app (State.nackArrive_within _ _ _ _) rfl ?_
  exact Within.refl _ _

theorem execNackRange_within (a0) (a1) (a2) (s : State) :
    WithinX { free := true, due := true, trcCfg := true, irq := true, slices := true, banks := true, chans := true, far := true, near := true, memIo := true, hsf := true, bisnps := true, links := true, pba := true, hreqs := true, accs := true, fnc := true, xlts := true, xinv := true, rtrTx := true, rtrRx := true, rtr := true, dom := true, pors := true, ledger := true, bkt := true, flip := true, ras := true, mgt := true, events := true, trc := true, outs := true } s (execNackRange a0 a1 a2 s) := by
  unfold execNackRange
  refine WithinX.next ?_
  refine State.finding_within _ rfl ?_ (fun _ => ?_)
  · exact Within.refl _ _
  refine Within.app (State.nackArrive_within _ _ _ _) rfl ?_
  exact Within.refl _ _

theorem execOffer_within (a0) (a1) (a2) (s : State) :
    WithinX { free := true, due := true, trcCfg := true, irq := true, slices := true, banks := true, chans := true, far := true, near := true, memIo := true, hsf := true, bisnps := true, links := true, pba := true, hreqs := true, accs := true, fnc := true, xlts := true, xinv := true, rtrTx := true, rtrRx := true, dom := true, pors := true, ledger := true, bkt := true, flip := true, ras := true, mgt := true, events := true, trc := true, outs := true } s (execOffer a0 a1 a2 s) := by
  unfold execOffer
  refine WithinX.next ?_
  refine State.finding_within _ rfl ?_ (fun _ => ?_)
  · exact Within.refl _ _
  refine Within.app (State.homeRequest_within _ _ _) rfl ?_
  exact Within.refl _ _

theorem execRds_within (a0) (a1) (a2) (s : State) :
    WithinX { free := true, due := true, trcCfg := true, irq := true, slices := true, banks := true, chans := true, far := true, near := true, memIo := true, hsf := true, bisnps := true, links := true, pba := true, hreqs := true, accs := true, fnc := true, xlts := true, xinv := true, rtrTx := true, rtrRx := true, dom := true, pors := true, ledger := true, bkt := true, flip := true, ras := true, mgt := true, events := true, trc := true, outs := true } s (execRds a0 a1 a2 s) := by
  unfold execRds
  refine WithinX.next ?_
  refine State.finding_within _ rfl ?_ (fun _ => ?_)
  · exact Within.refl _ _
  refine Within.app (State.homeRequest_within _ _ _) rfl ?_
  exact Within.refl _ _

theorem execRdx_within (a0) (a1) (a2) (s : State) :
    WithinX { free := true, due := true, trcCfg := true, irq := true, slices := true, banks := true, chans := true, far := true, near := true, memIo := true, hsf := true, bisnps := true, links := true, pba := true, hreqs := true, accs := true, fnc := true, xlts := true, xinv := true, rtrTx := true, rtrRx := true, dom := true, pors := true, ledger := true, bkt := true, flip := true, ras := true, mgt := true, events := true, trc := true, outs := true } s (execRdx a0 a1 a2 s) := by
  unfold execRdx
  refine WithinX.next ?_
  refine State.finding_within _ rfl ?_ (fun _ => ?_)
  · exact Within.refl _ _
  refine Within.app (State.homeRequest_within _ _ _) rfl ?_
  exact Within.refl _ _

theorem execRetry_within (a0) (a1) (s : State) :
    WithinX { trcCfg := true, irq := true, slices := true, chans := true, memIo := true, bisnps := true, links := true, pba := true, hreqs := true, rtrTx := true, rtrRx := true, ledger := true, events := true, trc := true, outs := true } s (execRetry a0 a1 s) := by
  unfold execRetry
  refine WithinX.next ?_
  refine Within.app (State.retryArrive_within _ _ _) rfl ?_
  exact Within.refl _ _

theorem execRetryGapExpiry_within (a0) (a1) (a2) (s : State) :
    WithinX { trcCfg := true, irq := true, slices := true, links := true, pba := true, hreqs := true, rtrTx := true, ledger := true, events := true, trc := true, outs := true } s (execRetryGapExpiry a0 a1 a2 s) := by
  unfold execRetryGapExpiry
  refine WithinX.next ?_
  refine Within.app (State.gapExpiry_within _ _ _ _) rfl ?_
  exact Within.refl _ _

theorem execTicketExpiry_within (a0) (a1) (s : State) :
    WithinX { trcCfg := true, irq := true, slices := true, pba := true, ledger := true, events := true, trc := true, outs := true } s (execTicketExpiry a0 a1 s) := by
  unfold execTicketExpiry
  refine WithinX.next ?_
  refine Within.app (State.ticketExpire_within _ _ _) rfl ?_
  exact Within.refl _ _

theorem execUpg_within (a0) (a1) (a2) (s : State) :
    WithinX { free := true, due := true, trcCfg := true, irq := true, slices := true, banks := true, chans := true, far := true, near := true, memIo := true, hsf := true, bisnps := true, links := true, pba := true, hreqs := true, accs := true, fnc := true, xlts := true, xinv := true, rtrTx := true, rtrRx := true, dom := true, pors := true, ledger := true, bkt := true, flip := true, ras := true, mgt := true, events := true, trc := true, outs := true } s (execUpg a0 a1 a2 s) := by
  unfold execUpg
  refine WithinX.next ?_
  refine State.finding_within _ rfl ?_ (fun _ => ?_)
  · exact Within.refl _ _
  refine Within.app (State.homeRequest_within _ _ _) rfl ?_
  exact Within.refl _ _

theorem execWbd_within (a0) (a1) (a2) (s : State) :
    WithinX { free := true, due := true, trcCfg := true, irq := true, slices := true, banks := true, chans := true, far := true, near := true, memIo := true, hsf := true, bisnps := true, links := true, pba := true, hreqs := true, accs := true, fnc := true, xlts := true, xinv := true, rtrTx := true, rtrRx := true, dom := true, pors := true, ledger := true, bkt := true, flip := true, ras := true, mgt := true, events := true, trc := true, outs := true } s (execWbd a0 a1 a2 s) := by
  unfold execWbd
  refine WithinX.next ?_
  refine State.finding_within _ rfl ?_ (fun _ => ?_)
  · exact Within.refl _ _
  refine Within.app (State.homeRequest_within _ _ _) rfl ?_
  exact Within.refl _ _

end Sys2Proof.Machine
end

