-- ==== Sys2Proof/Laws/SliceCmds.lean ====
section
/-! SUPPORT. For each operation of Machine/SliceCmds.lean one lemma: which pieces of the state it can change, and that it keeps the
invariant of Safety.lean. -/

set_option Elab.async false

namespace Sys2Proof.Machine

theorem State.fillDone_within (s : State) (a1) (a2) :
    Within { free := true, finds := true, due := true, trcCfg := true, irq := true, slices := true, banks := true, chans := true, far := true, near := true, memIo := true, hsf := true, bisnps := true, links := true, pba := true, hreqs := true, accs := true, lse := true, fnc := true, xlts := true, xinv := true, rtrTx := true, dom := true, pors := true, ledger := true, bkt := true, flip := true, ras := true, mgt := true, events := true, trc := true, outs := true } s (State.fillDone s a1 a2) := by
  unfold State.fillDone
  split
  · exact Within.refl _ _
  refine Within.ite ?_ ?_
  · exact Within.refl _ _
  extract_lets +onlyGivenNames x
  refine Within.cut (x := x) ?_ ?_ <;> [(unfold x; clear x); (obtain ⟨y, e⟩ := named x; rewrite [← e]; clear e x; intro _)]
  · refine Within.app (State.fillMr_within _ _ _) rfl ?_
    exact Within.refl _ _
  refine Within.ite ?_ ?_
  · assumption
  refine Within.app (State.snoopsResume_within _ _ _) rfl ?_
  assumption

theorem State.tcAction_within (s : State) (a1) (a2) :
    Within { slices := true } s (State.tcAction s a1 a2) := by
  unfold State.tcAction
  refine Within.app (State.modSlice_within _ _ _) rfl ?_
  exact Within.refl _ _

theorem State.wayRetire_within (s : State) (a1) (a2) (a3) :
    Within { free := true, finds := true, trcCfg := true, irq := true, slices := true, chans := true, near := true, memIo := true, bisnps := true, pba := true, rtrTx := true, ledger := true, bkt := true, flip := true, events := true, trc := true, outs := true } s (State.wayRetire s a1 a2 a3) := by
  unfold State.wayRetire
  refine Within.ite ?_ ?_
  · exact Within.refl _ _
  split
  · refine Within.app (State.event_within _ _ _ _) rfl ?_
    exact Within.refl _ _
  extract_lets +onlyGivenNames x
  clear_value x
  extract_lets +onlyGivenNames x
  clear_value x
  extract_lets +onlyGivenNames x
  refine Within.cutS (x := x) ?_ ?_ <;> [(intro _; unfold x; clear x; try beta_reduce); (intro _; clear_value x)]
  · refine Within.app (State.modSlice_within _ _ _) rfl ?_
    exact Within.refl _ _
  refine Within.ite ?_ ?_
  · refine Within.callS (by assumption) ?_
    refine WithinO.get (State.touchSet_within _ _ _) (by assumption) rfl ?_
    exact Within.refl _ _
  refine Within.ite ?_ ?_
  · refine WithinO.get (State.touchSet_within _ _ _) (by assumption) rfl ?_
    exact Within.refl _ _
  refine Within.ite ?_ ?_
  · refine Within.app (State.rec__within _ _ _ _ _ _) rfl ?_
    refine Within.callS (by assumption) ?_
    refine WithinO.get (State.touchSet_within _ _ _) (by assumption) rfl ?_
    exact Within.refl _ _
  split
  · refine WithinO.get (State.touchSet_within _ _ _) (by assumption) rfl ?_
    exact Within.refl _ _
  extract_lets +onlyGivenNames x
  refine Within.cut (x := x) ?_ ?_ <;> [(unfold x; clear x); (obtain ⟨y, e⟩ := named x; rewrite [← e]; clear e x; intro _)]
  · refine Within.app (State.putEnt_within _ _ _ _ _) rfl ?_
    refine WithinO.get (State.evictWay_within _ _ _ _) (by assumption) rfl ?_
    refine WithinO.get (State.touchSet_within _ _ _) (by assumption) rfl ?_
    exact Within.refl _ _
  extract_lets +onlyGivenNames x
  clear_value x
  refine Within.app (State.rec__within _ _ _ _ _ _) rfl ?_
  refine Within.app (State.putRec_within _ _ _ _) rfl ?_
  refine Within.callS (by assumption) ?_
  assumption

theorem execFillInstall_within (a0) (a1) (a2) (s : State) :
    WithinX { free := true, due := true, trcCfg := true, irq := true, slices := true, banks := true, chans := true, far := true, near := true, memIo := true, hsf := true, bisnps := true, links := true, pba := true, hreqs := true, accs := true, lse := true, fnc := true, xlts := true, xinv := true, rtrTx := true, dom := true, pors := true, ledger := true, bkt := true, flip := true, ras := true, mgt := true, events := true, trc := true, outs := true } s (execFillInstall a0 a1 a2 s) := by
  unfold execFillInstall
  refine WithinX.next ?_
  refine Within.ite ?_ ?_
  · exact Within.refl _ _
  refine State.finding_within _ rfl ?_ (fun _ => ?_)
  · exact Within.refl _ _
  refine Within.ite ?_ ?_
  · refine Within.app (State.fillDone_within _ _ _) rfl ?_
    exact Within.refl _ _
  refine Within.app (State.fillTrk_within _ _ _) rfl ?_
  exact Within.refl _ _

theorem execFlush_within (a0) (s : State) :
    WithinX { slices := true } s (execFlush a0 s) := by
  unfold execFlush
  refine WithinX.next ?_
  refine Within.ite ?_ ?_
  · refine Within.app (State.tcAction_within _ _ _) rfl ?_
    exact Within.refl _ _
  exact Within.refl _ _

theorem execInvalidate_within (a0) (s : State) :
    WithinX { slices := true } s (execInvalidate a0 s) := by
  unfold execInvalidate
  refine WithinX.next ?_
  refine Within.ite ?_ ?_
  · refine Within.app (State.tcAction_within _ _ _) rfl ?_
    exact Within.refl _ _
  exact Within.refl _ _

theorem execMrHwmReset_within (a0) (s : State) :
    WithinX { slices := true } s (execMrHwmReset a0 s) := by
  unfold execMrHwmReset
  refine WithinX.next ?_
  refine Within.ite ?_ ?_
  · refine Within.app (State.modSlice_within _ _ _) rfl ?_
    exact Within.refl _ _
  exact Within.refl _ _

theorem execStreamTableClear_within (a0) (s : State) :
    WithinX { slices := true } s (execStreamTableClear a0 s) := by
  unfold execStreamTableClear
  refine WithinX.next ?_
  refine Within.ite ?_ ?_
  · refine Within.app (State.modSlice_within _ _ _) rfl ?_
    exact Within.refl _ _
  exact Within.refl _ _

theorem execTagBlockReadDone_within (a0) (a1) (a2) (a3) (s : State) :
    WithinX { free := true, due := true, trcCfg := true, irq := true, slices := true, banks := true, chans := true, far := true, near := true, memIo := true, hsf := true, bisnps := true, links := true, pba := true, hreqs := true, accs := true, lse := true, fnc := true, xlts := true, xinv := true, rtrTx := true, dom := true, pors := true, ledger := true, bkt := true, flip := true, ras := true, mgt := true, events := true, trc := true, outs := true } s (execTagBlockReadDone a0 a1 a2 a3 s) := by
  unfold execTagBlockReadDone
  refine WithinX.next ?_
  refine Within.ite ?_ ?_
  · refine State.finding_within _ rfl ?_ (fun _ => ?_)
    · exact Within.refl _ _
    refine Within.app (State.tagsResume_within _ _) rfl ?_
    refine Within.app (State.tagsArrive_within _ _ _ _) rfl ?_
    exact Within.refl _ _
  exact Within.refl _ _

theorem execTagCacheActionDone_within (a0) (s : State) :
    WithinX { slices := true } s (execTagCacheActionDone a0 s) := by
  unfold execTagCacheActionDone
  refine WithinX.next ?_
  refine Within.ite ?_ ?_
  · refine Within.app (State.modSlice_within _ _ _) rfl ?_
    exact Within.refl _ _
  exact Within.refl _ _

theorem execTagCacheDisable_within (a0) (s : State) :
    WithinX { csr := true, trcCfg := true, slices := true } s (execTagCacheDisable a0 s) := by
  unfold execTagCacheDisable
  refine WithinX.next ?_
  refine Within.ite ?_ ?_
  · refine Within.app (State.csrPut_within _ _ _) rfl ?_
    refine Within.app (State.tcAction_within _ _ _) rfl ?_
    exact Within.refl _ _
  exact Within.refl _ _

theorem execTagPipelineLookup_within (a0) (a1) (a2) (a3) (s : State) :
    WithinX { free := true, due := true, trcCfg := true, irq := true, slices := true, banks := true, chans := true, far := true, near := true, memIo := true, hsf := true, bisnps := true, links := true, pba := true, hreqs := true, accs := true, lse := true, fnc := true, xlts := true, xinv := true, rtrTx := true, dom := true, pors := true, ledger := true, bkt := true, flip := true, ras := true, mgt := true, events := true, trc := true, outs := true } s (execTagPipelineLookup a0 a1 a2 a3 s) := by
  unfold execTagPipelineLookup
  refine WithinX.next ?_
  refine Within.ite ?_ ?_
  · exact Within.refl _ _
  extract_lets +onlyGivenNames x
  refine Within.cut (x := x) ?_ ?_ <;> [(unfold x; clear x); (obtain ⟨y, e⟩ := named x; rewrite [← e]; clear e x; intro _)]
  · split
    · refine Within.ite ?_ ?_
      · refine Within.app (State.fatalErr_within _ _ _ _) rfl ?_
        exact Within.refl _ _
      exact Within.refl _ _
    exact Within.refl _ _
  refine State.finding_within _ rfl ?_ (fun _ => ?_)
  · assumption
  refine Within.app (State.lookup_within _ _ _ _) rfl ?_
  exact Within.refl _ _

theorem execVbHwmReset_within (a0) (s : State) :
    WithinX { slices := true } s (execVbHwmReset a0 s) := by
  unfold execVbHwmReset
  refine WithinX.next ?_
  refine Within.ite ?_ ?_
  · refine Within.app (State.modSlice_within _ _ _) rfl ?_
    exact Within.refl _ _
  exact Within.refl _ _

theorem execWayPredictorClear_within (a0) (s : State) :
    WithinX { slices := true } s (execWayPredictorClear a0 s) := by
  unfold execWayPredictorClear
  refine WithinX.next ?_
  refine Within.ite ?_ ?_
  · refine Within.app (State.modSlice_within _ _ _) rfl ?_
    exact Within.refl _ _
  exact Within.refl _ _

theorem execWayRetire_within (a0) (a1) (a2) (a3) (s : State) :
    WithinX { free := true, due := true, trcCfg := true, irq := true, slices := true, chans := true, near := true, memIo := true, bisnps := true, pba := true, rtrTx := true, ledger := true, bkt := true, flip := true, events := true, trc := true, outs := true } s (execWayRetire a0 a1 a2 a3 s) := by
  unfold execWayRetire
  refine WithinX.next ?_
  refine Within.ite ?_ ?_
  · refine State.finding_within _ rfl ?_ (fun _ => ?_)
    · exact Within.refl _ _
    refine Within.app (State.wayRetire_within _ _ _ _) rfl ?_
    exact Within.refl _ _
  exact Within.refl _ _

end Sys2Proof.Machine
end

