-- ==== Sys2Proof/Laws/Xlt.lean ====
section
/-! SUPPORT. For each operation of Machine/Xlt.lean one lemma: which pieces of the state it can change, and that it keeps the
invariant of Safety.lean. -/

set_option Elab.async false

namespace Sys2Proof.Machine

theorem State.accTranslated_within (s : State) (a1) (a2) :
    Within { accs := true } s (State.accTranslated s a1 a2) := by
  unfold State.accTranslated
  with_reducible (apply Within.upd <;> try first | exact .inl rfl | exact .inr rfl | exact id | assumption | exact Within.refl _ _)

theorem State.eachXlt_within (s : State) (a1) :
    Within { xlts := true } s (State.eachXlt s a1) := by
  unfold State.eachXlt
  refine Within.foldl (fun _ _ => ?_) ?_
  · refine Within.app (State.setXlt_within _ _ _) rfl ?_
    exact Within.refl _ _
  exact Within.refl _ _

theorem State.l1Put_within (s : State) (a1) (a2) (a3) :
    Within { xlts := true } s (State.l1Put s a1 a2 a3) := by
  unfold State.l1Put
  extract_lets +onlyGivenNames x
  clear_value x
  refine Within.ite ?_ ?_
  · refine Within.app (State.setXlt_within _ _ _) rfl ?_
    exact Within.refl _ _
  refine Within.app (State.setXlt_within _ _ _) rfl ?_
  exact Within.refl _ _

theorem State.l2Put_within (s : State) (a1) (a2) :
    Within { xlts := true } s (State.l2Put s a1 a2) := by
  unfold State.l2Put
  extract_lets +onlyGivenNames x
  clear_value x
  refine Within.app (State.setXlt_within _ _ _) rfl ?_
  exact Within.refl _ _

theorem State.newId_within (s : State) :
    WithinP { nextRid := true } s (State.newId s) := by
  unfold State.newId
  refine WithinP.mk ?_
  with_reducible (apply Within.upd <;> try first | exact .inl rfl | exact .inr rfl | exact id | assumption | exact Within.refl _ _)

theorem State.parity_within (s : State) (a1) (a2) (a3) (a4) (a5) :
    Within { trcCfg := true, irq := true, pba := true, xlts := true, ledger := true, events := true, trc := true, outs := true } s (State.parity s a1 a2 a3 a4 a5) := by
  unfold State.parity
  split
  · refine Within.ite ?_ ?_
    · refine Within.app (State.rec__within _ _ _ _ _ _) rfl ?_
      refine Within.app (State.setXlt_within _ _ _) rfl ?_
      exact Within.refl _ _
    exact Within.refl _ _
  exact Within.refl _ _

theorem State.porUnleaf_within (s : State) (a1) :
    Within { pors := true } s (State.porUnleaf s a1) := by
  unfold State.porUnleaf
  with_reducible (apply Within.upd <;> try first | exact .inl rfl | exact .inr rfl | exact id | assumption | exact Within.refl _ _)

theorem State.tlbLook_within (s : State) (a1) (a2) (a3) (a4) (a5) :
    WithinP { trcCfg := true, irq := true, pba := true, xlts := true, ledger := true, events := true, trc := true, outs := true } s (State.tlbLook s a1 a2 a3 a4 a5) := by
  unfold State.tlbLook
  extract_lets +onlyGivenNames x
  refine WithinP.cut (x := x) ?_ ?_ <;> [(unfold x; clear x); (obtain ⟨y, e⟩ := named x; rewrite [← e]; clear e x; intro _)]
  · refine Within.app (State.parity_within _ _ _ _ _ _) rfl ?_
    exact Within.refl _ _
  split
  · extract_lets +onlyGivenNames x
    clear_value x
    extract_lets +onlyGivenNames x
    clear_value x
    refine WithinP.mk ?_
    refine Within.app (State.event_within _ _ _ _) rfl ?_
    refine Within.app (State.setXlt_within _ _ _) rfl ?_
    assumption
  extract_lets +onlyGivenNames x
  refine WithinP.cut (x := x) ?_ ?_ <;> [(unfold x; clear x); (obtain ⟨y, e⟩ := named x; rewrite [← e]; clear e x; intro _)]
  · refine Within.app (State.parity_within _ _ _ _ _ _) rfl ?_
    assumption
  split
  · extract_lets +onlyGivenNames x
    clear_value x
    extract_lets +onlyGivenNames x
    refine WithinP.cut (x := x) ?_ ?_ <;> [(unfold x; clear x); (obtain ⟨y, e⟩ := named x; rewrite [← e]; clear e x; intro _)]
    · refine Within.app (State.setXlt_within _ _ _) rfl ?_
      assumption
    refine WithinP.mk ?_
    refine Within.app (State.event_within _ _ _ _) rfl ?_
    refine Within.app (State.l1Put_within _ _ _ _) rfl ?_
    assumption
  refine WithinP.mk ?_
  assumption

theorem State.xmiss_within (s : State) (a1) (a2) (a3) (a4) (a5) (a6) (a7) :
    Within { nextRid := true, xlts := true } s (State.xmiss s a1 a2 a3 a4 a5 a6 a7) := by
  unfold State.xmiss
  extract_lets +onlyGivenNames x
  clear_value x
  extract_lets +onlyGivenNames x
  clear_value x
  extract_lets +onlyGivenNames x
  clear_value x
  split
  extract_lets +onlyGivenNames x
  clear_value x
  refine Within.app (State.setXlt_within _ _ _) rfl ?_
  refine WithinP.get (State.newId_within _) (by assumption) rfl ?_
  exact Within.refl _ _

theorem State.xlate_within (s : State) (a1) (a2) (a3) (a4) (a5) (a6) (a7) :
    WithinP { trcCfg := true, irq := true, pba := true, nextRid := true, xlts := true, ledger := true, events := true, trc := true, outs := true } s (State.xlate s a1 a2 a3 a4 a5 a6 a7) := by
  unfold State.xlate
  split
  · refine WithinP.mk ?_
    refine WithinP.get (State.tlbLook_within _ _ _ _ _ _) (by assumption) rfl ?_
    exact Within.refl _ _
  refine WithinP.mk ?_
  refine Within.app (State.xmiss_within _ _ _ _ _ _ _ _) rfl ?_
  refine WithinP.get (State.tlbLook_within _ _ _ _ _ _) (by assumption) rfl ?_
  exact Within.refl _ _

theorem State.xltAge_within (s : State) (a1) :
    Within { xlts := true } s (State.xltAge s a1) := by
  unfold State.xltAge
  refine Within.app (State.setXlt_within _ _ _) rfl ?_
  exact Within.refl _ _

theorem State.xltDropBbm_within (s : State) (a1) :
    Within { xlts := true, pors := true } s (State.xltDropBbm s a1) := by
  unfold State.xltDropBbm
  extract_lets +onlyGivenNames x
  clear_value x
  refine Within.app (State.eachXlt_within _ _) rfl ?_
  refine Within.app (State.porUnleaf_within _ _) rfl ?_
  exact Within.refl _ _

theorem State.xltDropCtx_within (s : State) (a1) :
    Within { xlts := true, pors := true } s (State.xltDropCtx s a1) := by
  unfold State.xltDropCtx
  refine Within.app (State.eachXlt_within _ _) rfl ?_
  refine Within.app (State.porUnleaf_within _ _) rfl ?_
  exact Within.refl _ _

theorem State.xltEmpty_within (s : State) :
    Within { xlts := true } s (State.xltEmpty s) := by
  unfold State.xltEmpty
  refine Within.app (State.eachXlt_within _ _) rfl ?_
  exact Within.refl _ _

theorem State.xltInvalidate_within (s : State) (a1) (a2) (a3) :
    Within { xlts := true, pors := true } s (State.xltInvalidate s a1 a2 a3) := by
  unfold State.xltInvalidate
  extract_lets +onlyGivenNames x
  clear_value x
  refine Within.app (State.eachXlt_within _ _) rfl ?_
  refine Within.app (State.porUnleaf_within _ _) rfl ?_
  exact Within.refl _ _

end Sys2Proof.Machine
end

