-- ==== Sys2Proof/Laws/Host.lean ====
section
/-! SUPPORT. For each operation of Machine/Host.lean one lemma: which pieces of the state it can change, and that it keeps the
invariant of Safety.lean. -/

set_option Elab.async false

namespace Sys2Proof.Machine

theorem State.takeCredit_within (s : State) (a1) (a2) :
    Within { links := true, pba := true } s (State.takeCredit s a1 a2) := by
  unfold State.takeCredit
  refine Within.app (State.modLink_within _ _ _) rfl ?_
  exact Within.refl _ _

theorem State.book_within (s : State) (a1) :
    Within { hreqs := true, nextRid := true, accs := true } s (State.book s a1) := by
  unfold State.book
  extract_lets +onlyGivenNames x
  clear_value x
  with_reducible (apply Within.upd <;> try first | exact .inl rfl | exact .inr rfl | exact id | assumption | exact Within.refl _ _)

theorem State.hostEnd_within (s : State) (a1) :
    Within { free := true, due := true, trcCfg := true, irq := true, hsf := true, bisnps := true, links := true, pba := true, hreqs := true, accs := true, ledger := true, bkt := true, flip := true, events := true, trc := true, outs := true } s (State.hostEnd s a1) := by
  unfold State.hostEnd
  refine Within.app (State.accDone_within _ _) rfl ?_
  refine Within.app (State.hostGone_within _ _) rfl ?_
  refine Within.ite ?_ ?_
  · refine Within.app (State.hostCmp_within _ _) rfl ?_
    exact Within.refl _ _
  refine Within.app (State.hostData_within _ _ _ _ _) rfl ?_
  exact Within.refl _ _

theorem State.hostRefuse_within (s : State) (a1) :
    Within { free := true, due := true, trcCfg := true, irq := true, hsf := true, bisnps := true, links := true, pba := true, hreqs := true, accs := true, ledger := true, bkt := true, flip := true, events := true, trc := true, outs := true } s (State.hostRefuse s a1) := by
  unfold State.hostRefuse
  refine Within.app (State.hostEnd_within _ _) rfl ?_
  refine Within.app (State.rec__within _ _ _ _ _ _) rfl ?_
  exact Within.refl _ _

theorem State.seen_within (s : State) (a1) (a2) :
    Within { trcCfg := true, events := true, trc := true } s (State.seen s a1 a2) := by
  unfold State.seen
  extract_lets +onlyGivenNames x
  clear_value x
  extract_lets +onlyGivenNames x
  clear_value x
  refine Within.app (State.trace_within _ _ _ _ _ _ _ _) rfl ?_
  refine Within.app (State.event_within _ _ _ _) rfl ?_
  exact Within.refl _ _

theorem State.lowAccess_within (s : State) (a1) :
    Within { free := true, finds := true, due := true, trcCfg := true, irq := true, slices := true, chans := true, far := true, near := true, memIo := true, hsf := true, bisnps := true, links := true, pba := true, hreqs := true, accs := true, lse := true, fnc := true, xlts := true, xinv := true, pors := true, ledger := true, bkt := true, flip := true, ras := true, mgt := true, events := true, trc := true, outs := true } s (State.lowAccess s a1) := by
  unfold State.lowAccess
  extract_lets +onlyGivenNames x
  clear_value x
  extract_lets +onlyGivenNames x
  clear_value x
  refine Within.ite ?_ ?_
  · refine Within.app (State.modReq_within _ _ _) rfl ?_
    exact Within.refl _ _
  refine Within.ite ?_ ?_
  · refine Within.app (State.modReq_within _ _ _) rfl ?_
    refine Within.foldl (fun _ _ => ?_) ?_
    · refine Within.app (State.sendBi_within _ _ _ _ _ _) rfl ?_
      exact Within.refl _ _
    exact Within.refl _ _
  split
  · refine Within.app (State.modReq_within _ _ _) rfl ?_
    refine Within.app (State.hsfEvict_within _ _) rfl ?_
    exact Within.refl _ _
  refine Within.ite ?_ ?_
  · refine Within.app (State.reqFail_within _ _ _) rfl ?_
    exact Within.refl _ _
  refine Within.ite ?_ ?_
  · refine Within.app (State.reqDone_within _ _ _ _ _) rfl ?_
    refine Within.app (State.farWrite_within _ _ _ _ _) rfl ?_
    exact Within.refl _ _
  refine Within.app (State.modReq_within _ _ _) rfl ?_
  refine WithinP.snd (State.farRead_within _ _ _ _) rfl ?_
  exact Within.refl _ _

theorem State.toSlice_within (s : State) (a1) (a2) :
    Within { slices := true } s (State.toSlice s a1 a2) := by
  unfold State.toSlice
  refine Within.app (State.modSlice_within _ _ _) rfl ?_
  exact Within.refl _ _

theorem State.hostIssue_within (s : State) (a1) :
    Within { slices := true, hreqs := true } s (State.hostIssue s a1) := by
  unfold State.hostIssue
  extract_lets +onlyGivenNames x
  clear_value x
  extract_lets +onlyGivenNames x
  clear_value x
  extract_lets +onlyGivenNames x
  clear_value x
  extract_lets +onlyGivenNames x
  clear_value x
  extract_lets +onlyGivenNames x
  clear_value x
  refine Within.app (State.toSlice_within _ _ _) rfl ?_
  refine Within.app (State.modReq_within _ _ _) rfl ?_
  exact Within.refl _ _

theorem State.hostDead_within (s : State) (a1) (a2) :
    Within { free := true, due := true, trcCfg := true, irq := true, hsf := true, bisnps := true, links := true, pba := true, hreqs := true, accs := true, fnc := true, xinv := true, ledger := true, bkt := true, flip := true, events := true, trc := true, outs := true } s (State.hostDead s a1 a2) := by
  unfold State.hostDead
  extract_lets +onlyGivenNames x
  refine Within.cut (x := x) ?_ ?_ <;> [(unfold x; clear x); (obtain ⟨y, e⟩ := named x; rewrite [← e]; clear e x; intro _)]
  · refine Within.app (State.accFail_within _ _ _ _ _) rfl ?_
    refine Within.app (State.rec__within _ _ _ _ _ _) rfl ?_
    exact Within.refl _ _
  extract_lets +onlyGivenNames x
  refine Within.cut (x := x) ?_ ?_ <;> [(unfold x; clear x); (obtain ⟨y, e⟩ := named x; rewrite [← e]; clear e x; intro _)]
  · refine Within.ite ?_ ?_
    · refine Within.app (State.modLink_within _ _ _) rfl ?_
      assumption
    assumption
  refine Within.app (State.hostEnd_within _ _) rfl ?_
  assumption

theorem State.pwbEnter_within (s : State) (a1) :
    WithinO { trcCfg := true, irq := true, links := true, pba := true, hreqs := true, ledger := true, events := true, trc := true, outs := true } s (State.pwbEnter s a1) := by
  unfold State.pwbEnter
  extract_lets +onlyGivenNames x
  clear_value x
  extract_lets +onlyGivenNames x
  clear_value x
  extract_lets +onlyGivenNames x
  clear_value x
  refine WithinO.ite ?_ ?_
  · exact WithinO.none _ _
  extract_lets +onlyGivenNames x
  clear_value x
  split
  · extract_lets +onlyGivenNames x
    clear_value x
    refine WithinO.some ?_
    refine Within.app (State.hostGone_within _ _) rfl ?_
    refine Within.app (State.hostCmp_within _ _) rfl ?_
    refine Within.app (State.setLink_within _ _ _) rfl ?_
    exact Within.refl _ _
  refine WithinO.ite ?_ ?_
  · exact WithinO.none _ _
  extract_lets +onlyGivenNames x
  clear_value x
  extract_lets +onlyGivenNames x
  refine WithinO.cut (x := x) ?_ ?_ <;> [(unfold x; clear x); (obtain ⟨y, e⟩ := named x; rewrite [← e]; clear e x; intro _)]
  · refine Within.app (State.setLink_within _ _ _) rfl ?_
    exact Within.refl _ _
  refine WithinO.some ?_
  refine Within.app (State.hostGone_within _ _) rfl ?_
  refine Within.app (State.hostCmp_within _ _) rfl ?_
  assumption

theorem State.globGo_within (s : State) (a1) :
    Within { free := true, due := true, trcCfg := true, irq := true, slices := true, hsf := true, bisnps := true, links := true, pba := true, hreqs := true, accs := true, lse := true, fnc := true, xlts := true, xinv := true, pors := true, ledger := true, bkt := true, flip := true, events := true, trc := true, outs := true } s (State.globGo s a1) := by
  unfold State.globGo
  extract_lets +onlyGivenNames x
  clear_value x
  extract_lets +onlyGivenNames x
  clear_value x
  extract_lets +onlyGivenNames x
  refine Within.cutF (x := x) ?_ ?_ <;> [(intro _; unfold x; clear x; try beta_reduce); (intro _; clear_value x)]
  · refine Within.app (State.modReq_within _ _ _) rfl ?_
    exact Within.refl _ _
  refine Within.ite ?_ ?_
  · refine Within.app (State.hostDead_within _ _ _) rfl ?_
    exact Within.refl _ _
  refine Within.ite ?_ ?_
  · refine Within.ite ?_ ?_
    · refine Within.app (State.hostIssue_within _ _) rfl ?_
      exact Within.refl _ _
    apply_assumption
  refine Within.ite ?_ ?_
  · split
    · refine WithinO.get (State.pwbEnter_within _ _) (by assumption) rfl ?_
      exact Within.refl _ _
    apply_assumption
  refine Within.ite ?_ ?_
  · apply_assumption
  extract_lets +onlyGivenNames x
  clear_value x
  refine Within.ite ?_ ?_
  · refine Within.app (State.hostIssue_within _ _) rfl ?_
    exact Within.refl _ _
  refine Within.ite ?_ ?_
  · apply_assumption
  split
  · refine Within.app (State.reqDone_within _ _ _ _ _) rfl ?_
    exact Within.refl _ _
  apply_assumption

theorem State.hostTranslated_within (s : State) (a1) (a2) (a3) :
    Within { free := true, due := true, trcCfg := true, irq := true, slices := true, hsf := true, bisnps := true, links := true, pba := true, hreqs := true, accs := true, lse := true, fnc := true, xlts := true, xinv := true, pors := true, ledger := true, bkt := true, flip := true, events := true, trc := true, outs := true } s (State.hostTranslated s a1 a2 a3) := by
  unfold State.hostTranslated
  split
  · exact Within.refl _ _
  extract_lets +onlyGivenNames x
  clear_value x
  extract_lets +onlyGivenNames x
  clear_value x
  extract_lets +onlyGivenNames x
  clear_value x
  extract_lets +onlyGivenNames x
  clear_value x
  extract_lets +onlyGivenNames x
  clear_value x
  extract_lets +onlyGivenNames x
  refine Within.cut (x := x) ?_ ?_ <;> [(unfold x; clear x); (obtain ⟨y, e⟩ := named x; rewrite [← e]; clear e x; intro _)]
  · refine Within.app (State.modReq_within _ _ _) rfl ?_
    refine Within.app (State.accTranslated_within _ _ _) rfl ?_
    exact Within.refl _ _
  refine Within.ite ?_ ?_
  · refine Within.app (State.hostRefuse_within _ _) rfl ?_
    assumption
  refine Within.app (State.globGo_within _ _) rfl ?_
  assumption

theorem State.hostRoute_within (s : State) (a1) (a2) :
    Within { free := true, finds := true, due := true, trcCfg := true, irq := true, slices := true, chans := true, far := true, near := true, memIo := true, hsf := true, bisnps := true, links := true, pba := true, hreqs := true, nextRid := true, accs := true, lse := true, fnc := true, xlts := true, xinv := true, pors := true, ledger := true, bkt := true, flip := true, ras := true, mgt := true, events := true, trc := true, outs := true } s (State.hostRoute s a1 a2) := by
  unfold State.hostRoute
  refine Within.ite ?_ ?_
  · refine Within.app (State.hostRefuse_within _ _) rfl ?_
    exact Within.refl _ _
  split
  · extract_lets +onlyGivenNames x
    clear_value x
    extract_lets +onlyGivenNames x
    refine Within.cut (x := x) ?_ ?_ <;> [(unfold x; clear x); (obtain ⟨y, e⟩ := named x; rewrite [← e]; clear e x; intro _)]
    · refine Within.app (State.modReq_within _ _ _) rfl ?_
      exact Within.refl _ _
    refine Within.ite ?_ ?_
    · refine Within.app (State.lowAccess_within _ _) rfl ?_
      assumption
    refine Within.app (State.hostIssue_within _ _) rfl ?_
    assumption
  · extract_lets +onlyGivenNames x
    clear_value x
    extract_lets +onlyGivenNames x
    clear_value x
    extract_lets +onlyGivenNames x
    refine Within.cut (x := x) ?_ ?_ <;> [(unfold x; clear x); (obtain ⟨y, e⟩ := named x; rewrite [← e]; clear e x; intro _)]
    · refine Within.app (State.modReq_within _ _ _) rfl ?_
      exact Within.refl _ _
    refine Within.ite ?_ ?_
    · extract_lets +onlyGivenNames x
      clear_value x
      extract_lets +onlyGivenNames x
      refine Within.cut (x := x) ?_ ?_ <;> [(unfold x; clear x); (obtain ⟨y, e⟩ := named x; rewrite [← e]; clear e x; intro _)]
      · refine Within.app (State.accFail_within _ _ _ _ _) rfl ?_
        assumption
      refine Within.app (State.hostRefuse_within _ _) rfl ?_
      assumption
    refine Within.ite ?_ ?_
    · refine Within.app (State.hostRefuse_within _ _) rfl ?_
      assumption
    refine Within.app (State.hostIssue_within _ _) rfl ?_
    assumption
  · extract_lets +onlyGivenNames x
    clear_value x
    refine Within.app (State.hostIssue_within _ _) rfl ?_
    refine Within.app (State.modReq_within _ _ _) rfl ?_
    exact Within.refl _ _
  extract_lets +onlyGivenNames x
  clear_value x
  extract_lets +onlyGivenNames x
  clear_value x
  extract_lets +onlyGivenNames x
  clear_value x
  extract_lets +onlyGivenNames x
  clear_value x
  extract_lets +onlyGivenNames x
  clear_value x
  extract_lets +onlyGivenNames x
  clear_value x
  extract_lets +onlyGivenNames x
  clear_value x
  extract_lets +onlyGivenNames x
  refine Within.cut (x := x) ?_ ?_ <;> [(unfold x; clear x); (obtain ⟨y, e⟩ := named x; rewrite [← e]; clear e x; intro _)]
  · refine Within.app (State.modReq_within _ _ _) rfl ?_
    exact Within.refl _ _
  extract_lets +onlyGivenNames x
  clear_value x
  split
  · refine Within.app (State.hostTranslated_within _ _ _ _) rfl ?_
    refine WithinP.get (State.xlate_within _ _ _ _ _ _ _ _) (by assumption) rfl ?_
    assumption
  extract_lets +onlyGivenNames x
  refine Within.cut (x := x) ?_ ?_ <;> [(unfold x; clear x); (obtain ⟨y, e⟩ := named x; rewrite [← e]; clear e x; intro _)]
  · refine Within.app (State.modLink_within _ _ _) rfl ?_
    refine WithinP.get (State.xlate_within _ _ _ _ _ _ _ _) (by assumption) rfl ?_
    assumption
  refine Within.app (State.modReq_within _ _ _) rfl ?_
  assumption

theorem State.accept_within (s : State) (a1) (a2) :
    Within { free := true, finds := true, due := true, trcCfg := true, irq := true, slices := true, chans := true, far := true, near := true, memIo := true, hsf := true, bisnps := true, links := true, pba := true, hreqs := true, nextRid := true, accs := true, lse := true, fnc := true, xlts := true, xinv := true, pors := true, ledger := true, bkt := true, flip := true, ras := true, mgt := true, events := true, trc := true, outs := true } s (State.accept s a1 a2) := by
  unfold State.accept
  refine Within.ite ?_ ?_
  · exact Within.refl _ _
  refine Within.ite ?_ ?_
  · refine Within.app (State.rec__within _ _ _ _ _ _) rfl ?_
    refine Within.app (State.emit_within _ _) rfl ?_
    exact Within.refl _ _
  refine Within.ite ?_ ?_
  · refine Within.ite ?_ ?_
    · exact Within.refl _ _
    refine Within.app (State.emit_within _ _) rfl ?_
    refine Within.app (State.takeCredit_within _ _ _) rfl ?_
    exact Within.refl _ _
  refine Within.ite ?_ ?_
  · exact Within.refl _ _
  extract_lets +onlyGivenNames x
  clear_value x
  extract_lets +onlyGivenNames x
  refine Within.cut (x := x) ?_ ?_ <;> [(unfold x; clear x); (obtain ⟨y, e⟩ := named x; rewrite [← e]; clear e x; intro _)]
  · refine Within.app (State.book_within _ _) rfl ?_
    refine Within.app (State.takeCredit_within _ _ _) rfl ?_
    exact Within.refl _ _
  split
  · refine Within.app (State.hostRefuse_within _ _) rfl ?_
    refine Within.app (State.seen_within _ _ _) rfl ?_
    assumption
  refine Within.ite ?_ ?_
  · refine Within.app (State.hostRefuse_within _ _) rfl ?_
    refine Within.app (State.seen_within _ _ _) rfl ?_
    assumption
  refine Within.app (State.hostRoute_within _ _ _) rfl ?_
  refine Within.app (State.seen_within _ _ _) rfl ?_
  assumption

theorem State.lineResume_within (s : State) (a1) :
    Within { free := true, finds := true, due := true, trcCfg := true, irq := true, slices := true, banks := true, chans := true, far := true, near := true, memIo := true, hsf := true, bisnps := true, links := true, pba := true, hreqs := true, accs := true, lse := true, fnc := true, xlts := true, xinv := true, rtrTx := true, dom := true, pors := true, ledger := true, bkt := true, flip := true, ras := true, mgt := true, events := true, trc := true, outs := true } s (State.lineResume s a1) := by
  unfold State.lineResume
  extract_lets +onlyGivenNames x
  clear_value x
  extract_lets +onlyGivenNames x
  refine Within.cut (x := x) ?_ ?_ <;> [(unfold x; clear x); (obtain ⟨y, e⟩ := named x; rewrite [← e]; clear e x; intro _)]
  · refine Within.app (State.snoopsResume_within _ _ _) rfl ?_
    exact Within.refl _ _
  extract_lets +onlyGivenNames x
  refine Within.cut (x := x) ?_ ?_ <;> [(unfold x; clear x); (obtain ⟨y, e⟩ := named x; rewrite [← e]; clear e x; intro _)]
  · refine Within.foldl (fun _ _ => ?_) ?_
    · refine Within.app (State.vbGo_within _ _ _) rfl ?_
      exact Within.refl _ _
    assumption
  extract_lets +onlyGivenNames x
  refine Within.cut (x := x) ?_ ?_ <;> [(unfold x; clear x); (obtain ⟨y, e⟩ := named x; rewrite [← e]; clear e x; intro _)]
  · split
    · refine Within.app (State.homeGo_within _ _ _) rfl ?_
      assumption
    assumption
  extract_lets +onlyGivenNames x
  refine Within.cut (x := x) ?_ ?_ <;> [(unfold x; clear x); (obtain ⟨y, e⟩ := named x; rewrite [← e]; clear e x; intro _)]
  · refine Within.app (State.wakeVb_within _ _) rfl ?_
    assumption
  refine Within.foldl (fun _ _ => ?_) ?_
  · refine Within.app (State.lowAccess_within _ _) rfl ?_
    exact Within.refl _ _
  assumption

theorem State.biDone_within (s : State) (a1) (a2) :
    Within { free := true, finds := true, due := true, trcCfg := true, irq := true, slices := true, banks := true, chans := true, far := true, near := true, memIo := true, hsf := true, bisnps := true, links := true, pba := true, hreqs := true, accs := true, lse := true, fnc := true, xlts := true, xinv := true, rtrTx := true, dom := true, pors := true, ledger := true, bkt := true, flip := true, ras := true, mgt := true, events := true, trc := true, outs := true } s (State.biDone s a1 a2) := by
  unfold State.biDone
  extract_lets +onlyGivenNames x
  refine Within.cut (x := x) ?_ ?_ <;> [(unfold x; clear x); (obtain ⟨y, e⟩ := named x; rewrite [← e]; clear e x; intro _)]
  · refine Within.app (State.roundEnd_within _ _ _) rfl ?_
    with_reducible (apply Within.upd <;> try first | exact .inl rfl | exact .inr rfl | exact id | assumption | exact Within.refl _ _)
  extract_lets +onlyGivenNames x
  refine Within.cut (x := x) ?_ ?_ <;> [(unfold x; clear x); (obtain ⟨y, e⟩ := named x; rewrite [← e]; clear e x; intro _)]
  · refine Within.app (State.modCopies_within _ _ _ _) rfl ?_
    assumption
  extract_lets +onlyGivenNames x
  refine Within.cut (x := x) ?_ ?_ <;> [(unfold x; clear x); (obtain ⟨y, e⟩ := named x; rewrite [← e]; clear e x; intro _)]
  · split
    · refine Within.ite ?_ ?_
      · assumption
      refine Within.app (State.mergeDirty_within _ _ _ _ _) rfl ?_
      assumption
    assumption
  extract_lets +onlyGivenNames x
  refine Within.cut (x := x) ?_ ?_ <;> [(unfold x; clear x); (obtain ⟨y, e⟩ := named x; rewrite [← e]; clear e x; intro _)]
  · refine Within.ite ?_ ?_
    · refine Within.app (State.recall_within _ _ _ _ _ _) rfl ?_
      assumption
    assumption
  refine Within.ite ?_ ?_
  · assumption
  refine Within.app (State.lineResume_within _ _) rfl ?_
  assumption

theorem State.hostFault_within (s : State) (a1) :
    Within { free := true, due := true, trcCfg := true, irq := true, hsf := true, bisnps := true, links := true, pba := true, hreqs := true, accs := true, ledger := true, bkt := true, flip := true, events := true, trc := true, outs := true } s (State.hostFault s a1) := by
  unfold State.hostFault
  split
  · exact Within.refl _ _
  refine Within.app (State.hostEnd_within _ _) rfl ?_
  exact Within.refl _ _

theorem State.hotReset_within (s : State) (a1) :
    Within { free := true, finds := true, due := true, trcCfg := true, msix := true, irq := true, slices := true, banks := true, chans := true, far := true, near := true, memIo := true, hsf := true, bisnps := true, links := true, pba := true, hreqs := true, accs := true, lse := true, fnc := true, xlts := true, xinv := true, rtrTx := true, dom := true, pors := true, ledger := true, bkt := true, flip := true, ras := true, mgt := true, events := true, trc := true, outs := true } s (State.hotReset s a1) := by
  unfold State.hotReset
  extract_lets +onlyGivenNames x
  refine Within.cut (x := x) ?_ ?_ <;> [(unfold x; clear x); (obtain ⟨y, e⟩ := named x; rewrite [← e]; clear e x; intro _)]
  · refine Within.app (State.modLink_within _ _ _) rfl ?_
    exact Within.refl _ _
  extract_lets +onlyGivenNames x
  clear_value x
  extract_lets +onlyGivenNames x
  refine Within.cut (x := x) ?_ ?_ <;> [(unfold x; clear x); (obtain ⟨y, e⟩ := named x; rewrite [← e]; clear e x; intro _)]
  · with_reducible (apply Within.upd <;> try first | exact .inl rfl | exact .inr rfl | exact id | assumption | exact Within.refl _ _)
  extract_lets +onlyGivenNames x
  refine Within.cut (x := x) ?_ ?_ <;> [(unfold x; clear x); (obtain ⟨y, e⟩ := named x; rewrite [← e]; clear e x; intro _)]
  · refine Within.foldl (fun _ _ => ?_) ?_
    · refine Within.app (State.modSlice_within _ _ _) rfl ?_
      exact Within.refl _ _
    assumption
  refine Within.foldl (fun _ _ => ?_) ?_
  · refine Within.app (State.biDone_within _ _ _) rfl ?_
    exact Within.refl _ _
  assumption

theorem State.portClock_within (s : State) :
    Within { free := true, due := true, trcCfg := true, irq := true, slices := true, hsf := true, bisnps := true, links := true, pba := true, hreqs := true, accs := true, lse := true, fnc := true, xlts := true, xinv := true, pors := true, ledger := true, bkt := true, flip := true, events := true, trc := true, outs := true } s (State.portClock s) := by
  unfold State.portClock
  refine Within.foldl (fun _ _ => ?_) ?_
  · split
    · refine Within.ite ?_ ?_
      · refine Within.app (State.globGo_within _ _) rfl ?_
        exact Within.refl _ _
      exact Within.refl _ _
    exact Within.refl _ _
  exact Within.refl _ _

theorem State.sliceDrop_within (s : State) (a1) (a2) :
    Within { free := true, finds := true, due := true, trcCfg := true, irq := true, slices := true, banks := true, chans := true, far := true, near := true, memIo := true, hsf := true, bisnps := true, links := true, pba := true, hreqs := true, accs := true, fnc := true, xlts := true, xinv := true, rtrTx := true, dom := true, pors := true, ledger := true, bkt := true, flip := true, ras := true, mgt := true, events := true, trc := true, outs := true } s (State.sliceDrop s a1 a2) := by
  unfold State.sliceDrop
  extract_lets +onlyGivenNames x
  refine Within.cut (x := x) ?_ ?_ <;> [(unfold x; clear x); (obtain ⟨y, e⟩ := named x; rewrite [← e]; clear e x; intro _)]
  · refine Within.app (State.modSlice_within _ _ _) rfl ?_
    exact Within.refl _ _
  split
  · assumption
  split
  · refine Within.app (State.mrClose_within _ _ _) rfl ?_
    assumption
  extract_lets +onlyGivenNames x
  refine Within.cut (x := x) ?_ ?_ <;> [(unfold x; clear x); (obtain ⟨y, e⟩ := named x; rewrite [← e]; clear e x; intro _)]
  · refine Within.app (State.modMr_within _ _ _ _) rfl ?_
    assumption
  refine Within.ite ?_ ?_
  · assumption
  refine Within.app (State.mrSend_within _ _ _) rfl ?_
  assumption

theorem State.pwbDrop_within (s : State) (a1) (a2) :
    Within { free := true, finds := true, due := true, trcCfg := true, irq := true, slices := true, banks := true, chans := true, far := true, near := true, memIo := true, hsf := true, bisnps := true, links := true, pba := true, hreqs := true, accs := true, fnc := true, xlts := true, xinv := true, rtrTx := true, dom := true, pors := true, ledger := true, bkt := true, flip := true, ras := true, mgt := true, events := true, trc := true, outs := true } s (State.pwbDrop s a1 a2) := by
  unfold State.pwbDrop
  extract_lets +onlyGivenNames x
  clear_value x
  extract_lets +onlyGivenNames x
  clear_value x
  extract_lets +onlyGivenNames x
  clear_value x
  split
  · refine Within.ite ?_ ?_
    · exact Within.refl _ _
    refine Within.ite ?_ ?_
    · refine Within.app (State.reqFail_within _ _ _) rfl ?_
      refine Within.app (State.sliceDrop_within _ _ _) rfl ?_
      exact Within.refl _ _
    refine Within.ite ?_ ?_
    · extract_lets +onlyGivenNames x
      clear_value x
      extract_lets +onlyGivenNames x
      clear_value x
      extract_lets +onlyGivenNames x
      clear_value x
      refine Within.app (State.reqFail_within _ _ _) rfl ?_
      refine Within.app (State.modMr_within _ _ _ _) rfl ?_
      exact Within.refl _ _
    refine Within.app (State.mrEnd_within _ _ _ _) rfl ?_
    exact Within.refl _ _
  split
  · refine Within.app (State.outDrop_within _ _ _ _) rfl ?_
    exact Within.refl _ _
  refine Within.app (State.reqFail_within _ _ _) rfl ?_
  refine Within.app (State.sliceDrop_within _ _ _) rfl ?_
  exact Within.refl _ _

theorem State.voidAll_within (s : State) :
    Within { hreqs := true } s (State.voidAll s) := by
  unfold State.voidAll
  with_reducible (apply Within.upd <;> try first | exact .inl rfl | exact .inr rfl | exact id | assumption | exact Within.refl _ _)

theorem State.withdraw_within (s : State) (a1) :
    Within { free := true, finds := true, due := true, trcCfg := true, irq := true, slices := true, banks := true, chans := true, far := true, near := true, memIo := true, hsf := true, bisnps := true, links := true, pba := true, hreqs := true, accs := true, fnc := true, xlts := true, xinv := true, rtrTx := true, dom := true, pors := true, ledger := true, bkt := true, flip := true, ras := true, mgt := true, events := true, trc := true, outs := true } s (State.withdraw s a1) := by
  unfold State.withdraw
  refine Within.app (State.accDone_within _ _) rfl ?_
  refine Within.app (State.hostGone_within _ _) rfl ?_
  refine Within.app (State.sliceDrop_within _ _ _) rfl ?_
  exact Within.refl _ _

theorem execAcquireLoadResponse_within (a0) (s : State) :
    WithinX { free := true, due := true, trcCfg := true, irq := true, hsf := true, bisnps := true, links := true, pba := true, hreqs := true, ledger := true, bkt := true, flip := true, events := true, trc := true, outs := true } s (execAcquireLoadResponse a0 s) := by
  unfold execAcquireLoadResponse
  refine WithinX.next ?_
  split
  · exact Within.refl _ _
  split
  · refine Within.ite ?_ ?_
    · refine Within.app (State.hostGone_within _ _) rfl ?_
      refine Within.app (State.hostData_within _ _ _ _ _) rfl ?_
      exact Within.refl _ _
    exact Within.refl _ _
  exact Within.refl _ _

theorem execBirsp_within (a0) (a1) (a2) (s : State) :
    WithinX { free := true, due := true, trcCfg := true, irq := true, slices := true, banks := true, chans := true, far := true, near := true, memIo := true, hsf := true, bisnps := true, links := true, pba := true, hreqs := true, accs := true, lse := true, fnc := true, xlts := true, xinv := true, rtrTx := true, dom := true, pors := true, ledger := true, bkt := true, flip := true, ras := true, mgt := true, events := true, trc := true, outs := true } s (execBirsp a0 a1 a2 s) := by
  unfold execBirsp
  refine WithinX.next ?_
  refine State.finding_within _ rfl ?_ (fun _ => ?_)
  · exact Within.refl _ _
  split
  · exact Within.refl _ _
  refine Within.ite ?_ ?_
  · refine Within.app (State.biDone_within _ _ _) rfl ?_
    exact Within.refl _ _
  exact Within.refl _ _

theorem execBisnpTimeout_within (a0) (a1) (s : State) :
    WithinX { free := true, due := true, trcCfg := true, irq := true, slices := true, banks := true, chans := true, far := true, near := true, memIo := true, hsf := true, bisnps := true, links := true, pba := true, hreqs := true, accs := true, lse := true, fnc := true, xlts := true, xinv := true, rtrTx := true, dom := true, pors := true, ledger := true, bkt := true, flip := true, ras := true, mgt := true, events := true, trc := true, outs := true } s (execBisnpTimeout a0 a1 s) := by
  unfold execBisnpTimeout
  refine WithinX.next ?_
  refine State.finding_within _ rfl ?_ (fun _ => ?_)
  · exact Within.refl _ _
  split
  · exact Within.refl _ _
  refine Within.ite ?_ ?_
  · exact Within.refl _ _
  refine Within.app (State.rec__within _ _ _ _ _ _) rfl ?_
  refine Within.app (State.biDone_within _ _ _) rfl ?_
  exact Within.refl _ _

theorem execCreditReturn_within (a0) (s : State) :
    WithinX { links := true, pba := true, outs := true } s (execCreditReturn a0 s) := by
  unfold execCreditReturn
  extract_lets +onlyGivenNames x
  clear_value x
  extract_lets +onlyGivenNames x
  clear_value x
  extract_lets +onlyGivenNames x
  clear_value x
  refine WithinX.next ?_
  refine Within.ite ?_ ?_
  · exact Within.refl _ _
  extract_lets +onlyGivenNames x
  extract_lets +onlyGivenNames x
  extract_lets +onlyGivenNames x
  clear_value x
  extract_lets +onlyGivenNames x
  refine Within.cut (x := x) ?_ ?_ <;> [(unfold x; clear x); (obtain ⟨y, e⟩ := named x; rewrite [← e]; clear e x; intro _)]
  · refine Within.app (State.setLink_within _ _ _) rfl ?_
    exact Within.refl _ _
  extract_lets +onlyGivenNames x
  refine Within.cut (x := x) ?_ ?_ <;> [(unfold x; clear x); (obtain ⟨y, e⟩ := named x; rewrite [← e]; clear e x; intro _)]
  · refine Within.ite ?_ ?_
    · refine Within.app (State.emit_within _ _) rfl ?_
      assumption
    assumption
  refine Within.ite ?_ ?_
  · refine Within.app (State.emit_within _ _) rfl ?_
    assumption
  assumption

theorem execCxlMemRequest_within (a0) (a1) (a2) (s : State) :
    WithinX { free := true, due := true, trcCfg := true, irq := true, slices := true, chans := true, far := true, near := true, memIo := true, hsf := true, bisnps := true, links := true, pba := true, hreqs := true, nextRid := true, accs := true, lse := true, fnc := true, xlts := true, xinv := true, pors := true, ledger := true, bkt := true, flip := true, ras := true, mgt := true, events := true, trc := true, outs := true } s (execCxlMemRequest a0 a1 a2 s) := by
  unfold execCxlMemRequest
  refine WithinX.next ?_
  refine State.finding_within _ rfl ?_ (fun _ => ?_)
  · exact Within.refl _ _
  refine Within.app (State.accept_within _ _ _) rfl ?_
  exact Within.refl _ _

theorem execHdmDecoderCommit_within (a0) (a1) (a2) (a3) (a4) (a5) (s : State) :
    WithinX { links := true, pba := true } s (execHdmDecoderCommit a0 a1 a2 a3 a4 a5 s) := by
  unfold execHdmDecoderCommit
  refine WithinX.next ?_
  refine Within.ite ?_ ?_
  · refine Within.app (State.modLink_within _ _ _) rfl ?_
    exact Within.refl _ _
  exact Within.refl _ _

theorem execHostDeadline_within (a0) (s : State) :
    WithinX { free := true, due := true, trcCfg := true, irq := true, slices := true, banks := true, chans := true, far := true, near := true, memIo := true, hsf := true, bisnps := true, links := true, pba := true, hreqs := true, accs := true, fnc := true, xlts := true, xinv := true, rtrTx := true, dom := true, pors := true, ledger := true, bkt := true, flip := true, ras := true, mgt := true, events := true, trc := true, outs := true } s (execHostDeadline a0 s) := by
  unfold execHostDeadline
  refine WithinX.next ?_
  split
  · exact Within.refl _ _
  refine Within.ite ?_ ?_
  · exact Within.refl _ _
  extract_lets +onlyGivenNames x
  clear_value x
  extract_lets +onlyGivenNames x
  clear_value x
  extract_lets +onlyGivenNames x
  refine Within.cut (x := x) ?_ ?_ <;> [(unfold x; clear x); (obtain ⟨y, e⟩ := named x; rewrite [← e]; clear e x; intro _)]
  · refine Within.app (State.modLink_within _ _ _) rfl ?_
    exact Within.refl _ _
  refine Within.ite ?_ ?_
  · extract_lets +onlyGivenNames x
    refine Within.cut (x := x) ?_ ?_ <;> [(unfold x; clear x); (obtain ⟨y, e⟩ := named x; rewrite [← e]; clear e x; intro _)]
    · refine Within.app (State.rec__within _ _ _ _ _ _) rfl ?_
      refine Within.app (State.hostData_within _ _ _ _ _) rfl ?_
      assumption
    refine Within.ite ?_ ?_
    · refine Within.app (State.hostGone_within _ _) rfl ?_
      assumption
    refine Within.app (State.modReq_within _ _ _) rfl ?_
    assumption
  refine Within.ite ?_ ?_
  · refine Within.app (State.rec__within _ _ _ _ _ _) rfl ?_
    refine Within.app (State.modReq_within _ _ _) rfl ?_
    refine Within.app (State.hostCmp_within _ _) rfl ?_
    assumption
  refine Within.app (State.rec__within _ _ _ _ _ _) rfl ?_
  refine State.noFinds_within ?_ (fun _ => ?_)
  · assumption
  refine Within.app (State.hostCmp_within _ _) rfl ?_
  refine Within.app (State.withdraw_within _ _) rfl ?_
  exact Within.refl _ _

theorem execHostLinkHotReset_within (a0) (s : State) :
    WithinX { free := true, due := true, trcCfg := true, msix := true, irq := true, slices := true, banks := true, chans := true, far := true, near := true, memIo := true, hsf := true, bisnps := true, links := true, pba := true, hreqs := true, accs := true, lse := true, fnc := true, xlts := true, xinv := true, rtrTx := true, dom := true, pors := true, ledger := true, bkt := true, flip := true, ras := true, mgt := true, events := true, trc := true, outs := true } s (execHostLinkHotReset a0 s) := by
  unfold execHostLinkHotReset
  refine WithinX.next ?_
  refine Within.ite ?_ ?_
  · refine State.noFinds_within ?_ (fun _ => ?_)
    · exact Within.refl _ _
    refine Within.app (State.hotReset_within _ _) rfl ?_
    exact Within.refl _ _
  exact Within.refl _ _

theorem execHostLinkUp_within (a0) (a1) (a2) (a3) (a4) (s : State) :
    WithinX { links := true, pba := true } s (execHostLinkUp a0 a1 a2 a3 a4 s) := by
  unfold execHostLinkUp
  refine WithinX.next ?_
  refine Within.ite ?_ ?_
  · refine Within.app (State.modLink_within _ _ _) rfl ?_
    exact Within.refl _ _
  exact Within.refl _ _

theorem execIdeIntegrityFailure_within (a0) (s : State) :
    WithinX { free := true, due := true, trcCfg := true, msix := true, irq := true, slices := true, banks := true, chans := true, far := true, near := true, memIo := true, hsf := true, bisnps := true, links := true, pba := true, hreqs := true, accs := true, lse := true, fnc := true, xlts := true, xinv := true, rtrTx := true, dom := true, pors := true, ledger := true, bkt := true, flip := true, ras := true, mgt := true, events := true, trc := true, outs := true } s (execIdeIntegrityFailure a0 s) := by
  unfold execIdeIntegrityFailure
  refine WithinX.next ?_
  refine Within.ite ?_ ?_
  · refine State.noFinds_within ?_ (fun _ => ?_)
    · exact Within.refl _ _
    refine Within.app (State.hotReset_within _ _) rfl ?_
    exact Within.refl _ _
  exact Within.refl _ _

theorem execPwbDeadlineExpiry_within (a0) (a1) (s : State) :
    WithinX { free := true, due := true, trcCfg := true, irq := true, slices := true, banks := true, chans := true, far := true, near := true, memIo := true, hsf := true, bisnps := true, links := true, pba := true, hreqs := true, accs := true, fnc := true, xlts := true, xinv := true, rtrTx := true, rtrUn := true, dom := true, pors := true, ledger := true, bkt := true, flip := true, ras := true, mgt := true, events := true, trc := true, outs := true } s (execPwbDeadlineExpiry a0 a1 s) := by
  unfold execPwbDeadlineExpiry
  refine WithinX.next ?_
  refine Within.ite ?_ ?_
  · exact Within.refl _ _
  split
  · refine Within.ite ?_ ?_
    · exact Within.refl _ _
    extract_lets +onlyGivenNames x
    refine Within.cut (x := x) ?_ ?_ <;> [(unfold x; clear x); (obtain ⟨y, e⟩ := named x; rewrite [← e]; clear e x; intro _)]
    · refine State.noFinds_within ?_ (fun _ => ?_)
      · exact Within.refl _ _
      refine Within.app (State.pwbDrop_within _ _ _) rfl ?_
      exact Within.refl _ _
    refine Within.ite ?_ ?_
    · assumption
    refine Within.app (State.markUnreach_within _ _) rfl ?_
    assumption
  refine Within.foldl (fun _ _ => ?_) ?_
  · split
    · refine Within.ite ?_ ?_
      · exact Within.refl _ _
      refine Within.app (State.markUnreach_within _ _) rfl ?_
      refine State.noFinds_within ?_ (fun _ => ?_)
      · exact Within.refl _ _
      refine Within.app (State.outDrop_within _ _ _ _) rfl ?_
      exact Within.refl _ _
    exact Within.refl _ _
  exact Within.refl _ _

theorem execPwbEntry_within (a0) (s : State) :
    WithinX { free := true, due := true, trcCfg := true, irq := true, slices := true, hsf := true, bisnps := true, links := true, pba := true, hreqs := true, accs := true, lse := true, fnc := true, xlts := true, xinv := true, pors := true, ledger := true, bkt := true, flip := true, events := true, trc := true, outs := true } s (execPwbEntry a0 s) := by
  unfold execPwbEntry
  refine WithinX.next ?_
  split
  · refine Within.ite ?_ ?_
    · refine Within.app (State.globGo_within _ _) rfl ?_
      exact Within.refl _ _
    exact Within.refl _ _
  exact Within.refl _ _

theorem execPwbHwmReset_within (a0) (s : State) :
    WithinX { links := true, pba := true } s (execPwbHwmReset a0 s) := by
  unfold execPwbHwmReset
  refine WithinX.next ?_
  refine Within.ite ?_ ?_
  · refine Within.app (State.modLink_within _ _ _) rfl ?_
    exact Within.refl _ _
  exact Within.refl _ _

theorem execPwbIssue_within (a0) (s : State) :
    WithinX { slices := true, links := true, pba := true } s (execPwbIssue a0 s) := by
  unfold execPwbIssue
  refine WithinX.next ?_
  split
  · exact Within.refl _ _
  refine Within.ite ?_ ?_
  · exact Within.refl _ _
  refine Within.ite ?_ ?_
  · exact Within.refl _ _
  extract_lets +onlyGivenNames x
  clear_value x
  refine Within.app (State.toSlice_within _ _ _) rfl ?_
  refine Within.app (State.modLink_within _ _ _) rfl ?_
  exact Within.refl _ _

end Sys2Proof.Machine
end

