-- ==== Sys2Proof/Laws/Sched.lean ====
section
/-! SUPPORT. For each operation of Machine/Sched.lean one lemma: which pieces of the state it can change, and that it keeps the
invariant of Safety.lean. -/

set_option Elab.async false

namespace Sys2Proof.Machine

theorem State.correct_within (s : State) (a1) (a2) :
    Within { mt := true, mtu := true } s (State.correct s a1 a2) := by
  unfold State.correct
  extract_lets +onlyGivenNames x
  refine Within.ite ?_ ?_
  · with_reducible (apply Within.upd <;> try first | exact .inl rfl | exact .inr rfl | exact id | assumption | exact Within.refl _ _)
    with_reducible refine MtuI.of ?_ <;> try exact id
  refine Within.ite ?_ ?_
  · with_reducible (apply Within.upd <;> try first | exact .inl rfl | exact .inr rfl | exact id | assumption | exact Within.refl _ _)
    with_reducible refine MtuI.of ?_ <;> try exact id
  refine Within.ite ?_ ?_
  · with_reducible (apply Within.upd <;> try first | exact .inl rfl | exact .inr rfl | exact id | assumption | exact Within.refl _ _)
    with_reducible refine MtuI.of ?_ <;> try exact id
  with_reducible (apply Within.upd <;> try first | exact .inl rfl | exact .inr rfl | exact id | assumption | exact Within.refl _ _)
  with_reducible refine MtuI.of ?_ <;> try exact id

theorem State.markFired_within (s : State) (a1) :
    Within { mtu := true } s (State.markFired s a1) := by
  unfold State.markFired
  with_reducible (apply Within.upd <;> try first | exact .inl rfl | exact .inr rfl | exact id | assumption | exact Within.refl _ _)
  extract_lets +onlyGivenNames x
  with_reducible refine MtuI.of ?_ <;> try exact id

theorem State.fire_within (s : State) (a1) (a2) :
    WithinO { mtu := true } s (State.fire s a1 a2) := by
  unfold State.fire
  refine WithinO.ite ?_ ?_
  · refine WithinO.some ?_
    refine Within.app (State.markFired_within _ _) rfl ?_
    exact Within.refl _ _
  exact WithinO.none _ _

theorem State.setLock_within (s : State) (a1) :
    Within { trcCfg := true, irq := true, chans := true, pba := true, hreqs := true, mtu := true, ledger := true, events := true, trc := true, outs := true } s (State.setLock s a1) := by
  unfold State.setLock
  refine Within.ite ?_ ?_
  · exact Within.refl _ _
  extract_lets +onlyGivenNames x
  clear_value x
  extract_lets +onlyGivenNames x
  extract_lets +onlyGivenNames x
  refine Within.cut (x := x) ?_ ?_ <;> [(unfold x; clear x); (obtain ⟨y, e⟩ := named x; rewrite [← e]; clear e x; intro _)]
  · with_reducible (apply Within.upd <;> try first | exact .inl rfl | exact .inr rfl | exact id | assumption | exact Within.refl _ _)
    with_reducible refine MtuI.of ?_ <;> try exact id
    exact fun _ => (by omega)
  extract_lets +onlyGivenNames x
  extract_lets +onlyGivenNames x
  extract_lets +onlyGivenNames x
  refine Within.cut (x := x) ?_ ?_ <;> [(unfold x; clear x); (obtain ⟨y, e⟩ := named x; rewrite [← e]; clear e x; intro _)]
  · refine Within.ite ?_ ?_
    · with_reducible (apply Within.upd <;> try first | exact .inl rfl | exact .inr rfl | exact id | assumption | exact Within.refl _ _)
      · with_reducible refine MemI.of ?_ ?_ <;> try exact id
      with_reducible refine MtuI.of ?_ <;> try exact id
    assumption
  extract_lets +onlyGivenNames x
  extract_lets +onlyGivenNames x
  refine Within.cut (x := x) ?_ ?_ <;> [(unfold x; clear x); (obtain ⟨y, e⟩ := named x; rewrite [← e]; clear e x; intro _)]
  · refine Within.ite ?_ ?_
    · with_reducible (apply Within.upd <;> try first | exact .inl rfl | exact .inr rfl | exact id | assumption | exact Within.refl _ _)
      with_reducible refine MtuI.of ?_ <;> try exact id
    assumption
  extract_lets +onlyGivenNames x
  refine Within.cut (x := x) ?_ ?_ <;> [(unfold x; clear x); (obtain ⟨y, e⟩ := named x; rewrite [← e]; clear e x; intro _)]
  · refine Within.app (State.signalAll_within _ _) rfl ?_
    refine Within.app (State.rec__within _ _ _ _ _ _) rfl ?_
    assumption
  refine Within.ite ?_ ?_
  · refine Within.app (State.voidAll_within _) rfl ?_
    assumption
  assumption

theorem State.tryLock_within (s : State) (a1) :
    Within { trcCfg := true, irq := true, chans := true, pba := true, hreqs := true, mt := true, mtu := true, ledger := true, events := true, trc := true, outs := true } s (State.tryLock s a1) := by
  unfold State.tryLock
  refine Within.ite ?_ ?_
  · refine Within.app (State.correct_within _ _ _) rfl ?_
    refine Within.app (State.setLock_within _ _) rfl ?_
    exact Within.refl _ _
  exact Within.refl _ _

theorem State.mark_within (s : State) :
    Within { trcCfg := true, irq := true, chans := true, pba := true, hreqs := true, mt := true, mtu := true, ledger := true, events := true, trc := true, outs := true } s (State.mark s) := by
  unfold State.mark
  split
  · extract_lets +onlyGivenNames x
    extract_lets +onlyGivenNames x
    refine Within.cut (x := x) ?_ ?_ <;> [(unfold x; clear x); (obtain ⟨y, e⟩ := named x; rewrite [← e]; clear e x; intro _)]
    · with_reducible (apply Within.upd <;> try first | exact .inl rfl | exact .inr rfl | exact id | assumption | exact Within.refl _ _)
      with_reducible refine MtuI.of ?_ <;> try exact id
    refine Within.ite ?_ ?_
    · assumption
    extract_lets +onlyGivenNames x
    extract_lets +onlyGivenNames x
    refine Within.cut (x := x) ?_ ?_ <;> [(unfold x; clear x); (obtain ⟨y, e⟩ := named x; rewrite [← e]; clear e x; intro _)]
    · with_reducible (apply Within.upd <;> try first | exact .inl rfl | exact .inr rfl | exact id | assumption | exact Within.refl _ _)
      with_reducible refine MtuI.of ?_ <;> try exact id
    refine Within.app (State.correct_within _ _ _) rfl ?_
    refine Within.app (State.setLock_within _ _) rfl ?_
    assumption
  refine Within.ite ?_ ?_
  · refine Within.ite ?_ ?_
    · refine Within.app (State.correct_within _ _ _) rfl ?_
      refine Within.app (State.setLock_within _ _) rfl ?_
      exact Within.refl _ _
    exact Within.refl _ _
  refine Within.ite ?_ ?_
  · refine Within.app (State.tryLock_within _ _) rfl ?_
    with_reducible (apply Within.upd <;> try first | exact .inl rfl | exact .inr rfl | exact id | assumption | exact Within.refl _ _)
    extract_lets +onlyGivenNames x
    with_reducible refine MtuI.of ?_ <;> try exact id
  refine Within.ite ?_ ?_
  · exact Within.refl _ _
  refine Within.app (State.setLock_within _ _) rfl ?_
  exact Within.refl _ _

theorem Mtu.count_lock (m : Mtu) (clk : Nat) (b : Bool) : (m.count clk b).lock = m.lock := by
  unfold Mtu.count
  split
  · rfl
  · split
    · rfl
    · split
      · split <;> rfl
      · rfl

theorem State.mtClock_within (s : State) :
    Within { mt := true, mtu := true } s (State.mtClock s) := by
  unfold State.mtClock
  refine Within.ite (Within.refl _ _) ?_
  extract_lets +onlyGivenNames x
  extract_lets +onlyGivenNames g
  clear_value g
  with_reducible (apply Within.upd; (on_goal 1 => first | assumption | exact Within.refl _ _); all_goals try first | exact .inl rfl | exact .inr rfl | exact id)
  exact MtuI.of fun h => (Mtu.count_lock s.mtu s.clk s.refined).symm ▸ h

theorem State.restrata_within (s : State) :
    Within { mtu := true } s (State.restrata s) := by
  unfold State.restrata
  extract_lets +onlyGivenNames x
  clear_value x
  extract_lets +onlyGivenNames x
  clear_value x
  extract_lets +onlyGivenNames x
  clear_value x
  with_reducible (apply Within.upd <;> try first | exact .inl rfl | exact .inr rfl | exact id | assumption | exact Within.refl _ _)
  extract_lets +onlyGivenNames x
  with_reducible refine MtuI.of ?_ <;> try exact id

theorem State.schWrite_within (s : State) (a1) (a2) (a3) :
    Within { mtu := true } s (State.schWrite s a1 a2 a3) := by
  unfold State.schWrite
  extract_lets +onlyGivenNames x
  clear_value x
  extract_lets +onlyGivenNames x
  extract_lets +onlyGivenNames x
  clear_value x
  extract_lets +onlyGivenNames x
  clear_value x
  extract_lets +onlyGivenNames x
  clear_value x
  extract_lets +onlyGivenNames x
  clear_value x
  refine Within.ite ?_ ?_
  · exact Within.refl _ _
  extract_lets +onlyGivenNames x
  clear_value x
  extract_lets +onlyGivenNames x
  clear_value x
  extract_lets +onlyGivenNames x
  clear_value x
  extract_lets +onlyGivenNames x
  clear_value x
  extract_lets +onlyGivenNames x
  clear_value x
  extract_lets +onlyGivenNames x
  extract_lets +onlyGivenNames x
  refine Within.cut (x := x) ?_ ?_ <;> [(unfold x; clear x); (obtain ⟨y, e⟩ := named x; rewrite [← e]; clear e x; intro _)]
  · refine Within.ite ?_ ?_
    · with_reducible (apply Within.upd <;> try first | exact .inl rfl | exact .inr rfl | exact id | assumption | exact Within.refl _ _)
      with_reducible refine MtuI.of ?_ <;> try exact id
    exact Within.refl _ _
  extract_lets +onlyGivenNames x
  clear_value x
  extract_lets +onlyGivenNames x
  clear_value x
  with_reducible (apply Within.upd <;> try first | exact .inl rfl | exact .inr rfl | exact id | assumption | exact Within.refl _ _)
  extract_lets +onlyGivenNames x
  with_reducible refine MtuI.of ?_ <;> try exact id

theorem execDirectorySweep_within (a0) (s : State) :
    WithinX { free := true, due := true, trcCfg := true, irq := true, slices := true, banks := true, chans := true, near := true, memIo := true, pba := true, mtu := true, ledger := true, bkt := true, flip := true, events := true, trc := true, outs := true } s (execDirectorySweep a0 s) := by
  unfold execDirectorySweep
  refine WithinX.next ?_
  split
  · exact Within.refl _ _
  refine Within.ite ?_ ?_
  · refine WithinO.get (State.fire_within _ _ _) (by assumption) rfl ?_
    exact Within.refl _ _
  extract_lets +onlyGivenNames x
  clear_value x
  refine State.noFinds_within ?_ (fun _ => ?_)
  · refine WithinO.get (State.fire_within _ _ _) (by assumption) rfl ?_
    exact Within.refl _ _
  refine Within.foldl (fun _ _ => ?_) ?_
  · extract_lets +onlyGivenNames x
    clear_value x
    refine Within.ite ?_ ?_
    · refine Within.app (State.setBank_within _ _ _) rfl ?_
      exact Within.refl _ _
    with_reducible (apply Within.upd <;> try first | exact .inl rfl | exact .inr rfl | exact id | assumption | exact Within.refl _ _)
    extract_lets +onlyGivenNames x
    with_reducible refine MtuI.of ?_ <;> try exact id
  exact Within.refl _ _

theorem execGuardStart_within (s : State) :
    WithinX { mtu := true } s (execGuardStart s) := by
  unfold execGuardStart
  refine WithinX.next ?_
  split
  · exact Within.refl _ _
  extract_lets +onlyGivenNames x
  clear_value x
  refine Within.ite ?_ ?_
  · with_reducible (apply Within.upd <;> try first | exact .inl rfl | exact .inr rfl | exact id | assumption | exact Within.refl _ _)
    extract_lets +onlyGivenNames x
    with_reducible refine MtuI.of ?_ <;> try exact id
  exact Within.refl _ _

theorem execHalfRateCatchUpEnd_within (s : State) :
    WithinX { mt := true } s (execHalfRateCatchUpEnd s) := by
  unfold execHalfRateCatchUpEnd
  refine WithinX.next ?_
  split
  · refine Within.ite ?_ ?_
    · with_reducible (apply Within.upd <;> try first | exact .inl rfl | exact .inr rfl | exact id | assumption | exact Within.refl _ _)
      extract_lets +onlyGivenNames x
      with_reducible refine MtuI.of ?_ <;> try exact id
    exact Within.refl _ _
  exact Within.refl _ _

theorem execLeaseEpochAdvance_within (a0) (s : State) :
    WithinX { lse := true, mtu := true } s (execLeaseEpochAdvance a0 s) := by
  unfold execLeaseEpochAdvance
  refine WithinX.next ?_
  split
  · exact Within.refl _ _
  refine Within.ite ?_ ?_
  · refine WithinO.get (State.fire_within _ _ _) (by assumption) rfl ?_
    exact Within.refl _ _
  with_reducible (apply Within.upd <;> try first | exact .inl rfl | exact .inr rfl | exact id | assumption | exact Within.refl _ _)
  refine WithinO.get (State.fire_within _ _ _) (by assumption) rfl ?_
  exact Within.refl _ _

theorem execLullStart_within (s : State) :
    WithinX { chans := true, hreqs := true, mtu := true } s (execLullStart s) := by
  unfold execLullStart
  refine WithinX.next ?_
  refine Within.ite ?_ ?_
  · exact Within.refl _ _
  extract_lets +onlyGivenNames x
  clear_value x
  extract_lets +onlyGivenNames x
  extract_lets +onlyGivenNames x
  refine Within.cut (x := x) ?_ ?_ <;> [(unfold x; clear x); (obtain ⟨y, e⟩ := named x; rewrite [← e]; clear e x; intro _)]
  · with_reducible (apply Within.upd <;> try first | exact .inl rfl | exact .inr rfl | exact id | assumption | exact Within.refl _ _)
    with_reducible refine MtuI.of ?_ <;> try exact id
  extract_lets +onlyGivenNames x
  clear_value x
  refine Within.foldl (fun _ _ => ?_) ?_
  · split
    refine Within.app (State.setChan_within _ _ _) rfl ?_
    exact Within.refl _ _
  assumption

theorem execMtHoldEnd_within (s : State) :
    WithinX { mt := true, mtu := true } s (execMtHoldEnd s) := by
  unfold execMtHoldEnd
  refine WithinX.next ?_
  split
  · refine Within.ite ?_ ?_
    · with_reducible (apply Within.upd <;> try first | exact .inl rfl | exact .inr rfl | exact id | assumption | exact Within.refl _ _)
      extract_lets +onlyGivenNames x
      with_reducible refine MtuI.of ?_ <;> try exact id
    exact Within.refl _ _
  exact Within.refl _ _

theorem execMtMarkEdge_within (s : State) :
    WithinX { trcCfg := true, irq := true, chans := true, pba := true, hreqs := true, mt := true, mtu := true, ledger := true, events := true, trc := true, outs := true } s (execMtMarkEdge s) := by
  unfold execMtMarkEdge
  refine WithinX.next ?_
  refine Within.ite ?_ ?_
  · exact Within.refl _ _
  extract_lets +onlyGivenNames x
  refine Within.cut (x := x) ?_ ?_ <;> [(unfold x; clear x); (obtain ⟨y, e⟩ := named x; rewrite [← e]; clear e x; intro _)]
  · refine Within.app (State.mark_within _) rfl ?_
    exact Within.refl _ _
  with_reducible (apply Within.upd <;> try first | exact .inl rfl | exact .inr rfl | exact id | assumption | exact Within.refl _ _)
  extract_lets +onlyGivenNames x
  with_reducible refine MtuI.of ?_ <;> try exact id

theorem execMtMarkMissing_within (s : State) :
    WithinX { trcCfg := true, irq := true, chans := true, pba := true, hreqs := true, mtu := true, ledger := true, events := true, trc := true, outs := true } s (execMtMarkMissing s) := by
  unfold execMtMarkMissing
  refine WithinX.next ?_
  refine Within.ite ?_ ?_
  · exact Within.refl _ _
  refine Within.ite ?_ ?_
  · refine Within.app (State.setLock_within _ _) rfl ?_
    exact Within.refl _ _
  with_reducible (apply Within.upd <;> try first | exact .inl rfl | exact .inr rfl | exact id | assumption | exact Within.refl _ _)
  extract_lets +onlyGivenNames x
  with_reducible refine MtuI.of ?_ <;> try exact id

theorem execMtRefLost_within (s : State) :
    WithinX { trcCfg := true, irq := true, chans := true, pba := true, hreqs := true, mtu := true, ledger := true, events := true, trc := true, outs := true } s (execMtRefLost s) := by
  unfold execMtRefLost
  refine WithinX.next ?_
  refine Within.ite ?_ ?_
  · refine Within.app (State.setLock_within _ _) rfl ?_
    exact Within.refl _ _
  exact Within.refl _ _

theorem execMtRefPresent_within (s : State) :
    WithinX { trcCfg := true, irq := true, chans := true, pba := true, hreqs := true, mtu := true, ledger := true, events := true, trc := true, outs := true } s (execMtRefPresent s) := by
  unfold execMtRefPresent
  refine WithinX.next ?_
  refine Within.ite ?_ ?_
  · refine Within.app (State.setLock_within _ _) rfl ?_
    exact Within.refl _ _
  exact Within.refl _ _

theorem execMtuNowRead_within (a0) (s : State) :
    WithinX { mtu := true, outs := true } s (execMtuNowRead a0 s) := by
  unfold execMtuNowRead
  refine WithinX.next ?_
  refine Within.ite ?_ ?_
  · refine Within.app (State.emit_within _ _) rfl ?_
    with_reducible (apply Within.upd <;> try first | exact .inl rfl | exact .inr rfl | exact id | assumption | exact Within.refl _ _)
    extract_lets +onlyGivenNames x
    with_reducible refine MtuI.of ?_ <;> try exact id
  exact Within.refl _ _

theorem execNeighbourStampTimeout_within (s : State) :
    WithinX { trcCfg := true, irq := true, chans := true, pba := true, hreqs := true, mtu := true, ledger := true, events := true, trc := true, outs := true } s (execNeighbourStampTimeout s) := by
  unfold execNeighbourStampTimeout
  refine WithinX.next ?_
  refine Within.ite ?_ ?_
  · refine Within.app (State.setLock_within _ _) rfl ?_
    with_reducible (apply Within.upd <;> try first | exact .inl rfl | exact .inr rfl | exact id | assumption | exact Within.refl _ _)
    extract_lets +onlyGivenNames x
    with_reducible refine MtuI.of ?_ <;> try exact id
  exact Within.refl _ _

theorem execScheduleEntryWrite_within (a0) (a1) (a2) (a3) (s : State) :
    WithinX { mtu := true } s (execScheduleEntryWrite a0 a1 a2 a3 s) := by
  unfold execScheduleEntryWrite
  refine WithinX.next ?_
  refine Within.ite ?_ ?_
  · refine Within.app (State.schWrite_within _ _ _ _) rfl ?_
    exact Within.refl _ _
  exact Within.refl _ _

theorem execUnlockedLeaseAdvance_within (s : State) :
    WithinX { lse := true } s (execUnlockedLeaseAdvance s) := by
  unfold execUnlockedLeaseAdvance
  refine WithinX.next ?_
  refine Within.ite ?_ ?_
  · with_reducible (apply Within.upd <;> try first | exact .inl rfl | exact .inr rfl | exact id | assumption | exact Within.refl _ _)
  exact Within.refl _ _

end Sys2Proof.Machine
end

