-- ==== Sys2Proof/Laws/Fence.lean ====
section
/-! SUPPORT. For each operation of Machine/Fence.lean one lemma: which pieces of the state it can change, and that it keeps the
invariant of Safety.lean. -/

set_option Elab.async false

namespace Sys2Proof.Machine

theorem State.badAccess_within (s : State) (a1) (a2) :
    Within { trcCfg := true, irq := true, pba := true, ledger := true, events := true, trc := true, outs := true } s (State.badAccess s a1 a2) := by
  unfold State.badAccess
  refine Within.app (State.emit_within _ _) rfl ?_
  refine Within.app (State.rec__within _ _ _ _ _ _) rfl ?_
  exact Within.refl _ _

theorem State.sendTree_within (s : State) (a1) (a2) :
    Within { rtrTx := true } s (State.sendTree s a1 a2) := by
  unfold State.sendTree
  refine Within.app (State.sendPkt_within _ _ _ _ _ _) rfl ?_
  exact Within.refl _ _

theorem State.setBc_within (s : State) (a1) (a2) :
    Within { fnc := true } s (State.setBc s a1 a2) := by
  unfold State.setBc
  refine Within.ite ?_ ?_
  · with_reducible (apply Within.upd <;> try first | exact .inl rfl | exact .inr rfl | exact id | assumption | exact Within.refl _ _)
  with_reducible (apply Within.upd <;> try first | exact .inl rfl | exact .inr rfl | exact id | assumption | exact Within.refl _ _)

theorem State.invEnd_within (s : State) (a1) :
    Within { xinv := true } s (State.invEnd s a1) := by
  unfold State.invEnd
  with_reducible (apply Within.upd <;> try first | exact .inl rfl | exact .inr rfl | exact id | assumption | exact Within.refl _ _)

theorem State.bcTry_within (s : State) (a1) :
    Within { fnc := true, xinv := true, rtrTx := true } s (State.bcTry s a1) := by
  unfold State.bcTry
  extract_lets +onlyGivenNames x
  clear_value x
  refine Within.ite ?_ ?_
  · exact Within.refl _ _
  extract_lets +onlyGivenNames x
  clear_value x
  extract_lets +onlyGivenNames x
  refine Within.cut (x := x) ?_ ?_ <;> [(unfold x; clear x); (obtain ⟨y, e⟩ := named x; rewrite [← e]; clear e x; intro _)]
  · refine Within.app (State.setBc_within _ _ _) rfl ?_
    exact Within.refl _ _
  refine Within.ite ?_ ?_
  · refine Within.ite ?_ ?_
    · refine Within.ite ?_ ?_
      · refine Within.app (State.invEnd_within _ _) rfl ?_
        assumption
      assumption
    refine Within.app (State.sendTree_within _ _ _) rfl ?_
    assumption
  refine Within.app (State.sendTree_within _ _ _) rfl ?_
  assumption

theorem State.bcStart_within (s : State) (a1) (a2) (a3) :
    Within { fnc := true, xlts := true, xinv := true, rtrTx := true, pors := true } s (State.bcStart s a1 a2 a3) := by
  unfold State.bcStart
  extract_lets +onlyGivenNames x
  clear_value x
  extract_lets +onlyGivenNames x
  refine Within.cut (x := x) ?_ ?_ <;> [(unfold x; clear x); (obtain ⟨y, e⟩ := named x; rewrite [← e]; clear e x; intro _)]
  · refine Within.foldl (fun _ _ => ?_) ?_
    · refine Within.app (State.sendTree_within _ _ _) rfl ?_
      exact Within.refl _ _
    exact Within.refl _ _
  extract_lets +onlyGivenNames x
  clear_value x
  extract_lets +onlyGivenNames x
  refine Within.cut (x := x) ?_ ?_ <;> [(unfold x; clear x); (obtain ⟨y, e⟩ := named x; rewrite [← e]; clear e x; intro _)]
  · refine Within.app (State.xltInvalidate_within _ _ _ _) rfl ?_
    assumption
  refine Within.app (State.bcTry_within _ _) rfl ?_
  refine Within.app (State.setBc_within _ _ _) rfl ?_
  assumption

theorem State.bcRequest_within (s : State) (a1) (a2) :
    Within { fnc := true, xlts := true, xinv := true, rtrTx := true, pors := true } s (State.bcRequest s a1 a2) := by
  unfold State.bcRequest
  extract_lets +onlyGivenNames x
  clear_value x
  refine Within.ite ?_ ?_
  · refine Within.ite ?_ ?_
    · with_reducible (apply Within.upd <;> try first | exact .inl rfl | exact .inr rfl | exact id | assumption | exact Within.refl _ _)
    refine Within.app (State.sendTree_within _ _ _) rfl ?_
    exact Within.refl _ _
  extract_lets +onlyGivenNames x
  clear_value x
  extract_lets +onlyGivenNames x
  refine Within.cut (x := x) ?_ ?_ <;> [(unfold x; clear x); (obtain ⟨y, e⟩ := named x; rewrite [← e]; clear e x; intro _)]
  · refine Within.ite ?_ ?_
    · with_reducible (apply Within.upd <;> try first | exact .inl rfl | exact .inr rfl | exact id | assumption | exact Within.refl _ _)
    exact Within.refl _ _
  refine Within.app (State.bcStart_within _ _ _ _) rfl ?_
  refine Within.app (State.setBc_within _ _ _) rfl ?_
  assumption

theorem State.bcAsk_within (s : State) :
    Within { fnc := true, xlts := true, xinv := true, rtrTx := true, pors := true } s (State.bcAsk s) := by
  unfold State.bcAsk
  extract_lets +onlyGivenNames x
  clear_value x
  refine Within.ite ?_ ?_
  · refine Within.app (State.bcRequest_within _ _ _) rfl ?_
    exact Within.refl _ _
  refine Within.app (State.sendTree_within _ _ _) rfl ?_
  exact Within.refl _ _

theorem State.ctxWrite_within (s : State) (a1) (a2) (a3) :
    Within { csr := true, trcCfg := true, xlts := true, pors := true } s (State.ctxWrite s a1 a2 a3) := by
  unfold State.ctxWrite
  extract_lets +onlyGivenNames x
  clear_value x
  extract_lets +onlyGivenNames x
  clear_value x
  refine Within.ite ?_ ?_
  · exact Within.refl _ _
  refine Within.app (State.xltDropCtx_within _ _) rfl ?_
  refine Within.app (State.csrPut_within _ _ _) rfl ?_
  exact Within.refl _ _

theorem State.setTree_within (s : State) (a1) (a2) :
    Within { fnc := true } s (State.setTree s a1 a2) := by
  unfold State.setTree
  refine Within.ite ?_ ?_
  · with_reducible (apply Within.upd <;> try first | exact .inl rfl | exact .inr rfl | exact id | assumption | exact Within.refl _ _)
  with_reducible (apply Within.upd <;> try first | exact .inl rfl | exact .inr rfl | exact id | assumption | exact Within.refl _ _)

theorem State.modFence_within (s : State) (a1) (a2) :
    Within { fnc := true } s (State.modFence s a1 a2) := by
  unfold State.modFence
  with_reducible (apply Within.upd <;> try first | exact .inl rfl | exact .inr rfl | exact id | assumption | exact Within.refl _ _)

theorem State.fenceGone_within (s : State) (a1) :
    Within { fnc := true } s (State.fenceGone s a1) := by
  unfold State.fenceGone
  extract_lets +onlyGivenNames x
  clear_value x
  extract_lets +onlyGivenNames x
  clear_value x
  with_reducible (apply Within.upd <;> try first | exact .inl rfl | exact .inr rfl | exact id | assumption | exact Within.refl _ _)

theorem State.fenceEnd_within (s : State) (a1) (a2) :
    Within { fnc := true, outs := true } s (State.fenceEnd s a1 a2) := by
  unfold State.fenceEnd
  extract_lets +onlyGivenNames x
  refine Within.cut (x := x) ?_ ?_ <;> [(unfold x; clear x); (obtain ⟨y, e⟩ := named x; rewrite [← e]; clear e x; intro _)]
  · refine Within.app (State.fenceGone_within _ _) rfl ?_
    exact Within.refl _ _
  refine Within.ite ?_ ?_
  · assumption
  extract_lets +onlyGivenNames x
  clear_value x
  extract_lets +onlyGivenNames x
  refine Within.cut (x := x) ?_ ?_ <;> [(unfold x; clear x); (obtain ⟨y, e⟩ := named x; rewrite [← e]; clear e x; intro _)]
  · with_reducible (apply Within.upd <;> try first | exact .inl rfl | exact .inr rfl | exact id | assumption | exact Within.refl _ _)
  refine Within.ite ?_ ?_
  · assumption
  refine Within.app (State.emit_within _ _) rfl ?_
  assumption

theorem State.fenceOut_within (s : State) (a1) (a2) (a3) :
    Within { fnc := true, outs := true } s (State.fenceOut s a1 a2 a3) := by
  unfold State.fenceOut
  refine Within.ite ?_ ?_
  · refine Within.app (State.modFence_within _ _ _) rfl ?_
    exact Within.refl _ _
  refine Within.app (State.fenceEnd_within _ _ _) rfl ?_
  exact Within.refl _ _

theorem State.downdraft_within (s : State) (a1) (a2) (a3) :
    Within { lse := true, fnc := true, xlts := true, rtrTx := true, pors := true, outs := true } s (State.downdraft s a1 a2 a3) := by
  unfold State.downdraft
  extract_lets +onlyGivenNames x
  clear_value x
  extract_lets +onlyGivenNames x
  clear_value x
  extract_lets +onlyGivenNames x
  refine Within.cut (x := x) ?_ ?_ <;> [(unfold x; clear x); (obtain ⟨y, e⟩ := named x; rewrite [← e]; clear e x; intro _)]
  · refine Within.foldl (fun _ _ => ?_) ?_
    · refine Within.app (State.sendTree_within _ _ _) rfl ?_
      exact Within.refl _ _
    exact Within.refl _ _
  extract_lets +onlyGivenNames x
  clear_value x
  extract_lets +onlyGivenNames x
  refine Within.cut (x := x) ?_ ?_ <;> [(unfold x; clear x); (obtain ⟨y, e⟩ := named x; rewrite [← e]; clear e x; intro _)]
  · refine Within.app (State.setTree_within _ _ _) rfl ?_
    assumption
  split
  refine Within.foldl (fun _ _ => ?_) ?_
  · refine Within.app (State.fenceOut_within _ _ _ _) rfl ?_
    exact Within.refl _ _
  refine WithinP.eq (by assumption) ?_
  refine WithinP.ite ?_ ?_
  · dsimp -zeta only
    refine WithinP.mk ?_
    refine Within.app (State.xltDropBbm_within _ _) rfl ?_
    refine WithinP.snd (State.reqAdvance_within _) rfl ?_
    assumption
  refine WithinP.mk ?_
  assumption

theorem State.fenceLate_within (s : State) (a1) :
    Within { fnc := true, events := true, outs := true } s (State.fenceLate s a1) := by
  unfold State.fenceLate
  refine Within.ite ?_ ?_
  · exact Within.refl _ _
  extract_lets +onlyGivenNames x
  clear_value x
  extract_lets +onlyGivenNames x
  refine Within.cut (x := x) ?_ ?_ <;> [(unfold x; clear x); (obtain ⟨y, e⟩ := named x; rewrite [← e]; clear e x; intro _)]
  · refine Within.app (State.event_within _ _ _ _) rfl ?_
    with_reducible (apply Within.upd <;> try first | exact .inl rfl | exact .inr rfl | exact id | assumption | exact Within.refl _ _)
  refine Within.ite ?_ ?_
  · assumption
  refine Within.app (State.emit_within _ _) rfl ?_
  assumption

theorem State.fencesDown_within (s : State) :
    Within { fnc := true, xinv := true, outs := true } s (State.fencesDown s) := by
  unfold State.fencesDown
  extract_lets +onlyGivenNames x
  clear_value x
  extract_lets +onlyGivenNames x
  refine Within.cut (x := x) ?_ ?_ <;> [(unfold x; clear x); (obtain ⟨y, e⟩ := named x; rewrite [← e]; clear e x; intro _)]
  · refine Within.foldl (fun _ _ => ?_) ?_
    · refine Within.app (State.fenceEnd_within _ _ _) rfl ?_
      exact Within.refl _ _
    exact Within.refl _ _
  extract_lets +onlyGivenNames x
  clear_value x
  extract_lets +onlyGivenNames x
  refine Within.cut (x := x) ?_ ?_ <;> [(unfold x; clear x); (obtain ⟨y, e⟩ := named x; rewrite [← e]; clear e x; intro _)]
  · with_reducible (apply Within.upd <;> try first | exact .inl rfl | exact .inr rfl | exact id | assumption | exact Within.refl _ _)
  refine Within.ite ?_ ?_
  · with_reducible (apply Within.upd <;> try first | exact .inl rfl | exact .inr rfl | exact id | assumption | exact Within.refl _ _)
  assumption

theorem State.tryArrive_within (s : State) (a1) :
    Within { lse := true, fnc := true, xlts := true, rtrTx := true, pors := true, outs := true } s (State.tryArrive s a1) := by
  unfold State.tryArrive
  extract_lets +onlyGivenNames x
  clear_value x
  extract_lets +onlyGivenNames x
  clear_value x
  refine Within.ite ?_ ?_
  · exact Within.refl _ _
  extract_lets +onlyGivenNames x
  clear_value x
  extract_lets +onlyGivenNames x
  clear_value x
  extract_lets +onlyGivenNames x
  clear_value x
  refine Within.ite ?_ ?_
  · refine Within.app (State.downdraft_within _ _ _ _) rfl ?_
    exact Within.refl _ _
  refine Within.app (State.sendTree_within _ _ _) rfl ?_
  refine Within.app (State.setTree_within _ _ _) rfl ?_
  exact Within.refl _ _

theorem State.fncClock_within (s : State) :
    Within { lse := true, fnc := true, xlts := true, xinv := true, rtrTx := true, pors := true, outs := true } s (State.fncClock s) := by
  unfold State.fncClock
  extract_lets +onlyGivenNames x
  refine Within.cut (x := x) ?_ ?_ <;> [(unfold x; clear x); (obtain ⟨y, e⟩ := named x; rewrite [← e]; clear e x; intro _)]
  · refine Within.app (State.bcTry_within _ _) rfl ?_
    refine Within.app (State.bcTry_within _ _) rfl ?_
    refine Within.app (State.tryArrive_within _ _) rfl ?_
    refine Within.app (State.tryArrive_within _ _) rfl ?_
    exact Within.refl _ _
  extract_lets +onlyGivenNames x
  refine Within.cut (x := x) ?_ ?_ <;> [(unfold x; clear x); (obtain ⟨y, e⟩ := named x; rewrite [← e]; clear e x; intro _)]
  · refine Within.ite ?_ ?_
    · refine Within.app (State.invEnd_within _ _) rfl ?_
      assumption
    assumption
  split
  · refine Within.ite ?_ ?_
    · refine Within.app (State.bcAsk_within _) rfl ?_
      with_reducible (apply Within.upd <;> try first | exact .inl rfl | exact .inr rfl | exact id | assumption | exact Within.refl _ _)
    assumption
  assumption

theorem State.invStart_within (s : State) (a1) (a2) (a3) :
    Within { fnc := true, xlts := true, xinv := true, rtrTx := true, pors := true } s (State.invStart s a1 a2 a3) := by
  unfold State.invStart
  refine Within.ite ?_ ?_
  · exact Within.refl _ _
  extract_lets +onlyGivenNames x
  clear_value x
  extract_lets +onlyGivenNames x
  clear_value x
  extract_lets +onlyGivenNames x
  clear_value x
  extract_lets +onlyGivenNames x
  clear_value x
  extract_lets +onlyGivenNames x
  clear_value x
  extract_lets +onlyGivenNames x
  clear_value x
  extract_lets +onlyGivenNames x
  refine Within.cut (x := x) ?_ ?_ <;> [(unfold x; clear x); (obtain ⟨y, e⟩ := named x; rewrite [← e]; clear e x; intro _)]
  · with_reducible (apply Within.upd <;> try first | exact .inl rfl | exact .inr rfl | exact id | assumption | exact Within.refl _ _)
  refine Within.ite ?_ ?_
  · refine Within.app (State.invEnd_within _ _) rfl ?_
    assumption
  refine Within.ite ?_ ?_
  · extract_lets +onlyGivenNames x
    clear_value x
    extract_lets +onlyGivenNames x
    refine Within.cut (x := x) ?_ ?_ <;> [(unfold x; clear x); (obtain ⟨y, e⟩ := named x; rewrite [← e]; clear e x; intro _)]
    · refine Within.app (State.xltInvalidate_within _ _ _ _) rfl ?_
      assumption
    refine Within.ite ?_ ?_
    · refine Within.app (State.invEnd_within _ _) rfl ?_
      assumption
    with_reducible (apply Within.upd <;> try first | exact .inl rfl | exact .inr rfl | exact id | assumption | exact Within.refl _ _)
  refine Within.ite ?_ ?_
  · refine Within.app (State.bcAsk_within _) rfl ?_
    assumption
  with_reducible (apply Within.upd <;> try first | exact .inl rfl | exact .inr rfl | exact id | assumption | exact Within.refl _ _)

theorem State.sysTreeWrite_within (s : State) (a1) (a2) (a3) :
    Within { csr := true, trcCfg := true, fnc := true, events := true, outs := true } s (State.sysTreeWrite s a1 a2 a3) := by
  unfold State.sysTreeWrite
  extract_lets +onlyGivenNames x
  clear_value x
  refine Within.ite ?_ ?_
  · exact Within.refl _ _
  extract_lets +onlyGivenNames x
  refine Within.cut (x := x) ?_ ?_ <;> [(unfold x; clear x); (obtain ⟨y, e⟩ := named x; rewrite [← e]; clear e x; intro _)]
  · refine Within.app (State.csrPut_within _ _ _) rfl ?_
    exact Within.refl _ _
  extract_lets +onlyGivenNames x
  clear_value x
  extract_lets +onlyGivenNames x
  refine Within.cut (x := x) ?_ ?_ <;> [(unfold x; clear x); (obtain ⟨y, e⟩ := named x; rewrite [← e]; clear e x; intro _)]
  · refine Within.foldl (fun _ _ => ?_) ?_
    · refine Within.app (State.fenceGone_within _ _) rfl ?_
      refine Within.app (State.fenceLate_within _ _) rfl ?_
      exact Within.refl _ _
    assumption
  refine Within.app (State.setTree_within _ _ _) rfl ?_
  assumption

theorem State.takeFails_within (s : State) (a1) :
    WithinP { accs := true } s (State.takeFails s a1) := by
  unfold State.takeFails
  refine WithinP.mk ?_
  with_reducible (apply Within.upd <;> try first | exact .inl rfl | exact .inr rfl | exact id | assumption | exact Within.refl _ _)

theorem State.treeDrop_within (s : State) :
    Within { fnc := true } s (State.treeDrop s) := by
  unfold State.treeDrop
  with_reducible (apply Within.upd <;> try first | exact .inl rfl | exact .inr rfl | exact id | assumption | exact Within.refl _ _)

theorem execAddress_within (a0) (a1) (a2) (s : State) :
    WithinX { fnc := true, xlts := true, xinv := true, rtrTx := true, pors := true } s (execAddress a0 a1 a2 s) := by
  unfold execAddress
  refine WithinX.next ?_
  refine Within.ite ?_ ?_
  · refine Within.app (State.invStart_within _ _ _ _) rfl ?_
    exact Within.refl _ _
  exact Within.refl _ _

theorem execAll_within (a0) (a1) (s : State) :
    WithinX { fnc := true, xlts := true, xinv := true, rtrTx := true, pors := true } s (execAll a0 a1 s) := by
  unfold execAll
  refine WithinX.next ?_
  refine Within.ite ?_ ?_
  · refine Within.app (State.invStart_within _ _ _ _) rfl ?_
    exact Within.refl _ _
  exact Within.refl _ _

theorem execArrive_within (a0) (a1) (s : State) :
    WithinX { lse := true, fnc := true, xlts := true, rtrTx := true, rtrRx := true, pors := true, events := true, outs := true } s (execArrive a0 a1 s) := by
  unfold execArrive
  extract_lets +onlyGivenNames x
  refine WithinX.cut (x := x) ?_ ?_ <;> [(unfold x; clear x); (obtain ⟨y, e⟩ := named x; rewrite [← e]; clear e x; intro _)]
  · refine Within.app (State.consume_within _ _ _) rfl ?_
    exact Within.refl _ _
  extract_lets +onlyGivenNames x
  clear_value x
  extract_lets +onlyGivenNames x
  clear_value x
  refine WithinX.next ?_
  refine Within.ite ?_ ?_
  · assumption
  refine Within.ite ?_ ?_
  · refine Within.app (State.tryArrive_within _ _) rfl ?_
    refine Within.app (State.setTree_within _ _ _) rfl ?_
    refine Within.app (State.event_within _ _ _ _) rfl ?_
    assumption
  refine Within.app (State.treeDrop_within _) rfl ?_
  assumption

theorem execBack_within (a0) (a1) (s : State) :
    WithinX { fnc := true, xinv := true, rtrTx := true, rtrRx := true } s (execBack a0 a1 s) := by
  unfold execBack
  extract_lets +onlyGivenNames x
  refine WithinX.cut (x := x) ?_ ?_ <;> [(unfold x; clear x); (obtain ⟨y, e⟩ := named x; rewrite [← e]; clear e x; intro _)]
  · refine Within.app (State.consume_within _ _ _) rfl ?_
    exact Within.refl _ _
  extract_lets +onlyGivenNames x
  clear_value x
  refine WithinX.next ?_
  refine Within.ite ?_ ?_
  · assumption
  refine Within.ite ?_ ?_
  · refine Within.app (State.bcTry_within _ _) rfl ?_
    refine Within.app (State.setBc_within _ _ _) rfl ?_
    assumption
  refine Within.app (State.treeDrop_within _) rfl ?_
  assumption

theorem execBbusy_within (a0) (a1) (s : State) :
    WithinX { fnc := true, xinv := true, rtrRx := true } s (execBbusy a0 a1 s) := by
  unfold execBbusy
  extract_lets +onlyGivenNames x
  refine WithinX.cut (x := x) ?_ ?_ <;> [(unfold x; clear x); (obtain ⟨y, e⟩ := named x; rewrite [← e]; clear e x; intro _)]
  · refine Within.app (State.consume_within _ _ _) rfl ?_
    exact Within.refl _ _
  refine WithinX.next ?_
  refine Within.ite ?_ ?_
  · assumption
  refine Within.ite ?_ ?_
  · refine Within.app (State.treeDrop_within _) rfl ?_
    assumption
  refine Within.ite ?_ ?_
  · with_reducible (apply Within.upd <;> try first | exact .inl rfl | exact .inr rfl | exact id | assumption | exact Within.refl _ _)
  assumption

theorem execBcast_within (a0) (a1) (s : State) :
    WithinX { fnc := true, xlts := true, xinv := true, rtrTx := true, rtrRx := true, pors := true } s (execBcast a0 a1 s) := by
  unfold execBcast
  extract_lets +onlyGivenNames x
  refine WithinX.cut (x := x) ?_ ?_ <;> [(unfold x; clear x); (obtain ⟨y, e⟩ := named x; rewrite [← e]; clear e x; intro _)]
  · refine Within.app (State.consume_within _ _ _) rfl ?_
    exact Within.refl _ _
  refine WithinX.next ?_
  refine Within.ite ?_ ?_
  · assumption
  refine Within.ite ?_ ?_
  · refine Within.app (State.bcStart_within _ _ _ _) rfl ?_
    assumption
  refine Within.app (State.treeDrop_within _) rfl ?_
  assumption

theorem execBdone_within (a0) (a1) (s : State) :
    WithinX { fnc := true, xinv := true, rtrRx := true } s (execBdone a0 a1 s) := by
  unfold execBdone
  extract_lets +onlyGivenNames x
  refine WithinX.cut (x := x) ?_ ?_ <;> [(unfold x; clear x); (obtain ⟨y, e⟩ := named x; rewrite [← e]; clear e x; intro _)]
  · refine Within.app (State.consume_within _ _ _) rfl ?_
    exact Within.refl _ _
  refine WithinX.next ?_
  refine Within.ite ?_ ?_
  · assumption
  refine Within.ite ?_ ?_
  · refine Within.app (State.treeDrop_within _) rfl ?_
    assumption
  refine Within.ite ?_ ?_
  · refine Within.app (State.invEnd_within _ _) rfl ?_
    assumption
  assumption

theorem execBreq_within (a0) (a1) (s : State) :
    WithinX { fnc := true, xlts := true, xinv := true, rtrTx := true, rtrRx := true, pors := true } s (execBreq a0 a1 s) := by
  unfold execBreq
  extract_lets +onlyGivenNames x
  refine WithinX.cut (x := x) ?_ ?_ <;> [(unfold x; clear x); (obtain ⟨y, e⟩ := named x; rewrite [← e]; clear e x; intro _)]
  · refine Within.app (State.consume_within _ _ _) rfl ?_
    exact Within.refl _ _
  refine WithinX.next ?_
  refine Within.ite ?_ ?_
  · assumption
  refine Within.ite ?_ ?_
  · refine Within.app (State.bcRequest_within _ _ _) rfl ?_
    assumption
  refine Within.app (State.treeDrop_within _) rfl ?_
  assumption

theorem execContext_within (a0) (a1) (a2) (s : State) :
    WithinX { fnc := true, xlts := true, xinv := true, rtrTx := true, pors := true } s (execContext a0 a1 a2 s) := by
  unfold execContext
  refine WithinX.next ?_
  refine Within.ite ?_ ?_
  · refine Within.app (State.invStart_within _ _ _ _) rfl ?_
    exact Within.refl _ _
  exact Within.refl _ _

theorem execContextRegisterWrite_within (a0) (a1) (a2) (a3) (s : State) :
    WithinX { csr := true, trcCfg := true, xlts := true, pors := true } s (execContextRegisterWrite a0 a1 a2 a3 s) := by
  unfold execContextRegisterWrite
  refine WithinX.next ?_
  refine Within.ite ?_ ?_
  · refine Within.app (State.ctxWrite_within _ _ _ _) rfl ?_
    exact Within.refl _ _
  exact Within.refl _ _

theorem execDowndraft_within (a0) (a1) (s : State) :
    WithinX { lse := true, fnc := true, xlts := true, rtrTx := true, rtrRx := true, pors := true, outs := true } s (execDowndraft a0 a1 s) := by
  unfold execDowndraft
  extract_lets +onlyGivenNames x
  refine WithinX.cut (x := x) ?_ ?_ <;> [(unfold x; clear x); (obtain ⟨y, e⟩ := named x; rewrite [← e]; clear e x; intro _)]
  · refine Within.app (State.consume_within _ _ _) rfl ?_
    exact Within.refl _ _
  extract_lets +onlyGivenNames x
  clear_value x
  refine WithinX.next ?_
  refine Within.ite ?_ ?_
  · assumption
  refine Within.ite ?_ ?_
  · refine Within.app (State.tryArrive_within _ _) rfl ?_
    refine Within.app (State.downdraft_within _ _ _ _) rfl ?_
    assumption
  refine Within.app (State.treeDrop_within _) rfl ?_
  assumption

theorem execEpochStepComplete_within (s : State) :
    WithinX { lse := true, fnc := true, outs := true } s (execEpochStepComplete s) := by
  unfold execEpochStepComplete
  refine WithinX.next ?_
  split
  · exact Within.refl _ _
  extract_lets +onlyGivenNames x
  clear_value x
  refine Within.ite ?_ ?_
  · exact Within.refl _ _
  extract_lets +onlyGivenNames x
  clear_value x
  extract_lets +onlyGivenNames x
  clear_value x
  extract_lets +onlyGivenNames x
  refine Within.cut (x := x) ?_ ?_ <;> [(unfold x; clear x); (obtain ⟨y, e⟩ := named x; rewrite [← e]; clear e x; intro _)]
  · with_reducible (apply Within.upd <;> try first | exact .inl rfl | exact .inr rfl | exact id | assumption | exact Within.refl _ _)
  refine Within.foldl (fun _ _ => ?_) ?_
  · refine Within.app (State.fenceEnd_within _ _ _) rfl ?_
    exact Within.refl _ _
  assumption

theorem execEpochStepStart_within (s : State) :
    WithinX { bisnps := true, hreqs := true, lse := true, events := true, outs := true } s (execEpochStepStart s) := by
  unfold execEpochStepStart
  refine WithinX.next ?_
  split
  · exact Within.refl _ _
  refine Within.ite ?_ ?_
  · exact Within.refl _ _
  extract_lets +onlyGivenNames x
  clear_value x
  extract_lets +onlyGivenNames x
  clear_value x
  refine Within.ite ?_ ?_
  · refine Within.ite ?_ ?_
    · exact Within.refl _ _
    with_reducible (apply Within.upd <;> try first | exact .inl rfl | exact .inr rfl | exact id | assumption | exact Within.refl _ _)
  extract_lets +onlyGivenNames x
  refine Within.cut (x := x) ?_ ?_ <;> [(unfold x; clear x); (obtain ⟨y, e⟩ := named x; rewrite [← e]; clear e x; intro _)]
  · refine Within.app (State.rosterGone_within _ _) rfl ?_
    exact Within.refl _ _
  extract_lets +onlyGivenNames x
  clear_value x
  extract_lets +onlyGivenNames x
  refine Within.cut (x := x) ?_ ?_ <;> [(unfold x; clear x); (obtain ⟨y, e⟩ := named x; rewrite [← e]; clear e x; intro _)]
  · refine Within.app (State.event_within _ _ _ _) rfl ?_
    assumption
  extract_lets +onlyGivenNames x
  clear_value x
  extract_lets +onlyGivenNames x
  refine Within.cut (x := x) ?_ ?_ <;> [(unfold x; clear x); (obtain ⟨y, e⟩ := named x; rewrite [← e]; clear e x; intro _)]
  · with_reducible (apply Within.upd <;> try first | exact .inl rfl | exact .inr rfl | exact id | assumption | exact Within.refl _ _)
  refine Within.foldl (fun _ _ => ?_) ?_
  · refine Within.foldl (fun _ _ => ?_) ?_
    · refine Within.app (State.sendBi_within _ _ _ _ _ _) rfl ?_
      exact Within.refl _ _
    exact Within.refl _ _
  assumption

theorem execFenceDeadline_within (a0) (s : State) :
    WithinX { fnc := true, events := true, outs := true } s (execFenceDeadline a0 s) := by
  unfold execFenceDeadline
  refine WithinX.next ?_
  split
  · exact Within.refl _ _
  refine Within.ite ?_ ?_
  · exact Within.refl _ _
  extract_lets +onlyGivenNames x
  refine Within.cut (x := x) ?_ ?_ <;> [(unfold x; clear x); (obtain ⟨y, e⟩ := named x; rewrite [← e]; clear e x; intro _)]
  · refine Within.app (State.fenceLate_within _ _) rfl ?_
    exact Within.refl _ _
  extract_lets +onlyGivenNames x
  clear_value x
  refine Within.ite ?_ ?_
  · refine Within.app (State.modFence_within _ _ _) rfl ?_
    assumption
  refine Within.app (State.fenceGone_within _ _) rfl ?_
  assumption

theorem execFenceLocalWaitsDone_within (a0) (s : State) :
    WithinX { lse := true, fnc := true, xlts := true, rtrTx := true, pors := true, outs := true } s (execFenceLocalWaitsDone a0 s) := by
  unfold execFenceLocalWaitsDone
  refine WithinX.next ?_
  split
  · exact Within.refl _ _
  refine Within.ite ?_ ?_
  · exact Within.refl _ _
  extract_lets +onlyGivenNames x
  clear_value x
  extract_lets +onlyGivenNames x
  refine Within.cut (x := x) ?_ ?_ <;> [(unfold x; clear x); (obtain ⟨y, e⟩ := named x; rewrite [← e]; clear e x; intro _)]
  · refine Within.app (State.modFence_within _ _ _) rfl ?_
    exact Within.refl _ _
  refine Within.ite ?_ ?_
  · refine Within.app (State.fenceEnd_within _ _ _) rfl ?_
    assumption
  refine Within.ite ?_ ?_
  · refine Within.app (State.fenceEnd_within _ _ _) rfl ?_
    refine Within.ite ?_ ?_
    · refine Within.app (State.xltDropBbm_within _ _) rfl ?_
      assumption
    assumption
  extract_lets +onlyGivenNames x
  clear_value x
  refine Within.ite ?_ ?_
  · refine Within.ite ?_ ?_
    · split
      refine Within.app (State.fenceOut_within _ _ _ _) rfl ?_
      refine Within.app (State.xltDropBbm_within _ _) rfl ?_
      refine WithinP.get (State.reqAdvance_within _) (by assumption) rfl ?_
      assumption
    refine Within.app (State.fenceEnd_within _ _ _) rfl ?_
    assumption
  refine Within.app (State.tryArrive_within _ _) rfl ?_
  refine Within.app (State.modFence_within _ _ _) rfl ?_
  assumption

theorem execFenceRead_within (a0) (a1) (a2) (s : State) :
    WithinX { trcCfg := true, irq := true, pba := true, nextRid := true, accs := true, fnc := true, ledger := true, events := true, trc := true, outs := true } s (execFenceRead a0 a1 a2 s) := by
  unfold execFenceRead
  extract_lets +onlyGivenNames x
  clear_value x
  refine WithinX.next ?_
  refine Within.ite ?_ ?_
  · exact Within.refl _ _
  refine Within.ite ?_ ?_
  · refine Within.app (State.badAccess_within _ _ _) rfl ?_
    exact Within.refl _ _
  refine Within.ite ?_ ?_
  · refine Within.app (State.emit_within _ _) rfl ?_
    exact Within.refl _ _
  extract_lets +onlyGivenNames x
  clear_value x
  extract_lets +onlyGivenNames x
  clear_value x
  split
  extract_lets +onlyGivenNames x
  clear_value x
  extract_lets +onlyGivenNames x
  clear_value x
  extract_lets +onlyGivenNames x
  clear_value x
  extract_lets +onlyGivenNames x
  clear_value x
  split
  extract_lets +onlyGivenNames x
  clear_value x
  extract_lets +onlyGivenNames x
  refine Within.cut (x := x) ?_ ?_ <;> [(unfold x; clear x); (obtain ⟨y, e⟩ := named x; rewrite [← e]; clear e x; intro _)]
  · with_reducible (apply Within.upd <;> try first | exact .inl rfl | exact .inr rfl | exact id | assumption | exact Within.refl _ _)
    refine WithinP.get (State.takeFails_within _ _) (by assumption) rfl ?_
    refine WithinP.get (State.newId_within _) (by assumption) rfl ?_
    exact Within.refl _ _
  extract_lets +onlyGivenNames x
  refine Within.cut (x := x) ?_ ?_ <;> [(unfold x; clear x); (obtain ⟨y, e⟩ := named x; rewrite [← e]; clear e x; intro _)]
  · refine Within.app (State.event_within _ _ _ _) rfl ?_
    assumption
  refine Within.ite ?_ ?_
  · refine Within.app (State.fenceEnd_within _ _ _) rfl ?_
    assumption
  assumption

theorem execInvalidationLimit_within (s : State) :
    WithinX { xinv := true } s (execInvalidationLimit s) := by
  unfold execInvalidationLimit
  refine WithinX.next ?_
  refine Within.ite ?_ ?_
  · with_reducible (apply Within.upd <;> try first | exact .inl rfl | exact .inr rfl | exact id | assumption | exact Within.refl _ _)
  exact Within.refl _ _

theorem execRosterSweep_within (a0) (s : State) :
    WithinX { free := true, slices := true, chans := true, near := true, memIo := true, hreqs := true, flip := true, events := true } s (execRosterSweep a0 s) := by
  unfold execRosterSweep
  refine WithinX.next ?_
  refine Within.ite ?_ ?_
  · exact Within.refl _ _
  extract_lets +onlyGivenNames x
  clear_value x
  extract_lets +onlyGivenNames x
  clear_value x
  extract_lets +onlyGivenNames x
  clear_value x
  split
  · exact Within.refl _ _
  extract_lets +onlyGivenNames x
  clear_value x
  extract_lets +onlyGivenNames x
  clear_value x
  extract_lets +onlyGivenNames x
  refine Within.cut (x := x) ?_ ?_ <;> [(unfold x; clear x); (obtain ⟨y, e⟩ := named x; rewrite [← e]; clear e x; intro _)]
  · refine Within.app (State.modSlice_within _ _ _) rfl ?_
    refine Within.app (State.putTags_within _ _ _ _) rfl ?_
    exact Within.refl _ _
  refine Within.ite ?_ ?_
  · refine Within.app (State.rosterGone_within _ _) rfl ?_
    assumption
  assumption

theorem execSystemTreeWrite_within (a0) (a1) (a2) (a3) (s : State) :
    WithinX { csr := true, trcCfg := true, fnc := true, events := true, outs := true } s (execSystemTreeWrite a0 a1 a2 a3 s) := by
  unfold execSystemTreeWrite
  refine WithinX.next ?_
  refine Within.ite ?_ ?_
  · refine Within.app (State.sysTreeWrite_within _ _ _ _) rfl ?_
    exact Within.refl _ _
  exact Within.refl _ _

end Sys2Proof.Machine
end

