-- ==== Sys2Proof/Laws/Qmg.lean ====
section
/-! SUPPORT. For each operation of Machine/Qmg.lean one lemma: which pieces of the state it can change, and that it keeps the
invariant of Safety.lean. -/

set_option Elab.async false

namespace Sys2Proof.Machine

theorem State.countFell_within (s : State) (a1) :
    Within { pors := true } s (State.countFell s a1) := by
  unfold State.countFell
  with_reducible (apply Within.upd <;> try first | exact .inl rfl | exact .inr rfl | exact id | assumption | exact Within.refl _ _)

theorem State.linksUsed_within (s : State) (a1) :
    Within { free := true, finds := true, due := true, trcCfg := true, irq := true, slices := true, chans := true, near := true, memIo := true, pba := true, ledger := true, bkt := true, flip := true, events := true, trc := true, outs := true } s (State.linksUsed s a1) := by
  unfold State.linksUsed
  refine Within.foldl (fun _ _ => ?_) ?_
  · extract_lets +onlyGivenNames x
    clear_value x
    refine Within.app (State.houseMerge_within _ _ _) rfl ?_
    refine WithinP.snd (State.houseRead_within _ _) rfl ?_
    exact Within.refl _ _
  exact Within.refl _ _

theorem QmgI.stage_eq {x y : Qmg} (h : y.stage = x.stage) : QmgI x → QmgI y := fun i => ⟨h ▸ i.stage⟩
theorem Qmg.release_stage (m : Qmg) (cs : List Nat) : (m.release cs).stage = m.stage := rfl
theorem Qmg.advanceHead_stage (m : Qmg) (q k : Nat) (d : Bool) : (m.advanceHead q k d).stage = m.stage := rfl
theorem Qmg.remove_stage (m : Qmg) (q k : Nat) : (m.remove q k).stage = m.stage := by
  unfold Qmg.remove
  extract_lets a b
  split <;> rfl
theorem Qmg.dropItem_stage (m : Qmg) (q : Nat) : (m.dropItem q).stage = m.stage := m.remove_stage _ _
theorem Qmg.empty_stage (m : Qmg) (q : Nat) : (m.empty q).stage = m.stage := rfl
theorem Qmg.overwrite_stage (m : Qmg) (q : Nat) : (m.overwrite q).stage = m.stage := Qmg.dropItem_stage _ q
theorem Qmg.linkUe_stage (m : Qmg) (c : Nat) : (m.linkUe c).stage = m.stage := by
  unfold Qmg.linkUe
  split
  · rfl
  · split
    · rfl
    · split <;> rfl
theorem Qmg.linkUes_stage (l : List Nat) (m : Qmg) : (l.foldl (fun m c => m.linkUe c) m).stage = m.stage := by
  induction l generalizing m with
  | nil => rfl
  | cons c l ih => exact (ih _).trans (m.linkUe_stage c)
theorem Qmg.take_stage (n : Nat) (m : Qmg) : (m.take n).2.stage = m.stage := by
  induction n generalizing m with
  | zero => rfl
  | succ n ih =>
    unfold Qmg.take
    split
    · exact ih _
    · split
      · exact ih _
      · rfl
theorem Qmg.link_stage (m : Qmg) (q : Nat) (cells : List Line) : (m.link q cells).stage = m.stage := Qmg.take_stage _ _
theorem Qmg.makeRoom_stage (more : Qmg → Bool) (q k : Nat) (m : Qmg) : (Qmg.makeRoom more q k m).2.stage = m.stage := by
  induction k generalizing m with
  | zero => rfl
  | succ k ih =>
    unfold Qmg.makeRoom
    split
    · exact (ih _).trans (m.overwrite_stage q)
    · rfl
theorem Qmg.enqueue_stage (m : Qmg) (q : Nat) (cells : List Line) : (m.enqueue q cells).2.2.stage = m.stage := by
  unfold Qmg.enqueue
  extract_lets e n refuse
  split
  · rfl
  · split
    · rfl
    · split
      · split
        · rfl
        · split
          · rfl
          · exact m.link_stage q cells
      · split
        rename_i a x ha
        split
        rename_i b y hb
        have hx : x.stage = m.stage := (congrArg (fun p => p.2.stage) ha).symm.trans (Qmg.makeRoom_stage _ _ _ _)
        have hy : y.stage = x.stage := (congrArg (fun p => p.2.stage) hb).symm.trans (Qmg.makeRoom_stage _ _ _ _)
        split
        · exact hy.trans hx
        · exact (y.link_stage q cells).trans (hy.trans hx)

theorem Qmg.remove_I (m : Qmg) (q k : Nat) : QmgI m → QmgI (m.remove q k) := QmgI.stage_eq (m.remove_stage q k)
theorem Qmg.dropItem_I (m : Qmg) (q : Nat) : QmgI m → QmgI (m.dropItem q) := QmgI.stage_eq (m.dropItem_stage q)
theorem Qmg.empty_I (m : Qmg) (q : Nat) : QmgI m → QmgI (m.empty q) := QmgI.stage_eq (m.empty_stage q)

theorem State.enqueueItem_within (s : State) (a1) (a2) :
    WithinP { free := true, finds := true, due := true, trcCfg := true, irq := true, slices := true, chans := true, near := true, memIo := true, pba := true, pors := true, qmg := true, ledger := true, bkt := true, flip := true, events := true, trc := true, outs := true } s (State.enqueueItem s a1 a2) := by
  unfold State.enqueueItem
  extract_lets +onlyGivenNames was
  clear_value was
  split
  rename_i code dropped m hm
  have hs : QmgI s.qmg → QmgI m := QmgI.stage_eq ((congrArg (fun p => p.2.2.stage) hm).symm.trans (Qmg.enqueue_stage _ _ _))
  clear hm
  have hw : Within { free := true, finds := true, due := true, trcCfg := true, irq := true, slices := true, chans := true, near := true, memIo := true, pba := true, pors := true, qmg := true, ledger := true, bkt := true, flip := true, events := true, trc := true, outs := true } s { s with qmg := m } := by
    with_reducible (apply Within.upd; (on_goal 1 => first | assumption | exact Within.refl _ _); all_goals try first | exact .inl rfl | exact .inr rfl | exact id)
    exact hs
  revert hw
  generalize ({ s with qmg := m } : State) = t
  intro hw
  change WithinP _ _ _
  extract_lets +onlyGivenNames x
  refine WithinP.cut (x := x) ?_ ?_ <;> [(unfold x; clear x); (obtain ⟨y, e⟩ := named x; rewrite [← e]; clear e x; intro _)]
  · assumption
  extract_lets +onlyGivenNames x
  refine WithinP.cut (x := x) ?_ ?_ <;> [(unfold x; clear x); (obtain ⟨y, e⟩ := named x; rewrite [← e]; clear e x; intro _)]
  · refine Within.ite ?_ ?_
    · refine Within.app (State.countFell_within _ _) rfl ?_
      assumption
    assumption
  extract_lets +onlyGivenNames x
  clear_value x
  extract_lets +onlyGivenNames x
  refine WithinP.cut (x := x) ?_ ?_ <;> [(unfold x; clear x); (obtain ⟨y, e⟩ := named x; rewrite [← e]; clear e x; intro _)]
  · refine Within.ite ?_ ?_
    · refine Within.app (State.event_within _ _ _ _) rfl ?_
      assumption
    assumption
  refine WithinP.ite ?_ ?_
  · refine WithinP.mk ?_
    refine Within.app (State.event_within _ _ _ _) rfl ?_
    assumption
  extract_lets +onlyGivenNames x
  clear_value x
  extract_lets +onlyGivenNames x
  refine WithinP.cut (x := x) ?_ ?_ <;> [(unfold x; clear x); (obtain ⟨y, e⟩ := named x; rewrite [← e]; clear e x; intro _)]
  · refine Within.app (State.linksUsed_within _ _) rfl ?_
    refine Within.foldl (fun _ _ => ?_) ?_
    · refine Within.app (State.houseAccess_within _ _ _) rfl ?_
      exact Within.refl _ _
    assumption
  extract_lets +onlyGivenNames x
  refine WithinP.cut (x := x) ?_ ?_ <;> [(unfold x; clear x); (obtain ⟨y, e⟩ := named x; rewrite [← e]; clear e x; intro _)]
  · refine Within.app (State.event_within _ _ _ _) rfl ?_
    assumption
  extract_lets +onlyGivenNames x
  clear_value x
  refine WithinP.mk ?_
  refine Within.ite ?_ ?_
  · refine Within.app (State.signal_within _ _ _) rfl ?_
    assumption
  assumption

theorem State.linkErrs_within (s : State) (a1) :
    Within { pors := true, qmg := true } s (State.linkErrs s a1) := by
  unfold State.linkErrs
  refine Within.foldl (fun s c => ?_) (Within.refl _ _)
  extract_lets +onlyGivenNames t
  have ht : Within { pors := true, qmg := true } s t := by
    unfold t
    with_reducible (apply Within.upd; (on_goal 1 => first | assumption | exact Within.refl _ _); all_goals try first | exact .inl rfl | exact .inr rfl | exact id)
    exact QmgI.stage_eq (Qmg.linkUe_stage _ _)
  clear_value t
  split
  · refine Within.ite ?_ ?_
    · refine Within.app (State.countFell_within _ _) rfl ?_
      assumption
    assumption
  assumption

theorem State.poolInit_within (s : State) :
    Within { pors := true, qmg := true } s (State.poolInit s) := by
  unfold State.poolInit
  extract_lets +onlyGivenNames x
  clear_value x
  with_reducible (apply Within.upd <;> try first | exact .inl rfl | exact .inr rfl | exact id | assumption | exact Within.refl _ _)
  extract_lets +onlyGivenNames x
  with_reducible refine QmgI.of ?_ <;> try exact id

theorem State.qAdvance_within (s : State) (a1) (a2) :
    Within { free := true, finds := true, due := true, trcCfg := true, irq := true, slices := true, chans := true, near := true, memIo := true, pba := true, pors := true, qmg := true, ledger := true, bkt := true, flip := true, events := true, trc := true, outs := true } s (State.qAdvance s a1 a2) := by
  unfold State.qAdvance
  extract_lets +onlyGivenNames x
  clear_value x
  refine Within.ite ?_ ?_
  · exact Within.refl _ _
  refine Within.app (State.countFell_within _ _) rfl ?_
  refine Within.app (State.linksUsed_within _ _) rfl ?_
  with_reducible (apply Within.upd <;> try first | exact .inl rfl | exact .inr rfl | exact id | assumption | exact Within.refl _ _)
  exact Qmg.remove_I _ _ _

theorem State.setQent_within (s : State) (a1) (a2) :
    Within { qmg := true } s (State.setQent s a1 a2) := by
  unfold State.setQent
  with_reducible (apply Within.upd <;> try first | exact .inl rfl | exact .inr rfl | exact id | assumption | exact Within.refl _ _)
  extract_lets +onlyGivenNames x
  with_reducible refine QmgI.of ?_ <;> try exact id

theorem State.qClear_within (s : State) (a1) :
    Within { qmg := true } s (State.qClear s a1) := by
  unfold State.qClear
  refine Within.app (State.setQent_within _ _ _) rfl ?_
  exact Within.refl _ _

theorem State.qDrop_within (s : State) (a1) :
    Within { free := true, finds := true, due := true, trcCfg := true, irq := true, slices := true, chans := true, near := true, memIo := true, pba := true, pors := true, qmg := true, ledger := true, bkt := true, flip := true, events := true, trc := true, outs := true } s (State.qDrop s a1) := by
  unfold State.qDrop
  refine Within.ite ?_ ?_
  · exact Within.refl _ _
  refine Within.app (State.countFell_within _ _) rfl ?_
  refine Within.app (State.linksUsed_within _ _) rfl ?_
  with_reducible (apply Within.upd <;> try first | exact .inl rfl | exact .inr rfl | exact id | assumption | exact Within.refl _ _)
  exact Qmg.dropItem_I _ _

theorem State.qFlush_within (s : State) (a1) :
    Within { free := true, finds := true, due := true, trcCfg := true, irq := true, slices := true, chans := true, near := true, memIo := true, pba := true, pors := true, qmg := true, ledger := true, bkt := true, flip := true, events := true, trc := true, outs := true } s (State.qFlush s a1) := by
  unfold State.qFlush
  refine Within.ite ?_ ?_
  · exact Within.refl _ _
  refine Within.app (State.countFell_within _ _) rfl ?_
  refine Within.app (State.linksUsed_within _ _) rfl ?_
  with_reducible (apply Within.upd <;> try first | exact .inl rfl | exact .inr rfl | exact id | assumption | exact Within.refl _ _)
  exact Qmg.empty_I _ _

end Sys2Proof.Machine
end

