-- ==== Sys2Proof/Laws/Porter.lean ====
section
/-! SUPPORT. For each operation of Machine/Porter.lean one lemma: which pieces of the state it can change, and that it keeps the
invariant of Safety.lean. -/

set_option Elab.async false

namespace Sys2Proof.Machine

theorem State.modDesc_within (s : State) (a1) (a2) (a3) :
    Within { pors := true } s (State.modDesc s a1 a2 a3) := by
  unfold State.modDesc
  extract_lets +onlyGivenNames x
  clear_value x
  refine Within.app (State.setPor_within _ _ _) rfl ?_
  exact Within.refl _ _

theorem State.porSignal_within (s : State) (a1) :
    Within { pba := true, outs := true } s (State.porSignal s a1) := by
  unfold State.porSignal
  refine Within.app (State.signal_within _ _ _) rfl ?_
  exact Within.refl _ _

theorem State.offer_within (s : State) (a1) (a2) (a3) :
    Within { qmg := true } s (State.offer s a1 a2 a3) := by
  unfold State.offer
  with_reducible (apply Within.upd <;> try first | exact .inl rfl | exact .inr rfl | exact id | assumption | exact Within.refl _ _)
  extract_lets +onlyGivenNames x
  with_reducible refine QmgI.of ?_ <;> try exact id

theorem State.recOffer_within (s : State) (a1) (a2) :
    Within { pors := true, qmg := true } s (State.recOffer s a1 a2) := by
  unfold State.recOffer
  extract_lets +onlyGivenNames x
  clear_value x
  split
  · exact Within.refl _ _
  refine Within.app (State.offer_within _ _ _ _) rfl ?_
  refine Within.app (State.setPor_within _ _ _) rfl ?_
  exact Within.refl _ _

theorem State.porPost_within (s : State) (a1) :
    Within { pba := true, pors := true, qmg := true, outs := true } s (State.porPost s a1) := by
  unfold State.porPost
  refine Within.foldl (fun _ _ => ?_) ?_
  · refine Within.ite ?_ ?_
    · exact Within.refl _ _
    extract_lets +onlyGivenNames x
    clear_value x
    extract_lets +onlyGivenNames x
    clear_value x
    refine Within.ite ?_ ?_
    · extract_lets +onlyGivenNames x
      refine Within.cut (x := x) ?_ ?_ <;> [(unfold x; clear x); (obtain ⟨y, e⟩ := named x; rewrite [← e]; clear e x; intro _)]
      · refine Within.app (State.setPor_within _ _ _) rfl ?_
        exact Within.refl _ _
      refine Within.ite ?_ ?_
      · refine Within.app (State.porSignal_within _ _) rfl ?_
        assumption
      assumption
    refine Within.ite ?_ ?_
    · exact Within.refl _ _
    extract_lets +onlyGivenNames x
    refine Within.cut (x := x) ?_ ?_ <;> [(unfold x; clear x); (obtain ⟨y, e⟩ := named x; rewrite [← e]; clear e x; intro _)]
    · refine Within.app (State.setPor_within _ _ _) rfl ?_
      exact Within.refl _ _
    refine Within.ite ?_ ?_
    · assumption
    refine Within.app (State.recOffer_within _ _ _) rfl ?_
    assumption
  exact Within.refl _ _

theorem State.descEnd_within (s : State) (a1) (a2) :
    Within { pba := true, pors := true, qmg := true, events := true, outs := true } s (State.descEnd s a1 a2) := by
  unfold State.descEnd
  extract_lets +onlyGivenNames x
  clear_value x
  extract_lets +onlyGivenNames x
  refine Within.cut (x := x) ?_ ?_ <;> [(unfold x; clear x); (obtain ⟨y, e⟩ := named x; rewrite [← e]; clear e x; intro _)]
  · refine Within.app (State.modDesc_within _ _ _ _) rfl ?_
    exact Within.refl _ _
  extract_lets +onlyGivenNames x
  refine Within.cut (x := x) ?_ ?_ <;> [(unfold x; clear x); (obtain ⟨y, e⟩ := named x; rewrite [← e]; clear e x; intro _)]
  · split
    · refine Within.ite ?_ ?_
      · refine Within.app (State.event_within _ _ _ _) rfl ?_
        assumption
      assumption
    assumption
  refine Within.app (State.porPost_within _ _) rfl ?_
  refine Within.app (State.event_within _ _ _ _) rfl ?_
  assumption

theorem State.porAcquire_within (s : State) (a1) (a2) :
    Within { lse := true, pors := true } s (State.porAcquire s a1 a2) := by
  unfold State.porAcquire
  split
  · exact Within.refl _ _
  refine Within.ite ?_ ?_
  · split
    extract_lets +onlyGivenNames x
    clear_value x
    refine Within.app (State.modDesc_within _ _ _ _) rfl ?_
    refine Within.app (State.setPor_within _ _ _) rfl ?_
    refine WithinP.get (State.reqAdvance_within _) (by assumption) rfl ?_
    exact Within.refl _ _
  exact Within.refl _ _

theorem State.noteFail_within (s : State) (a1) (a2) (a3) :
    Within { pba := true, pors := true, qmg := true, events := true, outs := true } s (State.noteFail s a1 a2 a3) := by
  unfold State.noteFail
  extract_lets +onlyGivenNames x
  refine Within.cut (x := x) ?_ ?_ <;> [(unfold x; clear x); (obtain ⟨y, e⟩ := named x; rewrite [← e]; clear e x; intro _)]
  · refine Within.app (State.modDesc_within _ _ _ _) rfl ?_
    exact Within.refl _ _
  refine Within.app (State.descEnd_within _ _ _) rfl ?_
  assumption

theorem State.noteSend_within (s : State) (a1) (a2) :
    Within { pba := true, rtrTx := true, pors := true, qmg := true, events := true, outs := true } s (State.noteSend s a1 a2) := by
  unfold State.noteSend
  split
  · exact Within.refl _ _
  extract_lets +onlyGivenNames x
  refine Within.cut (x := x) ?_ ?_ <;> [(unfold x; clear x); (obtain ⟨y, e⟩ := named x; rewrite [← e]; clear e x; intro _)]
  · refine Within.app (State.modDesc_within _ _ _ _) rfl ?_
    exact Within.refl _ _
  refine Within.ite ?_ ?_
  · refine Within.app (State.offer_within _ _ _ _) rfl ?_
    assumption
  refine Within.ite ?_ ?_
  · refine Within.app (State.noteFail_within _ _ _ _) rfl ?_
    assumption
  refine Within.ite ?_ ?_
  · refine Within.app (State.noteFail_within _ _ _ _) rfl ?_
    assumption
  refine Within.app (State.sendPkt_within _ _ _ _ _ _) rfl ?_
  assumption

theorem State.porCheck_within (s : State) (a1) (a2) :
    Within { pba := true, lse := true, rtrTx := true, pors := true, qmg := true, events := true, outs := true } s (State.porCheck s a1 a2) := by
  unfold State.porCheck
  extract_lets +onlyGivenNames x
  refine Within.cut (x := x) ?_ ?_ <;> [(unfold x; clear x); (obtain ⟨y, e⟩ := named x; rewrite [← e]; clear e x; intro _)]
  · refine Within.app (State.porAcquire_within _ _ _) rfl ?_
    exact Within.refl _ _
  split
  · assumption
  refine Within.ite ?_ ?_
  · assumption
  split
  · refine Within.ite ?_ ?_
    · assumption
    refine Within.app (State.descEnd_within _ _ _) rfl ?_
    assumption
  refine Within.ite ?_ ?_
  · assumption
  refine Within.ite ?_ ?_
  · refine Within.app (State.noteSend_within _ _ _) rfl ?_
    assumption
  refine Within.app (State.descEnd_within _ _ _) rfl ?_
  refine Within.app (State.modDesc_within _ _ _ _) rfl ?_
  assumption

theorem State.abort_within (s : State) (a1) (a2) :
    Within { pba := true, lse := true, rtrTx := true, pors := true, qmg := true, events := true, outs := true } s (State.abort s a1 a2) := by
  unfold State.abort
  split
  · exact Within.refl _ _
  refine Within.ite ?_ ?_
  · exact Within.refl _ _
  extract_lets +onlyGivenNames x
  refine Within.cut (x := x) ?_ ?_ <;> [(unfold x; clear x); (obtain ⟨y, e⟩ := named x; rewrite [← e]; clear e x; intro _)]
  · refine Within.app (State.modDesc_within _ _ _ _) rfl ?_
    exact Within.refl _ _
  refine Within.ite ?_ ?_
  · refine Within.app (State.descEnd_within _ _ _) rfl ?_
    assumption
  refine Within.app (State.porCheck_within _ _ _) rfl ?_
  assumption

theorem State.abortEach_within (s : State) (a1) :
    Within { pba := true, lse := true, rtrTx := true, pors := true, qmg := true, events := true, outs := true } s (State.abortEach s a1) := by
  unfold State.abortEach
  refine Within.foldl (fun _ _ => ?_) ?_
  · refine Within.app (State.abort_within _ _ _) rfl ?_
    exact Within.refl _ _
  exact Within.refl _ _

theorem State.descFail_within (s : State) (a1) (a2) (a3) (a4) (a5) (a6) (a7) :
    Within { pors := true } s (State.descFail s a1 a2 a3 a4 a5 a6 a7) := by
  unfold State.descFail
  refine Within.app (State.modDesc_within _ _ _ _) rfl ?_
  exact Within.refl _ _

theorem State.markRec_within (s : State) (a1) :
    Within { qmg := true } s (State.markRec s a1) := by
  unfold State.markRec
  extract_lets +onlyGivenNames x
  clear_value x
  extract_lets +onlyGivenNames x
  clear_value x
  with_reducible (apply Within.upd <;> try first | exact .inl rfl | exact .inr rfl | exact id | assumption | exact Within.refl _ _)
  extract_lets +onlyGivenNames x
  with_reducible refine QmgI.of ?_ <;> try exact id

theorem State.noteAnswer_within (s : State) (a1) (a2) (a3) :
    Within { pba := true, pors := true, qmg := true, events := true, outs := true } s (State.noteAnswer s a1 a2 a3) := by
  unfold State.noteAnswer
  split
  · exact Within.refl _ _
  refine Within.ite ?_ ?_
  · exact Within.refl _ _
  refine Within.ite ?_ ?_
  · refine Within.app (State.descEnd_within _ _ _) rfl ?_
    refine Within.app (State.modDesc_within _ _ _ _) rfl ?_
    exact Within.refl _ _
  refine Within.ite ?_ ?_
  · refine Within.ite ?_ ?_
    · refine Within.app (State.modDesc_within _ _ _ _) rfl ?_
      exact Within.refl _ _
    refine Within.app (State.descEnd_within _ _ _) rfl ?_
    refine Within.app (State.modDesc_within _ _ _ _) rfl ?_
    exact Within.refl _ _
  refine Within.app (State.noteFail_within _ _ _ _) rfl ?_
  exact Within.refl _ _

theorem State.offerDone_within (s : State) (a1) (a2) (a3) :
    Within { trcCfg := true, irq := true, pba := true, rtrTx := true, pors := true, qmg := true, ledger := true, events := true, trc := true, outs := true } s (State.offerDone s a1 a2 a3) := by
  unfold State.offerDone
  split
  · extract_lets +onlyGivenNames x
    clear_value x
    split
    · exact Within.refl _ _
    refine Within.ite ?_ ?_
    · refine Within.app (State.setPor_within _ _ _) rfl ?_
      exact Within.refl _ _
    extract_lets +onlyGivenNames x
    refine Within.cut (x := x) ?_ ?_ <;> [(unfold x; clear x); (obtain ⟨y, e⟩ := named x; rewrite [← e]; clear e x; intro _)]
    · refine Within.app (State.setPor_within _ _ _) rfl ?_
      exact Within.refl _ _
    extract_lets +onlyGivenNames x
    refine Within.cut (x := x) ?_ ?_ <;> [(unfold x; clear x); (obtain ⟨y, e⟩ := named x; rewrite [← e]; clear e x; intro _)]
    · refine Within.ite ?_ ?_
      · assumption
      refine Within.app (State.rec__within _ _ _ _ _ _) rfl ?_
      assumption
    extract_lets +onlyGivenNames x
    refine Within.cut (x := x) ?_ ?_ <;> [(unfold x; clear x); (obtain ⟨y, e⟩ := named x; rewrite [← e]; clear e x; intro _)]
    · refine Within.ite ?_ ?_
      · refine Within.app (State.porSignal_within _ _) rfl ?_
        assumption
      assumption
    refine Within.app (State.porPost_within _ _) rfl ?_
    assumption
  · refine Within.app (State.noteAnswer_within _ _ _ _) rfl ?_
    exact Within.refl _ _
  · refine Within.ite ?_ ?_
    · refine Within.app (State.emit_within _ _) rfl ?_
      exact Within.refl _ _
    exact Within.refl _ _
  refine Within.app (State.sendPkt_within _ _ _ _ _ _) rfl ?_
  exact Within.refl _ _

theorem State.porHalt_within (s : State) (a1) (a2) (a3) :
    Within { trcCfg := true, irq := true, pba := true, lse := true, rtrTx := true, pors := true, qmg := true, ledger := true, events := true, trc := true, outs := true } s (State.porHalt s a1 a2 a3) := by
  unfold State.porHalt
  refine Within.ite ?_ ?_
  · exact Within.refl _ _
  extract_lets +onlyGivenNames x
  clear_value x
  extract_lets +onlyGivenNames x
  clear_value x
  extract_lets +onlyGivenNames x
  clear_value x
  extract_lets +onlyGivenNames x
  refine Within.cut (x := x) ?_ ?_ <;> [(unfold x; clear x); (obtain ⟨y, e⟩ := named x; rewrite [← e]; clear e x; intro _)]
  · refine Within.app (State.porSignal_within _ _) rfl ?_
    refine Within.app (State.rec__within _ _ _ _ _ _) rfl ?_
    refine Within.app (State.setPor_within _ _ _) rfl ?_
    exact Within.refl _ _
  refine Within.foldl (fun _ _ => ?_) ?_
  · refine Within.app (State.porCheck_within _ _ _) rfl ?_
    exact Within.refl _ _
  assumption

theorem State.pieceDone_within (s : State) (a1) (a2) (a3) :
    Within { trcCfg := true, irq := true, pba := true, lse := true, rtrTx := true, pors := true, qmg := true, ledger := true, events := true, trc := true, outs := true } s (State.pieceDone s a1 a2 a3) := by
  unfold State.pieceDone
  split
  extract_lets +onlyGivenNames x
  clear_value x
  extract_lets +onlyGivenNames x
  refine Within.cut (x := x) ?_ ?_ <;> [(unfold x; clear x); (obtain ⟨y, e⟩ := named x; rewrite [← e]; clear e x; intro _)]
  · refine Within.app (State.setPor_within _ _ _) rfl ?_
    exact Within.refl _ _
  split
  · assumption
  extract_lets +onlyGivenNames x
  clear_value x
  extract_lets +onlyGivenNames x
  refine Within.cut (x := x) ?_ ?_ <;> [(unfold x; clear x); (obtain ⟨y, e⟩ := named x; rewrite [← e]; clear e x; intro _)]
  · refine Within.app (State.modDesc_within _ _ _ _) rfl ?_
    assumption
  refine Within.ite ?_ ?_
  · extract_lets +onlyGivenNames x
    refine Within.cut (x := x) ?_ ?_ <;> [(unfold x; clear x); (obtain ⟨y, e⟩ := named x; rewrite [← e]; clear e x; intro _)]
    · refine Within.app (State.descFail_within _ _ _ _ _ _ _ _) rfl ?_
      assumption
    extract_lets +onlyGivenNames x
    refine Within.cut (x := x) ?_ ?_ <;> [(unfold x; clear x); (obtain ⟨y, e⟩ := named x; rewrite [← e]; clear e x; intro _)]
    · refine Within.ite ?_ ?_
      · refine Within.app (State.porHalt_within _ _ _ _) rfl ?_
        assumption
      assumption
    refine Within.app (State.porCheck_within _ _ _) rfl ?_
    assumption
  extract_lets +onlyGivenNames x
  refine Within.cut (x := x) ?_ ?_ <;> [(unfold x; clear x); (obtain ⟨y, e⟩ := named x; rewrite [← e]; clear e x; intro _)]
  · refine Within.app (State.modDesc_within _ _ _ _) rfl ?_
    assumption
  refine Within.app (State.porCheck_within _ _ _) rfl ?_
  assumption

theorem State.pieceGo_within (s : State) (a1) (a2) (a3) (a4) :
    Within { free := true, due := true, trcCfg := true, irq := true, slices := true, hsf := true, bisnps := true, links := true, pba := true, hreqs := true, accs := true, fnc := true, xlts := true, xinv := true, pors := true, ledger := true, bkt := true, flip := true, mgt := true, events := true, trc := true, outs := true } s (State.pieceGo s a1 a2 a3 a4) := by
  unfold State.pieceGo
  extract_lets +onlyGivenNames x
  clear_value x
  extract_lets +onlyGivenNames x
  clear_value x
  extract_lets +onlyGivenNames x
  clear_value x
  extract_lets +onlyGivenNames x
  clear_value x
  extract_lets +onlyGivenNames x
  clear_value x
  extract_lets +onlyGivenNames x
  clear_value x
  extract_lets +onlyGivenNames x
  clear_value x
  extract_lets +onlyGivenNames x
  clear_value x
  extract_lets +onlyGivenNames x
  clear_value x
  extract_lets +onlyGivenNames x
  clear_value x
  extract_lets +onlyGivenNames x
  clear_value x
  extract_lets +onlyGivenNames x
  refine Within.cut (x := x) ?_ ?_ <;> [(unfold x; clear x); (obtain ⟨y, e⟩ := named x; rewrite [← e]; clear e x; intro _)]
  · with_reducible (apply Within.upd <;> try first | exact .inl rfl | exact .inr rfl | exact id | assumption | exact Within.refl _ _)
  extract_lets +onlyGivenNames x
  clear_value x
  extract_lets +onlyGivenNames x
  refine Within.cut (x := x) ?_ ?_ <;> [(unfold x; clear x); (obtain ⟨y, e⟩ := named x; rewrite [← e]; clear e x; intro _)]
  · with_reducible (apply Within.upd <;> try first | exact .inl rfl | exact .inr rfl | exact id | assumption | exact Within.refl _ _)
  extract_lets +onlyGivenNames x
  refine Within.cut (x := x) ?_ ?_ <;> [(unfold x; clear x); (obtain ⟨y, e⟩ := named x; rewrite [← e]; clear e x; intro _)]
  · refine Within.app (State.setPor_within _ _ _) rfl ?_
    assumption
  extract_lets +onlyGivenNames x
  refine Within.cut (x := x) ?_ ?_ <;> [(unfold x; clear x); (obtain ⟨y, e⟩ := named x; rewrite [← e]; clear e x; intro _)]
  · refine Within.app (State.modDesc_within _ _ _ _) rfl ?_
    assumption
  extract_lets +onlyGivenNames x
  refine Within.cut (x := x) ?_ ?_ <;> [(unfold x; clear x); (obtain ⟨y, e⟩ := named x; rewrite [← e]; clear e x; intro _)]
  · refine Within.app (State.event_within _ _ _ _) rfl ?_
    assumption
  refine Within.ite ?_ ?_
  · refine Within.app (State.reqFail_within _ _ _) rfl ?_
    assumption
  refine Within.ite ?_ ?_
  · refine Within.app (State.reqFail_within _ _ _) rfl ?_
    assumption
  refine Within.app (State.toSlice_within _ _ _) rfl ?_
  assumption

theorem State.pieceTry_within (s : State) (a1) (a2) (a3) :
    WithinP { free := true, due := true, trcCfg := true, irq := true, slices := true, hsf := true, bisnps := true, links := true, pba := true, hreqs := true, nextRid := true, accs := true, fnc := true, xlts := true, xinv := true, pors := true, ledger := true, bkt := true, flip := true, mgt := true, events := true, trc := true, outs := true } s (State.pieceTry s a1 a2 a3) := by
  unfold State.pieceTry
  refine WithinP.ite ?_ ?_
  · refine WithinP.mk ?_
    refine Within.app (State.pieceGo_within _ _ _ _ _) rfl ?_
    exact Within.refl _ _
  extract_lets +onlyGivenNames x
  clear_value x
  split
  · refine WithinP.mk ?_
    refine Within.app (State.pieceGo_within _ _ _ _ _) rfl ?_
    exact Within.refl _ _
  split
  · refine WithinP.mk ?_
    refine Within.app (State.pieceGo_within _ _ _ _ _) rfl ?_
    refine WithinP.get (State.xlate_within _ _ _ _ _ _ _ _) (by assumption) rfl ?_
    exact Within.refl _ _
  refine WithinP.mk ?_
  refine Within.app (State.modDesc_within _ _ _ _) rfl ?_
  refine WithinP.get (State.xlate_within _ _ _ _ _ _ _ _) (by assumption) rfl ?_
  exact Within.refl _ _

theorem State.pieceFirst_within (s : State) (a1) (a2) :
    Within { free := true, due := true, trcCfg := true, irq := true, slices := true, hsf := true, bisnps := true, links := true, pba := true, hreqs := true, nextRid := true, accs := true, fnc := true, xlts := true, xinv := true, pors := true, ledger := true, bkt := true, flip := true, mgt := true, events := true, trc := true, outs := true } s (State.pieceFirst s a1 a2) := by
  induction a2 generalizing s with
  | nil => unfold State.pieceFirst; exact Within.refl _ _
  | cons r rest ih =>
    unfold State.pieceFirst
    obtain ⟨d, n⟩ := r
    split
    refine Within.ite ?_ ?_
    · refine WithinP.get (State.pieceTry_within _ _ _ _) (by assumption) rfl ?_
      exact Within.refl _ _
    refine Within.trans ?_ (ih ..)
    refine WithinP.get (State.pieceTry_within _ _ _ _) (by assumption) rfl ?_
    exact Within.refl _ _

theorem State.porFetch_within (s : State) (a1) :
    Within { free := true, finds := true, due := true, trcCfg := true, irq := true, slices := true, chans := true, near := true, memIo := true, pba := true, pors := true, qmg := true, ledger := true, bkt := true, flip := true, events := true, trc := true, outs := true } s (State.porFetch s a1) := by
  unfold State.porFetch
  extract_lets +onlyGivenNames x
  clear_value x
  extract_lets +onlyGivenNames x
  clear_value x
  refine Within.ite ?_ ?_
  · exact Within.refl _ _
  split
  · exact Within.refl _ _
  extract_lets +onlyGivenNames x
  clear_value x
  split
  extract_lets +onlyGivenNames x
  refine Within.cut (x := x) ?_ ?_ <;> [(unfold x; clear x); (obtain ⟨y, e⟩ := named x; rewrite [← e]; clear e x; intro _)]
  · refine Within.ite ?_ ?_
    · refine Within.app (State.ueData_within _ _ _ _ _) rfl ?_
      refine WithinP.get (State.houseRead_within _ _) (by assumption) rfl ?_
      exact Within.refl _ _
    refine WithinP.get (State.houseRead_within _ _) (by assumption) rfl ?_
    exact Within.refl _ _
  extract_lets +onlyGivenNames x
  clear_value x
  extract_lets +onlyGivenNames x
  clear_value x
  extract_lets +onlyGivenNames x
  clear_value x
  extract_lets +onlyGivenNames x
  refine Within.cut (x := x) ?_ ?_ <;> [(unfold x; clear x); (obtain ⟨y, e⟩ := named x; rewrite [← e]; clear e x; intro _)]
  · with_reducible (apply Within.upd <;> try first | exact .inl rfl | exact .inr rfl | exact id | assumption | exact Within.refl _ _)
  refine Within.app (State.qDrop_within _ _) rfl ?_
  refine Within.app (State.setPor_within _ _ _) rfl ?_
  assumption

theorem State.porResume_within (s : State) (a1) :
    Within { pors := true } s (State.porResume s a1) := by
  unfold State.porResume
  refine Within.app (State.setPor_within _ _ _) rfl ?_
  exact Within.refl _ _

theorem State.porterFault_within (s : State) (a1) (a2) (a3) (a4) (a5) :
    Within { pba := true, lse := true, rtrTx := true, pors := true, qmg := true, events := true, outs := true } s (State.porterFault s a1 a2 a3 a4 a5) := by
  unfold State.porterFault
  extract_lets +onlyGivenNames x
  refine Within.cut (x := x) ?_ ?_ <;> [(unfold x; clear x); (obtain ⟨y, e⟩ := named x; rewrite [← e]; clear e x; intro _)]
  · refine Within.app (State.modDesc_within _ _ _ _) rfl ?_
    exact Within.refl _ _
  refine Within.app (State.porCheck_within _ _ _) rfl ?_
  refine Within.app (State.descFail_within _ _ _ _ _ _ _ _) rfl ?_
  assumption

theorem State.porterTranslated_within (s : State) (a1) (a2) (a3) (a4) :
    Within { pors := true } s (State.porterTranslated s a1 a2 a3 a4) := by
  unfold State.porterTranslated
  refine Within.app (State.modDesc_within _ _ _ _) rfl ?_
  exact Within.refl _ _

theorem State.serveOffers_within (a0) (s : State) :
    Within { free := true, finds := true, due := true, trcCfg := true, irq := true, slices := true, chans := true, near := true, memIo := true, pba := true, rtrTx := true, pors := true, qmg := true, ledger := true, bkt := true, flip := true, events := true, trc := true, outs := true } s (State.serveOffers a0 s) := by
  induction a0 generalizing s with
  | zero => unfold State.serveOffers; exact Within.refl _ _
  | succ k ih =>
    unfold State.serveOffers
    split
    · exact Within.refl _ _
    extract_lets +onlyGivenNames x
    extract_lets +onlyGivenNames x
    refine Within.cut (x := x) ?_ ?_ <;> [(unfold x; clear x); (obtain ⟨y, e⟩ := named x; rewrite [← e]; clear e x; intro _)]
    · with_reducible (apply Within.upd <;> try first | exact .inl rfl | exact .inr rfl | exact id | assumption | exact Within.refl _ _)
      with_reducible refine QmgI.of ?_ <;> try exact id
    split
    refine Within.trans ?_ (ih ..)
    refine Within.app (State.offerDone_within _ _ _ _) rfl ?_
    refine Within.ite ?_ ?_
    · refine Within.app (State.markRec_within _ _) rfl ?_
      refine WithinP.get (State.enqueueItem_within _ _ _) (by assumption) rfl ?_
      assumption
    refine WithinP.get (State.enqueueItem_within _ _ _) (by assumption) rfl ?_
    assumption

theorem execAbortAll_within (a0) (a1) (s : State) :
    WithinX { pba := true, lse := true, rtrTx := true, pors := true, qmg := true, events := true, outs := true } s (execAbortAll a0 a1 s) := by
  unfold execAbortAll
  refine WithinX.next ?_
  refine Within.ite ?_ ?_
  · refine Within.app (State.abortEach_within _ _) rfl ?_
    exact Within.refl _ _
  exact Within.refl _ _

theorem execAbortOne_within (a0) (a1) (a2) (s : State) :
    WithinX { pba := true, lse := true, rtrTx := true, pors := true, qmg := true, events := true, outs := true } s (execAbortOne a0 a1 a2 s) := by
  unfold execAbortOne
  refine WithinX.next ?_
  refine Within.ite ?_ ?_
  · refine Within.app (State.abort_within _ _ _) rfl ?_
    exact Within.refl _ _
  exact Within.refl _ _

theorem execAdvance_within (a0) (a1) (a2) (a3) (a4) (s : State) :
    WithinX { free := true, due := true, trcCfg := true, irq := true, slices := true, chans := true, near := true, memIo := true, pba := true, pors := true, qmg := true, ledger := true, bkt := true, flip := true, events := true, trc := true, outs := true } s (execAdvance a0 a1 a2 a3 a4 s) := by
  unfold execAdvance
  refine WithinX.next ?_
  refine Within.ite ?_ ?_
  · refine State.finding_within _ rfl ?_ (fun _ => ?_)
    · exact Within.refl _ _
    refine Within.app (State.qAdvance_within _ _ _) rfl ?_
    refine Within.app (State.linkErrs_within _ _) rfl ?_
    exact Within.refl _ _
  exact Within.refl _ _

theorem execClear_within (a0) (a1) (s : State) :
    WithinX { qmg := true } s (execClear a0 a1 s) := by
  unfold execClear
  refine WithinX.next ?_
  refine Within.ite ?_ ?_
  · refine Within.app (State.qClear_within _ _) rfl ?_
    exact Within.refl _ _
  exact Within.refl _ _

theorem execDropPacket_within (a0) (a1) (a2) (a3) (s : State) :
    WithinX { free := true, due := true, trcCfg := true, irq := true, slices := true, chans := true, near := true, memIo := true, pba := true, pors := true, qmg := true, ledger := true, bkt := true, flip := true, events := true, trc := true, outs := true } s (execDropPacket a0 a1 a2 a3 s) := by
  unfold execDropPacket
  refine WithinX.next ?_
  refine Within.ite ?_ ?_
  · refine State.finding_within _ rfl ?_ (fun _ => ?_)
    · exact Within.refl _ _
    refine Within.app (State.qDrop_within _ _) rfl ?_
    refine Within.app (State.linkErrs_within _ _) rfl ?_
    exact Within.refl _ _
  exact Within.refl _ _

theorem execEnqueue_within (a0) (a1) (a2) (s : State) :
    WithinX { free := true, due := true, trcCfg := true, irq := true, slices := true, chans := true, near := true, memIo := true, pba := true, rtrTx := true, pors := true, qmg := true, ledger := true, bkt := true, flip := true, events := true, trc := true, outs := true } s (execEnqueue a0 a1 a2 s) := by
  unfold execEnqueue
  refine WithinX.next ?_
  refine Within.ite ?_ ?_
  · exact Within.refl _ _
  refine State.finding_within _ rfl ?_ (fun _ => ?_)
  · exact Within.refl _ _
  refine Within.app (State.serveOffers_within _ _) rfl ?_
  refine Within.foldl (fun _ _ => ?_) ?_
  · refine Within.app (State.setQent_within _ _ _) rfl ?_
    exact Within.refl _ _
  refine Within.app (State.linkErrs_within _ _) rfl ?_
  exact Within.refl _ _

theorem execFabricDeadlineExpiry_within (a0) (a1) (s : State) :
    WithinX { free := true, due := true, trcCfg := true, irq := true, slices := true, banks := true, chans := true, far := true, near := true, memIo := true, hsf := true, bisnps := true, links := true, pba := true, hreqs := true, accs := true, fnc := true, xlts := true, xinv := true, rtrTx := true, rtrUn := true, dom := true, pors := true, qmg := true, ledger := true, bkt := true, flip := true, ras := true, mgt := true, events := true, trc := true, outs := true } s (execFabricDeadlineExpiry a0 a1 s) := by
  unfold execFabricDeadlineExpiry
  refine WithinX.next ?_
  refine State.finding_within _ rfl ?_ (fun _ => ?_)
  · exact Within.refl _ _
  refine Within.ite ?_ ?_
  · exact Within.refl _ _
  split
  · refine Within.app (State.deadlineOut_within _ _ _) rfl ?_
    refine Within.app (State.deadlineMr_within _ _ _) rfl ?_
    exact Within.refl _ _
  · refine Within.app (State.deadlineVb_within _ _ _) rfl ?_
    exact Within.refl _ _
  split
  · refine Within.ite ?_ ?_
    · refine Within.app (State.markUnreach_within _ _) rfl ?_
      refine Within.app (State.noteFail_within _ _ _ _) rfl ?_
      exact Within.refl _ _
    exact Within.refl _ _
  exact Within.refl _ _

theorem execNotifyRetry_within (a0) (a1) (s : State) :
    WithinX { pba := true, rtrTx := true, pors := true, qmg := true, events := true, outs := true } s (execNotifyRetry a0 a1 s) := by
  unfold execNotifyRetry
  refine WithinX.next ?_
  refine Within.ite ?_ ?_
  · exact Within.refl _ _
  split
  · refine Within.ite ?_ ?_
    · refine Within.app (State.noteSend_within _ _ _) rfl ?_
      exact Within.refl _ _
    exact Within.refl _ _
  exact Within.refl _ _

theorem execPieceIssue_within (a0) (a1) (s : State) :
    WithinX { free := true, due := true, trcCfg := true, irq := true, slices := true, hsf := true, bisnps := true, links := true, pba := true, hreqs := true, nextRid := true, accs := true, fnc := true, xlts := true, xinv := true, pors := true, ledger := true, bkt := true, flip := true, mgt := true, events := true, trc := true, outs := true } s (execPieceIssue a0 a1 s) := by
  unfold execPieceIssue
  refine WithinX.next ?_
  refine State.finding_within _ rfl ?_ (fun _ => ?_)
  · exact Within.refl _ _
  refine Within.ite ?_ ?_
  · exact Within.refl _ _
  extract_lets +onlyGivenNames x
  clear_value x
  refine Within.ite ?_ ?_
  · exact Within.refl _ _
  refine Within.app (State.pieceFirst_within _ _ _) rfl ?_
  exact Within.refl _ _

theorem execPieceResponse_within (a0) (a1) (s : State) :
    WithinX { trcCfg := true, irq := true, pba := true, lse := true, rtrTx := true, pors := true, qmg := true, ledger := true, events := true, trc := true, outs := true } s (execPieceResponse a0 a1 s) := by
  unfold execPieceResponse
  refine WithinX.next ?_
  refine Within.ite ?_ ?_
  · exact Within.refl _ _
  split
  · split
    · refine Within.app (State.pieceDone_within _ _ _ _) rfl ?_
      exact Within.refl _ _
    exact Within.refl _ _
  exact Within.refl _ _

theorem execPorterActivate_within (a0) (s : State) :
    WithinX { trcCfg := true, irq := true, pba := true, lse := true, rtrTx := true, pors := true, qmg := true, ledger := true, events := true, trc := true, outs := true } s (execPorterActivate a0 s) := by
  unfold execPorterActivate
  refine WithinX.next ?_
  refine Within.ite ?_ ?_
  · exact Within.refl _ _
  extract_lets +onlyGivenNames x
  clear_value x
  refine Within.ite ?_ ?_
  · exact Within.refl _ _
  split
  · exact Within.refl _ _
  extract_lets +onlyGivenNames x
  refine Within.cut (x := x) ?_ ?_ <;> [(unfold x; clear x); (obtain ⟨y, e⟩ := named x; rewrite [← e]; clear e x; intro _)]
  · refine Within.app (State.setPor_within _ _ _) rfl ?_
    exact Within.refl _ _
  extract_lets +onlyGivenNames x
  refine Within.cut (x := x) ?_ ?_ <;> [(unfold x; clear x); (obtain ⟨y, e⟩ := named x; rewrite [← e]; clear e x; intro _)]
  · refine Within.app (State.modDesc_within _ _ _ _) rfl ?_
    assumption
  refine Within.ite ?_ ?_
  · refine Within.app (State.porCheck_within _ _ _) rfl ?_
    refine Within.app (State.porHalt_within _ _ _ _) rfl ?_
    refine Within.app (State.descFail_within _ _ _ _ _ _ _ _) rfl ?_
    assumption
  refine Within.ite ?_ ?_
  · refine Within.app (State.descEnd_within _ _ _) rfl ?_
    refine Within.app (State.modDesc_within _ _ _ _) rfl ?_
    assumption
  refine Within.app (State.porCheck_within _ _ _) rfl ?_
  assumption

theorem execPorterDisable_within (a0) (a1) (s : State) :
    WithinX { csr := true, trcCfg := true } s (execPorterDisable a0 a1 s) := by
  unfold execPorterDisable
  refine WithinX.next ?_
  refine Within.ite ?_ ?_
  · refine Within.app (State.csrPut_within _ _ _) rfl ?_
    exact Within.refl _ _
  exact Within.refl _ _

theorem execPorterFetch_within (a0) (a1) (a2) (s : State) :
    WithinX { free := true, due := true, trcCfg := true, irq := true, slices := true, chans := true, near := true, memIo := true, pba := true, pors := true, qmg := true, ledger := true, bkt := true, flip := true, events := true, trc := true, outs := true } s (execPorterFetch a0 a1 a2 s) := by
  unfold execPorterFetch
  refine WithinX.next ?_
  refine Within.ite ?_ ?_
  · refine State.finding_within _ rfl ?_ (fun _ => ?_)
    · exact Within.refl _ _
    refine Within.app (State.porFetch_within _ _) rfl ?_
    refine Within.app (State.linkErrs_within _ _) rfl ?_
    exact Within.refl _ _
  exact Within.refl _ _

theorem execPush_within (a0) (a1) (a2) (a3) (s : State) :
    WithinX { qmg := true } s (execPush a0 a1 a2 a3 s) := by
  unfold execPush
  refine WithinX.next ?_
  refine Within.ite ?_ ?_
  · exact Within.refl _ _
  refine Within.app (State.offer_within _ _ _ _) rfl ?_
  exact Within.refl _ _

theorem execPutAnswer_within (a0) (a1) (a2) (a3) (s : State) :
    WithinX { pba := true, rtrRx := true, pors := true, qmg := true, events := true, outs := true } s (execPutAnswer a0 a1 a2 a3 s) := by
  unfold execPutAnswer
  refine WithinX.next ?_
  extract_lets +onlyGivenNames x
  refine Within.cut (x := x) ?_ ?_ <;> [(unfold x; clear x); (obtain ⟨y, e⟩ := named x; rewrite [← e]; clear e x; intro _)]
  · refine Within.app (State.consume_within _ _ _) rfl ?_
    exact Within.refl _ _
  refine Within.ite ?_ ?_
  · assumption
  split
  · refine Within.ite ?_ ?_
    · refine Within.app (State.noteAnswer_within _ _ _ _) rfl ?_
      assumption
    assumption
  assumption

theorem execQueueDisable_within (a0) (a1) (s : State) :
    WithinX { qmg := true } s (execQueueDisable a0 a1 s) := by
  unfold execQueueDisable
  refine WithinX.next ?_
  refine Within.ite ?_ ?_
  · refine Within.app (State.setQent_within _ _ _) rfl ?_
    exact Within.refl _ _
  exact Within.refl _ _

theorem execQueueFlush_within (a0) (a1) (a2) (a3) (s : State) :
    WithinX { free := true, due := true, trcCfg := true, irq := true, slices := true, chans := true, near := true, memIo := true, pba := true, pors := true, qmg := true, ledger := true, bkt := true, flip := true, events := true, trc := true, outs := true } s (execQueueFlush a0 a1 a2 a3 s) := by
  unfold execQueueFlush
  refine WithinX.next ?_
  refine Within.ite ?_ ?_
  · refine State.finding_within _ rfl ?_ (fun _ => ?_)
    · exact Within.refl _ _
    refine Within.app (State.qFlush_within _ _) rfl ?_
    refine Within.app (State.linkErrs_within _ _) rfl ?_
    exact Within.refl _ _
  exact Within.refl _ _

theorem execQueuePut_within (a0) (a1) (a2) (a3) (a4) (s : State) :
    WithinX { rtrTx := true, rtrRx := true, qmg := true } s (execQueuePut a0 a1 a2 a3 a4 s) := by
  unfold execQueuePut
  refine WithinX.next ?_
  extract_lets +onlyGivenNames x
  refine Within.cut (x := x) ?_ ?_ <;> [(unfold x; clear x); (obtain ⟨y, e⟩ := named x; rewrite [← e]; clear e x; intro _)]
  · refine Within.app (State.consume_within _ _ _) rfl ?_
    exact Within.refl _ _
  refine Within.ite ?_ ?_
  · assumption
  extract_lets +onlyGivenNames x
  refine Within.cutF (x := x) ?_ ?_ <;> [(intro _; unfold x; clear x; try beta_reduce); (intro _; clear_value x)]
  · refine Within.app (State.sendPkt_within _ _ _ _ _ _) rfl ?_
    assumption
  extract_lets +onlyGivenNames x
  clear_value x
  refine Within.ite ?_ ?_
  · apply_assumption
  refine Within.ite ?_ ?_
  · refine Within.app (State.offer_within _ _ _ _) rfl ?_
    assumption
  apply_assumption

theorem execRecordRetry_within (a0) (s : State) :
    WithinX { pors := true, qmg := true } s (execRecordRetry a0 s) := by
  unfold execRecordRetry
  refine WithinX.next ?_
  refine Within.ite ?_ ?_
  · exact Within.refl _ _
  refine Within.foldl (fun _ _ => ?_) ?_
  · refine Within.ite ?_ ?_
    · refine Within.app (State.recOffer_within _ _ _) rfl ?_
      exact Within.refl _ _
    exact Within.refl _ _
  exact Within.refl _ _

theorem execResume_within (a0) (a1) (s : State) :
    WithinX { pors := true } s (execResume a0 a1 s) := by
  unfold execResume
  refine WithinX.next ?_
  refine Within.ite ?_ ?_
  · refine Within.app (State.porResume_within _ _) rfl ?_
    exact Within.refl _ _
  exact Within.refl _ _

end Sys2Proof.Machine
end

