-- ==== Sys2Proof/Laws/Walk.lean ====
section
/-! SUPPORT. For each operation of Machine/Walk.lean one lemma: which pieces of the state it can change, and that it keeps the
invariant of Safety.lean. -/

set_option Elab.async false

namespace Sys2Proof.Machine

theorem State.faultTo_within (s : State) (a1) (a2) (a3) :
    Within { free := true, due := true, trcCfg := true, irq := true, hsf := true, bisnps := true, links := true, pba := true, hreqs := true, accs := true, lse := true, rtrTx := true, pors := true, qmg := true, ledger := true, bkt := true, flip := true, events := true, trc := true, outs := true } s (State.faultTo s a1 a2 a3) := by
  unfold State.faultTo
  split
  · refine Within.app (State.hostFault_within _ _) rfl ?_
    exact Within.refl _ _
  · refine Within.app (State.porterFault_within _ _ _ _ _ _) rfl ?_
    exact Within.refl _ _
  exact Within.refl _ _

theorem State.modWalker_within (s : State) (a1) (a2) (a3) :
    Within { xlts := true } s (State.modWalker s a1 a2 a3) := by
  unfold State.modWalker
  extract_lets +onlyGivenNames x
  clear_value x
  refine Within.app (State.setXlt_within _ _ _) rfl ?_
  exact Within.refl _ _

theorem State.walkerGone_within (s : State) (a1) (a2) (a3) :
    Within { xlts := true } s (State.walkerGone s a1 a2 a3) := by
  unfold State.walkerGone
  extract_lets +onlyGivenNames x
  clear_value x
  extract_lets +onlyGivenNames x
  clear_value x
  refine Within.app (State.setXlt_within _ _ _) rfl ?_
  exact Within.refl _ _

theorem State.walkFault_within (s : State) (a1) (a2) (a3) :
    Within { free := true, due := true, trcCfg := true, irq := true, hsf := true, bisnps := true, links := true, pba := true, hreqs := true, accs := true, lse := true, xlts := true, rtrTx := true, pors := true, qmg := true, ledger := true, bkt := true, flip := true, events := true, trc := true, outs := true } s (State.walkFault s a1 a2 a3) := by
  unfold State.walkFault
  refine Within.ite ?_ ?_
  · refine Within.app (State.walkerGone_within _ _ _ _) rfl ?_
    refine Within.app (State.event_within _ _ _ _) rfl ?_
    exact Within.refl _ _
  extract_lets +onlyGivenNames x
  clear_value x
  extract_lets +onlyGivenNames x
  clear_value x
  extract_lets +onlyGivenNames x
  clear_value x
  extract_lets +onlyGivenNames x
  clear_value x
  extract_lets +onlyGivenNames x
  clear_value x
  extract_lets +onlyGivenNames x
  clear_value x
  extract_lets +onlyGivenNames x
  clear_value x
  extract_lets +onlyGivenNames x
  refine Within.cut (x := x) ?_ ?_ <;> [(unfold x; clear x); (obtain ⟨y, e⟩ := named x; rewrite [← e]; clear e x; intro _)]
  · refine Within.app (State.event_within _ _ _ _) rfl ?_
    refine Within.foldl (fun _ _ => ?_) ?_
    · refine Within.app (State.rec__within _ _ _ _ _ _) rfl ?_
      exact Within.refl _ _
    refine Within.app (State.setXlt_within _ _ _) rfl ?_
    exact Within.refl _ _
  extract_lets +onlyGivenNames x
  refine Within.cut (x := x) ?_ ?_ <;> [(unfold x; clear x); (obtain ⟨y, e⟩ := named x; rewrite [← e]; clear e x; intro _)]
  · refine Within.app (State.walkerGone_within _ _ _ _) rfl ?_
    assumption
  refine Within.foldl (fun _ _ => ?_) ?_
  · refine Within.app (State.faultTo_within _ _ _ _) rfl ?_
    exact Within.refl _ _
  assumption

theorem State.walkRead_within (s : State) (a1) (a2) :
    Within { free := true, due := true, trcCfg := true, irq := true, slices := true, hsf := true, bisnps := true, links := true, pba := true, hreqs := true, accs := true, lse := true, xlts := true, rtrTx := true, pors := true, qmg := true, ledger := true, bkt := true, flip := true, events := true, trc := true, outs := true } s (State.walkRead s a1 a2) := by
  unfold State.walkRead
  extract_lets +onlyGivenNames x
  clear_value x
  extract_lets +onlyGivenNames x
  clear_value x
  refine Within.ite ?_ ?_
  · refine Within.app (State.walkFault_within _ _ _ _) rfl ?_
    exact Within.refl _ _
  refine Within.ite ?_ ?_
  · refine Within.app (State.walkFault_within _ _ _ _) rfl ?_
    exact Within.refl _ _
  extract_lets +onlyGivenNames x
  clear_value x
  refine Within.app (State.toSlice_within _ _ _) rfl ?_
  refine Within.app (State.modWalker_within _ _ _ _) rfl ?_
  exact Within.refl _ _

theorem State.walkBegin_within (s : State) (a1) (a2) :
    Within { free := true, due := true, trcCfg := true, irq := true, slices := true, hsf := true, bisnps := true, links := true, pba := true, hreqs := true, accs := true, lse := true, xlts := true, rtrTx := true, pors := true, qmg := true, ledger := true, bkt := true, flip := true, events := true, trc := true, outs := true } s (State.walkBegin s a1 a2) := by
  unfold State.walkBegin
  extract_lets +onlyGivenNames x
  refine Within.cut (x := x) ?_ ?_ <;> [(unfold x; clear x); (obtain ⟨y, e⟩ := named x; rewrite [← e]; clear e x; intro _)]
  · refine Within.app (State.event_within _ _ _ _) rfl ?_
    exact Within.refl _ _
  extract_lets +onlyGivenNames x
  clear_value x
  refine Within.ite ?_ ?_
  · refine Within.app (State.walkFault_within _ _ _ _) rfl ?_
    assumption
  refine Within.ite ?_ ?_
  · refine Within.app (State.walkFault_within _ _ _ _) rfl ?_
    assumption
  extract_lets +onlyGivenNames x
  refine Within.cut (x := x) ?_ ?_ <;> [(unfold x; clear x); (obtain ⟨y, e⟩ := named x; rewrite [← e]; clear e x; intro _)]
  · refine Within.app (State.parity_within _ _ _ _ _ _) rfl ?_
    assumption
  split
  · extract_lets +onlyGivenNames x
    clear_value x
    extract_lets +onlyGivenNames x
    refine Within.cut (x := x) ?_ ?_ <;> [(unfold x; clear x); (obtain ⟨y, e⟩ := named x; rewrite [← e]; clear e x; intro _)]
    · refine Within.app (State.event_within _ _ _ _) rfl ?_
      refine Within.app (State.setXlt_within _ _ _) rfl ?_
      assumption
    extract_lets +onlyGivenNames x
    clear_value x
    refine Within.app (State.walkRead_within _ _ _) rfl ?_
    refine Within.app (State.modWalker_within _ _ _ _) rfl ?_
    assumption
  refine Within.app (State.walkRead_within _ _ _) rfl ?_
  assumption

theorem State.wcPut_within (s : State) (a1) (a2) (a3) (a4) :
    Within { xlts := true } s (State.wcPut s a1 a2 a3 a4) := by
  unfold State.wcPut
  refine Within.ite ?_ ?_
  · exact Within.refl _ _
  extract_lets +onlyGivenNames x
  clear_value x
  extract_lets +onlyGivenNames x
  clear_value x
  extract_lets +onlyGivenNames x
  clear_value x
  extract_lets +onlyGivenNames x
  clear_value x
  refine Within.app (State.setXlt_within _ _ _) rfl ?_
  exact Within.refl _ _

theorem State.walkLeaf_within (s : State) (a1) (a2) (a3) :
    Within { free := true, due := true, trcCfg := true, irq := true, slices := true, hsf := true, bisnps := true, links := true, pba := true, hreqs := true, accs := true, lse := true, fnc := true, xlts := true, xinv := true, pors := true, ledger := true, bkt := true, flip := true, events := true, trc := true, outs := true } s (State.walkLeaf s a1 a2 a3) := by
  unfold State.walkLeaf
  extract_lets +onlyGivenNames x
  clear_value x
  extract_lets +onlyGivenNames x
  clear_value x
  extract_lets +onlyGivenNames x
  clear_value x
  extract_lets +onlyGivenNames x
  clear_value x
  extract_lets +onlyGivenNames x
  refine Within.cut (x := x) ?_ ?_ <;> [(unfold x; clear x); (obtain ⟨y, e⟩ := named x; rewrite [← e]; clear e x; intro _)]
  · refine Within.ite ?_ ?_
    · refine Within.app (State.l2Put_within _ _ _) rfl ?_
      exact Within.refl _ _
    exact Within.refl _ _
  extract_lets +onlyGivenNames x
  refine Within.cut (x := x) ?_ ?_ <;> [(unfold x; clear x); (obtain ⟨y, e⟩ := named x; rewrite [← e]; clear e x; intro _)]
  · refine Within.app (State.walkerGone_within _ _ _ _) rfl ?_
    assumption
  refine Within.foldl (fun _ _ => ?_) ?_
  · extract_lets +onlyGivenNames x
    refine Within.cut (x := x) ?_ ?_ <;> [(unfold x; clear x); (obtain ⟨y, e⟩ := named x; rewrite [← e]; clear e x; intro _)]
    · refine Within.ite ?_ ?_
      · refine Within.app (State.l1Put_within _ _ _ _) rfl ?_
        exact Within.refl _ _
      exact Within.refl _ _
    split
    · refine Within.app (State.hostTranslated_within _ _ _ _) rfl ?_
      assumption
    · refine Within.app (State.porterTranslated_within _ _ _ _ _) rfl ?_
      assumption
    assumption
  assumption

theorem State.walkEntry_within (s : State) (a1) (a2) (a3) :
    Within { free := true, due := true, trcCfg := true, irq := true, slices := true, hsf := true, bisnps := true, links := true, pba := true, hreqs := true, accs := true, lse := true, fnc := true, xlts := true, xinv := true, rtrTx := true, pors := true, qmg := true, ledger := true, bkt := true, flip := true, events := true, trc := true, outs := true } s (State.walkEntry s a1 a2 a3) := by
  unfold State.walkEntry
  extract_lets +onlyGivenNames x
  clear_value x
  extract_lets +onlyGivenNames x
  refine Within.cut (x := x) ?_ ?_ <;> [(unfold x; clear x); (obtain ⟨y, e⟩ := named x; rewrite [← e]; clear e x; intro _)]
  · refine Within.app (State.modWalker_within _ _ _ _) rfl ?_
    exact Within.refl _ _
  refine Within.ite ?_ ?_
  · refine Within.app (State.walkFault_within _ _ _ _) rfl ?_
    assumption
  refine Within.ite ?_ ?_
  · refine Within.app (State.walkFault_within _ _ _ _) rfl ?_
    assumption
  refine Within.ite ?_ ?_
  · extract_lets +onlyGivenNames x
    clear_value x
    extract_lets +onlyGivenNames x
    refine Within.cut (x := x) ?_ ?_ <;> [(unfold x; clear x); (obtain ⟨y, e⟩ := named x; rewrite [← e]; clear e x; intro _)]
    · refine Within.app (State.wcPut_within _ _ _ _ _) rfl ?_
      assumption
    extract_lets +onlyGivenNames x
    clear_value x
    refine Within.app (State.walkRead_within _ _ _) rfl ?_
    refine Within.app (State.modWalker_within _ _ _ _) rfl ?_
    assumption
  refine Within.ite ?_ ?_
  · refine Within.app (State.walkFault_within _ _ _ _) rfl ?_
    assumption
  extract_lets +onlyGivenNames x
  clear_value x
  refine Within.ite ?_ ?_
  · refine Within.app (State.walkLeaf_within _ _ _ _) rfl ?_
    assumption
  refine Within.ite ?_ ?_
  · refine Within.app (State.walkFault_within _ _ _ _) rfl ?_
    assumption
  extract_lets +onlyGivenNames x
  clear_value x
  extract_lets +onlyGivenNames x
  clear_value x
  refine Within.app (State.toSlice_within _ _ _) rfl ?_
  refine Within.app (State.modWalker_within _ _ _ _) rfl ?_
  assumption

theorem execSpeculativeWalkStart_within (a0) (a1) (a2) (s : State) :
    WithinX { free := true, due := true, trcCfg := true, irq := true, slices := true, hsf := true, bisnps := true, links := true, pba := true, hreqs := true, nextRid := true, accs := true, lse := true, xlts := true, rtrTx := true, pors := true, qmg := true, ledger := true, bkt := true, flip := true, events := true, trc := true, outs := true } s (execSpeculativeWalkStart a0 a1 a2 s) := by
  unfold execSpeculativeWalkStart
  refine WithinX.next ?_
  refine State.finding_within _ rfl ?_ (fun _ => ?_)
  · exact Within.refl _ _
  refine Within.ite ?_ ?_
  · exact Within.refl _ _
  split
  · exact Within.refl _ _
  extract_lets +onlyGivenNames x
  clear_value x
  extract_lets +onlyGivenNames x
  clear_value x
  extract_lets +onlyGivenNames x
  clear_value x
  extract_lets +onlyGivenNames x
  clear_value x
  extract_lets +onlyGivenNames x
  clear_value x
  refine Within.ite ?_ ?_
  · exact Within.refl _ _
  split
  extract_lets +onlyGivenNames x
  clear_value x
  refine Within.app (State.walkBegin_within _ _ _) rfl ?_
  refine Within.app (State.setXlt_within _ _ _) rfl ?_
  refine WithinP.get (State.newId_within _) (by assumption) rfl ?_
  exact Within.refl _ _

theorem execTlbEntryAgeOut_within (a0) (s : State) :
    WithinX { xlts := true } s (execTlbEntryAgeOut a0 s) := by
  unfold execTlbEntryAgeOut
  refine WithinX.next ?_
  refine Within.ite ?_ ?_
  · refine Within.app (State.xltAge_within _ _) rfl ?_
    exact Within.refl _ _
  exact Within.refl _ _

theorem execWalkCasDone_within (a0) (a1) (s : State) :
    WithinX { free := true, due := true, trcCfg := true, irq := true, slices := true, hsf := true, bisnps := true, links := true, pba := true, hreqs := true, accs := true, lse := true, fnc := true, xlts := true, xinv := true, rtrTx := true, pors := true, qmg := true, ledger := true, bkt := true, flip := true, events := true, trc := true, outs := true } s (execWalkCasDone a0 a1 s) := by
  unfold execWalkCasDone
  refine WithinX.next ?_
  refine Within.ite ?_ ?_
  · exact Within.refl _ _
  split
  · exact Within.refl _ _
  split
  · refine Within.ite ?_ ?_
    · refine Within.app (State.walkFault_within _ _ _ _) rfl ?_
      exact Within.refl _ _
    refine Within.ite ?_ ?_
    · refine Within.app (State.walkFault_within _ _ _ _) rfl ?_
      exact Within.refl _ _
    refine Within.ite ?_ ?_
    · refine Within.app (State.walkLeaf_within _ _ _ _) rfl ?_
      exact Within.refl _ _
    refine Within.ite ?_ ?_
    · refine Within.app (State.walkFault_within _ _ _ _) rfl ?_
      exact Within.refl _ _
    extract_lets +onlyGivenNames x
    clear_value x
    extract_lets +onlyGivenNames x
    refine Within.cut (x := x) ?_ ?_ <;> [(unfold x; clear x); (obtain ⟨y, e⟩ := named x; rewrite [← e]; clear e x; intro _)]
    · refine Within.app (State.setXlt_within _ _ _) rfl ?_
      exact Within.refl _ _
    extract_lets +onlyGivenNames x
    clear_value x
    refine Within.app (State.walkRead_within _ _ _) rfl ?_
    refine Within.app (State.modWalker_within _ _ _ _) rfl ?_
    assumption
  exact Within.refl _ _

theorem execWalkLimit_within (a0) (a1) (s : State) :
    WithinX { free := true, due := true, trcCfg := true, irq := true, hsf := true, bisnps := true, links := true, pba := true, hreqs := true, accs := true, lse := true, xlts := true, rtrTx := true, pors := true, qmg := true, ledger := true, bkt := true, flip := true, events := true, trc := true, outs := true } s (execWalkLimit a0 a1 s) := by
  unfold execWalkLimit
  refine WithinX.next ?_
  refine Within.ite ?_ ?_
  · exact Within.refl _ _
  split
  · exact Within.refl _ _
  refine Within.ite ?_ ?_
  · exact Within.refl _ _
  refine Within.app (State.walkFault_within _ _ _ _) rfl ?_
  exact Within.refl _ _

theorem execWalkStart_within (a0) (a1) (s : State) :
    WithinX { free := true, due := true, trcCfg := true, irq := true, slices := true, hsf := true, bisnps := true, links := true, pba := true, hreqs := true, nextRid := true, accs := true, lse := true, xlts := true, rtrTx := true, pors := true, qmg := true, ledger := true, bkt := true, flip := true, events := true, trc := true, outs := true } s (execWalkStart a0 a1 s) := by
  unfold execWalkStart
  refine WithinX.next ?_
  refine State.finding_within _ rfl ?_ (fun _ => ?_)
  · exact Within.refl _ _
  refine Within.ite ?_ ?_
  · exact Within.refl _ _
  split
  · exact Within.refl _ _
  extract_lets +onlyGivenNames x
  clear_value x
  split
  · exact Within.refl _ _
  refine Within.ite ?_ ?_
  · exact Within.refl _ _
  split
  extract_lets +onlyGivenNames x
  clear_value x
  extract_lets +onlyGivenNames x
  clear_value x
  refine Within.app (State.walkBegin_within _ _ _) rfl ?_
  refine Within.app (State.setXlt_within _ _ _) rfl ?_
  refine WithinP.get (State.newId_within _) (by assumption) rfl ?_
  exact Within.refl _ _

theorem execWalkTableReadDone_within (a0) (a1) (s : State) :
    WithinX { free := true, due := true, trcCfg := true, irq := true, slices := true, hsf := true, bisnps := true, links := true, pba := true, hreqs := true, accs := true, lse := true, fnc := true, xlts := true, xinv := true, rtrTx := true, pors := true, qmg := true, ledger := true, bkt := true, flip := true, events := true, trc := true, outs := true } s (execWalkTableReadDone a0 a1 s) := by
  unfold execWalkTableReadDone
  refine WithinX.next ?_
  refine Within.ite ?_ ?_
  · exact Within.refl _ _
  split
  · exact Within.refl _ _
  split
  · exact Within.refl _ _
  refine Within.ite ?_ ?_
  · exact Within.refl _ _
  refine Within.ite ?_ ?_
  · refine Within.app (State.walkFault_within _ _ _ _) rfl ?_
    exact Within.refl _ _
  refine Within.ite ?_ ?_
  · refine Within.app (State.walkFault_within _ _ _ _) rfl ?_
    exact Within.refl _ _
  refine Within.app (State.walkEntry_within _ _ _ _) rfl ?_
  exact Within.refl _ _

end Sys2Proof.Machine
end

