-- ==== Sys2Proof/Laws/Mgmt.lean ====
section
/-! SUPPORT. For each operation of Machine/Mgmt.lean one lemma: which pieces of the state it can change, and that it keeps the
invariant of Safety.lean. -/

set_option Elab.async false

namespace Sys2Proof.Machine

theorem State.sendFragments_within (s : State) (a1) (a2) (a3) :
    Within { rtrTx := true } s (State.sendFragments s a1 a2 a3) := by
  unfold State.sendFragments
  extract_lets +onlyGivenNames x
  clear_value x
  refine Within.foldl (fun _ _ => ?_) ?_
  · refine Within.app (State.sendPkt_within _ _ _ _ _ _) rfl ?_
    exact Within.refl _ _
  exact Within.refl _ _

theorem State.carry_within (s : State) (a1) (a2) (a3) (a4) :
    Within { rtrTx := true, outs := true } s (State.carry s a1 a2 a3 a4) := by
  unfold State.carry
  split
  · refine Within.app (State.emit_within _ _) rfl ?_
    exact Within.refl _ _
  · refine Within.app (State.emit_within _ _) rfl ?_
    exact Within.refl _ _
  refine Within.app (State.sendFragments_within _ _ _ _) rfl ?_
  exact Within.refl _ _

theorem State.cmdReply_within (s : State) (a1) (a2) (a3) (a4) :
    Within { links := true, pba := true, rtrTx := true, outs := true } s (State.cmdReply s a1 a2 a3 a4) := by
  unfold State.cmdReply
  extract_lets +onlyGivenNames x
  clear_value x
  split
  · refine Within.app (State.signal_within _ _ _) rfl ?_
    refine Within.app (State.carry_within _ _ _ _ _) rfl ?_
    refine Within.app (State.modLink_within _ _ _) rfl ?_
    exact Within.refl _ _
  refine Within.app (State.carry_within _ _ _ _ _) rfl ?_
  exact Within.refl _ _

theorem State.cmdEnd_within (s : State) (a1) (a2) (a3) :
    Within { links := true, pba := true, rtrTx := true, mgtq := true, events := true, outs := true } s (State.cmdEnd s a1 a2 a3) := by
  unfold State.cmdEnd
  split
  · exact Within.refl _ _
  · refine Within.app (State.event_within _ _ _ _) rfl (Within.app (State.cmdReply_within _ _ _ _ _) rfl ?_)
    with_reducible (apply Within.upd; (on_goal 1 => first | assumption | exact Within.refl _ _); all_goals try first | exact .inl rfl | exact .inr rfl | exact id)
    exact MgtI.of id id id fun h => Nat.le_trans (List.length_filter_le _ _) h

theorem State.i3cAssign_within (s : State) (a1) (a2) :
    Within { mgt := true } s (State.i3cAssign s a1 a2) := by
  unfold State.i3cAssign
  refine Within.ite ?_ ?_
  · exact Within.refl _ _
  with_reducible (apply Within.upd <;> try first | exact .inl rfl | exact .inr rfl | exact id | assumption | exact Within.refl _ _)
  extract_lets +onlyGivenNames x
  with_reducible refine MgtI.of ?_ ?_ ?_ ?_ <;> try exact id

end Sys2Proof.Machine
end

