-- ==== Sys2Proof/Laws/Fabric.lean ====
section
/-! SUPPORT. For each operation of Machine/Fabric.lean one lemma: which pieces of the state it can change, and that it keeps the
invariant of Safety.lean. -/

set_option Elab.async false

namespace Sys2Proof.Machine

theorem State.modPort_within (s : State) (a1) (a2) :
    Within { ports := true } s (State.modPort s a1 a2) := by
  unfold State.modPort
  refine Within.app (State.setPort_within _ _ _) rfl ?_
  exact Within.refl _ _

theorem State.creditBack_within (s : State) (a1) (a2) :
    Within { ports := true } s (State.creditBack s a1 a2) := by
  unfold State.creditBack
  refine Within.app (State.modPort_within _ _ _) rfl ?_
  exact Within.refl _ _

theorem State.deliver_within (s : State) (a1) :
    Within { trcCfg := true, irq := true, pba := true, rtrRx := true, rtrUn := true, ledger := true, events := true, trc := true, outs := true } s (State.deliver s a1) := by
  unfold State.deliver
  extract_lets +onlyGivenNames x
  extract_lets +onlyGivenNames x
  refine Within.cut (x := x) ?_ ?_ <;> [(unfold x; clear x); (obtain ⟨y, e⟩ := named x; rewrite [← e]; clear e x; intro _)]
  · with_reducible (apply Within.upd <;> try first | exact .inl rfl | exact .inr rfl | exact id | assumption | exact Within.refl _ _)
  refine Within.ite ?_ ?_
  · refine Within.app (State.rec__within _ _ _ _ _ _) rfl ?_
    assumption
  split
  · refine Within.ite ?_ ?_
    · assumption
    with_reducible (apply Within.upd <;> try first | exact .inl rfl | exact .inr rfl | exact id | assumption | exact Within.refl _ _)
  with_reducible (apply Within.upd <;> try first | exact .inl rfl | exact .inr rfl | exact id | assumption | exact Within.refl _ _)

theorem State.globLost_within (s : State) (a1) :
    Within { free := true, finds := true, due := true, trcCfg := true, irq := true, slices := true, banks := true, chans := true, far := true, near := true, memIo := true, hsf := true, bisnps := true, links := true, pba := true, hreqs := true, accs := true, fnc := true, xlts := true, xinv := true, rtrTx := true, dom := true, pors := true, ledger := true, bkt := true, flip := true, ras := true, mgt := true, events := true, trc := true, outs := true } s (State.globLost s a1) := by
  unfold State.globLost
  extract_lets +onlyGivenNames x
  clear_value x
  split
  · extract_lets +onlyGivenNames x
    refine Within.cut (x := x) ?_ ?_ <;> [(unfold x; clear x); (obtain ⟨y, e⟩ := named x; rewrite [← e]; clear e x; intro _)]
    · refine Within.app (State.rec__within _ _ _ _ _ _) rfl ?_
      refine Within.app (State.wakeVb_within _ _) rfl ?_
      refine Within.app (State.vbFree_within _ _ _) rfl ?_
      exact Within.refl _ _
    refine Within.ite ?_ ?_
    · refine Within.app (State.release_within _ _ _ _) rfl ?_
      assumption
    assumption
  split
  · refine Within.app (State.mrEnd_within _ _ _ _) rfl ?_
    exact Within.refl _ _
  refine Within.app (State.outEnd_within _ _ _ _ _) rfl ?_
  exact Within.refl _ _

theorem State.inTurn_within (a0) (a1) (s : State) :
    Within { trcCfg := true, irq := true, pba := true, rtrTx := true, rtrRx := true, rtrUn := true, rtr := true, ledger := true, events := true, trc := true, outs := true } s (State.inTurn a0 a1 s) := by
  induction a0 generalizing s with
  | zero => unfold State.inTurn; exact Within.refl _ _
  | succ k ih =>
    unfold State.inTurn
    extract_lets +onlyGivenNames x
    clear_value x
    split
    · exact Within.refl _ _
    extract_lets +onlyGivenNames x
    extract_lets +onlyGivenNames x
    refine Within.trans ?_ (ih ..)
    refine Within.app (State.deliver_within _ _) rfl ?_
    with_reducible (apply Within.upd <;> try first | exact .inl rfl | exact .inr rfl | exact id | assumption | exact Within.refl _ _)

theorem State.requeue_within (s : State) (a1) :
    Within { rtrTx := true } s (State.requeue s a1) := by
  unfold State.requeue
  with_reducible (apply Within.upd <;> try first | exact .inl rfl | exact .inr rfl | exact id | assumption | exact Within.refl _ _)

theorem State.linkDown_within (s : State) (a1) (a2) (a3) :
    Within { trcCfg := true, irq := true, pba := true, ports := true, rtrTx := true, mtu := true, ledger := true, events := true, trc := true, outs := true } s (State.linkDown s a1 a2 a3) := by
  unfold State.linkDown
  extract_lets +onlyGivenNames x
  clear_value x
  refine Within.ite ?_ ?_
  · exact Within.refl _ _
  extract_lets +onlyGivenNames x
  clear_value x
  extract_lets +onlyGivenNames x
  clear_value x
  extract_lets +onlyGivenNames x
  clear_value x
  extract_lets +onlyGivenNames x
  refine Within.cut (x := x) ?_ ?_ <;> [(unfold x; clear x); (obtain ⟨y, e⟩ := named x; rewrite [← e]; clear e x; intro _)]
  · refine Within.app (State.rec__within _ _ _ _ _ _) rfl ?_
    refine Within.app (State.setPort_within _ _ _) rfl ?_
    exact Within.refl _ _
  extract_lets +onlyGivenNames x
  extract_lets +onlyGivenNames x
  refine Within.cut (x := x) ?_ ?_ <;> [(unfold x; clear x); (obtain ⟨y, e⟩ := named x; rewrite [← e]; clear e x; intro _)]
  · with_reducible (apply Within.upd <;> try first | exact .inl rfl | exact .inr rfl | exact id | assumption | exact Within.refl _ _)
  extract_lets +onlyGivenNames x
  refine Within.cut (x := x) ?_ ?_ <;> [(unfold x; clear x); (obtain ⟨y, e⟩ := named x; rewrite [← e]; clear e x; intro _)]
  · refine Within.app (State.restrata_within _) rfl ?_
    refine Within.app (State.requeue_within _ _) rfl ?_
    assumption
  refine Within.ite ?_ ?_
  · refine Within.app (State.sendPkt_within _ _ _ _ _ _) rfl ?_
    assumption
  assumption

theorem State.measured_within (s : State) (a1) :
    Within { trcCfg := true, irq := true, chans := true, pba := true, hreqs := true, mt := true, mtu := true, ledger := true, events := true, trc := true, outs := true } s (State.measured s a1) := by
  unfold State.measured
  extract_lets +onlyGivenNames x
  clear_value x
  extract_lets +onlyGivenNames x
  clear_value x
  extract_lets +onlyGivenNames x
  extract_lets +onlyGivenNames x
  extract_lets +onlyGivenNames x
  refine Within.cut (x := x) ?_ ?_ <;> [(unfold x; clear x); (obtain ⟨y, e⟩ := named x; rewrite [← e]; clear e x; intro _)]
  · with_reducible (apply Within.upd <;> try first | exact .inl rfl | exact .inr rfl | exact id | assumption | exact Within.refl _ _)
    (unfold x)
    with_reducible refine MtuI.of ?_ <;> try exact id
  refine Within.ite ?_ ?_
  · refine Within.app (State.setLock_within _ _) rfl ?_
    with_reducible (apply Within.upd <;> try first | exact .inl rfl | exact .inr rfl | exact id | assumption | exact Within.refl _ _)
    extract_lets +onlyGivenNames x
    with_reducible refine MtuI.of ?_ <;> try exact id
  refine Within.ite ?_ ?_
  · refine Within.app (State.tryLock_within _ _) rfl ?_
    assumption
  assumption

theorem State.nakTake_within (s : State) (a1) (a2) :
    Within { ports := true } s (State.nakTake s a1 a2) := by
  unfold State.nakTake
  extract_lets +onlyGivenNames x
  clear_value x
  refine Within.app (State.setPort_within _ _ _) rfl ?_
  exact Within.refl _ _

theorem State.releaseSrc_within (s : State) (a1) (a2) :
    Within { trcCfg := true, irq := true, pba := true, rtrTx := true, rtrRx := true, rtrUn := true, rtr := true, ledger := true, events := true, trc := true, outs := true } s (State.releaseSrc s a1 a2) := by
  unfold State.releaseSrc
  extract_lets +onlyGivenNames x
  clear_value x
  extract_lets +onlyGivenNames x
  clear_value x
  extract_lets +onlyGivenNames x
  extract_lets +onlyGivenNames x
  clear_value x
  extract_lets +onlyGivenNames x
  clear_value x
  extract_lets +onlyGivenNames x
  refine Within.foldl (fun _ _ => ?_) ?_
  · refine Within.app (State.deliver_within _ _) rfl ?_
    exact Within.refl _ _
  refine Within.app (State.rec__within _ _ _ _ _ _) rfl ?_
  with_reducible (apply Within.upd <;> try first | exact .inl rfl | exact .inr rfl | exact id | assumption | exact Within.refl _ _)

theorem State.ordered_within (s : State) (a1) :
    Within { trcCfg := true, irq := true, pba := true, rtrTx := true, rtrRx := true, rtrUn := true, rtr := true, ledger := true, events := true, trc := true, outs := true } s (State.ordered s a1) := by
  unfold State.ordered
  extract_lets +onlyGivenNames x
  clear_value x
  extract_lets +onlyGivenNames x
  clear_value x
  refine Within.ite ?_ ?_
  · extract_lets +onlyGivenNames x
    extract_lets +onlyGivenNames x
    refine Within.cut (x := x) ?_ ?_ <;> [(unfold x; clear x); (obtain ⟨y, e⟩ := named x; rewrite [← e]; clear e x; intro _)]
    · with_reducible (apply Within.upd <;> try first | exact .inl rfl | exact .inr rfl | exact id | assumption | exact Within.refl _ _)
    refine Within.app (State.inTurn_within _ _ _) rfl ?_
    refine Within.app (State.deliver_within _ _) rfl ?_
    assumption
  refine Within.ite ?_ ?_
  · refine Within.ite ?_ ?_
    · with_reducible (apply Within.upd <;> try first | exact .inl rfl | exact .inr rfl | exact id | assumption | exact Within.refl _ _)
    split
    · exact Within.refl _ _
    refine Within.ite ?_ ?_
    · refine Within.app (State.releaseSrc_within _ _ _) rfl ?_
      exact Within.refl _ _
    extract_lets +onlyGivenNames x
    refine Within.cut (x := x) ?_ ?_ <;> [(unfold x; clear x); (obtain ⟨y, e⟩ := named x; rewrite [← e]; clear e x; intro _)]
    · refine Within.app (State.releaseSrc_within _ _ _) rfl ?_
      exact Within.refl _ _
    with_reducible (apply Within.upd <;> try first | exact .inl rfl | exact .inr rfl | exact id | assumption | exact Within.refl _ _)
  extract_lets +onlyGivenNames x
  refine Within.cut (x := x) ?_ ?_ <;> [(unfold x; clear x); (obtain ⟨y, e⟩ := named x; rewrite [← e]; clear e x; intro _)]
  · refine Within.app (State.deliver_within _ _) rfl ?_
    refine Within.app (State.releaseSrc_within _ _ _) rfl ?_
    exact Within.refl _ _
  with_reducible (apply Within.upd <;> try first | exact .inl rfl | exact .inr rfl | exact id | assumption | exact Within.refl _ _)

theorem State.tracePkt_within (s : State) (a1) (a2) (a3) :
    Within { trcCfg := true, trc := true } s (State.tracePkt s a1 a2 a3) := by
  unfold State.tracePkt
  extract_lets +onlyGivenNames x
  clear_value x
  extract_lets +onlyGivenNames x
  clear_value x
  extract_lets +onlyGivenNames x
  clear_value x
  split
  · refine Within.app (State.trace_within _ _ _ _ _ _ _ _) rfl ?_
    exact Within.refl _ _
  refine Within.app (State.trace_within _ _ _ _ _ _ _ _) rfl ?_
  exact Within.refl _ _

theorem State.pktIn_within (s : State) (a1) (a2) (a3) :
    Within { trcCfg := true, ports := true, rtrTx := true, rtrRx := true, trc := true } s (State.pktIn s a1 a2 a3) := by
  unfold State.pktIn
  extract_lets +onlyGivenNames x
  refine Within.cut (x := x) ?_ ?_ <;> [(unfold x; clear x); (obtain ⟨y, e⟩ := named x; rewrite [← e]; clear e x; intro _)]
  · refine Within.app (State.tracePkt_within _ _ _ _) rfl ?_
    exact Within.refl _ _
  refine Within.ite ?_ ?_
  · extract_lets +onlyGivenNames x
    refine Within.cut (x := x) ?_ ?_ <;> [(unfold x; clear x); (obtain ⟨y, e⟩ := named x; rewrite [← e]; clear e x; intro _)]
    · refine Within.app (State.creditBack_within _ _ _) rfl ?_
      assumption
    refine Within.ite ?_ ?_
    · assumption
    extract_lets +onlyGivenNames x
    extract_lets +onlyGivenNames x
    refine Within.cut (x := x) ?_ ?_ <;> [(unfold x; clear x); (obtain ⟨y, e⟩ := named x; rewrite [← e]; clear e x; intro _)]
    · with_reducible (apply Within.upd <;> try first | exact .inl rfl | exact .inr rfl | exact id | assumption | exact Within.refl _ _)
    split
    · refine Within.app (State.modPort_within _ _ _) rfl ?_
      assumption
    assumption
  refine Within.ite ?_ ?_
  · refine Within.app (State.creditBack_within _ _ _) rfl ?_
    assumption
  with_reducible (apply Within.upd <;> try first | exact .inl rfl | exact .inr rfl | exact id | assumption | exact Within.refl _ _)

theorem State.portEnable_within (s : State) (a1) (a2) :
    Within { csr := true, trcCfg := true, irq := true, pba := true, ports := true, rtrTx := true, mtu := true, ledger := true, events := true, trc := true, outs := true } s (State.portEnable s a1 a2) := by
  unfold State.portEnable
  extract_lets +onlyGivenNames x
  refine Within.cut (x := x) ?_ ?_ <;> [(unfold x; clear x); (obtain ⟨y, e⟩ := named x; rewrite [← e]; clear e x; intro _)]
  · refine Within.app (State.csrPut_within _ _ _) rfl ?_
    exact Within.refl _ _
  refine Within.ite ?_ ?_
  · refine Within.app (State.modPort_within _ _ _) rfl ?_
    assumption
  refine Within.app (State.modPort_within _ _ _) rfl ?_
  refine Within.app (State.linkDown_within _ _ _ _) rfl ?_
  assumption

theorem State.portRetrain_within (s : State) (a1) :
    Within { trcCfg := true, irq := true, pba := true, ports := true, rtrTx := true, mtu := true, ledger := true, events := true, trc := true, outs := true } s (State.portRetrain s a1) := by
  unfold State.portRetrain
  refine Within.app (State.linkDown_within _ _ _ _) rfl ?_
  exact Within.refl _ _

theorem State.tryActive_within (s : State) (a1) :
    Within { trcCfg := true, irq := true, pba := true, ports := true, ledger := true, events := true, trc := true, outs := true } s (State.tryActive s a1) := by
  unfold State.tryActive
  extract_lets +onlyGivenNames x
  clear_value x
  refine Within.ite ?_ ?_
  · exact Within.refl _ _
  refine Within.ite ?_ ?_
  · refine Within.app (State.rec__within _ _ _ _ _ _) rfl ?_
    refine Within.app (State.setPort_within _ _ _) rfl ?_
    exact Within.refl _ _
  refine Within.ite ?_ ?_
  · refine Within.app (State.setPort_within _ _ _) rfl ?_
    exact Within.refl _ _
  exact Within.refl _ _

theorem State.sendIdent_within (s : State) (a1) :
    Within { ports := true, outs := true } s (State.sendIdent s a1) := by
  unfold State.sendIdent
  refine Within.app (State.emit_within _ _) rfl ?_
  refine Within.app (State.modPort_within _ _ _) rfl ?_
  exact Within.refl _ _

theorem State.portsStep5_within (s : State) :
    Within { trcCfg := true, irq := true, pba := true, ports := true, ledger := true, events := true, trc := true, outs := true } s (State.portsStep5 s) := by
  unfold State.portsStep5
  refine Within.foldl (fun _ _ => ?_) ?_
  · refine Within.ite ?_ ?_
    · refine Within.app (State.tryActive_within _ _) rfl ?_
      refine Within.app (State.sendIdent_within _ _) rfl ?_
      exact Within.refl _ _
    exact Within.refl _ _
  exact Within.refl _ _

theorem State.replayed_within (s : State) (a1) (a2) :
    Within { trcCfg := true, irq := true, pba := true, ports := true, rtrTx := true, mtu := true, ledger := true, events := true, trc := true, outs := true } s (State.replayed s a1 a2) := by
  unfold State.replayed
  extract_lets +onlyGivenNames x
  clear_value x
  refine Within.ite ?_ ?_
  · exact Within.refl _ _
  extract_lets +onlyGivenNames x
  clear_value x
  extract_lets +onlyGivenNames x
  clear_value x
  extract_lets +onlyGivenNames x
  refine Within.cut (x := x) ?_ ?_ <;> [(unfold x; clear x); (obtain ⟨y, e⟩ := named x; rewrite [← e]; clear e x; intro _)]
  · refine Within.app (State.setPort_within _ _ _) rfl ?_
    exact Within.refl _ _
  refine Within.ite ?_ ?_
  · refine Within.app (State.linkDown_within _ _ _ _) rfl ?_
    assumption
  refine Within.ite ?_ ?_
  · refine Within.app (State.linkDown_within _ _ _ _) rfl ?_
    assumption
  assumption

theorem State.routeDiscard_within (s : State) (a1) (a2) :
    Within { trcCfg := true, irq := true, pba := true, rtrTx := true, rtrRx := true, rtrUn := true, rtr := true, ledger := true, events := true, trc := true, outs := true } s (State.routeDiscard s a1 a2) := by
  unfold State.routeDiscard
  extract_lets +onlyGivenNames x
  extract_lets +onlyGivenNames x
  extract_lets +onlyGivenNames x
  refine Within.cut (x := x) ?_ ?_ <;> [(unfold x; clear x); (obtain ⟨y, e⟩ := named x; rewrite [← e]; clear e x; intro _)]
  · refine Within.app (State.rec__within _ _ _ _ _ _) rfl ?_
    with_reducible (apply Within.upd <;> try first | exact .inl rfl | exact .inr rfl | exact id | assumption | exact Within.refl _ _)
  extract_lets +onlyGivenNames x
  refine Within.cut (x := x) ?_ ?_ <;> [(unfold x; clear x); (obtain ⟨y, e⟩ := named x; rewrite [← e]; clear e x; intro _)]
  · refine Within.ite ?_ ?_
    · refine Within.app (State.event_within _ _ _ _) rfl ?_
      assumption
    assumption
  refine Within.ite ?_ ?_
  · refine Within.app (State.sendPkt_within _ _ _ _ _ _) rfl ?_
    assumption
  assumption

theorem State.sendFlit_within (s : State) (a1) (a2) (a3) (a4) :
    Within { ports := true, outs := true } s (State.sendFlit s a1 a2 a3 a4) := by
  unfold State.sendFlit
  extract_lets +onlyGivenNames x
  clear_value x
  split
  extract_lets +onlyGivenNames x
  clear_value x
  refine Within.app (State.emit_within _ _) rfl ?_
  refine Within.app (State.setPort_within _ _ _) rfl ?_
  exact Within.refl _ _

theorem State.sendTime_within (s : State) (a1) (a2) :
    Within { ports := true } s (State.sendTime s a1 a2) := by
  unfold State.sendTime
  refine Within.app (State.modPort_within _ _ _) rfl ?_
  exact Within.refl _ _

theorem State.settle_within (s : State) (a1) (a2) :
    Within { ports := true, rtrTx := true } s (State.settle s a1 a2) := by
  unfold State.settle
  extract_lets +onlyGivenNames x
  clear_value x
  refine Within.ite ?_ ?_
  · exact Within.refl _ _
  extract_lets +onlyGivenNames x
  clear_value x
  refine Within.app (State.requeue_within _ _) rfl ?_
  refine Within.app (State.setPort_within _ _ _) rfl ?_
  exact Within.refl _ _

theorem execFlit_within (a0) (a1) (s : State) :
    WithinX { trcCfg := true, ports := true, rtrTx := true, rtrRx := true, events := true, trc := true } s (execFlit a0 a1 s) := by
  unfold execFlit
  refine WithinX.next ?_
  refine Within.ite ?_ ?_
  · exact Within.refl _ _
  split
  extract_lets +onlyGivenNames x
  refine Within.cut (x := x) ?_ ?_ <;> [(unfold x; clear x); (obtain ⟨y, e⟩ := named x; rewrite [← e]; clear e x; intro _)]
  · refine Within.ite ?_ ?_
    · refine Within.app (State.event_within _ _ _ _) rfl ?_
      refine Within.app (State.modPort_within _ _ _) rfl ?_
      exact Within.refl _ _
    exact Within.refl _ _
  refine Within.ite ?_ ?_
  · refine Within.app (State.modPort_within _ _ _) rfl ?_
    assumption
  extract_lets +onlyGivenNames x
  clear_value x
  extract_lets +onlyGivenNames x
  clear_value x
  extract_lets +onlyGivenNames x
  refine Within.cut (x := x) ?_ ?_ <;> [(unfold x; clear x); (obtain ⟨y, e⟩ := named x; rewrite [← e]; clear e x; intro _)]
  · refine Within.app (State.modPort_within _ _ _) rfl ?_
    assumption
  refine Within.ite ?_ ?_
  · refine Within.app (State.nakTake_within _ _ _) rfl ?_
    assumption
  refine Within.ite ?_ ?_
  · assumption
  extract_lets +onlyGivenNames x
  clear_value x
  refine Within.ite ?_ ?_
  · extract_lets +onlyGivenNames x
    clear_value x
    extract_lets +onlyGivenNames x
    refine Within.cut (x := x) ?_ ?_ <;> [(unfold x; clear x); (obtain ⟨y, e⟩ := named x; rewrite [← e]; clear e x; intro _)]
    · refine Within.app (State.event_within _ _ _ _) rfl ?_
      refine Within.app (State.setPort_within _ _ _) rfl ?_
      assumption
    refine Within.foldl (fun _ _ => ?_) ?_
    · refine Within.app (State.pktIn_within _ _ _ _) rfl ?_
      exact Within.refl _ _
    assumption
  refine Within.ite ?_ ?_
  · assumption
  refine Within.app (State.setPort_within _ _ _) rfl ?_
  assumption

theorem execFlitPack_within (a0) (s : State) :
    WithinX { trcCfg := true, irq := true, pba := true, ports := true, rtrTx := true, mtu := true, ledger := true, events := true, trc := true, outs := true } s (execFlitPack a0 s) := by
  unfold execFlitPack
  refine WithinX.next ?_
  refine Within.ite ?_ ?_
  · exact Within.refl _ _
  extract_lets +onlyGivenNames x
  clear_value x
  refine Within.ite ?_ ?_
  · refine Within.app (State.sendFlit_within _ _ _ _ _) rfl ?_
    refine Within.app (State.setPort_within _ _ _) rfl ?_
    exact Within.refl _ _
  refine Within.ite ?_ ?_
  · refine Within.app (State.sendFlit_within _ _ _ _ _) rfl ?_
    exact Within.refl _ _
  split
  · extract_lets +onlyGivenNames x
    clear_value x
    extract_lets +onlyGivenNames x
    clear_value x
    refine Within.app (State.replayed_within _ _ _) rfl ?_
    refine Within.app (State.sendFlit_within _ _ _ _ _) rfl ?_
    refine Within.app (State.event_within _ _ _ _) rfl ?_
    refine Within.app (State.setPort_within _ _ _) rfl ?_
    exact Within.refl _ _
  split
  extract_lets +onlyGivenNames x
  refine Within.cut (x := x) ?_ ?_ <;> [(unfold x; clear x); (obtain ⟨y, e⟩ := named x; rewrite [← e]; clear e x; intro _)]
  · refine Within.ite ?_ ?_
    · exact Within.refl _ _
    refine Within.app (State.event_within _ _ _ _) rfl ?_
    exact Within.refl _ _
  refine Within.ite ?_ ?_
  · refine Within.app (State.sendFlit_within _ _ _ _ _) rfl ?_
    assumption
  extract_lets +onlyGivenNames x
  clear_value x
  extract_lets +onlyGivenNames x
  clear_value x
  extract_lets +onlyGivenNames x
  refine Within.cut (x := x) ?_ ?_ <;> [(unfold x; clear x); (obtain ⟨y, e⟩ := named x; rewrite [← e]; clear e x; intro _)]
  · refine Within.foldl (fun _ _ => ?_) ?_
    · refine Within.app (State.tracePkt_within _ _ _ _) rfl ?_
      exact Within.refl _ _
    assumption
  refine Within.app (State.sendFlit_within _ _ _ _ _) rfl ?_
  refine Within.app (State.event_within _ _ _ _) rfl ?_
  refine Within.app (State.setPort_within _ _ _) rfl ?_
  assumption

theorem execIdentBlock_within (a0) (a1) (s : State) :
    WithinX { trcCfg := true, irq := true, pba := true, ports := true, rtrTx := true, ledger := true, events := true, trc := true, outs := true } s (execIdentBlock a0 a1 s) := by
  unfold execIdentBlock
  refine WithinX.next ?_
  refine Within.ite ?_ ?_
  · exact Within.refl _ _
  extract_lets +onlyGivenNames x
  refine Within.cut (x := x) ?_ ?_ <;> [(unfold x; clear x); (obtain ⟨y, e⟩ := named x; rewrite [← e]; clear e x; intro _)]
  · refine Within.app (State.settle_within _ _ _) rfl ?_
    exact Within.refl _ _
  refine Within.ite ?_ ?_
  · refine Within.app (State.tryActive_within _ _) rfl ?_
    refine Within.app (State.modPort_within _ _ _) rfl ?_
    assumption
  assumption

theorem execLaneLockLost_within (a0) (s : State) :
    WithinX { trcCfg := true, irq := true, pba := true, ports := true, rtrTx := true, mtu := true, ledger := true, events := true, trc := true, outs := true } s (execLaneLockLost a0 s) := by
  unfold execLaneLockLost
  refine WithinX.next ?_
  refine Within.ite ?_ ?_
  · refine Within.app (State.linkDown_within _ _ _ _) rfl ?_
    exact Within.refl _ _
  exact Within.refl _ _

theorem execLinkReport_within (a0) (a1) (a2) (a3) (s : State) :
    WithinX { ports := true, rtrTx := true, rtrRx := true } s (execLinkReport a0 a1 a2 a3 s) := by
  unfold execLinkReport
  refine WithinX.next ?_
  extract_lets +onlyGivenNames x
  refine Within.cut (x := x) ?_ ?_ <;> [(unfold x; clear x); (obtain ⟨y, e⟩ := named x; rewrite [← e]; clear e x; intro _)]
  · refine Within.app (State.consume_within _ _ _) rfl ?_
    exact Within.refl _ _
  extract_lets +onlyGivenNames x
  clear_value x
  refine Within.ite ?_ ?_
  · refine Within.app (State.settle_within _ _ _) rfl ?_
    assumption
  assumption

theorem execLinkReportTimeout_within (a0) (s : State) :
    WithinX { trcCfg := true, irq := true, pba := true, ports := true, ledger := true, events := true, trc := true, outs := true } s (execLinkReportTimeout a0 s) := by
  unfold execLinkReportTimeout
  refine WithinX.next ?_
  refine Within.ite ?_ ?_
  · exact Within.refl _ _
  extract_lets +onlyGivenNames x
  clear_value x
  split
  · exact Within.refl _ _
  refine Within.ite ?_ ?_
  · exact Within.refl _ _
  refine Within.app (State.rec__within _ _ _ _ _ _) rfl ?_
  refine Within.app (State.setPort_within _ _ _) rfl ?_
  exact Within.refl _ _

theorem execNak_within (a0) (a1) (s : State) :
    WithinX { ports := true } s (execNak a0 a1 s) := by
  unfold execNak
  refine WithinX.next ?_
  refine Within.ite ?_ ?_
  · refine Within.app (State.nakTake_within _ _ _) rfl ?_
    exact Within.refl _ _
  exact Within.refl _ _

theorem execNoFlitTimeout_within (a0) (s : State) :
    WithinX { trcCfg := true, irq := true, pba := true, ports := true, rtrTx := true, mtu := true, ledger := true, events := true, trc := true, outs := true } s (execNoFlitTimeout a0 s) := by
  unfold execNoFlitTimeout
  refine WithinX.next ?_
  refine Within.ite ?_ ?_
  · refine Within.app (State.linkDown_within _ _ _ _) rfl ?_
    exact Within.refl _ _
  exact Within.refl _ _

theorem execOseqGapTimeout_within (a0) (s : State) :
    WithinX { trcCfg := true, irq := true, pba := true, rtrTx := true, rtrRx := true, rtrUn := true, rtr := true, ledger := true, events := true, trc := true, outs := true } s (execOseqGapTimeout a0 s) := by
  unfold execOseqGapTimeout
  refine WithinX.next ?_
  refine Within.ite ?_ ?_
  · refine Within.app (State.releaseSrc_within _ _ _) rfl ?_
    exact Within.refl _ _
  exact Within.refl _ _

theorem execPortEnableWrite_within (a0) (a1) (s : State) :
    WithinX { csr := true, trcCfg := true, irq := true, pba := true, ports := true, rtrTx := true, mtu := true, ledger := true, events := true, trc := true, outs := true } s (execPortEnableWrite a0 a1 s) := by
  unfold execPortEnableWrite
  refine WithinX.next ?_
  refine Within.ite ?_ ?_
  · refine Within.app (State.portEnable_within _ _ _) rfl ?_
    exact Within.refl _ _
  exact Within.refl _ _

theorem execRetrain_within (a0) (s : State) :
    WithinX { trcCfg := true, irq := true, pba := true, ports := true, rtrTx := true, mtu := true, ledger := true, events := true, trc := true, outs := true } s (execRetrain a0 s) := by
  unfold execRetrain
  refine WithinX.next ?_
  refine Within.ite ?_ ?_
  · refine Within.app (State.portRetrain_within _ _) rfl ?_
    exact Within.refl _ _
  exact Within.refl _ _

theorem execRouteFailNotice_within (a0) (a1) (a2) (s : State) :
    WithinX { free := true, due := true, trcCfg := true, irq := true, slices := true, banks := true, chans := true, far := true, near := true, memIo := true, hsf := true, bisnps := true, links := true, pba := true, hreqs := true, accs := true, fnc := true, xlts := true, xinv := true, rtrTx := true, rtrRx := true, rtrUn := true, dom := true, pors := true, qmg := true, ledger := true, bkt := true, flip := true, ras := true, mgt := true, events := true, trc := true, outs := true } s (execRouteFailNotice a0 a1 a2 s) := by
  unfold execRouteFailNotice
  refine WithinX.next ?_
  extract_lets +onlyGivenNames x
  refine Within.cut (x := x) ?_ ?_ <;> [(unfold x; clear x); (obtain ⟨y, e⟩ := named x; rewrite [← e]; clear e x; intro _)]
  · refine Within.app (State.consume_within _ _ _) rfl ?_
    exact Within.refl _ _
  refine Within.ite ?_ ?_
  · assumption
  extract_lets +onlyGivenNames x
  clear_value x
  extract_lets +onlyGivenNames x
  clear_value x
  refine Within.ite ?_ ?_
  · refine Within.app (State.markUnreach_within _ _) rfl ?_
    refine State.noFinds_within ?_ (fun _ => ?_)
    · assumption
    refine Within.app (State.globLost_within _ _) rfl ?_
    exact Within.refl _ _
  refine Within.ite ?_ ?_
  · extract_lets +onlyGivenNames x
    clear_value x
    extract_lets +onlyGivenNames x
    clear_value x
    extract_lets +onlyGivenNames x
    refine Within.cut (x := x) ?_ ?_ <;> [(unfold x; clear x); (obtain ⟨y, e⟩ := named x; rewrite [← e]; clear e x; intro _)]
    · split
      · refine Within.ite ?_ ?_
        · refine Within.app (State.noteFail_within _ _ _ _) rfl ?_
          assumption
        assumption
      assumption
    refine Within.app (State.markUnreach_within _ _) rfl ?_
    assumption
  refine Within.app (State.rec__within _ _ _ _ _ _) rfl ?_
  assumption

theorem execRoutePacket_within (a0) (s : State) :
    WithinX { trcCfg := true, irq := true, pba := true, ports := true, rtrTx := true, rtrRx := true, rtrUn := true, rtr := true, ledger := true, events := true, trc := true, outs := true } s (execRoutePacket a0 s) := by
  unfold execRoutePacket
  refine WithinX.next ?_
  refine Within.ite ?_ ?_
  · exact Within.refl _ _
  extract_lets +onlyGivenNames x
  clear_value x
  split
  · exact Within.refl _ _
  extract_lets +onlyGivenNames x
  extract_lets +onlyGivenNames x
  refine Within.cut (x := x) ?_ ?_ <;> [(unfold x; clear x); (obtain ⟨y, e⟩ := named x; rewrite [← e]; clear e x; intro _)]
  · with_reducible (apply Within.upd <;> try first | exact .inl rfl | exact .inr rfl | exact id | assumption | exact Within.refl _ _)
  extract_lets +onlyGivenNames x
  refine Within.cut (x := x) ?_ ?_ <;> [(unfold x; clear x); (obtain ⟨y, e⟩ := named x; rewrite [← e]; clear e x; intro _)]
  · refine Within.ite ?_ ?_
    · assumption
    refine Within.app (State.creditBack_within _ _ _) rfl ?_
    assumption
  extract_lets +onlyGivenNames x
  clear_value x
  refine Within.ite ?_ ?_
  · refine Within.ite ?_ ?_
    · refine Within.app (State.ordered_within _ _) rfl ?_
      assumption
    refine Within.app (State.deliver_within _ _) rfl ?_
    assumption
  refine Within.ite ?_ ?_
  · assumption
  refine Within.ite ?_ ?_
  · refine Within.app (State.routeDiscard_within _ _ _) rfl ?_
    assumption
  extract_lets +onlyGivenNames x
  extract_lets +onlyGivenNames x
  refine Within.cut (x := x) ?_ ?_ <;> [(unfold x; clear x); (obtain ⟨y, e⟩ := named x; rewrite [← e]; clear e x; intro _)]
  · refine Within.ite ?_ ?_
    · with_reducible (apply Within.upd <;> try first | exact .inl rfl | exact .inr rfl | exact id | assumption | exact Within.refl _ _)
    assumption
  split
  · refine Within.app (State.routeDiscard_within _ _ _) rfl ?_
    assumption
  extract_lets +onlyGivenNames x
  refine Within.cut (x := x) ?_ ?_ <;> [(unfold x; clear x); (obtain ⟨y, e⟩ := named x; rewrite [← e]; clear e x; intro _)]
  · refine Within.ite ?_ ?_
    · refine Within.app (State.event_within _ _ _ _) rfl ?_
      assumption
    assumption
  refine Within.app (State.modPort_within _ _ _) rfl ?_
  assumption

theorem execTimeExchange_within (a0) (s : State) :
    WithinX { ports := true } s (execTimeExchange a0 s) := by
  unfold execTimeExchange
  refine WithinX.next ?_
  refine Within.ite ?_ ?_
  · exact Within.refl _ _
  refine Within.ite ?_ ?_
  · exact Within.refl _ _
  refine Within.app (State.sendTime_within _ _ _) rfl ?_
  refine Within.app (State.modPort_within _ _ _) rfl ?_
  exact Within.refl _ _

theorem execTimePacket_within (a0) (a1) (a2) (s : State) :
    WithinX { trcCfg := true, irq := true, chans := true, pba := true, hreqs := true, ports := true, rtrRx := true, mt := true, mtu := true, ledger := true, events := true, trc := true, outs := true } s (execTimePacket a0 a1 a2 s) := by
  unfold execTimePacket
  refine WithinX.next ?_
  extract_lets +onlyGivenNames x
  extract_lets +onlyGivenNames x
  refine Within.cut (x := x) ?_ ?_ <;> [(unfold x; clear x); (obtain ⟨y, e⟩ := named x; rewrite [← e]; clear e x; intro _)]
  · with_reducible (apply Within.upd <;> try first | exact .inl rfl | exact .inr rfl | exact id | assumption | exact Within.refl _ _)
  extract_lets +onlyGivenNames x
  clear_value x
  extract_lets +onlyGivenNames x
  refine Within.cut (x := x) ?_ ?_ <;> [(unfold x; clear x); (obtain ⟨y, e⟩ := named x; rewrite [← e]; clear e x; intro _)]
  · refine Within.app (State.modPort_within _ _ _) rfl ?_
    assumption
  refine Within.ite ?_ ?_
  · assumption
  refine Within.ite ?_ ?_
  · refine Within.app (State.sendTime_within _ _ _) rfl ?_
    assumption
  refine Within.ite ?_ ?_
  · assumption
  refine Within.ite ?_ ?_
  · refine Within.app (State.restrata_within _) rfl ?_
    refine Within.app (State.modPort_within _ _ _) rfl ?_
    assumption
  extract_lets +onlyGivenNames x
  clear_value x
  extract_lets +onlyGivenNames x
  clear_value x
  extract_lets +onlyGivenNames x
  clear_value x
  extract_lets +onlyGivenNames x
  refine Within.cut (x := x) ?_ ?_ <;> [(unfold x; clear x); (obtain ⟨y, e⟩ := named x; rewrite [← e]; clear e x; intro _)]
  · refine Within.app (State.restrata_within _) rfl ?_
    refine Within.app (State.modPort_within _ _ _) rfl ?_
    assumption
  extract_lets +onlyGivenNames x
  extract_lets +onlyGivenNames x
  refine Within.cut (x := x) ?_ ?_ <;> [(unfold x; clear x); (obtain ⟨y, e⟩ := named x; rewrite [← e]; clear e x; intro _)]
  · refine Within.ite ?_ ?_
    · with_reducible (apply Within.upd <;> try first | exact .inl rfl | exact .inr rfl | exact id | assumption | exact Within.refl _ _)
      with_reducible refine MtuI.of ?_ <;> try exact id
    assumption
  refine Within.ite ?_ ?_
  · refine Within.app (State.measured_within _ _) rfl ?_
    assumption
  assumption

theorem execTrainingStateComplete_within (a0) (a1) (s : State) :
    WithinX { ports := true, outs := true } s (execTrainingStateComplete a0 a1 s) := by
  unfold execTrainingStateComplete
  refine WithinX.next ?_
  refine Within.ite ?_ ?_
  · exact Within.refl _ _
  extract_lets +onlyGivenNames x
  clear_value x
  refine Within.ite ?_ ?_
  · exact Within.refl _ _
  refine Within.ite ?_ ?_
  · refine Within.app (State.setPort_within _ _ _) rfl ?_
    exact Within.refl _ _
  extract_lets +onlyGivenNames x
  clear_value x
  refine Within.ite ?_ ?_
  · refine Within.app (State.setPort_within _ _ _) rfl ?_
    exact Within.refl _ _
  refine Within.app (State.sendIdent_within _ _) rfl ?_
  refine Within.app (State.setPort_within _ _ _) rfl ?_
  exact Within.refl _ _

end Sys2Proof.Machine
end

