-- ==== Sys2Proof/Laws/Member.lean ====
section
/-! SUPPORT. For each operation of Machine/Member.lean one lemma: which pieces of the state it can change, and that it keeps the
invariant of Safety.lean. -/

set_option Elab.async false

namespace Sys2Proof.Machine

theorem State.joinEnd_within (s : State) :
    Within { links := true, pba := true, rtrTx := true, dom := true, mgtq := true, events := true, outs := true } s (State.joinEnd s) := by
  unfold State.joinEnd
  split
  · exact Within.refl _ _
  refine Within.ite ?_ ?_
  · refine Within.app (State.cmdEnd_within _ _ _ _) rfl ?_
    with_reducible (apply Within.upd <;> try first | exact .inl rfl | exact .inr rfl | exact id | assumption | exact Within.refl _ _)
  refine Within.ite ?_ ?_
  · refine Within.app (State.cmdEnd_within _ _ _ _) rfl ?_
    exact Within.refl _ _
  exact Within.refl _ _

theorem State.domJoinGo_within (s : State) (a1) :
    Within { trcCfg := true, irq := true, links := true, pba := true, fnc := true, rtrTx := true, dom := true, ledger := true, mgtq := true, events := true, trc := true, outs := true } s (State.domJoinGo s a1) := by
  unfold State.domJoinGo
  refine Within.ite ?_ ?_
  · refine Within.app (State.cmdEnd_within _ _ _ _) rfl ?_
    exact Within.refl _ _
  refine Within.ite ?_ ?_
  · refine Within.app (State.joinEnd_within _) rfl ?_
    refine Within.app (State.domUp_within _) rfl ?_
    exact Within.refl _ _
  with_reducible (apply Within.upd <;> try first | exact .inl rfl | exact .inr rfl | exact id | assumption | exact Within.refl _ _)

theorem State.domSetGo_within (s : State) (a1) (a2) :
    Within { dom := true } s (State.domSetGo s a1 a2) := by
  unfold State.domSetGo
  extract_lets +onlyGivenNames x
  clear_value x
  extract_lets +onlyGivenNames x
  clear_value x
  extract_lets +onlyGivenNames x
  clear_value x
  with_reducible (apply Within.upd <;> try first | exact .inl rfl | exact .inr rfl | exact id | assumption | exact Within.refl _ _)

theorem State.fabClrGo_within (s : State) (a1) (a2) :
    Within { links := true, pba := true, rtrTx := true, rtrUn := true, mgtq := true, events := true, outs := true } s (State.fabClrGo s a1 a2) := by
  unfold State.fabClrGo
  extract_lets +onlyGivenNames x
  clear_value x
  extract_lets +onlyGivenNames x
  clear_value x
  refine Within.app (State.cmdEnd_within _ _ _ _) rfl ?_
  with_reducible (apply Within.upd <;> try first | exact .inl rfl | exact .inr rfl | exact id | assumption | exact Within.refl _ _)

theorem State.fabPortGo_within (s : State) (a1) (a2) (a3) :
    Within { csr := true, trcCfg := true, irq := true, links := true, pba := true, ports := true, rtrTx := true, mtu := true, ledger := true, mgtq := true, events := true, trc := true, outs := true } s (State.fabPortGo s a1 a2 a3) := by
  unfold State.fabPortGo
  extract_lets +onlyGivenNames x
  clear_value x
  extract_lets +onlyGivenNames x
  refine Within.cut (x := x) ?_ ?_ <;> [(unfold x; clear x); (obtain ⟨y, e⟩ := named x; rewrite [← e]; clear e x; intro _)]
  · refine Within.ite ?_ ?_
    · refine Within.app (State.portEnable_within _ _ _) rfl ?_
      exact Within.refl _ _
    refine Within.ite ?_ ?_
    · refine Within.app (State.portEnable_within _ _ _) rfl ?_
      exact Within.refl _ _
    refine Within.app (State.portRetrain_within _ _) rfl ?_
    exact Within.refl _ _
  refine Within.app (State.cmdEnd_within _ _ _ _) rfl ?_
  assumption

theorem State.joinTry_within (s : State) :
    Within { trcCfg := true, irq := true, links := true, pba := true, fnc := true, rtrTx := true, dom := true, ledger := true, mgtq := true, events := true, trc := true, outs := true } s (State.joinTry s) := by
  unfold State.joinTry
  refine Within.ite ?_ ?_
  · refine Within.app (State.joinEnd_within _) rfl ?_
    refine Within.app (State.domUp_within _) rfl ?_
    exact Within.refl _ _
  exact Within.refl _ _

theorem State.memberBad_within (s : State) (a1) (a2) :
    Within { trcCfg := true, irq := true, pba := true, ledger := true, events := true, trc := true, outs := true } s (State.memberBad s a1 a2) := by
  unfold State.memberBad
  refine Within.app (State.rec__within _ _ _ _ _ _) rfl ?_
  exact Within.refl _ _

theorem State.sendHb_within (s : State) (a1) :
    Within { rtrTx := true } s (State.sendHb s a1) := by
  unfold State.sendHb
  refine Within.app (State.sendPkt_within _ _ _ _ _ _) rfl ?_
  exact Within.refl _ _

theorem State.sendMember_within (s : State) (a1) (a2) :
    Within { rtrTx := true } s (State.sendMember s a1 a2) := by
  unfold State.sendMember
  refine Within.app (State.sendPkt_within _ _ _ _ _ _) rfl ?_
  exact Within.refl _ _

theorem State.timeSetGo_within (s : State) (a1) (a2) :
    Within { links := true, pba := true, rtrTx := true, mtu := true, mgtq := true, events := true, outs := true } s (State.timeSetGo s a1 a2) := by
  unfold State.timeSetGo
  refine Within.app (State.cmdEnd_within _ _ _ _) rfl ?_
  with_reducible (apply Within.upd <;> try first | exact .inl rfl | exact .inr rfl | exact id | assumption | exact Within.refl _ _)
  extract_lets +onlyGivenNames x
  with_reducible refine MtuI.of ?_ <;> try exact id

theorem execDomJoinTimeout_within (s : State) :
    WithinX { links := true, pba := true, rtrTx := true, dom := true, mgtq := true, events := true, outs := true } s (execDomJoinTimeout s) := by
  unfold execDomJoinTimeout
  refine WithinX.next ?_
  split
  · exact Within.refl _ _
  refine Within.ite ?_ ?_
  · extract_lets +onlyGivenNames x
    clear_value x
    refine Within.app (State.cmdEnd_within _ _ _ _) rfl ?_
    with_reducible (apply Within.upd <;> try first | exact .inl rfl | exact .inr rfl | exact id | assumption | exact Within.refl _ _)
  exact Within.refl _ _

theorem execDomainFailNotice_within (a0) (a1) (s : State) :
    WithinX { rtrTx := true, rtrRx := true, dom := true } s (execDomainFailNotice a0 a1 s) := by
  unfold execDomainFailNotice
  refine WithinX.next ?_
  extract_lets +onlyGivenNames x
  refine Within.cut (x := x) ?_ ?_ <;> [(unfold x; clear x); (obtain ⟨y, e⟩ := named x; rewrite [← e]; clear e x; intro _)]
  · refine Within.app (State.consume_within _ _ _) rfl ?_
    exact Within.refl _ _
  refine Within.ite ?_ ?_
  · refine Within.app (State.enterDown_within _ _) rfl ?_
    assumption
  assumption

theorem execDomainFailNoticeResend_within (s : State) :
    WithinX { rtrTx := true, dom := true } s (execDomainFailNoticeResend s) := by
  unfold execDomainFailNoticeResend
  refine WithinX.next ?_
  split
  · exact Within.refl _ _
  refine Within.ite ?_ ?_
  · exact Within.refl _ _
  extract_lets +onlyGivenNames x
  clear_value x
  extract_lets +onlyGivenNames x
  refine Within.cut (x := x) ?_ ?_ <;> [(unfold x; clear x); (obtain ⟨y, e⟩ := named x; rewrite [← e]; clear e x; intro _)]
  · with_reducible (apply Within.upd <;> try first | exact .inl rfl | exact .inr rfl | exact id | assumption | exact Within.refl _ _)
  refine Within.app (State.sendNotice_within _ _) rfl ?_
  assumption

theorem execHeartbeat_within (a0) (a1) (a2) (a3) (s : State) :
    WithinX { trcCfg := true, irq := true, links := true, pba := true, fnc := true, rtrTx := true, rtrRx := true, dom := true, ledger := true, mgtq := true, events := true, trc := true, outs := true } s (execHeartbeat a0 a1 a2 a3 s) := by
  unfold execHeartbeat
  refine WithinX.next ?_
  extract_lets +onlyGivenNames x
  refine Within.cut (x := x) ?_ ?_ <;> [(unfold x; clear x); (obtain ⟨y, e⟩ := named x; rewrite [← e]; clear e x; intro _)]
  · refine Within.app (State.consume_within _ _ _) rfl ?_
    exact Within.refl _ _
  refine Within.ite ?_ ?_
  · assumption
  refine Within.ite ?_ ?_
  · refine Within.app (State.memberBad_within _ _ _) rfl ?_
    assumption
  extract_lets +onlyGivenNames x
  clear_value x
  refine Within.ite ?_ ?_
  · extract_lets +onlyGivenNames x
    refine Within.cut (x := x) ?_ ?_ <;> [(unfold x; clear x); (obtain ⟨y, e⟩ := named x; rewrite [← e]; clear e x; intro _)]
    · refine Within.app (State.joinEnd_within _) rfl ?_
      refine Within.app (State.sawUp_within _ _) rfl ?_
      refine Within.app (State.domUp_within _) rfl ?_
      assumption
    with_reducible (apply Within.upd <;> try first | exact .inl rfl | exact .inr rfl | exact id | assumption | exact Within.refl _ _)
  refine Within.ite ?_ ?_
  · split
    · refine Within.app (State.cmdEnd_within _ _ _ _) rfl ?_
      with_reducible (apply Within.upd <;> try first | exact .inl rfl | exact .inr rfl | exact id | assumption | exact Within.refl _ _)
    assumption
  assumption

theorem execHeartbeatSend_within (s : State) :
    WithinX { rtrTx := true, dom := true } s (execHeartbeatSend s) := by
  unfold execHeartbeatSend
  refine WithinX.next ?_
  refine Within.ite ?_ ?_
  · exact Within.refl _ _
  refine Within.foldl (fun _ _ => ?_) ?_
  · refine Within.app (State.sendHb_within _ _) rfl ?_
    exact Within.refl _ _
  with_reducible (apply Within.upd <;> try first | exact .inl rfl | exact .inr rfl | exact id | assumption | exact Within.refl _ _)

theorem execJoin_within (a0) (a1) (a2) (s : State) :
    WithinX { trcCfg := true, irq := true, pba := true, rtrTx := true, rtrRx := true, dom := true, ledger := true, events := true, trc := true, outs := true } s (execJoin a0 a1 a2 s) := by
  unfold execJoin
  refine WithinX.next ?_
  extract_lets +onlyGivenNames x
  refine Within.cut (x := x) ?_ ?_ <;> [(unfold x; clear x); (obtain ⟨y, e⟩ := named x; rewrite [← e]; clear e x; intro _)]
  · refine Within.app (State.consume_within _ _ _) rfl ?_
    exact Within.refl _ _
  refine Within.ite ?_ ?_
  · assumption
  refine Within.ite ?_ ?_
  · refine Within.app (State.memberBad_within _ _ _) rfl ?_
    assumption
  extract_lets +onlyGivenNames x
  clear_value x
  refine Within.ite ?_ ?_
  · with_reducible (apply Within.upd <;> try first | exact .inl rfl | exact .inr rfl | exact id | assumption | exact Within.refl _ _)
  refine Within.ite ?_ ?_
  · refine Within.ite ?_ ?_
    · refine Within.app (State.sendMember_within _ _ _) rfl ?_
      assumption
    refine Within.app (State.sendHb_within _ _) rfl ?_
    assumption
  assumption

theorem execMemberDead_within (a0) (s : State) :
    WithinX { rtrTx := true, dom := true } s (execMemberDead a0 s) := by
  unfold execMemberDead
  refine WithinX.next ?_
  refine Within.ite ?_ ?_
  · refine Within.app (State.enterDown_within _ _) rfl ?_
    exact Within.refl _ _
  exact Within.refl _ _

theorem execMembershipBeat_within (s : State) :
    WithinX { trcCfg := true, irq := true, links := true, pba := true, fnc := true, rtrTx := true, dom := true, ledger := true, mgtq := true, events := true, trc := true, outs := true } s (execMembershipBeat s) := by
  unfold execMembershipBeat
  refine WithinX.next ?_
  refine Within.ite ?_ ?_
  · exact Within.refl _ _
  refine Within.ite ?_ ?_
  · extract_lets +onlyGivenNames x
    clear_value x
    extract_lets +onlyGivenNames x
    refine Within.cut (x := x) ?_ ?_ <;> [(unfold x; clear x); (obtain ⟨y, e⟩ := named x; rewrite [← e]; clear e x; intro _)]
    · with_reducible (apply Within.upd <;> try first | exact .inl rfl | exact .inr rfl | exact id | assumption | exact Within.refl _ _)
    refine Within.ite ?_ ?_
    · refine Within.app (State.joinTry_within _) rfl ?_
      refine Within.foldl (fun _ _ => ?_) ?_
      · refine Within.app (State.sendMember_within _ _ _) rfl ?_
        exact Within.refl _ _
      with_reducible (apply Within.upd <;> try first | exact .inl rfl | exact .inr rfl | exact id | assumption | exact Within.refl _ _)
    refine Within.foldl (fun _ _ => ?_) ?_
    · refine Within.app (State.sendMember_within _ _ _) rfl ?_
      exact Within.refl _ _
    assumption
  refine Within.ite ?_ ?_
  · refine Within.foldl (fun _ _ => ?_) ?_
    · refine Within.app (State.sendMember_within _ _ _) rfl ?_
      exact Within.refl _ _
    with_reducible (apply Within.upd <;> try first | exact .inl rfl | exact .inr rfl | exact id | assumption | exact Within.refl _ _)
  exact Within.refl _ _

theorem execReady_within (a0) (a1) (a2) (s : State) :
    WithinX { trcCfg := true, irq := true, links := true, pba := true, fnc := true, rtrTx := true, rtrRx := true, dom := true, ledger := true, mgtq := true, events := true, trc := true, outs := true } s (execReady a0 a1 a2 s) := by
  unfold execReady
  refine WithinX.next ?_
  extract_lets +onlyGivenNames x
  refine Within.cut (x := x) ?_ ?_ <;> [(unfold x; clear x); (obtain ⟨y, e⟩ := named x; rewrite [← e]; clear e x; intro _)]
  · refine Within.app (State.consume_within _ _ _) rfl ?_
    exact Within.refl _ _
  refine Within.ite ?_ ?_
  · assumption
  refine Within.ite ?_ ?_
  · refine Within.app (State.memberBad_within _ _ _) rfl ?_
    assumption
  refine Within.ite ?_ ?_
  · refine Within.app (State.joinTry_within _) rfl ?_
    with_reducible (apply Within.upd <;> try first | exact .inl rfl | exact .inr rfl | exact id | assumption | exact Within.refl _ _)
  assumption

theorem execReassemblyTimeout_within (a0) (s : State) :
    WithinX { rtr := true } s (execReassemblyTimeout a0 s) := by
  unfold execReassemblyTimeout
  refine WithinX.next ?_
  split
  · refine Within.ite ?_ ?_
    · with_reducible (apply Within.upd <;> try first | exact .inl rfl | exact .inr rfl | exact id | assumption | exact Within.refl _ _)
    exact Within.refl _ _
  exact Within.refl _ _

end Sys2Proof.Machine
end

