-- ==== Sys2Proof/Laws/Chan.lean ====
section
/-! SUPPORT. For each operation of Machine/Chan.lean one lemma: which pieces of the state it can change, and that it keeps the
invariant of Safety.lean. -/

set_option Elab.async false

namespace Sys2Proof.Machine

theorem State.activate_within (s : State) (a1) (a2) (a3) :
    Within { chans := true, events := true } s (State.activate s a1 a2 a3) := by
  unfold State.activate
  extract_lets +onlyGivenNames x
  clear_value x
  extract_lets +onlyGivenNames x
  clear_value x
  extract_lets +onlyGivenNames x
  clear_value x
  extract_lets +onlyGivenNames x
  clear_value x
  refine Within.app (State.event_within _ _ _ _) rfl ?_
  refine Within.app (State.setCunit_within _ _ _ _) rfl ?_
  exact Within.refl _ _

theorem State.farAnswer_within (s : State) (a1) (a2) :
    Within { memIo := true } s (State.farAnswer s a1 a2) := by
  unfold State.farAnswer
  with_reducible (apply Within.upd <;> try first | exact .inl rfl | exact .inr rfl | exact id | assumption | exact Within.refl _ _)
  extract_lets +onlyGivenNames x
  with_reducible refine MemI.of ?_ ?_ <;> try exact id

theorem State.vbPump_within (s : State) (a1) :
    Within { free := true, finds := true, due := true, trcCfg := true, irq := true, slices := true, banks := true, chans := true, far := true, near := true, memIo := true, hsf := true, bisnps := true, links := true, pba := true, hreqs := true, accs := true, fnc := true, xlts := true, xinv := true, rtrTx := true, dom := true, pors := true, ledger := true, bkt := true, flip := true, ras := true, mgt := true, events := true, trc := true, outs := true } s (State.vbPump s a1) := by
  unfold State.vbPump
  refine Within.ite ?_ ?_
  · exact Within.refl _ _
  refine Within.foldl (fun _ _ => ?_) ?_
  · extract_lets +onlyGivenNames x
    clear_value x
    refine Within.ite ?_ ?_
    · exact Within.refl _ _
    refine Within.app (State.wakeVb_within _ _) rfl ?_
    refine Within.foldl (fun _ _ => ?_) ?_
    · refine Within.app (State.vbGo_within _ _ _) rfl ?_
      exact Within.refl _ _
    exact Within.refl _ _
  exact Within.refl _ _

theorem State.answerFrozen_within (s : State) (a1) :
    Within { free := true, finds := true, due := true, trcCfg := true, irq := true, slices := true, banks := true, chans := true, far := true, near := true, memIo := true, hsf := true, bisnps := true, links := true, pba := true, hreqs := true, accs := true, fnc := true, xlts := true, xinv := true, rtrTx := true, dom := true, pors := true, ledger := true, bkt := true, flip := true, ras := true, mgt := true, events := true, trc := true, outs := true } s (State.answerFrozen s a1) := by
  unfold State.answerFrozen
  extract_lets +onlyGivenNames x
  clear_value x
  extract_lets +onlyGivenNames x
  refine Within.cut (x := x) ?_ ?_ <;> [(unfold x; clear x); (obtain ⟨y, e⟩ := named x; rewrite [← e]; clear e x; intro _)]
  · refine Within.foldl (fun _ _ => ?_) ?_
    · extract_lets +onlyGivenNames x
      refine Within.cut (x := x) ?_ ?_ <;> [(unfold x; clear x); (obtain ⟨y, e⟩ := named x; rewrite [← e]; clear e x; intro _)]
      · split
        · extract_lets +onlyGivenNames x
          refine Within.cut (x := x) ?_ ?_ <;> [(unfold x; clear x); (obtain ⟨y, e⟩ := named x; rewrite [← e]; clear e x; intro _)]
          · split
            · split
              · refine Within.app (State.voidTrk_within _ _ _) rfl ?_
                exact Within.refl _ _
              exact Within.refl _ _
            exact Within.refl _ _
          refine Within.app (State.farAnswer_within _ _ _) rfl ?_
          assumption
        exact Within.refl _ _
      refine Within.ite ?_ ?_
      · assumption
      refine Within.app (State.rec__within _ _ _ _ _ _) rfl ?_
      assumption
    exact Within.refl _ _
  extract_lets +onlyGivenNames x
  refine Within.cut (x := x) ?_ ?_ <;> [(unfold x; clear x); (obtain ⟨y, e⟩ := named x; rewrite [← e]; clear e x; intro _)]
  · refine Within.foldl (fun _ _ => ?_) ?_
    · refine Within.app (State.rec__within _ _ _ _ _ _) rfl ?_
      exact Within.refl _ _
    assumption
  refine Within.app (State.vbPump_within _ _) rfl ?_
  refine Within.app (State.setChan_within _ _ _) rfl ?_
  assumption

theorem State.farFetch_within (s : State) (a1) (a2) :
    WithinP { trcCfg := true, irq := true, pba := true, ledger := true, bkt := true, flip := true, events := true, trc := true, outs := true } s (State.farFetch s a1 a2) := by
  unfold State.farFetch
  extract_lets +onlyGivenNames x
  clear_value x
  refine WithinP.ite ?_ ?_
  · refine WithinP.mk ?_
    exact Within.refl _ _
  extract_lets +onlyGivenNames x
  clear_value x
  refine WithinP.ite ?_ ?_
  · refine WithinP.mk ?_
    refine Within.ite ?_ ?_
    · exact Within.refl _ _
    refine Within.app (State.ueData_within _ _ _ _ _) rfl ?_
    exact Within.refl _ _
  split
  · refine WithinP.mk ?_
    exact Within.refl _ _
  · refine WithinP.mk ?_
    refine Within.app (State.bucket_within _ _) rfl ?_
    exact Within.refl _ _
  extract_lets +onlyGivenNames x
  clear_value x
  split
  · refine WithinP.mk ?_
    refine Within.app (State.flipMend_within _ _ _ _) rfl ?_
    refine Within.app (State.recErr_within _ _ _ _ _ _) rfl ?_
    exact Within.refl _ _
  · refine WithinP.mk ?_
    refine Within.app (State.recErr_within _ _ _ _ _ _) rfl ?_
    exact Within.refl _ _
  refine WithinP.mk ?_
  refine Within.app (State.ueData_within _ _ _ _ _) rfl ?_
  exact Within.refl _ _

theorem State.farMerge_within (s : State) (a1) (a2) (a3) (a4) (a5) :
    Within { free := true, finds := true, due := true, trcCfg := true, irq := true, slices := true, chans := true, far := true, near := true, memIo := true, pba := true, ledger := true, bkt := true, flip := true, ras := true, events := true, trc := true, outs := true } s (State.farMerge s a1 a2 a3 a4 a5) := by
  unfold State.farMerge
  split
  extract_lets +onlyGivenNames x
  refine Within.cut (x := x) ?_ ?_ <;> [(unfold x; clear x); (obtain ⟨y, e⟩ := named x; rewrite [← e]; clear e x; intro _)]
  · refine Within.app (State.event_within _ _ _ _) rfl ?_
    refine WithinP.get (State.farFetch_within _ _ _) (by assumption) rfl ?_
    exact Within.refl _ _
  refine Within.app (State.farStore_within _ _ _ _) rfl ?_
  refine Within.app (State.firstWrite_within _ _) rfl ?_
  assumption

theorem State.column_within (s : State) (a1) (a2) (a3) (a4) :
    Within { free := true, finds := true, due := true, trcCfg := true, irq := true, slices := true, chans := true, far := true, near := true, memIo := true, pba := true, ledger := true, bkt := true, flip := true, ras := true, events := true, trc := true, outs := true } s (State.column s a1 a2 a3 a4) := by
  unfold State.column
  extract_lets +onlyGivenNames x
  clear_value x
  extract_lets +onlyGivenNames x
  clear_value x
  extract_lets +onlyGivenNames x
  clear_value x
  extract_lets +onlyGivenNames x
  clear_value x
  extract_lets +onlyGivenNames x
  clear_value x
  extract_lets +onlyGivenNames x
  clear_value x
  extract_lets +onlyGivenNames x
  clear_value x
  extract_lets +onlyGivenNames x
  refine Within.cut (x := x) ?_ ?_ <;> [(unfold x; clear x); (obtain ⟨y, e⟩ := named x; rewrite [← e]; clear e x; intro _)]
  · refine Within.app (State.event_within _ _ _ _) rfl ?_
    refine Within.app (State.setChan_within _ _ _) rfl ?_
    refine Within.app (State.setCunit_within _ _ _ _) rfl ?_
    exact Within.refl _ _
  extract_lets +onlyGivenNames x
  refine Within.cut (x := x) ?_ ?_ <;> [(unfold x; clear x); (obtain ⟨y, e⟩ := named x; rewrite [← e]; clear e x; intro _)]
  · refine Within.app (State.chanRefill_within _ _ _) rfl ?_
    assumption
  refine Within.ite ?_ ?_
  · assumption
  split
  · refine Within.app (State.farStore_within _ _ _ _) rfl ?_
    refine Within.app (State.firstWrite_within _ _) rfl ?_
    assumption
  · refine Within.app (State.farMerge_within _ _ _ _ _ _) rfl ?_
    assumption
  split
  · split
    refine Within.app (State.farAnswer_within _ _ _) rfl ?_
    refine WithinP.get (State.farFetch_within _ _ _) (by assumption) rfl ?_
    assumption
  assumption

theorem State.freeze_within (s : State) (a1) (a2) (a3) :
    Within { free := true, finds := true, due := true, trcCfg := true, irq := true, slices := true, banks := true, chans := true, far := true, near := true, memIo := true, hsf := true, bisnps := true, links := true, pba := true, hreqs := true, accs := true, fnc := true, xlts := true, xinv := true, rtrTx := true, dom := true, pors := true, ledger := true, bkt := true, flip := true, ras := true, mgt := true, events := true, trc := true, outs := true } s (State.freeze s a1 a2 a3) := by
  unfold State.freeze
  extract_lets +onlyGivenNames x
  clear_value x
  extract_lets +onlyGivenNames x
  clear_value x
  extract_lets +onlyGivenNames x
  clear_value x
  extract_lets +onlyGivenNames x
  clear_value x
  extract_lets +onlyGivenNames x
  refine Within.cut (x := x) ?_ ?_ <;> [(unfold x; clear x); (obtain ⟨y, e⟩ := named x; rewrite [← e]; clear e x; intro _)]
  · refine Within.app (State.setChan_within _ _ _) rfl ?_
    exact Within.refl _ _
  extract_lets +onlyGivenNames x
  refine Within.cut (x := x) ?_ ?_ <;> [(unfold x; clear x); (obtain ⟨y, e⟩ := named x; rewrite [← e]; clear e x; intro _)]
  · refine Within.app (State.recPut_within _ _) rfl ?_
    assumption
  refine Within.ite ?_ ?_
  · refine Within.app (State.fatal_within _ _ _) rfl ?_
    assumption
  refine Within.app (State.answerFrozen_within _ _) rfl ?_
  assumption

theorem State.houseLost_within (s : State) (a1) (a2) :
    Within { free := true, finds := true, due := true, trcCfg := true, irq := true, slices := true, chans := true, far := true, near := true, memIo := true, pba := true, rtrTx := true, dom := true, pors := true, qmg := true, ledger := true, bkt := true, flip := true, events := true, trc := true, outs := true } s (State.houseLost s a1 a2) := by
  unfold State.houseLost
  split
  split
  · refine Within.app (State.zmapLost_within _ _) rfl ?_
    exact Within.refl _ _
  · refine Within.app (State.fatal_within _ _ _) rfl ?_
    exact Within.refl _ _
  · refine Within.app (State.linkErrs_within _ _) rfl ?_
    exact Within.refl _ _
  exact Within.refl _ _

theorem State.houseSettle_within (s : State) :
    Within { free := true, finds := true, due := true, trcCfg := true, irq := true, slices := true, chans := true, far := true, near := true, memIo := true, pba := true, rtrTx := true, dom := true, pors := true, qmg := true, ledger := true, bkt := true, flip := true, events := true, trc := true, outs := true } s (State.houseSettle s) := by
  unfold State.houseSettle
  refine Within.foldl (fun _ _ => ?_) ?_
  · refine Within.app (State.houseLost_within _ _ _) rfl ?_
    exact Within.refl _ _
  with_reducible (apply Within.upd <;> try first | exact .inl rfl | exact .inr rfl | exact id | assumption | exact Within.refl _ _)
  extract_lets +onlyGivenNames x
  with_reducible refine MemI.of ?_ ?_ <;> try exact id

theorem State.meetWindow_within (s : State) :
    Within { hreqs := true } s (State.meetWindow s) := by
  unfold State.meetWindow
  refine Within.ite ?_ ?_
  · exact Within.refl _ _
  with_reducible (apply Within.upd <;> try first | exact .inl rfl | exact .inr rfl | exact id | assumption | exact Within.refl _ _)

theorem State.openWindow_within (s : State) (a1) :
    Within { chans := true, events := true } s (State.openWindow s a1) := by
  unfold State.openWindow
  extract_lets +onlyGivenNames x
  clear_value x
  extract_lets +onlyGivenNames x
  clear_value x
  refine Within.app (State.event_within _ _ _ _) rfl ?_
  refine Within.app (State.setChan_within _ _ _) rfl ?_
  exact Within.refl _ _

theorem State.pasrWipe_within (s : State) (a1) :
    Within { slices := true, chans := true, far := true, memIo := true } s (State.pasrWipe s a1) := by
  unfold State.pasrWipe
  extract_lets +onlyGivenNames x
  clear_value x
  extract_lets +onlyGivenNames x
  extract_lets +onlyGivenNames x
  refine Within.cut (x := x) ?_ ?_ <;> [(unfold x; clear x); (obtain ⟨y, e⟩ := named x; rewrite [← e]; clear e x; intro _)]
  · with_reducible (apply Within.upd <;> try first | exact .inl rfl | exact .inr rfl | exact id | assumption | exact Within.refl _ _)
    with_reducible refine MemI.of ?_ ?_ <;> try exact id
  extract_lets +onlyGivenNames x
  clear_value x
  extract_lets +onlyGivenNames x
  refine Within.cut (x := x) ?_ ?_ <;> [(unfold x; clear x); (obtain ⟨y, e⟩ := named x; rewrite [← e]; clear e x; intro _)]
  · refine Within.foldl (fun _ _ => ?_) ?_
    · extract_lets +onlyGivenNames x
      clear_value x
      refine Within.app (State.setChan_within _ _ _) rfl ?_
      exact Within.refl _ _
    assumption
  extract_lets +onlyGivenNames x
  clear_value x
  extract_lets +onlyGivenNames x
  clear_value x
  extract_lets +onlyGivenNames x
  extract_lets +onlyGivenNames x
  refine Within.cut (x := x) ?_ ?_ <;> [(unfold x; clear x); (obtain ⟨y, e⟩ := named x; rewrite [← e]; clear e x; intro _)]
  · with_reducible (apply Within.upd <;> try first | exact .inl rfl | exact .inr rfl | exact id | assumption | exact Within.refl _ _)
    with_reducible refine MemI.of ?_ ?_ <;> try exact id
  refine Within.foldl (fun _ _ => ?_) ?_
  · refine Within.app (State.modSlice_within _ _ _) rfl ?_
    exact Within.refl _ _
  assumption

theorem State.pasrClear_within (s : State) (a1) (a2) :
    Within { slices := true, chans := true, far := true, memIo := true, mgt := true } s (State.pasrClear s a1 a2) := by
  unfold State.pasrClear
  extract_lets +onlyGivenNames x
  clear_value x
  extract_lets +onlyGivenNames x
  clear_value x
  extract_lets +onlyGivenNames x
  refine Within.cut (x := x) ?_ ?_ <;> [(unfold x; clear x); (obtain ⟨y, e⟩ := named x; rewrite [← e]; clear e x; intro _)]
  · refine Within.app (State.pasrWipe_within _ _) rfl ?_
    exact Within.refl _ _
  extract_lets +onlyGivenNames x
  clear_value x
  extract_lets +onlyGivenNames x
  clear_value x
  with_reducible (apply Within.upd <;> try first | exact .inl rfl | exact .inr rfl | exact id | assumption | exact Within.refl _ _)
  extract_lets +onlyGivenNames x
  with_reducible refine MgtI.of ?_ ?_ ?_ ?_ <;> try exact id

theorem State.pasrEnd_within (s : State) (a1) :
    Within { chans := true, memCfg := true, links := true, pba := true, rtrTx := true, mgtq := true, mgt := true, events := true, outs := true } s (State.pasrEnd s a1) := by
  unfold State.pasrEnd
  extract_lets +onlyGivenNames x
  extract_lets +onlyGivenNames x
  refine Within.cut (x := x) ?_ ?_ <;> [(unfold x; clear x); (obtain ⟨y, e⟩ := named x; rewrite [← e]; clear e x; intro _)]
  · with_reducible (apply Within.upd <;> try first | exact .inl rfl | exact .inr rfl | exact id | assumption | exact Within.refl _ _)
    with_reducible refine MgtI.of ?_ ?_ ?_ ?_ <;> try exact id
  extract_lets +onlyGivenNames x
  refine Within.cut (x := x) ?_ ?_ <;> [(unfold x; clear x); (obtain ⟨y, e⟩ := named x; rewrite [← e]; clear e x; intro _)]
  · refine Within.foldl (fun _ _ => ?_) ?_
    · refine Within.ite ?_ ?_
      · refine Within.app (State.setChan_within _ _ _) rfl ?_
        exact Within.refl _ _
      exact Within.refl _ _
    assumption
  extract_lets +onlyGivenNames x
  extract_lets +onlyGivenNames x
  refine Within.cut (x := x) ?_ ?_ <;> [(unfold x; clear x); (obtain ⟨y, e⟩ := named x; rewrite [← e]; clear e x; intro _)]
  · split
    · with_reducible (apply Within.upd <;> try first | exact .inl rfl | exact .inr rfl | exact id | assumption | exact Within.refl _ _)
      with_reducible refine MemI.of ?_ ?_ <;> try exact id
    assumption
  split
  · refine Within.app (State.cmdEnd_within _ _ _ _) rfl ?_
    assumption
  assumption

theorem State.pasrLine_within (s : State) (a1) (a2) (a3) (a4) :
    WithinP { free := true, finds := true, due := true, trcCfg := true, irq := true, slices := true, banks := true, chans := true, far := true, near := true, memIo := true, hsf := true, bisnps := true, links := true, pba := true, hreqs := true, accs := true, fnc := true, xlts := true, xinv := true, rtrTx := true, pors := true, ledger := true, bkt := true, flip := true, ras := true, mgt := true, events := true, trc := true, outs := true } s (State.pasrLine s a1 a2 a3 a4) := by
  unfold State.pasrLine
  extract_lets +onlyGivenNames x
  clear_value x
  split
  · refine WithinP.mk ?_
    exact Within.refl _ _
  refine WithinP.ite ?_ ?_
  · refine WithinP.mk ?_
    exact Within.refl _ _
  split
  · refine WithinP.mk ?_
    refine Within.app (State.setBank_within _ _ _) rfl ?_
    refine WithinO.get (State.startRecall_within _ _ _ _ _) (by assumption) rfl ?_
    exact Within.refl _ _
  refine WithinP.mk ?_
  exact Within.refl _ _

theorem State.pasrOwn_within (s : State) (a1) :
    Within { free := true, finds := true, due := true, trcCfg := true, irq := true, slices := true, banks := true, chans := true, far := true, near := true, memIo := true, hsf := true, bisnps := true, links := true, pba := true, hreqs := true, accs := true, fnc := true, xlts := true, xinv := true, rtrTx := true, dom := true, pors := true, ledger := true, bkt := true, flip := true, ras := true, mgt := true, events := true, trc := true, outs := true } s (State.pasrOwn s a1) := by
  unfold State.pasrOwn
  extract_lets +onlyGivenNames x
  clear_value x
  extract_lets +onlyGivenNames x
  refine Within.cut (x := x) ?_ ?_ <;> [(unfold x; clear x); (obtain ⟨y, e⟩ := named x; rewrite [← e]; clear e x; intro _)]
  · refine Within.foldl (fun _ _ => ?_) ?_
    · refine Within.ite ?_ ?_
      · refine Within.app (State.wakeVb_within _ _) rfl ?_
        refine Within.app (State.modSlice_within _ _ _) rfl ?_
        exact Within.refl _ _
      exact Within.refl _ _
    exact Within.refl _ _
  extract_lets +onlyGivenNames x
  refine Within.cut (x := x) ?_ ?_ <;> [(unfold x; clear x); (obtain ⟨y, e⟩ := named x; rewrite [← e]; clear e x; intro _)]
  · refine Within.foldl (fun _ _ => ?_) ?_
    · split
      extract_lets +onlyGivenNames x
      clear_value x
      refine Within.foldl (fun _ _ => ?_) ?_
      · extract_lets +onlyGivenNames x
        clear_value x
        extract_lets +onlyGivenNames x
        clear_value x
        refine Within.ite ?_ ?_
        · exact Within.refl _ _
        refine Within.ite ?_ ?_
        · refine Within.app (State.dropLine_within _ _ _ _ _) rfl ?_
          exact Within.refl _ _
        exact Within.refl _ _
      exact Within.refl _ _
    assumption
  refine Within.foldl (fun _ _ => ?_) ?_
  · refine Within.ite ?_ ?_
    · refine Within.app (State.recallDrop_within _ _ _) rfl ?_
      exact Within.refl _ _
    exact Within.refl _ _
  assumption

theorem State.pasrPump_within (s : State) :
    Within { free := true, finds := true, due := true, trcCfg := true, irq := true, slices := true, banks := true, chans := true, far := true, near := true, memIo := true, memCfg := true, hsf := true, bisnps := true, links := true, pba := true, hreqs := true, accs := true, fnc := true, xlts := true, xinv := true, rtrTx := true, dom := true, pors := true, ledger := true, bkt := true, flip := true, ras := true, mgtq := true, mgt := true, events := true, trc := true, outs := true } s (State.pasrPump s) := by
  unfold State.pasrPump
  split
  · exact Within.refl _ _
  split
  rename_i p _ r t h
  have ht : Within { free := true, finds := true, due := true, trcCfg := true, irq := true, slices := true, banks := true, chans := true, far := true, near := true, memIo := true, memCfg := true, hsf := true, bisnps := true, links := true, pba := true, hreqs := true, accs := true, fnc := true, xlts := true, xinv := true, rtrTx := true, dom := true, pors := true, ledger := true, bkt := true, flip := true, ras := true, mgtq := true, mgt := true, events := true, trc := true, outs := true } s t := WithinP.eq h (WithinP.foldl (fun _ _ _ => WithinP.app (State.pasrLine_within _ _ _ _ _) rfl (Within.refl _ _))
    (WithinP.mk (Within.refl _ _)))
  clear h
  extract_lets +onlyGivenNames x
  clear_value x
  extract_lets +onlyGivenNames x
  clear_value x
  extract_lets +onlyGivenNames x
  clear_value x
  refine Within.ite ?_ ?_
  · with_reducible (apply Within.upd <;> try first | exact .inl rfl | exact .inr rfl | exact id | assumption | exact Within.refl _ _)
    extract_lets +onlyGivenNames x
    with_reducible refine MgtI.of ?_ ?_ ?_ ?_ <;> try exact id
  refine Within.ite ?_ ?_
  · extract_lets +onlyGivenNames x
    refine Within.cut (x := x) ?_ ?_ <;> [(unfold x; clear x); (obtain ⟨y, e⟩ := named x; rewrite [← e]; clear e x; intro _)]
    · refine Within.app (State.pasrOwn_within _ _) rfl ?_
      refine Within.app (State.pasrWipe_within _ _) rfl ?_
      assumption
    extract_lets +onlyGivenNames x
    clear_value x
    refine Within.ite ?_ ?_
    · refine Within.app (State.pasrEnd_within _ _) rfl ?_
      assumption
    with_reducible (apply Within.upd <;> try first | exact .inl rfl | exact .inr rfl | exact id | assumption | exact Within.refl _ _)
    extract_lets +onlyGivenNames x
    with_reducible refine MgtI.of ?_ ?_ ?_ ?_ <;> try exact id
  refine Within.app (State.pasrEnd_within _ _) rfl ?_
  assumption

theorem State.pgcDecode_within (s : State) (a1) (a2) :
    Within { trcCfg := true, irq := true, pba := true, ledger := true, ras := true, events := true, trc := true, outs := true } s (State.pgcDecode s a1 a2) := by
  unfold State.pgcDecode
  split
  · exact Within.refl _ _
  extract_lets +onlyGivenNames x
  refine Within.cut (x := x) ?_ ?_ <;> [(unfold x; clear x); (obtain ⟨y, e⟩ := named x; rewrite [← e]; clear e x; intro _)]
  · split
    · exact Within.refl _ _
    · refine Within.app (State.rec__within _ _ _ _ _ _) rfl ?_
      exact Within.refl _ _
    refine Within.app (State.rec__within _ _ _ _ _ _) rfl ?_
    exact Within.refl _ _
  with_reducible (apply Within.upd <;> try first | exact .inl rfl | exact .inr rfl | exact id | assumption | exact Within.refl _ _)
  extract_lets +onlyGivenNames x
  with_reducible refine RasI.of ?_ ?_ <;> try exact id

theorem State.precharge_within (s : State) (a1) (a2) (a3) :
    Within { chans := true } s (State.precharge s a1 a2 a3) := by
  unfold State.precharge
  extract_lets +onlyGivenNames x
  clear_value x
  refine Within.app (State.setCunit_within _ _ _ _) rfl ?_
  exact Within.refl _ _

theorem State.refreshBank_within (s : State) (a1) (a2) (a3) :
    Within { chans := true, events := true } s (State.refreshBank s a1 a2 a3) := by
  unfold State.refreshBank
  extract_lets +onlyGivenNames x
  clear_value x
  extract_lets +onlyGivenNames x
  clear_value x
  extract_lets +onlyGivenNames x
  clear_value x
  extract_lets +onlyGivenNames x
  clear_value x
  extract_lets +onlyGivenNames x
  clear_value x
  extract_lets +onlyGivenNames x
  clear_value x
  extract_lets +onlyGivenNames x
  clear_value x
  extract_lets +onlyGivenNames x
  clear_value x
  extract_lets +onlyGivenNames x
  clear_value x
  extract_lets +onlyGivenNames x
  refine Within.cut (x := x) ?_ ?_ <;> [(unfold x; clear x); (obtain ⟨y, e⟩ := named x; rewrite [← e]; clear e x; intro _)]
  · refine Within.app (State.setCunit_within _ _ _ _) rfl ?_
    exact Within.refl _ _
  split
  · refine Within.app (State.event_within _ _ _ _) rfl ?_
    refine Within.app (State.setChan_within _ _ _) rfl ?_
    assumption
  assumption

theorem State.retrained_within (s : State) (a1) (a2) :
    Within { free := true, finds := true, due := true, trcCfg := true, irq := true, slices := true, banks := true, chans := true, far := true, near := true, memIo := true, hsf := true, bisnps := true, links := true, pba := true, hreqs := true, accs := true, fnc := true, xlts := true, xinv := true, rtrTx := true, dom := true, pors := true, ledger := true, bkt := true, flip := true, ras := true, mgt := true, events := true, trc := true, outs := true } s (State.retrained s a1 a2) := by
  unfold State.retrained
  extract_lets +onlyGivenNames x
  clear_value x
  refine Within.ite ?_ ?_
  · refine Within.app (State.setChan_within _ _ _) rfl ?_
    exact Within.refl _ _
  extract_lets +onlyGivenNames x
  refine Within.cut (x := x) ?_ ?_ <;> [(unfold x; clear x); (obtain ⟨y, e⟩ := named x; rewrite [← e]; clear e x; intro _)]
  · refine Within.app (State.rec__within _ _ _ _ _ _) rfl ?_
    refine Within.app (State.setChan_within _ _ _) rfl ?_
    exact Within.refl _ _
  refine Within.ite ?_ ?_
  · refine Within.app (State.freeze_within _ _ _ _) rfl ?_
    assumption
  assumption

theorem State.scrubNear_within (s : State) (a1) (a2) (a3) :
    Within { free := true, finds := true, trcCfg := true, irq := true, slices := true, chans := true, near := true, memIo := true, pba := true, ledger := true, bkt := true, flip := true, events := true, trc := true, outs := true } s (State.scrubNear s a1 a2 a3) := by
  unfold State.scrubNear
  extract_lets +onlyGivenNames x
  clear_value x
  extract_lets +onlyGivenNames x
  clear_value x
  split
  split
  · exact Within.refl _ _
  · extract_lets +onlyGivenNames x
    refine Within.cut (x := x) ?_ ?_ <;> [(unfold x; clear x); (obtain ⟨y, e⟩ := named x; rewrite [← e]; clear e x; intro _)]
    · refine Within.app (State.flipMend_within _ _ _ _) rfl ?_
      exact Within.refl _ _
    refine Within.ite ?_ ?_
    · refine Within.app (State.recErr_within _ _ _ _ _ _) rfl ?_
      refine Within.app (State.bucket_within _ _) rfl ?_
      assumption
    refine Within.app (State.ceWay_within _ _ _ _) rfl ?_
    assumption
  refine Within.ite ?_ ?_
  · extract_lets +onlyGivenNames x
    refine Within.cut (x := x) ?_ ?_ <;> [(unfold x; clear x); (obtain ⟨y, e⟩ := named x; rewrite [← e]; clear e x; intro _)]
    · refine Within.app (State.ueData_within _ _ _ _ _) rfl ?_
      exact Within.refl _ _
    refine Within.ite ?_ ?_
    · assumption
    refine Within.app (State.putTags_within _ _ _ _) rfl ?_
    assumption
  refine Within.ite ?_ ?_
  · extract_lets +onlyGivenNames x
    clear_value x
    extract_lets +onlyGivenNames x
    refine Within.cut (x := x) ?_ ?_ <;> [(unfold x; clear x); (obtain ⟨y, e⟩ := named x; rewrite [← e]; clear e x; intro _)]
    · refine Within.app (State.ueData_within _ _ _ _ _) rfl ?_
      exact Within.refl _ _
    refine Within.ite ?_ ?_
    · assumption
    refine Within.ite ?_ ?_
    · refine Within.app (State.putEnt_within _ _ _ _ _) rfl ?_
      assumption
    refine Within.app (State.dropLine_within _ _ _ _ _) rfl ?_
    assumption
  refine Within.app (State.ueData_within _ _ _ _ _) rfl ?_
  exact Within.refl _ _

theorem State.scrubFar_within (s : State) (a1) (a2) (a3) :
    Within { trcCfg := true, irq := true, pba := true, ledger := true, bkt := true, flip := true, events := true, trc := true, outs := true } s (State.scrubFar s a1 a2 a3) := by
  unfold State.scrubFar
  extract_lets +onlyGivenNames x
  clear_value x
  refine Within.ite ?_ ?_
  · exact Within.refl _ _
  extract_lets +onlyGivenNames x
  refine Within.cut (x := x) ?_ ?_ <;> [(unfold x; clear x); (obtain ⟨y, e⟩ := named x; rewrite [← e]; clear e x; intro _)]
  · refine WithinP.snd (State.farFetch_within _ _ _) rfl ?_
    exact Within.refl _ _
  refine Within.ite ?_ ?_
  · refine Within.app (State.flipMend_within _ _ _ _) rfl ?_
    assumption
  assumption

theorem State.scrubRead_within (s : State) (a1) (a2) (a3) :
    Within { free := true, finds := true, trcCfg := true, irq := true, slices := true, chans := true, near := true, memIo := true, pba := true, ledger := true, bkt := true, flip := true, events := true, trc := true, outs := true } s (State.scrubRead s a1 a2 a3) := by
  unfold State.scrubRead
  split
  extract_lets +onlyGivenNames x
  refine Within.cut (x := x) ?_ ?_ <;> [(unfold x; clear x); (obtain ⟨y, e⟩ := named x; rewrite [← e]; clear e x; intro _)]
  · refine Within.app (State.event_within _ _ _ _) rfl ?_
    refine Within.app (State.chanEnq_within _ _ _ _) rfl ?_
    exact Within.refl _ _
  refine Within.ite ?_ ?_
  · refine Within.app (State.scrubNear_within _ _ _ _) rfl ?_
    assumption
  refine Within.app (State.scrubFar_within _ _ _ _) rfl ?_
  assumption

theorem State.scrubPump_within (s : State) (a1) :
    Within { free := true, finds := true, trcCfg := true, irq := true, slices := true, chans := true, near := true, memIo := true, pba := true, ledger := true, bkt := true, flip := true, events := true, trc := true, outs := true } s (State.scrubPump s a1) := by
  unfold State.scrubPump
  extract_lets +onlyGivenNames x
  clear_value x
  refine Within.foldl (fun _ _ => ?_) ?_
  · split
    split
    refine Within.ite ?_ ?_
    · refine Within.app (State.setChan_within _ _ _) rfl ?_
      exact Within.refl _ _
    refine Within.app (State.scrubRead_within _ _ _ _) rfl ?_
    exact Within.refl _ _
  refine Within.app (State.setChan_within _ _ _) rfl ?_
  exact Within.refl _ _

theorem State.scrubClock_within (s : State) :
    Within { free := true, finds := true, trcCfg := true, irq := true, slices := true, chans := true, near := true, memIo := true, pba := true, ledger := true, bkt := true, flip := true, events := true, trc := true, outs := true } s (State.scrubClock s) := by
  unfold State.scrubClock
  refine Within.foldl (fun _ _ => ?_) ?_
  · split
    refine Within.ite ?_ ?_
    · exact Within.refl _ _
    refine Within.app (State.scrubPump_within _ _) rfl ?_
    exact Within.refl _ _
  exact Within.refl _ _

theorem State.scrubOne_within (s : State) (a1) (a2) :
    Within { chans := true } s (State.scrubOne s a1 a2) := by
  unfold State.scrubOne
  extract_lets +onlyGivenNames x
  clear_value x
  extract_lets +onlyGivenNames x
  clear_value x
  refine Within.ite ?_ ?_
  · exact Within.refl _ _
  extract_lets +onlyGivenNames x
  clear_value x
  refine Within.app (State.setChan_within _ _ _) rfl ?_
  exact Within.refl _ _

theorem State.segChoose_within (s : State) (a1) (a2) (a3) :
    Within { chans := true, mtu := true } s (State.segChoose s a1 a2 a3) := by
  induction a2 generalizing s a3 with
  | zero => unfold State.segChoose; exact Within.refl _ _
  | succ k ih =>
    unfold State.segChoose
    extract_lets +onlyGivenNames x
    clear_value x
    extract_lets +onlyGivenNames x
    clear_value x
    refine Within.ite ?_ ?_
    · refine Within.app (State.setChan_within _ _ _) rfl ?_
      exact Within.refl _ _
    refine Within.ite ?_ ?_
    · refine Within.trans ?_ (ih ..)
      exact Within.refl _ _
    refine Within.ite ?_ ?_
    · refine Within.app (State.setChan_within _ _ _) rfl ?_
      exact Within.refl _ _
    refine Within.ite ?_ ?_
    · refine Within.trans ?_ (ih ..)
      with_reducible (apply Within.upd <;> try first | exact .inl rfl | exact .inr rfl | exact id | assumption | exact Within.refl _ _)
      extract_lets +onlyGivenNames x
      with_reducible refine MtuI.of ?_ <;> try exact id
    refine Within.trans ?_ (ih ..)
    exact Within.refl _ _

theorem State.sweepStep_within (s : State) (a1) (a2) :
    Within { free := true, finds := true, due := true, trcCfg := true, irq := true, slices := true, banks := true, chans := true, near := true, memIo := true, pba := true, rtrTx := true, dom := true, ledger := true, bkt := true, flip := true, events := true, trc := true, outs := true } s (State.sweepStep s a1 a2) := by
  unfold State.sweepStep
  extract_lets +onlyGivenNames x
  clear_value x
  split
  · exact Within.refl _ _
  extract_lets +onlyGivenNames x
  clear_value x
  extract_lets +onlyGivenNames x
  clear_value x
  extract_lets +onlyGivenNames x
  clear_value x
  extract_lets +onlyGivenNames x
  refine Within.cut (x := x) ?_ ?_ <;> [(unfold x; clear x); (obtain ⟨y, e⟩ := named x; rewrite [← e]; clear e x; intro _)]
  · refine Within.foldl (fun _ _ => ?_) ?_
    · split
      refine Within.foldl (fun _ _ => ?_) ?_
      · refine Within.app (State.houseAccess_within _ _ _) rfl ?_
        exact Within.refl _ _
      refine Within.app (State.dirFetch_within _ _ _) rfl ?_
      exact Within.refl _ _
    exact Within.refl _ _
  refine Within.ite ?_ ?_
  · refine Within.app (State.fatal_within _ _ _) rfl ?_
    refine Within.app (State.ueData_within _ _ _ _ _) rfl ?_
    assumption
  extract_lets +onlyGivenNames x
  refine Within.cut (x := x) ?_ ?_ <;> [(unfold x; clear x); (obtain ⟨y, e⟩ := named x; rewrite [← e]; clear e x; intro _)]
  · refine Within.foldl (fun _ _ => ?_) ?_
    · split
      refine Within.ite ?_ ?_
      · split
        refine Within.app (State.ceWay_within _ _ _ _) rfl ?_
        refine Within.app (State.bucket_within _ _) rfl ?_
        exact Within.refl _ _
      exact Within.refl _ _
    assumption
  extract_lets +onlyGivenNames x
  clear_value x
  refine Within.app (State.setBank_within _ _ _) rfl ?_
  assumption

theorem State.segDone_within (s : State) (a1) (a2) (a3) (a4) :
    Within { free := true, finds := true, due := true, trcCfg := true, irq := true, slices := true, banks := true, chans := true, far := true, near := true, memIo := true, hsf := true, bisnps := true, links := true, pba := true, hreqs := true, accs := true, fnc := true, xlts := true, xinv := true, rtrTx := true, dom := true, pors := true, ledger := true, bkt := true, flip := true, ras := true, mgt := true, events := true, trc := true, outs := true } s (State.segDone s a1 a2 a3 a4) := by
  unfold State.segDone
  extract_lets +onlyGivenNames x
  clear_value x
  refine Within.ite ?_ ?_
  · extract_lets +onlyGivenNames x
    clear_value x
    split
    split
    refine Within.app (State.event_within _ _ _ _) rfl ?_
    refine Within.app (State.setChan_within _ _ _) rfl ?_
    exact Within.refl _ _
  refine Within.ite ?_ ?_
  · refine Within.app (State.retrained_within _ _ _) rfl ?_
    exact Within.refl _ _
  refine Within.ite ?_ ?_
  · refine Within.app (State.pgcDecode_within _ _ _) rfl ?_
    exact Within.refl _ _
  split
  · refine Within.app (State.sweepStep_within _ _ _) rfl ?_
    exact Within.refl _ _
  exact Within.refl _ _

theorem State.srExit_within (s : State) (a1) :
    Within { free := true, finds := true, due := true, trcCfg := true, irq := true, slices := true, banks := true, chans := true, far := true, near := true, memIo := true, memCfg := true, hsf := true, bisnps := true, links := true, pba := true, hreqs := true, accs := true, fnc := true, xlts := true, xinv := true, rtrTx := true, dom := true, pors := true, ledger := true, bkt := true, flip := true, ras := true, mgtq := true, mgt := true, events := true, trc := true, outs := true } s (State.srExit s a1) := by
  unfold State.srExit
  extract_lets +onlyGivenNames x
  clear_value x
  refine Within.ite ?_ ?_
  · exact Within.refl _ _
  extract_lets +onlyGivenNames x
  clear_value x
  extract_lets +onlyGivenNames x
  clear_value x
  extract_lets +onlyGivenNames x
  refine Within.cut (x := x) ?_ ?_ <;> [(unfold x; clear x); (obtain ⟨y, e⟩ := named x; rewrite [← e]; clear e x; intro _)]
  · refine Within.app (State.setChan_within _ _ _) rfl ?_
    exact Within.refl _ _
  refine Within.ite ?_ ?_
  · refine Within.app (State.pasrPump_within _) rfl ?_
    refine Within.app (State.pasrClear_within _ _ _) rfl ?_
    assumption
  assumption

theorem State.srExitAll_within (s : State) :
    Within { free := true, finds := true, due := true, trcCfg := true, irq := true, slices := true, banks := true, chans := true, far := true, near := true, memIo := true, memCfg := true, hsf := true, bisnps := true, links := true, pba := true, hreqs := true, accs := true, fnc := true, xlts := true, xinv := true, rtrTx := true, dom := true, pors := true, ledger := true, bkt := true, flip := true, ras := true, mgtq := true, mgt := true, events := true, trc := true, outs := true } s (State.srExitAll s) := by
  unfold State.srExitAll
  refine Within.foldl (fun _ _ => ?_) ?_
  · refine Within.app (State.srExit_within _ _) rfl ?_
    exact Within.refl _ _
  exact Within.refl _ _

theorem State.zeroOne_within (s : State) (a1) (a2) :
    Within { free := true, finds := true, due := true, trcCfg := true, irq := true, slices := true, chans := true, far := true, near := true, memIo := true, pba := true, ledger := true, bkt := true, flip := true, ras := true, events := true, trc := true, outs := true } s (State.zeroOne s a1 a2) := by
  unfold State.zeroOne
  extract_lets +onlyGivenNames x
  clear_value x
  extract_lets +onlyGivenNames x
  clear_value x
  extract_lets +onlyGivenNames x
  clear_value x
  split
  · exact Within.refl _ _
  extract_lets +onlyGivenNames x
  clear_value x
  extract_lets +onlyGivenNames x
  clear_value x
  refine Within.ite ?_ ?_
  · refine Within.app (State.event_within _ _ _ _) rfl ?_
    refine Within.app (State.farStore_within _ _ _ _) rfl ?_
    refine Within.app (State.setCunit_within _ _ _ _) rfl ?_
    exact Within.refl _ _
  refine Within.ite ?_ ?_
  · refine Within.app (State.precharge_within _ _ _ _) rfl ?_
    exact Within.refl _ _
  refine Within.app (State.activate_within _ _ _ _) rfl ?_
  exact Within.refl _ _

theorem execChannelFreeze_within (a0) (a1) (a2) (s : State) :
    WithinX { free := true, due := true, trcCfg := true, irq := true, slices := true, banks := true, chans := true, far := true, near := true, memIo := true, hsf := true, bisnps := true, links := true, pba := true, hreqs := true, accs := true, fnc := true, xlts := true, xinv := true, rtrTx := true, dom := true, pors := true, ledger := true, bkt := true, flip := true, ras := true, mgt := true, events := true, trc := true, outs := true } s (execChannelFreeze a0 a1 a2 s) := by
  unfold execChannelFreeze
  refine WithinX.next ?_
  extract_lets +onlyGivenNames x
  clear_value x
  refine Within.ite ?_ ?_
  · exact Within.refl _ _
  refine Within.ite ?_ ?_
  · refine State.noFinds_within ?_ (fun _ => ?_)
    · exact Within.refl _ _
    refine Within.app (State.freeze_within _ _ _ _) rfl ?_
    exact Within.refl _ _
  refine Within.ite ?_ ?_
  · refine Within.app (State.rec__within _ _ _ _ _ _) rfl ?_
    refine Within.app (State.setChan_within _ _ _) rfl ?_
    exact Within.refl _ _
  exact Within.refl _ _

theorem execCommandSlotPick_within (a0) (a1) (a2) (a3) (s : State) :
    WithinX { free := true, due := true, trcCfg := true, irq := true, slices := true, banks := true, chans := true, far := true, near := true, memIo := true, hsf := true, bisnps := true, links := true, pba := true, hreqs := true, accs := true, fnc := true, xlts := true, xinv := true, rtrTx := true, dom := true, pors := true, ledger := true, bkt := true, flip := true, ras := true, mgt := true, events := true, trc := true, outs := true } s (execCommandSlotPick a0 a1 a2 a3 s) := by
  unfold execCommandSlotPick
  refine WithinX.next ?_
  refine State.finding_within _ rfl ?_ (fun _ => ?_)
  · exact Within.refl _ _
  refine Within.ite ?_ ?_
  · exact Within.refl _ _
  split
  · refine Within.app (State.refreshBank_within _ _ _ _) rfl ?_
    exact Within.refl _ _
  extract_lets +onlyGivenNames x
  clear_value x
  extract_lets +onlyGivenNames x
  refine Within.cut (x := x) ?_ ?_ <;> [(unfold x; clear x); (obtain ⟨y, e⟩ := named x; rewrite [← e]; clear e x; intro _)]
  · refine Within.app (State.setCunit_within _ _ _ _) rfl ?_
    exact Within.refl _ _
  split
  · refine Within.app (State.vbPump_within _ _) rfl ?_
    refine Within.app (State.column_within _ _ _ _ _) rfl ?_
    assumption
  split
  · refine Within.app (State.activate_within _ _ _ _) rfl ?_
    assumption
  split
  · refine Within.ite ?_ ?_
    · refine Within.app (State.event_within _ _ _ _) rfl ?_
      refine Within.app (State.precharge_within _ _ _ _) rfl ?_
      assumption
    refine Within.app (State.precharge_within _ _ _ _) rfl ?_
    assumption
  refine Within.ite ?_ ?_
  · assumption
  refine Within.app (State.zeroOne_within _ _ _) rfl ?_
  assumption

theorem execFreeRunningRefresh_within (a0) (s : State) :
    WithinX { chans := true, events := true } s (execFreeRunningRefresh a0 s) := by
  unfold execFreeRunningRefresh
  refine WithinX.next ?_
  refine Within.ite ?_ ?_
  · refine Within.app (State.openWindow_within _ _) rfl ?_
    exact Within.refl _ _
  exact Within.refl _ _

theorem execLullEnd_within (s : State) :
    WithinX { mtu := true } s (execLullEnd s) := by
  unfold execLullEnd
  refine WithinX.next ?_
  refine Within.ite ?_ ?_
  · extract_lets +onlyGivenNames x
    clear_value x
    with_reducible (apply Within.upd <;> try first | exact .inl rfl | exact .inr rfl | exact id | assumption | exact Within.refl _ _)
    extract_lets +onlyGivenNames x
    with_reducible refine MtuI.of ?_ <;> try exact id
  exact Within.refl _ _

theorem execLullSegmentDone_within (a0) (a1) (a2) (s : State) :
    WithinX { free := true, due := true, trcCfg := true, irq := true, slices := true, banks := true, chans := true, far := true, near := true, memIo := true, hsf := true, bisnps := true, links := true, pba := true, hreqs := true, accs := true, fnc := true, xlts := true, xinv := true, rtrTx := true, dom := true, pors := true, ledger := true, bkt := true, flip := true, ras := true, mgt := true, events := true, trc := true, outs := true } s (execLullSegmentDone a0 a1 a2 s) := by
  unfold execLullSegmentDone
  refine WithinX.next ?_
  split
  · exact Within.refl _ _
  refine Within.ite ?_ ?_
  · exact Within.refl _ _
  extract_lets +onlyGivenNames x
  clear_value x
  extract_lets +onlyGivenNames x
  clear_value x
  extract_lets +onlyGivenNames x
  refine Within.cut (x := x) ?_ ?_ <;> [(unfold x; clear x); (obtain ⟨y, e⟩ := named x; rewrite [← e]; clear e x; intro _)]
  · refine Within.app (State.setChan_within _ _ _) rfl ?_
    exact Within.refl _ _
  refine State.noFinds_within ?_ (fun _ => ?_)
  · assumption
  refine Within.app (State.segDone_within _ _ _ _ _) rfl ?_
  exact Within.refl _ _

theorem execLullSegmentStart_within (a0) (s : State) :
    WithinX { chans := true, mtu := true } s (execLullSegmentStart a0 s) := by
  unfold execLullSegmentStart
  refine WithinX.next ?_
  extract_lets +onlyGivenNames x
  clear_value x
  refine Within.ite ?_ ?_
  · exact Within.refl _ _
  refine Within.ite ?_ ?_
  · exact Within.refl _ _
  refine Within.app (State.segChoose_within _ _ _ _) rfl ?_
  refine Within.app (State.setChan_within _ _ _) rfl ?_
  exact Within.refl _ _

theorem execMergeBufferTimeout_within (a0) (a1) (a2) (a3) (a4) (s : State) :
    WithinX { free := true, finds := true, due := true, trcCfg := true, irq := true, slices := true, chans := true, far := true, near := true, memIo := true, pba := true, rtrTx := true, dom := true, pors := true, qmg := true, ledger := true, bkt := true, flip := true, events := true, trc := true, outs := true } s (execMergeBufferTimeout a0 a1 a2 a3 a4 s) := by
  unfold execMergeBufferTimeout
  refine WithinX.next ?_
  refine State.finding_within _ rfl ?_ (fun _ => ?_)
  · exact Within.refl _ _
  split
  · exact Within.refl _ _
  refine Within.ite ?_ ?_
  · exact Within.refl _ _
  refine Within.ite ?_ ?_
  · refine Within.app (State.houseSettle_within _) rfl ?_
    refine Within.app (State.houseOut_within _ _ _ _) rfl ?_
    with_reducible (apply Within.upd <;> try first | exact .inl rfl | exact .inr rfl | exact id | assumption | exact Within.refl _ _)
  refine Within.app (State.mergeFlush_within _ _ _ _) rfl ?_
  exact Within.refl _ _

theorem execRefreshCadencePhase_within (a0) (s : State) :
    WithinX { chans := true, hreqs := true, mtu := true, events := true } s (execRefreshCadencePhase a0 s) := by
  unfold execRefreshCadencePhase
  refine WithinX.next ?_
  split
  · exact Within.refl _ _
  extract_lets +onlyGivenNames x
  clear_value x
  extract_lets +onlyGivenNames x
  refine Within.cut (x := x) ?_ ?_ <;> [(unfold x; clear x); (obtain ⟨y, e⟩ := named x; rewrite [← e]; clear e x; intro _)]
  · refine Within.foldl (fun _ _ => ?_) ?_
    · refine Within.app (State.setChan_within _ _ _) rfl ?_
      exact Within.refl _ _
    refine WithinO.get (State.fire_within _ _ _) (by assumption) rfl ?_
    exact Within.refl _ _
  refine Within.ite ?_ ?_
  · assumption
  refine Within.foldl (fun _ _ => ?_) ?_
  · refine Within.app (State.openWindow_within _ _) rfl ?_
    exact Within.refl _ _
  refine Within.app (State.meetWindow_within _) rfl ?_
  assumption

theorem execRowIdleTimeout_within (a0) (a1) (a2) (s : State) :
    WithinX { chans := true, events := true } s (execRowIdleTimeout a0 a1 a2 s) := by
  unfold execRowIdleTimeout
  refine WithinX.next ?_
  refine Within.ite ?_ ?_
  · refine Within.app (State.event_within _ _ _ _) rfl ?_
    refine Within.app (State.precharge_within _ _ _ _) rfl ?_
    exact Within.refl _ _
  exact Within.refl _ _

theorem execScrubStep_within (a0) (a1) (s : State) :
    WithinX { free := true, trcCfg := true, irq := true, slices := true, chans := true, near := true, memIo := true, pba := true, mtu := true, ledger := true, bkt := true, flip := true, events := true, trc := true, outs := true } s (execScrubStep a0 a1 s) := by
  unfold execScrubStep
  refine WithinX.next ?_
  split
  · exact Within.refl _ _
  refine Within.ite ?_ ?_
  · refine WithinO.get (State.fire_within _ _ _) (by assumption) rfl ?_
    exact Within.refl _ _
  extract_lets +onlyGivenNames x
  clear_value x
  extract_lets +onlyGivenNames x
  clear_value x
  refine State.noFinds_within ?_ (fun _ => ?_)
  · refine WithinO.get (State.fire_within _ _ _) (by assumption) rfl ?_
    exact Within.refl _ _
  refine Within.foldl (fun _ _ => ?_) ?_
  · refine Within.app (State.scrubPump_within _ _) rfl ?_
    refine Within.foldl (fun _ _ => ?_) ?_
    · extract_lets +onlyGivenNames x
      clear_value x
      refine Within.app (State.scrubOne_within _ _ _) rfl ?_
      exact Within.refl _ _
    exact Within.refl _ _
  exact Within.refl _ _

theorem execSelfRefreshEntry_within (a0) (s : State) :
    WithinX { chans := true } s (execSelfRefreshEntry a0 s) := by
  unfold execSelfRefreshEntry
  refine WithinX.next ?_
  extract_lets +onlyGivenNames x
  clear_value x
  extract_lets +onlyGivenNames x
  clear_value x
  extract_lets +onlyGivenNames x
  clear_value x
  refine Within.ite ?_ ?_
  · refine Within.app (State.setChan_within _ _ _) rfl ?_
    exact Within.refl _ _
  exact Within.refl _ _

theorem execSelfRefreshExit_within (a0) (a1) (s : State) :
    WithinX { free := true, due := true, trcCfg := true, irq := true, slices := true, banks := true, chans := true, far := true, near := true, memIo := true, memCfg := true, hsf := true, bisnps := true, links := true, pba := true, hreqs := true, accs := true, fnc := true, xlts := true, xinv := true, rtrTx := true, dom := true, pors := true, ledger := true, bkt := true, flip := true, ras := true, mgtq := true, mgt := true, events := true, trc := true, outs := true } s (execSelfRefreshExit a0 a1 s) := by
  unfold execSelfRefreshExit
  refine WithinX.next ?_
  refine State.finding_within _ rfl ?_ (fun _ => ?_)
  · exact Within.refl _ _
  extract_lets +onlyGivenNames x
  clear_value x
  extract_lets +onlyGivenNames x
  clear_value x
  refine Within.ite ?_ ?_
  · refine Within.app (State.srExit_within _ _) rfl ?_
    exact Within.refl _ _
  exact Within.refl _ _

end Sys2Proof.Machine
end

