-- ==== Sys2Proof/Laws/ChCmd.lean ====
section
/-! SUPPORT. For each operation of Machine/ChCmd.lean one lemma: which pieces of the state it can change, and that it keeps the
invariant of Safety.lean. -/

set_option Elab.async false

namespace Sys2Proof.Machine

theorem State.chRawReadGo_within (s : State) (a1) (a2) (a3) (a4) (a5) :
    Within { free := true, finds := true, due := true, trcCfg := true, irq := true, slices := true, banks := true, chans := true, far := true, near := true, memIo := true, memCfg := true, hsf := true, bisnps := true, links := true, pba := true, hreqs := true, accs := true, fnc := true, xlts := true, xinv := true, rtrTx := true, dom := true, pors := true, ledger := true, bkt := true, flip := true, ras := true, mgtq := true, mgt := true, events := true, trc := true, outs := true } s (State.chRawReadGo s a1 a2 a3 a4 a5) := by
  unfold State.chRawReadGo
  split
  · refine Within.app (State.cmdEnd_within _ _ _ _) rfl ?_
    exact Within.refl _ _
  extract_lets +onlyGivenNames x
  clear_value x
  refine Within.ite ?_ ?_
  · refine Within.app (State.cmdEnd_within _ _ _ _) rfl ?_
    exact Within.refl _ _
  extract_lets +onlyGivenNames x
  refine Within.cut (x := x) ?_ ?_ <;> [(unfold x; clear x); (obtain ⟨y, e⟩ := named x; rewrite [← e]; clear e x; intro _)]
  · refine Within.app (State.srExit_within _ _) rfl ?_
    exact Within.refl _ _
  refine Within.ite ?_ ?_
  · extract_lets +onlyGivenNames x
    clear_value x
    refine Within.app (State.cmdEnd_within _ _ _ _) rfl ?_
    assumption
  refine Within.app (State.cmdEnd_within _ _ _ _) rfl ?_
  assumption

theorem State.putHouseLine_within (s : State) (a1) (a2) (a3) :
    Within { free := true, finds := true, due := true, trcCfg := true, irq := true, slices := true, banks := true, chans := true, far := true, near := true, memIo := true, pba := true, qmg := true, ledger := true, bkt := true, flip := true, events := true, trc := true, outs := true } s (State.putHouseLine s a1 a2 a3) := by
  unfold State.putHouseLine
  split
  · with_reducible (apply Within.upd <;> try first | exact .inl rfl | exact .inr rfl | exact id | assumption | exact Within.refl _ _)
    extract_lets +onlyGivenNames x
    with_reducible refine MemI.of ?_ ?_ <;> try exact id
  · refine Within.foldl (fun _ _ => ?_) ?_
    · split
      extract_lets +onlyGivenNames x
      clear_value x
      refine Within.app (State.setBank_within _ _ _) rfl ?_
      exact Within.refl _ _
    exact Within.refl _ _
  · with_reducible (apply Within.upd <;> try first | exact .inl rfl | exact .inr rfl | exact id | assumption | exact Within.refl _ _)
    extract_lets +onlyGivenNames x
    with_reducible refine QmgI.of ?_ <;> try exact id
  · with_reducible (apply Within.upd <;> try first | exact .inl rfl | exact .inr rfl | exact id | assumption | exact Within.refl _ _)
    extract_lets +onlyGivenNames x
    with_reducible refine QmgI.of ?_ <;> try exact id
  with_reducible (apply Within.upd <;> try first | exact .inl rfl | exact .inr rfl | exact id | assumption | exact Within.refl _ _)
  extract_lets +onlyGivenNames x
  with_reducible refine MemI.of ?_ ?_ <;> try exact id
  with_reducible exact fun h => Memory.wf_writeLine _ _ _ h

theorem State.chRawWriteGo_within (s : State) (a1) (a2) (a3) (a4) (a5) :
    Within { free := true, finds := true, due := true, trcCfg := true, irq := true, slices := true, banks := true, chans := true, far := true, near := true, memIo := true, memCfg := true, hsf := true, bisnps := true, links := true, pba := true, hreqs := true, accs := true, fnc := true, xlts := true, xinv := true, rtrTx := true, dom := true, pors := true, qmg := true, ledger := true, bkt := true, flip := true, ras := true, mgtq := true, mgt := true, events := true, trc := true, outs := true } s (State.chRawWriteGo s a1 a2 a3 a4 a5) := by
  unfold State.chRawWriteGo
  split
  · refine Within.app (State.cmdEnd_within _ _ _ _) rfl ?_
    exact Within.refl _ _
  extract_lets +onlyGivenNames x
  clear_value x
  refine Within.ite ?_ ?_
  · refine Within.app (State.cmdEnd_within _ _ _ _) rfl ?_
    exact Within.refl _ _
  extract_lets +onlyGivenNames x
  refine Within.cut (x := x) ?_ ?_ <;> [(unfold x; clear x); (obtain ⟨y, e⟩ := named x; rewrite [← e]; clear e x; intro _)]
  · refine Within.app (State.srExit_within _ _) rfl ?_
    exact Within.refl _ _
  extract_lets +onlyGivenNames x
  clear_value x
  extract_lets +onlyGivenNames x
  clear_value x
  extract_lets +onlyGivenNames x
  extract_lets +onlyGivenNames x
  refine Within.cut (x := x) ?_ ?_ <;> [(unfold x; clear x); (obtain ⟨y, e⟩ := named x; rewrite [← e]; clear e x; intro _)]
  · refine Within.app (State.flipNear_within _ _ _) rfl ?_
    with_reducible (apply Within.upd <;> try first | exact .inl rfl | exact .inr rfl | exact id | assumption | exact Within.refl _ _)
    with_reducible refine MemI.of ?_ ?_ <;> try exact id
  extract_lets +onlyGivenNames x
  extract_lets +onlyGivenNames x
  refine Within.cut (x := x) ?_ ?_ <;> [(unfold x; clear x); (obtain ⟨y, e⟩ := named x; rewrite [← e]; clear e x; intro _)]
  · refine Within.ite ?_ ?_
    · with_reducible (apply Within.upd <;> try first | exact .inl rfl | exact .inr rfl | exact id | assumption | exact Within.refl _ _)
      with_reducible refine MemI.of ?_ ?_ <;> try exact id
    refine Within.ite ?_ ?_
    · with_reducible (apply Within.upd <;> try first | exact .inl rfl | exact .inr rfl | exact id | assumption | exact Within.refl _ _)
      with_reducible refine MemI.of ?_ ?_ <;> try exact id
    refine Within.ite ?_ ?_
    · refine Within.app (State.putHouseLine_within _ _ _ _) rfl ?_
      assumption
    with_reducible (apply Within.upd <;> try first | exact .inl rfl | exact .inr rfl | exact id | assumption | exact Within.refl _ _)
    with_reducible refine MemI.of ?_ ?_ <;> try exact id
    with_reducible exact fun h => Memory.wf_writeLine _ _ _ h
  extract_lets +onlyGivenNames x
  extract_lets +onlyGivenNames x
  clear_value x
  extract_lets +onlyGivenNames x
  refine Within.cut (x := x) ?_ ?_ <;> [(unfold x; clear x); (obtain ⟨y, e⟩ := named x; rewrite [← e]; clear e x; intro _)]
  · refine Within.app (State.flipDone_within _ _ _ _) rfl ?_
    assumption
  extract_lets +onlyGivenNames x
  extract_lets +onlyGivenNames x
  refine Within.cut (x := x) ?_ ?_ <;> [(unfold x; clear x); (obtain ⟨y, e⟩ := named x; rewrite [← e]; clear e x; intro _)]
  · refine Within.ite ?_ ?_
    · with_reducible (apply Within.upd <;> try first | exact .inl rfl | exact .inr rfl | exact id | assumption | exact Within.refl _ _)
      with_reducible refine MemI.of ?_ ?_ <;> try exact id
    with_reducible (apply Within.upd <;> try first | exact .inl rfl | exact .inr rfl | exact id | assumption | exact Within.refl _ _)
    with_reducible refine MemI.of ?_ ?_ <;> try exact id
    with_reducible exact fun h => Memory.wf_writeLine _ _ _ h
  refine Within.app (State.cmdEnd_within _ _ _ _) rfl ?_
  assumption

theorem State.chRetrainGo_within (s : State) (a1) (a2) (a3) :
    Within { free := true, finds := true, due := true, trcCfg := true, irq := true, slices := true, banks := true, chans := true, far := true, near := true, memIo := true, memCfg := true, hsf := true, bisnps := true, links := true, pba := true, hreqs := true, accs := true, fnc := true, xlts := true, xinv := true, rtrTx := true, dom := true, pors := true, ledger := true, bkt := true, flip := true, ras := true, mgtq := true, mgt := true, events := true, trc := true, outs := true } s (State.chRetrainGo s a1 a2 a3) := by
  unfold State.chRetrainGo
  split
  · refine Within.app (State.cmdEnd_within _ _ _ _) rfl ?_
    exact Within.refl _ _
  extract_lets +onlyGivenNames x
  refine Within.cut (x := x) ?_ ?_ <;> [(unfold x; clear x); (obtain ⟨y, e⟩ := named x; rewrite [← e]; clear e x; intro _)]
  · refine Within.app (State.srExit_within _ _) rfl ?_
    exact Within.refl _ _
  refine Within.app (State.setChan_within _ _ _) rfl ?_
  assumption

theorem State.chThawGo_within (s : State) (a1) (a2) (a3) :
    Within { chans := true, links := true, pba := true, rtrTx := true, mgtq := true, events := true, outs := true } s (State.chThawGo s a1 a2 a3) := by
  unfold State.chThawGo
  split
  · refine Within.app (State.cmdEnd_within _ _ _ _) rfl ?_
    exact Within.refl _ _
  extract_lets +onlyGivenNames x
  clear_value x
  refine Within.app (State.setChan_within _ _ _) rfl ?_
  exact Within.refl _ _

theorem State.pasrSetGo_within (s : State) (a1) (a2) :
    Within { free := true, finds := true, due := true, trcCfg := true, irq := true, slices := true, banks := true, chans := true, far := true, near := true, memIo := true, memCfg := true, hsf := true, bisnps := true, links := true, pba := true, hreqs := true, accs := true, fnc := true, xlts := true, xinv := true, rtrTx := true, dom := true, pors := true, ledger := true, bkt := true, flip := true, ras := true, mgtq := true, mgt := true, events := true, trc := true, outs := true } s (State.pasrSetGo s a1 a2) := by
  unfold State.pasrSetGo
  extract_lets +onlyGivenNames x
  clear_value x
  extract_lets +onlyGivenNames x
  refine Within.cut (x := x) ?_ ?_ <;> [(unfold x; clear x); (obtain ⟨y, e⟩ := named x; rewrite [← e]; clear e x; intro _)]
  · refine Within.foldl (fun _ _ => ?_) ?_
    · refine Within.app (State.srExit_within _ _) rfl ?_
      exact Within.refl _ _
    exact Within.refl _ _
  refine Within.app (State.pasrPump_within _) rfl ?_
  refine Within.app (State.pasrClear_within _ _ _) rfl ?_
  assumption

theorem State.pprLine_within (s : State) (a1) (a2) :
    WithinP { free := true, finds := true, due := true, trcCfg := true, irq := true, slices := true, chans := true, far := true, near := true, memIo := true, pba := true, ledger := true, bkt := true, flip := true, ras := true, events := true, trc := true, outs := true } s (State.pprLine s a1 a2) := by
  unfold State.pprLine
  refine WithinP.ite ?_ ?_
  · refine WithinP.mk ?_
    exact Within.refl _ _
  dsimp -zeta only
  refine WithinP.mk ?_
  refine Within.app (State.farStore_within _ _ _ _) rfl ?_
  refine WithinP.snd (State.freeBool_within _) rfl ?_
  exact Within.refl _ _

theorem State.pprGo_within (s : State) (a1) (a2) (a3) (a4) (a5) (a6) (a7) (a8) :
    Within { free := true, finds := true, due := true, trcCfg := true, irq := true, slices := true, chans := true, far := true, near := true, memIo := true, memCfg := true, links := true, pba := true, rtrTx := true, ledger := true, bkt := true, flip := true, ras := true, mgtq := true, events := true, trc := true, outs := true } s (State.pprGo s a1 a2 a3 a4 a5 a6 a7 a8) := by
  unfold State.pprGo
  extract_lets +onlyGivenNames key
  extract_lets +onlyGivenNames hard
  extract_lets +onlyGivenNames d
  extract_lets +onlyGivenNames r
  extract_lets +onlyGivenNames r'
  clear_value r'
  refine Within.ite (Within.app (State.cmdEnd_within _ _ _ _) rfl (Within.refl _ _)) ?_
  split
  rename_i bad t h
  have ht : Within { free := true, finds := true, due := true, trcCfg := true, irq := true, slices := true, chans := true, far := true, near := true, memIo := true, memCfg := true, links := true, pba := true, rtrTx := true, ledger := true, bkt := true, flip := true, ras := true, mgtq := true, events := true, trc := true, outs := true } s t := WithinP.eq h (WithinP.foldl (fun _ _ _ => WithinP.app (State.pprLine_within _ _ _) rfl (Within.refl _ _))
    (WithinP.mk (Within.refl _ _)))
  clear h
  extract_lets +onlyGivenNames x
  extract_lets +onlyGivenNames x
  refine Within.cut (x := x) ?_ ?_ <;> [(unfold x; clear x); (obtain ⟨y, e⟩ := named x; rewrite [← e]; clear e x; intro _)]
  · refine Within.ite ?_ ?_
    · assumption
    refine Within.ite ?_ ?_
    · with_reducible (apply Within.upd <;> try first | exact .inl rfl | exact .inr rfl | exact id | assumption | exact Within.refl _ _)
      with_reducible refine MemI.of ?_ ?_ <;> try exact id
    with_reducible (apply Within.upd <;> try first | exact .inl rfl | exact .inr rfl | exact id | assumption | exact Within.refl _ _)
    with_reducible refine MemI.of ?_ ?_ <;> try exact id
  refine Within.app (State.cmdEnd_within _ _ _ _) rfl ?_
  assumption

theorem State.sweepChan_within (s : State) (a1) :
    Within { slices := true, near := true } s (State.sweepChan s a1) := by
  unfold State.sweepChan
  extract_lets +onlyGivenNames x
  clear_value x
  extract_lets +onlyGivenNames x
  extract_lets +onlyGivenNames x
  refine Within.cut (x := x) ?_ ?_ <;> [(unfold x; clear x); (obtain ⟨y, e⟩ := named x; rewrite [← e]; clear e x; intro _)]
  · with_reducible (apply Within.upd <;> try first | exact .inl rfl | exact .inr rfl | exact id | assumption | exact Within.refl _ _)
    with_reducible refine MemI.of ?_ ?_ <;> try exact id
  refine Within.foldl (fun _ _ => ?_) ?_
  · refine Within.app (State.modSlice_within _ _ _) rfl ?_
    exact Within.refl _ _
  assumption

theorem State.thawSweep_within (s : State) (a1) :
    Within { slices := true, near := true, mgt := true } s (State.thawSweep s a1) := by
  unfold State.thawSweep
  extract_lets +onlyGivenNames x
  refine Within.cut (x := x) ?_ ?_ <;> [(unfold x; clear x); (obtain ⟨y, e⟩ := named x; rewrite [← e]; clear e x; intro _)]
  · refine Within.app (State.sweepChan_within _ _) rfl ?_
    exact Within.refl _ _
  with_reducible (apply Within.upd <;> try first | exact .inl rfl | exact .inr rfl | exact id | assumption | exact Within.refl _ _)
  extract_lets +onlyGivenNames x
  with_reducible refine MgtI.of ?_ ?_ ?_ ?_ <;> try exact id

theorem execChannelTrainingComplete_within (a0) (a1) (s : State) :
    WithinX { free := true, due := true, trcCfg := true, irq := true, slices := true, banks := true, chans := true, far := true, near := true, memIo := true, hsf := true, bisnps := true, links := true, pba := true, hreqs := true, accs := true, fnc := true, xlts := true, xinv := true, rtrTx := true, dom := true, pors := true, ledger := true, bkt := true, flip := true, ras := true, mgtq := true, mgt := true, events := true, trc := true, outs := true } s (execChannelTrainingComplete a0 a1 s) := by
  unfold execChannelTrainingComplete
  refine WithinX.next ?_
  extract_lets +onlyGivenNames x
  clear_value x
  refine Within.ite ?_ ?_
  · exact Within.refl _ _
  extract_lets +onlyGivenNames x
  clear_value x
  extract_lets +onlyGivenNames x
  refine Within.cutS2 (x := x) ?_ ?_ <;> [(intro _ _ _; unfold x; clear x; try beta_reduce); (intro _; clear_value x)]
  · split
    · refine Within.app (State.cmdEnd_within _ _ _ _) rfl ?_
      exact Within.refl _ _
    exact Within.refl _ _
  extract_lets +onlyGivenNames x
  refine Within.cut (x := x) ?_ ?_ <;> [(unfold x; clear x); (obtain ⟨y, e⟩ := named x; rewrite [← e]; clear e x; intro _)]
  · refine Within.app (State.setChan_within _ _ _) rfl ?_
    exact Within.refl _ _
  refine Within.ite ?_ ?_
  · refine Within.ite ?_ ?_
    · extract_lets +onlyGivenNames x
      clear_value x
      extract_lets +onlyGivenNames x
      refine Within.cut (x := x) ?_ ?_ <;> [(unfold x; clear x); (obtain ⟨y, e⟩ := named x; rewrite [← e]; clear e x; intro _)]
      · refine Within.app (State.setChan_within _ _ _) rfl ?_
        assumption
      extract_lets +onlyGivenNames x
      refine Within.cut (x := x) ?_ ?_ <;> [(unfold x; clear x); (obtain ⟨y, e⟩ := named x; rewrite [← e]; clear e x; intro _)]
      · refine Within.ite ?_ ?_
        · refine Within.app (State.thawSweep_within _ _) rfl ?_
          assumption
        assumption
      refine Within.callS2 (by assumption) ?_
      assumption
    refine Within.callS2 (by assumption) ?_
    refine Within.app (State.setChan_within _ _ _) rfl ?_
    assumption
  refine Within.callS2 (by assumption) ?_
  refine State.noFinds_within ?_ (fun _ => ?_)
  · assumption
  refine Within.app (State.retrained_within _ _ _) rfl ?_
  exact Within.refl _ _

end Sys2Proof.Machine
end

