-- ==== Sys2Proof/Laws/Ras.lean ====
section
/-! SUPPORT. For each operation of Machine/Ras.lean one lemma: which pieces of the state it can change, and that it keeps the
invariant of Safety.lean. -/

set_option Elab.async false

namespace Sys2Proof.Machine

theorem State.dropRemote_within (s : State) :
    WithinP { free := true, slices := true, chans := true, near := true, memIo := true, flip := true, events := true } s (State.dropRemote s) := by
  unfold State.dropRemote
  dsimp -zeta only
  refine WithinP.foldl (fun _ _ _ => ?_) ?_
  · extract_lets +onlyGivenNames x
    clear_value x
    refine WithinP.mk ?_
    refine Within.app (State.modSlice_within _ _ _) rfl ?_
    change WithinP _ _ _
    refine WithinP.mk ?_
    exact Within.refl _ _
  refine WithinP.mk ?_
  refine Within.foldl_snd (fun _ _ => ?_) ?_
  · change WithinP _ _ _
    extract_lets +onlyGivenNames x
    clear_value x
    refine WithinP.foldl (fun _ _ _ => ?_) ?_
    · extract_lets +onlyGivenNames x
      clear_value x
      extract_lets +onlyGivenNames x
      clear_value x
      refine WithinP.ite ?_ ?_
      · refine WithinP.mk ?_
        refine Within.app (State.dropLine_within _ _ _ _ _) rfl ?_
        change WithinP _ _ _
        refine WithinP.mk ?_
        exact Within.refl _ _
      refine WithinP.mk ?_
      change WithinP _ _ _
      refine WithinP.mk ?_
      exact Within.refl _ _
    refine WithinP.mk ?_
    exact Within.refl _ _
  change WithinP _ _ _
  refine WithinP.mk ?_
  exact Within.refl _ _

theorem State.recallRemote_within (s : State) :
    Within { bisnps := true, events := true, outs := true } s (State.recallRemote s) := by
  unfold State.recallRemote
  refine Within.foldl (fun _ _ => ?_) ?_
  · refine Within.ite ?_ ?_
    · refine Within.app (State.recallDrop_within _ _ _) rfl ?_
      exact Within.refl _ _
    exact Within.refl _ _
  exact Within.refl _ _

theorem State.sweepRecall_within (s : State) (a1) (a2) (a3) (a4) :
    Within { free := true, finds := true, due := true, trcCfg := true, irq := true, slices := true, banks := true, chans := true, near := true, memIo := true, pba := true, ledger := true, bkt := true, flip := true, events := true, trc := true, outs := true } s (State.sweepRecall s a1 a2 a3 a4) := by
  unfold State.sweepRecall
  extract_lets +onlyGivenNames x
  clear_value x
  extract_lets +onlyGivenNames x
  refine Within.cut (x := x) ?_ ?_ <;> [(unfold x; clear x); (obtain ⟨y, e⟩ := named x; rewrite [← e]; clear e x; intro _)]
  · split
    · exact Within.refl _ _
    extract_lets +onlyGivenNames x
    refine Within.cut (x := x) ?_ ?_ <;> [(unfold x; clear x); (obtain ⟨y, e⟩ := named x; rewrite [← e]; clear e x; intro _)]
    · refine Within.ite ?_ ?_
      · exact Within.refl _ _
      refine Within.ite ?_ ?_
      · split
        · refine Within.app (State.farWriteLine_within _ _ _ _) rfl ?_
          exact Within.refl _ _
        exact Within.refl _ _
      refine Within.ite ?_ ?_
      · refine Within.app (State.farWriteLine_within _ _ _ _) rfl ?_
        exact Within.refl _ _
      refine Within.ite ?_ ?_
      · split
        · refine Within.ite ?_ ?_
          · refine Within.app (State.farWriteLine_within _ _ _ _) rfl ?_
            exact Within.refl _ _
          refine Within.app (State.farWriteLine_within _ _ _ _) rfl ?_
          exact Within.refl _ _
        refine Within.app (State.farWriteLine_within _ _ _ _) rfl ?_
        exact Within.refl _ _
      exact Within.refl _ _
    refine Within.app (State.dropTrk_within _ _ _) rfl ?_
    assumption
  extract_lets +onlyGivenNames x
  clear_value x
  refine Within.app (State.setBank_within _ _ _) rfl ?_
  assumption

theorem State.downSweep_within (s : State) (a1) (a2) :
    Within { free := true, finds := true, due := true, trcCfg := true, irq := true, slices := true, banks := true, chans := true, near := true, memIo := true, pba := true, ledger := true, bkt := true, flip := true, events := true, trc := true, outs := true } s (State.downSweep s a1 a2) := by
  unfold State.downSweep
  extract_lets +onlyGivenNames x
  clear_value x
  extract_lets +onlyGivenNames x
  refine Within.cut (x := x) ?_ ?_ <;> [(unfold x; clear x); (obtain ⟨y, e⟩ := named x; rewrite [← e]; clear e x; intro _)]
  · refine Within.ite ?_ ?_
    · refine Within.foldl (fun _ _ => ?_) ?_
      · split
        refine Within.app (State.sweepRecall_within _ _ _ _ _) rfl ?_
        exact Within.refl _ _
      exact Within.refl _ _
    refine Within.app (State.setBank_within _ _ _) rfl ?_
    refine Within.foldl (fun _ _ => ?_) ?_
    · split
      refine Within.app (State.dropTrk_within _ _ _) rfl ?_
      exact Within.refl _ _
    exact Within.refl _ _
  refine Within.ite ?_ ?_
  · refine Within.app (State.dirLose_within _ _) rfl ?_
    assumption
  extract_lets +onlyGivenNames x
  clear_value x
  extract_lets +onlyGivenNames x
  clear_value x
  refine Within.foldl (fun _ _ => ?_) ?_
  · split
    refine Within.app (State.sweepEnt_within _ _ _ _) rfl ?_
    exact Within.refl _ _
  assumption

theorem State.endRemoteMrs_within (s : State) :
    Within { free := true, due := true, trcCfg := true, irq := true, slices := true, chans := true, memIo := true, hsf := true, bisnps := true, links := true, pba := true, hreqs := true, accs := true, fnc := true, xlts := true, xinv := true, rtrTx := true, pors := true, ledger := true, bkt := true, flip := true, mgt := true, events := true, trc := true, outs := true } s (State.endRemoteMrs s) := by
  unfold State.endRemoteMrs
  refine Within.foldl (fun _ _ => ?_) ?_
  · refine Within.foldl (fun _ _ => ?_) ?_
    · refine Within.app (State.mrEnd_within _ _ _ _) rfl ?_
      exact Within.refl _ _
    exact Within.refl _ _
  exact Within.refl _ _

theorem State.endTrackers_within (s : State) :
    Within { free := true, finds := true, due := true, trcCfg := true, irq := true, slices := true, banks := true, chans := true, far := true, near := true, memIo := true, hsf := true, bisnps := true, links := true, pba := true, hreqs := true, accs := true, fnc := true, xlts := true, xinv := true, rtrTx := true, dom := true, pors := true, ledger := true, bkt := true, flip := true, ras := true, mgt := true, events := true, trc := true, outs := true } s (State.endTrackers s) := by
  unfold State.endTrackers
  refine Within.foldl (fun _ _ => ?_) ?_
  · extract_lets +onlyGivenNames x
    clear_value x
    extract_lets +onlyGivenNames x
    refine Within.cut (x := x) ?_ ?_ <;> [(unfold x; clear x); (obtain ⟨y, e⟩ := named x; rewrite [← e]; clear e x; intro _)]
    · refine Within.app (State.modSlice_within _ _ _) rfl ?_
      exact Within.refl _ _
    refine Within.foldl (fun _ _ => ?_) ?_
    · split
      · refine Within.ite ?_ ?_
        · exact Within.refl _ _
        refine Within.app (State.nack_within _ _ _ _ _) rfl ?_
        exact Within.refl _ _
      · refine Within.app (State.nack_within _ _ _ _ _) rfl ?_
        exact Within.refl _ _
      · refine Within.app (State.homeOwn_within _ _ _) rfl ?_
        exact Within.refl _ _
      exact Within.refl _ _
    assumption
  exact Within.refl _ _

theorem State.downSteps_within (s : State) :
    Within { free := true, finds := true, due := true, trcCfg := true, irq := true, slices := true, banks := true, chans := true, far := true, near := true, memIo := true, hsf := true, bisnps := true, links := true, pba := true, hreqs := true, accs := true, fnc := true, xlts := true, xinv := true, rtrTx := true, dom := true, pors := true, ledger := true, bkt := true, flip := true, ras := true, mgtq := true, mgt := true, events := true, trc := true, outs := true } s (State.downSteps s) := by
  unfold State.downSteps
  extract_lets +onlyGivenNames x
  clear_value x
  split
  extract_lets +onlyGivenNames x
  refine Within.cut (x := x) ?_ ?_ <;> [(unfold x; clear x); (obtain ⟨y, e⟩ := named x; rewrite [← e]; clear e x; intro _)]
  · refine Within.ite ?_ ?_
    · refine Within.app (State.recallRemote_within _) rfl ?_
      refine WithinP.eq (by assumption) ?_
      refine WithinP.ite ?_ ?_
      · refine WithinP.app (State.dropRemote_within _) rfl ?_
        exact Within.refl _ _
      refine WithinP.mk ?_
      exact Within.refl _ _
    refine WithinP.eq (by assumption) ?_
    refine WithinP.ite ?_ ?_
    · refine WithinP.app (State.dropRemote_within _) rfl ?_
      exact Within.refl _ _
    refine WithinP.mk ?_
    exact Within.refl _ _
  extract_lets +onlyGivenNames x
  refine Within.cut (x := x) ?_ ?_ <;> [(unfold x; clear x); (obtain ⟨y, e⟩ := named x; rewrite [← e]; clear e x; intro _)]
  · refine Within.foldl (fun _ _ => ?_) ?_
    · refine Within.app (State.downSweep_within _ _ _) rfl ?_
      exact Within.refl _ _
    assumption
  extract_lets +onlyGivenNames x
  clear_value x
  extract_lets +onlyGivenNames x
  refine Within.cut (x := x) ?_ ?_ <;> [(unfold x; clear x); (obtain ⟨y, e⟩ := named x; rewrite [← e]; clear e x; intro _)]
  · with_reducible (apply Within.upd <;> try first | exact .inl rfl | exact .inr rfl | exact id | assumption | exact Within.refl _ _)
  extract_lets +onlyGivenNames x
  refine Within.cut (x := x) ?_ ?_ <;> [(unfold x; clear x); (obtain ⟨y, e⟩ := named x; rewrite [← e]; clear e x; intro _)]
  · refine Within.app (State.rec__within _ _ _ _ _ _) rfl ?_
    refine Within.app (State.joinEnd_within _) rfl ?_
    refine Within.app (State.fencesDown_within _) rfl ?_
    refine Within.app (State.endRemoteMrs_within _) rfl ?_
    refine Within.app (State.endTrackers_within _) rfl ?_
    assumption
  refine Within.app (State.signalAll_within _ _) rfl ?_
  assumption

theorem State.reformClear_within (s : State) :
    Within { slices := true, links := true, pba := true, fnc := true, xlts := true } s (State.reformClear s) := by
  unfold State.reformClear
  extract_lets +onlyGivenNames x
  clear_value x
  extract_lets +onlyGivenNames x
  clear_value x
  extract_lets +onlyGivenNames x
  refine Within.cut (x := x) ?_ ?_ <;> [(unfold x; clear x); (obtain ⟨y, e⟩ := named x; rewrite [← e]; clear e x; intro _)]
  · with_reducible (apply Within.upd <;> try first | exact .inl rfl | exact .inr rfl | exact id | assumption | exact Within.refl _ _)
  refine Within.foldl (fun _ _ => ?_) ?_
  · refine Within.app (State.modSlice_within _ _ _) rfl ?_
    exact Within.refl _ _
  assumption

theorem State.domReformGo_within (s : State) (a1) :
    Within { free := true, finds := true, due := true, trcCfg := true, irq := true, slices := true, banks := true, chans := true, far := true, near := true, memIo := true, hsf := true, bisnps := true, links := true, pba := true, hreqs := true, accs := true, fnc := true, xlts := true, xinv := true, rtrTx := true, dom := true, pors := true, qmg := true, ledger := true, bkt := true, flip := true, ras := true, mgtq := true, mgt := true, events := true, trc := true, outs := true } s (State.domReformGo s a1) := by
  unfold State.domReformGo
  extract_lets +onlyGivenNames x
  refine Within.cut (x := x) ?_ ?_ <;> [(unfold x; clear x); (obtain ⟨y, e⟩ := named x; rewrite [← e]; clear e x; intro _)]
  · refine Within.ite ?_ ?_
    · refine Within.app (State.downSteps_within _) rfl ?_
      exact Within.refl _ _
    exact Within.refl _ _
  extract_lets +onlyGivenNames x
  clear_value x
  extract_lets +onlyGivenNames x
  refine Within.cut (x := x) ?_ ?_ <;> [(unfold x; clear x); (obtain ⟨y, e⟩ := named x; rewrite [← e]; clear e x; intro _)]
  · refine Within.app (State.endTrackers_within _) rfl ?_
    assumption
  extract_lets +onlyGivenNames x
  refine Within.cut (x := x) ?_ ?_ <;> [(unfold x; clear x); (obtain ⟨y, e⟩ := named x; rewrite [← e]; clear e x; intro _)]
  · refine Within.foldl (fun _ _ => ?_) ?_
    · refine Within.app (State.setBank_within _ _ _) rfl ?_
      exact Within.refl _ _
    assumption
  extract_lets +onlyGivenNames x
  refine Within.cut (x := x) ?_ ?_ <;> [(unfold x; clear x); (obtain ⟨y, e⟩ := named x; rewrite [← e]; clear e x; intro _)]
  · refine Within.foldl (fun _ _ => ?_) ?_
    · refine Within.app (State.zmapLost_within _ _) rfl ?_
      exact Within.refl _ _
    refine Within.app (State.poolInit_within _) rfl ?_
    assumption
  extract_lets +onlyGivenNames x
  extract_lets +onlyGivenNames x
  refine Within.cut (x := x) ?_ ?_ <;> [(unfold x; clear x); (obtain ⟨y, e⟩ := named x; rewrite [← e]; clear e x; intro _)]
  · refine Within.ite ?_ ?_
    · assumption
    with_reducible (apply Within.upd <;> try first | exact .inl rfl | exact .inr rfl | exact id | assumption | exact Within.refl _ _)
    with_reducible refine MgtI.of ?_ ?_ ?_ ?_ <;> try exact id
  extract_lets +onlyGivenNames x
  refine Within.cut (x := x) ?_ ?_ <;> [(unfold x; clear x); (obtain ⟨y, e⟩ := named x; rewrite [← e]; clear e x; intro _)]
  · refine Within.app (State.reformClear_within _) rfl ?_
    assumption
  refine Within.app (State.cmdEnd_within _ _ _ _) rfl ?_
  with_reducible (apply Within.upd <;> try first | exact .inl rfl | exact .inr rfl | exact id | assumption | exact Within.refl _ _)

theorem State.flipCtl_within (s : State) (a1) :
    Within { csr := true, trcCfg := true, flip := true } s (State.flipCtl s a1) := by
  unfold State.flipCtl
  extract_lets +onlyGivenNames x
  refine Within.cut (x := x) ?_ ?_ <;> [(unfold x; clear x); (obtain ⟨y, e⟩ := named x; rewrite [← e]; clear e x; intro _)]
  · refine Within.app (State.csrPut_within _ _ _) rfl ?_
    exact Within.refl _ _
  refine Within.ite ?_ ?_
  · with_reducible (apply Within.upd <;> try first | exact .inl rfl | exact .inr rfl | exact id | assumption | exact Within.refl _ _)
    extract_lets +onlyGivenNames x
    with_reducible refine RasI.of ?_ ?_ <;> try exact id
  assumption

theorem State.leak_within (s : State) (a1) :
    Within { bkt := true } s (State.leak s a1) := by
  unfold State.leak
  with_reducible (apply Within.upd <;> try first | exact .inl rfl | exact .inr rfl | exact id | assumption | exact Within.refl _ _)
  extract_lets +onlyGivenNames x
  with_reducible refine RasI.of ?_ ?_ <;> try exact id

theorem State.leakClock_within (s : State) :
    Within { bkt := true } s (State.leakClock s) := by
  unfold State.leakClock
  refine Within.foldl (fun _ _ => ?_) ?_
  · refine Within.app (State.leak_within _ _) rfl ?_
    exact Within.refl _ _
  with_reducible (apply Within.upd <;> try first | exact .inl rfl | exact .inr rfl | exact id | assumption | exact Within.refl _ _)
  extract_lets +onlyGivenNames x
  with_reducible refine RasI.of ?_ ?_ <;> try exact id

theorem State.ledgerClearGo_within (s : State) (a1) :
    Within { links := true, pba := true, rtrTx := true, ledger := true, mgtq := true, events := true, outs := true } s (State.ledgerClearGo s a1) := by
  unfold State.ledgerClearGo
  extract_lets +onlyGivenNames n
  refine Within.app (State.cmdEnd_within _ _ _ _) rfl ?_
  with_reducible (apply Within.upd; (on_goal 1 => first | assumption | exact Within.refl _ _); all_goals try first | exact .inl rfl | exact .inr rfl | exact id)
  exact RasI.of (fun _ => Nat.zero_le _) id

theorem State.ledgerOpen_within (s : State) :
    Within { trcCfg := true, irq := true, pba := true, ledger := true, ras := true, events := true, trc := true, outs := true } s (State.ledgerOpen s) := by
  unfold State.ledgerOpen
  refine Within.ite (Within.refl _ _) ?_
  extract_lets +onlyGivenNames p
  clear_value p
  refine Within.foldl (fun _ _ => Within.app (State.ringPut_within _ _) rfl (Within.refl _ _)) ?_
  with_reducible (apply Within.upd; (on_goal 1 => first | assumption | exact Within.refl _ _); all_goals try first | exact .inl rfl | exact .inr rfl | exact id)
  exact RasI.of id (fun _ => Nat.zero_le _)

theorem State.ledgerReadGo_within (s : State) (a1) (a2) (a3) :
    Within { links := true, pba := true, rtrTx := true, mgtq := true, events := true, outs := true } s (State.ledgerReadGo s a1 a2 a3) := by
  unfold State.ledgerReadGo
  refine Within.app (State.cmdEnd_within _ _ _ _) rfl ?_
  exact Within.refl _ _

theorem State.pgcZero_within (s : State) (a1) (a2) :
    Within { free := true, finds := true, due := true, trcCfg := true, irq := true, slices := true, chans := true, far := true, near := true, memIo := true, pba := true, ledger := true, bkt := true, flip := true, ras := true, events := true, trc := true, outs := true } s (State.pgcZero s a1 a2) := by
  unfold State.pgcZero
  refine Within.app (State.pgcPut_within _ _ _ _) rfl ?_
  exact Within.refl _ _

theorem execArm_within (a0) (a1) (s : State) :
    WithinX { csr := true, trcCfg := true, flip := true } s (execArm a0 a1 s) := by
  unfold execArm
  refine WithinX.next ?_
  refine Within.ite ?_ ?_
  · refine Within.app (State.flipCtl_within _ _) rfl ?_
    exact Within.refl _ _
  exact Within.refl _ _

theorem execDomainDownEntry_within (a0) (s : State) :
    WithinX { free := true, due := true, trcCfg := true, irq := true, slices := true, banks := true, chans := true, far := true, near := true, memIo := true, hsf := true, bisnps := true, links := true, pba := true, hreqs := true, accs := true, fnc := true, xlts := true, xinv := true, rtrTx := true, dom := true, pors := true, ledger := true, bkt := true, flip := true, ras := true, mgtq := true, mgt := true, events := true, trc := true, outs := true } s (execDomainDownEntry a0 s) := by
  unfold execDomainDownEntry
  refine WithinX.next ?_
  refine State.finding_within _ rfl ?_ (fun _ => ?_)
  · exact Within.refl _ _
  refine Within.ite ?_ ?_
  · refine Within.app (State.downSteps_within _) rfl ?_
    exact Within.refl _ _
  exact Within.refl _ _

theorem execLeakyBucketLeak_within (a0) (s : State) :
    WithinX { mtu := true, bkt := true } s (execLeakyBucketLeak a0 s) := by
  unfold execLeakyBucketLeak
  refine WithinX.next ?_
  split
  · exact Within.refl _ _
  with_reducible (apply Within.upd <;> try first | exact .inl rfl | exact .inr rfl | exact id | assumption | exact Within.refl _ _)
  · refine WithinO.get (State.fire_within _ _ _) (by assumption) rfl ?_
    exact Within.refl _ _
  extract_lets +onlyGivenNames x
  with_reducible refine RasI.of ?_ ?_ <;> try exact id

theorem execPageCodeEnable_within (a0) (a1) (s : State) :
    WithinX { csr := true, trcCfg := true, ras := true } s (execPageCodeEnable a0 a1 s) := by
  unfold execPageCodeEnable
  refine WithinX.next ?_
  refine Within.ite ?_ ?_
  · extract_lets +onlyGivenNames x
    refine Within.cut (x := x) ?_ ?_ <;> [(unfold x; clear x); (obtain ⟨y, e⟩ := named x; rewrite [← e]; clear e x; intro _)]
    · refine Within.app (State.csrPut_within _ _ _) rfl ?_
      exact Within.refl _ _
    with_reducible (apply Within.upd <;> try first | exact .inl rfl | exact .inr rfl | exact id | assumption | exact Within.refl _ _)
    extract_lets +onlyGivenNames x
    with_reducible refine RasI.of ?_ ?_ <;> try exact id
  exact Within.refl _ _

theorem execPageCodeInitDone_within (a0) (s : State) :
    WithinX { free := true, due := true, trcCfg := true, irq := true, slices := true, chans := true, far := true, near := true, memIo := true, pba := true, ledger := true, bkt := true, flip := true, ras := true, events := true, trc := true, outs := true } s (execPageCodeInitDone a0 s) := by
  unfold execPageCodeInitDone
  refine WithinX.next ?_
  refine Within.ite ?_ ?_
  · extract_lets +onlyGivenNames x
    clear_value x
    extract_lets +onlyGivenNames x
    refine Within.cut (x := x) ?_ ?_ <;> [(unfold x; clear x); (obtain ⟨y, e⟩ := named x; rewrite [← e]; clear e x; intro _)]
    · refine State.noFinds_within ?_ (fun _ => ?_)
      · exact Within.refl _ _
      refine Within.foldl (fun _ _ => ?_) ?_
      · refine Within.ite ?_ ?_
        · refine Within.app (State.pgcZero_within _ _ _) rfl ?_
          exact Within.refl _ _
        refine Within.app (State.pgcParity_within _ _ _) rfl ?_
        exact Within.refl _ _
      exact Within.refl _ _
    with_reducible (apply Within.upd <;> try first | exact .inl rfl | exact .inr rfl | exact id | assumption | exact Within.refl _ _)
    extract_lets +onlyGivenNames x
    with_reducible refine RasI.of ?_ ?_ <;> try exact id
  exact Within.refl _ _

end Sys2Proof.Machine
end

