-- ==== Sys2Proof/Laws/Maint.lean ====
section
/-! SUPPORT. For each operation of Machine/Maint.lean one lemma: which pieces of the state it can change, and that it keeps the
invariant of Safety.lean. -/

set_option Elab.async false

namespace Sys2Proof.Machine

theorem State.cacheModeGo_within (s : State) (a1) (a2) :
    Within { mode := true, links := true, pba := true, rtrTx := true, mgtq := true, mgt := true, events := true, outs := true } s (State.cacheModeGo s a1 a2) := by
  unfold State.cacheModeGo
  refine Within.ite ?_ ?_
  · with_reducible (apply Within.upd <;> try first | exact .inl rfl | exact .inr rfl | exact id | assumption | exact Within.refl _ _)
    extract_lets +onlyGivenNames x
    with_reducible refine MgtI.of ?_ ?_ ?_ ?_ <;> try exact id
  refine Within.app (State.cmdEnd_within _ _ _ _) rfl ?_
  with_reducible (apply Within.upd <;> try first | exact .inl rfl | exact .inr rfl | exact id | assumption | exact Within.refl _ _)
  exact fun _ => (by omega)

theorem State.cleanWay_within (s : State) (a1) (a2) (a3) (a4) (a5) :
    Within { free := true, finds := true, trcCfg := true, irq := true, slices := true, chans := true, near := true, memIo := true, pba := true, ledger := true, bkt := true, flip := true, events := true, trc := true, outs := true } s (State.cleanWay s a1 a2 a3 a4 a5) := by
  unfold State.cleanWay
  extract_lets +onlyGivenNames x
  clear_value x
  split
  refine Within.ite ?_ ?_
  · refine Within.app (State.setLineState_within _ _ _ _ _) rfl ?_
    refine Within.app (State.ueData_within _ _ _ _ _) rfl ?_
    refine WithinP.get (State.readWay_within _ _ _ _ _) (by assumption) rfl ?_
    exact Within.refl _ _
  extract_lets +onlyGivenNames x
  clear_value x
  refine Within.app (State.setLineState_within _ _ _ _ _) rfl ?_
  refine Within.app (State.farWriteLine_within _ _ _ _) rfl ?_
  refine WithinP.get (State.readWay_within _ _ _ _ _) (by assumption) rfl ?_
  exact Within.refl _ _

theorem State.flatRecall_within (s : State) (a1) :
    WithinP { bisnps := true, events := true, outs := true } s (State.flatRecall s a1) := by
  unfold State.flatRecall
  extract_lets +onlyGivenNames x
  clear_value x
  extract_lets +onlyGivenNames x
  refine WithinP.cut (x := x) ?_ ?_ <;> [(unfold x; clear x); (obtain ⟨y, e⟩ := named x; rewrite [← e]; clear e x; intro _)]
  · refine Within.foldl (fun _ _ => ?_) ?_
    · refine Within.ite ?_ ?_
      · refine Within.app (State.recall_within _ _ _ _ _ _) rfl ?_
        exact Within.refl _ _
      exact Within.refl _ _
    exact Within.refl _ _
  refine WithinP.mk ?_
  assumption

theorem State.lowerSet_within (s : State) (a1) (a2) (a3) :
    WithinP { free := true, finds := true, trcCfg := true, irq := true, slices := true, chans := true, near := true, memIo := true, pba := true, ledger := true, bkt := true, flip := true, events := true, trc := true, outs := true } s (State.lowerSet s a1 a2 a3) := by
  unfold State.lowerSet
  split
  · refine WithinP.mk ?_
    refine Within.app (State.event_within _ _ _ _) rfl ?_
    exact Within.refl _ _
  refine WithinP.mk ?_
  refine Within.foldl (fun _ _ => ?_) ?_
  · refine Within.app (State.putEnt_within _ _ _ _ _) rfl ?_
    exact Within.refl _ _
  refine WithinO.get (State.touchSet_within _ _ _) (by assumption) rfl ?_
  exact Within.refl _ _

theorem State.maintDrop_within (s : State) (a1) (a2) (a3) :
    Within { free := true, slices := true, chans := true, near := true, memIo := true, flip := true, mgt := true, events := true } s (State.maintDrop s a1 a2 a3) := by
  unfold State.maintDrop
  extract_lets +onlyGivenNames x
  clear_value x
  refine Within.app (State.modRange_within _ _) rfl ?_
  refine Within.app (State.dropLine_within _ _ _ _ _) rfl ?_
  exact Within.refl _ _

theorem State.maintEvict_within (s : State) (a1) (a2) (a3) :
    WithinO { free := true, finds := true, trcCfg := true, irq := true, slices := true, chans := true, near := true, memIo := true, bisnps := true, pba := true, rtrTx := true, ledger := true, bkt := true, flip := true, mgt := true, events := true, trc := true, outs := true } s (State.maintEvict s a1 a2 a3) := by
  unfold State.maintEvict
  extract_lets +onlyGivenNames x
  clear_value x
  refine WithinO.mapS (fun _ => ?_) ?_
  · refine Within.app (State.modRange_within _ _) rfl ?_
    exact Within.refl _ _
  refine WithinO.app (State.evictWay_within _ _ _ _) rfl ?_
  exact Within.refl _ _

theorem State.restoreSet_within (s : State) (a1) (a2) (a3) :
    Within { free := true, finds := true, trcCfg := true, irq := true, slices := true, chans := true, near := true, memIo := true, pba := true, ledger := true, bkt := true, flip := true, mgt := true, events := true, trc := true, outs := true } s (State.restoreSet s a1 a2 a3) := by
  unfold State.restoreSet
  extract_lets +onlyGivenNames x
  clear_value x
  extract_lets +onlyGivenNames x
  clear_value x
  refine Within.ite ?_ ?_
  · exact Within.refl _ _
  split
  · refine Within.app (State.modRange_within _ _) rfl ?_
    refine Within.app (State.putEnt_within _ _ _ _ _) rfl ?_
    exact Within.refl _ _
  extract_lets +onlyGivenNames x
  clear_value x
  extract_lets +onlyGivenNames x
  refine Within.cut (x := x) ?_ ?_ <;> [(unfold x; clear x); (obtain ⟨y, e⟩ := named x; rewrite [← e]; clear e x; intro _)]
  · refine Within.app (State.putRec_within _ _ _ _) rfl ?_
    refine Within.app (State.putEnt_within _ _ _ _ _) rfl ?_
    exact Within.refl _ _
  refine Within.app (State.modRange_within _ _) rfl ?_
  refine Within.app (State.rec__within _ _ _ _ _ _) rfl ?_
  assumption

theorem State.raiseSet_within (s : State) (a1) (a2) (a3) :
    WithinP { free := true, finds := true, trcCfg := true, irq := true, slices := true, chans := true, near := true, memIo := true, bisnps := true, pba := true, rtrTx := true, ledger := true, bkt := true, flip := true, mgt := true, events := true, trc := true, outs := true } s (State.raiseSet s a1 a2 a3) := by
  unfold State.raiseSet
  dsimp -zeta only
  split
  · refine WithinP.mk ?_
    refine Within.app (State.event_within _ _ _ _) rfl ?_
    exact Within.refl _ _
  extract_lets +onlyGivenNames x
  clear_value x
  extract_lets +onlyGivenNames x
  clear_value x
  extract_lets +onlyGivenNames x
  clear_value x
  refine WithinP.ite ?_ ?_
  · refine WithinP.mk ?_
    refine Within.foldl_snd (fun _ _ => ?_) ?_
    · change WithinP _ _ _
      extract_lets +onlyGivenNames x
      clear_value x
      refine WithinP.ite ?_ ?_
      · refine WithinP.mk ?_
        exact Within.refl _ _
      refine WithinP.ite ?_ ?_
      · refine WithinP.mk ?_
        exact Within.refl _ _
      split
      · refine WithinP.mk ?_
        refine WithinO.get (State.maintEvict_within _ _ _ _) (by assumption) rfl ?_
        exact Within.refl _ _
      refine WithinP.mk ?_
      exact Within.refl _ _
    change WithinP _ _ _
    refine WithinP.mk ?_
    refine WithinO.get (State.touchSet_within _ _ _) (by assumption) rfl ?_
    exact Within.refl _ _
  extract_lets +onlyGivenNames x
  refine WithinP.cut (x := x) ?_ ?_ <;> [(unfold x; clear x); (obtain ⟨y, e⟩ := named x; rewrite [← e]; clear e x; intro _)]
  · refine Within.foldl (fun _ _ => ?_) ?_
    · extract_lets +onlyGivenNames x
      clear_value x
      extract_lets +onlyGivenNames x
      refine Within.cut (x := x) ?_ ?_ <;> [(unfold x; clear x); (obtain ⟨y, e⟩ := named x; rewrite [← e]; clear e x; intro _)]
      · refine Within.ite ?_ ?_
        · refine Within.app (State.modRange_within _ _) rfl ?_
          exact Within.refl _ _
        exact Within.refl _ _
      refine Within.app (State.wayPut_within _ _ _ _ _ _) rfl ?_
      refine Within.app (State.putEnt_within _ _ _ _ _) rfl ?_
      assumption
    refine Within.foldl_snd (fun _ _ => ?_) ?_
    · change WithinP _ _ _
      extract_lets +onlyGivenNames x
      clear_value x
      refine WithinP.ite ?_ ?_
      · refine WithinP.mk ?_
        exact Within.refl _ _
      refine WithinP.ite ?_ ?_
      · refine WithinP.mk ?_
        exact Within.refl _ _
      split
      · refine WithinP.mk ?_
        refine WithinO.get (State.maintEvict_within _ _ _ _) (by assumption) rfl ?_
        exact Within.refl _ _
      refine WithinP.mk ?_
      exact Within.refl _ _
    change WithinP _ _ _
    refine WithinP.mk ?_
    refine WithinO.get (State.touchSet_within _ _ _) (by assumption) rfl ?_
    exact Within.refl _ _
  refine WithinP.mk ?_
  refine Within.app (State.restoreSet_within _ _ _ _) rfl ?_
  assumption

theorem State.visitHosts_within (s : State) (a1) (a2) (a3) :
    Within { bisnps := true, events := true, outs := true } s (State.visitHosts s a1 a2 a3) := by
  unfold State.visitHosts
  refine Within.ite ?_ ?_
  · refine Within.app (State.recallAll_within _ _ _) rfl ?_
    exact Within.refl _ _
  exact Within.refl _ _

theorem State.rangePoison_within (s : State) :
    Within { mgt := true } s (State.rangePoison s) := by
  unfold State.rangePoison
  refine Within.app (State.modRange_within _ _) rfl ?_
  exact Within.refl _ _

theorem State.rangeAffected_within (s : State) :
    Within { mgt := true } s (State.rangeAffected s) := by
  unfold State.rangeAffected
  refine Within.app (State.modRange_within _ _) rfl ?_
  exact Within.refl _ _

theorem State.visitWay_within (s : State) (a1) (a2) (a3) (a4) (a5) (a6) (a7) :
    WithinO { free := true, finds := true, trcCfg := true, irq := true, slices := true, chans := true, near := true, memIo := true, bisnps := true, pba := true, rtrTx := true, ledger := true, bkt := true, flip := true, mgt := true, events := true, trc := true, outs := true } s (State.visitWay s a1 a2 a3 a4 a5 a6 a7) := by
  unfold State.visitWay
  extract_lets +onlyGivenNames x
  clear_value x
  extract_lets +onlyGivenNames x
  clear_value x
  extract_lets +onlyGivenNames x
  clear_value x
  refine WithinO.ite ?_ ?_
  · exact WithinO.none _ _
  refine WithinO.ite ?_ ?_
  · exact WithinO.none _ _
  extract_lets +onlyGivenNames x
  refine WithinO.cut (x := x) ?_ ?_ <;> [(unfold x; clear x); (obtain ⟨y, e⟩ := named x; rewrite [← e]; clear e x; intro _)]
  · refine Within.ite ?_ ?_
    · refine Within.app (State.rangePoison_within _) rfl ?_
      exact Within.refl _ _
    exact Within.refl _ _
  refine WithinO.ite ?_ ?_
  · refine WithinO.ite ?_ ?_
    · refine WithinO.some ?_
      assumption
    refine WithinO.ite ?_ ?_
    · extract_lets +onlyGivenNames x
      refine WithinO.cut (x := x) ?_ ?_ <;> [(unfold x; clear x); (obtain ⟨y, e⟩ := named x; rewrite [← e]; clear e x; intro _)]
      · refine Within.app (State.cleanWay_within _ _ _ _ _ _) rfl ?_
        assumption
      refine WithinO.some ?_
      refine Within.ite ?_ ?_
      · refine Within.app (State.rangePoison_within _) rfl ?_
        assumption
      refine Within.app (State.rangeAffected_within _) rfl ?_
      assumption
    refine WithinO.app (State.maintEvict_within _ _ _ _) rfl ?_
    assumption
  refine WithinO.ite ?_ ?_
  · refine WithinO.ite ?_ ?_
    · refine WithinO.some ?_
      assumption
    refine WithinO.app (State.maintEvict_within _ _ _ _) rfl ?_
    assumption
  refine WithinO.ite ?_ ?_
  · refine WithinO.some ?_
    refine Within.app (State.rangeAffected_within _) rfl ?_
    refine Within.app (State.toSlice_within _ _ _) rfl ?_
    assumption
  refine WithinO.ite ?_ ?_
  · refine WithinO.ite ?_ ?_
    · refine WithinO.some ?_
      assumption
    refine WithinO.some ?_
    refine Within.app (State.maintDrop_within _ _ _ _) rfl ?_
    assumption
  refine WithinO.ite ?_ ?_
  · refine WithinO.some ?_
    refine Within.app (State.lockLine_within _ _ _) rfl ?_
    assumption
  refine WithinO.ite ?_ ?_
  · refine WithinO.some ?_
    assumption
  refine WithinO.ite ?_ ?_
  · refine WithinO.some ?_
    refine Within.app (State.rangeAffected_within _) rfl ?_
    refine Within.app (State.putEnt_within _ _ _ _ _) rfl ?_
    assumption
  refine WithinO.some ?_
  assumption

theorem State.visitSet_within (s : State) (a1) (a2) (a3) (a4) (a5) :
    WithinP { free := true, finds := true, trcCfg := true, irq := true, slices := true, chans := true, near := true, memIo := true, bisnps := true, pba := true, rtrTx := true, ledger := true, bkt := true, flip := true, mgt := true, events := true, trc := true, outs := true } s (State.visitSet s a1 a2 a3 a4 a5) := by
  unfold State.visitSet
  dsimp -zeta only
  split
  · refine WithinP.mk ?_
    refine Within.app (State.event_within _ _ _ _) rfl ?_
    exact Within.refl _ _
  refine WithinP.foldl (fun _ _ _ => ?_) ?_
  · extract_lets +onlyGivenNames x
    clear_value x
    refine WithinP.ite ?_ ?_
    · refine WithinP.mk ?_
      change WithinP _ _ _
      refine WithinP.mk ?_
      exact Within.refl _ _
    extract_lets +onlyGivenNames x
    refine WithinP.cut (x := x) ?_ ?_ <;> [(unfold x; clear x); (obtain ⟨y, e⟩ := named x; rewrite [← e]; clear e x; intro _)]
    · refine Within.app (State.visitHosts_within _ _ _ _) rfl ?_
      change WithinP _ _ _
      refine WithinP.mk ?_
      exact Within.refl _ _
    dsimp -zeta only
    split
    · refine WithinP.mk ?_
      refine Within.app (State.modRange_within _ _) rfl ?_
      refine WithinO.get (State.visitWay_within _ _ _ _ _ _ _ _) (by assumption) rfl ?_
      assumption
    refine WithinP.mk ?_
    assumption
  refine WithinP.mk ?_
  refine WithinO.get (State.touchSet_within _ _ _) (by assumption) rfl ?_
  exact Within.refl _ _

theorem State.rangeRefused_within (s : State) :
    Within { mgt := true } s (State.rangeRefused s) := by
  unfold State.rangeRefused
  refine Within.app (State.modRange_within _ _) rfl ?_
  exact Within.refl _ _

theorem State.visitLine_within (s : State) (a1) (a2) (a3) :
    WithinP { free := true, finds := true, trcCfg := true, irq := true, slices := true, chans := true, near := true, memIo := true, bisnps := true, pba := true, rtrTx := true, ledger := true, bkt := true, flip := true, mgt := true, events := true, trc := true, outs := true } s (State.visitLine s a1 a2 a3) := by
  unfold State.visitLine
  extract_lets +onlyGivenNames x
  clear_value x
  refine WithinP.ite ?_ ?_
  · refine WithinP.mk ?_
    refine Within.app (State.event_within _ _ _ _) rfl ?_
    exact Within.refl _ _
  dsimp -zeta only
  refine WithinP.ite ?_ ?_
  · refine WithinP.mk ?_
    refine WithinP.snd (State.touchLine_within _ _ _) rfl ?_
    exact Within.refl _ _
  refine WithinP.ite ?_ ?_
  · extract_lets +onlyGivenNames x
    refine WithinP.cut (x := x) ?_ ?_ <;> [(unfold x; clear x); (obtain ⟨y, e⟩ := named x; rewrite [← e]; clear e x; intro _)]
    · refine Within.app (State.visitHosts_within _ _ _ _) rfl ?_
      refine WithinP.snd (State.touchLine_within _ _ _) rfl ?_
      exact Within.refl _ _
    refine WithinP.mk ?_
    assumption
  split
  · extract_lets +onlyGivenNames x
    refine WithinP.cut (x := x) ?_ ?_ <;> [(unfold x; clear x); (obtain ⟨y, e⟩ := named x; rewrite [← e]; clear e x; intro _)]
    · refine Within.app (State.visitHosts_within _ _ _ _) rfl ?_
      refine WithinP.snd (State.touchLine_within _ _ _) rfl ?_
      exact Within.refl _ _
    split
    · refine WithinP.mk ?_
      refine WithinO.get (State.visitWay_within _ _ _ _ _ _ _ _) (by assumption) rfl ?_
      assumption
    refine WithinP.mk ?_
    assumption
  refine WithinP.ite ?_ ?_
  · refine WithinP.mk ?_
    refine Within.app (State.rangeAffected_within _) rfl ?_
    refine Within.app (State.toSlice_within _ _ _) rfl ?_
    refine WithinP.snd (State.touchLine_within _ _ _) rfl ?_
    exact Within.refl _ _
  refine WithinP.ite ?_ ?_
  · refine WithinP.ite ?_ ?_
    · refine WithinP.mk ?_
      refine Within.app (State.rangeRefused_within _) rfl ?_
      refine WithinP.snd (State.touchLine_within _ _ _) rfl ?_
      exact Within.refl _ _
    refine WithinP.mk ?_
    refine Within.app (State.toSlice_within _ _ _) rfl ?_
    refine WithinP.snd (State.touchLine_within _ _ _) rfl ?_
    exact Within.refl _ _
  refine WithinP.mk ?_
  refine WithinP.snd (State.touchLine_within _ _ _) rfl ?_
  exact Within.refl _ _

theorem State.visit_within (s : State) (a1) (a2) (a3) :
    WithinP { free := true, finds := true, trcCfg := true, irq := true, slices := true, chans := true, near := true, memIo := true, bisnps := true, pba := true, rtrTx := true, ledger := true, bkt := true, flip := true, mgt := true, events := true, trc := true, outs := true } s (State.visit s a1 a2 a3) := by
  unfold State.visit
  refine WithinP.ite ?_ ?_
  · refine WithinP.app (State.raiseSet_within _ _ _ _) rfl ?_
    exact Within.refl _ _
  refine WithinP.ite ?_ ?_
  · refine WithinP.ite ?_ ?_
    · refine WithinP.mk ?_
      exact Within.refl _ _
    dsimp -zeta only
    refine WithinP.ite ?_ ?_
    · refine WithinP.app (State.lowerSet_within _ _ _ _) rfl ?_
      refine WithinP.snd (State.flatRecall_within _ _) rfl ?_
      exact Within.refl _ _
    refine WithinP.mk ?_
    refine WithinP.snd (State.flatRecall_within _ _) rfl ?_
    exact Within.refl _ _
  refine WithinP.ite ?_ ?_
  · refine WithinP.app (State.visitSet_within _ _ _ _ _ _) rfl ?_
    exact Within.refl _ _
  extract_lets +onlyGivenNames x
  clear_value x
  refine WithinP.ite ?_ ?_
  · refine WithinP.app (State.visitLine_within _ _ _ _) rfl ?_
    exact Within.refl _ _
  refine WithinP.mk ?_
  exact Within.refl _ _

theorem State.retiredBack_within (s : State) (a1) (a2) :
    Within { free := true, slices := true, chans := true, near := true, memIo := true, flip := true, events := true } s (State.retiredBack s a1 a2) := by
  unfold State.retiredBack
  refine Within.foldl (fun _ _ => ?_) ?_
  · split
    refine Within.foldl (fun _ _ => ?_) ?_
    · refine Within.app (State.putEnt_within _ _ _ _ _) rfl ?_
      exact Within.refl _ _
    exact Within.refl _ _
  exact Within.refl _ _

theorem State.partEnd_within (s : State) :
    Within { free := true, glbPart := true, slices := true, chans := true, near := true, memIo := true, links := true, pba := true, rtrTx := true, flip := true, mgtq := true, mgt := true, events := true, outs := true } s (State.partEnd s) := by
  unfold State.partEnd
  split
  · exact Within.refl _ _
  refine Within.ite ?_ ?_
  · exact Within.refl _ _
  extract_lets +onlyGivenNames x
  clear_value x
  extract_lets +onlyGivenNames x
  refine Within.cut (x := x) ?_ ?_ <;> [(unfold x; clear x); (obtain ⟨y, e⟩ := named x; rewrite [← e]; clear e x; intro _)]
  · refine Within.ite ?_ ?_
    · refine Within.app (State.retiredBack_within _ _ _) rfl ?_
      exact Within.refl _ _
    exact Within.refl _ _
  refine Within.app (State.cmdEnd_within _ _ _ _) rfl ?_
  with_reducible (apply Within.upd <;> try first | exact .inl rfl | exact .inr rfl | exact id | assumption | exact Within.refl _ _)
  extract_lets +onlyGivenNames x
  with_reducible refine MgtI.of ?_ ?_ ?_ ?_ <;> try exact id

theorem State.maintLookup_within (s : State) (a1) :
    Within { free := true, finds := true, trcCfg := true, irq := true, glbPart := true, slices := true, chans := true, near := true, memIo := true, bisnps := true, links := true, pba := true, rtrTx := true, ledger := true, bkt := true, flip := true, mgtq := true, mgt := true, events := true, trc := true, outs := true } s (State.maintLookup s a1) := by
  unfold State.maintLookup
  split
  · exact Within.refl _ _
  extract_lets +onlyGivenNames x
  clear_value x
  refine Within.ite ?_ ?_
  · exact Within.refl _ _
  split
  refine Within.ite ?_ ?_
  · refine Within.app (State.partEnd_within _) rfl ?_
    refine Within.app (State.modRange_within _ _) rfl ?_
    refine WithinP.get (State.visit_within _ _ _ _) (by assumption) rfl ?_
    exact Within.refl _ _
  refine WithinP.get (State.visit_within _ _ _ _) (by assumption) rfl ?_
  exact Within.refl _ _

theorem State.partSetFlatGo_within (s : State) (a1) (a2) :
    Within { links := true, pba := true, rtrTx := true, mgtq := true, mgt := true, events := true, outs := true } s (State.partSetFlatGo s a1 a2) := by
  unfold State.partSetFlatGo
  extract_lets +onlyGivenNames x
  clear_value x
  extract_lets +onlyGivenNames x
  clear_value x
  refine Within.ite ?_ ?_
  · refine Within.app (State.cmdEnd_within _ _ _ _) rfl ?_
    exact Within.refl _ _
  with_reducible (apply Within.upd <;> try first | exact .inl rfl | exact .inr rfl | exact id | assumption | exact Within.refl _ _)
  extract_lets +onlyGivenNames x
  with_reducible refine MgtI.of ?_ ?_ ?_ ?_ <;> try exact id

theorem State.rangeOpGo_within (s : State) (a1) (a2) (a3) (a4) (a5) :
    Within { mgt := true } s (State.rangeOpGo s a1 a2 a3 a4 a5) := by
  unfold State.rangeOpGo
  with_reducible (apply Within.upd <;> try first | exact .inl rfl | exact .inr rfl | exact id | assumption | exact Within.refl _ _)
  extract_lets +onlyGivenNames x
  with_reducible refine MgtI.of ?_ ?_ ?_ ?_ <;> try exact id

theorem State.unretireGo_within (s : State) (a1) (a2) (a3) (a4) :
    Within { free := true, finds := true, trcCfg := true, irq := true, slices := true, chans := true, near := true, memIo := true, links := true, pba := true, rtrTx := true, ledger := true, bkt := true, flip := true, mgtq := true, events := true, trc := true, outs := true } s (State.unretireGo s a1 a2 a3 a4) := by
  unfold State.unretireGo
  split
  refine Within.app (State.cmdEnd_within _ _ _ _) rfl ?_
  refine WithinP.eq (by assumption) ?_
  refine WithinP.foldl (fun _ _ _ => ?_) ?_
  · dsimp -zeta only
    extract_lets +onlyGivenNames x
    clear_value x
    refine WithinP.ite ?_ ?_
    · refine WithinP.mk ?_
      exact Within.refl _ _
    refine WithinP.foldl (fun _ _ _ => ?_) ?_
    · extract_lets +onlyGivenNames x
      clear_value x
      refine WithinP.ite ?_ ?_
      · extract_lets +onlyGivenNames x
        clear_value x
        refine WithinP.mk ?_
        refine Within.app (State.putRec_within _ _ _ _) rfl ?_
        refine Within.app (State.putEnt_within _ _ _ _ _) rfl ?_
        change WithinP _ _ _
        refine WithinP.mk ?_
        exact Within.refl _ _
      refine WithinP.mk ?_
      change WithinP _ _ _
      refine WithinP.mk ?_
      exact Within.refl _ _
    refine WithinP.mk ?_
    refine Within.app (State.touch_within _ _ _ _) rfl ?_
    exact Within.refl _ _
  refine WithinP.mk ?_
  exact Within.refl _ _

theorem execMaintenanceLookup_within (a0) (a1) (s : State) :
    WithinX { free := true, due := true, trcCfg := true, irq := true, glbPart := true, slices := true, chans := true, near := true, memIo := true, bisnps := true, links := true, pba := true, rtrTx := true, ledger := true, bkt := true, flip := true, mgtq := true, mgt := true, events := true, trc := true, outs := true } s (execMaintenanceLookup a0 a1 s) := by
  unfold execMaintenanceLookup
  refine WithinX.next ?_
  refine State.finding_within _ rfl ?_ (fun _ => ?_)
  · exact Within.refl _ _
  refine Within.app (State.maintLookup_within _ _) rfl ?_
  exact Within.refl _ _

theorem execRangeOpComplete_within (s : State) :
    WithinX { mode := true, links := true, pba := true, rtrTx := true, mgtq := true, mgt := true, events := true, outs := true } s (execRangeOpComplete s) := by
  unfold execRangeOpComplete
  refine WithinX.next ?_
  split
  · exact Within.refl _ _
  refine Within.ite ?_ ?_
  · exact Within.refl _ _
  refine Within.ite ?_ ?_
  · refine Within.ite ?_ ?_
    · refine Within.app (State.cmdEnd_within _ _ _ _) rfl ?_
      with_reducible (apply Within.upd <;> try first | exact .inl rfl | exact .inr rfl | exact id | assumption | exact Within.refl _ _)
      · extract_lets +onlyGivenNames x
        with_reducible refine MgtI.of ?_ ?_ ?_ ?_ <;> try exact id
      exact fun _ => (by decide)
    refine Within.app (State.modRange_within _ _) rfl ?_
    exact Within.refl _ _
  refine Within.app (State.cmdEnd_within _ _ _ _) rfl ?_
  with_reducible (apply Within.upd <;> try first | exact .inl rfl | exact .inr rfl | exact id | assumption | exact Within.refl _ _)
  extract_lets +onlyGivenNames x
  with_reducible refine MgtI.of ?_ ?_ ?_ ?_ <;> try exact id

end Sys2Proof.Machine
end

