-- ==== Sys2Proof/Laws/RegView.lean ====
section
/-! SUPPORT. For each operation of Machine/RegView.lean one lemma: which pieces of the state it can change, and that it keeps the
invariant of Safety.lean. -/

set_option Elab.async false

namespace Sys2Proof.Machine

theorem State.viewRead_within (s : State) (a1) (a2) (a3) :
    WithinP { free := true, finds := true, due := true, trcCfg := true, irq := true, slices := true, chans := true, near := true, memIo := true, pba := true, ledger := true, bkt := true, flip := true, events := true, trc := true, outs := true } s (State.viewRead s a1 a2 a3) := by
  unfold State.viewRead
  split
  · refine WithinP.mk ?_
    exact Within.refl _ _
  extract_lets +onlyGivenNames x
  refine WithinP.cut (x := x) ?_ ?_ <;> [(unfold x; clear x); (obtain ⟨y, e⟩ := named x; rewrite [← e]; clear e x; intro _)]
  · refine Within.app (State.houseAccess_within _ _ _) rfl ?_
    exact Within.refl _ _
  split
  · refine WithinP.mk ?_
    assumption
  · refine WithinP.mk ?_
    refine Within.app (State.houseCe_within _ _) rfl ?_
    assumption
  refine WithinP.mk ?_
  refine Within.app (State.ueData_within _ _ _ _ _) rfl ?_
  assumption

end Sys2Proof.Machine
end

