-- ==== Sys2Proof/Laws/Boot.lean ====
section
/-! SUPPORT. For each operation of Machine/Boot.lean one lemma: which pieces of the state it can change, and that it keeps the
invariant of Safety.lean. -/

set_option Elab.async false

namespace Sys2Proof.Machine

theorem State.bootStop_within (s : State) (a1) (a2) :
    Within { boot := true } s (State.bootStop s a1 a2) := by
  unfold State.bootStop
  with_reducible (apply Within.upd <;> try first | exact .inl rfl | exact .inr rfl | exact id | assumption | exact Within.refl _ _)
  extract_lets +onlyGivenNames x
  with_reducible refine BootI.of ?_ <;> try exact id

theorem State.fwLoad_within (s : State) :
    Within { boot := true, trcCfg := true, irq := true, pba := true, ledger := true, events := true, trc := true, outs := true } s (State.fwLoad s) := by
  unfold State.fwLoad
  split
  · with_reducible (apply Within.upd <;> try first | exact .inl rfl | exact .inr rfl | exact id | assumption | exact Within.refl _ _)
    extract_lets +onlyGivenNames x
    with_reducible refine BootI.of ?_ <;> try exact id
  extract_lets +onlyGivenNames x
  clear_value x
  extract_lets +onlyGivenNames x
  clear_value x
  extract_lets +onlyGivenNames x
  extract_lets +onlyGivenNames x
  refine Within.cut (x := x) ?_ ?_ <;> [(unfold x; clear x); (obtain ⟨y, e⟩ := named x; rewrite [← e]; clear e x; intro _)]
  · with_reducible (apply Within.upd <;> try first | exact .inl rfl | exact .inr rfl | exact id | assumption | exact Within.refl _ _)
    with_reducible refine BootI.of ?_ <;> try exact id
  refine Within.ite ?_ ?_
  · refine Within.app (State.rec__within _ _ _ _ _ _) rfl ?_
    assumption
  assumption

theorem State.step4Start_within (s : State) :
    Within { boot := true, chans := true, bisnps := true, events := true, outs := true } s (State.step4Start s) := by
  unfold State.step4Start
  extract_lets +onlyGivenNames x
  refine Within.cut (x := x) ?_ ?_ <;> [(unfold x; clear x); (obtain ⟨y, e⟩ := named x; rewrite [← e]; clear e x; intro _)]
  · refine Within.foldl (fun _ _ => ?_) ?_
    · refine Within.app (State.recallDrop_within _ _ _) rfl ?_
      exact Within.refl _ _
    exact Within.refl _ _
  extract_lets +onlyGivenNames x
  refine Within.cut (x := x) ?_ ?_ <;> [(unfold x; clear x); (obtain ⟨y, e⟩ := named x; rewrite [← e]; clear e x; intro _)]
  · refine Within.foldl (fun _ _ => ?_) ?_
    · refine Within.app (State.setChan_within _ _ _) rfl ?_
      exact Within.refl _ _
    assumption
  with_reducible (apply Within.upd <;> try first | exact .inl rfl | exact .inr rfl | exact id | assumption | exact Within.refl _ _)
  extract_lets +onlyGivenNames x
  with_reducible refine BootI.of ?_ <;> try exact id

theorem State.failRunning_within (s : State) (a1) :
    Within { links := true, pba := true, rtrTx := true, dom := true, mgtq := true, mgt := true, events := true, outs := true } s (State.failRunning s a1) := by
  unfold State.failRunning
  extract_lets +onlyGivenNames x
  clear_value x
  extract_lets +onlyGivenNames x
  clear_value x
  extract_lets +onlyGivenNames x
  extract_lets +onlyGivenNames x
  refine Within.cut (x := x) ?_ ?_ <;> [(unfold x; clear x); (obtain ⟨y, e⟩ := named x; rewrite [← e]; clear e x; intro _)]
  · with_reducible (apply Within.upd <;> try first | exact .inl rfl | exact .inr rfl | exact id | assumption | exact Within.refl _ _)
    with_reducible refine MgtI.of ?_ ?_ ?_ ?_ <;> try exact id
  refine Within.foldl (fun _ _ => ?_) ?_
  · refine Within.app (State.cmdEnd_within _ _ _ _) rfl ?_
    exact Within.refl _ _
  assumption

theorem State.clerkRestart_within (s : State) (a1) :
    Within { boot := true, trcCfg := true, irq := true, chans := true, bisnps := true, links := true, pba := true, rtrTx := true, dom := true, ledger := true, mgtq := true, mgt := true, events := true, trc := true, outs := true } s (State.clerkRestart s a1) := by
  unfold State.clerkRestart
  extract_lets +onlyGivenNames x
  refine Within.cut (x := x) ?_ ?_ <;> [(unfold x; clear x); (obtain ⟨y, e⟩ := named x; rewrite [← e]; clear e x; intro _)]
  · refine Within.app (State.fwLoad_within _) rfl ?_
    exact Within.refl _ _
  extract_lets +onlyGivenNames x
  extract_lets +onlyGivenNames x
  refine Within.cut (x := x) ?_ ?_ <;> [(unfold x; clear x); (obtain ⟨y, e⟩ := named x; rewrite [← e]; clear e x; intro _)]
  · refine Within.ite ?_ ?_
    · refine Within.ite ?_ ?_
      · refine Within.app (State.bootStop_within _ _ _) rfl ?_
        assumption
      with_reducible (apply Within.upd <;> try first | exact .inl rfl | exact .inr rfl | exact id | assumption | exact Within.refl _ _)
      with_reducible refine BootI.of ?_ <;> try exact id
    refine Within.ite ?_ ?_
    · with_reducible (apply Within.upd <;> try first | exact .inl rfl | exact .inr rfl | exact id | assumption | exact Within.refl _ _)
      with_reducible refine BootI.of ?_ <;> try exact id
    assumption
  extract_lets +onlyGivenNames x
  refine Within.cut (x := x) ?_ ?_ <;> [(unfold x; clear x); (obtain ⟨y, e⟩ := named x; rewrite [← e]; clear e x; intro _)]
  · refine Within.ite ?_ ?_
    · refine Within.app (State.step4Start_within _) rfl ?_
      assumption
    assumption
  refine Within.app (State.failRunning_within _ _) rfl ?_
  assumption

theorem State.flashLeft_bytes (s : State) (b : Bool) : (s.flashLeft b).bytes = (s.flash b).bytes := by
  unfold State.flashLeft
  split <;> rfl


theorem State.coldReset_within (s : State) : Within { clk := true, cyc0 := true, paused := true, free := true, finds := true, due := true, pcr := true, boot := true, node := true, csr := true, trcCfg := true, msix := true, irq := true, glbPart := true, glbHouse := true, mode := true, slices := true, banks := true, chans := true, far := true, near := true, memIo := true, memCfg := true, hsf := true, bisnps := true, links := true, pba := true, hreqs := true, nextRid := true, accs := true, lse := true, fnc := true, xlts := true, xinv := true, ports := true, rtrTx := true, rtrRx := true, rtrUn := true, rtr := true, dom := true, mt := true, mtu := true, pors := true, qmg := true, ledger := true, bkt := true, flip := true, ras := true, flash := true, mgtq := true, mgt := true, tlys := true, events := true, trc := true, tap := true, outs := true } s s.coldReset := by
  refine ⟨?_, fun i => ⟨rfl, rfl, rfl, (s.flashLeft_bytes false).symm ▸ i.flashA, (s.flashLeft_bytes true).symm ▸ i.flashB, Nat.zero_le _, Nat.zero_le _, Nat.zero_le _, Nat.zero_le _, Nat.zero_le _, Nat.zero_le _, Nat.zero_le _⟩⟩
  apply Only.of <;> first | rfl | exact .inl rfl

theorem State.level2_within (s : State) :
    Within { free := true, trcCfg := true, irq := true, glbPart := true, glbHouse := true, slices := true, banks := true, far := true, near := true, memCfg := true, pba := true, pors := true, qmg := true, ledger := true, flip := true, events := true, trc := true, outs := true } s (State.level2 s) := by
  unfold State.level2
  extract_lets +onlyGivenNames x
  clear_value x
  extract_lets +onlyGivenNames x
  clear_value x
  extract_lets +onlyGivenNames x
  refine Within.cut (x := x) ?_ ?_ <;> [(unfold x; clear x); (obtain ⟨y, e⟩ := named x; rewrite [← e]; clear e x; intro _)]
  · refine Within.ite ?_ ?_
    · refine Within.app (State.rec__within _ _ _ _ _ _) rfl ?_
      exact Within.refl _ _
    exact Within.refl _ _
  extract_lets +onlyGivenNames x
  refine Within.cut (x := x) ?_ ?_ <;> [(unfold x; clear x); (obtain ⟨y, e⟩ := named x; rewrite [← e]; clear e x; intro _)]
  · refine Within.app (State.dramFresh_within _) rfl ?_
    assumption
  extract_lets +onlyGivenNames x
  extract_lets +onlyGivenNames x
  refine Within.cut (x := x) ?_ ?_ <;> [(unfold x; clear x); (obtain ⟨y, e⟩ := named x; rewrite [← e]; clear e x; intro _)]
  · with_reducible (apply Within.upd <;> try first | exact .inl rfl | exact .inr rfl | exact id | assumption | exact Within.refl _ _)
    with_reducible refine MemI.of ?_ ?_ <;> try exact id
    exact fun _ => rfl
  extract_lets +onlyGivenNames x
  refine Within.cut (x := x) ?_ ?_ <;> [(unfold x; clear x); (obtain ⟨y, e⟩ := named x; rewrite [← e]; clear e x; intro _)]
  · refine Within.app (State.poolInit_within _) rfl ?_
    assumption
  with_reducible (apply Within.upd <;> try first | exact .inl rfl | exact .inr rfl | exact id | assumption | exact Within.refl _ _)
  extract_lets +onlyGivenNames x
  with_reducible refine RasI.of ?_ ?_ <;> try exact id

theorem State.nextStep_within (s : State) (a1) :
    Within { boot := true, chans := true, bisnps := true, events := true, outs := true } s (State.nextStep s a1) := by
  unfold State.nextStep
  extract_lets +onlyGivenNames x
  extract_lets +onlyGivenNames x
  refine Within.cut (x := x) ?_ ?_ <;> [(unfold x; clear x); (obtain ⟨y, e⟩ := named x; rewrite [← e]; clear e x; intro _)]
  · with_reducible (apply Within.upd <;> try first | exact .inl rfl | exact .inr rfl | exact id | assumption | exact Within.refl _ _)
    with_reducible refine BootI.of ?_ <;> try exact id
  refine Within.ite ?_ ?_
  · refine Within.app (State.step4Start_within _) rfl ?_
    assumption
  with_reducible (apply Within.upd <;> try first | exact .inl rfl | exact .inr rfl | exact id | assumption | exact Within.refl _ _)
  extract_lets +onlyGivenNames x
  with_reducible refine BootI.of ?_ <;> try exact id

theorem State.setFlash_within (s : State) (b : Bool) (f : FlashSlot)
    (h : Memory.wf (s.flash b).bytes = true → Memory.wf f.bytes = true) : Within { flash := true } s (s.setFlash b f) := by
  unfold State.setFlash
  split
  · rename_i e
    with_reducible (apply Within.upd; (on_goal 1 => first | assumption | exact Within.refl _ _); all_goals try first | exact .inl rfl | exact .inr rfl | exact id)
    exact MgtI.of id (fun i => h (by rw [e]; exact i)) id id
  · rename_i e
    with_reducible (apply Within.upd; (on_goal 1 => first | assumption | exact Within.refl _ _); all_goals try first | exact .inl rfl | exact .inr rfl | exact id)
    exact MgtI.of (fun i => h (by rw [Bool.eq_false_of_not_eq_true e]; exact i)) id id id

theorem State.setLevel_within (s : State) (a1) :
    Within { boot := true, irq := true, pba := true, outs := true } s (State.setLevel s a1) := by
  unfold State.setLevel
  refine Within.ite ?_ ?_
  · exact Within.refl _ _
  refine Within.app (State.signalAll_within _ _) rfl ?_
  with_reducible (apply Within.upd <;> try first | exact .inl rfl | exact .inr rfl | exact id | assumption | exact Within.refl _ _)
  extract_lets +onlyGivenNames x
  with_reducible refine BootI.of ?_ <;> try exact id
  exact fun _ => (by omega)

theorem State.setStopAt_within (s : State) (a1) :
    Within { boot := true, chans := true, bisnps := true, events := true, outs := true } s (State.setStopAt s a1) := by
  unfold State.setStopAt
  extract_lets +onlyGivenNames x
  extract_lets +onlyGivenNames x
  extract_lets +onlyGivenNames x
  refine Within.cut (x := x) ?_ ?_ <;> [(unfold x; clear x); (obtain ⟨y, e⟩ := named x; rewrite [← e]; clear e x; intro _)]
  · with_reducible (apply Within.upd <;> try first | exact .inl rfl | exact .inr rfl | exact id | assumption | exact Within.refl _ _)
    with_reducible refine BootI.of ?_ <;> try exact id
  refine Within.ite ?_ ?_
  · refine Within.app (State.nextStep_within _ _) rfl ?_
    assumption
  assumption

theorem State.stepEnd_within (s : State) (a1) (a2) :
    Within { boot := true, chans := true, bisnps := true, events := true, outs := true } s (State.stepEnd s a1 a2) := by
  unfold State.stepEnd
  refine Within.ite ?_ ?_
  · with_reducible (apply Within.upd <;> try first | exact .inl rfl | exact .inr rfl | exact id | assumption | exact Within.refl _ _)
    extract_lets +onlyGivenNames x
    with_reducible refine BootI.of ?_ <;> try exact id
  refine Within.app (State.nextStep_within _ _) rfl ?_
  exact Within.refl _ _

theorem State.warmReset_within (s : State) : Within { clk := true, cyc0 := true, paused := true, free := true, finds := true, due := true, pcr := true, boot := true, node := true, csr := true, trcCfg := true, msix := true, irq := true, glbPart := true, glbHouse := true, mode := true, slices := true, banks := true, chans := true, far := true, near := true, memIo := true, memCfg := true, hsf := true, bisnps := true, links := true, pba := true, hreqs := true, nextRid := true, accs := true, lse := true, fnc := true, xlts := true, xinv := true, ports := true, rtrTx := true, rtrRx := true, rtrUn := true, rtr := true, dom := true, mt := true, mtu := true, pors := true, qmg := true, ledger := true, bkt := true, flip := true, ras := true, flash := true, mgtq := true, mgt := true, tlys := true, events := true, trc := true, tap := true, outs := true } s s.warmReset := by
  refine ⟨?_, fun i => ⟨rfl, rfl, rfl, (s.flashLeft_bytes false).symm ▸ i.flashA, (s.flashLeft_bytes true).symm ▸ i.flashB, Nat.zero_le _, Nat.zero_le _, i.lock, i.ring, Nat.zero_le _, Nat.zero_le _, Nat.zero_le _⟩⟩
  apply Only.of <;> first | rfl | exact .inl rfl

theorem execBringupStep1End_within (a0) (s : State) :
    WithinX { boot := true, chans := true, bisnps := true, events := true, outs := true } s (execBringupStep1End a0 s) := by
  unfold execBringupStep1End
  refine WithinX.next ?_
  refine Within.ite ?_ ?_
  · exact Within.refl _ _
  refine Within.ite ?_ ?_
  · refine Within.app (State.nextStep_within _ _) rfl ?_
    exact Within.refl _ _
  refine Within.app (State.bootStop_within _ _ _) rfl ?_
  exact Within.refl _ _

theorem execBringupStep2End_within (s : State) :
    WithinX { boot := true, trcCfg := true, irq := true, chans := true, bisnps := true, pba := true, ledger := true, events := true, trc := true, outs := true } s (execBringupStep2End s) := by
  unfold execBringupStep2End
  refine WithinX.next ?_
  refine Within.ite ?_ ?_
  · exact Within.refl _ _
  extract_lets +onlyGivenNames x
  refine Within.cut (x := x) ?_ ?_ <;> [(unfold x; clear x); (obtain ⟨y, e⟩ := named x; rewrite [← e]; clear e x; intro _)]
  · refine Within.app (State.fwLoad_within _) rfl ?_
    exact Within.refl _ _
  refine Within.ite ?_ ?_
  · refine Within.app (State.bootStop_within _ _ _) rfl ?_
    assumption
  refine Within.app (State.stepEnd_within _ _ _) rfl ?_
  assumption

theorem execBringupStep3End_within (a0) (a1) (s : State) :
    WithinX { free := true, boot := true, trcCfg := true, irq := true, chans := true, far := true, memCfg := true, bisnps := true, pba := true, ledger := true, flip := true, ras := true, events := true, trc := true, outs := true } s (execBringupStep3End a0 a1 s) := by
  unfold execBringupStep3End
  refine WithinX.next ?_
  refine Within.ite ?_ ?_
  · exact Within.refl _ _
  split
  · refine Within.app (State.rec__within _ _ _ _ _ _) rfl ?_
    refine Within.app (State.bootStop_within _ _ _) rfl ?_
    exact Within.refl _ _
  split
  · refine Within.app (State.bootStop_within _ _ _) rfl ?_
    exact Within.refl _ _
  extract_lets +onlyGivenNames x
  clear_value x
  extract_lets +onlyGivenNames x
  clear_value x
  extract_lets +onlyGivenNames x
  refine Within.cut (x := x) ?_ ?_ <;> [(unfold x; clear x); (obtain ⟨y, e⟩ := named x; rewrite [← e]; clear e x; intro _)]
  · refine Within.app (State.dramFresh_within _) rfl ?_
    exact Within.refl _ _
  extract_lets +onlyGivenNames x
  extract_lets +onlyGivenNames x
  refine Within.cut (x := x) ?_ ?_ <;> [(unfold x; clear x); (obtain ⟨y, e⟩ := named x; rewrite [← e]; clear e x; intro _)]
  · with_reducible (apply Within.upd <;> try first | exact .inl rfl | exact .inr rfl | exact id | assumption | exact Within.refl _ _)
    with_reducible refine MemI.of ?_ ?_ <;> try exact id
  extract_lets +onlyGivenNames x
  refine Within.cut (x := x) ?_ ?_ <;> [(unfold x; clear x); (obtain ⟨y, e⟩ := named x; rewrite [← e]; clear e x; intro _)]
  · refine Within.foldl (fun _ _ => ?_) ?_
    · refine Within.app (State.setChan_within _ _ _) rfl ?_
      exact Within.refl _ _
    assumption
  refine Within.app (State.stepEnd_within _ _ _) rfl ?_
  refine Within.app (State.setLevel_within _ _) rfl ?_
  refine Within.app (State.ledgerOpen_within _) rfl ?_
  assumption

theorem execBringupStep4End_within (a0) (a1) (s : State) :
    WithinX { free := true, boot := true, trcCfg := true, irq := true, glbPart := true, glbHouse := true, slices := true, banks := true, chans := true, far := true, near := true, memCfg := true, bisnps := true, pba := true, pors := true, qmg := true, ledger := true, flip := true, events := true, trc := true, outs := true } s (execBringupStep4End a0 a1 s) := by
  unfold execBringupStep4End
  refine WithinX.next ?_
  refine Within.ite ?_ ?_
  · exact Within.refl _ _
  split
  · extract_lets +onlyGivenNames x
    extract_lets +onlyGivenNames x
    refine Within.cut (x := x) ?_ ?_ <;> [(unfold x; clear x); (obtain ⟨y, e⟩ := named x; rewrite [← e]; clear e x; intro _)]
    · with_reducible (apply Within.upd <;> try first | exact .inl rfl | exact .inr rfl | exact id | assumption | exact Within.refl _ _)
      with_reducible refine BootI.of ?_ <;> try exact id
    extract_lets +onlyGivenNames x
    refine Within.cut (x := x) ?_ ?_ <;> [(unfold x; clear x); (obtain ⟨y, e⟩ := named x; rewrite [← e]; clear e x; intro _)]
    · refine Within.foldl (fun _ _ => ?_) ?_
      · refine Within.app (State.setChan_within _ _ _) rfl ?_
        exact Within.refl _ _
      assumption
    refine Within.app (State.setLevel_within _ _) rfl ?_
    refine Within.app (State.bootStop_within _ _ _) rfl ?_
    assumption
  extract_lets +onlyGivenNames x
  refine Within.cutS1 (x := x) ?_ ?_ <;> [(intro _ _; unfold x; clear x; try beta_reduce); (intro _; clear_value x)]
  · refine Within.app (State.setChan_within _ _ _) rfl ?_
    exact Within.refl _ _
  extract_lets +onlyGivenNames x
  refine Within.cut (x := x) ?_ ?_ <;> [(unfold x; clear x); (obtain ⟨y, e⟩ := named x; rewrite [← e]; clear e x; intro _)]
  · refine Within.foldl (fun _ _ => ?_) ?_
    · apply_assumption
    exact Within.refl _ _
  split
  · extract_lets +onlyGivenNames x
    refine Within.cut (x := x) ?_ ?_ <;> [(unfold x; clear x); (obtain ⟨y, e⟩ := named x; rewrite [← e]; clear e x; intro _)]
    · refine Within.foldl (fun _ _ => ?_) ?_
      · apply_assumption
      assumption
    extract_lets +onlyGivenNames x
    refine Within.cut (x := x) ?_ ?_ <;> [(unfold x; clear x); (obtain ⟨y, e⟩ := named x; rewrite [← e]; clear e x; intro _)]
    · refine Within.app (State.dramFresh_within _) rfl ?_
      assumption
    extract_lets +onlyGivenNames x
    extract_lets +onlyGivenNames x
    refine Within.cut (x := x) ?_ ?_ <;> [(unfold x; clear x); (obtain ⟨y, e⟩ := named x; rewrite [← e]; clear e x; intro _)]
    · with_reducible (apply Within.upd <;> try first | exact .inl rfl | exact .inr rfl | exact id | assumption | exact Within.refl _ _)
      with_reducible refine BootI.of ?_ <;> try exact id
    refine Within.app (State.bootStop_within _ _ _) rfl ?_
    assumption
  extract_lets +onlyGivenNames x
  refine Within.cut (x := x) ?_ ?_ <;> [(unfold x; clear x); (obtain ⟨y, e⟩ := named x; rewrite [← e]; clear e x; intro _)]
  · refine Within.app (State.level2_within _) rfl ?_
    refine Within.foldl (fun _ _ => ?_) ?_
    · apply_assumption
    assumption
  extract_lets +onlyGivenNames x
  extract_lets +onlyGivenNames x
  refine Within.cut (x := x) ?_ ?_ <;> [(unfold x; clear x); (obtain ⟨y, e⟩ := named x; rewrite [← e]; clear e x; intro _)]
  · with_reducible (apply Within.upd <;> try first | exact .inl rfl | exact .inr rfl | exact id | assumption | exact Within.refl _ _)
    with_reducible refine BootI.of ?_ <;> try exact id
  refine Within.app (State.stepEnd_within _ _ _) rfl ?_
  refine Within.app (State.setLevel_within _ _) rfl ?_
  assumption

theorem execBringupStep5Start_within (s : State) :
    WithinX { boot := true, trcCfg := true, irq := true, pba := true, ports := true, rtr := true, dom := true, ledger := true, events := true, trc := true, outs := true } s (execBringupStep5Start s) := by
  unfold execBringupStep5Start
  refine WithinX.next ?_
  refine Within.ite ?_ ?_
  · exact Within.refl _ _
  extract_lets +onlyGivenNames x
  extract_lets +onlyGivenNames x
  clear_value x
  extract_lets +onlyGivenNames x
  refine Within.cut (x := x) ?_ ?_ <;> [(unfold x; clear x); (obtain ⟨y, e⟩ := named x; rewrite [← e]; clear e x; intro _)]
  · with_reducible (apply Within.upd <;> try first | exact .inl rfl | exact .inr rfl | exact id | assumption | exact Within.refl _ _)
  extract_lets +onlyGivenNames x
  refine Within.cut (x := x) ?_ ?_ <;> [(unfold x; clear x); (obtain ⟨y, e⟩ := named x; rewrite [← e]; clear e x; intro _)]
  · refine Within.app (State.setLevel_within _ _) rfl ?_
    refine Within.app (State.portsStep5_within _) rfl ?_
    assumption
  refine Within.app (State.signalAll_within _ _) rfl ?_
  with_reducible (apply Within.upd <;> try first | exact .inl rfl | exact .inr rfl | exact id | assumption | exact Within.refl _ _)
  extract_lets +onlyGivenNames x
  with_reducible refine BootI.of ?_ <;> try exact id

theorem execClerkRestart_within (s : State) :
    WithinX { boot := true, trcCfg := true, irq := true, chans := true, bisnps := true, links := true, pba := true, rtrTx := true, dom := true, ledger := true, mgtq := true, mgt := true, events := true, trc := true, outs := true } s (execClerkRestart s) := by
  unfold execClerkRestart
  refine WithinX.next ?_
  refine Within.ite ?_ ?_
  · refine Within.app (State.clerkRestart_within _ _) rfl ?_
    exact Within.refl _ _
  exact Within.refl _ _

theorem execClerkTrap_within (a0) (s : State) :
    WithinX { boot := true, trcCfg := true, irq := true, chans := true, bisnps := true, links := true, pba := true, rtrTx := true, dom := true, ledger := true, mgtq := true, mgt := true, events := true, trc := true, outs := true } s (execClerkTrap a0 s) := by
  unfold execClerkTrap
  refine WithinX.next ?_
  refine Within.ite ?_ ?_
  · refine Within.app (State.clerkRestart_within _ _) rfl ?_
    refine Within.app (State.rec__within _ _ _ _ _ _) rfl ?_
    exact Within.refl _ _
  exact Within.refl _ _

theorem execPowerGoodFall_within (s : State) :
    WithinX { pcr := true } s (execPowerGoodFall s) := by
  unfold execPowerGoodFall
  refine WithinX.next ?_
  with_reducible (apply Within.upd <;> try first | exact .inl rfl | exact .inr rfl | exact id | assumption | exact Within.refl _ _)

theorem execPowerGoodRise_within (a0) (a1) (a2) (s : State) :
    WithinX { clk := true, cyc0 := true, paused := true, free := true, finds := true, due := true, pcr := true, boot := true, node := true, csr := true, trcCfg := true, msix := true, irq := true, glbPart := true, glbHouse := true, mode := true, slices := true, banks := true, chans := true, far := true, near := true, memIo := true, memCfg := true, hsf := true, bisnps := true, links := true, pba := true, hreqs := true, nextRid := true, accs := true, lse := true, fnc := true, xlts := true, xinv := true, ports := true, rtrTx := true, rtrRx := true, rtrUn := true, rtr := true, dom := true, mt := true, mtu := true, pors := true, qmg := true, ledger := true, bkt := true, flip := true, ras := true, flash := true, mgtq := true, mgt := true, tlys := true, events := true, trc := true, tap := true, outs := true } s (execPowerGoodRise a0 a1 a2 s) := by
  unfold execPowerGoodRise
  refine WithinX.next ?_
  refine Within.ite ?_ ?_
  · exact Within.refl _ _
  extract_lets +onlyGivenNames x
  refine Within.cut (x := x) ?_ ?_ <;> [(unfold x; clear x); (obtain ⟨y, e⟩ := named x; rewrite [← e]; clear e x; intro _)]
  · refine Within.app (State.coldReset_within _) rfl ?_
    exact Within.refl _ _
  extract_lets +onlyGivenNames x
  clear_value x
  with_reducible (apply Within.upd <;> try first | exact .inl rfl | exact .inr rfl | exact id | assumption | exact Within.refl _ _)

theorem execRailFault_within (a0) (s : State) :
    WithinX { pcr := true } s (execRailFault a0 s) := by
  unfold execRailFault
  refine WithinX.next ?_
  refine Within.ite ?_ ?_
  · with_reducible (apply Within.upd <;> try first | exact .inl rfl | exact .inr rfl | exact id | assumption | exact Within.refl _ _)
  exact Within.refl _ _

theorem execRailsInRange_within (s : State) :
    WithinX { pcr := true } s (execRailsInRange s) := by
  unfold execRailsInRange
  refine WithinX.next ?_
  refine Within.ite ?_ ?_
  · with_reducible (apply Within.upd <;> try first | exact .inl rfl | exact .inr rfl | exact id | assumption | exact Within.refl _ _)
  exact Within.refl _ _

theorem execResetNAssert_within (s : State) :
    WithinX { clk := true, cyc0 := true, paused := true, free := true, finds := true, due := true, pcr := true, boot := true, node := true, csr := true, trcCfg := true, msix := true, irq := true, glbPart := true, glbHouse := true, mode := true, slices := true, banks := true, chans := true, far := true, near := true, memIo := true, memCfg := true, hsf := true, bisnps := true, links := true, pba := true, hreqs := true, nextRid := true, accs := true, lse := true, fnc := true, xlts := true, xinv := true, ports := true, rtrTx := true, rtrRx := true, rtrUn := true, rtr := true, dom := true, mt := true, mtu := true, pors := true, qmg := true, ledger := true, bkt := true, flip := true, ras := true, flash := true, mgtq := true, mgt := true, tlys := true, events := true, trc := true, tap := true, outs := true } s (execResetNAssert s) := by
  unfold execResetNAssert
  refine WithinX.next ?_
  extract_lets +onlyGivenNames x
  refine Within.cut (x := x) ?_ ?_ <;> [(unfold x; clear x); (obtain ⟨y, e⟩ := named x; rewrite [← e]; clear e x; intro _)]
  · refine Within.ite ?_ ?_
    · refine Within.app (State.warmReset_within _) rfl ?_
      exact Within.refl _ _
    exact Within.refl _ _
  with_reducible (apply Within.upd <;> try first | exact .inl rfl | exact .inr rfl | exact id | assumption | exact Within.refl _ _)

theorem execResetNRelease_within (s : State) :
    WithinX { cyc0 := true, pcr := true, tap := true, outs := true } s (execResetNRelease s) := by
  unfold execResetNRelease
  refine WithinX.next ?_
  refine Within.ite ?_ ?_
  · exact Within.refl _ _
  extract_lets +onlyGivenNames x
  clear_value x
  extract_lets +onlyGivenNames x
  refine Within.cut (x := x) ?_ ?_ <;> [(unfold x; clear x); (obtain ⟨y, e⟩ := named x; rewrite [← e]; clear e x; intro _)]
  · with_reducible (apply Within.upd <;> try first | exact .inl rfl | exact .inr rfl | exact id | assumption | exact Within.refl _ _)
  refine Within.ite ?_ ?_
  · refine Within.app (State.emit_within _ _) rfl ?_
    with_reducible (apply Within.upd <;> try first | exact .inl rfl | exact .inr rfl | exact id | assumption | exact Within.refl _ _)
  assumption

theorem execStopAtRaise_within (a0) (s : State) :
    WithinX { boot := true, chans := true, bisnps := true, events := true, outs := true } s (execStopAtRaise a0 s) := by
  unfold execStopAtRaise
  refine WithinX.next ?_
  refine Within.ite ?_ ?_
  · refine Within.app (State.setStopAt_within _ _) rfl ?_
    exact Within.refl _ _
  exact Within.refl _ _

theorem execThermalSample_within (a0) (a1) (s : State) :
    WithinX { pcr := true, irq := true, pba := true, mtu := true, events := true, outs := true } s (execThermalSample a0 a1 s) := by
  unfold execThermalSample
  refine WithinX.next ?_
  split
  · exact Within.refl _ _
  extract_lets +onlyGivenNames x
  clear_value x
  extract_lets +onlyGivenNames x
  clear_value x
  extract_lets +onlyGivenNames x
  clear_value x
  extract_lets +onlyGivenNames x
  clear_value x
  extract_lets +onlyGivenNames x
  clear_value x
  extract_lets +onlyGivenNames x
  clear_value x
  extract_lets +onlyGivenNames x
  refine Within.cut (x := x) ?_ ?_ <;> [(unfold x; clear x); (obtain ⟨y, e⟩ := named x; rewrite [← e]; clear e x; intro _)]
  · with_reducible (apply Within.upd <;> try first | exact .inl rfl | exact .inr rfl | exact id | assumption | exact Within.refl _ _)
    refine WithinO.get (State.fire_within _ _ _) (by assumption) rfl ?_
    exact Within.refl _ _
  refine Within.ite ?_ ?_
  · refine Within.app (State.event_within _ _ _ _) rfl ?_
    refine Within.app (State.signalAll_within _ _) rfl ?_
    with_reducible (apply Within.upd <;> try first | exact .inl rfl | exact .inr rfl | exact id | assumption | exact Within.refl _ _)
  refine Within.ite ?_ ?_
  · with_reducible (apply Within.upd <;> try first | exact .inl rfl | exact .inr rfl | exact id | assumption | exact Within.refl _ _)
  assumption

theorem execThermalTrip_within (a0) (s : State) :
    WithinX { pcr := true, outs := true } s (execThermalTrip a0 s) := by
  unfold execThermalTrip
  refine WithinX.next ?_
  refine Within.ite ?_ ?_
  · extract_lets +onlyGivenNames x
    refine Within.cut (x := x) ?_ ?_ <;> [(unfold x; clear x); (obtain ⟨y, e⟩ := named x; rewrite [← e]; clear e x; intro _)]
    · refine Within.ite ?_ ?_
      · exact Within.refl _ _
      refine Within.app (State.emit_within _ _) rfl ?_
      exact Within.refl _ _
    with_reducible (apply Within.upd <;> try first | exact .inl rfl | exact .inr rfl | exact id | assumption | exact Within.refl _ _)
  exact Within.refl _ _

theorem execWarm_within (a0) (s : State) :
    WithinX { clk := true, cyc0 := true, paused := true, free := true, finds := true, due := true, pcr := true, boot := true, node := true, csr := true, trcCfg := true, msix := true, irq := true, glbPart := true, glbHouse := true, mode := true, slices := true, banks := true, chans := true, far := true, near := true, memIo := true, memCfg := true, hsf := true, bisnps := true, links := true, pba := true, hreqs := true, nextRid := true, accs := true, lse := true, fnc := true, xlts := true, xinv := true, ports := true, rtrTx := true, rtrRx := true, rtrUn := true, rtr := true, dom := true, mt := true, mtu := true, pors := true, qmg := true, ledger := true, bkt := true, flip := true, ras := true, flash := true, mgtq := true, mgt := true, tlys := true, events := true, trc := true, tap := true, outs := true } s (execWarm a0 s) := by
  unfold execWarm
  refine WithinX.next ?_
  refine Within.ite ?_ ?_
  · refine Within.app (State.warmReset_within _) rfl ?_
    exact Within.refl _ _
  exact Within.refl _ _

end Sys2Proof.Machine
end

