-- ==== Sys2Proof/Laws/Tally.lean ====
section
/-! SUPPORT. For each operation of Machine/Tally.lean one lemma: which pieces of the state it can change, and that it keeps the
invariant of Safety.lean. -/

set_option Elab.async false

namespace Sys2Proof.Machine

theorem State.captureStart_within (s : State) :
    Within { trc := true } s (State.captureStart s) := by
  unfold State.captureStart
  with_reducible (apply Within.upd <;> try first | exact .inl rfl | exact .inr rfl | exact id | assumption | exact Within.refl _ _)

theorem State.trigger_within (s : State) (a1) (a2) :
    Within { trcCfg := true, trc := true } s (State.trigger s a1 a2) := by
  unfold State.trigger
  extract_lets +onlyGivenNames x
  clear_value x
  refine Within.ite ?_ ?_
  · exact Within.refl _ _
  extract_lets +onlyGivenNames x
  clear_value x
  extract_lets +onlyGivenNames x
  clear_value x
  extract_lets +onlyGivenNames x
  refine Within.cut (x := x) ?_ ?_ <;> [(unfold x; clear x); (obtain ⟨y, e⟩ := named x; rewrite [← e]; clear e x; intro _)]
  · with_reducible (apply Within.upd <;> try first | exact .inl rfl | exact .inr rfl | exact id | assumption | exact Within.refl _ _)
  refine Within.ite ?_ ?_
  · refine Within.app (State.trcStop_within _) rfl ?_
    assumption
  assumption

theorem State.countOne_within (s : State) (a1) (a2) (a3) :
    WithinP { trcCfg := true, tlys := true, trc := true } s (State.countOne s a1 a2 a3) := by
  unfold State.countOne
  extract_lets +onlyGivenNames x
  clear_value x
  extract_lets +onlyGivenNames x
  clear_value x
  refine WithinP.ite ?_ ?_
  · refine WithinP.mk ?_
    exact Within.refl _ _
  extract_lets +onlyGivenNames x
  clear_value x
  extract_lets +onlyGivenNames x
  refine WithinP.cut (x := x) ?_ ?_ <;> [(unfold x; clear x); (obtain ⟨y, e⟩ := named x; rewrite [← e]; clear e x; intro _)]
  · refine Within.app (State.setTly_within _ _ _) rfl ?_
    exact Within.refl _ _
  refine WithinP.ite ?_ ?_
  · refine WithinP.mk ?_
    refine Within.app (State.trigger_within _ _ _) rfl ?_
    assumption
  refine WithinP.mk ?_
  assumption

theorem State.modCnt_within (s : State) (a1) (a2) (a3) :
    Within { tlys := true } s (State.modCnt s a1 a2 a3) := by
  unfold State.modCnt
  refine Within.app (State.setTly_within _ _ _) rfl ?_
  exact Within.refl _ _

theorem State.routesSettled_within (s : State) :
    Within { links := true, pba := true, rtrTx := true, mgtq := true, events := true, outs := true } s (State.routesSettled s) := by
  unfold State.routesSettled
  refine Within.foldl (fun _ _ => ?_) ?_
  · split
    · refine Within.ite ?_ ?_
      · exact Within.refl _ _
      refine Within.app (State.cmdEnd_within _ _ _ _) rfl ?_
      exact Within.refl _ _
    exact Within.refl _ _
  exact Within.refl _ _

theorem State.routeDone_within (s : State) (a1) (a2) :
    Within { links := true, pba := true, rtrTx := true, mgtq := true, tlys := true, events := true, outs := true } s (State.routeDone s a1 a2) := by
  unfold State.routeDone
  refine Within.ite ?_ ?_
  · refine Within.app (State.routesSettled_within _) rfl ?_
    refine Within.app (State.modCnt_within _ _ _ _) rfl ?_
    exact Within.refl _ _
  exact Within.refl _ _

theorem State.routesDue_within (s : State) :
    Within { links := true, pba := true, rtrTx := true, mgtq := true, tlys := true, events := true, outs := true } s (State.routesDue s) := by
  unfold State.routesDue
  refine Within.foldl (fun _ _ => ?_) ?_
  · refine Within.foldl (fun _ _ => ?_) ?_
    · refine Within.ite ?_ ?_
      · refine Within.app (State.routeDone_within _ _ _) rfl ?_
        exact Within.refl _ _
      exact Within.refl _ _
    exact Within.refl _ _
  exact Within.refl _ _

theorem State.setEvsel_within (s : State) (a1) (a2) (a3) :
    Within { tlys := true } s (State.setEvsel s a1 a2 a3) := by
  unfold State.setEvsel
  refine Within.app (State.modCnt_within _ _ _ _) rfl ?_
  exact Within.refl _ _

theorem State.tallyClock_within (s : State) :
    Within { trcCfg := true, tlys := true, events := true, trc := true } s (State.tallyClock s) := by
  unfold State.tallyClock
  extract_lets +onlyGivenNames x
  refine Within.cut (x := x) ?_ ?_ <;> [(unfold x; clear x); (obtain ⟨y, e⟩ := named x; rewrite [← e]; clear e x; intro _)]
  · refine Within.foldl (fun _ _ => ?_) ?_
    · refine Within.foldl_snd (fun _ _ => ?_) ?_
      · refine WithinP.snd (State.countOne_within _ _ _ _) rfl ?_
        exact Within.refl _ _
      change WithinP _ _ _
      refine WithinP.mk ?_
      exact Within.refl _ _
    exact Within.refl _ _
  with_reducible (apply Within.upd <;> try first | exact .inl rfl | exact .inr rfl | exact id | assumption | exact Within.refl _ _)

theorem State.tallyRouteGo_within (s : State) (a1) :
    Within { links := true, pba := true, rtrTx := true, mgtq := true, tlys := true, events := true, outs := true } s (State.tallyRouteGo s a1) := by
  unfold State.tallyRouteGo
  refine Within.app (State.routesSettled_within _) rfl ?_
  refine Within.foldl (fun _ _ => ?_) ?_
  · refine Within.app (State.setEvsel_within _ _ _ _) rfl ?_
    refine Within.app (State.modCnt_within _ _ _ _) rfl ?_
    exact Within.refl _ _
  exact Within.refl _ _

theorem State.tlyCtl_within (s : State) (a1) (a2) (a3) (a4) :
    Within { tlys := true } s (State.tlyCtl s a1 a2 a3 a4) := by
  unfold State.tlyCtl
  refine Within.foldl (fun _ _ => ?_) ?_
  · refine Within.ite ?_ ?_
    · exact Within.refl _ _
    refine Within.app (State.modCnt_within _ _ _ _) rfl ?_
    exact Within.refl _ _
  exact Within.refl _ _

theorem State.trcCfgWrite_within (s : State) (a1) :
    Within { csr := true, trcCfg := true, trc := true } s (State.trcCfgWrite s a1) := by
  unfold State.trcCfgWrite
  extract_lets +onlyGivenNames x
  refine Within.cut (x := x) ?_ ?_ <;> [(unfold x; clear x); (obtain ⟨y, e⟩ := named x; rewrite [← e]; clear e x; intro _)]
  · refine Within.app (State.csrPut_within _ _ _) rfl ?_
    exact Within.refl _ _
  refine Within.ite ?_ ?_
  · refine Within.app (State.captureStart_within _) rfl ?_
    assumption
  assumption

theorem State.traceSetupGo_within (s : State) (a1) (a2) (a3) (a4) :
    Within { csr := true, trcCfg := true, trc := true } s (State.traceSetupGo s a1 a2 a3 a4) := by
  unfold State.traceSetupGo
  refine Within.app (State.trcCfgWrite_within _ _) rfl ?_
  refine Within.app (State.csrPut_within _ _ _) rfl ?_
  refine Within.app (State.csrPut_within _ _ _) rfl ?_
  refine Within.app (State.csrPut_within _ _ _) rfl ?_
  exact Within.refl _ _

theorem execCapture_within (a0) (s : State) :
    WithinX { csr := true, trcCfg := true, trc := true } s (execCapture a0 s) := by
  unfold execCapture
  refine WithinX.next ?_
  refine Within.ite ?_ ?_
  · refine Within.app (State.trcCfgWrite_within _ _) rfl ?_
    exact Within.refl _ _
  exact Within.refl _ _

theorem execCounterClear_within (a0) (a1) (s : State) :
    WithinX { tlys := true } s (execCounterClear a0 a1 s) := by
  unfold execCounterClear
  refine WithinX.next ?_
  refine Within.ite ?_ ?_
  · refine Within.app (State.tlyCtl_within _ _ _ _ _) rfl ?_
    exact Within.refl _ _
  exact Within.refl _ _

theorem execCounterSnapshot_within (a0) (s : State) :
    WithinX { mtu := true, tlys := true } s (execCounterSnapshot a0 s) := by
  unfold execCounterSnapshot
  refine WithinX.next ?_
  split
  · exact Within.refl _ _
  extract_lets +onlyGivenNames x
  clear_value x
  refine Within.foldl (fun _ _ => ?_) ?_
  · extract_lets +onlyGivenNames x
    clear_value x
    refine Within.app (State.setTly_within _ _ _) rfl ?_
    exact Within.refl _ _
  refine WithinO.get (State.fire_within _ _ _) (by assumption) rfl ?_
  exact Within.refl _ _

theorem execEvselWrite_within (a0) (a1) (a2) (a3) (s : State) :
    WithinX { tlys := true } s (execEvselWrite a0 a1 a2 a3 s) := by
  unfold execEvselWrite
  refine WithinX.next ?_
  refine Within.ite ?_ ?_
  · refine Within.app (State.setEvsel_within _ _ _ _) rfl ?_
    exact Within.refl _ _
  exact Within.refl _ _

theorem execRoutingDone_within (a0) (a1) (s : State) :
    WithinX { links := true, pba := true, rtrTx := true, mgtq := true, tlys := true, events := true, outs := true } s (execRoutingDone a0 a1 s) := by
  unfold execRoutingDone
  refine WithinX.next ?_
  refine Within.ite ?_ ?_
  · refine Within.app (State.routeDone_within _ _ _) rfl ?_
    exact Within.refl _ _
  exact Within.refl _ _

theorem execStart_within (a0) (a1) (a2) (s : State) :
    WithinX { tlys := true } s (execStart a0 a1 a2 s) := by
  unfold execStart
  refine WithinX.next ?_
  refine Within.ite ?_ ?_
  · refine Within.app (State.tlyCtl_within _ _ _ _ _) rfl ?_
    exact Within.refl _ _
  exact Within.refl _ _

theorem execStop_within (a0) (a1) (a2) (s : State) :
    WithinX { tlys := true } s (execStop a0 a1 a2 s) := by
  unfold execStop
  refine WithinX.next ?_
  refine Within.ite ?_ ?_
  · refine Within.app (State.tlyCtl_within _ _ _ _ _) rfl ?_
    exact Within.refl _ _
  exact Within.refl _ _

theorem execTallyLowHalfRead_within (a0) (a1) (s : State) :
    WithinX { tlys := true, outs := true } s (execTallyLowHalfRead a0 a1 s) := by
  unfold execTallyLowHalfRead
  refine WithinX.next ?_
  refine Within.ite ?_ ?_
  · extract_lets +onlyGivenNames x
    clear_value x
    extract_lets +onlyGivenNames x
    clear_value x
    refine Within.app (State.emit_within _ _) rfl ?_
    refine Within.app (State.setTly_within _ _ _) rfl ?_
    exact Within.refl _ _
  exact Within.refl _ _

end Sys2Proof.Machine
end

