-- ==== Sys2Proof/Laws/RegWrite.lean ====
section
/-! SUPPORT. For each operation of Machine/RegWrite.lean one lemma: which pieces of the state it can change, and that it keeps the
invariant of Safety.lean. -/

set_option Elab.async false

namespace Sys2Proof.Machine

theorem State.boundClear_within (s : State) (a1) :
    Within { links := true, pba := true } s (State.boundClear s a1) := by
  unfold State.boundClear
  extract_lets +onlyGivenNames x
  clear_value x
  extract_lets +onlyGivenNames x
  clear_value x
  refine Within.app (State.modLink_within _ _ _) rfl ?_
  refine Within.app (State.modLink_within _ _ _) rfl ?_
  exact Within.refl _ _

theorem State.msixWrite_within (s : State) (a1) (a2) (a3) (a4) :
    Within { msix := true, links := true, pba := true, outs := true } s (State.msixWrite s a1 a2 a3 a4) := by
  unfold State.msixWrite
  extract_lets +onlyGivenNames x
  clear_value x
  extract_lets +onlyGivenNames x
  refine Within.cut (x := x) ?_ ?_ <;> [(unfold x; clear x); (obtain ⟨y, e⟩ := named x; rewrite [← e]; clear e x; intro _)]
  · refine Within.app (State.msixPut_within _ _ _) rfl ?_
    exact Within.refl _ _
  refine Within.ite ?_ ?_
  · refine Within.app (State.emit_within _ _) rfl ?_
    refine Within.app (State.modLink_within _ _ _) rfl ?_
    assumption
  assumption

theorem State.wrRW_within (s : State) (a1) (a2) (a3) :
    Within { csr := true, trcCfg := true } s (State.wrRW s a1 a2 a3) := by
  unfold State.wrRW
  refine Within.app (State.csrPut_within _ _ _) rfl ?_
  exact Within.refl _ _

theorem State.wrRWL_within (s : State) (a1) (a2) (a3) :
    Within { csr := true, trcCfg := true } s (State.wrRWL s a1 a2 a3) := by
  unfold State.wrRWL
  refine Within.ite ?_ ?_
  · refine Within.app (State.wrRW_within _ _ _ _) rfl ?_
    exact Within.refl _ _
  exact Within.refl _ _

theorem State.writeGlb_within (s : State) (a1) (a2) :
    Within { clk := true, cyc0 := true, paused := true, free := true, finds := true, due := true, pcr := true, boot := true, node := true, csr := true, trcCfg := true, msix := true, irq := true, glbPart := true, glbHouse := true, mode := true, slices := true, banks := true, chans := true, far := true, near := true, memIo := true, memCfg := true, hsf := true, bisnps := true, links := true, pba := true, hreqs := true, nextRid := true, accs := true, lse := true, fnc := true, xlts := true, xinv := true, ports := true, rtrTx := true, rtrRx := true, rtrUn := true, rtr := true, dom := true, mt := true, mtu := true, pors := true, qmg := true, ledger := true, bkt := true, flip := true, ras := true, flash := true, mgtq := true, mgt := true, tlys := true, events := true, trc := true, tap := true, outs := true } s (State.writeGlb s a1 a2) := by
  unfold State.writeGlb
  refine Within.ite ?_ ?_
  · with_reducible (apply Within.upd <;> try first | exact .inl rfl | exact .inr rfl | exact id | assumption | exact Within.refl _ _)
  refine Within.ite ?_ ?_
  · extract_lets +onlyGivenNames x
    refine Within.cut (x := x) ?_ ?_ <;> [(unfold x; clear x); (obtain ⟨y, e⟩ := named x; rewrite [← e]; clear e x; intro _)]
    · refine Within.ite ?_ ?_
      · refine Within.app (State.setStopAt_within _ _) rfl ?_
        exact Within.refl _ _
      exact Within.refl _ _
    refine Within.ite ?_ ?_
    · refine Within.app (State.warmReset_within _) rfl ?_
      assumption
    assumption
  refine Within.ite ?_ ?_
  · refine Within.ite ?_ ?_
    · with_reducible (apply Within.upd <;> try first | exact .inl rfl | exact .inr rfl | exact id | assumption | exact Within.refl _ _)
    exact Within.refl _ _
  refine Within.ite ?_ ?_
  · refine Within.app (State.wrRWL_within _ _ _ _) rfl ?_
    exact Within.refl _ _
  exact Within.refl _ _

theorem State.writeMtu_within (s : State) (a1) (a2) :
    Within { csr := true, trcCfg := true, mtu := true } s (State.writeMtu s a1 a2) := by
  unfold State.writeMtu
  refine Within.ite ?_ ?_
  · with_reducible (apply Within.upd <;> try first | exact .inl rfl | exact .inr rfl | exact id | assumption | exact Within.refl _ _)
    extract_lets +onlyGivenNames x
    with_reducible refine MtuI.of ?_ <;> try exact id
  refine Within.ite ?_ ?_
  · refine Within.app (State.restrata_within _) rfl ?_
    refine Within.app (State.wrRWL_within _ _ _ _) rfl ?_
    exact Within.refl _ _
  exact Within.refl _ _

theorem State.writeRas_within (s : State) (a1) (a2) :
    Within { csr := true, trcCfg := true, bkt := true, flip := true, ras := true } s (State.writeRas s a1 a2) := by
  unfold State.writeRas
  refine Within.ite ?_ ?_
  · refine Within.app (State.wrRW_within _ _ _ _) rfl ?_
    refine Within.app (State.wrRWL_within _ _ _ _) rfl ?_
    exact Within.refl _ _
  refine Within.ite ?_ ?_
  · refine Within.app (State.flipCtl_within _ _) rfl ?_
    exact Within.refl _ _
  refine Within.ite ?_ ?_
  · refine Within.app (State.wrRW_within _ _ _ _) rfl ?_
    exact Within.refl _ _
  refine Within.ite ?_ ?_
  · refine Within.ite ?_ ?_
    · refine Within.app (State.wrRWL_within _ _ _ _) rfl ?_
      exact Within.refl _ _
    extract_lets +onlyGivenNames x
    refine Within.cut (x := x) ?_ ?_ <;> [(unfold x; clear x); (obtain ⟨y, e⟩ := named x; rewrite [← e]; clear e x; intro _)]
    · refine Within.app (State.wrRWL_within _ _ _ _) rfl ?_
      exact Within.refl _ _
    refine Within.ite ?_ ?_
    · with_reducible (apply Within.upd <;> try first | exact .inl rfl | exact .inr rfl | exact id | assumption | exact Within.refl _ _)
      extract_lets +onlyGivenNames x
      with_reducible refine RasI.of ?_ ?_ <;> try exact id
    assumption
  refine Within.ite ?_ ?_
  · extract_lets +onlyGivenNames x
    clear_value x
    extract_lets +onlyGivenNames x
    clear_value x
    refine Within.app (State.wrRW_within _ _ _ _) rfl ?_
    with_reducible (apply Within.upd <;> try first | exact .inl rfl | exact .inr rfl | exact id | assumption | exact Within.refl _ _)
    extract_lets +onlyGivenNames x
    with_reducible refine RasI.of ?_ ?_ <;> try exact id
  exact Within.refl _ _

theorem State.writePcr_within (s : State) (a1) (a2) :
    Within { pcr := true, csr := true, trcCfg := true } s (State.writePcr s a1 a2) := by
  unfold State.writePcr
  refine Within.ite ?_ ?_
  · refine Within.app (State.wrRWL_within _ _ _ _) rfl ?_
    exact Within.refl _ _
  refine Within.ite ?_ ?_
  · with_reducible (apply Within.upd <;> try first | exact .inl rfl | exact .inr rfl | exact id | assumption | exact Within.refl _ _)
  exact Within.refl _ _

theorem State.writeTly_within (s : State) (a1) (a2) (a3) :
    Within { tlys := true } s (State.writeTly s a1 a2 a3) := by
  unfold State.writeTly
  refine Within.ite ?_ ?_
  · refine Within.app (State.tlyCtl_within _ _ _ _ _) rfl ?_
    exact Within.refl _ _
  refine Within.ite ?_ ?_
  · extract_lets +onlyGivenNames x
    clear_value x
    extract_lets +onlyGivenNames x
    refine Within.cut (x := x) ?_ ?_ <;> [(unfold x; clear x); (obtain ⟨y, e⟩ := named x; rewrite [← e]; clear e x; intro _)]
    · refine Within.ite ?_ ?_
      · refine Within.app (State.setEvsel_within _ _ _ _) rfl ?_
        exact Within.refl _ _
      exact Within.refl _ _
    refine Within.ite ?_ ?_
    · refine Within.app (State.modCnt_within _ _ _ _) rfl ?_
      assumption
    assumption
  refine Within.ite ?_ ?_
  · refine Within.app (State.modCnt_within _ _ _ _) rfl ?_
    exact Within.refl _ _
  exact Within.refl _ _

theorem State.writeTrc_within (s : State) (a1) (a2) :
    Within { csr := true, trcCfg := true, trc := true } s (State.writeTrc s a1 a2) := by
  unfold State.writeTrc
  refine Within.ite ?_ ?_
  · extract_lets +onlyGivenNames x
    refine Within.cut (x := x) ?_ ?_ <;> [(unfold x; clear x); (obtain ⟨y, e⟩ := named x; rewrite [← e]; clear e x; intro _)]
    · refine Within.app (State.wrRW_within _ _ _ _) rfl ?_
      exact Within.refl _ _
    refine Within.ite ?_ ?_
    · refine Within.app (State.captureStart_within _) rfl ?_
      assumption
    assumption
  refine Within.ite ?_ ?_
  · refine Within.app (State.wrRW_within _ _ _ _) rfl ?_
    exact Within.refl _ _
  refine Within.ite ?_ ?_
  · refine Within.app (State.wrRW_within _ _ _ _) rfl ?_
    exact Within.refl _ _
  refine Within.ite ?_ ?_
  · refine Within.app (State.wrRW_within _ _ _ _) rfl ?_
    exact Within.refl _ _
  exact Within.refl _ _

theorem State.writeHpt_within (s : State) (a1) (a2) (a3) :
    Within { csr := true, trcCfg := true, msix := true, links := true, pba := true, outs := true } s (State.writeHpt s a1 a2 a3) := by
  unfold State.writeHpt
  refine Within.ite ?_ ?_
  · refine Within.app (State.wrRW_within _ _ _ _) rfl ?_
    exact Within.refl _ _
  refine Within.ite ?_ ?_
  · refine Within.app (State.wrRWL_within _ _ _ _) rfl ?_
    exact Within.refl _ _
  refine Within.ite ?_ ?_
  · refine Within.app (State.wrRWL_within _ _ _ _) rfl ?_
    exact Within.refl _ _
  refine Within.ite ?_ ?_
  · refine Within.ite ?_ ?_
    · refine Within.app (State.boundClear_within _ _) rfl ?_
      exact Within.refl _ _
    exact Within.refl _ _
  refine Within.ite ?_ ?_
  · refine Within.ite ?_ ?_
    · refine Within.app (State.modLink_within _ _ _) rfl ?_
      exact Within.refl _ _
    exact Within.refl _ _
  refine Within.ite ?_ ?_
  · refine Within.app (State.wrRWL_within _ _ _ _) rfl ?_
    exact Within.refl _ _
  refine Within.ite ?_ ?_
  · extract_lets +onlyGivenNames x
    clear_value x
    refine Within.ite ?_ ?_
    · refine Within.app (State.msixWrite_within _ _ _ _ _) rfl ?_
      exact Within.refl _ _
    exact Within.refl _ _
  exact Within.refl _ _

theorem State.writeFpt_within (s : State) (a1) (a2) (a3) :
    Within { csr := true, trcCfg := true, irq := true, pba := true, ports := true, rtrTx := true, mtu := true, ledger := true, events := true, trc := true, outs := true } s (State.writeFpt s a1 a2 a3) := by
  unfold State.writeFpt
  refine Within.ite ?_ ?_
  · exact Within.refl _ _
  extract_lets +onlyGivenNames x
  refine Within.cut (x := x) ?_ ?_ <;> [(unfold x; clear x); (obtain ⟨y, e⟩ := named x; rewrite [← e]; clear e x; intro _)]
  · refine Within.app (State.wrRWL_within _ _ _ _) rfl ?_
    exact Within.refl _ _
  refine Within.ite ?_ ?_
  · extract_lets +onlyGivenNames x
    refine Within.cut (x := x) ?_ ?_ <;> [(unfold x; clear x); (obtain ⟨y, e⟩ := named x; rewrite [← e]; clear e x; intro _)]
    · refine Within.app (State.portEnable_within _ _ _) rfl ?_
      assumption
    refine Within.ite ?_ ?_
    · refine Within.app (State.portRetrain_within _ _) rfl ?_
      assumption
    assumption
  refine Within.ite ?_ ?_
  · refine Within.app (State.portEnable_within _ _ _) rfl ?_
    assumption
  assumption

theorem State.writeRt_within (s : State) (a1) (a2) :
    Within { csr := true, trcCfg := true, rtr := true } s (State.writeRt s a1 a2) := by
  unfold State.writeRt
  extract_lets +onlyGivenNames x
  clear_value x
  refine Within.app (State.wrRW_within _ _ _ _) rfl ?_
  with_reducible (apply Within.upd <;> try first | exact .inl rfl | exact .inr rfl | exact id | assumption | exact Within.refl _ _)

theorem State.writeRtr_within (s : State) (a1) (a2) :
    Within { csr := true, trcCfg := true } s (State.writeRtr s a1 a2) := by
  unfold State.writeRtr
  refine Within.ite ?_ ?_
  · refine Within.app (State.wrRWL_within _ _ _ _) rfl ?_
    exact Within.refl _ _
  refine Within.ite ?_ ?_
  · refine Within.app (State.wrRWL_within _ _ _ _) rfl ?_
    exact Within.refl _ _
  exact Within.refl _ _

theorem State.writeSlc_within (s : State) (a1) (a2) (a3) :
    Within { csr := true, trcCfg := true, slices := true } s (State.writeSlc s a1 a2 a3) := by
  unfold State.writeSlc
  refine Within.ite ?_ ?_
  · extract_lets +onlyGivenNames x
    clear_value x
    refine Within.ite ?_ ?_
    · refine Within.app (State.wrRWL_within _ _ _ _) rfl ?_
      refine Within.app (State.tcAction_within _ _ _) rfl ?_
      exact Within.refl _ _
    extract_lets +onlyGivenNames x
    refine Within.cut (x := x) ?_ ?_ <;> [(unfold x; clear x); (obtain ⟨y, e⟩ := named x; rewrite [← e]; clear e x; intro _)]
    · refine Within.app (State.wrRWL_within _ _ _ _) rfl ?_
      exact Within.refl _ _
    refine Within.ite ?_ ?_
    · refine Within.app (State.tcAction_within _ _ _) rfl ?_
      assumption
    refine Within.ite ?_ ?_
    · refine Within.app (State.tcAction_within _ _ _) rfl ?_
      assumption
    assumption
  refine Within.ite ?_ ?_
  · extract_lets +onlyGivenNames x
    refine Within.cut (x := x) ?_ ?_ <;> [(unfold x; clear x); (obtain ⟨y, e⟩ := named x; rewrite [← e]; clear e x; intro _)]
    · refine Within.app (State.wrRWL_within _ _ _ _) rfl ?_
      exact Within.refl _ _
    refine Within.ite ?_ ?_
    · refine Within.app (State.modSlice_within _ _ _) rfl ?_
      assumption
    assumption
  refine Within.ite ?_ ?_
  · extract_lets +onlyGivenNames x
    refine Within.cut (x := x) ?_ ?_ <;> [(unfold x; clear x); (obtain ⟨y, e⟩ := named x; rewrite [← e]; clear e x; intro _)]
    · refine Within.app (State.wrRWL_within _ _ _ _) rfl ?_
      exact Within.refl _ _
    refine Within.ite ?_ ?_
    · refine Within.app (State.modSlice_within _ _ _) rfl ?_
      assumption
    assumption
  refine Within.ite ?_ ?_
  · refine Within.app (State.wrRWL_within _ _ _ _) rfl ?_
    exact Within.refl _ _
  refine Within.ite ?_ ?_
  · refine Within.ite ?_ ?_
    · refine Within.app (State.modSlice_within _ _ _) rfl ?_
      exact Within.refl _ _
    exact Within.refl _ _
  refine Within.ite ?_ ?_
  · refine Within.ite ?_ ?_
    · refine Within.app (State.modSlice_within _ _ _) rfl ?_
      exact Within.refl _ _
    exact Within.refl _ _
  exact Within.refl _ _

theorem State.writeXlt_within (s : State) (a1) (a2) (a3) :
    Within { csr := true, trcCfg := true, xlts := true } s (State.writeXlt s a1 a2 a3) := by
  unfold State.writeXlt
  refine Within.ite ?_ ?_
  · refine Within.app (State.wrRWL_within _ _ _ _) rfl ?_
    exact Within.refl _ _
  refine Within.ite ?_ ?_
  · refine Within.ite ?_ ?_
    · refine Within.app (State.setXlt_within _ _ _) rfl ?_
      exact Within.refl _ _
    exact Within.refl _ _
  exact Within.refl _ _

theorem State.writeXinv_within (s : State) (a1) (a2) :
    Within { csr := true, trcCfg := true, fnc := true, xlts := true, xinv := true, rtrTx := true, pors := true } s (State.writeXinv s a1 a2) := by
  unfold State.writeXinv
  refine Within.ite ?_ ?_
  · refine Within.app (State.wrRW_within _ _ _ _) rfl ?_
    exact Within.refl _ _
  refine Within.ite ?_ ?_
  · refine Within.ite ?_ ?_
    · refine Within.app (State.invStart_within _ _ _ _) rfl ?_
      exact Within.refl _ _
    exact Within.refl _ _
  exact Within.refl _ _

theorem State.writePor_within (s : State) (a1) (a2) (a3) :
    Within { csr := true, trcCfg := true, pba := true, lse := true, rtrTx := true, pors := true, qmg := true, events := true, outs := true } s (State.writePor s a1 a2 a3) := by
  unfold State.writePor
  refine Within.ite ?_ ?_
  · refine Within.app (State.wrRW_within _ _ _ _) rfl ?_
    exact Within.refl _ _
  refine Within.ite ?_ ?_
  · extract_lets +onlyGivenNames x
    refine Within.cut (x := x) ?_ ?_ <;> [(unfold x; clear x); (obtain ⟨y, e⟩ := named x; rewrite [← e]; clear e x; intro _)]
    · refine Within.ite ?_ ?_
      · refine Within.app (State.abortEach_within _ _) rfl ?_
        exact Within.refl _ _
      refine Within.ite ?_ ?_
      · refine Within.app (State.abort_within _ _ _) rfl ?_
        exact Within.refl _ _
      exact Within.refl _ _
    refine Within.ite ?_ ?_
    · refine Within.app (State.porResume_within _ _) rfl ?_
      assumption
    assumption
  exact Within.refl _ _

theorem State.writeQ_within (s : State) (a1) (a2) (a3) :
    Within { qmg := true } s (State.writeQ s a1 a2 a3) := by
  unfold State.writeQ
  extract_lets +onlyGivenNames x
  clear_value x
  refine Within.ite ?_ ?_
  · refine Within.ite ?_ ?_
    · exact Within.refl _ _
    refine Within.app (State.setQent_within _ _ _) rfl ?_
    exact Within.refl _ _
  refine Within.ite ?_ ?_
  · refine Within.ite ?_ ?_
    · refine Within.app (State.setQent_within _ _ _) rfl ?_
      exact Within.refl _ _
    refine Within.app (State.setQent_within _ _ _) rfl ?_
    exact Within.refl _ _
  exact Within.refl _ _

theorem State.writeSlot_within (s : State) (a1) (a2) (a3) (a4) (a5) :
    Within { free := true, finds := true, due := true, csr := true, trcCfg := true, irq := true, slices := true, chans := true, near := true, memIo := true, pba := true, pors := true, qmg := true, ledger := true, bkt := true, flip := true, events := true, trc := true, outs := true } s (State.writeSlot s a1 a2 a3 a4 a5) := by
  unfold State.writeSlot
  extract_lets +onlyGivenNames x
  clear_value x
  refine Within.ite ?_ ?_
  · with_reducible (apply Within.upd <;> try first | exact .inl rfl | exact .inr rfl | exact id | assumption | exact Within.refl _ _)
    extract_lets +onlyGivenNames x
    with_reducible refine QmgI.of ?_ <;> try exact id
    with_reducible exact fun h => Memory.wf_writeLE _ _ _ _ h
  refine Within.ite ?_ ?_
  · refine Within.app (State.wrRW_within _ _ _ _) rfl ?_
    exact Within.refl _ _
  refine Within.ite ?_ ?_
  · extract_lets +onlyGivenNames x
    clear_value x
    refine Within.ite ?_ ?_
    · refine Within.app (State.qFlush_within _ _) rfl ?_
      exact Within.refl _ _
    extract_lets +onlyGivenNames x
    refine Within.cut (x := x) ?_ ?_ <;> [(unfold x; clear x); (obtain ⟨y, e⟩ := named x; rewrite [← e]; clear e x; intro _)]
    · refine Within.ite ?_ ?_
      · refine Within.app (State.qAdvance_within _ _ _) rfl ?_
        exact Within.refl _ _
      exact Within.refl _ _
    extract_lets +onlyGivenNames x
    refine Within.cut (x := x) ?_ ?_ <;> [(unfold x; clear x); (obtain ⟨y, e⟩ := named x; rewrite [← e]; clear e x; intro _)]
    · refine Within.ite ?_ ?_
      · refine Within.app (State.qDrop_within _ _) rfl ?_
        assumption
      assumption
    refine Within.ite ?_ ?_
    · refine Within.app (State.qClear_within _ _) rfl ?_
      assumption
    assumption
  exact Within.refl _ _

theorem State.regWrite_within (s : State) (a1) (a2) (a3) :
    Within { clk := true, cyc0 := true, paused := true, free := true, finds := true, due := true, pcr := true, boot := true, node := true, csr := true, trcCfg := true, msix := true, irq := true, glbPart := true, glbHouse := true, mode := true, slices := true, banks := true, chans := true, far := true, near := true, memIo := true, memCfg := true, hsf := true, bisnps := true, links := true, pba := true, hreqs := true, nextRid := true, accs := true, lse := true, fnc := true, xlts := true, xinv := true, ports := true, rtrTx := true, rtrRx := true, rtrUn := true, rtr := true, dom := true, mt := true, mtu := true, pors := true, qmg := true, ledger := true, bkt := true, flip := true, ras := true, flash := true, mgtq := true, mgt := true, tlys := true, events := true, trc := true, tap := true, outs := true } s (State.regWrite s a1 a2 a3) := by
  unfold State.regWrite
  extract_lets +onlyGivenNames x
  clear_value x
  extract_lets +onlyGivenNames x
  clear_value x
  refine Within.ite ?_ ?_
  · refine Within.app (State.writeGlb_within _ _ _) rfl ?_
    exact Within.refl _ _
  refine Within.ite ?_ ?_
  · exact Within.refl _ _
  refine Within.ite ?_ ?_
  · refine Within.ite ?_ ?_
    · refine Within.app (State.schWrite_within _ _ _ _) rfl ?_
      exact Within.refl _ _
    refine Within.app (State.writeMtu_within _ _ _) rfl ?_
    exact Within.refl _ _
  refine Within.ite ?_ ?_
  · refine Within.app (State.writeRas_within _ _ _) rfl ?_
    exact Within.refl _ _
  refine Within.ite ?_ ?_
  · refine Within.app (State.sysTreeWrite_within _ _ _ _) rfl ?_
    exact Within.refl _ _
  refine Within.ite ?_ ?_
  · refine Within.ite ?_ ?_
    · refine Within.app (State.wrRWL_within _ _ _ _) rfl ?_
      exact Within.refl _ _
    exact Within.refl _ _
  refine Within.ite ?_ ?_
  · exact Within.refl _ _
  refine Within.ite ?_ ?_
  · refine Within.app (State.writePcr_within _ _ _) rfl ?_
    exact Within.refl _ _
  refine Within.ite ?_ ?_
  · refine Within.app (State.writeTly_within _ _ _ _) rfl ?_
    exact Within.refl _ _
  refine Within.ite ?_ ?_
  · exact Within.refl _ _
  refine Within.ite ?_ ?_
  · refine Within.app (State.writeTrc_within _ _ _) rfl ?_
    exact Within.refl _ _
  refine Within.ite ?_ ?_
  · exact Within.refl _ _
  refine Within.ite ?_ ?_
  · refine Within.ite ?_ ?_
    · refine Within.app (State.writeHpt_within _ _ _ _) rfl ?_
      exact Within.refl _ _
    exact Within.refl _ _
  refine Within.ite ?_ ?_
  · refine Within.ite ?_ ?_
    · refine Within.app (State.writeFpt_within _ _ _ _) rfl ?_
      exact Within.refl _ _
    exact Within.refl _ _
  refine Within.ite ?_ ?_
  · refine Within.app (State.writeRt_within _ _ _) rfl ?_
    exact Within.refl _ _
  refine Within.ite ?_ ?_
  · refine Within.app (State.writeRtr_within _ _ _) rfl ?_
    exact Within.refl _ _
  refine Within.ite ?_ ?_
  · exact Within.refl _ _
  refine Within.ite ?_ ?_
  · refine Within.app (State.writeSlc_within _ _ _ _) rfl ?_
    exact Within.refl _ _
  refine Within.ite ?_ ?_
  · refine Within.ite ?_ ?_
    · refine Within.app (State.wrRWL_within _ _ _ _) rfl ?_
      exact Within.refl _ _
    exact Within.refl _ _
  refine Within.ite ?_ ?_
  · refine Within.ite ?_ ?_
    · refine Within.app (State.wrRWL_within _ _ _ _) rfl ?_
      exact Within.refl _ _
    exact Within.refl _ _
  refine Within.ite ?_ ?_
  · refine Within.ite ?_ ?_
    · refine Within.app (State.wrRWL_within _ _ _ _) rfl ?_
      exact Within.refl _ _
    exact Within.refl _ _
  refine Within.ite ?_ ?_
  · refine Within.ite ?_ ?_
    · refine Within.app (State.writeXlt_within _ _ _ _) rfl ?_
      exact Within.refl _ _
    exact Within.refl _ _
  refine Within.ite ?_ ?_
  · exact Within.refl _ _
  refine Within.ite ?_ ?_
  · refine Within.app (State.writeXinv_within _ _ _) rfl ?_
    exact Within.refl _ _
  refine Within.ite ?_ ?_
  · refine Within.ite ?_ ?_
    · refine Within.app (State.wrRWL_within _ _ _ _) rfl ?_
      exact Within.refl _ _
    exact Within.refl _ _
  refine Within.ite ?_ ?_
  · refine Within.app (State.ctxWrite_within _ _ _ _) rfl ?_
    exact Within.refl _ _
  refine Within.ite ?_ ?_
  · exact Within.refl _ _
  refine Within.ite ?_ ?_
  · refine Within.ite ?_ ?_
    · refine Within.app (State.writePor_within _ _ _ _) rfl ?_
      exact Within.refl _ _
    exact Within.refl _ _
  refine Within.ite ?_ ?_
  · exact Within.refl _ _
  refine Within.ite ?_ ?_
  · refine Within.app (State.writeQ_within _ _ _ _) rfl ?_
    exact Within.refl _ _
  refine Within.ite ?_ ?_
  · exact Within.refl _ _
  refine Within.ite ?_ ?_
  · refine Within.app (State.writeSlot_within _ _ _ _ _ _) rfl ?_
    exact Within.refl _ _
  refine Within.ite ?_ ?_
  · exact Within.refl _ _
  refine Within.ite ?_ ?_
  · with_reducible (apply Within.upd <;> try first | exact .inl rfl | exact .inr rfl | exact id | assumption | exact Within.refl _ _)
  exact Within.refl _ _

theorem execBadRegisterAccess_within (a0) (a1) (a2) (a3) (s : State) :
    WithinX { trcCfg := true, irq := true, pba := true, ledger := true, events := true, trc := true, outs := true } s (execBadRegisterAccess a0 a1 a2 a3 s) := by
  unfold execBadRegisterAccess
  refine WithinX.next ?_
  refine Within.ite ?_ ?_
  · refine Within.app (State.badAccess_within _ _ _) rfl ?_
    exact Within.refl _ _
  exact Within.refl _ _

theorem execBoundClear_within (a0) (a1) (s : State) :
    WithinX { links := true, pba := true } s (execBoundClear a0 a1 s) := by
  unfold execBoundClear
  refine WithinX.next ?_
  refine Within.ite ?_ ?_
  · refine Within.app (State.boundClear_within _ _) rfl ?_
    exact Within.refl _ _
  exact Within.refl _ _

theorem execRegisterWrite_within (a0) (a1) (a2) (a3) (s : State) :
    WithinX { clk := true, cyc0 := true, paused := true, free := true, due := true, pcr := true, boot := true, node := true, csr := true, trcCfg := true, msix := true, irq := true, glbPart := true, glbHouse := true, mode := true, slices := true, banks := true, chans := true, far := true, near := true, memIo := true, memCfg := true, hsf := true, bisnps := true, links := true, pba := true, hreqs := true, nextRid := true, accs := true, lse := true, fnc := true, xlts := true, xinv := true, ports := true, rtrTx := true, rtrRx := true, rtrUn := true, rtr := true, dom := true, mt := true, mtu := true, pors := true, qmg := true, ledger := true, bkt := true, flip := true, ras := true, flash := true, mgtq := true, mgt := true, tlys := true, events := true, trc := true, tap := true, outs := true } s (execRegisterWrite a0 a1 a2 a3 s) := by
  unfold execRegisterWrite
  refine WithinX.next ?_
  refine Within.ite ?_ ?_
  · exact Within.refl _ _
  refine Within.ite ?_ ?_
  · refine State.noFinds_within ?_ (fun _ => ?_)
    · exact Within.refl _ _
    refine Within.app (State.regWrite_within _ _ _ _) rfl ?_
    exact Within.refl _ _
  refine Within.app (State.badAccess_within _ _ _) rfl ?_
  exact Within.refl _ _

end Sys2Proof.Machine
end

