-- ==== Sys2Proof/Laws/Tap.lean ====
section
/-! SUPPORT. For each operation of Machine/Tap.lean one lemma: which pieces of the state it can change, and that it keeps the
invariant of Safety.lean. -/

set_option Elab.async false

namespace Sys2Proof.Machine

theorem State.bistClean_within (s : State) (a1) :
    Within { free := true, finds := true, trcCfg := true, irq := true, slices := true, chans := true, near := true, memIo := true, pba := true, ledger := true, bkt := true, flip := true, events := true, trc := true, outs := true } s (State.bistClean s a1) := by
  unfold State.bistClean
  refine Within.foldl (fun _ _ => ?_) ?_
  · extract_lets +onlyGivenNames x
    clear_value x
    refine Within.foldl (fun _ _ => ?_) ?_
    · extract_lets +onlyGivenNames x
      clear_value x
      extract_lets +onlyGivenNames x
      clear_value x
      refine Within.ite ?_ ?_
      · refine Within.app (State.cleanWay_within _ _ _ _ _ _) rfl ?_
        exact Within.refl _ _
      exact Within.refl _ _
    exact Within.refl _ _
  exact Within.refl _ _

theorem State.bistFarDone_within (s : State) (a1) (a2) :
    Within { trcCfg := true, irq := true, chans := true, far := true, pba := true, ledger := true, events := true, trc := true, outs := true } s (State.bistFarDone s a1 a2) := by
  unfold State.bistFarDone
  refine Within.app (State.setChan_within _ _ _) rfl (Within.app (State.rec__within _ _ _ _ _ _) rfl ?_)
  with_reducible (apply Within.upd; (on_goal 1 => first | assumption | exact Within.refl _ _); all_goals try first | exact .inl rfl | exact .inr rfl | exact id)
  exact MemI.of (fun h => Tab.wf_drop _ _ _ h) id

theorem State.bistGo_within (s : State) (a1) (a2) (a3) :
    Within { free := true, finds := true, trcCfg := true, irq := true, slices := true, chans := true, near := true, memIo := true, pba := true, ledger := true, bkt := true, flip := true, mgt := true, events := true, trc := true, outs := true } s (State.bistGo s a1 a2 a3) := by
  unfold State.bistGo
  extract_lets +onlyGivenNames x
  extract_lets +onlyGivenNames x
  refine Within.cut (x := x) ?_ ?_ <;> [(unfold x; clear x); (obtain ⟨y, e⟩ := named x; rewrite [← e]; clear e x; intro _)]
  · with_reducible (apply Within.upd <;> try first | exact .inl rfl | exact .inr rfl | exact id | assumption | exact Within.refl _ _)
    with_reducible refine MgtI.of ?_ ?_ ?_ ?_ <;> try exact id
  refine Within.ite ?_ ?_
  · assumption
  extract_lets +onlyGivenNames x
  clear_value x
  extract_lets +onlyGivenNames x
  refine Within.cut (x := x) ?_ ?_ <;> [(unfold x; clear x); (obtain ⟨y, e⟩ := named x; rewrite [← e]; clear e x; intro _)]
  · refine Within.ite ?_ ?_
    · refine Within.app (State.bistClean_within _ _) rfl ?_
      assumption
    assumption
  refine Within.app (State.setChan_within _ _ _) rfl ?_
  assumption

theorem State.bistNearDone_within (s : State) (a1) :
    Within { free := true, finds := true, due := true, trcCfg := true, irq := true, slices := true, banks := true, chans := true, far := true, near := true, memIo := true, pba := true, pors := true, qmg := true, ledger := true, bkt := true, flip := true, events := true, trc := true, outs := true } s (State.bistNearDone s a1) := by
  unfold State.bistNearDone
  extract_lets +onlyGivenNames a
  extract_lets +onlyGivenNames b
  have ha : Within { free := true, finds := true, due := true, trcCfg := true, irq := true, slices := true, banks := true, chans := true, far := true, near := true, memIo := true, pba := true, pors := true, qmg := true, ledger := true, bkt := true, flip := true, events := true, trc := true, outs := true } s a := Within.app (State.sweepChan_within _ _) rfl (Within.refl _ _)
  clear_value a
  extract_lets +onlyGivenNames b
  have hb : Within { free := true, finds := true, due := true, trcCfg := true, irq := true, slices := true, banks := true, chans := true, far := true, near := true, memIo := true, pba := true, pors := true, qmg := true, ledger := true, bkt := true, flip := true, events := true, trc := true, outs := true } s b := by
    unfold b
    with_reducible (apply Within.upd; (on_goal 1 => first | assumption | exact Within.refl _ _); all_goals try first | exact .inl rfl | exact .inr rfl | exact id)
    exact MemI.of id fun h => Tab.wf_drop _ _ _ h
  clear_value b
  extract_lets +onlyGivenNames x
  clear_value x
  extract_lets +onlyGivenNames x
  refine Within.cut (x := x) ?_ ?_ <;> [(unfold x; clear x); (obtain ⟨y, e⟩ := named x; rewrite [← e]; clear e x; intro _)]
  · refine Within.foldl (fun _ _ => ?_) ?_
    · refine Within.app (State.zmapLost_within _ _) rfl ?_
      exact Within.refl _ _
    refine Within.app (State.poolInit_within _) rfl ?_
    assumption
  extract_lets +onlyGivenNames x
  refine Within.cut (x := x) ?_ ?_ <;> [(unfold x; clear x); (obtain ⟨y, e⟩ := named x; rewrite [← e]; clear e x; intro _)]
  · refine Within.foldl (fun _ _ => ?_) ?_
    · refine Within.app (State.setBank_within _ _ _) rfl ?_
      exact Within.refl _ _
    assumption
  extract_lets +onlyGivenNames x
  clear_value x
  extract_lets +onlyGivenNames x
  refine Within.cut (x := x) ?_ ?_ <;> [(unfold x; clear x); (obtain ⟨y, e⟩ := named x; rewrite [← e]; clear e x; intro _)]
  · refine Within.ite ?_ ?_
    · assumption
    refine Within.app (State.rec__within _ _ _ _ _ _) rfl ?_
    assumption
  refine Within.app (State.setChan_within _ _ _) rfl ?_
  assumption

theorem State.bistRepair_within (s : State) (a1) :
    Within { tap := true } s (State.bistRepair s a1) := by
  unfold State.bistRepair
  refine Within.foldl (fun _ _ => ?_) ?_
  · extract_lets +onlyGivenNames x
    clear_value x
    extract_lets +onlyGivenNames x
    clear_value x
    with_reducible (apply Within.upd <;> try first | exact .inl rfl | exact .inr rfl | exact id | assumption | exact Within.refl _ _)
  exact Within.refl _ _

theorem State.tapBoundary_within (s : State) (a1) :
    Within { free := true, tap := true, outs := true } s (State.tapBoundary s a1) := by
  unfold State.tapBoundary
  refine Within.app (State.emit_within _ _) rfl ?_
  with_reducible (apply Within.upd <;> try first | exact .inl rfl | exact .inr rfl | exact id | assumption | exact Within.refl _ _)

theorem State.tapRelease_within (s : State) :
    Within { tap := true, outs := true } s (State.tapRelease s) := by
  unfold State.tapRelease
  refine Within.ite ?_ ?_
  · refine Within.app (State.emit_within _ _) rfl ?_
    with_reducible (apply Within.upd <;> try first | exact .inl rfl | exact .inr rfl | exact id | assumption | exact Within.refl _ _)
  exact Within.refl _ _

theorem State.tapBypass_within (s : State) :
    Within { tap := true, outs := true } s (State.tapBypass s) := by
  unfold State.tapBypass
  refine Within.app (State.emit_within _ _) rfl ?_
  refine Within.app (State.tapRelease_within _) rfl ?_
  exact Within.refl _ _

theorem State.tapLoad_within (s : State) (a1) :
    Within { tap := true, outs := true } s (State.tapLoad s a1) := by
  unfold State.tapLoad
  refine Within.app (State.emit_within _ _) rfl ?_
  with_reducible (apply Within.upd <;> try first | exact .inl rfl | exact .inr rfl | exact id | assumption | exact Within.refl _ _)

theorem State.tapControl_within {m : Mask} {s x : State} (code : BitVec 8) (go : State → State) (hm : Mask.le { tap := true, outs := true } m = true)
    (w : Within m s x) (h : ∀ y, Within m y (go y)) : Within m s (x.tapControl code go) := by
  unfold State.tapControl
  refine w.trans ?_
  extract_lets +onlyGivenNames y
  have hy : Within m x y := Within.mono hm (Within.app (b := { tap := true, outs := true }) (State.tapLoad_within x code) rfl (Within.refl _ _))
  clear_value y
  refine Within.ite ?_ ?_
  · refine Within.trans ?_ (h _)
    refine hy.trans (Within.mono (a := { tap := true, outs := true }) hm ?_)
    with_reducible (apply Within.upd <;> try first | exact .inl rfl | exact .inr rfl | exact id | assumption | exact Within.refl _ _)
  · refine hy.trans (Within.mono (a := { tap := true, outs := true }) hm ?_)
    refine Within.app (State.tapBypass_within _) rfl ?_
    with_reducible (apply Within.upd <;> try first | exact .inl rfl | exact .inr rfl | exact id | assumption | exact Within.refl _ _)

theorem execBistComplete_within (a0) (a1) (a2) (a3) (s : State) :
    WithinX { free := true, due := true, trcCfg := true, irq := true, slices := true, banks := true, chans := true, far := true, near := true, memIo := true, links := true, pba := true, rtrTx := true, pors := true, qmg := true, ledger := true, bkt := true, flip := true, mgtq := true, mgt := true, events := true, trc := true, tap := true, outs := true } s (execBistComplete a0 a1 a2 a3 s) := by
  unfold execBistComplete
  refine WithinX.next ?_
  split
  · exact Within.refl _ _
  refine Within.ite ?_ ?_
  · exact Within.refl _ _
  extract_lets +onlyGivenNames x
  extract_lets +onlyGivenNames x
  refine Within.cut (x := x) ?_ ?_ <;> [(unfold x; clear x); (obtain ⟨y, e⟩ := named x; rewrite [← e]; clear e x; intro _)]
  · with_reducible (apply Within.upd <;> try first | exact .inl rfl | exact .inr rfl | exact id | assumption | exact Within.refl _ _)
    with_reducible refine MgtI.of ?_ ?_ ?_ ?_ <;> try exact id
  extract_lets +onlyGivenNames x
  refine Within.cut (x := x) ?_ ?_ <;> [(unfold x; clear x); (obtain ⟨y, e⟩ := named x; rewrite [← e]; clear e x; intro _)]
  · refine Within.ite ?_ ?_
    · refine Within.app (State.bistRepair_within _ _) rfl ?_
      assumption
    refine Within.ite ?_ ?_
    · refine State.noFinds_within ?_ (fun _ => ?_)
      · assumption
      refine Within.app (State.bistNearDone_within _ _) rfl ?_
      exact Within.refl _ _
    refine Within.app (State.bistFarDone_within _ _ _) rfl ?_
    assumption
  refine Within.app (State.cmdEnd_within _ _ _ _) rfl ?_
  assumption

theorem execBypass_within (a0) (s : State) :
    WithinX { tap := true, outs := true } s (execBypass a0 s) := by
  unfold execBypass
  refine WithinX.next ?_
  refine Within.app (State.tapBypass_within _) rfl ?_
  refine Within.app (State.tapLoad_within _ _) rfl ?_
  exact Within.refl _ _

theorem execClamp_within (s : State) :
    WithinX { tap := true, outs := true } s (execClamp s) := by
  unfold execClamp
  refine WithinX.next ?_
  refine State.tapControl_within _ _ rfl ?_ (fun _ => ?_)
  · exact Within.refl _ _
  refine Within.app (State.emit_within _ _) rfl ?_
  refine Within.app (State.emit_within _ _) rfl ?_
  exact Within.refl _ _

theorem execExtest_within (a0) (s : State) :
    WithinX { free := true, tap := true, outs := true } s (execExtest a0 s) := by
  unfold execExtest
  refine WithinX.next ?_
  refine State.tapControl_within _ _ rfl ?_ (fun _ => ?_)
  · exact Within.refl _ _
  refine Within.app (State.emit_within _ _) rfl ?_
  refine Within.app (State.tapBoundary_within _ _) rfl ?_
  exact Within.refl _ _

theorem execExtestPulse_within (a0) (s : State) :
    WithinX { free := true, tap := true, outs := true } s (execExtestPulse a0 s) := by
  unfold execExtestPulse
  refine WithinX.next ?_
  refine State.tapControl_within _ _ rfl ?_ (fun _ => ?_)
  · exact Within.refl _ _
  refine Within.app (State.emit_within _ _) rfl ?_
  refine Within.app (State.tapBoundary_within _ _) rfl ?_
  exact Within.refl _ _

theorem execExtestTrain_within (a0) (s : State) :
    WithinX { free := true, tap := true, outs := true } s (execExtestTrain a0 s) := by
  unfold execExtestTrain
  refine WithinX.next ?_
  refine State.tapControl_within _ _ rfl ?_ (fun _ => ?_)
  · exact Within.refl _ _
  refine Within.app (State.emit_within _ _) rfl ?_
  refine Within.app (State.tapBoundary_within _ _) rfl ?_
  exact Within.refl _ _

theorem execHighz_within (s : State) :
    WithinX { tap := true, outs := true } s (execHighz s) := by
  unfold execHighz
  refine WithinX.next ?_
  refine State.tapControl_within _ _ rfl ?_ (fun _ => ?_)
  · exact Within.refl _ _
  refine Within.app (State.emit_within _ _) rfl ?_
  refine Within.app (State.emit_within _ _) rfl ?_
  exact Within.refl _ _

theorem execIdcode_within (s : State) :
    WithinX { tap := true, outs := true } s (execIdcode s) := by
  unfold execIdcode
  refine WithinX.next ?_
  refine Within.app (State.emit_within _ _) rfl ?_
  refine Within.app (State.tapRelease_within _) rfl ?_
  refine Within.app (State.tapLoad_within _ _) rfl ?_
  exact Within.refl _ _

theorem execRepairScan_within (s : State) :
    WithinX { tap := true, outs := true } s (execRepairScan s) := by
  unfold execRepairScan
  refine WithinX.next ?_
  refine Within.app (State.emit_within _ _) rfl ?_
  refine Within.app (State.tapRelease_within _) rfl ?_
  refine Within.app (State.tapLoad_within _ _) rfl ?_
  exact Within.refl _ _

theorem execSamplePreload_within (a0) (s : State) :
    WithinX { free := true, tap := true, outs := true } s (execSamplePreload a0 s) := by
  unfold execSamplePreload
  refine WithinX.next ?_
  refine Within.app (State.tapBoundary_within _ _) rfl ?_
  refine Within.app (State.tapRelease_within _) rfl ?_
  refine Within.app (State.tapLoad_within _ _) rfl ?_
  exact Within.refl _ _

theorem execTestLogicReset_within (s : State) :
    WithinX { tap := true, outs := true } s (execTestLogicReset s) := by
  unfold execTestLogicReset
  refine WithinX.next ?_
  extract_lets +onlyGivenNames x
  refine Within.cut (x := x) ?_ ?_ <;> [(unfold x; clear x); (obtain ⟨y, e⟩ := named x; rewrite [← e]; clear e x; intro _)]
  · refine Within.app (State.tapRelease_within _) rfl ?_
    exact Within.refl _ _
  with_reducible (apply Within.upd <;> try first | exact .inl rfl | exact .inr rfl | exact id | assumption | exact Within.refl _ _)

end Sys2Proof.Machine
end

