-- ==== Sys2Proof/Laws/Commands.lean ====
section
/-! SUPPORT. For each operation of Machine/Commands.lean one lemma: which pieces of the state it can change, and that it keeps the
invariant of Safety.lean. -/

set_option Elab.async false

namespace Sys2Proof.Machine

theorem State.stateChange_within (s : State) (a1) (a2) :
    Within { boot := true, irq := true, links := true, pba := true, rtrTx := true, mgtq := true, events := true, outs := true } s (State.stateChange s a1 a2) := by
  unfold State.stateChange
  extract_lets +onlyGivenNames x
  clear_value x
  extract_lets +onlyGivenNames x
  extract_lets +onlyGivenNames x
  refine Within.cut (x := x) ?_ ?_ <;> [(unfold x; clear x); (obtain ⟨y, e⟩ := named x; rewrite [← e]; clear e x; intro _)]
  · with_reducible (apply Within.upd <;> try first | exact .inl rfl | exact .inr rfl | exact id | assumption | exact Within.refl _ _)
    with_reducible refine BootI.of ?_ <;> try exact id
  refine Within.app (State.cmdEnd_within _ _ _ _) rfl ?_
  refine Within.app (State.signalAll_within _ _) rfl ?_
  assumption

theorem State.setStateGo_within (s : State) (a1) (a2) :
    Within { free := true, finds := true, due := true, boot := true, trcCfg := true, irq := true, slices := true, banks := true, chans := true, far := true, near := true, memIo := true, memCfg := true, hsf := true, bisnps := true, links := true, pba := true, hreqs := true, accs := true, fnc := true, xlts := true, xinv := true, rtrTx := true, dom := true, pors := true, ledger := true, bkt := true, flip := true, ras := true, mgtq := true, mgt := true, events := true, trc := true, outs := true } s (State.setStateGo s a1 a2) := by
  unfold State.setStateGo
  refine Within.ite ?_ ?_
  · refine Within.app (State.cmdEnd_within _ _ _ _) rfl ?_
    exact Within.refl _ _
  extract_lets +onlyGivenNames x
  refine Within.cut (x := x) ?_ ?_ <;> [(unfold x; clear x); (obtain ⟨y, e⟩ := named x; rewrite [← e]; clear e x; intro _)]
  · refine Within.ite ?_ ?_
    · refine Within.app (State.srExitAll_within _) rfl ?_
      exact Within.refl _ _
    exact Within.refl _ _
  refine Within.ite ?_ ?_
  · assumption
  refine Within.app (State.stateChange_within _ _ _) rfl ?_
  assumption

theorem State.nodeSetGo_within (s : State) (a1) (a2) :
    Within { boot := true, node := true, links := true, pba := true, rtrTx := true, mgtq := true, events := true, outs := true } s (State.nodeSetGo s a1 a2) := by
  unfold State.nodeSetGo
  refine Within.app (State.cmdEnd_within _ _ _ _) rfl ?_
  with_reducible (apply Within.upd <;> try first | exact .inl rfl | exact .inr rfl | exact id | assumption | exact Within.refl _ _)
  extract_lets +onlyGivenNames x
  with_reducible refine BootI.of ?_ <;> try exact id

theorem State.fwInfoGo_within (s : State) (a1) :
    Within { links := true, pba := true, rtrTx := true, mgtq := true, events := true, outs := true } s (State.fwInfoGo s a1) := by
  unfold State.fwInfoGo
  refine Within.app (State.cmdEnd_within _ _ _ _) rfl ?_
  exact Within.refl _ _

theorem State.fwEraseGo_within (s : State) :
    Within { flash := true } s (State.fwEraseGo s) := by
  unfold State.fwEraseGo
  exact State.setFlash_within _ _ _ fun _ => rfl

theorem flashWrite_wf (l : List Byte) (m : Memory) (o : Nat) (h : Memory.wf m = true) : Memory.wf (flashWrite m o l) = true := by
  induction l generalizing m o with
  | nil => exact h
  | cons b l ih => exact ih _ _ (Memory.wf_write8 _ _ _ h)

theorem State.fwWriteGo_within (s : State) (a1) (a2) :
    Within { flash := true } s (State.fwWriteGo s a1 a2) := by
  unfold State.fwWriteGo
  extract_lets +onlyGivenNames f
  exact State.setFlash_within _ _ _ fun h => flashWrite_wf _ _ _ h

theorem State.fwVerifyGo_within (s : State) (a1) :
    Within { links := true, pba := true, rtrTx := true, mgtq := true, events := true, outs := true } s (State.fwVerifyGo s a1) := by
  unfold State.fwVerifyGo
  refine Within.app (State.cmdEnd_within _ _ _ _) rfl ?_
  exact Within.refl _ _

theorem State.fwActivateGo_within (s : State) (a1) :
    Within { boot := true, trcCfg := true, irq := true, chans := true, bisnps := true, links := true, pba := true, rtrTx := true, dom := true, ledger := true, mgtq := true, mgt := true, events := true, trc := true, outs := true } s (State.fwActivateGo s a1) := by
  unfold State.fwActivateGo
  extract_lets +onlyGivenNames x
  refine Within.cut (x := x) ?_ ?_ <;> [(unfold x; clear x); (obtain ⟨y, e⟩ := named x; rewrite [← e]; clear e x; intro _)]
  · refine Within.app (State.clerkRestart_within _ _) rfl ?_
    exact Within.refl _ _
  refine Within.ite ?_ ?_
  · refine Within.app (State.cmdEnd_within _ _ _ _) rfl ?_
    assumption
  refine Within.app (State.cmdEnd_within _ _ _ _) rfl ?_
  assumption

theorem State.bodyGo_within (s : State) (a1) (a2) :
    Within { free := true, finds := true, due := true, boot := true, node := true, csr := true, trcCfg := true, irq := true, mode := true, slices := true, banks := true, chans := true, far := true, near := true, memIo := true, memCfg := true, hsf := true, bisnps := true, links := true, pba := true, hreqs := true, accs := true, fnc := true, xlts := true, xinv := true, ports := true, rtrTx := true, rtrUn := true, dom := true, mtu := true, pors := true, qmg := true, ledger := true, bkt := true, flip := true, ras := true, flash := true, mgtq := true, mgt := true, tlys := true, events := true, trc := true, outs := true } s (State.bodyGo s a1 a2) := by
  unfold State.bodyGo
  split
  · refine Within.app (State.cmdEnd_within _ _ _ _) rfl ?_
    exact Within.refl _ _
  · refine Within.app (State.cmdEnd_within _ _ _ _) rfl ?_
    exact Within.refl _ _
  · refine Within.app (State.setStateGo_within _ _ _) rfl ?_
    exact Within.refl _ _
  · refine Within.app (State.partSetFlatGo_within _ _ _) rfl ?_
    exact Within.refl _ _
  · refine Within.app (State.cacheModeGo_within _ _ _) rfl ?_
    exact Within.refl _ _
  · refine Within.app (State.rangeOpGo_within _ _ _ _ _ _) rfl ?_
    exact Within.refl _ _
  · refine Within.app (State.unretireGo_within _ _ _ _ _) rfl ?_
    exact Within.refl _ _
  · refine Within.app (State.chThawGo_within _ _ _ _) rfl ?_
    exact Within.refl _ _
  · refine Within.app (State.chRetrainGo_within _ _ _ _) rfl ?_
    exact Within.refl _ _
  · refine Within.app (State.pasrSetGo_within _ _ _) rfl ?_
    exact Within.refl _ _
  · refine Within.app (State.pprGo_within _ _ _ _ _ _ _ _ _) rfl ?_
    exact Within.refl _ _
  · refine Within.app (State.chRawReadGo_within _ _ _ _ _ _) rfl ?_
    exact Within.refl _ _
  · refine Within.app (State.chRawWriteGo_within _ _ _ _ _ _) rfl ?_
    exact Within.refl _ _
  · refine Within.app (State.domSetGo_within _ _ _) rfl ?_
    exact Within.refl _ _
  · refine Within.app (State.domJoinGo_within _ _) rfl ?_
    exact Within.refl _ _
  · refine Within.app (State.domReformGo_within _ _) rfl ?_
    exact Within.refl _ _
  · refine Within.app (State.nodeSetGo_within _ _ _) rfl ?_
    exact Within.refl _ _
  · refine Within.app (State.fabPortGo_within _ _ _ _) rfl ?_
    exact Within.refl _ _
  · refine Within.app (State.fabClrGo_within _ _ _) rfl ?_
    exact Within.refl _ _
  · refine Within.app (State.timeSetGo_within _ _ _) rfl ?_
    exact Within.refl _ _
  · refine Within.app (State.ledgerReadGo_within _ _ _ _) rfl ?_
    exact Within.refl _ _
  · refine Within.app (State.ledgerClearGo_within _ _) rfl ?_
    exact Within.refl _ _
  · refine Within.app (State.tallyRouteGo_within _ _) rfl ?_
    exact Within.refl _ _
  · extract_lets +onlyGivenNames x
    refine Within.cut (x := x) ?_ ?_ <;> [(unfold x; clear x); (obtain ⟨y, e⟩ := named x; rewrite [← e]; clear e x; intro _)]
    · refine Within.app (State.traceSetupGo_within _ _ _ _ _) rfl ?_
      exact Within.refl _ _
    refine Within.app (State.cmdEnd_within _ _ _ _) rfl ?_
    assumption
  · refine Within.app (State.fwInfoGo_within _ _) rfl ?_
    exact Within.refl _ _
  · refine Within.app (State.fwEraseGo_within _) rfl ?_
    exact Within.refl _ _
  · refine Within.app (State.fwWriteGo_within _ _ _) rfl ?_
    exact Within.refl _ _
  · refine Within.app (State.fwVerifyGo_within _ _) rfl ?_
    exact Within.refl _ _
  · refine Within.app (State.fwActivateGo_within _ _) rfl ?_
    exact Within.refl _ _
  · refine Within.app (State.bistGo_within _ _ _ _) rfl ?_
    exact Within.refl _ _
  · refine Within.app (State.cmdEnd_within _ _ _ _) rfl ?_
    exact Within.refl _ _
  exact Within.refl _ _

theorem State.runOne_within (s : State) :
    Within { free := true, finds := true, due := true, boot := true, node := true, csr := true, trcCfg := true, irq := true, mode := true, slices := true, banks := true, chans := true, far := true, near := true, memIo := true, memCfg := true, hsf := true, bisnps := true, links := true, pba := true, hreqs := true, accs := true, fnc := true, xlts := true, xinv := true, ports := true, rtrTx := true, rtrUn := true, dom := true, mtu := true, pors := true, qmg := true, ledger := true, bkt := true, flip := true, ras := true, flash := true, mgtq := true, mgt := true, tlys := true, events := true, trc := true, outs := true } s (State.runOne s) := by
  unfold State.runOne
  split
  · exact Within.refl _ _
  · rename_i r rest hq
    split
    · exact Within.refl _ _
    · rename_i hr
      simp only [Bool.or_eq_true, decide_eq_true_eq, not_or, Nat.not_le] at hr
      extract_lets +onlyGivenNames g
      extract_lets +onlyGivenNames x
      extract_lets +onlyGivenNames c
      have hx : Within { free := true, finds := true, due := true, boot := true, node := true, csr := true, trcCfg := true, irq := true, mode := true, slices := true, banks := true, chans := true, far := true, near := true, memIo := true, memCfg := true, hsf := true, bisnps := true, links := true, pba := true, hreqs := true, accs := true, fnc := true, xlts := true, xinv := true, ports := true, rtrTx := true, rtrUn := true, dom := true, mtu := true, pors := true, qmg := true, ledger := true, bkt := true, flip := true, ras := true, flash := true, mgtq := true, mgt := true, tlys := true, events := true, trc := true, outs := true } s x := by
        unfold x
        with_reducible (apply Within.upd; (on_goal 1 => first | assumption | exact Within.refl _ _); all_goals try first | exact .inl rfl | exact .inr rfl | exact id)
        refine MgtI.of id id (fun i => ?_) fun _ => ?_
        · rw [hq] at i
          exact Nat.le_of_succ_le i
        · rw [List.length_append, List.length_singleton]
          omega
      clear_value c x
      refine Within.ite ?_ ?_
      · refine Within.app (State.bodyGo_within _ _ _) rfl ?_
        assumption
      refine Within.app (State.cmdEnd_within _ _ _ _) rfl ?_
      assumption

theorem State.mgtPump_within (s : State) :
    Within { free := true, finds := true, due := true, boot := true, node := true, csr := true, trcCfg := true, irq := true, mode := true, slices := true, banks := true, chans := true, far := true, near := true, memIo := true, memCfg := true, hsf := true, bisnps := true, links := true, pba := true, hreqs := true, accs := true, fnc := true, xlts := true, xinv := true, ports := true, rtrTx := true, rtrUn := true, dom := true, mtu := true, pors := true, qmg := true, ledger := true, bkt := true, flip := true, ras := true, flash := true, mgtq := true, mgt := true, tlys := true, events := true, trc := true, outs := true } s (State.mgtPump s) := by
  unfold State.mgtPump
  refine Within.ite ?_ ?_
  · refine Within.foldl (fun _ _ => ?_) ?_
    · refine Within.app (State.runOne_within _) rfl ?_
      exact Within.refl _ _
    exact Within.refl _ _
  exact Within.refl _ _

theorem queueIn_length (q : List Run) (r : Run) : (queueIn q r).length = q.length + 1 := by
  unfold queueIn
  extract_lets f
  clear_value f
  rw [List.length_append, List.length_cons]
  induction q with
  | nil => rfl
  | cons a t ih =>
    simp only [List.filter_cons]
    cases f a <;> simp only [Bool.not_true, Bool.not_false, if_true, if_false, Bool.false_eq_true, List.length_cons] <;> omega

theorem State.cmdCheck_queue (s : State) (h : CmdHdr) (b : CmdBody) (e : (s.cmdCheck h b != stOK) = false) :
    s.mgt.queue.length < 16 := by
  unfold State.cmdCheck at e
  extract_lets at e
  split at e
  · simp_all
  · split at e
    · simp_all
    · split at e
      · rename_i k
        rcases Bool.or_eq_true _ _ ▸ k with k | k
        · rw [eq_of_beq k] at e; cases e
        · rw [eq_of_beq k] at e; cases e
      · split at e
        · cases e
        · rename_i k
          simp only [Bool.or_eq_true, decide_eq_true_eq, not_or, Nat.not_le] at k
          exact k.2

theorem State.mgtAccept_within (s : State) (a1) (a2) (a3) :
    Within { free := true, due := true, boot := true, node := true, csr := true, trcCfg := true, irq := true, mode := true, slices := true, banks := true, chans := true, far := true, near := true, memIo := true, memCfg := true, hsf := true, bisnps := true, links := true, pba := true, hreqs := true, accs := true, fnc := true, xlts := true, xinv := true, ports := true, rtrTx := true, rtrUn := true, rtr := true, dom := true, mtu := true, pors := true, qmg := true, ledger := true, bkt := true, flip := true, ras := true, flash := true, mgtq := true, mgt := true, tlys := true, events := true, trc := true, outs := true } s (State.mgtAccept s a1 a2 a3) := by
  unfold State.mgtAccept
  extract_lets +onlyGivenNames op
  clear_value op
  refine Within.ite (Within.refl _ _) ?_
  refine Within.ite ?_ ?_
  · with_reducible (apply Within.upd <;> try first | exact .inl rfl | exact .inr rfl | exact id | assumption | exact Within.refl _ _)
  refine Within.ite ?_ ?_
  · refine Within.app (State.carry_within _ _ _ _ _) rfl ?_
    exact Within.refl _ _
  extract_lets +onlyGivenNames c
  split
  · refine Within.app (State.cmdReply_within _ _ _ _ _) rfl ?_
    exact Within.refl _ _
  · rename_i hc
    extract_lets +onlyGivenNames id'
    extract_lets +onlyGivenNames r
    clear_value r
    extract_lets +onlyGivenNames g
    extract_lets +onlyGivenNames x
    have hx : Within { free := true, due := true, boot := true, node := true, csr := true, trcCfg := true, irq := true, mode := true, slices := true, banks := true, chans := true, far := true, near := true, memIo := true, memCfg := true, hsf := true, bisnps := true, links := true, pba := true, hreqs := true, accs := true, fnc := true, xlts := true, xinv := true, ports := true, rtrTx := true, rtrUn := true, rtr := true, dom := true, mtu := true, pors := true, qmg := true, ledger := true, bkt := true, flip := true, ras := true, flash := true, mgtq := true, mgt := true, tlys := true, events := true, trc := true, outs := true } s x := by
      unfold x
      with_reducible (apply Within.upd; (on_goal 1 => first | assumption | exact Within.refl _ _); all_goals try first | exact .inl rfl | exact .inr rfl | exact id)
      refine MgtI.of id id (fun _ => ?_) id
      rw [queueIn_length]
      refine State.cmdCheck_queue s a1 a2 ?_
      simp only [Bool.or_eq_true, not_or, Bool.not_eq_true] at hc
      exact hc.1
    clear_value x
    extract_lets +onlyGivenNames x
    refine Within.cut (x := x) ?_ ?_ <;> [(unfold x; clear x); (obtain ⟨y, e⟩ := named x; rewrite [← e]; clear e x; intro _)]
    · split
      · extract_lets +onlyGivenNames x
        refine Within.cut (x := x) ?_ ?_ <;> [(unfold x; clear x); (obtain ⟨y, e⟩ := named x; rewrite [← e]; clear e x; intro _)]
        · refine Within.app (State.modLink_within _ _ _) rfl ?_
          assumption
        refine Within.ite ?_ ?_
        · refine Within.app (State.emit_within _ _) rfl ?_
          assumption
        assumption
      assumption
    refine State.noFinds_within ?_ (fun _ => ?_)
    · assumption
    refine Within.app (State.mgtPump_within _) rfl ?_
    exact Within.refl _ _

theorem State.mgtBytes_within (s : State) (a1) (a2) (a3) :
    Within { free := true, due := true, boot := true, node := true, csr := true, trcCfg := true, irq := true, mode := true, slices := true, banks := true, chans := true, far := true, near := true, memIo := true, memCfg := true, hsf := true, bisnps := true, links := true, pba := true, hreqs := true, accs := true, fnc := true, xlts := true, xinv := true, ports := true, rtrTx := true, rtrUn := true, rtr := true, dom := true, mtu := true, pors := true, qmg := true, ledger := true, bkt := true, flip := true, ras := true, flash := true, mgtq := true, mgt := true, tlys := true, events := true, trc := true, outs := true } s (State.mgtBytes s a1 a2 a3) := by
  unfold State.mgtBytes
  extract_lets +onlyGivenNames x
  clear_value x
  extract_lets +onlyGivenNames x
  clear_value x
  refine Within.app (State.mgtAccept_within _ _ _ _) rfl ?_
  exact Within.refl _ _

theorem State.mgtDropped_within (s : State) :
    Within { rtr := true } s (State.mgtDropped s) := by
  unfold State.mgtDropped
  with_reducible (apply Within.upd <;> try first | exact .inl rfl | exact .inr rfl | exact id | assumption | exact Within.refl _ _)

theorem State.mgtReceive_within (s : State) (a1) (a2) :
    Within { free := true, due := true, boot := true, node := true, csr := true, trcCfg := true, irq := true, mode := true, slices := true, banks := true, chans := true, far := true, near := true, memIo := true, memCfg := true, hsf := true, bisnps := true, links := true, pba := true, hreqs := true, accs := true, fnc := true, xlts := true, xinv := true, ports := true, rtrTx := true, rtrUn := true, rtr := true, dom := true, mtu := true, pors := true, qmg := true, ledger := true, bkt := true, flip := true, ras := true, flash := true, mgtq := true, mgt := true, tlys := true, events := true, trc := true, outs := true } s (State.mgtReceive s a1 a2) := by
  unfold State.mgtReceive
  refine Within.app (State.mgtAccept_within _ _ _ _) rfl ?_
  exact Within.refl _ _

theorem State.runEnds_within (s : State) :
    Within { links := true, pba := true, rtrTx := true, mgtq := true, events := true, outs := true } s (State.runEnds s) := by
  unfold State.runEnds
  refine Within.foldl (fun _ _ => ?_) ?_
  · split
    · refine Within.app (State.cmdEnd_within _ _ _ _) rfl ?_
      exact Within.refl _ _
    · refine Within.app (State.cmdEnd_within _ _ _ _) rfl ?_
      exact Within.refl _ _
    · refine Within.ite ?_ ?_
      · refine Within.app (State.cmdEnd_within _ _ _ _) rfl ?_
        exact Within.refl _ _
      refine Within.app (State.cmdEnd_within _ _ _ _) rfl ?_
      exact Within.refl _ _
    exact Within.refl _ _
  exact Within.refl _ _

theorem State.stateDue_within (s : State) :
    Within { free := true, finds := true, due := true, boot := true, trcCfg := true, irq := true, slices := true, banks := true, chans := true, far := true, near := true, memIo := true, memCfg := true, hsf := true, bisnps := true, links := true, pba := true, hreqs := true, accs := true, fnc := true, xlts := true, xinv := true, rtrTx := true, dom := true, pors := true, ledger := true, bkt := true, flip := true, ras := true, mgtq := true, mgt := true, events := true, trc := true, outs := true } s (State.stateDue s) := by
  unfold State.stateDue
  split
  · extract_lets +onlyGivenNames x
    refine Within.cut (x := x) ?_ ?_ <;> [(unfold x; clear x); (obtain ⟨y, e⟩ := named x; rewrite [← e]; clear e x; intro _)]
    · refine Within.app (State.srExitAll_within _) rfl ?_
      exact Within.refl _ _
    refine Within.ite ?_ ?_
    · assumption
    refine Within.app (State.stateChange_within _ _ _) rfl ?_
    assumption
  exact Within.refl _ _

theorem execBadOpcodeCommand_within (a0) (a1) (a2) (s : State) :
    WithinX { free := true, due := true, boot := true, node := true, csr := true, trcCfg := true, irq := true, mode := true, slices := true, banks := true, chans := true, far := true, near := true, memIo := true, memCfg := true, hsf := true, bisnps := true, links := true, pba := true, hreqs := true, accs := true, fnc := true, xlts := true, xinv := true, ports := true, rtrTx := true, rtrUn := true, rtr := true, dom := true, mtu := true, pors := true, qmg := true, ledger := true, bkt := true, flip := true, ras := true, flash := true, mgtq := true, mgt := true, tlys := true, events := true, trc := true, outs := true } s (execBadOpcodeCommand a0 a1 a2 s) := by
  unfold execBadOpcodeCommand
  refine WithinX.next ?_
  refine Within.app (State.mgtReceive_within _ _ _) rfl ?_
  exact Within.refl _ _

theorem execBistRun_within (a0) (a1) (a2) (a3) (s : State) :
    WithinX { free := true, due := true, boot := true, node := true, csr := true, trcCfg := true, irq := true, mode := true, slices := true, banks := true, chans := true, far := true, near := true, memIo := true, memCfg := true, hsf := true, bisnps := true, links := true, pba := true, hreqs := true, accs := true, fnc := true, xlts := true, xinv := true, ports := true, rtrTx := true, rtrUn := true, rtr := true, dom := true, mtu := true, pors := true, qmg := true, ledger := true, bkt := true, flip := true, ras := true, flash := true, mgtq := true, mgt := true, tlys := true, events := true, trc := true, outs := true } s (execBistRun a0 a1 a2 a3 s) := by
  unfold execBistRun
  refine WithinX.next ?_
  refine Within.app (State.mgtReceive_within _ _ _) rfl ?_
  exact Within.refl _ _

theorem execCacheMode_within (a0) (a1) (s : State) :
    WithinX { free := true, due := true, boot := true, node := true, csr := true, trcCfg := true, irq := true, mode := true, slices := true, banks := true, chans := true, far := true, near := true, memIo := true, memCfg := true, hsf := true, bisnps := true, links := true, pba := true, hreqs := true, accs := true, fnc := true, xlts := true, xinv := true, ports := true, rtrTx := true, rtrUn := true, rtr := true, dom := true, mtu := true, pors := true, qmg := true, ledger := true, bkt := true, flip := true, ras := true, flash := true, mgtq := true, mgt := true, tlys := true, events := true, trc := true, outs := true } s (execCacheMode a0 a1 s) := by
  unfold execCacheMode
  refine WithinX.next ?_
  refine Within.app (State.mgtReceive_within _ _ _) rfl ?_
  exact Within.refl _ _

theorem execChRawRead_within (a0) (a1) (a2) (a3) (a4) (s : State) :
    WithinX { free := true, due := true, boot := true, node := true, csr := true, trcCfg := true, irq := true, mode := true, slices := true, banks := true, chans := true, far := true, near := true, memIo := true, memCfg := true, hsf := true, bisnps := true, links := true, pba := true, hreqs := true, accs := true, fnc := true, xlts := true, xinv := true, ports := true, rtrTx := true, rtrUn := true, rtr := true, dom := true, mtu := true, pors := true, qmg := true, ledger := true, bkt := true, flip := true, ras := true, flash := true, mgtq := true, mgt := true, tlys := true, events := true, trc := true, outs := true } s (execChRawRead a0 a1 a2 a3 a4 s) := by
  unfold execChRawRead
  refine WithinX.next ?_
  refine Within.app (State.mgtReceive_within _ _ _) rfl ?_
  exact Within.refl _ _

theorem execChRawWrite_within (a0) (a1) (a2) (a3) (a4) (s : State) :
    WithinX { free := true, due := true, boot := true, node := true, csr := true, trcCfg := true, irq := true, mode := true, slices := true, banks := true, chans := true, far := true, near := true, memIo := true, memCfg := true, hsf := true, bisnps := true, links := true, pba := true, hreqs := true, accs := true, fnc := true, xlts := true, xinv := true, ports := true, rtrTx := true, rtrUn := true, rtr := true, dom := true, mtu := true, pors := true, qmg := true, ledger := true, bkt := true, flip := true, ras := true, flash := true, mgtq := true, mgt := true, tlys := true, events := true, trc := true, outs := true } s (execChRawWrite a0 a1 a2 a3 a4 s) := by
  unfold execChRawWrite
  refine WithinX.next ?_
  refine Within.app (State.mgtReceive_within _ _ _) rfl ?_
  exact Within.refl _ _

theorem execChRetrain_within (a0) (a1) (a2) (s : State) :
    WithinX { free := true, due := true, boot := true, node := true, csr := true, trcCfg := true, irq := true, mode := true, slices := true, banks := true, chans := true, far := true, near := true, memIo := true, memCfg := true, hsf := true, bisnps := true, links := true, pba := true, hreqs := true, accs := true, fnc := true, xlts := true, xinv := true, ports := true, rtrTx := true, rtrUn := true, rtr := true, dom := true, mtu := true, pors := true, qmg := true, ledger := true, bkt := true, flip := true, ras := true, flash := true, mgtq := true, mgt := true, tlys := true, events := true, trc := true, outs := true } s (execChRetrain a0 a1 a2 s) := by
  unfold execChRetrain
  refine WithinX.next ?_
  refine Within.app (State.mgtReceive_within _ _ _) rfl ?_
  exact Within.refl _ _

theorem execChThaw_within (a0) (a1) (a2) (s : State) :
    WithinX { free := true, due := true, boot := true, node := true, csr := true, trcCfg := true, irq := true, mode := true, slices := true, banks := true, chans := true, far := true, near := true, memIo := true, memCfg := true, hsf := true, bisnps := true, links := true, pba := true, hreqs := true, accs := true, fnc := true, xlts := true, xinv := true, ports := true, rtrTx := true, rtrUn := true, rtr := true, dom := true, mtu := true, pors := true, qmg := true, ledger := true, bkt := true, flip := true, ras := true, flash := true, mgtq := true, mgt := true, tlys := true, events := true, trc := true, outs := true } s (execChThaw a0 a1 a2 s) := by
  unfold execChThaw
  refine WithinX.next ?_
  refine Within.app (State.mgtReceive_within _ _ _) rfl ?_
  exact Within.refl _ _

theorem execDomJoin_within (a0) (s : State) :
    WithinX { free := true, due := true, boot := true, node := true, csr := true, trcCfg := true, irq := true, mode := true, slices := true, banks := true, chans := true, far := true, near := true, memIo := true, memCfg := true, hsf := true, bisnps := true, links := true, pba := true, hreqs := true, accs := true, fnc := true, xlts := true, xinv := true, ports := true, rtrTx := true, rtrUn := true, rtr := true, dom := true, mtu := true, pors := true, qmg := true, ledger := true, bkt := true, flip := true, ras := true, flash := true, mgtq := true, mgt := true, tlys := true, events := true, trc := true, outs := true } s (execDomJoin a0 s) := by
  unfold execDomJoin
  refine WithinX.next ?_
  refine Within.app (State.mgtReceive_within _ _ _) rfl ?_
  exact Within.refl _ _

theorem execDomReform_within (a0) (s : State) :
    WithinX { free := true, due := true, boot := true, node := true, csr := true, trcCfg := true, irq := true, mode := true, slices := true, banks := true, chans := true, far := true, near := true, memIo := true, memCfg := true, hsf := true, bisnps := true, links := true, pba := true, hreqs := true, accs := true, fnc := true, xlts := true, xinv := true, ports := true, rtrTx := true, rtrUn := true, rtr := true, dom := true, mtu := true, pors := true, qmg := true, ledger := true, bkt := true, flip := true, ras := true, flash := true, mgtq := true, mgt := true, tlys := true, events := true, trc := true, outs := true } s (execDomReform a0 s) := by
  unfold execDomReform
  refine WithinX.next ?_
  refine Within.app (State.mgtReceive_within _ _ _) rfl ?_
  exact Within.refl _ _

theorem execDomSet_within (a0) (a1) (a2) (s : State) :
    WithinX { free := true, due := true, boot := true, node := true, csr := true, trcCfg := true, irq := true, mode := true, slices := true, banks := true, chans := true, far := true, near := true, memIo := true, memCfg := true, hsf := true, bisnps := true, links := true, pba := true, hreqs := true, accs := true, fnc := true, xlts := true, xinv := true, ports := true, rtrTx := true, rtrUn := true, rtr := true, dom := true, mtu := true, pors := true, qmg := true, ledger := true, bkt := true, flip := true, ras := true, flash := true, mgtq := true, mgt := true, tlys := true, events := true, trc := true, outs := true } s (execDomSet a0 a1 a2 s) := by
  unfold execDomSet
  refine WithinX.next ?_
  refine Within.app (State.mgtReceive_within _ _ _) rfl ?_
  exact Within.refl _ _

theorem execFabClrUnreach_within (a0) (a1) (s : State) :
    WithinX { free := true, due := true, boot := true, node := true, csr := true, trcCfg := true, irq := true, mode := true, slices := true, banks := true, chans := true, far := true, near := true, memIo := true, memCfg := true, hsf := true, bisnps := true, links := true, pba := true, hreqs := true, accs := true, fnc := true, xlts := true, xinv := true, ports := true, rtrTx := true, rtrUn := true, rtr := true, dom := true, mtu := true, pors := true, qmg := true, ledger := true, bkt := true, flip := true, ras := true, flash := true, mgtq := true, mgt := true, tlys := true, events := true, trc := true, outs := true } s (execFabClrUnreach a0 a1 s) := by
  unfold execFabClrUnreach
  refine WithinX.next ?_
  refine Within.app (State.mgtReceive_within _ _ _) rfl ?_
  exact Within.refl _ _

theorem execFabPort_within (a0) (a1) (a2) (s : State) :
    WithinX { free := true, due := true, boot := true, node := true, csr := true, trcCfg := true, irq := true, mode := true, slices := true, banks := true, chans := true, far := true, near := true, memIo := true, memCfg := true, hsf := true, bisnps := true, links := true, pba := true, hreqs := true, accs := true, fnc := true, xlts := true, xinv := true, ports := true, rtrTx := true, rtrUn := true, rtr := true, dom := true, mtu := true, pors := true, qmg := true, ledger := true, bkt := true, flip := true, ras := true, flash := true, mgtq := true, mgt := true, tlys := true, events := true, trc := true, outs := true } s (execFabPort a0 a1 a2 s) := by
  unfold execFabPort
  refine WithinX.next ?_
  refine Within.app (State.mgtReceive_within _ _ _) rfl ?_
  exact Within.refl _ _

theorem execFwActivate_within (a0) (s : State) :
    WithinX { free := true, due := true, boot := true, node := true, csr := true, trcCfg := true, irq := true, mode := true, slices := true, banks := true, chans := true, far := true, near := true, memIo := true, memCfg := true, hsf := true, bisnps := true, links := true, pba := true, hreqs := true, accs := true, fnc := true, xlts := true, xinv := true, ports := true, rtrTx := true, rtrUn := true, rtr := true, dom := true, mtu := true, pors := true, qmg := true, ledger := true, bkt := true, flip := true, ras := true, flash := true, mgtq := true, mgt := true, tlys := true, events := true, trc := true, outs := true } s (execFwActivate a0 s) := by
  unfold execFwActivate
  refine WithinX.next ?_
  refine Within.app (State.mgtReceive_within _ _ _) rfl ?_
  exact Within.refl _ _

theorem execFwErase_within (a0) (s : State) :
    WithinX { free := true, due := true, boot := true, node := true, csr := true, trcCfg := true, irq := true, mode := true, slices := true, banks := true, chans := true, far := true, near := true, memIo := true, memCfg := true, hsf := true, bisnps := true, links := true, pba := true, hreqs := true, accs := true, fnc := true, xlts := true, xinv := true, ports := true, rtrTx := true, rtrUn := true, rtr := true, dom := true, mtu := true, pors := true, qmg := true, ledger := true, bkt := true, flip := true, ras := true, flash := true, mgtq := true, mgt := true, tlys := true, events := true, trc := true, outs := true } s (execFwErase a0 s) := by
  unfold execFwErase
  refine WithinX.next ?_
  refine Within.app (State.mgtReceive_within _ _ _) rfl ?_
  exact Within.refl _ _

theorem execFwInfo_within (a0) (s : State) :
    WithinX { free := true, due := true, boot := true, node := true, csr := true, trcCfg := true, irq := true, mode := true, slices := true, banks := true, chans := true, far := true, near := true, memIo := true, memCfg := true, hsf := true, bisnps := true, links := true, pba := true, hreqs := true, accs := true, fnc := true, xlts := true, xinv := true, ports := true, rtrTx := true, rtrUn := true, rtr := true, dom := true, mtu := true, pors := true, qmg := true, ledger := true, bkt := true, flip := true, ras := true, flash := true, mgtq := true, mgt := true, tlys := true, events := true, trc := true, outs := true } s (execFwInfo a0 s) := by
  unfold execFwInfo
  refine WithinX.next ?_
  refine Within.app (State.mgtReceive_within _ _ _) rfl ?_
  exact Within.refl _ _

theorem execFwVerify_within (a0) (s : State) :
    WithinX { free := true, due := true, boot := true, node := true, csr := true, trcCfg := true, irq := true, mode := true, slices := true, banks := true, chans := true, far := true, near := true, memIo := true, memCfg := true, hsf := true, bisnps := true, links := true, pba := true, hreqs := true, accs := true, fnc := true, xlts := true, xinv := true, ports := true, rtrTx := true, rtrUn := true, rtr := true, dom := true, mtu := true, pors := true, qmg := true, ledger := true, bkt := true, flip := true, ras := true, flash := true, mgtq := true, mgt := true, tlys := true, events := true, trc := true, outs := true } s (execFwVerify a0 s) := by
  unfold execFwVerify
  refine WithinX.next ?_
  refine Within.app (State.mgtReceive_within _ _ _) rfl ?_
  exact Within.refl _ _

theorem execFwWrite_within (a0) (a1) (a2) (s : State) :
    WithinX { free := true, due := true, boot := true, node := true, csr := true, trcCfg := true, irq := true, mode := true, slices := true, banks := true, chans := true, far := true, near := true, memIo := true, memCfg := true, hsf := true, bisnps := true, links := true, pba := true, hreqs := true, accs := true, fnc := true, xlts := true, xinv := true, ports := true, rtrTx := true, rtrUn := true, rtr := true, dom := true, mtu := true, pors := true, qmg := true, ledger := true, bkt := true, flip := true, ras := true, flash := true, mgtq := true, mgt := true, tlys := true, events := true, trc := true, outs := true } s (execFwWrite a0 a1 a2 s) := by
  unfold execFwWrite
  refine WithinX.next ?_
  refine Within.app (State.mgtReceive_within _ _ _) rfl ?_
  exact Within.refl _ _

theorem execIdentify_within (a0) (s : State) :
    WithinX { free := true, due := true, boot := true, node := true, csr := true, trcCfg := true, irq := true, mode := true, slices := true, banks := true, chans := true, far := true, near := true, memIo := true, memCfg := true, hsf := true, bisnps := true, links := true, pba := true, hreqs := true, accs := true, fnc := true, xlts := true, xinv := true, ports := true, rtrTx := true, rtrUn := true, rtr := true, dom := true, mtu := true, pors := true, qmg := true, ledger := true, bkt := true, flip := true, ras := true, flash := true, mgtq := true, mgt := true, tlys := true, events := true, trc := true, outs := true } s (execIdentify a0 s) := by
  unfold execIdentify
  refine WithinX.next ?_
  refine Within.app (State.mgtReceive_within _ _ _) rfl ?_
  exact Within.refl _ _

theorem execLedgerClear_within (a0) (s : State) :
    WithinX { free := true, due := true, boot := true, node := true, csr := true, trcCfg := true, irq := true, mode := true, slices := true, banks := true, chans := true, far := true, near := true, memIo := true, memCfg := true, hsf := true, bisnps := true, links := true, pba := true, hreqs := true, accs := true, fnc := true, xlts := true, xinv := true, ports := true, rtrTx := true, rtrUn := true, rtr := true, dom := true, mtu := true, pors := true, qmg := true, ledger := true, bkt := true, flip := true, ras := true, flash := true, mgtq := true, mgt := true, tlys := true, events := true, trc := true, outs := true } s (execLedgerClear a0 s) := by
  unfold execLedgerClear
  refine WithinX.next ?_
  refine Within.app (State.mgtReceive_within _ _ _) rfl ?_
  exact Within.refl _ _

theorem execLedgerRead_within (a0) (a1) (a2) (s : State) :
    WithinX { free := true, due := true, boot := true, node := true, csr := true, trcCfg := true, irq := true, mode := true, slices := true, banks := true, chans := true, far := true, near := true, memIo := true, memCfg := true, hsf := true, bisnps := true, links := true, pba := true, hreqs := true, accs := true, fnc := true, xlts := true, xinv := true, ports := true, rtrTx := true, rtrUn := true, rtr := true, dom := true, mtu := true, pors := true, qmg := true, ledger := true, bkt := true, flip := true, ras := true, flash := true, mgtq := true, mgt := true, tlys := true, events := true, trc := true, outs := true } s (execLedgerRead a0 a1 a2 s) := by
  unfold execLedgerRead
  refine WithinX.next ?_
  refine Within.app (State.mgtReceive_within _ _ _) rfl ?_
  exact Within.refl _ _

theorem execManagementFragment_within (a0) (a1) (s : State) :
    WithinX { free := true, due := true, boot := true, node := true, csr := true, trcCfg := true, irq := true, mode := true, slices := true, banks := true, chans := true, far := true, near := true, memIo := true, memCfg := true, hsf := true, bisnps := true, links := true, pba := true, hreqs := true, accs := true, fnc := true, xlts := true, xinv := true, ports := true, rtrTx := true, rtrRx := true, rtrUn := true, rtr := true, dom := true, mtu := true, pors := true, qmg := true, ledger := true, bkt := true, flip := true, ras := true, flash := true, mgtq := true, mgt := true, tlys := true, events := true, trc := true, outs := true } s (execManagementFragment a0 a1 s) := by
  unfold execManagementFragment
  refine WithinX.next ?_
  extract_lets +onlyGivenNames x
  refine Within.cut (x := x) ?_ ?_ <;> [(unfold x; clear x); (obtain ⟨y, e⟩ := named x; rewrite [← e]; clear e x; intro _)]
  · refine Within.app (State.consume_within _ _ _) rfl ?_
    exact Within.refl _ _
  refine Within.ite ?_ ?_
  · assumption
  refine Within.ite ?_ ?_
  · refine Within.ite ?_ ?_
    · refine Within.app (State.mgtDropped_within _) rfl ?_
      assumption
    assumption
  extract_lets +onlyGivenNames x
  clear_value x
  split
  · refine Within.ite ?_ ?_
    · assumption
    refine Within.ite ?_ ?_
    · extract_lets +onlyGivenNames x
      clear_value x
      extract_lets +onlyGivenNames x
      clear_value x
      refine Within.app (State.cmdReply_within _ _ _ _ _) rfl ?_
      refine Within.app (State.mgtDropped_within _) rfl ?_
      assumption
    refine Within.ite ?_ ?_
    · refine Within.ite ?_ ?_
      · refine Within.app (State.mgtBytes_within _ _ _ _) rfl ?_
        assumption
      refine Within.app (State.mgtDropped_within _) rfl ?_
      assumption
    extract_lets +onlyGivenNames x
    clear_value x
    with_reducible (apply Within.upd <;> try first | exact .inl rfl | exact .inr rfl | exact id | assumption | exact Within.refl _ _)
  refine Within.ite ?_ ?_
  · assumption
  extract_lets +onlyGivenNames x
  clear_value x
  refine Within.ite ?_ ?_
  · with_reducible (apply Within.upd <;> try first | exact .inl rfl | exact .inr rfl | exact id | assumption | exact Within.refl _ _)
  extract_lets +onlyGivenNames x
  extract_lets +onlyGivenNames x
  refine Within.cut (x := x) ?_ ?_ <;> [(unfold x; clear x); (obtain ⟨y, e⟩ := named x; rewrite [← e]; clear e x; intro _)]
  · with_reducible (apply Within.upd <;> try first | exact .inl rfl | exact .inr rfl | exact id | assumption | exact Within.refl _ _)
  refine Within.ite ?_ ?_
  · refine Within.app (State.mgtBytes_within _ _ _ _) rfl ?_
    assumption
  refine Within.app (State.mgtDropped_within _) rfl ?_
  assumption

theorem execNodeSet_within (a0) (a1) (s : State) :
    WithinX { free := true, due := true, boot := true, node := true, csr := true, trcCfg := true, irq := true, mode := true, slices := true, banks := true, chans := true, far := true, near := true, memIo := true, memCfg := true, hsf := true, bisnps := true, links := true, pba := true, hreqs := true, accs := true, fnc := true, xlts := true, xinv := true, ports := true, rtrTx := true, rtrUn := true, rtr := true, dom := true, mtu := true, pors := true, qmg := true, ledger := true, bkt := true, flip := true, ras := true, flash := true, mgtq := true, mgt := true, tlys := true, events := true, trc := true, outs := true } s (execNodeSet a0 a1 s) := by
  unfold execNodeSet
  refine WithinX.next ?_
  refine Within.app (State.mgtReceive_within _ _ _) rfl ?_
  exact Within.refl _ _

theorem execPartSetFlat_within (a0) (a1) (s : State) :
    WithinX { free := true, due := true, boot := true, node := true, csr := true, trcCfg := true, irq := true, mode := true, slices := true, banks := true, chans := true, far := true, near := true, memIo := true, memCfg := true, hsf := true, bisnps := true, links := true, pba := true, hreqs := true, accs := true, fnc := true, xlts := true, xinv := true, ports := true, rtrTx := true, rtrUn := true, rtr := true, dom := true, mtu := true, pors := true, qmg := true, ledger := true, bkt := true, flip := true, ras := true, flash := true, mgtq := true, mgt := true, tlys := true, events := true, trc := true, outs := true } s (execPartSetFlat a0 a1 s) := by
  unfold execPartSetFlat
  refine WithinX.next ?_
  refine Within.app (State.mgtReceive_within _ _ _) rfl ?_
  exact Within.refl _ _

theorem execPasrSet_within (a0) (a1) (s : State) :
    WithinX { free := true, due := true, boot := true, node := true, csr := true, trcCfg := true, irq := true, mode := true, slices := true, banks := true, chans := true, far := true, near := true, memIo := true, memCfg := true, hsf := true, bisnps := true, links := true, pba := true, hreqs := true, accs := true, fnc := true, xlts := true, xinv := true, ports := true, rtrTx := true, rtrUn := true, rtr := true, dom := true, mtu := true, pors := true, qmg := true, ledger := true, bkt := true, flip := true, ras := true, flash := true, mgtq := true, mgt := true, tlys := true, events := true, trc := true, outs := true } s (execPasrSet a0 a1 s) := by
  unfold execPasrSet
  refine WithinX.next ?_
  refine Within.app (State.mgtReceive_within _ _ _) rfl ?_
  exact Within.refl _ _

theorem execPpr_within (a0) (a1) (a2) (a3) (a4) (a5) (a6) (a7) (s : State) :
    WithinX { free := true, due := true, boot := true, node := true, csr := true, trcCfg := true, irq := true, mode := true, slices := true, banks := true, chans := true, far := true, near := true, memIo := true, memCfg := true, hsf := true, bisnps := true, links := true, pba := true, hreqs := true, accs := true, fnc := true, xlts := true, xinv := true, ports := true, rtrTx := true, rtrUn := true, rtr := true, dom := true, mtu := true, pors := true, qmg := true, ledger := true, bkt := true, flip := true, ras := true, flash := true, mgtq := true, mgt := true, tlys := true, events := true, trc := true, outs := true } s (execPpr a0 a1 a2 a3 a4 a5 a6 a7 s) := by
  unfold execPpr
  refine WithinX.next ?_
  refine Within.app (State.mgtReceive_within _ _ _) rfl ?_
  exact Within.refl _ _

theorem execRangeOp_within (a0) (a1) (a2) (a3) (a4) (s : State) :
    WithinX { free := true, due := true, boot := true, node := true, csr := true, trcCfg := true, irq := true, mode := true, slices := true, banks := true, chans := true, far := true, near := true, memIo := true, memCfg := true, hsf := true, bisnps := true, links := true, pba := true, hreqs := true, accs := true, fnc := true, xlts := true, xinv := true, ports := true, rtrTx := true, rtrUn := true, rtr := true, dom := true, mtu := true, pors := true, qmg := true, ledger := true, bkt := true, flip := true, ras := true, flash := true, mgtq := true, mgt := true, tlys := true, events := true, trc := true, outs := true } s (execRangeOp a0 a1 a2 a3 a4 s) := by
  unfold execRangeOp
  refine WithinX.next ?_
  refine Within.app (State.mgtReceive_within _ _ _) rfl ?_
  exact Within.refl _ _

theorem execRepairStatus_within (a0) (s : State) :
    WithinX { free := true, due := true, boot := true, node := true, csr := true, trcCfg := true, irq := true, mode := true, slices := true, banks := true, chans := true, far := true, near := true, memIo := true, memCfg := true, hsf := true, bisnps := true, links := true, pba := true, hreqs := true, accs := true, fnc := true, xlts := true, xinv := true, ports := true, rtrTx := true, rtrUn := true, rtr := true, dom := true, mtu := true, pors := true, qmg := true, ledger := true, bkt := true, flip := true, ras := true, flash := true, mgtq := true, mgt := true, tlys := true, events := true, trc := true, outs := true } s (execRepairStatus a0 s) := by
  unfold execRepairStatus
  refine WithinX.next ?_
  refine Within.app (State.mgtReceive_within _ _ _) rfl ?_
  exact Within.refl _ _

theorem execSetState_within (a0) (a1) (s : State) :
    WithinX { free := true, due := true, boot := true, node := true, csr := true, trcCfg := true, irq := true, mode := true, slices := true, banks := true, chans := true, far := true, near := true, memIo := true, memCfg := true, hsf := true, bisnps := true, links := true, pba := true, hreqs := true, accs := true, fnc := true, xlts := true, xinv := true, ports := true, rtrTx := true, rtrUn := true, rtr := true, dom := true, mtu := true, pors := true, qmg := true, ledger := true, bkt := true, flip := true, ras := true, flash := true, mgtq := true, mgt := true, tlys := true, events := true, trc := true, outs := true } s (execSetState a0 a1 s) := by
  unfold execSetState
  refine WithinX.next ?_
  refine Within.app (State.mgtReceive_within _ _ _) rfl ?_
  exact Within.refl _ _

theorem execStatus_within (a0) (s : State) :
    WithinX { free := true, due := true, boot := true, node := true, csr := true, trcCfg := true, irq := true, mode := true, slices := true, banks := true, chans := true, far := true, near := true, memIo := true, memCfg := true, hsf := true, bisnps := true, links := true, pba := true, hreqs := true, accs := true, fnc := true, xlts := true, xinv := true, ports := true, rtrTx := true, rtrUn := true, rtr := true, dom := true, mtu := true, pors := true, qmg := true, ledger := true, bkt := true, flip := true, ras := true, flash := true, mgtq := true, mgt := true, tlys := true, events := true, trc := true, outs := true } s (execStatus a0 s) := by
  unfold execStatus
  refine WithinX.next ?_
  refine Within.app (State.mgtReceive_within _ _ _) rfl ?_
  exact Within.refl _ _

theorem execTallyRoute_within (a0) (a1) (s : State) :
    WithinX { free := true, due := true, boot := true, node := true, csr := true, trcCfg := true, irq := true, mode := true, slices := true, banks := true, chans := true, far := true, near := true, memIo := true, memCfg := true, hsf := true, bisnps := true, links := true, pba := true, hreqs := true, accs := true, fnc := true, xlts := true, xinv := true, ports := true, rtrTx := true, rtrUn := true, rtr := true, dom := true, mtu := true, pors := true, qmg := true, ledger := true, bkt := true, flip := true, ras := true, flash := true, mgtq := true, mgt := true, tlys := true, events := true, trc := true, outs := true } s (execTallyRoute a0 a1 s) := by
  unfold execTallyRoute
  refine WithinX.next ?_
  refine Within.app (State.mgtReceive_within _ _ _) rfl ?_
  exact Within.refl _ _

theorem execTimeSet_within (a0) (a1) (s : State) :
    WithinX { free := true, due := true, boot := true, node := true, csr := true, trcCfg := true, irq := true, mode := true, slices := true, banks := true, chans := true, far := true, near := true, memIo := true, memCfg := true, hsf := true, bisnps := true, links := true, pba := true, hreqs := true, accs := true, fnc := true, xlts := true, xinv := true, ports := true, rtrTx := true, rtrUn := true, rtr := true, dom := true, mtu := true, pors := true, qmg := true, ledger := true, bkt := true, flip := true, ras := true, flash := true, mgtq := true, mgt := true, tlys := true, events := true, trc := true, outs := true } s (execTimeSet a0 a1 s) := by
  unfold execTimeSet
  refine WithinX.next ?_
  refine Within.app (State.mgtReceive_within _ _ _) rfl ?_
  exact Within.refl _ _

theorem execTraceSetup_within (a0) (a1) (a2) (a3) (a4) (s : State) :
    WithinX { free := true, due := true, boot := true, node := true, csr := true, trcCfg := true, irq := true, mode := true, slices := true, banks := true, chans := true, far := true, near := true, memIo := true, memCfg := true, hsf := true, bisnps := true, links := true, pba := true, hreqs := true, accs := true, fnc := true, xlts := true, xinv := true, ports := true, rtrTx := true, rtrUn := true, rtr := true, dom := true, mtu := true, pors := true, qmg := true, ledger := true, bkt := true, flip := true, ras := true, flash := true, mgtq := true, mgt := true, tlys := true, events := true, trc := true, outs := true } s (execTraceSetup a0 a1 a2 a3 a4 s) := by
  unfold execTraceSetup
  refine WithinX.next ?_
  refine Within.app (State.mgtReceive_within _ _ _) rfl ?_
  exact Within.refl _ _

theorem execUnretire_within (a0) (a1) (a2) (a3) (s : State) :
    WithinX { free := true, due := true, boot := true, node := true, csr := true, trcCfg := true, irq := true, mode := true, slices := true, banks := true, chans := true, far := true, near := true, memIo := true, memCfg := true, hsf := true, bisnps := true, links := true, pba := true, hreqs := true, accs := true, fnc := true, xlts := true, xinv := true, ports := true, rtrTx := true, rtrUn := true, rtr := true, dom := true, mtu := true, pors := true, qmg := true, ledger := true, bkt := true, flip := true, ras := true, flash := true, mgtq := true, mgt := true, tlys := true, events := true, trc := true, outs := true } s (execUnretire a0 a1 a2 a3 s) := by
  unfold execUnretire
  refine WithinX.next ?_
  refine Within.app (State.mgtReceive_within _ _ _) rfl ?_
  exact Within.refl _ _

end Sys2Proof.Machine
end

