-- ==== Sys2Proof/Laws/PerInstr.lean ====
section
/-! SUPPORT. What well-formedness says of every command: each instance, node, line and length that it names lies within the limit the spec
gives it. One lemma for each constructor. -/

namespace Sys2Proof.Laws.Operands

-- One theorem at a time: each waits for the equations of the definitions above, and would hold a thread while it waits.
set_option Elab.async false

/-- The numbers that a command names, each with the limit it stays below. -/
def limits : Instr → List (Nat × Nat)
  | .powerGoodRise _ _ _ => []
  | .powerGoodFall => []
  | .resetNAssert => []
  | .warm link => [(link, 8)]
  | .resetNRelease => []
  | .bringupStep1End _ => []
  | .bringupStep2End => []
  | .bringupStep3End _ _ => []
  | .bringupStep4End _ _ => []
  | .bringupStep5Start => []
  | .stopAtRaise _ => []
  | .nodeSet h _ => [(h.plen, 65536)]
  | .clerkRestart => []
  | .clerkTrap clerk => [(clerk, 4)]
  | .railFault rail => [(rail, 8)]
  | .thermalTrip sensor => [(sensor, 20)]
  | .cxlMemRequest link _ _ => [(link, 8)]
  | .hdmDecoderCommit link dec _ _ ways gran => [(link, 8), (dec, 4), (ways, 4), (gran, 15)]
  | .creditReturn link => [(link, 8)]
  | .hostDeadline _ => []
  | .hostLinkHotReset link => [(link, 8)]
  | .ideIntegrityFailure link => [(link, 8)]
  | .birsp _ _ _ => []
  | .bisnpTimeout _ _ => []
  | .badRegisterAccess link _ _ _ => [(link, 8)]
  | .registerWrite link _ _ _ => [(link, 8)]
  | .tagPipelineLookup n _ _ _ => [(n, 64)]
  | .tagBlockReadDone n q _ _ => [(n, 64), (q, 2359296)]
  | .fillInstall n i _ => [(n, 64), (i, 1088)]
  | .wayRetire n set way _ => [(n, 64), (set, 150994944), (way, 15)]
  | .invalidate n => [(n, 64)]
  | .flush n => [(n, 64)]
  | .tagCacheDisable n => [(n, 64)]
  | .tagCacheActionDone n => [(n, 64)]
  | .wayPredictorClear n => [(n, 64)]
  | .streamTableClear n => [(n, 64)]
  | .mrHwmReset n => [(n, 64)]
  | .vbHwmReset n => [(n, 64)]
  | .rds src m _ => [(src, 32768), (m.opc, 32), (m.grant, 8), (m.tid, 8192), (m.req, 32768), (m.htid, 1024), (m.la, 2 ^ 51)]
  | .rdx src m _ => [(src, 32768), (m.opc, 32), (m.grant, 8), (m.tid, 8192), (m.req, 32768), (m.htid, 1024), (m.la, 2 ^ 51)]
  | .upg src m _ => [(src, 32768), (m.opc, 32), (m.grant, 8), (m.tid, 8192), (m.req, 32768), (m.htid, 1024), (m.la, 2 ^ 51)]
  | .wbd src m _ => [(src, 32768), (m.opc, 32), (m.grant, 8), (m.tid, 8192), (m.req, 32768), (m.htid, 1024), (m.la, 2 ^ 51)]
  | .offer src m _ => [(src, 32768), (m.opc, 32), (m.grant, 8), (m.tid, 8192), (m.req, 32768), (m.htid, 1024), (m.la, 2 ^ 51)]
  | .iwr src m _ => [(src, 32768), (m.opc, 32), (m.grant, 8), (m.tid, 8192), (m.req, 32768), (m.htid, 1024), (m.la, 2 ^ 51)]
  | .atom src m _ => [(src, 32768), (m.opc, 32), (m.grant, 8), (m.tid, 8192), (m.req, 32768), (m.htid, 1024), (m.la, 2 ^ 51)]
  | .directoryStoreReadDone n htid _ _ => [(n, 64), (htid, 1024)]
  | .chainedRequestStart n la _ => [(n, 64), (la, 2251799813685248)]
  | .ticketExpiry n htid => [(n, 64), (htid, 1024)]
  | .inv src m _ => [(src, 32768), (m.opc, 32), (m.grant, 8), (m.tid, 8192), (m.req, 32768), (m.htid, 1024), (m.la, 2 ^ 51)]
  | .fwds src m _ => [(src, 32768), (m.opc, 32), (m.grant, 8), (m.tid, 8192), (m.req, 32768), (m.htid, 1024), (m.la, 2 ^ 51)]
  | .fwdx src m _ => [(src, 32768), (m.opc, 32), (m.grant, 8), (m.tid, 8192), (m.req, 32768), (m.htid, 1024), (m.la, 2 ^ 51)]
  | .holdExpiry n la _ => [(n, 64), (la, 2251799813685248)]
  | .ack src m _ => [(src, 32768), (m.opc, 32), (m.grant, 8), (m.tid, 8192), (m.req, 32768), (m.htid, 1024), (m.la, 2 ^ 51)]
  | .data src m _ => [(src, 32768), (m.opc, 32), (m.grant, 8), (m.tid, 8192), (m.req, 32768), (m.htid, 1024), (m.la, 2 ^ 51)]
  | .datao src m _ => [(src, 32768), (m.opc, 32), (m.grant, 8), (m.tid, 8192), (m.req, 32768), (m.htid, 1024), (m.la, 2 ^ 51)]
  | .retry src m => [(src, 32768), (m.opc, 32), (m.grant, 8), (m.tid, 8192), (m.req, 32768), (m.htid, 1024), (m.la, 2 ^ 51)]
  | .retryGapExpiry n home opc => [(n, 64), (home, 32768), (opc, 32)]
  | .nackDown src m _ => [(src, 32768), (m.opc, 32), (m.grant, 8), (m.tid, 8192), (m.req, 32768), (m.htid, 1024), (m.la, 2 ^ 51)]
  | .nackRange src m _ => [(src, 32768), (m.opc, 32), (m.grant, 8), (m.tid, 8192), (m.req, 32768), (m.htid, 1024), (m.la, 2 ^ 51)]
  | .cohTimeout _ => []
  | .grd src m _ => [(src, 32768), (m.opc, 32), (m.grant, 8), (m.tid, 8192), (m.req, 32768), (m.htid, 1024), (m.la, 2 ^ 51)]
  | .gwr src m _ => [(src, 32768), (m.opc, 32), (m.grant, 8), (m.tid, 8192), (m.req, 32768), (m.htid, 1024), (m.la, 2 ^ 51)]
  | .gatom src m _ => [(src, 32768), (m.opc, 32), (m.grant, 8), (m.tid, 8192), (m.req, 32768), (m.htid, 1024), (m.la, 2 ^ 51)]
  | .gdata src m => [(src, 32768), (m.opc, 32), (m.grant, 8), (m.tid, 8192), (m.req, 32768), (m.htid, 1024), (m.la, 2 ^ 51)]
  | .gack src m _ => [(src, 32768), (m.opc, 32), (m.grant, 8), (m.tid, 8192), (m.req, 32768), (m.htid, 1024), (m.la, 2 ^ 51)]
  | .gbusy src m => [(src, 32768), (m.opc, 32), (m.grant, 8), (m.tid, 8192), (m.req, 32768), (m.htid, 1024), (m.la, 2 ^ 51)]
  | .fabricDeadlineExpiry _ _ => []
  | .pwbEntry _ => []
  | .pwbIssue link => [(link, 8)]
  | .pwbDeadlineExpiry link _ => [(link, 8)]
  | .pwbHwmReset link => [(link, 8)]
  | .acquireLoadResponse _ => []
  | .fenceRead link _ _ => [(link, 8)]
  | .fenceLocalWaitsDone _ => []
  | .fenceDeadline _ => []
  | .arrive src m => [(src, 32768), (m.gen, 256), (m.code, 256), (m.origin, 32768), (m.ctx, 4096), (m.vpage, 2 ^ 45)]
  | .downdraft src m => [(src, 32768), (m.gen, 256), (m.code, 256), (m.origin, 32768), (m.ctx, 4096), (m.vpage, 2 ^ 45)]
  | .breq src m => [(src, 32768), (m.gen, 256), (m.code, 256), (m.origin, 32768), (m.ctx, 4096), (m.vpage, 2 ^ 45)]
  | .bbusy src m => [(src, 32768), (m.gen, 256), (m.code, 256), (m.origin, 32768), (m.ctx, 4096), (m.vpage, 2 ^ 45)]
  | .bcast src m => [(src, 32768), (m.gen, 256), (m.code, 256), (m.origin, 32768), (m.ctx, 4096), (m.vpage, 2 ^ 45)]
  | .back src m => [(src, 32768), (m.gen, 256), (m.code, 256), (m.origin, 32768), (m.ctx, 4096), (m.vpage, 2 ^ 45)]
  | .bdone src m => [(src, 32768), (m.gen, 256), (m.code, 256), (m.origin, 32768), (m.ctx, 4096), (m.vpage, 2 ^ 45)]
  | .systemTreeWrite link _ _ _ => [(link, 8)]
  | .leaseEpochAdvance entry => [(entry, 64)]
  | .unlockedLeaseAdvance => []
  | .epochStepStart => []
  | .rosterSweep n => [(n, 64)]
  | .epochStepComplete => []
  | .walkStart _ _ => []
  | .walkTableReadDone x _ => [(x, 5)]
  | .walkCasDone x _ => [(x, 5)]
  | .walkLimit x _ => [(x, 5)]
  | .speculativeWalkStart x _ _ => [(x, 5)]
  | .tlbEntryAgeOut x => [(x, 5)]
  | .address link ctx scope => [(link, 8), (ctx, 4096), (scope, 4)]
  | .context link ctx scope => [(link, 8), (ctx, 4096), (scope, 4)]
  | .all link scope => [(link, 8), (scope, 4)]
  | .invalidationLimit => []
  | .contextRegisterWrite link _ _ _ => [(link, 8)]
  | .trainingStateComplete p _ => [(p, 16)]
  | .identBlock p _ => [(p, 16)]
  | .flit p _ => [(p, 16)]
  | .nak p ackSeq => [(p, 16), (ackSeq, 1024)]
  | .noFlitTimeout p => [(p, 16)]
  | .flitPack p => [(p, 16)]
  | .routePacket _ => []
  | .oseqGapTimeout src => [(src, 32768)]
  | .routeFailNotice src _ _ => [(src, 32768)]
  | .linkReport src port peerPort _ => [(src, 32768), (port, 16), (peerPort, 16)]
  | .linkReportTimeout p => [(p, 16)]
  | .timeExchange p => [(p, 16)]
  | .timePacket p _ _ => [(p, 16)]
  | .heartbeatSend => []
  | .heartbeat src domain state _ => [(src, 32768), (domain, 256), (state, 4)]
  | .memberDead m => [(m, 128)]
  | .join src domain _ => [(src, 32768), (domain, 256)]
  | .ready src domain _ => [(src, 32768), (domain, 256)]
  | .membershipBeat => []
  | .domJoinTimeout => []
  | .managementFragment src _ => [(src, 32768)]
  | .reassemblyTimeout buf => [(buf, 4)]
  | .domainFailNotice src _ => [(src, 32768)]
  | .retrain p => [(p, 16)]
  | .portEnableWrite p _ => [(p, 16)]
  | .domSet h _ _ => [(h.plen, 65536)]
  | .domJoin h => [(h.plen, 65536)]
  | .fabPort h _ _ => [(h.plen, 65536)]
  | .fabClrUnreach h _ => [(h.plen, 65536)]
  | .mtRefPresent => []
  | .mtRefLost => []
  | .mtMarkEdge => []
  | .mtHoldEnd => []
  | .timeSet h _ => [(h.plen, 65536)]
  | .scheduleEntryWrite link _ _ _ => [(link, 8)]
  | .mtuNowRead link => [(link, 8)]
  | .guardStart => []
  | .lullStart => []
  | .lullEnd => []
  | .lullSegmentStart c => [(c, 72)]
  | .lullSegmentDone c _ _ => [(c, 72)]
  | .refreshCadencePhase entry => [(entry, 64)]
  | .freeRunningRefresh c => [(c, 72)]
  | .scrubStep entry _ => [(entry, 64)]
  | .directorySweep entry => [(entry, 64)]
  | .counterSnapshot entry => [(entry, 64)]
  | .leakyBucketLeak entry => [(entry, 64)]
  | .thermalSample entry _ => [(entry, 64)]
  | .commandSlotPick c u _ _ => [(c, 72), (u, 2)]
  | .rowIdleTimeout c u bank => [(c, 72), (u, 2), (bank, 128)]
  | .selfRefreshEntry c => [(c, 72)]
  | .selfRefreshExit c _ => [(c, 72)]
  | .channelFreeze c cause _ => [(c, 72), (cause, 4)]
  | .mergeBufferTimeout c u _ _ _ => [(c, 72), (u, 2)]
  | .pasrSet h _ => [(h.plen, 65536)]
  | .chThaw h _ _ => [(h.plen, 65536)]
  | .chRetrain h _ _ => [(h.plen, 65536)]
  | .chRawRead h _ _ _ _ => [(h.plen, 65536)]
  | .chRawWrite h _ _ _ _ => [(h.plen, 65536)]
  | .porterFetch p _ _ => [(p, 32)]
  | .porterActivate p => [(p, 32)]
  | .pieceIssue p _ => [(p, 32)]
  | .pieceResponse p _ => [(p, 32)]
  | .recordRetry p => [(p, 32)]
  | .queuePut src tq porter _ _ => [(src, 32768), (tq, 65536), (porter, 32)]
  | .putAnswer src porter _ _ => [(src, 32768), (porter, 32)]
  | .notifyRetry p _ => [(p, 32)]
  | .abortOne link p _ => [(link, 8), (p, 32)]
  | .abortAll link p => [(link, 8), (p, 32)]
  | .resume link p => [(link, 8), (p, 32)]
  | .porterDisable link p => [(link, 8), (p, 32)]
  | .enqueue _ _ _ => []
  | .push link k _ _ => [(link, 8), (k, 64)]
  | .advance link k _ _ _ => [(link, 8), (k, 64)]
  | .dropPacket link k _ _ => [(link, 8), (k, 64)]
  | .queueFlush link k _ _ => [(link, 8), (k, 64)]
  | .clear link k => [(link, 8), (k, 64)]
  | .queueDisable link q => [(link, 8), (q, 65536)]
  | .domainDownEntry _ => []
  | .pageCodeEnable link r => [(link, 8), (r, 8)]
  | .pageCodeInitDone r => [(r, 8)]
  | .arm link _ => [(link, 8)]
  | .ppr h _ _ _ _ _ _ _ => [(h.plen, 65536)]
  | .domReform h => [(h.plen, 65536)]
  | .ledgerRead h _ _ => [(h.plen, 65536)]
  | .ledgerClear h => [(h.plen, 65536)]
  | .partSetFlat h _ => [(h.plen, 65536)]
  | .cacheMode h _ => [(h.plen, 65536)]
  | .rangeOp h _ _ _ _ => [(h.plen, 65536)]
  | .maintenanceLookup n _ => [(n, 64)]
  | .rangeOpComplete => []
  | .unretire h _ _ _ => [(h.plen, 65536)]
  | .identify h => [(h.plen, 65536)]
  | .status h => [(h.plen, 65536)]
  | .setState h _ => [(h.plen, 65536)]
  | .fwInfo h => [(h.plen, 65536)]
  | .fwErase h => [(h.plen, 65536)]
  | .fwWrite h _ _ => [(h.plen, 65536)]
  | .fwVerify h => [(h.plen, 65536)]
  | .fwActivate h => [(h.plen, 65536)]
  | .tallyRoute h _ => [(h.plen, 65536)]
  | .traceSetup h _ _ _ _ => [(h.plen, 65536)]
  | .start link u _ => [(link, 8), (u, 96)]
  | .stop link u _ => [(link, 8), (u, 96)]
  | .counterClear link u => [(link, 8), (u, 96)]
  | .evselWrite link u i _ => [(link, 8), (u, 96), (i, 8)]
  | .routingDone u i => [(u, 96), (i, 8)]
  | .capture link => [(link, 8)]
  | .boundClear link port => [(link, 8), (port, 4)]
  | .bistRun h _ _ _ => [(h.plen, 65536)]
  | .bistComplete result _ _ _ => [(result, 3)]
  | .repairStatus h => [(h.plen, 65536)]
  | .testLogicReset => []
  | .extest _ => []
  | .idcode => []
  | .samplePreload _ => []
  | .extestPulse _ => []
  | .extestTrain _ => []
  | .clamp => []
  | .highz => []
  | .repairScan => []
  | .bypass _ => []
  | .mtMarkMissing => []
  | .neighbourStampTimeout => []
  | .halfRateCatchUpEnd => []
  | .laneLockLost p => [(p, 16)]
  | .railsInRange => []
  | .hostLinkUp link rate width _ _ => [(link, 8), (rate, 5), (width, 17)]
  | .memoryReadDone _ _ => []
  | .badOpcodeCommand h _ _ => [(h.plen, 65536)]
  | .tallyLowHalfRead link _ => [(link, 8)]
  | .domainFailNoticeResend => []
  | .channelTrainingComplete c _ => [(c, 72)]

/-- A well-formed command names nothing beyond its limits. -/
def Statement (i : Instr) : Prop := i.wf = true → ∀ p ∈ limits i, p.1 < p.2

theorem powerGoodRise (halves : BitVec 4) (railsOk : Bool) (resetLow : Bool) : Statement (.powerGoodRise halves railsOk resetLow) := by
  intro _ p h; exact absurd h (List.not_mem_nil)
theorem powerGoodFall : Statement (.powerGoodFall) := by
  intro _ p h; exact absurd h (List.not_mem_nil)
theorem resetNAssert : Statement (.resetNAssert) := by
  intro _ p h; exact absurd h (List.not_mem_nil)
theorem warm (link : Nat) : Statement (.warm link) := by
  intro h; simp_all [limits, Instr.wf]
theorem resetNRelease : Statement (.resetNRelease) := by
  intro _ p h; exact absurd h (List.not_mem_nil)
theorem bringupStep1End (fuseOk : Bool) : Statement (.bringupStep1End fuseOk) := by
  intro _ p h; exact absurd h (List.not_mem_nil)
theorem bringupStep2End : Statement (.bringupStep2End) := by
  intro _ p h; exact absurd h (List.not_mem_nil)
theorem bringupStep3End (spd : List ChanPop) (trained : BitVec 8) : Statement (.bringupStep3End spd trained) := by
  intro _ p h; exact absurd h (List.not_mem_nil)
theorem bringupStep4End (farOk : BitVec 8) (nearOk : BitVec 64) : Statement (.bringupStep4End farOk nearOk) := by
  intro _ p h; exact absurd h (List.not_mem_nil)
theorem bringupStep5Start : Statement (.bringupStep5Start) := by
  intro _ p h; exact absurd h (List.not_mem_nil)
theorem stopAtRaise (v : BitVec 2) : Statement (.stopAtRaise v) := by
  intro _ p h; exact absurd h (List.not_mem_nil)
theorem nodeSet (h : CmdHdr) (node : BitVec 16) : Statement (.nodeSet h node) := by
  intro h; simp_all [limits, Instr.wf, CmdHdr.wf]
theorem clerkRestart : Statement (.clerkRestart) := by
  intro _ p h; exact absurd h (List.not_mem_nil)
theorem clerkTrap (clerk : Nat) : Statement (.clerkTrap clerk) := by
  intro h; simp_all [limits, Instr.wf]
theorem railFault (rail : Nat) : Statement (.railFault rail) := by
  intro h; simp_all [limits, Instr.wf]
theorem thermalTrip (sensor : Nat) : Statement (.thermalTrip sensor) := by
  intro h; simp_all [limits, Instr.wf]
theorem cxlMemRequest (link : Nat) (r : CxlReq) (fd : Finds) : Statement (.cxlMemRequest link r fd) := by
  intro h; simp_all [limits, Instr.wf]
theorem hdmDecoderCommit (link : Nat) (dec : Nat) (base : Nat) (size : Nat) (ways : Nat) (gran : Nat) : Statement (.hdmDecoderCommit link dec base size ways gran) := by
  intro h; simp_all [limits, Instr.wf]
theorem creditReturn (link : Nat) : Statement (.creditReturn link) := by
  intro h; simp_all [limits, Instr.wf]
theorem hostDeadline (rid : Nat) : Statement (.hostDeadline rid) := by
  intro _ p h; exact absurd h (List.not_mem_nil)
theorem hostLinkHotReset (link : Nat) : Statement (.hostLinkHotReset link) := by
  intro h; simp_all [limits, Instr.wf]
theorem ideIntegrityFailure (link : Nat) : Statement (.ideIntegrityFailure link) := by
  intro h; simp_all [limits, Instr.wf]
theorem birsp (id : Nat) (dirty : Option (Line × Bool)) (fd : Finds) : Statement (.birsp id dirty fd) := by
  intro _ p h; exact absurd h (List.not_mem_nil)
theorem bisnpTimeout (id : Nat) (fd : Finds) : Statement (.bisnpTimeout id fd) := by
  intro _ p h; exact absurd h (List.not_mem_nil)
theorem badRegisterAccess (link : Nat) (off : Nat) (size : Nat) (write : Bool) : Statement (.badRegisterAccess link off size write) := by
  intro h; simp_all [limits, Instr.wf]
theorem registerWrite (link : Nat) (off : Nat) (size : Nat) (v : Word) : Statement (.registerWrite link off size v) := by
  intro h; simp_all [limits, Instr.wf]
theorem tagPipelineLookup (n : Nat) (idx : Nat) (hsfUe : Bool) (fd : Finds) : Statement (.tagPipelineLookup n idx hsfUe fd) := by
  intro h; simp_all [limits, Instr.wf]
theorem tagBlockReadDone (n : Nat) (q : Nat) (te : ArrErr) (fd : Finds) : Statement (.tagBlockReadDone n q te fd) := by
  intro h; simp_all [limits, Instr.wf]
theorem fillInstall (n : Nat) (i : Nat) (fd : Finds) : Statement (.fillInstall n i fd) := by
  intro h; simp_all [limits, Instr.wf]
theorem wayRetire (n : Nat) (set : Nat) (way : Nat) (fd : Finds) : Statement (.wayRetire n set way fd) := by
  intro h; simp_all [limits, Instr.wf]
theorem invalidate (n : Nat) : Statement (.invalidate n) := by
  intro h; simp_all [limits, Instr.wf]
theorem flush (n : Nat) : Statement (.flush n) := by
  intro h; simp_all [limits, Instr.wf]
theorem tagCacheDisable (n : Nat) : Statement (.tagCacheDisable n) := by
  intro h; simp_all [limits, Instr.wf]
theorem tagCacheActionDone (n : Nat) : Statement (.tagCacheActionDone n) := by
  intro h; simp_all [limits, Instr.wf]
theorem wayPredictorClear (n : Nat) : Statement (.wayPredictorClear n) := by
  intro h; simp_all [limits, Instr.wf]
theorem streamTableClear (n : Nat) : Statement (.streamTableClear n) := by
  intro h; simp_all [limits, Instr.wf]
theorem mrHwmReset (n : Nat) : Statement (.mrHwmReset n) := by
  intro h; simp_all [limits, Instr.wf]
theorem vbHwmReset (n : Nat) : Statement (.vbHwmReset n) := by
  intro h; simp_all [limits, Instr.wf]
theorem rds (src : Nat) (m : CohMsg) (fd : Finds) : Statement (.rds src m fd) := by
  intro h; simp_all [limits, Instr.wf, CohMsg.wf]
theorem rdx (src : Nat) (m : CohMsg) (fd : Finds) : Statement (.rdx src m fd) := by
  intro h; simp_all [limits, Instr.wf, CohMsg.wf]
theorem upg (src : Nat) (m : CohMsg) (fd : Finds) : Statement (.upg src m fd) := by
  intro h; simp_all [limits, Instr.wf, CohMsg.wf]
theorem wbd (src : Nat) (m : CohMsg) (fd : Finds) : Statement (.wbd src m fd) := by
  intro h; simp_all [limits, Instr.wf, CohMsg.wf]
theorem offer (src : Nat) (m : CohMsg) (fd : Finds) : Statement (.offer src m fd) := by
  intro h; simp_all [limits, Instr.wf, CohMsg.wf]
theorem iwr (src : Nat) (m : CohMsg) (fd : Finds) : Statement (.iwr src m fd) := by
  intro h; simp_all [limits, Instr.wf, CohMsg.wf]
theorem atom (src : Nat) (m : CohMsg) (fd : Finds) : Statement (.atom src m fd) := by
  intro h; simp_all [limits, Instr.wf, CohMsg.wf]
theorem directoryStoreReadDone (n : Nat) (htid : Nat) (errs : List ArrErr) (fd : Finds) : Statement (.directoryStoreReadDone n htid errs fd) := by
  intro h; simp_all [limits, Instr.wf]
theorem chainedRequestStart (n : Nat) (la : Nat) (fd : Finds) : Statement (.chainedRequestStart n la fd) := by
  intro h; simp_all [limits, Instr.wf]
theorem ticketExpiry (n : Nat) (htid : Nat) : Statement (.ticketExpiry n htid) := by
  intro h; simp_all [limits, Instr.wf]
theorem inv (src : Nat) (m : CohMsg) (fd : Finds) : Statement (.inv src m fd) := by
  intro h; simp_all [limits, Instr.wf, CohMsg.wf]
theorem fwds (src : Nat) (m : CohMsg) (fd : Finds) : Statement (.fwds src m fd) := by
  intro h; simp_all [limits, Instr.wf, CohMsg.wf]
theorem fwdx (src : Nat) (m : CohMsg) (fd : Finds) : Statement (.fwdx src m fd) := by
  intro h; simp_all [limits, Instr.wf, CohMsg.wf]
theorem holdExpiry (n : Nat) (la : Nat) (fd : Finds) : Statement (.holdExpiry n la fd) := by
  intro h; simp_all [limits, Instr.wf]
theorem ack (src : Nat) (m : CohMsg) (fd : Finds) : Statement (.ack src m fd) := by
  intro h; simp_all [limits, Instr.wf, CohMsg.wf]
theorem data (src : Nat) (m : CohMsg) (fd : Finds) : Statement (.data src m fd) := by
  intro h; simp_all [limits, Instr.wf, CohMsg.wf]
theorem datao (src : Nat) (m : CohMsg) (fd : Finds) : Statement (.datao src m fd) := by
  intro h; simp_all [limits, Instr.wf, CohMsg.wf]
theorem retry (src : Nat) (m : CohMsg) : Statement (.retry src m) := by
  intro h; simp_all [limits, Instr.wf, CohMsg.wf]
theorem retryGapExpiry (n : Nat) (home : Nat) (opc : Nat) : Statement (.retryGapExpiry n home opc) := by
  intro h; simp_all [limits, Instr.wf]
theorem nackDown (src : Nat) (m : CohMsg) (fd : Finds) : Statement (.nackDown src m fd) := by
  intro h; simp_all [limits, Instr.wf, CohMsg.wf]
theorem nackRange (src : Nat) (m : CohMsg) (fd : Finds) : Statement (.nackRange src m fd) := by
  intro h; simp_all [limits, Instr.wf, CohMsg.wf]
theorem cohTimeout (w : CohWait) : Statement (.cohTimeout w) := by
  intro _ p h; exact absurd h (List.not_mem_nil)
theorem grd (src : Nat) (m : CohMsg) (fd : Finds) : Statement (.grd src m fd) := by
  intro h; simp_all [limits, Instr.wf, CohMsg.wf]
theorem gwr (src : Nat) (m : CohMsg) (fd : Finds) : Statement (.gwr src m fd) := by
  intro h; simp_all [limits, Instr.wf, CohMsg.wf]
theorem gatom (src : Nat) (m : CohMsg) (fd : Finds) : Statement (.gatom src m fd) := by
  intro h; simp_all [limits, Instr.wf, CohMsg.wf]
theorem gdata (src : Nat) (m : CohMsg) : Statement (.gdata src m) := by
  intro h; simp_all [limits, Instr.wf, CohMsg.wf]
theorem gack (src : Nat) (m : CohMsg) (fd : Finds) : Statement (.gack src m fd) := by
  intro h; simp_all [limits, Instr.wf, CohMsg.wf]
theorem gbusy (src : Nat) (m : CohMsg) : Statement (.gbusy src m) := by
  intro h; simp_all [limits, Instr.wf, CohMsg.wf]
theorem fabricDeadlineExpiry (w : DlWait) (fd : Finds) : Statement (.fabricDeadlineExpiry w fd) := by
  intro _ p h; exact absurd h (List.not_mem_nil)
theorem pwbEntry (rid : Nat) : Statement (.pwbEntry rid) := by
  intro _ p h; exact absurd h (List.not_mem_nil)
theorem pwbIssue (link : Nat) : Statement (.pwbIssue link) := by
  intro h; simp_all [limits, Instr.wf]
theorem pwbDeadlineExpiry (link : Nat) (seq : Nat) : Statement (.pwbDeadlineExpiry link seq) := by
  intro h; simp_all [limits, Instr.wf]
theorem pwbHwmReset (link : Nat) : Statement (.pwbHwmReset link) := by
  intro h; simp_all [limits, Instr.wf]
theorem acquireLoadResponse (rid : Nat) : Statement (.acquireLoadResponse rid) := by
  intro _ p h; exact absurd h (List.not_mem_nil)
theorem fenceRead (link : Nat) (off : Nat) (size : Nat) : Statement (.fenceRead link off size) := by
  intro h; simp_all [limits, Instr.wf]
theorem fenceLocalWaitsDone (fid : Nat) : Statement (.fenceLocalWaitsDone fid) := by
  intro _ p h; exact absurd h (List.not_mem_nil)
theorem fenceDeadline (fid : Nat) : Statement (.fenceDeadline fid) := by
  intro _ p h; exact absurd h (List.not_mem_nil)
theorem arrive (src : Nat) (m : TreeMsg) : Statement (.arrive src m) := by
  intro h; simp_all [limits, Instr.wf, TreeMsg.wf]
theorem downdraft (src : Nat) (m : TreeMsg) : Statement (.downdraft src m) := by
  intro h; simp_all [limits, Instr.wf, TreeMsg.wf]
theorem breq (src : Nat) (m : TreeMsg) : Statement (.breq src m) := by
  intro h; simp_all [limits, Instr.wf, TreeMsg.wf]
theorem bbusy (src : Nat) (m : TreeMsg) : Statement (.bbusy src m) := by
  intro h; simp_all [limits, Instr.wf, TreeMsg.wf]
theorem bcast (src : Nat) (m : TreeMsg) : Statement (.bcast src m) := by
  intro h; simp_all [limits, Instr.wf, TreeMsg.wf]
theorem back (src : Nat) (m : TreeMsg) : Statement (.back src m) := by
  intro h; simp_all [limits, Instr.wf, TreeMsg.wf]
theorem bdone (src : Nat) (m : TreeMsg) : Statement (.bdone src m) := by
  intro h; simp_all [limits, Instr.wf, TreeMsg.wf]
theorem systemTreeWrite (link : Nat) (off : Nat) (size : Nat) (v : Word) : Statement (.systemTreeWrite link off size v) := by
  intro h; simp_all [limits, Instr.wf]
theorem leaseEpochAdvance (entry : Nat) : Statement (.leaseEpochAdvance entry) := by
  intro h; simp_all [limits, Instr.wf]
theorem unlockedLeaseAdvance : Statement (.unlockedLeaseAdvance) := by
  intro _ p h; exact absurd h (List.not_mem_nil)
theorem epochStepStart : Statement (.epochStepStart) := by
  intro _ p h; exact absurd h (List.not_mem_nil)
theorem rosterSweep (n : Nat) : Statement (.rosterSweep n) := by
  intro h; simp_all [limits, Instr.wf]
theorem epochStepComplete : Statement (.epochStepComplete) := by
  intro _ p h; exact absurd h (List.not_mem_nil)
theorem walkStart (job : Nat) (fd : Finds) : Statement (.walkStart job fd) := by
  intro _ p h; exact absurd h (List.not_mem_nil)
theorem walkTableReadDone (x : Nat) (w : Nat) : Statement (.walkTableReadDone x w) := by
  intro h; simp_all [limits, Instr.wf]
theorem walkCasDone (x : Nat) (w : Nat) : Statement (.walkCasDone x w) := by
  intro h; simp_all [limits, Instr.wf]
theorem walkLimit (x : Nat) (w : Nat) : Statement (.walkLimit x w) := by
  intro h; simp_all [limits, Instr.wf]
theorem speculativeWalkStart (x : Nat) (f : SpecFor) (fd : Finds) : Statement (.speculativeWalkStart x f fd) := by
  intro h; simp_all [limits, Instr.wf]
theorem tlbEntryAgeOut (x : Nat) : Statement (.tlbEntryAgeOut x) := by
  intro h; simp_all [limits, Instr.wf]
theorem address (link : Nat) (ctx : Nat) (scope : Nat) : Statement (.address link ctx scope) := by
  intro h; simp_all [limits, Instr.wf]
theorem context (link : Nat) (ctx : Nat) (scope : Nat) : Statement (.context link ctx scope) := by
  intro h; simp_all [limits, Instr.wf]
theorem all (link : Nat) (scope : Nat) : Statement (.all link scope) := by
  intro h; simp_all [limits, Instr.wf]
theorem invalidationLimit : Statement (.invalidationLimit) := by
  intro _ p h; exact absurd h (List.not_mem_nil)
theorem contextRegisterWrite (link : Nat) (off : Nat) (size : Nat) (v : Word) : Statement (.contextRegisterWrite link off size v) := by
  intro h; simp_all [limits, Instr.wf]
theorem trainingStateComplete (p : Nat) (lanes : BitVec 8) : Statement (.trainingStateComplete p lanes) := by
  intro h; simp_all [limits, Instr.wf]
theorem identBlock (p : Nat) (b : IdentBlk) : Statement (.identBlock p b) := by
  intro h; simp_all [limits, Instr.wf]
theorem flit (p : Nat) (f : BitVec 2048) : Statement (.flit p f) := by
  intro h; simp_all [limits, Instr.wf]
theorem nak (p : Nat) (ackSeq : Nat) : Statement (.nak p ackSeq) := by
  intro h; simp_all [limits, Instr.wf]
theorem noFlitTimeout (p : Nat) : Statement (.noFlitTimeout p) := by
  intro h; simp_all [limits, Instr.wf]
theorem flitPack (p : Nat) : Statement (.flitPack p) := by
  intro h; simp_all [limits, Instr.wf]
theorem routePacket (ue : Bool) : Statement (.routePacket ue) := by
  intro _ p h; exact absurd h (List.not_mem_nil)
theorem oseqGapTimeout (src : Nat) : Statement (.oseqGapTimeout src) := by
  intro h; simp_all [limits, Instr.wf]
theorem routeFailNotice (src : Nat) (hdr : BitVec 128) (slot : BitVec 128) : Statement (.routeFailNotice src hdr slot) := by
  intro h; simp_all [limits, Instr.wf]
theorem linkReport (src : Nat) (port : Nat) (peerPort : Nat) (rseq : Option Nat) : Statement (.linkReport src port peerPort rseq) := by
  intro h; simp_all [limits, Instr.wf]
theorem linkReportTimeout (p : Nat) : Statement (.linkReportTimeout p) := by
  intro h; simp_all [limits, Instr.wf]
theorem timeExchange (p : Nat) : Statement (.timeExchange p) := by
  intro h; simp_all [limits, Instr.wf]
theorem timePacket (p : Nat) (t : TimeMsg) (replayed : Bool) : Statement (.timePacket p t replayed) := by
  intro h; simp_all [limits, Instr.wf]
theorem heartbeatSend : Statement (.heartbeatSend) := by
  intro _ p h; exact absurd h (List.not_mem_nil)
theorem heartbeat (src : Nat) (domain : Nat) (state : Nat) (digest : BitVec 32) : Statement (.heartbeat src domain state digest) := by
  intro h; simp_all [limits, Instr.wf]
theorem memberDead (m : Nat) : Statement (.memberDead m) := by
  intro h; simp_all [limits, Instr.wf]
theorem join (src : Nat) (domain : Nat) (digest : BitVec 32) : Statement (.join src domain digest) := by
  intro h; simp_all [limits, Instr.wf]
theorem ready (src : Nat) (domain : Nat) (digest : BitVec 32) : Statement (.ready src domain digest) := by
  intro h; simp_all [limits, Instr.wf]
theorem membershipBeat : Statement (.membershipBeat) := by
  intro _ p h; exact absurd h (List.not_mem_nil)
theorem domJoinTimeout : Statement (.domJoinTimeout) := by
  intro _ p h; exact absurd h (List.not_mem_nil)
theorem managementFragment (src : Nat) (f : Fragment) : Statement (.managementFragment src f) := by
  intro h; simp_all [limits, Instr.wf]
theorem reassemblyTimeout (buf : Nat) : Statement (.reassemblyTimeout buf) := by
  intro h; simp_all [limits, Instr.wf]
theorem domainFailNotice (src : Nat) (f : FailNotice) : Statement (.domainFailNotice src f) := by
  intro h; simp_all [limits, Instr.wf]
theorem retrain (p : Nat) : Statement (.retrain p) := by
  intro h; simp_all [limits, Instr.wf]
theorem portEnableWrite (p : Nat) (en : Bool) : Statement (.portEnableWrite p en) := by
  intro h; simp_all [limits, Instr.wf]
theorem domSet (h : CmdHdr) (domain : BitVec 8) (presence : BitVec 128) : Statement (.domSet h domain presence) := by
  intro h; simp_all [limits, Instr.wf, CmdHdr.wf]
theorem domJoin (h : CmdHdr) : Statement (.domJoin h) := by
  intro h; simp_all [limits, Instr.wf, CmdHdr.wf]
theorem fabPort (h : CmdHdr) (port : BitVec 8) (action : BitVec 8) : Statement (.fabPort h port action) := by
  intro h; simp_all [limits, Instr.wf, CmdHdr.wf]
theorem fabClrUnreach (h : CmdHdr) (node : BitVec 16) : Statement (.fabClrUnreach h node) := by
  intro h; simp_all [limits, Instr.wf, CmdHdr.wf]
theorem mtRefPresent : Statement (.mtRefPresent) := by
  intro _ p h; exact absurd h (List.not_mem_nil)
theorem mtRefLost : Statement (.mtRefLost) := by
  intro _ p h; exact absurd h (List.not_mem_nil)
theorem mtMarkEdge : Statement (.mtMarkEdge) := by
  intro _ p h; exact absurd h (List.not_mem_nil)
theorem mtHoldEnd : Statement (.mtHoldEnd) := by
  intro _ p h; exact absurd h (List.not_mem_nil)
theorem timeSet (h : CmdHdr) (markMt : Word) : Statement (.timeSet h markMt) := by
  intro h; simp_all [limits, Instr.wf, CmdHdr.wf]
theorem scheduleEntryWrite (link : Nat) (off : Nat) (size : Nat) (v : Word) : Statement (.scheduleEntryWrite link off size v) := by
  intro h; simp_all [limits, Instr.wf]
theorem mtuNowRead (link : Nat) : Statement (.mtuNowRead link) := by
  intro h; simp_all [limits, Instr.wf]
theorem guardStart : Statement (.guardStart) := by
  intro _ p h; exact absurd h (List.not_mem_nil)
theorem lullStart : Statement (.lullStart) := by
  intro _ p h; exact absurd h (List.not_mem_nil)
theorem lullEnd : Statement (.lullEnd) := by
  intro _ p h; exact absurd h (List.not_mem_nil)
theorem lullSegmentStart (c : Nat) : Statement (.lullSegmentStart c) := by
  intro h; simp_all [limits, Instr.wf]
theorem lullSegmentDone (c : Nat) (ok : Bool) (errs : List (Nat × ArrErr)) : Statement (.lullSegmentDone c ok errs) := by
  intro h; simp_all [limits, Instr.wf]
theorem refreshCadencePhase (entry : Nat) : Statement (.refreshCadencePhase entry) := by
  intro h; simp_all [limits, Instr.wf]
theorem freeRunningRefresh (c : Nat) : Statement (.freeRunningRefresh c) := by
  intro h; simp_all [limits, Instr.wf]
theorem scrubStep (entry : Nat) (errs : List (Nat × Nat × ArrErr)) : Statement (.scrubStep entry errs) := by
  intro h; simp_all [limits, Instr.wf]
theorem directorySweep (entry : Nat) : Statement (.directorySweep entry) := by
  intro h; simp_all [limits, Instr.wf]
theorem counterSnapshot (entry : Nat) : Statement (.counterSnapshot entry) := by
  intro h; simp_all [limits, Instr.wf]
theorem leakyBucketLeak (entry : Nat) : Statement (.leakyBucketLeak entry) := by
  intro h; simp_all [limits, Instr.wf]
theorem thermalSample (entry : Nat) (temps : List (BitVec 16)) : Statement (.thermalSample entry temps) := by
  intro h; simp_all [limits, Instr.wf]
theorem commandSlotPick (c : Nat) (u : Nat) (e : ArrErr) (fd : Finds) : Statement (.commandSlotPick c u e fd) := by
  intro h; simp_all [limits, Instr.wf]
theorem rowIdleTimeout (c : Nat) (u : Nat) (bank : Nat) : Statement (.rowIdleTimeout c u bank) := by
  intro h; simp_all [limits, Instr.wf]
theorem selfRefreshEntry (c : Nat) : Statement (.selfRefreshEntry c) := by
  intro h; simp_all [limits, Instr.wf]
theorem selfRefreshExit (c : Nat) (fd : Finds) : Statement (.selfRefreshExit c fd) := by
  intro h; simp_all [limits, Instr.wf]
theorem channelFreeze (c : Nat) (cause : Nat) (f : FrzCmd) : Statement (.channelFreeze c cause f) := by
  intro h; simp_all [limits, Instr.wf]
theorem mergeBufferTimeout (c : Nat) (u : Nat) (addr : Nat) (e : ArrErr) (fd : Finds) : Statement (.mergeBufferTimeout c u addr e fd) := by
  intro h; simp_all [limits, Instr.wf]
theorem pasrSet (h : CmdHdr) (mask : BitVec 8) : Statement (.pasrSet h mask) := by
  intro h; simp_all [limits, Instr.wf, CmdHdr.wf]
theorem chThaw (h : CmdHdr) (kind : BitVec 8) (ch : BitVec 8) : Statement (.chThaw h kind ch) := by
  intro h; simp_all [limits, Instr.wf, CmdHdr.wf]
theorem chRetrain (h : CmdHdr) (kind : BitVec 8) (ch : BitVec 8) : Statement (.chRetrain h kind ch) := by
  intro h; simp_all [limits, Instr.wf, CmdHdr.wf]
theorem chRawRead (h : CmdHdr) (kind : BitVec 8) (ch : BitVec 8) (addr : Word) (count : BitVec 16) : Statement (.chRawRead h kind ch addr count) := by
  intro h; simp_all [limits, Instr.wf, CmdHdr.wf]
theorem chRawWrite (h : CmdHdr) (kind : BitVec 8) (ch : BitVec 8) (addr : Word) (data : Line) : Statement (.chRawWrite h kind ch addr data) := by
  intro h; simp_all [limits, Instr.wf, CmdHdr.wf]
theorem porterFetch (p : Nat) (ue : List Nat) (fd : Finds) : Statement (.porterFetch p ue fd) := by
  intro h; simp_all [limits, Instr.wf]
theorem porterActivate (p : Nat) : Statement (.porterActivate p) := by
  intro h; simp_all [limits, Instr.wf]
theorem pieceIssue (p : Nat) (fd : Finds) : Statement (.pieceIssue p fd) := by
  intro h; simp_all [limits, Instr.wf]
theorem pieceResponse (p : Nat) (pid : Nat) : Statement (.pieceResponse p pid) := by
  intro h; simp_all [limits, Instr.wf]
theorem recordRetry (p : Nat) : Statement (.recordRetry p) := by
  intro h; simp_all [limits, Instr.wf]
theorem queuePut (src : Nat) (tq : Nat) (porter : Nat) (seq : Nat) (cell : Line) : Statement (.queuePut src tq porter seq cell) := by
  intro h; simp_all [limits, Instr.wf]
theorem putAnswer (src : Nat) (porter : Nat) (seq : Nat) (status : Word) : Statement (.putAnswer src porter seq status) := by
  intro h; simp_all [limits, Instr.wf]
theorem notifyRetry (p : Nat) (seq : Nat) : Statement (.notifyRetry p seq) := by
  intro h; simp_all [limits, Instr.wf]
theorem abortOne (link : Nat) (p : Nat) (seq : BitVec 32) : Statement (.abortOne link p seq) := by
  intro h; simp_all [limits, Instr.wf]
theorem abortAll (link : Nat) (p : Nat) : Statement (.abortAll link p) := by
  intro h; simp_all [limits, Instr.wf]
theorem resume (link : Nat) (p : Nat) : Statement (.resume link p) := by
  intro h; simp_all [limits, Instr.wf]
theorem porterDisable (link : Nat) (p : Nat) : Statement (.porterDisable link p) := by
  intro h; simp_all [limits, Instr.wf]
theorem enqueue (ue : List Nat) (qs : List Nat) (fd : Finds) : Statement (.enqueue ue qs fd) := by
  intro _ p h; exact absurd h (List.not_mem_nil)
theorem push (link : Nat) (k : Nat) (n : Nat) (size : Nat) : Statement (.push link k n size) := by
  intro h; simp_all [limits, Instr.wf]
theorem advance (link : Nat) (k : Nat) (adv : BitVec 7) (ue : List Nat) (fd : Finds) : Statement (.advance link k adv ue fd) := by
  intro h; simp_all [limits, Instr.wf]
theorem dropPacket (link : Nat) (k : Nat) (ue : List Nat) (fd : Finds) : Statement (.dropPacket link k ue fd) := by
  intro h; simp_all [limits, Instr.wf]
theorem queueFlush (link : Nat) (k : Nat) (ue : List Nat) (fd : Finds) : Statement (.queueFlush link k ue fd) := by
  intro h; simp_all [limits, Instr.wf]
theorem clear (link : Nat) (k : Nat) : Statement (.clear link k) := by
  intro h; simp_all [limits, Instr.wf]
theorem queueDisable (link : Nat) (q : Nat) : Statement (.queueDisable link q) := by
  intro h; simp_all [limits, Instr.wf]
theorem domainDownEntry (fd : Finds) : Statement (.domainDownEntry fd) := by
  intro _ p h; exact absurd h (List.not_mem_nil)
theorem pageCodeEnable (link : Nat) (r : Nat) : Statement (.pageCodeEnable link r) := by
  intro h; simp_all [limits, Instr.wf]
theorem pageCodeInitDone (r : Nat) : Statement (.pageCodeInitDone r) := by
  intro h; simp_all [limits, Instr.wf]
theorem arm (link : Nat) (v : Word) : Statement (.arm link v) := by
  intro h; simp_all [limits, Instr.wf]
theorem ppr (h : CmdHdr) (ch : BitVec 8) (sub : BitVec 8) (rank : BitVec 8) (bg : BitVec 8) (bank : BitVec 8) (row : BitVec 32) (kind : BitVec 8) : Statement (.ppr h ch sub rank bg bank row kind) := by
  intro h; simp_all [limits, Instr.wf, CmdHdr.wf]
theorem domReform (h : CmdHdr) : Statement (.domReform h) := by
  intro h; simp_all [limits, Instr.wf, CmdHdr.wf]
theorem ledgerRead (h : CmdHdr) (first : BitVec 16) (count : BitVec 16) : Statement (.ledgerRead h first count) := by
  intro h; simp_all [limits, Instr.wf, CmdHdr.wf]
theorem ledgerClear (h : CmdHdr) : Statement (.ledgerClear h) := by
  intro h; simp_all [limits, Instr.wf, CmdHdr.wf]
theorem partSetFlat (h : CmdHdr) (f : BitVec 8) : Statement (.partSetFlat h f) := by
  intro h; simp_all [limits, Instr.wf, CmdHdr.wf]
theorem cacheMode (h : CmdHdr) (m : BitVec 8) : Statement (.cacheMode h m) := by
  intro h; simp_all [limits, Instr.wf, CmdHdr.wf]
theorem rangeOp (h : CmdHdr) (op : BitVec 8) (flags : BitVec 8) (base : Word) (len : Word) : Statement (.rangeOp h op flags base len) := by
  intro h; simp_all [limits, Instr.wf, CmdHdr.wf]
theorem maintenanceLookup (n : Nat) (fd : Finds) : Statement (.maintenanceLookup n fd) := by
  intro h; simp_all [limits, Instr.wf]
theorem rangeOpComplete : Statement (.rangeOpComplete) := by
  intro _ p h; exact absurd h (List.not_mem_nil)
theorem unretire (h : CmdHdr) (slice : BitVec 8) (set : BitVec 32) (way : BitVec 8) : Statement (.unretire h slice set way) := by
  intro h; simp_all [limits, Instr.wf, CmdHdr.wf]
theorem identify (h : CmdHdr) : Statement (.identify h) := by
  intro h; simp_all [limits, Instr.wf, CmdHdr.wf]
theorem status (h : CmdHdr) : Statement (.status h) := by
  intro h; simp_all [limits, Instr.wf, CmdHdr.wf]
theorem setState (h : CmdHdr) (st : BitVec 8) : Statement (.setState h st) := by
  intro h; simp_all [limits, Instr.wf, CmdHdr.wf]
theorem fwInfo (h : CmdHdr) : Statement (.fwInfo h) := by
  intro h; simp_all [limits, Instr.wf, CmdHdr.wf]
theorem fwErase (h : CmdHdr) : Statement (.fwErase h) := by
  intro h; simp_all [limits, Instr.wf, CmdHdr.wf]
theorem fwWrite (h : CmdHdr) (off : BitVec 32) (bytes : List Byte) : Statement (.fwWrite h off bytes) := by
  intro h; simp_all [limits, Instr.wf, CmdHdr.wf]
theorem fwVerify (h : CmdHdr) : Statement (.fwVerify h) := by
  intro h; simp_all [limits, Instr.wf, CmdHdr.wf]
theorem fwActivate (h : CmdHdr) : Statement (.fwActivate h) := by
  intro h; simp_all [limits, Instr.wf, CmdHdr.wf]
theorem tallyRoute (h : CmdHdr) (entries : List (BitVec 8 × BitVec 8 × BitVec 16)) : Statement (.tallyRoute h entries) := by
  intro h; simp_all [limits, Instr.wf, CmdHdr.wf]
theorem traceSetup (h : CmdHdr) (f0 : Word) (f1 : Word) (f2 : Word) (cfg : Word) : Statement (.traceSetup h f0 f1 f2 cfg) := by
  intro h; simp_all [limits, Instr.wf, CmdHdr.wf]
theorem start (link : Nat) (u : Nat) (mask : BitVec 8) : Statement (.start link u mask) := by
  intro h; simp_all [limits, Instr.wf]
theorem stop (link : Nat) (u : Nat) (mask : BitVec 8) : Statement (.stop link u mask) := by
  intro h; simp_all [limits, Instr.wf]
theorem counterClear (link : Nat) (u : Nat) : Statement (.counterClear link u) := by
  intro h; simp_all [limits, Instr.wf]
theorem evselWrite (link : Nat) (u : Nat) (i : Nat) (evsel : BitVec 16) : Statement (.evselWrite link u i evsel) := by
  intro h; simp_all [limits, Instr.wf]
theorem routingDone (u : Nat) (i : Nat) : Statement (.routingDone u i) := by
  intro h; simp_all [limits, Instr.wf]
theorem capture (link : Nat) : Statement (.capture link) := by
  intro h; simp_all [limits, Instr.wf]
theorem boundClear (link : Nat) (port : Nat) : Statement (.boundClear link port) := by
  intro h; simp_all [limits, Instr.wf]
theorem bistRun (h : CmdHdr) (target : BitVec 8) (inst : BitVec 8) (pattern : BitVec 8) : Statement (.bistRun h target inst pattern) := by
  intro h; simp_all [limits, Instr.wf, CmdHdr.wf]
theorem bistComplete (result : Nat) (fails : Nat) (firstAddr : Nat) (arrays : List (Nat × Nat × Bool)) : Statement (.bistComplete result fails firstAddr arrays) := by
  intro h; simp_all [limits, Instr.wf]
theorem repairStatus (h : CmdHdr) : Statement (.repairStatus h) := by
  intro h; simp_all [limits, Instr.wf, CmdHdr.wf]
theorem testLogicReset : Statement (.testLogicReset) := by
  intro _ p h; exact absurd h (List.not_mem_nil)
theorem extest (tdi : BitVec 2400) : Statement (.extest tdi) := by
  intro _ p h; exact absurd h (List.not_mem_nil)
theorem idcode : Statement (.idcode) := by
  intro _ p h; exact absurd h (List.not_mem_nil)
theorem samplePreload (tdi : BitVec 2400) : Statement (.samplePreload tdi) := by
  intro _ p h; exact absurd h (List.not_mem_nil)
theorem extestPulse (tdi : BitVec 2400) : Statement (.extestPulse tdi) := by
  intro _ p h; exact absurd h (List.not_mem_nil)
theorem extestTrain (tdi : BitVec 2400) : Statement (.extestTrain tdi) := by
  intro _ p h; exact absurd h (List.not_mem_nil)
theorem clamp : Statement (.clamp) := by
  intro _ p h; exact absurd h (List.not_mem_nil)
theorem highz : Statement (.highz) := by
  intro _ p h; exact absurd h (List.not_mem_nil)
theorem repairScan : Statement (.repairScan) := by
  intro _ p h; exact absurd h (List.not_mem_nil)
theorem bypass (code : BitVec 8) : Statement (.bypass code) := by
  intro _ p h; exact absurd h (List.not_mem_nil)
theorem mtMarkMissing : Statement (.mtMarkMissing) := by
  intro _ p h; exact absurd h (List.not_mem_nil)
theorem neighbourStampTimeout : Statement (.neighbourStampTimeout) := by
  intro _ p h; exact absurd h (List.not_mem_nil)
theorem halfRateCatchUpEnd : Statement (.halfRateCatchUpEnd) := by
  intro _ p h; exact absurd h (List.not_mem_nil)
theorem laneLockLost (p : Nat) : Statement (.laneLockLost p) := by
  intro h; simp_all [limits, Instr.wf]
theorem railsInRange : Statement (.railsInRange) := by
  intro _ p h; exact absurd h (List.not_mem_nil)
theorem hostLinkUp (link : Nat) (rate : Nat) (width : Nat) (ide : Bool) (flitLo : Bool) : Statement (.hostLinkUp link rate width ide flitLo) := by
  intro h; simp_all [limits, Instr.wf]
theorem memoryReadDone (tok : Nat) (fd : Finds) : Statement (.memoryReadDone tok fd) := by
  intro _ p h; exact absurd h (List.not_mem_nil)
theorem badOpcodeCommand (h : CmdHdr) (op : BitVec 16) (params : List Byte) : Statement (.badOpcodeCommand h op params) := by
  intro h; simp_all [limits, Instr.wf, CmdHdr.wf]
theorem tallyLowHalfRead (link : Nat) (off : Nat) : Statement (.tallyLowHalfRead link off) := by
  intro h; simp_all [limits, Instr.wf]
theorem domainFailNoticeResend : Statement (.domainFailNoticeResend) := by
  intro _ p h; exact absurd h (List.not_mem_nil)
theorem channelTrainingComplete (c : Nat) (ok : Bool) : Statement (.channelTrainingComplete c ok) := by
  intro h; simp_all [limits, Instr.wf]

end Sys2Proof.Laws.Operands
end

