-- ==== Sys2Proof/Laws/Tick.lean ====
section
/-! SUPPORT. For each operation of Machine/Tick.lean one lemma: which pieces of the state it can change, and that it keeps the
invariant of Safety.lean. -/

set_option Elab.async false

namespace Sys2Proof.Machine

theorem State.devLost_within (s : State) :
    Within { boot := true, trcCfg := true, irq := true, chans := true, bisnps := true, links := true, pba := true, hreqs := true, rtrTx := true, dom := true, ledger := true, mgtq := true, mgt := true, events := true, trc := true, outs := true } s (State.devLost s) := by
  unfold State.devLost
  extract_lets +onlyGivenNames x
  extract_lets +onlyGivenNames x
  refine Within.cut (x := x) ?_ ?_ <;> [(unfold x; clear x); (obtain ⟨y, e⟩ := named x; rewrite [← e]; clear e x; intro _)]
  · refine Within.app (State.voidAll_within _) rfl ?_
    with_reducible (apply Within.upd <;> try first | exact .inl rfl | exact .inr rfl | exact id | assumption | exact Within.refl _ _)
    with_reducible refine BootI.of ?_ <;> try exact id
  refine Within.app (State.clerkRestart_within _ _) rfl ?_
  refine Within.app (State.signalAll_within _ _) rfl ?_
  assumption

theorem State.layoutLost_within (s : State) (a1) :
    Within { boot := true, trcCfg := true, irq := true, mode := true, links := true, pba := true, hreqs := true, rtrTx := true, dom := true, ledger := true, mgtq := true, mgt := true, events := true, trc := true, outs := true } s (State.layoutLost s a1) := by
  unfold State.layoutLost
  extract_lets +onlyGivenNames x
  refine Within.cut (x := x) ?_ ?_ <;> [(unfold x; clear x); (obtain ⟨y, e⟩ := named x; rewrite [← e]; clear e x; intro _)]
  · split
    · refine Within.app (State.cmdEnd_within _ _ _ _) rfl ?_
      exact Within.refl _ _
    exact Within.refl _ _
  extract_lets +onlyGivenNames x
  extract_lets +onlyGivenNames x
  refine Within.cut (x := x) ?_ ?_ <;> [(unfold x; clear x); (obtain ⟨y, e⟩ := named x; rewrite [← e]; clear e x; intro _)]
  · with_reducible (apply Within.upd <;> try first | exact .inl rfl | exact .inr rfl | exact id | assumption | exact Within.refl _ _)
    · with_reducible refine MgtI.of ?_ ?_ ?_ ?_ <;> try exact id
    exact fun _ => (by decide)
  extract_lets +onlyGivenNames x
  extract_lets +onlyGivenNames x
  refine Within.cut (x := x) ?_ ?_ <;> [(unfold x; clear x); (obtain ⟨y, e⟩ := named x; rewrite [← e]; clear e x; intro _)]
  · refine Within.ite ?_ ?_
    · assumption
    refine Within.app (State.signalAll_within _ _) rfl ?_
    refine Within.app (State.voidAll_within _) rfl ?_
    with_reducible (apply Within.upd <;> try first | exact .inl rfl | exact .inr rfl | exact id | assumption | exact Within.refl _ _)
    with_reducible refine BootI.of ?_ <;> try exact id
  refine Within.app (State.fatal_within _ _ _) rfl ?_
  assumption

theorem State.schLost_within (s : State) (a1) :
    Within { free := true, mtu := true } s (State.schLost s a1) := by
  unfold State.schLost
  extract_lets +onlyGivenNames x
  clear_value x
  with_reducible (apply Within.upd <;> try first | exact .inl rfl | exact .inr rfl | exact id | assumption | exact Within.refl _ _)
  extract_lets +onlyGivenNames x
  with_reducible refine MtuI.of ?_ <;> try exact id

theorem State.timeClock_within (s : State) :
    Within { clk := true, paused := true, mt := true, mtu := true, events := true } s (State.timeClock s) := by
  unfold State.timeClock
  extract_lets +onlyGivenNames x
  clear_value x
  extract_lets +onlyGivenNames x
  refine Within.cut (x := x) ?_ ?_ <;> [(unfold x; clear x); (obtain ⟨y, e⟩ := named x; rewrite [← e]; clear e x; intro _)]
  · refine Within.app (State.mtClock_within _) rfl ?_
    with_reducible (apply Within.upd <;> try first | exact .inl rfl | exact .inr rfl | exact id | assumption | exact Within.refl _ _)
  refine Within.ite ?_ ?_
  · refine Within.app (State.event_within _ _ _ _) rfl ?_
    assumption
  assumption

theorem State.tmrUntold_within {m : Mask} {s x : State} (word : Nat) {go : State → State}
    (w : Within m s x) (h : ∀ y, Within m y (go y)) : Within m s (x.tmrUntold word go) := by
  unfold State.tmrUntold
  exact w.trans (Within.ite (Within.refl _ _) (h _))

theorem State.tmrRead_within {m : Mask} {n : Nat} {s x : State} (unit word : Nat) (t : Tmr n) {put : State → Tmr n → State}
    {lost : State → State} (hm : Mask.le { trcCfg := true, irq := true, pba := true, ledger := true, events := true, trc := true, outs := true } m = true) (w : Within m s x) (hp : ∀ y t, Within m y (put y t))
    (hl : ∀ y, Within m y (lost y)) : Within m s (x.tmrRead unit word t put lost) := by
  unfold State.tmrRead
  refine w.trans (Within.ite (Within.refl _ _) ?_)
  have hr (k : Nat) : Within m x (x.rec_ k unit 0xFFFF 0 word) := Within.app (State.rec__within x _ _ _ _ _) hm (Within.refl _ _)
  split
  · exact (hr _).trans (hp _ _)
  · exact (hr _).trans (hl _)

theorem State.tmrOnce_within {m : Mask} {s x : State} (word : Nat) {go : State → State} (hm : Mask.le { ras := true } m = true)
    (w : Within m s x) (h : ∀ y, Within m y (go y)) : Within m s (x.tmrOnce word go) := by
  unfold State.tmrOnce
  refine w.trans (Within.ite (Within.refl _ _) ?_)
  refine Within.trans (Within.mono (a := { ras := true }) hm ?_) (h _)
  with_reducible (apply Within.upd <;> try first | exact .inl rfl | exact .inr rfl | exact id | assumption | exact Within.refl _ _)
  extract_lets +onlyGivenNames x
  with_reducible refine RasI.of ?_ ?_ <;> try exact id

theorem State.tmrClock_within (s : State) :
    Within { free := true, finds := true, due := true, boot := true, node := true, trcCfg := true, msix := true, irq := true, glbPart := true, glbHouse := true, mode := true, slices := true, banks := true, chans := true, far := true, near := true, memIo := true, hsf := true, bisnps := true, links := true, pba := true, hreqs := true, accs := true, lse := true, fnc := true, xlts := true, xinv := true, rtrTx := true, dom := true, mtu := true, pors := true, ledger := true, bkt := true, flip := true, ras := true, mgtq := true, mgt := true, events := true, trc := true, outs := true } s (State.tmrClock s) := by
  unfold State.tmrClock
  extract_lets +onlyGivenNames x
  refine Within.cut (x := x) ?_ ?_ <;> [(unfold x; clear x); (obtain ⟨y, e⟩ := named x; rewrite [← e]; clear e x; intro _)]
  · refine State.tmrUntold_within _ ?_ (fun _ => ?_)
    · exact Within.refl _ _
    refine State.tmrRead_within _ _ _ rfl ?_ (fun _ _ => ?_) (fun _ => ?_)
    · exact Within.refl _ _
    · with_reducible (apply Within.upd <;> try first | exact .inl rfl | exact .inr rfl | exact id | assumption | exact Within.refl _ _)
    refine State.tmrOnce_within _ rfl ?_ (fun _ => ?_)
    · exact Within.refl _ _
    refine Within.app (State.fatal_within _ _ _) rfl ?_
    exact Within.refl _ _
  extract_lets +onlyGivenNames x
  refine Within.cut (x := x) ?_ ?_ <;> [(unfold x; clear x); (obtain ⟨y, e⟩ := named x; rewrite [← e]; clear e x; intro _)]
  · refine State.tmrUntold_within _ ?_ (fun _ => ?_)
    · assumption
    refine State.tmrRead_within _ _ _ rfl ?_ (fun _ _ => ?_) (fun _ => ?_)
    · exact Within.refl _ _
    · with_reducible (apply Within.upd <;> try first | exact .inl rfl | exact .inr rfl | exact id | assumption | exact Within.refl _ _)
    refine State.tmrOnce_within _ rfl ?_ (fun _ => ?_)
    · exact Within.refl _ _
    refine Within.app (State.fatal_within _ _ _) rfl ?_
    exact Within.refl _ _
  extract_lets +onlyGivenNames x
  refine Within.cut (x := x) ?_ ?_ <;> [(unfold x; clear x); (obtain ⟨y, e⟩ := named x; rewrite [← e]; clear e x; intro _)]
  · refine State.tmrUntold_within _ ?_ (fun _ => ?_)
    · assumption
    refine State.tmrRead_within _ _ _ rfl ?_ (fun _ _ => ?_) (fun _ => ?_)
    · exact Within.refl _ _
    · with_reducible (apply Within.upd <;> try first | exact .inl rfl | exact .inr rfl | exact id | assumption | exact Within.refl _ _)
    refine State.tmrOnce_within _ rfl ?_ (fun _ => ?_)
    · exact Within.refl _ _
    refine Within.app (State.layoutLost_within _ _) rfl ?_
    exact Within.refl _ _
  extract_lets +onlyGivenNames x
  refine Within.cut (x := x) ?_ ?_ <;> [(unfold x; clear x); (obtain ⟨y, e⟩ := named x; rewrite [← e]; clear e x; intro _)]
  · refine State.tmrUntold_within _ ?_ (fun _ => ?_)
    · assumption
    refine State.tmrRead_within _ _ _ rfl ?_ (fun _ _ => ?_) (fun _ => ?_)
    · exact Within.refl _ _
    · with_reducible (apply Within.upd <;> try first | exact .inl rfl | exact .inr rfl | exact id | assumption | exact Within.refl _ _)
    refine State.tmrOnce_within _ rfl ?_ (fun _ => ?_)
    · exact Within.refl _ _
    refine Within.app (State.layoutLost_within _ _) rfl ?_
    exact Within.refl _ _
  extract_lets +onlyGivenNames x
  refine Within.cut (x := x) ?_ ?_ <;> [(unfold x; clear x); (obtain ⟨y, e⟩ := named x; rewrite [← e]; clear e x; intro _)]
  · refine State.tmrRead_within _ _ _ rfl ?_ (fun _ _ => ?_) (fun _ => ?_)
    · assumption
    · with_reducible (apply Within.upd <;> try first | exact .inl rfl | exact .inr rfl | exact id | assumption | exact Within.refl _ _)
      extract_lets +onlyGivenNames x
      with_reducible refine BootI.of ?_ <;> try exact id
    refine Within.app (State.devLost_within _) rfl ?_
    exact Within.refl _ _
  extract_lets +onlyGivenNames x
  refine Within.cut (x := x) ?_ ?_ <;> [(unfold x; clear x); (obtain ⟨y, e⟩ := named x; rewrite [← e]; clear e x; intro _)]
  · refine Within.foldl (fun _ _ => ?_) ?_
    · refine State.tmrRead_within _ _ _ rfl ?_ (fun _ _ => ?_) (fun _ => ?_)
      · exact Within.refl _ _
      · with_reducible (apply Within.upd <;> try first | exact .inl rfl | exact .inr rfl | exact id | assumption | exact Within.refl _ _)
        extract_lets +onlyGivenNames x
        with_reducible refine MtuI.of ?_ <;> try exact id
      refine Within.app (State.schLost_within _ _) rfl ?_
      exact Within.refl _ _
    assumption
  refine Within.foldl (fun _ _ => ?_) ?_
  · refine State.tmrRead_within _ _ _ rfl ?_ (fun _ _ => ?_) (fun _ => ?_)
    · exact Within.refl _ _
    · refine Within.app (State.modLink_within _ _ _) rfl ?_
      exact Within.refl _ _
    refine Within.app (State.hotReset_within _ _) rfl ?_
    exact Within.refl _ _
  assumption

theorem tick_within (s : State) :
    Within { clk := true, paused := true, free := true, due := true, boot := true, node := true, csr := true, trcCfg := true, msix := true, irq := true, glbPart := true, glbHouse := true, mode := true, slices := true, banks := true, chans := true, far := true, near := true, memIo := true, memCfg := true, hsf := true, bisnps := true, links := true, pba := true, hreqs := true, accs := true, lse := true, fnc := true, xlts := true, xinv := true, ports := true, rtrTx := true, rtrUn := true, dom := true, mt := true, mtu := true, pors := true, qmg := true, ledger := true, bkt := true, flip := true, ras := true, flash := true, mgtq := true, mgt := true, tlys := true, events := true, trc := true, outs := true } s (tick s) := by
  unfold tick
  refine Within.ite ?_ ?_
  · exact Within.refl _ _
  refine State.noFinds_within ?_ (fun _ => ?_)
  · exact Within.refl _ _
  extract_lets +onlyGivenNames x
  refine Within.cut (x := x) ?_ ?_ <;> [(unfold x; clear x); (obtain ⟨y, e⟩ := named x; rewrite [← e]; clear e x; intro _)]
  · refine Within.app (State.scrubClock_within _) rfl ?_
    refine Within.app (State.stateDue_within _) rfl ?_
    refine Within.app (State.pasrPump_within _) rfl ?_
    refine Within.app (State.runEnds_within _) rfl ?_
    refine Within.app (State.joinEnd_within _) rfl ?_
    refine Within.app (State.fncClock_within _) rfl ?_
    refine Within.app (State.portClock_within _) rfl ?_
    refine Within.app (State.tmrClock_within _) rfl ?_
    refine Within.app (State.fatalsDue_within _) rfl ?_
    refine Within.app (State.houseSettle_within _) rfl ?_
    refine Within.app (State.timeClock_within _) rfl ?_
    refine Within.app (State.leakClock_within _) rfl ?_
    exact Within.refl _ _
  extract_lets +onlyGivenNames x
  refine Within.cut (x := x) ?_ ?_ <;> [(unfold x; clear x); (obtain ⟨y, e⟩ := named x; rewrite [← e]; clear e x; intro _)]
  · refine Within.foldl (fun _ _ => ?_) ?_
    · split
      refine Within.app (State.tcStep_within _ _) rfl ?_
      exact Within.refl _ _
    assumption
  refine Within.app (State.tallyClock_within _) rfl ?_
  refine Within.app (State.routesDue_within _) rfl ?_
  refine Within.app (State.mgtPump_within _) rfl ?_
  assumption

end Sys2Proof.Machine
end

