-- ==== Sys2Proof/Tests/Slice0.lean ====
section
/-! SUPPORT. Tests: ill-formed commands that WellFormed refuses, worked examples of the spec, and a state that meets the hypotheses of each
statement. -/

namespace Sys2Proof.Tests
open Sys2Proof.Machine

-- One theorem at a time: proofs evaluated by the kernel wait for all earlier ones, and would each hold a thread while they wait.
set_option Elab.async false

/-- An F144 in SERVICE with link 0 up, node 5 of domain 0 alone, every channel trained, clerks running. -/
def up : State :=
  { State.reset with
    boot := { level := 3, step := 6, dev := Tmr.of 1, nodeSet := true, fwRom := false }
    node := Tmr.of 5
    links := [(0, { up := true, rate := 4, width := 16, credits := Tmr.of 0 })]
    mtu := { sch := schReset, lock := 3, mt := 4096000 }
    rtr := { enabled := true } }

/-! StepRunsFrontCommand -/

theorem wit_StepRunsFrontCommand : ∃ (c : Instr) (rest : List Instr) (s : State), s.pending = c :: rest :=
  ⟨.powerGoodFall, [.mtRefLost], { State.reset with pending := [.powerGoodFall, .mtRefLost] }, rfl⟩

/-! IdleStepIsOneCoreClock -/

theorem wit_IdleStepIsOneCoreClock : State.reset.pending = [] ∧ State.reset.powered = true ∧ State.reset.mtu.hold = none ∧
    State.reset.mtu.half = none ∧ State.reset.mtu.steer = none ∧ ({ State.reset with pcr := { stopped := true } } : State).powered = false := by
  decide

/-! EveryStepKeepsTheInvariant -/

theorem wit_EveryStepKeepsTheInvariant : StateInv State.reset ∧ step State.reset = .next (tick State.reset) :=
  ⟨by constructor <;> decide, rfl⟩

/-! Resets -/

theorem wit_Resets_cold : ({ State.reset with pcr := { pwrGood := false } } : State).pcr.pwrGood = false ∧ State.reset.pcr.pwrGood = true := by
  decide
theorem wit_Resets_warm : State.reset.powered = true ∧ State.reset.pcr.resetLow = false ∧ up.linkOn 0 = true ∧
    ({ State.reset with pcr := { resetLow := true } } : State).pcr.resetLow = true := by
  decide

/-! BringupSteps -/

def inStep (k : Nat) : State := { State.reset with boot := { step := k } }

theorem wit_BringupSteps_steps : (inStep 1).inStep 1 = true ∧ (inStep 2).inStep 2 = true ∧ (inStep 2).boot.stopAt ≠ 0 ∧
    (inStep 3).inStep 3 = true ∧ (inStep 3).boot.stopAt = 3 ∧
    chanPopGood { density := 0, dimms := 1, ranksPerDimm := 1, partNo := 0, x4 := true } = true ∧ (inStep 4).inStep 4 = true ∧
    (inStep 4).boot.stopAt = 3 ∧ ({ inStep 5 with boot := { step := 5, nodeSet := true } } : State).inStep 5 = true ∧
    State.reset.boot.nodeSet = false := by
  decide

/-! BringupPausesAndResumes -/

theorem wit_BringupPausesAndResumes :
    (let s : State := { State.reset with boot := { step := 2, paused := true, stopAt := 0 } }
     s.live = true ∧ s.boot.stopAt < 3 ∧ s.boot.step ≠ 3 ∧ s.boot.level < (3 : BitVec 2).toNat) ∧
    State.reset.pcr.pwrGood = true ∧ ({ State.reset with pcr := { railHold := true } } : State).pcr.railHold = true ∧
    hasSensor State.reset.part 19 = true ∧ (inStep 2).clerksOn = true := by
  decide

/-! HostRequestIsAccepted -/

theorem wit_HostRequestIsAccepted : ∃ s : State, s.linkOn 0 = true ∧ (s.link 0).reqCr = 5 ∧ (s.link 0).rwdCr = 1 ∧ s.linkOn 1 = false ∧
    2 ≤ s.boot.level ∧ s.boot.withdrawn = false ∧ s.decode 0 0x1000 = some (0, 0x1000) ∧ 0x1000 < s.winSize 0 0 ∧
    s.decode 0 (2 ^ 50) = none :=
  ⟨{ up with mem := { popSet := true },
             links := [(0, { up := true, credits := Tmr.of 69, dec0 := { committed := true, size := 2 ^ 38 } })] }, by decide⟩

/-! HostDecodersAndLinks -/

theorem wit_HostDecodersAndLinks : ∃ s : State, s.linkOn 0 = true ∧ s.decGood 0 0 0 (2 ^ 28) 0 0 = true ∧
    s.decGood 0 0 1 (2 ^ 28) 0 0 = false ∧ (s.link 0).ide = true ∧ (s.link 2).ide = false ∧ s.live = true ∧
    s.linkExists 2 = true ∧ (s.link 2).up = false ∧ ∀ b ∈ s.bisnps, b.link ≠ 0 :=
  ⟨{ up with mem := { popSet := true }, links := [(0, { up := true, ide := true })] }, by decide⟩

/-! HostDeadlineAndAnswers -/

theorem wit_HostDeadlineAndAnswers_credit : up.linkOn 0 = true ∧ (up.link 0).reqCr ≤ 48 ∧ (up.link 0).rwdCr ≤ 32 ∧
    (∀ n < 64, (up.slice n).demand < up.sliceGate 0) ∧ (if up.locked then up.inPause else up.mtu.inLull) = false ∧ (up.link 0).creditClk ≠ up.clk + 1 ∧
    (up.link 0).reqCr < up.floatOf 0 (up.reqFloat 0) := by
  decide +kernel
theorem wit_HostDeadlineAndAnswers : ∃ (s : State) (r w y : HostReq) (b c : BiSnp), s.powered = true ∧ s.hreq 1 = some r ∧
    r.mute = false ∧ 24000 ≤ s.clk - r.t0 ∧ r.ph ≠ .acquire ∧ r.req.op ≠ .write ∧ s.hreq 2 = some w ∧ w.mute = false ∧
    24000 ≤ s.clk - w.t0 ∧ w.req.op = .write ∧ s.hreq 3 = some y ∧ s.clk - y.t0 < 24000 ∧
    s.bisnps.find? (fun x => x.id == 0) = some b ∧ b.flat = true ∧ 24000 ≤ s.clk - b.t0 ∧
    s.bisnps.find? (fun x => x.id == 1) = some c ∧ s.clk - c.t0 < 24000 ∧ s.bisnps.find? (fun x => x.id == 2) = none :=
  ⟨{ up with clk := 24001,
             hreqs := [{ rid := 1, link := 0, req := { op := .read, dpa := 0 }, win := .loc, off := 0, ph := .slice, t0 := 1 },
                       { rid := 2, link := 0, req := { op := .write, dpa := 0 }, win := .loc, off := 0, ph := .slice, t0 := 1 },
                       { rid := 3, link := 0, req := { op := .read, dpa := 0 }, win := .loc, off := 0, ph := .slice, t0 := 2 }],
             bisnps := [{ id := 0, link := 0, key := 5, flat := true, inv := true, em := true, wait := .drop, t0 := 1 },
                        { id := 1, link := 0, key := 6, flat := true, inv := true, em := true, wait := .drop, t0 := 2 }] },
   _, _, _, _, _, rfl, rfl, rfl, by decide, by decide, by decide, rfl, rfl, by decide, rfl, rfl, by decide, rfl, rfl, by decide, rfl,
   by decide, rfl⟩

/-! PostedWriteBuffer -/

theorem wit_PostedWriteBuffer : ∃ (s : State) (h g : HostReq) (e y : PwbEnt), s.powered = true ∧ s.hreq 9 = some h ∧ h.ph = .pwbWait ∧
    h.req.op = .write ∧ h.ali ≠ 2 ∧ h.dev = false ∧ h.mute = false ∧ s.unreachable (laNode h.la) = false ∧
    (s.link 0).pwb.length < s.pwbSize 0 ∧ (∀ e ∈ (s.link 0).pwb, e.la ≠ h.la) ∧
    (∀ g ∈ s.hreqs, g.link = h.link → g.win = .glob → g.rid < h.rid → g.req.op = .write → g.ali = 2 ∨ g.dev = true) ∧
    (s.link 0).nextPwb = some e ∧ s.inPause = false ∧ s.strongBefore 0 e.rid = false ∧ 8 * beatClks ≤ s.ran e.t0 e.paused0 ∧
    (s.link 0).pwb.find? (fun p => p.seq == 3 && !p.performed) = some e ∧ laNode e.la ≠ s.nodeNo ∧ (s.slice (sliceOf e.la)).mrs = [] ∧ (s.slice (sliceOf e.la)).vbs = [] ∧
    (s.link 0).pwb.find? (fun p => p.seq == 4 && !p.performed) = some y ∧ s.ran y.t0 y.paused0 < 8 * beatClks ∧
    s.hreq 5 = some g ∧ g.resp = some (7, false, 0) ∧ g.ph = .acquire ∧ g.mute = false ∧ g.advTicket ≤ s.lse.dblDone ∧
    ({ s with mtu := { inLull := true } } : State).inPause = true ∧ ({ s with lse := { dblDone := 0 } } : State).lse.dblDone < g.advTicket :=
  ⟨{ up with clk := 16385, lse := { dblDone := 1 },
             links := [(0, { up := true, pwb := [{ seq := 3, rid := 3, la := 6 * 2 ^ 36, data := 1, be := 1, t0 := 1, paused0 := 0 },
                                                 { seq := 4, rid := 4, la := 6 * 2 ^ 36 + 1, data := 1, be := 1, t0 := 9, paused0 := 0 }] })],
             hreqs := [{ rid := 5, link := 0, req := { op := .read, dpa := 0 }, win := .glob, off := 0, ali := 1, la := 5 * 2 ^ 36,
                         ph := .acquire, t0 := 1, resp := some (7, false, 0), advTicket := 1 },
                       { rid := 9, link := 0, req := { op := .write, dpa := 0 }, win := .glob, off := 0, la := 5 * 2 ^ 36,
                         ph := .pwbWait, t0 := 1 }] },
   _, _, _, _, rfl, rfl, rfl, rfl, by decide, rfl, rfl, by decide, by decide, by decide, by decide, rfl, rfl, by decide, by decide, rfl,
   by decide, by decide, by decide, rfl, by decide, rfl, rfl, rfl, rfl, by decide, by decide, by decide⟩

/-! RegisterAccess -/

theorem wit_RegisterAccess : up.linkOn 0 = true ∧ up.linkOn 1 = false ∧ up.devState = 1 ∧
    ({ up with boot := {} } : State).linkOn 0 = true ∧ ({ up with boot := {} } : State).devState ≠ 1 ∧
    ¬ ((3 = 4 ∨ 3 = 8) ∧ 0 % 3 = 0) ∧ ({ up with part := .s72 } : State).linkOn 0 = true ∧
    ({ up with part := .s72 } : State).part.hostPorts ≤ 2 ∧ ({ up with part := .s72 } : State).part.fabricPorts ≤ 8 ∧
    ({ up with part := .s72 } : State).part.porters ≤ 16 ∧ ({ up with part := .s72 } : State).part.xltPresent 2 = false ∧
    offSlc 63 0 < 0x800000 := by
  decide

/-! TagPipelineLookups -/

/-- A slice input that holds a host's read of line 0 of node 5, and what waits behind it. -/
def rdReq : Req := { src := .host 1, kind := .read, la := 5 * 2 ^ 36 }
def rdHost : HostReq := { rid := 1, link := 0, req := { op := .read, dpa := 0 }, win := .loc, off := 0, ph := .slice, t0 := 0 }
def rdState (x : Slice) : State := { up with slices := [(0, { x with inq := [rdReq, rdReq] })], hreqs := [rdHost] }
def rdBlk : TagBlk := { ways := { tag := tagOf .f144 (5 * 2 ^ 36), st := stS } :: List.replicate 13 {} }
def rdMr (k : Nat) : Mr := { idx := 3, la := 5 * 2 ^ 36, prim := rdReq, secs := List.replicate k rdReq, st := .sent }

theorem wit_TagPipelineLookups_order : (((rdState {}).slice 0).inq[1]? = some rdReq) ∧
    (∃ q ∈ ((rdState {}).slice 0).inq.take 1, q.la = rdReq.la ∧ q.flat = rdReq.flat) := by decide +kernel
theorem wit_TagPipelineLookups_secondary : ∀ k ∈ [7, 8], (rdState { mrs := [rdMr k] }).sliceOn 0 = true ∧
    ((rdState { mrs := [rdMr k] }).slice 0).inq[0]? = some rdReq ∧ rdReq.flat = false ∧ rdReq.kind ≠ .prefetch ∧
    (rdState { mrs := [rdMr k] }).refusedHere 0 = false ∧ (rdMr k).full = false ∧ (rdState { mrs := [rdMr k] }).ras.latent = [] ∧
    ((rdState { mrs := [rdMr k] }).slice 0).mrs.find? (fun x => x.la == rdReq.la) = some (rdMr k) ∧
    ({ rdState {} with mode := 2 } : State).sliceOn 0 = true := by decide +kernel
theorem wit_TagPipelineLookups_block : (rdState {}).sliceOn 0 = true ∧ (rdState {}).mode = 0 ∧ (rdState {}).tccEn 0 = true ∧
    ((rdState {}).slice 0).tcFind (rowOf .f144 (setOf .f144 rdReq.la)) = none ∧
    ((rdState {}).tcAlloc 0 (rowOf .f144 (setOf .f144 rdReq.la))).isSome = true ∧
    ({ rdState {} with csr := [(offSlc 0 8, 1)] } : State).tccEn 0 = false ∧ rdReq.tb = none := by decide +kernel
theorem wit_TagPipelineLookups_hit : ∃ x : Slice, (rdState x).sliceOn 0 = true ∧ ((rdState x).slice 0).inq[0]? = some rdReq ∧
    (rdState x).refusedHere 0 = false ∧ (rdState x).tccEn 0 = true ∧
    ((rdState x).slice 0).tcFind (rowOf .f144 (setOf .f144 rdReq.la)) =
      some (rowOf .f144 (setOf .f144 rdReq.la) % 2048 * 12, { row := rowOf .f144 (setOf .f144 rdReq.la), blk := rdBlk }) ∧
    (rdState x).classOf rdReq.la = .loc ∧ (rdState x).matchWay rdBlk rdReq.la = some 1 ∧ (rdBlk.get 1).st ∈ [stS, stE, stM, stO] ∧ (rdBlk.get 1).age ≠ 3 ∧
    ((rdState x).wayGet (setOf .f144 rdReq.la) 1).2 = false ∧ (rdState x).hsfCopies rdReq.la false = [] ∧
    (rdState x).biOpen rdReq.la false = false ∧ (rdState x).hreq 1 = some rdHost ∧ rdHost.win = .loc ∧ rdHost.mute = false :=
  ⟨{ tc := [(rowOf .f144 (setOf .f144 rdReq.la) % 2048 * 12, some { row := rowOf .f144 (setOf .f144 rdReq.la), blk := rdBlk })] },
   by decide +kernel⟩

/-! TagBlocksAndFills -/

def fillState (d : Bool) : State :=
  { rdState { mrs := [{ rdMr 0 with st := .answered, grant := 1, data := some (7, d) }] } with mem := { tags := [] } }
theorem wit_TagBlocksAndFills_fill : (fillState false).sliceOn 0 = true ∧
    (fillState false).mr 0 3 = some { rdMr 0 with st := .answered, grant := 1, data := some (7, false) } ∧
    (fillState false).classOf rdReq.la = .loc ∧ fbit ((fillState false).alcOf 0 rdReq) 0 = true ∧ ((fillState false).slice 0).tc = [] ∧
    (fillState false).nearFrozen 0 = false ∧ (fillState false).hsfCopies rdReq.la rdReq.flat = [] ∧
    (fillState false).biOpen rdReq.la rdReq.flat = false ∧ (fillState false).findLine rdReq.la = none ∧ sliceOf rdReq.la = 0 ∧
    (∀ x ∈ ((fillState false).slice 0).waitSnoops, x.la ≠ rdReq.la) ∧
    tagError .f144 (setOf .f144 rdReq.la) ((fillState false).nearTags (setOf .f144 rdReq.la)) = false ∧
    ((fillState false).nearTags (setOf .f144 rdReq.la)).ways.length = 14 ∧
    (fillState false).victim 0 (setOf .f144 rdReq.la) = some 1 ∧
    (((fillState false).nearTags (setOf .f144 rdReq.la)).get 1).st = stI ∧ (fillState false).ras.arm = false ∧
    (fillState false).ras.latent = [] ∧ (fillState false).noInstall = false ∧
    (fillState true).mr 0 3 = some { rdMr 0 with st := .answered, grant := 1, data := some (7, true) } ∧
    (rdState { mrs := [rdMr 0] }).mr 0 3 = some (rdMr 0) ∧ (rdMr 0).st ≠ .answered ∧ (rdMr 0).st ≠ .hosts := by decide +kernel
theorem wit_TagBlocksAndFills_block : ∃ s : State, s.sliceOn 0 = true ∧ (s.slice 0).tbReads.contains 4 = true ∧
    (s.slice 0).tbReads.contains 5 = false ∧ (s.slice 0).tcFind 4 = some (48, { row := 4, pending := true }) ∧
    s.tccEn 0 = true ∧ s.nearFrozen 0 = false ∧ s.ras.latent = [] ∧ (∀ x ∈ (s.slice 0).waitSnoops, x.tag = false) ∧
    (∀ x ∈ (s.slice 0).trks, x.ph ≠ .tags) ∧ tagError s.part (setOfRow s.part 0 4) (s.nearTags (setOfRow s.part 0 4)) = false :=
  ⟨{ up with slices := [(0, { tbReads := [4], tc := [(48, some { row := 4, pending := true })] })] }, by decide +kernel⟩

/-! SliceMaintenanceRegisters -/

theorem wit_SliceMaintenanceRegisters : ∃ (s : State) (e : TcEnt), s.sliceOn 0 = true ∧ (s.slice 0).tcBusy = false ∧ s.devState = 1 ∧
    ({ s with boot := {} } : State).devState ≠ 1 ∧ (s.slice 2).tcBusy = true ∧ (s.slice 2).tcPos < 2048 ∧ 12 / 12 = (s.slice 2).tcPos ∧
    (s.slice 2).tc = [(12, some e)] ∧ e.pending = false ∧ e.ageDirty = true ∧ s.nearFull 2 (setOfRow s.part 2 e.row) = false ∧
    (s.slice 1).tcBusy = true ∧ 2048 ≤ (s.slice 1).tcPos ∧ (∀ u < 2, ∀ a ∈ (s.cunit (nmcOf s.part 1) u).hold, a.seq ∉ (s.slice 1).tcOut) ∧
    s.refusedHere 1 = false ∧ (s.slice 1).retireDue.contains (7, 3) = true ∧
    (s.slice 1).retireDue.contains (7, 4) = false ∧ s.stayWay 3 = true ∧ (s.slice 1).tc = [] ∧
    (s.nearTags 7).ways.length = 14 ∧ s.ras.latent = [] ∧ tagError s.part 7 (s.nearTags 7) = false ∧ s.nearFrozen 2 = false ∧ ((s.nearTags 7).get 3).st = stI ∧ s.otherFree (s.nearTags 7) 3 = true ∧
    s.otherFree { ways := List.replicate 2 { st := stX } ++ [{}] ++ List.replicate 11 { st := stX } } 3 = false :=
  ⟨{ up with slices := [(0, {}), (1, { tcBusy := true, tcPos := 2048, retireDue := [(7, 3)] }),
                        (2, { tcBusy := true, tcPos := 1, tc := [(12, some { row := 1, ageDirty := true })] })] },
   { row := 1, ageDirty := true }, by decide +kernel⟩

/-! HomeTakesPeerRequests -/

/-- A home in domain 0 as node 5 with members 1, 5 and 7, whose directory holds entry `e` for its line 0. -/
def homeState (e : DirEnt) : State :=
  { up with mem := { popSet := true }, dom := { st := 2, table := Tmr.of (BitVec.ofNat 136 (2 + 32 + 128)) },
            banks := [(0, { dc := [(1920, some { set := 120, way := 0, ent := e })] })] }
def homeMsg0 : CohMsg := { la := 5 * 2 ^ 36, tid := 9, req := 1 }
theorem homeState_ready (e : DirEnt) (h : e ∈ [({ st := 2, owner := 7 } : DirEnt), { st := 1, sharers := 130 }, { st := 1, sharers := 2 }]) :
    LineReady (homeState e) homeMsg0.la 0 0 e ∧ PeerUp (homeState e) 1 := by
  simp only [List.mem_cons, List.not_mem_nil, or_false] at h
  rcases h with rfl | rfl | rfl <;> exact ⟨by constructor <;> decide +kernel, by constructor <;> decide +kernel⟩
theorem wit_HomeTakesPeerRequests : homeMsg0.unc = false ∧ opndBad homeMsg0.opnd = false ∧ bitsOf (130 : BitVec 128) = [1, 7] ∧
    1 ∈ bitsOf (130 : BitVec 128) ∧ (bitsOf (130 : BitVec 128)).filter (· != 1 % 128) ≠ [] ∧ bitsOf (2 : BitVec 128) = [1 % 128] ∧
    (homeState { st := 1, sharers := 2 }).noHosts homeMsg0.la = true ∧ (homeState {}).powered = true ∧ (homeState {}).dom.st = 2 ∧
    (homeState {}).peerNode 2 = false ∧ (homeState {}).takenBy 1 opRDS homeMsg0 0 = 0 := by
  decide +kernel

/-! HomeTakesEvictionsAndRefusals -/

theorem wit_HomeTakesEvictionsAndRefusals : (homeState {}).inFar (5 * 2 ^ 36) = true ∧ (homeState {}).inFar (5 * 2 ^ 36 + 2 ^ 35) = false ∧
    laNode (5 * 2 ^ 36 + 2 ^ 35) = (homeState {}).nodeNo ∧ ({ st := 2, owner := 1 } : DirEnt).owner = 1 % 128 ∧
    (homeState { st := 2, owner := 1 }).trk (sliceOf homeMsg0.la) (htidRes (1 % 128) opWBD) = none ∧
    (homeState { st := 2, owner := 1 }).trk (sliceOf homeMsg0.la) (htidRes (1 % 128) opOFFER) = none ∧
    ({ homeState {} with dom := { st := 3 } } : State).dom.st = 3 := by
  decide +kernel
def trkOf (ph : HPh) : Trk := { htid := 55, la := homeMsg0.la, for_ := .peer 1 homeMsg0, ph := ph, ticketEnd := 4 }
def trkState (ph : HPh) (e : DirEnt) : State :=
  { homeState {} with
    slices := [(0, { trks := [trkOf ph] })],
    banks := [(0, { store := [(1920, e)] })] }
theorem wit_HomeTakesEvictionsAndRefusals_trackers : ∃ x y z : Trk, (trkState .reserved {}).trk 0 55 = some x ∧ x.ph = .reserved ∧
    x.ticketEnd ≤ (trkState .reserved {}).beat ∧ ({ trkState .reserved {} with mtu := {} } : State).beat < x.ticketEnd ∧
    ((trkState .dirRead { st := 2, owner := 7 }).bank 0).badSet (dirSetOf (trkState .dirRead {}).dirGib z.la) = false ∧
    ((trkState .dirRead { st := 5, owner := 7 }).bank 0).badSet (dirSetOf (trkState .dirRead {}).dirGib z.la) = true ∧
    (trkState .chained {}).openTrk 0 homeMsg0.la = none ∧
    ((trkState .chained {}).slice 0).trks.filter (fun y => y.la == homeMsg0.la && y.ph == .chained) = [y] ∧
    (trkState .chained {}).trk 0 y.htid = some y ∧ (trkState .dirRead {}).dom.downDue = false ∧
    (trkState .dirRead {}).tagWaits 0 (setOf .f144 homeMsg0.la) = false ∧
    ((trkState .dirRead {}).dirErrs 0 (dirSetOf (trkState .dirRead {}).dirGib homeMsg0.la) []).contains .ue = false ∧
    ((trkState .dirRead {}).dirErrs 0 (dirSetOf (trkState .dirRead {}).dirGib homeMsg0.la) [.ue]).contains .ue = true ∧
    ((trkState .chained {}).bank 0).lost = false ∧ ((trkState .chained {}).bank 0).dcHit (dirSetOf 6 homeMsg0.la) (laLocal homeMsg0.la) = none ∧
    (trkState .dirRead { st := 2, owner := 7 }).trk 0 55 = some z ∧ z.ph = .dirRead ∧ z.for_ = .peer 1 homeMsg0 ∧ homeMsg0.opc = opRDS ∧
    ((trkState .dirRead { st := 2, owner := 7 }).bank 0).hit (dirSetOf (trkState .dirRead {}).dirGib z.la) (laLocal z.la) = some 0 ∧
    ((trkState .dirRead { st := 2, owner := 7 }).bank 0).ent (dirSetOf (trkState .dirRead {}).dirGib z.la) 0 = { st := 2, owner := 7 } :=
  ⟨trkOf .reserved, trkOf .chained, trkOf .dirRead, by decide +kernel⟩

/-! SnoopsOfADevice -/

/-- A device, node 5, that holds line 0 of node 1 in M in way 1 of its set. -/
def heldLa : Nat := 1 * 2 ^ 36
def heldEnt : TagEnt := { tag := tagOf .f144 heldLa, st := Machine.stM }
def heldState (x : Slice) (b : Bool) : State :=
  { homeState {} with slices := [(sliceOf heldLa, x)],
                      mem := { tags := if b then [(setOf .f144 heldLa, { ways := heldEnt :: List.replicate 13 {} })] else [] } }
theorem heldState_held : HeldHere (heldState {} true) 1 heldLa 1 heldEnt := by
  constructor <;> first | decide +kernel | (constructor <;> decide +kernel)
theorem wit_SnoopsOfADevice : heldEnt.st = Machine.stM ∧ (heldState {} false).powered = true ∧ laNode heldLa = 1 ∧
    (heldState {} false).findLine heldLa = none ∧ laNode heldLa ≠ 7 ∧
    (∃ h ∈ ((heldState { holds := [{ la := heldLa, until_ := 1 }] } false).slice (sliceOf heldLa)).holds,
      h.la = heldLa ∧ (heldState { holds := [{ la := heldLa, until_ := 1 }] } false).clk < h.until_) ∧
    ((heldState { holds := [{ la := heldLa, until_ := 0, snoops := [(1, { la := heldLa })] }] } false).slice (sliceOf heldLa)).holds =
      [{ la := heldLa, until_ := 0, snoops := [(1, { la := heldLa })] }] := by
  decide +kernel
theorem heldState_apart : (heldState {} false).rowsApart (sliceOf heldLa) (setOf .f144 heldLa) := by
  intro k e h
  have : (heldState {} false).slice (sliceOf heldLa) = {} := by decide +kernel
  rw [this] at h; cases h
theorem wit_SnoopsOfADevice_peer : PeerUp (heldState {} false) 1 ∧ (heldState {} false).tagWaits (sliceOf heldLa) (setOf .f144 heldLa) = false ∧
    (heldState {} false).rowsApart (sliceOf heldLa) (setOf .f144 heldLa) :=
  ⟨by constructor <;> decide +kernel, by decide +kernel, heldState_apart⟩

/-! AnswersAtRequesterAndHome -/

/-- A device, node 5, whose only miss register waits for line 0 of node 1. -/
def waitMr : Mr := { idx := 3, la := heldLa, prim := { src := .piece 2 4, kind := .read, la := heldLa }, st := .sent, opc := opRDS, home := 1 }
def waitState (r : Mr) : State := { homeState {} with slices := [(sliceOf heldLa, { mrs := [r] })], pors := [(2, { pieces := [{ pid := 4, seq := 0, wr := false, at_ := 0, len := 64, lo := 0, va := 0 }] })] }
theorem waitState_only (b : Bool) : OnlyRegister (waitState { waitMr with isPf := b }) heldLa { waitMr with isPf := b } := by
  cases b <;> constructor <;> decide +kernel
theorem wit_AnswersAtRequesterAndHome : waitMr.opc ≠ opUPG ∧ waitMr.opc ∈ [opRDS, opRDX, opUPG, opATOM] ∧
    ((waitState waitMr).slice (sliceOf heldLa)).nextRef ≠ 0 ∧ waitMr.home = laNode heldLa ∧ waitMr.secs = [] ∧
    (waitState { waitMr with st := .refused, refSeq := 1 }).oldestRefused (sliceOf heldLa) 1 opRDS = some (1, .mr 3) ∧
    ({ waitMr with st := .refused, refSeq := 1 } : Mr).gapEnd ≤ (waitState waitMr).clk ∧ (waitState waitMr).clk < ({ waitMr with gapEnd := 9 } : Mr).gapEnd ∧
    (waitState waitMr).mr (sliceOf heldLa) 3 = some waitMr ∧ (waitState waitMr).classOf heldLa = .domRemote ∧ waitMr.prim.glob = false ∧
    (waitState waitMr).cohTimeout * 1024 ≤ (waitState waitMr).mtu.mt - waitMr.since ∧
    ({ waitState waitMr with mtu := {} } : State).mtu.mt - waitMr.since < (waitState waitMr).cohTimeout * 1024 := by
  decide +kernel
theorem wit_AnswersAtRequesterAndHome_home : ∃ (s : State) (v : Vb) (x y : Trk) (r : Mr), (s.slice (sliceOf heldLa)).vbs = [v] ∧ v.idx < 16 ∧
    v.la = heldLa ∧ v.sent = true ∧ v.action = 2 ∧ s.powered = true ∧ laNode heldLa ≠ s.nodeNo ∧
    s.trk (sliceOf homeMsg0.la) 3 = some x ∧ x.la = homeMsg0.la ∧ x.ph = .cnf ∧ x.for_ = .peer 1 homeMsg0 ∧ x.invWait = [] ∧
    x.fwdWait = none ∧ x.wbdDrop = none ∧ laNode homeMsg0.la = s.nodeNo ∧ s.trk 1 4 = some y ∧ y.la = homeMsg0.la + 1 ∧ sliceOf y.la = 1 ∧
    y.ph = .fwd ∧ y.offered = false ∧ (∀ v ∈ (s.slice 1).vbs, v.la ≠ y.la) ∧ y.for_ = .own r.idx ∧ s.mr 1 r.idx = some r ∧ r.prim.kind = .read ∧ y.fwdWait = some (1 % 128) ∧ y.dst = 2 ∧
    v.done = false ∧ v.refSeq = 0 ∧ s.noHosts heldLa = true :=
  ⟨{ homeState {} with
     slices := [(0, { vbs := [{ idx := 2, la := heldLa, data := 0, st := Machine.stM, sent := true, action := 2 }],
                      trks := [{ htid := 3, la := homeMsg0.la, for_ := .peer 1 homeMsg0, ph := .cnf }] }),
                (1, { trks := [{ htid := 4, la := homeMsg0.la + 1, for_ := .own 3, ph := .fwd, fwdWait := some 1, dst := 2, owner := 1 }],
                      mrs := [{ idx := 3, la := homeMsg0.la + 1, prim := { src := .prefetch, kind := .read, la := homeMsg0.la + 1 }, st := .home }] })] },
   { idx := 2, la := heldLa, data := 0, st := Machine.stM, sent := true, action := 2 },
   { htid := 3, la := homeMsg0.la, for_ := .peer 1 homeMsg0, ph := .cnf },
   { htid := 4, la := homeMsg0.la + 1, for_ := .own 3, ph := .fwd, fwdWait := some 1, dst := 2, owner := 1 },
   { idx := 3, la := homeMsg0.la + 1, prim := { src := .prefetch, kind := .read, la := homeMsg0.la + 1 }, st := .home }, by decide +kernel⟩

/-! GlobalAccesses -/

def globLa : Nat := 200 * 2 ^ 36
def globMr : Mr := { waitMr with la := globLa, prim := { src := .piece 2 4, kind := .write, la := globLa }, opc := opGWR, home := 200 }
def globState (x : Slice) : State := { waitState waitMr with slices := [(sliceOf globLa, x)] }
theorem globState_only : OnlyRegister (globState { mrs := [globMr] }) globLa globMr := by
  constructor <;> decide +kernel
def shEnt : DirEnt := { st := 1, sharers := 130 }
def shState : State :=
  { homeState shEnt with
    mem := { popSet := true, tags := [(setOf .f144 homeMsg0.la, { ways := { tag := tagOf .f144 homeMsg0.la, st := stS } :: List.replicate 13 {} })] } }
theorem shState_ready : LineReady shState homeMsg0.la 0 0 shEnt := by constructor <;> decide +kernel
theorem wit_GlobalAccesses_rows : shState.rowsApart (sliceOf homeMsg0.la) (setOf .f144 homeMsg0.la) ∧ shState.ras.latent = [] := by
  refine ⟨?_, rfl⟩
  intro k e h
  have : shState.slice (sliceOf homeMsg0.la) = {} := by decide +kernel
  rw [this] at h; cases h
theorem wit_GlobalAccesses_home : shState.dom.st ≠ 3 ∧ shEnt.st = 1 ∧ shState.mode ≠ 2 ∧ shState.nearFrozen (sliceOf homeMsg0.la) = false ∧
    shState.findLine homeMsg0.la = some (1, { tag := tagOf .f144 homeMsg0.la, st := stS }) ∧ shState.noHostEM homeMsg0.la = true ∧
    tagError shState.part (setOf shState.part homeMsg0.la) (shState.nearTags (setOf shState.part homeMsg0.la)) = false ∧
    bitsOf shEnt.sharers ≠ [] ∧ shState.inFar (5 * 2 ^ 36 + 2 ^ 35) = false ∧
    ({ shState with slices := [(0, { trks := (List.range 48).map fun k => { htid := k, la := k, for_ := .own 0, ph := .fwd } })] } : State).general
      (sliceOf homeMsg0.la) = none := by
  decide +kernel
theorem wit_GlobalAccesses_requester : globMr.isPf = false ∧ ((globState { mrs := [globMr] }).slice (sliceOf globLa)).nextRef ≠ 0 ∧
    (globState {}).classOf globLa = .other ∧ deadlineClks ≤ ({ globState { mrs := [globMr] } with clk := 20000 } : State).ran globMr.t0 globMr.paused0 ∧
    (globState { mrs := [globMr] }).ran globMr.t0 globMr.paused0 < deadlineClks := by
  decide +kernel
theorem wit_GlobalAccesses_done : ∃ (s : State) (o : OutW) (v : Vb) (r : MemRd) (h : HostReq),
    (s.slice (sliceOf globLa)).mrs = [globMr] ∧ (s.slice (sliceOf globLa)).outw = [o] ∧ o.early = false ∧ o.la = globLa ∧
    o.tid = tidMr (sliceOf globLa) 3 ∧ (s.slice 1).vbs = [v] ∧ v.la = globLa + 1 ∧ sliceOf v.la = 1 ∧ v.sent = true ∧ v.refSeq = 0 ∧
    v.done = false ∧ s.noHosts v.la = true ∧ (s.slice 1).mrs = [] ∧ s.mem.reads.find? (fun x => x.tok == 6) = some r ∧ r.n = 64 ∧ r.got = some (5, false) ∧ s.hreq r.htid = some h ∧
    h.win = .loc ∧ h.mute = false ∧ h.req.op = .read ∧ h.req.copy = false ∧ (∀ r ∈ s.mem.reads, r.tok = 7 → r.got = none) :=
  ⟨{ globState {} with
     slices := [(sliceOf globLa, { mrs := [globMr], outw := [{ id := 1, tid := tidMr (sliceOf globLa) 3, la := globLa, home := 200, src := .piece 2 4, msg := {} }] }),
                (1, { vbs := [{ idx := 0, la := globLa + 1, data := 0, st := Machine.stM, sent := true, action := 3 }] })],
     mem := { reads := [{ tok := 6, lo := 0, n := 64, htid := 1, got := some (5, false) }] }, hreqs := [rdHost] },
   { id := 1, tid := tidMr (sliceOf globLa) 3, la := globLa, home := 200, src := .piece 2 4, msg := {} },
   { idx := 0, la := globLa + 1, data := 0, st := Machine.stM, sent := true, action := 3 },
   { tok := 6, lo := 0, n := 64, htid := 1, got := some (5, false) }, rdHost, by decide +kernel⟩

/-! FencePageReads -/

def fence0 : Fence := { fid := 9, link := 0, scope := 0, rel := true, acq := false, t0 := 0, snap := [4], ph := .wait }
def fenceState (f : Fence) (a : List Acc) : State := { up with fnc := { fences := [f] }, accs := a }
theorem wit_FencePageReads : (fenceState fence0 []).linkOn 0 = true ∧ (fenceState fence0 []).powered = true ∧
    (fenceState fence0 [{ aid := 4, who := 0, rd := false, wr := true }]).fenceWaits fence0 = true ∧ (fenceState fence0 []).fenceWaits fence0 = false ∧
    (fenceState fence0 []).clk - fence0.t0 < 22000 ∧ 22000 ≤ ({ up with clk := 22000 } : State).clk - fence0.t0 ∧
    ({ up with dom := { st := 3 } } : State).linkOn 0 = true ∧
    ({ up with dom := { st := 3 } } : State).boot.level = 3 ∧ ({ up with boot := { level := 1 } } : State).linkOn 0 = true ∧
    (∀ w < 2, ({ up with fails := [{ aid := 4, who := w, node := 7, down := true }] } : State).linkOn 0 = true ∧
      ({ up with fails := [{ aid := 4, who := w, node := 7, down := true }] } : State).fails = [{ aid := 4, who := w, node := 7, down := true }]) ∧
    (fenceState { fence0 with seenDown := true, node := some 7 } []).powered = true ∧
    (fenceState { fence0 with seenDown := true, node := some 7 } []).fenceWaits { fence0 with seenDown := true, node := some 7 } = false ∧
    fence0 ∈ (fenceState fence0 []).fnc.fences ∧ 4 ∈ fence0.snap ∧ fence0.gone = false ∧ fence0.mute = false := by
  decide +kernel

/-! CombiningTrees -/

def treeFence : Fence := { fence0 with scope := 2, ph := .tree 4, gen := 4, localDone := true, snap := [] }
/-- The root of a tree of two, and the member below it, in generation 4. -/
def rootState : State := { homeState {} with fnc := { fences := [treeFence], dom := { gen := 4 }, domKids := [1] } }
def leafState (f : Fence) (sent : Bool) : State := { homeState {} with fnc := { fences := [f], dom := { gen := 4, sent := sent }, domParent := 1, domRank := 1 } }
theorem wit_CombiningTrees : rootState.powered = true ∧ rootState.dom.st = 2 ∧ 1 ∈ rootState.fnc.domKids ∧ 1 ∉ rootState.fnc.dom.counted ∧
    ({ rootState with fnc := { rootState.fnc with fences := [] } } : State).fnc.fences = [] ∧ rootState.fnc.domRank = 0 ∧
    rootState.fnc.domKids = [1] ∧ rootState.fnc.dom.sent = false ∧ ((2 : BitVec 2) &&& 1).getLsbD 1 = false ∧ 7 ∉ rootState.fnc.domKids ∧
    (leafState treeFence true).fnc.domRank ≠ 0 ∧ (leafState treeFence true).fnc.dom.sent = true ∧ (leafState treeFence true).others ≠ [] ∧
    (leafState { treeFence with ph := .wait, localDone := false } false).fnc.dom = { gen := 4 } ∧
    (leafState { treeFence with ph := .wait, localDone := false } false).fenceWaits { treeFence with ph := .wait, localDone := false } = false ∧
    (fenceState { fence0 with scope := 3 } []).linkOn 0 = true ∧ (fenceState { fence0 with scope := 3 } []).fnc.fences = [{ fence0 with scope := 3 }] := by
  decide +kernel

/-! InvalidationBroadcasts -/

def invState (busy active : Bool) (rank : Nat) : State :=
  { homeState {} with fnc := { domKids := if rank = 0 then [1] else [], domRank := rank, domParent := 1, domRoot := 1,
                               bcDom := { rootBusy := busy, active := active, waitKids := [1], origin := 7 } },
                      xinv := { busy := true, scope := 2 } }
theorem wit_InvalidationBroadcasts : (∀ b ∈ [true, false], (invState b false 0).powered = true ∧ (invState b false 0).fnc.domRank = 0 ∧
      (invState b false 0).fnc.bcDom.rootBusy = b ∧ (invState b false 0).fnc.domKids ≠ []) ∧
    (invState false false 1).dom.st = 2 ∧ (invState false false 1).fnc.domKids = [] ∧ (invState false false 1).accs = [] ∧
    (invState true true 0).fnc.bcDom.waitKids = [1] ∧ (invState true true 0).fnc.bcDom.active = true ∧
    (invState true true 0).fnc.bcDom.origin ≠ (invState true true 0).nodeNo ∧ (invState true true 0).xinv.busy = true ∧
    (invState true true 0).xinv.scope = 2 ∧ ({ invState true true 0 with clk := 22000 } : State).powered = true ∧
    22000 ≤ ({ invState true true 0 with clk := 22000 } : State).clk - (invState true true 0).xinv.t0 ∧
    ({ invState false false 1 with xinv := {} } : State).linkOn 0 = true ∧ (invState false false 1).others ≠ [] ∧ (invState false false 1).fnc.domRank ≠ 0 := by
  decide +kernel
theorem wit_InvalidationBroadcasts_peer : PeerUp (invState false false 0) 1 ∧ PeerUp (invState true false 0) 1 := by
  constructor <;> constructor <;> decide +kernel

/-! TranslationInvalidations -/

theorem wit_TranslationInvalidations : up.linkOn 0 = true ∧ up.powered = true ∧ up.xinv.busy = false ∧ up.accs = [] ∧
    ({ up with xinv := { busy := true } } : State).xinv.busy = true ∧ ({ up with dom := { st := 3 } } : State).linkOn 0 = true ∧
    ({ up with accs := [{ aid := 3, who := 0, rd := true, wr := false, tr := some (0, 0, 12) }] } : State).accs =
      [{ aid := 3, who := 0, rd := true, wr := false, tr := some (0, 0, 12) }] ∧
    22000 ≤ ({ up with xinv := { busy := true }, clk := 22000 } : State).clk - 0 ∧ up.clk < 22000 ∧ up.part.xltPresent 0 = true ∧
    ({ up with xlts := [(0, { l2 := [(0, some { ctx := 0, va := 0, p := 12, ma := 0, beat := 4000 })] })] } : State).young 0 4000 = true := by
  decide +kernel

/-! LeaseEpochs -/

/-- A CLASS 6 entry of period 1 in entry 5. -/
def leaseState : State :=
  { up with mtu := { up.mtu with sch := [(5, Tmr.of (BitVec.ofNat 96 (2 ^ 63 + 6 * 2 ^ 56 + 1)))] }, clk := 4194304 }
theorem wit_LeaseEpochs : leaseState.powered = true ∧ leaseState.fires 5 6 = true ∧ leaseState.fires 4 6 = false ∧ 2 ≤ leaseState.boot.level ∧
    ({ leaseState with mtu := {} } : State).locked = false ∧ ({ leaseState with mtu := {} } : State).unlockedPeriod * 2048 ≤ leaseState.clk - 0 ∧
    ({ up with mtu := {} } : State).clk - 0 < ({ up with mtu := {} } : State).unlockedPeriod * 2048 ∧ leaseState.lse.running = none ∧
    (∀ n < 64, (leaseState.slice n).roster 1 = []) ∧
    (({ leaseState with slices := [(3, { ros1 := [7, 9] })] } : State).slice 3).roster 1 = [7, 9] ∧ leaseState.mode ≠ 2 ∧
    leaseState.nearFrozen 3 = false ∧
    leaseState.hsf = [] ∧ leaseState.bisnps = [] ∧ leaseState.lse.steps = [] ∧ FPh.adv 1 = .adv (leaseState.lse.dblDone + 1) := by
  decide +kernel

/-! TableWalkStarts -/

/-- XLT 0 with what is given, context 0 enabled with LEVELS 4 and its root at 2^20. -/
def walkState (x : Xlt) : State :=
  { up with xlts := [(0, x)], csr := [(offCtx 0 0, 0x100000), (offCtx 0 8, csrReset (offCtx 0 8) ^^^ 0x8000000000000004)] }
def walkJob : XJob := { id := 3, x := 0, ctx := 0, va := 0x1234000, wr := false, sync := true, for_ := .spec, queued := true }
def walkV (got : Option (Line × Bool × Nat)) (cas : Option Word) (n : Nat) : Walker :=
  { w := 8, ctx := 0, va := 0x1234000, wr := false, k := 4, tbl := 0x100000, levels := 4, root := 0x100000, t0 := 0, paused0 := 0,
    got := got, cas := cas, restarts := n }
theorem wit_TableWalkStarts : (walkState { jobs := [walkJob] }).part.xltPresent 0 = true ∧ (walkState {}).ctxEn 0 = true ∧ (walkState {}).ctxLevels 0 = 4 ∧
    (walkState {}).ctxRoot 0 = 0x100000 ∧ walkJob.va < 2 ^ (12 + 9 * 4) ∧ (walkState {}).inDevr ((0x100000 + 8 * (walkJob.va / 2 ^ 39 % 512)) / 64) = false ∧
    (walkState {}).boot.level = 3 ∧ up.ctxEn 0 = false ∧ (walkState {}).specEn 0 = true ∧
    ({ walkState {} with csr := [(offXlt 0 0, 2)] } : State).specEn 0 = false ∧ (walkState {}).xlt 0 = {} ∧ (walkState {}).linkOn 0 = true ∧
    ({ up with xlts := [(0, { wc := [(3, some { ctx := 0, k := 1, va := 0, tbl := 4096, beat := 4000 })] })] } : State).young 0 4000 = true := by
  decide +kernel
/-- Link 0 has missed two adjacent pages; porter 2 reads from page 4. -/
def specState : State :=
  { walkState {} with links := [(0, { up := true, miss1 := some 6, miss2 := some 5 })],
                      pors := [(2, { descs := [{ seq := 3, opc := 1, len := 0x4000, src := 0x4000, dst := 0x10000, active := true }] })] }
theorem wit_TableWalkStarts_spec : specState.linkOn 0 = true ∧ (specState.link 0).nextPage = some 7 ∧ specState.gwinCtx 0 0 = 0 ∧
    ((specState.por 2).desc 3).map (fun d => (d.nextPage false, d.ctx)) = some (some 5, 0) ∧ specState.part.xltPresent 4 = true ∧
    specState.specEn 0 = true ∧ specState.specEn 4 = true ∧ specState.xlt 0 = {} ∧ specState.xlt 4 = {} ∧ specState.ctxEn 0 = true ∧
    specState.ctxLevels 0 = 4 ∧ specState.boot.level = 3 ∧ up.specTarget 0 (.link 0) = none ∧
    ((walkState { jobs := [walkJob] }).xlt 0).promote.jobs.find? (fun i => i.queued && i.walker.isNone) = some walkJob := by decide +kernel
theorem wit_TableWalkStarts_fault : (({ up with xlts := [(0, { jobs := [{ walkJob with for_ := .host 3 }] })] } : State).xlt 0).jobs =
      [{ walkJob with for_ := .host 3 }] ∧ up.ctxEn 0 = false ∧ up.powered = true := by decide +kernel
theorem wit_TableWalkStarts_context : ((walkState { walkers := [walkV none none 0] }).xlt 0).walkers = [walkV none none 0] ∧ (walkV none none 0).ctx = 0 ∧
    (walkState { walkers := [walkV none none 0] }).linkOn 0 = true := by decide +kernel

/-! TableWalks -/

theorem walkState_one : ∀ v ∈ [walkV none none 0, walkV (some (0, false, 0)) none 0, walkV (some (3, false, 0)) none 0, walkV (some (9, false, 0)) none 0,
    walkV (some (2 ^ 128, false, 0)) (some 1) 0, walkV (some (0, false, 0)) (some 1) 0, walkV (some (0, false, 0)) (some 1) 3, walkV none (some 1) 0],
    OneWalk (walkState { walkers := [v] }) 0 v := by
  intro v h
  simp only [List.mem_cons, List.not_mem_nil, or_false] at h
  rcases h with rfl | rfl | rfl | rfl | rfl | rfl | rfl | rfl <;> constructor <;> decide +kernel
theorem wit_TableWalks : (walkState {}).boot.level = 3 ∧ (3 : Nat) % 4 = 3 ∧ badFormat 3 4 = false ∧ badFormat 9 4 = false ∧ Nat.testBit 9 3 = true ∧
    ((2 : Line) ^ 128).getLsbD 128 = true ∧ (walkState {}).inDevr ((0 / 2 ^ 12 % 2 ^ 45 * 4096 + 8 * (0x1234000 / 2 ^ (9 * 3 + 3) % 512)) / 64) = false ∧
    6400 ≤ ({ walkState {} with clk := 6400 } : State).ran 0 0 ∧ (walkState {}).ran 0 0 < 6400 ∧
    (walkState {}).inDevr ((0x100000 + 8 * (0x1234000 / 2 ^ 39 % 512)) / 64) = false := by
  decide +kernel

/-! PortTraining -/

def portState (x : FPort) : State := { up with ports := [(3, x)], csr := [(offFpt 3 0, csrReset (offFpt 3 0) ^^^ 0x10000001)] }
theorem wit_PortTraining : (portState {}).portOn 3 = true ∧ (portState {}).portEn 3 = true ∧ (portState {}).degradeOk 3 = false ∧
    (∀ st ∈ [0, 3, 4, 5], ((portState { st := st, sentValid := true, peerValid := true }).port 3).st = st ∧
      ((portState { st := st, sentValid := true, peerValid := true }).port 3).sentValid = true) ∧ up.rtr.enabled = true ∧ up.nodeNo = 5 ∧
    (portState { st := 5 }).clk < ((portState { st := 5 }).port 3).lastRx + 512 ∧
    ((portState { st := 5 }).port 3).lastRx + 512 ≤ ({ portState { st := 5 } with clk := 512 } : State).clk ∧
    ((portState { st := 1, downAt := some 0, replayBuf := [{ seq := 4, pkts := [] }] }).port 3).downAt = some 0 := by
  decide +kernel

/-! FlitsAndReplay -/

/-- A tree packet for node 5. -/
def somePkt : Packet := { dst := 5, src := 1, vn := 2, body := .tree { op := 1 } }
/-- A flit of 256 bytes: some, zeros, the byte `c` of CRC-48 with five zeros, FEC check bytes. -/
def bytesWith (h : List Byte) (c : Byte) : List Byte := h ++ (List.replicate (244 - h.length) 0 ++ [c, 0, 0, 0, 0, 0])
def flitWith (h : List Byte) (c : Byte) (check : List Byte) : BitVec 2048 := BitVec.ofNat 2048 (leNat (bytesWith h c ++ check))
/-- Header of type `ft`, the packet, and six bytes after which the CRC register holds 0. -/
def headBytes (ft : Nat) (z : List Byte) : List Byte := leBytes 4 (ft * 2 ^ 30) ++ (leBytes 32 (slotsNat (pktSlots somePkt)) ++ z)
def dataHead : List Byte := headBytes 0 [254, 196, 194, 59, 100, 239]
def idleHead : List Byte := headBytes 1 [72, 123, 101, 125, 60, 229]
def badHead : List Byte := List.replicate 6 255
def dataFlit : BitVec 2048 := flitWith dataHead 0 [110, 161, 51, 149, 69, 240]
def idleFlit : BitVec 2048 := flitWith idleHead 0 [188, 195, 81, 16, 215, 207]
def badFlit : BitVec 2048 := flitWith badHead 1 [16, 16, 15, 14, 8, 8]
theorem crc_zeros (n : Nat) : (List.replicate n (0 : Byte)).foldl (crcByte crc48Poly) 0 = 0 := by
  induction n with
  | zero => rfl
  | succ n h => rw [List.replicate_succ, List.foldl_cons]; exact h
theorem crc_two (h : List Byte) (k m r : Nat) (a : (h.take k).foldl (crcByte crc48Poly) (2 ^ 48 - 1) = r)
    (b : (h.drop k).foldl (crcByte crc48Poly) r = 0) (t : (bytesWith h c).take 244 = h ++ List.replicate m 0) : crc48 ((bytesWith h c).take 244) = 0 := by
  rw [t, crc48, List.foldl_append, ← List.take_append_drop k h, List.foldl_append, a, b, crc_zeros]
theorem dataFlit_fix : flitFix dataFlit = (bytesWith dataHead 0, false) := by decide +kernel
theorem idleFlit_fix : flitFix idleFlit = (bytesWith idleHead 0, false) := by decide +kernel
theorem badFlit_fix : flitFix badFlit = (bytesWith badHead 1, false) := by decide +kernel
theorem data_good : flitGood (bytesWith dataHead 0) = true := by
  rw [flitGood, crc_two dataHead 21 202 22747802160935 (by decide +kernel) (by decide +kernel) (by decide +kernel)]; decide +kernel
theorem idle_good : flitGood (bytesWith idleHead 0) = true := by
  rw [flitGood, crc_two idleHead 21 202 193892478266185 (by decide +kernel) (by decide +kernel) (by decide +kernel)]; decide +kernel
theorem bad_bad : flitGood (bytesWith badHead 1) = false := by
  rw [flitGood, crc_two badHead 6 238 0 (by decide +kernel) rfl (by decide +kernel)]; decide +kernel
theorem data_pkts : pktsOf 15 (flitSlots (bytesWith dataHead 0)) = [somePkt] := by decide +kernel
theorem wit_FlitsAndReplay_good : (flitFix badFlit).2 = false ∧ flitGood (flitFix badFlit).1 = false ∧ (∀ x ∈ [dataFlit, idleFlit],
    (flitFix x).2 = false ∧ flitGood (flitFix x).1 = true) ∧ (flitHdr (flitFix idleFlit).1).ft = 1 ∧ (flitHdr (flitFix dataFlit).1).ft = 0 ∧
    (flitHdr (flitFix dataFlit).1).seq = 0 ∧ pktsOf 15 (flitSlots (flitFix dataFlit).1) = [somePkt] := by
  simp only [List.mem_cons, List.not_mem_nil, or_false, forall_eq_or_imp, forall_eq]
  rw [badFlit_fix, dataFlit_fix, idleFlit_fix]
  exact ⟨rfl, bad_bad, ⟨⟨rfl, data_good⟩, rfl, idle_good⟩, by decide +kernel, by decide +kernel, by decide +kernel, data_pkts⟩
theorem wit_FlitsAndReplay : (portState { st := 5 }).portOn 3 = true ∧ ((portState { st := 5 }).port 3).rxSeq = 1023 ∧
    up.rtr.enabled = true ∧ ((portState { st := 5, replayBuf := [{ seq := 4, pkts := [] }], lastReplayed := 4, sameReplay := 7 }).port 3).sameReplay = 7 ∧
    ((portState { st := 5, replayBuf := [{ seq := 4, pkts := [] }] }).port 3).lastReplayed ≠ 4 ∧
    ((portState { st := 5 }).port 3).replayBeat ≠ (portState { st := 5 }).beat ∧ pktLen somePkt ≤ 15 ∧
    pktLen somePkt ≤ ((portState { st := 5, txq := [somePkt] }).port 3).credit (bufKey 2 0 false) ∧ (portState {}).trcCfg.getLsbD 63 = false := by
  decide +kernel

/-! RoutingAndOrder -/

def rtrState (k : Packet) (store : List (Nat × Packet)) : State :=
  { up with rtr := { enabled := true, q := [k], store := store }, ports := [(3, { st := 5 })],
            csr := [(offRt 9, csrReset (offRt 9) ^^^ BitVec.ofNat 64 (2 ^ 63 + 3 * 2 ^ 58))] }
def herePkt (vn oseq : Nat) : Packet := { dst := 5, src := 1, vn := vn, oseq := oseq, body := .heartbeat 0 0 0 }
theorem wit_RoutingAndOrder : (∀ x ∈ [(3, 0), (0, 0), (0, 7)], (rtrState (herePkt x.1 x.2) []).powered = true ∧
      (herePkt x.1 x.2).dst = (rtrState (herePkt x.1 x.2) []).nodeNo ∧ Machine.Packet.unusedCode (herePkt x.1 x.2) = false ∧
      Tab.get 0 (rtrState (herePkt x.1 x.2) []).rtr.oseqRx 1 = 0 ∧ (rtrState (herePkt x.1 x.2) []).heldDsts = []) ∧
    (∀ h ∈ [0, 8], ({ herePkt 0 0 with dst := 9, hops := h } : Packet).dst ≠ up.nodeNo) ∧ ((rtrState (herePkt 0 0) []).route 9).v = true ∧
    (rtrState (herePkt 0 0) []).usable ((rtrState (herePkt 0 0) []).route 9).a = true ∧ ((rtrState (herePkt 0 0) []).route 9).adapt = false ∧
    ((rtrState (herePkt 0 0) []).route 10).v = false ∧ (rtrState (herePkt 0 0) [(0, herePkt 0 7)]).rtr.store = [(0, herePkt 0 7)] := by
  decide +kernel
theorem herePkt_body (vn oseq : Nat) : ∀ m, (herePkt vn oseq).body ≠ .tree m := by intro m h; cases h
/-- A route-fail notice's header of TYPE 1, and the coherence header of line `globLa` with the register's TID. -/
def failHdr (typ : Nat) : BitVec 128 := BitVec.ofNat 128 (typ * 2 ^ 82 + 200 * 2 ^ 113)
theorem wit_RoutingAndOrder_fail : bits (failHdr 1).toNat 82 4 = 1 ∧ bits (failHdr 9).toNat 82 4 = 9 ∧
    (cohOfHeader (cohHeader { la := globLa, tid := tidMr (sliceOf globLa) 3 })).la = globLa ∧
    (cohOfHeader (cohHeader { la := globLa, tid := tidMr (sliceOf globLa) 3 })).tid = tidMr (sliceOf globMr.la) globMr.idx := by
  decide +kernel

/-! TimeExchange -/

theorem wit_TimeExchange : (portState { st := 5 }).portOn 3 = true ∧
    ({ portState { st := 5 } with csr := [(offMtu 8, 0)] } : State).fabRefine = true ∧
    ({ portState { st := 5 } with csr := [(offMtu 8, 0x100)] } : State).fabRefine = false ∧
    (∃ c, ((portState { st := 5, exAt := some 0 }).port 3).exAt = some c ∧ (portState { st := 5, exAt := some 0 }).clk < c + 32768) ∧
    ((portState { st := 5, t1 := some 77 }).port 3).t1 = some ({ response := true, locked := true, t1 := 77 } : TimeMsg).t1 ∧
    (∀ l ∈ [true, false], ((portState { st := 5, rxTime := [({ response := true, locked := l, t1 := 77 }, 9)] }).port 3).rxTime =
      [({ response := true, locked := l, t1 := 77 }, 9)]) :=
  ⟨by decide +kernel, by decide +kernel, by decide +kernel, ⟨0, by decide +kernel⟩, by decide +kernel, by decide +kernel⟩

/-! MachineTimeLock -/

def mtState (m : Mtu) : State := { up with mtu := m }
theorem wit_MachineTimeLock : (mtState {}).powered = true ∧ (mtState { lock := 3, mt := 2 ^ 24 }).onMark = true ∧
    (mtState { lock := 3, mt := 2 ^ 23 }).onMark = false ∧ (mtState { lock := 2, mt := 2 ^ 24 + 64 }).onMark = true ∧
    (mtState { lock := 2, mt := 2 ^ 24 + 65 }).onMark = false ∧ ({ mtState { lock := 2, goodMarks := 2 } with csr := [(offMtu 8, 0x100)] } : State).refined = false ∧
    nearMark (2 ^ 24 + 64) < 2 ^ 24 + 64 ∧ 2 ^ 24 - 64 ≤ nearMark (2 ^ 24 - 64) ∧ 64 < Machine.dist 0 65 ∧ 64 < Machine.dist 1048577 0 ∧
    (mtState { lock := 3, mt := 262144 }).refined = true ∧ (∀ l ∈ [2, 3], (mtState { lock := l, mt := 2 ^ 26 }).mtu.markMt + 2 ^ 25 + 64 < (mtState { lock := l, mt := 2 ^ 26 }).mtu.mt) ∧
    256 ≤ (mtState { lock := 3, mt := 262144 }).beat - 0 ∧ (mtState { lock := 3 }).beat - 0 < 256 ∧
    (mtState { lock := 1, steer := some 3 }).refined = true ∧ (mtState { lock := 3, pendingSet := some 64 }).mtu.pendingSet = some 64 ∧
    Machine.dist 0 64 ≤ 64 ∧ 64 < Machine.dist 100 0 := by
  decide +kernel

/-! ScheduleAndLulls -/

/-- MT locked at beat 4,000, with a CLASS 1 entry of period 1,024 and what is given of the rest. -/
def lullState (phase : Nat) (m : Mtu) : State :=
  { up with mtu := { m with lock := 3, mt := 4096000, sch := [(0, Tmr.of (BitVec.ofNat 96 (2 ^ 63 + 2 ^ 56 + 2 ^ 48 + phase * 2 ^ 22 + 1024)))] } }
theorem wit_ScheduleAndLulls : (lullState 0 {}).linkOn 0 = true ∧ (lullState 0 {}).rwlOpen = false ∧
    ({ lullState 0 {} with boot := { level := 3 } } : State).rwlOpen = true ∧
    ({ lullState 0 {} with boot := { level := 3 } } : State).schGood 3 (BitVec.ofNat 96 ((0x8000000000000000 &&& 0x8F3F07FFFFDFFFFF : Word).toNat + 0)) = false ∧
    ((lullState 0 {}).schOf 1).isSome = true ∧ (lullState 0 {}).locked = true ∧ (lullState 0 {}).inPause = false ∧
    schSince ((lullState 0 {}).sch 0) ((lullState 0 {}).beat + (lullState 0 {}).mtu.guard) ≠ 0 ∧
    (lullState 0 { inGuard := true, lullBeat := 4000, lullWidth := 1 }).mtu.lullBeat ≤ (lullState 0 {}).beat ∧
    (lullState 0 {}).beat < (lullState 0 { inGuard := true, lullBeat := 4000, lullWidth := 1 }).mtu.lullBeat + 1 ∧
    (lullState 0 {}).lullEntry = some 0 := by
  decide +kernel
/-- A refresh entry that fires in every beat, in entry 2, before the lull's, in entry 7. -/
theorem wit_ScheduleAndLulls_order : ∃ s : State, s.lullEntry = some 7 ∧ s.due 2 2 = true ∧ schClass (s.sch 2) = 2 :=
  ⟨{ up with mtu := { lock := 3, mt := 4096000, sch := [(2, Tmr.of (BitVec.ofNat 96 (2 ^ 63 + 2 * 2 ^ 56 + 1))),
      (7, Tmr.of (BitVec.ofNat 96 (2 ^ 63 + 2 ^ 56 + 2 ^ 48 + 1024)))] } }, by decide +kernel⟩
theorem wit_ScheduleAndLulls_guard : ∃ p : Nat, schSince ((lullState p {}).sch 0) ((lullState p {}).beat + (lullState p {}).mtu.guard) = 0 :=
  ⟨(4000 + (lullState 0 {}).mtu.guard) % 1024, by decide +kernel⟩

/-! ScheduledWork -/

/-- An entry of class `c` that fires in every beat, in entry 7, with ARG `a`. -/
def firing (c a : Nat) : State :=
  { up with mtu := { up.mtu with sch := [(7, Tmr.of (BitVec.ofNat 96 (2 ^ 63 + c * 2 ^ 56 + 1 + a * 2 ^ 64)))] },
            mem := { chans := [(3, { trained := true, ready := true })] }, ras := { bkt := [(4, { level := 9 })] } }
theorem wit_ScheduledWork : (∀ c ∈ [3, 4, 5, 7, 8], (firing c 0x10001).powered = true ∧ (firing c 0x10001).fires 7 c = true ∧
      (firing c 0x10001).fires 6 c = false) ∧ 2 ≤ (firing 4 1).boot.level ∧ ((firing 4 1).bank 3).sweepDue.length < 64 ∧
    (schArg ((firing 5 1).sch 7)).testBit (2 / 3) = true ∧ (schArg ((firing 5 1).sch 7)).testBit (3 / 3) = false ∧
    (firing 3 0x10001).chanServes 3 = true ∧ bits (schArg ((firing 3 0x10001).sch 7)) 16 1 = 1 ∧ bits (schArg ((firing 3 0x10001).sch 7)) 17 1 = 0 ∧
    (firing 3 0x10001).inPause = false ∧ ({ firing 3 0x10001 with mtu := { (firing 3 0x10001).mtu with inLull := true } } : State).inPause = true ∧
    hasSensor (firing 8 0).part 0 = true ∧ 16 * (firing 8 0).warnLevel ≤ (0x7FFF : BitVec 16).toInt ∧
    (0x8000 : BitVec 16).toInt < 16 * (firing 8 0).warnLevel - 48 := by
  decide +kernel

/-! DomainMembership -/

def domState (d : Dom) : State := { homeState {} with dom := { d with table := Tmr.of (BitVec.ofNat 136 (2 + 32)) } }
theorem wit_DomainMembership : (domState { st := 2 }).live = true ∧ (domState { st := 2 }).ownTable 1 0 0 = true ∧
    (domState { st := 2 }).ownTable 7 0 0 = false ∧ (domState { st := 2 }).others = [1] ∧ (domState { st := 2 }).isMember 1 = true ∧
    1 ≠ (domState { st := 2 }).ownMember ∧ 8192 ≤ ({ domState { st := 2 } with clk := 8192 } : State).clk - 0 ∧
    (domState { st := 2 }).clk - 0 < 8192 ∧ (domState { st := 1 }).ownTable 1 0 0 = true ∧ (domState {}).mgt.running = [] ∧
    (∃ m ∈ (domState { st := 1 }).others, m ∉ ([] : List Nat)) ∧ (domState { st := 2 }).beat < 0 + 16384 ∧
    ({ domState { st := 1 } with mtu := { mt := 16777216 } } : State).beat = 16384 ∧
    (∀ m ∈ (domState { st := 1, gotJoin := [1] }).others, m ∈ (domState { st := 1, gotJoin := [1] }).dom.gotJoin) ∧
    (∃ m ∈ (domState { st := 1, gotJoin := [1] }).others, m ∉ (domState { st := 1, gotJoin := [1] }).dom.gotReady) ∧
    (∀ m ∈ (domState { st := 1 }).others, m ∈ (domState { st := 1 }).dom.gotReady ∨ m = 1) := by
  decide +kernel
/-- A joiner whose DOM_JOIN came from an MCTP endpoint. -/
def joinRun : Run := { id := 3, hdr := { via := .mctp 2 }, body := .domJoin }
def joinState : State := { domState { st := 1, joining := true, sentReady := true } with mgt := { running := [joinRun] } }
theorem wit_DomainMembership_join : joinState.live = true ∧ joinState.mgt.running = [joinRun] ∧ joinState.ownTable 1 0 0 = true ∧
    joinState.dom.memBeat ≠ some joinState.beat ∧ joinRun.hdr.via = .mctp 2 := by decide +kernel

/-! DomainFailureAndManagementFragments -/

def fragState (allow : Nat) (l : List ReBuf) : State := { up with rtr := { enabled := true, bufs := l }, csr := [(offRtr 8, BitVec.ofNat 64 (allow * 2 ^ 62))] }
theorem wit_DomainFailureAndManagementFragments : (domState { st := 2 }).live = true ∧ (domState { st := 2 }).tableDomain = 0 ∧
    (domState { st := 3, downDue := true }).powered = true ∧ (fragState 0 []).clerksOn = true ∧ (fragState 0 []).rtr.enabled = true ∧
    (fragState 0 []).fabricAllowed 9 = false ∧ (fragState 2 []).fabricAllowed 9 = true ∧ 3 + ([] : List Byte).length ≠ 40 ∧
    (fragState 2 []).beat < 3000 + 1024 ∧ 2000 + 1024 ≤ (fragState 2 []).beat := by
  decide +kernel

/-! ChannelCommandSlots -/

/-- Channel `c` trained, its first unit as given; line 64 of far memory, at channel 64, is written and holds 7. -/
def chanState (c : Nat) (x : CUnit) : State :=
  { up with clk := 100000
            mem := { chans := [(c, { trained := true, ready := true, u0 := x })], zmap := [(1, true)], farWritten := [(64, true)], far := [(4096, 7)],
                     reads := [{ tok := 3, lo := 64, n := 0, htid := 0 }] } }
theorem wit_ChannelCommandSlots : (∀ c ∈ [3, 64], (chanState c {}).chanServes c = true) ∧ (chanState 64 {}).readsZero 64 = false ∧
    (chanState 64 {}).farKnown 64 = true ∧ (chanState 64 {}).pgcRegion 64 = none ∧ (chanState 64 {}).zeroTrackerFree 64 = true ∧
    (chanState 64 {}).zmapOn = true ∧ Tab.get false (chanState 64 {}).mem.zmap (pageOf 64) = true ∧
    Tab.get false (chanState 64 {}).mem.zmap (pageOf 128) = false ∧ (chanState 64 {}).zeroTrackerFree 128 = true ∧
    ((chanState 64 { banks := [(5, { row := 8 })] }).cunit 64 0).bank 5 = { row := 8 } ∧
    5 < (chanState 64 {}).chanBanks 64 ∧ (chanState 64 {}).idleTimer 64 * 8 ≤ (chanState 64 {}).clk - 0 ∧
    (chanState 64 {}).clk - 100000 < (chanState 64 {}).idleTimer 64 * 8 ∧ 128 ≤ (chanState 64 {}).clk - 0 ∧
    (∀ n < 64, ((chanState 64 {}).slice n).vbs = []) ∧ ({} : Finds).zmap = .none ∧ (chanState 64 {}).ras.latent = [] ∧
    64 = 64 + farCh 64 ∧ (chanState 64 {}).ras.arm = false := by
  decide +kernel
theorem wit_ChannelCommandSlots_merges : NoMerges (chanState 64 {}) := by
  unfold NoMerges; decide +kernel

/-! RefreshAndFreeze -/

def chState (c : Nat) (x : Chan) (b : Boot) (m : Mtu) : State :=
  { up with boot := b, mtu := m, mem := { chans := [(c, x)] }, csr := [(offCh c 0, 0x2000000000000)], dom := { st := 2 } }
def maintBoot : Boot := { level := 3, step := 6, dev := Tmr.of 2, nodeSet := true, fwRom := false }
theorem wit_RefreshAndFreeze : (firing 2 0).fires 7 2 = true ∧ (firing 2 0).powered = true ∧ 3 ∈ (firing 2 0).chansOf false ∧
    (firing 2 0).chanRuns 3 = true ∧ (((firing 2 0).mtu.inLull || (firing 2 0).lullDue) && (firing 2 0).mtu.lullArg.getLsbD 1) = false ∧
    (let s : State := { firing 2 0 with mtu := { (firing 2 0).mtu with inLull := true, lullArg := 2 } }
     s.fires 7 2 = true ∧ ((s.mtu.inLull || s.lullDue) && s.mtu.lullArg.getLsbD 1) = true ∧ s.chanRuns 3 = true) ∧
    (chState 3 { trained := true, ready := true } maintBoot {}).chanRuns 3 = true ∧ (chState 3 { trained := true, ready := true } maintBoot {}).locked = false ∧
    (chState 3 { trained := true, ready := true, nextRefresh := 9 } maintBoot {}).clk < 9 ∧
    (chState 3 { trained := true, ready := true } maintBoot { mt := 4096 }).chanServes 3 = true ∧ (chState 3 { trained := true, ready := true } maintBoot {}).devState = 2 ∧
    (chState 3 { trained := true, ready := true } maintBoot {}).srIdle 3 ≠ 0 ∧
    (chState 3 { trained := true, ready := true } maintBoot { mt := 4096 }).srIdle 3 ≤ (chState 3 { trained := true, ready := true } maintBoot { mt := 4096 }).beat - 0 ∧
    (chState 3 { trained := true, ready := true } maintBoot {}).beat - 0 < (chState 3 { trained := true, ready := true } maintBoot {}).srIdle 3 ∧
    (chState 3 { trained := true, ready := true, sr := true } maintBoot {}).chanRuns 3 = true ∧ (chState 3 {} maintBoot {}).chanPresent 3 = true ∧
    (chState 3 { trained := true, ready := true, sr := true } maintBoot {}).mem.pasrEn = false ∧ (chState 3 { trained := true, ready := true, sr := true } maintBoot {}).chan 3 = { trained := true, ready := true, sr := true } ∧
    (chState 3 { trained := true, ready := true, free := true } maintBoot {}).chan 3 = { trained := true, ready := true, free := true } ∧
    (∀ n < 64, ((chState 70 {} maintBoot {}).slice n).vbs = []) ∧
    (chState 70 { training := true } maintBoot {}).chanNamed 1 6 = some 70 ∧ (chState 70 {} maintBoot {}).chanPresent 70 = true := by
  decide +kernel

/-! LullWork -/

def lullChan (c : Nat) (x : Chan) (m : Mtu) : State :=
  { up with mtu := { m with inLull := true, lock := 3 }, mem := { chans := [(c, { x with trained := true, ready := true })] } }
theorem wit_LullWork : (∀ c ∈ [3, 66], (lullChan c {} {}).chanServes c = true ∧ (lullChan c {} {}).chanPresent c = true ∧ (lullChan c {} {}).powered = true ∧
      (lullChan c {} {}).locked = true) ∧ (lullChan 3 {} { lullBeat := 1 }).mtu.mt + 900 ≤ (1 + 0) * 1024 ∧
    ((0 + 0) * 1024 < (lullChan 3 {} {}).mtu.mt + 900) ∧ ({ lullChan 3 {} {} with mtu := { inLull := true } } : State).locked = false ∧
    (lullChan 3 {} {}).rdEn 3 = true ∧ ((lullChan 3 {} {}).banksOf 3).find? (fun b => !(({ lullChan 3 {} {} with banks := [(0, { sweepDue := [5] })] } : State).bank b).sweepDue.isEmpty) = some 0 ∧
    ({ lullChan 3 {} {} with banks := [(0, { sweepDue := [5] })] } : State).bank 0 = { sweepDue := [5] } ∧
    (lullChan 66 {} {}).pgcNext = none ∧ (∀ n < 64, ((lullChan 66 {} {}).slice n).vbs = []) ∧ (lullChan 3 {} {}).ras.latent = [] ∧
    ({ lullChan 66 {} {} with csr := [(offRas 0x100, BitVec.ofNat 64 (2 ^ 63 + 2 ^ 21 + 1))] } : State).pgcNext = some 512 := by
  decide +kernel
theorem wit_LullWork_sound : ∀ set, ({ sweepDue := [5] } : Bank).badSet set = false := by
  intro set; simp [Bank.badSet, Tab.get]

/-! PorterDescriptors -/

/-- Porter 2, enabled, as given, with queue 9 as its descriptor queue, which holds the cell `c` as cell 4. -/
def porState (x : Porter) (c : Line) : State :=
  { up with pors := [(2, x)], csr := [(offPor 2 0, 0x8000000900000000)]
            qmg := { qs := [(9, { count := 1, items := 1, curLen := 1, head := 4, tail := 4, en := true })], cells := [(4, c)],
                     links := [(4, { last := true, next := 0 })], freshEnd := 100, fresh := 5 } }
theorem wit_PorterDescriptors : (porState {} 0).porOn 2 = true ∧ (porState {} 0).porEn 2 = true ∧ (porState {} 0).inPause = false ∧
    ((porState {} 0).por 2).fetched.length < 8 ∧ itemCells ((porState {} 0).qmg.chain ((porState {} 0).porDq 2)) = [4] ∧
    (({ porState {} 0 with qmg := {} } : State).qent ((porState {} 0).porDq 2)).count = 0 ∧
    (descOf 0 0 false).bad = false ∧ (descOf 0 0xFF false).bad = true ∧ (descOf 0 0 false).opc = 0 ∧ (descOf 0 0 false).crec = false ∧
    (descOf 0 (0x40 * 2 ^ 256 + 2) false).bad = false ∧ (descOf 0 (0x40 * 2 ^ 256 + 2) false).wrAt < (descOf 0 (0x40 * 2 ^ 256 + 2) false).total ∧
    (descOf 0 0 false).acquire = false ∧ (descOf 0 0 false).lost = false ∧ ({} : Finds).way = [] ∧
    (descOf 0 0 true).bad = true ∧ (porState {} 0).ras.latent = [] ∧ ({ descOf 0 0 false with lost := true } : Desc).note = 0 ∧ ({ way := [.ue] } : Finds).way = [.ue] ∧ (porState {} 0).linkOn 0 = true ∧ (porState {} 0).clk < 1 := by
  decide +kernel
theorem wit_PorterDescriptors_merges : NoMerges (porState {} 0) := by
  unfold NoMerges; decide +kernel

/-! PorterPieces -/

def putDesc (note node : Nat) : Desc := { seq := 6, opc := 6, active := true, note := note, w7 := BitVec.ofNat 64 (node * 2 ^ 48 + 9) }
theorem wit_PorterPieces : (porState { descs := [{ seq := 0, opc := 2, len := 64, flags := 0x40, active := true }] } 0).porOn 2 = true ∧
    0 / 64 < ({ up with glbPart := Tmr.of (partWord 4 2 8) } : State).flatOpen * up.part.sets ∧
    ({ seq := 0, opc := 2, len := 64, flags := 0x40, active := true } : Desc).dstFlat = true ∧
    ({ seq := 0, opc := 1, len := 64, flags := 0x20, active := true } : Desc).srcFlat = true ∧
    ({ va := 0, ma := 5 * 2 ^ 42, p := 12, ctx := 0 } : TlbEnt).covers 0 0 = true ∧ (porState {} 0).young 0 (porState {} 0).beat = true ∧
    laNode ((5 * 2 ^ 42 + 0 % 2 ^ 12) / 64) = (porState {} 0).nodeNo ∧ (porState {} 0).inPause = false ∧
    ({ porState {} 0 with mtu := { inLull := true } } : State).inPause = true ∧ ({ seq := 0, opc := 1, len := 64 } : Desc).total = 64 ∧
    ({ seq := 0, opc := 1, len := 64, flags := 8 } : Desc).crec = true ∧ (putDesc 3 5).tnode = (porState {} 0).nodeNo ∧
    (putDesc 2 7).tnode = 7 ∧ (putDesc 3 7).tnode ≠ (porState {} 0).nodeNo ∧ (porState {} 0).unreachable 7 = false ∧
    (porState {} 0).boot.level = 3 ∧ (porState {} 0).dom.st ≠ 3 ∧ (putDesc 2 7).irq = false ∧ ({ porState {} 0 with clk := 2048 } : State).clk = 0 + 2048 := by
  decide +kernel

/-! PorterAborts -/

theorem wit_PorterAborts : (porState { descs := [{ seq := 3, active := true, rdOut := 1 }, { seq := 4 }] } 0).porOn 2 = true ∧
    (porState {} 0).linkOn 0 = true ∧ 0 < ({ seq := 3, active := true, rdOut := 1 } : Desc).out ∧
    ({ seq := 3, active := true, rdOut := 1 } : Desc).acquire = false ∧ ({ seq := 3 } : Desc).irq = false ∧
    ({ seq := 3 } : Desc).out = 0 ∧ (porState {} 0).inPause = false := by
  decide +kernel

/-! QueueEnqueues -/

/-- Queue 9 with entry `e`, one offer, cells 0 to 3 free and cell 4 held by queue 9. -/
def qState (e : QEnt) (o : List QOffer) : State :=
  { up with pors := [(2, { held := [{ seq := 5, q := 9, cell := 7, irq := false }] })]
            qmg := { qs := [(9, e)], links := [(4, { last := true, next := 0 })], free := [0, 1, 2, 3], fresh := 5, freshEnd := 5, offers := o } }
def doorbell (n : Nat) : QOffer := { who := .slot 0 3 8, q := 9, cells := List.replicate n 7 }
theorem wit_QueueEnqueues : (qState {} []).powered = true ∧ (qState {} []).linkOn 0 = true ∧ (qState {} []).dom.st ≠ 3 ∧
    (qState {} []).dom.nack = false ∧ ((qState { fabric := 1 } []).qent 9).fabric = 1 ∧ 7 / 128 = (qState {} []).ownDomain ∧
    200 / 128 ≠ (qState {} []).ownDomain ∧ ({ qState {} [] with dom := { st := 3 } } : State).dom.st = 3 ∧ (doorbell 3).cells ≠ [] ∧
    (qState { en := true, count := 1, items := 1, head := 4, tail := 4 } [doorbell 3]).qent 9 = { en := true, count := 1, items := 1, head := 4, tail := 4 } ∧
    1 + (doorbell 3).cells.length ≤ ({} : QEnt).cap ∧ (doorbell 3).cells.length ≤ (qState {} []).qmg.freeCells ∧ (doorbell 1).cells = [7] ∧
    (qState {} []).linkExists 0 = true ∧ ({ qState {} [] with msix := [(msixKey 0 100 1, 0x100000000)] } : State).masked 0 100 = false ∧
    ({} : QEnt).cap < 64 + (doorbell 1).cells.length ∧ itemCells ((qState { count := 64, head := 4 } []).qmg.chain 9) = [4] ∧
    2 < (qState {} []).part.porters ∧ ((qState {} []).por 2).held.length = 1 ∧ 64 = ({ count := 64 } : QEnt).cap ∧ ({} : Finds).way = [] ∧
    (qState {} []).ras.latent = [] := by
  decide +kernel

/-! QueueConsumers -/

/-- Slot 0's queue 0 holds an item of cells 4 and 5, then one of cell 6. -/
def itemsState : State :=
  { up with qmg := { qs := [(0, { count := 3, items := 2, curLen := 2, head := 4, tail := 6 })],
                     links := [(4, { next := 5 }), (5, { last := true, next := 6 }), (6, { last := true })], fresh := 7, freshEnd := 9 } }
theorem wit_QueueConsumers : itemsState.linkOn 0 = true ∧ itemsState.slotQueue 0 = 0 ∧ (itemsState.qent 0).count ≠ 0 ∧
    itemCells (itemsState.qmg.chain 0) = [4, 5] ∧ (if (1 : BitVec 7) = 0 then 1 else min 64 (1 : BitVec 7).toNat) < 2 ∧
    2 ≤ (if (2 : BitVec 7) = 0 then 1 else min 64 (2 : BitVec 7).toNat) ∧ (up.qent 0).count = 0 ∧ ({} : Finds).way = [] ∧
    itemsState.ras.latent = [] := by
  decide +kernel

/-! PageCodesAndInjection -/

/-- Region 0 of 2 MiB at 2 MiB, its slots at 16 MiB, in initialisation, in MAINTENANCE. -/
def pgcState : State :=
  { up with boot := maintBoot, csr := [(offRas 0x100, BitVec.ofNat 64 (2 ^ 21 + 1)), (offRas 0x108, BitVec.ofNat 64 (4096 * 2 ^ 12)), (offRas 0, 0x100)]
            mem := { zmap := (List.range 32).map fun i => (4096 + i, true) }, ras := { pgcInit := [(0, true)] } }
theorem wit_PageCodesAndInjection : pgcState.linkOn 0 = true ∧ 0 < pgcState.part.pgcRegions ∧ pgcState.rwlOpen = true ∧ up.rwlOpen = false ∧
    pgcState.powered = true ∧ Tab.get false pgcState.ras.pgcInit 0 = true ∧ Tab.get false pgcState.ras.pgcInit 1 = false ∧
    pgcState.pgcBase 0 + pgcState.pgcSize 0 ≤ pgcState.pgcPBase 0 ∧ 0 < pgcState.pgcSize 0 / 4096 ∧ pgcState.injEn = true ∧ up.injEn = false ∧
    pgcState.zmapOn = true ∧ pgcState.pgcPBase 0 = 4096 * 4096 ∧ pgcState.pgcSize 0 / 4096 = 512 ∧ pgcState.ras.latent = [] ∧ pgcState.ras.arm = false ∧
    (∀ k < 512, Tab.get false pgcState.mem.zmap ((4096 * 4096 + 256 * k) / 4096) = true) := by
  decide +kernel

/-! CommandChecks -/

def mtState2 : State := { up with boot := maintBoot, mtu := {} }
/-- A header without checksum for `n` parameter bytes, from MCTP endpoint 3. -/
def hd (n : Nat) : CmdHdr := { via := .mctp 3, version := 1, plen := n }
theorem clerksFree (b : Boot) (hb : 2 ≤ b.step) (hc : b.stopCause ≠ 5) : ClerksFree { mtState2 with boot := b } :=
  ⟨by simp [State.clerksOn, State.live, State.powered, hb, hc]; decide, rfl, rfl, rfl, rfl, rfl, fun _ => rfl⟩
theorem wit_CommandChecks : ClerksFree mtState2 ∧ Issued mtState2 (hd 0) .identify 3 ∧ Issued mtState2 (hd 0) .status 3 ∧
    mtState2.carrierBusy (.mctp 3) = false ∧ ({ mtState2 with mgt := { queue := [{ id := 0, hdr := hd 0, body := .status }] } } : State).carrierBusy (.mctp 3) = true ∧
    hdrChk { hd 0 with flags := 1 } = true ∧ (0 : BitVec 32) ≠ crc32c (hdrBytes (cmdOpc .status) { hd 0 with flags := 1 } 0 ++ cmdParams .status) ∧
    cmdInfo 0x0777 = none ∧ (cmdInfo 0x0102).isSome = true ∧ hdrCheck (hd 1) (.setState 1) = 0 ∧
    ((cmdInfo 0x0404).map fun i => (i.bringup, i.service, i.maint, i.level)) = some (true, false, false, 0) ∧ mtState2.devState = 2 ∧
    ((cmdInfo 0x0201).map fun i => (i.maint, i.level)) = some (true, 3) ∧
    ({ mtState2 with boot := { maintBoot with level := 1 } } : State).boot.level < 3 ∧
    ({ mtState2 with mgt := { queue := [{ id := 0, hdr := hd 0, body := .domJoin }] } } : State).conflict (.setState 1) = true ∧
    mtState2.bodyCheck (.setState 1) = 0 ∧ (fragState 2 []).fabricAllowed 9 = true ∧
    hdrCheck { hd 0 with via := .fabric 9 } .fwInfo = 0 ∧ cmdOpc .fwInfo / 256 = 8 ∧ up.linkOn 0 = true ∧
    ({ up with msix := [(msixKey 0 0 1, 0x100000000)] } : State).masked 0 0 = false := by
  refine ⟨clerksFree _ (by decide) (by decide), ⟨clerksFree _ (by decide) (by decide), rfl, by decide +kernel, by decide +kernel, by decide +kernel⟩,
    ⟨clerksFree _ (by decide) (by decide), rfl, by decide +kernel, by decide +kernel, by decide +kernel⟩, ?_⟩
  decide +kernel

/-! DryRunExecutesNothing -/

theorem wit_DryRunExecutesNothing : mtState2.clerksOn = true ∧ mtState2.carrierBusy (.mctp 3) = false ∧ hdrDry { hd 1 with flags := 2 } = true ∧
    mtState2.carrierBusy (.mailbox 0) = false ∧ mtState2.linkOn 0 = true ∧ (fragState 2 []).fabricAllowed 9 = true ∧
    (fragState 2 []).rtr.enabled = true ∧ mtState2.cmdCheck { hd 1 with flags := 2 } (.setState 1) = 0 ∧
    mtState2.cmdCheck { hd 1 with flags := 2 } (.setState 3) = 9 := by
  decide +kernel

/-! DeviceAndLedgerCommands -/

theorem issued (b : Boot) (c : CmdBody) (n : Nat) (hb : 2 ≤ b.step) (hc : b.stopCause ≠ 5) (h1 : hdrCheck (hd n) c = 0)
    (h2 : ({ mtState2 with boot := b } : State).stateCheck (hd n) (cmdOpc c) = 0) : Issued { mtState2 with boot := b } (hd n) c 3 :=
  ⟨clerksFree b hb hc, rfl, h1, by simp [hdrDry, hd], h2⟩
theorem wit_DeviceAndLedgerCommands : (∀ n ∈ [(5 : BitVec 16), 0x8000], Issued { mtState2 with boot := { step := 5, fwRom := false } } (hd 2) (.nodeSet n) 3) ∧
    (∀ v ∈ [(1 : BitVec 8), 2, 3], Issued { mtState2 with boot := maintBoot } (hd 1) (.setState v) 3 ∧
      Issued { mtState2 with boot := { maintBoot with dev := Tmr.of 1 } } (hd 1) (.setState v) 3) ∧
    (∀ m ∈ [(0 : Word), 5], Issued { mtState2 with boot := maintBoot } (hd 8) (.timeSet m) 3) ∧
    (∀ n ∈ [(0 : BitVec 16), 128, 129], Issued { mtState2 with boot := maintBoot } (hd 4) (.ledgerRead 0 n) 3) ∧
    Issued { mtState2 with boot := maintBoot } (hd 0) .ledgerClear 3 ∧ mtState2.mem.pasrEn = false ∧ mtState2.mem.chans = [] ∧
    (({ mtState2 with mem := { chans := [(3, { sr := true, waking := true })] } } : State).chan 3).waking = true ∧ mtState2.mode ≠ 2 ∧ mtState2.mgt.transition = false ∧
    mtState2.devState = 2 ∧ ({ mtState2 with boot := { maintBoot with dev := Tmr.of 1 } } : State).devState = 1 := by
  refine ⟨?_, ?_, ?_, ?_, issued _ _ _ (by decide) (by decide) (by decide +kernel) (by decide +kernel), by decide +kernel⟩
  · simp only [List.forall_mem_cons, List.not_mem_nil, IsEmpty.forall_iff, implies_true, and_true]
    exact ⟨issued _ _ _ (by decide) (by decide) (by decide +kernel) (by decide +kernel), issued _ _ _ (by decide) (by decide) (by decide +kernel) (by decide +kernel)⟩
  · simp only [List.forall_mem_cons, List.not_mem_nil, IsEmpty.forall_iff, implies_true, and_true]
    refine ⟨⟨?_, ?_⟩, ⟨?_, ?_⟩, ?_, ?_⟩ <;> exact issued _ _ _ (by decide) (by decide) (by decide +kernel) (by decide +kernel)
  · simp only [List.forall_mem_cons, List.not_mem_nil, IsEmpty.forall_iff, implies_true, and_true]
    exact ⟨issued _ _ _ (by decide) (by decide) (by decide +kernel) (by decide +kernel), issued _ _ _ (by decide) (by decide) (by decide +kernel) (by decide +kernel)⟩
  · simp only [List.forall_mem_cons, List.not_mem_nil, IsEmpty.forall_iff, implies_true, and_true]
    refine ⟨?_, ?_, ?_⟩ <;> exact issued _ _ _ (by decide) (by decide) (by decide +kernel) (by decide +kernel)

/-! DomainAndFabricCommands -/

theorem wit_DomainAndFabricCommands : (∀ p ∈ [(0 : BitVec 128), 3], Issued { mtState2 with boot := maintBoot } (hd 17) (.domSet 0 p) 3) ∧
    Issued { mtState2 with boot := maintBoot } (hd 0) .domJoin 3 ∧ Issued { mtState2 with boot := maintBoot } (hd 0) .domReform 3 ∧
    (∀ a ∈ [(0 : BitVec 8), 1, 3], Issued { mtState2 with boot := maintBoot } (hd 2) (.fabPort 4 a) 3) ∧
    Issued { mtState2 with boot := maintBoot } (hd 2) (.fabPort 200 0) 3 ∧
    (∀ n ∈ [(0xFFFF : BitVec 16), 7], Issued { mtState2 with boot := maintBoot } (hd 2) (.fabClrUnreach n) 3) ∧
    mtState2.layoutKnown = true ∧ mtState2.mgt.thawed = [] ∧ (4 : BitVec 8).toNat < mtState2.part.fabricPorts ∧
    mtState2.part.fabricPorts ≤ (200 : BitVec 8).toNat ∧ (mtState2.port 4).st = 0 ∧ mtState2.others = [] ∧
    ({ mtState2 with dom := { st := 1, table := Tmr.of (BitVec.ofNat 136 34) } } : State).others ≠ [] := by
  refine ⟨?_, issued _ _ _ (by decide) (by decide) (by decide +kernel) (by decide +kernel), issued _ _ _ (by decide) (by decide) (by decide +kernel) (by decide +kernel),
    ?_, issued _ _ _ (by decide) (by decide) (by decide +kernel) (by decide +kernel), ?_, by decide +kernel⟩
  · simp only [List.forall_mem_cons, List.not_mem_nil, IsEmpty.forall_iff, implies_true, and_true]
    exact ⟨issued _ _ _ (by decide) (by decide) (by decide +kernel) (by decide +kernel), issued _ _ _ (by decide) (by decide) (by decide +kernel) (by decide +kernel)⟩
  · simp only [List.forall_mem_cons, List.not_mem_nil, IsEmpty.forall_iff, implies_true, and_true]
    refine ⟨?_, ?_, ?_⟩ <;> exact issued _ _ _ (by decide) (by decide) (by decide +kernel) (by decide +kernel)
  · simp only [List.forall_mem_cons, List.not_mem_nil, IsEmpty.forall_iff, implies_true, and_true]
    exact ⟨issued _ _ _ (by decide) (by decide) (by decide +kernel) (by decide +kernel), issued _ _ _ (by decide) (by decide) (by decide +kernel) (by decide +kernel)⟩

/-! ChannelManagementCommands -/

/-- MAINTENANCE with frozen channels 3 and 66, trained channels 4 and 67, and a written far line at byte 4096 of channel 64. -/
def frozenState (st mode : Nat) : State :=
  { mtState2 with boot := maintBoot, dom := { st := st }, mode := mode
                  mem := { chans := [(3, { frozen := true }), (4, { trained := true, ready := true }), (66, { frozen := true }), (67, { trained := true, ready := true })]
                           farWritten := [(64, true)], popSet := true } }
theorem frozenFree (st mode : Nat) : ClerksFree (frozenState st mode) :=
  ⟨by rfl, rfl, rfl, rfl, rfl, rfl, fun c => by
    simp only [frozenState, State.chan, Tab.get]; split <;> (try rfl); split <;> (try rfl); split <;> (try rfl); split <;> rfl⟩
theorem issuedFz (st mode : Nat) (c : CmdBody) (n : Nat) (h1 : hdrCheck (hd n) c = 0)
    (h2 : (frozenState st mode).stateCheck (hd n) (cmdOpc c) = 0) : Issued (frozenState st mode) (hd n) c 3 :=
  ⟨frozenFree st mode, rfl, h1, by simp [hdrDry, hd], h2⟩
theorem wit_ChannelManagementCommands : (∀ m ∈ [(0 : BitVec 8), 1, 2], Issued (frozenState 3 0) (hd 1) (.pasrSet m) 3) ∧
    (∀ x ∈ [(3 : BitVec 8), 4], Issued (frozenState 3 0) (hd 2) (.chThaw 0 x) 3 ∧ Issued (frozenState 2 0) (hd 2) (.chThaw 0 x) 3 ∧
      Issued (frozenState 3 0) (hd 2) (.chRetrain 0 x) 3) ∧
    (∀ a ∈ [(128 : Word), 5], Issued (frozenState 3 0) (hd 74) (.chRawWrite 1 2 a 7) 3 ∧ Issued (frozenState 3 2) (hd 74) (.chRawWrite 0 4 a 7) 3 ∧
      Issued (frozenState 3 0) (hd 12) (.chRawRead 1 0 a 1) 3 ∧ Issued (frozenState 3 0) (hd 12) (.chRawRead 0 3 a 1) 3) ∧
    (∀ c ∈ [(9 : BitVec 8), 1], Issued (frozenState 3 0) (hd 10) (.ppr c 0 0 0 0 5 1) 3) ∧
    (frozenState 3 0).chanNamed 0 3 = some 3 ∧ (frozenState 3 0).chanNamed 1 2 = some 66 ∧ (frozenState 3 0).rawAddr 66 128 = true ∧
    (frozenState 3 0).rawAddr 3 128 = true ∧ (frozenState 3 0).rawAddr 66 5 = false ∧ 2 < 15 - (frozenState 3 0).houseWays ∧
    (frozenState 3 0).farKnown 64 = true ∧ (frozenState 3 0).rawAddr 64 4096 = true ∧ (frozenState 3 0).pprCheck 1 0 0 0 0 5 1 = 0 ∧
    (frozenState 3 0).inPause = false ∧ (frozenState 3 0).ras.latent = [] ∧ (frozenState 3 0).ras.arm = false ∧ (frozenState 3 0).mem.raw = [] ∧
    (∀ c ∈ (frozenState 3 0).chansOf true, ((frozenState 3 0).chan c).sr = false) ∧ ({ frozenState 3 0 with mtu := { inLull := true } } : State).inPause = true ∧
    (1 : BitVec 8).toNat < 2 ^ 2 ^ (frozenState 3 0).mem.kbits ∧ 2 ^ 2 ^ (frozenState 3 0).mem.kbits ≤ (2 : BitVec 8).toNat := by
  simp only [List.forall_mem_cons, List.not_mem_nil, IsEmpty.forall_iff, implies_true, and_true]
  refine ⟨⟨?_, ?_, ?_⟩, ⟨⟨?_, ?_, ?_⟩, ?_, ?_, ?_⟩, ⟨⟨?_, ?_, ?_, ?_⟩, ?_, ?_, ?_, ?_⟩, ⟨?_, ?_⟩, ?_⟩ <;>
    first | exact issuedFz _ _ _ _ (by decide +kernel) (by decide +kernel) | decide +kernel

/-! CacheManagementCommands -/

theorem wit_CacheManagementCommands : (∀ f ∈ [(0 : BitVec 8), 1, 11], Issued { mtState2 with boot := maintBoot } (hd 1) (.partSetFlat f) 3) ∧
    (∀ m ∈ [(0 : BitVec 8), 1, 2, 3], Issued { mtState2 with boot := maintBoot } (hd 1) (.cacheMode m) 3) ∧
    (∀ op ∈ [(0 : BitVec 8), 6], Issued { mtState2 with boot := maintBoot } (hd 18) (.rangeOp op 0 4096 64) 3) ∧
    (∀ w ∈ [(2 : BitVec 8), 15], Issued { mtState2 with boot := maintBoot } (hd 6) (.unretire 0 0 w) 3) ∧
    Issued { mtState2 with boot := maintBoot } (hd 6) (.unretire 64 0 1) 3 ∧
    mtState2.layoutKnown = true ∧ mtState2.flatWays = 0 ∧ mtState2.houseWays + 1 ≤ 12 ∧
    ({ mtState2 with glbPart := Tmr.of (partWord 4 2 8) } : State).flatWays = 4 ∧ mtState2.mode ≠ 1 ∧ mtState2.others = [] ∧
    ({ mtState2 with dom := { st := 1, table := Tmr.of (BitVec.ofNat 136 34) } } : State).others ≠ [] ∧ sliceOfSet mtState2.part 0 = 0 ∧ mtState2.nearFrozen 0 = false ∧
    ({ ways := List.replicate 14 { st := stX } } : TagBlk).ways.length = 14 ∧ (({ ways := List.replicate 14 { st := stX } } : TagBlk).get 2).st = stX ∧
    tagError mtState2.part 0 { ways := List.replicate 14 { st := stX } } = false ∧ mtState2.ras.latent = [] ∧ (mtState2.setRec 0).ce.length = 14 := by
  simp only [List.forall_mem_cons, List.not_mem_nil, IsEmpty.forall_iff, implies_true, and_true]
  refine ⟨⟨?_, ?_, ?_⟩, ⟨?_, ?_, ?_, ?_⟩, ⟨?_, ?_⟩, ⟨?_, ?_⟩, ?_, ?_⟩ <;>
    first | exact issued _ _ _ (by decide) (by decide) (by decide +kernel) (by decide +kernel) | decide +kernel

/-! CacheMaintenanceVisits -/

/-- Line 64 of node 5 in way 2 of slice 0 … as its set, with entry `e`, and a range operation `op` at its page. -/
def visitState (op : Nat) (e : TagEnt) : State :=
  { mtState2 with boot := maintBoot
                  mem := { tags := [(setOf .f144 (mkLa 5 64), { ways := ({} :: e :: List.replicate 12 {}) })] }
                  mgt := { range := some { runId := 0, op := op, base := 64 * mkLa 5 64, len := 4096 } } }
def visited (st : BitVec 3) (lock : Bool) : TagEnt := { tag := tagOf .f144 (mkLa 5 64), st := st, lock := lock }
theorem visitLine : pageLine (sliceOf (mkLa 5 64)) (64 * mkLa 5 64 / 4096 + 0) = mkLa 5 64 := by decide +kernel
theorem visitIn : 64 * mkLa 5 64 ≤ 64 * mkLa 5 64 ∧ 64 * mkLa 5 64 < 64 * mkLa 5 64 + 4096 := by decide +kernel
theorem visitWit (op : Nat) (e : TagEnt) (h : op ≤ 5) (h2 : (visitState op e).findLine (mkLa 5 64) = some (2, e))
    (h3 : 0 < (visitState op e).rangeSize { runId := 0, op := op, base := 64 * mkLa 5 64, len := 4096 })
    (h4 : (visitState op e).sliceOn (sliceOf (mkLa 5 64)) = true) (h5 : (visitState op e).nearFrozen (sliceOf (mkLa 5 64)) = false)
    (h6 : ((visitState op e).nearTags (setOf (visitState op e).part (mkLa 5 64))).ways.length = 14)
    (h7 : (visitState op e).busyLine (sliceOf (mkLa 5 64)) (mkLa 5 64) = false ∧
      (visitState op e).maintWaits (sliceOf (mkLa 5 64)) (mkLa 5 64) = false)
    (h8 : tagError (visitState op e).part (setOf (visitState op e).part (mkLa 5 64)) ((visitState op e).nearTags (setOf (visitState op e).part (mkLa 5 64))) = false) :
    Visiting (visitState op e) (sliceOf (mkLa 5 64)) 0 (mkLa 5 64) 2 { runId := 0, op := op, base := 64 * mkLa 5 64, len := 4096 } e :=
  ⟨h4, h5, rfl, ⟨h, rfl, rfl, rfl⟩, rfl, h3, visitLine, visitIn, rfl, h2, rfl, h6, h7, fun _ h => absurd h (List.not_mem_nil), h8, rfl⟩
theorem wit_CacheMaintenanceVisits : (∃ w, Visiting (visitState 0 (visited stM false)) (sliceOf (mkLa 5 64)) 0 (mkLa 5 64) w
      { runId := 0, op := 0, base := 64 * mkLa 5 64, len := 4096 } (visited stM false)) ∧
    (∃ w, Visiting (visitState 4 (visited stE false)) (sliceOf (mkLa 5 64)) 0 (mkLa 5 64) w
      { runId := 0, op := 4, base := 64 * mkLa 5 64, len := 4096 } (visited stE false)) ∧
    (∃ w, Visiting (visitState 5 (visited stE true)) (sliceOf (mkLa 5 64)) 0 (mkLa 5 64) w
      { runId := 0, op := 5, base := 64 * mkLa 5 64, len := 4096 } (visited stE true)) ∧
    (visitState 0 (visited stM false)).classOf (mkLa 5 64) = .loc ∧ (visitState 0 (visited stM false)).farFrozen (laLocal (mkLa 5 64)) = false ∧
    (visitState 4 (visited stE false)).otherFree ((visitState 4 (visited stE false)).nearTags (setOf .f144 (mkLa 5 64))) 2 = true ∧
    ({} : Finds).tag = [] ∧ ({} : Finds).way = [] ∧ (visitState 8 {}).hsf = [] ∧ (visitState 8 {}).bisnps = [] ∧
    ((visitState 0 (visited stM false)).cunit (64 + farCh (laLocal (mkLa 5 64))) (farSub (laLocal (mkLa 5 64)))).merge = [] ∧
    (visitState 8 {}).flatQuiet 0 = true ∧ 8 < 14 - (visitState 8 {}).houseWays - 0 ∧
    ({ visitState 8 {} with glbPart := Tmr.of (partWord 0 2 8) } : State).cacheWays < 9 := by
  refine ⟨⟨2, visitWit _ _ (by decide) (by decide +kernel) (by decide +kernel) (by decide +kernel) (by decide +kernel) (by decide +kernel) (by decide +kernel) (by decide +kernel)⟩, ⟨2, visitWit _ _ (by decide) (by decide +kernel) (by decide +kernel) (by decide +kernel) (by decide +kernel) (by decide +kernel) (by decide +kernel) (by decide +kernel)⟩,
    ⟨2, visitWit _ _ (by decide) (by decide +kernel) (by decide +kernel) (by decide +kernel) (by decide +kernel) (by decide +kernel) (by decide +kernel) (by decide +kernel)⟩, ?_⟩
  decide +kernel

/-! FirmwareCommands -/

theorem wit_FirmwareCommands : Issued { mtState2 with boot := maintBoot } (hd 0) .fwInfo 3 ∧ Issued { mtState2 with boot := maintBoot } (hd 0) .fwErase 3 ∧
    (∀ o ∈ [(0 : BitVec 32), 0x3FFFFF, 0x400000], Issued { mtState2 with boot := maintBoot } (hd 5) (.fwWrite o [7]) 3) ∧
    Issued { mtState2 with boot := maintBoot } (hd 0) .fwVerify 3 ∧ Issued { mtState2 with boot := maintBoot } (hd 0) .fwActivate 3 ∧
    (mtState2.flash mtState2.fwTarget).erased = false ∧ mtState2.fwSelect = none ∧
    ({ mtState2 with mgt := { flashB := { erased := true, prog := [(0, 4)] } } } : State).fwTarget = true := by
  simp only [List.forall_mem_cons, List.not_mem_nil, IsEmpty.forall_iff, implies_true, and_true]
  refine ⟨?_, ?_, ⟨?_, ?_, ?_⟩, ?_, ?_, ?_⟩ <;>
    first | exact issued _ _ _ (by decide) (by decide) (by decide +kernel) (by decide +kernel) | decide +kernel

/-! TallyAndTrace -/

/-- Counter 2 of unit 5 is being routed to event 1 of slice 0, as the only work of a TALLY_ROUTE. -/
def routeState : State :=
  { mtState2 with tlys := [(5, { cnt := [(2, { evsel := 1, routing := true })] })]
                  mgt := { running := [{ id := 0, hdr := hd 6, body := .tallyRoute [(5, 2, 1)] }] } }
theorem wit_TallyAndTrace : Issued { mtState2 with boot := maintBoot } (hd 6) (.tallyRoute [(5, 2, 1)]) 3 ∧
    Issued { mtState2 with boot := maintBoot } (hd 6) (.tallyRoute [(96, 2, 1)]) 3 ∧ mtState2.eventListed 1 = true ∧
    Issued { mtState2 with boot := maintBoot } (hd 32) (.traceSetup 1 2 3 0x8000000000000000) 3 ∧
    (Tab.get {} (mtState2.tly 5).cnt 2).evsel ≠ 1 ∧ (Tab.get {} (({ mtState2 with tlys := [(5, { cnt := [(2, { evsel := 1 })] })] } : State).tly 5).cnt 2).evsel = 1 ∧
    routeState.powered = true ∧ (Tab.get {} (routeState.tly 5).cnt 2).routing = true ∧ (Tab.get {} (routeState.tly 5).cnt 3).routing = false ∧
    ({ routeState with mgt := {} } : State).mgt.running = [] ∧ up.linkOn 0 = true ∧ up.devState = 1 ∧ mtState2.linkOn 0 = true ∧ mtState2.devState ≠ 1 ∧
    0 < up.part.hostPorts := by
  refine ⟨issued _ _ _ (by decide) (by decide) (by decide +kernel) (by decide +kernel), issued _ _ _ (by decide) (by decide) (by decide +kernel) (by decide +kernel),
    by decide +kernel, issued _ _ _ (by decide) (by decide) (by decide +kernel) (by decide +kernel), by decide +kernel⟩

/-! BistAndRepair -/

/-- Paused after step 2 by STOP_AT 0, with firmware running. -/
def pauseBoot : Boot := { step := 2, paused := true, stopAt := 0, fwRom := false }
/-- A BIST of `target` 5 goes on. -/
def bistState (target : Nat) : State :=
  { mtState2 with mgt := { bist := some (0, target, 5), running := [{ id := 0, hdr := hd 3, body := .bistRun (BitVec.ofNat 8 target) 5 0 }] } }
theorem wit_BistAndRepair : (∀ i ∈ [(2 : BitVec 8), 3, 8, 200], Issued (frozenState 3 0) (hd 3) (.bistRun 3 i 0) 3 ∧
      Issued (frozenState 3 0) (hd 3) (.bistRun 2 i 0) 3 ∧ Issued (frozenState 2 0) (hd 3) (.bistRun 2 i 0) 3) ∧
    Issued (frozenState 3 0) (hd 3) (.bistRun 1 0 0) 3 ∧ Issued (frozenState 3 0) (hd 3) (.bistRun 0 0 0) 3 ∧
    Issued { mtState2 with boot := pauseBoot } (hd 3) (.bistRun 1 0 0) 3 ∧ Issued { mtState2 with boot := maintBoot } (hd 0) .repairStatus 3 ∧
    ({ mtState2 with boot := pauseBoot } : State).boot.level = 0 ∧ ((frozenState 3 0).chan 66).frozen = true ∧ ((frozenState 3 0).chan 67).frozen = false ∧
    (bistState 3).powered = true ∧ (frozenState 3 0).devState = 2 ∧ (frozenState 3 0).part.nmcs = 64 := by
  simp only [List.forall_mem_cons, List.not_mem_nil, IsEmpty.forall_iff, implies_true, and_true]
  refine ⟨⟨⟨?_, ?_, ?_⟩, ⟨?_, ?_, ?_⟩, ⟨?_, ?_, ?_⟩, ?_, ?_, ?_⟩, ?_, ?_, ?_, ?_, ?_⟩ <;>
    first
    | exact issuedFz _ _ _ _ (by decide +kernel) (by decide +kernel)
    | exact issued _ _ _ (by decide) (by decide) (by decide +kernel) (by decide +kernel)
    | decide +kernel

/-! TestAccessPort -/

theorem wit_TestAccessPort : up.tap.control = false ∧ up.pcr.resetLow = false ∧ ({ up with tap := { control := true } } : State).tap.control = true ∧
    ({ up with pcr := { up.pcr with resetLow := true } } : State).pcr.resetLow = true := by
  decide +kernel

/-! WayClasses -/

theorem wit_WayClasses : mtState2.cacheWays + mtState2.flatWays + mtState2.houseWays = 14 ∧
    ({ mtState2 with glbPart := Tmr.of (partWord 4 2 8) } : State).cacheWays + ({ mtState2 with glbPart := Tmr.of (partWord 4 2 8) } : State).flatWays +
      ({ mtState2 with glbPart := Tmr.of (partWord 4 2 8) } : State).houseWays = 14 ∧
    3 < ({ mtState2 with glbPart := Tmr.of (partWord 4 2 8) } : State).flatWays := by
  decide +kernel

/-! EncodingsAgree -/

theorem wit_EncodingsAgree : (CmdBody.rangeOp 0 0 4096 64).sound = true ∧ (CmdBody.tallyRoute [(5, 2, 1)]).sound = true ∧
    (∀ p ∈ [(⟨9, 5, 0, true, 1, 0, 0, 15, 255, true, .coh false { opc := 3, la := 2 ^ 51 - 1, data := 7 }⟩ : Packet),
      ⟨9, 5, 3, false, 0, 0, 0, 1, 0, false, .mgt { tag := 1, index := 1, count := 2, total := 200, body := List.replicate 8 7 }⟩,
      ⟨9, 5, 2, false, 0, 0, 0, 0, 0, false, .putAnswer 255 (2 ^ 32 - 1) 7⟩, ⟨9, 5, 0, false, 0, 0, 0, 0, 0, false, .linkReport 15 15 (some 1023)⟩], p.sound = true) ∧
    ({ ft := 0, seq := 1023, ack := 1023, cvn := 3, cvc := 1, ccl := 1, crd := 63 } : FlitHdr).sound = true ∧
    (List.replicate 15 (7 : BitVec 128)).length = 15 := by
  decide +kernel
theorem enc_packets : pktsOf 99 ([(⟨9, 5, 0, true, 1, 0, 0, 15, 255, true, .coh false { opc := 3, la := 2 ^ 51 - 1, data := 7 }⟩ : Packet),
      ⟨9, 5, 3, false, 0, 0, 0, 1, 0, false, .mgt { tag := 1, index := 1, count := 2, total := 200, body := List.replicate 8 7 }⟩].flatMap pktSlots) =
    [⟨9, 5, 0, true, 1, 0, 0, 15, 255, true, .coh false { opc := 3, la := 2 ^ 51 - 1, data := 7 }⟩,
      ⟨9, 5, 3, false, 0, 0, 0, 1, 0, false, .mgt { tag := 1, index := 1, count := 2, total := 200, body := List.replicate 8 7 }⟩] := by decide +kernel

/-! Ill-formed commands that WellFormed refuses: at least one for each of its checks. -/

theorem test_wf_links : ([.warm 8, .cxlMemRequest 8 { op := .read, dpa := 0 } {}, .hdmDecoderCommit 8 0 0 0 0 0, .hdmDecoderCommit 0 4 0 0 0 0,
    .hdmDecoderCommit 0 0 0 0 4 0, .hdmDecoderCommit 0 0 0 0 0 15, .creditReturn 8, .hostLinkHotReset 8, .ideIntegrityFailure 8,
    .badRegisterAccess 8 1 4 true, .pwbIssue 8, .pwbDeadlineExpiry 8 0, .pwbHwmReset 8, .fenceRead 8 0 8, .fenceRead 0 0 2, .hostLinkUp 8 4 16 false false,
    .hostLinkUp 0 5 16 false false, .hostLinkUp 0 4 17 false false, .boundClear 8 0, .boundClear 0 4, .capture 8, .mtuNowRead 8,
    .tallyLowHalfRead 8 0] : List Instr).all (fun i => !i.wf) = true := by decide
theorem test_wf_requests : ([.cxlMemRequest 0 { op := .read, dpa := 32 } {}, .cxlMemRequest 0 { op := .read, dpa := 2 ^ 64 } {},
    .registerWrite 8 0 8 0, .registerWrite 0 4 8 0, .registerWrite 0 0 2 0, .registerWrite 0 0x2000000 8 0, .systemTreeWrite 0 4 8 0,
    .contextRegisterWrite 0 4 8 0, .scheduleEntryWrite 0 4 8 0] : List Instr).all (fun i => !i.wf) = true := by decide
theorem test_wf_power : ([.bringupStep3End [] 0, .clerkTrap 4, .railFault 8, .thermalTrip 20, .nodeSet { via := .mailbox 8 } 0,
    .nodeSet { via := .mctp 256 } 0, .nodeSet { via := .fabric 32768 } 0, .nodeSet { via := .mctp 3, plen := 65536 } 0] : List Instr).all
    (fun i => !i.wf) = true := by decide
theorem test_wf_slices : ([.tagPipelineLookup 64 0 false {}, .tagBlockReadDone 64 0 .none {}, .tagBlockReadDone 0 2359296 .none {},
    .fillInstall 64 0 {}, .fillInstall 0 0 { ce := [217] }, .fillInstall 0 0 { dirs := [16] }, .fillInstall 0 1088 {}, .wayRetire 64 0 1 {}, .wayRetire 0 150994944 1 {}, .wayRetire 0 0 15 {}, .invalidate 64, .flush 64,
    .tagCacheDisable 64, .tagCacheActionDone 64, .wayPredictorClear 64, .streamTableClear 64, .mrHwmReset 64, .vbHwmReset 64, .rosterSweep 64,
    .maintenanceLookup 64 {}, .directoryStoreReadDone 64 0 [] {}, .directoryStoreReadDone 0 1024 [] {}, .chainedRequestStart 64 0 {},
    .chainedRequestStart 0 2251799813685248 {}, .ticketExpiry 64 0, .ticketExpiry 0 1024, .holdExpiry 64 0 {}, .holdExpiry 0 2251799813685248 {}] : List Instr).all
    (fun i => !i.wf) = true := by decide
theorem test_wf_messages : ([.rds 32768 {} {}, .rds 0 { opc := 1 } {}, .rdx 0 {} {}, .upg 0 {} {}, .wbd 0 {} {}, .offer 0 {} {}, .iwr 0 {} {}, .atom 0 {} {}, .inv 0 {} {},
    .fwds 0 {} {}, .fwdx 0 {} {}, .ack 0 {} {}, .data 0 {} {}, .datao 0 {} {}, .retry 0 {}, .nackDown 0 {} {}, .nackRange 0 {} {}, .grd 0 {} {}, .gwr 0 {} {}, .gatom 0 {} {},
    .gdata 0 {}, .gack 0 {} {}, .gbusy 0 {}, .rds 0 { grant := 8 } {}, .rds 0 { tid := 8192 } {}, .rds 0 { req := 32768 } {}, .rds 0 { htid := 1024 } {},
    .rds 0 { la := 2251799813685248 } {}, .arrive 0 {}, .downdraft 0 {}, .breq 0 {}, .bbusy 0 {}, .bcast 0 {}, .back 0 {}, .bdone 0 {},
    .arrive 0 { op := 1, gen := 256 }, .arrive 0 { op := 1, code := 256 }, .arrive 0 { op := 1, origin := 32768 }, .arrive 0 { op := 1, ityp := 4 },
    .arrive 0 { op := 1, ctx := 4096 }, .arrive 0 { op := 1, vpage := 2 ^ 45 }, .retryGapExpiry 64 0 0, .retryGapExpiry 0 32768 0,
    .retryGapExpiry 0 0 32, .cohTimeout (.mr 64 0), .cohTimeout (.tracker 0 1024), .cohTimeout (.recall 16 0), .fabricDeadlineExpiry (.mr 0 64) {},
    .fabricDeadlineExpiry (.vb 0 16) {}, .fabricDeadlineExpiry (.put 32 0) {}] : List Instr).all (fun i => !i.wf) = true := by decide
theorem test_wf_fabric : ([.trainingStateComplete 16 0, .identBlock 16 { valid := false, node := 0, port := 0, part := 0, domain := 0, digest := 0, rseq := none },
    .identBlock 0 { valid := false, node := 1, port := 0, part := 0, domain := 0, digest := 0, rseq := none },
    .identBlock 0 { valid := true, node := 1, port := 16, part := 0, domain := 0, digest := 0, rseq := none },
    .identBlock 0 { valid := true, node := 1, port := 0, part := 0, domain := 0, digest := 0, rseq := some 1024 }, .flit 16 0, .nak 16 0, .nak 0 1024,
    .noFlitTimeout 16, .flitPack 16, .oseqGapTimeout 32768, .routeFailNotice 32768 0 0, .linkReport 32768 0 0 none, .linkReport 0 16 0 none,
    .linkReport 0 0 16 none, .linkReportTimeout 16, .timeExchange 16, .timePacket 16 {} false, .timePacket 0 { stratum := 256 } false,
    .timePacket 0 { t1 := 2 ^ 64 } false, .heartbeat 32768 0 0 0, .heartbeat 0 256 0 0, .heartbeat 0 0 4 0, .memberDead 128, .join 0 256 0,
    .ready 32768 0 0, .managementFragment 0 {}, .managementFragment 0 { count := 1, body := List.replicate 193 0 }, .reassemblyTimeout 4,
    .domainFailNotice 0 {}, .retrain 16, .portEnableWrite 16 true, .laneLockLost 16] : List Instr).all (fun i => !i.wf) = true := by decide +kernel
theorem test_wf_channels : ([.lullSegmentStart 72, .lullSegmentDone 72 true [], .refreshCadencePhase 64, .freeRunningRefresh 72, .scrubStep 64 [],
    .directorySweep 64, .counterSnapshot 64, .leakyBucketLeak 64, .leaseEpochAdvance 64, .thermalSample 0 [], .commandSlotPick 72 0 .none {},
    .commandSlotPick 0 2 .none {}, .rowIdleTimeout 0 0 128, .selfRefreshEntry 72, .selfRefreshExit 72 {}, .channelFreeze 0 4 {},
    .channelFreeze 0 0 { cmd := 8 }, .channelFreeze 0 0 { rank := 4 }, .channelFreeze 0 0 { cu := 2 }, .channelFreeze 0 0 { bank := 32 },
    .channelFreeze 0 0 { col := 128 }, .channelFreeze 0 0 { row := 2 ^ 18 }, .mergeBufferTimeout 72 0 0 .none {}, .mergeBufferTimeout 0 2 0 .none {},
    .channelTrainingComplete 72 true] : List Instr).all (fun i => !i.wf) = true := by decide
theorem test_wf_units : ([.walkTableReadDone 5 0, .walkCasDone 5 0, .walkLimit 5 0, .tlbEntryAgeOut 5, .address 0 4096 0, .address 0 0 4, .context 8 0 0,
    .all 0 4, .porterFetch 32 [] {}, .porterFetch 0 [2 ^ 27] {}, .porterActivate 32, .pieceIssue 32 {}, .pieceResponse 32 0, .recordRetry 32,
    .queuePut 0 65536 0 0 0, .queuePut 0 0 32 0 0, .putAnswer 0 32 0 0, .notifyRetry 32 0, .abortOne 0 32 0, .abortAll 8 0, .resume 0 32,
    .porterDisable 8 0, .enqueue [2 ^ 27] [] {}, .enqueue [] [65536] {}, .push 0 64 1 8, .push 0 0 0 8, .push 0 0 65 8, .push 0 0 1 2, .advance 0 64 0 [] {},
    .advance 0 0 0 [2 ^ 27] {}, .dropPacket 0 64 [] {}, .queueFlush 8 0 [] {}, .clear 0 64, .queueDisable 0 65536, .pageCodeEnable 0 8, .pageCodeInitDone 8, .arm 8 0,
    .start 0 96 0, .stop 8 0 0, .counterClear 0 96, .evselWrite 0 0 8 0, .routingDone 96 0, .bistComplete 3 0 0 [], .bistComplete 0 0 0 [(217, 0, false)],
    .fwWrite { via := .mctp 0 } 0 (List.replicate 4093 0), .tallyRoute { via := .mctp 0 } []] : List Instr).all (fun i => !i.wf) = true := by decide +kernel
theorem test_wf_accepts : ([.warm 7, .rds 0x181 { tid := 0x151, req := 0x181, la := 0x182028000005 } {}, .registerWrite 0 0x1FFFFF8 8 0, .bypass 0x42,
    .wayRetire 63 150994943 14 {}, .linkReport 5 15 0 (some 1023)] : List Instr).all Instr.wf = true := by decide

/-! Worked examples of the spec. Each expected value is the spec's own. -/

/-- The example under R8: node 3.17. -/
theorem test_r8 : 3 * 128 + 17 = 0x191 ∧ mkLa 0x191 (0x1234567840 / 64) = 0x191048D159E1 ∧ laNode 0x191048D159E1 = 0x191 := by decide +kernel
/-- The F144 decomposition under R44. -/
theorem test_decompose_f144 : setOf .f144 0x191048D159E1 = 0x5D159E1 ∧ tagOf .f144 0x191048D159E1 = 0x0191048 ∧ sliceOf 0x191048D159E1 = 7 ∧
    rowOf .f144 0x5D159E1 = 0x174567 ∧ nmcOf .f144 7 = 7 ∧ lineOf .f144 0x5D159E1 0x0191048 = 0x191048D159E1 := by decide +kernel
/-- The S72 decomposition under R44. -/
theorem test_decompose_s72 : mkLa 0x191 0x9FCEB07 = 0x191009FCEB07 ∧ setOf .s72 0x191009FCEB07 = 0x17CEB07 ∧ tagOf .s72 0x191009FCEB07 = 0x0322013 ∧
    sliceOf 0x191009FCEB07 = 58 ∧ rowOf .s72 0x17CEB07 = 0x5F3AC ∧ nmcOf .s72 58 = 26 := by decide +kernel
/-- The flat read of the example under R102: two house ways, flat offset 0x4_4000_0040. -/
theorem test_flat_slot : flatSlot .f144 2 (0x440000040 / 64) = (0x8000001, 11) ∧ sliceOfSet .f144 0x8000001 = 1 ∧ rowOf .f144 0x8000001 = 0x200000 := by
  decide +kernel
/-- The tag block of the example under R254: pseudo-channel 1, SID 1, bank 3, row 0x5A2B. -/
theorem test_near_decode : nmcUnit 0x174567 = 1 ∧ nmcBank 0x174567 = 1 * 16 + 3 ∧ nmcRow 0x174567 = 0x5A2B := by decide +kernel
/-- The line of the example under R256: channel 0, subchannel 0, column 30, bank group 0, bank 3, row 0x048D1, rank 0. -/
theorem test_far_decode : farCh 0x48D159E1 = 0 ∧ farSub 0x48D159E1 = 0 ∧ farCol 0x48D159E1 = 30 ∧ farBg 0x48D159E1 = 0 ∧ bits 0x48D159E1 11 2 = 3 ∧
    farRow 18 0x48D159E1 = 0x048D1 ∧ farRank 18 2 0x48D159E1 = 0 := by decide +kernel
/-- The example under R157: four ways at 1 KiB, port 2. -/
theorem test_interleave : winOffset 0x48D159C40 2 10 2 = 0x1234567840 := by decide +kernel
/-- The high word of the header in the example under R126 (its low word there is misprinted: notes/assumptions/32.md). -/
theorem test_coh_header : (cohHeader { opc := 0, tid := 0x151, req := 0x181, la := 0x182028000005 }).toNat / 2 ^ 64 = 0x000000A881810000 ∧
    (cohOfHeader (cohHeader { opc := 0, tid := 0x151, req := 0x181, la := 0x182028000005 })).la = 0x182028000005 ∧
    sliceOf 0x182028000005 = 5 ∧ tidMr 5 17 = 0x151 ∧ tidVb 5 3 = 0x1143 := by decide +kernel
/-- The fabric header of the example under Table 12.5. -/
theorem test_pkt_header : pktHeader ⟨0x182, 0x181, 0, false, 0, 0, 0, 0, 0x2A, false, .coh false { tid := 0x151, req := 0x181, la := 0x182028000005 }⟩ =
    0x030406040080A8000000000000000000 := by decide +kernel
/-- The example under R232: DOM_HOPS 7 and HOLD 16 in every bank give bmax 1,144 ns and two guard beats. -/
theorem test_guard_beats :
    ((List.range 16).foldl (fun s b => s.csrPut (offDir b 0) (setFld (s.csrGet (offDir b 0)) 0 8 16))
      (up.csrPut (offMtu 8) (setFld (up.csrGet (offMtu 8)) 32 4 7))).longestBound = 2 * 1144 ∧
    ((List.range 16).foldl (fun s b => s.csrPut (offDir b 0) (setFld (s.csrGet (offDir b 0)) 0 8 16))
      (up.csrPut (offMtu 8) (setFld (up.csrGet (offMtu 8)) 32 4 7))).guardBeats = 2 := by decide +kernel
/-- The register-window examples of chapter 19. -/
theorem test_offsets : offSlc 2 0x110 = 0x420110 ∧ offCh 67 8 = 0xC60008 := by decide
/-- The command packet of the example in chapter 17, bytes 0 to 7 and 32 to 49. -/
theorem test_range_op_packet : hdrBytes 0x0301 { via := .mailbox 1, tag := 0x42, plen := 18 } 0 =
      [0x01, 0x03, 0x42, 0x00, 0x00, 0x01, 0x12, 0x00] ++ List.replicate 24 0 ∧
    cmdParams (.rangeOp 0 2 0x6441000000000 0x40000000) =
      [0x00, 0x02, 0, 0, 0, 0, 0x10, 0x44, 0x06, 0, 0, 0, 0, 0x40, 0, 0, 0, 0] ∧
    cmdOf 0x0301 [0x00, 0x02, 0, 0, 0, 0, 0x10, 0x44, 0x06, 0, 0, 0, 0, 0x40, 0, 0, 0, 0] = .rangeOp 0 2 0x6441000000000 0x40000000 := by decide +kernel
/-- Its reply header. -/
theorem test_range_op_reply : (replyBytes 0x0301 { via := .mailbox 1, tag := 0x42, plen := 18 } 0 (List.replicate 16 0)).take 16 =
    [0x01, 0x03, 0x42, 0x00, 0x00, 0x00, 0x00, 0x01, 0x10, 0, 0, 0, 0, 0, 0, 0] := by decide +kernel
/-- The check value of CRC-32C: of the digits 1 to 9 it is 0xE3069283 (the CRC's own definition, which R331 names). -/
theorem test_crc32c : crc32c [0x31, 0x32, 0x33, 0x34, 0x35, 0x36, 0x37, 0x38, 0x39] = 0xE3069283 := by decide +kernel
/-- The victim of Table 3.6, before the B fill: way 3, the lowest-numbered unlocked way at age 3. -/
theorem test_victim : ({ up with mem := { tags := [(0, { ways := [{ st := 4, age := 2 }, { st := 1, age := 3, lock := true }, { st := 1, age := 3 },
    { st := 2, age := 3 }, { st := 3, age := 3 }, { st := 1, age := 0 }, { st := 4, age := 1 }, { st := 1, age := 3 }, { st := 1, age := 2 },
    { st := 2, age := 3 }, { st := 4, age := 2 }, { st := 1, age := 3 }, { st := 7 }, {}] })] } } : State).victim (sliceOfSet .f144 0) 0 = some 3 := by
  decide +kernel
/-- The status word of the example under R199: DEAD_TARGET, SEEN_DEAD, node 0xA03. -/
theorem test_status_node (f : Fence) (h : f.seenDead = true ∧ f.seenDown = false ∧ f.node = some 0xA03) : f.status 1 = 0x8A030101 := by
  simp [Fence.status, h]

/-- The state after a command. -/
def after (c : Instr) (s : State) : State := match exec c s with | .next t => t | _ => s
/-- The burst of the example under R382: 32 porters offer records of one cell to queue 700, which holds 56 cells of 64. -/
def burst (count : Nat) : State :=
  { up with qmg := { qs := [(700, { en := true, count := count, items := count, head := 5, tail := 5 })], links := [(5, { last := true, next := 0 })],
                     fresh := 100, freshEnd := 1000, lastPorter := 29,
                     offers := (List.range 32).map fun p => { who := .porter p 0, q := 700, cells := [7] } } }
/-- The first clock serves porters 30, 31, 0 and 1, and COUNT is then 60. -/
theorem test_queue_rotation : ((after (.enqueue [] [] {}) (burst 56)).qent 700).count = 60 ∧ (after (.enqueue [] [] {}) (burst 56)).qmg.lastPorter = 1 ∧
    ((after (.enqueue [] [] {}) (burst 56)).qmg.offers.map (·.porter)).take 2 = [some 2, some 3] := by decide +kernel
/-- At COUNT 64 a REFUSE queue refuses all four of a clock. -/
theorem test_queue_full : ((after (.enqueue [] [] {}) (burst 64)).qent 700).count = 64 ∧ ((after (.enqueue [] [] {}) (burst 64)).qent 700).refused = 4 := by
  decide +kernel
/-- Powering up and the first bring-up step: step 1 is in progress and ends without a level. -/
theorem test_powerUp : (after (.powerGoodRise 0 true false) State.reset).boot.step = 1 ∧
    (after (.bringupStep1End true) (after (.powerGoodRise 0 true false) State.reset)).boot.step = 2 ∧
    (after (.bringupStep1End false) (after (.powerGoodRise 0 true false) State.reset)).boot.stopped = true := by decide +kernel
theorem test_timeSet : (after (.timeSet (hd 8) 0x2000000) mtState2).mtu.pendingSet = some 0x2000000 := by decide +kernel

end Sys2Proof.Tests
end

section
/-! SUPPORT. What one core clock does to time: the core clock counts once, MT as R214 has it count, and everything the clock does after
that leaves both alone. -/

namespace Sys2Proof.Machine

/-! ### MT's count -/

/-- Neither held nor at half rate, and with nothing to slew, MT counts one. -/
theorem Mtu.count_mt_of_free {m : Mtu} (clk : Nat) (refined : Bool) (hhold : m.hold = none) (hhalf : m.half = none)
    (hfree : m.steer = none ∨ m.slew = 0) : (m.count clk refined).mt = m.mt + 1 := by
  have hno : ¬(clk % 512 == 0 && refined && m.steer.isSome && 2 ≤ m.lock && m.slew != 0) = true := by
    rcases hfree with h | h <;> simp [h]
  simp only [Mtu.count, hhold, hhalf, if_neg hno]

theorem State.mtClock_mt_of_odd {s : State} (h : s.clk % 2 = 1) : s.mtClock.mtu.mt = s.mtu.mt := by
  simp [State.mtClock, h]

theorem State.mtClock_mt_of_even {s : State} (h : s.clk % 2 = 0) : s.mtClock.mtu.mt = (s.mtu.count s.clk s.refined).mt := by
  simp [State.mtClock, h]

@[simp] theorem State.mtClock_clk (s : State) : s.mtClock.clk = s.clk := (State.mtClock_within s).only.clk rfl

/-- The clock counts, then MT; a new beat adds its event. -/
theorem State.timeClock_cases (s : State) : ∃ p,
    s.timeClock = (State.mtClock { s with clk := s.clk + 1, paused := p }).event 209 1 1 ∨
    s.timeClock = State.mtClock { s with clk := s.clk + 1, paused := p } :=
  ⟨_, ite_eq_or_eq _ _ _⟩

theorem State.timeClock_time (s : State) : ∃ p,
    s.timeClock.clk = s.clk + 1 ∧ s.timeClock.mtu = (State.mtClock { s with clk := s.clk + 1, paused := p }).mtu := by
  obtain ⟨p, h | h⟩ := s.timeClock_cases
  · exact ⟨p, by simp [h], by simp [h]⟩
  · exact ⟨p, by simp [h], by simp [h]⟩

theorem State.timeClock_clk (s : State) : s.timeClock.clk = s.clk + 1 := by
  obtain ⟨_, hclk, -⟩ := s.timeClock_time
  exact hclk

/-- MT's share of a core clock (R212, R214): it stands when an even core clock ends, and counts one when an odd one does
(the phase is the model's choice: notes/assumptions/25.md). -/
theorem State.timeClock_mt_of_free {s : State} (hhold : s.mtu.hold = none) (hhalf : s.mtu.half = none)
    (hfree : s.mtu.steer = none ∨ s.mtu.slew = 0) : s.timeClock.mtu.mt = s.mtu.mt + (if s.clk % 2 = 0 then 0 else 1) := by
  obtain ⟨p, -, hmtu⟩ := s.timeClock_time
  rw [hmtu]
  split
  case isTrue heven => exact State.mtClock_mt_of_odd (by simp only; omega)
  case isFalse hodd =>
    rw [State.mtClock_mt_of_even (by simp only; omega)]
    exact Mtu.count_mt_of_free _ _ hhold hhalf hfree

/-! ### What leaves the time alone -/

/-- The core clock and MT stand in `t` as in `s`. -/
structure SameTime (s t : State) : Prop where
  clk : t.clk = s.clk
  mt : t.mtu.mt = s.mtu.mt

theorem SameTime.trans {s t u : State} (h : SameTime s t) (k : SameTime t u) : SameTime s u := ⟨k.clk.trans h.clk, k.mt.trans h.mt⟩

/-- After an operation that changes neither the core clock nor MT. -/
theorem SameTime.app {m : Mask} {s t u : State} (w : Within m t u) (hclk : m.clk = false) (hmt : m.mt = false) (h : SameTime s t) :
    SameTime s u :=
  h.trans ⟨w.only.clk hclk, congrArg Prod.fst (w.only.mt hmt)⟩

theorem Only.mtu_eq {m : Mask} {s t : State} (h : Only m s t) (hmt : m.mt = false) (hmtu : m.mtu = false) : t.mtu = s.mtu := by
  obtain ⟨emt, ehalf, ehold⟩ : t.mtu.mt = s.mtu.mt ∧ t.mtu.half = s.mtu.half ∧ t.mtu.hold = s.mtu.hold := by
    simpa using h.mt hmt
  calc t.mtu
      = { ({ t.mtu with mt := 0, half := none, hold := none } : Mtu) with mt := t.mtu.mt, half := t.mtu.half, hold := t.mtu.hold } := rfl
    _ = { ({ s.mtu with mt := 0, half := none, hold := none } : Mtu) with mt := s.mtu.mt, half := s.mtu.half, hold := s.mtu.hold } := by
      rw [h.mtu hmtu, emt, ehalf, ehold]

/-! ### The core clock -/

/-- What a core clock does once the time has counted. -/
def State.afterTime (s : State) : State :=
  let s := s.houseSettle.fatalsDue.tmrClock.portClock.fncClock.joinEnd.runEnds.pasrPump.stateDue.scrubClock
  let s := s.slices.foldl (fun s (n, _) => s.tcStep n) s
  (s.mgtPump.routesDue).tallyClock

theorem tick_of_unpowered {s : State} (h : s.powered = false) : tick s = s := by
  simp [tick, h]

theorem tick_of_powered {s : State} (h : s.powered = true) : tick s = s.noFinds fun x => x.leakClock.timeClock.afterTime := by
  simp only [tick, h, Bool.not_true, Bool.false_eq_true, if_false]
  rfl

theorem State.afterTime_sameTime (s : State) : SameTime s s.afterTime := by
  have hclocks : SameTime s s.houseSettle.fatalsDue.tmrClock.portClock.fncClock.joinEnd.runEnds.pasrPump.stateDue.scrubClock := by
    refine .app (State.scrubClock_within _) rfl rfl ?_
    refine .app (State.stateDue_within _) rfl rfl ?_
    refine .app (State.pasrPump_within _) rfl rfl ?_
    refine .app (State.runEnds_within _) rfl rfl ?_
    refine .app (State.joinEnd_within _) rfl rfl ?_
    refine .app (State.fncClock_within _) rfl rfl ?_
    refine .app (State.portClock_within _) rfl rfl ?_
    refine .app (State.tmrClock_within _) rfl rfl ?_
    refine .app (State.fatalsDue_within _) rfl rfl ?_
    exact .app (State.houseSettle_within _) rfl rfl ⟨rfl, rfl⟩
  refine .app (State.tallyClock_within _) rfl rfl ?_
  refine .app (State.routesDue_within _) rfl rfl ?_
  refine .app (State.mgtPump_within _) rfl rfl ?_
  exact .app (Within.foldl (fun x a => State.tcStep_within x a.1) (Within.refl _ _)) rfl rfl hclocks

theorem State.noFinds_sameTime (s : State) (go : State → State) : SameTime (go { s with finds := {} }) (s.noFinds go) := ⟨rfl, rfl⟩

/-- On a working E9 a core clock ends with the time that `timeClock` has made. -/
theorem tick_sameTime {s : State} (h : s.powered = true) :
    SameTime (State.timeClock (State.leakClock { s with finds := {} })) (tick s) := by
  rw [tick_of_powered h]
  refine .trans ?_ (State.noFinds_sameTime s _)
  exact State.afterTime_sameTime _

theorem tick_clk {s : State} (h : s.powered = true) : (tick s).clk = s.clk + 1 := by
  have hleak := (State.leakClock_within { s with finds := {} }).only.clk rfl
  rw [(tick_sameTime h).clk, State.timeClock_clk, hleak]

theorem tick_mt_of_free {s : State} (h : s.powered = true) (hhold : s.mtu.hold = none) (hhalf : s.mtu.half = none)
    (hfree : s.mtu.steer = none ∨ s.mtu.slew = 0) : (tick s).mtu.mt = s.mtu.mt + (if s.clk % 2 = 0 then 0 else 1) := by
  have hleak := (State.leakClock_within { s with finds := {} }).only
  have hclk : (State.leakClock { s with finds := {} }).clk = s.clk := hleak.clk rfl
  have hmtu : (State.leakClock { s with finds := {} }).mtu = s.mtu := hleak.mtu_eq rfl rfl
  rw [(tick_sameTime h).mt]
  simpa only [hclk, hmtu] using
    State.timeClock_mt_of_free (s := State.leakClock { s with finds := {} }) (by rwa [hmtu]) (by rwa [hmtu]) (by rwa [hmtu])

theorem step_of_idle {s : State} (h : s.pending = []) : step s = .next (tick s) := by
  simp only [step, h]

/-- Settles O2: an idle step is `tick`; the core clock and MT are counted by `timeClock` alone, and `tick_within` gives the rest. -/
theorem idleStepIsOneCoreClock : Obligations.IdleStepIsOneCoreClock := by
  intro s hidle
  have hframe := (tick_within s).only
  exact ⟨tick s, step_of_idle hidle, hframe.pending.trans hidle, hframe.part, tick_of_unpowered,
    fun hpow => ⟨tick_clk hpow, hframe.cyc0 rfl, tick_mt_of_free hpow⟩⟩

end Sys2Proof.Machine
end

section
/-! SUPPORT. A command that comes to free clerks over MCTP: it is answered at once where its operands are bad, and else a clerk takes it,
alone, and answers it or starts its work. -/

namespace Sys2Proof.Machine

/-! ### The clerk that takes it -/

/-- Command `b` as free clerks execute it. -/
def State.runOf (s : State) (h : CmdHdr) (b : CmdBody) : Run :=
  { id := s.mgt.nextId, hdr := h, body := b, clk := s.clk, rank := viaRank h.via, down := s.dom.st == 3 }

/-- Free clerks with `b` alone in their queue; the codes find nothing. -/
def State.queued (s : State) (h : CmdHdr) (b : CmdBody) : State :=
  { s with finds := {}, mgt := { s.mgt with nextId := s.mgt.nextId + 1, queue := [{ s.runOf h b with down := false }] } }

/-- The state in which free clerks execute `b`: nothing waits, it alone runs, and the codes find nothing. -/
def State.executing (s : State) (h : CmdHdr) (b : CmdBody) : State :=
  { s with finds := {}, mgt := { s.mgt with nextId := s.mgt.nextId + 1, queue := [], running := [s.runOf h b] } }

/-- What the execution of `b` comes to: its effect, or its refusal. -/
def State.executed (s : State) (h : CmdHdr) (b : CmdBody) : State :=
  let x := s.executing h b
  if x.bodyCheck b = stOK then x.bodyGo (s.runOf h b).id b else x.cmdEnd (s.runOf h b).id (x.bodyCheck b) []

theorem State.runOne_of_queue_nil {s : State} (hq : s.mgt.queue = []) : s.runOne = s := by
  unfold State.runOne
  rw [hq]

/-- Once a command has been taken and none waits behind it, the clerks take nothing more. -/
theorem State.mgtPump_of_runOne {s : State} (hon : s.clerksOn = true) (hq : s.runOne.mgt.queue = []) : s.mgtPump = s.runOne := by
  rw [State.mgtPump, if_pos hon, List.range_succ_eq_map, List.foldl_cons]
  exact List.foldl_fixed' (fun _ => State.runOne_of_queue_nil hq) _

/-! ### Its checks -/

section
variable {s : State} {h : CmdHdr} {b : CmdBody} {e : Nat}

theorem ClerksFree.groupHeld (hf : ClerksFree s) (g : CmdGroup) : s.groupHeld g = false := by
  simp [State.groupHeld, hf.queue, hf.running]

theorem ClerksFree.conflict (hf : ClerksFree s) (b : CmdBody) : s.conflict b = false := by
  unfold State.conflict
  split <;> simp [hf.groupHeld]

theorem ClerksFree.unitBusy (hf : ClerksFree s) (b : CmdBody) : s.unitBusy b = false := by
  unfold State.unitBusy
  split <;> simp only [hf.range, hf.pasr, hf.bist, hf.training, Option.isSome_none] <;> split <;> rfl

/-- Of a sound command's checks only bad operands are answered at once (R433). -/
theorem Issued.cmdCheck (hi : Issued s h b e) :
    s.cmdCheck h b = if s.bodyCheck b = stInvalidInstance ∨ s.bodyCheck b = stBadParam then s.bodyCheck b else stOK := by
  simp [State.cmdCheck, hi.sound, hi.state, hi.free.conflict, hi.free.queue, stOK]

theorem ClerksFree.carrierOn_mctp (hf : ClerksFree s) (e : Nat) : s.carrierOn (.mctp e) = true := by
  simp [State.carrierOn, hf.on]

theorem ClerksFree.carrierBusy_mctp (hf : ClerksFree s) (e : Nat) : s.carrierBusy (.mctp e) = false := by
  simp [State.carrierBusy, hf.queue, hf.running]

/-- A command with bad operands is answered and leaves the rest of the state. -/
theorem Issued.mgtReceive_of_badOperand (hi : Issued s h b e) (hc : s.bodyCheck b = stInvalidInstance ∨ s.bodyCheck b = stBadParam) :
    s.mgtReceive h b = s.emit (.mctp e Config.vendorId (replyBytes (cmdOpc b) h (s.bodyCheck b) [])) := by
  have hne : s.bodyCheck b ≠ stOK := by rcases hc with hc | hc <;> simp [hc, stOK, stInvalidInstance, stBadParam]
  simp [State.mgtReceive, State.mgtAccept, hi.via, hi.free.carrierOn_mctp, hi.free.carrierBusy_mctp, hi.cmdCheck, hc, hne, State.cmdReply,
    State.carry]

/-- A clerk takes the command that waits alone, unless it must wait for the end of a lull (R231). -/
theorem ClerksFree.runOne_queued (hf : ClerksFree s) (hraw : (s.inPause && CmdBody.rawAccess b) = false) :
    (s.queued h b).runOne = s.executed h b := by
  have hwait : (decide (4 ≤ (s.queued h b).mgt.running.length) || ((s.queued h b).inPause && CmdBody.rawAccess b) ||
      (s.queued h b).unitBusy b) = false := by
    rw [show (s.queued h b).mgt.running = [] from hf.running, show (s.queued h b).unitBusy b = false from hf.unitBusy b,
      show ((s.queued h b).inPause && CmdBody.rawAccess b) = false from hraw]
    rfl
  have htaken : s.executing h b =
      { s with finds := {}, mgt := { s.mgt with nextId := s.mgt.nextId + 1, queue := [], running := s.mgt.running ++ [s.runOf h b] } } := by
    rw [hf.running]; rfl
  rw [State.executed, htaken]
  unfold State.runOne
  exact (if_neg (ne_true_of_eq_false hwait)).trans (ite_congr (propext beq_iff_eq) (fun _ => rfl) fun _ => rfl)

/-- Other operands are taken to execution. -/
theorem Issued.mgtReceive_of_goodOperand (hi : Issued s h b e)
    (hc : ¬(s.bodyCheck b = stInvalidInstance ∨ s.bodyCheck b = stBadParam)) (hraw : (s.inPause && CmdBody.rawAccess b) = false)
    (hq : (s.executed h b).mgt.queue = []) : s.mgtReceive h b = { s.executed h b with finds := s.finds } := by
  have hrun := hi.free.runOne_queued (h := h) hraw
  have hpump : (s.queued h b).mgtPump = s.executed h b := by
    rw [State.mgtPump_of_runOne (s := s.queued h b) hi.free.on (by rwa [hrun]), hrun]
  have hqueue : queueIn s.mgt.queue { s.runOf h b with down := false } = [{ s.runOf h b with down := false }] := by
    rw [hi.free.queue]; rfl
  calc s.mgtReceive h b
      = State.noFinds { s with mgt := { s.mgt with nextId := s.mgt.nextId + 1, queue := queueIn s.mgt.queue { s.runOf h b with down := false } } }
          State.mgtPump := by
        simp [State.mgtReceive, State.mgtAccept, hi.via, hi.free.carrierOn_mctp, hi.free.carrierBusy_mctp, hi.cmdCheck, hc, hi.dry, State.runOf]
    _ = { (s.queued h b).mgtPump with finds := s.finds } := by rw [hqueue]; rfl
    _ = { s.executed h b with finds := s.finds } := by rw [hpump]

/-! ### Its reply -/

/-- The end of the only command that runs, whose carrier is an MCTP endpoint (R434). -/
theorem State.cmdEnd_of_mctp {r : Run} (hrun : s.mgt.running = [r]) (hvia : r.hdr.via = .mctp e) (status : Nat) (payload : List Byte) :
    s.cmdEnd r.id status payload = State.event { s with
      mgt := { s.mgt with running := [] }
      outs := s.outs ++ [.mctp e Config.vendorId (replyBytes (cmdOpc r.body) r.hdr status payload)] } 210 1 1 := by
  simp [State.cmdEnd, hrun, State.cmdReply, hvia, State.carry, State.emit]

theorem State.cmdEnd_replied {r : Run} (hrun : s.mgt.running = [r]) (hq : s.mgt.queue = []) (hvia : r.hdr.via = .mctp e) (status : Nat)
    (payload : List Byte) : Replied r.hdr e (cmdOpc r.body) status payload s (s.cmdEnd r.id status payload) := by
  rw [State.cmdEnd_of_mctp hrun hvia]
  exact ⟨rfl, hq, rfl⟩

theorem State.cmdEnd_only {r : Run} (hrun : s.mgt.running = [r]) (hvia : r.hdr.via = .mctp e) (status : Nat) (payload : List Byte) :
    Only { mgtq := true, outs := true, events := true } s (s.cmdEnd r.id status payload) := by
  rw [State.cmdEnd_of_mctp hrun hvia]
  rfl

theorem Replied.getLast? {op status : Nat} {payload : List Byte} {t : State} (hr : Replied h e op status payload s t) :
    t.outs.getLast? = some (.mctp e Config.vendorId (replyBytes op h status payload)) := by
  rw [hr.1, List.getLast?_concat]

/-- What an execution changes of the state in which it starts, the command changes of the state in which it comes. -/
theorem Only.of_executing {m : Mask} {t : State} (k : Only m (s.executing h b) t) (hm : m.mgtq = true) :
    Only m s { t with finds := s.finds } := by
  have hqueue : hide m.mgtq ((s.executing h b).mgt.queue, (s.executing h b).mgt.running, (s.executing h b).mgt.nextId) =
      hide m.mgtq (s.mgt.queue, s.mgt.running, s.mgt.nextId) := hide_of (.inl hm)
  calc view m { t with finds := s.finds }
      = { view m t with finds := hide m.finds s.finds } := rfl
    _ = { view m (s.executing h b) with finds := hide m.finds s.finds } := by rw [show view m t = _ from k]
    _ = view m s := congrArg (fun q => { view m s with mgtq := q }) hqueue

/-- A command with bad operands is answered and leaves everything else alone. -/
theorem Issued.badOperand {c : Nat} (hi : Issued s h b e) (hb : s.bodyCheck b = c) (hc : c = stInvalidInstance ∨ c = stBadParam) :
    Replied h e (cmdOpc b) c [] s (s.mgtReceive h b) ∧ Only { outs := true } s (s.mgtReceive h b) := by
  subst hb
  rw [hi.mgtReceive_of_badOperand hc]
  exact ⟨⟨rfl, hi.free.queue, hi.free.running⟩, rfl⟩

/-- A command that its state does not admit is answered when a clerk takes it, and changes nothing else. -/
theorem Issued.refused {c : Nat} (hi : Issued s h b e) (hb : s.bodyCheck b = c) (hx : (s.executing h b).bodyCheck b = c)
    (h0 : c ≠ stOK) (hc : ¬(c = stInvalidInstance ∨ c = stBadParam)) (hraw : CmdBody.rawAccess b = false) :
    Replied h e (cmdOpc b) c [] s (s.mgtReceive h b) ∧ Only { mgtq := true, outs := true, events := true } s (s.mgtReceive h b) := by
  have hend : s.executed h b = (s.executing h b).cmdEnd (s.runOf h b).id c [] := by simp [State.executed, hx, h0]
  have hreply := State.cmdEnd_replied (s := s.executing h b) (r := s.runOf h b) rfl rfl hi.via c []
  have honly := State.cmdEnd_only (s := s.executing h b) (r := s.runOf h b) rfl hi.via c []
  rw [hi.mgtReceive_of_goodOperand (by rwa [hb]) (by simp [hraw]) (by rw [hend]; exact hreply.2.1), hend]
  exact ⟨hreply, honly.of_executing rfl⟩

/-- A command that nothing speaks against takes effect. -/
theorem Issued.takesEffect (hi : Issued s h b e) (hb : s.bodyCheck b = stOK) (hx : (s.executing h b).bodyCheck b = stOK)
    (hraw : CmdBody.rawAccess b = false) (hq : ((s.executing h b).bodyGo (s.runOf h b).id b).mgt.queue = []) :
    s.mgtReceive h b = { (s.executing h b).bodyGo (s.runOf h b).id b with finds := s.finds } := by
  have hgo : s.executed h b = (s.executing h b).bodyGo (s.runOf h b).id b := by simp [State.executed, hx]
  rw [hi.mgtReceive_of_goodOperand (by simp [hb, stOK, stInvalidInstance, stBadParam]) (by simp [hraw]) (by rwa [hgo]), hgo]

end
end Sys2Proof.Machine
end

section
/-! SUPPORT. The commands of a domain's table and membership (R329-R331) as free clerks execute them. -/

namespace Sys2Proof.Machine

section
variable {s : State} {h : CmdHdr} {e : Nat}

theorem Only.clerks {m : Mask} {s t : State} (k : Only m s t) (hm : m.mgtq = false) :
    t.mgt.queue = s.mgt.queue ∧ t.mgt.running = s.mgt.running := by
  have hq := k.mgtq hm
  simp only [Prod.mk.injEq] at hq
  exact ⟨hq.1, hq.2.1⟩

theorem State.cmdEnd_dom (s : State) (id status : Nat) (payload : List Byte) : (s.cmdEnd id status payload).dom = s.dom :=
  (State.cmdEnd_within s id status payload).only.dom rfl

/-! ### DOM_SET -/

theorem State.domSetCheck_of_empty (s : State) : s.domSetCheck 0 = stBadParam := rfl

theorem State.domSetCheck_of_up {p : BitVec 128} (hp : p ≠ 0) (hst : s.dom.st = 2) : s.domSetCheck p = stDomainActive := by
  rw [State.domSetCheck, if_neg (by simpa using hp), if_pos (by simp [hst])]

theorem State.domSetCheck_of_not_up {p : BitVec 128} (hp : p ≠ 0) (hst : s.dom.st ≠ 2) : s.domSetCheck p = stOK := by
  rw [State.domSetCheck, if_neg (by simpa using hp), if_neg (by simp [hst])]

/-- The word in which DOM_SET stores the table holds both its parts (R14). -/
theorem tableWord_toNat (d : BitVec 8) (p : BitVec 128) : (BitVec.ofNat 136 (p.toNat + d.toNat * 2 ^ 128)).toNat = p.toNat + d.toNat * 2 ^ 128 := by
  have hd := d.isLt
  have hp := p.isLt
  rw [BitVec.toNat_ofNat, Nat.mod_eq_of_lt]
  omega

theorem State.domSetGo_presence (s : State) (d : BitVec 8) (p : BitVec 128) : (s.domSetGo d p).presence = p.toNat := by
  have hp := p.isLt
  simp only [State.presence, State.domSetGo, Tmr.val_of, tableWord_toNat]
  omega

theorem State.domSetGo_tableDomain (s : State) (d : BitVec 8) (p : BitVec 128) : (s.domSetGo d p).tableDomain = d.toNat := by
  have hp := p.isLt
  simp only [State.tableDomain, State.domSetGo, Tmr.val_of, tableWord_toNat]
  omega

/-- The clerk of a DOM_SET replies the digest when the next clock passes, unless the domain has gone DOWN since it took the command (R443). -/
theorem State.runEnds_of_domSet {r : Run} {d : BitVec 8} {p : BitVec 128} (hrun : s.mgt.running = [r]) (hbody : r.body = .domSet d p)
    (hdown : (s.dom.st == 3 && !r.down) = false) :
    s.runEnds = s.cmdEnd r.id stOK (leBytes 4 (domDigest d.toNat p.toNat).toNat) := by
  simp only [State.runEnds, hrun, List.foldl_cons, List.foldl_nil, hbody, hdown, Bool.false_eq_true, if_false]

/-- DOM_SET of a domain that is not UP stores the table and leaves its reply to the next clock. -/
theorem Issued.domSet {d : BitVec 8} {p : BitVec 128} (hi : Issued s h (.domSet d p) e) (hp : p ≠ 0) (hst : s.dom.st ≠ 2) :
    s.mgtReceive h (.domSet d p) = { (s.executing h (.domSet d p)).domSetGo d p with finds := s.finds } :=
  hi.takesEffect (State.domSetCheck_of_not_up hp hst) (State.domSetCheck_of_not_up (s := s.executing h _) hp hst) rfl rfl

theorem State.domSetGo_runEnds_replied {d : BitVec 8} {p : BitVec 128} (hvia : h.via = .mctp e) :
    Replied h e 0x0401 0 (leBytes 4 (domDigest d.toNat p.toNat).toNat) s
      (State.runEnds { (s.executing h (.domSet d p)).domSetGo d p with finds := s.finds }) := by
  have hdown : ((if s.dom.st == 3 then 3 else 1) == 3 && !(s.dom.st == 3)) = false := by
    by_cases h3 : s.dom.st = 3 <;> simp [h3]
  rw [State.runEnds_of_domSet (r := s.runOf h (.domSet d p)) rfl rfl hdown]
  exact State.cmdEnd_replied (r := s.runOf h (.domSet d p)) rfl rfl hvia _ _

/-! ### DOM_JOIN -/

theorem State.domJoinCheck_of_unset_or_down (hst : s.dom.st = 0 ∨ s.dom.st = 3) : s.domJoinCheck = stRefused := by
  simp [State.domJoinCheck, hst]

theorem State.domJoinCheck_of_held (h0 : s.dom.st ≠ 0) (h3 : s.dom.st ≠ 3) : s.domJoinCheck = stOK := by
  simp [State.domJoinCheck, h0, h3]

theorem State.domUp_up (hst : s.dom.st ≠ 2) : s.domUp.dom.st = 2 := by
  simp only [State.domUp, beq_iff_eq, hst, if_false]
  rw [(State.rec__within _ _ _ _ _ _).only.dom rfl, (State.buildTree_within _).only.dom rfl]

/-- A DOM_JOIN that runs alone is answered when its domain is UP (R330). -/
theorem State.joinEnd_of_up {r : Run} (hrun : s.mgt.running = [r]) (hbody : r.body = .domJoin) (hst : s.dom.st = 2) :
    s.joinEnd = State.cmdEnd { s with dom := { s.dom with joining := false } } r.id stOK (leBytes 16 0) := by
  simp [State.joinEnd, State.cmdRunning, hrun, hbody, hst]

theorem State.domJoinGo_of_up (hst : s.dom.st = 2) (id : Nat) : s.domJoinGo id = s.cmdEnd id stOK (leBytes 16 0) := by
  simp [State.domJoinGo, hst]

theorem State.domJoinGo_of_alone (hst : s.dom.st ≠ 2) (hothers : s.others = []) (id : Nat) : s.domJoinGo id = s.domUp.joinEnd := by
  simp [State.domJoinGo, hst, hothers]

theorem State.domJoinGo_of_others (hst : s.dom.st ≠ 2) (hothers : s.others ≠ []) (id : Nat) :
    s.domJoinGo id = { s with dom := { s.dom with joining := true, joinBeat := s.beat, memBeat := none } } := by
  simp [State.domJoinGo, hst, hothers]

/-- The end of the joining of a domain without other members: UP, and the reply (R330). -/
theorem State.domJoinGo_alone_replied {r : Run} (hrun : s.mgt.running = [r]) (hq : s.mgt.queue = []) (hbody : r.body = .domJoin)
    (hvia : r.hdr.via = .mctp e) (hst : s.dom.st ≠ 2) (hothers : s.others = []) :
    (s.domJoinGo r.id).dom.st = 2 ∧ Replied r.hdr e 0x0402 0 (leBytes 16 0) s.domUp (s.domJoinGo r.id) := by
  have hclerks := (State.domUp_within s).only.clerks rfl
  have hrun' := hclerks.2.trans hrun
  have hup := State.domUp_up hst
  rw [State.domJoinGo_of_alone hst hothers, State.joinEnd_of_up hrun' hbody hup]
  refine ⟨by rw [State.cmdEnd_dom]; exact hup, ?_⟩
  have hreply := State.cmdEnd_replied (s := { s.domUp with dom := { s.domUp.dom with joining := false } }) hrun' (hclerks.1.trans hq) hvia
    stOK (leBytes 16 0)
  rwa [hbody] at hreply

end
end Sys2Proof.Machine
end

section
/-! SUPPORT. DOM_REFORM (R407): no home transaction touches the domain table, and the reform leaves every directory bank empty. -/

namespace Sys2Proof.Machine

/-! ### The domain table under the home's transactions -/

theorem Within.table {m : Mask} {s t : State} (w : Within m s t) (hm : m.dom = false) : t.dom.table = s.dom.table :=
  congrArg Dom.table (w.only.dom hm)

theorem State.foldl_table {α : Type} {f : State → α → State} (hf : ∀ x a, (f x a).dom.table = x.dom.table) (l : List α) (s : State) :
    (l.foldl f s).dom.table = s.dom.table :=
  List.foldlRecOn (motive := fun x => x.dom.table = s.dom.table) l f rfl fun x hx a _ => (hf x a).trans hx

theorem State.enterDown_table (s : State) (n : FailNotice) : (s.enterDown n).dom.table = s.dom.table := by
  unfold State.enterDown
  extract_lets told x
  split
  · exact (State.sendNotice_within _ _).table rfl
  · rfl

theorem State.fatal_table (s : State) (u detail : Nat) : (s.fatal u detail).dom.table = s.dom.table := by
  have hrec := (State.recErr_within s 0x19 u false 0 detail).table rfl
  simp only [State.fatal, State.fatalErr]
  split
  · exact hrec
  · exact (State.enterDown_table _ _).trans hrec

/-- The lookup's error in a dirty entry of the directory cache is fatal: it may take the domain DOWN, but leaves its table (R121, R404). -/
theorem State.homeLook_table (s : State) (n htid : Nat) : (s.homeLook n htid).dom.table = s.dom.table := by
  unfold State.homeLook
  split
  · rfl
  · extract_lets b set x read
    have hx : x.dom.table = s.dom.table := ((State.modTrk_within _ _ _ _).table rfl).trans ((State.event_within _ _ _ _).table rfl)
    have hknown (y : State) (place : Option (Nat × Nat)) : (y.homeKnown n htid place).dom.table = y.dom.table :=
      (State.homeKnown_within y n htid place).table rfl
    have hread (y : State) : (read y).dom.table = y.dom.table :=
      ((State.modTrk_within _ _ _ _).table rfl).trans
        (((State.dirFetch_within _ _ _).table rfl).trans ((State.event_within _ _ _ _).table rfl))
    split
    · rw [hknown, hx]
    split
    · rw [hknown, (State.dirLose_within _ _).table rfl, hx]
    split
    · split
      · rw [hknown, (State.sweepEnt_within _ _ _ _).table rfl, hx]
      · rw [hknown, hx]
    have hmet (u node addr detail : Nat) : ((x.event 216 2 1).rec_ 0x02 u node addr detail).dom.table = s.dom.table :=
      ((State.rec__within _ _ _ _ _ _).table rfl).trans (((State.event_within _ _ _ _).table rfl).trans hx)
    split
    · split
      · rw [hknown, hx]
      split
      · exact (State.fatal_table _ _ _).trans (hmet _ _ _ _)
      · exact (hread _).trans (((State.setBank_within _ _ _).table rfl).trans (hmet _ _ _ _))
    · rw [hread, hx]

theorem State.homeTake_table (s : State) (n htid la : Nat) (f : HomeFor) : (s.homeTake n htid la f).dom.table = s.dom.table := by
  unfold State.homeTake
  extract_lets open_ ahead t x y z
  have hx : x.dom.table = s.dom.table := ((State.modSlice_within _ _ _).table rfl).trans ((State.dropTrk_within _ _ _).table rfl)
  have hy : y.dom.table = s.dom.table := by
    unfold y
    split
    · exact ((State.markIssued_within _ _).table rfl).trans hx
    · exact hx
  have hz : z.dom.table = s.dom.table := ((State.event_within _ _ _ _).table rfl).trans hy
  split
  · split
    · exact ((State.extendMr_within _ _ _ _).table rfl).trans hz
    · exact hz
  · exact (State.homeLook_table _ _ _).trans hy

theorem State.homeOwn_table (s : State) (n reg : Nat) : (s.homeOwn n reg).dom.table = s.dom.table := by
  unfold State.homeOwn
  split
  · rfl
  split
  · rfl
  split
  · rfl
  · exact State.homeTake_table _ _ _ _ _

/-- The end of the home's open transactions (R147) leaves the table. -/
theorem State.endTrackers_table (s : State) : s.endTrackers.dom.table = s.dom.table := by
  unfold State.endTrackers
  refine State.foldl_table (fun x n => ?_) _ _
  refine (State.foldl_table (fun y t => ?_) _ _).trans ((State.modSlice_within _ _ _).table rfl)
  split
  · split
    · rfl
    · exact (State.nack_within _ _ _ _ _).table rfl
  · exact (State.nack_within _ _ _ _ _).table rfl
  · exact State.homeOwn_table _ _ _
  · rfl

/-! ### What a reform does -/

/-- A bank with nothing in its store and its cache, and not lost. -/
def Bank.Empty (x : Bank) : Prop := x.store = [] ∧ x.dc = [] ∧ x.lost = false

/-- The vector of the banks that are lost. -/
def State.lostBanks (s : State) : Nat := (List.range 16).foldl (fun a b => if (s.bank b).lost then a + 2 ^ b else a) 0

/-- Bank `b` emptied, as a reform does it. -/
def State.emptyBank (s : State) (b : Nat) : State := s.setBank b { s.bank b with store := [], dc := [], recalls := [], lost := false }

/-- The open transactions end and every bank is emptied. -/
def State.dirReformed (s : State) : State := (List.range 16).foldl State.emptyBank s.endTrackers

/-- Where channels have been thawed, the pool starts anew and their zero-map lines are lost (R97, R407). -/
def State.thawReformed (s : State) : State :=
  if s.mgt.thawed.isEmpty then s
  else
    let x := s.zmapThawed.foldl (fun s z => s.zmapLost z) s.poolInit
    { x with mgt := { x.mgt with thawed := [] } }

/-- All that a reform does before the domain is FORMING. -/
def State.reformed (s : State) : State := s.dirReformed.thawReformed.reformClear

/-- The domain is FORMING, with the table it had. -/
def Dom.reformed (d : Dom) : Dom :=
  { d with nack := false, st := 1, gotJoin := [], gotReady := [], sentReady := false, joining := false, notice := none }

theorem State.domReformGo_of_swept {s : State} (hdue : s.dom.downDue = false) (id : Nat) :
    s.domReformGo id = State.cmdEnd { s.reformed with dom := s.reformed.dom.reformed } id stOK (leBytes 2 s.lostBanks) := by
  unfold State.domReformGo State.reformed State.thawReformed State.dirReformed State.emptyBank State.lostBanks Dom.reformed
  simp only [hdue, Bool.false_eq_true, if_false]

/-- What a write of a bank does to near memory touches no other bank. -/
theorem State.bank_setBank (s : State) (b k : Nat) (x : Bank) : (s.setBank b x).bank k = if k = b then x else s.bank k := by
  unfold State.setBank
  extract_lets ks y z
  have hz : z.banks = s.banks := by
    have hyz : Within { free := true, finds := true, due := true, trcCfg := true, irq := true, slices := true, chans := true, near := true, memIo := true, pba := true, ledger := true, bkt := true, flip := true, events := true, trc := true, outs := true } y z :=
      Within.foldl (fun _ _ => State.houseMerge_within _ _ _) (Within.refl _ _)
    have hsy : Within { free := true, flip := true } s y := Within.foldl (fun _ _ => State.flipDone_within _ _ _ _) (Within.refl _ _)
    exact (hyz.only.banks rfl).trans (hsy.only.banks rfl)
  simp only [State.bank, hz, Tab.get_put]

theorem State.bank_foldl_emptyBank (l : List Nat) {s : State} {k : Nat} (hk : k ∈ l ∨ (s.bank k).Empty) :
    ((l.foldl State.emptyBank s).bank k).Empty := by
  induction l generalizing s with
  | nil => simpa using hk
  | cons b l ih =>
    refine ih ?_
    rw [State.emptyBank, State.bank_setBank]
    split
    · exact .inr ⟨rfl, rfl, rfl⟩
    · rename_i hne
      simpa [hne] using hk

theorem State.dirReformed_bank (s : State) {b : Nat} (hb : b < 16) : (s.dirReformed.bank b).Empty :=
  State.bank_foldl_emptyBank _ (.inl (List.mem_range.mpr hb))

theorem State.emptyBank_within (s : State) (b : Nat) :
    Within { free := true, finds := true, due := true, trcCfg := true, irq := true, slices := true, banks := true, chans := true, near := true, memIo := true, pba := true, ledger := true, bkt := true, flip := true, events := true, trc := true, outs := true } s (s.emptyBank b) :=
  State.setBank_within s b _

theorem State.dirReformed_table (s : State) : s.dirReformed.dom.table = s.dom.table := by
  unfold State.dirReformed
  rw [State.foldl_table fun x b => (x.emptyBank_within b).table rfl, s.endTrackers_table]

theorem State.dirReformed_clerks (s : State) : s.dirReformed.mgt.queue = s.mgt.queue ∧ s.dirReformed.mgt.running = s.mgt.running := by
  have hfold := (Within.foldl (l := List.range 16) (fun x b => x.emptyBank_within b) (Within.refl _ s.endTrackers)).only.clerks rfl
  have hend := s.endTrackers_within.only.clerks rfl
  exact ⟨hfold.1.trans hend.1, hfold.2.trans hend.2⟩

/-- What follows the directory's reform leaves the directory, the domain and the clerks' queue alone. -/
theorem State.reformed_rest (s : State) :
    s.reformed.banks = s.dirReformed.banks ∧ s.reformed.dom = s.dirReformed.dom ∧ s.reformed.mgt.queue = s.dirReformed.mgt.queue ∧
      s.reformed.mgt.running = s.dirReformed.mgt.running := by
  have hclear := (State.reformClear_within s.dirReformed.thawReformed).only
  have hthaw : s.dirReformed.thawReformed.banks = s.dirReformed.banks ∧ s.dirReformed.thawReformed.dom = s.dirReformed.dom ∧
      s.dirReformed.thawReformed.mgt.queue = s.dirReformed.mgt.queue ∧ s.dirReformed.thawReformed.mgt.running = s.dirReformed.mgt.running := by
    unfold State.thawReformed
    split
    · exact ⟨rfl, rfl, rfl, rfl⟩
    · have hpool := s.dirReformed.poolInit_within.only
      have hlost := (Within.foldl (l := s.dirReformed.zmapThawed) (fun x z => State.zmapLost_within x z) (Within.refl _ s.dirReformed.poolInit)).only
      exact ⟨(hlost.banks rfl).trans (hpool.banks rfl), (hlost.dom rfl).trans (hpool.dom rfl),
        (hlost.clerks rfl).1.trans (hpool.clerks rfl).1, (hlost.clerks rfl).2.trans (hpool.clerks rfl).2⟩
  obtain ⟨hbanks, hdom, hq, hrun⟩ := hthaw
  exact ⟨(hclear.banks rfl).trans hbanks, (hclear.dom rfl).trans hdom, (hclear.clerks rfl).1.trans hq, (hclear.clerks rfl).2.trans hrun⟩

end Sys2Proof.Machine
end

section
/-! SUPPORT. FAB_PORT and FAB_CLR_UNREACH (R335): what they do to the ports and to the marks of unreachable nodes. -/

namespace Sys2Proof.Machine

/-! ### Enabling a port -/

theorem fbit_setFld_zero (w : Word) (en : Bool) : fbit (setFld w 0 1 (if en then 1 else 0)) 0 = en := by
  cases en <;> simp [fbit, setFld]

theorem Only.csrGet {m : Mask} {s t : State} (k : Only m s t) (hm : m.csr = false) {o : Nat} (ho : o ≠ offTrc 0) : t.csrGet o = s.csrGet o := by
  simpa [ho, State.csrGet] using congrFun (k.csr hm) o

/-- A port's configuration lies behind the trace unit's. -/
theorem Only.portEn {m : Mask} {s t : State} (k : Only m s t) (hm : m.csr = false) (p : Nat) : t.portEn p = s.portEn p := by
  rw [State.portEn, State.portEn, k.csrGet hm (by simp only [offFpt, offTrc]; omega)]

theorem State.port_of_ports {s t : State} (hp : t.ports = s.ports) (k : Nat) : t.port k = s.port k := by
  rw [State.port, State.port, hp]

/-- Taking a link down without training it again leaves its port off, and touches no other port (R314). -/
theorem State.linkDown_port (s : State) (p cause : Nat) :
    ((s.linkDown p cause false).port p).st = 0 ∧ ∀ k, k ≠ p → (s.linkDown p cause false).port k = s.port k := by
  unfold State.linkDown
  extract_lets x beats held y told rtr drained queued
  split
  case isTrue hoff => exact ⟨by simpa using hoff, fun _ _ => rfl⟩
  case isFalse =>
    have hports : queued.ports = (s.setPort p y).ports :=
      ((State.restrata_within _).only.ports rfl).trans
        (((State.requeue_within _ _).only.ports rfl).trans ((State.rec__within _ _ _ _ _ _).only.ports rfl))
    have hy : ((s.setPort p y).port p).st = 0 ∧ ∀ k, k ≠ p → (s.setPort p y).port k = s.port k :=
      ⟨by simp [y], fun k hk => State.port_setPort_ne _ _ _ _ hk⟩
    split
    · simp only [State.port_of_ports (((State.sendPkt_within _ _ _ _ _ _).only.ports rfl).trans hports)]
      exact hy
    · simp only [State.port_of_ports hports]
      exact hy

theorem State.port_modPort_self (s : State) (p : Nat) (f : FPort → FPort) : (s.modPort p f).port p = f (s.port p) :=
  State.port_setPort_self _ _ _
theorem State.port_modPort_ne (s : State) (f : FPort → FPort) {p k : Nat} (hk : k ≠ p) : (s.modPort p f).port k = s.port k :=
  State.port_setPort_ne _ _ _ _ hk

/-- A write of EN shows in the register. -/
theorem State.portEnable_portEn (s : State) (p : Nat) (en : Bool) : (s.portEnable p en).portEn p = en := by
  have hput : (s.csrPut (offFpt p 0) (setFld (s.csrGet (offFpt p 0)) 0 1 (if en then 1 else 0))).portEn p = en := by
    rw [State.portEn, State.csrGet_csrPut_self, fbit_setFld_zero]
  unfold State.portEnable
  extract_lets x
  split
  · rwa [(State.modPort_within _ _ _).only.portEn rfl]
  · rwa [(State.modPort_within _ _ _).only.portEn rfl, (State.linkDown_within _ _ _ _).only.portEn rfl]

/-- Disabling takes the port's link down; the other ports stay (R314). -/
theorem State.portEnable_false_port (s : State) (p : Nat) :
    ((s.portEnable p false).port p).st = 0 ∧ ∀ k, k ≠ p → (s.portEnable p false).port k = s.port k := by
  simp only [State.portEnable, Bool.false_eq_true, if_false]
  have hdown := State.linkDown_port (s.csrPut (offFpt p 0) (setFld (s.csrGet (offFpt p 0)) 0 1 0)) p 5
  exact ⟨by rw [State.port_modPort_self]; exact hdown.1, fun k hk => (State.port_modPort_ne _ _ hk).trans (hdown.2 k hk)⟩

/-- Enabling a port that is off starts its training; the other ports stay. -/
theorem State.portEnable_true_port {s : State} {p : Nat} (hoff : (s.port p).st = 0) :
    ((s.portEnable p true).port p).st = 1 ∧ ∀ k, k ≠ p → (s.portEnable p true).port k = s.port k := by
  simp only [State.portEnable, if_true]
  have hport : ∀ k, (s.csrPut (offFpt p 0) (setFld (s.csrGet (offFpt p 0)) 0 1 1)).port k = s.port k := fun _ => rfl
  exact ⟨by simp [State.port_modPort_self, hport, hoff], fun k hk => State.port_modPort_ne _ _ hk⟩

/-- And nothing leaves the E9. -/
theorem State.portEnable_true_only (s : State) (p : Nat) : Only { csr := true, trcCfg := true, ports := true } s (s.portEnable p true) := by
  simp only [State.portEnable, if_true]
  exact (Within.app (State.modPort_within _ _ _) rfl (Within.mono rfl (State.csrPut_within s _ _))).only

/-! ### FAB_PORT -/

theorem State.fabPortCheck_of_absent {s : State} {p a : BitVec 8} (hp : s.part.fabricPorts ≤ p.toNat) : s.fabPortCheck p a = stInvalidInstance := by
  simp [State.fabPortCheck, hp]

theorem State.fabPortCheck_of_present {s : State} {p a : BitVec 8} (hp : p.toNat < s.part.fabricPorts) :
    s.fabPortCheck p a = if 2 < a.toNat then stBadParam else stOK := by
  simp [State.fabPortCheck, hp]

theorem State.fabPortGo_disable (s : State) (id : Nat) (p : BitVec 8) :
    s.fabPortGo id p 0 = (s.portEnable p.toNat false).cmdEnd id stOK (leBytes 4 0) := by
  simp [State.fabPortGo, (s.portEnable_false_port p.toNat).1]

theorem State.fabPortGo_enable {s : State} {p : BitVec 8} (hoff : (s.port p.toNat).st = 0) (id : Nat) :
    s.fabPortGo id p 1 = (s.portEnable p.toNat true).cmdEnd id stOK (leBytes 4 1) := by
  simp [State.fabPortGo, (State.portEnable_true_port hoff).1]

/-! ### FAB_CLR_UNREACH -/

theorem State.fabClrGo_all (s : State) (id : Nat) :
    s.fabClrGo id 0xFFFF = State.cmdEnd { s with rtr := { s.rtr with unreach := [] } } id stOK (leBytes 4 s.rtr.unreach.length) := rfl

/-- With one node named, how many of the marks were its. -/
theorem State.fabClrGo_one {n : BitVec 16} (hn : n.toNat ≤ 0x7FFF) (s : State) (id : Nat) :
    s.fabClrGo id n = State.cmdEnd { s with rtr := { s.rtr with unreach := s.rtr.unreach.filter (· != n.toNat) } } id stOK
      (leBytes 4 (s.rtr.unreach.length - (s.rtr.unreach.filter (· != n.toNat)).length)) := by
  have hne : (n == 0xFFFF) = false := beq_false_of_ne (by rintro rfl; simp at hn)
  simp only [State.fabClrGo, hne, Bool.false_eq_true, if_false]

theorem contains_filter_bne (l : List Nat) (k n : Nat) : (l.filter (· != n)).contains k = (l.contains k && k != n) := by
  rw [Bool.eq_iff_iff]
  simp

theorem fabClrCheck_of_all : fabClrCheck 0xFFFF = stOK := rfl
theorem fabClrCheck_of_node {n : BitVec 16} (hn : n.toNat ≤ 0x7FFF) : fabClrCheck n = stOK := by
  simp [fabClrCheck, hn]

end Sys2Proof.Machine
end

section
/-! SUPPORT. What DOM_SET, DOM_JOIN, DOM_REFORM, FAB_PORT and FAB_CLR_UNREACH change and reply when they come to free clerks. -/

namespace Sys2Proof.Machine

section
variable {s : State} {h : CmdHdr} {e : Nat}

theorem Replied.of_outs {op status : Nat} {payload : List Byte} {x y t : State} (hr : Replied h e op status payload y t) (ho : y.outs = x.outs) :
    Replied h e op status payload x t := ⟨hr.1.trans (by rw [ho]), hr.2⟩

/-- A command whose effect leads to `y` and ends at once is answered from there. -/
theorem Issued.ends {b : CmdBody} {y : State} {payload : List Byte} (hi : Issued s h b e) (hb : s.bodyCheck b = stOK)
    (hx : (s.executing h b).bodyCheck b = stOK) (hraw : CmdBody.rawAccess b = false)
    (hgo : (s.executing h b).bodyGo (s.runOf h b).id b = y.cmdEnd (s.runOf h b).id stOK payload)
    (hrun : y.mgt.running = [s.runOf h b]) (hq : y.mgt.queue = []) :
    s.mgtReceive h b = { y.cmdEnd (s.runOf h b).id stOK payload with finds := s.finds } ∧
      Replied h e (cmdOpc b) 0 payload y (s.mgtReceive h b) ∧
      Only { finds := true, mgtq := true, outs := true, events := true } y (s.mgtReceive h b) := by
  have hreply := State.cmdEnd_replied hrun hq (r := s.runOf h b) hi.via stOK payload
  have heq := hi.takesEffect hb hx hraw (by rw [hgo]; exact hreply.2.1)
  have honly := (State.cmdEnd_only hrun (r := s.runOf h b) hi.via stOK payload).mono
    (b := { finds := true, mgtq := true, outs := true, events := true }) rfl
  rw [heq, hgo]
  exact ⟨rfl, hreply, honly.trans rfl⟩

/-- It changes what led to `y`, and what a reply changes. -/
theorem Issued.ends_only {b : CmdBody} {m : Mask} {y : State} {payload : List Byte} (hi : Issued s h b e)
    (heq : s.mgtReceive h b = { y.cmdEnd (s.runOf h b).id stOK payload with finds := s.finds }) (hrun : y.mgt.running = [s.runOf h b])
    (hy : Only m (s.executing h b) y) (hm : Mask.le { mgtq := true, outs := true, events := true } m = true) (hmq : m.mgtq = true) :
    Only m s (s.mgtReceive h b) := by
  rw [heq]
  exact (hy.trans ((State.cmdEnd_only hrun (r := s.runOf h b) hi.via stOK payload).mono hm)).of_executing hmq

/-! ### DOM_SET -/

theorem Issued.domSet_sets {d : BitVec 8} {p : BitVec 128} (hi : Issued s h (.domSet d p) e) (hp : p ≠ 0) (hst : s.dom.st ≠ 2) :
    ∃ (t : State) (r : Run), exec (.domSet h d p) s = .next t ∧ t.tableDomain = d.toNat ∧ t.presence = p.toNat ∧
      t.dom.digest = domDigest d.toNat p.toNat ∧ t.dom.st = (if s.dom.st = 3 then 3 else 1) ∧ t.dom.gotReady = [] ∧ t.dom.joining = false ∧
      t.mgt.running = [r] ∧ r.body = .domSet d p ∧ t.outs = s.outs ∧ Only { dom := true, mgtq := true } s t ∧
      Replied h e 0x0401 0 (leBytes 4 (domDigest d.toNat p.toNat).toNat) s t.runEnds := by
  have hgo := State.domSetGo_tableDomain (s.executing h (.domSet d p)) d p
  have hpres := State.domSetGo_presence (s.executing h (.domSet d p)) d p
  have hst' : (if s.dom.st == 3 then 3 else 1) = (if s.dom.st = 3 then 3 else 1) := by simp only [beq_iff_eq]
  refine ⟨{ (s.executing h (.domSet d p)).domSetGo d p with finds := s.finds }, s.runOf h (.domSet d p), congrArg _ (hi.domSet hp hst),
    hgo, hpres, rfl, hst', rfl, rfl, rfl, rfl, rfl, rfl, State.domSetGo_runEnds_replied hi.via⟩

theorem Issued.domSet_of_up {d : BitVec 8} {p : BitVec 128} (hi : Issued s h (.domSet d p) e) (hp : p ≠ 0) (hst : s.dom.st = 2) :
    ∃ t, exec (.domSet h d p) s = .next t ∧ Replied h e 0x0401 14 [] s t ∧ Only { mgtq := true, outs := true, events := true } s t :=
  ⟨_, rfl, hi.refused (State.domSetCheck_of_up hp hst) (State.domSetCheck_of_up (s := s.executing h _) hp hst) (by decide) (by decide) rfl⟩

theorem Issued.domSet_of_empty {d : BitVec 8} (hi : Issued s h (.domSet d 0) e) :
    ∃ t, exec (.domSet h d 0) s = .next t ∧ Replied h e 0x0401 9 [] s t ∧ Only { outs := true } s t :=
  ⟨_, rfl, hi.badOperand s.domSetCheck_of_empty (.inr rfl)⟩

/-! ### DOM_JOIN -/

theorem Issued.domJoin_refused (hi : Issued s h .domJoin e) (hst : s.dom.st = 0 ∨ s.dom.st = 3) :
    ∃ t, exec (.domJoin h) s = .next t ∧ Replied h e 0x0402 11 [] s t ∧ Only { mgtq := true, outs := true, events := true } s t :=
  ⟨_, rfl, hi.refused (State.domJoinCheck_of_unset_or_down hst) (State.domJoinCheck_of_unset_or_down (s := s.executing h _) hst)
    (by decide) (by decide) rfl⟩

theorem Issued.domJoin_of_up (hi : Issued s h .domJoin e) (hst : s.dom.st = 2) :
    ∃ t, exec (.domJoin h) s = .next t ∧ Replied h e 0x0402 0 (leBytes 16 0) s t ∧ Only { mgtq := true, outs := true, events := true } s t := by
  have hcheck : s.domJoinCheck = stOK := State.domJoinCheck_of_held (by omega) (by omega)
  have hgo := State.domJoinGo_of_up (s := s.executing h .domJoin) hst (s.runOf h .domJoin).id
  obtain ⟨hend, hreply, -⟩ := hi.ends hcheck hcheck rfl hgo rfl rfl
  exact ⟨_, rfl, hreply, hi.ends_only hend rfl (Only.refl _ _) rfl rfl⟩

theorem Issued.domJoin_of_alone (hi : Issued s h .domJoin e) (hst : s.dom.st = 1) (hothers : s.others = []) :
    ∃ t, exec (.domJoin h) s = .next t ∧ t.dom.st = 2 ∧ t.mgt.running = [] ∧
      t.outs.getLast? = some (.mctp e Config.vendorId (replyBytes 0x0402 h 0 (leBytes 16 0))) := by
  have hcheck : s.domJoinCheck = stOK := State.domJoinCheck_of_held (by omega) (by omega)
  have hgo := State.domJoinGo_alone_replied (s := s.executing h .domJoin) (r := s.runOf h .domJoin) rfl rfl rfl hi.via
    (show s.dom.st ≠ 2 by omega) hothers
  have heq := hi.takesEffect hcheck hcheck rfl hgo.2.2.1
  refine ⟨_, rfl, ?_⟩
  rw [heq]
  exact ⟨hgo.1, hgo.2.2.2, hgo.2.getLast?⟩

theorem Issued.domJoin_of_others (hi : Issued s h .domJoin e) (hst : s.dom.st = 1) (hothers : s.others ≠ []) :
    ∃ (t : State) (r : Run), exec (.domJoin h) s = .next t ∧
      t.dom = { s.dom with joining := true, joinBeat := s.beat, memBeat := none } ∧
      t.mgt.running = [r] ∧ r.body = .domJoin ∧ r.hdr = h ∧ Only { dom := true, mgtq := true } s t := by
  have hcheck : s.domJoinCheck = stOK := State.domJoinCheck_of_held (by omega) (by omega)
  have hgo := State.domJoinGo_of_others (s := s.executing h .domJoin) (show s.dom.st ≠ 2 by omega) hothers (s.runOf h .domJoin).id
  have heq := hi.takesEffect hcheck hcheck rfl (congrArg (fun x : State => x.mgt.queue) hgo)
  refine ⟨_, s.runOf h .domJoin, rfl, ?_⟩
  rw [heq, show (s.executing h .domJoin).bodyGo _ .domJoin = _ from hgo]
  exact ⟨rfl, rfl, rfl, rfl, rfl⟩

/-! ### DOM_REFORM -/

theorem Issued.domReform_refused (hi : Issued s h .domReform e) (hst : s.dom.st ≠ 3) :
    ∃ t, exec (.domReform h) s = .next t ∧ Replied h e 0x0403 11 [] s t ∧ Only { mgtq := true, outs := true, events := true } s t := by
  have hcheck : s.domReformCheck = stRefused := by simp [State.domReformCheck, hst]
  exact ⟨_, rfl, hi.refused hcheck hcheck (by decide) (by decide) rfl⟩

theorem Issued.domReform_reforms (hi : Issued s h .domReform e) (hst : s.dom.st = 3) (hlay : s.layoutKnown = true)
    (hdue : s.dom.downDue = false) :
    ∃ t, exec (.domReform h) s = .next t ∧ t.dom.st = 1 ∧
      t.dom.nack = false ∧ t.dom.table = s.dom.table ∧ (∀ b < 16, (t.bank b).store = [] ∧ (t.bank b).dc = [] ∧ (t.bank b).lost = false) ∧
      t.mgt.running = [] ∧ t.outs.getLast? = some (.mctp e Config.vendorId (replyBytes 0x0403 h 0
        (leBytes 2 ((List.range 16).foldl (fun a b => if (s.bank b).lost then a + 2 ^ b else a) 0)))) := by
  have hcheck : s.domReformCheck = stOK := by simp [State.domReformCheck, hst, hlay]
  have hgo := State.domReformGo_of_swept (s := s.executing h .domReform) hdue (s.runOf h .domReform).id
  obtain ⟨hbanks, hdom, hq, hrun⟩ := (s.executing h .domReform).reformed_rest
  have hclerks := (s.executing h .domReform).dirReformed_clerks
  generalize (s.executing h .domReform).reformed = z at hgo hbanks hdom hq hrun
  obtain ⟨-, hreply, hrest⟩ := hi.ends hcheck hcheck rfl hgo (hrun.trans hclerks.2) (hq.trans hclerks.1)
  have hdom' : (s.mgtReceive h .domReform).dom = z.dom.reformed := hrest.dom rfl
  have hbank (b : Nat) : (s.mgtReceive h .domReform).bank b = (s.executing h .domReform).dirReformed.bank b := by
    rw [State.bank, State.bank, hrest.banks rfl, ← hbanks]
  refine ⟨_, rfl, congrArg Dom.st hdom', congrArg Dom.nack hdom', ?_, fun b hb => ?_, hreply.2.2, hreply.getLast?⟩
  · calc (s.mgtReceive h .domReform).dom.table
        = z.dom.reformed.table := congrArg Dom.table hdom'
      _ = z.dom.table := rfl
      _ = s.dom.table := (congrArg Dom.table hdom).trans (s.executing h .domReform).dirReformed_table
  · rw [hbank]
    exact State.dirReformed_bank _ hb

/-! ### FAB_PORT -/

theorem Issued.fabPort_of_absent {p a : BitVec 8} (hi : Issued s h (.fabPort p a) e) (hp : s.part.fabricPorts ≤ p.toNat) :
    ∃ t, exec (.fabPort h p a) s = .next t ∧ Replied h e 0x0410 8 [] s t ∧ Only { outs := true } s t :=
  ⟨_, rfl, hi.badOperand (State.fabPortCheck_of_absent hp) (.inl rfl)⟩

theorem Issued.fabPort_of_unknown {p a : BitVec 8} (hi : Issued s h (.fabPort p a) e) (hp : p.toNat < s.part.fabricPorts) (ha : 2 < a.toNat) :
    ∃ t, exec (.fabPort h p a) s = .next t ∧ Replied h e 0x0410 9 [] s t ∧ Only { outs := true } s t :=
  ⟨_, rfl, hi.badOperand ((State.fabPortCheck_of_present hp).trans (if_pos ha)) (.inr rfl)⟩

theorem Issued.fabPort_disable {p : BitVec 8} (hi : Issued s h (.fabPort p 0) e) (hp : p.toNat < s.part.fabricPorts) :
    ∃ t, exec (.fabPort h p 0) s = .next t ∧ t.portEn p.toNat = false ∧ (t.port p.toNat).st = 0 ∧
      (∀ k, k ≠ p.toNat → t.port k = s.port k) ∧ t.outs.getLast? = some (.mctp e Config.vendorId (replyBytes 0x0410 h 0 (leBytes 4 0))) := by
  have hcheck : s.fabPortCheck p 0 = stOK := State.fabPortCheck_of_present hp
  have hgo := (s.executing h (.fabPort p 0)).fabPortGo_disable (s.runOf h (.fabPort p 0)).id p
  have hclerks := (State.portEnable_within (s.executing h (.fabPort p 0)) p.toNat false).only.clerks rfl
  obtain ⟨-, hreply, hrest⟩ := hi.ends hcheck hcheck rfl hgo hclerks.2 hclerks.1
  have hport := State.port_of_ports (hrest.ports rfl)
  have hoff := (s.executing h (.fabPort p 0)).portEnable_false_port p.toNat
  exact ⟨_, rfl, (hrest.portEn rfl _).trans (State.portEnable_portEn _ _ _), by rw [hport]; exact hoff.1,
    fun k hk => (hport k).trans (hoff.2 k hk), hreply.getLast?⟩

theorem Issued.fabPort_enable {p : BitVec 8} (hi : Issued s h (.fabPort p 1) e) (hp : p.toNat < s.part.fabricPorts)
    (hst : (s.port p.toNat).st = 0) :
    ∃ t, exec (.fabPort h p 1) s = .next t ∧ t.portEn p.toNat = true ∧
      (t.port p.toNat).st = 1 ∧ (∀ k, k ≠ p.toNat → t.port k = s.port k) ∧ Replied h e 0x0410 0 (leBytes 4 1) s t := by
  have hcheck : s.fabPortCheck p 1 = stOK := State.fabPortCheck_of_present hp
  have hgo := State.fabPortGo_enable (s := s.executing h (.fabPort p 1)) hst (s.runOf h (.fabPort p 1)).id
  have hclerks := (State.portEnable_within (s.executing h (.fabPort p 1)) p.toNat true).only.clerks rfl
  obtain ⟨-, hreply, hrest⟩ := hi.ends hcheck hcheck rfl hgo hclerks.2 hclerks.1
  have hport := State.port_of_ports (hrest.ports rfl)
  have hup := State.portEnable_true_port (s := s.executing h (.fabPort p 1)) hst
  have houts := (State.portEnable_true_only (s.executing h (.fabPort p 1)) p.toNat).outs rfl
  exact ⟨_, rfl, (hrest.portEn rfl _).trans (State.portEnable_portEn _ _ _), by rw [hport]; exact hup.1,
    fun k hk => (hport k).trans (hup.2 k hk), hreply.of_outs houts⟩

/-! ### FAB_CLR_UNREACH -/

theorem Issued.fabClrUnreach_all (hi : Issued s h (.fabClrUnreach 0xFFFF) e) :
    ∃ t, exec (.fabClrUnreach h 0xFFFF) s = .next t ∧ t.rtr.unreach = [] ∧
      Replied h e 0x0411 0 (leBytes 4 s.rtr.unreach.length) s t ∧
      Only { rtrUn := true, mgtq := true, outs := true, events := true } s t := by
  have hgo := (s.executing h (.fabClrUnreach 0xFFFF)).fabClrGo_all (s.runOf h (.fabClrUnreach 0xFFFF)).id
  obtain ⟨hend, hreply, hrest⟩ := hi.ends rfl rfl rfl hgo rfl rfl
  exact ⟨_, rfl, hrest.rtrUn rfl, hreply, hi.ends_only hend rfl rfl rfl rfl⟩

theorem Issued.fabClrUnreach_one {n : BitVec 16} (hi : Issued s h (.fabClrUnreach n) e) (hn : n.toNat ≤ 0x7FFF) :
    ∃ t, exec (.fabClrUnreach h n) s = .next t ∧ (∀ k, t.unreachable k = (s.unreachable k && k != n.toNat)) ∧
      Only { rtrUn := true, mgtq := true, outs := true, events := true } s t := by
  have hcheck : fabClrCheck n = stOK := fabClrCheck_of_node hn
  have hgo := State.fabClrGo_one hn (s.executing h (.fabClrUnreach n)) (s.runOf h (.fabClrUnreach n)).id
  obtain ⟨hend, -, hrest⟩ := hi.ends hcheck hcheck rfl hgo rfl rfl
  refine ⟨_, rfl, fun k => ?_, hi.ends_only hend rfl rfl rfl rfl⟩
  calc (s.mgtReceive h (.fabClrUnreach n)).unreachable k
      = (s.rtr.unreach.filter (· != n.toNat)).contains k := congrArg (List.contains · k) (hrest.rtrUn rfl)
    _ = (s.unreachable k && k != n.toNat) := contains_filter_bne _ _ _

end

/-- Settles O51: free clerks take each command at once (`Issued.badOperand`, `Issued.refused`, `Issued.takesEffect`), so that its conjuncts are
what its effect does in each state of the domain, the port or the marks. -/
theorem domainAndFabricCommands : Obligations.DomainAndFabricCommands :=
  ⟨fun _ _ _ _ _ hi => ⟨hi.domSet_sets, hi.domSet_of_up, by rintro rfl; exact hi.domSet_of_empty⟩,
   fun _ _ _ hi => ⟨hi.domJoin_refused, hi.domJoin_of_up, hi.domJoin_of_alone, hi.domJoin_of_others⟩,
   fun _ _ _ hi => ⟨hi.domReform_refused, fun hst hlay hdue _ => hi.domReform_reforms hst hlay hdue⟩,
   fun _ _ _ _ _ hi => ⟨hi.fabPort_of_absent, hi.fabPort_of_unknown, by rintro hp rfl; exact hi.fabPort_disable hp,
     by rintro hp rfl; exact hi.fabPort_enable hp⟩,
   fun _ _ _ _ hi => ⟨by rintro rfl; exact hi.fabClrUnreach_all, hi.fabClrUnreach_one⟩⟩

end Sys2Proof.Machine
end

section
/-! SUPPORT. What later steps read of a state of which only some pieces have changed. -/

namespace Sys2Proof.Machine

@[simp] theorem State.slice_modSlice_self (s : State) (n : Nat) (f : Slice → Slice) : (s.modSlice n f).slice n = f (s.slice n) :=
  State.slice_setSlice_self _ _ _
theorem State.slice_modSlice_ne (s : State) (f : Slice → Slice) {n k : Nat} (hk : k ≠ n) : (s.modSlice n f).slice k = s.slice k :=
  State.slice_setSlice_ne _ _ _ _ hk

section
variable {m : Mask} {s t : State}

theorem Only.slice (h : Only m s t) (hm : m.slices = false) (n : Nat) : t.slice n = s.slice n := by
  simp only [State.slice, h.slices hm]

theorem Only.memTags (h : Only m s t) (hm : m.near = false) : t.mem.tags = s.mem.tags := congrArg (·.2.2.1) (h.near hm)

theorem Only.memRecs (h : Only m s t) (hm : m.near = false) : t.mem.recs = s.mem.recs := congrArg (·.2.2.2.1) (h.near hm)

theorem Only.nearTags (h : Only m s t) (hm : m.near = false) (set : Nat) : t.nearTags set = s.nearTags set := by
  simp only [State.nearTags, h.memTags hm]

theorem Only.setRec (h : Only m s t) (hm : m.near = false) (set : Nat) : t.setRec set = s.setRec set := by
  simp only [State.setRec, h.memRecs hm]

theorem Only.latent (h : Only m s t) (hm : m.flip = false) : t.ras.latent = s.ras.latent := congrArg (·.2.2.2) (h.flip hm)

end

end Sys2Proof.Machine
end

section
/-! SUPPORT. The commands of a slice's own registers (R53, R58, R59, R91): each changes one slice. -/

namespace Sys2Proof.Machine

/-- Going from `s` to `t`, slice `n` becomes `x`, and nothing else changes. -/
def OnlySlice (n : Nat) (x : Slice) (s t : State) : Prop :=
  t.slice n = x ∧ (∀ k, k ≠ n → t.slice k = s.slice k) ∧ Only { slices := true } s t

theorem State.modSlice_onlySlice (s : State) (n : Nat) (f : Slice → Slice) : OnlySlice n (f (s.slice n)) s (s.modSlice n f) :=
  ⟨s.slice_modSlice_self n f, fun _ => s.slice_modSlice_ne f, (s.modSlice_within n f).only⟩

theorem State.tcAction_false_onlySlice (s : State) (n : Nat) :
    OnlySlice n { s.slice n with tcBusy := true, tcPos := 0, tcOut := [] } s (s.tcAction n false) := s.modSlice_onlySlice n _

theorem State.tcAction_true_onlySlice (s : State) (n : Nat) :
    OnlySlice n { s.slice n with tcBusy := true, tcPos := 0, tcOut := [], tc := (s.slice n).tc.map fun (k, v) => (k, v.map TcEnt.mark) }
      s (s.tcAction n true) := s.modSlice_onlySlice n _

section
variable {s : State} {n : Nat}

/-! ### Starting and ending an action of the tag cache -/

theorem exec_flush_of_idle (hon : s.sliceOn n = true) (hidle : (s.slice n).tcBusy = false) :
    exec (.flush n) s = .next (s.tcAction n false) := by
  simp [exec, execFlush, hon, hidle]

theorem exec_invalidate_of_idle (hon : s.sliceOn n = true) (hidle : (s.slice n).tcBusy = false) :
    exec (.invalidate n) s = .next (s.tcAction n true) := by
  simp [exec, execInvalidate, hon, hidle]

theorem exec_flush_of_busy (hbusy : (s.slice n).tcBusy = true) : exec (.flush n) s = .next s := by
  simp [exec, execFlush, hbusy]

theorem exec_invalidate_of_busy (hbusy : (s.slice n).tcBusy = true) : exec (.invalidate n) s = .next s := by
  simp [exec, execInvalidate, hbusy]

/-- A write-back that the walk issued waits outside its command unit. -/
def State.walkWaits (s : State) (n : Nat) : Prop := ∃ u < 2, ∃ a ∈ (s.cunit (nmcOf s.part n) u).hold, a.seq ∈ (s.slice n).tcOut

theorem State.walkWaits_iff : s.walkWaits n ↔
    ((List.range 2).any fun u => (s.cunit (nmcOf s.part n) u).hold.any fun r => (s.slice n).tcOut.contains r.seq) = true := by
  simp only [State.walkWaits, List.any_eq_true, List.mem_range, List.contains_iff_mem]

theorem exec_tagCacheActionDone_of_ended (hon : s.sliceOn n = true) (hbusy : (s.slice n).tcBusy = true) (hpos : 2048 ≤ (s.slice n).tcPos)
    (hout : ¬ s.walkWaits n) :
    exec (.tagCacheActionDone n) s = .next (s.modSlice n fun x => { x with tcBusy := false, tcOut := [] }) := by
  rw [State.walkWaits_iff, Bool.not_eq_true] at hout
  simp only [exec, execTagCacheActionDone, hon, hbusy, hpos, hout, decide_true, Bool.and_self, Bool.not_false, if_true]

theorem exec_tagCacheActionDone_of_not_ended (h : (s.slice n).tcPos < 2048 ∨ s.walkWaits n) :
    exec (.tagCacheActionDone n) s = .next s := by
  rcases h with hpos | hout
  · simp only [exec, execTagCacheActionDone, Nat.not_le.mpr hpos, decide_false, Bool.and_false, Bool.false_and, Bool.false_eq_true, if_false]
  · rw [State.walkWaits_iff] at hout
    simp only [exec, execTagCacheActionDone, hout, Bool.not_true, Bool.and_false, Bool.false_eq_true, if_false]

/-! ### Turning the tag cache off -/

theorem State.csrPut_only (s : State) {o : Nat} (ho : o ≠ offTrc 0) (v : Word) : Only { csr := true } s (s.csrPut o v) := by
  apply Only.of
  case h_trcCfg =>
    right
    simp only [State.csrPut, Tab.get_put_ne _ _ _ _ _ (Ne.symm ho)]
  all_goals first | exact .inl rfl | exact .inr rfl | rfl

theorem exec_tagCacheDisable_of_open (hon : s.sliceOn n = true) (hdev : s.devState ≠ 1) :
    exec (.tagCacheDisable n) s =
      .next ((s.tcAction n true).csrPut (offSlc n 8) (setFld (s.csrGet (offSlc n 8)) 0 1 0)) := by
  simp [exec, execTagCacheDisable, hon, State.rwlOpen, hdev]

theorem exec_tagCacheDisable_of_service (hdev : s.devState = 1) : exec (.tagCacheDisable n) s = .next s := by
  simp [exec, execTagCacheDisable, State.rwlOpen, hdev]

theorem tagCacheDisable_starts (hon : s.sliceOn n = true) (hdev : s.devState ≠ 1) :
    ∃ t, exec (.tagCacheDisable n) s = .next t ∧ t.tccEn n = false ∧
      t.slice n = { s.slice n with tcBusy := true, tcPos := 0, tcOut := [], tc := (s.slice n).tc.map fun (k, v) => (k, v.map TcEnt.mark) } ∧
      (∀ k, k ≠ n → t.slice k = s.slice k) ∧ Only { slices := true, csr := true } s t := by
  have hoff : offSlc n 8 ≠ offTrc 0 := by simp only [offSlc, offTrc]; omega
  obtain ⟨hslice, hslices, honly⟩ := s.tcAction_true_onlySlice n
  refine ⟨_, exec_tagCacheDisable_of_open hon hdev, ?_, hslice, hslices, ?_⟩
  · rw [State.tccEn, State.csrGet_csrPut_self]
    exact fbit_setFld_zero _ false
  · exact (honly.mono rfl).trans ((State.csrPut_only _ hoff _).mono rfl)

/-! ### Clears and resets -/

theorem exec_wayPredictorClear (hon : s.sliceOn n = true) :
    exec (.wayPredictorClear n) s = .next (s.modSlice n fun x => { x with wp := [], wpClk := s.clk + 1 }) := by
  simp only [exec, execWayPredictorClear, hon, if_true]

theorem exec_streamTableClear (hon : s.sliceOn n = true) :
    exec (.streamTableClear n) s = .next (s.modSlice n fun x => { x with streams := List.replicate 32 none }) := by
  simp only [exec, execStreamTableClear, hon, if_true]

theorem exec_mrHwmReset (hon : s.sliceOn n = true) :
    exec (.mrHwmReset n) s = .next (s.modSlice n fun x => { x with mrHwm := x.mrs.length }) := by
  simp only [exec, execMrHwmReset, hon, if_true]

theorem exec_vbHwmReset (hon : s.sliceOn n = true) :
    exec (.vbHwmReset n) s = .next (s.modSlice n fun x => { x with vbHwm := x.vbs.length }) := by
  simp only [exec, execVbHwmReset, hon, if_true]

end
end Sys2Proof.Machine
end

section
/-! SUPPORT. The walk of a tag-cache action (R58): what one visit leaves in the set it comes to. -/

namespace Sys2Proof.Machine

theorem State.putNearTags_memTags {s : State} {n : Nat} (hworks : s.nearFrozen n = false) (set : Nat) (b : TagBlk) :
    (s.putNearTags n set b).mem.tags = Tab.put {} s.mem.tags set b := by
  simp only [State.putNearTags, hworks, Bool.false_eq_true, if_false]
  exact (State.nearAccess_within _ n set 0 true).only.memTags rfl

theorem State.putNearTags_nearTags {s : State} {n : Nat} (hworks : s.nearFrozen n = false) (set : Nat) (b : TagBlk) :
    (s.putNearTags n set b).nearTags set = b := by
  rw [State.nearTags, State.putNearTags_memTags hworks, Tab.get_put_self]

/-! ### One entry -/

/-- What a visit leaves of an entry. -/
def TcEnt.visited (e : TcEnt) : Option TcEnt := if e.pending then some e else if e.doomed then none else some { e with ageDirty := false }

/-- The visit to entry `e` at place `k`. -/
def State.tcVisit (s : State) (n k : Nat) (e : TcEnt) : State :=
  if e.pending then s
  else (s.tcWriteBack n e).modSlice n fun x =>
    { x with tc := Tab.put none x.tc k (if e.doomed then none else some { e with ageDirty := false }),
             tcOut := x.tcOut ++ (if e.ageDirty then [s.mem.nextSeq] else []) }

theorem State.tcWriteBack_slice (s : State) (n : Nat) (e : TcEnt) (k : Nat) : (s.tcWriteBack n e).slice k = s.slice k :=
  (s.tcWriteBack_within n e).only.slice rfl k

theorem State.tcVisit_tcPos (s : State) (n k : Nat) (e : TcEnt) : ((s.tcVisit n k e).slice n).tcPos = (s.slice n).tcPos := by
  unfold State.tcVisit
  split
  · rfl
  · rw [State.slice_modSlice_self, State.tcWriteBack_slice]

theorem State.tcVisit_tc {s : State} {n k : Nat} {e : TcEnt} (he : Tab.get none (s.slice n).tc k = some e) (j : Nat) :
    Tab.get none ((s.tcVisit n k e).slice n).tc j = if j = k then e.visited else Tab.get none (s.slice n).tc j := by
  unfold State.tcVisit TcEnt.visited
  split
  · split
    · next hj => rw [hj, he]
    · rfl
  · rw [State.slice_modSlice_self, State.tcWriteBack_slice, Tab.get_put]

/-- The visits to the entries of a list, in order. -/
def State.tcVisits (s : State) (n : Nat) (l : List (Nat × TcEnt)) : State := l.foldl (fun s p => s.tcVisit n p.1 p.2) s

theorem State.tcVisits_tcPos (s : State) (n : Nat) (l : List (Nat × TcEnt)) : ((s.tcVisits n l).slice n).tcPos = (s.slice n).tcPos := by
  induction l generalizing s with
  | nil => rfl
  | cons p l ih => exact (ih _).trans (s.tcVisit_tcPos n p.1 p.2)

theorem State.tcVisits_tc {s : State} {n : Nat} {l : List (Nat × TcEnt)} (hkeys : (l.map (·.1)).Nodup)
    (hl : ∀ p ∈ l, Tab.get none (s.slice n).tc p.1 = some p.2) :
    (∀ j, j ∉ l.map (·.1) → Tab.get none ((s.tcVisits n l).slice n).tc j = Tab.get none (s.slice n).tc j) ∧
      (∀ p ∈ l, Tab.get none ((s.tcVisits n l).slice n).tc p.1 = p.2.visited) := by
  induction l generalizing s with
  | nil => exact ⟨fun _ _ => rfl, fun _ hp => nomatch hp⟩
  | cons p l ih =>
    obtain ⟨hp, hkeys⟩ := List.nodup_cons.mp hkeys
    have hvisit := State.tcVisit_tc (hl p List.mem_cons_self)
    have hkept : ∀ j, j ≠ p.1 → Tab.get none ((s.tcVisit n p.1 p.2).slice n).tc j = Tab.get none (s.slice n).tc j :=
      fun j hj => (hvisit j).trans (if_neg hj)
    obtain ⟨hother, hlisted⟩ := ih (s := s.tcVisit n p.1 p.2) hkeys fun q hq =>
      (hkept q.1 fun h => hp (List.mem_map.mpr ⟨q, hq, h⟩)).trans (hl q (List.mem_cons_of_mem _ hq))
    refine ⟨fun j hj => ?_, fun q hq => ?_⟩
    · rw [List.map_cons, List.mem_cons, not_or] at hj
      exact (hother j hj.2).trans (hkept j hj.1)
    · rcases List.mem_cons.mp hq with rfl | hq
      · exact (hother q.1 hp).trans ((hvisit q.1).trans (if_pos rfl))
      · exact hlisted q hq

/-! ### The set that the walk comes to -/

/-- The entries of the set that the walk visits next, with their places. -/
def Slice.walkSet (x : Slice) : List (Nat × TcEnt) :=
  (List.range 12).filterMap fun i => (Tab.get none x.tc (x.tcPos * 12 + i)).map fun e => (x.tcPos * 12 + i, e)

theorem Slice.mem_walkSet {x : Slice} {k : Nat} {e : TcEnt} :
    (k, e) ∈ x.walkSet ↔ k / 12 = x.tcPos ∧ Tab.get none x.tc k = some e := by
  simp only [Slice.walkSet, List.mem_filterMap, List.mem_range, Option.map_eq_some_iff, Prod.mk.injEq]
  constructor
  · rintro ⟨i, hi, e', he, rfl, rfl⟩
    exact ⟨by omega, he⟩
  · rintro ⟨hk, he⟩
    refine ⟨k % 12, Nat.mod_lt _ (by decide), e, ?_, ?_, rfl⟩ <;> rw [show x.tcPos * 12 + k % 12 = k by omega]
    exact he

theorem Slice.walkSet_keys_nodup (x : Slice) : (x.walkSet.map (·.1)).Nodup := by
  have hkeys : x.walkSet.map (·.1) =
      (List.range 12).filterMap fun i => (Tab.get none x.tc (x.tcPos * 12 + i)).map fun _ => x.tcPos * 12 + i := by
    simp only [Slice.walkSet, List.map_filterMap, Option.map_map]
    rfl
  rw [hkeys]
  refine List.nodup_range.filterMap fun i j k hi hj => ?_
  simp only [Option.mem_def, Option.map_eq_some_iff] at hi hj
  obtain ⟨_, -, rfl⟩ := hi
  obtain ⟨_, -, hj⟩ := hj
  omega

/-- An age-dirty entry of the set that the walk comes to meets a full write path. -/
def State.walkPauses (s : State) (n : Nat) : Bool :=
  (s.slice n).walkSet.any fun p => p.2.ageDirty && !p.2.pending && s.nearFull n (setOfRow s.part n p.2.row)

theorem State.tcStep_eq {s : State} {n : Nat} (hbusy : (s.slice n).tcBusy = true) (hpos : (s.slice n).tcPos < 2048) :
    s.tcStep n = if s.walkPauses n then s else (s.tcVisits n (s.slice n).walkSet).modSlice n fun x => { x with tcPos := x.tcPos + 1 } := by
  have hgoes : (!(s.slice n).tcBusy || decide (2048 ≤ (s.slice n).tcPos)) = false := by simp [hbusy, hpos]
  unfold State.tcStep
  simp only [hgoes, Bool.false_eq_true, if_false]
  rfl

theorem State.tcStep_visits {s : State} {n : Nat} (hbusy : (s.slice n).tcBusy = true) (hpos : (s.slice n).tcPos < 2048)
    (hroom : ∀ k e, k / 12 = (s.slice n).tcPos → Tab.get none (s.slice n).tc k = some e → e.ageDirty = true → e.pending = true ∨
      s.nearFull n (setOfRow s.part n e.row) = false) :
    ((s.tcStep n).slice n).tcPos = (s.slice n).tcPos + 1 ∧
    (∀ k, k / 12 ≠ (s.slice n).tcPos → Tab.get none ((s.tcStep n).slice n).tc k = Tab.get none (s.slice n).tc k) ∧
    (∀ k e, k / 12 = (s.slice n).tcPos → Tab.get none (s.slice n).tc k = some e →
      Tab.get none ((s.tcStep n).slice n).tc k = e.visited) := by
  have hgoes : s.walkPauses n = false := by
    rw [State.walkPauses, List.any_eq_false]
    rintro ⟨k, e⟩ hp
    obtain ⟨hk, he⟩ := Slice.mem_walkSet.mp hp
    simp only [Bool.and_eq_true, Bool.not_eq_true']
    rintro ⟨⟨hdirty, hpend⟩, hfull⟩
    rcases hroom k e hk he hdirty with h | h
    · cases h.symm.trans hpend
    · cases h.symm.trans hfull
  obtain ⟨hother, hlisted⟩ := State.tcVisits_tc (s := s) (n := n) (s.slice n).walkSet_keys_nodup
    fun p hp => (Slice.mem_walkSet.mp hp).2
  rw [State.tcStep_eq hbusy hpos, hgoes, if_neg Bool.false_ne_true, State.slice_modSlice_self]
  refine ⟨congrArg (· + 1) (s.tcVisits_tcPos n _), fun k hk => hother k fun hmem => ?_, fun k e hk he => ?_⟩
  · obtain ⟨p, hp, rfl⟩ := List.mem_map.mp hmem
    exact hk (Slice.mem_walkSet.mp hp).1
  · exact hlisted (k, e) (Slice.mem_walkSet.mpr ⟨hk, he⟩)

/-! ### A set with one age-dirty entry -/

section
variable {s : State} {n k : Nat} {e : TcEnt}

theorem Slice.walkSet_of_one {x : Slice} (hk : k / 12 = x.tcPos) (htc : x.tc = [(k, some e)]) : x.walkSet = [(k, e)] := by
  have hmem : ∀ p, p ∈ x.walkSet ↔ p ∈ [(k, e)] := by
    rintro ⟨j, f⟩
    rw [Slice.mem_walkSet, htc, List.mem_singleton, Prod.mk.injEq]
    simp only [Tab.get]
    split
    · next h => subst h; simp [hk, eq_comm]
    · next h => simp [Ne.symm h]
  exact List.perm_singleton.mp ((List.perm_ext_iff_of_nodup (x.walkSet_keys_nodup.of_map _) (List.nodup_singleton _)).mpr hmem)

theorem State.walkPauses_of_one (hk : k / 12 = (s.slice n).tcPos) (htc : (s.slice n).tc = [(k, some e)]) (hpend : e.pending = false)
    (hdirty : e.ageDirty = true) : s.walkPauses n = s.nearFull n (setOfRow s.part n e.row) := by
  rw [State.walkPauses, Slice.walkSet_of_one hk htc]
  simp [hpend, hdirty]

theorem State.tcVisit_nearTags (hworks : s.nearFrozen n = false) (hpend : e.pending = false) (hdirty : e.ageDirty = true) (k : Nat) :
    (s.tcVisit n k e).nearTags (setOfRow s.part n e.row) = s.dropStale e.blk := by
  simp only [State.tcVisit, State.tcWriteBack, hpend, hdirty, Bool.not_false, Bool.and_self, Bool.false_eq_true, if_false, if_true]
  exact State.putNearTags_nearTags hworks _ _

theorem State.tcStep_of_one (hbusy : (s.slice n).tcBusy = true) (hpos : (s.slice n).tcPos < 2048) (hk : k / 12 = (s.slice n).tcPos)
    (htc : (s.slice n).tc = [(k, some e)]) (hpend : e.pending = false) (hdirty : e.ageDirty = true) (hworks : s.nearFrozen n = false) :
    (s.nearFull n (setOfRow s.part n e.row) = false → (s.tcStep n).nearTags (setOfRow s.part n e.row) = s.dropStale e.blk) ∧
    (s.nearFull n (setOfRow s.part n e.row) = true → s.tcStep n = s) := by
  have hstep := State.tcStep_eq hbusy hpos
  rw [State.walkPauses_of_one hk htc hpend hdirty, Slice.walkSet_of_one hk htc] at hstep
  refine ⟨fun hroom => ?_, fun hfull => ?_⟩
  · rw [hstep, hroom, if_neg Bool.false_ne_true]
    exact State.tcVisit_nearTags hworks hpend hdirty k
  · rw [hstep, hfull, if_pos rfl]

end
end Sys2Proof.Machine
end

section
/-! SUPPORT. Tag blocks (R32, R35, R36): their entries after a write, and when two differ in more than ages. -/

namespace Sys2Proof.Machine

theorem TagBlk.get_set_self {b : TagBlk} {w : Nat} (h1 : 1 ≤ w) (hw : w ≤ b.ways.length) (e : TagEnt) : (b.set w e).get w = e := by
  have hlt : w - 1 < b.ways.length := by omega
  simp [TagBlk.get, TagBlk.set, hlt]

@[simp] theorem TagBlk.length_set (b : TagBlk) (w : Nat) (e : TagEnt) : (b.set w e).ways.length = b.ways.length := by
  simp [TagBlk.set]

@[simp] theorem State.length_dropStale (s : State) (b : TagBlk) : (s.dropStale b).ways.length = b.ways.length := by
  simp [State.dropStale]

/-- Only L entries go stale: one in any other state stays as it is. -/
theorem State.dropStale_get {s : State} {b : TagBlk} {w : Nat} (hst : (b.get w).st ≠ stL) : (s.dropStale b).get w = b.get w := by
  have hfresh : s.stale (b.get w) = false := by simp [State.stale, hst]
  unfold TagBlk.get at hfresh ⊢
  simp only [State.dropStale, List.getElem?_map]
  cases hget : b.ways[w - 1]? with
  | none => rfl
  | some e =>
    rw [hget, Option.getD_some] at hfresh
    simp [hfresh]

theorem TagEnt.sameButAge_refl (e : TagEnt) : e.sameButAge e = true := by simp [TagEnt.sameButAge]

theorem TagBlk.sameButAge_refl (b : TagBlk) : b.sameButAge b = true := by
  simp only [TagBlk.sameButAge, List.all_eq_true]
  rintro ⟨x, y⟩ hxy
  obtain rfl : x = y := by
    rw [List.zip_eq_zipWith, List.zipWith_self] at hxy
    obtain ⟨_, -, h⟩ := List.mem_map.mp hxy
    cases h; rfl
  exact x.sameButAge_refl

theorem TagBlk.not_sameButAge_set {b : TagBlk} {w : Nat} (h1 : 1 ≤ w) (hw : w ≤ b.ways.length) {e : TagEnt} (hst : e.st ≠ (b.get w).st) :
    (b.set w e).sameButAge b = false := by
  have hlt : w - 1 < b.ways.length := by omega
  have hget : (b.get w) = b.ways[w - 1] := by simp [TagBlk.get, hlt]
  rw [hget] at hst
  rw [TagBlk.sameButAge, List.all_eq_false]
  refine ⟨(e, b.ways[w - 1]), List.mem_iff_getElem.mpr ⟨w - 1, by simp [TagBlk.set, hlt], by simp [TagBlk.set]⟩, ?_⟩
  simp [TagEnt.sameButAge, hst]

end Sys2Proof.Machine
end

section
/-! SUPPORT. Where the tag cache holds a row (R47), and what a change of a set's tag block leaves to be read (R48, R49). -/

namespace Sys2Proof.Machine

section
variable {x : Slice} {q k : Nat} {e : TcEnt}

theorem Slice.tcFind_of_tc_nil (h : x.tc = []) (q : Nat) : x.tcFind q = none := by
  simp [Slice.tcFind, h, Tab.get]

/-- Entry `i` of the set that row `q` falls into, if it holds that row. -/
def Slice.tcAt (x : Slice) (q i : Nat) : Option (Nat × TcEnt) :=
  match Tab.get none x.tc (q % 2048 * 12 + i) with
  | some e => if e.row == q then some (q % 2048 * 12 + i, e) else none
  | none => none

theorem Slice.tcFind_eq (x : Slice) (q : Nat) : x.tcFind q = (List.range 12).findSome? (x.tcAt q) := rfl

theorem Slice.tcAt_eq_some_iff {i : Nat} :
    x.tcAt q i = some (k, e) ↔ q % 2048 * 12 + i = k ∧ Tab.get none x.tc k = some e ∧ e.row = q := by
  unfold Slice.tcAt
  split
  · next f hf =>
    simp only [Option.ite_none_right_eq_some, beq_iff_eq, Option.some.injEq, Prod.mk.injEq]
    constructor
    · rintro ⟨hrow, rfl, rfl⟩
      exact ⟨rfl, hf, hrow⟩
    · rintro ⟨rfl, hget, hrow⟩
      obtain rfl : f = e := Option.some.inj (hf.symm.trans hget)
      exact ⟨hrow, rfl, rfl⟩
  · next hf =>
    simp only [reduceCtorEq, false_iff, not_and]
    rintro rfl hget
    simp [hf] at hget

theorem Slice.row_of_tcFind (h : x.tcFind q = some (k, e)) : e.row = q := by
  rw [Slice.tcFind_eq] at h
  obtain ⟨i, -, hi⟩ := List.exists_of_findSome?_eq_some h
  exact (Slice.tcAt_eq_some_iff.mp hi).2.2

/-- A row's entry that is written anew is found in its place. -/
theorem Slice.tcFind_put (h : x.tcFind q = some (k, e)) {f : TcEnt} (hf : f.row = q) :
    ({ x with tc := Tab.put none x.tc k (some f) } : Slice).tcFind q = some (k, f) := by
  rw [Slice.tcFind_eq, List.findSome?_eq_some_iff] at h ⊢
  obtain ⟨l₁, i, l₂, hrange, hi, hbefore⟩ := h
  obtain ⟨hk, -, -⟩ := Slice.tcAt_eq_some_iff.mp hi
  refine ⟨l₁, i, l₂, hrange, Slice.tcAt_eq_some_iff.mpr ⟨hk, Tab.get_put_self none x.tc k (some f), hf⟩, fun j hj => ?_⟩
  have hne : q % 2048 * 12 + j ≠ k := by
    rintro hjk
    obtain rfl : j = i := by omega
    simp [hbefore j hj] at hi
  rw [← hbefore j hj, Slice.tcAt, Slice.tcAt, Tab.get_put_ne _ _ _ _ _ hne]

/-- A row whose entry is the first of its set, and alone in the cache. -/
theorem Slice.tcFind_of_one (h : x.tc = [(q % 2048 * 12, some e)]) (hrow : e.row = q) : x.tcFind q = some (q % 2048 * 12, e) := by
  rw [Slice.tcFind_eq, show List.range 12 = 0 :: List.map Nat.succ (List.range 11) from rfl, List.findSome?_cons,
    Slice.tcAt_eq_some_iff.mpr ⟨Nat.add_zero _, by rw [h, Tab.get, if_pos rfl], hrow⟩]

end

section
variable {s : State} {n set : Nat} {b : TagBlk}

theorem State.tags_of_uncached (h : ∀ k e, (s.slice n).tcFind (rowOf s.part set) = some (k, e) → e.pending = true) :
    s.tags n set = s.nearTags set := by
  unfold State.tags
  split
  · next k e hfind => rw [if_pos (h k e hfind)]
  · rfl

theorem State.tags_of_cached {k : Nat} {e : TcEnt} (h : (s.slice n).tcFind (rowOf s.part set) = some (k, e)) (hpend : e.pending = false) :
    s.tags n set = e.blk := by
  simp only [State.tags, h, hpend, Bool.false_eq_true, if_false]

/-- What a change of a set's tag block comes to beside a working channel: a write to near memory where the cache holds no block of the
row; nothing; ages alone, which stay in the cache; or a write through it. -/
theorem State.putTags_cases (hworks : s.nearFrozen n = false) (b : TagBlk) :
    ((∀ k e, (s.slice n).tcFind (rowOf s.part set) = some (k, e) → e.pending = true) ∧ s.putTags n set b = s.putNearTags n set (s.dropStale b)) ∨
    (b = s.tags n set ∧ s.putTags n set b = s) ∨
    (∃ k e f, (s.slice n).tcFind (rowOf s.part set) = some (k, e) ∧ f.row = e.row ∧ f.pending = false ∧
      ((b.sameButAge (s.tags n set) = true ∧ f.blk = b ∧
          s.putTags n set b = s.modSlice n fun x => { x with tc := Tab.put none x.tc k (some f) }) ∨
        (f.blk = s.dropStale b ∧
          s.putTags n set b = (s.modSlice n fun x => { x with tc := Tab.put none x.tc k (some f) }).putNearTags n set (s.dropStale b)))) := by
  unfold State.putTags
  simp only [hworks, Bool.false_eq_true, if_false]
  split
  · next k e hfind =>
    split
    · next hpend => exact .inl ⟨fun _ _ h => by cases hfind.symm.trans h; exact hpend, rfl⟩
    · next hpend =>
      have hpend : e.pending = false := by simpa using hpend
      split
      · next hsame =>
        exact .inr (.inr ⟨k, e, { e with blk := b, ageDirty := e.ageDirty || decide (b ≠ s.tags n set) }, hfind, rfl, hpend,
          .inl ⟨(Bool.and_eq_true_iff.mp hsame).1, rfl, rfl⟩⟩)
      · split
        · next heq => exact .inr (.inl ⟨heq, rfl⟩)
        · exact .inr (.inr ⟨k, e, { e with blk := s.dropStale b, ageDirty := false }, hfind, rfl, hpend, .inr ⟨rfl, rfl⟩⟩)
  · next hfind =>
    split
    · next heq => exact .inr (.inl ⟨heq, rfl⟩)
    · exact .inl ⟨fun _ _ h => by simp [hfind] at h, rfl⟩

theorem State.putNearTags_slice (s : State) (n set : Nat) (b : TagBlk) (k : Nat) : (s.putNearTags n set b).slice k = s.slice k :=
  (s.putNearTags_within n set b).only.slice rfl k

theorem State.putNearTags_part (s : State) (n set : Nat) (b : TagBlk) : (s.putNearTags n set b).part = s.part :=
  (s.putNearTags_within n set b).only.part

/-- The block reads back as written, but for L entries that have gone stale. -/
theorem State.putTags_tags (hworks : s.nearFrozen n = false) (b : TagBlk) :
    (s.putTags n set b).tags n set = b ∨ (s.putTags n set b).tags n set = s.dropStale b := by
  rcases State.putTags_cases (set := set) hworks b with ⟨hno, h⟩ | ⟨heq, h⟩ | ⟨k, e, f, hfind, hrow, hpend, ⟨-, hblk, h⟩ | ⟨hblk, h⟩⟩
  · right
    rw [h, State.tags_of_uncached fun k e hf => hno k e ?_, State.putNearTags_nearTags hworks]
    rwa [State.putNearTags_slice, State.putNearTags_part] at hf
  · left
    rw [h, ← heq]
  all_goals
    have hput := Slice.tcFind_put hfind (hrow.trans (Slice.row_of_tcFind hfind))
    rw [h]
  · left
    rw [State.tags_of_cached (by rw [State.slice_modSlice_self]; exact hput) hpend, hblk]
  · right
    rw [State.tags_of_cached (by rw [State.putNearTags_slice, State.putNearTags_part, State.slice_modSlice_self]; exact hput) hpend, hblk]

/-- A change of more than ages is in near memory (R49). -/
theorem State.putTags_nearTags (hworks : s.nearFrozen n = false) (hb : b.sameButAge (s.tags n set) = false) :
    (s.putTags n set b).nearTags set = s.dropStale b := by
  rcases State.putTags_cases (set := set) hworks b with ⟨-, h⟩ | ⟨heq, -⟩ | ⟨k, e, f, -, -, -, ⟨hsame, -⟩ | ⟨-, h⟩⟩
  · rw [h, State.putNearTags_nearTags hworks]
  · rw [← heq, TagBlk.sameButAge_refl] at hb
    cases hb
  · rw [hsame] at hb
    cases hb
  · rw [h]
    exact State.putNearTags_nearTags (s := s.modSlice n _) hworks set _

end
end Sys2Proof.Machine
end

section
/-! SUPPORT. What changes of tag blocks leave alone: the set records, the ways due for retirement, the freeze of channels and the partition. -/

namespace Sys2Proof.Machine

/-! ### A channel's freeze -/

/-- The channel is frozen or under BIST. -/
def Chan.shut (x : Chan) : Bool := x.frozen || x.bist

theorem State.nearFrozen_eq (s : State) (n : Nat) : s.nearFrozen n = (s.chan (nmcOf s.part n)).shut := rfl

theorem Only.chan {m : Mask} {s t : State} (h : Only m s t) (hm : m.chans = false) (c : Nat) : t.chan c = s.chan c := by
  simp only [State.chan, h.chans hm]

theorem Only.nearFrozen {m : Mask} {s t : State} (h : Only m s t) (hm : m.chans = false) (n : Nat) : t.nearFrozen n = s.nearFrozen n := by
  rw [State.nearFrozen_eq, State.nearFrozen_eq, h.chan hm, h.part]

theorem State.setChan_shut {s : State} {c : Nat} {x : Chan} (hx : x.shut = (s.chan c).shut) (d : Nat) :
    ((s.setChan c x).chan d).shut = (s.chan d).shut := by
  rw [State.chan_setChan]
  split
  · next h => rw [hx, h]
  · rfl

theorem State.setCunit_shut (s : State) (c u : Nat) (x : CUnit) (d : Nat) : ((s.setCunit c u x).chan d).shut = (s.chan d).shut := by
  refine State.setChan_shut ?_ d
  split <;> rfl

theorem State.chanIn_shut (s : State) (c u : Nat) (r : ChReq) (d : Nat) : ((s.chanIn c u r).chan d).shut = (s.chan d).shut := by
  unfold State.chanIn
  extract_lets x r bk ws fresh x' mem s₁ ch s₂
  have hunit : (s₁.chan d).shut = (s.chan d).shut := State.setCunit_shut _ c u x' d
  clear_value s₁
  have hidle : (s₂.chan d).shut = (s₁.chan d).shut := by
    refine State.setChan_shut ?_ d
    rfl
  split
  · exact hidle.trans hunit
  · exact hidle.trans hunit

theorem State.chanEnq_shut (s : State) (c u : Nat) (r : ChReq) (d : Nat) : ((s.chanEnq c u r).chan d).shut = (s.chan d).shut := by
  simp only [State.chanEnq]
  split
  · exact s.chanIn_shut c u r d
  · exact State.setCunit_shut _ c u _ d

theorem State.nearAccess_nearFrozen (s : State) (n set k : Nat) (wr : Bool) (j : Nat) : (s.nearAccess n set k wr).nearFrozen j = s.nearFrozen j := by
  rw [State.nearFrozen_eq, State.nearFrozen_eq, (s.nearAccess_within n set k wr).only.part]
  unfold State.nearAccess
  extract_lets c row
  split
  · rfl
  · rw [State.chanEnq_shut]
    split
    · rw [(s.flipNear_within _ _).only.chan rfl]
    · rfl

theorem State.putNearTags_nearFrozen (s : State) (n set : Nat) (b : TagBlk) (j : Nat) : (s.putNearTags n set b).nearFrozen j = s.nearFrozen j := by
  unfold State.putNearTags
  split
  · rfl
  · exact State.nearAccess_nearFrozen _ n set 0 true j

/-! ### What a lookup leaves alone -/

section
variable {m : Mask} {s t : State}

theorem Only.stayWay (h : Only m s t) (hpart : m.glbPart = false) (hmgt : m.mgt = false) (w : Nat) : t.stayWay w = s.stayWay w := by
  have hglb : t.glbPart = s.glbPart := h.glbPart hpart
  have hrange : t.mgt.range = s.mgt.range := congrArg (·.1) (h.mgt hmgt)
  have hconv : t.converting w = s.converting w := by
    unfold State.converting State.houseWays
    rw [hglb, hrange]
  have hcache : t.cacheWay w = s.cacheWay w := by
    unfold State.cacheWay State.cacheWays
    rw [hglb]
  rw [State.stayWay, State.stayWay, hcache, hconv]

theorem Only.otherFree (h : Only m s t) (hpart : m.glbPart = false) (hmgt : m.mgt = false) (b : TagBlk) (w : Nat) :
    t.otherFree b w = s.otherFree b w := by
  simp only [State.otherFree, h.stayWay hpart hmgt]

end

/-- What a lookup of a set, and a change of its tag block, can change. -/
def lookMask : Mask :=
  { free := true, finds := true, trcCfg := true, irq := true, slices := true, chans := true, near := true, memIo := true, pba := true,
    ledger := true, bkt := true, flip := true, events := true, trc := true, outs := true }

/-- Going from `s` to `t` within a lookup's pieces leaves the set records, slice `n`'s ways due for retirement and its channel's freeze. -/
structure KeepsRecords (n : Nat) (s t : State) : Prop where
  recs : t.mem.recs = s.mem.recs
  due : (t.slice n).retireDue = (s.slice n).retireDue
  works : t.nearFrozen n = s.nearFrozen n
  only : Only lookMask s t

section
variable {n set w : Nat} {s t u : State}

theorem KeepsRecords.refl (n : Nat) (s : State) : KeepsRecords n s s := ⟨rfl, rfl, rfl, rfl⟩

theorem KeepsRecords.trans (h : KeepsRecords n s t) (k : KeepsRecords n t u) : KeepsRecords n s u :=
  ⟨k.recs.trans h.recs, k.due.trans h.due, k.works.trans h.works, h.only.trans k.only⟩

theorem KeepsRecords.of_only {m : Mask} (h : Only m s t) (hm : m.le lookMask = true) (hslices : m.slices = false) (hchans : m.chans = false)
    (hnear : m.near = false) : KeepsRecords n s t :=
  ⟨h.memRecs hnear, by rw [h.slice hslices], h.nearFrozen hchans n, h.mono hm⟩

theorem KeepsRecords.nearAccess (s : State) (n set k : Nat) (wr : Bool) : KeepsRecords n s (s.nearAccess n set k wr) :=
  have honly := (s.nearAccess_within n set k wr).only
  ⟨honly.memRecs rfl, by rw [honly.slice rfl], s.nearAccess_nearFrozen n set k wr n, honly.mono rfl⟩

theorem KeepsRecords.modSlice (s : State) (n : Nat) {f : Slice → Slice} (hf : (f (s.slice n)).retireDue = (s.slice n).retireDue) :
    KeepsRecords n s (s.modSlice n f) :=
  ⟨rfl, by rw [State.slice_modSlice_self, hf], rfl, (s.modSlice_within n f).only.mono rfl⟩

theorem KeepsRecords.putNearTags (s : State) (n set : Nat) (b : TagBlk) : KeepsRecords n s (s.putNearTags n set b) := by
  refine ⟨?_, by rw [State.putNearTags_slice], s.putNearTags_nearFrozen n set b n, (s.putNearTags_within n set b).only.mono rfl⟩
  unfold State.putNearTags
  split
  · rfl
  · exact (State.nearAccess_within _ n set 0 true).only.memRecs rfl

theorem KeepsRecords.putTags (hworks : s.nearFrozen n = false) (set : Nat) (b : TagBlk) : KeepsRecords n s (s.putTags n set b) := by
  rcases State.putTags_cases (set := set) hworks b with ⟨-, h⟩ | ⟨-, h⟩ | ⟨k, e, f, -, -, -, ⟨-, -, h⟩ | ⟨-, h⟩⟩ <;> rw [h]
  · exact .putNearTags s n set _
  · exact .refl n s
  · exact .modSlice s n rfl
  · exact .trans (.modSlice s n rfl) (.putNearTags _ n set _)

theorem KeepsRecords.setRec (h : KeepsRecords n s t) (set : Nat) : t.setRec set = s.setRec set := by
  rw [State.setRec, State.setRec, h.recs]

end
end Sys2Proof.Machine
end

section
/-! SUPPORT. A maintenance lookup of a set (R48, R50) whose slice caches no tag block and in whose block the codes find nothing. -/

namespace Sys2Proof.Machine

/-- Slice `n` works and caches no tag block, and the codes find no error in the block of its set. -/
structure BareSet (s : State) (n set : Nat) : Prop where
  works : s.nearFrozen n = false
  noCache : (s.slice n).tc = []
  noFinds : s.finds.tag = []
  noFlip : s.ras.latent = []
  sound : tagError s.part set (s.nearTags set) = false

section
variable {s t : State} {n set : Nat}

theorem BareSet.of_only {m : Mask} (hb : BareSet s n set) (h : Only m s t) (hslices : m.slices = false) (hnear : m.near = false)
    (hfinds : m.finds = false) (hflip : m.flip = false) (hworks : t.nearFrozen n = s.nearFrozen n) : BareSet t n set :=
  ⟨hworks.trans hb.works, by rw [h.slice hslices, hb.noCache], by rw [h.finds hfinds, hb.noFinds], by rw [h.latent hflip, hb.noFlip],
    by rw [h.part, h.nearTags hnear, hb.sound]⟩

/-! ### The tag-block read -/

theorem State.metNear_of_no_flip (h : s.ras.latent = []) (n set k : Nat) (e : ArrErr) : s.metNear n set k e = e := by
  simp [State.metNear, State.met, h]

theorem BareSet.tagRead (hb : BareSet s n set) : s.tagRead n set .none = s := by
  simp [State.tagRead, State.metNear_of_no_flip hb.noFlip, hb.sound]

/-- A read, unlike a write, meets no armed injection. -/
theorem State.nearAccess_read_only (s : State) (n set k : Nat) :
    Only { chans := true, memIo := true, events := true } s (s.nearAccess n set k false) := by
  simp only [State.nearAccess, Bool.false_eq_true, if_false]
  split
  · exact Only.refl _ s
  · exact (s.chanEnq_within _ _ _).only

theorem BareSet.nearAccess (hb : BareSet s n set) (k : Nat) : BareSet (s.nearAccess n set k false) n set :=
  hb.of_only (s.nearAccess_read_only n set k) rfl rfl rfl rfl (s.nearAccess_nearFrozen n set k false n)

/-! ### The entry that keeps the block -/

theorem Slice.tcVictim_of_tc_nil {x : Slice} (h : x.tc = []) (q : Nat) : x.tcVictim q = some (q % 2048 * 12) := by
  simp only [Slice.tcVictim, h, Tab.get]
  rfl

/-- The clearing of the other reference bits of the set (R50) finds no other entry. -/
theorem Slice.tcUse_of_one {x : Slice} {q : Nat} {e : TcEnt} (h : x.tc = [(q % 2048 * 12, some e)]) :
    x.tcUse (q % 2048 * 12) = { x with tc := [(q % 2048 * 12, some { e with ref := true })] } := by
  have hrange : List.range 12 = 0 :: (List.range 11).map Nat.succ := rfl
  have hbase : q % 2048 * 12 / 12 * 12 = q % 2048 * 12 := by omega
  have hput (f : TcEnt) : Tab.put none [(q % 2048 * 12, some e)] (q % 2048 * 12) (some f) = [(q % 2048 * 12, some f)] := by
    simp [Tab.put, Tab.ins]
  simp only [Slice.tcUse, hbase, hrange, List.foldl_cons, List.foldl_map, h, Nat.add_zero, Tab.get, if_true, beq_self_eq_true, hput]
  refine List.foldl_fixed' (fun i => ?_) _
  have hother : q % 2048 * 12 ≠ q % 2048 * 12 + i.succ := by omega
  simp only [Tab.get, if_neg hother]

@[simp] theorem State.modSlice_nearTags (s : State) (n : Nat) (f : Slice → Slice) (set : Nat) : (s.modSlice n f).nearTags set = s.nearTags set := rfl

theorem State.tcAlloc_of_tc_nil (h : (s.slice n).tc = []) (q : Nat) :
    s.tcAlloc n q = some (s.modSlice n fun x => { x with tc := [(q % 2048 * 12, some { row := q, pending := true, ref := true })] }) := by
  simp only [State.tcAlloc, Slice.tcVictim_of_tc_nil h, Option.map_some, h, Tab.get, State.modSlice]
  rw [Slice.tcUse_of_one (e := { row := q, pending := true }) rfl]

/-- The entry holds the block as near memory does. -/
theorem State.tcKeep_of_tc_nil (h : (s.slice n).tc = []) (set q : Nat) :
    ((s.tcKeep n set q).slice n = if s.tccEn n then
      { s.slice n with tc := [(q % 2048 * 12, some { row := q, blk := s.nearTags set, ref := true })] } else s.slice n) ∧
    Only { slices := true } s (s.tcKeep n set q) := by
  unfold State.tcKeep
  split
  · next hoff =>
    rw [Bool.not_eq_true'] at hoff
    exact ⟨by rw [hoff, if_neg Bool.false_ne_true], Only.refl _ s⟩
  · next hon =>
    rw [Bool.not_eq_true', Bool.not_eq_false] at hon
    rw [State.tcAlloc_of_tc_nil h]
    simp only [State.slice_modSlice_self]
    exact ⟨by simp [hon], (State.modSlice_within _ n _).only.trans (State.modSlice_within _ n _).only⟩

theorem BareSet.tcKeep_tags (hb : BareSet s n set) : (s.tcKeep n set (rowOf s.part set)).tags n set = s.nearTags set := by
  obtain ⟨hslice, honly⟩ := State.tcKeep_of_tc_nil hb.noCache set (rowOf s.part set)
  split at hslice
  · rw [State.tags_of_cached (k := rowOf s.part set % 2048 * 12) (e := { row := rowOf s.part set, blk := s.nearTags set, ref := true }) ?_ rfl]
    rw [honly.part, hslice]
    exact Slice.tcFind_of_one rfl rfl
  · rw [State.tags_of_uncached, honly.nearTags rfl]
    intro k e hfind
    rw [hslice, Slice.tcFind_of_tc_nil hb.noCache] at hfind
    cases hfind

theorem KeepsRecords.tcKeep_of_tc_nil (h : (s.slice n).tc = []) (set q : Nat) : KeepsRecords n s (s.tcKeep n set q) := by
  obtain ⟨hslice, honly⟩ := State.tcKeep_of_tc_nil h set q
  refine ⟨honly.memRecs rfl, ?_, honly.nearFrozen rfl n, honly.mono rfl⟩
  rw [hslice]
  split <;> rfl

/-! ### The lookup -/

/-- Such a lookup reads the block and keeps it. -/
theorem BareSet.touchMiss (hb : BareSet s n set) :
    (s.touchMiss n set none).2 = ((s.event n 7 1).nearAccess n set 0 false).tcKeep n set (rowOf s.part set) := by
  have hread := (hb.of_only (s.event_within n 7 1).only rfl rfl rfl rfl rfl).nearAccess 0
  have hpart := ((s.event n 7 1).nearAccess_read_only n set 0).part
  have hpop : (s.event n 7 1).popTag = (.none, s.event n 7 1) := by simp [State.popTag, hb.noFinds]
  simp only [State.touchMiss, hpop, State.tagIssue, hread.tagRead, hpart, Option.bind_none, State.guessLost, beq_self_eq_true, if_true]
  rfl

theorem BareSet.touch (hb : BareSet s n set) :
    s.touch n set none = ((s.event n 7 1).nearAccess n set 0 false).tcKeep n set (rowOf s.part set) := by
  rw [← hb.touchMiss]
  simp only [State.touch, State.touchGuess, hb.works, Bool.false_eq_true, if_false, Slice.tcFind_of_tc_nil hb.noCache]

theorem BareSet.tagWaits (hb : BareSet s n set) : s.tagWaits n set = false := by
  simp [State.tagWaits, Slice.tcFind_of_tc_nil hb.noCache, Slice.tcVictim_of_tc_nil hb.noCache]

/-- It shows the block as near memory holds it, and leaves near memory as it is. -/
theorem BareSet.touchSet (hb : BareSet s n set) :
    ∃ t, s.touchSet n set = some t ∧ KeepsRecords n s t ∧ t.mem.tags = s.mem.tags ∧ t.tags n set = s.nearTags set := by
  have hpipe := (s.pipe_within n 7 set 0).only
  have hbp : BareSet (s.pipe n 7 set 0) n set := hb.of_only hpipe rfl rfl rfl rfl (hpipe.nearFrozen rfl n)
  have hevent := ((s.pipe n 7 set 0).event_within n 7 1).only
  have hbe := hbp.of_only hevent rfl rfl rfl rfl rfl
  have hread := ((s.pipe n 7 set 0).event n 7 1).nearAccess_read_only n set 0
  have hbr := hbe.nearAccess 0
  have hkeep := (State.tcKeep_of_tc_nil hbr.noCache set (rowOf (s.pipe n 7 set 0).part set)).2
  refine ⟨_, by rw [State.touchSet, hb.tagWaits, if_neg Bool.false_ne_true], ?_⟩
  rw [hbp.touch]
  refine ⟨?_, ?_, ?_⟩
  · exact ((KeepsRecords.of_only hpipe rfl rfl rfl rfl).trans (.of_only hevent rfl rfl rfl rfl)).trans
      ((KeepsRecords.nearAccess _ n set 0 false).trans (.tcKeep_of_tc_nil hbr.noCache _ _))
  · rw [hkeep.memTags rfl, hread.memTags rfl, hevent.memTags rfl, hpipe.memTags rfl]
  · have htags := hbr.tcKeep_tags
    rw [hread.part, hread.nearTags rfl, hevent.nearTags rfl, hpipe.nearTags rfl] at htags
    exact htags

end
end Sys2Proof.Machine
end

section
/-! SUPPORT. The retirement of a way (R110) whose entry is I, where nothing stands before the block of its set. -/

namespace Sys2Proof.Machine

section
variable {s t : State} {n set w : Nat}

/-! ### The set record -/

/-- A record is read, and written but for the counts of one that cannot be corrected (R38, R398). -/
theorem State.putRec_mem (hworks : s.nearFrozen n = false) (set : Nat) (r : SetRec) :
    (∃ ce, (s.putRec n set r).setRec set = { r with ce := ce }) ∧ (s.putRec n set r).mem.tags = s.mem.tags := by
  have hread := (s.nearAccess_within n set 15 false).only
  have hpop := (s.nearAccess n set 15 false).popRec_within.only
  simp only [State.putRec, hworks, Bool.false_eq_true, if_false]
  generalize (s.nearAccess n set 15 false).popRec.2 = t at hpop
  have htags : t.mem.tags = s.mem.tags := (hpop.memTags rfl).trans (hread.memTags rfl)
  have hwrite (u : State) (v : SetRec) :
      (State.nearAccess { u with mem := { u.mem with recs := Tab.put {} u.mem.recs set v } } n set 15 true).setRec set = v ∧
      (State.nearAccess { u with mem := { u.mem with recs := Tab.put {} u.mem.recs set v } } n set 15 true).mem.tags = u.mem.tags := by
    have honly := (State.nearAccess_within { u with mem := { u.mem with recs := Tab.put {} u.mem.recs set v } } n set 15 true).only
    exact ⟨by rw [State.setRec, honly.memRecs rfl, Tab.get_put_self], honly.memTags rfl⟩
  split
  · exact ⟨⟨_, (hwrite _ _).1⟩, (hwrite _ _).2.trans htags⟩
  · have hce := (((t.bucket_within (64 + nmcOf t.part n)).only.mono rfl).trans
      ((State.recErr_within _ 0x01 n (t.injNear n set 15) set 15).only.mono rfl)).memTags (m := { lookMask with near := false }) rfl
    exact ⟨⟨_, (hwrite _ _).1⟩, (hwrite _ _).2.trans (hce.trans htags)⟩
  · have hue := (t.ueData_within n (t.injNear n set 15) set 15).only.memTags rfl
    exact ⟨⟨_, (hwrite _ _).1⟩, (hwrite _ _).2.trans (hue.trans htags)⟩

/-! ### The entry of the way -/

theorem State.putEnt_tags (hworks : s.nearFrozen n = false) (h1 : 1 ≤ w) (hw : w ≤ (s.tags n set).ways.length) {e : TagEnt} (hst : e.st ≠ stL) :
    ((s.putEnt n set w e).tags n set).get w = e ∧ ((s.putEnt n set w e).tags n set).ways.length = (s.tags n set).ways.length := by
  have hset := TagBlk.get_set_self h1 hw e
  rcases State.putTags_tags (set := set) hworks ((s.tags n set).set w e) with h | h
  · rw [State.putEnt, h]
    exact ⟨hset, TagBlk.length_set _ _ _⟩
  · rw [State.putEnt, h]
    exact ⟨(State.dropStale_get (by rwa [hset])).trans hset, (State.length_dropStale _ _).trans (TagBlk.length_set _ _ _)⟩

theorem State.putEnt_nearTags (hworks : s.nearFrozen n = false) (h1 : 1 ≤ w) (hw : w ≤ (s.tags n set).ways.length) {e : TagEnt}
    (hst : e.st ≠ stL) (hnew : e.st ≠ ((s.tags n set).get w).st) : ((s.putEnt n set w e).nearTags set).get w = e := by
  have hset := TagBlk.get_set_self h1 hw e
  rw [State.putEnt, State.putTags_nearTags hworks (TagBlk.not_sameButAge_set h1 hw hnew), State.dropStale_get (by rwa [hset]), hset]

theorem State.not_valid_of_free {e : TagEnt} (hst : e.st = stI) : s.valid e = false := by simp [State.valid, hst]

theorem State.evictWay_of_free (hst : ((s.tags n set).get w).st = stI) :
    s.evictWay n set w = some (s.putEnt n set w { (s.tags n set).get w with st := stI, ep := 0, lock := false }) := by
  have hX : (stI == stX) = false := rfl
  simp only [State.evictWay, State.not_valid_of_free hst, hst, hX, Bool.not_false, if_true, Bool.false_eq_true, if_false]

/-! ### The retirement -/

/-- The way waits for its retirement no longer. -/
def State.wayDone (s : State) (n set w : Nat) : State := s.modSlice n fun x => { x with retireDue := x.retireDue.erase (set, w) }

/-- The entry of a free way becomes X. -/
def State.wayX (s : State) (n set w : Nat) : State :=
  (s.putEnt n set w { (s.tags n set).get w with st := stI, ep := 0, lock := false }).putEnt n set w { st := stX }

/-- The way's bit of the set record. -/
def SetRec.retired (r : SetRec) (w : Nat) : SetRec := { r with retire := r.retire ||| BitVec.ofNat 14 (2 ^ (w - 1)) }

/-- Way `w` of a set is due for retirement and may retire, and its entry is I in a block that no tag-cache entry stands before and in which
the codes find no error. -/
structure RetireReady (s : State) (n set w : Nat) : Prop where
  bare : BareSet s n set
  served : s.refusedHere n = false
  due : (s.slice n).retireDue.contains (set, w) = true
  stays : s.stayWay w = true
  le : w ≤ 14
  block : (s.nearTags set).ways.length = 14
  free : ((s.nearTags set).get w).st = stI

theorem RetireReady.pos (h : RetireReady s n set w) : 1 ≤ w := by
  have hstays := h.stays
  simp only [State.stayWay, State.cacheWay, Bool.and_eq_true, decide_eq_true_eq] at hstays
  exact hstays.1.1

/-- The way retires where another usable way remains, and else is only recorded. -/
theorem RetireReady.wayRetire (h : RetireReady s n set w) :
    ∃ t, KeepsRecords n s t ∧ t.mem.tags = s.mem.tags ∧ t.tags n set = s.nearTags set ∧
      s.wayRetire n set w =
        if s.otherFree (s.nearTags set) w then
          (((t.wayX n set w).wayDone n set w).putRec n set (((t.wayX n set w).setRec set).retired w)).rec_ 0x04 n 0xFFFF set (set * 16 + w)
        else (t.wayDone n set w).rec_ 0x05 n 0xFFFF set (set * 16 + w) := by
  obtain ⟨t, htouch, hkeeps, hmem, htags⟩ := h.bare.touchSet
  have hfree : ((t.tags n set).get w).st = stI := by rw [htags, h.free]
  have hX : (stI == stX) = false := rfl
  refine ⟨t, hkeeps, hmem, htags, ?_⟩
  simp only [State.wayRetire, h.due, h.served, htouch, hkeeps.only.stayWay rfl rfl, h.stays, hfree, hX, State.not_valid_of_free hfree,
    State.evictWay_of_free hfree, ← htags, hkeeps.only.otherFree rfl rfl, Bool.not_true, Bool.or_self, Bool.false_and, Bool.false_eq_true, if_false,
    Bool.not_eq_true']
  cases s.otherFree (t.tags n set) w with
  | true => rfl
  | false => rfl

theorem State.wayX_shows (hworks : s.nearFrozen n = false) (h1 : 1 ≤ w) (hw : w ≤ (s.tags n set).ways.length) :
    KeepsRecords n s (s.wayX n set w) ∧ (((s.wayX n set w).nearTags set).get w).st = stX := by
  have hclear := State.putEnt_tags (set := set) hworks h1 hw
    (e := { (s.tags n set).get w with st := stI, ep := 0, lock := false }) (by simp only; decide)
  have hkeeps : KeepsRecords n s (s.putEnt n set w { (s.tags n set).get w with st := stI, ep := 0, lock := false }) :=
    .putTags hworks set _
  have hworks' := hkeeps.works.trans hworks
  refine ⟨hkeeps.trans (.putTags hworks' set _), ?_⟩
  rw [State.wayX, State.putEnt_nearTags hworks' h1 (hclear.2.symm ▸ hw) (by simp only; decide) (by rw [hclear.1]; simp only; decide)]

theorem RetireReady.retires (h : RetireReady s n set w) (hother : s.otherFree (s.nearTags set) w = true) :
    ((s.wayRetire n set w).slice n).retireDue = (s.slice n).retireDue.erase (set, w) ∧
      (((s.wayRetire n set w).nearTags set).get w).st = stX ∧
      ((s.wayRetire n set w).setRec set).retire = (s.setRec set).retire ||| BitVec.ofNat 14 (2 ^ (w - 1)) := by
  obtain ⟨t, hlook, -, htags, hretire⟩ := h.wayRetire
  have hlen : w ≤ (t.tags n set).ways.length := by rw [htags, h.block]; exact h.le
  obtain ⟨hkeeps, hX⟩ := State.wayX_shows (hlook.works.trans h.bare.works) h.pos hlen
  replace hkeeps := hlook.trans hkeeps
  rw [if_pos hother] at hretire
  rw [hretire]
  generalize t.wayX n set w = u at hkeeps hX
  have hrec := ((((u.wayDone n set w).putRec n set ((u.setRec set).retired w)).rec__within 0x04 n 0xFFFF set (set * 16 + w))).only
  have hput := ((u.wayDone n set w).putRec_within n set ((u.setRec set).retired w)).only
  obtain ⟨⟨ce, hnew⟩, hmem⟩ := State.putRec_mem (s := u.wayDone n set w) (hkeeps.works.trans h.bare.works) set ((u.setRec set).retired w)
  refine ⟨?_, ?_, ?_⟩
  · rw [hrec.slice rfl, hput.slice rfl, State.wayDone, State.slice_modSlice_self, hkeeps.due]
  · rw [hrec.nearTags rfl, State.nearTags, hmem]
    exact hX
  · rw [hrec.setRec rfl, hnew, hkeeps.setRec]
    rfl

theorem RetireReady.remains (h : RetireReady s n set w) (hother : s.otherFree (s.nearTags set) w = false) :
    ((s.wayRetire n set w).slice n).retireDue = (s.slice n).retireDue.erase (set, w) ∧
      (s.wayRetire n set w).mem.tags = s.mem.tags ∧ (s.wayRetire n set w).mem.recs = s.mem.recs := by
  obtain ⟨t, hlook, hmem, -, hretire⟩ := h.wayRetire
  rw [hother, if_neg Bool.false_ne_true] at hretire
  have hrec := ((t.wayDone n set w).rec__within 0x05 n 0xFFFF set (set * 16 + w)).only
  rw [hretire, hrec.slice rfl, hrec.memTags rfl, hrec.memRecs rfl, State.wayDone, State.slice_modSlice_self, hlook.due]
  exact ⟨rfl, hmem, hlook.recs⟩

end

/-! ### WAY_RETIRE -/

section
variable {s : State} {n set w : Nat} {fd : Finds}

/-- The state in which a command's work runs: what the codes find is counted, and what they will find is at hand. -/
def State.atWork (s : State) (fd : Finds) : State := { s.noted fd with finds := fd }

theorem State.finding_eq (s : State) (fd : Finds) (go : State → State) : s.finding fd go = { go (s.atWork fd) with finds := s.finds } := rfl

theorem State.atWork_only (s : State) (fd : Finds) :
    Only { finds := true, due := true, trcCfg := true, irq := true, pba := true, ledger := true, bkt := true, events := true, trc := true,
           outs := true } s (s.atWork fd) :=
  ((s.noted_within fd).only.mono rfl).trans rfl

theorem exec_wayRetire (hon : s.sliceOn n = true) :
    exec (.wayRetire n set w fd) s = .next (s.finding fd fun s => s.wayRetire n set w) := by
  simp only [exec, execWayRetire, hon, if_true]

theorem exec_wayRetire_of_not_due (hon : s.sliceOn n = true) (hdue : (s.slice n).retireDue.contains (set, w) = false) :
    exec (.wayRetire n set w fd) s = .next (s.noted fd) := by
  have hidle : (s.atWork fd).wayRetire n set w = s.atWork fd := by
    simp only [State.wayRetire, (s.atWork_only fd).slice rfl n, hdue, Bool.not_false, Bool.true_or, if_true]
  rw [exec_wayRetire hon, ← s.finding_idle fd, State.finding_eq, State.finding_eq, hidle]

theorem RetireReady.atWork (h : RetireReady { s with finds := fd } n set w) : RetireReady (s.atWork fd) n set w := by
  have honly : Only _ { s with finds := fd } (s.atWork fd) := s.atWork_only fd
  have hworks := honly.nearFrozen rfl n
  refine ⟨⟨hworks.trans h.bare.works, ?_, h.bare.noFinds, ?_, ?_⟩, ?_, ?_, ?_, h.le, ?_, ?_⟩
  · rw [honly.slice rfl, h.bare.noCache]
  · rw [honly.latent rfl, h.bare.noFlip]
  · rw [honly.part, honly.nearTags rfl, h.bare.sound]
  · rw [State.refusedHere, hworks, honly.mode rfl, ← State.refusedHere, h.served]
  · rw [honly.slice rfl, h.due]
  · rw [honly.stayWay rfl rfl, h.stays]
  · rw [honly.nearTags rfl, h.block]
  · rw [honly.nearTags rfl, h.free]

theorem RetireReady.next (h : RetireReady { s with finds := fd } n set w) (hon : s.sliceOn n = true) :
    ∃ t, exec (.wayRetire n set w fd) s = .next t ∧ (t.slice n).retireDue = (s.slice n).retireDue.erase (set, w) ∧
      (s.otherFree (s.nearTags set) w = true →
        ((t.nearTags set).get w).st = stX ∧ (t.setRec set).retire = (s.setRec set).retire ||| BitVec.ofNat 14 (2 ^ (w - 1))) ∧
      (s.otherFree (s.nearTags set) w = false → t.mem.tags = s.mem.tags ∧ t.mem.recs = s.mem.recs) := by
  have honly := s.atWork_only fd
  have hother : (s.atWork fd).otherFree ((s.atWork fd).nearTags set) w = s.otherFree (s.nearTags set) w := by
    rw [honly.nearTags rfl, honly.otherFree rfl rfl]
  have hretires := h.atWork.retires
  have hremains := h.atWork.remains
  rw [hother, honly.slice rfl, honly.setRec rfl] at hretires
  rw [hother, honly.slice rfl, honly.memTags rfl, honly.memRecs rfl] at hremains
  refine ⟨_, exec_wayRetire hon, ?_, fun hmore => (hretires hmore).2, fun hlast => (hremains hlast).2⟩
  cases hmore : s.otherFree (s.nearTags set) w with
  | true => exact (hretires hmore).1
  | false => exact (hremains hmore).1

end

/-- Settles O17: the register commands each change one slice; the walk's fold over the entries of its set leaves each as `TcEnt.visited`; a
free way's entry is written X through the tag cache (`State.putTags_cases`), and its record after it. -/
theorem sliceMaintenanceRegisters : Obligations.SliceMaintenanceRegisters := by
  refine ⟨fun s n hon hidle => ⟨⟨_, exec_flush_of_idle hon hidle, s.tcAction_false_onlySlice n⟩,
      ⟨_, exec_invalidate_of_idle hon hidle, s.tcAction_true_onlySlice n⟩⟩,
    fun _ => rfl,
    fun s n hbusy => ⟨exec_flush_of_busy hbusy, exec_invalidate_of_busy hbusy⟩,
    fun s n hbusy hpos hroom => State.tcStep_visits hbusy hpos hroom,
    fun s n k e hbusy hpos hk htc hpend hdirty hworks => State.tcStep_of_one hbusy hpos hk htc hpend hdirty hworks,
    fun s n hon hdev => tagCacheDisable_starts hon hdev,
    fun s n hdev => exec_tagCacheDisable_of_service hdev,
    fun s n hon => ⟨fun hbusy hpos hout => ⟨_, exec_tagCacheActionDone_of_ended hon hbusy hpos ?_, s.modSlice_onlySlice n _⟩,
      ⟨_, exec_wayPredictorClear hon, s.modSlice_onlySlice n _⟩, ⟨_, exec_streamTableClear hon, s.modSlice_onlySlice n _⟩,
      ⟨_, exec_mrHwmReset hon, s.modSlice_onlySlice n _⟩, ⟨_, exec_vbHwmReset hon, s.modSlice_onlySlice n _⟩⟩,
    fun s n h => exec_tagCacheActionDone_of_not_ended h,
    fun s n set w fd hon hserved hdue hstays hle hcache hblock hfree hfinds hflip hsound => ?_,
    fun s n set w fd hon hdue => exec_wayRetire_of_not_due hon hdue⟩
  · rintro ⟨u, hu, a, ha, hmem⟩
    exact hout u hu a ha hmem
  · have hworks : s.nearFrozen n = false := (Bool.or_eq_false_iff.mp hserved).2
    exact RetireReady.next ⟨⟨hworks, hcache, hfinds, hflip, hsound⟩, hserved, hdue, hstays, hle, hblock, hfree⟩ hon

end Sys2Proof.Machine
end

section
/-! SUPPORT. A tag-block read that is not outstanding: what waits for tags tries again all the same. -/

namespace Sys2Proof.Machine

theorem State.tagsArrive_of_not_outstanding {s : State} {n q : Nat} (h : (s.slice n).tbReads.contains q = false) (te : ArrErr) :
    s.tagsArrive n q te = s := by
  simp only [State.tagsArrive, h, Bool.not_false, if_true]

theorem exec_tagBlockReadDone_of_not_outstanding {s : State} {n q : Nat} (hon : s.sliceOn n = true)
    (h : (s.slice n).tbReads.contains q = false) (te : ArrErr) (fd : Finds) :
    exec (.tagBlockReadDone n q te fd) s = .next (s.finding fd fun s => s.tagsResume n) := by
  have harrive : (s.atWork fd).tagsArrive n q te = s.atWork fd :=
    State.tagsArrive_of_not_outstanding (by rw [(s.atWork_only fd).slice rfl, h]) te
  simp only [exec, execTagBlockReadDone, hon, if_true, State.finding_eq, harrive]

/-- Line 260 of row 4 of slice 0, whose home is node 1. -/
def row4Line : Nat := 1 * 2 ^ 36 + 8 * 2 ^ 24 + 260

/-- Slice 0 reads the tag block of row 4, and an INV of a line of that row waits for it. -/
def row4Awaited : State :=
  { State.reset with
    slices := [(0, { tbReads := [4], tc := [(48, some { row := 4, pending := true })],
                     waitSnoops := [{ la := row4Line, src := 1, msg := { opc := opINV, la := row4Line }, tag := true }] })] }

/-- A read of row 5 is not outstanding there, yet it replays the INV, which counts event 0x14 of slice 0. -/
theorem row4Awaited_replays : Tab.get 0 (row4Awaited.finding {} fun s => s.tagsResume 0).events 0x14 = 1 := by decide +kernel

theorem row4Awaited_noted_events : Tab.get 0 (row4Awaited.noted {}).events 0x14 = 0 := by decide +kernel

/-- Refutes O16: a TAG_BLOCK_READ_DONE of a read that is not outstanding does change something where a snoop (or a home request) waits for
tags: `tagsResume` runs all the same, so that in `row4Awaited` the snoop that waits for row 4 is replayed, and counted, at one of row 5. The
statement's second conjunct, unlike its first, does not suppose that nothing waits. -/
theorem not_tagBlocksAndFills : ¬ Obligations.TagBlocksAndFills := by
  rintro ⟨-, hidle, -⟩
  have hon : row4Awaited.sliceOn 0 = true := by decide +kernel
  have hnone : (row4Awaited.slice 0).tbReads.contains 5 = false := by decide +kernel
  have hsame := hidle row4Awaited 0 5 .none {} hon hnone
  rw [exec_tagBlockReadDone_of_not_outstanding hon hnone] at hsame
  have hevents := congrArg (fun t : State => Tab.get 0 t.events 0x14) (Host.Outcome.next.inj hsame)
  simp only [row4Awaited_replays, row4Awaited_noted_events] at hevents
  cases hevents

end Sys2Proof.Machine
end

section
/-! SUPPORT. How a request enters the tag pipeline (R61, R93), and how the rest of its pass reads for each way that it can end
(R53, R62, R67, R75, R77, R108). -/

namespace Sys2Proof.Machine

section
variable {m : Mask} {s t : State}

theorem Only.refusedHere (h : Only m s t) (hmode : m.mode = false) (hchans : m.chans = false) (n : Nat) : t.refusedHere n = s.refusedHere n := by
  rw [State.refusedHere, State.refusedHere, h.mode hmode, h.nearFrozen hchans]

theorem Only.tccEn (h : Only m s t) (hcsr : m.csr = false) (n : Nat) : t.tccEn n = s.tccEn n := by
  rw [State.tccEn, State.tccEn, h.csrGet hcsr (by simp only [offSlc, offTrc]; omega)]

/-- A change that a command makes while the codes' outcomes stand in `finds`, which are gone after it. -/
theorem Only.resetFinds (h : Only { m with finds := true } s t) (hm : m.finds = false) : Only m s { t with finds := s.finds } := by
  have hview : ∀ u : State, view m { u with finds := s.finds } = { view { m with finds := true } u with finds := some s.finds } := by
    intro u; simp only [view, hm, hide]
  calc view m { t with finds := s.finds } = view m { s with finds := s.finds } := by rw [hview, hview, show view _ t = view _ s from h]
    _ = view m s := rfl

end

/-! ### The slice input -/

/-- The request at place `idx` of a slice's input is `r`, of no flat slot, and none before it there is of its line (R61). -/
structure FirstOfLine (x : Slice) (idx : Nat) (r : Req) : Prop where
  here : x.inq[idx]? = some r
  first : ∀ q ∈ x.inq.take idx, q.la = r.la → q.flat ≠ r.flat
  cached : r.flat = false

theorem FirstOfLine.not_flat {x : Slice} {idx : Nat} {r : Req} (h : FirstOfLine x idx r) : ¬ r.flat = true := by
  simp [h.cached]

theorem FirstOfLine.not_behind {x : Slice} {idx : Nat} {r : Req} (h : FirstOfLine x idx r) :
    ((x.inq.take idx).any fun q => q.la == r.la && q.flat == r.flat) = false := by
  rw [List.any_eq_false]
  intro q hq
  simp only [Bool.and_eq_true, beq_iff_eq, not_and]
  exact h.first q hq

/-- Taking the request out as it stands there leaves the others in order. -/
theorem FirstOfLine.erase {x : Slice} {idx : Nat} {r : Req} (h : FirstOfLine x idx r) (e : Option (Word × Word)) :
    (x.inq.set idx { r with ent := e }).erase { r with ent := e } = x.inq.eraseIdx idx := by
  have hidx : idx < x.inq.length := (List.getElem?_eq_some_iff.mp h.here).1
  have hnot : { r with ent := e } ∉ x.inq.take idx := fun hmem => h.first _ hmem rfl rfl
  rw [List.set_eq_take_append_cons_drop, if_pos hidx, List.erase_append_right _ hnot, List.erase_cons_head, List.eraseIdx_eq_take_drop_succ]

theorem State.dequeue_slice (s : State) (n : Nat) (r : Req) :
    (s.dequeue n r).slice n = { s.slice n with inq := (s.slice n).inq.erase r } := by
  rw [State.dequeue, (State.rosterGone_within _ _).only.slice rfl, State.slice_modSlice_self]

/-! ### Entering -/

/-- The request's lookup is counted and traced. -/
def State.piped (s : State) (n : Nat) (r : Req) : State := s.pipe n r.row r.la (if r.stream then 1 else 0)

theorem State.pipe_eq (s : State) (n : Nat) (r : Req) : s.pipe n r.row r.la (if r.stream then 1 else 0) = s.piped n r := rfl

/-- What the prefetch and allocation registers held when the request entered, which is now where it has not been there before (R93). -/
def State.taken (s : State) (n : Nat) (r : Req) : Option (Word × Word) :=
  if r.ent.isSome then r.ent else some ((s.piped n r).pfc n, (s.piped n r).csrGet (offSlc n 0x108))

/-- The state in which the request's pass is decided. -/
def State.inPass (s : State) (n idx : Nat) (r : Req) : State :=
  (s.piped n r).modSlice n fun x => { x with inq := x.inq.set idx { r with ent := s.taken n r } }

theorem State.piped_eq (s : State) (n idx : Nat) (r : Req) :
    ((s.piped n r).modSlice n fun x => { x with inq := x.inq.set idx { r with ent := s.taken n r } }) = s.inPass n idx r := rfl

theorem State.inPass_slice (s : State) (n idx : Nat) (r : Req) :
    (s.inPass n idx r).slice n = { s.slice n with inq := (s.slice n).inq.set idx { r with ent := s.taken n r } } := by
  rw [State.inPass, State.slice_modSlice_self, State.piped, (s.pipe_within _ _ _ _).only.slice rfl]

theorem State.inPass_only (s : State) (n idx : Nat) (r : Req) :
    Only { slices := true, trcCfg := true, events := true, trc := true } s (s.inPass n idx r) :=
  ((s.pipe_within _ _ _ _).only.mono rfl).trans ((State.modSlice_within _ _ _).only.mono rfl)

/-! ### The ends of a pass -/

section
variable {s : State} {n idx : Nat} {r : Req} {ue : Bool}

theorem State.lookup_of_behind (hr : (s.slice n).inq[idx]? = some r) {q : Req} (hq : q ∈ (s.slice n).inq.take idx) (hla : q.la = r.la)
    (hflat : q.flat = r.flat) : s.lookup n idx ue = s := by
  have hbehind : (((s.slice n).inq.take idx).any fun q => q.la == r.la && q.flat == r.flat) = true :=
    List.any_eq_true.mpr ⟨q, hq, by rw [hla, hflat, beq_self_eq_true, beq_self_eq_true]; rfl⟩
  simp only [State.lookup, hr, hbehind, if_true]

/-- The request goes on with what it has taken. -/
theorem State.taken_eq (s : State) (n : Nat) (r : Req) :
    (if r.ent.isSome then r else { r with ent := some ((s.piped n r).pfc n, (s.piped n r).csrGet (offSlc n 0x108)) }) =
      { r with ent := s.taken n r } := by
  unfold State.taken
  split <;> rfl

variable (h : FirstOfLine (s.slice n) idx r)
include h

/-- HOLD refuses the request, on which streams still train (R108, Table 3.8). -/
theorem State.lookup_of_hold (hmode : s.mode = 2) :
    s.lookup n idx ue =
      (((s.inPass n idx r).train n { r with ent := s.taken n r }).reqFail { r with ent := s.taken n r } .stop).dequeue n
        { r with ent := s.taken n r } := by
  have hhold : ((s.inPass n idx r).mode == 2) = true := by rw [(s.inPass_only n idx r).mode rfl, hmode]; rfl
  have hrefused : (s.inPass n idx r).refusedHere n = true := by rw [State.refusedHere, hhold, Bool.true_or]
  simp only [State.lookup, h.here, h.not_behind, Bool.false_eq_true, if_false]
  rw [if_neg h.not_flat]
  simp only [State.pipe_eq, State.taken_eq, State.piped_eq, hrefused, hhold, if_true]

/-- A request that meets its line's register joins it, or finds it full. -/
theorem State.lookup_of_mr {m : Mr} (hserved : s.refusedHere n = false) (hm : (s.slice n).mrs.find? (fun x => x.la == r.la) = some m)
    (hkind : r.kind ≠ .prefetch) :
    s.lookup n idx ue = if 8 ≤ m.secs.length || m.full then
        ((s.inPass n idx r).modMr n m.idx fun m => { m with full := true }).event n 0x14 1
      else (s.inPass n idx r).joinMr n m { r with ent := s.taken n r } := by
  have hdemand : (r.kind == .prefetch) = false := by simp [hkind]
  replace hserved := ((s.inPass_only n idx r).refusedHere rfl rfl n).trans hserved
  simp only [State.lookup, h.here, h.not_behind, Bool.false_eq_true, if_false]
  rw [if_neg h.not_flat]
  simp only [State.pipe_eq, State.taken_eq, State.piped_eq, hserved, Bool.false_eq_true, if_false, hm, hdemand]

/-- No register and no victim-buffer entry of the slice is of the request's line, no read of its tag block is on its way, and the cache is
to serve it. -/
structure Unheld (s : State) (n : Nat) (r : Req) : Prop where
  served : s.refusedHere n = false
  enabled : s.mode = 0
  noMr : ∀ m ∈ (s.slice n).mrs, m.la ≠ r.la
  noVb : ∀ v ∈ (s.slice n).vbs, v.la ≠ r.la
  noTb : r.tb = none

/-- Such a request asks the tag cache: one that is off has the block read; one that does not hold the row gives it an entry, and has the
block read; one that holds the row has the request judged. -/
theorem Unheld.lookup (hu : Unheld s n r) :
    (s.tccEn n = false → s.lookup n idx ue = ((s.inPass n idx r).event n 7 1).tagMiss n idx { r with ent := s.taken n r }) ∧
    (∀ t, s.tccEn n = true → (s.slice n).tcFind (rowOf s.part (setOf s.part r.la)) = none →
      (s.inPass n idx r).tcAlloc n (rowOf s.part (setOf s.part r.la)) = some t →
      s.lookup n idx ue = (t.event n 7 1).tagMiss n idx { r with ent := s.taken n r }) ∧
    (∀ k c, s.tccEn n = true → (s.slice n).tcFind (rowOf s.part (setOf s.part r.la)) = some (k, c) → c.pending = false → ue = false →
      s.lookup n idx ue = (((s.inPass n idx r).modSlice n fun x => x.tcUse k).event n 6 1).judge n { r with ent := s.taken n r } 0) := by
  have honly := s.inPass_only n idx r
  have hserved := (honly.refusedHere rfl rfl n).trans hu.served
  have hmode : ((s.inPass n idx r).mode == 1) = false := by rw [honly.mode rfl, hu.enabled]; rfl
  have hmr : (s.slice n).mrs.find? (fun m => m.la == r.la) = none := by simpa using hu.noMr
  have hvb : (s.slice n).vbs.find? (fun v => v.la == r.la) = none := by simpa using hu.noVb
  simp only [State.lookup, h.here, h.not_behind, Bool.false_eq_true, if_false]
  rw [if_neg h.not_flat]
  simp only [State.pipe_eq, State.taken_eq, State.piped_eq]
  simp only [hserved, hmr, hvb, hmode, hu.noTb, Option.isSome_none, honly.part, honly.tccEn rfl, Bool.false_eq_true, if_false]
  refine ⟨fun hoff => ?_, fun t hon hfind halloc => ?_, fun k c hon hfind hpend hue => ?_⟩
  · simp only [hoff, Bool.not_false, if_true]
  · simp only [hon, hfind, halloc, Bool.not_true, Bool.false_eq_true, if_false]
  · simp only [hon, hfind, hpend, hue, Bool.not_true, Bool.false_eq_true, if_false]

end
end Sys2Proof.Machine
end

section
/-! SUPPORT. What the ends of a pass leave: a request that joins its line's register or finds it full (R75, R77), one that HOLD answers
(R108), and one whose tag block is read (R48, R53, R55). -/

namespace Sys2Proof.Machine

theorem Only.memNear {m : Mask} {s t : State} (h : Only m s t) (hm : m.near = false) : t.mem.near = s.mem.near := congrArg (·.1) (h.near hm)

/-! ### At the line's register -/

/-- The register once request `r` has joined it. -/
def Mr.joined (m : Mr) (r : Req) : Mr :=
  { m with secs := m.secs ++ [r], isPf := false, prim := if m.isPf then { m.prim with kind := .read, stream := r.stream } else m.prim }

theorem State.joinMr_slice (s : State) (n : Nat) (m : Mr) (r : Req) :
    (s.joinMr n m r).slice n =
      { s.slice n with mrs := (s.slice n).mrs.map fun x => if x.idx == m.idx then x.joined { r with dl := some (s.clk, s.paused) } else x,
                       inq := (s.slice n).inq.erase r } := by
  rw [State.joinMr, State.dequeue_slice, (State.joinTime_within _ _ _ _).only.slice rfl, (State.classify_within _ _ _).only.slice rfl,
    (State.event_within _ _ _ _).only.slice rfl, State.modMr, State.slice_modSlice_self]
  rfl

theorem State.markFull_slice (s : State) (n i : Nat) :
    ((s.modMr n i fun m => { m with full := true }).event n 0x14 1).slice n =
      { s.slice n with mrs := (s.slice n).mrs.map fun x => if x.idx == i then { x with full := true } else x } := by
  rw [(State.event_within _ _ _ _).only.slice rfl, State.modMr, State.slice_modSlice_self]

theorem State.markFull_only (s : State) (n i : Nat) :
    Only { slices := true, events := true } s ((s.modMr n i fun m => { m with full := true }).event n 0x14 1) :=
  ((State.modSlice_within _ _ _).only.mono rfl).trans ((State.event_within _ _ _ _).only.mono rfl)

/-! ### In HOLD -/

/-- Where no prefetch may be issued, the prefetches of a trigger only count as dropped (R90, Table 3.8). -/
theorem State.prefetchRun_of_refused {s : State} {n : Nat} (h : s.refusedHere n = true) (p : Nat) (dir : Int) (ent : Word × Word) (dev : Bool)
    (k : Nat) : Only { events := true } s (s.prefetchRun n p dir ent dev k) := by
  have hoff : s.prefetchOn n ent.1 = false := by simp [State.prefetchOn, h]
  induction k generalizing s with
  | zero => exact Only.refl _ s
  | succ k ih =>
    simp only [State.prefetchRun, hoff, Bool.not_false, if_true]
    split
    · exact Only.refl _ s
    · exact (s.event_within n 0x0F 1).only.trans (ih h hoff)

/-- Training there changes the stream table alone. -/
theorem State.train_of_refused {s : State} {n : Nat} (h : s.refusedHere n = true) (r : Req) :
    (∃ xs, (s.train n r).slice n = { s.slice n with streams := xs }) ∧ Only { slices := true, events := true } s (s.train n r) := by
  have hput (i : Nat) (e : Stream) (used : Nat) :
      (∃ xs, (s.modSlice n fun x => { x with streams := x.streams.set i (some { e with used := used }) }).slice n =
        { s.slice n with streams := xs }) ∧
      Only { slices := true, events := true } s (s.modSlice n fun x => { x with streams := x.streams.set i (some { e with used := used }) }) :=
    ⟨⟨_, s.slice_modSlice_self n _⟩, (s.modSlice_within n _).only.mono rfl⟩
  unfold State.train
  split
  · exact ⟨⟨_, rfl⟩, Only.refl _ s⟩
  · extract_lets p xs device pfc put
    split
    · exact hput _ _ _
    · split
      · exact ⟨⟨_, rfl⟩, Only.refl _ s⟩
      · split
        · exact hput _ _ _
        · extract_lets d c t
          obtain ⟨⟨ys, htable⟩, ht⟩ :
              (∃ ys, t.slice n = { s.slice n with streams := ys }) ∧ Only { slices := true, events := true } s t := hput _ _ _
          have hrun := State.prefetchRun_of_refused ((ht.refusedHere rfl rfl n).trans h)
          split
          · exact ⟨⟨ys, htable⟩, ht⟩
          · exact ⟨⟨ys, by rw [(hrun _ _ _ _ _).slice rfl, htable]⟩, ht.trans ((hrun _ _ _ _ _).mono rfl)⟩

/-- A request that HOLD refuses trains, is answered, and leaves the input; no register is opened and near memory stays as it is (R108). -/
theorem State.refuse_of_hold {s : State} {n : Nat} (h : s.refusedHere n = true) (r : Req) :
    ((((s.train n r).reqFail r .stop).dequeue n r).slice n).inq = (s.slice n).inq.erase r ∧
    ((((s.train n r).reqFail r .stop).dequeue n r).slice n).mrs = (s.slice n).mrs ∧
    (((s.train n r).reqFail r .stop).dequeue n r).mem.near = s.mem.near ∧
    (((s.train n r).reqFail r .stop).dequeue n r).mem.tags = s.mem.tags := by
  obtain ⟨⟨xs, htable⟩, htrain⟩ := State.train_of_refused h r
  have hfail := ((s.train n r).reqFail_within r .stop).only
  have hleave := (((s.train n r).reqFail r .stop).dequeue_within n r).only
  rw [State.dequeue_slice, hfail.slice rfl, htable, hleave.memNear rfl, hfail.memNear rfl, htrain.memNear rfl, hleave.memTags rfl, hfail.memTags rfl,
    htrain.memTags rfl]
  exact ⟨rfl, rfl, rfl, rfl⟩

/-! ### The use of a tag-cache entry -/

/-- `y` is `x` but for the reference bits of its tag-cache entries. -/
structure Slice.SameButRefs (x y : Slice) : Prop where
  rest : y = { x with tc := y.tc }
  refs : ∀ j, ∃ b, Tab.get none y.tc j = (Tab.get none x.tc j).map fun e => { e with ref := b }

theorem Slice.SameButRefs.refl (x : Slice) : x.SameButRefs x := by
  refine ⟨rfl, fun j => ?_⟩
  cases Tab.get none x.tc j with
  | none => exact ⟨false, rfl⟩
  | some e => exact ⟨e.ref, rfl⟩

/-- A reference bit that is written. -/
theorem Slice.SameButRefs.put {x y : Slice} (h : x.SameButRefs y) {k : Nat} {e : TcEnt} (he : Tab.get none y.tc k = some e) (b : Bool) :
    x.SameButRefs { y with tc := Tab.put none y.tc k (some { e with ref := b }) } := by
  refine ⟨by rw [h.rest], fun j => ?_⟩
  simp only [Tab.get_put]
  obtain ⟨c, hc⟩ := h.refs j
  split
  · next hj =>
    subst hj
    rw [he] at hc
    obtain ⟨f, hf, rfl⟩ := Option.map_eq_some_iff.mp hc.symm
    exact ⟨b, by rw [hf]; rfl⟩
  · exact ⟨c, hc⟩

theorem Slice.tcUse_sameButRefs (x : Slice) (key : Nat) : x.SameButRefs (x.tcUse key) := by
  unfold Slice.tcUse
  extract_lets base refd all
  refine List.foldlRecOn _ _ (.refl x) fun y hy i _ => ?_
  split
  · next e he => exact hy.put he _
  · exact hy

/-- The row is found where it was, with its block. -/
theorem Slice.SameButRefs.tcFind {x y : Slice} (h : x.SameButRefs y) {q k : Nat} {e : TcEnt} (hfind : x.tcFind q = some (k, e)) :
    ∃ b, y.tcFind q = some (k, { e with ref := b }) := by
  rw [Slice.tcFind_eq, List.findSome?_eq_some_iff] at hfind
  obtain ⟨l₁, i, l₂, hrange, hi, hbefore⟩ := hfind
  obtain ⟨hk, he, hrow⟩ := Slice.tcAt_eq_some_iff.mp hi
  obtain ⟨b, hb⟩ := h.refs k
  refine ⟨b, ?_⟩
  rw [Slice.tcFind_eq, List.findSome?_eq_some_iff]
  refine ⟨l₁, i, l₂, hrange, Slice.tcAt_eq_some_iff.mpr ⟨hk, by rw [hb, he]; rfl, hrow⟩, fun j hj => ?_⟩
  rw [← Option.not_isSome_iff_eq_none, Option.isSome_iff_exists]
  rintro ⟨⟨k', f⟩, hf⟩
  obtain ⟨hk', hget, hrow'⟩ := Slice.tcAt_eq_some_iff.mp hf
  obtain ⟨c, hc⟩ := h.refs k'
  obtain ⟨f', hf', rfl⟩ := Option.map_eq_some_iff.mp (hc.symm.trans hget)
  have hwas := hbefore j hj
  rw [Slice.tcAt_eq_some_iff.mpr ⟨hk', hf', hrow'⟩] at hwas
  cases hwas

/-! ### The tag block is read -/

theorem State.putNearTags_memNear (s : State) (n set : Nat) (b : TagBlk) : (s.putNearTags n set b).mem.near = s.mem.near := by
  unfold State.putNearTags
  split
  · rfl
  · exact (State.nearAccess_within _ n set 0 true).only.memNear rfl

theorem State.tcWriteBack_memNear (s : State) (n : Nat) (e : TcEnt) : (s.tcWriteBack n e).mem.near = s.mem.near := by
  unfold State.tcWriteBack
  split
  · exact s.putNearTags_memNear n _ _
  · rfl

theorem State.tcAlloc_isSome (s : State) (n q : Nat) : (s.tcAlloc n q).isSome = ((s.slice n).tcVictim q).isSome := by
  simp only [State.tcAlloc, Option.isSome_map]

/-- An entry for a row changes the slice's tag cache alone, and no data way. -/
theorem State.tcAlloc_keeps {s t : State} {n q : Nat} (h : s.tcAlloc n q = some t) :
    (∃ tc, t.slice n = { s.slice n with tc := tc }) ∧ t.mem.near = s.mem.near := by
  have huse {u : State} (hu : u.slice n = s.slice n) (k : Nat) (e : TcEnt) :
      ∃ tc, Slice.tcUse { u.slice n with tc := Tab.put none (u.slice n).tc k (some e) } k = { s.slice n with tc := tc } :=
    ⟨_, (Slice.tcUse_sameButRefs _ k).rest.trans (by rw [hu])⟩
  unfold State.tcAlloc at h
  obtain ⟨k, -, ht⟩ := Option.map_eq_some_iff.mp h
  rw [← ht, State.slice_modSlice_self]
  split
  · next e _ => exact ⟨huse (s.tcWriteBack_slice n e n) k _, s.tcWriteBack_memNear n e⟩
  · exact ⟨huse rfl k _, rfl⟩

theorem State.tagMiss_slice (s : State) (n idx : Nat) (r : Req) :
    ∃ w, (s.tagMiss n idx r).slice n =
      { s.slice n with tbReads := (s.slice n).tbReads ++ [rowOf s.part (setOf s.part r.la)],
                       inq := (s.slice n).inq.set idx { r with tb := some w } } := by
  have honly := (s.tagIssue_within n (setOf s.part r.la) (some r.la)).only
  refine ⟨(s.tagIssue n (setOf s.part r.la) (some r.la)).2, ?_⟩
  simp only [State.tagMiss, State.slice_modSlice_self, honly.slice rfl, honly.part]

end Sys2Proof.Machine
end

section
/-! SUPPORT. A read of a way (R39, R55, R65): what it and the corrections it makes leave alone. -/

namespace Sys2Proof.Machine

/-- Going from `s` to `t` within a lookup's pieces leaves the data ways, the tag blocks, and slice `n`'s input and tag cache. -/
structure KeepsWays (n : Nat) (s t : State) : Prop where
  near : t.mem.near = s.mem.near
  poison : t.mem.nearPoison = s.mem.nearPoison
  tags : t.mem.tags = s.mem.tags
  inq : (t.slice n).inq = (s.slice n).inq
  tc : (t.slice n).tc = (s.slice n).tc
  only : Only lookMask s t

section
variable {n : Nat} {s t u : State}

theorem KeepsWays.refl (n : Nat) (s : State) : KeepsWays n s s := ⟨rfl, rfl, rfl, rfl, rfl, rfl⟩

theorem KeepsWays.trans (h : KeepsWays n s t) (k : KeepsWays n t u) : KeepsWays n s u :=
  ⟨k.near.trans h.near, k.poison.trans h.poison, k.tags.trans h.tags, k.inq.trans h.inq, k.tc.trans h.tc, h.only.trans k.only⟩

theorem KeepsWays.of_only {m : Mask} (h : Only m s t) (hm : m.le lookMask = true) (hslices : m.slices = false) (hnear : m.near = false) :
    KeepsWays n s t :=
  ⟨h.memNear hnear, congrArg (·.2.1) (h.near hnear), h.memTags hnear, by rw [h.slice hslices], by rw [h.slice hslices], h.mono hm⟩

theorem KeepsWays.ite {c : Prop} [Decidable c] (h : KeepsWays n s t) (k : KeepsWays n s u) : KeepsWays n s (if c then t else u) := by
  split <;> assumption

theorem KeepsWays.bucket (s : State) (n u : Nat) : KeepsWays n s (s.bucket u) := .of_only (s.bucket_within u).only rfl rfl rfl

theorem KeepsWays.nearAccess (s : State) (n set k : Nat) (wr : Bool) : KeepsWays n s (s.nearAccess n set k wr) :=
  .of_only (s.nearAccess_within n set k wr).only rfl rfl rfl

theorem KeepsWays.modSlice (s : State) (n : Nat) {f : Slice → Slice} (hinq : (f (s.slice n)).inq = (s.slice n).inq)
    (htc : (f (s.slice n)).tc = (s.slice n).tc) : KeepsWays n s (s.modSlice n f) :=
  ⟨rfl, rfl, rfl, by rw [State.slice_modSlice_self, hinq], by rw [State.slice_modSlice_self, htc], (s.modSlice_within n f).only.mono rfl⟩

theorem KeepsWays.takeFree (s : State) (n k : Nat) : KeepsWays n s { s with free := k } := ⟨rfl, rfl, rfl, rfl, rfl, rfl⟩

/-- Writing a set record touches its slot alone (R38). -/
theorem KeepsWays.putRec (s : State) (n set : Nat) (r : SetRec) : KeepsWays n s (s.putRec n set r) := by
  have hwrite (t : State) (v : SetRec) :
      KeepsWays n t (State.nearAccess { t with mem := { t.mem with recs := Tab.put {} t.mem.recs set v } } n set 15 true) :=
    .trans (t := { t with mem := { t.mem with recs := Tab.put {} t.mem.recs set v } }) ⟨rfl, rfl, rfl, rfl, rfl, rfl⟩
      (.nearAccess _ n set 15 true)
  have hread : KeepsWays n s (s.nearAccess n set 15 false).popRec.2 :=
    .trans (.nearAccess s n set 15 false) (.of_only (State.popRec_within _).only rfl rfl rfl)
  unfold State.putRec
  split
  · exact .refl n s
  · simp only
    generalize (s.nearAccess n set 15 false).popRec.2 = t at hread
    refine hread.trans ?_
    split
    · exact hwrite t _
    · exact .trans (.trans (.bucket t n _) (.of_only (State.recErr_within _ _ _ _ _ _).only rfl rfl rfl)) (hwrite _ _)
    · exact ((KeepsWays.of_only (t.ueData_within n (t.injNear n set 15) set 15).only rfl rfl rfl).trans (.takeFree _ n _)).trans (hwrite _ _)

/-- A correctable error in a way is counted, and may make the way due for retirement (R39, R110). -/
theorem KeepsWays.ceWay (s : State) (n set w : Nat) : KeepsWays n s (s.ceWay n set w) := by
  have hcount (r : SetRec) : KeepsWays n s ((s.putRec n set r).bucket (64 + nmcOf (s.putRec n set r).part n)) :=
    .trans (.putRec s n set r) (.bucket _ n _)
  unfold State.ceWay
  extract_lets r c c' t u thr
  have hu : KeepsWays n s u := hcount _
  have hdue : KeepsWays n s (u.modSlice n fun x => if x.retireDue.contains (set, w) then x else { x with retireDue := x.retireDue ++ [(set, w)] }) :=
    hu.trans (.modSlice u n (by split <;> rfl) (by split <;> rfl))
  exact .ite hu (.ite hdue (.ite (hu.trans (.of_only (u.rec__within _ _ _ _ _).only rfl rfl rfl)) hu))

theorem KeepsWays.wordErr (s : State) (n set w : Nat) : KeepsWays n s (s.wordErr n set w).2 := by
  have hpop : KeepsWays n s s.popWay.2 := .of_only (s.popWay_within).only rfl rfl rfl
  exact .ite (hpop.trans (.ceWay _ n set w)) hpop

theorem KeepsWays.readWay (s : State) (n set w : Nat) (here : Bool) : KeepsWays n s (s.readWay n set w here).2 := by
  exact .trans (.ite (.refl n s) (.nearAccess s n set w false)) (.wordErr _ n set w)

theorem KeepsWays.wayGet (h : KeepsWays n s t) (set w : Nat) : t.wayGet set w = s.wayGet set w := by
  rw [State.wayGet, State.wayGet, h.near, h.poison]

theorem KeepsWays.tags_eq (h : KeepsWays n s t) (set : Nat) : t.tags n set = s.tags n set := by
  simp only [State.tags, Slice.tcFind, h.tc, h.only.part, State.nearTags, h.tags]

end

/-- Where no injected error stands, a read of a way finds what the codes find next, if that. -/
theorem State.wordErr_ne_ue {s : State} (hflip : s.ras.latent = []) (hfinds : s.finds.way.head? ≠ some .ue) (n set w : Nat) :
    (s.wordErr n set w).1 ≠ .ue := by
  have hpop : s.popWay.1 ≠ .ue := by
    unfold State.popWay
    split
    · simp
    · next e es he => simpa [he] using hfinds
  have hflip' : s.popWay.2.ras.latent = [] := ((s.popWay_within).only.latent rfl).trans hflip
  unfold State.wordErr
  simp only [State.metNear_of_no_flip hflip']
  split
  · simp
  · exact hpop

theorem State.readWay_ne_ue {s : State} (hflip : s.ras.latent = []) (hfinds : s.finds.way.head? ≠ some .ue) (n set w : Nat) (here : Bool) :
    (s.readWay n set w here).1 ≠ .ue := by
  unfold State.readWay
  split
  · exact State.wordErr_ne_ue hflip hfinds n set w
  · have hread := s.nearAccess_read_only n set w
    exact State.wordErr_ne_ue ((hread.latent rfl).trans hflip) (by rw [hread.finds rfl]; exact hfinds) n set w

end Sys2Proof.Machine
end

section
/-! SUPPORT. A host's read that hits (R63 to R65): it is answered with the way's data. -/

namespace Sys2Proof.Machine

/-- What a request's entering can change, and what the codes find meanwhile. -/
def passMask : Mask :=
  { finds := true, due := true, trcCfg := true, irq := true, slices := true, pba := true, ledger := true, bkt := true, events := true, trc := true,
    outs := true }

section
variable {m : Mask} {s t : State}

theorem Only.wayGet (h : Only m s t) (hm : m.near = false) (set w : Nat) : t.wayGet set w = s.wayGet set w := by
  have hpoison : t.mem.nearPoison = s.mem.nearPoison := congrArg (·.2.1) (h.near hm)
  rw [State.wayGet, State.wayGet, h.memNear hm, hpoison]

theorem Only.classOf (h : Only m s t) (hm : m.node = false) (la : Nat) : t.classOf la = s.classOf la := by
  unfold State.classOf State.ownDomain State.nodeNo
  rw [h.node hm]

theorem Only.hsfCopies (h : Only m s t) (hm : m.hsf = false) (key : Nat) (flat : Bool) : t.hsfCopies key flat = s.hsfCopies key flat := by
  simp only [State.hsfCopies, h.hsf hm]

theorem Only.biOpen (h : Only m s t) (hm : m.bisnps = false) (key : Nat) (flat : Bool) : t.biOpen key flat = s.biOpen key flat := by
  have hbisnps : t.bisnps = s.bisnps := congrArg Prod.fst (h.bisnps hm)
  rw [State.biOpen, State.biOpen, hbisnps]

theorem Only.hreq (h : Only m s t) (hm : m.hreqs = false) (rid : Nat) : t.hreq rid = s.hreq rid := by
  simp only [State.hreq, h.hreqs hm]

theorem Only.matchWay (h : Only m s t) (hpart : m.glbPart = false) (hlse : m.lse = false) (b : TagBlk) (la : Nat) :
    t.matchWay b la = s.matchWay b la := by
  unfold State.matchWay State.valid State.stale State.cacheWay State.cacheWays
  rw [h.part, h.glbPart hpart, h.lse hlse]

end

section
variable {s : State} {n : Nat} {r : Req}

/-! ### The answer -/

theorem State.modReq_hreq {rid : Nat} {h : HostReq} (hreq : s.hreq rid = some h) {f : HostReq → HostReq} (hf : ∀ g, (f g).rid = g.rid) :
    (s.modReq rid f).hreq rid = some (f h) := by
  have hpick : ((fun g : HostReq => g.rid == rid) ∘ fun g => if g.rid == rid then f g else g) = fun g => g.rid == rid := by
    funext g
    simp only [Function.comp_apply]
    split
    · rw [hf]
    · rfl
  have hrid : (h.rid == rid) = true := List.find?_some (p := fun g : HostReq => g.rid == rid) hreq
  unfold State.hreq State.modReq at *
  rw [List.find?_map, hpick, hreq, Option.map_some, if_pos hrid]

/-- A host's read of a local line that is answered without a copy. -/
theorem State.reqDone_of_host {rid : Nat} {h : HostReq} (hsrc : r.src = .host rid) (hkind : r.kind = .read) (hreq : s.hreq rid = some h)
    (hwin : h.win = .loc) (hmute : h.mute = false) (d : Line) :
    s.reqDone r d false 0 = (((s.account h).emit (.memData h.link h.req.tag d false 0)).hostGone rid).accDone r.aid := by
  have hread : (r.kind == .write) = false := by rw [hkind]; rfl
  have hloc : (h.win == .glob) = false := by rw [hwin]; rfl
  simp only [State.reqDone, hsrc, hreq, hread, hloc, State.hostData, hmute, Bool.false_and, Bool.false_eq_true, if_false, beq_self_eq_true, if_true]

theorem State.dequeue_rids (s : State) (n : Nat) (r : Req) {rid : Nat} (h : ∀ g ∈ s.hreqs, g.rid ≠ rid) :
    ∀ g ∈ (s.dequeue n r).hreqs, g.rid ≠ rid := by
  intro g hg
  obtain ⟨f, hf, rfl⟩ := List.mem_map.mp hg
  have hrid : f.rid ≠ rid := h f hf
  split
  · split <;> exact hrid
  · exact hrid

/-! ### The hit -/

theorem State.putTags_inq (s : State) (n set : Nat) (b : TagBlk) : ((s.putTags n set b).slice n).inq = (s.slice n).inq := by
  cases hworks : s.nearFrozen n with
  | true => simp only [State.putTags, hworks, if_true]
  | false =>
    rcases State.putTags_cases (set := set) hworks b with ⟨-, h⟩ | ⟨-, h⟩ | ⟨k, e, f, -, -, -, ⟨-, -, h⟩ | ⟨-, h⟩⟩ <;>
      simp only [h, State.putNearTags_slice, State.slice_modSlice_self]

theorem State.hitReq_inq (s : State) (n w : Nat) (r : Req) : ((s.hitReq n w r).slice n).inq = (s.slice n).inq := by
  unfold State.hitReq
  split
  · rfl
  · exact State.putTags_inq s n _ _

/-- No host's copy stands in the way of a read that takes none. -/
theorem State.hostGate_of_free (hcopies : s.hsfCopies r.la r.flat = []) (hbi : s.biOpen r.la r.flat = false) (hcopy : r.copy = false) :
    s.hostGate r = none := by
  simp [State.hostGate, hcopies, hbi, hcopy]

/-- Request `r` is host read `h` of a local line, which takes no copy and need not go home; slice `n` shows the line in way `w` of block `b`
in S, E, M or O, not aged; no host holds it, and no error stands in its word. -/
structure ReadHit (s : State) (n w : Nat) (b : TagBlk) (r : Req) (rid : Nat) (h : HostReq) : Prop where
  kind : r.kind = .read
  src : r.src = .host rid
  plain : r.glob = false ∧ r.atHome = false ∧ r.copy = false ∧ r.flat = false
  cls : s.classOf r.la = .loc
  block : s.tags n (setOf s.part r.la) = b
  way : s.matchWay b r.la = some w
  st : (b.get w).st ∈ [stS, stE, stM, stO]
  young : (b.get w).age ≠ 3
  sound : (s.wayGet (setOf s.part r.la) w).2 = false
  noCopies : s.hsfCopies r.la false = []
  noBi : s.biOpen r.la false = false
  noFlip : s.ras.latent = []
  req : s.hreq rid = some h
  win : h.win = .loc
  unmuted : h.mute = false

variable {w rid : Nat} {b : TagBlk} {h : HostReq}

theorem ReadHit.of_only {t : State} (hit : ReadHit s n w b r rid h) (k : Only passMask s t) (e : Option (Word × Word))
    (hblock : t.tags n (setOf t.part r.la) = b) : ReadHit t n w b { r with ent := e } rid h where
  kind := hit.kind
  src := hit.src
  plain := hit.plain
  cls := (k.classOf rfl _).trans hit.cls
  block := hblock
  way := (k.matchWay rfl rfl b _).trans hit.way
  st := hit.st
  young := hit.young
  sound := by rw [k.part, k.wayGet rfl, hit.sound]
  noCopies := (k.hsfCopies rfl _ _).trans hit.noCopies
  noBi := (k.biOpen rfl _ _).trans hit.noBi
  noFlip := (k.latent rfl).trans hit.noFlip
  req := (k.hreq rfl rid).trans hit.req
  win := hit.win
  unmuted := hit.unmuted

theorem ReadHit.not_leased_or_poisoned (hit : ReadHit s n w b r rid h) : ((b.get w).st == stL) = false ∧ ((b.get w).st == stP) = false := by
  have hst := hit.st
  generalize (b.get w).st = a at hst
  revert a
  decide

theorem ReadHit.hostGate (hit : ReadHit s n w b r rid h) : s.hostGate r = none := by
  obtain ⟨-, -, hcopy, hflat⟩ := hit.plain
  exact State.hostGate_of_free (by rw [hflat, hit.noCopies]) (by rw [hflat, hit.noBi]) hcopy

/-- The request leaves once it is served. -/
theorem State.judge_of_served {t : State} {g : Nat} (hkind : r.kind ≠ .prefetch) (hserve : s.serve n r g = .served t) :
    s.judge n r g = t.dequeue n r := by
  have hdemand : (r.kind == .prefetch) = false := by simp [hkind]
  simp only [State.judge, hdemand, hserve, Bool.false_eq_true, if_false]

/-- Such a request is served: its way is read and used, and it is done with the way's data. -/
theorem ReadHit.serve (hit : ReadHit s n w b r rid h) (hfinds : s.finds.way.head? ≠ some .ue) (g : Nat) :
    ∃ t, KeepsWays n s t ∧ s.serve n r g =
      .served ((((t.hitReq n w r).event n 2 1).stampAdvs (.host rid) ((t.hitReq n w r).event n 2 1).lse.count).reqDone r
        (s.wayGet (setOf s.part r.la) w).1 false 0) := by
  obtain ⟨hglob, hhome, hcopy, -⟩ := hit.plain
  obtain ⟨hnotL, hnotP⟩ := hit.not_leased_or_poisoned
  unfold State.serve
  extract_lets set b' s₁ cls
  have h₁ : Only { events := true } s s₁ := by
    unfold s₁
    split
    · exact (s.event_within n 0x13 1).only
    · exact Only.refl _ s
  have hkeeps : KeepsWays n s s₁ := .of_only h₁ rfl rfl rfl
  have hit₁ : ReadHit s₁ n w b r rid h := hit.of_only (h₁.mono rfl) r.ent (by rw [hkeeps.tags_eq, h₁.part, hit.block])
  have hb : b' = b := hit.block
  have hcls : cls = .loc := hit₁.cls
  clear_value s₁ cls b'
  subst hb hcls
  replace hkeeps := hkeeps.trans (.readWay s₁ n set w (g == w))
  have hue := State.readWay_ne_ue hit₁.noFlip (by rw [h₁.finds rfl]; exact hfinds) n set w (g == w)
  rcases hfound : s₁.readWay n set w (g == w) with ⟨e, t⟩
  rw [hfound] at hkeeps hue
  have hnone : (e == .ue) = false := beq_false_of_ne hue
  have hyoung : ((b'.get w).age == 3) = false := beq_false_of_ne hit.young
  have hblock : t.tags n set = b' := (hkeeps.tags_eq set).trans hit.block
  have hdata : t.wayGet set w = ((s.wayGet set w).1, false) := (hkeeps.wayGet set w).trans (Prod.ext rfl hit.sound)
  have hmaint : (Src.host rid == Src.maint) = false := rfl
  have hdemand : (ReqKind.read == .prefetch) = false := rfl
  have hloc : (LClass.loc == .other) = false := rfl
  refine ⟨t, hkeeps, ?_⟩
  simp only [hit₁.way, hit.kind, hit.src, hglob, hhome, hcopy, hit₁.hostGate, hnotL, hnotP, hyoung, hfound, hnone, hblock,
    hdata, hmaint, hdemand, hloc, State.grantVal, beq_self_eq_true, Bool.or_self, Bool.and_false, Bool.false_and, Bool.true_or, Bool.not_false,
    Bool.false_eq_true, if_false, if_true]
  rfl

/-- The host gets the way's data, and its request has left; the slice's input stays. -/
theorem ReadHit.answers (hit : ReadHit s n w b r rid h) (hfinds : s.finds.way.head? ≠ some .ue) (g : Nat) :
    ∃ t, s.serve n r g = .served t ∧ .memData h.link h.req.tag (s.wayGet (setOf s.part r.la) w).1 false 0 ∈ t.outs ∧
      (∀ g ∈ t.hreqs, g.rid ≠ rid) ∧ (t.slice n).inq = (s.slice n).inq := by
  obtain ⟨t, hkeeps, hserve⟩ := hit.serve hfinds g
  have huse : Only { lookMask with finds := true } t ((t.hitReq n w r).event n 2 1) :=
    ((t.hitReq_within n w r).only.mono rfl).trans (((t.hitReq n w r).event_within n 2 1).only.mono rfl)
  have hinq : (((t.hitReq n w r).event n 2 1).slice n).inq = (s.slice n).inq := by
    rw [((t.hitReq n w r).event_within n 2 1).only.slice rfl, t.hitReq_inq, hkeeps.inq]
  have hreq : ((t.hitReq n w r).event n 2 1).hreq rid = some h := by rw [huse.hreq rfl, hkeeps.only.hreq rfl, hit.req]
  generalize (t.hitReq n w r).event n 2 1 = u at hserve hinq hreq
  have hstamped : (u.stampAdvs (.host rid) u.lse.count).hreq rid = some { h with advs := u.lse.count } := State.modReq_hreq hreq fun _ => rfl
  have hdone := State.reqDone_of_host hit.src hit.kind hstamped hit.win hit.unmuted (s.wayGet (setOf s.part r.la) w).1
  refine ⟨_, hserve, ?_, ?_, ?_⟩
  · rw [hdone]
    exact List.mem_append_right _ (List.mem_singleton_self _)
  · rw [hdone]
    intro g hg
    simpa using (List.mem_filter.mp hg).2
  · rw [(State.reqDone_within _ _ _ _ _).only.slice rfl, (State.stampAdvs_within _ _ _).only.slice rfl, hinq]

end
end Sys2Proof.Machine
end

section
/-! SUPPORT. TAG_PIPELINE_LOOKUP: each end of a pass as a command reaches it, from the state before the codes' findings are counted. -/

namespace Sys2Proof.Machine

section
variable {s : State} {n idx : Nat} {fd : Finds} {r : Req}

theorem State.atWork_slice (s : State) (fd : Finds) (n : Nat) : (s.atWork fd).slice n = s.slice n := (s.atWork_only fd).slice rfl n

/-- The request has entered its pass. -/
theorem State.enters_slice (s : State) (fd : Finds) (n idx : Nat) (r : Req) :
    ((s.atWork fd).inPass n idx r).slice n = { s.slice n with inq := (s.slice n).inq.set idx { r with ent := (s.atWork fd).taken n r } } := by
  rw [State.inPass_slice, State.atWork_slice]

theorem State.enters_only (s : State) (fd : Finds) (n idx : Nat) (r : Req) : Only passMask s ((s.atWork fd).inPass n idx r) :=
  ((s.atWork_only fd).mono rfl).trans (((s.atWork fd).inPass_only n idx r).mono rfl)

theorem State.enters_finds (s : State) (fd : Finds) (n idx : Nat) (r : Req) : ((s.atWork fd).inPass n idx r).finds = fd :=
  ((s.atWork fd).inPass_only n idx r).finds rfl

theorem FirstOfLine.atWork (h : FirstOfLine (s.slice n) idx r) (fd : Finds) : FirstOfLine ((s.atWork fd).slice n) idx r := by
  rwa [State.atWork_slice]

/-- Where no injected error stands, the command is the pass alone. -/
theorem exec_tagPipelineLookup (hon : s.sliceOn n = true) (hflip : s.ras.latent = []) :
    exec (.tagPipelineLookup n idx false fd) s = .next { (s.atWork fd).lookup n idx fd.tcUe with finds := s.finds } := by
  have hmet (t a b : Nat) : (s.met t a b .none == .ue) = false := by simp [State.met, hflip]
  simp only [exec, execTagPipelineLookup, hon, Bool.not_true, Bool.false_eq_true, if_false, hmet, Bool.or_self, State.finding_eq]
  split <;> rfl

theorem exec_tagPipelineLookup_of_behind (hon : s.sliceOn n = true) (hflip : s.ras.latent = []) (hr : (s.slice n).inq[idx]? = some r)
    (hbehind : ∃ q ∈ (s.slice n).inq.take idx, q.la = r.la ∧ q.flat = r.flat) :
    exec (.tagPipelineLookup n idx false fd) s = .next (s.noted fd) := by
  obtain ⟨q, hq, hla, hflat⟩ := hbehind
  rw [← State.atWork_slice s fd] at hr hq
  rw [exec_tagPipelineLookup hon hflip, State.lookup_of_behind hr hq hla hflat, ← s.finding_idle fd]
  rfl

/-! ### A request that meets its line's register -/

section
variable {m : Mr} (hon : s.sliceOn n = true) (hflip : s.ras.latent = []) (h : FirstOfLine (s.slice n) idx r) (hkind : r.kind ≠ .prefetch)
  (hserved : s.refusedHere n = false) (hm : (s.slice n).mrs.find? (fun x => x.la == r.la) = some m)
include hon hflip h hkind hserved hm

theorem exec_tagPipelineLookup_of_mr :
    exec (.tagPipelineLookup n idx false fd) s = .next { (if 8 ≤ m.secs.length || m.full then
        (((s.atWork fd).inPass n idx r).modMr n m.idx fun m => { m with full := true }).event n 0x14 1
      else ((s.atWork fd).inPass n idx r).joinMr n m { r with ent := (s.atWork fd).taken n r } : State) with finds := s.finds } := by
  rw [exec_tagPipelineLookup hon hflip, State.lookup_of_mr (h.atWork fd) (((s.atWork_only fd).refusedHere rfl rfl n).trans hserved)
    (by rwa [State.atWork_slice]) hkind]

theorem tagPipelineLookup_joins (hroom : m.secs.length < 8) (hopen : m.full = false) :
    ∃ t, exec (.tagPipelineLookup n idx false fd) s = .next t ∧
      (∃ x ∈ (t.slice n).mrs, x.idx = m.idx ∧ x.la = r.la ∧
        x.secs = m.secs ++ [{ r with ent := (s.atWork fd).taken n r, dl := some (s.clk, s.paused) }] ∧ x.isPf = false) ∧
      (t.slice n).inq = (s.slice n).inq.eraseIdx idx ∧
      Only { slices := true, hreqs := true, events := true, trc := true, trcCfg := true, ledger := true, bkt := true, due := true, irq := true,
             pba := true, outs := true } s t := by
  have henter := s.enters_only fd n idx r
  have hslice := ((s.atWork fd).inPass n idx r).joinMr_slice n m { r with ent := (s.atWork fd).taken n r }
  rw [State.enters_slice, henter.clk rfl, henter.paused rfl] at hslice
  have hjoined : m.joined { r with ent := (s.atWork fd).taken n r, dl := some (s.clk, s.paused) } ∈
      ((((s.atWork fd).inPass n idx r).joinMr n m { r with ent := (s.atWork fd).taken n r }).slice n).mrs := by
    rw [hslice]
    exact List.mem_map.mpr ⟨m, List.mem_of_find?_eq_some hm, if_pos (beq_self_eq_true _)⟩
  have hla : m.la = r.la := by simpa using List.find?_some hm
  refine ⟨_, exec_tagPipelineLookup_of_mr hon hflip h hkind hserved hm, ?_⟩
  rw [if_neg (by simp [hopen, hroom])]
  exact ⟨⟨_, hjoined, rfl, hla, rfl, rfl⟩, (congrArg Slice.inq hslice).trans (h.erase _),
    .resetFinds ((henter.mono rfl).trans ((State.joinMr_within _ _ _ _).only.mono rfl)) rfl⟩

theorem tagPipelineLookup_waits (hfull : 8 ≤ m.secs.length ∨ m.full = true) :
    ∃ t, exec (.tagPipelineLookup n idx false fd) s = .next t ∧
      (t.slice n).inq = (s.slice n).inq.set idx { r with ent := (s.atWork fd).taken n r } ∧
      (t.slice n).mrs = (s.slice n).mrs.map (fun x => if x.idx = m.idx then { x with full := true } else x) ∧
      Only { slices := true, events := true, trc := true, trcCfg := true, ledger := true, bkt := true, due := true, irq := true,
             pba := true, outs := true } s t := by
  have hslice := ((s.atWork fd).inPass n idx r).markFull_slice n m.idx
  simp only [State.enters_slice, beq_iff_eq] at hslice
  refine ⟨_, exec_tagPipelineLookup_of_mr hon hflip h hkind hserved hm, ?_⟩
  rw [if_pos (by simpa using hfull)]
  exact ⟨congrArg Slice.inq hslice, congrArg Slice.mrs hslice,
    .resetFinds (((s.enters_only fd n idx r).mono rfl).trans ((State.markFull_only _ n _).mono rfl)) rfl⟩

end

/-! ### HOLD -/

theorem tagPipelineLookup_of_hold (hon : s.sliceOn n = true) (hflip : s.ras.latent = []) (h : FirstOfLine (s.slice n) idx r) (hmode : s.mode = 2) :
    ∃ t, exec (.tagPipelineLookup n idx false fd) s = .next t ∧ (t.slice n).inq = (s.slice n).inq.eraseIdx idx ∧
      (t.slice n).mrs = (s.slice n).mrs ∧ t.mem.near = s.mem.near ∧ t.mem.tags = s.mem.tags := by
  have henter := s.enters_only fd n idx r
  have hrefused : ((s.atWork fd).inPass n idx r).refusedHere n = true := by rw [State.refusedHere, henter.mode rfl, hmode]; rfl
  obtain ⟨hinq, hmrs, hnear, htags⟩ := State.refuse_of_hold hrefused { r with ent := (s.atWork fd).taken n r }
  rw [State.enters_slice] at hinq hmrs
  refine ⟨_, exec_tagPipelineLookup hon hflip, ?_⟩
  rw [State.lookup_of_hold (h.atWork fd) (((s.atWork_only fd).mode rfl).trans hmode)]
  exact ⟨hinq.trans (h.erase _), hmrs, hnear.trans (henter.memNear rfl), htags.trans (henter.memTags rfl)⟩

/-! ### A request that asks the tag cache -/

/-- The tag cache of slice `n` is off, or does not hold the row of line `la` and has an entry for it. -/
def State.lacksRow (s : State) (n la : Nat) : Prop :=
  s.tccEn n = false ∨
    (s.tccEn n = true ∧ (s.slice n).tcFind (rowOf s.part (setOf s.part la)) = none ∧
      (s.tcAlloc n (rowOf s.part (setOf s.part la))).isSome = true)

theorem Unheld.atWork (h : Unheld s n r) (fd : Finds) : Unheld (s.atWork fd) n r where
  served := ((s.atWork_only fd).refusedHere rfl rfl n).trans h.served
  enabled := ((s.atWork_only fd).mode rfl).trans h.enabled
  noMr := by rw [State.atWork_slice]; exact h.noMr
  noVb := by rw [State.atWork_slice]; exact h.noVb
  noTb := h.noTb

section
variable (h : FirstOfLine (s.slice n) idx r) (hu : Unheld s n r)
include h hu

/-- The pass has the block read, once the row has an entry where the tag cache is on. -/
theorem Unheld.lookup_reads (hmiss : s.lacksRow n r.la) :
    ∃ t tc, (s.atWork fd).lookup n idx fd.tcUe = (t.event n 7 1).tagMiss n idx { r with ent := (s.atWork fd).taken n r } ∧
      t.slice n = { s.slice n with inq := (s.slice n).inq.set idx { r with ent := (s.atWork fd).taken n r }, tc := tc } ∧
      t.mem.near = s.mem.near ∧ Only { lookMask with due := true } s t := by
  have henter := s.enters_only fd n idx r
  have hslice := s.enters_slice fd n idx r
  have hpart := (s.atWork_only fd).part
  obtain ⟨hoff, hnone, -⟩ := (hu.atWork fd).lookup (ue := fd.tcUe) (h.atWork fd)
  rcases hmiss with hdis | ⟨hen, hfind, halloc⟩
  · exact ⟨_, _, hoff (((s.atWork_only fd).tccEn rfl n).trans hdis), hslice, henter.memNear rfl, henter.mono rfl⟩
  · have hroom : (((s.atWork fd).inPass n idx r).tcAlloc n (rowOf s.part (setOf s.part r.la))).isSome = true := by
      rw [State.tcAlloc_isSome, hslice, ← halloc, State.tcAlloc_isSome]
      rfl
    obtain ⟨t, ht⟩ := Option.isSome_iff_exists.mp hroom
    obtain ⟨⟨tc, htc⟩, hnear⟩ := State.tcAlloc_keeps ht
    have hgiven := (((s.atWork fd).inPass n idx r).tcAlloc_within n _ t ht).only
    refine ⟨t, tc, hnone t (((s.atWork_only fd).tccEn rfl n).trans hen) ?_ ?_, by rw [htc, hslice], hnear.trans (henter.memNear rfl),
      (henter.mono rfl).trans (hgiven.mono rfl)⟩
    · rw [State.atWork_slice, hpart, hfind]
    · rw [hpart, ht]

/-- The pass judges the request by the row's entry. -/
theorem Unheld.lookup_judges {k : Nat} {c : TcEnt} (hen : s.tccEn n = true)
    (hfind : (s.slice n).tcFind (rowOf s.part (setOf s.part r.la)) = some (k, c)) (hpend : c.pending = false) (hue : fd.tcUe = false) :
    ∃ t, (s.atWork fd).lookup n idx fd.tcUe = t.judge n { r with ent := (s.atWork fd).taken n r } 0 ∧ Only passMask s t ∧
      t.tags n (setOf t.part r.la) = c.blk ∧ (t.slice n).inq = (s.slice n).inq.set idx { r with ent := (s.atWork fd).taken n r } ∧
      t.finds = fd := by
  have henter := s.enters_only fd n idx r
  have hslice := s.enters_slice fd n idx r
  obtain ⟨-, -, hjudge⟩ := (hu.atWork fd).lookup (ue := fd.tcUe) (h.atWork fd)
  have hlook := hjudge k c (((s.atWork_only fd).tccEn rfl n).trans hen) (by rw [State.atWork_slice, (s.atWork_only fd).part, hfind]) hpend hue
  have hrefs := (((s.atWork fd).inPass n idx r).slice n).tcUse_sameButRefs k
  have huse : Only { slices := true, events := true } ((s.atWork fd).inPass n idx r)
      ((((s.atWork fd).inPass n idx r).modSlice n fun x => x.tcUse k).event n 6 1) :=
    ((State.modSlice_within _ n _).only.mono rfl).trans ((State.event_within _ n 6 1).only.mono rfl)
  have honly := henter.trans (huse.mono rfl)
  have hused : ((((s.atWork fd).inPass n idx r).modSlice n fun x => x.tcUse k).event n 6 1).slice n =
      (((s.atWork fd).inPass n idx r).slice n).tcUse k := by
    rw [(State.event_within _ n 6 1).only.slice rfl, State.slice_modSlice_self]
  obtain ⟨b, hb⟩ := hrefs.tcFind (q := rowOf s.part (setOf s.part r.la)) (by rw [hslice]; exact hfind)
  refine ⟨_, hlook, honly, ?_, ?_, (huse.finds rfl).trans (s.enters_finds fd n idx r)⟩
  · rw [honly.part, State.tags_of_cached (e := { c with ref := b }) (by rw [honly.part, hused, hb]) hpend]
  · rw [hused, hrefs.rest, hslice]

variable (hon : s.sliceOn n = true) (hflip : s.ras.latent = [])
include hon hflip

theorem tagPipelineLookup_reads (hmiss : s.lacksRow n r.la) :
    ∃ t e w, exec (.tagPipelineLookup n idx false fd) s = .next t ∧
      (t.slice n).tbReads = (s.slice n).tbReads ++ [rowOf s.part (setOf s.part r.la)] ∧
      (t.slice n).inq = (s.slice n).inq.set idx { r with ent := e, tb := some w } ∧
      (t.slice n).mrs = (s.slice n).mrs ∧ t.hreqs = s.hreqs ∧ t.mem.near = s.mem.near := by
  obtain ⟨u, tc, hlook, hslice, hnear, honly⟩ := hu.lookup_reads h (fd := fd) hmiss
  have hevent := (u.event_within n 7 1).only
  have hread := ((u.event n 7 1).tagMiss_within n idx { r with ent := (s.atWork fd).taken n r }).only
  have hexec := exec_tagPipelineLookup (fd := fd) (idx := idx) hon hflip
  rw [hlook] at hexec
  obtain ⟨w, hw⟩ := (u.event n 7 1).tagMiss_slice n idx { r with ent := (s.atWork fd).taken n r }
  rw [hevent.slice rfl, hevent.part, honly.part, hslice] at hw
  generalize (u.event n 7 1).tagMiss n idx { r with ent := (s.atWork fd).taken n r } = t at hexec hread hw
  have htb : (t.slice n).tbReads = (s.slice n).tbReads ++ [rowOf s.part (setOf s.part r.la)] := by rw [hw]
  have hinq : (t.slice n).inq = (s.slice n).inq.set idx { r with ent := (s.atWork fd).taken n r, tb := some w } := by rw [hw, List.set_set]
  have hmrs : (t.slice n).mrs = (s.slice n).mrs := by rw [hw]
  exact ⟨_, _, w, hexec, htb, hinq, hmrs, (hread.hreqs rfl).trans ((hevent.hreqs rfl).trans (honly.hreqs rfl)),
    (hread.memNear rfl).trans ((hevent.memNear rfl).trans hnear)⟩

/-- A host's read whose line the tag cache shows is answered and leaves the input. -/
theorem tagPipelineLookup_hits {k w rid : Nat} {c : TcEnt} {g : HostReq} (hen : s.tccEn n = true)
    (hfind : (s.slice n).tcFind (rowOf s.part (setOf s.part r.la)) = some (k, c)) (hpend : c.pending = false) (hue : fd.tcUe = false)
    (hway : fd.way.head? ≠ some .ue) (hit : ReadHit s n w c.blk r rid g) :
    ∃ t, exec (.tagPipelineLookup n idx false fd) s = .next t ∧
      .memData g.link g.req.tag (s.wayGet (setOf s.part r.la) w).1 false 0 ∈ t.outs ∧ (∀ q ∈ t.hreqs, q.rid ≠ rid) ∧
      (t.slice n).inq = (s.slice n).inq.eraseIdx idx := by
  obtain ⟨u, hlook, honly, hblock, hinq, hfinds⟩ := hu.lookup_judges h (fd := fd) hen hfind hpend hue
  obtain ⟨t, hserve, hout, hgone, hkept⟩ := (hit.of_only honly ((s.atWork fd).taken n r) hblock).answers (hfinds ▸ hway) 0
  have hexec := exec_tagPipelineLookup (fd := fd) (idx := idx) hon hflip
  rw [hlook, State.judge_of_served (by rw [hit.kind]; decide) hserve] at hexec
  rw [honly.part, honly.wayGet rfl] at hout
  have hleft := t.dequeue_slice n { r with ent := (s.atWork fd).taken n r }
  rw [hkept, hinq, h.erase] at hleft
  exact ⟨_, hexec, hout, t.dequeue_rids n _ hgone, congrArg Slice.inq hleft⟩

end

end

/-- Settles O15: a request that is the first of its line enters as `State.inPass` says, and the pass then ends in one of the ways of
`State.lookup_of_hold`, `State.lookup_of_mr` and `Unheld.lookup`; a hit is judged on the block that its entry holds (`ReadHit.answers`). -/
theorem tagPipelineLookups : Obligations.TagPipelineLookups := by
  refine ⟨fun s n idx fd r hon hflip hr hbehind => exec_tagPipelineLookup_of_behind hon hflip hr hbehind,
    fun s n idx fd r m hon hflip hr hfirst hflat hkind hserved hm => ?_,
    fun s n idx fd r hon hflip hr hfirst hflat hmode => tagPipelineLookup_of_hold hon hflip ⟨hr, hfirst, hflat⟩ hmode,
    fun s n idx fd r hon hflip hr hfirst hflat htb hmode hserved hmr hvb hmiss =>
      tagPipelineLookup_reads ⟨hr, hfirst, hflat⟩ ⟨hserved, hmode, hmr, hvb, htb⟩ hon hflip hmiss,
    fun s n idx w k fd r c rid g hon hflip hr hfirst hflat htb hmode hserved hmr hvb hen hfind hpend hue hway hcls hkind hglob hhome hcopy
        hmatch hst hage hsound hcopies hbi hsrc hreq hwin hmute =>
      tagPipelineLookup_hits ⟨hr, hfirst, hflat⟩ ⟨hserved, hmode, hmr, hvb, htb⟩ hon hflip hen hfind hpend hue hway
        ⟨hkind, hsrc, ⟨hglob, hhome, hcopy, hflat⟩, hcls, State.tags_of_cached hfind hpend, hmatch, hst, hage, hsound, hcopies, hbi, hflip,
          hreq, hwin, hmute⟩⟩
  have hfront : FirstOfLine (s.slice n) idx r := ⟨hr, hfirst, hflat⟩
  by_cases hfull : 8 ≤ m.secs.length ∨ m.full = true
  · obtain ⟨t, ht, hwaits⟩ := tagPipelineLookup_waits (fd := fd) hon hflip hfront hkind hserved hm hfull
    exact ⟨t, _, ht, fun hroom hopen => absurd hfull (by simp [hroom, hopen]), fun _ => hwaits⟩
  · obtain ⟨hroom, hopen⟩ := not_or.mp hfull
    obtain ⟨t, ht, hjoins⟩ := tagPipelineLookup_joins (fd := fd) hon hflip hfront hkind hserved hm (by omega) (by simpa using hopen)
    exact ⟨t, _, ht, fun _ _ => hjoins, fun h => absurd h hfull⟩

end Sys2Proof.Machine
end

section
/-! SUPPORT. The ways of the cache, of the flat window and of the house (R94, R97, R99). -/

namespace Sys2Proof.Machine

/-- Line `a` of a window whose ways hold nine stripes of `n` lines each is in the window's way `k` (R97, R99). -/
theorem stripe_div_nine_eq_iff {n : Nat} (hn : 0 < n) (a k : Nat) : a / n / 9 = k ↔ k * (9 * n) ≤ a ∧ a < (k + 1) * (9 * n) := by
  rw [Nat.div_div_eq_div_mul, Nat.mul_comm n 9, Nat.div_eq_iff (by omega), Nat.le_sub_one_iff_lt (by positivity), Nat.succ_mul k]

theorem State.cacheWay_iff (s : State) (w : Nat) : s.cacheWay w = true ↔ 1 ≤ w ∧ w ≤ s.cacheWays := by
  simp [State.cacheWay]

theorem flatSlot_set_lt (p : Part) (h a : Nat) : (flatSlot p h a).1 < p.sets := by
  have hlow : a % 2 ^ p.setLowBits < 2 ^ p.setLowBits := Nat.mod_lt _ (by positivity)
  have hstripe : 2 ^ p.setLowBits * (a / 2 ^ p.setLowBits % 9) ≤ 2 ^ p.setLowBits * 8 := Nat.mul_le_mul_left _ (by omega)
  simp only [flatSlot, Part.sets]
  omega

theorem flatSlot_way {p : Part} {k a : Nat} (hk : k * (9 * 2 ^ p.setLowBits) ≤ a ∧ a < (k + 1) * (9 * 2 ^ p.setLowBits)) (h : Nat) :
    (flatSlot p h a).2 = 14 - h - k := by
  rw [flatSlot, (stripe_div_nine_eq_iff (by positivity) a k).mpr hk]

theorem houseSlot_way {p : Part} {k a : Nat} (hk : k * (9 * 2 ^ p.setLowBits) ≤ a ∧ a < (k + 1) * (9 * 2 ^ p.setLowBits)) (h : Nat) :
    (houseSlot p h a).2 = 15 - h + k := by
  rw [houseSlot, (stripe_div_nine_eq_iff (by positivity) a k).mpr hk]

/-- A line of the house space is in one of the house ways. -/
theorem houseSlot_way_mem {p : Part} {h a : Nat} (hh : h ≤ 14) (ha : a < h * (9 * 2 ^ p.setLowBits)) :
    15 - h ≤ (houseSlot p h a).2 ∧ (houseSlot p h a).2 ≤ 14 := by
  have hk := (stripe_div_nine_eq_iff (n := 2 ^ p.setLowBits) (by positivity) a _).mp rfl
  have hlt : a / 2 ^ p.setLowBits / 9 < h := by
    rw [Nat.div_div_eq_div_mul, Nat.mul_comm _ 9]
    exact Nat.div_lt_of_lt_mul (by rwa [Nat.mul_comm])
  rw [houseSlot_way hk]
  exact ⟨Nat.le_add_right _ _, by generalize a / 2 ^ p.setLowBits / 9 = k at hlt; omega⟩

/-- The first line of way `k` of the house space. -/
theorem houseSlot_way_first {p : Part} {h k : Nat} (hk : k < h) :
    k * (9 * 2 ^ p.setLowBits) < h * (9 * 2 ^ p.setLowBits) ∧ (houseSlot p h (k * (9 * 2 ^ p.setLowBits))).2 = 15 - h + k :=
  have hpos : 0 < 9 * 2 ^ p.setLowBits := by positivity
  ⟨Nat.mul_lt_mul_of_pos_right hk hpos, houseSlot_way ⟨le_rfl, Nat.mul_lt_mul_of_pos_right k.lt_succ_self hpos⟩ h⟩

/-- Settles O59: a window's line index, divided by the lines of a way, numbers the way that holds it. -/
theorem wayClasses : Obligations.WayClasses := by
  refine ⟨fun s hsum => ⟨s.cacheWay_iff, fun k a _ hlo hhi => ⟨flatSlot_way ⟨hlo, hhi⟩ _, flatSlot_set_lt _ _ _⟩,
    fun a ha => houseSlot_way_mem (by omega) ha, fun w hlo hhi => ?_⟩, by decide⟩
  obtain ⟨hin, hway⟩ := houseSlot_way_first (p := s.part) (show w - (15 - s.houseWays) < s.houseWays by omega)
  exact ⟨_, hin, hway.trans (by omega)⟩

end Sys2Proof.Machine
end

section
/-! SUPPORT. UNRETIRE of one way (R112): its entry, its mark and its count, where the slice caches no tag block and no word is corrupted. -/

namespace Sys2Proof.Machine

/-! ### The slice of a set -/

theorem bits_lt (x lo w : Nat) : bits x lo w < 2 ^ w := Nat.mod_lt _ (by positivity)

theorem sliceOf_lt (la : Nat) : sliceOf la < 64 :=
  Nat.xor_lt_two_pow (n := 6) (Nat.xor_lt_two_pow (Nat.xor_lt_two_pow (bits_lt _ _ _) (bits_lt _ _ _)) (bits_lt _ _ _))
    ((bits_lt _ _ 5).trans (by decide))

theorem sliceOfSet_lt (p : Part) (set : Nat) : sliceOfSet p set < 64 := sliceOf_lt _

/-! ### Corrupted tag blocks -/

/-- Injection has corrupted tag blocks at most. -/
def State.TagFlips (s : State) : Prop := ∀ x ∈ s.ras.latent, x.target = 3

section
variable {s t : State} {n set : Nat}

theorem State.TagFlips.of_only {m : Mask} (h : s.TagFlips) (honly : Only m s t) (hm : m.flip = false) : t.TagFlips := by
  rwa [State.TagFlips, honly.latent hm]

theorem State.TagFlips.flipDone (h : s.TagFlips) (inst addr : Nat) : (s.flipDone 3 inst addr).TagFlips := by
  have hother : ∀ x ∈ s.otherFlips 3 inst addr, x.target = 3 := fun x hx => h x (List.mem_filter.mp hx).1
  unfold State.flipDone
  split
  · intro x hx
    rcases List.mem_append.mp hx with hx | hx
    · exact hother x hx
    · rw [List.mem_singleton.mp hx]
      rfl
  · split
    · exact h
    · exact hother

/-- The write of a tag block may be corrupted, or mend it. -/
theorem State.TagFlips.nearAccess (h : s.TagFlips) (n set : Nat) : (s.nearAccess n set 0 true).TagFlips := by
  have hslot (row : Nat) : ((row * 16 + 0) % 16 == 0) = true := by simp
  simp only [State.nearAccess, State.flipNear, hslot, if_true]
  split
  · exact h
  · exact (h.flipDone _ _).of_only (State.chanEnq_within _ _ _ _).only rfl

theorem State.TagFlips.putNearTags (h : s.TagFlips) (n set : Nat) (b : TagBlk) : (s.putNearTags n set b).TagFlips := by
  unfold State.putNearTags
  split
  · exact h
  · exact State.TagFlips.nearAccess (s := { s with mem := { s.mem with tags := Tab.put {} s.mem.tags set b } }) h n set

theorem State.TagFlips.putTags (h : s.TagFlips) (hworks : s.nearFrozen n = false) (set : Nat) (b : TagBlk) : (s.putTags n set b).TagFlips := by
  rcases State.putTags_cases (set := set) hworks b with ⟨-, heq⟩ | ⟨-, heq⟩ | ⟨k, e, f, -, -, -, ⟨-, -, heq⟩ | ⟨-, heq⟩⟩ <;> rw [heq]
  · exact h.putNearTags n set _
  · exact h
  · exact h.of_only (s.modSlice_within n _).only rfl
  · exact (h.of_only (s.modSlice_within n _).only rfl).putNearTags n set _

/-- A set record's read is not touched by it. -/
theorem State.TagFlips.metNear_record (h : s.TagFlips) (n set : Nat) (e : ArrErr) : s.metNear n set 15 e = e := by
  have hnone (inst addr : Nat) : s.ras.latent.find? (fun x => x.at_ 1 inst addr) = none := by
    refine List.find?_eq_none.mpr fun x hx => ?_
    simp [Flip.at_, h x hx]
  simp [State.metNear, State.met, hnone]

/-- Near memory holds `r` as the record of the set. -/
def State.withRec (s : State) (set : Nat) (r : SetRec) : State := { s with mem := { s.mem with recs := Tab.put {} s.mem.recs set r } }

theorem State.withRec_setRec (s : State) (set : Nat) (r : SetRec) : (s.withRec set r).setRec set = r := Tab.get_put_self _ _ _ _

theorem State.withRec_only (s : State) (set : Nat) (r : SetRec) : Only { near := true } s (s.withRec set r) := rfl

/-- A record whose read meets no error is written as given. -/
theorem State.putRec_of_sound (hworks : s.nearFrozen n = false) (hfinds : s.finds.recs = []) (hflips : s.TagFlips) (r : SetRec) :
    s.putRec n set r = ((s.nearAccess n set 15 false).withRec set r).nearAccess n set 15 true := by
  have hread := s.nearAccess_read_only n set 15
  have hpop : (s.nearAccess n set 15 false).popRec = (.none, s.nearAccess n set 15 false) := by
    simp [State.popRec, hread.finds rfl, hfinds]
  simp only [State.putRec, hworks, Bool.false_eq_true, if_false, hpop, (hflips.of_only hread rfl).metNear_record]
  rfl

theorem State.putRec_shows (hworks : s.nearFrozen n = false) (hfinds : s.finds.recs = []) (hflips : s.TagFlips) (r : SetRec) :
    (s.putRec n set r).setRec set = r ∧ (s.putRec n set r).nearTags set = s.nearTags set ∧
      Only { free := true, chans := true, near := true, memIo := true, flip := true, events := true } s (s.putRec n set r) := by
  rw [State.nearTags, (State.putRec_mem hworks set r).2, State.putRec_of_sound hworks hfinds hflips]
  have hread := s.nearAccess_read_only n set 15
  have hwrite := (((s.nearAccess n set 15 false).withRec set r).nearAccess_within n set 15 true).only
  exact ⟨(hwrite.setRec rfl set).trans (State.withRec_setRec _ _ _), rfl,
    (hread.mono rfl).trans (((State.withRec_only _ set r).mono rfl).trans (hwrite.mono rfl))⟩

end

/-! ### One way -/

section
variable {s t : State} {n set w : Nat}

/-- The record of a set whose way `w` is restored: its mark is gone and its count 0. -/
def SetRec.restored (r : SetRec) (w : Nat) : SetRec := { r with retire := r.retire &&& ~~~(BitVec.ofNat 14 (2 ^ (w - 1))), ce := r.ce.set (w - 1) 0 }

theorem SetRec.restored_retire (r : SetRec) (w : Nat) : (r.restored w).retire.getLsbD (w - 1) = false := by
  simp only [SetRec.restored, BitVec.getLsbD_and, BitVec.getLsbD_not, BitVec.getLsbD_ofNat, Nat.testBit_two_pow_self, Bool.and_true, Bool.and_not_self,
    Bool.and_false]

theorem SetRec.restored_ce {r : SetRec} (hlt : w - 1 < r.ce.length) : (r.restored w).ce[w - 1]? = some 0 := by
  simp [SetRec.restored, hlt]

/-- Way `w` of a set becomes invalid, unmarked and uncounted. -/
def State.wayRestore (s : State) (n set w : Nat) : State := (s.putEnt n set w {}).putRec n set ((s.setRec set).restored w)

/-- What the restoring of a way may change. -/
def restoreMask : Mask := { free := true, slices := true, chans := true, near := true, memIo := true, flip := true, events := true }

/-- Way `w` of slice `n`'s set shows X, and no error is in what its restoring reads. -/
structure RestoreReady (s : State) (n set w : Nat) : Prop where
  works : s.nearFrozen n = false
  noFinds : s.finds.recs = []
  flips : s.TagFlips
  pos : 1 ≤ w
  le : w ≤ (s.tags n set).ways.length
  retired : ((s.tags n set).get w).st = stX

theorem RestoreReady.wayRestore (h : RestoreReady s n set w) :
    ((s.wayRestore n set w).nearTags set).get w = {} ∧ (s.wayRestore n set w).setRec set = (s.setRec set).restored w ∧
      Only restoreMask s (s.wayRestore n set w) := by
  have hent := (s.putEnt_within n set w {}).only
  have hkeeps : KeepsRecords n s (s.putEnt n set w {}) := .putTags h.works set _
  obtain ⟨hrec, htags, honly⟩ := State.putRec_shows (set := set) (hkeeps.works.trans h.works) (by rw [hent.finds rfl, h.noFinds])
    (h.flips.putTags h.works set _ : (s.putEnt n set w {}).TagFlips) ((s.setRec set).restored w)
  refine ⟨?_, hrec, (hent.mono rfl).trans (honly.mono rfl)⟩
  rw [State.wayRestore, htags, State.putEnt_nearTags h.works h.pos h.le (by decide) (by rw [h.retired]; decide)]

end

/-! ### The command's pass over the ways -/

/-- A pass over `n` items of which only item `k` does anything. -/
theorem foldl_range_of_only {α : Type} {f : α → Nat → α} {k : Nat} (h : ∀ x j, j ≠ k → f x j = x) (a : α) (n : Nat) :
    (List.range n).foldl f a = if k < n then f a k else a := by
  induction n with
  | zero => rfl
  | succ n ih =>
    rw [List.range_succ, List.foldl_append, ih, List.foldl_cons, List.foldl_nil]
    rcases lt_trichotomy n k with hlt | rfl | hgt
    · rw [if_neg (by omega), if_neg (by omega), h _ _ hlt.ne]
    · rw [if_neg (by omega), if_pos (by omega)]
    · rw [if_pos hgt, if_pos (by omega), h _ _ hgt.ne']

/-- UNRETIRE at way `j + 1` of a set: the number of ways restored, and the state. -/
def State.unretireWay (n set : Nat) (way : BitVec 8) (a : Nat × State) (j : Nat) : Nat × State :=
  if (way == 0 || way.toNat == j + 1) && ((a.2.tags n set).get (j + 1)).st == stX then (a.1 + 1, a.2.wayRestore n set (j + 1)) else a

section
variable {s : State} {i : Nat} {sl way : BitVec 8} {set : BitVec 32} {b : TagBlk}

/-- Where one set has a tag block, and it is the one named. -/
theorem State.unretireGo_of_one_block (htags : s.mem.tags = [(i, b)]) (hworks : s.nearFrozen (sliceOfSet s.part i) = false)
    (hset : set.toNat = i) (hsl : sl.toNat = sliceOfSet s.part i) (id : Nat) :
    s.unretireGo id sl set way =
      (((List.range 14).foldl (State.unretireWay (sliceOfSet s.part i) i way) (0, s.touch (sliceOfSet s.part i) i none)).2).cmdEnd id stOK
        (leBytes 4 ((List.range 14).foldl (State.unretireWay (sliceOfSet s.part i) i way) (0, s.touch (sliceOfSet s.part i) i none)).1) := by
  simp only [State.unretireGo, htags, List.foldl_cons, List.foldl_nil, hworks, hset, hsl, beq_self_eq_true, Bool.or_true, Bool.and_self,
    Bool.not_true, Bool.or_self, Bool.false_eq_true, if_false]
  rfl

theorem State.unretireWay_fold {n w : Nat} (hway : way.toNat = w) (h1 : 1 ≤ w) (hw : w ≤ 14) (hX : ((s.tags n i).get w).st = stX) :
    (List.range 14).foldl (State.unretireWay n i way) (0, s) = (1, s.wayRestore n i w) := by
  have hne : (way == 0) = false := beq_false_of_ne (by rintro rfl; simp at hway; omega)
  have hw1 : w - 1 + 1 = w := by omega
  rw [foldl_range_of_only (k := w - 1) (fun x j hj => ?_), if_pos (by omega)]
  · simp only [State.unretireWay, hw1, hway, hX, beq_self_eq_true, Bool.or_true, Bool.and_self, if_true]
  · have hother : (way.toNat == j + 1) = false := beq_false_of_ne (by omega)
    simp only [State.unretireWay, hne, hother, Bool.or_self, Bool.false_and, Bool.false_eq_true, if_false]

end

/-! ### The lookup before it -/

section
variable {s : State} {n set : Nat}

/-- The lookup that maintenance makes leaves near memory and shows the set's block. -/
theorem BareSet.touch_shows (hb : BareSet s n set) :
    (s.touch n set none).tags n set = s.nearTags set ∧ (s.touch n set none).nearFrozen n = s.nearFrozen n ∧
      Only { slices := true, chans := true, memIo := true, events := true } s (s.touch n set none) := by
  have hevent := (s.event_within n 7 1).only
  have hread := (s.event n 7 1).nearAccess_read_only n set 0
  have hbr := (hb.of_only hevent rfl rfl rfl rfl rfl).nearAccess 0
  have hkeep := (State.tcKeep_of_tc_nil hbr.noCache set (rowOf s.part set)).2
  have hpart : ((s.event n 7 1).nearAccess n set 0 false).part = s.part := hread.part
  rw [hb.touch]
  refine ⟨?_, (hkeep.nearFrozen rfl n).trans ((State.nearAccess_nearFrozen _ n set 0 false n).trans rfl),
    (hevent.mono rfl).trans ((hread.mono rfl).trans (hkeep.mono rfl))⟩
  rw [← hpart, hbr.tcKeep_tags, hread.nearTags rfl, hevent.nearTags rfl]

end

/-! ### The command -/

section
variable {s : State} {i : Nat} {sl way : BitVec 8} {set : BitVec 32} {b : TagBlk}

/-- UNRETIRE of one retired way of the only set that has a tag block, no error standing in what it reads. -/
theorem BareSet.unretireGo (hb : BareSet s (sliceOfSet s.part i) i) (hfinds : s.finds.recs = []) (htags : s.mem.tags = [(i, b)])
    (hset : set.toNat = i) (hsl : sl.toNat = sliceOfSet s.part i) (h1 : 1 ≤ way.toNat) (hw : way.toNat ≤ 14) (hlen : b.ways.length = 14)
    (hX : (b.get way.toNat).st = stX) (id : Nat) :
    ∃ y, s.unretireGo id sl set way = y.cmdEnd id stOK (leBytes 4 1) ∧ (y.nearTags i).get way.toNat = {} ∧
      y.setRec i = (s.setRec i).restored way.toNat ∧ Only restoreMask s y := by
  have hblk : s.nearTags i = b := by rw [State.nearTags, htags, Tab.get, if_pos rfl]
  obtain ⟨hshow, hworks, hlook⟩ := hb.touch_shows
  have hgo := State.unretireGo_of_one_block (way := way) htags hb.works hset hsl id
  generalize s.touch (sliceOfSet s.part i) i none = t at hshow hworks hlook hgo
  rw [hblk] at hshow
  have hflips : s.TagFlips := by simp [State.TagFlips, hb.noFlip]
  have hready : RestoreReady t (sliceOfSet s.part i) i way.toNat :=
    ⟨hworks.trans hb.works, by rw [hlook.finds rfl, hfinds], hflips.of_only hlook rfl, h1, by rw [hshow, hlen]; exact hw, by rw [hshow, hX]⟩
  obtain ⟨hent, hrec, honly⟩ := hready.wayRestore
  rw [State.unretireWay_fold rfl h1 hw hready.retired] at hgo
  exact ⟨_, hgo, hent, by rw [hrec, hlook.setRec rfl], (hlook.mono rfl).trans honly⟩

end

end Sys2Proof.Machine
end

section
/-! SUPPORT. The checks and the effects of PART_SET_FLAT, CACHE_MODE, RANGE_OP and UNRETIRE (R95, R100, R101, R105, R108, R112). -/

namespace Sys2Proof.Machine

section
variable {s : State} {id : Nat}

/-! ### PART_SET_FLAT -/

theorem State.partSetFlatCheck_of_fits {f : BitVec 8} (hf : f.toNat ≤ 10) (hh : s.houseWays + f.toNat ≤ 12) (hlay : s.layoutKnown = true) :
    s.partSetFlatCheck f = stOK := by
  simp [State.partSetFlatCheck, hf, hh, hlay]

theorem State.partSetFlatCheck_of_beyond {f : BitVec 8} (hf : 10 < f.toNat ∨ 12 < s.houseWays + f.toNat) :
    s.partSetFlatCheck f = stRefused := by
  have hno : ¬(f.toNat ≤ 10 ∧ s.houseWays + f.toNat ≤ 12) := by omega
  simp only [State.partSetFlatCheck, Bool.and_eq_true, decide_eq_true_eq, hno, false_and, if_false]

/-- The range operation of a change to `f` flat ways: 6 takes ways from the cache, 8 returns them. -/
def State.partRange (s : State) (id f : Nat) : RangeSt := { runId := id, op := if s.flatWays < f then 6 else 8, arg := f }

theorem State.partSetFlatGo_of_same {f : BitVec 8} (hf : f.toNat = s.flatWays) : s.partSetFlatGo id f = s.cmdEnd id stOK (leBytes 16 0) := by
  simp [State.partSetFlatGo, hf]

theorem State.partSetFlatGo_of_change {f : BitVec 8} (hf : f.toNat ≠ s.flatWays) :
    s.partSetFlatGo id f = { s with mgt := { s.mgt with moving := true, range := some (s.partRange id f.toNat) } } := by
  simp [State.partSetFlatGo, hf, State.partRange]

theorem State.flatOpen_of_lower {r : RangeSt} (hrange : s.mgt.range = some r) (hop : r.op = 8) : s.flatOpen = r.arg := by
  simp [State.flatOpen, hrange, hop]

/-! ### CACHE_MODE -/

theorem State.cacheModeCheck_of_unknown {m : BitVec 8} (hm : 3 ≤ m.toNat) : s.cacheModeCheck m = stBadParam := if_pos hm

theorem State.cacheModeCheck_of_mode {m : BitVec 8} (hm : m.toNat < 3) (hlay : s.layoutKnown = true) :
    s.cacheModeCheck m = if m = 2 ∧ s.others ≠ [] ∧ s.dom.st ≠ 3 then stRefused else stOK := by
  simp [State.cacheModeCheck, hm, hlay]

/-- The range operation that empties the cache, its hosts' copies included, before BYPASS. -/
def bypassRange (id : Nat) : RangeSt := { runId := id, op := 7, whole := true, hosts := true }

theorem State.cacheModeGo_bypass (hmode : s.mode ≠ 1) :
    s.cacheModeGo id 1 = { s with mgt := { s.mgt with transition := true, range := some (bypassRange id) } } := by
  simp [State.cacheModeGo, hmode, bypassRange]

theorem State.cacheModeGo_of_done {m : BitVec 8} (hm : m.toNat ≤ 2) (hnow : m = 1 → s.mode = 1) :
    s.cacheModeGo id m = State.cmdEnd { s with mode := m.toNat } id stOK (leBytes 8 0) := by
  have henter : (m == 1 && s.mode != 1) = false := by simpa using hnow
  simp only [State.cacheModeGo, henter, Bool.false_eq_true, if_false, Nat.min_eq_right hm]

/-! ### RANGE_OP -/

/-- The range lies in lines and within the limits of R105. -/
def rangeFits (base len : Word) : Bool :=
  base.toNat % 64 == 0 && len.toNat % 64 == 0 && 64 ≤ len.toNat && len.toNat ≤ 2 ^ 42 && base.toNat < 2 ^ 57

theorem rangeOpCheck_eq (op fl : BitVec 8) (base len : Word) :
    rangeOpCheck op fl base len =
      if op.toNat ≤ 5 ∧ fl.toNat ≤ 7 ∧ (fl.getLsbD 0 = true ∨ rangeFits base len = true) then stOK else stBadParam := by
  simp only [rangeOpCheck, ← rangeFits.eq_def, Bool.and_eq_true, Bool.or_eq_true, decide_eq_true_eq, and_assoc]

theorem rangeFits_of_lines {base len : Word} (hbase : base.toNat % 64 = 0) (hlimit : base.toNat < 2 ^ 57) (hlen : len.toNat % 64 = 0)
    (hne : len ≠ 0) (hmost : len.toNat ≤ 2 ^ 42) : rangeFits base len = true := by
  have hpos : len.toNat ≠ 0 := fun h => hne (BitVec.eq_of_toNat_eq h)
  simp only [rangeFits, Bool.and_eq_true, beq_iff_eq, decide_eq_true_eq]
  exact ⟨⟨⟨⟨hbase, hlen⟩, by omega⟩, hmost⟩, hlimit⟩

theorem not_rangeFits {base len : Word} (h : base.toNat % 64 ≠ 0 ∨ len.toNat % 64 ≠ 0 ∨ len = 0 ∨ 2 ^ 42 < len.toNat) :
    rangeFits base len = false := by
  rw [Bool.eq_false_iff]
  simp only [rangeFits, ne_eq, Bool.and_eq_true, beq_iff_eq, decide_eq_true_eq]
  rintro ⟨⟨⟨⟨hbase, hlen⟩, hleast⟩, hmost⟩, -⟩
  rcases h with h | h | rfl | h
  · exact h hbase
  · exact h hlen
  · simp at hleast
  · omega

/-- The range operation that RANGE_OP starts. -/
def rangeOf (id : Nat) (op fl : BitVec 8) (base len : Word) : RangeSt :=
  { runId := id, op := op.toNat, whole := fl.getLsbD 0, hosts := fl.getLsbD 1, keep := fl.getLsbD 2, base := base.toNat, len := len.toNat }

theorem State.rangeOpGo_eq (op fl : BitVec 8) (base len : Word) :
    s.rangeOpGo id op fl base len = { s with mgt := { s.mgt with range := some (rangeOf id op fl base len) } } := rfl

/-! ### UNRETIRE -/

variable {sl way : BitVec 8} {set : BitVec 32}

theorem State.unretireCheck_of_no_slice (hsl : 64 ≤ sl.toNat) (hall : sl ≠ 0xFF) : s.unretireCheck sl set way = stInvalidInstance := by
  rw [State.unretireCheck, if_pos (Bool.and_eq_true_iff.mpr ⟨decide_eq_true hsl, bne_iff_ne.mpr hall⟩)]

theorem State.unretireCheck_of_slice (hsl : sl = 0xFF ∨ sl.toNat < 64) :
    s.unretireCheck sl set way = if (set.toNat < s.part.sets ∨ set = 0xFFFFFFFF) ∧ way.toNat ≤ 14 then stOK else stBadParam := by
  have hno : ¬(64 ≤ sl.toNat ∧ sl ≠ 0xFF) := by rintro ⟨hle, hne⟩; exact hsl.elim hne (by omega)
  simp only [State.unretireCheck, Bool.and_eq_true, Bool.or_eq_true, decide_eq_true_eq, bne_iff_ne, beq_iff_eq, hno, if_false]

end
end Sys2Proof.Machine
end

section
/-! SUPPORT. What PART_SET_FLAT, CACHE_MODE, RANGE_OP and UNRETIRE start or reply when they come to free clerks. -/

namespace Sys2Proof.Machine

section
variable {s : State} {h : CmdHdr} {e : Nat}

/-- A command whose effect is on the clerks' work alone, and which a later event ends. -/
theorem Issued.starts {b : CmdBody} {g : Mgt} (hi : Issued s h b e) (hb : s.bodyCheck b = stOK)
    (hx : (s.executing h b).bodyCheck b = stOK) (hraw : CmdBody.rawAccess b = false)
    (hgo : (s.executing h b).bodyGo (s.runOf h b).id b = { s.executing h b with mgt := g }) (hq : g.queue = []) :
    s.mgtReceive h b = { s with mgt := g } := by
  rw [hi.takesEffect hb hx hraw (by rw [hgo]; exact hq), hgo]
  rfl

/-! ### PART_SET_FLAT -/

section
variable {f : BitVec 8} (hi : Issued s h (.partSetFlat f) e)
include hi

theorem Issued.partSetFlat_of_beyond (hf : 10 < f.toNat ∨ 12 < s.houseWays + f.toNat) :
    ∃ t, exec (.partSetFlat h f) s = .next t ∧ Replied h e 0x0210 11 [] s t ∧ Only { mgtq := true, outs := true, events := true } s t :=
  ⟨_, rfl, hi.refused (State.partSetFlatCheck_of_beyond hf) (State.partSetFlatCheck_of_beyond (s := s.executing h _) hf)
    (by decide) (by decide) rfl⟩

variable (hlay : s.layoutKnown = true) (hf : f.toNat ≤ 10) (hh : s.houseWays + f.toNat ≤ 12)
include hlay hf hh

theorem Issued.partSetFlat_of_same (hsame : f.toNat = s.flatWays) :
    ∃ t, exec (.partSetFlat h f) s = .next t ∧ Replied h e 0x0210 0 (leBytes 16 0) s t ∧
      Only { mgtq := true, outs := true, events := true } s t := by
  have hgo := State.partSetFlatGo_of_same (s := s.executing h (.partSetFlat f)) (id := (s.runOf h (.partSetFlat f)).id) hsame
  obtain ⟨hend, hreply, -⟩ := hi.ends (State.partSetFlatCheck_of_fits hf hh hlay)
    (State.partSetFlatCheck_of_fits (s := s.executing h _) hf hh hlay) rfl hgo rfl rfl
  exact ⟨_, rfl, hreply, hi.ends_only hend rfl (Only.refl _ _) rfl rfl⟩

/-- To another number, it starts the sweep and leaves the partition. -/
theorem Issued.partSetFlat_of_change (hne : f.toNat ≠ s.flatWays) :
    s.mgtReceive h (.partSetFlat f) =
      { s with mgt := { (s.executing h (.partSetFlat f)).mgt with moving := true, range := some (s.partRange s.mgt.nextId f.toNat) } } :=
  hi.starts (State.partSetFlatCheck_of_fits hf hh hlay) (State.partSetFlatCheck_of_fits (s := s.executing h _) hf hh hlay) rfl
    (State.partSetFlatGo_of_change (s := s.executing h _) hne) rfl

theorem Issued.partSetFlat_raise (hmore : s.flatWays < f.toNat) :
    ∃ (t : State) (r : Run) (x : RangeSt), exec (.partSetFlat h f) s = .next t ∧ t.glbPart = s.glbPart ∧
      t.mgt.moving = true ∧ t.mgt.range = some x ∧ x.op = 6 ∧ x.arg = f.toNat ∧ x.runId = r.id ∧ t.mgt.running = [r] ∧ r.body = .partSetFlat f ∧
      t.outs = s.outs ∧ Only { mgt := true, mgtq := true } s t := by
  refine ⟨_, s.runOf h (.partSetFlat f), s.partRange s.mgt.nextId f.toNat, rfl, ?_⟩
  rw [hi.partSetFlat_of_change hlay hf hh hmore.ne']
  exact ⟨rfl, rfl, rfl, if_pos hmore, rfl, rfl, rfl, rfl, rfl, rfl⟩

theorem Issued.partSetFlat_lower (hless : f.toNat < s.flatWays) :
    ∃ (t : State) (r : Run) (x : RangeSt), exec (.partSetFlat h f) s = .next t ∧ t.flatOpen = f.toNat ∧
      t.glbPart = s.glbPart ∧ t.mgt.moving = true ∧ t.mgt.range = some x ∧ x.op = 8 ∧ x.arg = f.toNat ∧
      x.runId = r.id ∧ t.mgt.running = [r] ∧ t.outs = s.outs ∧ Only { mgt := true, mgtq := true } s t := by
  have hop : (s.partRange s.mgt.nextId f.toNat).op = 8 := if_neg hless.le.not_gt
  refine ⟨_, s.runOf h (.partSetFlat f), s.partRange s.mgt.nextId f.toNat, rfl, ?_⟩
  rw [hi.partSetFlat_of_change hlay hf hh hless.ne]
  exact ⟨State.flatOpen_of_lower rfl hop, rfl, rfl, rfl, hop, rfl, rfl, rfl, rfl, rfl⟩

end

/-! ### CACHE_MODE -/

section
variable {m : BitVec 8} (hi : Issued s h (.cacheMode m) e)
include hi

theorem Issued.cacheMode_of_unknown (hm : 3 ≤ m.toNat) :
    ∃ t, exec (.cacheMode h m) s = .next t ∧ Replied h e 0x0211 9 [] s t ∧ Only { outs := true } s t :=
  ⟨_, rfl, hi.badOperand (State.cacheModeCheck_of_unknown hm) (.inr rfl)⟩

variable (hlay : s.layoutKnown = true)
include hlay

/-- ENABLED, HOLD that nothing forbids, and the mode BYPASS that is in force, are set at once. -/
theorem Issued.cacheMode_sets (hm : m = 0 ∨ m = 2 ∧ (s.others = [] ∨ s.dom.st = 3) ∨ m = 1 ∧ s.mode = 1) :
    ∃ t, exec (.cacheMode h m) s = .next t ∧ t.mode = m.toNat ∧ Replied h e 0x0211 0 (leBytes 8 0) s t ∧
      Only { mode := true, mgtq := true, outs := true, events := true } s t := by
  have hle : m.toNat ≤ 2 := by rcases hm with rfl | ⟨rfl, -⟩ | ⟨rfl, -⟩ <;> decide
  have hnow : m = 1 → s.mode = 1 := by
    rintro rfl
    simpa using hm
  have hfree : ¬(m = 2 ∧ s.others ≠ [] ∧ s.dom.st ≠ 3) := by
    rintro ⟨rfl, hothers, hst⟩
    simp [hothers, hst] at hm
  have hcheck : s.cacheModeCheck m = stOK := (State.cacheModeCheck_of_mode (by omega) hlay).trans (if_neg hfree)
  have hgo := State.cacheModeGo_of_done (s := s.executing h (.cacheMode m)) (id := (s.runOf h (.cacheMode m)).id) hle hnow
  obtain ⟨hend, hreply, hrest⟩ := hi.ends hcheck hcheck rfl hgo rfl rfl
  exact ⟨_, rfl, hrest.mode rfl, hreply, hi.ends_only hend rfl rfl rfl rfl⟩

theorem Issued.cacheMode_hold_refused (hm : m = 2) (hothers : s.others ≠ []) (hst : s.dom.st ≠ 3) :
    ∃ t, exec (.cacheMode h m) s = .next t ∧ Replied h e 0x0211 11 [] s t ∧ Only { mgtq := true, outs := true, events := true } s t := by
  subst hm
  have hcheck : s.cacheModeCheck 2 = stRefused := (State.cacheModeCheck_of_mode (by decide) hlay).trans (if_pos ⟨rfl, hothers, hst⟩)
  exact ⟨_, rfl, hi.refused hcheck hcheck (by decide) (by decide) rfl⟩

theorem Issued.cacheMode_bypass (hm : m = 1) (hmode : s.mode ≠ 1) :
    ∃ (t : State) (r : Run) (x : RangeSt), exec (.cacheMode h m) s = .next t ∧ t.mode = s.mode ∧
      t.mgt.transition = true ∧ t.mgt.range = some x ∧ x.op = 7 ∧ x.whole = true ∧ x.hosts = true ∧ x.runId = r.id ∧ t.mgt.running = [r] ∧
      Only { mgt := true, mgtq := true } s t := by
  subst hm
  have hcheck : s.cacheModeCheck 1 = stOK := (State.cacheModeCheck_of_mode (by decide) hlay).trans (if_neg (by simp))
  refine ⟨_, s.runOf h (.cacheMode 1), bypassRange s.mgt.nextId, rfl, ?_⟩
  rw [hi.starts hcheck hcheck rfl (State.cacheModeGo_bypass (s := s.executing h _) hmode) rfl]
  exact ⟨rfl, rfl, rfl, rfl, rfl, rfl, rfl, rfl, rfl⟩

end

/-! ### RANGE_OP -/

section
variable {op fl : BitVec 8} {base len : Word} (hi : Issued s h (.rangeOp op fl base len) e)
include hi

theorem Issued.rangeOp_of_bad (hbad : 5 < op.toNat ∨ 7 < fl.toNat ∨
      fl.getLsbD 0 = false ∧ (base.toNat % 64 ≠ 0 ∨ len.toNat % 64 ≠ 0 ∨ len = 0 ∨ 2 ^ 42 < len.toNat)) :
    ∃ t, exec (.rangeOp h op fl base len) s = .next t ∧ Replied h e 0x0301 9 [] s t ∧ Only { outs := true } s t := by
  have hcheck : rangeOpCheck op fl base len = stBadParam := by
    refine (rangeOpCheck_eq op fl base len).trans (if_neg ?_)
    rintro ⟨hop, hfl, hrange⟩
    rcases hbad with hbad | hbad | ⟨hpart, hbad⟩
    · omega
    · omega
    · rw [hpart, not_rangeFits hbad] at hrange
      exact hrange.elim Bool.false_ne_true Bool.false_ne_true
  exact ⟨_, rfl, hi.badOperand hcheck (.inr rfl)⟩

theorem Issued.rangeOp_starts (hop : op.toNat ≤ 5) (hfl : fl.toNat ≤ 7)
    (hrange : fl.getLsbD 0 = true ∨ base.toNat % 64 = 0 ∧ base.toNat < 2 ^ 57 ∧ len.toNat % 64 = 0 ∧ len ≠ 0 ∧ len.toNat ≤ 2 ^ 42) :
    ∃ (t : State) (r : Run) (x : RangeSt), exec (.rangeOp h op fl base len) s = .next t ∧ t.mgt.range = some x ∧ x.op = op.toNat ∧
      x.whole = fl.getLsbD 0 ∧ x.hosts = fl.getLsbD 1 ∧ x.keep = fl.getLsbD 2 ∧ x.base = base.toNat ∧ x.len = len.toNat ∧ x.ptr = [] ∧
      x.runId = r.id ∧ t.mgt.running = [r] ∧ r.body = .rangeOp op fl base len ∧ t.outs = s.outs ∧ Only { mgt := true, mgtq := true } s t := by
  have hcheck : rangeOpCheck op fl base len = stOK :=
    (rangeOpCheck_eq op fl base len).trans (if_pos ⟨hop, hfl, hrange.imp_right fun ⟨hbase, hlimit, hlen, hne, hmost⟩ =>
      rangeFits_of_lines hbase hlimit hlen hne hmost⟩)
  refine ⟨_, s.runOf h (.rangeOp op fl base len), rangeOf s.mgt.nextId op fl base len, rfl, ?_⟩
  rw [hi.starts hcheck hcheck rfl (State.rangeOpGo_eq (s := s.executing h _) op fl base len) rfl]
  exact ⟨rfl, rfl, rfl, rfl, rfl, rfl, rfl, rfl, rfl, rfl, rfl, rfl, rfl⟩

end

/-! ### UNRETIRE -/

section
variable {sl way : BitVec 8} {set : BitVec 32} {i : Nat} {b : TagBlk} (hi : Issued s h (.unretire sl set way) e)
include hi

theorem Issued.unretire_of_no_slice (hsl : 64 ≤ sl.toNat) (hall : sl ≠ 0xFF) :
    ∃ t, exec (.unretire h sl set way) s = .next t ∧ Replied h e 0x0302 8 [] s t ∧ Only { outs := true } s t :=
  ⟨_, rfl, hi.badOperand (State.unretireCheck_of_no_slice hsl hall) (.inl rfl)⟩

theorem Issued.unretire_of_no_way (hsl : sl = 0xFF ∨ sl.toNat < 64) (hway : 14 < way.toNat) :
    ∃ t, exec (.unretire h sl set way) s = .next t ∧ Replied h e 0x0302 9 [] s t ∧ Only { outs := true } s t :=
  ⟨_, rfl, hi.badOperand ((State.unretireCheck_of_slice hsl).trans (if_neg (by omega))) (.inr rfl)⟩

/-- The one way named of the one set that has a tag block is restored. -/
theorem Issued.unretire_restores (hset : set.toNat = i) (hin : i < s.part.sets) (hworks : s.nearFrozen (sliceOfSet s.part i) = false)
    (hsl : sl.toNat = sliceOfSet s.part i) (h1 : 1 ≤ way.toNat) (hway : way.toNat ≤ 14) (htags : s.mem.tags = [(i, b)])
    (hlen : b.ways.length = 14) (hsound : tagError s.part i b = false) (hflip : s.ras.latent = []) (hce : (s.setRec i).ce.length = 14)
    (htc : (s.slice (sliceOfSet s.part i)).tc = []) (hX : (b.get way.toNat).st = stX) :
    ∃ t, exec (.unretire h sl set way) s = .next t ∧ (t.nearTags i).get way.toNat = {} ∧
      (t.setRec i).retire.getLsbD (way.toNat - 1) = false ∧ (t.setRec i).ce[way.toNat - 1]? = some 0 ∧
      Replied h e 0x0302 0 (leBytes 4 1) s t := by
  have hcheck : s.unretireCheck sl set way = stOK :=
    (State.unretireCheck_of_slice (.inr (hsl ▸ sliceOfSet_lt _ _))).trans (if_pos ⟨.inl (hset ▸ hin), hway⟩)
  have hbare : BareSet (s.executing h (.unretire sl set way)) (sliceOfSet s.part i) i := by
    refine ⟨hworks, htc, rfl, hflip, ?_⟩
    have hblk : s.nearTags i = b := by rw [State.nearTags, htags, Tab.get, if_pos rfl]
    exact hblk ▸ hsound
  obtain ⟨y, hgo, hent, hrec, honly⟩ :=
    hbare.unretireGo rfl htags hset hsl h1 hway hlen hX (s.runOf h (.unretire sl set way)).id
  obtain ⟨hq, hrun⟩ := honly.clerks rfl
  obtain ⟨-, hreply, hrest⟩ := hi.ends hcheck hcheck rfl hgo hrun hq
  have hrec' : (s.mgtReceive h (.unretire sl set way)).setRec i = (s.setRec i).restored way.toNat := (hrest.setRec rfl i).trans hrec
  exact ⟨_, rfl, by rw [hrest.nearTags rfl, hent], by rw [hrec', SetRec.restored_retire], by rw [hrec', SetRec.restored_ce (by omega)],
    hreply.of_outs (honly.outs rfl)⟩

end
end

/-- Settles O53: free clerks answer bad operands and refusals at once (`Issued.badOperand`, `Issued.refused`), leave a range operation to the
slices (`Issued.starts`), and reply what ends at once (`Issued.ends`); UNRETIRE's pass over the ways acts on the one named
(`foldl_range_of_only`), whose record an injection into the tag block just written cannot reach (`State.TagFlips`). -/
theorem cacheManagementCommands : Obligations.CacheManagementCommands :=
  ⟨fun _ _ _ _ hi hlay => ⟨hi.partSetFlat_of_beyond, fun hf hh =>
      ⟨hi.partSetFlat_of_same hlay hf hh, hi.partSetFlat_raise hlay hf hh, hi.partSetFlat_lower hlay hf hh⟩⟩,
   fun _ _ _ _ hi => ⟨hi.cacheMode_of_unknown, hi.cacheMode_sets, hi.cacheMode_hold_refused, hi.cacheMode_bypass⟩,
   fun _ _ _ _ _ _ _ hi => ⟨hi.rangeOp_of_bad, hi.rangeOp_starts⟩,
   fun _ _ _ _ _ _ _ _ hi => ⟨hi.unretire_of_no_slice, hi.unretire_of_no_way, hi.unretire_restores⟩⟩

end Sys2Proof.Machine
end

section
/-! SUPPORT. Reading packets back from slots: what no slot carries, a packet read back does not have. -/

namespace Sys2Proof.Machine

/-- The place of a packet in the router's input buffers (R316) is no part of the wire's format: a packet that is read from slots stands
in none. -/
theorem inp_eq_zero_of_mem_pktsOf (k : Nat) (ss : List (BitVec 128)) : ∀ p ∈ pktsOf k ss, p.inp = 0 := by
  induction k, ss using pktsOf.induct with
  | case1 => simp [pktsOf]
  | case2 => simp [pktsOf]
  | case3 k hdr rest n hlen ih => simpa [pktsOf, n, hlen] using ih
  | case4 k hdr rest n hlen ih =>
    simp only [pktsOf, n, hlen, List.mem_cons, forall_eq_or_imp, Bool.false_eq_true, if_false]
    exact ⟨rfl, ih⟩

/-- A heartbeat whose router still holds it in the input buffer of port 0. `Packet.sound` bounds every other field and says nothing of
`inp`. -/
def bufferedHeartbeat : Packet := { dst := 0, src := 0, vn := 0, inp := 1, body := .heartbeat 0 0 0 }

/-- Refutes O60: the second part quantifies over every `Packet.sound` packet, and `Packet.sound` leaves `inp` free, which no slot
carries; `bufferedHeartbeat` has `inp` 1, and what is read back from its slots has `inp` 0. -/
theorem not_encodingsAgree : ¬ Obligations.EncodingsAgree := by
  rintro ⟨-, hpkts, -⟩
  have hsound : ∀ p ∈ [bufferedHeartbeat], p.sound = true := by decide
  have hmem : bufferedHeartbeat ∈ pktsOf ([bufferedHeartbeat].flatMap pktSlots).length ([bufferedHeartbeat].flatMap pktSlots) := by
    rw [hpkts _ hsound]
    exact List.mem_singleton_self _
  exact absurd (inp_eq_zero_of_mem_pktsOf _ _ _ hmem) (by decide)

end Sys2Proof.Machine
end

section
/-! SUPPORT. What a ledger record and an answer to a host leave alone: what has been sent, and the counts of late answers. -/

namespace Sys2Proof.Machine

@[simp] theorem State.link_modLink_self (s : State) (l : Nat) (f : HLink → HLink) : (s.modLink l f).link l = f (s.link l) :=
  State.link_setLink_self _ _ _
theorem State.link_modLink_ne (s : State) (f : HLink → HLink) {l k : Nat} (hk : k ≠ l) : (s.modLink l f).link k = s.link k :=
  State.link_setLink_ne _ _ _ _ hk

/-! ### What has been sent stays sent -/

theorem State.mem_outs_signal {s : State} {o : Out} (h : o ∈ s.outs) (l v : Nat) : o ∈ (s.signal l v).outs := by
  unfold State.signal
  split
  · exact h
  · split
    · exact h
    · exact List.mem_append_left _ h

theorem State.mem_outs_signalAll {s : State} {o : Out} (h : o ∈ s.outs) (v : Nat) : o ∈ (s.signalAll v).outs :=
  List.foldlRecOn (motive := fun t => o ∈ State.outs t) _ _ h fun _ ht l _ => State.mem_outs_signal ht l v

theorem State.mem_outs_trace {s : State} {o : Out} (h : o ∈ s.outs) (point u code addr node tag detail : Nat) :
    o ∈ (s.trace point u code addr node tag detail).outs := by
  rwa [(State.trace_within s point u code addr node tag detail).only.outs rfl]

theorem State.mem_outs_ringPut {s : State} {o : Out} (h : o ∈ s.outs) (r : LRec) : o ∈ (s.ringPut r).outs := by
  unfold State.ringPut
  extract_lets ras write
  have hwrite : ∀ ring, o ∈ (write ring).outs := by
    intro ring
    dsimp only [write]
    split
    · exact State.mem_outs_signalAll (State.mem_outs_trace (by exact h) _ _ _ _ _ _ _) 2
    · exact State.mem_outs_trace (by exact h) _ _ _ _ _ _ _
  split
  · exact hwrite _
  · split
    · exact hwrite _
    · exact h

theorem State.mem_outs_rec {s : State} {o : Out} (h : o ∈ s.outs) (typ u node addr detail : Nat) :
    o ∈ (s.rec_ typ u node addr detail).outs := by
  unfold State.rec_ State.recPut
  split
  · exact State.mem_outs_ringPut h _
  · split <;> exact h

/-! ### The counts of late answers -/

/-- LATE_RD and LATE_WR of a link (R164). -/
def HLink.late (x : HLink) : Nat × Nat := (x.lateRd, x.lateWr)

theorem Only.late {m : Mask} {s t : State} (h : Only m s t) (hm : m.links = false) (l : Nat) : (t.link l).late = (s.link l).late :=
  show (t.link l).noPba.late = (s.link l).noPba.late from congrArg HLink.late (congrFun (h.links hm) l)

theorem State.modLink_late (s : State) (l k : Nat) {f : HLink → HLink} (hf : ∀ x, (f x).late = x.late) :
    ((s.modLink l f).link k).late = (s.link k).late := by
  rcases eq_or_ne k l with rfl | hk
  · rw [State.link_modLink_self, hf]
  · rw [State.link_modLink_ne s f hk]

theorem State.account_late (s : State) (h : HostReq) (k : Nat) : ((s.account h).link k).late = (s.link k).late := by
  unfold State.account
  split
  · exact State.modLink_late _ _ _ fun _ => rfl
  · split
    · rfl
    · split
      · rw [(State.rec__within _ _ _ _ _ _).only.late rfl, (State.event_within _ _ _ _).only.late rfl, State.modLink_late]
        exact fun _ => rfl
      · split
        · exact State.modLink_late _ _ _ fun _ => rfl
        · rfl

/-! ### Answers to a host -/

section
variable {s : State} {h : HostReq}

theorem State.hostCmp_late (s : State) (h : HostReq) (k : Nat) : ((s.hostCmp h).link k).late = (s.link k).late := by
  unfold State.hostCmp
  split
  · rfl
  · exact State.account_late s h k

theorem State.hostCmp_sends (hmute : h.mute = false) : .cmp h.link h.req.tag ∈ (s.hostCmp h).outs := by
  rw [State.hostCmp, if_neg (by simp [hmute])]
  exact List.mem_append_right _ (List.mem_singleton_self _)

/-- An answer that grants no copy: the line goes out, and no copy is recorded. -/
theorem State.hostData_uncached (hmute : h.mute = false) (d : Line) (poison : Bool) :
    s.hostData h d poison 0 = (s.account h).emit (.memData h.link h.req.tag d poison 0) := by
  simp [State.hostData, hmute]

theorem State.hostData_uncached_late (hmute : h.mute = false) (d : Line) (poison : Bool) (k : Nat) :
    ((s.hostData h d poison 0).link k).late = (s.link k).late := by
  rw [State.hostData_uncached hmute]
  exact State.account_late s h k

theorem State.hostData_uncached_sends (hmute : h.mute = false) (d : Line) (poison : Bool) :
    .memData h.link h.req.tag d poison 0 ∈ (s.hostData h d poison 0).outs := by
  rw [State.hostData_uncached hmute]
  exact List.mem_append_right _ (List.mem_singleton_self _)

end
end Sys2Proof.Machine
end

section
/-! SUPPORT. HOST_DEADLINE (R164): the answer that goes out late, and what becomes of the access. -/

namespace Sys2Proof.Machine

section
variable {s : State} {rid : Nat} {h : HostReq}

theorem State.hreq_rid (hreq : s.hreq rid = some h) : h.rid = rid := by
  simpa using List.find?_some hreq

theorem State.hreqs_mute (s : State) (rid : Nat) : ∀ g ∈ (s.modReq rid fun x => { x with mute := true }).hreqs, g.rid = rid → g.mute = true := by
  intro g hg hrid
  obtain ⟨x, -, rfl⟩ := List.mem_map.1 hg
  by_cases hx : x.rid = rid
  · rw [if_pos (beq_iff_eq.2 hx)]
  · rw [if_neg (by simpa using hx)] at hrid
    exact absurd hrid hx

theorem State.hreqs_hostGone (s : State) (rid : Nat) : ∀ g ∈ (s.hostGone rid).hreqs, g.rid ≠ rid := by
  intro g hg
  simpa using (List.mem_filter.1 hg).2

/-- The counts of late answers once this one is counted. -/
def HLink.countLate (x : HLink) (wr : Bool) : HLink :=
  if wr then { x with lateWr := satAdd 63 x.lateWr 1 } else { x with lateRd := satAdd 63 x.lateRd 1 }

theorem exec_hostDeadline_of_early (hreq : s.hreq rid = some h) (hearly : s.clk - h.t0 < 24000) : exec (.hostDeadline rid) s = .next s := by
  simp [exec, execHostDeadline, hreq, hearly]

/-! ### A read -/

theorem hostDeadline_of_read (hpow : s.powered = true) (hreq : s.hreq rid = some h) (hmute : h.mute = false) (hlate : 24000 ≤ s.clk - h.t0)
    (hop : h.req.op ≠ .write) :
    ∃ t, exec (.hostDeadline rid) s = .next t ∧ .memData h.link h.req.tag Config.poisonLine true 0 ∈ t.outs ∧
      (t.link h.link).lateRd = min 63 ((s.link h.link).lateRd + 1) ∧ (∀ g ∈ t.hreqs, g.rid = rid → h.ph ≠ .acquire ∧ g.mute = true) ∧
      t.slices = s.slices := by
  obtain ⟨x, hx⟩ := named (s.modLink h.link fun x => x.countLate false)
  obtain ⟨y, hy⟩ := named ((x.hostData h Config.poisonLine true 0).rec_ 0xFF (211 + h.link / 2) 0xFFFF h.off 0)
  have hexec : exec (.hostDeadline rid) s =
      .next (if h.ph == .acquire then y.hostGone rid else y.modReq rid fun x => { x with mute := true }) := by
    have hnow : ¬(s.clk - h.t0 < 24000) := by omega
    simp [exec, execHostDeadline, hreq, hpow, hmute, hnow, hop, hy, hx, HLink.countLate]
  have hsends : .memData h.link h.req.tag Config.poisonLine true 0 ∈ y.outs := by
    rw [hy]
    exact State.mem_outs_rec (State.hostData_uncached_sends hmute _ _) _ _ _ _ _
  have hcount : (y.link h.link).late = ((s.link h.link).countLate false).late := by
    rw [hy, (State.rec__within _ _ _ _ _ _).only.late rfl, State.hostData_uncached_late hmute, hx, State.link_modLink_self]
  have hslices : y.slices = s.slices := by
    rw [hy, (State.rec__within _ _ _ _ _ _).only.slices rfl, (State.hostData_within _ _ _ _ _).only.slices rfl, hx]
    rfl
  refine ⟨_, hexec, ?_⟩
  split
  case isTrue =>
    exact ⟨hsends, congrArg Prod.fst hcount, fun g hg hrid => absurd hrid (y.hreqs_hostGone rid g hg), hslices⟩
  case isFalse hph =>
    exact ⟨hsends, congrArg Prod.fst hcount, fun g hg hrid => ⟨fun hc => hph (beq_iff_eq.2 hc), y.hreqs_mute rid g hg hrid⟩, hslices⟩

/-! ### A write -/

/-- A request that is the first of no register leaves its slice alone: nothing goes on behind it. -/
theorem State.sliceDrop_of_no_primary {n : Nat} {src : Src} (hprim : ∀ m ∈ (s.slice n).mrs, m.prim.src ≠ src) :
    s.sliceDrop n src = s.modSlice n fun x =>
      { x with inq := x.inq.filter fun r => r.src != src, mrs := x.mrs.map fun m => { m with secs := m.secs.filter fun q => q.src != src } } := by
  have hnone : ((s.slice n).mrs.map fun m => { m with secs := m.secs.filter fun q => q.src != src }).find? (fun m => m.prim.src == src) = none := by
    simpa [List.find?_eq_none] using hprim
  simp only [State.sliceDrop, State.slice_modSlice_self, hnone]

theorem State.withdraw_late (hprim : ∀ m ∈ (s.slice (s.sliceFor h)).mrs, m.prim.src ≠ .host h.rid) (k : Nat) :
    ((s.withdraw h).link k).late = (s.link k).late := by
  rw [State.withdraw, State.sliceDrop_of_no_primary hprim]
  rfl

theorem State.withdraw_hreqs (s : State) (h : HostReq) : ∀ g ∈ (s.withdraw h).hreqs, g.rid ≠ h.rid :=
  State.hreqs_hostGone _ _

/-- One that its slice has issued stays open, unanswered from now on. -/
theorem hostDeadline_of_issued (hpow : s.powered = true) (hreq : s.hreq rid = some h) (hmute : h.mute = false) (hlate : 24000 ≤ s.clk - h.t0)
    (hop : h.req.op = .write) (hissued : h.issued = true) :
    ∃ t, exec (.hostDeadline rid) s = .next t ∧ .cmp h.link h.req.tag ∈ t.outs ∧
      (t.link h.link).lateWr = min 63 ((s.link h.link).lateWr + 1) ∧ ∀ g ∈ t.hreqs, g.rid = rid → g.mute = true := by
  obtain ⟨x, hx⟩ := named (s.modLink h.link fun x => x.countLate true)
  have hexec : exec (.hostDeadline rid) s =
      .next (((x.hostCmp h).modReq rid fun x => { x with mute := true }).rec_ 0xFF (211 + h.link / 2) 0xFFFF h.off 1) := by
    have hnow : ¬(s.clk - h.t0 < 24000) := by omega
    simp [exec, execHostDeadline, hreq, hpow, hmute, hnow, hop, hissued, hx, HLink.countLate]
  have hrec := (State.rec__within ((x.hostCmp h).modReq rid fun x => { x with mute := true }) 0xFF (211 + h.link / 2) 0xFFFF h.off 1).only
  have hcount : (x.hostCmp h |>.link h.link).late = ((s.link h.link).countLate true).late := by
    rw [State.hostCmp_late, hx, State.link_modLink_self]
  refine ⟨_, hexec, State.mem_outs_rec (s := (x.hostCmp h).modReq _ _) (State.hostCmp_sends hmute) _ _ _ _ _,
    congrArg Prod.snd ((hrec.late rfl _).trans hcount), ?_⟩
  rw [hrec.hreqs rfl]
  exact State.hreqs_mute _ _

/-- One that no slice has issued leaves the machine. -/
theorem hostDeadline_of_unissued (hpow : s.powered = true) (hreq : s.hreq rid = some h) (hmute : h.mute = false) (hlate : 24000 ≤ s.clk - h.t0)
    (hop : h.req.op = .write) (hissued : h.issued = false) :
    ∃ t, exec (.hostDeadline rid) s = .next t ∧ .cmp h.link h.req.tag ∈ t.outs ∧
      ((∀ m ∈ (s.slice (s.sliceFor h)).mrs, m.prim.src ≠ .host rid) → (t.link h.link).lateWr = min 63 ((s.link h.link).lateWr + 1)) ∧
      ∀ g ∈ t.hreqs, g.rid ≠ rid := by
  obtain ⟨x, hx⟩ := named ({ s.modLink h.link fun x => x.countLate true with finds := {} } : State)
  obtain ⟨y, hy⟩ := named ((x.withdraw h).hostCmp h)
  have hexec : exec (.hostDeadline rid) s = .next (State.rec_ { y with finds := s.finds } 0x12 (211 + h.link / 2) 0xFFFF h.off 1) := by
    have hnow : ¬(s.clk - h.t0 < 24000) := by omega
    simp [exec, execHostDeadline, hreq, hpow, hmute, hnow, hop, hissued, hy, hx, HLink.countLate, State.noFinds]
    rfl
  have hrec := (State.rec__within { y with finds := s.finds } 0x12 (211 + h.link / 2) 0xFFFF h.off 1).only
  have hsends : .cmp h.link h.req.tag ∈ y.outs := hy ▸ State.hostCmp_sends hmute
  refine ⟨_, hexec, State.mem_outs_rec (s := { y with finds := s.finds }) hsends _ _ _ _ _, fun hprim => ?_, ?_⟩
  · have hcount : (y.link h.link).late = ((s.link h.link).countLate true).late := by
      rw [hy, State.hostCmp_late, State.withdraw_late, hx]
      · exact congrArg HLink.late (State.link_modLink_self s h.link fun x => x.countLate true)
      · rw [hx, State.hreq_rid hreq]; exact hprim
    exact congrArg Prod.snd ((hrec.late rfl _).trans hcount)
  · rw [hrec.hreqs rfl]
    have hgone : y.hreqs = (x.withdraw h).hreqs := by rw [hy]; exact (State.hostCmp_within _ _).only.hreqs rfl
    rw [show ({ y with finds := s.finds } : State).hreqs = y.hreqs from rfl, hgone, ← State.hreq_rid hreq]
    exact State.withdraw_hreqs _ _

end
end Sys2Proof.Machine
end

section
/-! SUPPORT. The answers and timeouts of back-invalidations of flat lines (R144, R166, R168). -/

namespace Sys2Proof.Machine

/-- A command that meets nothing to do leaves nothing but the counts of what the codes correct. -/
theorem State.finding_of_id {s : State} {fd : Finds} {go : State → State} (hgo : go (s.atWork fd) = s.atWork fd) :
    s.finding fd go = s.noted fd := by
  rw [State.finding_eq, hgo, ← (s.noted_within fd).only.finds rfl]
  rfl

theorem Only.bisnpList {m : Mask} {s t : State} (h : Only m s t) (hm : m.bisnps = false) : t.bisnps = s.bisnps :=
  congrArg Prod.fst (h.bisnps hm)

theorem Only.powered {m : Mask} {s t : State} (h : Only m s t) (hm : m.pcr = false) : t.powered = s.powered := by
  rw [State.powered, State.powered, h.pcr hm]

/-! ### Sending back-invalidations -/

section
variable {s : State} {key : Nat} {flat inv : Bool} {w : BiWait}

theorem State.sendBi_bisnps (s : State) (key : Nat) (flat : Bool) (c : HsfCopy) (inv : Bool) (w : BiWait) :
    (∃ x ∈ s.bisnps, (x.key = key ∧ x.flat = flat ∧ x.of c = true) ∧ (s.sendBi key flat c inv w).bisnps = s.bisnps) ∨
    ∃ x : BiSnp, (x.key = key ∧ x.flat = flat ∧ x.of c = true) ∧ x.inv = inv ∧ (s.sendBi key flat c inv w).bisnps = s.bisnps ++ [x] := by
  unfold State.sendBi
  split
  case isTrue hout =>
    obtain ⟨x, hx, hsame⟩ := List.any_eq_true.1 hout
    simp only [Bool.and_eq_true, beq_iff_eq] at hsame
    exact .inl ⟨x, hx, ⟨hsame.1.1, hsame.1.2, hsame.2⟩, rfl⟩
  case isFalse => exact .inr ⟨_, ⟨rfl, rfl, by simp [BiSnp.of]⟩, rfl, rfl⟩

/-- Every back-invalidation out for the line is of kind `inv`. -/
def State.BisnpsOfKind (s : State) (key : Nat) (flat inv : Bool) : Prop := ∀ x ∈ s.bisnps, x.key = key → x.flat = flat → x.inv = inv

theorem State.BisnpsOfKind.sendBi (h : s.BisnpsOfKind key flat inv) (c : HsfCopy) : (s.sendBi key flat c inv w).BisnpsOfKind key flat inv := by
  rcases s.sendBi_bisnps key flat c inv w with ⟨_, _, _, hsame⟩ | ⟨x, -, hinv, hmore⟩
  · rwa [State.BisnpsOfKind, hsame]
  · rw [State.BisnpsOfKind, hmore]
    intro y hy
    rcases List.mem_append.1 hy with hy | hy
    · exact h y hy
    · rw [List.mem_singleton.1 hy]
      exact fun _ _ => hinv

/-- A back-invalidation is out for each copy of the list, and what was out before is out still. -/
theorem State.sendBis_covers (w : BiWait) (l : List HsfCopy) {s : State} (h : s.BisnpsOfKind key flat inv) :
    s.bisnps ⊆ (l.foldl (fun s c => s.sendBi key flat c inv w) s).bisnps ∧
    ∀ c ∈ l, ∃ x ∈ (l.foldl (fun s c => s.sendBi key flat c inv w) s).bisnps, x.key = key ∧ x.flat = flat ∧ x.inv = inv ∧ x.of c = true := by
  induction l generalizing s with
  | nil => exact ⟨List.Subset.refl _, fun c hc => absurd hc (List.not_mem_nil)⟩
  | cons a l ih =>
    obtain ⟨hsub, hcover⟩ := ih (h.sendBi (w := w) a)
    have hfirst : s.bisnps ⊆ (s.sendBi key flat a inv w).bisnps ∧
        ∃ x ∈ (s.sendBi key flat a inv w).bisnps, x.key = key ∧ x.flat = flat ∧ x.inv = inv ∧ x.of a = true := by
      rcases s.sendBi_bisnps key flat a inv w with ⟨x, hx, ⟨hkey, hflat, hof⟩, hsame⟩ | ⟨x, ⟨hkey, hflat, hof⟩, hinv, hmore⟩
      · exact ⟨hsame ▸ List.Subset.refl _, x, hsame ▸ hx, hkey, hflat, h x hx hkey hflat, hof⟩
      · exact ⟨hmore ▸ List.subset_append_left _ _, x, hmore ▸ List.mem_append_right _ (List.mem_singleton_self _), hkey, hflat, hinv, hof⟩
    obtain ⟨hkept, x, hx, hof⟩ := hfirst
    refine ⟨List.Subset.trans hkept hsub, fun c hc => ?_⟩
    rcases List.mem_cons.1 hc with rfl | hc
    · exact ⟨x, hsub hx, hof⟩
    · exact hcover c hc

theorem State.recall_covers {pick : HsfCopy → Bool} (h : s.BisnpsOfKind key flat inv) :
    ∀ c ∈ s.hsfCopies key flat, pick c = true →
      ∃ x ∈ (s.recall key flat inv pick w).bisnps, x.key = key ∧ x.flat = flat ∧ x.inv = inv ∧ x.of c = true :=
  fun c hc hpick => (State.sendBis_covers w _ h).2 c (List.mem_filter.2 ⟨hc, hpick⟩)

end

/-! ### What the end of a back-invalidation leaves of the copies -/

/-- What the answer to `b` makes of the copies of its line. -/
def BiSnp.after (b : BiSnp) (cs : List HsfCopy) : List HsfCopy :=
  if b.inv then cs.filter fun c => !b.of c else cs.map fun c => if b.of c then { c with em := false } else c

theorem BiSnp.of_after {b : BiSnp} {cs : List HsfCopy} : ∀ c ∈ b.after cs, b.of c = true → b.inv = false ∧ c.em = false := by
  intro c hc hof
  unfold BiSnp.after at hc
  split at hc
  case isTrue => simp [hof] at hc
  case isFalse hinv =>
    obtain ⟨x, -, rfl⟩ := List.mem_map.1 hc
    refine ⟨by simpa using hinv, ?_⟩
    by_cases hx : b.of x = true
    · rw [if_pos hx]
    · rw [if_neg hx] at hof
      exact absurd hof hx

theorem State.modCopies_hsf (s : State) (key : Nat) (flat : Bool) (f : List HsfCopy → List HsfCopy) :
    (s.modCopies key flat f).hsf =
      (s.hsf.map fun e => if e.key == key && e.flat == flat then { e with copies := f e.copies } else e).filter fun e => !e.copies.isEmpty := by
  simp only [State.modCopies, (State.hsfWrite_within s key).only.hsf rfl]

/-- An entry after a change of one line's copies: that line's, changed, or one that stood before. -/
theorem State.mem_modCopies {s : State} {key : Nat} {flat : Bool} {f : List HsfCopy → List HsfCopy} {e : HsfEnt}
    (he : e ∈ (s.modCopies key flat f).hsf) :
    (e.key = key ∧ e.flat = flat ∧ ∃ cs, e.copies = f cs) ∨ ¬(e.key = key ∧ e.flat = flat) ∧ e ∈ s.hsf := by
  rw [State.modCopies_hsf] at he
  obtain ⟨x, hx, rfl⟩ := List.mem_map.1 (List.mem_filter.1 he).1
  by_cases hline : x.key = key ∧ x.flat = flat
  · rw [if_pos (by simpa using hline)]
    exact .inl ⟨hline.1, hline.2, _, rfl⟩
  · rw [if_neg (by simpa using hline)]
    exact .inr ⟨hline, hx⟩

section
variable {s : State} {b : BiSnp} {d : Option (Line × Bool)}

/-- The end of a back-invalidation, before whatever it had kept waiting goes on. -/
def State.biAnswered (s : State) (b : BiSnp) (d : Option (Line × Bool)) : State :=
  let s := (({ s with bisnps := s.bisnps.filter fun x => x.id != b.id } : State).roundEnd b.key b.flat).modCopies b.key b.flat b.after
  match d with
  | some (x, p) => if b.wait == .drop then s else s.mergeDirty b.key b.flat x p
  | none => s

/-- Nothing of this E9 waits for a flat line's round but the host requests that try again of their own: only data to be dropped calls for
one more recall. -/
theorem State.biDone_of_flat (hflat : b.flat = true) : s.biDone b d =
    if b.wait == .drop && !b.inv then (s.biAnswered b d).recall b.key b.flat true b.of .drop else s.biAnswered b d := by
  unfold State.biDone
  rw [if_pos hflat]
  rfl

theorem State.biAnswered_only (hflat : b.flat = true) : Only { free := true, chans := true, near := true, memIo := true, flip := true, events := true }
    ((({ s with bisnps := s.bisnps.filter fun x => x.id != b.id } : State).roundEnd b.key b.flat).modCopies b.key b.flat b.after)
    (s.biAnswered b d) := by
  unfold State.biAnswered
  split
  · split
    · exact Only.refl _ _
    · rw [hflat, State.mergeDirty, if_pos rfl]
      exact (State.flatPut_within _ _ _ _).only
  · exact Only.refl _ _

theorem State.biAnswered_bisnps (hflat : b.flat = true) : (s.biAnswered b d).bisnps = s.bisnps.filter fun x => x.id != b.id := by
  rw [(State.biAnswered_only hflat).bisnpList rfl, (State.modCopies_within _ _ _ _).only.bisnpList rfl,
    (State.roundEnd_within _ _ _).only.bisnpList rfl]

theorem State.biAnswered_hsf (hflat : b.flat = true) : ∀ e ∈ (s.biAnswered b d).hsf,
    (e.key = b.key ∧ e.flat = true ∧ ∃ cs, e.copies = b.after cs) ∨ ¬(e.key = b.key ∧ e.flat = true) ∧ e ∈ s.hsf := by
  intro e he
  rw [(State.biAnswered_only hflat).hsf rfl] at he
  have hround : (({ s with bisnps := s.bisnps.filter fun x => x.id != b.id } : State).roundEnd b.key b.flat).hsf = s.hsf :=
    (State.roundEnd_within _ _ _).only.hsf rfl
  have hcases := State.mem_modCopies he
  rwa [hround, hflat] at hcases

theorem State.recall_hsf (s : State) (key : Nat) (flat inv : Bool) (pick : HsfCopy → Bool) (w : BiWait) :
    (s.recall key flat inv pick w).hsf = s.hsf := (State.recall_within _ _ _ _ _ _).only.hsf rfl

theorem State.biDone_hsf (hflat : b.flat = true) : (s.biDone b d).hsf = (s.biAnswered b d).hsf := by
  rw [State.biDone_of_flat hflat]
  split
  · exact State.recall_hsf _ _ _ _ _ _
  · rfl

theorem State.biDone_copies (hflat : b.flat = true) :
    ∀ e ∈ (s.biDone b d).hsf, e.key = b.key → e.flat = true → ∀ c ∈ e.copies, b.of c = true → b.inv = false ∧ c.em = false := by
  intro e he hkey hf c hc hof
  rw [State.biDone_hsf hflat] at he
  rcases State.biAnswered_hsf hflat e he with ⟨-, -, cs, hcs⟩ | ⟨hno, -⟩
  · exact BiSnp.of_after c (hcs ▸ hc) hof
  · exact absurd ⟨hkey, hf⟩ hno

theorem State.biDone_others (hflat : b.flat = true) : ∀ e ∈ (s.biDone b d).hsf, e.key ≠ b.key ∨ e.flat = false → e ∈ s.hsf := by
  intro e he hother
  rw [State.biDone_hsf hflat] at he
  rcases State.biAnswered_hsf hflat e he with ⟨hkey, hf, -⟩ | ⟨-, hold⟩
  · rcases hother with h | h
    · exact absurd hkey h
    · exact absurd (hf.symm.trans h) (by decide)
  · exact hold

theorem State.biDone_ends (hflat : b.flat = true) (hdrop : b.wait ≠ .drop ∨ b.inv = true) :
    (s.biDone b d).bisnps = s.bisnps.filter fun x => x.id != b.id := by
  rw [State.biDone_of_flat hflat, if_neg (by rcases hdrop with h | h <;> simp [h]), State.biAnswered_bisnps hflat]

/-- Where data was to be dropped and the copy stays in S, it is recalled to I. -/
theorem State.biDone_recalls (hflat : b.flat = true) (hdrop : b.wait = .drop) (hinv : b.inv = false)
    (halone : ∀ x ∈ s.bisnps, x.key = b.key → x.flat = true → x.id = b.id) :
    ∀ c ∈ (s.biDone b d).hsfCopies b.key true, b.of c = true →
      ∃ x ∈ (s.biDone b d).bisnps, x.key = b.key ∧ x.flat = true ∧ x.inv = true ∧ x.of c = true := by
  have hgo : s.biDone b d = (s.biAnswered b d).recall b.key true true b.of .drop := by
    rw [State.biDone_of_flat hflat, if_pos (by simp [hdrop, hinv]), hflat]
  have hnone : (s.biAnswered b d).BisnpsOfKind b.key true true := by
    intro x hx hkey hf
    rw [State.biAnswered_bisnps hflat] at hx
    obtain ⟨hx, hid⟩ := List.mem_filter.1 hx
    simp [halone x hx hkey hf] at hid
  intro c hc hof
  rw [hgo] at hc ⊢
  rw [State.hsfCopies, State.recall_hsf] at hc
  exact State.recall_covers hnone c hc hof

end

/-! ### The commands -/

section
variable {s : State} {id : Nat} {b : BiSnp}

theorem exec_birsp_of_unknown (d : Option (Line × Bool)) (fd : Finds) (hb : s.bisnps.find? (fun x => x.id == id) = none) :
    exec (.birsp id d fd) s = .next (s.noted fd) := by
  refine congrArg Host.Outcome.next (State.finding_of_id ?_)
  rw [(s.atWork_only fd).bisnpList rfl, hb]

theorem exec_birsp_of_known (d : Option (Line × Bool)) (fd : Finds) (hpow : s.powered = true)
    (hb : s.bisnps.find? (fun x => x.id == id) = some b) :
    exec (.birsp id d fd) s = .next { (s.atWork fd).biDone b d with finds := s.finds } := by
  have hpow' : (s.atWork fd).powered = true := ((s.atWork_only fd).powered rfl).trans hpow
  rw [exec, execBirsp, State.finding_eq, (s.atWork_only fd).bisnpList rfl, hb]
  simp only [hpow', if_true]

theorem birsp_of_known (d : Option (Line × Bool)) (fd : Finds) (hpow : s.powered = true)
    (hb : s.bisnps.find? (fun x => x.id == id) = some b) (hflat : b.flat = true) :
    ∃ t, exec (.birsp id d fd) s = .next t ∧ (b.wait ≠ .drop ∨ b.inv = true → t.bisnps = s.bisnps.filter (fun x => x.id != b.id)) ∧
      (b.wait = .drop → b.inv = false → (∀ x ∈ s.bisnps, x.key = b.key → x.flat = true → x.id = b.id) →
        ∀ c ∈ t.hsfCopies b.key true, b.of c = true → ∃ x ∈ t.bisnps, x.key = b.key ∧ x.flat = true ∧ x.inv = true ∧ x.of c = true) ∧
      (∀ e ∈ t.hsf, e.key = b.key → e.flat = true → ∀ c ∈ e.copies, b.of c = true → b.inv = false ∧ c.em = false) ∧
      (∀ e ∈ t.hsf, e.key ≠ b.key ∨ e.flat = false → e ∈ s.hsf) := by
  have hbis := (s.atWork_only fd).bisnpList rfl
  have hhsf := (s.atWork_only fd).hsf rfl
  exact ⟨_, exec_birsp_of_known d fd hpow hb, fun hdrop => (State.biDone_ends hflat hdrop).trans (by rw [hbis]),
    fun hdrop hinv halone => State.biDone_recalls hflat hdrop hinv (by rwa [hbis]), State.biDone_copies hflat,
    hhsf ▸ State.biDone_others hflat⟩

theorem exec_bisnpTimeout_of_early (fd : Finds) (hb : s.bisnps.find? (fun x => x.id == id) = some b) (hearly : s.clk - b.t0 < 24000) :
    exec (.bisnpTimeout id fd) s = .next (s.noted fd) := by
  refine congrArg Host.Outcome.next (State.finding_of_id ?_)
  rw [(s.atWork_only fd).bisnpList rfl, hb]
  simp [(s.atWork_only fd).clk rfl, hearly]

/-- A timeout ends the recall as an answer that leaves the host without its copy; data that the host may have held is lost. -/
def BiSnp.expired (b : BiSnp) : BiSnp := { b with inv := true }

theorem exec_bisnpTimeout_of_late (fd : Finds) (hpow : s.powered = true) (hb : s.bisnps.find? (fun x => x.id == id) = some b)
    (hlate : 24000 ≤ s.clk - b.t0) :
    exec (.bisnpTimeout id fd) s = .next { (((s.atWork fd).biDone b.expired (if b.em then some (Config.poisonLine, true) else none)).rec_
      0xFF 152 0xFFFF (64 * b.key) b.link) with finds := s.finds } := by
  have hpow' : (s.atWork fd).powered = true := ((s.atWork_only fd).powered rfl).trans hpow
  have hnow : ¬(s.clk - b.t0 < 24000) := by omega
  rw [exec, execBisnpTimeout, State.finding_eq, (s.atWork_only fd).bisnpList rfl, hb]
  simp only [hpow', (s.atWork_only fd).clk rfl, hnow, Bool.not_true, decide_false, Bool.or_self, Bool.false_eq_true, if_false]
  rfl

theorem bisnpTimeout_of_late (fd : Finds) (hpow : s.powered = true) (hb : s.bisnps.find? (fun x => x.id == id) = some b)
    (hflat : b.flat = true) (hlate : 24000 ≤ s.clk - b.t0) :
    ∃ t, exec (.bisnpTimeout id fd) s = .next t ∧ t.bisnps = s.bisnps.filter (fun x => x.id != b.id) ∧
      (∀ e ∈ t.hsf, e.key = b.key → e.flat = true → ∀ c ∈ e.copies, b.of c = false) ∧
      (∀ e ∈ t.hsf, e.key ≠ b.key ∨ e.flat = false → e ∈ s.hsf) := by
  refine ⟨_, exec_bisnpTimeout_of_late fd hpow hb hlate, ?_⟩
  obtain ⟨y, hy⟩ := named ((s.atWork fd).biDone b.expired (if b.em then some (Config.poisonLine, true) else none))
  have hrec := (State.rec__within y 0xFF 152 0xFFFF (64 * b.key) b.link).only
  have hf : b.expired.flat = true := hflat
  have hends : y.bisnps = (s.atWork fd).bisnps.filter fun z => z.id != b.id := by
    rw [hy]
    exact State.biDone_ends hf (.inr rfl)
  have hcopies := State.biDone_copies (s := s.atWork fd) (d := if b.em then some (Config.poisonLine, true) else none) hf
  have hothers := State.biDone_others (s := s.atWork fd) (d := if b.em then some (Config.poisonLine, true) else none) hf
  rw [← hy, ← hrec.hsf rfl] at hcopies hothers
  rw [(s.atWork_only fd).hsf rfl] at hothers
  rw [← hy]
  refine ⟨?_, fun e he hkey he' c hc => ?_, hothers⟩
  · exact (hrec.bisnpList rfl).trans (by rw [hends, (s.atWork_only fd).bisnpList rfl])
  · by_contra hof
    exact absurd (hcopies e he hkey he' c hc (show b.of c = true by simpa using hof)).1 (by simp [BiSnp.expired])

end
end Sys2Proof.Machine
end

section
/-! SUPPORT. CREDIT_RETURN (R160): what a link returns in a clock, and what holds it back. -/

namespace Sys2Proof.Machine

section
variable {s : State} {l : Nat}

/-- A slice has more open demand requests than the port's gate lets pass. -/
def State.overGate (s : State) (l : Nat) : Bool := (List.range 64).any fun n => s.sliceGate (l / 2) ≤ (s.slice n).demand

/-- A lull, where MT is not locked, or a guard or lull, where it is, keeps credits back. -/
def State.creditsHeld (s : State) : Bool := if s.locked then s.inPause else s.mtu.inLull

theorem HLink.setCr_reqCr (x : HLink) {a b : Nat} (ha : a < 64) : (x.setCr a b).reqCr = a := by
  simp only [HLink.setCr, HLink.reqCr, Tmr.val_of, BitVec.toNat_ofNat]
  omega

theorem HLink.setCr_rwdCr (x : HLink) {a b : Nat} (ha : a < 64) (hb : b < 64) : (x.setCr a b).rwdCr = b := by
  simp only [HLink.setCr, HLink.rwdCr, Tmr.val_of, BitVec.toNat_ofNat]
  omega

theorem exec_creditReturn_of_held (h : s.overGate l = true ∨ s.creditsHeld = true ∨ (s.link l).creditClk = s.clk + 1) :
    exec (.creditReturn l) s = .next s := by
  have hstays : (!s.linkOn l || s.overGate l || s.creditsHeld || (s.link l).creditClk == s.clk + 1) = true := by
    rcases h with h | h | h <;> simp [h]
  exact congrArg Host.Outcome.next (if_pos hstays)

/-- What a return gives back of the two classes. -/
def State.creditsBack (s : State) (l : Nat) : Nat × Nat :=
  (if (s.link l).reqCr < s.floatOf l (s.reqFloat (l / 2)) then 1 else 0, if (s.link l).rwdCr < s.floatOf l (s.rwdFloat (l / 2)) then 1 else 0)

/-- A change of a link that keeps its pending array is seen nowhere else. -/
theorem State.setLink_of_pba {x : HLink} (h : x.pba = (s.link l).pba) : Only { links := true } s (s.setLink l x) := by
  apply Only.of
  case h_pba =>
    right
    funext k
    by_cases hk : k = l
    · rw [hk]
      exact (congrArg HLink.pba (State.link_setLink_self s l x)).trans h
    · exact congrArg HLink.pba (State.link_setLink_ne s l k x hk)
  all_goals first | exact .inl rfl | exact .inr rfl | rfl

/-- The link after a return: the credits that went out, and the clock in which no more follow. -/
def State.creditedLink (s : State) (l : Nat) : HLink :=
  { (s.link l).setCr ((s.link l).reqCr + (s.creditsBack l).1) ((s.link l).rwdCr + (s.creditsBack l).2) with creditClk := s.clk + 1 }

/-- A return: the credits go out. -/
def State.credited (s : State) (l : Nat) : State :=
  { s.setLink l (s.creditedLink l) with
    outs := s.outs ++ (if (s.link l).reqCr < s.floatOf l (s.reqFloat (l / 2)) then [.credit l false] else []) ++
      (if (s.link l).rwdCr < s.floatOf l (s.rwdFloat (l / 2)) then [.credit l true] else []) }

theorem exec_creditReturn_of_free (hon : s.linkOn l = true) (hgate : s.overGate l = false) (hheld : s.creditsHeld = false)
    (hclk : (s.link l).creditClk ≠ s.clk + 1) : exec (.creditReturn l) s = .next (s.credited l) := by
  have hgoes : ¬(!s.linkOn l || s.overGate l || s.creditsHeld || (s.link l).creditClk == s.clk + 1) = true := by
    simp [hon, hgate, hheld, hclk]
  refine congrArg Host.Outcome.next ((if_neg hgoes).trans ?_)
  unfold State.credited State.creditedLink State.creditsBack
  by_cases hreq : (s.link l).reqCr < s.floatOf l (s.reqFloat (l / 2)) <;> by_cases hrwd : (s.link l).rwdCr < s.floatOf l (s.rwdFloat (l / 2)) <;>
    simp [hreq, hrwd, State.emit]
  rfl

theorem creditReturn_of_free (hon : s.linkOn l = true) (hreq : (s.link l).reqCr ≤ 48) (hrwd : (s.link l).rwdCr ≤ 32)
    (hgate : s.overGate l = false) (hheld : s.creditsHeld = false) (hclk : (s.link l).creditClk ≠ s.clk + 1) :
    ∃ t, exec (.creditReturn l) s = .next t ∧ (∀ k, k ≠ l → t.link k = s.link k) ∧ Only { links := true, outs := true } s t ∧
      (t.link l).reqCr = (s.link l).reqCr + (if (s.link l).reqCr < s.floatOf l (s.reqFloat (l / 2)) then 1 else 0) ∧
      (t.link l).rwdCr = (s.link l).rwdCr + (if (s.link l).rwdCr < s.floatOf l (s.rwdFloat (l / 2)) then 1 else 0) ∧
      t.outs = s.outs ++ (if (s.link l).reqCr < s.floatOf l (s.reqFloat (l / 2)) then [.credit l false] else []) ++
        (if (s.link l).rwdCr < s.floatOf l (s.rwdFloat (l / 2)) then [.credit l true] else []) ∧ exec (.creditReturn l) t = .next t := by
  have hlink : (s.credited l).link l = s.creditedLink l := State.link_setLink_self _ _ _
  have hreq' : (s.link l).reqCr + (s.creditsBack l).1 < 64 := by simp only [State.creditsBack]; split <;> omega
  have hrwd' : (s.link l).rwdCr + (s.creditsBack l).2 < 64 := by simp only [State.creditsBack]; split <;> omega
  refine ⟨_, exec_creditReturn_of_free hon hgate hheld hclk, fun k hk => State.link_setLink_ne _ _ _ _ hk, ?_, ?_, ?_, rfl, ?_⟩
  · exact ((State.setLink_of_pba (x := s.creditedLink l) rfl).mono rfl).trans rfl
  · exact (congrArg HLink.reqCr hlink).trans (HLink.setCr_reqCr (s.link l) (b := (s.link l).rwdCr + (s.creditsBack l).2) hreq')
  · exact (congrArg HLink.rwdCr hlink).trans (HLink.setCr_rwdCr (s.link l) hreq' hrwd')
  · exact exec_creditReturn_of_held (.inr (.inr (congrArg HLink.creditClk hlink)))

end

/-- Settles O12: a late access is answered by `hostCmp` or `hostData` before it is muted or withdrawn; a flat line's back-invalidation ends
in `State.biAnswered`, after which only data to be dropped calls for another; a credit return marks its clock. -/
theorem hostDeadlineAndAnswers : Obligations.HostDeadlineAndAnswers := by
  refine ⟨fun s rid h hpow hreq hmute hlate hop => hostDeadline_of_read hpow hreq hmute hlate hop, ?_,
    fun s rid h hreq hearly => exec_hostDeadline_of_early hreq hearly, fun s id b d fd hpow hb hflat => birsp_of_known d fd hpow hb hflat,
    fun s id d fd hb => exec_birsp_of_unknown d fd hb, fun s id b fd hpow hb hflat hlate => bisnpTimeout_of_late fd hpow hb hflat hlate,
    fun s id b fd hb hearly => exec_bisnpTimeout_of_early fd hb hearly, fun s l hon hreq hrwd => ⟨?_, ?_⟩⟩
  · intro s rid h hpow hreq hmute hlate hop
    cases hissued : h.issued with
    | true =>
      obtain ⟨t, hexec, hsends, hcount, hmuted⟩ := hostDeadline_of_issued hpow hreq hmute hlate hop hissued
      exact ⟨t, hexec, hsends, fun _ => hcount, fun g hg hrid => ⟨rfl, hmuted g hg hrid⟩⟩
    | false =>
      obtain ⟨t, hexec, hsends, hcount, hgone⟩ := hostDeadline_of_unissued hpow hreq hmute hlate hop hissued
      exact ⟨t, hexec, hsends, fun h => hcount (h.resolve_left (by decide)), fun g hg hrid => absurd hrid (hgone g hg)⟩
  · intro hgate hheld hclk
    exact creditReturn_of_free hon hreq hrwd (by simpa [State.overGate] using hgate) hheld hclk
  · intro h
    refine exec_creditReturn_of_held ?_
    rcases h with ⟨n, hn, hgate⟩ | ⟨hlull, hlock⟩ | ⟨hpause, hlock⟩ | hclk
    · exact .inl (List.any_eq_true.2 ⟨n, List.mem_range.2 hn, by simpa using hgate⟩)
    · exact .inr (.inl (by simp [State.creditsHeld, hlull, hlock]))
    · exact .inr (.inl (by simp [State.creditsHeld, hpause, hlock]))
    · exact .inr (.inr hclk)

end Sys2Proof.Machine
end

section
/-! SUPPORT. What a write of the house space leaves of near memory's data ways and tag blocks (R29, R390). -/

namespace Sys2Proof.Machine

/-- The data ways and tag blocks of near memory hold in `t` what they hold in `s`. -/
structure SameSlots (s t : State) : Prop where
  near : t.mem.near = s.mem.near
  tags : t.mem.tags = s.mem.tags

section
variable {s t u : State}

theorem SameSlots.refl (s : State) : SameSlots s s := ⟨rfl, rfl⟩

theorem SameSlots.trans (h : SameSlots s t) (k : SameSlots t u) : SameSlots s u := ⟨k.near.trans h.near, k.tags.trans h.tags⟩

theorem SameSlots.of_only {m : Mask} (h : Only m s t) (hm : m.near = false) : SameSlots s t := ⟨h.memNear hm, h.memTags hm⟩

theorem SameSlots.of_ways {n : Nat} (h : KeepsWays n s t) : SameSlots s t := ⟨h.near, h.tags⟩

theorem SameSlots.ite {c : Prop} [Decidable c] (h : SameSlots s t) (k : SameSlots s u) : SameSlots s (if c then t else u) := by
  split <;> assumption

theorem SameSlots.foldl {α : Type} {f : State → α → State} (hf : ∀ x a, SameSlots x (f x a)) (l : List α) (s : State) :
    SameSlots s (l.foldl f s) :=
  List.foldlRecOn (motive := fun x => SameSlots s x) l f (.refl s) fun x hx a _ => hx.trans (hf x a)

theorem SameSlots.setCunit (s : State) (c u : Nat) (x : CUnit) : SameSlots s (s.setCunit c u x) := .of_only (s.setCunit_within c u x).only rfl

theorem SameSlots.chanEnq (s : State) (c u : Nat) (r : ChReq) : SameSlots s (s.chanEnq c u r) := .of_only (s.chanEnq_within c u r).only rfl

/-- An entry that leaves the merge buffer may count an error or poison its word, and no more. -/
theorem SameSlots.houseOut (s : State) (c u : Nat) (m : MergeEnt) : SameSlots s (s.houseOut c u m) := by
  have hwrite (x : State) (r : ChReq) : SameSlots x ((x.flipNear c m.addr).chanEnq c u r) :=
    .trans (.of_only (x.flipNear_within c m.addr).only rfl) (.chanEnq _ c u r)
  unfold State.houseOut
  extract_lets x row k r y
  have hy : SameSlots s y := .setCunit s c u _
  split
  · exact hy.trans (hwrite y r)
  · split
    next n set _ =>
      split
      next e z hz =>
        have hread : SameSlots y z := by
          have hword := SameSlots.of_ways (.wordErr (y.chanEnq c u { r with wr := false }) n set k)
          rw [hz] at hword
          exact .trans (.chanEnq y c u _) hword
        refine hy.trans (hread.trans (.trans (.ite (.refl z) ?_) (hwrite _ r)))
        exact .trans (.of_only (State.ueData_within z _ _ _ _).only rfl) ⟨rfl, rfl⟩

theorem SameSlots.houseMerge (s : State) (hla : Nat) (be : BitVec 64) : SameSlots s (s.houseMerge hla be) := by
  unfold State.houseMerge
  split
  split
  · exact .refl s
  · split
    · exact .ite (.houseOut _ _ _ _) (.setCunit _ _ _ _)
    · refine .trans (.ite (.refl s) ?_) (.setCunit _ _ _ _)
      split
      · exact .houseOut _ _ _ _
      · exact .refl s

/-- A bank's changed entries are written to the house space. -/
theorem SameSlots.setBank (s : State) (b : Nat) (x : Bank) : SameSlots s (s.setBank b x) :=
  ((SameSlots.foldl (fun y _ => .of_only (y.flipDone_within _ _ _).only rfl) _ s).trans
    (.foldl (fun y _ => .houseMerge y _ _) _ _)).trans ⟨rfl, rfl⟩

end
end Sys2Proof.Machine
end

section
/-! SUPPORT. REPAIR_STATUS (R497, Table 21.3): the repair registers and counts, byte by byte. -/

namespace Sys2Proof.Machine

/-! ### Bytes of a number -/

@[simp] theorem length_leBytes (n v : Nat) : (leBytes n v).length = n := by
  induction n generalizing v with
  | zero => rfl
  | succ n ih => simp [leBytes, ih]

theorem drop_leBytes (k n v : Nat) : (leBytes n v).drop k = leBytes (n - k) (v / 256 ^ k) := by
  induction k generalizing n v with
  | zero => simp
  | succ k ih =>
    cases n with
    | zero => simp [leBytes]
    | succ n =>
      rw [leBytes, List.drop_succ_cons, ih, Nat.div_div_eq_div_mul, Nat.add_sub_add_right, Nat.pow_succ']

/-- The first bytes are those of the number's low part. -/
theorem take_leBytes {k n : Nat} (hk : k ≤ n) (v : Nat) : (leBytes n v).take k = leBytes k (v % 256 ^ k) := by
  induction k generalizing n v with
  | zero => rfl
  | succ k ih =>
    obtain ⟨m, rfl⟩ : ∃ m, n = m + 1 := ⟨n - 1, by omega⟩
    have hlow : v % 256 ^ (k + 1) / 256 = v / 256 % 256 ^ k := by rw [Nat.pow_succ', Nat.mod_mul_right_div_self]
    have hbyte : BitVec.ofNat 8 v = BitVec.ofNat 8 (v % 256 ^ (k + 1)) := by
      refine BitVec.eq_of_toNat_eq ?_
      rw [BitVec.toNat_ofNat, BitVec.toNat_ofNat]
      exact (Nat.mod_mod_of_dvd _ (Dvd.intro_left (256 ^ k) rfl)).symm
    rw [leBytes, leBytes, List.take_succ_cons, ih (by omega), hlow, hbyte]

/-! ### The repair registers -/

/-- The number whose digits to the base 2^64 are the first `n` of `d`. -/
def wordSum (d : Nat → Word) (n : Nat) : Nat := (List.range n).foldl (fun a u => a + (d u).toNat * 2 ^ (64 * u)) 0

theorem wordSum_succ (d : Nat → Word) (n : Nat) : wordSum d (n + 1) = wordSum d n + (d n).toNat * 2 ^ (64 * n) := by
  simp [wordSum, List.range_succ]

theorem wordSum_lt (d : Nat → Word) (n : Nat) : wordSum d n < 2 ^ (64 * n) := by
  induction n with
  | zero => simp [wordSum]
  | succ n ih =>
    have hd : ((d n).toNat + 1) * 2 ^ (64 * n) ≤ 2 ^ 64 * 2 ^ (64 * n) := Nat.mul_le_mul_right _ (d n).isLt
    rw [wordSum_succ, Nat.mul_succ, Nat.add_comm (64 * n), Nat.pow_add]
    rw [Nat.add_mul] at hd
    omega

/-- Digit `u` of the sum. -/
theorem wordSum_digit (d : Nat → Word) {n u : Nat} (hu : u < n) : wordSum d n / 2 ^ (64 * u) % 2 ^ 64 = (d u).toNat := by
  induction n with
  | zero => exact absurd hu (Nat.not_lt_zero u)
  | succ n ih =>
    rw [wordSum_succ]
    rcases Nat.lt_succ_iff_lt_or_eq.1 hu with hlt | rfl
    · obtain ⟨k, rfl⟩ : ∃ k, n = u + 1 + k := ⟨n - (u + 1), by omega⟩
      have hhigh : (d (u + 1 + k)).toNat * 2 ^ (64 * (u + 1 + k)) = 2 ^ (64 * u) * (2 ^ 64 * ((d (u + 1 + k)).toNat * 2 ^ (64 * k))) := by
        rw [Nat.mul_add, Nat.mul_add, Nat.pow_add, Nat.pow_add]
        ring
      rw [hhigh, Nat.add_mul_div_left _ _ (Nat.two_pow_pos _), Nat.add_mul_mod_self_left]
      exact ih (by omega)
    · rw [Nat.add_mul_div_right _ _ (Nat.two_pow_pos _), Nat.div_eq_of_lt (wordSum_lt d u), Nat.zero_add]
      exact Nat.mod_eq_of_lt (d u).isLt

/-! ### The reply -/

section
variable (s : State)

theorem State.rprBits_eq : s.rprBits = wordSum s.tapRpr 217 := rfl

/-- HARD_PPR and SOFT_PPR of subchannel `i`, each up to 255. -/
def State.pprBytes (i : Nat) : List Byte :=
  [BitVec.ofNat 8 (min 255 (Tab.get 0 s.mem.hardPpr i)), BitVec.ofNat 8 (min 255 (Tab.get 0 s.mem.softPpr i))]

theorem State.repairBytes_eq : s.repairBytes = leBytes 1736 s.rprBits ++ (List.range 16).flatMap s.pprBytes := rfl

theorem State.length_repairBytes : s.repairBytes.length = 1768 := by
  rw [State.repairBytes_eq, List.length_append, length_leBytes]
  rfl

theorem State.repairBytes_register {u : Nat} (hu : u < 217) : (s.repairBytes.drop (8 * u)).take 8 = leBytes 8 (s.tapRpr u).toNat := by
  have hpow : (256 : Nat) ^ (8 * u) = 2 ^ (64 * u) := by
    rw [show (256 : Nat) = 2 ^ 8 from rfl, ← Nat.pow_mul, ← Nat.mul_assoc]
  rw [State.repairBytes_eq, List.drop_append_of_le_length (by rw [length_leBytes]; omega),
    List.take_append_of_le_length (by rw [List.length_drop, length_leBytes]; omega), drop_leBytes, take_leBytes (by omega), hpow,
    State.rprBits_eq, show (256 : Nat) ^ 8 = 2 ^ 64 from rfl, wordSum_digit _ hu]

theorem getElem?_flatMap_pair {α β : Type} (f : α → List β) (hf : ∀ a, (f a).length = 2) (l : List α) {i j : Nat} (hj : j < 2) :
    (l.flatMap f)[2 * i + j]? = l[i]?.bind fun a => (f a)[j]? := by
  induction l generalizing i with
  | nil => simp
  | cons a l ih =>
    rw [List.flatMap_cons]
    cases i with
    | zero => rw [List.getElem?_append_left (by rw [hf]; omega)]; simp
    | succ i =>
      rw [List.getElem?_append_right (by rw [hf]; omega), hf, show 2 * (i + 1) + j - 2 = 2 * i + j by omega, ih, List.getElem?_cons_succ]

theorem State.repairBytes_count {i : Nat} (hi : i < 16) :
    s.repairBytes[1736 + 2 * i]? = some (BitVec.ofNat 8 (min 255 (Tab.get 0 s.mem.hardPpr i))) ∧
      s.repairBytes[1737 + 2 * i]? = some (BitVec.ofNat 8 (min 255 (Tab.get 0 s.mem.softPpr i))) := by
  have hat (j : Nat) (hj : j < 2) : s.repairBytes[1736 + (2 * i + j)]? = (s.pprBytes i)[j]? := by
    rw [State.repairBytes_eq, List.getElem?_append_right (by rw [length_leBytes]; omega), length_leBytes, Nat.add_sub_cancel_left,
      getElem?_flatMap_pair s.pprBytes (fun _ => rfl) _ hj, List.getElem?_range hi]
    rfl
  exact ⟨hat 0 (by omega), (congrArg (s.repairBytes[·]?) (by omega)).trans (hat 1 (by omega))⟩

end

theorem Issued.repairStatus {s : State} {h : CmdHdr} {e : Nat} (hi : Issued s h .repairStatus e) :
    ∃ t, exec (.repairStatus h) s = .next t ∧ Replied h e 0x0F02 0 s.repairBytes s t ∧
      Only { mgtq := true, outs := true, events := true } s t := by
  obtain ⟨hend, hreply, -⟩ := hi.ends (y := s.executing h .repairStatus) (payload := s.repairBytes) rfl rfl rfl rfl rfl rfl
  exact ⟨_, rfl, hreply, hi.ends_only hend rfl (Only.refl _ _) rfl rfl⟩

end Sys2Proof.Machine
end

section
/-! SUPPORT. BIST_RUN (R496) when it comes to free clerks: its refusals, and the tests that start. -/

namespace Sys2Proof.Machine

section
variable {s : State} {h : CmdHdr} {e : Nat} {g i p : BitVec 8}

/-! ### Its checks -/

theorem State.bistCheck_of_absent (hc : g = 2 ∧ s.part.nmcs ≤ i.toNat ∨ g = 3 ∧ 8 ≤ i.toNat) : s.bistCheck g i p = stInvalidInstance := by
  have hinst : s.bistInst g i = stInvalidInstance := by
    rcases hc with ⟨rfl, hi⟩ | ⟨rfl, hi⟩ <;> simp [State.bistInst, hi]
  simp [State.bistCheck, hinst, stOK, stInvalidInstance]

theorem State.bistInst_of_present (h2 : g = 2 → i.toNat < s.part.nmcs) (h3 : g = 3 → i.toNat < 8) : s.bistInst g i = stOK := by
  refine if_neg ?_
  simp only [Bool.or_eq_true, Bool.and_eq_true, beq_iff_eq, decide_eq_true_eq]
  rintro (⟨hg, hi⟩ | ⟨hg, hi⟩)
  · exact absurd (h2 hg) (by omega)
  · exact absurd (h3 hg) (by omega)

/-- Step 9 of R433: TARGET and PATTERN are known. -/
def bistKnown (g p : BitVec 8) : Bool := 1 ≤ g.toNat && g.toNat ≤ 3 && decide (p.toNat < 3)

/-- What R496 asks of the state before the arrays, a near channel, or a far one is tested. -/
def State.bistAllowed (s : State) (g i : BitVec 8) : Bool :=
  if g == 1 then s.boot.level == 0 && s.boot.paused && s.boot.step == 2 && s.boot.stopAt == 0 && !s.boot.fwRom
  else if g == 2 then s.devState == 2 && (s.dom.st == 0 || s.dom.st == 3)
  else (s.chan (64 + i.toNat)).frozen || (s.mode == 2 && !s.mgt.transition)

theorem State.bistCheck_of_present (h2 : g = 2 → i.toNat < s.part.nmcs) (h3 : g = 3 → i.toNat < 8) :
    s.bistCheck g i p = if bistKnown g p then if s.bistAllowed g i then stOK else stRefused else stBadParam := by
  have hpast : (s.bistInst g i != stOK) = false := by rw [State.bistInst_of_present h2 h3]; rfl
  have hknown : (!(decide (1 ≤ g.toNat) && decide (g.toNat ≤ 3)) || decide (3 ≤ p.toNat)) = !bistKnown g p := by
    simp [bistKnown, Bool.not_and, ← decide_not]
  rw [State.bistCheck, hpast, hknown]
  cases bistKnown g p <;> rfl

theorem State.bistCheck_of_unknown (hc : g = 0 ∨ 3 < g.toNat ∨ g = 1 ∧ 3 ≤ p.toNat) : s.bistCheck g i p = stBadParam := by
  have hother : g ≠ 2 ∧ g ≠ 3 := by constructor <;> rintro rfl <;> simp at hc
  rw [State.bistCheck_of_present (fun hg => absurd hg hother.1) fun hg => absurd hg hother.2]
  refine if_neg ?_
  rcases hc with rfl | hg | ⟨rfl, hp⟩
  · exact Bool.false_ne_true
  · simp [bistKnown, Nat.not_le.2 hg]
  · simp [bistKnown, hp]

theorem State.bistCheck_of_known (hp : p.toNat < 3) (hg : g = 1 ∨ g = 2 ∧ i.toNat < s.part.nmcs ∨ g = 3 ∧ i.toNat < 8) :
    s.bistCheck g i p = if s.bistAllowed g i then stOK else stRefused := by
  rw [State.bistCheck_of_present (by rintro rfl; simpa using hg) (by rintro rfl; simpa using hg)]
  exact if_pos (by rcases hg with rfl | ⟨rfl, -⟩ | ⟨rfl, -⟩ <;> simp [bistKnown, hp])

theorem State.bistAllowed_arrays : s.bistAllowed 1 i = true ↔
    s.boot.level = 0 ∧ s.boot.paused = true ∧ s.boot.step = 2 ∧ s.boot.stopAt = 0 ∧ s.boot.fwRom = false := by
  simp [State.bistAllowed, and_assoc]

theorem State.bistAllowed_near : s.bistAllowed 2 i = true ↔ s.devState = 2 ∧ (s.dom.st = 0 ∨ s.dom.st = 3) := by
  simp [State.bistAllowed]

theorem State.bistAllowed_far : s.bistAllowed 3 i = true ↔ (s.chan (64 + i.toNat)).frozen = true ∨ s.mode = 2 ∧ s.mgt.transition = false := by
  simp [State.bistAllowed]

theorem State.not_bistAllowed
    (hc : g = 1 ∧ (s.boot.level ≠ 0 ∨ s.boot.paused = false ∨ s.boot.step ≠ 2 ∨ s.boot.stopAt ≠ 0) ∨
      g = 2 ∧ i.toNat < s.part.nmcs ∧ (s.devState ≠ 2 ∨ s.dom.st = 1 ∨ s.dom.st = 2) ∨
      g = 3 ∧ i.toNat < 8 ∧ (s.chan (64 + i.toNat)).frozen = false ∧ s.mode ≠ 2) : ¬s.bistAllowed g i = true := by
  rcases hc with ⟨rfl, hno⟩ | ⟨rfl, -, hno⟩ | ⟨rfl, -, hfrozen, hmode⟩
  · rw [State.bistAllowed_arrays]
    rintro ⟨hlevel, hpaused, hstep, hstop, -⟩
    rcases hno with hno | hno | hno | hno
    · exact hno hlevel
    · exact Bool.false_ne_true (hno.symm.trans hpaused)
    · exact hno hstep
    · exact hno hstop
  · rw [State.bistAllowed_near]
    omega
  · rw [State.bistAllowed_far, hfrozen]
    exact fun h => h.elim Bool.false_ne_true fun h => hmode h.1

/-! ### Its effect -/

/-- The test under way is named. -/
def State.bistNamed (s : State) (id : Nat) (g i : BitVec 8) : State := { s with mgt := { s.mgt with bist := some (id, g.toNat, i.toNat) } }

/-- A channel goes out of service for its test. -/
def State.underTest (s : State) (c : Nat) : State := s.setChan c { s.chan c with bist := true }

theorem State.underTest_only (s : State) (c : Nat) : Only { chans := true } s (s.underTest c) := (State.setChan_within _ _ _).only

theorem State.bistClean_of_no_tags (htags : s.mem.tags = []) (c : Nat) : s.bistClean c = s := by
  rw [State.bistClean, htags]
  rfl

/-! ### Its refusals -/

variable (hi : Issued s h (.bistRun g i p) e)
include hi

theorem Issued.bistRun_of_absent (hc : g = 2 ∧ s.part.nmcs ≤ i.toNat ∨ g = 3 ∧ 8 ≤ i.toNat) :
    ∃ t, exec (.bistRun h g i p) s = .next t ∧ Replied h e 0x0F01 8 [] s t ∧ Only { outs := true } s t :=
  ⟨_, rfl, hi.badOperand (State.bistCheck_of_absent hc) (.inl rfl)⟩

theorem Issued.bistRun_of_unknown (hc : g = 0 ∨ 3 < g.toNat ∨ g = 1 ∧ 3 ≤ p.toNat) :
    ∃ t, exec (.bistRun h g i p) s = .next t ∧ Replied h e 0x0F01 9 [] s t ∧ Only { outs := true } s t :=
  ⟨_, rfl, hi.badOperand (State.bistCheck_of_unknown hc) (.inr rfl)⟩

theorem Issued.bistRun_refused (hp : p.toNat < 3)
    (hc : g = 1 ∧ (s.boot.level ≠ 0 ∨ s.boot.paused = false ∨ s.boot.step ≠ 2 ∨ s.boot.stopAt ≠ 0) ∨
      g = 2 ∧ i.toNat < s.part.nmcs ∧ (s.devState ≠ 2 ∨ s.dom.st = 1 ∨ s.dom.st = 2) ∨
      g = 3 ∧ i.toNat < 8 ∧ (s.chan (64 + i.toNat)).frozen = false ∧ s.mode ≠ 2) :
    ∃ t, exec (.bistRun h g i p) s = .next t ∧ Replied h e 0x0F01 11 [] s t ∧ Only { mgtq := true, outs := true, events := true } s t := by
  have hcheck : s.bistCheck g i p = stRefused := by
    rw [State.bistCheck_of_known hp (hc.imp And.left (Or.imp (fun hc => ⟨hc.1, hc.2.1⟩) fun hc => ⟨hc.1, hc.2.1⟩)), if_neg (State.not_bistAllowed hc)]
  exact ⟨_, rfl, hi.refused hcheck hcheck (by decide) (by decide) rfl⟩

/-! ### The tests that start -/

theorem Issued.bistRun_arrays (hp : p.toNat < 3) (hg : g = 1) (hlevel : s.boot.level = 0) (hpaused : s.boot.paused = true)
    (hstep : s.boot.step = 2) (hstop : s.boot.stopAt = 0) (hrom : s.boot.fwRom = false) :
    ∃ (t : State) (r : Run), exec (.bistRun h g i p) s = .next t ∧ t.mgt.bist = some (r.id, 1, i.toNat) ∧ t.mgt.running = [r] ∧
      r.body = .bistRun g i p ∧ t.outs = s.outs ∧ Only { mgt := true, mgtq := true } s t := by
  subst hg
  have hcheck : s.bistCheck 1 i p = stOK := by
    rw [State.bistCheck_of_known hp (.inl rfl), if_pos (State.bistAllowed_arrays.2 ⟨hlevel, hpaused, hstep, hstop, hrom⟩)]
  refine ⟨_, s.runOf h (.bistRun 1 i p), rfl, ?_⟩
  rw [hi.starts (g := { (s.executing h (.bistRun 1 i p)).mgt with bist := some (s.mgt.nextId, 1, i.toNat) }) hcheck hcheck rfl rfl rfl]
  exact ⟨rfl, rfl, rfl, rfl, rfl⟩

/-- A test that nothing speaks against starts where `State.bistGo` leads. -/
theorem Issued.bistRun_starts (hcheck : s.bistCheck g i p = stOK) (m : Mask)
    (hgo : Only m ((s.executing h (.bistRun g i p)).bistNamed s.mgt.nextId g i) ((s.executing h (.bistRun g i p)).bistGo s.mgt.nextId g i))
    (hm : m.mgtq = false) (hmgt : m.mgt = false) :
    ∃ t, exec (.bistRun h g i p) s = .next t ∧ t.mgt.bist = some (s.mgt.nextId, g.toNat, i.toNat) ∧ t.mgt.running = [s.runOf h (.bistRun g i p)] ∧
      t = { (s.executing h (.bistRun g i p)).bistGo s.mgt.nextId g i with finds := s.finds } := by
  obtain ⟨hqueue, hrunning⟩ := hgo.clerks hm
  exact ⟨_, congrArg Host.Outcome.next (hi.takesEffect hcheck hcheck rfl hqueue), congrArg (fun x => x.2.2.2.1) (hgo.mgt hmgt), hrunning, rfl⟩

theorem Issued.bistRun_near (hp : p.toNat < 3) (hg : g = 2) (hpresent : i.toNat < s.part.nmcs) (hdev : s.devState = 2)
    (hdom : s.dom.st = 0 ∨ s.dom.st = 3) :
    ∃ (t : State) (r : Run), exec (.bistRun h g i p) s = .next t ∧ t.mgt.bist = some (r.id, 2, i.toNat) ∧ t.mgt.running = [r] ∧
      (t.chan i.toNat).bist = true ∧ (s.mem.tags = [] → t.outs = s.outs ∧ Only { mgt := true, mgtq := true, chans := true } s t) := by
  subst hg
  have hcheck : s.bistCheck 2 i p = stOK := by
    rw [State.bistCheck_of_known hp (.inr (.inl ⟨rfl, hpresent⟩)), if_pos (State.bistAllowed_near.2 ⟨hdev, hdom⟩)]
  obtain ⟨t, hexec, hbist, hrunning, rfl⟩ := hi.bistRun_starts hcheck _
    ((State.bistClean_within ((s.executing h (.bistRun 2 i p)).bistNamed s.mgt.nextId 2 i) i.toNat).only.trans
      ((State.underTest_only _ i.toNat).mono rfl)) rfl rfl
  refine ⟨_, _, hexec, hbist, hrunning, congrArg Chan.bist (State.chan_setChan_self _ _ _), fun htags => ?_⟩
  have hgo : (s.executing h (.bistRun 2 i p)).bistGo s.mgt.nextId 2 i =
      ((s.executing h (.bistRun 2 i p)).bistNamed s.mgt.nextId 2 i).underTest i.toNat :=
    congrArg (State.underTest · i.toNat) (State.bistClean_of_no_tags (s := (s.executing h (.bistRun 2 i p)).bistNamed s.mgt.nextId 2 i) htags i.toNat)
  rw [hgo]
  exact ⟨rfl, Only.of_executing (h := h) (b := .bistRun 2 i p) (Only.trans (t := (s.executing h (.bistRun 2 i p)).bistNamed s.mgt.nextId 2 i) rfl
    ((State.underTest_only _ i.toNat).mono rfl)) rfl⟩

theorem Issued.bistRun_far (hp : p.toNat < 3) (hg : g = 3) (hpresent : i.toNat < 8) (hfrozen : (s.chan (64 + i.toNat)).frozen = true) :
    ∃ (t : State) (r : Run), exec (.bistRun h g i p) s = .next t ∧ t.mgt.bist = some (r.id, 3, i.toNat) ∧ t.mgt.running = [r] ∧
      t.chan (64 + i.toNat) = { s.chan (64 + i.toNat) with bist := true } ∧
      (∀ k, k ≠ 64 + i.toNat → t.chan k = s.chan k) ∧ t.outs = s.outs ∧ Only { mgt := true, mgtq := true, chans := true } s t := by
  subst hg
  have hcheck : s.bistCheck 3 i p = stOK := by
    rw [State.bistCheck_of_known hp (.inr (.inr ⟨rfl, hpresent⟩)), if_pos (State.bistAllowed_far.2 (.inl hfrozen))]
  have htest := State.underTest_only ((s.executing h (.bistRun 3 i p)).bistNamed s.mgt.nextId 3 i) (64 + i.toNat)
  obtain ⟨t, hexec, hbist, hrunning, rfl⟩ := hi.bistRun_starts hcheck _ htest rfl rfl
  refine ⟨_, _, hexec, hbist, hrunning, State.chan_setChan_self _ _ _, fun k hk => State.chan_setChan_ne _ _ _ _ hk, rfl, ?_⟩
  exact Only.of_executing (h := h) (b := .bistRun 3 i p) (Only.trans (t := (s.executing h (.bistRun 3 i p)).bistNamed s.mgt.nextId 3 i) rfl
    (htest.mono rfl)) rfl

end
end Sys2Proof.Machine
end

section
/-! SUPPORT. BIST_COMPLETE (R496): what the test of a far channel, a near channel and the arrays leaves, and its reply. -/

namespace Sys2Proof.Machine

theorem Tab.get_drop {α : Type} (d : α) (t : Tab α) (p : Nat → Bool) (k : Nat) : Tab.get d (Tab.drop t p) k = if p k then d else Tab.get d t k := by
  rw [Tab.drop, Tab.get_filter d t (fun k => !p k)]
  cases p k <;> rfl

/-! ### A far channel -/

section
variable {s : State} {k fails : Nat}

/-- A far channel's memory as its test leaves it: every line is zero, and known to be. -/
def State.farZeroed (s : State) (k : Nat) : State :=
  { s with mem := { s.mem with
    far := Tab.drop s.mem.far fun a => farCh (a / 64) == k
    farPoison := Tab.drop s.mem.farPoison fun lo => farCh lo == k
    farZero := s.mem.farZero ||| BitVec.ofNat 8 (2 ^ k) } }

theorem State.bistFarDone_only (s : State) (k fails : Nat) :
    Only { trcCfg := true, irq := true, chans := true, pba := true, ledger := true, events := true, trc := true, outs := true }
      (s.farZeroed k) (s.bistFarDone k fails) :=
  ((State.rec__within _ _ _ _ _ _).only.mono rfl).trans ((State.setChan_within _ _ _).only.mono rfl)

theorem State.bistFarDone_bist (s : State) (k fails : Nat) : ((s.bistFarDone k fails).chan (64 + k)).bist = false :=
  congrArg Chan.bist (State.chan_setChan_self _ _ _)

theorem State.farZeroed_far (s : State) (k a : Nat) :
    Memory.read8 (s.farZeroed k).mem.far a = if farCh (a / 64) = k then 0 else Memory.read8 s.mem.far a := by
  simp only [Memory.read8, State.farZeroed, Tab.get_drop, beq_iff_eq]

theorem State.farZeroed_farPoison (s : State) {k lo : Nat} (hlo : farCh lo = k) : Tab.get false (s.farZeroed k).mem.farPoison lo = false := by
  simp only [State.farZeroed, Tab.get_drop, hlo, beq_self_eq_true, if_true]

theorem State.farZeroed_known (s : State) {k lo : Nat} (hk : k < 8) (hlo : farCh lo = k) : (s.farZeroed k).farKnown lo = true := by
  have hbit : (BitVec.ofNat 8 (2 ^ k)).getLsbD k = true := by
    rw [BitVec.getLsbD_ofNat, Nat.testBit_two_pow_self, decide_eq_true hk, Bool.and_self]
  simp only [State.farKnown, State.farZeroed, hlo, BitVec.getLsbD_or, hbit, Bool.or_true]

end

/-! ### A near channel -/

section
variable {s : State} {c : Nat}

/-- A write of a whole line of the house space keeps what the slots hold. -/
theorem State.houseAccess_write_only (s : State) (hla : Nat) :
    Only { free := true, chans := true, memIo := true, flip := true, events := true } s (s.houseAccess hla true) := by
  unfold State.houseAccess
  split
  next n c u a _ =>
    split
    · exact Only.refl _ _
    · refine Only.trans ?_ (State.nearAccess_within _ _ _ _ _).only
      split
      · rw [if_pos rfl]
        exact (State.setCunit_within _ _ _ _).only.mono rfl
      · exact Only.refl _ _

/-- What the count of lost pages may change. -/
def lostMask : Mask :=
  { free := true, chans := true, far := true, memIo := true, flip := true, trcCfg := true, irq := true, pba := true, ledger := true, events := true,
    trc := true, outs := true }

theorem State.zmap_only (s : State) (z : Tab Bool) : Only { far := true } s { s with mem := { s.mem with zmap := z } } := rfl

theorem State.zmapLost_only (s : State) (z : Nat) : Only lostMask s (s.zmapLost z) :=
  (((State.zmap_only s _).mono rfl).trans ((State.houseAccess_write_only _ z).mono rfl)).trans
    ((State.rec__within _ 0x0A 216 0xFFFF (z * 2 ^ 21) z).only.mono rfl)

/-- A near channel's memory as its test leaves it. -/
def State.nearZeroed (s : State) (c : Nat) : State :=
  { s.sweepChan c with mem := { (s.sweepChan c).mem with
    near := Tab.drop (s.sweepChan c).mem.near fun a => (s.sweepChan c).ofChan c (a / 1024)
    nearPoison := Tab.drop (s.sweepChan c).mem.nearPoison fun k => (s.sweepChan c).ofChan c (k / 16) } }

theorem State.nearZeroed_only (s : State) (c : Nat) : Only { slices := true, near := true } s (s.nearZeroed c) :=
  (State.sweepChan_within s c).only.trans rfl

theorem State.foldl_modSlice_near (f : Slice → Slice) (l : List Nat) (s : State) : (l.foldl (fun s n => s.modSlice n f) s).mem.near = s.mem.near :=
  List.foldlRecOn (motive := fun (x : State) => x.mem.near = s.mem.near) l _ rfl fun _ hx _ _ => hx

theorem State.sweepChan_near (s : State) (c : Nat) : (s.sweepChan c).mem.near = s.mem.near := (State.foldl_modSlice_near _ _ _).trans rfl

theorem State.nearZeroed_near (s : State) (c a : Nat) :
    Memory.read8 (s.nearZeroed c).mem.near a = if s.ofChan c (a / 1024) then 0 else Memory.read8 s.mem.near a := by
  have hpart : (s.sweepChan c).part = s.part := (State.sweepChan_within s c).only.part
  simp only [Memory.read8, State.nearZeroed, Tab.get_drop, State.sweepChan_near, State.ofChan, hpart]
  rfl

/-- A directory bank as the test of a near channel leaves it. -/
def State.bankCleared (s : State) (b : Nat) : State := s.setBank b { s.bank b with store := [], dc := [], recalls := [], lost := false }

theorem State.bank_foldl_bankCleared (l : List Nat) (s : State) {b : Nat} (hb : b ∈ l ∨ (s.bank b).store = [] ∧ (s.bank b).dc = []) :
    ((l.foldl State.bankCleared s).bank b).store = [] ∧ ((l.foldl State.bankCleared s).bank b).dc = [] := by
  induction l generalizing s with
  | nil => exact hb.resolve_left List.not_mem_nil
  | cons a l ih =>
    refine ih _ ?_
    by_cases hab : b = a
    · right
      simp [hab, State.bankCleared, State.bank_setBank]
    · have hsame : (s.bankCleared a).bank b = s.bank b := (State.bank_setBank _ _ _ _).trans (if_neg hab)
      rw [hsame]
      exact hb.imp_left fun hb => (List.mem_cons.1 hb).resolve_left hab

theorem Only.foldl {α : Type} {m : Mask} {f : State → α → State} (hf : ∀ x a, Only m x (f x a)) (l : List α) (s : State) : Only m s (l.foldl f s) :=
  List.foldlRecOn (motive := fun x => Only m s x) l f (Only.refl m s) fun x hx a _ => hx.trans (hf x a)

/-- The pool, the queue table and the directory store are made anew, and the pages `zs` are counted as lost. -/
def State.memoryRebuilt (s : State) (zs : List Nat) : State := (List.range 16).foldl State.bankCleared (zs.foldl State.zmapLost s.poolInit)

theorem State.memoryRebuilt_near (s : State) (zs : List Nat) : (s.memoryRebuilt zs).mem.near = s.mem.near := by
  have hpages : SameSlots s.poolInit (zs.foldl State.zmapLost s.poolInit) := .foldl (fun x z => .of_only (x.zmapLost_only z) rfl) zs _
  have hbanks : SameSlots (zs.foldl State.zmapLost s.poolInit) (s.memoryRebuilt zs) :=
    .foldl (f := State.bankCleared) (fun x b => .setBank x b _) (List.range 16) _
  exact hbanks.near.trans (hpages.near.trans (s.poolInit_within.only.memNear rfl))

theorem State.memoryRebuilt_bank (s : State) (zs : List Nat) {b : Nat} (hb : b < 16) :
    ((s.memoryRebuilt zs).bank b).store = [] ∧ ((s.memoryRebuilt zs).bank b).dc = [] :=
  State.bank_foldl_bankCleared _ _ (.inl (List.mem_range.2 hb))

/-- The pages whose zero-map lines stood in a near channel. -/
def State.pagesOf (s : State) (c : Nat) : List Nat :=
  (List.range (s.farBytes / 2 ^ 21)).filter fun z => s.ofChan c (houseSlot s.part s.houseWays z).1

/-- The record of the flat lines that a near channel lost. -/
def State.flatLost (s : State) (c : Nat) : State :=
  if s.flatWays * (s.part.sets / s.part.nmcs) == 0 then s else s.rec_ 0xFF (64 + c) 0xFFFF 0 (s.flatWays * (s.part.sets / s.part.nmcs))

theorem State.flatLost_only (s : State) (c : Nat) :
    Only { trcCfg := true, irq := true, pba := true, ledger := true, events := true, trc := true, outs := true } s (s.flatLost c) := by
  unfold State.flatLost
  split
  · exact Only.refl _ _
  · exact (State.rec__within _ _ _ _ _ _).only

/-- A near channel's memory, rebuilt, with the record of what was lost. -/
def State.nearRenewed (s : State) (c : Nat) : State := ((s.nearZeroed c).memoryRebuilt ((s.nearZeroed c).pagesOf c)).flatLost c

theorem State.bistNearDone_eq (s : State) (c : Nat) :
    s.bistNearDone c = (s.nearRenewed c).setChan c { (s.nearRenewed c).chan c with bist := false } := rfl

theorem State.bistNearDone_near (s : State) (c : Nat) : (s.bistNearDone c).mem.near = (s.nearZeroed c).mem.near :=
  ((State.flatLost_only ((s.nearZeroed c).memoryRebuilt ((s.nearZeroed c).pagesOf c)) c).memNear rfl).trans (State.memoryRebuilt_near _ _)

theorem State.bistNearDone_bank (s : State) (c : Nat) {b : Nat} (hb : b < 16) :
    ((s.bistNearDone c).bank b).store = [] ∧ ((s.bistNearDone c).bank b).dc = [] := by
  have hbanks : (s.nearRenewed c).bank b = ((s.nearZeroed c).memoryRebuilt ((s.nearZeroed c).pagesOf c)).bank b := by
    rw [State.nearRenewed, State.bank, (State.flatLost_only _ c).banks rfl]
    rfl
  have hlast : (s.bistNearDone c).bank b = (s.nearRenewed c).bank b := by
    rw [State.bistNearDone_eq]
    rfl
  rw [hlast, hbanks]
  exact State.memoryRebuilt_bank _ _ hb

/-- What the end of a near channel's test may change. -/
def nearDoneMask : Mask :=
  { free := true, due := true, trcCfg := true, irq := true, slices := true, banks := true, chans := true, far := true, near := true, memIo := true,
    pba := true, pors := true, qmg := true, ledger := true, bkt := true, flip := true, events := true, trc := true, outs := true }

theorem State.noFinds_bistNearDone_only (s : State) (c : Nat) : Only nearDoneMask s (s.noFinds fun s => s.bistNearDone c) :=
  (State.noFinds_within (m := nearDoneMask) (Within.refl _ s) fun y => State.bistNearDone_within y c).only

theorem State.bistNearDone_bist (s : State) (c : Nat) : ((s.bistNearDone c).chan c).bist = false :=
  congrArg Chan.bist (State.chan_setChan_self _ _ _)

end

/-! ### The arrays -/

section
variable {s : State} {u f : Nat} {lost : Bool}

theorem State.bistRepair_one (s : State) (u f : Nat) (lost : Bool) :
    Tab.get 0 (s.bistRepair [(u, f, lost)]).tap.soft u = Tab.get 0 s.tap.soft u + min f ((Config.sparesLeft u).toNat - Tab.get 0 s.tap.soft u) ∧
      Tab.get false (s.bistRepair [(u, f, lost)]).tap.unrep u =
        (Tab.get false s.tap.unrep u || lost || decide ((Config.sparesLeft u).toNat - Tab.get 0 s.tap.soft u < f)) := by
  obtain ⟨k, hk⟩ := named ((Config.sparesLeft u).toNat - Tab.get 0 s.tap.soft u)
  have hshort : decide (min f k < f) = decide (k < f) := by simp
  simp only [State.bistRepair, List.foldl_cons, List.foldl_nil, ← hk, hshort]
  refine ⟨Tab.get_put_self _ _ _ _, ?_⟩
  cases hfail : lost || decide (k < f) with
  | true => rw [if_pos rfl, Bool.or_assoc, hfail, Bool.or_true]; exact Tab.get_put_self _ _ _ _
  | false => rw [if_neg Bool.false_ne_true, Bool.or_assoc, hfail, Bool.or_false]

end

/-! ### The command -/

section
variable {s : State} {x : Run} {e res n first k : Nat} {as : List (Nat × Nat × Bool)}

/-- The reply to the command that ordered a test. -/
def bistReply (res n first : Nat) : List Byte := leBytes 1 res ++ leBytes 4 n ++ leBytes 8 first

/-- The clerks' record of the test under way is cleared. -/
def State.bistOver (s : State) : State := { s with mgt := { s.mgt with bist := none } }

theorem exec_bistComplete_of_none (hb : s.mgt.bist = none) : exec (.bistComplete res n first as) s = .next s := by
  refine congrArg Host.Outcome.next ?_
  rw [hb]

/-- The end of a test: what it leaves, `y`, and the reply to the only command that runs. -/
theorem bistComplete_of_end {target : Nat} {y : State} {m : Mask} (hpow : s.powered = true) (hrun : s.mgt.running = [x]) (hq : s.mgt.queue = [])
    (hvia : x.hdr.via = .mctp e) (hb : s.mgt.bist = some (x.id, target, k))
    (hy : (if target == 1 then s.bistOver.bistRepair as else if target == 2 then s.bistOver.noFinds fun s => s.bistNearDone k
      else s.bistOver.bistFarDone k n) = y)
    (honly : Only m s.bistOver y) (hm : m.mgtq = false) (hmgt : m.mgt = false) :
    ∃ t, exec (.bistComplete res n first as) s = .next t ∧ t.mgt.bist = none ∧ Replied x.hdr e (cmdOpc x.body) 0 (bistReply res n first) y t ∧
      Only { mgtq := true, outs := true, events := true } y t := by
  obtain ⟨hqueue, hrunning⟩ := honly.clerks hm
  have hbist : y.mgt.bist = none := congrArg (fun x => x.2.2.2.1) (honly.mgt hmgt)
  have hend := State.cmdEnd_only (hrunning.trans hrun) hvia stOK (bistReply res n first)
  refine ⟨y.cmdEnd x.id stOK (bistReply res n first), congrArg Host.Outcome.next ?_, ?_,
    State.cmdEnd_replied (hrunning.trans hrun) (hqueue.trans hq) hvia _ _, hend⟩
  · rw [hb]
    simp only [hpow, Bool.not_true, Bool.false_eq_true, if_false]
    rw [← hy]
    rfl
  · exact (congrArg (fun x => x.2.2.2.1) (hend.mgt rfl)).trans hbist

variable (hpow : s.powered = true) (hrun : s.mgt.running = [x]) (hq : s.mgt.queue = []) (hvia : x.hdr.via = .mctp e)
include hpow hrun hq hvia

theorem bistComplete_far (hb : s.mgt.bist = some (x.id, 3, k)) (hk : k < 8) :
    ∃ t, exec (.bistComplete res n first as) s = .next t ∧ t.mgt.bist = none ∧ t.mgt.running = [] ∧
      (∀ a, farCh (a / 64) = k → Memory.read8 t.mem.far a = 0) ∧ (∀ lo, farCh lo = k → Tab.get false t.mem.farPoison lo = false ∧ t.farKnown lo = true) ∧
      (∀ a, farCh (a / 64) ≠ k → Memory.read8 t.mem.far a = Memory.read8 s.mem.far a) ∧ (t.chan (64 + k)).bist = false ∧
      t.outs.getLast? = some (.mctp e Config.vendorId (replyBytes (cmdOpc x.body) x.hdr 0 (bistReply res n first))) := by
  obtain ⟨t, hexec, hbist, hreply, hend⟩ := bistComplete_of_end (res := res) (n := n) (first := first) (as := as) hpow hrun hq hvia hb rfl
    (State.bistFarDone_within s.bistOver k n).only rfl rfl
  have hfar := (hend.far rfl).trans ((State.bistFarDone_only s.bistOver k n).far rfl)
  simp only [Prod.mk.injEq] at hfar
  obtain ⟨hmem, hpoison, hwritten, hzero, -⟩ := hfar
  refine ⟨t, hexec, hbist, hreply.2.2, fun a ha => ?_, fun lo hlo => ⟨?_, ?_⟩, fun a ha => ?_, ?_, hreply.getLast?⟩
  · rw [hmem, State.farZeroed_far, if_pos ha]
  · rw [hpoison, State.farZeroed_farPoison _ hlo]
  · rw [State.farKnown, hwritten, hzero]
    exact State.farZeroed_known _ hk hlo
  · rw [hmem, State.farZeroed_far, if_neg ha]
    rfl
  · rw [hend.chan rfl]
    exact State.bistFarDone_bist _ _ _

theorem bistComplete_near (hb : s.mgt.bist = some (x.id, 2, k)) :
    ∃ t, exec (.bistComplete res n first as) s = .next t ∧ t.mgt.bist = none ∧ t.mgt.running = [] ∧
      (∀ a, s.ofChan k (a / 1024) = true → Memory.read8 t.mem.near a = 0) ∧
      (∀ a, s.ofChan k (a / 1024) = false → Memory.read8 t.mem.near a = Memory.read8 s.mem.near a) ∧
      (∀ b < 16, (t.bank b).store = [] ∧ (t.bank b).dc = []) ∧ (t.chan k).bist = false ∧
      t.outs.getLast? = some (.mctp e Config.vendorId (replyBytes (cmdOpc x.body) x.hdr 0 (bistReply res n first))) := by
  obtain ⟨t, hexec, hbist, hreply, hend⟩ := bistComplete_of_end (res := res) (n := n) (first := first) (as := as) hpow hrun hq hvia hb rfl
    (s.bistOver.noFinds_bistNearDone_only k) rfl rfl
  obtain ⟨z, hz⟩ := named ({ s.bistOver with finds := {} } : State)
  have hnear : ∀ a, Memory.read8 t.mem.near a = if s.ofChan k (a / 1024) then 0 else Memory.read8 s.mem.near a := by
    intro a
    have hdone : t.mem.near = (z.nearZeroed k).mem.near := by
      rw [hend.memNear rfl, hz]
      exact State.bistNearDone_near { s.bistOver with finds := {} } k
    rw [hdone, State.nearZeroed_near, hz]
    rfl
  refine ⟨t, hexec, hbist, hreply.2.2, fun a ha => ?_, fun a ha => ?_, fun b hlt => ?_, ?_, hreply.getLast?⟩
  · rw [hnear, if_pos ha]
  · rw [hnear, if_neg (ne_true_of_eq_false ha)]
  · have hempty := State.bistNearDone_bank { s.bistOver with finds := {} } k hlt
    rw [State.bank, hend.banks rfl]
    exact hempty
  · have hback := State.bistNearDone_bist { s.bistOver with finds := {} } k
    rw [hend.chan rfl]
    exact hback

theorem bistComplete_arrays {u f : Nat} {lost : Bool} (hb : s.mgt.bist = some (x.id, 1, k)) (has : as = [(u, f, lost)]) :
    ∃ t, exec (.bistComplete res n first as) s = .next t ∧ t.mgt.bist = none ∧
      Tab.get 0 t.tap.soft u = Tab.get 0 s.tap.soft u + min f ((Config.sparesLeft u).toNat - Tab.get 0 s.tap.soft u) ∧
      Tab.get false t.tap.unrep u = (Tab.get false s.tap.unrep u || lost || decide ((Config.sparesLeft u).toNat - Tab.get 0 s.tap.soft u < f)) ∧
      Replied x.hdr e (cmdOpc x.body) 0 (bistReply res n first) s t ∧
      Only { tap := true, mgt := true, mgtq := true, outs := true, events := true } s t := by
  subst has
  have honly := (State.bistRepair_within s.bistOver [(u, f, lost)]).only
  obtain ⟨t, hexec, hbist, hreply, hend⟩ := bistComplete_of_end (res := res) (n := n) (first := first) (as := [(u, f, lost)]) hpow hrun hq hvia
    hb rfl honly rfl rfl
  obtain ⟨hsoft, hunrep⟩ := s.bistOver.bistRepair_one u f lost
  refine ⟨t, hexec, hbist, ?_, ?_, hreply.of_outs (honly.outs rfl), ?_⟩
  · rw [hend.tap rfl]
    exact hsoft
  · rw [hend.tap rfl]
    exact hunrep
  · exact Only.trans (t := s.bistOver) rfl ((honly.mono rfl).trans (hend.mono rfl))

end

/-- Settles O57: free clerks answer bad operands and refusals at once and start the other tests; a test's end leaves memory as `State.farZeroed`,
`State.nearZeroed` and `State.bistRepair_one` say, and what follows it changes none of that; `State.repairBytes` is read byte by byte. -/
theorem bistAndRepair : Obligations.BistAndRepair := by
  refine ⟨fun s h e g i p hi => ⟨hi.bistRun_of_absent, hi.bistRun_of_unknown, hi.bistRun_refused, hi.bistRun_arrays, hi.bistRun_near,
      hi.bistRun_far⟩, fun s x e res n first k as hpow hrun hq hvia => ⟨exec_bistComplete_of_none, bistComplete_far hpow hrun hq hvia,
      bistComplete_near hpow hrun hq hvia, fun u f lost => bistComplete_arrays hpow hrun hq hvia⟩, fun s h e hi => ⟨s.length_repairBytes, ?_⟩⟩
  obtain ⟨t, hexec, hreply, honly⟩ := hi.repairStatus
  exact ⟨t, hexec, hreply, honly, fun u hu => s.repairBytes_register hu, fun i hlt => s.repairBytes_count hlt⟩

end Sys2Proof.Machine
end

section
/-! SUPPORT. LULL_SEGMENT_START (R162, R232, R270): what a channel waits for, and the segment it chooses. -/

namespace Sys2Proof.Machine

section
variable {s : State} {c : Nat}

/-- An access that was queued before the lull is left at the channel. -/
def State.preLeft (s : State) (c : Nat) : Bool := ((s.cunit c 0).all ++ (s.cunit c 1).all).any (·.pre)

/-- The channel has begun the lull's work. -/
def State.lullBegun (s : State) (c : Nat) : State := s.setChan c { s.chan c with lull := { (s.chan c).lull with started := true } }

/-! ### The choice of a segment -/

section
variable {fuel k : Nat}

theorem State.segChoose_end (h : 5 ≤ k) :
    s.segChoose c (fuel + 1) k = s.setChan c { s.chan c with lull := { (s.chan c).lull with next := 5 } } := if_pos h

theorem State.segChoose_skip (h : k < 5) (hdue : s.segDue c k = false) : s.segChoose c (fuel + 1) k = s.segChoose c fuel (k + 1) := by
  rw [State.segChoose, if_neg (Nat.not_le.2 h), if_pos (by rw [hdue]; rfl)]

theorem State.segChoose_fits (h : k < 5) (hdue : s.segDue c k = true)
    (hfit : s.mtu.mt + segTime c k ≤ (s.mtu.lullBeat + s.mtu.lullWidth) * 1024) :
    s.segChoose c (fuel + 1) k = s.setChan c { s.chan c with lull := { (s.chan c).lull with next := k, cur := some k } } := by
  rw [State.segChoose, if_neg (Nat.not_le.2 h), if_neg (by rw [hdue]; exact Bool.false_ne_true), if_pos hfit]

theorem State.segChoose_defers (h : k ≤ 2) (hdue : s.segDue c k = true)
    (hlate : (s.mtu.lullBeat + s.mtu.lullWidth) * 1024 < s.mtu.mt + segTime c k) :
    s.segChoose c (fuel + 1) k =
      State.segChoose { s with mtu := { s.mtu with deferred := satAdd 0xFFFF s.mtu.deferred 1 } } c fuel (k + 1) := by
  rw [State.segChoose, if_neg (by omega), if_neg (by rw [hdue]; exact Bool.false_ne_true), if_neg (Nat.not_le.2 hlate), if_pos h]

/-- A lull that orders nothing has no segment but the first. -/
theorem State.segDue_of_no_order (harg : s.mtu.lullArg = 0) (h : 1 < k) : s.segDue c k = false := by
  have hne : (k == 1) = false := beq_false_of_ne (by omega)
  simp [State.segDue, hne, harg]

end

theorem State.segChoose_defers_all (harg : s.mtu.lullArg = 0)
    (hlate : (s.mtu.lullBeat + s.mtu.lullWidth) * 1024 < s.mtu.mt + segTime c 1) :
    s.segChoose c 5 1 = State.setChan { s with mtu := { s.mtu with deferred := satAdd 0xFFFF s.mtu.deferred 1 } } c
      { s.chan c with lull := { (s.chan c).lull with next := 5 } } := by
  have hskip {k : Nat} (h : 1 < k) : State.segDue { s with mtu := { s.mtu with deferred := satAdd 0xFFFF s.mtu.deferred 1 } } c k = false :=
    State.segDue_of_no_order harg h
  rw [State.segChoose_defers (by omega) rfl hlate, State.segChoose_skip (by omega) (hskip (by omega)),
    State.segChoose_skip (by omega) (hskip (by omega)), State.segChoose_skip (by omega) (hskip (by omega)), State.segChoose_end (by omega)]
  rfl

/-! ### The command -/

theorem exec_lullSegmentStart_of_unlocked (h : s.locked = false) : exec (.lullSegmentStart c) s = .next s :=
  congrArg Host.Outcome.next (if_pos (by simp [h]))

theorem State.lullReady_of_preLeft (h : s.preLeft c = true) : s.lullReady c = false := by
  have hpre : ((s.chan c).u0.all ++ (s.chan c).u1.all).any (·.pre) = true := h
  rw [State.lullReady, hpre]
  rfl

theorem exec_lullSegmentStart_of_preLeft (h : s.preLeft c = true) : exec (.lullSegmentStart c) s = .next s := by
  have hpre : ((s.chan c).u0.all ++ (s.chan c).u1.all).any (·.pre) = true := h
  refine congrArg Host.Outcome.next (ite_eq_left_iff.2 fun _ => if_pos ?_)
  rw [hpre, State.lullReady_of_preLeft h]
  cases (s.chan c).lull.started <;> rfl

theorem exec_lullSegmentStart_of_ready (hserves : s.chanServes c = true) (hlull : s.mtu.inLull = true) (hnext : (s.chan c).lull.next = 1)
    (hlock : s.locked = true) (hpre : s.preLeft c = false) (hreqs : s.hreqs = []) (htrks : s.mtu.lullTrks = []) :
    exec (.lullSegmentStart c) s = .next ((s.lullBegun c).segChoose c 5 1) := by
  have hpre' : ((s.chan c).u0.all ++ (s.chan c).u1.all).any (·.pre) = false := hpre
  have hready : s.lullReady c = true := by
    rw [State.lullReady, hpre', hreqs, htrks]
    rfl
  refine congrArg Host.Outcome.next ((if_neg ?_).trans ((if_neg ?_).trans ?_))
  · simp [hserves, hlull, hlock, hnext]
  · simp [hpre', hready]
  · rw [hnext]
    rfl

end

section
variable {s : State} {c : Nat} (hserves : s.chanServes c = true) (hlull : s.mtu.inLull = true) (hnext : (s.chan c).lull.next = 1)
  (hlock : s.locked = true) (hpre : s.preLeft c = false) (hreqs : s.hreqs = []) (htrks : s.mtu.lullTrks = [])
include hserves hlull hnext hlock hpre hreqs htrks

theorem lullSegmentStart_of_fit (hfit : s.mtu.mt + (if c < 64 then 900 else 1000) ≤ (s.mtu.lullBeat + s.mtu.lullWidth) * 1024) :
    ∃ t, exec (.lullSegmentStart c) s = .next t ∧ (t.chan c).lull.cur = some 1 ∧ Only { chans := true } s t := by
  refine ⟨_, exec_lullSegmentStart_of_ready hserves hlull hnext hlock hpre hreqs htrks, ?_⟩
  rw [State.segChoose_fits (s := s.lullBegun c) (k := 1) (by omega) rfl hfit]
  exact ⟨congrArg (·.lull.cur) (State.chan_setChan_self _ _ _),
    ((State.setChan_within s c _).only).trans (State.setChan_within _ c _).only⟩

theorem lullSegmentStart_of_late (hlate : (s.mtu.lullBeat + s.mtu.lullWidth) * 1024 < s.mtu.mt + (if c < 64 then 900 else 1000))
    (harg : s.mtu.lullArg = 0) :
    ∃ t, exec (.lullSegmentStart c) s = .next t ∧ (t.chan c).lull.cur = none ∧ (t.chan c).lull.next = 5 ∧
      t.mtu = { s.mtu with deferred := satAdd 0xFFFF s.mtu.deferred 1 } ∧ Only { chans := true, mtu := true } s t := by
  have hcur : (s.chan c).lull.cur = none := by
    simp only [State.chanServes, Bool.and_eq_true, Option.isNone_iff_eq_none] at hserves
    exact hserves.2
  have hbegun : (s.lullBegun c).chan c = { s.chan c with lull := { (s.chan c).lull with started := true } } := State.chan_setChan_self _ _ _
  refine ⟨_, exec_lullSegmentStart_of_ready hserves hlull hnext hlock hpre hreqs htrks, ?_⟩
  rw [State.segChoose_defers_all (s := s.lullBegun c) harg hlate]
  refine ⟨?_, ?_, rfl, rfl⟩
  · rw [State.chan_setChan_self, hbegun]
    exact hcur
  · rw [State.chan_setChan_self]

end
end Sys2Proof.Machine
end

section
/-! SUPPORT. What LULL_SEGMENT_DONE (R232) makes of segments 1 to 3: neighbour actions, retraining, the page-code scrub. -/

namespace Sys2Proof.Machine

/-- What a command does without finds it leaves with those it came with. -/
theorem Only.noFinds {m : Mask} {s : State} {go : State → State} (h : Only { m with finds := true } { s with finds := {} } (go { s with finds := {} })) :
    Only m s (s.noFinds go) := by
  calc view m (s.noFinds go)
      = { view { m with finds := true } (go { s with finds := {} }) with finds := hide m.finds s.finds } := rfl
    _ = { view { m with finds := true } { s with finds := {} } with finds := hide m.finds s.finds } := by rw [h]
    _ = view m s := rfl

/-! ### Tables whose places are written one after another -/

theorem Tab.get_mem {α : Type} (d : α) (t : Tab α) (k : Nat) : Tab.get d t k = d ∨ (k, Tab.get d t k) ∈ t := by
  induction t with
  | nil => exact .inl rfl
  | cons e t ih =>
    obtain ⟨j, v⟩ := e
    by_cases hk : k = j
    · subst hk
      exact .inr (by simp [Tab.get])
    · have hget : Tab.get d ((j, v) :: t) k = Tab.get d t k := by simp [Tab.get, Ne.symm hk]
      rw [hget]
      exact ih.imp_right (List.mem_cons_of_mem _)

/-- After its places are written anew from the list, place `k` holds what the list made of it, or what it held. -/
theorem Tab.get_foldl_put {α β : Type} [DecidableEq α] (d : α) (f : β → α) (l : List (Nat × β)) (t : Tab α) (k : Nat) :
    (∃ v, (k, v) ∈ l ∧ Tab.get d (l.foldl (fun t e => Tab.put d t e.1 (f e.2)) t) k = f v) ∨
      (∀ v, (k, v) ∉ l) ∧ Tab.get d (l.foldl (fun t e => Tab.put d t e.1 (f e.2)) t) k = Tab.get d t k := by
  induction l generalizing t with
  | nil => exact .inr ⟨fun _ => List.not_mem_nil, rfl⟩
  | cons e l ih =>
    rcases ih (Tab.put d t e.1 (f e.2)) with ⟨v, hv, hget⟩ | ⟨hnone, hget⟩
    · exact .inl ⟨v, List.mem_cons_of_mem _ hv, hget⟩
    · by_cases hk : k = e.1
      · refine .inl ⟨e.2, by rw [hk]; exact List.mem_cons_self, hget.trans ?_⟩
        rw [hk, Tab.get_put_self]
      · refine .inr ⟨fun v hv => ?_, hget.trans (Tab.get_put_ne d t e.1 k _ hk)⟩
        rcases List.mem_cons.1 hv with hv | hv
        · exact hk (congrArg Prod.fst hv)
        · exact hnone v hv

/-! ### Segment 1 (R265, R267, R271) -/

/-- What the flush makes of an entry of an activate-count table. -/
def ActEnt.flushed (fresh en : Bool) (e : ActEnt) : ActEnt :=
  if en && (if fresh then e.row.isSome else e.pend) || fresh then { e with cnt := 0, pend := false } else e

theorem ActEnt.flushed_spec (fresh en : Bool) (e : ActEnt) :
    (en = true → (e.flushed fresh en).pend = false) ∧ (fresh = true → (e.flushed fresh en).cnt = 0) := by
  cases fresh
  · cases hp : e.pend <;> cases en <;> simp [ActEnt.flushed, hp]
  · simp [ActEnt.flushed]

/-- What the flush makes of a bank. -/
def BankSt.flushed (far fresh en : Bool) (owed : Nat) (bk : BankSt) : BankSt :=
  { bk with
    row := if owed == 0 then bk.row else 0
    hits := if owed == 0 then bk.hits else 0
    acts := if owed == 0 then bk.acts else 0
    raa := if far then bk.raa - owed * Config.raaRefresh - (bk.tbl.filter fun e => en && (if fresh then e.row.isSome else e.pend)).length * Config.raaDecrement
      else bk.raa
    tbl := bk.tbl.map (ActEnt.flushed fresh en) }

theorem CUnit.flushRows_banks (x : CUnit) (far fresh en : Bool) (owed : Nat) :
    (x.flushRows far fresh en owed).1.banks = x.banks.foldl (fun t e => Tab.put {} t e.1 (BankSt.flushed far fresh en owed e.2)) x.banks := rfl

theorem CUnit.flushRows_tbl (x : CUnit) (far fresh en : Bool) (owed b : Nat) :
    ∀ e ∈ ((x.flushRows far fresh en owed).1.bank b).tbl, (en = true → e.pend = false) ∧ (fresh = true → e.cnt = 0) := by
  intro e he
  rw [CUnit.bank, CUnit.flushRows_banks] at he
  rcases Tab.get_foldl_put {} (BankSt.flushed far fresh en owed) x.banks x.banks b with ⟨bk, -, hget⟩ | ⟨hnone, hget⟩
  · rw [hget] at he
    obtain ⟨y, -, rfl⟩ := List.mem_map.1 he
    exact y.flushed_spec fresh en
  · rw [hget, (Tab.get_mem {} x.banks b).resolve_right (hnone _)] at he
    exact absurd he List.not_mem_nil

/-- What the flush makes of a channel. -/
def Chan.flushed (ch : Chan) (far en : Bool) : Chan :=
  { ch with
    u0 := (ch.u0.flushRows far ch.fresh en ch.lull.owed).1
    u1 := (ch.u1.flushRows far ch.fresh en ch.lull.owed).1
    fresh := false
    nbr := satAdd 0xFFFF ch.nbr ((ch.u0.flushRows far ch.fresh en ch.lull.owed).2 + (ch.u1.flushRows far ch.fresh en ch.lull.owed).2)
    lull := { ch.lull with owed := 0 } }

theorem State.segDone_first (s : State) (c : Nat) (ok : Bool) (errs : List (Nat × ArrErr)) :
    ∃ n, s.segDone c 1 ok errs = (s.setChan c ((s.chan c).flushed (64 ≤ c) (s.rdEn c))).event (64 + c) 6 n := ⟨_, rfl⟩

theorem State.segDone_first_chan (s : State) (c : Nat) (ok : Bool) (errs : List (Nat × ArrErr)) :
    (s.segDone c 1 ok errs).chan c = (s.chan c).flushed (64 ≤ c) (s.rdEn c) := by
  obtain ⟨n, heq⟩ := s.segDone_first c ok errs
  rw [heq, (State.event_within _ _ _ _).only.chan rfl, State.chan_setChan_self]

theorem State.segDone_first_only (s : State) (c : Nat) (ok : Bool) (errs : List (Nat × ArrErr)) :
    Only { chans := true, events := true } s (s.segDone c 1 ok errs) := by
  obtain ⟨n, heq⟩ := s.segDone_first c ok errs
  rw [heq]
  exact ((State.setChan_within _ _ _).only.mono rfl).trans ((State.event_within _ _ _ _).only.mono rfl)

/-! ### Segment 2 (R269) -/

/-- A retraining that fails is counted and recorded. -/
def State.retrainFailed (s : State) (c : Nat) : State :=
  (s.setChan c { s.chan c with retrainFails := (s.chan c).retrainFails + 1 }).rec_ 0xFF (64 + c) 0xFFFF 0 ((s.chan c).retrainFails + 1)

/-- What a failed retraining may change beside its channel. -/
def failMask : Mask :=
  { trcCfg := true, irq := true, chans := true, pba := true, ledger := true, events := true, trc := true, outs := true }

theorem State.retrainFailed_only (s : State) (c : Nat) : Only failMask s (s.retrainFailed c) :=
  ((State.setChan_within _ _ _).only.mono rfl).trans ((State.rec__within _ _ _ _ _ _).only.mono rfl)

theorem State.retrainFailed_chan (s : State) (c : Nat) :
    (s.retrainFailed c).chan c = { s.chan c with retrainFails := (s.chan c).retrainFails + 1 } :=
  ((State.rec__within _ _ _ _ _ _).only.chan rfl c).trans (State.chan_setChan_self _ _ _)

theorem State.retrained_of_ok (s : State) (c : Nat) : s.retrained c true = s.setChan c { s.chan c with retrainFails := 0 } := rfl

theorem State.retrained_of_few {s : State} {c : Nat} (h : (s.chan c).retrainFails < 2) : s.retrained c false = s.retrainFailed c :=
  if_neg (by omega)

theorem State.retrained_of_third {s : State} {c : Nat} (h : (s.chan c).retrainFails = 2) : s.retrained c false = (s.retrainFailed c).freeze c 3 {} :=
  if_pos (by omega)

/-! ### A far channel's freeze (R274) -/

/-- Where no victim-buffer entry waits, room at a far channel lets nothing go. -/
theorem State.vbPump_of_no_vbs {s : State} (hvbs : ∀ n < 64, (s.slice n).vbs = []) (c : Nat) : s.vbPump c = s := by
  unfold State.vbPump
  split
  · rfl
  · refine List.foldlRecOn (motive := fun x => x = s) (List.range 64) _ rfl fun x hx n hn => ?_
    rw [hx, hvbs n (List.mem_range.1 hn)]
    rfl

/-- What the answers to a frozen channel's accesses may change. -/
def frozenMask : Mask :=
  { trcCfg := true, irq := true, memIo := true, pba := true, hreqs := true, ledger := true, events := true, trc := true, outs := true }

/-- The answers to what was queued, before the channel's buffers are emptied. -/
theorem State.answerFrozen_eq {s : State} (hvbs : ∀ n < 64, (s.slice n).vbs = []) (c : Nat) :
    ∃ x, Only frozenMask s x ∧ s.answerFrozen c = x.setChan c { x.chan c with
      u0 := { (s.chan c).u0 with merge := [], hold := [] }, u1 := { (s.chan c).u1 with merge := [], hold := [] } } := by
  unfold State.answerFrozen
  extract_lets ch x y
  have hx : Only frozenMask s x := by
    refine Only.foldl (fun z r => ?_) _ s
    extract_lets z'
    have hz : Only frozenMask z z' := by
      unfold z'
      split
      · refine Only.trans ?_ ((State.farAnswer_within _ _ _).only.mono rfl)
        split
        · split
          · exact (State.voidTrk_within _ _ _).only.mono rfl
          · exact Only.refl _ _
        · exact Only.refl _ _
      · exact Only.refl _ _
    split
    · exact hz
    · exact hz.trans ((State.rec__within _ _ _ _ _ _).only.mono rfl)
  have hy : Only frozenMask s y := hx.trans (Only.foldl (fun z m => (State.rec__within z _ _ _ _ _).only.mono rfl) _ x)
  refine ⟨y, hy, State.vbPump_of_no_vbs (fun n hn => ?_) c⟩
  rw [(State.setChan_within _ _ _).only.slice rfl, hy.slice rfl, hvbs n hn]

theorem State.freeze_far {s : State} {c cause : Nat} (f : FrzCmd) (hc : 64 ≤ c) (hvbs : ∀ n < 64, (s.slice n).vbs = []) :
    ((s.freeze c cause f).chan c).frozen = true ∧ ((s.freeze c cause f).chan c).cause = cause ∧ (s.freeze c cause f).dom = s.dom := by
  unfold State.freeze
  extract_lets ch u0 u1 lull x y
  have hchan : x.chan c = { s.chan c with
      frozen := true, cause := cause, frzMt := s.mtu.mt % 2 ^ 32, frzRd := ch.queued false, frzWr := ch.queued true,
      frzCmd := if cause == 1 then f else {}, lull := { ch.lull with cur := none }, scrubQ := [],
      u0 := { ch.u0 with win := [] }, u1 := { ch.u1 with win := [] } } := State.chan_setChan_self _ _ _
  have hx : Only { chans := true } s x := (State.setChan_within _ _ _).only
  have hy : Only { trcCfg := true, irq := true, pba := true, ledger := true, events := true, trc := true, outs := true } x y :=
    (State.recPut_within _ _).only
  obtain ⟨z, hz, heq⟩ := State.answerFrozen_eq (s := y) (fun n hn => (congrArg Slice.vbs ((hy.slice rfl n).trans (hx.slice rfl n))).trans (hvbs n hn)) c
  have hkeep : z.chan c = x.chan c := (hz.chan rfl c).trans (hy.chan rfl c)
  rw [if_neg (Nat.not_lt.2 hc), heq, State.chan_setChan_self, hkeep, hchan]
  exact ⟨rfl, rfl, (hz.dom rfl).trans ((hy.dom rfl).trans (hx.dom rfl))⟩

/-! ### Segment 3 (R396) -/

theorem State.pgcDecode_clean (s : State) (c : Nat) :
    (∀ p, s.pgcNext = some p → (s.pgcDecode c .none).ras = { s.ras with pgcScrub := p + 1 }) ∧
      (s.pgcNext = none → (s.pgcDecode c .none).ras = s.ras) ∧ Only { ras := true } s (s.pgcDecode c .none) := by
  unfold State.pgcDecode
  refine ⟨fun p hp => ?_, fun hp => ?_, ?_⟩
  · rw [hp]
  · rw [hp]
  · split
    · exact Only.refl _ _
    · rfl

/-! ### The command -/

section
variable {s : State} {c k : Nat} {ok : Bool} {errs : List (Nat × ArrErr)}

/-- A segment of kind `k` has ended, and the accesses that came meanwhile are served before the next. -/
def State.segEnded (s : State) (c k : Nat) : State :=
  s.setChan c { s.chan c with
    u0 := (s.chan c).u0.markPre
    u1 := (s.chan c).u1.markPre
    lull := { (s.chan c).lull with cur := none, next := if k ≤ 2 then k + 1 else k } }

theorem State.segEnded_only (s : State) (c k : Nat) : Only { chans := true } s (s.segEnded c k) := (State.setChan_within _ _ _).only

@[simp] theorem State.segEnded_chan (s : State) (c k : Nat) : (s.segEnded c k).chan c = { s.chan c with
    u0 := (s.chan c).u0.markPre
    u1 := (s.chan c).u1.markPre
    lull := { (s.chan c).lull with cur := none, next := if k ≤ 2 then k + 1 else k } } := State.chan_setChan_self _ _ _

/-- The state in which a segment's work is done: it has ended, and the codes find nothing. -/
def State.segWork (s : State) (c k : Nat) : State := { s.segEnded c k with finds := {} }

@[simp] theorem State.segWork_chan (s : State) (c k : Nat) : (s.segWork c k).chan c = { s.chan c with
    u0 := (s.chan c).u0.markPre
    u1 := (s.chan c).u1.markPre
    lull := { (s.chan c).lull with cur := none, next := if k ≤ 2 then k + 1 else k } } := State.segEnded_chan _ _ _

theorem Mask.chans_le {m : Mask} (hm : m.chans = true) : Mask.le { chans := true } m = true := by
  simp [Mask.le, hm]

/-- What the work changes, and the channel itself, is all that the command changes. -/
theorem Only.segWork {m : Mask} {t : State} (h : Only { m with finds := true } (s.segWork c k) t) (hm : m.chans = true) :
    Only m s { t with finds := s.finds } := by
  have hwork : Only { m with finds := true } { s.segEnded c k with finds := {} } t := h
  have hback : Only m (s.segEnded c k) { t with finds := s.finds } := Only.noFinds (go := fun _ => t) hwork
  exact Only.trans ((s.segEnded_only c k).mono (Mask.chans_le hm)) hback

theorem exec_lullSegmentDone_of_idle (hcur : (s.chan c).lull.cur = none) : exec (.lullSegmentDone c ok errs) s = .next s := by
  refine congrArg Host.Outcome.next ?_
  rw [hcur]

variable (hpow : s.powered = true) (hpresent : s.chanPresent c = true)
include hpow hpresent

theorem exec_lullSegmentDone_of_running (hcur : (s.chan c).lull.cur = some k) :
    exec (.lullSegmentDone c ok errs) s = .next { (s.segWork c k).segDone c k ok errs with finds := s.finds } := by
  refine congrArg Host.Outcome.next ?_
  rw [hcur]
  exact if_neg (by simp [hpow, hpresent])

theorem lullSegmentDone_of_first (hcur : (s.chan c).lull.cur = some 1) :
    ∃ t, exec (.lullSegmentDone c ok errs) s = .next t ∧ (t.chan c).lull.cur = none ∧ (t.chan c).lull.next = 2 ∧
      (t.chan c).lull.owed = 0 ∧ (∀ (u b : Nat) (e : ActEnt), u < 2 → e ∈ ((t.cunit c u).bank b).tbl →
        (s.rdEn c = true → e.pend = false) ∧ ((s.chan c).fresh = true → e.cnt = 0)) ∧ (t.chan c).fresh = false ∧
      Only { chans := true, events := true } s t := by
  have hchan := (s.segWork c 1).segDone_first_chan c ok errs
  rw [State.segWork_chan] at hchan
  refine ⟨_, exec_lullSegmentDone_of_running hpow hpresent hcur, congrArg (·.lull.cur) hchan, congrArg (·.lull.next) hchan,
    congrArg (·.lull.owed) hchan, fun u b e hu he => ?_, congrArg (·.fresh) hchan,
    Only.segWork (((s.segWork c 1).segDone_first_only c ok errs).mono rfl) rfl⟩
  have hunit : State.cunit { (s.segWork c 1).segDone c 1 ok errs with finds := s.finds } c u =
      if u == 0 then ((s.segWork c 1).segDone c 1 ok errs |>.chan c).u0 else ((s.segWork c 1).segDone c 1 ok errs |>.chan c).u1 := rfl
  rw [hunit, hchan] at he
  split at he
  · exact CUnit.flushRows_tbl _ _ _ _ _ _ e he
  · exact CUnit.flushRows_tbl _ _ _ _ _ _ e he

theorem lullSegmentDone_of_second (hcur : (s.chan c).lull.cur = some 2) (hok : ok = true) :
    ∃ t, exec (.lullSegmentDone c ok errs) s = .next t ∧ (t.chan c).retrainFails = 0 ∧
      (t.chan c).lull.next = 3 ∧ (t.chan c).frozen = (s.chan c).frozen ∧ Only { chans := true } s t := by
  subst hok
  have hchan : ((s.segWork c 2).segDone c 2 true errs).chan c = { (s.segWork c 2).chan c with retrainFails := 0 } := State.chan_setChan_self _ _ _
  rw [State.segWork_chan] at hchan
  exact ⟨_, exec_lullSegmentDone_of_running hpow hpresent hcur, congrArg (·.retrainFails) hchan, congrArg (·.lull.next) hchan,
    congrArg (·.frozen) hchan, Only.segWork ((State.setChan_within _ c _).only.mono rfl) rfl⟩

theorem lullSegmentDone_of_failed (hcur : (s.chan c).lull.cur = some 2) (hok : ok = false) (hfew : (s.chan c).retrainFails < 2) :
    ∃ t, exec (.lullSegmentDone c ok errs) s = .next t ∧
      (t.chan c).retrainFails = (s.chan c).retrainFails + 1 ∧ (t.chan c).frozen = (s.chan c).frozen ∧ t.dom = s.dom := by
  subst hok
  have hgo : (s.segWork c 2).segDone c 2 false errs = (s.segWork c 2).retrainFailed c :=
    State.retrained_of_few (by rw [State.segWork_chan]; exact hfew)
  have hchan := (s.segWork c 2).retrainFailed_chan c
  rw [State.segWork_chan] at hchan
  refine ⟨_, exec_lullSegmentDone_of_running hpow hpresent hcur, ?_⟩
  rw [hgo]
  exact ⟨congrArg (·.retrainFails) hchan, congrArg (·.frozen) hchan, ((s.segWork c 2).retrainFailed_only c).dom rfl⟩

theorem lullSegmentDone_of_third_failure (hcur : (s.chan c).lull.cur = some 2) (hok : ok = false) (hthird : (s.chan c).retrainFails = 2)
    (hc : 64 ≤ c) (hvbs : ∀ n < 64, (s.slice n).vbs = []) :
    ∃ t, exec (.lullSegmentDone c ok errs) s = .next t ∧ (t.chan c).frozen = true ∧ (t.chan c).cause = 3 ∧ t.dom = s.dom := by
  subst hok
  have hgo : (s.segWork c 2).segDone c 2 false errs = ((s.segWork c 2).retrainFailed c).freeze c 3 {} :=
    State.retrained_of_third (by rw [State.segWork_chan]; exact hthird)
  have hfailed := (s.segWork c 2).retrainFailed_only c
  obtain ⟨hfrozen, hcause, hdom⟩ := State.freeze_far (s := (s.segWork c 2).retrainFailed c) (c := c) (cause := 3) {} hc
    fun n hn => (congrArg Slice.vbs (hfailed.slice rfl n)).trans (hvbs n hn)
  refine ⟨_, exec_lullSegmentDone_of_running hpow hpresent hcur, ?_⟩
  rw [hgo]
  exact ⟨hfrozen, hcause, hdom.trans (hfailed.dom rfl)⟩

theorem lullSegmentDone_of_scrub (hcur : (s.chan c).lull.cur = some 3) (herrs : errs = []) :
    ∃ t, exec (.lullSegmentDone c ok errs) s = .next t ∧ (t.chan c).lull.next = 3 ∧
      (∀ p, s.pgcNext = some p → t.ras = { s.ras with pgcScrub := p + 1 }) ∧ (s.pgcNext = none → t.ras = s.ras) ∧
      Only { chans := true, ras := true } s t := by
  subst herrs
  obtain ⟨hsome, hnone, honly⟩ := (s.segWork c 3).pgcDecode_clean c
  have hchan : ((s.segWork c 3).segDone c 3 ok []).chan c = (s.segWork c 3).chan c := honly.chan rfl c
  rw [State.segWork_chan] at hchan
  exact ⟨_, exec_lullSegmentDone_of_running hpow hpresent hcur, congrArg (·.lull.next) hchan, hsome, hnone, Only.segWork (honly.mono rfl) rfl⟩

end
end Sys2Proof.Machine
end

section
/-! SUPPORT. Segment 4 (R120, R121, R226): a directory bank's pending sweep step that meets no error. -/

namespace Sys2Proof.Machine

/-! ### The entries that go to the store -/

/-- What the sweep makes of a directory-cache entry's bank: a dirty entry goes to the store. -/
def Bank.cleaned (x : Bank) (a : Nat × Option DcEnt) : Bank :=
  match a.2 with
  | some e => if e.dirty then
      { x with store := Tab.put {} x.store (e.set * 16 + e.way) e.ent, dc := Tab.put none x.dc a.1 (some { e with dirty := false }) }
    else x
  | none => x

theorem Bank.cleaned_rest (x : Bank) (a : Nat × Option DcEnt) :
    (x.cleaned a).sweepDue = x.sweepDue ∧ (x.cleaned a).sweepPtr = x.sweepPtr := by
  unfold Bank.cleaned
  split
  · split <;> exact ⟨rfl, rfl⟩
  · exact ⟨rfl, rfl⟩

theorem Bank.foldl_cleaned_sweepPtr (l : List (Nat × Option DcEnt)) (x : Bank) : (l.foldl Bank.cleaned x).sweepPtr = x.sweepPtr :=
  List.foldlRecOn (motive := fun (y : Bank) => y.sweepPtr = x.sweepPtr) l _ rfl fun y hy a _ => (y.cleaned_rest a).2.trans hy

/-- An entry of the cache is clean then, or another that stood in it. -/
theorem Bank.cleaned_dc (x : Bank) (a : Nat × Option DcEnt) {j : Nat} {e : DcEnt} (hget : Tab.get none (x.cleaned a).dc j = some e) :
    e.dirty = false ∨ Tab.get none x.dc j = some e ∧ (j, some e) ≠ a := by
  obtain ⟨i, v⟩ := a
  cases v with
  | none => exact .inr ⟨hget, by simp⟩
  | some f =>
    cases hdirty : f.dirty with
    | false =>
      rw [show x.cleaned (i, some f) = x by simp [Bank.cleaned, hdirty]] at hget
      by_cases hsame : e = f
      · exact .inl (hsame ▸ hdirty)
      · exact .inr ⟨hget, by simp [hsame]⟩
    | true =>
      have hput : (x.cleaned (i, some f)).dc = Tab.put none x.dc i (some { f with dirty := false }) := by simp [Bank.cleaned, hdirty]
      rw [hput, Tab.get_put] at hget
      split at hget
      · rw [← Option.some.inj hget]
        exact .inl rfl
      · next hj => exact .inr ⟨hget, by simp [hj]⟩

/-- After the entries of the list have gone, an entry is clean, or is one that stood in the cache and not in the list. -/
theorem Bank.foldl_cleaned_dc (l : List (Nat × Option DcEnt)) (x : Bank) {j : Nat} {e : DcEnt}
    (hget : Tab.get none (l.foldl Bank.cleaned x).dc j = some e) :
    e.dirty = false ∨ Tab.get none x.dc j = some e ∧ (j, some e) ∉ l := by
  induction l generalizing x with
  | nil => exact .inr ⟨hget, List.not_mem_nil⟩
  | cons a l ih =>
    rcases ih (x.cleaned a) hget with hclean | ⟨hstood, hnot⟩
    · exact .inl hclean
    · rcases x.cleaned_dc a hstood with hclean | ⟨hstood, hne⟩
      · exact .inl hclean
      · exact .inr ⟨hstood, List.not_mem_cons_of_ne_of_not_mem hne hnot⟩

theorem Bank.cleaned_all (x : Bank) {j : Nat} {e : DcEnt} (hget : Tab.get none (x.dc.foldl Bank.cleaned x).dc j = some e) : e.dirty = false := by
  rcases Bank.foldl_cleaned_dc x.dc x hget with hclean | ⟨hstood, hnot⟩
  · exact hclean
  · rcases Tab.get_mem none x.dc j with hnone | hmem
    · rw [hstood] at hnone
      cases hnone
    · rw [hstood] at hmem
      exact absurd hmem hnot

/-! ### The step -/

section
variable {s : State} {b : Nat}

theorem State.dirErrs_of_no_flip (hflip : s.ras.latent = []) (b set : Nat) : ∀ e ∈ s.dirErrs b set [], e = .none := by
  intro e he
  obtain ⟨j, -, rfl⟩ := List.mem_map.1 he
  exact State.metNear_of_no_flip hflip _ _ _ _

/-- The store sets of a pending step of `k` sets, each with its place. -/
def State.sweepSets (s : State) (b k : Nat) : List (Nat × Nat) :=
  (List.range (min k (s.dirGib * 2 ^ 17))).map fun j => (j, ((s.bank b).sweepPtr + j) % (s.dirGib * 2 ^ 17))

/-- A store set is written back. -/
def State.setWritten (s : State) (b set : Nat) : State := (List.range 8).foldl (fun s j => s.houseAccess (s.dirLine b set (2 * j)) true) s

/-- The sets of a step are read and written back. -/
def State.sweepRead (s : State) (b : Nat) (sets : List (Nat × Nat)) : State := sets.foldl (fun s a => (s.dirFetch b a.2).setWritten b a.2) s

/-- What reads and writes of house lines may change. -/
def houseMask : Mask :=
  { free := true, finds := true, due := true, trcCfg := true, irq := true, slices := true, chans := true, near := true, memIo := true, pba := true,
    ledger := true, bkt := true, flip := true, events := true, trc := true, outs := true }

theorem State.setWritten_only (s : State) (b set : Nat) : Only houseMask s (s.setWritten b set) :=
  Only.foldl (f := fun s j => s.houseAccess (s.dirLine b set (2 * j)) true) (fun y _ => (y.houseAccess_write_only _).mono rfl) (List.range 8) s

theorem State.sweepRead_only (s : State) (b : Nat) (sets : List (Nat × Nat)) : Only houseMask s (s.sweepRead b sets) := by
  refine Only.foldl (fun x a => ?_) sets s
  have hread : Only houseMask x (x.dirFetch b a.2) := (State.dirFetch_within x b a.2).only
  exact hread.trans ((x.dirFetch b a.2).setWritten_only b a.2)

/-- A step whose sets the codes find without error writes every dirty entry of the cache to the store, and moves on. -/
theorem State.sweepStep_clean {k : Nat} {rest : List Nat} (hdue : (s.bank b).sweepDue = k :: rest) (hflip : s.ras.latent = [])
    (hgood : ∀ set, (s.bank b).badSet set = false) :
    s.sweepStep b [] = (s.sweepRead b (s.sweepSets b k)).setBank b
      { (s.bank b).dc.foldl Bank.cleaned (s.bank b) with
        sweepDue := rest, sweepPtr := ((s.bank b).sweepPtr + k) % (s.dirGib * 2 ^ 17) } := by
  unfold State.sweepStep
  extract_lets x n found cleaned
  have hptr : cleaned.sweepPtr = (s.bank b).sweepPtr := Bank.foldl_cleaned_sweepPtr (s.bank b).dc (s.bank b)
  have hfound (j : Nat) : found j = .none := by
    have hno (e : ArrErr) (he : e ≠ .none) : (s.dirErrs b ((x.sweepPtr + j) % n) []).contains e = false := by
      rw [← Bool.not_eq_true, List.contains_iff_mem]
      exact fun hmem => he (State.dirErrs_of_no_flip hflip b _ e hmem)
    simp only [found, hno .ue (by decide), hno .ce (by decide), Bool.and_false, Bool.false_eq_true, if_false, List.find?_nil]
  split
  case h_1 hnil => exact absurd (hdue.symm.trans hnil) (List.cons_ne_nil _ _)
  case h_2 k' rest' hcons =>
    obtain ⟨rfl, rfl⟩ := List.cons.inj (hdue.symm.trans hcons)
    extract_lets sets read counted
    have hcounted : counted = read := List.foldl_fixed' (fun a => if_neg (by rw [hfound]; decide)) sets
    have hsound : ¬(sets.any fun a => found a.1 == .ue || x.badSet a.2) = true := by
      rw [List.any_eq_true]
      rintro ⟨a, -, ha⟩
      rw [hfound, show x.badSet a.2 = false from hgood a.2] at ha
      exact absurd ha (by decide)
    exact (if_neg hsound).trans (by rw [hcounted, hptr]; rfl)

end

theorem lullSegmentDone_of_sweep {s : State} {c b k : Nat} {ok : Bool} {errs : List (Nat × ArrErr)} {rest : List Nat} (hpow : s.powered = true)
    (hpresent : s.chanPresent c = true) (hcur : (s.chan c).lull.cur = some 4)
    (hfind : (s.banksOf c).find? (fun b => !(s.bank b).sweepDue.isEmpty) = some b) (hdue : (s.bank b).sweepDue = k :: rest) (herrs : errs = [])
    (hflip : s.ras.latent = []) (hgood : ∀ set, (s.bank b).badSet set = false) :
    ∃ t, exec (.lullSegmentDone c ok errs) s = .next t ∧ (t.bank b).sweepDue = rest ∧
      (t.bank b).sweepPtr = ((s.bank b).sweepPtr + k) % (s.dirGib * 2 ^ 17) ∧
      (∀ j e, Tab.get none (t.bank b).dc j = some e → e.dirty = false) ∧ (∀ j, j ≠ b → t.bank j = s.bank j) ∧
      Only { chans := true, banks := true, slices := true, near := true, memIo := true, events := true, trc := true, trcCfg := true, ledger := true,
             bkt := true, irq := true, pba := true, outs := true, flip := true, free := true, due := true } s t := by
  subst herrs
  obtain ⟨x, hx⟩ := named ({ (s.bank b).dc.foldl Bank.cleaned (s.bank b) with
    sweepDue := rest, sweepPtr := ((s.bank b).sweepPtr + k) % (s.dirGib * 2 ^ 17) } : Bank)
  obtain ⟨y, hy⟩ := named ((s.segWork c 4).sweepRead b ((s.segWork c 4).sweepSets b k))
  have hread : Only houseMask (s.segWork c 4) y := hy ▸ State.sweepRead_only _ b _
  have hgo : (s.segWork c 4).segDone c 4 ok [] = y.setBank b x := by
    have hchosen : (s.segWork c 4).segDone c 4 ok [] = (s.segWork c 4).sweepStep b [] := by
      simp only [State.segDone]
      rw [show ((s.segWork c 4).banksOf c).find? (fun b => !((s.segWork c 4).bank b).sweepDue.isEmpty) = some b from hfind]
      rfl
    rw [hchosen, State.sweepStep_clean (s := s.segWork c 4) hdue hflip hgood, hx, hy]
    rfl
  have hbank (j : Nat) : (State.bank { y.setBank b x with finds := s.finds } j) = if j = b then x else s.bank j := by
    refine (State.bank_setBank y b j x).trans ?_
    rw [show y.bank j = s.bank j by rw [State.bank, hread.banks rfl]; rfl]
  refine ⟨_, exec_lullSegmentDone_of_running hpow hpresent hcur, ?_⟩
  rw [hgo, hbank, if_pos rfl]
  refine ⟨by rw [hx], by rw [hx], fun j e he => Bank.cleaned_all (s.bank b) (by rwa [hx] at he), fun j hj => (hbank j).trans (if_neg hj), ?_⟩
  exact Only.segWork ((hread.mono rfl).trans ((State.setBank_within y b x).only.mono rfl)) rfl

/-- Settles O41: a channel starts a segment as `State.segChoose` finds one due and fitting; the work of a segment that ends is done in
`State.segWork`, where each kind has its own lemma. -/
theorem lullWork : Obligations.LullWork := by
  refine ⟨fun s c hserves hlull hnext => ⟨exec_lullSegmentStart_of_unlocked, exec_lullSegmentStart_of_preLeft,
    fun hlock hpre hreqs htrks => ⟨lullSegmentStart_of_fit hserves hlull hnext hlock hpre hreqs htrks,
      lullSegmentStart_of_late hserves hlull hnext hlock hpre hreqs htrks⟩⟩, fun s c ok errs hpow hpresent => ⟨exec_lullSegmentDone_of_idle,
    lullSegmentDone_of_first hpow hpresent, lullSegmentDone_of_second hpow hpresent, lullSegmentDone_of_failed hpow hpresent,
    lullSegmentDone_of_third_failure hpow hpresent, lullSegmentDone_of_scrub hpow hpresent, ?_⟩⟩
  exact fun b k rest hcur hfind hdue herrs hflip hgood => lullSegmentDone_of_sweep hpow hpresent hcur hfind hdue herrs hflip hgood

end Sys2Proof.Machine
end

section
/-! SUPPORT. What enters the router (R126), and how a slice's registers, victim-buffer entries and trackers read after an update. -/

namespace Sys2Proof.Machine

/-! ### Messages sent -/

section
variable {m : Mask} {s t u : State} {k l : List (Nat × PktBody)}

theorem Sends.trans (h : Sends k s t) (g : Sends l t u) : Sends (k ++ l) s u := by
  rw [Sends] at *
  rw [g, h, List.append_assoc]

/-- Nothing is sent where the router's queue is not touched. -/
theorem Only.sends (h : Only m s t) (hm : m.rtrTx = false) : Sends [] s t := by
  rw [Sends, List.append_nil, show t.rtr.q = s.rtr.q from congrArg Prod.fst (h.rtrTx hm)]

theorem Sends.after (h : Only m s t) (hm : m.rtrTx = false) (g : Sends l t u) : Sends l s u := by
  simpa using (h.sends hm).trans g

theorem Sends.before (g : Sends l s t) (h : Only m t u) (hm : m.rtrTx = false) : Sends l s u := by
  simpa using g.trans (h.sends hm)

theorem State.sendCoh_sends (s : State) (dst : Nat) (a : CohMsg) : Sends [(dst, .coh false a)] s (s.sendCoh dst a) := by
  simp [Sends, State.sendCoh, State.sendPkt]

/-- What a command's work sends, the command sends. -/
theorem Sends.finding {fd : Finds} {go : State → State} (h : Sends l (s.atWork fd) (go (s.atWork fd))) : Sends l s (s.finding fd go) :=
  Sends.after (s.atWork_only fd) rfl h

end

/-! ### Registers, victim-buffer entries and trackers -/

/-- A list searched by key after the elements of one key have been changed. -/
theorem find?_map_at {α : Type} {key : α → Nat} {f : α → α} (hf : ∀ a, key (f a) = key a) (l : List α) (i j : Nat) :
    (l.map fun a => if key a == i then f a else a).find? (fun a => key a == j) =
      (l.find? fun a => key a == j).map fun a => if key a == i then f a else a := by
  rw [List.find?_map]
  congr 2
  funext a
  simp only [Function.comp_apply]
  split
  · rw [hf]
  · rfl

/-- A list searched by a key whose elements have left it. -/
theorem find?_filter_ne {α : Type} (key : α → Nat) (l : List α) (i : Nat) : (l.filter fun a => key a != i).find? (fun a => key a == i) = none := by
  simp

section
variable {m : Mask} {s t : State} {n i : Nat}

theorem Only.nodeNo (h : Only m s t) (hm : m.node = false) : t.nodeNo = s.nodeNo := by
  rw [State.nodeNo, State.nodeNo, h.node hm]

theorem Only.mr (h : Only m s t) (hm : m.slices = false) (n i : Nat) : t.mr n i = s.mr n i := by
  rw [State.mr, State.mr, h.slice hm]

theorem Only.trk (h : Only m s t) (hm : m.slices = false) (n i : Nat) : t.trk n i = s.trk n i := by
  rw [State.trk, State.trk, h.slice hm]

theorem State.mr_idx {r : Mr} (h : s.mr n i = some r) : r.idx = i := by
  simpa using List.find?_some h

theorem State.trk_htid {x : Trk} (h : s.trk n i = some x) : x.htid = i := by
  simpa using List.find?_some h

theorem State.mr_modMr (f : Mr → Mr) (hf : ∀ r, (f r).idx = r.idx) : (s.modMr n i f).mr n i = (s.mr n i).map f := by
  rw [State.mr, State.modMr, State.slice_modSlice_self]
  refine (find?_map_at hf _ i i).trans ?_
  refine Option.map_congr fun r hr => ?_
  rw [if_pos (by simpa using State.mr_idx hr)]

theorem State.trk_modTrk (f : Trk → Trk) (hf : ∀ x, (f x).htid = x.htid) : (s.modTrk n i f).trk n i = (s.trk n i).map f := by
  rw [State.trk, State.modTrk, State.slice_modSlice_self]
  refine (find?_map_at hf _ i i).trans ?_
  refine Option.map_congr fun x hx => ?_
  rw [if_pos (by simpa using State.trk_htid hx)]

theorem State.mr_mrClose (s : State) (n i : Nat) : (s.mrClose n i).mr n i = none := by
  rw [State.mr, State.mrClose, State.slice_modSlice_self]
  exact find?_filter_ne _ _ i

theorem State.trk_dropTrk (s : State) (n i : Nat) : (s.dropTrk n i).trk n i = none := by
  rw [State.trk, State.dropTrk, State.slice_modSlice_self]
  exact find?_filter_ne _ _ i

end
end Sys2Proof.Machine
end

section
/-! SUPPORT. Lookups, reads of ways, changes of tag blocks and writes of the house space leave a slice's transactions as they are:
its registers, victim buffer, holds, waiting snoops, trackers and outstanding writes. -/

namespace Sys2Proof.Machine

/-- A slice without its tag cache, way predictor and ways due for retirement. -/
def Slice.work (x : Slice) : Slice := { x with tc := [], wp := [], retireDue := [] }

/-- Every slice has in `t` the transactions that it has in `s`. -/
def SameWork (s t : State) : Prop := ∀ n, (t.slice n).work = (s.slice n).work

section
variable {m : Mask} {s t u : State}

theorem SameWork.refl (s : State) : SameWork s s := fun _ => rfl

theorem SameWork.trans (h : SameWork s t) (k : SameWork t u) : SameWork s u := fun n => (k n).trans (h n)

theorem SameWork.of_only (h : Only m s t) (hm : m.slices = false) : SameWork s t := fun n => by rw [h.slice hm]

theorem SameWork.ite {c : Prop} [Decidable c] (h : SameWork s t) (k : SameWork s u) : SameWork s (if c then t else u) := by
  split <;> assumption

theorem SameWork.foldl {α : Type} {f : State → α → State} (hf : ∀ x a, SameWork x (f x a)) (l : List α) (s : State) :
    SameWork s (l.foldl f s) :=
  List.foldlRecOn (motive := fun x => SameWork s x) l f (.refl s) fun x hx a _ => hx.trans (hf x a)

theorem SameWork.modSlice (s : State) (n : Nat) {f : Slice → Slice} (hf : (f (s.slice n)).work = (s.slice n).work) :
    SameWork s (s.modSlice n f) := fun k => by
  by_cases hk : k = n
  · rw [hk, State.slice_modSlice_self, hf]
  · rw [State.slice_modSlice_ne _ _ hk]

/-! ### What it says of each kind of transaction -/

theorem SameWork.mrs (h : SameWork s t) (n : Nat) : (t.slice n).mrs = (s.slice n).mrs := (congrArg Slice.mrs (h n) :)
theorem SameWork.vbs (h : SameWork s t) (n : Nat) : (t.slice n).vbs = (s.slice n).vbs := (congrArg Slice.vbs (h n) :)
theorem SameWork.outw (h : SameWork s t) (n : Nat) : (t.slice n).outw = (s.slice n).outw := (congrArg Slice.outw (h n) :)
theorem SameWork.holds (h : SameWork s t) (n : Nat) : (t.slice n).holds = (s.slice n).holds := (congrArg Slice.holds (h n) :)
theorem SameWork.trks (h : SameWork s t) (n : Nat) : (t.slice n).trks = (s.slice n).trks := (congrArg Slice.trks (h n) :)

theorem SameWork.mr (h : SameWork s t) (n i : Nat) : t.mr n i = s.mr n i := by rw [State.mr, State.mr, h.mrs]
theorem SameWork.trk (h : SameWork s t) (n i : Nat) : t.trk n i = s.trk n i := by rw [State.trk, State.trk, h.trks]

/-! ### The operations -/

theorem SameWork.ceWay (s : State) (n set w : Nat) : SameWork s (s.ceWay n set w) := by
  unfold State.ceWay
  extract_lets r c c' t u thr
  have hu : SameWork s u := .of_only ((State.putRec_within s n set _).only.trans ((t.bucket_within _).only.mono rfl)) rfl
  have hdue : SameWork s (u.modSlice n fun x => if x.retireDue.contains (set, w) then x else { x with retireDue := x.retireDue ++ [(set, w)] }) :=
    hu.trans (.modSlice u n (by split <;> rfl))
  exact .ite hu (.ite hdue (.ite (hu.trans (.of_only (u.rec__within _ _ _ _ _).only rfl)) hu))

theorem SameWork.wordErr (s : State) (n set w : Nat) : SameWork s (s.wordErr n set w).2 := by
  have hpop : SameWork s s.popWay.2 := .of_only (s.popWay_within).only rfl
  exact .ite (hpop.trans (.ceWay _ n set w)) hpop

theorem SameWork.nearAccess (s : State) (n set k : Nat) (wr : Bool) : SameWork s (s.nearAccess n set k wr) :=
  .of_only (s.nearAccess_within n set k wr).only rfl

theorem SameWork.readWay (s : State) (n set w : Nat) (here : Bool) : SameWork s (s.readWay n set w here).2 :=
  .trans (.ite (.refl s) (.nearAccess s n set w false)) (.wordErr _ n set w)

theorem SameWork.guessLost (s : State) (n set g : Nat) : SameWork s (s.guessLost n set g) := .ite (.refl s) (.wordErr s n set g)

theorem SameWork.putTags (s : State) (n set : Nat) (b : TagBlk) : SameWork s (s.putTags n set b) := by
  have hnear (t : State) (c : TagBlk) : SameWork t (t.putNearTags n set c) := .of_only (t.putNearTags_within n set c).only rfl
  unfold State.putTags
  extract_lets old
  refine .ite (.refl s) ?_
  split
  · exact .ite (hnear s _) (.ite (.modSlice s n rfl) (.ite (.refl s) (.trans (.modSlice s n rfl) (hnear _ _))))
  · exact .ite (.refl s) (hnear s _)

theorem SameWork.putEnt (s : State) (n set w : Nat) (e : TagEnt) : SameWork s (s.putEnt n set w e) := .putTags s n set _

theorem SameWork.dropLine (s : State) (n la w : Nat) (coh : Bool) : SameWork s (s.dropLine n la w coh) := by
  unfold State.dropLine
  extract_lets set e t
  have ht : SameWork s t := .putEnt s n set w _
  exact .ite (ht.trans (.of_only (t.event_within _ _ _).only rfl)) ht

theorem SameWork.setLineState (s : State) (n la w : Nat) (st : BitVec 3) : SameWork s (s.setLineState n la w st) := .putEnt s n _ w _

theorem SameWork.wayCheck (s : State) (n la w : Nat) (st : BitVec 3) (here : Bool) : SameWork s (s.wayCheck n la w st here) := by
  unfold State.wayCheck
  split
  next e t he =>
    have ht : SameWork s t := by
      have h := SameWork.readWay s n (setOf s.part la) w here
      rwa [he] at h
    extract_lets v
    have hv : SameWork s v := ht.trans (.of_only (t.ueData_within _ _ _ _).only rfl)
    exact .ite (.ite (hv.trans (.dropLine v n la w true)) (.ite hv (hv.trans (.setLineState v n la w stP)))) ht

theorem SameWork.predict (s : State) (n la w : Nat) : SameWork s (s.predict n la w) := .modSlice s n (by split <;> rfl)

theorem Slice.tcUse_work (x : Slice) (key : Nat) : (x.tcUse key).work = x.work := by
  unfold Slice.tcUse
  extract_lets base refd all
  generalize List.range 12 = l
  refine List.foldlRecOn (motive := fun y : Slice => y.work = x.work) l _ rfl fun y hy i _ => ?_
  split
  · exact hy
  · exact hy

theorem SameWork.tcAlloc {n q : Nat} (h : s.tcAlloc n q = some t) : SameWork s t := by
  simp only [State.tcAlloc, Option.map_eq_some_iff] at h
  obtain ⟨key, -, rfl⟩ := h
  refine .trans ?_ (.modSlice _ n (Slice.tcUse_work _ key))
  split
  · exact .of_only (s.tcWriteBack_within n _).only rfl
  · exact .refl s

theorem SameWork.tcKeep (s : State) (n set q : Nat) : SameWork s (s.tcKeep n set q) := by
  refine .ite (.refl s) ?_
  split
  · next t ht => exact (SameWork.tcAlloc ht).trans (.modSlice t n rfl)
  · exact .refl s

theorem SameWork.tagIssue (s : State) (n set : Nat) (la : Option Nat) : SameWork s (s.tagIssue n set la).1 :=
  .of_only (s.tagIssue_within n set la).only rfl

theorem SameWork.touchMiss (s : State) (n set : Nat) (la : Option Nat) : SameWork s (s.touchMiss n set la).2 := by
  unfold State.touchMiss
  split
  next e t he =>
    have ht : SameWork s t := by
      have h : SameWork s (s.event n 7 1).popTag.2 :=
        (SameWork.of_only (s.event_within n 7 1).only rfl).trans (.of_only (State.popTag_within _).only rfl)
      rwa [he] at h
    split
    next u g hu =>
      have hu : SameWork s u := by
        have h := ht.trans (.tagIssue t n set la)
        rwa [hu] at h
      extract_lets v
      have hv : SameWork s v := (hu.trans (.of_only (u.tagRead_within n set e).only rfl)).trans (.tcKeep _ n set _)
      split
      · split
        · exact hv.trans (.predict v n _ _)
        · exact (hv.trans ((SameWork.ite (.refl v) (.of_only (v.event_within _ _ _).only rfl)).trans (.guessLost _ n set g))).trans (.predict _ n _ _)
      · exact hv.trans (.guessLost v n set g)

theorem SameWork.touchGuess (s : State) (n set : Nat) (la : Option Nat) : SameWork s (s.touchGuess n set la).2 := by
  unfold State.touchGuess
  extract_lets q
  split
  · exact .refl s
  · split
    next k e _ =>
      split
      · exact .touchMiss s n set la
      · split
        · exact .refl s
        · split
          · exact (SameWork.of_only (s.rec__within _ _ _ _ _).only rfl).trans (.trans (.modSlice _ n rfl) (.touchMiss _ n set la))
          · have huse : SameWork s (s.modSlice n fun x => x.tcUse k) := .modSlice s n (f := fun x => x.tcUse k) (Slice.tcUse_work (s.slice n) k)
            exact huse.trans (.of_only (State.event_within _ n 6 1).only rfl)
    · exact .touchMiss s n set la

theorem SameWork.touchLine (s : State) (row la : Nat) : SameWork s (s.touchLine row la).2 :=
  (SameWork.of_only (s.pipe_within (sliceOf la) row la 0).only rfl).trans (.touchGuess _ _ _ _)

/-! ### Writes of the house space -/

theorem SameWork.setCunit (s : State) (c u : Nat) (x : CUnit) : SameWork s (s.setCunit c u x) := .of_only (s.setCunit_within c u x).only rfl

theorem SameWork.chanEnq (s : State) (c u : Nat) (r : ChReq) : SameWork s (s.chanEnq c u r) := .of_only (s.chanEnq_within c u r).only rfl

theorem SameWork.houseOut (s : State) (c u : Nat) (m : MergeEnt) : SameWork s (s.houseOut c u m) := by
  have hwrite (x : State) (r : ChReq) : SameWork x ((x.flipNear c m.addr).chanEnq c u r) :=
    .trans (.of_only (x.flipNear_within c m.addr).only rfl) (.chanEnq _ c u r)
  unfold State.houseOut
  extract_lets x row k r y
  have hy : SameWork s y := .setCunit s c u _
  split
  · exact hy.trans (hwrite y r)
  · split
    next n set _ =>
      split
      next e z hz =>
        have hread : SameWork y z := by
          have hword := SameWork.wordErr (y.chanEnq c u { r with wr := false }) n set k
          rw [hz] at hword
          exact .trans (.chanEnq y c u _) hword
        refine hy.trans (hread.trans (.trans (.ite (.refl z) ?_) (hwrite _ r)))
        exact .trans (.of_only (State.ueData_within z _ _ _ _).only rfl) (fun _ => rfl)

theorem SameWork.houseMerge (s : State) (hla : Nat) (be : BitVec 64) : SameWork s (s.houseMerge hla be) := by
  unfold State.houseMerge
  split
  split
  · exact .refl s
  · split
    · exact .ite (.houseOut _ _ _ _) (.setCunit _ _ _ _)
    · refine .trans (.ite (.refl s) ?_) (.setCunit _ _ _ _)
      split
      · exact .houseOut _ _ _ _
      · exact .refl s

theorem SameWork.setBank (s : State) (b : Nat) (x : Bank) : SameWork s (s.setBank b x) :=
  ((SameWork.foldl (fun y _ => .of_only (y.flipDone_within _ _ _).only rfl) _ s).trans
    (.foldl (fun y _ => .houseMerge y _ _) _ _)).trans (fun _ => rfl)

end
end Sys2Proof.Machine
end

section
/-! SUPPORT. Answers at the requester (R127, R129, R139, R140): what each leaves of the register or victim-buffer entry that it names. -/

namespace Sys2Proof.Machine

section
variable {s t : State} {m : CohMsg} {r : Mr} {n i : Nat}

/-! ### The register that a message names -/

theorem OnlyRegister.of_only {k : Mask} (h : OnlyRegister s m.la r) (ho : Only k s t) (hslices : k.slices = false) (hpcr : k.pcr = false)
    (hnode : k.node = false) : OnlyRegister t m.la r where
  powered := by rw [ho.powered hpcr]; exact h.powered
  away := by rw [ho.nodeNo hnode]; exact h.away
  only := by rw [ho.slice hslices]; exact h.only
  line := h.line
  number := h.number
  sent := h.sent
  fresh := h.fresh
  noOut := by rw [ho.slice hslices]; exact h.noOut
  noVb := by rw [ho.slice hslices]; exact h.noVb

theorem OnlyRegister.mr (h : OnlyRegister s m.la r) : s.mr (sliceOf m.la) r.idx = some r := by
  simp [State.mr, h.only]

theorem tidMr_lt {n i : Nat} (hn : n < 64) (hi : i < 64) : tidMr n i < 4096 := by
  unfold tidMr
  omega

theorem OnlyRegister.named (h : OnlyRegister s m.la r) (htid : m.tid = tidMr (sliceOf m.la) r.idx) : s.mrNamed m = some r := by
  have hn := sliceOf_lt m.la
  have hi := h.number
  have hslice : m.tid / 64 % 64 = sliceOf m.la := by rw [htid, tidMr]; omega
  have hreg : m.tid % 64 = r.idx := by rw [htid, tidMr]; omega
  have hlt : ¬ 4096 ≤ m.tid := by rw [htid]; exact Nat.not_le.mpr (tidMr_lt hn hi)
  rw [State.mrNamed, if_neg hlt, hslice, hreg, h.mr]
  simp [h.line, h.sent]

theorem OnlyRegister.vbNamed (h : OnlyRegister s m.la r) (htid : m.tid = tidMr (sliceOf m.la) r.idx) : s.vbNamed m = none := by
  rw [State.vbNamed, if_pos]
  rw [htid]
  exact tidMr_lt (sliceOf_lt m.la) h.number

/-! ### A grant (R129) -/

/-- The register as its answer leaves it. -/
def Mr.answered (r : Mr) (grant : Nat) (d : Option (Line × Bool)) : Mr :=
  { r with st := .answered, grant := grant, data := d, refSeq := 0, ticket := none, early := r.secs.length,
           won := if grant = 0 then 0 else r.secs.length }

theorem State.mrAnswer_of_sent (hr : s.mr n i = some r) (hsent : r.st = .sent) (hfresh : r.refSeq = 0) (grant : Nat) (d : Option (Line × Bool)) :
    (s.mrAnswer n i grant d).mr n i = some (r.answered grant d) ∧ Only { slices := true } s (s.mrAnswer n i grant d) := by
  have h : s.mrAnswer n i grant d = s.modMr n i fun m => m.answered grant d := by
    simp [State.mrAnswer, hr, hsent, hfresh, Mr.answered]
  rw [h, State.mr_modMr (fun m => m.answered grant d) fun _ => rfl, hr]
  exact ⟨rfl, (State.modMr_within _ _ _ _).only⟩

/-- The confirming ACK of a grant. -/
def confirmation (m : CohMsg) (node : Nat) : CohMsg := { opc := opACK, tid := m.tid, req := node, htid := m.htid, la := m.la }

theorem State.dataArrive_of_grant (h : OnlyRegister s m.la r) (htid : m.tid = tidMr (sliceOf m.la) r.idx) (hupg : r.opc ≠ opUPG)
    (hgrant : m.grant ≠ 0) (src : Nat) :
    (s.dataArrive src m).mr (sliceOf m.la) r.idx = some (r.answered m.grant (some (m.data, m.poison))) ∧
      Sends [(laNode m.la, .coh false (confirmation m s.nodeNo))] s (s.dataArrive src m) := by
  have hcons := (s.consumeCoh_within src m).only
  have hc : OnlyRegister (s.consumeCoh src m) m.la r := h.of_only hcons rfl rfl rfl
  have hgo : s.dataArrive src m = ((s.consumeCoh src m).mrAnswer (sliceOf m.la) r.idx m.grant (some (m.data, m.poison))).confirm m := by
    simp [State.dataArrive, hc.powered, hc.away, hc.named htid, hupg, hgrant]
  obtain ⟨hreg, honly⟩ := State.mrAnswer_of_sent hc.mr hc.sent hc.fresh m.grant (some (m.data, m.poison))
  rw [hgo]
  refine ⟨hreg, .after hcons rfl (.after honly rfl ?_)⟩
  rw [State.confirm, honly.nodeNo rfl, hcons.nodeNo rfl]
  exact State.sendCoh_sends _ _ _

theorem exec_data_of_grant (h : OnlyRegister s m.la r) (htid : m.tid = tidMr (sliceOf m.la) r.idx) (hupg : r.opc ≠ opUPG)
    (hgrant : m.grant ≠ 0) (src : Nat) (fd : Finds) :
    ∃ t, exec (.data src m fd) s = .next t ∧
      t.mr (sliceOf m.la) r.idx =
        some { r with st := .answered, grant := m.grant, data := some (m.data, m.poison), ticket := none, early := r.secs.length,
                      won := r.secs.length } ∧
      Sends [(laNode m.la, .coh false { opc := opACK, tid := m.tid, req := s.nodeNo, htid := m.htid, la := m.la })] s t := by
  have hwork : OnlyRegister (s.atWork fd) m.la r := h.of_only (s.atWork_only fd) rfl rfl rfl
  obtain ⟨hreg, hsends⟩ := State.dataArrive_of_grant (m := { m with opc := opDATA }) hwork htid hupg hgrant src
  rw [(s.atWork_only fd).nodeNo rfl] at hsends
  refine ⟨s.finding fd fun s => s.dataArrive src { m with opc := opDATA }, rfl, ?_, .finding hsends⟩
  have hanswer : r.answered m.grant (some (m.data, m.poison)) =
      { r with st := .answered, grant := m.grant, data := some (m.data, m.poison), ticket := none, early := r.secs.length,
               won := r.secs.length } := by
    rw [Mr.answered, if_neg hgrant, ← h.fresh]
  rw [← hanswer]
  exact hreg

/-! ### The end of a write-back (R84, R85) -/

theorem State.wakeVb_of_no_mrs (hmrs : (s.slice n).mrs = []) : s.wakeVb n = s := by
  simp [State.wakeVb, hmrs]

/-- A victim-buffer entry with its message answered. -/
def Vb.ended (v : Vb) : Vb := { v with done := true, refSeq := 0 }

theorem State.vbEnd_of_no_hosts {v : Vb} (hvbs : (s.slice n).vbs = [v]) (hmrs : (s.slice n).mrs = []) (hfresh : v.refSeq = 0)
    (hhosts : s.noHosts v.la = true) : s.vbEnd n v = (s.modVb n v.idx Vb.ended).vbFree n v.idx := by
  have hvb : (s.modVb n v.idx Vb.ended).vb n v.idx = some v.ended := by
    simp [State.vb, State.modVb, hvbs, Vb.ended]
  have hgo : (s.modVb n v.idx Vb.ended).vbGo n v.idx = (s.modVb n v.idx Vb.ended).vbFree n v.idx := by
    have hhosts' : (s.modVb n v.idx Vb.ended).noHosts v.la = true := hhosts
    simp [State.vbGo, hvb, hhosts', Vb.ended]
  have hwake : ((s.modVb n v.idx Vb.ended).vbFree n v.idx).wakeVb n = (s.modVb n v.idx Vb.ended).vbFree n v.idx :=
    State.wakeVb_of_no_mrs (by simp [State.vbFree, State.modVb, hmrs])
  rw [State.vbEnd]
  simp only [hfresh, bne_self_eq_false, Bool.false_eq_true, if_false]
  exact (congrArg (·.wakeVb n) hgo).trans hwake

theorem State.vbNamed_of_only {v : Vb} (hvbs : (s.slice (sliceOf m.la)).vbs = [v]) (hidx : v.idx < 16) (hla : v.la = m.la)
    (hsent : v.sent = true) (hdone : v.done = false) (htid : m.tid = tidVb (sliceOf m.la) v.idx) : s.vbNamed m = some v := by
  have hn := sliceOf_lt m.la
  have hslice : m.tid / 64 % 64 = sliceOf m.la := by rw [htid, tidVb]; omega
  have hent : m.tid % 64 = v.idx := by rw [htid, tidVb]; omega
  have hge : ¬ m.tid < 4096 := by rw [htid, tidVb]; omega
  rw [State.vbNamed, if_neg hge, hslice, hent]
  simp [State.vb, hvbs, hla, hsent, hdone]

theorem State.ackArrive_of_writeBack {v : Vb} (hpow : s.powered = true) (haway : laNode m.la ≠ s.nodeNo)
    (hvbs : (s.slice (sliceOf m.la)).vbs = [v]) (hidx : v.idx < 16) (hla : v.la = m.la) (hsent : v.sent = true) (hdone : v.done = false)
    (hfresh : v.refSeq = 0) (hhosts : s.noHosts m.la = true) (haction : v.action = 2) (htid : m.tid = tidVb (sliceOf m.la) v.idx)
    (hmrs : (s.slice (sliceOf m.la)).mrs = []) (src : Nat) :
    s.ackArrive src m = ((s.consumeCoh src m).modVb (sliceOf m.la) v.idx Vb.ended).vbFree (sliceOf m.la) v.idx := by
  have hpow' : (s.consumeCoh src m).powered = true := hpow
  have haway' : laNode m.la ≠ (s.consumeCoh src m).nodeNo := haway
  have hnamed : (s.consumeCoh src m).vbNamed m = some v := State.vbNamed_of_only (s := s.consumeCoh src m) hvbs hidx hla hsent hdone htid
  have hend := State.vbEnd_of_no_hosts (s := s.consumeCoh src m) hvbs hmrs hfresh (by rw [hla]; exact hhosts)
  simp [State.ackArrive, hpow', haway', hnamed, haction, hend]

theorem exec_ack_of_writeBack {v : Vb} (hpow : s.powered = true) (haway : laNode m.la ≠ s.nodeNo)
    (hvbs : (s.slice (sliceOf m.la)).vbs = [v]) (hidx : v.idx < 16) (hla : v.la = m.la) (hsent : v.sent = true) (hdone : v.done = false)
    (hfresh : v.refSeq = 0) (hhosts : s.noHosts m.la = true) (haction : v.action = 2) (htid : m.tid = tidVb (sliceOf m.la) v.idx)
    (hmrs : (s.slice (sliceOf m.la)).mrs = []) (src : Nat) (fd : Finds) :
    ∃ t, exec (.ack src m fd) s = .next t ∧ (t.slice (sliceOf m.la)).vbs = [] ∧ Sends [] s t ∧
      Only { slices := true, rtrRx := true, events := true, trc := true, trcCfg := true, ledger := true, bkt := true, due := true, irq := true, pba := true, outs := true } s t := by
  have hwork := s.atWork_only fd
  have hslice := hwork.slice rfl (sliceOf m.la)
  have hgo := State.ackArrive_of_writeBack (m := { m with opc := opACK }) (s := s.atWork fd) ((hwork.powered rfl).trans hpow)
    (by rw [hwork.nodeNo rfl]; exact haway) (by rw [hslice]; exact hvbs) hidx hla hsent hdone hfresh
    (by rw [State.noHosts, hwork.hsfCopies rfl, hwork.biOpen rfl]; exact hhosts) haction htid (by rw [hslice]; exact hmrs) src
  have honly : Only { slices := true, rtrRx := true } (s.atWork fd) ((s.atWork fd).ackArrive src { m with opc := opACK }) := by
    rw [hgo]
    exact (((State.consumeCoh_within _ _ _).only.mono rfl).trans ((State.modVb_within _ _ _ _).only.mono rfl)).trans
      ((State.vbFree_within _ _ _).only.mono rfl)
  have hfree : (((s.atWork fd).ackArrive src { m with opc := opACK }).slice (sliceOf m.la)).vbs = [] := by
    have hcons : (((s.atWork fd).consumeCoh src { m with opc := opACK }).slice (sliceOf m.la)).vbs = [v] :=
      (congrArg Slice.vbs hslice).trans hvbs
    rw [hgo]
    simp [State.vbFree, State.modVb, hcons, Vb.ended]
  exact ⟨s.finding fd fun s => s.ackArrive src { m with opc := opACK }, rfl, hfree, .finding (honly.sends rfl),
    Only.resetFinds ((hwork.mono rfl).trans (honly.mono rfl)) rfl⟩

end
end Sys2Proof.Machine
end

section
/-! SUPPORT. Refusals at the requester (R138 to R140), its reissues (R139), and the requests that fail (R127, R147, R328). -/

namespace Sys2Proof.Machine

section
variable {s t : State} {m : CohMsg} {r : Mr} {n i home opc : Nat}

/-! ### A request goes out -/

/-- A register whose message is under way. -/
def Mr.inFlight (r : Mr) (s : State) (opc home : Nat) (pf : Bool) : Mr :=
  { r with st := .sent, opc := opc, home := home, pf := pf, since := s.mtu.mt, advs := s.lse.count }

/-- The requests that ask their home for a copy or for an atomic; they are no global accesses, and nothing of them is handed over. -/
def asksHome (opc : Nat) : Prop := opc ∈ [opRDS, opRDX, opUPG, opATOM]

theorem asksHome_iff : asksHome opc ↔ opc = 0 ∨ opc = 1 ∨ opc = 2 ∨ opc = 6 := by
  simp [asksHome, opRDS, opRDX, opUPG, opATOM]

theorem State.mrTransmit_of_asks (hr : s.mr n i = some r) (hopc : asksHome r.opc) :
    s.mrTransmit n i =
      ((s.modMr n i fun m => m.inFlight s r.opc (laNode r.la) r.isPf).markIssued r.prim.src).sendCoh (laNode r.la) (s.mrMsg n r r.opc r.isPf) := by
  rw [asksHome_iff] at hopc
  have hchosen : (r.opc == 0x1F) = false := by rcases hopc with h | h | h | h <;> rw [h] <;> rfl
  have hcoh : (r.opc == opGRD || r.opc == opGWR || r.opc == opGATOM) = false := by rcases hopc with h | h | h | h <;> rw [h] <;> rfl
  have hread : (r.opc == opIWR || r.opc == opGWR) = false := by rcases hopc with h | h | h | h <;> rw [h] <;> rfl
  simp only [State.mrTransmit, hr, hchosen, hcoh, hread, Bool.false_eq_true, if_false]
  rfl

theorem State.mrTransmit_sends (hr : s.mr n i = some r) (hopc : asksHome r.opc) :
    (∃ y, (s.mrTransmit n i).mr n i = some y ∧ y.st = .sent) ∧
      Sends [(laNode r.la, .coh false (s.mrMsg n r r.opc r.isPf))] s (s.mrTransmit n i) := by
  have hmod := (s.modMr_within n i fun m => m.inFlight s r.opc (laNode r.la) r.isPf).only
  have hmark := ((s.modMr n i fun m => m.inFlight s r.opc (laNode r.la) r.isPf).markIssued_within r.prim.src).only
  rw [State.mrTransmit_of_asks hr hopc]
  refine ⟨⟨r.inFlight s r.opc (laNode r.la) r.isPf, ?_, rfl⟩, .after hmod rfl (.after hmark rfl (State.sendCoh_sends _ _ _))⟩
  rw [(State.sendCoh_within _ _ _).only.mr rfl, hmark.mr rfl, State.mr_modMr (fun q => q.inFlight s r.opc (laNode r.la) r.isPf) fun _ => rfl, hr,
    Option.map_some]

/-! ### RETRY (R139, R140) -/

theorem State.release_of_idle (hmrs : (s.slice n).mrs = []) (houtw : (s.slice n).outw = []) (hvbs : (s.slice n).vbs = []) :
    s.release n home opc = s := by
  simp [State.release, State.oldestRefused, hmrs, houtw, hvbs]

/-- A register held for reissue, refused at core clock `clk` as number `seq`. -/
def Mr.heldFor (r : Mr) (seq clk : Nat) (ticket : Option Nat) : Mr :=
  { r with st := .refused, refSeq := seq, ticket := ticket, gapEnd := clk + 8 * r.gap }

/-- The additions or the voiding of bounds that a refusal brings the requests of a register (Table 9.7). -/
def State.refusalCost (s : State) (n i : Nat) (r : Mr) (ticket : Option Nat) : State :=
  match ticket with
  | some _ => s.extendMr n i (2 * (48 * s.domHops) + (s.bound 2 n).getD 0)
  | none => if r.opc < 0x18 then (r.prim :: r.secs).foldl (fun s (q : Req) => s.void q.src) s else s

theorem State.refusalCost_only (s : State) (n i : Nat) (r : Mr) (ticket : Option Nat) : Only { hreqs := true } s (s.refusalCost n i r ticket) := by
  unfold State.refusalCost
  split
  · exact (s.extendMr_within _ _ _).only
  · split
    · exact .foldl (fun x (q : Req) => (x.void_within q.src).only) _ s
    · exact .refl _ s

/-- Register `i` is held as the next refused one of its slice. -/
def State.holdMr (s : State) (n i : Nat) (ticket : Option Nat) : State :=
  (s.modSlice n fun x => { x with nextRef := x.nextRef + 1 }).modMr n i fun q => q.heldFor (s.slice n).nextRef s.clk ticket

theorem State.mrRefused_eq (hr : s.mr n i = some r) (hsent : r.st = .sent) (hpf : r.isPf = false) (hfresh : r.refSeq = 0) (ticket : Option Nat) :
    s.mrRefused n i ticket =
      match ((s.refusalCost n i r ticket).holdMr n i ticket).oldestRefused n r.home r.opc with
      | some (k, _) =>
        if ticket.isSome && k == ((s.refusalCost n i r ticket).slice n).nextRef then ((s.refusalCost n i r ticket).holdMr n i ticket).mrTransmit n i
        else (s.refusalCost n i r ticket).holdMr n i ticket
      | none => (s.refusalCost n i r ticket).holdMr n i ticket := by
  simp only [State.mrRefused, hr, hsent, hpf, hfresh]
  rfl

theorem State.holdMr_mr (hr : s.mr n i = some r) (ticket : Option Nat) :
    (s.holdMr n i ticket).mr n i = some (r.heldFor (s.slice n).nextRef s.clk ticket) := by
  have hmr : (s.modSlice n fun x => { x with nextRef := x.nextRef + 1 }).mr n i = some r := by
    rw [State.mr, State.slice_modSlice_self]
    exact hr
  rw [State.holdMr, State.mr_modMr (fun q => q.heldFor (s.slice n).nextRef s.clk ticket) fun _ => rfl, hmr, Option.map_some]

theorem State.holdMr_only (s : State) (n i : Nat) (ticket : Option Nat) : Only { slices := true } s (s.holdMr n i ticket) :=
  ((s.modSlice_within n _).only).trans (State.modMr_within _ _ _ _).only

/-- Without a ticket a demand is held, and nothing goes out (R139). -/
theorem State.mrRefused_held (hr : s.mr n i = some r) (hsent : r.st = .sent) (hpf : r.isPf = false) (hfresh : r.refSeq = 0) :
    (s.mrRefused n i none).mr n i = some (r.heldFor (s.slice n).nextRef s.clk none) ∧ Only { slices := true, hreqs := true } s (s.mrRefused n i none) := by
  have hcost := s.refusalCost_only n i r none
  have hgo : s.mrRefused n i none = (s.refusalCost n i r none).holdMr n i none := by
    rw [State.mrRefused_eq hr hsent hpf hfresh]
    split <;> rfl
  rw [hgo, State.holdMr_mr ((hcost.mr rfl n i).trans hr), hcost.slice rfl, hcost.clk rfl]
  exact ⟨rfl, (hcost.mono rfl).trans ((State.holdMr_only _ _ _ _).mono rfl)⟩

/-- The oldest refused request of its class that is given a ticket goes again at once (R139). -/
theorem State.mrRefused_ticket (hmrs : (s.slice n).mrs = [r]) (houtw : (s.slice n).outw = []) (hsent : r.st = .sent) (hpf : r.isPf = false)
    (hfresh : r.refSeq = 0) (hopc : asksHome r.opc) (href : (s.slice n).nextRef ≠ 0) (tkt : Nat) :
    ∃ x, x.tkt = true ∧ x.htid = tkt ∧ x.opc = r.opc ∧ x.tid = tidMr n r.idx ∧ x.la = r.la ∧
      Sends [(laNode r.la, .coh false x)] s (s.mrRefused n r.idx (some tkt)) := by
  have hr : s.mr n r.idx = some r := by simp [State.mr, hmrs]
  have hcost := s.refusalCost_only n r.idx r (some tkt)
  generalize hu : s.refusalCost n r.idx r (some tkt) = u at hcost
  generalize hheld : r.heldFor (u.slice n).nextRef u.clk (some tkt) = q
  have hmr : (u.holdMr n r.idx (some tkt)).mr n r.idx = some q := by rw [State.holdMr_mr ((hcost.mr rfl _ _).trans hr), hheld]
  have hmrs' : ((u.holdMr n r.idx (some tkt)).slice n).mrs = [q] := by
    simp [State.holdMr, State.modMr, hcost.slice rfl, hmrs, ← hheld]
  have houtw' : ((u.holdMr n r.idx (some tkt)).slice n).outw = [] := by
    simp [State.holdMr, State.modMr, hcost.slice rfl, houtw]
  have hold : (u.holdMr n r.idx (some tkt)).oldestRefused n r.home r.opc = some ((u.slice n).nextRef, .mr r.idx) := by
    have hnot : (r.opc == opGWR) = false := by
      rw [asksHome_iff] at hopc
      rcases hopc with h | h | h | h <;> rw [h] <;> rfl
    have href' : (u.slice n).nextRef ≠ 0 := by rw [hcost.slice rfl]; exact href
    simp [State.oldestRefused, hmrs', houtw', hnot, ← hheld, Mr.heldFor, href']
  have hgo : s.mrRefused n r.idx (some tkt) = (u.holdMr n r.idx (some tkt)).mrTransmit n r.idx := by
    rw [State.mrRefused_eq hr hsent hpf hfresh, hu, hold]
    simp
  rw [hgo]
  have hsends := (State.mrTransmit_sends hmr (by rw [← hheld]; exact hopc)).2
  refine ⟨(u.holdMr n r.idx (some tkt)).mrMsg n q q.opc q.isPf, ?_⟩
  subst hheld
  exact ⟨rfl, rfl, rfl, rfl, rfl, .after hcost rfl (.after (u.holdMr_only n r.idx (some tkt)) rfl hsends)⟩

/-- A refused prefetch is dropped (R90). -/
theorem State.mrRefused_of_pf (hmrs : (s.slice n).mrs = [r]) (houtw : (s.slice n).outw = []) (hvbs : (s.slice n).vbs = [])
    (hsent : r.st = .sent) (hpf : r.isPf = true) (ticket : Option Nat) :
    s.mrRefused n r.idx ticket = (s.event n 0x0F 1).mrClose n r.idx := by
  have hr : s.mr n r.idx = some r := by simp [State.mr, hmrs]
  have hevent : ((s.event n 0x0F 1).slice n) = s.slice n := (s.event_within _ _ _).only.slice rfl n
  simp only [State.mrRefused, hr, hsent, hpf, bne_self_eq_false, Bool.false_eq_true, if_false, if_true]
  exact State.release_of_idle (by simp [State.mrClose, hevent, hmrs]) (by simp [State.mrClose, hevent, houtw])
    (by simp [State.mrClose, hevent, hvbs])

theorem State.retryArrive_of_only (h : OnlyRegister s m.la r) (htid : m.tid = tidMr (sliceOf m.la) r.idx) (src : Nat) :
    s.retryArrive src m = (s.consumeCoh src m).mrRefused (sliceOf m.la) r.idx (if m.tkt then some m.htid else none) := by
  have hc : OnlyRegister (s.consumeCoh src m) m.la r := h.of_only (s.consumeCoh_within src m).only rfl rfl rfl
  simp [State.retryArrive, hc.powered, hc.named htid]

theorem exec_retry_of_pf (h : OnlyRegister s m.la r) (htid : m.tid = tidMr (sliceOf m.la) r.idx) (hpf : r.isPf = true) (src : Nat) :
    ∃ t, exec (.retry src m) s = .next t ∧ t.mr (sliceOf m.la) r.idx = none ∧ Sends [] s t := by
  have hcons := (s.consumeCoh_within src { m with opc := opRETRY }).only
  have hc : OnlyRegister (s.consumeCoh src { m with opc := opRETRY }) m.la r := h.of_only hcons rfl rfl rfl
  refine ⟨_, rfl, ?_⟩
  rw [State.retryArrive_of_only (m := { m with opc := opRETRY }) h htid, State.mrRefused_of_pf hc.only hc.noOut hc.noVb hc.sent hpf]
  exact ⟨State.mr_mrClose _ _ _, .after hcons rfl (.after (State.event_within _ _ _ _).only rfl ((State.mrClose_within _ _ _).only.sends rfl))⟩

theorem exec_retry_of_demand (h : OnlyRegister s m.la r) (htid : m.tid = tidMr (sliceOf m.la) r.idx) (hpf : r.isPf = false)
    (htkt : m.tkt = false) (href : (s.slice (sliceOf m.la)).nextRef ≠ 0) (src : Nat) :
    ∃ t y, exec (.retry src m) s = .next t ∧ t.mr (sliceOf m.la) r.idx = some y ∧ y.st = .refused ∧
      y.refSeq ≠ 0 ∧ y.ticket = none ∧ Sends [] s t := by
  have hcons := (s.consumeCoh_within src { m with opc := opRETRY }).only
  have hc : OnlyRegister (s.consumeCoh src { m with opc := opRETRY }) m.la r := h.of_only hcons rfl rfl rfl
  obtain ⟨hreg, honly⟩ := State.mrRefused_held hc.mr hc.sent hpf hc.fresh
  refine ⟨_, r.heldFor (s.slice (sliceOf m.la)).nextRef s.clk none, rfl, ?_⟩
  rw [State.retryArrive_of_only (m := { m with opc := opRETRY }) h htid, if_neg (by simp [htkt])]
  exact ⟨hreg, rfl, href, rfl, .after hcons rfl (honly.sends rfl)⟩

theorem exec_retry_of_ticket (h : OnlyRegister s m.la r) (htid : m.tid = tidMr (sliceOf m.la) r.idx) (hpf : r.isPf = false)
    (htkt : m.tkt = true) (hopc : asksHome r.opc) (href : (s.slice (sliceOf m.la)).nextRef ≠ 0) (src : Nat) :
    ∃ t a, exec (.retry src m) s = .next t ∧ Sends [(laNode m.la, .coh false a)] s t ∧ a.opc = r.opc ∧ a.tkt = true ∧
      a.htid = m.htid ∧ a.tid = m.tid ∧ a.la = m.la := by
  have hcons := (s.consumeCoh_within src { m with opc := opRETRY }).only
  have hc : OnlyRegister (s.consumeCoh src { m with opc := opRETRY }) m.la r := h.of_only hcons rfl rfl rfl
  obtain ⟨a, hatkt, hahtid, haopc, hatid, hala, hsends⟩ := State.mrRefused_ticket hc.only hc.noOut hc.sent hpf hc.fresh hopc href m.htid
  refine ⟨_, a, rfl, ?_⟩
  rw [State.retryArrive_of_only (m := { m with opc := opRETRY }) h htid, if_pos (by simp [htkt])]
  rw [h.line] at hsends hala
  exact ⟨.after hcons rfl hsends, haopc, hatkt, hahtid, hatid.trans htid.symm, hala⟩

/-! ### RETRY_GAP (R139, R181) -/

theorem exec_retryGapExpiry_of_due {k : Nat} (hold : s.oldestRefused n home opc = some (k, .mr i)) (hr : s.mr n i = some r)
    (hst : r.st = .refused) (hdue : r.gapEnd ≤ s.clk) (hticket : r.ticket = none) (hopc : asksHome r.opc) :
    ∃ t y a, exec (.retryGapExpiry n home opc) s = .next t ∧ t.mr n i = some y ∧ y.st = .sent ∧
      Sends [(laNode r.la, .coh false a)] s t ∧ a.opc = r.opc ∧ a.tkt = false ∧ a.la = r.la := by
  have hgo : s.gapExpiry n home opc = s.mrTransmit n i := by simp [State.gapExpiry, hold, hr, hst, hdue, hticket]
  obtain ⟨⟨y, hy, hyst⟩, hsends⟩ := State.mrTransmit_sends hr hopc
  refine ⟨_, y, s.mrMsg n r r.opc r.isPf, rfl, ?_⟩
  rw [hgo]
  exact ⟨hy, hyst, hsends, rfl, congrArg Option.isSome hticket, rfl⟩

theorem exec_retryGapExpiry_of_early {k : Nat} (hold : s.oldestRefused n home opc = some (k, .mr i)) (hr : s.mr n i = some r)
    (hearly : s.clk < r.gapEnd) : exec (.retryGapExpiry n home opc) s = .next s := by
  refine congrArg Host.Outcome.next ?_
  simp [State.gapExpiry, hold, hr, Nat.not_le.mpr hearly]

/-! ### Requests that fail (R127, R147) -/

/-- A porter's piece that fails has poison and the status that tells why. -/
theorem State.reqFail_of_piece {q : Req} {p pid : Nat} (hsrc : q.src = .piece p pid) (why : Why) :
    ∀ x ∈ ((s.reqFail q why).por p).pieces, x.pid = pid → x.got = some (Config.poisonLine, true, why.porter) := by
  have hgot (u : State) : ∀ x ∈ ((u.pieceGot p pid Config.poisonLine true why.porter).por p).pieces,
      x.pid = pid → x.got = some (Config.poisonLine, true, why.porter) := by
    simp only [State.pieceGot, State.por_setPor_self, List.mem_map]
    rintro _ ⟨x, -, rfl⟩ hpid
    by_cases hx : x.pid = pid
    · simp [hx]
    · simp [hx] at hpid
  unfold State.reqFail
  simp only [hsrc]
  have hacc (u : State) : (u.accDone q.aid).por p = u.por p := by
    rw [State.por, State.por, (u.accDone_within _).only.pors rfl]
  rw [hacc]
  exact hgot _

/-- The failed register's writes that are not acknowledged leave, and its requests end. -/
theorem State.mrEnd_of_only (hmrs : (s.slice n).mrs = [r]) (houtw : (s.slice n).outw = []) (hvbs : (s.slice n).vbs = []) (hsecs : r.secs = [])
    (why : Why) :
    s.mrEnd n r.idx why = ((s.modSlice n fun x => { x with outw := [] }).reqFail r.prim why).mrClose n r.idx := by
  have hr : s.mr n r.idx = some r := by simp [State.mr, hmrs]
  generalize hu : (s.modSlice n fun x => { x with outw := [] }) = u
  have hdrop : (s.modSlice n fun x => { x with outw := x.outw.filter fun o => !(o.tid == tidMr n r.idx && o.la == r.la && !o.early) }) = u := by
    rw [← hu]
    simp [State.modSlice, houtw]
  have hslice : u.slice n = { s.slice n with outw := [] } := by rw [← hu, State.slice_modSlice_self]
  have hmr : u.mr n r.idx = some r := by rw [State.mr, hslice]; exact hr
  have hfail := (u.reqFail_within r.prim why).only.slice rfl n
  simp only [State.mrEnd, hr, hdrop, State.mrFail, hmr, hsecs, List.foldl_cons, List.foldl_nil]
  refine State.release_of_idle ?_ ?_ ?_
  · simp [State.mrClose, hfail, hslice, hmrs]
  · simp [State.mrClose, hfail, hslice]
  · simp [State.mrClose, hfail, hslice, hvbs]

theorem State.nackArrive_of_only (h : OnlyRegister s m.la r) (htid : m.tid = tidMr (sliceOf m.la) r.idx) (src : Nat) (why : Why) :
    ∃ u, Only { rtrRx := true, rtr := true } s u ∧ s.nackArrive src m why = u.mrEnd (sliceOf m.la) r.idx why := by
  generalize hu : (if why = .down then (s.consumeCoh src m).domKnown (src / 128) true else s.consumeCoh src m) = u
  have honly : Only { rtrRx := true, rtr := true } s u := by
    rw [← hu]
    refine ((s.consumeCoh_within src m).only.mono rfl).trans ?_
    split
    · exact (State.domKnown_within _ _ _).only.mono rfl
    · exact .refl _ _
  have hc : OnlyRegister u m.la r := h.of_only honly rfl rfl rfl
  have hpow : (s.consumeCoh src m).powered = true := h.powered
  refine ⟨u, honly, ?_⟩
  simp [State.nackArrive, hpow, hu, hc.vbNamed htid, hc.named htid]

/-- NACK-DOWN and NACK-RANGE end the request of a porter's piece. -/
theorem State.nackArrive_of_piece (h : OnlyRegister s m.la r) (htid : m.tid = tidMr (sliceOf m.la) r.idx) {p pid : Nat}
    (hsrc : r.prim.src = .piece p pid) (hsecs : r.secs = []) (src : Nat) (why : Why) :
    (s.nackArrive src m why).mr (sliceOf m.la) r.idx = none ∧ Sends [] s (s.nackArrive src m why) ∧
      ∀ q ∈ ((s.nackArrive src m why).por p).pieces, q.pid = pid → q.got = some (Config.poisonLine, true, why.porter) := by
  obtain ⟨u, honly, hgo⟩ := State.nackArrive_of_only h htid src why
  have hc : OnlyRegister u m.la r := h.of_only honly rfl rfl rfl
  rw [hgo, State.mrEnd_of_only hc.only hc.noOut hc.noVb hsecs]
  refine ⟨State.mr_mrClose _ _ _, .after honly rfl (.after (u.modSlice_within _ _).only rfl
    (.after (State.reqFail_within _ _ _).only rfl ((State.mrClose_within _ _ _).only.sends rfl))), ?_⟩
  exact State.reqFail_of_piece hsrc why

theorem exec_nack_of_piece (h : OnlyRegister s m.la r) (htid : m.tid = tidMr (sliceOf m.la) r.idx) {p pid : Nat}
    (hsrc : r.prim.src = .piece p pid) (hsecs : r.secs = []) (src : Nat) (fd : Finds) :
    (∃ t, exec (.nackDown src m fd) s = .next t ∧ t.mr (sliceOf m.la) r.idx = none ∧ Sends [] s t ∧
      ∀ q ∈ (t.por p).pieces, q.pid = pid → q.got = some (Config.poisonLine, true, 5)) ∧
    (∃ t, exec (.nackRange src m fd) s = .next t ∧ t.mr (sliceOf m.la) r.idx = none ∧ Sends [] s t ∧
      ∀ q ∈ (t.por p).pieces, q.pid = pid → q.got = some (Config.poisonLine, true, 4)) := by
  have hwork : OnlyRegister (s.atWork fd) m.la r := h.of_only (s.atWork_only fd) rfl rfl rfl
  obtain ⟨hdown, hdownSends, hdownGot⟩ := State.nackArrive_of_piece (m := { m with opc := opNACKDOWN }) hwork htid hsrc hsecs src .down
  obtain ⟨hrange, hrangeSends, hrangeGot⟩ := State.nackArrive_of_piece (m := { m with opc := opNACKRANGE }) hwork htid hsrc hsecs src .range
  exact ⟨⟨s.finding fd fun s => s.nackArrive src { m with opc := opNACKDOWN } .down, rfl, hdown, .finding hdownSends, hdownGot⟩,
    ⟨s.finding fd fun s => s.nackArrive src { m with opc := opNACKRANGE } .range, rfl, hrange, .finding hrangeSends, hrangeGot⟩⟩

/-! ### COH_TIMEOUT (R328) -/

theorem State.enterDown_st (s : State) (x : FailNotice) : (s.enterDown x).dom.st = 3 := by
  unfold State.enterDown
  extract_lets told d u
  split
  · exact congrArg Dom.st (.trans ((State.sendNotice_within _ _).only.dom rfl) rfl)
  · rfl

theorem State.fatal_st (s : State) (u detail : Nat) : (s.fatal u detail).dom.st = 3 := by
  unfold State.fatal State.fatalErr
  extract_lets t
  split
  · next h => simpa using h
  · exact State.enterDown_st t _

theorem exec_cohTimeout_of_late (hr : s.mr n i = some r) (hsent : r.st = .sent) (hclass : s.classOf r.la = .domRemote) (hglob : r.prim.glob = false)
    (hlate : s.cohTimeout * 1024 ≤ s.mtu.mt - r.since) :
    ∃ t, exec (.cohTimeout (.mr n i)) s = .next t ∧ t.dom.st = 3 ∧ t.slices = s.slices := by
  have hgo : s.cohWaitMr n i = s.fatal n (laNode r.la) := by simp [State.cohWaitMr, hr, hsent, hclass, hglob, hlate]
  refine ⟨s.cohWaitMr n i, rfl, ?_⟩
  rw [hgo]
  exact ⟨s.fatal_st _ _, (s.fatal_within _ _).only.slices rfl⟩

theorem exec_cohTimeout_of_early (hr : s.mr n i = some r) (hearly : s.mtu.mt - r.since < s.cohTimeout * 1024) :
    exec (.cohTimeout (.mr n i)) s = .next s := by
  refine congrArg Host.Outcome.next ?_
  simp [State.cohWaitMr, hr, Nat.not_le.mpr hearly]

end
end Sys2Proof.Machine
end

section
/-! SUPPORT. Answers at the home (R129, R131): the confirmation that closes a tracker, and the owner's data that a home's own read waits for. -/

namespace Sys2Proof.Machine

section
variable {s t : State} {m : CohMsg} {x : Trk} {n i : Nat}

/-! ### Closing a tracker (R116) -/

theorem State.closeTrk_trk (s : State) (n : Nat) (x : Trk) : (s.closeTrk n x).trk n x.htid = none := by
  have hset (b : Nat) (y : Bank) : ((s.dropTrk n x.htid).setBank b y).trk n x.htid = none :=
    ((SameWork.setBank _ b y).trk n x.htid).trans (s.trk_dropTrk n x.htid)
  unfold State.closeTrk
  extract_lets b u
  split
  · exact hset b _
  · split
    · exact hset b _
    · exact s.trk_dropTrk n x.htid

theorem SameSlots.closeTrk (s : State) (n : Nat) (x : Trk) : SameSlots s (s.closeTrk n x) := by
  have hdrop : SameSlots s (s.dropTrk n x.htid) := .of_only (s.dropTrk_within n x.htid).only rfl
  unfold State.closeTrk
  extract_lets b u
  split
  · exact hdrop.trans (.setBank u b _)
  · split
    · exact hdrop.trans (.setBank u b _)
    · exact hdrop

/-! ### The confirmation (R129) -/

/-- Tracker `x` waits only for its requester's confirmation. -/
structure Trk.Unconfirmed (x : Trk) (src : Nat) : Prop where
  ph : x.ph = .cnf
  for_ : ∃ r, x.for_ = .peer src r
  inv : x.invWait = []
  fwd : x.fwdWait = none
  wbd : x.wbdDrop = none

/-- The tracker with its confirmation. -/
def Trk.withConfirmed (x : Trk) : Trk := { x with confirmed := true }

theorem State.homeAnswer_of_confirmation {src : Nat} (hx : s.trk (sliceOf m.la) m.htid = some x) (hla : x.la = m.la)
    (h : x.Unconfirmed src) (hopc : m.opc = opACK) :
    s.homeAnswer src m = (s.modTrk (sliceOf m.la) m.htid Trk.withConfirmed).closeTrk (sliceOf m.la) x.withConfirmed := by
  obtain ⟨r, hfor⟩ := h.for_
  have hid : x.htid = m.htid := State.trk_htid hx
  have hmod : (s.modTrk (sliceOf m.la) m.htid Trk.withConfirmed).trk (sliceOf m.la) m.htid = some x.withConfirmed := by
    rw [State.trk_modTrk Trk.withConfirmed fun _ => rfl, hx, Option.map_some]
  have hclose : (s.modTrk (sliceOf m.la) m.htid Trk.withConfirmed).tryClose (sliceOf m.la) m.htid =
      (s.modTrk (sliceOf m.la) m.htid Trk.withConfirmed).closeTrk (sliceOf m.la) x.withConfirmed := by
    simp [State.tryClose, hmod, Trk.withConfirmed, h.ph, h.wbd, h.fwd]
  have hfrom : s.reqMember x = src % 128 := by simp [State.reqMember, State.reqNode, hfor]
  rw [← hclose]
  simp only [State.homeAnswer, hx, hla, h.inv, h.fwd, h.ph, hfrom, hopc, hid]
  simp
  rfl

theorem exec_ack_of_confirmation {src : Nat} (hpow : s.powered = true) (hhere : laNode m.la = s.nodeNo)
    (hx : s.trk (sliceOf m.la) m.htid = some x) (hla : x.la = m.la) (h : x.Unconfirmed src) (fd : Finds) :
    ∃ t, exec (.ack src m fd) s = .next t ∧ t.trk (sliceOf m.la) m.htid = none ∧ Sends [] s t ∧
      t.mem.near = s.mem.near ∧ t.mem.tags = s.mem.tags ∧
      Only { slices := true, banks := true, rtrRx := true, free := true, flip := true, chans := true, near := true, memIo := true,
             events := true, trc := true, trcCfg := true, ledger := true, bkt := true, due := true, irq := true, pba := true, outs := true } s t := by
  have hwork := s.atWork_only fd
  generalize hu : (s.atWork fd).consumeCoh src { m with opc := opACK } = u
  have hcons : Only { rtrRx := true } (s.atWork fd) u := by rw [← hu]; exact (State.consumeCoh_within _ _ _).only
  have hxu : u.trk (sliceOf m.la) m.htid = some x := (hcons.trk rfl _ _).trans ((hwork.trk rfl _ _).trans hx)
  have hid : x.withConfirmed.htid = m.htid := (State.trk_htid hx :)
  have hgo : (s.atWork fd).ackArrive src { m with opc := opACK } =
      (u.modTrk (sliceOf m.la) m.htid Trk.withConfirmed).closeTrk (sliceOf m.la) x.withConfirmed := by
    have hpow' : u.powered = true := (hcons.powered rfl).trans ((hwork.powered rfl).trans hpow)
    have hhere' : laNode m.la = u.nodeNo := by rw [hcons.nodeNo rfl, hwork.nodeNo rfl, hhere]
    have hans := State.homeAnswer_of_confirmation (m := { m with opc := opACK }) hxu hla h rfl
    simpa [State.ackArrive, hu, hpow', hhere'] using hans
  generalize hv : u.modTrk (sliceOf m.la) m.htid Trk.withConfirmed = v at hgo
  have hmod : Only { slices := true } u v := by rw [← hv]; exact (State.modTrk_within _ _ _ _).only
  have hslots : SameSlots s ((s.atWork fd).ackArrive src { m with opc := opACK }) := by
    rw [hgo]
    exact (((SameSlots.of_only hwork rfl).trans (.of_only hcons rfl)).trans (.of_only hmod rfl)).trans (.closeTrk v _ _)
  have hclose := (v.closeTrk_within (sliceOf m.la) x.withConfirmed).only
  have hgone : ((s.atWork fd).ackArrive src { m with opc := opACK }).trk (sliceOf m.la) m.htid = none := by
    rw [hgo, ← hid]
    exact v.closeTrk_trk _ _
  have hsends : Sends [] (s.atWork fd) ((s.atWork fd).ackArrive src { m with opc := opACK }) := by
    rw [hgo]
    exact .after hcons rfl (.after hmod rfl (hclose.sends rfl))
  have honly :
      Only { slices := true, banks := true, rtrRx := true, free := true, finds := true, flip := true, chans := true, near := true, memIo := true,
             events := true, trc := true, trcCfg := true, ledger := true, bkt := true, due := true, irq := true, pba := true, outs := true }
        s ((s.atWork fd).ackArrive src { m with opc := opACK }) := by
    rw [hgo]
    exact ((hwork.mono rfl).trans (hcons.mono rfl)).trans ((hmod.mono rfl).trans (hclose.mono rfl))
  exact ⟨s.finding fd fun s => s.ackArrive src { m with opc := opACK }, rfl, hgone, .finding hsends, hslots.near, hslots.tags,
    Only.resetFinds honly rfl⟩

/-! ### An owner's data for a home's own read (R131) -/

/-- Tracker `x` of a home's own read, for register `reg`, waits only for the answer of owner `o` to its forward. -/
structure Trk.AwaitsOwner (x : Trk) (reg o : Nat) : Prop where
  ph : x.ph = .fwd
  for_ : x.for_ = .own reg
  inv : x.invWait = []
  fwd : x.fwdWait = some o
  offer : x.offerWait = none
  mem : x.memTok = none
  host : x.hostWait = 0
  held : x.held = none
  fresh : x.offered = false
  owned : x.dst = 2 ∨ x.dst = 3

/-- The tracker with its owner's DATAO, which keeps the ownership (R131). -/
def Trk.withDatao (x : Trk) (d : Line) (poison : Bool) : Trk :=
  { x with fwdWait := none, kept := true, ownerGone := false, data := some (d, poison), fromOwner := true, dirty := true }

/-- Nothing of the line waits in the slice's victim buffer, so a transaction takes nothing over from it. -/
theorem State.homeTakeVb_of_no_vb {la : Nat} (hvbs : ∀ v ∈ (s.slice n).vbs, v.la ≠ la) (hx : s.trk n i = some x) (hla : x.la = la) :
    s.homeTakeVb n i = (false, s) := by
  have hnone : ((s.slice n).vbs.find? fun v => v.la == x.la && v.action == 0 && !v.sent) = none := by
    rw [List.find?_eq_none]
    intro v hv
    simp [hla, hvbs v hv]
  simp [State.homeTakeVb, hx, hnone]

/-- A home's own read whose owner has kept the line: the entry stays OW, and the register has its data (R131). -/
theorem State.homeFinish_of_owned {reg : Nat} {r : Mr} {d : Line} {poison : Bool} (hvbs : ∀ v ∈ (s.slice n).vbs, v.la ≠ x.la)
    (hx : s.trk n i = some (x.withDatao d poison)) (hfor : x.for_ = .own reg) (howned : x.dst = 2 ∨ x.dst = 3) (hoff : x.offered = false)
    (hr : s.mr n reg = some r) (hread : r.prim.homeOp = .ownRd) :
    s.homeFinish n i =
      ((s.setDir n i 3 x.owner x.sharers).ownAnswer n reg 1 (some (d, poison))).modTrk n i fun y => { y with ph := .own } := by
  have htake : (if (s.findLine (x.withDatao d poison).la).isSome || s.opOf n (x.withDatao d poison) == .recall then s
      else (s.homeTakeVb n i).2) = s := by
    rw [State.homeTakeVb_of_no_vb (la := x.la) hvbs hx rfl]
    exact ite_self s
  have hop : s.opOf n (x.withDatao d poison) = .ownRd := by
    simp [State.opOf, Trk.withDatao, hfor, State.ownReq, hr, hread]
  have hdst : (x.dst == 2 || x.dst == 3) = true := by simpa using howned
  unfold State.homeFinish
  extract_lets u
  have hu : u = s := by
    show (match s.trk n i with | some t => _ | none => s) = s
    rw [hx]
    exact htake
  clear_value u
  subst hu
  simp only [hx, hop]
  simp [Trk.withDatao, hdst, hoff, State.homeValue, State.homeRead, hfor]

theorem SameWork.setDir_of_kept (s : State) (n i : Nat) {st : Nat} (hst : st ≠ 0) (owner : Nat) (sharers : BitVec 128) :
    SameWork s (s.setDir n i st owner sharers) := by
  unfold State.setDir
  split
  · exact .refl s
  · split
    · exact .refl s
    · simp only [beq_iff_eq, hst, if_false]
      exact .setBank s _ _

/-- The register of a home's own request as its transaction's completion leaves it (R131). -/
def Mr.ownAnswered (r : Mr) (grant : Nat) (d : Option (Line × Bool)) : Mr :=
  { r with st := .answered, grant := grant, data := d, early := r.secs.length }

theorem State.ownAnswer_mr {r : Mr} (hr : s.mr n i = some r) (grant : Nat) (d : Option (Line × Bool)) :
    (s.ownAnswer n i grant d).mr n i = some (r.ownAnswered grant d) :=
  (State.mr_modMr (fun q => q.ownAnswered grant d) fun _ => rfl).trans (congrArg (Option.map _) hr)

/-- The owner's DATAO answers the register that a home's own read has (R131). -/
theorem State.homeAnswer_of_datao {src reg : Nat} {r : Mr} (hx : s.trk (sliceOf m.la) m.htid = some x) (hla : x.la = m.la)
    (h : x.AwaitsOwner reg (src % 128)) (hr : s.mr (sliceOf m.la) reg = some r) (hread : r.prim.homeOp = .ownRd)
    (hmiss : m.missF = false) (hev : m.ev = false) (hopc : m.opc = opDATAO) (hvbs : ∀ v ∈ (s.slice (sliceOf m.la)).vbs, v.la ≠ m.la) :
    (∃ y, (s.homeAnswer src m).mr (sliceOf m.la) reg = some y ∧ y.st = .answered ∧ y.data = some (m.data, m.poison)) ∧
      Sends [] s (s.homeAnswer src m) := by
  generalize hn : sliceOf m.la = n at hx hr hvbs
  generalize hi : m.htid = i at hx
  have hid : x.htid = i := State.trk_htid hx
  generalize hu : s.modTrk n i (fun y => y.withDatao m.data m.poison) = u
  have hmod : Only { slices := true } s u := by rw [← hu]; exact (s.modTrk_within n i _).only
  have hxu : u.trk n i = some (x.withDatao m.data m.poison) := by
    rw [← hu, State.trk_modTrk (fun y => y.withDatao m.data m.poison) fun _ => rfl, hx, Option.map_some]
  have hru : u.mr n reg = some r := by
    rw [← hu, State.mr, State.modTrk, State.slice_modSlice_self]
    exact hr
  have hvbsu : ∀ v ∈ (u.slice n).vbs, v.la ≠ x.la := by
    rw [← hu, State.modTrk, State.slice_modSlice_self, hla]
    exact hvbs
  have hopu : u.opOf n (x.withDatao m.data m.poison) = .ownRd := by simp [State.opOf, Trk.withDatao, h.for_, State.ownReq, hru, hread]
  have hsettled : u.settled (x.withDatao m.data m.poison) = true := by simp [State.settled, Trk.withDatao, h.inv, h.offer, h.mem, h.host]
  have hone : u.homeWantsSecond n (x.withDatao m.data m.poison) = false := by simp [State.homeWantsSecond, hopu]
  have hgo : s.homeAnswer src m = u.homeGo n i := by
    simp only [State.homeAnswer, hn, hi, hx, hla, h.inv, h.fwd, hmiss, h.fresh, h.held, hev, hopc, hid, ← hu]
    simp
    rfl
  have hph : (x.withDatao m.data m.poison).ph = .fwd := h.ph
  generalize hv : u.setDir n i 3 x.owner x.sharers = v
  have hfinish : s.homeAnswer src m = (v.ownAnswer n reg 1 (some (m.data, m.poison))).modTrk n i fun y => { y with ph := .own } := by
    rw [hgo, ← hv, ← State.homeFinish_of_owned hvbsu hxu h.for_ h.owned h.fresh hru hread]
    simp [State.homeGo, hxu, hph, hsettled, hone]
  have hdir : SameWork u v := by rw [← hv]; exact .setDir_of_kept u n i (by decide) _ _
  have hdirOnly : Sends [] u v := by rw [← hv]; exact (State.setDir_within _ _ _ _ _ _).only.sends rfl
  have hans := State.ownAnswer_mr ((hdir.mr n reg).trans hru) 1 (some (m.data, m.poison))
  rw [hfinish]
  refine ⟨⟨r.ownAnswered 1 (some (m.data, m.poison)), ?_, rfl, rfl⟩, ?_⟩
  · rw [State.mr, State.modTrk, State.slice_modSlice_self]
    exact hans
  · refine .after hmod rfl (.before (.before hdirOnly (State.ownAnswer_within v n reg 1 _).only rfl) (State.modTrk_within _ n i _).only rfl)

theorem exec_datao_of_owner {src : Nat} {r : Mr} (hpow : s.powered = true) (hhere : laNode m.la = s.nodeNo)
    (hx : s.trk (sliceOf m.la) m.htid = some x) (hla : x.la = m.la) (h : x.AwaitsOwner r.idx (src % 128))
    (hr : s.mr (sliceOf m.la) r.idx = some r) (hread : r.prim.homeOp = .ownRd) (hmiss : m.missF = false) (hev : m.ev = false)
    (hvbs : ∀ v ∈ (s.slice (sliceOf m.la)).vbs, v.la ≠ m.la) (fd : Finds) :
    ∃ t y, exec (.datao src m fd) s = .next t ∧ t.mr (sliceOf m.la) r.idx = some y ∧ y.st = .answered ∧
      y.data = some (m.data, m.poison) ∧ Sends [] s t := by
  have hwork := s.atWork_only fd
  generalize hu : (s.atWork fd).consumeCoh src { m with opc := opDATAO } = u
  have hcons : Only { rtrRx := true } (s.atWork fd) u := by rw [← hu]; exact (State.consumeCoh_within _ _ _).only
  have hpow' : u.powered = true := (hcons.powered rfl).trans ((hwork.powered rfl).trans hpow)
  have hhere' : laNode m.la = u.nodeNo := by rw [hcons.nodeNo rfl, hwork.nodeNo rfl, hhere]
  obtain ⟨⟨y, hy, hyst, hydata⟩, hsends⟩ := State.homeAnswer_of_datao (m := { m with opc := opDATAO }) (s := u) (x := x)
    ((hcons.trk rfl _ _).trans ((hwork.trk rfl _ _).trans hx)) hla h ((hcons.mr rfl _ _).trans ((hwork.mr rfl _ _).trans hr)) hread hmiss hev rfl
    (by rw [hcons.slice rfl, hwork.slice rfl]; exact hvbs)
  have hgo : (s.atWork fd).dataoArrive src { m with opc := opDATAO } = u.homeAnswer src { m with opc := opDATAO } := by
    simp [State.dataoArrive, hu, hpow', hhere']
  rw [← hgo] at hy hsends
  exact ⟨s.finding fd fun s => s.dataoArrive src { m with opc := opDATAO }, y, rfl, hy, hyst, hydata, .finding (.after hcons rfl hsends)⟩

end

/-- Settles O21: each answer comes to an update of the one register, victim-buffer entry or tracker that it names. -/
theorem answersAtRequesterAndHome : Obligations.AnswersAtRequesterAndHome := by
  unfold Obligations.AnswersAtRequesterAndHome
  refine ⟨fun s src m r fd h htid hupg hgrant => exec_data_of_grant h htid hupg hgrant src fd, ?_, ?_, ?_, ?_, ?_, ?_, ?_, ?_⟩
  · intro s src m v fd hpow haway hvbs hidx hla hsent hdone hfresh hhosts haction htid hmrs
    exact exec_ack_of_writeBack hpow haway hvbs hidx hla hsent hdone hfresh hhosts haction htid hmrs src fd
  · intro s src m x r fd hpow hhere hx hla hph hfor hinv hfwd hwbd
    exact exec_ack_of_confirmation hpow hhere hx hla ⟨hph, ⟨r, hfor⟩, hinv, hfwd, hwbd⟩ fd
  · intro s src m x r fd hpow hhere hx hla hph hfor hr hkind hglob hatHome hinv hfwd hoffer hmem hhost _ hheld hfresh howned hmiss hev hvbs
    exact exec_datao_of_owner hpow hhere hx hla ⟨hph, hfor, hinv, hfwd, hoffer, hmem, hhost, hheld, hfresh, howned⟩ hr
      (by simp [Req.homeOp, hkind, hglob, hatHome]) hmiss hev hvbs fd
  · intro s src m r h htid hopc href
    exact ⟨fun hpf => exec_retry_of_pf h htid hpf src, fun hpf htkt => exec_retry_of_demand h htid hpf htkt href src,
      fun hpf htkt _ => exec_retry_of_ticket h htid hpf htkt hopc href src⟩
  · intro s n home opc i k r hold hr hst hdue hticket hopc
    exact exec_retryGapExpiry_of_due hold hr hst hdue hticket hopc
  · intro s n home opc i k r hold hr hearly
    exact exec_retryGapExpiry_of_early hold hr hearly
  · intro s src p pid m r fd h htid hsrc hsecs _
    exact exec_nack_of_piece h htid hsrc hsecs src fd
  · intro s n i r hr hsent hclass hglob
    exact ⟨exec_cohTimeout_of_late hr hsent hclass hglob, exec_cohTimeout_of_early hr⟩

end Sys2Proof.Machine
end

section
/-! SUPPORT. A waiting RDS whose tracker says already that an OFFER has crossed it (R145): what the store's answer sends is not its forward
alone. -/

namespace Sys2Proof.Machine

/-- Line 0 of node 5, and the RDS of node 1 for it. -/
def readLine : Nat := 5 * 2 ^ 36
def readMsg : CohMsg := { la := readLine, tid := 9, req := 1 }

/-- That RDS waits for the directory store; its tracker is marked as one whose owner's OFFER, with the line's data, has crossed it. -/
def offeredTrk : Trk :=
  { htid := 55, la := readLine, for_ := .peer 1 readMsg, ph := .dirRead, offered := true, data := some (0, false) }

/-- The home of that line, whose store shows member 7 as the line's owner. -/
def offeredState : State :=
  { State.reset with
    node := Tmr.of 5, dom := { st := 2 },
    slices := [(0, { trks := [offeredTrk] })],
    banks := [(0, { store := [(1920, { st := 2, owner := 7 })] })] }

theorem offeredState_entry :
    (offeredState.bank 0).hit (dirSetOf offeredState.dirGib readLine) (laLocal readLine) = some 0 ∧
    (offeredState.bank 0).ent (dirSetOf offeredState.dirGib readLine) 0 = { st := 2, owner := 7 } := by
  decide +kernel

theorem offeredState_sound :
    (offeredState.dirErrs 0 (dirSetOf offeredState.dirGib readLine) []).contains .ue = false ∧
    offeredState.tagWaits 0 (setOf offeredState.part readLine) = false ∧
    (offeredState.bank 0).badSet (dirSetOf offeredState.dirGib readLine) = false := by
  decide +kernel

/-- The owner's forward goes out, and the requester, node 1, is answered beside it. -/
theorem offeredState_sends : (offeredState.finding {} fun s => s.dirReadDone 0 55 []).rtr.q.map (·.dst) = [7, 1] := by
  decide +kernel

/-- Refutes O19: a directory-store read that finds an owner sends more than a waiting RDS's forward where the tracker is marked as one whose
owner's OFFER has come already. No transaction that has yet to look its line up is so marked; the statement does not say it. -/
theorem not_homeTakesEvictionsAndRefusals : ¬ Obligations.HomeTakesEvictionsAndRefusals := by
  unfold Obligations.HomeTakesEvictionsAndRefusals
  rintro ⟨-, -, -, -, -, hreadDone⟩
  obtain ⟨hhit, hent⟩ := offeredState_entry
  obtain ⟨herrs, hlooks, hset⟩ := offeredState_sound
  have hclause := hreadDone offeredState 0 55 0 offeredTrk 1 readMsg { st := 2, owner := 7 } {} [] rfl rfl rfl rfl rfl rfl hhit hent (.inl rfl)
  have hone : ∀ y ∈ (offeredState.slice 0).trks, y.la = readLine → y.htid = 55 ∨ y.ph = .reserved ∨ y.ph = .chained := by
    intro y hy _
    obtain rfl : y = offeredTrk := List.mem_singleton.mp hy
    exact .inl rfl
  obtain ⟨t, hexec, hsends⟩ := hclause.1 herrs hlooks hset hone
  obtain rfl : (offeredState.finding {} fun s => s.dirReadDone 0 55 []) = t := Host.Outcome.next.inj hexec
  have hdsts := congrArg (List.map Prod.fst) hsends
  rw [List.map_map] at hdsts
  have hboth : [7, 1] = [7] := offeredState_sends.symm.trans hdsts
  exact absurd hboth (by decide)

end Sys2Proof.Machine
end

section
/-! SUPPORT. A read of far memory and a change of a cached directory entry (R119, R245) leave every slice's transactions as they are. -/

namespace Sys2Proof.Machine

section
variable {s t u : State}

/-! ### Reads of far memory -/

theorem SameWork.houseAccess (s : State) (hla : Nat) (wr : Bool) : SameWork s (s.houseAccess hla wr) := by
  unfold State.houseAccess
  split
  next n c u a _ =>
    refine .ite (.refl s) (.trans ?_ (.nearAccess _ n _ _ wr))
    split
    · exact .ite (.setCunit s c u _) (.houseOut s c u _)
    · exact .refl s

theorem SameWork.houseCe (s : State) (hla : Nat) : SameWork s (s.houseCe hla) := .ceWay s _ _ _

theorem SameWork.zmapLost (s : State) (z : Nat) : SameWork s (s.zmapLost z) := by
  have hz (zmap : Tab Bool) : SameWork s (({ s with mem := { s.mem with zmap := zmap } } : State).houseAccess z true) := fun n =>
    SameWork.houseAccess { s with mem := { s.mem with zmap := zmap } } z true n
  exact (hz _).trans (.of_only (State.rec__within _ 0x0A 216 0xFFFF (z * 2 ^ 21) z).only rfl)

theorem SameWork.zmapLook (s : State) (page : Nat) : SameWork s (s.zmapLook page) := by
  unfold State.zmapLook
  extract_lets z u zs ras v e
  have hv : SameWork s v := (SameWork.houseAccess s z false).trans fun _ => rfl
  exact .ite (.refl s) (.ite (hv.trans (.zmapLost v z)) (.ite (hv.trans (.houseCe v z)) hv))

theorem SameWork.farRead (s : State) (lo n i : Nat) : SameWork s (s.farRead lo n i).2 := by
  unfold State.farRead
  extract_lets tok c u mem a add
  have ha : SameWork s a := fun _ => rfl
  split
  · exact .trans (t := add a (some (Config.poisonLine, true))) (fun _ => rfl) (.of_only (State.rec__within _ _ _ _ _ _).only rfl)
  · rename_i b d waits hserves
    have hb : SameWork s b := by
      refine ha.trans ?_
      show SameWork a (match (a.cunit c u).merge.find? fun m => m.addr == lo with | some m => a.mergeFlush c u m | none => a)
      split
      · exact .of_only (a.mergeFlush_within c u _).only rfl
      · exact .refl a
    have hd : SameWork s d := hb.trans (.zmapLook b _)
    split
    · exact hd.trans fun _ => rfl
    · exact .trans (t := add d none) (hd.trans fun _ => rfl) (.chanEnq _ c u _)

/-! ### The directory cache -/

theorem storeDiff_self (a : Tab DirEnt) : storeDiff a a = [] := by
  simp [storeDiff]

/-- A change that leaves a bank's store alone writes nothing to the house space (R119). -/
theorem State.setBank_of_store {b : Nat} {x : Bank} (h : x.store = (s.bank b).store) :
    s.setBank b x = { s with banks := Tab.put {} s.banks b x } := by
  simp [State.setBank, h, storeDiff_self]

section
variable {x : Bank} {set w k : Nat} {e : DirEnt}

/-- Slot `i` of a directory-cache set, if it holds way `w` of store set `set`. -/
def Bank.dcAt (x : Bank) (set w i : Nat) : Option Nat :=
  match Tab.get none x.dc (set % 2048 * 16 + i) with
  | some e => if e.set == set && e.way == w then some (set % 2048 * 16 + i) else none
  | none => none

theorem Bank.dcKey_eq (x : Bank) (set w : Nat) : x.dcKey set w = (List.range 16).findSome? (x.dcAt set w) := rfl

theorem Bank.dcAt_eq_some_iff {i : Nat} :
    x.dcAt set w i = some k ↔ set % 2048 * 16 + i = k ∧ ∃ e, Tab.get none x.dc k = some e ∧ e.set = set ∧ e.way = w := by
  unfold Bank.dcAt
  split
  · next f hf =>
    simp only [Option.ite_none_right_eq_some, Bool.and_eq_true, beq_iff_eq, Option.some.injEq]
    constructor
    · rintro ⟨⟨hset, hway⟩, rfl⟩
      exact ⟨rfl, f, hf, hset, hway⟩
    · rintro ⟨rfl, g, hg, hset, hway⟩
      obtain rfl : f = g := Option.some.inj (hf.symm.trans hg)
      exact ⟨⟨hset, hway⟩, rfl⟩
  · next hf =>
    simp only [reduceCtorEq, false_iff, not_and, not_exists]
    rintro rfl g hg
    simp [hf] at hg

/-- A way that the cache hits has a key. -/
theorem Bank.dcKey_of_dcHit {lo : Nat} (h : x.dcHit set lo = some w) : ∃ k, x.dcKey set w = some k := by
  obtain ⟨i, hi, hat⟩ := List.exists_of_findSome?_eq_some h
  split at hat
  · next f hf =>
    simp only [Option.ite_none_right_eq_some, Bool.and_eq_true, beq_iff_eq, Option.some.injEq] at hat
    obtain ⟨⟨⟨hset, -⟩, -⟩, hway⟩ := hat
    have hslot : x.dcAt set w i = some (set % 2048 * 16 + i) := Bank.dcAt_eq_some_iff.mpr ⟨rfl, f, hf, hset, hway⟩
    refine Option.ne_none_iff_exists'.mp fun hnone => ?_
    rw [Bank.dcKey_eq, List.findSome?_eq_none_iff] at hnone
    rw [hnone i hi] at hslot
    cases hslot
  · cases hat

theorem Bank.put_of_dcKey (h : x.dcKey set w = some k) (e : DirEnt) :
    ∃ d, x.put set w e true = { x with dc := Tab.put none x.dc k (some { set := set, way := w, ent := e, dirty := d }) } := by
  simp only [Bank.put, h]
  exact ⟨_, rfl⟩

/-- A cached entry that is written anew stays in its place. -/
theorem Bank.dcKey_put (h : x.dcKey set w = some k) (e : DirEnt) : (x.put set w e true).dcKey set w = some k := by
  obtain ⟨d, hput⟩ := Bank.put_of_dcKey h e
  rw [hput]
  rw [Bank.dcKey_eq, List.findSome?_eq_some_iff] at h ⊢
  obtain ⟨l₁, i, l₂, hrange, hi, hbefore⟩ := h
  obtain ⟨hk, -⟩ := Bank.dcAt_eq_some_iff.mp hi
  refine ⟨l₁, i, l₂, hrange, Bank.dcAt_eq_some_iff.mpr ⟨hk, _, Tab.get_put_self none x.dc k (some { set := set, way := w, ent := e, dirty := d }),
    rfl, rfl⟩, fun j hj => ?_⟩
  have hne : set % 2048 * 16 + j ≠ k := by
    rintro hjk
    obtain rfl : j = i := by omega
    simp [hbefore j hj] at hi
  rw [← hbefore j hj, Bank.dcAt, Bank.dcAt, Tab.get_put_ne _ _ _ _ _ hne]

/-- A cached entry reads back as written. -/
theorem Bank.ent_put (h : x.dcKey set w = some k) (e : DirEnt) : (x.put set w e true).ent set w = e := by
  have hkey := Bank.dcKey_put h e
  obtain ⟨d, hput⟩ := Bank.put_of_dcKey h e
  simp only [Bank.ent, hkey]
  rw [hput, Tab.get_put_self]

theorem Bank.put_store (h : x.dcKey set w = some k) (e : DirEnt) : (x.put set w e true).store = x.store := by
  obtain ⟨d, hput⟩ := Bank.put_of_dcKey h e
  rw [hput]

/-- A change of a cached entry is a change of its bank's cache alone (R119). -/
theorem State.setBank_put {b : Nat} (h : (s.bank b).dcKey set w = some k) (e : DirEnt) :
    s.setBank b ((s.bank b).put set w e true) = { s with banks := Tab.put {} s.banks b ((s.bank b).put set w e true) } :=
  State.setBank_of_store (Bank.put_store h e)

end
end
end Sys2Proof.Machine
end

section
/-! SUPPORT. How a peer's request comes to a tracker (R128, R137, R138), is looked up (R119) and begins (R130). -/

namespace Sys2Proof.Machine

section
variable {s t u : State} {m : CohMsg} {x : Trk} {e : DirEnt} {n i g w src : Nat}

/-! ### What a lookup must wait for, and the line's readiness -/

theorem Only.tagWaits {k : Mask} (h : Only k s t) (hcsr : k.csr = false) (hchans : k.chans = false) (htc : (t.slice n).tc = (s.slice n).tc)
    (set : Nat) : t.tagWaits n set = s.tagWaits n set := by
  simp only [State.tagWaits, h.tccEn hcsr, h.nearFrozen hchans, h.part, Slice.tcFind, Slice.tcVictim, htc]

theorem Only.bank {k : Mask} (h : Only k s t) (hm : k.banks = false) (b : Nat) : t.bank b = s.bank b := by
  simp only [State.bank, h.banks hm]

theorem Only.dirGib {k : Mask} (h : Only k s t) (hm : k.glbHouse = false) : t.dirGib = s.dirGib := by
  simp only [State.dirGib, h.glbHouse hm]

theorem Only.farBytes {k : Mask} (h : Only k s t) (hm : k.memCfg = false) : t.farBytes = s.farBytes := by
  have hcfg := h.memCfg hm
  simp only [Prod.mk.injEq] at hcfg
  obtain ⟨-, -, hr, hk, hpop, -, -, -⟩ := hcfg
  rw [State.farBytes, State.farBytes, hr, hk, hpop]

/-- The pieces that the work of a command has changed when it comes to the home. -/
def reachMask : Mask :=
  { finds := true, due := true, trcCfg := true, irq := true, pba := true, ledger := true, bkt := true, events := true, trc := true, outs := true,
    rtrRx := true, dom := true }

theorem LineReady.of_only {la : Nat} (h : LineReady s la g w e) (ho : Only reachMask s t) (hdown : t.dom.downDue = s.dom.downDue) :
    LineReady t la g w e where
  powered := by rw [ho.powered rfl]; exact h.powered
  here := by rw [ho.nodeNo rfl]; exact h.here
  far := by rw [State.inFar, ho.farBytes rfl]; exact h.far
  free := by rw [State.general, ho.slice rfl]; exact h.free
  idle := by rw [ho.slice rfl]; exact h.idle
  hit := by rw [ho.bank rfl, ho.dirGib rfl]; exact h.hit
  ent := by rw [ho.bank rfl, ho.dirGib rfl]; exact h.ent
  sound := by rw [ho.bank rfl]; exact h.sound
  swept := by rw [hdown]; exact h.swept
  looks := by rw [ho.tagWaits rfl rfl (by rw [ho.slice rfl]), ho.part]; exact h.looks

/-! ### The tracker that takes the request (R137, R138) -/

/-- The request carries a ticket that has not been released. -/
def State.ticketed (s : State) (src opc : Nat) (m : CohMsg) : Bool :=
  m.tkt && m.htid == htidRes (src % 128) opc &&
    (s.trk (sliceOf m.la) (htidRes (src % 128) opc)).any fun t => t.ph == .reserved && t.ticketTid == m.tid

theorem State.takenBy_eq (s : State) (src opc : Nat) (m : CohMsg) (g : Nat) :
    s.takenBy src opc m g = if s.ticketed src opc m then htidRes (src % 128) opc else g := by
  unfold State.takenBy State.ticketed
  by_cases hid : m.htid = htidRes (src % 128) opc
  · rw [hid]
    cases s.trk (sliceOf m.la) (htidRes (src % 128) opc) <;> rfl
  · simp [hid]

/-- A request as its tracker keeps it. -/
def keptAs (m : CohMsg) (tkt : Bool) : CohMsg := { m with tkt := tkt }

theorem State.openTrk_of_idle {la : Nat} (hidle : ∀ t ∈ (s.slice n).trks, t.la = la → t.ph = .reserved) : s.openTrk n la = none := by
  rw [State.openTrk, List.find?_eq_none]
  intro t ht
  by_cases hla : t.la = la
  · simp [hidle t ht hla]
  · simp [hla]

theorem State.homeRequest_take (h : LineReady s m.la g w e) (hpeer : PeerUp s src) (hwbd : m.opc ≠ opWBD) (hoffer : m.opc ≠ opOFFER)
    (hgood : m.opc = opATOM → opndBad m.opnd = false) :
    s.homeRequest src m = ((s.consumeCoh src m).sawUp (src % 128)).homeTake (sliceOf m.la) (s.takenBy src m.opc m g) m.la
      (.peer src (keptAs m (s.ticketed src m.opc m))) := by
  have hpow : (s.consumeCoh src m).powered = true := h.powered
  have hup : (s.consumeCoh src m).dom.st = 2 := hpeer.up
  have hmember : (s.consumeCoh src m).peerNode src = true := hpeer.member
  have hother : src ≠ (s.consumeCoh src m).nodeNo := hpeer.other
  have hdom : (s.consumeCoh src m).domUp = s.consumeCoh src m := by simp [State.domUp, hup]
  generalize hv : (s.consumeCoh src m).sawUp (src % 128) = v
  have hhere : laNode m.la = v.nodeNo := by rw [← hv]; exact h.here
  have hfar : v.inFar m.la = true := by rw [← hv]; exact h.far
  have hfree : v.general (sliceOf m.la) = some g := by rw [← hv]; exact h.free
  have htrk (k : Nat) : v.trk (sliceOf m.la) k = s.trk (sliceOf m.la) k := by rw [← hv]; rfl
  have hatom : (m.opc == opATOM && opndBad m.opnd) = false := by
    by_cases hop : m.opc = opATOM
    · simp [hgood hop]
    · simp [hop]
  have hevict : (m.opc == opWBD || m.opc == opOFFER) = false := by simp [hwbd, hoffer]
  have hne : (src != (s.consumeCoh src m).nodeNo) = true := by simpa using hother
  rw [State.takenBy_eq]
  unfold State.homeRequest
  simp only [hpow, hup, hmember, hne, hdom, hv, hhere, hfar, hatom, hevict, htrk, hfree]
  cases hres : s.trk (sliceOf m.la) (htidRes (src % 128) m.opc) with
  | none =>
    have hk : s.ticketed src m.opc m = false := by simp [State.ticketed, hres]
    simp [hk]
    rfl
  | some y =>
    have hk : s.ticketed src m.opc m = (m.tkt && m.htid == htidRes (src % 128) m.opc && (y.ph == .reserved && y.ticketTid == m.tid)) := by
      simp [State.ticketed, hres]
    simp only [← hk]
    cases s.ticketed src m.opc m
    · simp
      rfl
    · simp
      rfl

end
end Sys2Proof.Machine
end

section
/-! SUPPORT. A peer's request for a line whose entry the directory cache holds begins its transaction at once (R119, R128, R130). -/

namespace Sys2Proof.Machine

/-- Tracker `x`, number `k`, holds request `m` of `src` for line `la`, whose entry `e` is at `place`, and nothing has been asked for it. -/
structure Trk.Begins (x : Trk) (k la src : Nat) (m : CohMsg) (e : DirEnt) (place : Nat × Nat) : Prop where
  htid : x.htid = k
  la : x.la = la
  for_ : x.for_ = .peer src m
  dst : x.dst = e.st
  owner : x.owner = e.owner
  sharers : x.sharers = e.sharers
  place : x.place = some place
  offer : x.offerWait = none
  wbd : x.wbdDrop = none
  mem : x.memTok = none
  offered : x.offered = false
  confirmed : x.confirmed = false

section
variable {s t u : State} {m : CohMsg} {x : Trk} {e : DirEnt} {n i k la g w set src : Nat}

/-! ### Into the tracker (R128) -/

/-- A peer's request as it comes into tracker `k`. -/
def State.newTrk (s : State) (n k la src : Nat) (m : CohMsg) : Trk :=
  { htid := k, la := la, for_ := .peer src m, ph := .dirRead, seq := (s.slice n).nextRef, since := s.mtu.mt, accept := s.offerAccept n }

def State.trkTaken (s : State) (n k la src : Nat) (m : CohMsg) : State :=
  (s.dropTrk n k).modSlice n fun x => { x with trks := x.trks ++ [s.newTrk n k la src m], nextRef := x.nextRef + 1 }

theorem State.homeTake_of_idle (hidle : ∀ t ∈ (s.slice n).trks, t.la = la → t.ph = .reserved) :
    s.homeTake n k la (.peer src m) = (s.trkTaken n k la src m).homeLook n k := by
  have hchain : ((s.slice n).trks.any fun t => t.la == la && t.ph == .chained) = false := by
    rw [List.any_eq_false]
    intro t ht
    by_cases hla : t.la = la
    · simp [hidle t ht hla]
    · simp [hla]
  simp only [State.homeTake, State.openTrk_of_idle hidle, hchain]
  rfl

theorem State.trkTaken_trk (s : State) (n k la src : Nat) (m : CohMsg) : (s.trkTaken n k la src m).trk n k = some (s.newTrk n k la src m) := by
  have hgone := s.trk_dropTrk n k
  rw [State.trk] at hgone
  rw [State.trk, State.trkTaken, State.slice_modSlice_self]
  simp only [List.find?_append, hgone]
  simp [State.newTrk]

theorem State.trkTaken_only (s : State) (n k la src : Nat) (m : CohMsg) : Only { slices := true } s (s.trkTaken n k la src m) :=
  (s.dropTrk_within n k).only.trans (State.modSlice_within _ n _).only

/-! ### The lookup (R119) -/

theorem State.homeLook_of_hit (hx : s.trk n i = some x) (hlost : (s.bank (n / 4)).lost = false) (hdown : s.dom.downDue = false)
    (hhit : (s.bank (n / 4)).dcHit (dirSetOf s.dirGib x.la) (laLocal x.la) = some w) (hdc : s.finds.dc = false) :
    s.homeLook n i = ((s.event (136 + n / 4) 1 1).modTrk n i fun t => { t with since := s.mtu.mt }).homeKnown n i
      (some (dirSetOf s.dirGib x.la, w)) := by
  generalize hu : (s.event (136 + n / 4) 1 1).modTrk n i (fun t => { t with since := s.mtu.mt }) = u
  have hbank : u.bank (n / 4) = s.bank (n / 4) := by rw [← hu]; rfl
  have hdown' : u.dom.downDue = false := by rw [← hu]; exact hdown
  have hdc' : u.finds.dc = false := by rw [← hu]; exact hdc
  simp only [State.homeLook, hx, hu, hbank, hlost, hdown', hhit, hdc']
  rfl

/-- A tracker that has found its line's entry. -/
def Trk.found (x : Trk) (e : DirEnt) (place : Nat × Nat) : Trk :=
  { x with dst := e.st, owner := e.owner, sharers := e.sharers, place := some place }

theorem State.withEntry_of_cached (hkey : (s.bank (n / 4)).dcKey set w = some k) :
    s.withEntry n i (some (set, w)) =
      ({ s with banks := Tab.put {} s.banks (n / 4)
                  ((s.bank (n / 4)).put set w { (s.bank (n / 4)).ent set w with pin := true, age := 0 } true) } : State).modTrk n i
        fun t => t.found ((s.bank (n / 4)).ent set w) (set, w) :=
  congrArg (fun y : State => y.modTrk n i fun t => t.found ((s.bank (n / 4)).ent set w) (set, w))
    (State.setBank_put hkey { (s.bank (n / 4)).ent set w with pin := true, age := 0 })

/-- The operations of a peer's request do not depend on the state. -/
theorem State.opOf_of_peer (hfor : x.for_ = .peer src m) (s t : State) : s.opOf n x = t.opOf n x := by
  simp only [State.opOf, hfor]

theorem State.modTrk_tc (s : State) (n i : Nat) (f : Trk → Trk) (j : Nat) : ((s.modTrk n i f).slice j).tc = (s.slice j).tc := by
  by_cases hj : j = n
  · rw [hj, State.modTrk, State.slice_modSlice_self]
  · rw [State.modTrk, State.slice_modSlice_ne _ _ hj]

theorem State.homeKnown_of_entry (hx : s.trk n i = some x) (hkey : (s.bank (n / 4)).dcKey set w = some k)
    (hst : ((s.bank (n / 4)).ent set w).st ≠ 0) (hop : ∀ y : Trk, y.for_ = x.for_ → s.opOf n y ≠ .wbd ∧ s.opOf n y ≠ .offer)
    (hfor : x.for_ = .peer src m) :
    s.homeKnown n i (some (set, w)) = (s.withEntry n i (some (set, w))).homeBegin n i ∧
      (s.withEntry n i (some (set, w))).trk n i = some (x.found ((s.bank (n / 4)).ent set w) (set, w)) ∧
      Only { slices := true, banks := true } s (s.withEntry n i (some (set, w))) ∧
      (∀ j, ((s.withEntry n i (some (set, w))).slice j).tc = (s.slice j).tc) ∧
      ((s.withEntry n i (some (set, w))).bank (n / 4)).dcKey set w = some k := by
  generalize hu : s.withEntry n i (some (set, w)) = u
  generalize he : (s.bank (n / 4)).ent set w = e at hst
  rw [State.withEntry_of_cached hkey, he] at hu
  generalize hv : ({ s with banks := Tab.put {} s.banks (n / 4) ((s.bank (n / 4)).put set w { e with pin := true, age := 0 } true) } : State) = v at hu
  have hvs : Only { banks := true } s v := by rw [← hv]; rfl
  have hvu : Only { slices := true } v u := by rw [← hu]; exact (State.modTrk_within _ _ _ _).only
  have htrk : u.trk n i = some (x.found e (set, w)) := by
    rw [← hu, State.trk_modTrk (fun t => t.found e (set, w)) fun _ => rfl, hvs.trk rfl, hx, Option.map_some]
  have hbank : u.bank (n / 4) = (s.bank (n / 4)).put set w { e with pin := true, age := 0 } true := by
    rw [hvu.bank rfl, ← hv, State.bank]
    exact Tab.get_put_self _ _ _ _
  refine ⟨?_, htrk, (hvs.mono rfl).trans (hvu.mono rfl), fun j => ?_, by rw [hbank]; exact Bank.dcKey_put hkey _⟩
  swap
  · rw [← hu, State.modTrk_tc, hvs.slice rfl]
  have hop' := hop (x.found e (set, w)) rfl
  rw [State.opOf_of_peer (x := x.found e (set, w)) hfor s u] at hop'
  obtain ⟨hwbd, hoffer⟩ := hop'
  have hdst : ((x.found e (set, w)).dst == 0) = false := by simpa [Trk.found] using hst
  unfold State.homeKnown
  have hwith : s.withEntry n i (some (set, w)) = u := by rw [State.withEntry_of_cached hkey, he, hv, hu]
  simp [hwith, htrk, hwbd, hoffer, hdst]

theorem State.homeBegin_of_ready (hx : s.trk n i = some x) (hlooks : s.tagWaits n (setOf s.part x.la) = false) :
    s.homeBegin n i = (s.homeFirst n i).homeGo n i := by
  have hwaits : s.homeWaits n x = false := by simp [State.homeWaits, hlooks]
  simp [State.homeBegin, hx, hwaits]

theorem State.opOf_of_no_eviction (hfor : x.for_ = .peer src m) (hwbd : m.opc ≠ opWBD) (hoffer : m.opc ≠ opOFFER) (s : State) :
    s.opOf n x ≠ .wbd ∧ s.opOf n x ≠ .offer := by
  simp only [State.opOf, hfor]
  split_ifs <;> simp_all

/-- A peer's request for a ready line, whose entry is not U, begins at once. -/
theorem State.homeTake_begins (h : LineReady s la g w e) (hdc : s.finds.dc = false) (hst : e.st ≠ 0) (hwbd : m.opc ≠ opWBD)
    (hoffer : m.opc ≠ opOFFER) (src i : Nat) :
    ∃ y x, s.homeTake (sliceOf la) i la (.peer src m) = (y.homeFirst (sliceOf la) i).homeGo (sliceOf la) i ∧
      y.trk (sliceOf la) i = some x ∧ x.Begins i la src m e (dirSetOf s.dirGib la, w) ∧
      Only { slices := true, banks := true, events := true } s y ∧ ∃ k, (y.bank (sliceOf la / 4)).dcKey (dirSetOf s.dirGib la) w = some k := by
  generalize hn : sliceOf la = n
  obtain ⟨k, hkey⟩ := Bank.dcKey_of_dcHit h.hit
  rw [hn] at hkey
  -- in the tracker
  generalize hu : s.trkTaken n i la src m = u
  have hsu : Only { slices := true } s u := by rw [← hu]; exact s.trkTaken_only n i la src m
  have hxu : u.trk n i = some (s.newTrk n i la src m) := by rw [← hu]; exact s.trkTaken_trk n i la src m
  have htcu : (u.slice n).tc = (s.slice n).tc := by
    rw [← hu, State.trkTaken, State.slice_modSlice_self, State.dropTrk, State.slice_modSlice_self]
  -- looked up
  generalize hv : (u.event (136 + n / 4) 1 1).modTrk n i (fun t => { t with since := u.mtu.mt }) = v
  have huv : Only { slices := true, events := true } u v := by
    rw [← hv]
    exact ((u.event_within _ _ _).only.mono rfl).trans ((State.modTrk_within _ _ _ _).only.mono rfl)
  have hxv : v.trk n i = some { s.newTrk n i la src m with since := u.mtu.mt } := by
    rw [← hv, State.trk_modTrk (fun t => { t with since := u.mtu.mt }) fun _ => rfl, (u.event_within _ _ _).only.trk rfl, hxu, Option.map_some]
  have htcv : (v.slice n).tc = (s.slice n).tc := by
    rw [← hv, State.modTrk_tc, (u.event_within _ _ _).only.slice rfl, htcu]
  have hsv : Only { slices := true, events := true } s v := (hsu.mono rfl).trans huv
  have hkeyv : (v.bank (n / 4)).dcKey (dirSetOf s.dirGib la) w = some k := by rw [hsv.bank rfl]; exact hkey
  have hentv : (v.bank (n / 4)).ent (dirSetOf s.dirGib la) w = e := by rw [hsv.bank rfl, ← hn]; exact h.ent
  obtain ⟨hknown, hxw, honly, htcw, hkeyw⟩ := State.homeKnown_of_entry (src := src) (m := m) hxv hkeyv (by rw [hentv]; exact hst)
    (fun y hy => State.opOf_of_no_eviction (src := src) (m := m) hy hwbd hoffer v) rfl
  rw [hentv] at hxw
  refine ⟨v.withEntry n i (some (dirSetOf s.dirGib la, w)), _, ?_, hxw, ⟨rfl, rfl, rfl, rfl, rfl, rfl, rfl, rfl, rfl, rfl, rfl, rfl⟩,
    (hsv.mono rfl).trans (honly.mono rfl), k, hkeyw⟩
  have hlooks : (v.withEntry n i (some (dirSetOf s.dirGib la, w))).tagWaits n (setOf (v.withEntry n i (some (dirSetOf s.dirGib la, w))).part la) =
      false := by
    rw [honly.tagWaits rfl rfl (htcw n), hsv.tagWaits rfl rfl htcv, honly.part, hsv.part, ← hn]
    exact h.looks
  have hgib : u.dirGib = s.dirGib := hsu.dirGib rfl
  have hlook : u.homeLook n i = v.homeKnown n i (some (dirSetOf s.dirGib la, w)) := by
    have hsound : (u.bank (n / 4)).lost = false := by rw [hsu.bank rfl, ← hn]; exact h.sound
    have hswept : u.dom.downDue = false := by rw [hsu.dom rfl]; exact h.swept
    have hhit : (u.bank (n / 4)).dcHit (dirSetOf u.dirGib la) (laLocal la) = some w := by rw [hsu.bank rfl, hgib, ← hn]; exact h.hit
    have hfind : u.finds.dc = false := by rw [hsu.finds rfl]; exact hdc
    generalize hnew : s.newTrk n i la src m = x₀ at hxu
    have hla : x₀.la = la := by rw [← hnew]; rfl
    rw [← hla] at hhit
    rw [State.homeLook_of_hit hxu hsound hswept hhit hfind, hv, hla, hgib]
  rw [State.homeTake_of_idle (by rw [← hn]; exact h.idle), hu, hlook, hknown]
  exact State.homeBegin_of_ready hxw hlooks

end
end Sys2Proof.Machine
end

section
/-! SUPPORT. The first step of a peer's transaction (Table 5.8, R130, R141, R142): what it sends, and what its tracker then waits for. -/

namespace Sys2Proof.Machine

section
variable {s t u : State} {m : CohMsg} {x : Trk} {e : DirEnt} {n i k la g w set src : Nat}

/-! ### Steps (R245) -/

/-- The INV of the home, node number `dom` its domain's first, to member `v` for the requester of `m`. -/
def invTo (dom src i la : Nat) (m : CohMsg) (discard : Bool) (v : Nat) : Nat × PktBody :=
  (dom * 128 + v, .coh false { opc := opINV, discard := discard, req := src, tid := m.tid, htid := i, la := la })

/-- The forward of the home to owner `o`, the answer going to the requester. -/
def fwdTo (dom src i la : Nat) (m : CohMsg) (o opc : Nat) : Nat × PktBody :=
  (dom * 128 + o, .coh false { opc := opc, req := src, tid := m.tid, htid := i, la := la })

theorem State.sendInv_sends (hfor : x.for_ = .peer src m) (vs : List Nat) (discard : Bool) (s : State) :
    Sends (vs.map (invTo s.ownDomain src x.htid x.la m discard)) s (s.sendInv n x vs discard) := by
  induction vs generalizing s with
  | nil => exact (Only.refl {} s).sends rfl
  | cons v vs ih =>
    have hsend := State.sendCoh_sends s (s.ownDomain * 128 + v)
      { opc := opINV, discard := discard, req := s.reqNode x, tid := (s.msgOf n x).tid, htid := x.htid, la := x.la }
    have hrest := hsend.trans (ih (s.sendCoh (s.ownDomain * 128 + v)
      { opc := opINV, discard := discard, req := s.reqNode x, tid := (s.msgOf n x).tid, htid := x.htid, la := x.la }))
    have hreq : s.reqNode x = src := by simp [State.reqNode, hfor]
    have hmsg : s.msgOf n x = m := by simp [State.msgOf, hfor]
    rw [hreq, hmsg] at hrest
    simp only [State.sendInv, List.foldl_cons, hreq, hmsg]
    exact hrest

/-- A tracker after a step: what it waits for. -/
def Trk.stepped (x : Trk) (invs : List Nat) (fwd : Option Nat) (host : Nat) (tok : Option Nat) (ph : HPh) (since : Nat) : Trk :=
  { x with invWait := invs, fwdWait := fwd, hostWait := host, memTok := tok, ph := ph, since := since }

/-- The host recalls and the far-memory read of a step. -/
def State.stepReads (s : State) (n i la host : Nat) (mem discard : Bool) : State :=
  let w : BiWait := if discard then .drop else .home n i
  let s := if host == 2 then s.recallAll la w else if host == 1 then s.recallEM la w else s
  if mem then (s.farRead (laLocal la) n i).2 else s

theorem State.stepReads_work (s : State) (n i la host : Nat) (mem discard : Bool) : SameWork s (s.stepReads n i la host mem discard) := by
  unfold State.stepReads
  extract_lets b u
  have hu : SameWork s u :=
    .ite (.of_only (s.recallAll_within la b).only rfl) (.ite (.of_only (s.recallEM_within la b).only rfl) (.refl s))
  exact .ite (hu.trans (.farRead u _ n i)) hu

/-! A peer's transaction concerns none of this E9's own requests. -/

theorem State.classifyTrk_of_peer (hfor : x.for_ = .peer src m) (s : State) (msg mem : Bool) : s.classifyTrk n x msg mem = s := by
  simp [State.classifyTrk, hfor]

theorem State.voidTrk_of_peer (hfor : x.for_ = .peer src m) (s : State) : s.voidTrk n x = s := by
  simp [State.voidTrk, hfor]

theorem State.recallExtend_of_peer (hfor : x.for_ = .peer src m) (s : State) : s.recallExtend n x = s := by
  simp [State.recallExtend, hfor]

/-- A step that forwards to the owner and does nothing else. -/
theorem State.homeStep_forward (hx : s.trk n i = some x) (hfor : x.for_ = .peer src m) (o opc : Nat) :
    s.homeStep n i [] false (some (o, opc, false, false)) 0 false .fwd =
      (s.sendFwd n x o opc false false).modTrk n i fun y => y.stepped [] (some o) 0 y.memTok .fwd (s.sendFwd n x o opc false false).mtu.mt := by
  simp only [State.homeStep, hx, State.classifyTrk_of_peer hfor]
  rfl

/-- A step that invalidates copies. -/
theorem State.homeStep_invalidate (hx : s.trk n i = some x) (hfor : x.for_ = .peer src m) (vs : List Nat) (discard mem : Bool) :
    ∃ tok, s.homeStep n i vs discard none 2 mem .collect =
      ((s.sendInv n x vs discard).stepReads n i x.la 2 mem discard).modTrk n i fun y =>
        y.stepped vs none 2 (if mem then tok else y.memTok) .collect ((s.sendInv n x vs discard).stepReads n i x.la 2 mem discard).mtu.mt := by
  cases mem
  · refine ⟨none, ?_⟩
    simp only [State.homeStep, hx, State.classifyTrk_of_peer hfor, State.recallExtend_of_peer hfor]
    rfl
  · refine ⟨some (((s.sendInv n x vs discard).recallAll x.la (if discard then .drop else .home n i)).farRead (laLocal x.la) n i).1, ?_⟩
    simp only [State.homeStep, hx, State.classifyTrk_of_peer hfor, State.voidTrk_of_peer hfor, State.recallExtend_of_peer hfor]
    simp
    rfl

theorem State.homeStep_forward_spec (hx : s.trk n i = some x) (hfor : x.for_ = .peer src m) (hid : x.htid = i) (o opc : Nat) :
    Sends [fwdTo s.ownDomain src i x.la m o opc] s (s.homeStep n i [] false (some (o, opc, false, false)) 0 false .fwd) ∧
      ∃ since, (s.homeStep n i [] false (some (o, opc, false, false)) 0 false .fwd).trk n i =
        some (x.stepped [] (some o) 0 x.memTok .fwd since) := by
  have hreq : s.reqNode x = src := by simp [State.reqNode, hfor]
  have hmsg : s.msgOf n x = m := by simp [State.msgOf, hfor]
  rw [State.homeStep_forward hx hfor]
  generalize hu : s.sendFwd n x o opc false false = u
  have hsends : Sends [fwdTo s.ownDomain src i x.la m o opc] s u := by
    rw [← hu, State.sendFwd, hreq, hmsg, hid]
    exact State.sendCoh_sends _ _ _
  have hxu : u.trk n i = some x := by rw [← hu, (State.sendFwd_within _ _ _ _ _ _ _).only.trk rfl, hx]
  refine ⟨hsends.before (State.modTrk_within _ _ _ _).only rfl, u.mtu.mt, ?_⟩
  rw [State.trk_modTrk (fun y => y.stepped [] (some o) 0 y.memTok .fwd u.mtu.mt) fun _ => rfl, hxu, Option.map_some]

/-- What the recalls and the read of a step can change. -/
def readsMask : Mask :=
  { free := true, finds := true, due := true, trcCfg := true, irq := true, slices := true, chans := true, far := true, near := true,
    memIo := true, bisnps := true, pba := true, ledger := true, bkt := true, flip := true, ras := true, events := true, trc := true, outs := true }

theorem State.stepReads_only (s : State) (n i la host : Nat) (mem discard : Bool) : Only readsMask s (s.stepReads n i la host mem discard) := by
  unfold State.stepReads
  extract_lets b u
  have hu : Only readsMask s u := by
    show Only readsMask s (if _ then _ else _)
    split
    · exact (s.recallAll_within la b).only.mono rfl
    · split
      · exact (s.recallEM_within la b).only.mono rfl
      · exact .refl _ s
  have hread : Within readsMask u (u.farRead (laLocal la) n i).2 :=
    WithinP.snd (u.farRead_within (laLocal la) n i) rfl (.refl _ u)
  split
  · exact hu.trans hread.only
  · exact hu

theorem State.homeStep_invalidate_spec (hx : s.trk n i = some x) (hfor : x.for_ = .peer src m) (hid : x.htid = i) (vs : List Nat)
    (discard mem : Bool) :
    Sends (vs.map (invTo s.ownDomain src i x.la m discard)) s (s.homeStep n i vs discard none 2 mem .collect) ∧
      ∃ tok since, (s.homeStep n i vs discard none 2 mem .collect).trk n i =
        some (x.stepped vs none 2 (if mem then tok else x.memTok) .collect since) := by
  obtain ⟨tok, hstep⟩ := State.homeStep_invalidate hx hfor vs discard mem
  generalize hv : s.sendInv n x vs discard = v at hstep
  have hsv : Sends (vs.map (invTo s.ownDomain src i x.la m discard)) s v := by
    rw [← hv, ← hid]
    exact State.sendInv_sends hfor vs discard s
  have hxv : v.trk n i = some x := by rw [← hv, (State.sendInv_within _ _ _ _ _).only.trk rfl, hx]
  generalize hu : v.stepReads n i x.la 2 mem discard = u at hstep
  have hvu : Sends [] v u := by rw [← hu]; exact (State.stepReads_only _ _ _ _ _ _ _).sends rfl
  have hxu : u.trk n i = some x := by rw [← hu, (State.stepReads_work _ _ _ _ _ _ _).trk, hxv]
  rw [hstep]
  refine ⟨by simpa using (hsv.trans hvu).before (State.modTrk_within u n i _).only rfl, tok, u.mtu.mt, ?_⟩
  rw [State.trk_modTrk (fun y => y.stepped vs none 2 (if mem then tok else y.memTok) .collect u.mtu.mt) fun _ => rfl, hxu, Option.map_some]

end
end Sys2Proof.Machine
end

section
/-! SUPPORT. The home's own lookup for a peer's request, and the first step that follows it (Table 5.8, R130, R141, R142). -/

namespace Sys2Proof.Machine

section
variable {s t u : State} {m : CohMsg} {x : Trk} {e : DirEnt} {n i k la g w set src : Nat}

/-! ### The lookup and what it may take over -/

/-- A tracker whose lookup has brought a way's data, or which has taken a waiting write over. -/
def Trk.looked (x : Trk) (guess : Nat) (data : Option (Line × Bool)) (dirty : Bool) : Trk :=
  { x with guess := guess, data := data, dirty := dirty }

/-- Going from `s` to `t`, tracker `i` of slice `n` has at most looked its line up, and nothing has been sent or recalled. -/
structure Looked (n i : Nat) (x : Trk) (s t : State) : Prop where
  trk : ∃ g d b, t.trk n i = some (x.looked g d b)
  only : Only lookMask s t

theorem Looked.trans {y : Trk} (h : Looked n i x s t) (hy : t.trk n i = some y) (k : Looked n i y t u) : Looked n i x s u := by
  obtain ⟨g, d, b, hg⟩ := h.trk
  obtain rfl : y = x.looked g d b := Option.some.inj (hy.symm.trans hg)
  exact ⟨k.trk, h.only.trans k.only⟩

theorem State.homeTouch_looked (hx : s.trk n i = some x) (hfor : x.for_ = .peer src m) : Looked n i x s (s.homeTouch n x) := by
  have hid : x.htid = i := State.trk_htid hx
  have hlook : Within lookMask s (s.touchLine 5 x.la).2 := s.touchLine_within 5 x.la
  have hgo : s.homeTouch n x = (s.touchLine 5 x.la).2.modTrk n i fun t => { t with guess := (s.touchLine 5 x.la).1 } := by
    simp [State.homeTouch, hfor, hid]
  rw [hgo]
  refine ⟨⟨(s.touchLine 5 x.la).1, x.data, x.dirty, ?_⟩, hlook.only.trans ((State.modTrk_within _ _ _ _).only.mono rfl)⟩
  rw [State.trk_modTrk (fun t => { t with guess := (s.touchLine 5 x.la).1 }) fun _ => rfl, (SameWork.touchLine s 5 x.la).trk, hx]
  rfl

theorem State.trk_vbFree (s : State) (n v i : Nat) : (s.vbFree n v).trk n i = s.trk n i := by
  rw [State.trk, State.vbFree, State.slice_modSlice_self, State.trk]

theorem State.homeTakeVb_looked (hx : s.trk n i = some x) : Looked n i x s (s.homeTakeVb n i).2 := by
  have hsame : Looked n i x s s := ⟨⟨x.guess, x.data, x.dirty, hx⟩, .refl _ s⟩
  have honly : Within { slices := true } s (s.homeTakeVb n i).2 := s.homeTakeVb_within n i
  cases hv : (s.slice n).vbs.find? fun v => v.la == x.la && v.action == 0 && !v.sent with
  | none => simpa [State.homeTakeVb, hx, hv] using hsame
  | some v =>
    refine ⟨⟨x.guess, some (v.data, v.poison || v.st == stP), true, ?_⟩, honly.only.mono rfl⟩
    simp only [State.homeTakeVb, hx, hv]
    rw [State.trk, State.slice_modSlice_self]
    exact (State.trk_vbFree _ n v.idx i).trans
      ((State.trk_modTrk (fun t => { t with data := some (v.data, v.poison || v.st == stP), dirty := true }) fun _ => rfl).trans (by rw [hx]; rfl))

/-- The state in which a peer's transaction takes its first step, and whether it has taken a waiting write over. -/
def State.homeReady (s : State) (n i : Nat) (x : Trk) : Bool × State :=
  if ((s.homeTouch n x).findLine x.la).isSome then (false, s.homeTouch n x) else (s.homeTouch n x).homeTakeVb n i

theorem State.homeReady_looked (hx : s.trk n i = some x) (hfor : x.for_ = .peer src m) : Looked n i x s (s.homeReady n i x).2 := by
  have htouch := State.homeTouch_looked hx hfor
  unfold State.homeReady
  split
  · exact htouch
  · obtain ⟨g, d, b, hg⟩ := htouch.trk
    exact htouch.trans hg (State.homeTakeVb_looked hg)

/-! ### The first step -/

theorem State.frozenOwn_of_peer (hfor : x.for_ = .peer src m) (s : State) : s.frozenOwn n x = none := by
  simp [State.frozenOwn, hfor]

/-- An RDS of an owned line is forwarded (R130). -/
theorem State.homeFirst_of_owned_rds (hx : s.trk n i = some x) (hfor : x.for_ = .peer src m) (hop : ∀ u : State, u.opOf n x = .rds)
    (howned : x.dst = 2 ∨ x.dst = 3) :
    s.homeFirst n i = (s.homeReady n i x).2.homeStep n i [] false (some (x.owner, opFWDS, false, false)) 0 false .fwd := by
  have hdst : (x.dst == 2 || x.dst == 3) = true := by simpa using howned
  unfold State.homeFirst State.homeReady
  simp only [hx, hop, State.frozenOwn_of_peer hfor, hdst]
  simp

/-- The members whose copies a request for a shared line invalidates, and whether their data is dropped (R130, R141, R142). -/
def invited (op : HOp) (r : Nat) (m : CohMsg) (sharers : BitVec 128) : List Nat × Bool :=
  match op with
  | .upg => ((bitsOf sharers).filter (· != r), false)
  | .iwr => (bitsOf sharers, !m.partialWr)
  | _ => (bitsOf sharers, false)

/-- An upgrade by a sharer invalidates the others, and reads no memory (R130). -/
theorem State.homeFirst_of_upgrade (hx : s.trk n i = some x) (hfor : x.for_ = .peer src m) (hop : ∀ u : State, u.opOf n x = .upg)
    (hmem : src % 128 ∈ bitsOf x.sharers) (hdst : x.dst = 1) :
    s.homeFirst n i = (s.homeReady n i x).2.homeStep n i ((bitsOf x.sharers).filter (· != src % 128)) false none 2 false .collect := by
  have hreq : s.reqMember x = src % 128 := by simp [State.reqMember, State.reqNode, hfor]
  have hin : src % 128 ∈ x.v := hmem
  unfold State.homeFirst State.homeReady
  simp only [hx, hop, hreq, State.frozenOwn_of_peer hfor, hdst]
  simp [hin]
  rfl

/-- RDX, UPG, IWR and atomics of a shared line invalidate its sharers (R130, R141, R142). -/
theorem State.homeFirst_of_shared (hx : s.trk n i = some x) (hfor : x.for_ = .peer src m) {op : HOp} (hop : ∀ u : State, u.opOf n x = op)
    (hops : op = .rdx ∨ op = .upg ∧ src % 128 ∈ bitsOf x.sharers ∨ op = .iwr ∨ op = .atom) (hdst : x.dst = 1) :
    ∃ mem, s.homeFirst n i = (s.homeReady n i x).2.homeStep n i (invited op (src % 128) m x.sharers).1 (invited op (src % 128) m x.sharers).2
      none 2 mem .collect := by
  rcases hops with rfl | ⟨rfl, hmem⟩ | rfl | rfl
  case inr.inl => exact ⟨false, State.homeFirst_of_upgrade hx hfor hop hmem hdst⟩
  all_goals
    have hmsg : s.msgOf n x = m := by simp [State.msgOf, hfor]
    unfold State.homeFirst State.homeReady
    simp only [hx, hop, hmsg, State.frozenOwn_of_peer hfor, hdst]
  · exact ⟨_, by simp [invited, Trk.v]; rfl⟩
  · refine ⟨false, ?_⟩
    cases hw : m.partialWr <;> simp [invited, Trk.v, cohWhole, hw]
  · exact ⟨_, by simp [invited, Trk.v]; rfl⟩

end
end Sys2Proof.Machine
end

section
/-! SUPPORT. The end of a sole sharer's upgrade (Table 5.8, R130): it is granted M at once. -/

namespace Sys2Proof.Machine

section
variable {s t u : State} {m : CohMsg} {x : Trk} {e : DirEnt} {n i k la g w set src : Nat}

theorem SameWork.homeRead (s : State) (n : Nat) (x : Trk) : SameWork s (s.homeRead n x) := by
  unfold State.homeRead
  split
  · exact .refl s
  · split
    · exact .wayCheck s n x.la _ _ _
    · exact .refl s

theorem SameWork.dropHome (s : State) (n la : Nat) : SameWork s (s.dropHome n la) := by
  unfold State.dropHome
  split
  · exact .dropLine s n la _ true
  · exact .refl s

theorem State.homeGo_of_waiting (hx : s.trk n i = some x) (hwait : s.settled x = false) : s.homeGo n i = s := by
  simp [State.homeGo, hx, hwait]

theorem State.stepReads_of_no_hosts (hhosts : s.noHosts la = true) (discard : Bool) : s.stepReads n i la 2 false discard = s := by
  have hcopies : s.hsfCopies la false = [] := by
    simp only [State.noHosts, Bool.and_eq_true, List.isEmpty_iff] at hhosts
    exact hhosts.1
  simp [State.stepReads, State.recallAll, State.recall, hcopies]

theorem State.homeFinish_of_sole_upgrade (hx : s.trk n i = some x) (hfor : x.for_ = .peer src m) (hop : ∀ (u : State) (y : Trk), y.for_ = x.for_ → u.opOf n y = .upg)
    (hdst : x.dst = 1) (hmem : src % 128 ∈ bitsOf x.sharers) :
    ∃ u y, Looked n i x s u ∧ u.trk n i = some y ∧ s.homeFinish n i = ((u.setDir n i 2 (src % 128) 0).homeMsg n y opACK 3 0 false).homeDone n i true := by
  generalize ht : s.homeFinish n i = t
  unfold State.homeFinish at ht
  extract_lets v at ht
  have hv : Looked n i x s v := by
    show Looked n i x s (match s.trk n i with | some t => _ | none => s)
    rw [hx]
    show Looked n i x s (if _ then s else _)
    split
    · exact ⟨⟨x.guess, x.data, x.dirty, hx⟩, .refl _ s⟩
    · exact State.homeTakeVb_looked hx
  clear_value v
  obtain ⟨g, d, b, hg⟩ := hv.trk
  have hmsg : v.msgOf n (x.looked g d b) = m := by simp [State.msgOf, Trk.looked, hfor]
  have hreq : v.reqMember (x.looked g d b) = src % 128 := by simp [State.reqMember, State.reqNode, Trk.looked, hfor]
  have hop' := fun u : State => hop u (x.looked g d b) rfl
  have hin : (x.looked g d b).v.contains (src % 128) = true := by simpa [Trk.v, Trk.looked] using hmem
  have hdst' : (x.looked g d b).dst = 1 := hdst
  generalize x.looked g d b = y at *
  rw [hg] at ht
  dsimp -zeta only at ht
  extract_lets +onlyGivenNames op msg r owned needs grantAck keeps v₂ at ht
  have hopv : op = .upg := hop' v
  have hr : r = src % 128 := hreq
  clear_value op r
  subst hopv hr
  have hneeds : needs = false := by
    show (!owned && !y.v.contains (src % 128)) = false
    rw [hin, Bool.not_true, Bool.and_false]
  have hack : grantAck = true := by
    show (HOp.upg == HOp.upg && (owned && y.owner == src % 128 || y.v.contains (src % 128))) = true
    rw [hin, Bool.or_true]
    rfl
  have hv₂ : Only lookMask v v₂ := by
    show Only lookMask v (if _ then v.homeRead n y else v)
    split
    · exact (v.homeRead_within n y).only
    · exact .refl _ v
  have hg₂ : v₂.trk n i = some y := by
    rw [← hg]
    show State.trk (if _ then v.homeRead n y else v) n i = v.trk n i
    split
    · exact (SameWork.homeRead v n y).trk n i
    · rfl
  clear_value v₂ keeps grantAck needs owned msg
  subst hneeds hack
  rw [if_neg Bool.false_ne_true] at ht
  dsimp -zeta only at ht
  extract_lets +onlyGivenNames v₃ at ht
  have hv₃ : Only { trcCfg := true, irq := true, chans := true, memIo := true, pba := true, ledger := true, events := true, trc := true, outs := true } v₂ v₃ := by
    show Only _ v₂ (if _ then _ else _)
    split
    · split
      · exact (v₂.farWriteLine_within _ _ _).only
      · exact .refl _ v₂
    · split
      · split
        · exact (v₂.farWriteLine_within _ _ _).only
        · exact .refl _ v₂
      · exact .refl _ v₂
  have hg₃ : (v₃.dropHome n y.la).trk n i = some y := by rw [(SameWork.dropHome v₃ n y.la).trk, hv₃.trk rfl, hg₂]
  have honly : Only lookMask s (v₃.dropHome n y.la) :=
    (hv.only.trans hv₂).trans ((hv₃.mono rfl).trans ((v₃.dropHome_within n y.la).only.mono rfl))
  exact ⟨v₃.dropHome n y.la, y, ⟨by rw [hg₃, ← hg]; exact hv.trk, honly⟩, hg₃, ht.symm⟩

/-! ### The grant -/

theorem State.setDir_of_cached (hx : s.trk n i = some x) (hplace : x.place = some (set, w)) (hkey : (s.bank (n / 4)).dcKey set w = some k)
    (owner : Nat) :
    Only { banks := true } s (s.setDir n i 2 owner 0) ∧
      ((s.setDir n i 2 owner 0).bank (n / 4)).ent set w = { line := laLocal x.la, st := 2, pin := true, owner := owner } := by
  have hgo : s.setDir n i 2 owner 0 = s.setBank (n / 4)
      ((s.bank (n / 4)).put set w { line := laLocal x.la, st := 2, pin := true, owner := owner, age := 0, sharers := 0 } true) := by
    simp [State.setDir, hx, hplace]
  rw [hgo, State.setBank_put hkey]
  refine ⟨rfl, ?_⟩
  rw [State.bank]
  simp only [Tab.get_put_self]
  exact Bank.ent_put hkey _

/-- A transaction whose requester is still to confirm stays in its tracker (R129). -/
theorem State.homeDone_unconfirmed (hx : s.trk n i = some x) (hconf : x.confirmed = false) :
    ∃ y, (s.homeDone n i true).trk n i = some y ∧ y.ph = .cnf ∧ Only { slices := true } s (s.homeDone n i true) := by
  generalize hu : s.modTrk n i (fun t => { t with ph := .cnf, confirmed := t.confirmed || !true, cnfAt := s.mtu.mt }) = u
  have hxu : u.trk n i = some { x with ph := .cnf, confirmed := x.confirmed || !true, cnfAt := s.mtu.mt } := by
    rw [← hu, State.trk_modTrk (fun t => { t with ph := .cnf, confirmed := t.confirmed || !true, cnfAt := s.mtu.mt }) fun _ => rfl, hx, Option.map_some]
  have hgo : s.homeDone n i true = u := by
    rw [State.homeDone, hu]
    simp [State.tryClose, hxu, hconf]
  rw [hgo]
  exact ⟨_, hxu, rfl, by rw [← hu]; exact (State.modTrk_within _ _ _ _).only⟩

end
end Sys2Proof.Machine
end

section
/-! SUPPORT. Peers' requests that the home takes (R126, R128, R130, R137, R141, R142), as their commands reach it. -/

namespace Sys2Proof.Machine

section
variable {s t u : State} {m : CohMsg} {x : Trk} {e : DirEnt} {n i k la g w set src : Nat}

/-! ### From the command to the first step -/

theorem PeerUp.of_eq (h : PeerUp s src) (hdom : t.dom = s.dom) (hnode : t.nodeNo = s.nodeNo) : PeerUp t src where
  up := by rw [hdom]; exact h.up
  member := by
    rw [← h.member]
    simp only [State.peerNode, State.tableDomain, State.isMember, State.presence, hdom]
  other := by rw [hnode]; exact h.other

theorem PeerUp.atWork (h : PeerUp s src) (fd : Finds) : PeerUp (s.atWork fd) src :=
  h.of_eq ((s.atWork_only fd).dom rfl) ((s.atWork_only fd).nodeNo rfl)

theorem LineReady.atWork (h : LineReady s la g w e) (fd : Finds) : LineReady (s.atWork fd) la g w e :=
  h.of_only ((s.atWork_only fd).mono rfl) (congrArg Dom.downDue ((s.atWork_only fd).dom rfl))

theorem State.takenBy_atWork (s : State) (fd : Finds) (src opc : Nat) (m : CohMsg) (g : Nat) :
    (s.atWork fd).takenBy src opc m g = s.takenBy src opc m g := by
  rw [State.takenBy_eq, State.takenBy_eq, State.ticketed, State.ticketed, (s.atWork_only fd).trk rfl]

/-- A peer's request that comes to a ready line begins its transaction in the tracker that takes it. -/
theorem State.homeRequest_begins (h : LineReady s m.la g w e) (hpeer : PeerUp s src) (hdc : s.finds.dc = false) (hst : e.st ≠ 0)
    (hwbd : m.opc ≠ opWBD) (hoffer : m.opc ≠ opOFFER) (hgood : m.opc = opATOM → opndBad m.opnd = false) :
    ∃ y x tkt, s.homeRequest src m = (y.homeFirst (sliceOf m.la) (s.takenBy src m.opc m g)).homeGo (sliceOf m.la) (s.takenBy src m.opc m g) ∧
      y.trk (sliceOf m.la) (s.takenBy src m.opc m g) = some x ∧
      x.Begins (s.takenBy src m.opc m g) m.la src (keptAs m tkt) e (dirSetOf s.dirGib m.la, w) ∧
      Only { slices := true, banks := true, events := true, rtrRx := true, dom := true } s y ∧
      ∃ k, (y.bank (sliceOf m.la / 4)).dcKey (dirSetOf s.dirGib m.la) w = some k := by
  generalize hv : (s.consumeCoh src m).sawUp (src % 128) = v
  have hsv : Only { rtrRx := true, dom := true } s v := by
    rw [← hv]
    exact ((State.consumeCoh_within _ _ _).only.mono rfl).trans ((State.sawUp_within _ _).only.mono rfl)
  have hready : LineReady v m.la g w e := h.of_only (hsv.mono rfl) (by rw [← hv]; rfl)
  obtain ⟨y, x, hgo, hx, hbegins, honly, hkey⟩ := State.homeTake_begins (m := keptAs m (s.ticketed src m.opc m)) hready
    (by rw [hsv.finds rfl]; exact hdc) hst hwbd hoffer src (s.takenBy src m.opc m g)
  rw [hsv.dirGib rfl] at hbegins hkey
  exact ⟨y, x, _, by rw [State.homeRequest_take h hpeer hwbd hoffer hgood, hv, hgo], hx, hbegins, (hsv.mono rfl).trans (honly.mono rfl), hkey⟩

/-! ### RDS of an owned line -/

theorem State.homeRequest_of_owned_rds (h : LineReady s m.la g w e) (hpeer : PeerUp s src) (hdc : s.finds.dc = false) (hopc : m.opc = opRDS)
    (hunc : m.unc = false) (howned : e.st = 2 ∨ e.st = 3) :
    Sends [fwdTo s.ownDomain src (s.takenBy src opRDS m g) m.la m e.owner opFWDS] s (s.homeRequest src m) ∧
      ∃ x, (s.homeRequest src m).trk (sliceOf m.la) (s.takenBy src opRDS m g) = some x ∧ x.ph = .fwd ∧ x.fwdWait = some e.owner := by
  have hst : e.st ≠ 0 := by omega
  obtain ⟨y, x, tkt, hgo, hx, hb, honly, -⟩ := State.homeRequest_begins h hpeer hdc hst (by rw [hopc]; decide) (by rw [hopc]; decide)
    (fun hatom => absurd (hopc.symm.trans hatom) (by decide))
  rw [hopc] at hgo hx hb
  generalize s.takenBy src opRDS m g = i at *
  generalize hn : sliceOf m.la = n at *
  have hop : ∀ u : State, u.opOf n x = .rds := fun u => by simp [State.opOf, hb.for_, keptAs, hopc, hunc]
  have hfirst := State.homeFirst_of_owned_rds hx hb.for_ hop (by rw [hb.dst]; exact howned)
  rw [hb.owner] at hfirst
  have hready := State.homeReady_looked hx hb.for_
  generalize (y.homeReady n i x).2 = z at hfirst hready
  obtain ⟨gs, d, dirty, hz⟩ := hready.trk
  obtain ⟨hsends, since, hstep⟩ := State.homeStep_forward_spec (x := x.looked gs d dirty) hz hb.for_ hb.htid e.owner opFWDS
  have hwait (t : State) : t.settled ((x.looked gs d dirty).stepped [] (some e.owner) 0 (x.looked gs d dirty).memTok .fwd since) = false := by
    simp [State.settled, Trk.stepped, Trk.looked, hb.offered]
  have hdomain : z.ownDomain = s.ownDomain := by rw [State.ownDomain, hready.only.nodeNo rfl, honly.nodeNo rfl, State.ownDomain]
  have htrkla : (x.looked gs d dirty).la = m.la := hb.la
  rw [hgo, hfirst, State.homeGo_of_waiting hstep (hwait _)]
  rw [hdomain, htrkla] at hsends
  exact ⟨.after honly rfl (.after hready.only rfl hsends), _, hstep, rfl, rfl⟩

/-! ### RDX, UPG, IWR and atomics of a shared line -/

/-- The request is an RDX, an upgrade by a sharer, an IWR or an atomic. -/
inductive AsksSole (m : CohMsg) (r : Nat) (sharers : BitVec 128) : HOp → Prop
  | rdx (h : m.opc = opRDX) : AsksSole m r sharers .rdx
  | upg (h : m.opc = opUPG) (hmem : r ∈ bitsOf sharers) : AsksSole m r sharers .upg
  | iwr (h : m.opc = opIWR) : AsksSole m r sharers .iwr
  | atom (h : m.opc = opATOM) : AsksSole m r sharers .atom

theorem AsksSole.no_eviction {r : Nat} {sharers : BitVec 128} {op : HOp} (h : AsksSole m r sharers op) : m.opc ≠ opWBD ∧ m.opc ≠ opOFFER := by
  cases h with
  | rdx h => rw [h]; decide
  | upg h _ => rw [h]; decide
  | iwr h => rw [h]; decide
  | atom h => rw [h]; decide

theorem AsksSole.opOf {r : Nat} {sharers : BitVec 128} {op : HOp} (h : AsksSole m r sharers op) {tkt : Bool}
    (hfor : x.for_ = .peer src (keptAs m tkt)) (u : State) : u.opOf n x = op := by
  cases h with
  | rdx h => simp [State.opOf, hfor, keptAs, h, opRDS, opRDX]
  | upg h _ => simp [State.opOf, hfor, keptAs, h, opRDS, opRDX, opUPG]
  | iwr h => simp [State.opOf, hfor, keptAs, h, opRDS, opRDX, opUPG, opWBD, opOFFER, opIWR]
  | atom h => simp [State.opOf, hfor, keptAs, h, opRDS, opRDX, opUPG, opWBD, opOFFER, opIWR, opATOM]

theorem AsksSole.ops {r : Nat} {sharers : BitVec 128} {op : HOp} (h : AsksSole m r sharers op) :
    op = .rdx ∨ op = .upg ∧ r ∈ bitsOf sharers ∨ op = .iwr ∨ op = .atom := by
  cases h with
  | rdx _ => exact .inl rfl
  | upg _ hmem => exact .inr (.inl ⟨rfl, hmem⟩)
  | iwr _ => exact .inr (.inr (.inl rfl))
  | atom _ => exact .inr (.inr (.inr rfl))

/-- The sharers are sent INV, and the transaction waits for them. -/
theorem State.homeRequest_of_shared (h : LineReady s m.la g w e) (hpeer : PeerUp s src) (hdc : s.finds.dc = false) (hst : e.st = 1)
    (hgood : opndBad m.opnd = false) {op : HOp} (hask : AsksSole m (src % 128) e.sharers op) {vs : List Nat} {discard : Bool}
    (hvs : invited op (src % 128) m e.sharers = (vs, discard)) (hsome : vs ≠ []) :
    Sends (vs.map (invTo s.ownDomain src (s.takenBy src m.opc m g) m.la m discard)) s (s.homeRequest src m) ∧
      ∃ x, (s.homeRequest src m).trk (sliceOf m.la) (s.takenBy src m.opc m g) = some x ∧ x.ph = .collect ∧ x.invWait = vs := by
  obtain ⟨hwbd, hoffer⟩ := hask.no_eviction
  obtain ⟨y, x, tkt, hgo, hx, hb, honly, -⟩ := State.homeRequest_begins h hpeer hdc (by rw [hst]; decide) hwbd hoffer fun _ => hgood
  generalize s.takenBy src m.opc m g = i at *
  generalize hn : sliceOf m.la = n at *
  obtain ⟨mem, hfirst⟩ := State.homeFirst_of_shared hx hb.for_ (hask.opOf hb.for_) (by rw [hb.sharers]; exact hask.ops) (by rw [hb.dst, hst])
  have hinv : invited op (src % 128) (keptAs m tkt) x.sharers = (vs, discard) := by rw [hb.sharers, ← hvs]; rfl
  rw [hinv] at hfirst
  have hready := State.homeReady_looked hx hb.for_
  generalize (y.homeReady n i x).2 = z at hfirst hready
  obtain ⟨gs, d, dirty, hz⟩ := hready.trk
  obtain ⟨hsends, tok, since, hstep⟩ := State.homeStep_invalidate_spec (x := x.looked gs d dirty) hz hb.for_ hb.htid vs discard mem
  have hwait (t : State) (tok : Option Nat) : t.settled ((x.looked gs d dirty).stepped vs none 2 tok .collect since) = false := by
    simp [State.settled, Trk.stepped, hsome]
  have hdomain : z.ownDomain = s.ownDomain := by rw [State.ownDomain, hready.only.nodeNo rfl, honly.nodeNo rfl, State.ownDomain]
  have htrkla : (x.looked gs d dirty).la = m.la := hb.la
  rw [hgo, hfirst, State.homeGo_of_waiting hstep (hwait _ _)]
  rw [hdomain, htrkla] at hsends
  exact ⟨.after honly rfl (.after hready.only rfl hsends), _, hstep, rfl, rfl⟩

/-! ### The upgrade of a sole sharer -/

theorem Trk.Begins.looked {place : Nat × Nat} (h : x.Begins i la src m e place) (guess : Nat) (data : Option (Line × Bool)) (dirty : Bool) :
    (x.looked guess data dirty).Begins i la src m e place :=
  ⟨h.htid, h.la, h.for_, h.dst, h.owner, h.sharers, h.place, h.offer, h.wbd, h.mem, h.offered, h.confirmed⟩

theorem Trk.Begins.stepped {place : Nat × Nat} (h : x.Begins i la src m e place) (invs : List Nat) (fwd : Option Nat) (host : Nat) (ph : HPh)
    (since : Nat) : (x.stepped invs fwd host x.memTok ph since).Begins i la src m e place :=
  ⟨h.htid, h.la, h.for_, h.dst, h.owner, h.sharers, h.place, h.offer, h.wbd, h.mem, h.offered, h.confirmed⟩

theorem filter_ne_of_singleton {l : List Nat} {r : Nat} (h : l = [r]) : l.filter (· != r) = [] := by
  simp [h]

theorem State.homeRequest_of_sole_upgrade (h : LineReady s m.la g w e) (hpeer : PeerUp s src) (hdc : s.finds.dc = false) (hopc : m.opc = opUPG)
    (hst : e.st = 1) (hsole : bitsOf e.sharers = [src % 128]) (hhosts : s.noHosts m.la = true) :
    Sends [(src, .coh false { opc := opACK, grant := 3, tid := m.tid, req := m.req, htid := s.takenBy src opUPG m g, la := m.la })] s
        (s.homeRequest src m) ∧
      (∃ x, (s.homeRequest src m).trk (sliceOf m.la) (s.takenBy src opUPG m g) = some x ∧ x.ph = .cnf) ∧
      ((s.homeRequest src m).bank (sliceOf m.la / 4)).ent (dirSetOf s.dirGib m.la) w =
        { line := laLocal m.la, st := 2, pin := true, owner := src % 128 } := by
  have hmem : src % 128 ∈ bitsOf e.sharers := by simp [hsole]
  obtain ⟨y, x, tkt, hgo, hx, hb, honly, k, hkey⟩ := State.homeRequest_begins h hpeer hdc (by rw [hst]; decide) (by rw [hopc]; decide)
    (by rw [hopc]; decide) (fun hatom => absurd (hopc.symm.trans hatom) (by decide))
  rw [hopc] at hgo hx hb
  generalize s.takenBy src opUPG m g = i at *
  generalize hn : sliceOf m.la = n at *
  have hask : AsksSole m (src % 128) e.sharers .upg := .upg hopc hmem
  have hop (u : State) (q : Trk) (hq : q.for_ = x.for_) : u.opOf n q = .upg := hask.opOf (hq.trans hb.for_) u
  have hfirst := State.homeFirst_of_upgrade hx hb.for_ (fun u => hop u x rfl) (by rw [hb.sharers]; exact hmem) (by rw [hb.dst, hst])
  rw [hb.sharers, filter_ne_of_singleton hsole] at hfirst
  -- the first step finds nothing to wait for
  have hready := State.homeReady_looked hx hb.for_
  generalize (y.homeReady n i x).2 = z at hfirst hready
  obtain ⟨gs, d, dirty, hz⟩ := hready.trk
  generalize hx' : x.looked gs d dirty = x' at hz
  have hb' : x'.Begins i m.la src (keptAs m tkt) e (dirSetOf s.dirGib m.la, w) := by rw [← hx']; exact hb.looked gs d dirty
  have hhostsz : z.noHosts x'.la = true := by
    rw [hb'.la, State.noHosts, hready.only.hsfCopies rfl, honly.hsfCopies rfl, hready.only.biOpen rfl, honly.biOpen rfl]
    exact hhosts
  obtain ⟨tok, hstep⟩ := State.homeStep_invalidate hz hb'.for_ [] false false
  have hreads : (z.sendInv n x' [] false).stepReads n i x'.la 2 false false = z := State.stepReads_of_no_hosts hhostsz false
  rw [hreads] at hstep
  generalize hq : x'.stepped [] none 2 x'.memTok .collect z.mtu.mt = q at *
  generalize hu : z.modTrk n i (fun t => t.stepped [] none 2 (if false = true then tok else t.memTok) .collect z.mtu.mt) = u at hstep
  have hzu : Only { slices := true } z u := by rw [← hu]; exact (State.modTrk_within _ _ _ _).only
  have hqu : u.trk n i = some q := by
    rw [← hu, State.trk_modTrk (fun t => t.stepped [] none 2 (if false = true then tok else t.memTok) .collect z.mtu.mt) fun _ => rfl, hz, ← hq]
    rfl
  have hbq : q.Begins i m.la src (keptAs m tkt) e (dirSetOf s.dirGib m.la, w) := by rw [← hq]; exact hb'.stepped [] none 2 .collect z.mtu.mt
  -- so it is completed at once
  have hsettled : u.settled q = true := by
    have hhostsu : u.noHosts q.la = true := by
      rw [hbq.la, ← hb'.la, State.noHosts, hzu.hsfCopies rfl, hzu.biOpen rfl]
      exact hhostsz
    have hempty : q.invWait = [] ∧ q.fwdWait = none ∧ q.hostWait = 2 := by rw [← hq]; exact ⟨rfl, rfl, rfl⟩
    obtain ⟨hinv, hfwd, hhost⟩ := hempty
    simp [State.settled, hinv, hfwd, hhost, hbq.offer, hbq.mem, hhostsu]
  have hdstq : q.dst = 1 := hbq.dst.trans hst
  have hopq (v : State) (p : Trk) (hp : p.for_ = q.for_) : v.opOf n p = .upg := hask.opOf (hp.trans hbq.for_) v
  have hone : u.homeWantsSecond n q = false := by simp [State.homeWantsSecond, hopq u q rfl, hdstq]
  have hph : q.ph = .collect := by rw [← hq]; rfl
  obtain ⟨v, p, hlooked, hpv, hfinish⟩ := State.homeFinish_of_sole_upgrade hqu hbq.for_ hopq hdstq (by rw [hbq.sharers]; exact hmem)
  have hgo' : s.homeRequest src m = ((v.setDir n i 2 (src % 128) 0).homeMsg n p opACK 3 0 false).homeDone n i true := by
    rw [hgo, hfirst, hstep, ← hfinish]
    simp [State.homeGo, hqu, hph, hsettled, hone]
  -- and granted
  have hbp : p.Begins i m.la src (keptAs m tkt) e (dirSetOf s.dirGib m.la, w) := by
    obtain ⟨gs', d', dirty', hlook⟩ := hlooked.trk
    obtain rfl : p = q.looked gs' d' dirty' := Option.some.inj (hpv.symm.trans hlook)
    exact hbq.looked gs' d' dirty'
  have hkeyv : (v.bank (n / 4)).dcKey (dirSetOf s.dirGib m.la) w = some k := by
    rw [hlooked.only.bank rfl, hzu.bank rfl, hready.only.bank rfl]
    exact hkey
  obtain ⟨hdirOnly, hent⟩ := State.setDir_of_cached hpv hbp.place hkeyv (src % 128)
  generalize v.setDir n i 2 (src % 128) 0 = a at hdirOnly hent hgo'
  have hmsg : a.homeMsg n p opACK 3 0 false =
      a.sendCoh src { opc := opACK, grant := 3, tid := m.tid, req := m.req, htid := i, la := m.la } := by
    simp [State.homeMsg, State.msgOf, hbp.for_, hbp.htid, hbp.la, keptAs]
  rw [hmsg] at hgo'
  have hsend := State.sendCoh_sends a src { opc := opACK, grant := 3, tid := m.tid, req := m.req, htid := i, la := m.la }
  have hsendOnly := (a.sendCoh_within src { opc := opACK, grant := 3, tid := m.tid, req := m.req, htid := i, la := m.la }).only
  obtain ⟨r, hr, hrph, hdone⟩ := State.homeDone_unconfirmed ((hsendOnly.trk rfl n i).trans ((hdirOnly.trk rfl n i).trans hpv)) hbp.confirmed
  rw [hgo']
  refine ⟨.after honly rfl (.after hready.only rfl (.after hzu rfl (.after hlooked.only rfl (.after hdirOnly rfl (hsend.before hdone rfl))))),
    ⟨r, hr, hrph⟩, ?_⟩
  rw [hdone.bank rfl, hsendOnly.bank rfl, hent, hbp.la]

/-! ### The commands -/

/-- Command `c` brings the home request `m` of `src`. -/
def Brings (c : Instr) (src : Nat) (m : CohMsg) (fd : Finds) : Prop := ∀ s : State, exec c s = .next (s.finding fd fun s => s.homeRequest src m)

theorem exec_rds_of_owned {fd : Finds} (h : LineReady s m.la g w e) (hpeer : PeerUp s src) (hdc : fd.dc = false) (hunc : m.unc = false)
    (howned : e.st = 2 ∨ e.st = 3) :
    ∃ t x, exec (.rds src m fd) s = .next t ∧
      Sends [fwdTo s.ownDomain src (s.takenBy src opRDS m g) m.la m e.owner opFWDS] s t ∧
      t.trk (sliceOf m.la) (s.takenBy src opRDS m g) = some x ∧ x.ph = .fwd ∧ x.fwdWait = some e.owner := by
  obtain ⟨hsends, x, hx, hph, hfwd⟩ := State.homeRequest_of_owned_rds (m := { m with opc := opRDS }) (h.atWork fd) (hpeer.atWork fd) hdc rfl hunc howned
  rw [State.ownDomain, (s.atWork_only fd).nodeNo rfl] at hsends
  rw [State.takenBy_atWork] at hsends hx
  exact ⟨s.finding fd fun s => s.homeRequest src { m with opc := opRDS }, x, rfl, .finding hsends, hx, hph, hfwd⟩

theorem exec_of_shared {c : Instr} {fd : Finds} (hc : Brings c src m fd) (h : LineReady s m.la g w e) (hpeer : PeerUp s src) (hdc : fd.dc = false)
    (hst : e.st = 1) (hgood : opndBad m.opnd = false) {op : HOp} (hask : AsksSole m (src % 128) e.sharers op) {vs : List Nat} {discard : Bool}
    (hvs : invited op (src % 128) m e.sharers = (vs, discard)) (hsome : vs ≠ []) :
    ∃ t x, exec c s = .next t ∧ Sends (vs.map (invTo s.ownDomain src (s.takenBy src m.opc m g) m.la m discard)) s t ∧
      t.trk (sliceOf m.la) (s.takenBy src m.opc m g) = some x ∧ x.ph = .collect ∧ x.invWait = vs := by
  obtain ⟨hsends, x, hx, hph, hinv⟩ := State.homeRequest_of_shared (h.atWork fd) (hpeer.atWork fd) hdc hst hgood hask hvs hsome
  rw [State.ownDomain, (s.atWork_only fd).nodeNo rfl] at hsends
  rw [State.takenBy_atWork] at hsends hx
  exact ⟨s.finding fd fun s => s.homeRequest src m, x, hc s, .finding hsends, hx, hph, hinv⟩

theorem exec_upg_of_sole {fd : Finds} (h : LineReady s m.la g w e) (hpeer : PeerUp s src) (hdc : fd.dc = false) (hst : e.st = 1)
    (hsole : bitsOf e.sharers = [src % 128]) (hhosts : s.noHosts m.la = true) :
    ∃ t x, exec (.upg src m fd) s = .next t ∧
      Sends [(src, .coh false { opc := opACK, grant := 3, tid := m.tid, req := m.req, htid := s.takenBy src opUPG m g, la := m.la })] s t ∧
      t.trk (sliceOf m.la) (s.takenBy src opUPG m g) = some x ∧ x.ph = .cnf ∧
      (t.bank (sliceOf m.la / 4)).ent (dirSetOf s.dirGib m.la) w = { line := laLocal m.la, st := 2, pin := true, owner := src % 128 } := by
  have hwork := s.atWork_only fd
  obtain ⟨hsends, ⟨x, hx, hph⟩, hent⟩ := State.homeRequest_of_sole_upgrade (m := { m with opc := opUPG }) (h.atWork fd) (hpeer.atWork fd) hdc rfl hst hsole
    (by rw [State.noHosts, hwork.hsfCopies rfl, hwork.biOpen rfl]; exact hhosts)
  rw [State.takenBy_atWork] at hsends hx
  rw [hwork.dirGib rfl] at hent
  exact ⟨s.finding fd fun s => s.homeRequest src { m with opc := opUPG }, x, rfl, .finding hsends, hx, hph, hent⟩

/-- A request from no member of the domain table is recorded, and no more (R15). -/
theorem State.homeRequest_of_stranger (hpow : s.powered = true) (hup : s.dom.st = 2) (hpeer : s.peerNode src = false) (m : CohMsg) :
    Only { rtrRx := true, trcCfg := true, irq := true, pba := true, ledger := true, events := true, trc := true, outs := true } s
      (s.homeRequest src m) := by
  have hpow' : (s.consumeCoh src m).powered = true := hpow
  have hup' : (s.consumeCoh src m).dom.st = 2 := hup
  have hpeer' : (s.consumeCoh src m).peerNode src = false := hpeer
  have hgo : s.homeRequest src m = (s.consumeCoh src m).rec_ 0x16 (136 + sliceOf m.la / 4) src (64 * m.la) m.opc := by
    simp [State.homeRequest, hpow', hup', hpeer']
  rw [hgo]
  exact ((State.consumeCoh_within _ _ _).only.mono rfl).trans ((State.rec__within _ _ _ _ _ _).only.mono rfl)

theorem exec_of_stranger {c : Instr} {fd : Finds} (hc : Brings c src m fd) (hpow : s.powered = true) (hup : s.dom.st = 2)
    (hpeer : s.peerNode src = false) : ∃ t, exec c s = .next t ∧ Sends [] s t ∧ t.slices = s.slices ∧ t.banks = s.banks := by
  have hwork := s.atWork_only fd
  have hmember : (s.atWork fd).peerNode src = false := by
    rw [← hpeer]
    simp only [State.peerNode, State.tableDomain, State.isMember, State.presence, hwork.dom rfl]
  have honly := State.homeRequest_of_stranger ((hwork.powered rfl).trans hpow) ((congrArg Dom.st (hwork.dom rfl)).trans hup) hmember m
  exact ⟨s.finding fd fun s => s.homeRequest src m, hc s, .finding (honly.sends rfl), (honly.slices rfl).trans (hwork.slices rfl),
    (honly.banks rfl).trans (hwork.banks rfl)⟩

end

/-- Settles O18: a peer's request for a ready line takes its tracker, finds its entry in the directory cache and takes its first step. -/
theorem homeTakesPeerRequests : Obligations.HomeTakesPeerRequests := by
  unfold Obligations.HomeTakesPeerRequests
  refine ⟨?_, ?_, ?_, ?_⟩
  · rintro s src g k w m e fd h hpeer rfl hdc hunc howned
    exact exec_rds_of_owned h hpeer hdc hunc howned
  · rintro s src g k w m e fd c vs discard h hpeer hdc hst hgood hsome (⟨rfl, rfl, rfl, rfl⟩ | ⟨rfl, rfl, hmem, rfl, rfl⟩ | ⟨rfl, rfl, rfl, rfl⟩ | ⟨rfl, rfl, rfl, rfl⟩)
    · exact exec_of_shared (m := { m with opc := opRDX }) (fun _ => rfl) h hpeer hdc hst hgood (.rdx rfl) rfl hsome
    · exact exec_of_shared (m := { m with opc := opUPG }) (fun _ => rfl) h hpeer hdc hst hgood (.upg rfl hmem) rfl hsome
    · exact exec_of_shared (m := { m with opc := opIWR }) (fun _ => rfl) h hpeer hdc hst hgood (.iwr rfl) rfl hsome
    · exact exec_of_shared (m := { m with opc := opATOM }) (fun _ => rfl) h hpeer hdc hst hgood (.atom rfl) rfl hsome
  · rintro s src g k w m e fd h hpeer rfl hdc hst hsole hhosts
    exact exec_upg_of_sole h hpeer hdc hst hsole hhosts
  · intro s src m fd hpow hup hpeer c hc
    simp only [List.mem_cons, List.not_mem_nil, or_false] at hc
    rcases hc with rfl | rfl | rfl | rfl | rfl | rfl | rfl
    · exact exec_of_stranger (m := { m with opc := opRDS }) (fun _ => rfl) hpow hup hpeer
    · exact exec_of_stranger (m := { m with opc := opRDX }) (fun _ => rfl) hpow hup hpeer
    · exact exec_of_stranger (m := { m with opc := opUPG }) (fun _ => rfl) hpow hup hpeer
    · exact exec_of_stranger (m := { m with opc := opWBD }) (fun _ => rfl) hpow hup hpeer
    · exact exec_of_stranger (m := { m with opc := opOFFER }) (fun _ => rfl) hpow hup hpeer
    · exact exec_of_stranger (m := { m with opc := opIWR }) (fun _ => rfl) hpow hup hpeer
    · exact exec_of_stranger (m := { m with opc := opATOM }) (fun _ => rfl) hpow hup hpeer

end Sys2Proof.Machine
end

section
/-! SUPPORT. The reads of data ways (R39, R55, R65) that a snoop's lookup makes: what the codes find in them, and what the counts of their
corrections leave alone. -/

namespace Sys2Proof.Machine

section
variable {m : Mask} {s t : State} {n set w la : Nat}

/-! ### The words that injection corrupts meanwhile -/

/-- Injection has corrupted no word but the record of the set. -/
def State.RecFlips (s : State) (n set : Nat) : Prop :=
  ∀ x ∈ s.ras.latent, x.at_ 1 (nmcOf s.part n) (64 * (chanRow s.part n (rowOf s.part set) * 16 + 15)) = true

theorem State.RecFlips.of_clean (h : s.ras.latent = []) : s.RecFlips n set := by
  simp [State.RecFlips, h]

theorem State.RecFlips.of_only (h : s.RecFlips n set) (ho : Only m s t) (hm : m.flip = false) : t.RecFlips n set := by
  rwa [State.RecFlips, ho.latent hm, ho.part]

/-- The write of the record may be corrupted, or mend it. -/
theorem State.RecFlips.write (h : s.RecFlips n set) : (s.nearAccess n set 15 true).RecFlips n set := by
  have hslot (row : Nat) : ((row * 16 + 15) % 16 == 0) = false := by
    rw [beq_eq_false_iff_ne]
    omega
  have hflip : (s.flipDone 1 (nmcOf s.part n) (64 * (chanRow s.part n (rowOf s.part set) * 16 + 15))).RecFlips n set := by
    rw [State.RecFlips, ((s.flipDone_within _ _ _).only).part]
    have hother : ∀ x ∈ s.otherFlips 1 (nmcOf s.part n) (64 * (chanRow s.part n (rowOf s.part set) * 16 + 15)),
        x.at_ 1 (nmcOf s.part n) (64 * (chanRow s.part n (rowOf s.part set) * 16 + 15)) = true := fun x hx => h x (List.mem_filter.mp hx).1
    unfold State.flipDone
    split
    · intro x hx
      rcases List.mem_append.mp hx with hx | hx
      · exact hother x hx
      · simp only [List.mem_singleton.mp hx, Flip.at_, State.flipOf, beq_self_eq_true, Bool.and_self]
    · split
      · exact h
      · exact hother
  simp only [State.nearAccess, State.flipNear, hslot, if_true]
  split
  · exact h
  · exact hflip.of_only (State.chanEnq_within _ _ _ _).only rfl

/-- A data way is then read as the codes find it. -/
theorem State.RecFlips.metNear (h : s.RecFlips n set) (h1 : 1 ≤ w) (hw : w < 15) (e : ArrErr) : s.metNear n set w e = e := by
  have hslot : (w == 0) = false := by
    rw [beq_eq_false_iff_ne]
    omega
  have hway : s.ras.latent.find? (fun x => x.at_ 1 (nmcOf s.part n) (64 * (chanRow s.part n (rowOf s.part set) * 16 + w))) = none := by
    refine List.find?_eq_none.mpr fun x hx => ?_
    have hat := h x hx
    simp only [Flip.at_, Bool.and_eq_true, beq_iff_eq] at hat ⊢
    omega
  have hhouse : s.ras.latent.find? (fun x => x.target == 4 && x.addr / 64 == s.houseIndex set w) = none := by
    refine List.find?_eq_none.mpr fun x hx => ?_
    have hat := h x hx
    simp only [Flip.at_, Bool.and_eq_true, beq_iff_eq] at hat ⊢
    omega
  simp [State.metNear, State.met, hslot, hway, hhouse]

/-- The codes find no uncorrectable error in the data ways that the command still reads. -/
def State.WaysGood (s : State) : Prop := ∀ e ∈ s.finds.way, e ≠ .ue

theorem State.WaysGood.of_only (h : s.WaysGood) (ho : Only m s t) (hm : m.finds = false) : t.WaysGood := by
  rwa [State.WaysGood, ho.finds hm]

theorem State.WaysGood.popWay (h : s.WaysGood) : s.popWay.1 ≠ .ue ∧ s.popWay.2.WaysGood := by
  unfold State.popWay
  split
  · exact ⟨nofun, h⟩
  · next e es he =>
    have hall : ∀ x ∈ e :: es, x ≠ .ue := he ▸ h
    exact ⟨hall e List.mem_cons_self, fun x hx => hall x (List.mem_cons_of_mem e hx)⟩

/-! ### A set whose ways can be read -/

/-- The ways of the set can be read: its channel works, injection has corrupted no word but the set's record, and the codes find no
uncorrectable error in the ways that the command still reads. -/
structure WaysRead (s : State) (n set : Nat) : Prop where
  works : s.nearFrozen n = false
  flips : s.RecFlips n set
  good : s.WaysGood

theorem WaysRead.of_only (h : WaysRead s n set) (ho : Only m s t) (hchans : m.chans = false) (hflip : m.flip = false) (hfinds : m.finds = false) :
    WaysRead t n set :=
  ⟨(ho.nearFrozen hchans n).trans h.works, h.flips.of_only ho hflip, h.good.of_only ho hfinds⟩

theorem WaysRead.read (h : WaysRead s n set) (k : Nat) : WaysRead (s.nearAccess n set k false) n set :=
  have honly := s.nearAccess_read_only n set k
  ⟨(s.nearAccess_nearFrozen n set k false n).trans h.works, h.flips.of_only honly rfl, h.good.of_only honly rfl⟩

theorem WaysRead.writeRec (h : WaysRead s n set) (r : SetRec) :
    WaysRead (State.nearAccess { s with mem := { s.mem with recs := Tab.put {} s.mem.recs set r } } n set 15 true) n set :=
  ⟨(State.nearAccess_nearFrozen _ n set 15 true n).trans h.works,
    State.RecFlips.write (s := { s with mem := { s.mem with recs := Tab.put {} s.mem.recs set r } }) h.flips,
    State.WaysGood.of_only (s := { s with mem := { s.mem with recs := Tab.put {} s.mem.recs set r } }) h.good
      (State.nearAccess_within _ n set 15 true).only rfl⟩

theorem WaysRead.popRec (h : WaysRead s n set) : WaysRead s.popRec.2 n set := by
  have honly := (State.popRec_within s).only
  refine ⟨(honly.nearFrozen rfl n).trans h.works, h.flips.of_only honly rfl, ?_⟩
  unfold State.popRec
  split <;> exact h.good

theorem WaysRead.putRec (h : WaysRead s n set) (r : SetRec) : WaysRead (s.putRec n set r) n set := by
  have hread : WaysRead (s.nearAccess n set 15 false).popRec.2 n set := (h.read 15).popRec
  unfold State.putRec
  split
  · exact h
  · simp only
    generalize (s.nearAccess n set 15 false).popRec.2 = t at hread
    split
    · exact hread.writeRec _
    · have hcount := hread.of_only (t.bucket_within (64 + nmcOf t.part n)).only rfl rfl rfl
      exact (hcount.of_only (State.recErr_within _ 0x01 n (t.injNear n set 15) set 15).only rfl rfl rfl).writeRec _
    · have hlost := hread.of_only (t.ueData_within n (t.injNear n set 15) set 15).only rfl rfl rfl
      exact WaysRead.writeRec (s := { t.ueData n (t.injNear n set 15) set 15 with free := t.free + 1 }) ⟨hlost.works, hlost.flips, hlost.good⟩ _

theorem WaysRead.ceWay (h : WaysRead s n set) (w : Nat) : WaysRead (s.ceWay n set w) n set := by
  unfold State.ceWay
  extract_lets r c c' t u thr
  have hu : WaysRead u n set := (h.putRec _).of_only (t.bucket_within _).only rfl rfl rfl
  clear_value u
  split
  · exact hu
  · split
    · exact hu.of_only (u.modSlice_within n _).only rfl rfl rfl
    · split
      · exact hu.of_only (u.rec__within _ _ _ _ _).only rfl rfl rfl
      · exact hu

theorem WaysRead.popWay (h : WaysRead s n set) : s.popWay.1 ≠ .ue ∧ WaysRead s.popWay.2 n set := by
  have honly := (s.popWay_within).only
  obtain ⟨hfound, hgood⟩ := h.good.popWay
  exact ⟨hfound, (honly.nearFrozen rfl n).trans h.works, h.flips.of_only honly rfl, hgood⟩

theorem WaysRead.ite {c : Prop} [Decidable c] (h : WaysRead s n set) (k : WaysRead t n set) : WaysRead (if c then s else t) n set := by
  split <;> assumption

theorem WaysRead.wordErr (h : WaysRead s n set) (w : Nat) : WaysRead (s.wordErr n set w).2 n set :=
  .ite (h.popWay.2.ceWay w) h.popWay.2

/-- A way of it is read with no uncorrectable error. -/
theorem WaysRead.word_ne_ue (h : WaysRead s n set) (h1 : 1 ≤ w) (hw : w < 15) : (s.wordErr n set w).1 ≠ .ue := by
  obtain ⟨hfound, hpop⟩ := h.popWay
  have hmet := hpop.flips.metNear h1 hw s.popWay.1
  unfold State.wordErr
  simp only [hmet]
  split
  · exact nofun
  · exact hfound

theorem WaysRead.guessLost (h : WaysRead s n set) (g : Nat) : WaysRead (s.guessLost n set g) n set := .ite h (h.wordErr g)

/-- The line whose way is read for a snoop stays as it is. -/
theorem WaysRead.wayCheck (h : WaysRead s n (setOf s.part la)) (h1 : 1 ≤ w) (hw : w < 15) (st : BitVec 3) (here : Bool) :
    KeepsWays n s (s.wayCheck n la w st here) ∧ WaysRead (s.wayCheck n la w st here) n (setOf s.part la) := by
  have hread : WaysRead (if here then s else s.nearAccess n (setOf s.part la) w false) n (setOf s.part la) := .ite h (h.read w)
  have hgo : s.wayCheck n la w st here = (s.readWay n (setOf s.part la) w here).2 := by
    have hfound : (s.readWay n (setOf s.part la) w here).1 ≠ .ue := hread.word_ne_ue h1 hw
    unfold State.wayCheck
    split
    next x t he =>
      rw [he] at hfound ⊢
      rw [if_neg (by simpa using hfound)]
  rw [hgo]
  exact ⟨.readWay s n _ w here, hread.wordErr w⟩

end
end Sys2Proof.Machine
end

section
/-! SUPPORT. The entry that a lookup's block read takes (R48, R50): the set's block reads through it as near memory holds it. -/

namespace Sys2Proof.Machine

section
variable {s t : State} {n set q k : Nat} {e : TcEnt}

theorem Tab.get_map (f : TcEnt → TcEnt) (a : Tab (Option TcEnt)) (k : Nat) :
    Tab.get none (a.map fun (k, v) => (k, v.map f)) k = (Tab.get none a k).map f := by
  induction a with
  | nil => rfl
  | cons p a ih =>
    obtain ⟨j, v⟩ := p
    simp only [List.map_cons, Tab.get, ih]
    split <;> rfl

theorem Slice.tcAt_eq_none {x : Slice} (h : x.tcFind q = none) {i : Nat} (hi : i < 12) (he : Tab.get none x.tc (q % 2048 * 12 + i) = some e) :
    e.row ≠ q := by
  rw [Slice.tcFind_eq, List.findSome?_eq_none_iff] at h
  intro hrow
  have hat := h i (List.mem_range.mpr hi)
  rw [Slice.tcAt_eq_some_iff.mpr ⟨rfl, he, hrow⟩] at hat
  cases hat

theorem Slice.tcFind_eq_some {x : Slice} (h : x.tcFind q = some (k, e)) :
    ∃ i < 12, q % 2048 * 12 + i = k ∧ Tab.get none x.tc k = some e ∧ e.row = q := by
  rw [Slice.tcFind_eq] at h
  obtain ⟨i, hi, hat⟩ := List.exists_of_findSome?_eq_some h
  exact ⟨i, List.mem_range.mp hi, Slice.tcAt_eq_some_iff.mp hat⟩

/-! ### The write-back of the entry that leaves (R49) -/

theorem State.putNearTags_nearTags_ne (s : State) (n : Nat) {i : Nat} (b : TagBlk) (h : set ≠ i) :
    (s.putNearTags n i b).nearTags set = s.nearTags set := by
  cases hworks : s.nearFrozen n with
  | false => rw [State.nearTags, State.putNearTags_memTags hworks, Tab.get_put_ne _ _ _ _ _ h, State.nearTags]
  | true => simp only [State.putNearTags, hworks, if_true]

theorem State.tcWriteBack_nearTags (s : State) (n : Nat) (h : setOfRow s.part n e.row ≠ set) :
    (s.tcWriteBack n e).nearTags set = s.nearTags set := by
  unfold State.tcWriteBack
  split
  · exact s.putNearTags_nearTags_ne n _ (Ne.symm h)
  · rfl

/-- The block of a set that no entry stands for is not written. -/
theorem State.tcAlloc_nearTags (h : s.tcAlloc n q = some t) (hq : q = rowOf s.part set) (hnone : (s.slice n).tcFind q = none)
    (hapart : s.rowsApart n set) : t.nearTags set = s.nearTags set := by
  obtain ⟨key, hvictim, rfl⟩ := Option.map_eq_some_iff.mp h
  obtain ⟨i, hi, hkey⟩ := Option.map_eq_some_iff.mp hvictim
  have hi12 : i < 12 := List.mem_range.mp (List.mem_of_find?_eq_some hi)
  rw [State.modSlice_nearTags]
  split
  · next e he =>
    have hrow : e.row ≠ q := Slice.tcAt_eq_none hnone hi12 (by rw [hkey]; exact he)
    exact s.tcWriteBack_nearTags n fun hset => hrow (by rw [hq]; exact hapart _ e he hset)
  · rfl

/-! ### The entry -/

/-- Of the new entry's row, only that entry, which awaits its block, is not as it was. -/
theorem State.tcAlloc_get (h : s.tcAlloc n q = some t) (he : Tab.get none (t.slice n).tc k = some e) (hpend : e.pending = false) :
    ∃ f, Tab.get none (s.slice n).tc k = some f ∧ f.row = e.row := by
  obtain ⟨key, -, rfl⟩ := Option.map_eq_some_iff.mp h
  rw [State.slice_modSlice_self] at he
  obtain ⟨b, hb⟩ := (Slice.tcUse_sameButRefs _ key).refs k
  rw [he] at hb
  obtain ⟨f, hf, rfl⟩ := Option.map_eq_some_iff.mp hb.symm
  simp only [Tab.get_put] at hf
  split at hf
  · cases hf
    cases hpend
  · refine ⟨f, ?_, rfl⟩
    split at hf
    · rwa [(s.tcWriteBack_within n _).only.slice rfl] at hf
    · exact hf

/-- An entry of row `q` that waits takes block `b`. -/
def TcEnt.filled (q : Nat) (b : TagBlk) (e : TcEnt) : TcEnt := if e.row == q && e.pending then { e with pending := false, blk := b } else e

theorem TcEnt.row_filled (q : Nat) (b : TagBlk) (e : TcEnt) : (e.filled q b).row = e.row := by
  unfold TcEnt.filled
  split <;> rfl

theorem State.tcKeep_of_alloc (hon : s.tccEn n = true) (h : s.tcAlloc n q = some t) :
    s.tcKeep n set q = t.modSlice n fun x => { x with tc := x.tc.map fun (k, v) => (k, v.map (TcEnt.filled q (t.nearTags set))) } := by
  simp only [State.tcKeep, hon, h, Bool.not_true, Bool.false_eq_true, if_false]
  rfl

theorem State.tcKeep_tags (h : s.tccEn n = true → (s.slice n).tcFind (rowOf s.part set) = none) (hapart : s.rowsApart n set) :
    (s.tcKeep n set (rowOf s.part set)).tags n set = s.tags n set := by
  cases hon : s.tccEn n with
  | false => simp only [State.tcKeep, hon, Bool.not_false, if_true]
  | true =>
    have hnone := h hon
    cases halloc : s.tcAlloc n (rowOf s.part set) with
    | none => simp only [State.tcKeep, hon, halloc, Bool.not_true, Bool.false_eq_true, if_false]
    | some t =>
      have hnear := State.tcAlloc_nearTags halloc rfl hnone hapart
      have hpart : t.part = s.part := (s.tcAlloc_within n _ _ halloc).only.part
      have hold : s.tags n set = s.nearTags set := State.tags_of_uncached fun k e hf => by simp [hnone] at hf
      rw [hold, ← hnear, State.tcKeep_of_alloc hon halloc]
      unfold State.tags
      split
      · next k e hfind =>
        split
        · rfl
        · next hpend =>
          rw [State.slice_modSlice_self] at hfind
          obtain ⟨i, hi, hk, he, hrow⟩ := Slice.tcFind_eq_some hfind
          simp only [Tab.get_map] at he
          obtain ⟨f, hf, rfl⟩ := Option.map_eq_some_iff.mp he
          rw [TcEnt.row_filled] at hrow
          have hrow' : f.row = rowOf s.part set := hrow.trans (by rw [← hpart]; rfl)
          cases hfp : f.pending with
          | true => simp [TcEnt.filled, hrow', hfp]
          | false =>
            obtain ⟨g, hg, hgrow⟩ := State.tcAlloc_get halloc hf hfp
            have hk' : rowOf s.part set % 2048 * 12 + i = k := by rw [← hk, ← hpart]; rfl
            exact absurd (hgrow.trans hrow') (Slice.tcAt_eq_none hnone hi (by rw [hk']; exact hg))
      · rfl

theorem State.tcKeep_memNear (s : State) (n set q : Nat) : (s.tcKeep n set q).mem.near = s.mem.near := by
  unfold State.tcKeep
  split
  · rfl
  · split
    · next t ht => exact (State.tcAlloc_keeps ht).2
    · rfl

end
end Sys2Proof.Machine
end

section
/-! SUPPORT. The lookup that a snoop makes (R48, R50, R53, R55): the tag entries of the set that it finds, and what it leaves alone. -/

namespace Sys2Proof.Machine

section
variable {s t : State} {n set : Nat} {la : Option Nat}

/-- The lookup that meets no entry has read the set's block. -/
def State.blockRead (s : State) (n set : Nat) (la : Option Nat) : State :=
  let u := ((s.event n 7 1).popTag.2.tagIssue n set la).1
  (u.tagRead n set (s.event n 7 1).popTag.1).tcKeep n set (rowOf s.part set)

/-- What holds once the block is read holds at the end of the lookup if the guessed way's loss, its count and the predictor's update keep it. -/
theorem State.touchMiss_of_blockRead {P : State → Prop} (h : P (s.blockRead n set la)) (hevent : ∀ t, P t → P (t.event n 8 1))
    (hlost : ∀ t g, P t → P (t.guessLost n set g)) (hpredict : ∀ t x w, P t → P (t.predict n x w)) : P (s.touchMiss n set la).2 := by
  have hpart : ((s.event n 7 1).popTag.2.tagIssue n set la).1.part = s.part :=
    (State.tagIssue_within _ n set la).only.part.trans ((State.popTag_within _).only.part.trans (s.event_within n 7 1).only.part)
  unfold State.touchMiss
  dsimp only
  rw [hpart]
  change P (s.blockRead n set la) at h
  unfold State.blockRead at h
  dsimp only at h
  generalize (((s.event n 7 1).popTag.2.tagIssue n set la).1.tagRead n set (s.event n 7 1).popTag.1).tcKeep n set (rowOf s.part set) = v at h
  split
  · split
    · exact hpredict _ _ _ h
    · refine hpredict _ _ _ (hlost _ _ ?_)
      split
      · exact h
      · exact hevent _ h
  · exact hlost _ _ h

theorem KeepsWays.guessLost (s : State) (n set g : Nat) : KeepsWays n s (s.guessLost n set g) := .ite (.refl n s) (.wordErr s n set g)

theorem KeepsWays.predict (s : State) (n la w : Nat) : KeepsWays n s (s.predict n la w) := .modSlice s n (by split <;> rfl) (by split <;> rfl)

theorem KeepsWays.touchMiss (s : State) (n set : Nat) (la : Option Nat) : KeepsWays n (s.blockRead n set la) (s.touchMiss n set la).2 :=
  State.touchMiss_of_blockRead (P := KeepsWays n (s.blockRead n set la)) (.refl n _)
    (fun t h => h.trans (.of_only (t.event_within n 8 1).only rfl rfl rfl)) (fun t g h => h.trans (.guessLost t n set g))
    (fun t x w h => h.trans (.predict t n x w))

/-! ### Any set -/

/-- Going from `s` to `t`, a lookup leaves the data ways, and finds the set's entries as they were or, after an error in its block, rebuilt. -/
structure LooksUp (n set : Nat) (s t : State) : Prop where
  near : t.mem.near = s.mem.near
  shows : t.tags n set = s.tags n set ∨ ∃ r, t.tags n set = s.rebuilt r
  only : Only lookMask s t

theorem LooksUp.refl (n set : Nat) (s : State) : LooksUp n set s s := ⟨rfl, .inl rfl, rfl⟩

theorem LooksUp.keeps (h : LooksUp n set s t) {u : State} (k : KeepsWays n t u) : LooksUp n set s u :=
  ⟨k.near.trans h.near, by rw [k.tags_eq]; exact h.shows, h.only.trans k.only⟩

theorem State.rebuilt_of_only {m : Mask} (h : Only m s t) (hpart : m.glbPart = false) (hmgt : m.mgt = false) (r : SetRec) :
    t.rebuilt r = s.rebuilt r := by
  simp only [State.rebuilt, h.stayWay hpart hmgt]

theorem LooksUp.after {u : State} (k : KeepsWays n s t) (h : LooksUp n set t u) : LooksUp n set s u := by
  refine ⟨h.near.trans k.near, ?_, k.only.trans h.only⟩
  rw [← k.tags_eq]
  rcases h.shows with hs | ⟨r, hr⟩
  · exact .inl hs
  · exact .inr ⟨r, by rw [hr, State.rebuilt_of_only k.only rfl rfl]⟩

theorem State.tags_of_nearTags (hslice : t.slice n = s.slice n) (hpart : t.part = s.part) (hnear : t.nearTags set = s.nearTags set) :
    t.tags n set = s.tags n set := by
  simp only [State.tags, hslice, hpart, hnear]

/-- A block that is written shows, unless the tag cache holds another. -/
theorem State.putNearTags_tags (hworks : s.nearFrozen n = false) (set : Nat) (b : TagBlk) :
    (s.putNearTags n set b).tags n set = s.tags n set ∨ (s.putNearTags n set b).tags n set = b := by
  have hfind : ((s.putNearTags n set b).slice n).tcFind (rowOf (s.putNearTags n set b).part set) = (s.slice n).tcFind (rowOf s.part set) := by
    rw [State.putNearTags_slice, State.putNearTags_part]
  have hnear := State.putNearTags_nearTags hworks set b
  cases h : (s.slice n).tcFind (rowOf s.part set) with
  | none =>
    right
    rw [State.tags_of_uncached (fun k e hf => by simp [hfind, h] at hf), hnear]
  | some p =>
    obtain ⟨k, e⟩ := p
    rw [h] at hfind
    cases hpend : e.pending with
    | true =>
      right
      rw [State.tags_of_uncached (fun j f hf => by cases hfind.symm.trans hf; exact hpend), hnear]
    | false =>
      left
      rw [State.tags_of_cached hfind hpend, State.tags_of_cached h hpend]

theorem LooksUp.putRebuilt (hworks : s.nearFrozen n = false) (r : SetRec) : LooksUp n set s (s.putNearTags n set (s.rebuilt r)) :=
  ⟨s.putNearTags_memNear n set _, (State.putNearTags_tags hworks set _).imp_right fun h => ⟨r, h⟩,
    (s.putNearTags_within n set _).only.mono rfl⟩

/-- The read of the block, where the tag cache may hold another. -/
theorem LooksUp.tagRead (hworks : s.nearFrozen n = false) (te : ArrErr) : LooksUp n set s (s.tagRead n set te) := by
  unfold State.tagRead
  extract_lets u te' v
  obtain ⟨hv, hvworks⟩ : KeepsWays n s v ∧ v.nearFrozen n = false := by
    unfold v
    split
    · have hrec := (State.recErr_within (s.bucket u) 0x01 n (s.injNear n set 0) set 0).only
      exact ⟨.trans (.bucket s n _) (.of_only hrec rfl rfl rfl),
        (hrec.nearFrozen rfl n).trans (((s.bucket_within _).only.nearFrozen rfl n).trans hworks)⟩
    · exact ⟨.refl n s, hworks⟩
  clear_value v
  split
  · have hue := (v.ueData_within n (v.injNear n set 0) set 0).only
    rw [← State.rebuilt_of_only hue rfl rfl]
    exact .after (hv.trans (.of_only hue rfl rfl rfl)) (.putRebuilt ((hue.nearFrozen rfl n).trans hvworks) (v.setRec set))
  · exact .keeps (.refl n set s) hv

theorem KeepsWays.tagIssue (s : State) (n set : Nat) (la : Option Nat) : KeepsWays n s (s.tagIssue n set la).1 :=
  .of_only (s.tagIssue_within n set la).only rfl rfl rfl

theorem State.tagIssue_nearFrozen (s : State) (n set : Nat) (la : Option Nat) (j : Nat) : (s.tagIssue n set la).1.nearFrozen j = s.nearFrozen j := by
  unfold State.tagIssue
  extract_lets t
  have ht : t.nearFrozen j = s.nearFrozen j := s.nearAccess_nearFrozen n set 0 false j
  clear_value t
  split
  · extract_lets w
    split
    · exact (t.nearAccess_nearFrozen n set w false j).trans ht
    · exact ht
  · exact ht

theorem LooksUp.blockRead (hworks : s.nearFrozen n = false) (h : s.tccEn n = true → (s.slice n).tcFind (rowOf s.part set) = none)
    (hapart : s.rowsApart n set) : LooksUp n set s (s.blockRead n set la) := by
  unfold State.blockRead
  extract_lets u
  have hevent := (s.event_within n 7 1).only
  have hpop := (State.popTag_within (s.event n 7 1)).only
  have hu : KeepsWays n s u :=
    ((KeepsWays.of_only hevent rfl rfl rfl).trans (.of_only hpop rfl rfl rfl)).trans (.tagIssue _ n set la)
  have huworks : u.nearFrozen n = false :=
    (State.tagIssue_nearFrozen _ n set la n).trans ((hpop.nearFrozen rfl n).trans ((hevent.nearFrozen rfl n).trans hworks))
  have hread : LooksUp n set s (u.tagRead n set (s.event n 7 1).popTag.1) := .after hu (.tagRead huworks _)
  have hslice : (u.tagRead n set (s.event n 7 1).popTag.1).slice n = s.slice n :=
    ((u.tagRead_within n set _).only.slice rfl n).trans ((State.tagIssue_within _ n set la).only.slice rfl n |>.trans
      ((hpop.slice rfl n).trans (hevent.slice rfl n)))
  generalize u.tagRead n set (s.event n 7 1).popTag.1 = v at hread hslice
  have hpart := hread.only.part
  have htags : (v.tcKeep n set (rowOf s.part set)).tags n set = v.tags n set := by
    rw [← hpart]
    refine State.tcKeep_tags (fun hon => ?_) ?_
    · rw [hslice, hpart]
      exact h ((hread.only.tccEn rfl n).symm.trans hon)
    · rw [State.rowsApart, hslice, hpart]
      exact hapart
  exact ⟨(v.tcKeep_memNear n set _).trans hread.near, by rw [htags]; exact hread.shows,
    hread.only.trans ((v.tcKeep_within n set _).only.mono rfl)⟩

theorem LooksUp.tcUse {k : Nat} {e : TcEnt} (hfind : (s.slice n).tcFind (rowOf s.part set) = some (k, e)) (hpend : e.pending = false) :
    LooksUp n set s (s.modSlice n fun x => x.tcUse k) := by
  obtain ⟨b, hb⟩ := (Slice.tcUse_sameButRefs (s.slice n) k).tcFind hfind
  have honly := (s.modSlice_within n fun x => x.tcUse k).only
  have hslice := s.slice_modSlice_self n fun x => x.tcUse k
  have hmem : (s.modSlice n fun x => x.tcUse k).mem.near = s.mem.near := rfl
  generalize s.modSlice n (fun x => x.tcUse k) = t at honly hslice hmem
  refine ⟨hmem, .inl ?_, honly.mono rfl⟩
  rw [State.tags_of_cached hfind hpend, State.tags_of_cached (k := k) (e := { e with ref := b }) (by rw [hslice, honly.part, hb]) hpend]

theorem State.touchGuess_of_miss (hworks : s.nearFrozen n = false)
    (h : s.tccEn n = true → (s.slice n).tcFind (rowOf s.part set) = none) : s.touchGuess n set la = s.touchMiss n set la := by
  simp only [State.touchGuess, hworks, Bool.false_eq_true, if_false]
  cases hfind : (s.slice n).tcFind (rowOf s.part set) with
  | none => rfl
  | some p =>
    have hoff : s.tccEn n = false := by
      refine Bool.eq_false_iff.mpr fun hon => ?_
      simp [h hon] at hfind
    simp only [hoff, Bool.not_false, if_true]

theorem State.touchGuess_of_hit {k : Nat} {e : TcEnt} (hworks : s.nearFrozen n = false) (hon : s.tccEn n = true)
    (hfind : (s.slice n).tcFind (rowOf s.part set) = some (k, e)) (hpend : e.pending = false) (hue : s.finds.tcUe = false) :
    s.touchGuess n set la = (0, (s.modSlice n fun x => x.tcUse k).event n 6 1) := by
  simp only [State.touchGuess, hworks, hfind, hon, hpend, hue, Bool.not_true, Bool.false_eq_true, if_false]

/-- A lookup that need not wait, in whose tag-cache entry the code finds no error. -/
theorem LooksUp.touchGuess (hue : s.finds.tcUe = false) (hwaits : s.tagWaits n set = false) (hapart : s.rowsApart n set) :
    LooksUp n set s (s.touchGuess n set la).2 := by
  cases hworks : s.nearFrozen n with
  | true =>
    simp only [State.touchGuess, hworks, if_true]
    exact .refl n set s
  | false =>
    by_cases hmiss : s.tccEn n = true → (s.slice n).tcFind (rowOf s.part set) = none
    · rw [State.touchGuess_of_miss hworks hmiss]
      exact .keeps (.blockRead hworks hmiss hapart) (.touchMiss s n set la)
    · obtain ⟨hon, hsome⟩ := Classical.not_imp.mp hmiss
      obtain ⟨⟨k, e⟩, hfind⟩ := Option.ne_none_iff_exists'.mp hsome
      have hpend : e.pending = false := by simpa [State.tagWaits, hworks, hfind, hon] using hwaits
      rw [State.touchGuess_of_hit hworks hon hfind hpend hue]
      exact .keeps (.tcUse hfind hpend) (.of_only (State.event_within _ n 6 1).only rfl rfl rfl)

/-! ### A set whose block is sound and not cached -/

theorem State.tagIssue_reads (s : State) (n set : Nat) (la : Option Nat) :
    Only { chans := true, memIo := true, events := true } s (s.tagIssue n set la).1 := by
  unfold State.tagIssue
  extract_lets t
  have ht : Only { chans := true, memIo := true, events := true } s t := s.nearAccess_read_only n set 0
  clear_value t
  split
  · extract_lets w
    split
    · exact ht.trans (t.nearAccess_read_only n set w)
    · exact ht
  · exact ht

theorem BareSet.tagIssue (hb : BareSet s n set) (la : Option Nat) : BareSet (s.tagIssue n set la).1 n set :=
  hb.of_only (s.tagIssue_reads n set la) rfl rfl rfl rfl (s.tagIssue_nearFrozen n set la n)

/-- Its lookup changes the tag cache alone, and shows the block. -/
theorem BareSet.blockRead (hb : BareSet s n set) (la : Option Nat) :
    Only { slices := true, chans := true, memIo := true, events := true } s (s.blockRead n set la) ∧
      (s.blockRead n set la).nearFrozen n = false ∧ (s.blockRead n set la).tags n set = s.nearTags set := by
  have hevent := (s.event_within n 7 1).only
  have hissue := (s.event n 7 1).tagIssue_reads n set la
  have hu : BareSet ((s.event n 7 1).tagIssue n set la).1 n set :=
    (hb.of_only hevent rfl rfl rfl rfl rfl).tagIssue la
  have hpop : (s.event n 7 1).popTag = (.none, s.event n 7 1) := by simp [State.popTag, hb.noFinds]
  have hgo : s.blockRead n set la = ((s.event n 7 1).tagIssue n set la).1.tcKeep n set (rowOf s.part set) := by
    simp only [State.blockRead, hpop, hu.tagRead]
  rw [hgo]
  generalize ((s.event n 7 1).tagIssue n set la).1 = u at hu hissue
  have honly := (State.tcKeep_of_tc_nil hu.noCache set (rowOf s.part set)).2
  have hpart : u.part = s.part := hissue.part.trans hevent.part
  refine ⟨(hevent.mono rfl).trans ((hissue.mono rfl).trans (honly.mono rfl)), (honly.nearFrozen rfl n).trans hu.works, ?_⟩
  rw [← hpart, hu.tcKeep_tags, hissue.nearTags rfl, hevent.nearTags rfl]

theorem WaysRead.touchMiss (h : WaysRead (s.blockRead n set la) n set) : WaysRead (s.touchMiss n set la).2 n set :=
  State.touchMiss_of_blockRead (P := fun t => WaysRead t n set) h (fun t ht => ht.of_only (t.event_within n 8 1).only rfl rfl rfl)
    (fun _ g ht => ht.guessLost g) (fun t x w ht => ht.of_only (t.predict_within n x w).only rfl rfl rfl)

/-- The lookup of a line of such a set leaves near memory, and the set's ways can be read. -/
theorem BareSet.touchGuess (hb : BareSet s n set) (hgood : s.WaysGood) (la : Option Nat) :
    (s.touchGuess n set la).2.tags n set = s.tags n set ∧ (s.touchGuess n set la).2.mem.tags = s.mem.tags ∧
      (∀ w, (s.touchGuess n set la).2.wayGet set w = s.wayGet set w) ∧ WaysRead (s.touchGuess n set la).2 n set := by
  have hnone := Slice.tcFind_of_tc_nil hb.noCache (rowOf s.part set)
  obtain ⟨honly, hworks, htags⟩ := hb.blockRead la
  have hkeeps := KeepsWays.touchMiss s n set la
  have hold : s.tags n set = s.nearTags set := State.tags_of_uncached fun k e hf => by simp [hnone] at hf
  rw [State.touchGuess_of_miss hb.works fun _ => hnone]
  refine ⟨by rw [hkeeps.tags_eq, htags, hold], hkeeps.tags.trans (honly.memTags rfl), fun w => ?_, ?_⟩
  · rw [hkeeps.wayGet, honly.wayGet rfl]
  · exact .touchMiss ⟨hworks, .of_clean (by rw [honly.latent rfl, hb.noFlip]), hgood.of_only honly rfl⟩

/-- Whatever the codes find in ways, near memory holds the tag blocks as before. -/
theorem BareSet.touchGuess_memTags (hb : BareSet s n set) (la : Option Nat) : (s.touchGuess n set la).2.mem.tags = s.mem.tags := by
  rw [State.touchGuess_of_miss hb.works fun _ => Slice.tcFind_of_tc_nil hb.noCache _, (KeepsWays.touchMiss s n set la).tags]
  exact (hb.blockRead la).1.memTags rfl

end
end Sys2Proof.Machine
end

section
/-! SUPPORT. A snoop that nothing holds back (R132): what the device does once it has looked the line up. -/

namespace Sys2Proof.Machine

/-- Nothing holds a snoop of the line back: no hold of it runs, no register holds a grant of it, it is not in the victim buffer, and its
set's lookup need not wait. -/
structure SnoopGoes (s : State) (la : Nat) : Prop where
  free : ∀ h ∈ (s.slice (sliceOf la)).holds, h.la = la → h.until_ ≤ s.clk
  settled : s.granted (sliceOf la) la = false
  noVb : ∀ v ∈ (s.slice (sliceOf la)).vbs, v.la ≠ la
  looks : s.tagWaits (sliceOf la) (setOf s.part la) = false

/-- The lookup that it makes. -/
def State.snoopLook (s : State) (la : Nat) : Nat × State := if s.nearFrozen (sliceOf la) then (0, s) else s.touchLine 6 la

theorem State.snoopLook_eq (s : State) (la : Nat) :
    (if s.nearFrozen (sliceOf la) then (0, s) else s.touchLine 6 la) = s.snoopLook la := rfl

section
variable {s t : State} {m : CohMsg} {e : TagEnt} {k : Mask} {home la w : Nat}

theorem SnoopGoes.of_only (h : SnoopGoes s la) (ho : Only k s t) (hslices : k.slices = false) (hnode : k.node = false) (hcsr : k.csr = false)
    (hchans : k.chans = false) (hclk : k.clk = false) : SnoopGoes t la where
  free := by rw [ho.slice hslices, ho.clk hclk]; exact h.free
  settled := by rw [State.granted, ho.classOf hnode, ho.slice hslices]; exact h.settled
  noVb := by rw [ho.slice hslices]; exact h.noVb
  looks := by rw [ho.tagWaits hcsr hchans (by rw [ho.slice hslices]), ho.part]; exact h.looks

theorem SnoopGoes.noHold (h : SnoopGoes s la) : (s.slice (sliceOf la)).holds.find? (fun x => x.la == la && s.clk < x.until_) = none := by
  refine List.find?_eq_none.mpr fun x hx => ?_
  by_cases hla : x.la = la
  · simp [hla, h.free x hx hla]
  · simp [hla]

theorem SnoopGoes.noEntry (h : SnoopGoes s la) : (s.slice (sliceOf la)).vbs.find? (fun v => v.la == la) = none :=
  List.find?_eq_none.mpr fun v hv => by simpa using h.noVb v hv

/-! ### No copy -/

theorem SnoopGoes.snoop_miss (h : SnoopGoes s m.la) (hnone : (s.snoopLook m.la).2.findLine m.la = none) (home : Nat) :
    s.snoop home m = (s.snoopLook m.la).2.snoopMiss home m := by
  unfold State.snoop
  simp only [h.noHold, h.settled, h.noEntry, h.looks, Bool.false_eq_true, if_false, State.snoopLook_eq, hnone]

/-! ### A copy that no host holds -/

/-- The ACK to the home (Table 5.9). -/
def snoopAck (m : CohMsg) (kept : Bool) : CohMsg := { opc := opACK, kept := kept, req := m.req, tid := m.tid, htid := m.htid, la := m.la }

/-- The DATA to the requester. -/
def snoopData (m : CohMsg) (grant : Nat) (d : Line × Bool) : CohMsg :=
  { opc := opDATA, grant := grant, req := m.req, tid := m.tid, htid := m.htid, la := m.la, data := d.1, poison := d.2 }

theorem SnoopGoes.snoop_inv (h : SnoopGoes s m.la) (hop : m.opc = opINV) (hfind : (s.snoopLook m.la).2.findLine m.la = some (w, e))
    (hhosts : (s.snoopLook m.la).2.noHosts m.la = true) (home : Nat) :
    s.snoop home m =
      (((s.snoopLook m.la).2.sendCoh home (snoopAck m false)).dropLine (sliceOf m.la) m.la w true).markLost (sliceOf m.la) m.la := by
  unfold State.snoop
  simp only [h.noHold, h.settled, h.noEntry, h.looks, Bool.false_eq_true, if_false, State.snoopLook_eq, hfind, hhosts, hop, State.snoopSend,
    snoopAck, beq_self_eq_true, Bool.true_or, Bool.not_true, Bool.and_false, Bool.false_and, Bool.false_eq_true, if_false, if_true]

/-- The lookup of a copy in M, with its way read. -/
def State.snoopRead (s : State) (la w : Nat) : State :=
  (s.snoopLook la).2.wayCheck (sliceOf la) la w stM ((s.snoopLook la).1 == w)

theorem State.snoopSend_fwds (hop : m.opc = opFWDS) (hdest : m.destHome = false) (home : Nat) (d : Line) (p : Bool) (tid : Nat) :
    s.snoopSend home m stM d p false tid = (stO, (s.sendCoh m.req (snoopData m 1 (d, p))).sendCoh home (snoopAck m true)) := by
  have hinv : (opFWDS == opINV) = false := rfl
  have hpoison : (stM == stP) = false := rfl
  simp [State.snoopSend, hop, hdest, hinv, hpoison, snoopAck, snoopData]

theorem State.snoopSend_fwdx (hop : m.opc = opFWDX) (hdest : m.destHome = false) (home : Nat) (d : Line) (p : Bool) (tid : Nat) :
    s.snoopSend home m stM d p false tid = (stI, (s.sendCoh m.req (snoopData m 3 (d, p))).sendCoh home (snoopAck m false)) := by
  have hinv : (opFWDX == opINV) = false := rfl
  have hfwds : (opFWDX == opFWDS) = false := rfl
  have hpoison : (stM == stP) = false := rfl
  simp [State.snoopSend, hop, hdest, hinv, hfwds, hpoison, snoopAck, snoopData]

theorem SnoopGoes.snoop_fwds (h : SnoopGoes s m.la) (hop : m.opc = opFWDS) (hdest : m.destHome = false) (hst : e.st = stM)
    (hfind : (s.snoopLook m.la).2.findLine m.la = some (w, e)) (hfind' : (s.snoopRead m.la w).findLine m.la = some (w, e))
    (hhosts : (s.snoopLook m.la).2.noHostEM m.la = true) (home : Nat) :
    s.snoop home m =
      (((s.snoopRead m.la w).sendCoh m.req (snoopData m 1 ((s.snoopRead m.la w).wayGet (setOf (s.snoopLook m.la).2.part m.la) w))).sendCoh home
        (snoopAck m true)).setLineState (sliceOf m.la) m.la w stO := by
  have hinv : (opFWDS == opINV) = false := rfl
  have hfwdx : (opFWDS == opFWDX) = false := rfl
  have hS : (stM == stS) = false := rfl
  have hI : (stO == stI) = false := rfl
  have hM : (stO == stM) = false := rfl
  unfold State.snoop
  simp only [h.noHold, h.settled, h.noEntry, h.looks, Bool.false_eq_true, if_false, State.snoopLook_eq, hfind, hhosts, hop, hst, hinv, hfwdx, hS,
    Bool.or_self, Bool.false_and, Bool.not_false, Bool.not_true, Bool.and_false]
  unfold State.snoopRead at hfind' ⊢
  simp only [hfind', hst, State.snoopSend_fwds hop hdest, hI, hM, Bool.false_eq_true, if_false]

theorem SnoopGoes.snoop_fwdx (h : SnoopGoes s m.la) (hop : m.opc = opFWDX) (hdest : m.destHome = false) (hst : e.st = stM)
    (hfind : (s.snoopLook m.la).2.findLine m.la = some (w, e)) (hfind' : (s.snoopRead m.la w).findLine m.la = some (w, e))
    (hhosts : (s.snoopLook m.la).2.noHosts m.la = true) (home : Nat) :
    s.snoop home m =
      ((((s.snoopRead m.la w).sendCoh m.req (snoopData m 3 ((s.snoopRead m.la w).wayGet (setOf (s.snoopLook m.la).2.part m.la) w))).sendCoh home
        (snoopAck m false)).dropLine (sliceOf m.la) m.la w true).markLost (sliceOf m.la) m.la := by
  have hinv : (opFWDX == opINV) = false := rfl
  have hS : (stM == stS) = false := rfl
  unfold State.snoop
  simp only [h.noHold, h.settled, h.noEntry, h.looks, Bool.false_eq_true, if_false, State.snoopLook_eq, hfind, hhosts, hop, hst, hinv, hS,
    beq_self_eq_true, Bool.or_true, Bool.or_self, Bool.false_and, Bool.not_true, Bool.and_false]
  unfold State.snoopRead at hfind' ⊢
  simp only [hfind', hst, State.snoopSend_fwdx hop hdest, beq_self_eq_true, if_true]

end
end Sys2Proof.Machine
end

section
/-! SUPPORT. Snoops of a line that the device holds (R132, Table 5.9): the messages that answer them and the state the line is left in. -/

namespace Sys2Proof.Machine

section
variable {s t : State} {m : CohMsg} {e : TagEnt} {k : Mask} {n home la w : Nat}

/-! ### The line's entry -/

theorem Only.findLine (h : Only k s t) (hpart : k.glbPart = false) (hlse : k.lse = false)
    (htags : t.tags (sliceOf la) (setOf s.part la) = s.tags (sliceOf la) (setOf s.part la)) : t.findLine la = s.findLine la := by
  simp only [State.findLine, h.part, htags, h.matchWay hpart hlse]

/-- A line is found in a way from 1 to 14, with an entry that is not free. -/
theorem State.findLine_some (h : s.findLine la = some (w, e)) :
    1 ≤ w ∧ w ≤ 14 ∧ (s.tags (sliceOf la) (setOf s.part la)).get w = e ∧ e.st ≠ stI := by
  obtain ⟨v, hv, hpair⟩ := Option.map_eq_some_iff.mp h
  cases hpair
  obtain ⟨i, hi, hway⟩ := List.exists_of_findSome?_eq_some hv
  have hi14 : i < 14 := List.mem_range.mp hi
  simp only [Option.ite_none_right_eq_some, Bool.and_eq_true, Option.some.injEq] at hway
  obtain ⟨⟨⟨-, hvalid⟩, -⟩, rfl⟩ := hway
  refine ⟨by omega, by omega, rfl, fun hI => ?_⟩
  simp [State.not_valid_of_free hI] at hvalid

theorem State.dropLine_nearTags (hworks : s.nearFrozen n = false) (h1 : 1 ≤ w) (hw : w ≤ (s.tags n (setOf s.part la)).ways.length)
    (hst : ((s.tags n (setOf s.part la)).get w).st ≠ stI) (coh : Bool) :
    (((s.dropLine n la w coh).nearTags (setOf s.part la)).get w).st = stI := by
  unfold State.dropLine
  extract_lets set f t
  have ht : ((t.nearTags set).get w).st = stI := by
    rw [State.putEnt_nearTags hworks h1 hw (by simp [stI, stL]) hst.symm]
  clear_value t
  split
  · exact ht
  · exact ht

theorem State.setLineState_nearTags {st : BitVec 3} (hworks : s.nearFrozen n = false) (h1 : 1 ≤ w)
    (hw : w ≤ (s.tags n (setOf s.part la)).ways.length) (hL : st ≠ stL) (hst : st ≠ ((s.tags n (setOf s.part la)).get w).st) :
    (((s.setLineState n la w st).nearTags (setOf s.part la)).get w).st = st := by
  unfold State.setLineState
  extract_lets set
  rw [State.putEnt_nearTags hworks h1 hw hL hst]

/-! ### The lookup -/

/-- The device holds the line for a snoop that is at work: nothing holds the snoop back, no host holds the line, and the codes find no
uncorrectable error in the tag block and ways that it reads. -/
structure Snoopable (s : State) (la w : Nat) (e : TagEnt) : Prop where
  goes : SnoopGoes s la
  bare : BareSet s (sliceOf la) (setOf s.part la)
  good : s.WaysGood
  block : (s.nearTags (setOf s.part la)).ways.length = 14
  noHost : s.hsfCopies la false = [] ∧ s.biOpen la false = false
  held : s.findLine la = some (w, e)

/-- The line's entry as the snoop's answer finds it. -/
structure EntryReady (s : State) (la w : Nat) (e : TagEnt) : Prop where
  works : s.nearFrozen (sliceOf la) = false
  block : (s.tags (sliceOf la) (setOf s.part la)).ways.length = 14
  held : s.findLine la = some (w, e)

theorem EntryReady.of_only (h : EntryReady s la w e) (ho : Only { rtrTx := true } s t) : EntryReady t la w e := by
  have htags : t.tags (sliceOf la) (setOf s.part la) = s.tags (sliceOf la) (setOf s.part la) :=
    State.tags_of_nearTags (ho.slice rfl _) ho.part (ho.nearTags rfl _)
  exact ⟨(ho.nearFrozen rfl _).trans h.works, by rw [ho.part, htags]; exact h.block, (ho.findLine rfl rfl htags).trans h.held⟩

theorem EntryReady.drops (h : EntryReady s la w e) :
    ((((s.dropLine (sliceOf la) la w true).markLost (sliceOf la) la).nearTags (setOf s.part la)).get w).st = stI := by
  obtain ⟨h1, hw, hget, hI⟩ := State.findLine_some h.held
  exact State.dropLine_nearTags h.works h1 (by rw [h.block]; exact hw) (by rw [hget]; exact hI) true

theorem EntryReady.takes {st : BitVec 3} (h : EntryReady s la w e) (hL : st ≠ stL) (hst : st ≠ e.st) :
    (((s.setLineState (sliceOf la) la w st).nearTags (setOf s.part la)).get w).st = st := by
  obtain ⟨h1, hw, hget, -⟩ := State.findLine_some h.held
  exact State.setLineState_nearTags h.works h1 (by rw [h.block]; exact hw) hL (by rw [hget]; exact hst)

theorem State.snoopLook_only (s : State) (la : Nat) : Only lookMask s (s.snoopLook la).2 := by
  unfold State.snoopLook
  split
  · rfl
  · exact (s.touchLine_within 6 la).only.mono rfl

/-- What the snoop's lookup finds and leaves. -/
structure SnoopFound (s : State) (la w : Nat) (e : TagEnt) : Prop where
  entry : EntryReady (s.snoopLook la).2 la w e
  ways : WaysRead (s.snoopLook la).2 (sliceOf la) (setOf s.part la)
  value : ∀ v, (s.snoopLook la).2.wayGet (setOf s.part la) v = s.wayGet (setOf s.part la) v
  noHosts : (s.snoopLook la).2.noHosts la = true

theorem State.tags_of_bare {set : Nat} (hb : BareSet s n set) : s.tags n set = s.nearTags set :=
  State.tags_of_uncached fun k e hf => by simp [Slice.tcFind_of_tc_nil hb.noCache] at hf

theorem Snoopable.found (h : Snoopable s la w e) : SnoopFound s la w e := by
  have hpipe := (s.pipe_within (sliceOf la) 6 la 0).only
  have hbare := h.bare.of_only hpipe rfl rfl rfl rfl (hpipe.nearFrozen rfl _)
  obtain ⟨htags, -, hvalue, hways⟩ := hbare.touchGuess (h.good.of_only hpipe rfl) (some la)
  have hlook : (s.snoopLook la).2 = ((s.pipe (sliceOf la) 6 la 0).touchGuess (sliceOf la) (setOf s.part la) (some la)).2 := by
    simp only [State.snoopLook, h.bare.works, Bool.false_eq_true, if_false, State.touchLine]
  have honly := s.snoopLook_only la
  rw [← hlook] at htags hvalue hways
  have htags' : (s.snoopLook la).2.tags (sliceOf la) (setOf s.part la) = s.tags (sliceOf la) (setOf s.part la) :=
    htags.trans (State.tags_of_nearTags (hpipe.slice rfl _) hpipe.part (hpipe.nearTags rfl _))
  refine ⟨⟨hways.works, ?_, (honly.findLine rfl rfl htags').trans h.held⟩, hways, fun v => (hvalue v).trans (hpipe.wayGet rfl _ v), ?_⟩
  · rw [honly.part, htags', State.tags_of_bare h.bare, h.block]
  · rw [State.noHosts, honly.hsfCopies rfl, honly.biOpen rfl, h.noHost.1, h.noHost.2]
    rfl

theorem SnoopFound.noHostEM (h : SnoopFound s la w e) : (s.snoopLook la).2.noHostEM la = true := by
  have hno := h.noHosts
  simp only [State.noHosts, Bool.and_eq_true, List.isEmpty_iff] at hno
  obtain ⟨hcopies, hbi⟩ := hno
  rw [State.noHostEM, hcopies, hbi]
  rfl

/-- The read of the line's way leaves its entry and value. -/
theorem SnoopFound.read (h : SnoopFound s la w e) :
    EntryReady (s.snoopRead la w) la w e ∧ (s.snoopRead la w).wayGet (setOf s.part la) w = s.wayGet (setOf s.part la) w ∧
      Only lookMask s (s.snoopRead la w) := by
  obtain ⟨h1, hw, -, -⟩ := State.findLine_some h.entry.held
  have hlook := s.snoopLook_only la
  have hways := h.ways
  rw [← hlook.part] at hways
  obtain ⟨hkeeps, hread⟩ := hways.wayCheck h1 (by omega) stM ((s.snoopLook la).1 == w)
  have htags := hkeeps.tags_eq (setOf (s.snoopLook la).2.part la)
  refine ⟨⟨hread.works, ?_, (hkeeps.only.findLine rfl rfl htags).trans h.entry.held⟩,
    (hkeeps.wayGet _ w).trans (h.value w), hlook.trans hkeeps.only⟩
  rw [State.snoopRead, hkeeps.only.part, htags, h.entry.block]

/-! ### The answers -/

theorem State.drops_only (s : State) (n la w : Nat) :
    Only { free := true, slices := true, chans := true, near := true, memIo := true, flip := true, events := true } s
      ((s.dropLine n la w true).markLost n la) :=
  ((s.dropLine_within n la w true).only).trans ((State.modSlice_within _ n _).only.mono rfl)

theorem Snoopable.inv (h : Snoopable s m.la w e) (hop : m.opc = opINV) (home : Nat) :
    Sends [(home, .coh false (snoopAck m false))] s (s.snoop home m) ∧
      (((s.snoop home m).nearTags (setOf s.part m.la)).get w).st = stI := by
  have hf := h.found
  have hlook := s.snoopLook_only m.la
  have hsend := (State.sendCoh_within (s.snoopLook m.la).2 home (snoopAck m false)).only
  rw [h.goes.snoop_inv hop hf.entry.held hf.noHosts home]
  refine ⟨.after hlook rfl (.before (State.sendCoh_sends _ home _) (State.drops_only _ _ m.la w) rfl), ?_⟩
  have hdrops := (hf.entry.of_only hsend).drops
  rwa [hsend.part, hlook.part] at hdrops

theorem Snoopable.fwds (h : Snoopable s m.la w e) (hop : m.opc = opFWDS) (hdest : m.destHome = false) (hst : e.st = stM) (home : Nat) :
    Sends [(m.req, .coh false (snoopData m 1 (s.wayGet (setOf s.part m.la) w))), (home, .coh false (snoopAck m true))] s (s.snoop home m) ∧
      (((s.snoop home m).nearTags (setOf s.part m.la)).get w).st = stO := by
  have hf := h.found
  obtain ⟨hentry, hvalue, honly⟩ := hf.read
  rw [h.goes.snoop_fwds hop hdest hst hf.entry.held hentry.held hf.noHostEM home, (s.snoopLook_only m.la).part, hvalue]
  generalize snoopData m 1 (s.wayGet (setOf s.part m.la) w) = d
  have hdata := (State.sendCoh_within (s.snoopRead m.la w) m.req d).only
  have hack := (State.sendCoh_within ((s.snoopRead m.la w).sendCoh m.req d) home (snoopAck m true)).only
  refine ⟨.after honly rfl (.before ((State.sendCoh_sends _ m.req d).trans (State.sendCoh_sends _ home _))
    (State.setLineState_within _ _ m.la w stO).only rfl), ?_⟩
  have htakes := ((hentry.of_only hdata).of_only hack).takes (st := stO) (by simp [stO, stL]) (by simp [hst, stO, stM])
  rwa [hack.part, hdata.part, honly.part] at htakes

theorem Snoopable.fwdx (h : Snoopable s m.la w e) (hop : m.opc = opFWDX) (hdest : m.destHome = false) (hst : e.st = stM) (home : Nat) :
    Sends [(m.req, .coh false (snoopData m 3 (s.wayGet (setOf s.part m.la) w))), (home, .coh false (snoopAck m false))] s (s.snoop home m) ∧
      (((s.snoop home m).nearTags (setOf s.part m.la)).get w).st = stI := by
  have hf := h.found
  obtain ⟨hentry, hvalue, honly⟩ := hf.read
  rw [h.goes.snoop_fwdx hop hdest hst hf.entry.held hentry.held hf.noHosts home, (s.snoopLook_only m.la).part, hvalue]
  generalize snoopData m 3 (s.wayGet (setOf s.part m.la) w) = d
  have hdata := (State.sendCoh_within (s.snoopRead m.la w) m.req d).only
  have hack := (State.sendCoh_within ((s.snoopRead m.la w).sendCoh m.req d) home (snoopAck m false)).only
  refine ⟨.after honly rfl (.before ((State.sendCoh_sends _ m.req d).trans (State.sendCoh_sends _ home _))
    (State.drops_only _ _ m.la w) rfl), ?_⟩
  have hdrops := ((hentry.of_only hdata).of_only hack).drops
  rwa [hack.part, hdata.part, honly.part] at hdrops

end
end Sys2Proof.Machine
end

section
/-! SUPPORT. Snoops of a line that the device does not hold (R132), and those that it does not answer at once (R15, R134). -/

namespace Sys2Proof.Machine

section
variable {s t : State} {m : CohMsg} {e : TagEnt} {k : Mask} {n home la : Nat}

/-! ### No copy and no victim-buffer entry -/

/-- A rebuilt block holds no line. -/
theorem State.matchWay_rebuilt (s t : State) (r : SetRec) (la : Nat) : s.matchWay (t.rebuilt r) la = none := by
  refine List.findSome?_eq_none_iff.mpr fun i hi => ?_
  have hget : (t.rebuilt r).get (i + 1) = if r.retire.getLsbD i && t.stayWay (i + 1) then { st := stX } else {} := by
    have hi14 : i < 14 := List.mem_range.mp hi
    simp [TagBlk.get, State.rebuilt, hi14]
  have hvalid : s.valid ((t.rebuilt r).get (i + 1)) = false := by
    rw [hget]
    split <;> simp [State.valid, stI, stX]
  simp [hvalid]

theorem LooksUp.findLine_none (h : LooksUp (sliceOf la) (setOf s.part la) s t) (hnone : s.findLine la = none) : t.findLine la = none := by
  rcases h.shows with hs | ⟨r, hr⟩
  · rw [h.only.findLine rfl rfl hs, hnone]
  · simp only [State.findLine, h.only.part, hr, State.matchWay_rebuilt, Option.map_none]

theorem SnoopGoes.looksUp (h : SnoopGoes s la) (hue : s.finds.tcUe = false) (hapart : s.rowsApart (sliceOf la) (setOf s.part la)) :
    LooksUp (sliceOf la) (setOf s.part la) s (s.snoopLook la).2 := by
  unfold State.snoopLook
  split
  · exact .refl _ _ s
  · have hpipe := (s.pipe_within (sliceOf la) 6 la 0).only
    have hwaits : (s.pipe (sliceOf la) 6 la 0).tagWaits (sliceOf la) (setOf s.part la) = false :=
      (hpipe.tagWaits rfl rfl (by rw [hpipe.slice rfl]) _).trans h.looks
    refine .after (.of_only hpipe rfl rfl rfl) (.touchGuess (by rw [hpipe.finds rfl]; exact hue) hwaits ?_)
    rw [State.rowsApart, hpipe.slice rfl, hpipe.part]
    exact hapart

theorem State.snoopLook_memTags (hworks : s.nearFrozen (sliceOf la) = false → BareSet s (sliceOf la) (setOf s.part la)) :
    (s.snoopLook la).2.mem.tags = s.mem.tags := by
  unfold State.snoopLook
  split
  · rfl
  · next h =>
    have hpipe := (s.pipe_within (sliceOf la) 6 la 0).only
    have hbare := (hworks (by simpa using h)).of_only hpipe rfl rfl rfl rfl (hpipe.nearFrozen rfl _)
    exact (hbare.touchGuess_memTags (some la)).trans (hpipe.memTags rfl)

theorem SameWork.snoopLook (s : State) (la : Nat) : SameWork s (s.snoopLook la).2 := by
  unfold State.snoopLook
  split
  · exact .refl s
  · exact .touchLine s 6 la

/-- The ACK with MISS. -/
def missAck (m : CohMsg) : CohMsg := { opc := opACK, missF := true, req := m.req, tid := m.tid, htid := m.htid, la := m.la }

/-- What a snoop that finds nothing can change. -/
def missMask : Mask := { lookMask with rtrTx := true, rtrRx := true, due := true }

/-- From `s` to `t` a snoop is answered with MISS. -/
structure Missed (s t : State) (home : Nat) (m : CohMsg) : Prop where
  sends : Sends [(home, .coh false (missAck m))] s t
  near : t.mem.near = s.mem.near
  tags : (s.nearFrozen (sliceOf m.la) = false → BareSet s (sliceOf m.la) (setOf s.part m.la)) → t.mem.tags = s.mem.tags
  work : SameWork s t
  only : Only missMask s t

theorem SnoopGoes.missed (h : SnoopGoes s m.la) (hnone : s.findLine m.la = none) (hue : s.finds.tcUe = false)
    (hapart : s.rowsApart (sliceOf m.la) (setOf s.part m.la)) (home : Nat) : Missed s (s.snoop home m) home m := by
  have hlooks := h.looksUp hue hapart
  have hsend := (State.sendCoh_within (s.snoopLook m.la).2 home (missAck m)).only
  rw [h.snoop_miss (hlooks.findLine_none hnone) home]
  change Missed s ((s.snoopLook m.la).2.sendCoh home (missAck m)) home m
  exact ⟨.after hlooks.only rfl (State.sendCoh_sends _ home _), (hsend.memNear rfl).trans hlooks.near,
    fun hb => (hsend.memTags rfl).trans (State.snoopLook_memTags hb), (SameWork.snoopLook s m.la).trans (.of_only hsend rfl),
    (hlooks.only.mono rfl).trans (hsend.mono rfl)⟩

/-! ### The arrival -/

theorem State.snoopArrive_of_home (hpow : s.powered = true) (hpeer : PeerUp s home) (hhome : laNode m.la = home) :
    s.snoopArrive home m = (s.consumeCoh home m).snoop home m := by
  have hpow' : (s.consumeCoh home m).powered = true := hpow
  have hmember : (s.consumeCoh home m).peerNode home = true := hpeer.member
  have hup : (s.consumeCoh home m).dom.st = 2 := hpeer.up
  have hother : home ≠ (s.consumeCoh home m).nodeNo := hpeer.other
  simp [State.snoopArrive, hpow', hmember, hup, hhome, hother]

/-- A snoop from a node that is not the line's home is only recorded. -/
theorem State.snoopArrive_stray (hpow : s.powered = true) (hhome : laNode m.la ≠ home) :
    Only { rtrRx := true, trcCfg := true, irq := true, pba := true, ledger := true, events := true, trc := true, outs := true } s
      (s.snoopArrive home m) := by
  have hpow' : (s.consumeCoh home m).powered = true := hpow
  have hgo : s.snoopArrive home m = (s.consumeCoh home m).rec_ 0x16 (sliceOf m.la) home (64 * m.la) m.opc := by
    simp [State.snoopArrive, hpow', hhome]
  rw [hgo]
  exact ((s.consumeCoh_within home m).only.mono rfl).trans ((State.rec__within _ _ _ _ _ _).only.mono rfl)

/-! ### Holds (R134) -/

/-- A hold with one more snoop deferred. -/
def Hold.deferring (h : Hold) (la : Nat) (x : Nat × CohMsg) : Hold := if h.la == la then { h with snoops := h.snoops ++ [x] } else h

theorem State.snoop_of_held (h : ∃ x ∈ (s.slice (sliceOf m.la)).holds, x.la = m.la ∧ s.clk < x.until_) (home : Nat) :
    s.snoop home m =
      (s.modSlice (sliceOf m.la) fun x => { x with holds := x.holds.map fun y => y.deferring m.la (home, m) }).event (sliceOf m.la) 0x17 1 := by
  obtain ⟨x, hx, hla, huntil⟩ := h
  have hsome : ((s.slice (sliceOf m.la)).holds.find? fun h => h.la == m.la && s.clk < h.until_).isSome = true :=
    List.find?_isSome.mpr ⟨x, hx, by simp [hla, huntil]⟩
  obtain ⟨y, hy⟩ := Option.isSome_iff_exists.mp hsome
  simp only [State.snoop, hy]
  rfl

theorem State.snoop_defers (h : ∃ x ∈ (s.slice (sliceOf m.la)).holds, x.la = m.la ∧ s.clk < x.until_) (home : Nat) :
    Only { slices := true, events := true } s (s.snoop home m) ∧
      ∃ x ∈ ((s.snoop home m).slice (sliceOf m.la)).holds, x.la = m.la ∧ ∃ y ∈ x.snoops, y.1 = home := by
  rw [State.snoop_of_held h home]
  obtain ⟨x, hx, hla, -⟩ := h
  refine ⟨((State.modSlice_within _ _ _).only.mono rfl).trans ((State.event_within _ _ _ _).only.mono rfl), x.deferring m.la (home, m), ?_, ?_⟩
  · rw [(State.event_within _ _ _ _).only.slice rfl, State.slice_modSlice_self]
    exact List.mem_map_of_mem hx
  · simp [Hold.deferring, hla]

/-- A hold that has run out ends, and its one deferred snoop is answered. -/
theorem State.holdEnd_of_one {h : Hold} (hholds : (s.slice n).holds = [h]) (hla : h.la = la) (huntil : h.until_ ≤ s.clk)
    (hsnoops : h.snoops = [(home, m)]) : s.holdEnd n la = (s.modSlice n fun x => { x with holds := [] }).snoop home m := by
  have hmod : (s.modSlice n fun x => { x with holds := x.holds.filter fun h => h.la != la }) = s.modSlice n fun x => { x with holds := [] } := by
    simp [State.modSlice, hholds, hla]
  simp [State.holdEnd, hholds, hla, huntil, hsnoops, hmod]

theorem State.holdEnd_of_running (h : ∀ x ∈ (s.slice n).holds, x.la = la → s.clk < x.until_) : s.holdEnd n la = s := by
  have hnone : (s.slice n).holds.find? (fun x => x.la == la && x.until_ ≤ s.clk) = none := by
    refine List.find?_eq_none.mpr fun x hx => ?_
    by_cases hla : x.la = la
    · simp [hla, h x hx hla]
    · simp [hla]
  simp only [State.holdEnd, hnone]

end
end Sys2Proof.Machine
end

section
/-! SUPPORT. The commands INV, FWDS, FWDX and HOLD_EXPIRY (R132, R134) from the state before the codes' findings are counted. -/

namespace Sys2Proof.Machine

section
variable {s t : State} {m : CohMsg} {e : TagEnt} {fd : Finds} {n home src la w op : Nat}

/-- The state in which a snoop that has arrived is handled. -/
def State.arrived (s : State) (fd : Finds) (src : Nat) (m : CohMsg) : State := (s.atWork fd).consumeCoh src m

theorem State.arrived_only (s : State) (fd : Finds) (src : Nat) (m : CohMsg) : Only reachMask s (s.arrived fd src m) :=
  ((s.atWork_only fd).mono rfl).trans (((s.atWork fd).consumeCoh_within src m).only.mono rfl)

theorem State.arrived_finds (s : State) (fd : Finds) (src : Nat) (m : CohMsg) : (s.arrived fd src m).finds = fd := rfl

/-- What a snoop's handling sends, its command sends. -/
theorem Sends.arrived {l : List (Nat × PktBody)} (h : Sends l (s.arrived fd src m) t) : Sends l s { t with finds := s.finds } :=
  Sends.after (s.arrived_only fd src m) rfl h

theorem State.finding_snoop (hpow : s.powered = true) (hpeer : PeerUp s home) (hhome : laNode m.la = home) :
    (s.finding fd fun s => s.snoopArrive home m) = { (s.arrived fd home m).snoop home m with finds := s.finds } := by
  have hwork := s.atWork_only fd
  rw [State.finding_eq, State.snoopArrive_of_home ((hwork.powered rfl).trans hpow) (hpeer.atWork fd) hhome]
  rfl

/-! ### A line that is held -/

theorem HeldHere.snoopable (h : HeldHere s home la w e) (htag : fd.tag = []) (hway : ∀ x ∈ fd.way, x ≠ .ue) (src : Nat) (m : CohMsg) :
    Snoopable (s.arrived fd src m) la w e := by
  have honly := s.arrived_only fd src m
  have hslice := honly.slice rfl (sliceOf la)
  have hbare : BareSet { s with finds := fd } (sliceOf la) (setOf s.part la) := ⟨h.works, h.noCache, htag, h.clean, h.sound⟩
  have hlooks : s.tagWaits (sliceOf la) (setOf s.part la) = false := hbare.tagWaits
  have hgoes : SnoopGoes s la := ⟨h.free, h.settled, h.noVb, hlooks⟩
  have htags : (s.arrived fd src m).tags (sliceOf la) (setOf s.part la) = s.tags (sliceOf la) (setOf s.part la) :=
    State.tags_of_nearTags hslice honly.part (honly.nearTags rfl _)
  refine ⟨hgoes.of_only honly rfl rfl rfl rfl rfl, ⟨(honly.nearFrozen rfl _).trans h.works, by rw [hslice]; exact h.noCache, htag,
    (honly.latent rfl).trans h.clean, ?_⟩, hway, ?_, ?_, (honly.findLine rfl rfl htags).trans h.held⟩
  · rw [honly.part, honly.nearTags rfl]
    exact h.sound
  · rw [honly.part, honly.nearTags rfl]
    exact h.block
  · rw [honly.hsfCopies rfl, honly.biOpen rfl]
    exact h.noHost

theorem exec_inv_held (h : HeldHere s home m.la w e) (htag : fd.tag = []) (hway : ∀ x ∈ fd.way, x ≠ .ue) :
    ∃ t, exec (.inv home m fd) s = .next t ∧ Sends [(home, .coh false (snoopAck m false))] s t ∧
      ((t.nearTags (setOf s.part m.la)).get w).st = stI := by
  obtain ⟨hsends, hst⟩ := Snoopable.inv (m := { m with opc := opINV }) (h.snoopable htag hway home { m with opc := opINV }) rfl home
  refine ⟨_, congrArg Host.Outcome.next (State.finding_snoop (m := { m with opc := opINV }) h.powered h.peer h.home), .arrived hsends, ?_⟩
  rw [(s.arrived_only fd home _).part] at hst
  exact hst

theorem exec_fwds_held (h : HeldHere s home m.la w e) (htag : fd.tag = []) (hway : ∀ x ∈ fd.way, x ≠ .ue) (hM : e.st = stM)
    (hdest : m.destHome = false) :
    ∃ t, exec (.fwds home m fd) s = .next t ∧
      Sends [(m.req, .coh false (snoopData m 1 (s.wayGet (setOf s.part m.la) w))), (home, .coh false (snoopAck m true))] s t ∧
      ((t.nearTags (setOf s.part m.la)).get w).st = stO := by
  obtain ⟨hsends, hst⟩ := Snoopable.fwds (m := { m with opc := opFWDS }) (h.snoopable htag hway home { m with opc := opFWDS }) rfl hdest hM home
  have honly := s.arrived_only fd home { m with opc := opFWDS }
  rw [honly.part] at hst hsends
  rw [honly.wayGet rfl] at hsends
  exact ⟨_, congrArg Host.Outcome.next (State.finding_snoop (m := { m with opc := opFWDS }) h.powered h.peer h.home), .arrived hsends, hst⟩

theorem exec_fwdx_held (h : HeldHere s home m.la w e) (htag : fd.tag = []) (hway : ∀ x ∈ fd.way, x ≠ .ue) (hM : e.st = stM)
    (hdest : m.destHome = false) :
    ∃ t, exec (.fwdx home m fd) s = .next t ∧
      Sends [(m.req, .coh false (snoopData m 3 (s.wayGet (setOf s.part m.la) w))), (home, .coh false (snoopAck m false))] s t ∧
      ((t.nearTags (setOf s.part m.la)).get w).st = stI := by
  obtain ⟨hsends, hst⟩ := Snoopable.fwdx (m := { m with opc := opFWDX }) (h.snoopable htag hway home { m with opc := opFWDX }) rfl hdest hM home
  have honly := s.arrived_only fd home { m with opc := opFWDX }
  rw [honly.part] at hst hsends
  rw [honly.wayGet rfl] at hsends
  exact ⟨_, congrArg Host.Outcome.next (State.finding_snoop (m := { m with opc := opFWDX }) h.powered h.peer h.home), .arrived hsends, hst⟩

/-! ### A line that is not held -/

/-- The device does not hold the line, and none but a hold can hold a snoop of it back. -/
structure LineAbsent (s : State) (la : Nat) (fd : Finds) : Prop where
  settled : s.granted (sliceOf la) la = false
  noVb : ∀ v ∈ (s.slice (sliceOf la)).vbs, v.la ≠ la
  looks : s.tagWaits (sliceOf la) (setOf s.part la) = false
  absent : s.findLine la = none
  sound : fd.tcUe = false
  apart : s.rowsApart (sliceOf la) (setOf s.part la)

/-- What a slice's transactions other than holds, and its tag cache, have to do with it. -/
theorem LineAbsent.of_slice {k : Mask} {hs : List Hold} (h : LineAbsent s la fd) (ho : Only k s t)
    (hk : k.le { reachMask with slices := true } = true)
    (hslice : t.slice (sliceOf la) = { s.slice (sliceOf la) with holds := hs }) : LineAbsent t la fd := by
  have honly : Only { reachMask with slices := true } s t := ho.mono hk
  have htags : t.tags (sliceOf la) (setOf s.part la) = s.tags (sliceOf la) (setOf s.part la) := by
    simp only [State.tags, hslice, honly.part, honly.nearTags rfl]
    rfl
  refine ⟨?_, by rw [hslice]; exact h.noVb, ?_, (honly.findLine rfl rfl htags).trans h.absent, h.sound, ?_⟩
  · rw [State.granted, honly.classOf rfl, hslice]
    exact h.settled
  · rw [honly.tagWaits rfl rfl (by rw [hslice]), honly.part]
    exact h.looks
  · rw [State.rowsApart, hslice, honly.part]
    exact h.apart

theorem LineAbsent.of_only {k : Mask} (h : LineAbsent s la fd) (ho : Only k s t) (hk : k.le reachMask = true) : LineAbsent t la fd :=
  h.of_slice (hs := (s.slice (sliceOf la)).holds) (ho.mono hk) rfl ((ho.mono hk).slice rfl _)

theorem LineAbsent.missed (h : LineAbsent s m.la fd) (hfree : ∀ h ∈ (s.slice (sliceOf m.la)).holds, h.la = m.la → h.until_ ≤ s.clk)
    (hfd : s.finds = fd) (home : Nat) : Missed s (s.snoop home m) home m :=
  SnoopGoes.missed ⟨hfree, h.settled, h.noVb, h.looks⟩ h.absent (by rw [hfd]; exact h.sound) h.apart home

/-- What a snoop's miss leaves, from the state before the command. -/
theorem finding_snoop_misses (h : LineAbsent s m.la fd)
    (hfree : ∀ h ∈ (s.slice (sliceOf m.la)).holds, h.la = m.la → h.until_ ≤ s.clk) (hpow : s.powered = true) (hpeer : PeerUp s home)
    (hhome : laNode m.la = home) :
    Sends [(home, .coh false (missAck m))] s (s.finding fd fun s => s.snoopArrive home m) ∧
      (s.finding fd fun s => s.snoopArrive home m).mem.near = s.mem.near ∧
      (fd.tag = [] → (s.slice (sliceOf m.la)).tc = [] → s.ras.latent = [] →
        tagError s.part (setOf s.part m.la) (s.nearTags (setOf s.part m.la)) = false →
        (s.finding fd fun s => s.snoopArrive home m).mem.tags = s.mem.tags) ∧
      Only { rtrTx := true, rtrRx := true, slices := true, chans := true, near := true, memIo := true, free := true, flip := true, events := true,
             trc := true, trcCfg := true, ledger := true, bkt := true, due := true, irq := true, pba := true, outs := true } s
        (s.finding fd fun s => s.snoopArrive home m) := by
  have honly := s.arrived_only fd home m
  have hwork : Only missMask s (s.arrived fd home m) :=
    ((s.atWork_only fd).mono rfl).trans (((s.atWork fd).consumeCoh_within home m).only.mono rfl)
  have hmissed := (h.of_only honly rfl).missed (by rw [honly.slice rfl, honly.clk rfl]; exact hfree) (s.arrived_finds fd home m) home
  rw [State.finding_snoop hpow hpeer hhome]
  refine ⟨.arrived hmissed.sends, hmissed.near.trans (honly.memNear rfl), fun htag htc hclean hsound => ?_,
    .resetFinds (hwork.trans hmissed.only) rfl⟩
  refine (hmissed.tags fun hworks => ⟨hworks, ?_, htag, (honly.latent rfl).trans hclean, ?_⟩).trans (honly.memTags rfl)
  · rw [honly.slice rfl]
    exact htc
  · rw [honly.part, honly.nearTags rfl]
    exact hsound

/-! ### Snoops that are not answered -/

theorem finding_snoop_stray (hpow : s.powered = true) (hhome : laNode m.la ≠ src) :
    Sends [] s (s.finding fd fun s => s.snoopArrive src m) ∧ (s.finding fd fun s => s.snoopArrive src m).slices = s.slices ∧
      (s.finding fd fun s => s.snoopArrive src m).mem.tags = s.mem.tags := by
  have hwork := s.atWork_only fd
  have hstray := State.snoopArrive_stray ((hwork.powered rfl).trans hpow) hhome
  exact ⟨.finding (hstray.sends rfl), (hstray.slices rfl).trans (hwork.slices rfl), (hstray.memTags rfl).trans (hwork.memTags rfl)⟩

theorem finding_snoop_defers (hpow : s.powered = true) (hpeer : PeerUp s home) (hhome : laNode m.la = home)
    (h : ∃ x ∈ (s.slice (sliceOf m.la)).holds, x.la = m.la ∧ s.clk < x.until_) :
    Sends [] s (s.finding fd fun s => s.snoopArrive home m) ∧ (s.finding fd fun s => s.snoopArrive home m).mem.tags = s.mem.tags ∧
      ∃ x ∈ ((s.finding fd fun s => s.snoopArrive home m).slice (sliceOf m.la)).holds, x.la = m.la ∧ ∃ y ∈ x.snoops, y.1 = home := by
  have honly := s.arrived_only fd home m
  rw [State.finding_snoop hpow hpeer hhome]
  obtain ⟨hdefer, hheld⟩ := State.snoop_defers (s := s.arrived fd home m) (m := m)
    (by rw [honly.slice rfl, honly.clk rfl]; exact h) home
  exact ⟨.arrived (hdefer.sends rfl), (hdefer.memTags rfl).trans (honly.memTags rfl), hheld⟩

/-! ### The end of a hold -/

theorem exec_holdExpiry_of_one {h : Hold} (hholds : (s.slice (sliceOf m.la)).holds = [h]) (hla : h.la = m.la) (huntil : h.until_ ≤ s.clk)
    (hsnoops : h.snoops = [(home, m)]) (habsent : LineAbsent s m.la fd) :
    ∃ t, exec (.holdExpiry (sliceOf m.la) m.la fd) s = .next t ∧ (t.slice (sliceOf m.la)).holds = [] ∧
      Sends [(home, .coh false (missAck m))] s t := by
  have hwork := s.atWork_only fd
  have hend := State.holdEnd_of_one (s := s.atWork fd) (by rw [hwork.slice rfl]; exact hholds) hla (by rw [hwork.clk rfl]; exact huntil) hsnoops
  have hslice := (s.atWork fd).slice_modSlice_self (sliceOf m.la) fun x => { x with holds := [] }
  have honly := ((s.atWork fd).modSlice_within (sliceOf m.la) fun x => { x with holds := [] }).only
  generalize ((s.atWork fd).modSlice (sliceOf m.la) fun x => { x with holds := [] }) = u at hend hslice honly
  have hmissed := ((habsent.of_only hwork rfl).of_slice honly rfl hslice).missed (by simp [hslice]) (honly.finds rfl) home
  rw [← hend] at hmissed
  refine ⟨s.finding fd fun s => s.holdEnd (sliceOf m.la) m.la, rfl, ?_, .finding (.after honly rfl hmissed.sends)⟩
  exact (hmissed.work.holds _).trans (by rw [hslice])

theorem exec_holdExpiry_of_running (h : ∀ x ∈ (s.slice n).holds, x.la = la → s.clk < x.until_) :
    exec (.holdExpiry n la fd) s = .next (s.noted fd) := by
  have hwork := s.atWork_only fd
  refine congrArg Host.Outcome.next (State.finding_of_id (State.holdEnd_of_running ?_))
  rw [hwork.slice rfl, hwork.clk rfl]
  exact h

end
end Sys2Proof.Machine
end

section
/-! SUPPORT. The obligation on a device's answers to snoops (R115, R132, R134, R144). -/

namespace Sys2Proof.Machine

/-- Settles O20: what a device that holds the line answers and is left in (R132, Table 5.9), the MISS, and the snoops that it drops or defers
(R15, R134). -/
theorem snoopsOfADevice : Obligations.SnoopsOfADevice := by
  unfold Obligations.SnoopsOfADevice
  refine ⟨?held, ?miss, ?stray, ?hold, ?expiry, ?running⟩
  case held =>
    intro s home w m e fd h htag hway
    exact ⟨exec_inv_held h htag hway, fun hM hdest => ⟨exec_fwds_held h htag hway hM hdest, exec_fwdx_held h htag hway hM hdest⟩⟩
  case miss =>
    intro s home m fd hpow hpeer hhome hfree hvb hgrant hnone hue hwaits hapart c hc
    have habsent : LineAbsent s m.la fd := ⟨hgrant, hvb, hwaits, hnone, hue, hapart⟩
    have hmiss (op : Nat) := finding_snoop_misses (m := { m with opc := op }) habsent hfree hpow hpeer hhome
    simp only [List.mem_cons, List.not_mem_nil, or_false] at hc
    rcases hc with rfl | rfl | rfl
    · exact ⟨_, rfl, hmiss opINV⟩
    · exact ⟨_, rfl, hmiss opFWDS⟩
    · exact ⟨_, rfl, hmiss opFWDX⟩
  case stray =>
    intro s src m fd hpow hhome c hc
    have hstray (op : Nat) := finding_snoop_stray (fd := fd) (m := { m with opc := op }) hpow hhome
    simp only [List.mem_cons, List.not_mem_nil, or_false] at hc
    rcases hc with rfl | rfl | rfl
    · exact ⟨_, rfl, hstray opINV⟩
    · exact ⟨_, rfl, hstray opFWDS⟩
    · exact ⟨_, rfl, hstray opFWDX⟩
  case hold =>
    intro s home m fd hpow hpeer hhome hheld c hc
    have hdefers (op : Nat) := finding_snoop_defers (fd := fd) (m := { m with opc := op }) hpow hpeer hhome hheld
    simp only [List.mem_cons, List.not_mem_nil, or_false] at hc
    rcases hc with rfl | rfl | rfl
    · exact ⟨_, rfl, hdefers opINV⟩
    · exact ⟨_, rfl, hdefers opFWDS⟩
    · exact ⟨_, rfl, hdefers opFWDX⟩
  case expiry =>
    rintro s n la home m h fd hue hgrant hholds hla huntil hsnoops rfl rfl hvb hnone hwaits hapart
    exact exec_holdExpiry_of_one hholds hla huntil hsnoops ⟨hgrant, hvb, hwaits, hnone, hue, hapart⟩
  case running =>
    intro s n la fd h
    exact exec_holdExpiry_of_running h

end Sys2Proof.Machine
end

section
/-! SUPPORT. The HDM decoders (R155-R157): what a commit writes, and which settings are good. -/

namespace Sys2Proof.Machine

/-! ### One decoder of a link -/

theorem HLink.dec_setDec_self (x : HLink) (d : Nat) (v : Decoder) : (x.setDec d v).dec d = v :=
  match d with
  | 0 | 1 | 2 | _ + 3 => rfl

theorem HLink.dec_setDec_ne (x : HLink) (v : Decoder) {d e : Nat} (hd : d < 4) (he : e < 4) (hne : e ≠ d) : (x.setDec d v).dec e = x.dec e := by
  match d, e with
  | 0, 1 | 0, 2 | 0, 3 | 1, 0 | 1, 2 | 1, 3 | 2, 0 | 2, 1 | 2, 3 | 3, 0 | 3, 1 | 3, 2 => rfl
  | 0, 0 | 1, 1 | 2, 2 | 3, 3 => exact absurd rfl hne
  | 0, _ + 4 | 1, _ + 4 | 2, _ + 4 | 3, _ + 4 => omega
  | _ + 4, _ => omega

theorem HLink.setDec_pba (x : HLink) (d : Nat) (v : Decoder) : (x.setDec d v).pba = x.pba :=
  match d with
  | 0 | 1 | 2 | _ + 3 => rfl

section
variable {s : State} {l d : Nat}

theorem State.modLink_of_pba {f : HLink → HLink} (hf : (f (s.link l)).pba = (s.link l).pba) : Only { links := true } s (s.modLink l f) :=
  State.setLink_of_pba hf

/-- A link of which decoder `d` is written: that decoder alone changes. -/
theorem State.decoder_written (s : State) (l : Nat) (v : Decoder) (hd : d < 4) :
    ((s.modLink l fun x => x.setDec d v).link l).dec d = v ∧
      (∀ e, e < 4 → e ≠ d → ((s.modLink l fun x => x.setDec d v).link l).dec e = (s.link l).dec e) ∧
      (∀ k, k ≠ l → (s.modLink l fun x => x.setDec d v).link k = s.link k) ∧
      Only { links := true } s (s.modLink l fun x => x.setDec d v) := by
  simp only [State.link_modLink_self]
  exact ⟨HLink.dec_setDec_self _ d v, fun e he hne => HLink.dec_setDec_ne _ v hd he hne, fun k hk => State.link_modLink_ne s _ hk,
    State.modLink_of_pba (HLink.setDec_pba _ d v)⟩

variable {base size ways gran : Nat}

theorem exec_hdmDecoderCommit_of_good (hon : s.linkOn l = true) (hd : d < 4) (hgood : s.decGood l d base size ways gran = true) :
    exec (.hdmDecoderCommit l d base size ways gran) s =
      .next (s.modLink l fun x => x.setDec d { committed := true, base := base, size := size, ways := ways, gran := gran }) := by
  simp [exec, execHdmDecoderCommit, hon, hd, hgood]

theorem exec_hdmDecoderCommit_of_bad (hon : s.linkOn l = true) (hd : d < 4) (hbad : s.decGood l d base size ways gran = false) :
    exec (.hdmDecoderCommit l d base size ways gran) s = .next (s.modLink l fun x => x.setDec d { (s.link l).dec d with err := true }) := by
  simp [exec, execHdmDecoderCommit, hon, hd, hbad, State.modLink]

/-- Without interleave: the window's base, whole units of 256 MiB, and room in the window (R155, R156). -/
theorem State.decGood_of_one_way (s : State) (l d base size gran : Nat) :
    s.decGood l d base size 0 gran = true ↔ base = decBase d ∧ size % 2 ^ 28 = 0 ∧ size ≤ s.winSize l d := by
  simp [State.decGood, and_assoc]

end
end Sys2Proof.Machine
end

section
/-! SUPPORT. A link comes up (R171), and goes down by a hot reset or an IDE failure (R170, R171). -/

namespace Sys2Proof.Machine

/-- A fold over places 0 to `k - 1` whose step at place `i` makes `g i` of that place and leaves the others. -/
theorem foldl_range_places {σ α : Type} {f : σ → Nat → σ} {get : σ → Nat → α} {g : Nat → α → α}
    (hself : ∀ x i, get (f x i) i = g i (get x i)) (hne : ∀ x i j, j ≠ i → get (f x i) j = get x j) (x : σ) (k j : Nat) :
    get ((List.range k).foldl f x) j = if j < k then g j (get x j) else get x j := by
  induction k with
  | zero => rfl
  | succ k ih =>
    rw [List.range_succ, List.foldl_append, List.foldl_cons, List.foldl_nil]
    by_cases hj : j = k
    · subst hj
      rw [hself, ih, if_neg (Nat.lt_irrefl j), if_pos (Nat.lt_succ_self j)]
    · rw [hne _ _ _ hj, ih]
      exact if_congr (by omega) rfl rfl

/-- A link of which neither the buffers nor the pending interrupts change. -/
theorem Only.link {m : Mask} {s t : State} (h : Only m s t) (hl : m.links = false) (hp : m.pba = false) (l : Nat) : t.link l = s.link l := by
  have hregs : (t.link l).noPba = (s.link l).noPba := congrFun (h.links hl) l
  have hpba : (t.link l).pba = (s.link l).pba := congrFun (h.pba hp) l
  calc t.link l
      = { (t.link l).noPba with pba := (t.link l).pba } := rfl
    _ = { (s.link l).noPba with pba := (s.link l).pba } := by rw [hregs, hpba]

section
variable {s : State} {l : Nat}

/-! ### Coming up -/

theorem exec_hostLinkUp_of_down {rate width : Nat} {ide lo : Bool} (hlive : s.live = true) (hl : s.linkExists l = true)
    (hdown : (s.link l).up = false) :
    exec (.hostLinkUp l rate width ide lo) s = .next (s.modLink l fun x =>
      { x with up := true, resetting := false, rate := rate, width := width, ide := ide, flitLo := lo, credits := Tmr.of 0 }) := by
  simp [exec, execHostLinkUp, hlive, hl, hdown]

theorem exec_hostLinkUp_of_up {rate width : Nat} {ide lo : Bool} (hup : (s.link l).up = true) :
    exec (.hostLinkUp l rate width ide lo) s = .next s := by
  simp [exec, execHostLinkUp, hup]

/-! ### Going down -/

/-- A link as a hot reset leaves it. -/
def HLink.reset (x : HLink) : HLink :=
  { x with up := false, resetting := true, rate := 0, width := 0, ide := false, flitLo := false, dec0 := {}, dec1 := {},
           dec2 := {}, dec3 := {}, credits := Tmr.of 0, pba := [], miss1 := none, miss2 := none }

theorem HLink.reset_dec (x : HLink) (d : Nat) : x.reset.dec d = {} :=
  match d with
  | 0 | 1 | 2 | _ + 3 => rfl

theorem HLink.reset_reqCr (x : HLink) : x.reset.reqCr = 0 := by simp [HLink.reqCr, HLink.reset]
theorem HLink.reset_rwdCr (x : HLink) : x.reset.rwdCr = 0 := by simp [HLink.rwdCr, HLink.reset]

/-- The link is reset; nothing of the E9 answers it or stands for it any longer. -/
def State.linkGone (s : State) (l : Nat) : State :=
  { s.modLink l HLink.reset with
    hreqs := s.hreqs.map fun h => if h.link == l then { h with mute := true } else h
    fnc := { s.fnc with fences := s.fnc.fences.map fun f => if f.link == l then { f with mute := true } else f }
    msix := s.msix.filter fun e => e.1 / 4096 != l
    hsf := (s.hsf.map fun e => { e with copies := e.copies.filter fun c => c.link != l }).filter fun e => !e.copies.isEmpty }

/-- The prefetchers of a slice have forgotten their streams (R91). -/
def Slice.noStreams (x : Slice) : Slice := { x with streams := List.replicate 32 none }

/-- Those of all slices. -/
def State.noStreams (s : State) : State := (List.range 64).foldl (fun s n => s.modSlice n Slice.noStreams) s

theorem State.noStreams_only (s : State) : Only { slices := true } s s.noStreams :=
  Only.foldl (fun x _ => (x.modSlice_within _ _).only) _ _

theorem State.noStreams_slice (s : State) (n : Nat) : s.noStreams.slice n = if n < 64 then (s.slice n).noStreams else s.slice n :=
  foldl_range_places (get := State.slice) (g := fun _ x => x.noStreams) (fun _ _ => State.slice_modSlice_self _ _ _)
    (fun _ _ _ hj => State.slice_setSlice_ne _ _ _ _ hj) s 64 n

/-- Without back-invalidations outstanding to the link there is nothing to end (R168). -/
theorem State.hotReset_of_none_out (hnone : ∀ b ∈ s.bisnps, b.link ≠ l) : s.hotReset l = (s.linkGone l).noStreams := by
  have hbis : (s.linkGone l).noStreams.bisnps = s.bisnps := (State.noStreams_only _).bisnpList rfl
  have hout : (s.bisnps.filter fun b => b.link == l) = [] := by
    simpa [List.filter_eq_nil_iff] using hnone
  calc s.hotReset l
      = ((s.linkGone l).noStreams.bisnps.filter fun b => b.link == l).foldl (fun s b => s.biDone { b with inv := true } none)
          (s.linkGone l).noStreams := rfl
    _ = (s.linkGone l).noStreams := by rw [hbis, hout, List.foldl_nil]

theorem State.linkGone_only (s : State) (l : Nat) :
    Only { links := true, pba := true, hreqs := true, fnc := true, msix := true, hsf := true } s (s.linkGone l) :=
  ((s.modLink_within l HLink.reset).only.mono rfl).trans rfl

theorem State.linkGone_msixGet (s : State) (l v : Nat) {w : Nat} (hv : v < 2048) (hw : w < 2) :
    (s.linkGone l).msixGet (msixKey l v w) = msixReset (msixKey l v w) := by
  have hkey : msixKey l v w / 4096 = l := by unfold msixKey; omega
  have hget : Tab.get 0 (s.linkGone l).msix (msixKey l v w) = 0 :=
    (Tab.get_filter 0 s.msix (fun k => k / 4096 != l) _).trans (if_neg (by simp [hkey]))
  exact (congrArg (msixReset (msixKey l v w) ^^^ ·) hget).trans BitVec.xor_zero

theorem State.linkGone_hreqs (s : State) (l : Nat) : ∀ h ∈ (s.linkGone l).hreqs, h.link = l → h.mute = true := by
  intro h hh hl
  obtain ⟨g, -, rfl⟩ := List.mem_map.1 hh
  by_cases hg : g.link = l
  · simp [hg]
  · simp [hg] at hl

theorem State.linkGone_fences (s : State) (l : Nat) : ∀ f ∈ (s.linkGone l).fnc.fences, f.link = l → f.mute = true := by
  intro f hf hl
  obtain ⟨g, -, rfl⟩ := List.mem_map.1 hf
  by_cases hg : g.link = l
  · simp [hg]
  · simp [hg] at hl

theorem State.linkGone_hsf (s : State) (l : Nat) : ∀ e ∈ (s.linkGone l).hsf, ∀ c ∈ e.copies, c.link ≠ l := by
  intro e he c hc
  obtain ⟨g, -, rfl⟩ := List.mem_map.1 (List.mem_of_mem_filter he)
  simpa using (List.mem_filter.1 hc).2

theorem exec_hostLinkHotReset (hon : s.linkOn l = true) : exec (.hostLinkHotReset l) s = .next (s.noFinds fun s => s.hotReset l) :=
  congrArg Host.Outcome.next (if_pos hon)

theorem exec_ideIntegrityFailure_of_ide (hon : s.linkOn l = true) (hide : (s.link l).ide = true) :
    exec (.ideIntegrityFailure l) s = .next (s.noFinds fun s => s.hotReset l) :=
  congrArg Host.Outcome.next (if_pos (by rw [hon, hide]; rfl))

theorem exec_ideIntegrityFailure_of_plain (hide : (s.link l).ide = false) : exec (.ideIntegrityFailure l) s = .next s :=
  congrArg Host.Outcome.next (if_neg (by simp [hide]))

/-- Going from `s` to `t`, link `l` has been reset, and nothing of the E9 answers it or stands for it any longer (R170, R171). -/
structure TakenDown (l : Nat) (s t : State) : Prop where
  link : t.link l = (s.link l).reset
  others : ∀ k, k ≠ l → t.link k = s.link k
  accesses : ∀ h ∈ t.hreqs, h.link = l → h.mute = true
  fences : ∀ f ∈ t.fnc.fences, f.link = l → f.mute = true
  streams : ∀ n, t.slice n = if n < 64 then (s.slice n).noStreams else s.slice n
  copies : ∀ e ∈ t.hsf, ∀ c ∈ e.copies, c.link ≠ l
  vectors : ∀ v w, v < 2048 → w < 2 → t.msixGet (msixKey l v w) = msixReset (msixKey l v w)

theorem State.linkGone_takenDown (s : State) (l : Nat) : TakenDown l s (s.linkGone l).noStreams := by
  have honly := (s.linkGone l).noStreams_only
  have hlinks : (s.linkGone l).noStreams.link = (s.linkGone l).link := funext (honly.link rfl rfl)
  have hmsix : (s.linkGone l).noStreams.msixGet = (s.linkGone l).msixGet := by
    funext k; rw [State.msixGet, State.msixGet, honly.msix rfl]
  constructor
  case link => rw [hlinks]; exact State.link_modLink_self s l HLink.reset
  case others => intro k hk; rw [hlinks]; exact State.link_modLink_ne s HLink.reset hk
  case accesses => rw [honly.hreqs rfl]; exact s.linkGone_hreqs l
  case fences => rw [honly.fnc rfl]; exact s.linkGone_fences l
  case streams => exact fun n => (s.linkGone l).noStreams_slice n
  case copies => rw [honly.hsf rfl]; exact s.linkGone_hsf l
  case vectors => intro v w hv hw; rw [hmsix]; exact s.linkGone_msixGet l v hv hw

/-- A hot reset as a command, whose reads the codes find nothing in. -/
theorem State.noFinds_hotReset (hnone : ∀ b ∈ s.bisnps, b.link ≠ l) :
    TakenDown l s (s.noFinds fun s => s.hotReset l) ∧
      Only { links := true, pba := true, hreqs := true, fnc := true, msix := true, hsf := true, slices := true } s
        (s.noFinds fun s => s.hotReset l) := by
  obtain ⟨x, hx⟩ := named ({ s with finds := {} } : State)
  have hgo : x.hotReset l = (x.linkGone l).noStreams := State.hotReset_of_none_out (hx ▸ hnone)
  have hstate : s.noFinds (fun s => s.hotReset l) = { x.hotReset l with finds := s.finds } := by rw [hx]; rfl
  have hdown : TakenDown l x (x.hotReset l) := hgo ▸ x.linkGone_takenDown l
  have honly : Only { links := true, pba := true, hreqs := true, fnc := true, msix := true, hsf := true, slices := true } x (x.hotReset l) :=
    hgo ▸ ((x.linkGone_only l).mono rfl).trans ((State.noStreams_only _).mono rfl)
  refine ⟨?_, Only.noFinds (by rw [← hx]; exact honly.mono rfl)⟩
  rw [hstate]
  subst hx
  exact ⟨hdown.link, hdown.others, hdown.accesses, hdown.fences, hdown.streams, hdown.copies, hdown.vectors⟩

end

/-- Settles O11 (R155-R157, R170, R171): a commit writes one decoder; a hot reset is `State.linkGone` and forgotten streams where no
back-invalidation has to be ended. -/
theorem hostDecodersAndLinks : Obligations.HostDecodersAndLinks := by
  refine ⟨?commit, State.decGood_of_one_way, ?up, fun s l rate width ide lo hup => exec_hostLinkUp_of_up hup, ?reset,
    fun s l hide => exec_ideIntegrityFailure_of_plain hide⟩
  case commit =>
    intro s l d base size ways gran hon hd
    exact ⟨fun hgood => ⟨_, exec_hdmDecoderCommit_of_good hon hd hgood, s.decoder_written l _ hd⟩,
      fun hbad => ⟨_, exec_hdmDecoderCommit_of_bad hon hd hbad, s.decoder_written l _ hd⟩⟩
  case up =>
    intro s l rate width ide lo hlive hl hdown
    exact ⟨_, exec_hostLinkUp_of_down hlive hl hdown, State.link_modLink_self _ _ _, fun k hk => State.link_modLink_ne s _ hk,
      State.modLink_of_pba rfl⟩
  case reset =>
    intro s l hon hnone
    obtain ⟨hdown, honly⟩ := State.noFinds_hotReset hnone
    refine ⟨_, exec_hostLinkHotReset hon, exec_ideIntegrityFailure_of_ide hon, ?_⟩
    rw [hdown.link]
    exact ⟨rfl, rfl, HLink.reset_reqCr _, HLink.reset_rwdCr _, fun d _ => HLink.reset_dec _ d, rfl, hdown.others, hdown.accesses, hdown.fences,
      hdown.streams, hdown.copies, hdown.vectors, honly⟩

end Sys2Proof.Machine
end

section
/-! SUPPORT. The acceptance of a CXL.mem request (R159, R160): what it reads of the state, what it takes, and where it sends the access. -/

namespace Sys2Proof.Machine

/-! ### What acceptance reads -/

theorem HLink.dec_noPba (x : HLink) (d : Nat) : x.noPba.dec d = x.dec d :=
  match d with
  | 0 | 1 | 2 | _ + 3 => rfl

section
variable {m : Mask} {s t : State}

/-- A field of a link other than its pending interrupts. -/
theorem Only.linkField {α : Type} (h : Only m s t) (hm : m.links = false) {f : HLink → α} (hf : ∀ x, f x.noPba = f x) (l : Nat) :
    f (t.link l) = f (s.link l) := by
  have hregs : (t.link l).noPba = (s.link l).noPba := congrFun (h.links hm) l
  rw [← hf, hregs, hf]

theorem Only.credits (h : Only m s t) (hm : m.links = false) (l : Nat) : (t.link l).credits = (s.link l).credits :=
  h.linkField hm (f := HLink.credits) (fun _ => rfl) l

theorem Only.creditOf (h : Only m s t) (hm : m.links = false) (l : Nat) (wr : Bool) : (t.link l).creditOf wr = (s.link l).creditOf wr :=
  h.linkField hm (f := fun x => x.creditOf wr) (fun _ => rfl) l

theorem Only.linkOn (h : Only m s t) (hm : m.links = false) (hpcr : m.pcr = false) (l : Nat) : t.linkOn l = s.linkOn l := by
  have hup := h.linkField hm (f := HLink.up) (fun _ => rfl) l
  have hres := h.linkField hm (f := HLink.resetting) (fun _ => rfl) l
  simp only [State.linkOn, State.linkExists, h.powered hpcr, h.part, h.pcr hpcr, hup, hres]

theorem Only.decode (h : Only m s t) (hm : m.links = false) (hcsr : m.csr = false) (l dpa : Nat) : t.decode l dpa = s.decode l dpa := by
  have hdec : ∀ d, (t.link l).dec d = (s.link l).dec d := fun d =>
    h.linkField hm (f := fun x => x.dec d) (fun x => x.dec_noPba d) l
  have hpos : t.posOf l = s.posOf l := by
    rw [State.posOf, State.posOf, State.decPos, State.decPos, h.csrGet hcsr (by simp only [offHpt, offTrc]; omega)]
  simp only [State.decode, hdec, hpos]

theorem Only.memActive (h : Only m s t) (hm : m.boot = false) : t.memActive = s.memActive := by
  rw [State.memActive, State.memActive, h.boot hm]

theorem Only.winSize_zero (h : Only m s t) (hm : m.boot = false) (hmem : m.memCfg = false) (l : Nat) : t.winSize l 0 = s.winSize l 0 := by
  have hrbits : t.mem.rbits = s.mem.rbits := congrArg (·.2.2.1) (h.memCfg hmem)
  simp only [State.winSize, h.boot hm, h.farBytes hmem, hrbits]

end

/-! ### What it takes -/

theorem HLink.reqCr_lt (x : HLink) : x.reqCr < 64 := Nat.mod_lt _ (by decide)
theorem HLink.rwdCr_lt (x : HLink) : x.rwdCr < 64 := by
  have hval := x.credits.val.isLt
  unfold HLink.rwdCr
  omega

section
variable {s : State} {l : Nat} {r : CxlReq}

theorem State.takeCredit_link (s : State) (l : Nat) (wr : Bool) :
    ((s.takeCredit l wr).link l).reqCr = (s.link l).reqCr - (if wr then 0 else 1) ∧
      ((s.takeCredit l wr).link l).rwdCr = (s.link l).rwdCr - (if wr then 1 else 0) := by
  have hreq := (s.link l).reqCr_lt
  have hrwd := (s.link l).rwdCr_lt
  rw [State.takeCredit, State.link_modLink_self]
  cases wr with
  | true => exact ⟨HLink.setCr_reqCr _ hreq, HLink.setCr_rwdCr _ hreq (by omega)⟩
  | false => exact ⟨HLink.setCr_reqCr _ (by omega), HLink.setCr_rwdCr _ (by omega) hrwd⟩

theorem State.takeCredit_link_ne (s : State) (wr : Bool) {k : Nat} (hk : k ≠ l) : (s.takeCredit l wr).link k = s.link k :=
  State.link_modLink_ne s _ hk

/-- The access that request `r` of link `l` becomes. -/
def State.hostOf (s : State) (l : Nat) (r : CxlReq) : HostReq := s.newHost l r (s.decode l r.dpa)

/-- The state in which it has taken its credit and is numbered, and its acceptance has been seen. -/
def State.accepted (s : State) (l : Nat) (r : CxlReq) (dec : Nat) : State :=
  ((s.takeCredit l (r.op == .write)).book (s.hostOf l r)).seen (s.hostOf l r) dec

theorem State.accepted_only (s : State) (l : Nat) (r : CxlReq) (dec : Nat) :
    Only { links := true, pba := true, hreqs := true, nextRid := true, accs := true, trcCfg := true, events := true, trc := true } s
      (s.accepted l r dec) :=
  (((s.takeCredit_within _ _).only.mono rfl).trans ((State.book_within _ _).only.mono rfl)).trans ((State.seen_within _ _ _).only.mono rfl)

theorem State.accepted_nextRid (s : State) (l : Nat) (r : CxlReq) (dec : Nat) : (s.accepted l r dec).nextRid = s.nextRid + 1 :=
  (State.seen_within _ _ _).only.nextRid rfl

theorem State.mem_accepted (s : State) (l : Nat) (r : CxlReq) (dec : Nat) : s.hostOf l r ∈ (s.accepted l r dec).hreqs := by
  rw [State.accepted, (State.seen_within _ _ _).only.hreqs rfl]
  exact List.mem_append_right _ (List.mem_singleton_self _)

theorem State.accepted_accs (s : State) (l : Nat) (r : CxlReq) (dec : Nat) :
    (s.accepted l r dec).accs = s.accs ++ [{ aid := 2 * s.nextRid, who := l, rd := r.op != .write, wr := r.op == .write }] :=
  congrArg Prod.fst ((State.seen_within _ _ _).only.accs rfl)

theorem State.accepted_credits (s : State) (l : Nat) (r : CxlReq) (dec : Nat) :
    ((s.accepted l r dec).link l).reqCr = (s.link l).reqCr - (if r.op = .write then 0 else 1) ∧
      ((s.accepted l r dec).link l).rwdCr = (s.link l).rwdCr - (if r.op = .write then 1 else 0) := by
  have hcr : ((s.accepted l r dec).link l).credits = ((s.takeCredit l (r.op == .write)).link l).credits :=
    (State.seen_within _ _ _).only.credits rfl l
  simpa [HLink.reqCr, HLink.rwdCr, hcr] using s.takeCredit_link l (r.op == .write)

/-! ### Where it sends the access -/

/-- `r` asks for a line of memory, and the host holds a credit for it. -/
structure Grantable (s : State) (l : Nat) (r : CxlReq) : Prop where
  on : s.linkOn l = true
  listed : r.op ≠ .unsupported
  access : r.op ≠ .biConflict
  credit : 0 < (s.link l).creditOf (r.op == .write)

theorem Grantable.credit_ne (h : Grantable s l r) : ((s.link l).creditOf (r.op == .write) == 0) = false := by
  simpa using Nat.pos_iff_ne_zero.1 h.credit

theorem Grantable.accept_of_uncovered (h : Grantable s l r) (hno : s.decode l r.dpa = none ∨ s.memActive = false) :
    ∃ i, s.accept l r = (s.accepted l r i).hostRefuse (s.hostOf l r) := by
  cases hdec : s.decode l r.dpa with
  | none => exact ⟨255, by simp [State.accept, h.on, h.listed, h.access, h.credit_ne, hdec, State.accepted, State.hostOf]⟩
  | some d =>
    have hidle : s.memActive = false := hno.resolve_left (by simp [hdec])
    exact ⟨d.1, by simp [State.accept, h.on, h.listed, h.access, h.credit_ne, hdec, State.accepted, State.hostOf, hidle]⟩

theorem Grantable.accept_of_covered {i off : Nat} (h : Grantable s l r) (hdec : s.decode l r.dpa = some (i, off)) (hactive : s.memActive = true) :
    s.accept l r = (s.accepted l r i).hostRoute (s.hostOf l r) i := by
  simp [State.accept, h.on, h.listed, h.access, h.credit_ne, hdec, State.accepted, State.hostOf, hactive]

/-- A change that leaves links and power alone leaves the request grantable. -/
theorem Grantable.of_only {m : Mask} {t : State} (h : Grantable s l r) (k : Only m s t) (hlinks : m.links = false) (hpcr : m.pcr = false) :
    Grantable t l r :=
  ⟨(k.linkOn hlinks hpcr l).trans h.on, h.listed, h.access, by rw [k.creditOf hlinks]; exact h.credit⟩

end
end Sys2Proof.Machine
end

section
/-! SUPPORT. A host access on its way to its slice (R44, R159), and one that is answered at the port (R152). -/

namespace Sys2Proof.Machine

section
variable {s : State} {h : HostReq}

/-! ### To the slice -/

/-- An access to the local window, to the line of its offset at this E9's own node (R44). -/
def State.localLine (s : State) (h : HostReq) : HostReq := { h with la := mkLa s.nodeNo (h.off / 64) }

theorem State.hostRoute_of_local (hwin : h.win = .loc) (hoff : h.off < s.winSize h.link 0) (hlevel : 2 ≤ s.boot.level) :
    s.hostRoute h 0 = (s.modReq h.rid fun _ => s.localLine h).hostIssue (s.localLine h) := by
  have hrange : ¬ s.winSize h.link 0 ≤ h.off := by omega
  have hone : s.boot.level ≠ 1 := by omega
  simp [State.hostRoute, hwin, hrange, State.modReq, State.localLine, hone]

theorem HostReq.toReq_kind (h : HostReq) : h.toReq.kind = if h.req.op = .write then .write else .read := by
  by_cases hop : h.req.op = .write <;> simp [HostReq.toReq, hop]
theorem HostReq.toReq_flat (hwin : h.win = .loc) : h.toReq.flat = false := by simp [HostReq.toReq, hwin]
theorem HostReq.toReq_glob (hwin : h.win = .loc) : h.toReq.glob = false := by simp [HostReq.toReq, hwin]

theorem State.hostIssue_arrives (s : State) (h : HostReq) : Arrives (s.sliceFor h) h.toReq s (s.hostIssue h) :=
  fun k => State.slice_setSlice _ _ k _

theorem State.sliceFor_of_local (s : State) (hwin : h.win = .loc) : s.sliceFor h = sliceOf h.la := by
  simp [State.sliceFor, hwin]

theorem State.mem_modReq {g : HostReq} (hg : g ∈ s.hreqs) (f : HostReq → HostReq) : f g ∈ (s.modReq g.rid f).hreqs :=
  List.mem_map.2 ⟨g, hg, if_pos (beq_self_eq_true _)⟩

/-- The access stands at its slice. -/
theorem State.mem_hostIssue (hmem : h ∈ s.hreqs) :
    ∃ g ∈ (s.hostIssue h).hreqs, g.rid = h.rid ∧ g.link = h.link ∧ g.req = h.req ∧ g.la = h.la ∧ g.t0 = h.t0 ∧ g.ph = .slice :=
  ⟨_, State.mem_modReq hmem _, rfl, rfl, rfl, rfl, rfl, rfl⟩

/-! ### Answered at the port -/

/-- What answers an access that reaches no slice (Table 6.3). -/
def HostReq.refusal (h : HostReq) : Out :=
  if h.req.op = .write then .cmp h.link h.req.tag else .memData h.link h.req.tag Config.poisonLine true 0

theorem State.hostEnd_outs (hmute : h.mute = false) : (s.hostEnd h).outs = (s.account h).outs ++ [h.refusal] := by
  by_cases hop : h.req.op = .write
  · simp [State.hostEnd, hop, State.hostCmp, hmute, State.hostGone, State.emit, HostReq.refusal]
  · simp [State.hostEnd, hop, State.hostData_uncached hmute, State.hostGone, State.emit, HostReq.refusal]

theorem State.hostRefuse_getLast? (hmute : h.mute = false) : (s.hostRefuse h).outs.getLast? = some h.refusal := by
  rw [State.hostRefuse, State.hostEnd_outs hmute, List.getLast?_concat]

theorem State.hostRefuse_hreqs (s : State) (h : HostReq) : ∀ g ∈ (s.hostRefuse h).hreqs, g.rid ≠ h.rid :=
  State.hreqs_hostGone _ _

end
end Sys2Proof.Machine
end

section
/-! SUPPORT. The obligation on CXL.mem requests (R17, R19, R44, R152, R155, R159, R160). -/

namespace Sys2Proof.Machine

section
variable {s : State} {l : Nat} {r : CxlReq} {fd : Finds}

/-- What acceptance on the way to a slice can change. -/
def acceptMask : Mask :=
  { links := true, pba := true, nextRid := true, hreqs := true, accs := true, slices := true, events := true, trc := true, trcCfg := true,
    ledger := true, bkt := true, due := true, irq := true, outs := true }

theorem exec_cxlMemRequest_of_accept {x t : State} (hx : x = s.atWork fd) (h : x.accept l r = t) :
    exec (.cxlMemRequest l r fd) s = .next { t with finds := s.finds } := by
  rw [← h, hx]
  rfl

/-- The access of a request that is decoded into the local window, sent to its line. -/
def State.localOf (s : State) (l : Nat) (r : CxlReq) : HostReq := s.localLine (s.hostOf l r)

theorem State.hostOf_of_local {off : Nat} (hdec : s.decode l r.dpa = some (0, off)) : (s.hostOf l r).win = .loc ∧ (s.hostOf l r).off = off := by
  simp [State.hostOf, State.newHost, hdec, decWin]

/-- The state in which that access goes to its slice. -/
def State.acceptedLocal (s : State) (l : Nat) (r : CxlReq) : State := (s.accepted l r 0).modReq s.nextRid fun _ => s.localOf l r

theorem State.acceptedLocal_only (s : State) (l : Nat) (r : CxlReq) :
    Only { links := true, pba := true, hreqs := true, nextRid := true, accs := true, trcCfg := true, events := true, trc := true } s
      (s.acceptedLocal l r) := (s.accepted_only l r 0).trans ((State.modReq_within _ _ _).only.mono rfl)

theorem State.mem_acceptedLocal (s : State) (l : Nat) (r : CxlReq) : s.localOf l r ∈ (s.acceptedLocal l r).hreqs :=
  State.mem_modReq (s.mem_accepted l r 0) fun _ => s.localOf l r

/-- That access has gone to its slice. -/
def State.sentLocal (s : State) (l : Nat) (r : CxlReq) : State := (s.acceptedLocal l r).hostIssue (s.localOf l r)

theorem State.sentLocal_issue (s : State) (l : Nat) (r : CxlReq) :
    Only { slices := true, hreqs := true } (s.acceptedLocal l r) (s.sentLocal l r) := (State.hostIssue_within _ _).only

theorem State.sentLocal_only (s : State) (l : Nat) (r : CxlReq) :
    Only { links := true, pba := true, hreqs := true, nextRid := true, accs := true, trcCfg := true, events := true, trc := true, slices := true } s
      (s.sentLocal l r) := ((s.acceptedLocal_only l r).mono rfl).trans ((s.sentLocal_issue l r).mono rfl)

theorem State.sentLocal_arrives (hwin : (s.localOf l r).win = .loc) :
    Arrives (sliceOf (s.localOf l r).la) (s.localOf l r).toReq s (s.sentLocal l r) := by
  have harrives := (s.acceptedLocal l r).hostIssue_arrives (s.localOf l r)
  rw [State.sliceFor_of_local _ hwin] at harrives
  simp only [Arrives, (s.acceptedLocal_only l r).slice rfl] at harrives
  exact harrives

theorem State.sentLocal_accs (s : State) (l : Nat) (r : CxlReq) :
    (s.sentLocal l r).accs = s.accs ++ [{ aid := 2 * s.nextRid, who := l, rd := r.op != .write, wr := r.op == .write }] :=
  (congrArg Prod.fst ((s.sentLocal_issue l r).accs rfl)).trans (s.accepted_accs l r 0)

theorem State.sentLocal_nextRid (s : State) (l : Nat) (r : CxlReq) : (s.sentLocal l r).nextRid = s.nextRid + 1 :=
  ((s.sentLocal_issue l r).nextRid rfl).trans (s.accepted_nextRid l r 0)

theorem State.sentLocal_credits (s : State) (l : Nat) (r : CxlReq) :
    ((s.sentLocal l r).link l).reqCr = (s.link l).reqCr - (if r.op = .write then 0 else 1) ∧
      ((s.sentLocal l r).link l).rwdCr = (s.link l).rwdCr - (if r.op = .write then 1 else 0) := by
  have hcr : ((s.sentLocal l r).link l).credits = ((s.accepted l r 0).link l).credits := (s.sentLocal_issue l r).credits rfl l
  simpa only [HLink.reqCr, HLink.rwdCr, hcr] using s.accepted_credits l r 0

theorem Grantable.accept_of_local {off : Nat} (h : Grantable s l r) (hlevel : 2 ≤ s.boot.level) (hserves : s.boot.withdrawn = false)
    (hdec : s.decode l r.dpa = some (0, off)) (hoff : off < s.winSize l 0) : s.accept l r = s.sentLocal l r := by
  obtain ⟨hwin, hhostOff⟩ := State.hostOf_of_local hdec
  have hkeeps := s.accepted_only l r 0
  have hactive : s.memActive = true := by
    have hzero : s.boot.level ≠ 0 := by omega
    simp [State.memActive, hserves, hzero]
  have hroom : (s.hostOf l r).off < (s.accepted l r 0).winSize (s.hostOf l r).link 0 := by
    rw [hhostOff, hkeeps.winSize_zero rfl rfl]
    exact hoff
  have hline : (s.accepted l r 0).localLine (s.hostOf l r) = s.localOf l r := by
    rw [State.localOf, State.localLine, State.localLine, hkeeps.nodeNo rfl]
  rw [h.accept_of_covered hdec hactive, State.hostRoute_of_local hwin hroom (by rw [hkeeps.boot rfl]; exact hlevel), hline]
  rfl

/-- A request inside the local window goes to the slice of its line. -/
theorem Grantable.exec_of_local {off : Nat} (h : Grantable s l r) (fd : Finds) (hlevel : 2 ≤ s.boot.level) (hserves : s.boot.withdrawn = false)
    (hdec : s.decode l r.dpa = some (0, off)) (hoff : off < s.winSize l 0) :
    ∃ t q, exec (.cxlMemRequest l r fd) s = .next t ∧
      Arrives (sliceOf (mkLa s.nodeNo (off / 64))) q s t ∧
      q.la = mkLa s.nodeNo (off / 64) ∧ q.src = .host s.nextRid ∧ q.data = r.data ∧ q.be = r.be ∧
      q.kind = (if r.op = .write then .write else .read) ∧ q.flat = false ∧ q.glob = false ∧
      (∃ h ∈ t.hreqs, h.rid = s.nextRid ∧ h.link = l ∧ h.req = r ∧ h.la = q.la ∧ h.t0 = s.clk ∧ h.ph = .slice) ∧
      t.accs = s.accs ++ [{ aid := 2 * s.nextRid, who := l, rd := r.op != .write, wr := r.op == .write }] ∧
      t.nextRid = s.nextRid + 1 ∧
      (t.link l).reqCr = (s.link l).reqCr - (if r.op = .write then 0 else 1) ∧
      (t.link l).rwdCr = (s.link l).rwdCr - (if r.op = .write then 1 else 0) ∧ Only acceptMask s t := by
  have hwork := s.atWork_only fd
  obtain ⟨x, hx⟩ := named (s.atWork fd)
  rw [← hx] at hwork
  have hrid := hwork.nextRid rfl
  have hdec' : x.decode l r.dpa = some (0, off) := (hwork.decode rfl rfl l r.dpa).trans hdec
  have haccept : x.accept l r = x.sentLocal l r :=
    (h.of_only hwork rfl rfl).accept_of_local (by rwa [hwork.boot rfl]) (by rwa [hwork.boot rfl]) hdec' (by rwa [hwork.winSize_zero rfl rfl])
  have hwin : (x.localOf l r).win = .loc := (State.hostOf_of_local hdec').1
  have hline : (x.localOf l r).la = mkLa s.nodeNo (off / 64) := by
    rw [State.localOf, State.localLine, (State.hostOf_of_local hdec').2, hwork.nodeNo rfl]
  have hgoes := State.sentLocal_arrives hwin
  simp only [Arrives, hline, hwork.slice rfl] at hgoes
  have hstands : ∃ h ∈ (x.sentLocal l r).hreqs,
      h.rid = s.nextRid ∧ h.link = l ∧ h.req = r ∧ h.la = (x.localOf l r).la ∧ h.t0 = s.clk ∧ h.ph = .slice := by
    rw [← hrid, ← hwork.clk rfl]
    exact State.mem_hostIssue (x.mem_acceptedLocal l r)
  have haccs := x.sentLocal_accs l r
  rw [hrid, show x.accs = s.accs from congrArg Prod.fst (hwork.accs rfl)] at haccs
  have hcredits := x.sentLocal_credits l r
  simp only [HLink.reqCr, HLink.rwdCr, hwork.credits rfl] at hcredits
  have honly : Only { acceptMask with finds := true } s (x.sentLocal l r) := (hwork.mono rfl).trans ((x.sentLocal_only l r).mono rfl)
  refine ⟨_, (x.localOf l r).toReq, exec_cxlMemRequest_of_accept hx haccept, ?_⟩
  exact ⟨hgoes, hline, congrArg Src.host hrid, rfl, rfl, HostReq.toReq_kind _, HostReq.toReq_flat hwin,
    HostReq.toReq_glob hwin, hstands, haccs, hrid ▸ x.sentLocal_nextRid l r, hcredits.1, hcredits.2, honly.resetFinds rfl⟩

/-- A request that no committed decoder covers, or while memory is not active, is answered at the port. -/
theorem Grantable.exec_of_uncovered (h : Grantable s l r) (fd : Finds)
    (hno : s.decode l r.dpa = none ∨ s.boot.level = 0 ∨ s.boot.withdrawn = true) :
    ∃ t, exec (.cxlMemRequest l r fd) s = .next t ∧ t.slices = s.slices ∧ t.nextRid = s.nextRid + 1 ∧
      t.outs.getLast? = some (if r.op = .write then .cmp l r.tag else .memData l r.tag Config.poisonLine true 0) ∧
      (∀ h ∈ t.hreqs, h.rid ≠ s.nextRid) := by
  have hwork := s.atWork_only fd
  obtain ⟨x, hx⟩ := named (s.atWork fd)
  rw [← hx] at hwork
  have hno' : x.decode l r.dpa = none ∨ x.memActive = false := by
    rw [hwork.decode rfl rfl, hwork.memActive rfl]
    exact hno.imp_right fun hoff => by rcases hoff with hoff | hoff <;> simp [State.memActive, hoff]
  obtain ⟨i, haccept⟩ := (h.of_only hwork rfl rfl).accept_of_uncovered hno'
  have hrefuse := ((x.accepted l r i).hostRefuse_within (x.hostOf l r)).only
  have hslices : ((x.accepted l r i).hostRefuse (x.hostOf l r)).slices = s.slices :=
    ((hrefuse.slices rfl).trans ((x.accepted_only l r i).slices rfl)).trans (hwork.slices rfl)
  have hnext : ((x.accepted l r i).hostRefuse (x.hostOf l r)).nextRid = s.nextRid + 1 := by
    rw [hrefuse.nextRid rfl, x.accepted_nextRid, hwork.nextRid rfl]
  have hgone := (x.accepted l r i).hostRefuse_hreqs (x.hostOf l r)
  rw [show (x.hostOf l r).rid = s.nextRid from hwork.nextRid rfl] at hgone
  refine ⟨_, exec_cxlMemRequest_of_accept hx haccept, ?_⟩
  exact ⟨hslices, hnext, State.hostRefuse_getLast? (h := x.hostOf l r) rfl, hgone⟩

/-! ### The handshake, and what is not accepted -/

theorem State.accept_of_conflict (hon : s.linkOn l = true) (hop : r.op = .biConflict) (hcr : 0 < (s.link l).rwdCr) :
    s.accept l r = (s.takeCredit l true).emit (.biConflictAck l r.tag) := by
  have hne : (s.link l).rwdCr ≠ 0 := by omega
  simp [State.accept, hon, hop, HLink.creditOf, hne]

theorem exec_biConflict (fd : Finds) (hon : s.linkOn l = true) (hop : r.op = .biConflict) (hcr : 0 < (s.link l).rwdCr) :
    ∃ t, exec (.cxlMemRequest l r fd) s = .next t ∧ t.outs.getLast? = some (.biConflictAck l r.tag) ∧
      (t.link l).rwdCr = (s.link l).rwdCr - 1 ∧ (t.link l).reqCr = (s.link l).reqCr ∧
      (∀ k, k ≠ l → (t.link k).credits = (s.link k).credits) ∧
      Only { links := true, pba := true, outs := true, events := true, trc := true, trcCfg := true, ledger := true, bkt := true,
             due := true, irq := true } s t := by
  have hwork := s.atWork_only fd
  obtain ⟨x, hx⟩ := named (s.atWork fd)
  rw [← hx] at hwork
  have hcr' : 0 < (x.link l).rwdCr := (hwork.linkField rfl (f := HLink.rwdCr) (fun _ => rfl) l).symm ▸ hcr
  have haccept := State.accept_of_conflict ((hwork.linkOn rfl rfl l).trans hon) hop hcr'
  have htaken := x.takeCredit_link l true
  simp only [HLink.reqCr, HLink.rwdCr, hwork.credits rfl] at htaken
  have honly : Only { links := true, pba := true, outs := true } x ((x.takeCredit l true).emit (.biConflictAck l r.tag)) :=
    ((x.takeCredit_within l true).only.mono rfl).trans rfl
  refine ⟨_, exec_cxlMemRequest_of_accept hx haccept, ?_⟩
  refine ⟨List.getLast?_concat, htaken.2, htaken.1, fun k hk => ?_, ?_⟩
  · exact (congrArg HLink.credits (x.takeCredit_link_ne true hk)).trans (hwork.credits rfl k)
  · exact Only.resetFinds ((hwork.mono rfl).trans (honly.mono rfl)) rfl

theorem State.accept_of_unsupported (hon : s.linkOn l = true) (hop : r.op = .unsupported) :
    s.accept l r = (s.emit (.cxlUnsupported l r.tag)).rec_ 0xFF (211 + l / 2) 0xFFFF r.dpa 0 := by
  simp [State.accept, hon, hop]

theorem exec_unsupported (fd : Finds) (hon : s.linkOn l = true) (hop : r.op = .unsupported) :
    ∃ t, exec (.cxlMemRequest l r fd) s = .next t ∧ .cxlUnsupported l r.tag ∈ t.outs ∧ t.hreqs = s.hreqs ∧ t.slices = s.slices ∧
      ∀ k, (t.link k).credits = (s.link k).credits := by
  have hwork := s.atWork_only fd
  obtain ⟨x, hx⟩ := named (s.atWork fd)
  rw [← hx] at hwork
  have haccept := State.accept_of_unsupported ((hwork.linkOn rfl rfl l).trans hon) hop
  have hrec := ((x.emit (.cxlUnsupported l r.tag)).rec__within 0xFF (211 + l / 2) 0xFFFF r.dpa 0).only
  refine ⟨_, exec_cxlMemRequest_of_accept hx haccept, ?_⟩
  refine ⟨?_, (hrec.hreqs rfl).trans (hwork.hreqs rfl), (hrec.slices rfl).trans (hwork.slices rfl),
    fun k => (hrec.credits rfl k).trans (hwork.credits rfl k)⟩
  exact State.mem_outs_rec (s := x.emit _) (List.mem_append_right _ (List.mem_singleton_self _)) _ _ _ _ _

theorem State.accept_of_off (hoff : s.linkOn l = false) : s.accept l r = s := by
  simp [State.accept, hoff]

theorem State.accept_of_no_credit (hop : r.op ≠ .unsupported) (hcr : (s.link l).creditOf (r.op == .write || r.op == .biConflict) = 0) :
    s.accept l r = s := by
  by_cases hon : s.linkOn l = true
  · by_cases hbi : r.op = .biConflict
    · have hnone : (s.link l).creditOf true = 0 := by simpa [hbi] using hcr
      simp [State.accept, hbi, hnone]
    · have hnone : (s.link l).creditOf (r.op == .write) = 0 := by rwa [beq_eq_false_iff_ne.2 hbi, Bool.or_false] at hcr
      simp [State.accept, hop, hbi, hnone]
  · exact State.accept_of_off (by simpa using hon)

end

/-- Settles O10 (R17, R19, R44, R152, R155, R159, R160): an accepted request goes to its slice by `State.hostIssue` or is answered by
`State.hostRefuse`; the handshake takes a write credit; else acceptance leaves the state. -/
theorem hostRequestIsAccepted : Obligations.HostRequestIsAccepted := by
  refine ⟨?slice, ?refused, fun s l r fd hon hop hcr => exec_biConflict fd hon hop hcr,
    fun s l r fd hon hop => exec_unsupported fd hon hop, ?idle⟩
  case slice =>
    intro s l off r fd hon hun hbi hcr hlevel hserves hdec hoff
    exact Grantable.exec_of_local ⟨hon, hun, hbi, hcr⟩ fd hlevel hserves hdec hoff
  case refused =>
    intro s l r fd hon hun hbi hcr hno
    exact Grantable.exec_of_uncovered ⟨hon, hun, hbi, hcr⟩ fd hno
  case idle =>
    intro s l r fd h
    have hwork := s.atWork_only fd
    refine congrArg Host.Outcome.next (State.finding_of_id ?_)
    rcases h with hoff | ⟨hop, hcr⟩
    · exact State.accept_of_off ((hwork.linkOn rfl rfl l).trans hoff)
    · exact State.accept_of_no_credit hop ((hwork.creditOf rfl l _).trans hcr)

end Sys2Proof.Machine
end

section
/-! SUPPORT. The counters of a counting unit (R450, R452, R461) and their routes (R451, R462). -/

namespace Sys2Proof.Machine

/-- Counter `i` of unit `u`. -/
def State.counter (s : State) (u i : Nat) : Cnt := Tab.get {} (s.tly u).cnt i

section
variable {s : State} {u i : Nat}

/-! ### One counter -/

theorem State.tly_modCnt_ne (s : State) (i : Nat) (f : Cnt → Cnt) {k : Nat} (hk : k ≠ u) : (s.modCnt u i f).tly k = s.tly k :=
  State.tly_setTly_ne _ _ _ _ hk

theorem State.counter_modCnt (s : State) (u i : Nat) (f : Cnt → Cnt) (v j : Nat) :
    (s.modCnt u i f).counter v j = if v = u ∧ j = i then f (s.counter v j) else s.counter v j := by
  by_cases hv : v = u
  · subst hv
    rw [State.counter, State.modCnt, State.tly_setTly_self, Tab.get_put]
    by_cases hj : j = i <;> simp [hj, State.counter]
  · rw [if_neg (fun h => hv h.1), State.counter, State.tly_modCnt_ne s i f hv, State.counter]

theorem State.counter_modCnt_self (s : State) (u i : Nat) (f : Cnt → Cnt) : (s.modCnt u i f).counter u i = f (s.counter u i) := by
  rw [State.counter_modCnt, if_pos ⟨rfl, rfl⟩]

theorem Only.counter {m : Mask} {t : State} (h : Only m s t) (hm : m.tlys = false) (v j : Nat) : t.counter v j = s.counter v j := by
  rw [State.counter, State.counter, State.tly, State.tly, h.tlys hm]

/-! ### START, STOP and COUNTER_CLEAR -/

/-- A counter after a write of its unit's control register: STOP wins over START (R450). -/
def Cnt.ctl (c : Cnt) (start stop clr : Bool) : Cnt :=
  { c with en := !stop && (start || c.en), count := if clr then 0 else c.count, ovf := c.ovf && !clr }

theorem Cnt.ctl_start (c : Cnt) (b : Bool) : c.ctl b false false = { c with en := c.en || b } := by simp [Cnt.ctl, Bool.or_comm]
theorem Cnt.ctl_stop (c : Cnt) (b : Bool) : c.ctl false b false = { c with en := c.en && !b } := by simp [Cnt.ctl, Bool.and_comm]
theorem Cnt.ctl_clear (c : Cnt) : c.ctl false false true = { c with count := 0, ovf := false } := by simp [Cnt.ctl]
theorem Cnt.ctl_idle (c : Cnt) : c.ctl false false false = c := by simp [Cnt.ctl]

/-- The write's effect on one counter. -/
def State.ctlAt (s : State) (u : Nat) (start stop : BitVec 8) (clr : Bool) (i : Nat) : State :=
  if !(start.getLsbD i || stop.getLsbD i || clr) then s else s.modCnt u i fun c => c.ctl (start.getLsbD i) (stop.getLsbD i) clr

theorem State.tlyCtl_eq (s : State) (u : Nat) (start stop : BitVec 8) (clr : Bool) :
    s.tlyCtl u start stop clr = (List.range 8).foldl (fun s i => s.ctlAt u start stop clr i) s := rfl

theorem State.ctlAt_self (s : State) (u : Nat) (start stop : BitVec 8) (clr : Bool) (i : Nat) :
    (s.ctlAt u start stop clr i).counter u i = (s.counter u i).ctl (start.getLsbD i) (stop.getLsbD i) clr := by
  unfold State.ctlAt
  split
  case isTrue hidle =>
    simp only [Bool.not_eq_true', Bool.or_eq_false_iff] at hidle
    rw [hidle.1.1, hidle.1.2, hidle.2, Cnt.ctl_idle]
  case isFalse => exact State.counter_modCnt_self _ _ _ _

theorem State.ctlAt_ne (s : State) (u : Nat) (start stop : BitVec 8) (clr : Bool) {i j : Nat} (hj : j ≠ i) :
    (s.ctlAt u start stop clr i).counter u j = s.counter u j := by
  unfold State.ctlAt
  split
  · rfl
  · rw [State.counter_modCnt, if_neg fun h => hj h.2]

theorem State.tlyCtl_counter (s : State) (u : Nat) (start stop : BitVec 8) (clr : Bool) (hi : i < 8) :
    (s.tlyCtl u start stop clr).counter u i = (s.counter u i).ctl (start.getLsbD i) (stop.getLsbD i) clr := by
  rw [State.tlyCtl_eq]
  exact (foldl_range_places (get := fun s i => State.counter s u i) (g := fun i c => c.ctl (start.getLsbD i) (stop.getLsbD i) clr)
    (fun _ _ => State.ctlAt_self _ _ _ _ _ _) (fun _ _ _ hj => State.ctlAt_ne _ _ _ _ _ hj) s 8 i).trans (if_pos hi)

theorem State.tlyCtl_start (s : State) (mask : BitVec 8) (hi : i < 8) :
    (s.tlyCtl u mask 0#8 false).counter u i = { s.counter u i with en := (s.counter u i).en || mask.getLsbD i } := by
  rw [State.tlyCtl_counter _ _ _ _ _ hi, BitVec.getLsbD_zero, Cnt.ctl_start]

theorem State.tlyCtl_stop (s : State) (mask : BitVec 8) (hi : i < 8) :
    (s.tlyCtl u 0#8 mask false).counter u i = { s.counter u i with en := (s.counter u i).en && !mask.getLsbD i } := by
  rw [State.tlyCtl_counter _ _ _ _ _ hi, BitVec.getLsbD_zero, Cnt.ctl_stop]

theorem State.tlyCtl_clear (s : State) (hi : i < 8) :
    (s.tlyCtl u 0#8 0#8 true).counter u i = { s.counter u i with count := 0, ovf := false } := by
  rw [State.tlyCtl_counter _ _ _ _ _ hi, BitVec.getLsbD_zero, Cnt.ctl_clear]

theorem State.tlyCtl_tly_ne (s : State) (start stop : BitVec 8) (clr : Bool) {k : Nat} (hk : k ≠ u) :
    (s.tlyCtl u start stop clr).tly k = s.tly k := by
  rw [State.tlyCtl_eq]
  refine List.foldlRecOn (motive := fun t => State.tly t k = s.tly k) _ _ rfl fun t ht i _ => ?_
  rw [← ht, State.ctlAt]
  split
  · rfl
  · exact State.tly_modCnt_ne _ _ _ hk

/-- A write of a unit's control register leaves the other units. -/
theorem State.tlyCtl_frame (s : State) (u : Nat) (start stop : BitVec 8) (clr : Bool) :
    (∀ k ≠ u, (s.tlyCtl u start stop clr).tly k = s.tly k) ∧ Only { tlys := true } s (s.tlyCtl u start stop clr) :=
  ⟨fun _ hk => s.tlyCtl_tly_ne _ _ _ hk, (s.tlyCtl_within u start stop clr).only⟩

section
variable {l : Nat}

theorem exec_start (hon : s.linkOn l = true) (hu : u < 96) (mask : BitVec 8) :
    exec (.start l u mask) s = .next (s.tlyCtl u mask 0#8 false) := by
  simp [exec, execStart, hon, hu]

theorem exec_stop (hon : s.linkOn l = true) (hu : u < 96) (mask : BitVec 8) :
    exec (.stop l u mask) s = .next (s.tlyCtl u 0#8 mask false) := by
  simp [exec, execStop, hon, hu]

theorem exec_counterClear (hon : s.linkOn l = true) (hu : u < 96) : exec (.counterClear l u) s = .next (s.tlyCtl u 0#8 0#8 true) := by
  simp [exec, execCounterClear, hon, hu]

/-! ### A read of a lower half (R452) -/

theorem exec_tallyLowHalfRead {o : Nat} (hon : s.linkOn l = true) (hlo : 0x80000 ≤ o) (hhi : o < 0x86000) (hal : o % 8 = 0) :
    exec (.tallyLowHalfRead l o) s = .next ((s.setTly ((o - 0x80000) / 0x100) { s.tly ((o - 0x80000) / 0x100) with
        latch := Tab.put 0 (s.tly ((o - 0x80000) / 0x100)).latch (o % 0x100) ((s.readReg o).toNat / 2 ^ 32) }).emit
      (.ioData l (BitVec.ofNat 64 ((s.readReg o).toNat % 2 ^ 32)))) := by
  simp [exec, execTallyLowHalfRead, hon, hlo, hhi, hal]

theorem State.emit_tly (s : State) (o : Out) (k : Nat) : (s.emit o).tly k = s.tly k := rfl

/-- A 32-bit read of an upper half in the tally registers is of the latch. -/
theorem State.read32_of_latch (s : State) {o : Nat} (hlo : 0x80000 ≤ o) (hhi : o < 0x86000) (hal : o % 8 = 0) :
    s.read32 (o + 4) = BitVec.ofNat 32 (Tab.get 0 (s.tly ((o - 0x80000) / 0x100)).latch (o % 0x100)) := by
  have hunit : (o + 4 - 0x80000) / 0x100 = (o - 0x80000) / 0x100 := by omega
  have hmid : (o + 4) % 8 = 4 := by omega
  have hmtu : o + 4 ≠ offMtu 0x14 := by simp only [offMtu]; omega
  have hlo' : 0x80000 ≤ o + 4 := by omega
  have hhi' : o + 4 < 0x86000 := by omega
  simp only [State.read32, hmid, beq_self_eq_true, beq_eq_false_iff_ne.2 hmtu, Bool.and_false, Bool.false_eq_true, if_false, hlo', hhi',
    decide_true, Bool.and_self, if_true, hunit, Nat.add_sub_cancel]

theorem ofNat_upper_half (w : Word) : BitVec.ofNat 32 (w.toNat / 2 ^ 32) = w.extractLsb' 32 32 := by
  rw [← Nat.shiftRight_eq_div_pow]
  rfl

/-- The lower half goes to the host, and the next read of the upper half returns the same value's. -/
theorem tallyLowHalfRead_shows {o : Nat} (hon : s.linkOn l = true) (hlo : 0x80000 ≤ o) (hhi : o < 0x86000) (hal : o % 8 = 0) :
    ∃ t, exec (.tallyLowHalfRead l o) s = .next t ∧ t.outs = s.outs ++ [.ioData l (BitVec.ofNat 64 ((s.readReg o).toNat % 2 ^ 32))] ∧
      t.read32 (o + 4) = (s.readReg o).extractLsb' 32 32 ∧ Only { tlys := true, outs := true } s t := by
  refine ⟨_, exec_tallyLowHalfRead hon hlo hhi hal, rfl, ?_, ?_⟩
  · rw [State.read32_of_latch _ hlo hhi hal, ← ofNat_upper_half, State.emit_tly, State.tly_setTly_self, Tab.get_put_self]
  · exact ((State.setTly_within _ _ _).only.mono rfl).trans rfl

end
end
end Sys2Proof.Machine
end

section
/-! SUPPORT. Routing counters to events (R451, R462): EVSEL_WRITE, TALLY_ROUTE and ROUTING_DONE. -/

namespace Sys2Proof.Machine

section
variable {s : State} {u i : Nat}

/-! ### One route -/

/-- A counter after a write of its event selection at clock `clk` (R451). -/
def Cnt.select (c : Cnt) (ev : BitVec 16) (clk : Nat) : Cnt := if c.evsel = ev then c else { c with evsel := ev, routing := true, routeAt := clk }

theorem State.setEvsel_eq (s : State) (u i : Nat) (ev : BitVec 16) : s.setEvsel u i ev = s.modCnt u i fun c => c.select ev s.clk :=
  congrArg (s.modCnt u i) (funext fun _ => ite_congr (propext beq_iff_eq) (fun _ => rfl) fun _ => rfl)

theorem State.counter_setEvsel_of_new {ev : BitVec 16} (hev : ev ≠ (s.counter u i).evsel) :
    (s.setEvsel u i ev).counter u i = { s.counter u i with evsel := ev, routing := true, routeAt := s.clk } := by
  rw [State.setEvsel_eq, State.counter_modCnt_self, Cnt.select, if_neg (Ne.symm hev)]

theorem State.setEvsel_tly_ne (s : State) (i : Nat) (ev : BitVec 16) {k : Nat} (hk : k ≠ u) : (s.setEvsel u i ev).tly k = s.tly k :=
  State.tly_modCnt_ne _ _ _ hk

theorem exec_evselWrite {l : Nat} (hon : s.linkOn l = true) (hu : u < 96) (hi : i < 8) (ev : BitVec 16) :
    exec (.evselWrite l u i ev) s = .next (if s.devState = 1 then s else s.setEvsel u i ev) := by
  by_cases hdev : s.devState = 1 <;> simp [exec, execEvselWrite, hon, hu, hi, State.rwlOpen, hdev]

/-! ### The routes of one TALLY_ROUTE -/

/-- An entry of TALLY_ROUTE: the unit, the counter and the event. -/
abbrev RouteEnt := BitVec 8 × BitVec 8 × BitVec 16

/-- The counter that an entry names. -/
def State.counterOf (s : State) (x : RouteEnt) : Cnt := s.counter x.1.toNat x.2.1.toNat

/-- A counter as an entry with event `ev` leaves it: stopped, cleared and routed. -/
def Cnt.routed (c : Cnt) (ev : BitVec 16) (clk : Nat) : Cnt := { c with en := false, count := 0, ovf := false }.select ev clk

theorem Cnt.routed_evsel (c : Cnt) (ev : BitVec 16) (clk : Nat) : (c.routed ev clk).evsel = ev := by
  by_cases hev : c.evsel = ev <;> simp [Cnt.routed, Cnt.select, hev]

/-- Stopped and cleared. -/
def Cnt.cleared (c : Cnt) : Prop := c.en = false ∧ c.count = 0 ∧ c.ovf = false

theorem Cnt.routed_cleared (c : Cnt) (ev : BitVec 16) (clk : Nat) : (c.routed ev clk).cleared := by
  by_cases hev : c.evsel = ev <;> simp [Cnt.routed, Cnt.select, hev, Cnt.cleared]

/-- A route is settled after an entry exactly where it was before and the event is the same. -/
theorem Cnt.routed_settled {c : Cnt} {ev : BitVec 16} {clk : Nat} : (c.routed ev clk).routing = false ↔ c.routing = false ∧ c.evsel = ev := by
  by_cases hev : c.evsel = ev <;> simp [Cnt.routed, Cnt.select, hev]

/-- The effect of one entry. -/
def State.routeOne (s : State) (x : RouteEnt) : State :=
  (s.modCnt x.1.toNat x.2.1.toNat fun c => { c with en := false, count := 0, ovf := false }).setEvsel x.1.toNat x.2.1.toNat x.2.2

theorem State.counter_routeOne (s : State) (x : RouteEnt) (v j : Nat) :
    (s.routeOne x).counter v j = if v = x.1.toNat ∧ j = x.2.1.toNat then (s.counter v j).routed x.2.2 s.clk else s.counter v j := by
  rw [State.routeOne, State.setEvsel_eq, State.counter_modCnt, State.counter_modCnt]
  split <;> rfl

/-- The effect of all entries, in order. -/
def State.routeAll (s : State) (es : List RouteEnt) : State := es.foldl State.routeOne s

theorem State.routeAll_cons (s : State) (x : RouteEnt) (es : List RouteEnt) : s.routeAll (x :: es) = (s.routeOne x).routeAll es :=
  List.foldl_cons

theorem State.tallyRouteGo_eq (s : State) (es : List RouteEnt) : s.tallyRouteGo es = (s.routeAll es).routesSettled := rfl

theorem State.routeAll_only (s : State) (es : List RouteEnt) : Only { tlys := true } s (s.routeAll es) :=
  Only.foldl (fun x _ => ((x.modCnt_within _ _ _).only).trans (State.setEvsel_within _ _ _ _).only) es s

/-- What holds of a counter and is kept by every entry holds after all of them. -/
theorem State.routeAll_induction {p : Cnt → Prop} (hp : ∀ c ev clk, p c → p (Cnt.routed c ev clk)) (es : List RouteEnt) {s : State} {v j : Nat}
    (h : p (s.counter v j)) : p ((s.routeAll es).counter v j) :=
  List.foldlRecOn (motive := fun t => p (State.counter t v j)) es _ h fun t ht x _ => by
    rw [State.counter_routeOne]
    split
    · exact hp _ _ _ ht
    · exact ht

theorem State.routeAll_counter_of_unnamed (es : List RouteEnt) {s : State} {v j : Nat} (h : ∀ x ∈ es, ¬ (x.1.toNat = v ∧ x.2.1.toNat = j)) :
    (s.routeAll es).counter v j = s.counter v j :=
  List.foldlRecOn (motive := fun t => State.counter t v j = s.counter v j) es _ rfl fun t ht x hx => by
    rw [State.counter_routeOne, if_neg fun hc => h x hx ⟨hc.1.symm, hc.2.symm⟩, ht]

/-- Every counter that an entry names is stopped and cleared. -/
theorem State.routeAll_cleared (es : List RouteEnt) {s : State} : ∀ x ∈ es, ((s.routeAll es).counterOf x).cleared := by
  induction es generalizing s with
  | nil => exact fun x hx => absurd hx List.not_mem_nil
  | cons a es ih =>
    intro x hx
    rw [State.routeAll_cons]
    rcases List.mem_cons.1 hx with rfl | hx
    · refine State.routeAll_induction (p := Cnt.cleared) (fun c ev clk _ => c.routed_cleared ev clk) es ?_
      rw [State.counter_routeOne, if_pos ⟨rfl, rfl⟩]
      exact Cnt.routed_cleared _ _ _
    · exact ih x hx

/-- Where no counter is named twice, each is routed to its entry's event. -/
theorem State.routeAll_evsel (es : List RouteEnt) {s : State} (hnd : (es.map fun x => (x.1, x.2.1)).Nodup) :
    ∀ x ∈ es, ((s.routeAll es).counterOf x).evsel = x.2.2 := by
  induction es generalizing s with
  | nil => exact fun x hx => absurd hx List.not_mem_nil
  | cons a es ih =>
    obtain ⟨hnew, hnd⟩ := List.nodup_cons.1 hnd
    intro x hx
    rw [State.routeAll_cons]
    rcases List.mem_cons.1 hx with rfl | hx
    · have hlast : ((s.routeOne x).routeAll es).counterOf x = (s.routeOne x).counterOf x := by
        refine State.routeAll_counter_of_unnamed es fun y hy hsame => hnew (List.mem_map.2 ⟨y, hy, ?_⟩)
        exact Prod.ext (BitVec.eq_of_toNat_eq hsame.1) (BitVec.eq_of_toNat_eq hsame.2)
      rw [hlast, State.counterOf, State.counter_routeOne, if_pos ⟨rfl, rfl⟩, Cnt.routed_evsel]
    · exact ih hnd x hx

/-- Routes under way stay under way. -/
theorem State.routeAll_routing (es : List RouteEnt) {s : State} {v j : Nat} (h : ((s.routeAll es).counter v j).routing = false) :
    (s.counter v j).routing = false := by
  by_contra hon
  have hstays := State.routeAll_induction (p := fun c => ¬ c.routing = false) (fun c ev clk hc hd => hc (Cnt.routed_settled.1 hd).1) es hon
  exact hstays h

/-- An entry leaves a route settled only where it was settled with the same event. -/
theorem State.routeOne_settled {x : RouteEnt} {v j : Nat} (h : ((s.routeOne x).counter v j).routing = false) :
    (s.counter v j).routing = false ∧ ((s.routeOne x).counter v j).evsel = (s.counter v j).evsel := by
  rw [State.counter_routeOne] at h ⊢
  by_cases hkey : v = x.1.toNat ∧ j = x.2.1.toNat
  · rw [if_pos hkey] at h ⊢
    obtain ⟨hoff, hev⟩ := Cnt.routed_settled.1 h
    exact ⟨hoff, by rw [Cnt.routed_evsel, hev]⟩
  · rw [if_neg hkey] at h ⊢
    exact ⟨h, rfl⟩

/-- After all entries a named counter's route is settled only where it selected that event before. -/
theorem State.routeAll_settled (es : List RouteEnt) {s : State} :
    ∀ x ∈ es, ((s.routeAll es).counterOf x).routing = false → (s.counterOf x).evsel = x.2.2 := by
  induction es generalizing s with
  | nil => exact fun x hx => absurd hx List.not_mem_nil
  | cons a es ih =>
    intro x hx hoff
    rw [State.routeAll_cons] at hoff
    have hfirst : ((s.routeOne a).counterOf x).routing = false := State.routeAll_routing es hoff
    rcases List.mem_cons.1 hx with rfl | hx
    · rw [State.counterOf, State.counter_routeOne, if_pos ⟨rfl, rfl⟩] at hfirst
      exact (Cnt.routed_settled.1 hfirst).2
    · exact (State.routeOne_settled hfirst).2.symm.trans (ih x hx hoff)

/-- Where every named counter already counts its entry's event, every route stays settled. -/
theorem State.routeAll_unchanged (es : List RouteEnt) {s : State}
    (h : ∀ x ∈ es, (s.counterOf x).evsel = x.2.2 ∧ (s.counterOf x).routing = false) :
    ∀ x ∈ es, ((s.routeAll es).counterOf x).routing = false := by
  have hkeeps : ∀ x ∈ es, ((s.routeAll es).counterOf x).evsel = x.2.2 ∧ ((s.routeAll es).counterOf x).routing = false := by
    refine List.foldlRecOn (motive := fun t => ∀ x ∈ es, (State.counterOf t x).evsel = x.2.2 ∧ (State.counterOf t x).routing = false) es _ h
      fun t ht a ha x hx => ?_
    obtain ⟨hev, hoff⟩ := ht x hx
    rw [State.counterOf, State.counter_routeOne]
    split
    case isTrue hsame =>
      have hone : (State.counter t x.1.toNat x.2.1.toNat).evsel = a.2.2 := by
        rw [hsame.1, hsame.2]
        exact (ht a ha).1
      exact ⟨by rw [Cnt.routed_evsel, ← hone]; exact hev, Cnt.routed_settled.2 ⟨hoff, hone⟩⟩
    case isFalse => exact ⟨hev, hoff⟩
  exact fun x hx => (hkeeps x hx).2

/-! ### The reply -/

variable {r : Run} {es : List RouteEnt}

theorem State.routesSettled_of_idle (hrun : s.mgt.running = []) : s.routesSettled = s := by
  rw [State.routesSettled, hrun, List.foldl_nil]

theorem State.routesSettled_of_waiting (hrun : s.mgt.running = [r]) (hbody : r.body = .tallyRoute es)
    (hwaits : ∃ x ∈ es, (s.counterOf x).routing = true) : s.routesSettled = s := by
  have hany : (es.any fun e => (Tab.get {} (s.tly e.1.toNat).cnt e.2.1.toNat).routing) = true := List.any_eq_true.2 hwaits
  simp only [State.routesSettled, hrun, List.foldl_cons, List.foldl_nil, hbody, hany, if_true]

theorem State.routesSettled_of_settled (hrun : s.mgt.running = [r]) (hbody : r.body = .tallyRoute es)
    (hsettled : ∀ x ∈ es, (s.counterOf x).routing = false) : s.routesSettled = s.cmdEnd r.id stOK (leBytes 4 es.length) := by
  have hany : (es.any fun e => (Tab.get {} (s.tly e.1.toNat).cnt e.2.1.toNat).routing) = false := by
    rw [List.any_eq_false]
    exact fun x hx => ne_true_of_eq_false (hsettled x hx)
  simp only [State.routesSettled, hrun, List.foldl_cons, List.foldl_nil, hbody, hany, Bool.false_eq_true, if_false]

/-! ### The command -/

variable {h : CmdHdr} {e : Nat}

theorem length_tallyRoute_params (es : List RouteEnt) : (cmdParams (.tallyRoute es)).length = 2 + 4 * es.length := by
  induction es with
  | nil => rfl
  | cons a es ih =>
    simp only [cmdParams, List.length_append, List.flatMap_cons, length_leBytes, List.length_cons, List.length_nil] at ih ⊢
    omega

/-- The parameters of a command whose header is sound are as many as its row admits (R433 step 4). -/
theorem hdrCheck_fits {b : CmdBody} {info : CmdInfo} (hsound : hdrCheck h b = stOK) (hinfo : cmdInfo (cmdOpc b) = some info) :
    info.least ≤ (cmdParams b).length ∧ (cmdParams b).length ≤ info.most := by
  by_contra hno
  have hfits : (h.plen == (cmdParams b).length && info.least ≤ (cmdParams b).length && (cmdParams b).length ≤ info.most) = false := by
    simpa [and_assoc] using fun _ : h.plen = (cmdParams b).length => not_and.1 hno
  simp only [hdrCheck, hinfo, hfits, Bool.not_false, Bool.or_true, Bool.true_or, if_true] at hsound
  split at hsound
  · exact absurd hsound (by decide)
  · split at hsound <;> exact absurd hsound (by decide)

/-- A sound TALLY_ROUTE has 1 to 768 entries (Table 17.5). -/
theorem Issued.tallyRoute_length (hi : Issued s h (.tallyRoute es) e) : 1 ≤ es.length ∧ es.length ≤ 768 := by
  have hinfo : cmdInfo (cmdOpc (.tallyRoute es)) = some ⟨true, false, true, 1, .none, 6, 3074⟩ := rfl
  have hfits : 6 ≤ 2 + 4 * es.length ∧ 2 + 4 * es.length ≤ 3074 := length_tallyRoute_params es ▸ hdrCheck_fits hi.sound hinfo
  omega

/-- The entry names a counter of the E9 and an event that it lists. -/
def State.fitsRoute (s : State) (x : RouteEnt) : Prop := x.1.toNat < 96 ∧ x.2.1.toNat < 8 ∧ s.eventListed x.2.2.toNat = true

theorem Issued.tallyRouteCheck_of_good (hi : Issued s h (.tallyRoute es) e) (hgood : ∀ x ∈ es, s.fitsRoute x) : s.tallyRouteCheck es = stOK := by
  obtain ⟨h1, h2⟩ := hi.tallyRoute_length
  have hall : (es.all fun e => e.1.toNat < 96 && e.2.1.toNat < 8 && s.eventListed e.2.2.toNat) = true := by
    simpa [State.fitsRoute, and_assoc] using hgood
  rw [State.tallyRouteCheck, hall]
  simp [h1, h2]

theorem State.tallyRouteCheck_of_bad (hbad : ∃ x ∈ es, ¬ s.fitsRoute x) : s.tallyRouteCheck es = stBadParam := by
  have hall : (es.all fun e => e.1.toNat < 96 && e.2.1.toNat < 8 && s.eventListed e.2.2.toNat) = false := by
    simpa [State.fitsRoute] using hbad
  rw [State.tallyRouteCheck, hall, Bool.and_false]
  rfl

theorem State.not_fitsRoute {x : RouteEnt} (hbad : 96 ≤ x.1.toNat ∨ 8 ≤ x.2.1.toNat ∨ s.eventListed x.2.2.toNat = false) :
    ¬ s.fitsRoute x := by
  rintro ⟨hu, hc, hev⟩
  rcases hbad with hbad | hbad | hbad
  · omega
  · omega
  · rw [hev] at hbad
    exact absurd hbad (by decide)

/-- A TALLY_ROUTE whose entries all fit sets every route, and replies where none has to settle. -/
theorem Issued.exec_tallyRoute (hi : Issued s h (.tallyRoute es) e) (hgood : ∀ x ∈ es, s.fitsRoute x) :
    exec (.tallyRoute h es) s = .next { (s.executing h (.tallyRoute es)).tallyRouteGo es with finds := s.finds } := by
  have hcheck := hi.tallyRouteCheck_of_good hgood
  refine congrArg Host.Outcome.next (hi.takesEffect hcheck hcheck rfl ?_)
  obtain ⟨x, hx⟩ := named ((s.executing h (.tallyRoute es)).routeAll es)
  have hclerks := (State.routeAll_only (s.executing h (.tallyRoute es)) es).clerks rfl
  rw [← hx] at hclerks
  have hgo : (s.executing h (.tallyRoute es)).tallyRouteGo es = x.routesSettled := by rw [hx]; rfl
  show ((s.executing h (.tallyRoute es)).tallyRouteGo es).mgt.queue = []
  rw [hgo]
  by_cases hwaits : ∃ y ∈ es, (x.counterOf y).routing = true
  · rw [State.routesSettled_of_waiting hclerks.2 rfl hwaits]
    exact hclerks.1
  · rw [State.routesSettled_of_settled hclerks.2 rfl (by simpa using hwaits)]
    exact (State.cmdEnd_replied (s := x) (r := s.runOf h (.tallyRoute es)) hclerks.2 hclerks.1 hi.via _ _).2.1

/-- The counters are as the entries leave them. -/
theorem State.tallyRouteGo_counter (s : State) (es : List RouteEnt) (v j : Nat) : (s.tallyRouteGo es).counter v j = (s.routeAll es).counter v j :=
  (State.routesSettled_within _).only.counter rfl v j

/-- Where the counters already count these events, the reply goes out at once. -/
theorem Issued.tallyRoute_replies (hi : Issued s h (.tallyRoute es) e)
    (hsame : ∀ x ∈ es, (s.counterOf x).evsel = x.2.2 ∧ (s.counterOf x).routing = false) :
    Replied h e 0x0701 0 (leBytes 4 es.length) s ((s.executing h (.tallyRoute es)).tallyRouteGo es) ∧
      Only { tlys := true, mgtq := true, outs := true, events := true } s
        { (s.executing h (.tallyRoute es)).tallyRouteGo es with finds := s.finds } := by
  have hsettled := State.routeAll_unchanged (s := s.executing h (.tallyRoute es)) es hsame
  have honly := State.routeAll_only (s.executing h (.tallyRoute es)) es
  have hgo := State.tallyRouteGo_eq (s.executing h (.tallyRoute es)) es
  obtain ⟨x, hx⟩ := named ((s.executing h (.tallyRoute es)).routeAll es)
  rw [← hx] at hsettled honly hgo
  have hrun : x.mgt.running = [s.runOf h (.tallyRoute es)] := (honly.clerks rfl).2
  have hreply := State.cmdEnd_replied hrun (honly.clerks rfl).1 hi.via stOK (leBytes 4 es.length)
  rw [State.routesSettled_of_settled hrun rfl hsettled] at hgo
  have hend := State.cmdEnd_only hrun hi.via stOK (leBytes 4 es.length)
  rw [hgo]
  refine ⟨?_, Only.of_executing ((honly.mono rfl).trans (hend.mono rfl)) rfl⟩
  obtain ⟨houts, hfree⟩ := hreply
  rw [honly.outs rfl] at houts
  exact ⟨houts, hfree⟩

/-- Where some counter counts another event, the command goes on. -/
theorem Issued.tallyRoute_waits (hother : ∃ x ∈ es, (s.counterOf x).evsel ≠ x.2.2) :
    ((s.executing h (.tallyRoute es)).tallyRouteGo es).outs = s.outs ∧
      Only { tlys := true, mgtq := true } s { (s.executing h (.tallyRoute es)).tallyRouteGo es with finds := s.finds } ∧
      ∃ r : Run, ((s.executing h (.tallyRoute es)).tallyRouteGo es).mgt.running = [r] ∧ r.body = .tallyRoute es := by
  have honly := State.routeAll_only (s.executing h (.tallyRoute es)) es
  have hwaits : ∃ x ∈ es, (((s.executing h (.tallyRoute es)).routeAll es).counterOf x).routing = true := by
    obtain ⟨x, hx, hne⟩ := hother
    refine ⟨x, hx, ?_⟩
    by_contra hoff
    exact hne (State.routeAll_settled (s := s.executing h (.tallyRoute es)) es x hx (by simpa using hoff))
  rw [State.tallyRouteGo_eq, State.routesSettled_of_waiting (honly.clerks rfl).2 rfl hwaits]
  exact ⟨honly.outs rfl, Only.of_executing (honly.mono rfl) rfl, _, (honly.clerks rfl).2, rfl⟩

/-! ### ROUTING_DONE -/

/-- The route of one counter settled. -/
def State.oneSettled (s : State) (u i : Nat) : State := s.modCnt u i fun c => { c with routing := false }

theorem exec_routingDone (hpow : s.powered = true) (hu : u < 96) (hi : i < 8) :
    exec (.routingDone u i) s = .next (if (s.counter u i).routing then (s.oneSettled u i).routesSettled else s) := by
  simp only [exec, execRoutingDone, hpow, hu, hi, decide_true, Bool.and_self, if_true]
  rfl

theorem State.oneSettled_only (s : State) (u i : Nat) : Only { tlys := true } s (s.oneSettled u i) := (State.modCnt_within _ _ _ _).only

theorem State.oneSettled_counter (s : State) (u i : Nat) : (s.oneSettled u i).counter u i = { s.counter u i with routing := false } :=
  State.counter_modCnt_self _ _ _ _

/-- The last route of a TALLY_ROUTE that runs alone lets it reply. -/
theorem State.oneSettled_replies (hrun : s.mgt.running = [r]) (hq : s.mgt.queue = []) (hbody : r.body = .tallyRoute es) (hvia : r.hdr.via = .mctp e)
    (hlast : ∀ y ∈ es, (s.counterOf y).routing = true → y.1.toNat = u ∧ y.2.1.toNat = i) :
    ((s.oneSettled u i).routesSettled.counter u i).routing = false ∧
      Replied r.hdr e 0x0701 0 (leBytes 4 es.length) s (s.oneSettled u i).routesSettled ∧
      Only { tlys := true, mgtq := true, outs := true, events := true } s (s.oneSettled u i).routesSettled := by
  have honly := s.oneSettled_only u i
  have hself := s.oneSettled_counter u i
  have hsettled : ∀ y ∈ es, ((s.oneSettled u i).counterOf y).routing = false := by
    intro y hy
    rw [State.counterOf, State.oneSettled, State.counter_modCnt]
    split
    case isTrue => rfl
    case isFalse hkey => exact Bool.eq_false_iff.2 fun hon => hkey (hlast y hy hon)
  obtain ⟨x, hx⟩ := named (s.oneSettled u i)
  rw [← hx] at honly hself hsettled ⊢
  have hrun' : x.mgt.running = [r] := (honly.clerks rfl).2.trans hrun
  rw [State.routesSettled_of_settled hrun' hbody hsettled]
  obtain ⟨houts, hfree⟩ := State.cmdEnd_replied hrun' ((honly.clerks rfl).1.trans hq) hvia stOK (leBytes 4 es.length)
  rw [honly.outs rfl, hbody] at houts
  refine ⟨?_, ⟨houts, hfree⟩, (honly.mono rfl).trans ((State.cmdEnd_only hrun' hvia _ _).mono rfl)⟩
  rw [(State.cmdEnd_within _ _ _ _).only.counter rfl, hself]

end
end Sys2Proof.Machine
end

section
/-! SUPPORT. The trace unit's setup and capture (R455, R458, R462). -/

namespace Sys2Proof.Machine

section
variable {s : State}

theorem Only.csrGet_all {m : Mask} {t : State} (k : Only m s t) (hm : m.csr = false) (htrc : m.trcCfg = false) (o : Nat) :
    t.csrGet o = s.csrGet o := by
  by_cases ho : o = offTrc 0
  · subst ho
    exact k.trcCfg htrc
  · exact k.csrGet hm ho

/-- The trace unit as CAPTURE leaves it: nothing captured (R458). -/
def Trc.restarted (x : Trc) : Trc := { x with next := 0, wraps := 0, dropped := 0, full := false, triggered := false, postLeft := none }

theorem State.trcCfgWrite_csrGet (s : State) (v : Word) (o : Nat) :
    (s.trcCfgWrite v).csrGet o = if o = offTrc 0 then v &&& 0xC0FFFF00FFF0FFFF#64 else s.csrGet o := by
  rw [← State.csrGet_csrPut, State.trcCfgWrite]
  split <;> rfl

theorem State.trcCfgWrite_trc (s : State) (v : Word) : (s.trcCfgWrite v).trc = if v.getLsbD 63 then s.trc.restarted else s.trc := by
  rw [State.trcCfgWrite, fbit]
  split <;> rfl

/-! ### CAPTURE -/

theorem setFld_top_one (w : Word) : setFld w 63 1 1 = w ||| 0x8000000000000000#64 := by
  have hm : ∀ m : Word, (w &&& ~~~m) ||| m = w ||| m := by
    intro m
    ext i hi
    simp only [BitVec.getElem_or, BitVec.getElem_and, BitVec.getElem_not]
    cases w[i] <;> cases m[i] <;> rfl
  exact hm 0x8000000000000000#64

theorem exec_capture {l : Nat} (hon : s.linkOn l = true) :
    exec (.capture l) s = .next (s.trcCfgWrite (s.trcCfg ||| 0x8000000000000000#64)) := by
  rw [← setFld_top_one]
  exact congrArg Host.Outcome.next (if_pos hon)

theorem State.capture_shows (s : State) :
    (s.trcCfgWrite (s.trcCfg ||| 0x8000000000000000#64)).trcCfg = (s.trcCfg ||| 0x8000000000000000#64) &&& 0xC0FFFF00FFF0FFFF#64 ∧
      (s.trcCfgWrite (s.trcCfg ||| 0x8000000000000000#64)).trc = s.trc.restarted ∧
      (∀ o, o ≠ offTrc 0 → (s.trcCfgWrite (s.trcCfg ||| 0x8000000000000000#64)).csrGet o = s.csrGet o) ∧
      Only { csr := true, trcCfg := true, trc := true } s (s.trcCfgWrite (s.trcCfg ||| 0x8000000000000000#64)) := by
  have htop : (s.trcCfg ||| 0x8000000000000000#64).getLsbD 63 = true := by simp
  exact ⟨(s.trcCfgWrite_csrGet _ _).trans (if_pos rfl), (s.trcCfgWrite_trc _).trans (if_pos htop),
    fun o ho => (s.trcCfgWrite_csrGet _ o).trans (if_neg ho), (s.trcCfgWrite_within _).only⟩

/-! ### TRACE_SETUP -/

theorem State.traceSetupGo_csrGet (s : State) (f0 f1 f2 cfg : Word) :
    (s.traceSetupGo f0 f1 f2 cfg).csrGet (offTrc 8) = f0 ∧ (s.traceSetupGo f0 f1 f2 cfg).csrGet (offTrc 0x10) = f1 ∧
      (s.traceSetupGo f0 f1 f2 cfg).csrGet (offTrc 0x18) = f2 &&& 0xFFFF#64 ∧
      (s.traceSetupGo f0 f1 f2 cfg).csrGet (offTrc 0) = cfg &&& 0xC0FFFF00FFF0FFFF#64 := by
  simp [State.traceSetupGo, State.trcCfgWrite_csrGet, State.csrGet_csrPut, offTrc]

theorem State.traceSetupGo_trc (s : State) (f0 f1 f2 cfg : Word) :
    (s.traceSetupGo f0 f1 f2 cfg).trc = if cfg.getLsbD 63 then s.trc.restarted else s.trc := State.trcCfgWrite_trc _ _

variable {h : CmdHdr} {e : Nat} {f0 f1 f2 cfg : Word}

theorem Issued.traceSetup (hi : Issued s h (.traceSetup f0 f1 f2 cfg) e) :
    ∃ t, exec (.traceSetup h f0 f1 f2 cfg) s = .next t ∧
      t.csrGet (offTrc 8) = f0 ∧ t.csrGet (offTrc 0x10) = f1 ∧ t.csrGet (offTrc 0x18) = f2 &&& 0xFFFF#64 ∧
      t.trcCfg = cfg &&& 0xC0FFFF00FFF0FFFF#64 ∧
      t.trc = (if cfg.getLsbD 63 then s.trc.restarted else s.trc) ∧
      Replied h e 0x0710 0 (leBytes 8 t.trcSts.toNat) s t ∧
      Only { csr := true, trcCfg := true, trc := true, mgtq := true, outs := true, events := true } s t := by
  obtain ⟨x, hx⟩ := named ((s.executing h (.traceSetup f0 f1 f2 cfg)).traceSetupGo f0 f1 f2 cfg)
  have hsetup := ((s.executing h (.traceSetup f0 f1 f2 cfg)).traceSetupGo_within f0 f1 f2 cfg).only
  have hregs := (s.executing h (.traceSetup f0 f1 f2 cfg)).traceSetupGo_csrGet f0 f1 f2 cfg
  have htrc := (s.executing h (.traceSetup f0 f1 f2 cfg)).traceSetupGo_trc f0 f1 f2 cfg
  rw [← hx] at hsetup hregs htrc
  have hrun : x.mgt.running = [s.runOf h (.traceSetup f0 f1 f2 cfg)] := (hsetup.clerks rfl).2
  obtain ⟨houts, hfree⟩ := State.cmdEnd_replied hrun (hsetup.clerks rfl).1 hi.via stOK (leBytes 8 x.trcSts.toNat)
  rw [hsetup.outs rfl] at houts
  have hend := State.cmdEnd_only hrun hi.via stOK (leBytes 8 x.trcSts.toNat)
  have hgo : (s.executing h (.traceSetup f0 f1 f2 cfg)).bodyGo (s.runOf h (.traceSetup f0 f1 f2 cfg)).id (.traceSetup f0 f1 f2 cfg) =
      x.cmdEnd (s.runOf h (.traceSetup f0 f1 f2 cfg)).id stOK (leBytes 8 x.trcSts.toNat) := by rw [hx]; rfl
  have hexec := hi.takesEffect rfl rfl rfl (by rw [hgo]; exact hfree.1)
  rw [hgo] at hexec
  have honly : Only { csr := true, trcCfg := true, trc := true, mgtq := true, outs := true, events := true }
      (s.executing h (.traceSetup f0 f1 f2 cfg)) (x.cmdEnd (s.runOf h (.traceSetup f0 f1 f2 cfg)).id stOK (leBytes 8 x.trcSts.toNat)) :=
    (hsetup.mono rfl).trans (hend.mono rfl)
  obtain ⟨y, hy⟩ := named (x.cmdEnd (s.runOf h (.traceSetup f0 f1 f2 cfg)).id stOK (leBytes 8 x.trcSts.toNat))
  rw [← hy] at hend hexec honly houts hfree
  have hget : ∀ o, y.csrGet o = x.csrGet o := hend.csrGet_all rfl rfl
  have hsts : y.trcSts = x.trcSts := by rw [State.trcSts, State.trcSts, hend.trc rfl]
  obtain ⟨h8, h10, h18, h0⟩ := hregs
  rw [← hsts] at houts
  exact ⟨_, congrArg Host.Outcome.next hexec, (hget _).trans h8, (hget _).trans h10, (hget _).trans h18, (hget _).trans h0,
    (hend.trc rfl).trans htrc, ⟨houts, hfree⟩, honly.of_executing rfl⟩

end
end Sys2Proof.Machine
end

section
/-! SUPPORT. The obligation on counters, routes, trace and bound counts (R164, R250, R450-R452, R455, R458, R461, R462). -/

namespace Sys2Proof.Machine

section
variable {s : State} {p : Nat}

/-- A link with its bound counts cleared; one that clock `clk` has counted up stays at 1 (R250, R251). -/
def HLink.boundsCleared (x : HLink) (clk : Nat) : HLink :=
  { x with overrun := if x.overClk = clk then 1 else 0, voided := if x.voidClk = clk then 1 else 0, extended := if x.extClk = clk then 1 else 0 }

theorem State.boundClear_eq (s : State) (p : Nat) :
    s.boundClear p = (s.modLink (2 * p) fun x => x.boundsCleared (s.clk + 1)).modLink (2 * p + 1) fun x => x.boundsCleared (s.clk + 1) := by
  simp only [State.boundClear, HLink.boundsCleared, beq_iff_eq]

theorem State.boundClear_link (s : State) (p k : Nat) :
    (s.boundClear p).link k = if k / 2 = p then (s.link k).boundsCleared (s.clk + 1) else s.link k := by
  rw [State.boundClear_eq]
  by_cases hodd : k = 2 * p + 1
  · subst hodd
    rw [State.link_modLink_self, State.link_modLink_ne _ _ (by omega), if_pos (by omega)]
  · rw [State.link_modLink_ne _ _ hodd]
    by_cases heven : k = 2 * p
    · subst heven
      rw [State.link_modLink_self, if_pos (by omega)]
    · rw [State.link_modLink_ne _ _ heven, if_neg (by omega)]

theorem exec_boundClear {l : Nat} (hon : s.linkOn l = true) (hp : p < s.part.hostPorts) : exec (.boundClear l p) s = .next (s.boundClear p) := by
  simp [exec, execBoundClear, hon, hp]

end

/-- Settles O56 (R164, R250, R450-R452, R455, R458, R461, R462): a TALLY_ROUTE sets its routes one after another (`State.routeAll`) and
replies when none has to settle; the unit's control writes act counter by counter (`Cnt.ctl`). -/
theorem tallyAndTrace : Obligations.TallyAndTrace := by
  refine ⟨?route, ?settle, ?units, fun s h e f0 f1 f2 cfg hi => hi.traceSetup, ?capture⟩
  case route =>
    intro s h e es hi
    have hcounter := (s.executing h (.tallyRoute es)).tallyRouteGo_counter es
    refine ⟨fun ⟨x, hx, hbad⟩ => ?_,
      fun hgood => ⟨_, hi.exec_tallyRoute hgood, ?_, fun hnd => ?_, ?_, hi.tallyRoute_replies, Issued.tallyRoute_waits⟩⟩
    · exact ⟨_, rfl, hi.badOperand (State.tallyRouteCheck_of_bad ⟨x, hx, State.not_fitsRoute hbad⟩) (.inr rfl)⟩
    · intro x hx
      have hcleared : (((s.executing h (.tallyRoute es)).tallyRouteGo es).counterOf x).cleared := by
        rw [State.counterOf, hcounter]
        exact State.routeAll_cleared es x hx
      exact hcleared
    · exact fun x hx => (congrArg Cnt.evsel (hcounter _ _)).trans (State.routeAll_evsel (s := s.executing h (.tallyRoute es)) es hnd x hx)
    · exact fun u i hno => (hcounter u i).trans (State.routeAll_counter_of_unnamed (s := s.executing h (.tallyRoute es)) es hno)
  case settle =>
    intro s u i hpow hu hi
    have hexec := exec_routingDone hpow hu hi
    refine ⟨fun hoff => hexec.trans (congrArg Host.Outcome.next (if_neg (ne_true_of_eq_false hoff))), fun hon hrun => ?_,
      fun x es e hon hrun hq hbody hvia hlast => ?_⟩
    · have hidle : (s.oneSettled u i).routesSettled = s.oneSettled u i :=
        State.routesSettled_of_idle (((s.oneSettled_only u i).clerks rfl).2.trans hrun)
      rw [if_pos (show (s.counter u i).routing = true from hon)] at hexec
      exact ⟨_, hexec.trans (congrArg Host.Outcome.next hidle), s.oneSettled_counter u i, s.oneSettled_only u i⟩
    · rw [if_pos (show (s.counter u i).routing = true from hon)] at hexec
      exact ⟨_, hexec, State.oneSettled_replies hrun hq hbody hvia hlast⟩
  case units =>
    intro s l u hon hu
    refine ⟨fun m => ?_, fun m => ?_, ?_, fun i hi v => ?_, fun r hr hal => ?_⟩
    · obtain ⟨hothers, honly⟩ := s.tlyCtl_frame u m 0#8 false
      refine ⟨_, exec_start hon hu m, ?_⟩
      exact ⟨hothers, honly, fun i hi => s.tlyCtl_start (u := u) (i := i) m hi⟩
    · obtain ⟨hothers, honly⟩ := s.tlyCtl_frame u 0#8 m false
      refine ⟨_, exec_stop hon hu m, ?_⟩
      exact ⟨hothers, honly, fun i hi => s.tlyCtl_stop (u := u) (i := i) m hi⟩
    · obtain ⟨hothers, honly⟩ := s.tlyCtl_frame u 0#8 0#8 true
      refine ⟨_, exec_counterClear hon hu, ?_⟩
      exact ⟨hothers, honly, fun i hi => s.tlyCtl_clear (u := u) (i := i) hi⟩
    · refine ⟨_, exec_evselWrite hon hu hi v, ?_⟩
      refine ⟨fun hdev => if_pos hdev, fun hdev hnew => ?_, fun k hk => ?_, ?_⟩
      · rw [if_neg hdev]
        exact State.counter_setEvsel_of_new hnew
      · split
        · rfl
        · exact State.setEvsel_tly_ne s i v hk
      · split
        · exact Only.refl _ _
        · exact (s.setEvsel_within u i v).only
    · exact tallyLowHalfRead_shows hon (by omega) (by omega) (by omega)
  case capture =>
    intro s l hon
    refine ⟨⟨_, exec_capture hon, s.capture_shows⟩, fun p hp => ⟨_, exec_boundClear hon hp, ?_⟩⟩
    exact ⟨fun k hk => (s.boundClear_link p k).trans (if_pos hk), fun k hk => (s.boundClear_link p k).trans (if_neg hk),
      (s.boundClear_within p).only⟩

end Sys2Proof.Machine
end

section
/-! SUPPORT. How a fence leaves the FNC (R337-R339, R347): one that stands there alone, and the number of those that stay. -/

namespace Sys2Proof.Machine

theorem WithinX.only {m : Mask} {s t : State} (h : WithinX m s (.next t)) : Only m s t := by
  obtain ⟨u, hu, hw⟩ := h
  cases hu
  exact hw.only

section
variable {s : State} {f : Fence}

theorem State.fenceGone_of_alone (h : s.fnc.fences = [f]) : s.fenceGone f.fid = { s with fnc := { s.fnc with fences := [] } } := by
  simp [State.fenceGone, h]

/-- A fence that stands alone and whose status word is still owed leaves with it. -/
theorem State.fenceEnd_of_alone (h : s.fnc.fences = [f]) (hgone : f.gone = false) (hmute : f.mute = false) (code : Nat) :
    s.fenceEnd f code =
      ({ s with fnc := { s.fnc with fences := [], completed := (s.fnc.completed + 1) % 2 ^ 32 } } : State).emit
        (.ioData f.link (f.status code)) := by
  simp only [State.fenceEnd, State.fenceGone_of_alone h, hgone, hmute, Bool.false_eq_true, if_false]

theorem State.fenceGone_length (s : State) (fid : Nat) : (s.fenceGone fid).fnc.fences.length ≤ s.fnc.fences.length := by
  have hrest : (s.fnc.fences.filter fun f => f.fid != fid).length ≤ s.fnc.fences.length := List.length_filter_le _ _
  unfold State.fenceGone
  extract_lets rest fs
  have hfs : fs.length = rest.length := by
    simp only [fs]
    split
    · split
      · exact List.length_map _
      · rfl
    · rfl
  exact hfs.trans_le hrest

theorem State.fenceEnd_length (s : State) (f : Fence) (code : Nat) : (s.fenceEnd f code).fnc.fences.length ≤ s.fnc.fences.length := by
  unfold State.fenceEnd
  extract_lets t u
  have ht : t.fnc.fences.length ≤ s.fnc.fences.length := s.fenceGone_length f.fid
  split
  · exact ht
  · split <;> exact ht

theorem State.fenceEnds_length (code : Fence → Nat) (l : List Fence) (s : State) :
    (l.foldl (fun s f => s.fenceEnd f (code f)) s).fnc.fences.length ≤ s.fnc.fences.length :=
  List.foldlRecOn (motive := fun x : State => x.fnc.fences.length ≤ s.fnc.fences.length) l _ le_rfl
    fun x hx f _ => (x.fenceEnd_length f (code f)).trans hx

theorem State.fenceEnds_lse (code : Fence → Nat) (l : List Fence) (s : State) :
    (l.foldl (fun s f => s.fenceEnd f (code f)) s).lse = s.lse :=
  List.foldlRecOn (motive := fun x : State => x.lse = s.lse) l _ rfl fun x hx f _ => ((x.fenceEnd_within f (code f)).only.lse rfl).trans hx

end
end Sys2Proof.Machine
end

section
/-! SUPPORT. Lease steps (R203, R206): the firings that ask for them, their start and their completion. -/

namespace Sys2Proof.Machine

section
variable {s : State}

theorem exec_leaseEpochAdvance_of_due {i : Nat} (hpow : s.powered = true) (hfires : s.fires i 6 = true) (hlevel : 2 ≤ s.boot.level) :
    ∃ t, exec (.leaseEpochAdvance i) s = .next t ∧ t.lse = { s.lse with steps := s.lse.steps ++ [false] } ∧
      Only { lse := true, mtu := true } s t := by
  have hlevel' : ¬ (s.markFired i).boot.level < 2 := Nat.not_lt.mpr hlevel
  have hgo : exec (.leaseEpochAdvance i) s =
      .next { s.markFired i with lse := { s.lse with steps := s.lse.steps ++ [false] } } := by
    simp only [exec, execLeaseEpochAdvance, State.fire, hpow, hfires, Bool.and_self, if_true, if_neg hlevel']
    rfl
  exact ⟨_, hgo, rfl, (hgo ▸ execLeaseEpochAdvance_within i s : WithinX _ s _).only⟩

theorem exec_leaseEpochAdvance_of_idle {i : Nat} (hfires : s.fires i 6 = false) : exec (.leaseEpochAdvance i) s = .next s := by
  simp [exec, execLeaseEpochAdvance, State.fire, hfires]

theorem exec_unlockedLeaseAdvance_of_due (hpow : s.powered = true) (hlevel : 2 ≤ s.boot.level) (hlock : s.locked = false)
    (hdue : s.unlockedPeriod * 2048 ≤ s.clk - s.lse.last) (hnone : false ∉ s.lse.steps) :
    ∃ t, exec .unlockedLeaseAdvance s = .next t ∧ t.lse = { s.lse with steps := s.lse.steps ++ [false] } ∧ Only { lse := true } s t := by
  have hgo : exec .unlockedLeaseAdvance s = .next { s with lse := { s.lse with steps := s.lse.steps ++ [false] } } := by
    simp [exec, execUnlockedLeaseAdvance, beatClks, hpow, hlevel, hlock, hdue, hnone]
  exact ⟨_, hgo, rfl, (hgo ▸ execUnlockedLeaseAdvance_within s : WithinX _ s _).only⟩

theorem exec_unlockedLeaseAdvance_of_early (hearly : s.clk - s.lse.last < s.unlockedPeriod * 2048) :
    exec .unlockedLeaseAdvance s = .next s := by
  simp [exec, execUnlockedLeaseAdvance, beatClks, Nat.not_le.mpr hearly]

/-! ### EPOCH_STEP_START -/

/-- The slices whose roster of the next epoch is not empty. -/
def State.fullRosters (s : State) : List Nat := (List.range 64).filter fun n => !((s.slice n).roster (s.lse.epoch + 1).toNat).isEmpty

theorem State.fullRosters_eq_nil_iff : s.fullRosters = [] ↔ ∀ n < 64, (s.slice n).roster (s.lse.epoch + 1).toNat = [] := by
  simp [State.fullRosters, List.filter_eq_nil_iff]

/-- The lease tracker once a step has started. -/
def Lse.started (x : Lse) (dbl : Bool) (rest : List Bool) (clk : Nat) : Lse :=
  { x with epoch := x.epoch + 1, advances := x.advances + 1, count := x.count + 1, steps := rest, running := some dbl,
           blocked := false, last := clk, dblStarted := x.dblStarted + if dbl && x.firstOfDouble then 1 else 0 }

theorem exec_epochStepStart_of_empty {dbl : Bool} {rest : List Bool} (hpow : s.powered = true) (hrun : s.lse.running = none)
    (hsteps : s.lse.steps = dbl :: rest) (hempty : ∀ n < 64, (s.slice n).roster (s.lse.epoch + 1).toNat = []) :
    ∃ t, exec .epochStepStart s = .next t ∧ t.lse = s.lse.started dbl rest s.clk ∧
      Only { bisnps := true, hreqs := true, lse := true, outs := true, events := true } s t := by
  have hfull : s.fullRosters = [] := State.fullRosters_eq_nil_iff.mpr hempty
  rw [State.fullRosters] at hfull
  have hwithin : WithinX { bisnps := true, hreqs := true, lse := true, events := true, outs := true } s (exec .epochStepStart s) :=
    execEpochStepStart_within s
  refine ⟨_, rfl, ?_, hwithin.only⟩
  simp only [hsteps, hpow, hrun, hfull, Bool.not_true, Option.isSome_none, Bool.or_self, Bool.false_eq_true, if_false, List.isEmpty_nil]
  refine List.foldlRecOn (motive := fun x : State => x.lse = s.lse.started dbl rest s.clk) _ _ rfl fun x hx h _ => ?_
  exact List.foldlRecOn (motive := fun x : State => x.lse = s.lse.started dbl rest s.clk) _ _ hx
    fun y hy c _ => ((y.sendBi_within _ _ _ _ _).only.lse rfl).trans hy

theorem exec_epochStepStart_of_full {dbl : Bool} {rest : List Bool} (hpow : s.powered = true) (hrun : s.lse.running = none)
    (hsteps : s.lse.steps = dbl :: rest) (hfull : ∃ n < 64, (s.slice n).roster (s.lse.epoch + 1).toNat ≠ []) :
    ∃ t, exec .epochStepStart s = .next t ∧ t.lse = { s.lse with blocked := true } ∧ Only { lse := true, hreqs := true } s t := by
  have hfull' : (List.isEmpty s.fullRosters) = false := by
    rw [List.isEmpty_eq_false_iff]
    intro h
    obtain ⟨n, hn, hne⟩ := hfull
    exact hne (State.fullRosters_eq_nil_iff.mp h n hn)
  rw [State.fullRosters] at hfull'
  obtain ⟨waiting, hgo⟩ : ∃ l, exec .epochStepStart s =
      .next (if s.lse.blocked then s else { s with lse := { s.lse with blocked := true }, hreqs := l }) :=
    ⟨_, by
      simp only [exec, execEpochStepStart, hsteps, hpow, hrun, hfull', Bool.not_true, Option.isSome_none, Bool.or_self, Bool.false_eq_true,
        if_false, Bool.not_false, if_true]
      rfl⟩
  refine ⟨_, hgo, ?_⟩
  split
  · next hblocked =>
    rw [← hblocked]
    exact ⟨rfl, .refl _ _⟩
  · exact ⟨rfl, rfl⟩

/-! ### EPOCH_STEP_COMPLETE -/

/-- The lease tracker once its running step is complete. -/
def Lse.completed (x : Lse) (dbl : Bool) : Lse :=
  { x with running := none, dblDone := x.dblDone + if dbl && x.firstOfDouble then 1 else 0 }

/-- The fence waits for a double advance that is complete. -/
def Fence.advanced (f : Fence) (done : Nat) : Bool := match f.ph with | .adv k => k ≤ done | _ => false

theorem exec_epochStepComplete_of_idle (hrun : s.lse.running = none) : exec .epochStepComplete s = .next s := by
  simp [exec, execEpochStepComplete, hrun]

/-- A step that no aged copy and no back-invalidation still keeps is completed, and the fences that waited for its double advance with it. -/
theorem exec_epochStepComplete {dbl : Bool} (hpow : s.powered = true) (hrun : s.lse.running = some dbl) (hhsf : s.hsf = []) (hbi : s.bisnps = []) :
    exec .epochStepComplete s =
      .next ((s.fnc.fences.filter fun f => f.advanced (s.lse.completed dbl).dblDone).foldl (fun s f => s.fenceEnd f f.code)
        { s with lse := s.lse.completed dbl }) := by
  simp only [exec, execEpochStepComplete, hrun, hpow, hhsf, hbi, List.any_nil, Bool.not_true, Bool.or_self, Bool.false_eq_true, if_false]
  rfl

theorem exec_epochStepComplete_of_single (hpow : s.powered = true) (hrun : s.lse.running = some false) (hhsf : s.hsf = []) (hbi : s.bisnps = []) :
    ∃ t, exec .epochStepComplete s = .next t ∧ t.lse = { s.lse with running := none } ∧ t.fnc.fences.length ≤ s.fnc.fences.length :=
  ⟨_, exec_epochStepComplete hpow hrun hhsf hbi, State.fenceEnds_lse Fence.code _ _, State.fenceEnds_length Fence.code _ _⟩

theorem exec_epochStepComplete_of_double {f : Fence} (hpow : s.powered = true) (hrun : s.lse.running = some true) (hhsf : s.hsf = [])
    (hbi : s.bisnps = []) (hsteps : s.lse.steps = []) (hf : s.fnc.fences = [f]) (hph : f.ph = .adv (s.lse.dblDone + 1))
    (hgone : f.gone = false) (hmute : f.mute = false) :
    ∃ t, exec .epochStepComplete s = .next t ∧ t.lse.running = none ∧ t.lse.dblDone = s.lse.dblDone + 1 ∧ t.fnc.fences = [] ∧
      t.outs = s.outs ++ [.ioData f.link (f.status f.code)] ∧ Only { lse := true, fnc := true, outs := true } s t := by
  have hdone : (s.lse.completed true).dblDone = s.lse.dblDone + 1 := by simp [Lse.completed, Lse.firstOfDouble, hsteps]
  have hpick : (s.fnc.fences.filter fun f => f.advanced (s.lse.completed true).dblDone) = [f] := by
    simp [hf, hdone, Fence.advanced, hph]
  have hgo := exec_epochStepComplete hpow hrun hhsf hbi
  rw [hpick, List.foldl_cons, List.foldl_nil,
    State.fenceEnd_of_alone (s := { s with lse := s.lse.completed true }) hf hgone hmute] at hgo
  exact ⟨_, hgo, rfl, hdone, rfl, rfl, (hgo ▸ execEpochStepComplete_within s : WithinX _ s _).only⟩

end
end Sys2Proof.Machine
end

section
/-! SUPPORT. A roster sweep (R206): the set that it takes, and the leased lines that it drops. -/

namespace Sys2Proof.Machine

section
variable {s : State} {n set ep : Nat} {rest : List Nat}

theorem Slice.roster_setRoster (x : Slice) (ep : Nat) (l : List Nat) : (x.setRoster ep l).roster ep = l := by
  unfold Slice.setRoster Slice.roster
  match ep % 4 with
  | 0 | 1 | 2 | _ + 3 => rfl

theorem Slice.setRoster_tc (x : Slice) (ep : Nat) (l : List Nat) : (x.setRoster ep l).tc = x.tc := by
  unfold Slice.setRoster
  split <;> rfl

/-- A tag block without the leased lines of an epoch value. -/
def TagBlk.withoutLeases (b : TagBlk) (ep : Nat) : TagBlk :=
  { ways := b.ways.map fun t => if t.st == stL && t.ep.toNat == ep then { t with st := stI, ep := 0, lock := false } else t }

theorem TagBlk.withoutLeases_spec (b : TagBlk) (ep : Nat) : ∀ e ∈ (b.withoutLeases ep).ways, e.st = stL → e.ep.toNat ≠ ep := by
  simp only [TagBlk.withoutLeases, List.mem_map]
  rintro e ⟨t, -, rfl⟩ hst hep
  split at hst
  · cases hst
  · next hnot =>
    rw [if_neg hnot] at hep
    exact hnot (by simp [hst, hep])

/-- Dropping stale lines leaves no lease that was not there before. -/
theorem State.dropStale_leases {b : TagBlk} (h : ∀ e ∈ b.ways, e.st = stL → e.ep.toNat ≠ ep) :
    ∀ e ∈ (s.dropStale b).ways, e.st = stL → e.ep.toNat ≠ ep := by
  simp only [State.dropStale, List.mem_map]
  rintro e ⟨t, ht, rfl⟩ hst
  split at hst
  · cases hst
  · next hnot =>
    rw [if_neg hnot]
    exact h t ht hst

theorem State.putTags_slice_ne (hworks : s.nearFrozen n = false) (set : Nat) (b : TagBlk) {k : Nat} (hk : k ≠ n) :
    (s.putTags n set b).slice k = s.slice k := by
  rcases State.putTags_cases (set := set) hworks b with ⟨-, h⟩ | ⟨-, h⟩ | ⟨_, _, _, -, -, -, ⟨-, -, h⟩ | ⟨-, h⟩⟩ <;> rw [h]
  · exact State.putNearTags_slice _ _ _ _ _
  · exact State.slice_modSlice_ne _ _ hk
  · rw [State.putNearTags_slice, State.slice_modSlice_ne _ _ hk]

/-- A set's tag block depends on near memory, the part and the slice's tag cache alone. -/
theorem State.tags_congr (s t : State) (hpart : t.part = s.part) (htags : t.mem.tags = s.mem.tags) (htc : (t.slice n).tc = (s.slice n).tc)
    (set : Nat) : t.tags n set = s.tags n set := by
  simp only [State.tags, State.nearTags, Slice.tcFind, hpart, htags, htc]

/-- The sweep's visit of one set. -/
def State.sweptRoster (s : State) (n set ep : Nat) (rest : List Nat) : State :=
  (s.putTags n set ((s.tags n set).withoutLeases ep)).modSlice n fun x => x.setRoster ep rest

theorem State.sweptRoster_slice (s : State) (n set ep : Nat) (rest : List Nat) :
    (s.sweptRoster n set ep rest).slice n = ((s.putTags n set ((s.tags n set).withoutLeases ep)).slice n).setRoster ep rest :=
  State.slice_modSlice_self _ _ _

theorem State.sweptRoster_roster (s : State) (n set ep : Nat) (rest : List Nat) :
    ((s.sweptRoster n set ep rest).slice n).roster ep = rest := by
  rw [State.sweptRoster_slice, Slice.roster_setRoster]

theorem State.sweptRoster_slice_ne (hworks : s.nearFrozen n = false) {k : Nat} (hk : k ≠ n) :
    (s.sweptRoster n set ep rest).slice k = s.slice k := by
  rw [State.sweptRoster, State.slice_modSlice_ne _ _ hk, State.putTags_slice_ne hworks _ _ hk]

theorem State.sweptRoster_leases (hworks : s.nearFrozen n = false) :
    ∀ e ∈ ((s.sweptRoster n set ep rest).tags n set).ways, e.st = stL → e.ep.toNat ≠ ep := by
  have hspec := (s.tags n set).withoutLeases_spec ep
  have htags : (s.sweptRoster n set ep rest).tags n set = (s.putTags n set ((s.tags n set).withoutLeases ep)).tags n set :=
    State.tags_congr (s.putTags n set _) (s.sweptRoster n set ep rest) rfl rfl
      (by rw [State.sweptRoster_slice, Slice.setRoster_tc]) set
  rw [htags]
  rcases State.putTags_tags (set := set) hworks ((s.tags n set).withoutLeases ep) with h | h <;> rw [h]
  · exact hspec
  · exact State.dropStale_leases hspec

theorem exec_rosterSweep (hpow : s.powered = true) (hn : n < 64) (hmode : s.mode ≠ 2) (hep : ep = (s.lse.epoch.toNat + 1) % 4)
    (hroster : (s.slice n).roster ep = set :: rest) :
    ∃ t, exec (.rosterSweep n) s = .next t ∧ Only { hreqs := true } (s.sweptRoster n set ep rest) t := by
  have hgo : exec (.rosterSweep n) s = .next (if rest.isEmpty && ep == ep then
      (s.sweptRoster n set ep rest).rosterGone fun h => (s.sweptRoster n set ep rest).sliceFor h == n else s.sweptRoster n set ep rest) := by
    subst hep
    simp only [exec, execRosterSweep, State.sliceOn, hpow, hn, hmode, hroster, decide_true, Bool.and_self, Bool.not_true, Bool.false_or,
      beq_iff_eq, if_false, List.isEmpty_cons, Bool.false_eq_true]
    rfl
  refine ⟨_, hgo, ?_⟩
  split
  · exact (State.rosterGone_within _ _).only
  · exact .refl _ _

end

end Sys2Proof.Machine
end

section
/-! SUPPORT. The obligation on lease epochs (R203-R206, R347). -/

namespace Sys2Proof.Machine

/-- Settles O27 (R203-R206, R347): each command's one effect on the lease tracker is read off (`Lse.started`, `Lse.completed`), and what a
sweep writes to a set's tag block holds no lease of the swept epoch (`TagBlk.withoutLeases`). -/
theorem leaseEpochs : Obligations.LeaseEpochs := by
  refine ⟨fun s i hpow => ⟨exec_leaseEpochAdvance_of_due hpow, exec_leaseEpochAdvance_of_idle⟩,
    fun s hpow hlevel hlock => ⟨exec_unlockedLeaseAdvance_of_due hpow hlevel hlock, exec_unlockedLeaseAdvance_of_early⟩,
    fun s dbl rest hpow hrun hsteps => ⟨fun hempty => ?start, exec_epochStepStart_of_full hpow hrun hsteps⟩, ?sweep,
    fun s f => exec_epochStepComplete_of_double, fun s => exec_epochStepComplete_of_single, fun s => exec_epochStepComplete_of_idle⟩
  case start =>
    obtain ⟨t, ht, hlse, honly⟩ := exec_epochStepStart_of_empty hpow hrun hsteps hempty
    refine ⟨t, ht, ?_⟩
    rw [hlse]
    exact ⟨rfl, rfl, rfl, rfl, rfl, rfl, honly⟩
  case sweep =>
    intro s n set ep rest hpow hn hmode hworks hep hroster
    obtain ⟨t, ht, honly⟩ := exec_rosterSweep hpow hn hmode hep hroster
    refine ⟨t, ht, ?_, ?_, fun k hk => ?_⟩
    · rw [honly.slice rfl, State.sweptRoster_roster]
    · rw [State.tags_congr _ t honly.part (honly.memTags rfl) (by rw [honly.slice rfl])]
      exact State.sweptRoster_leases hworks
    · rw [honly.slice rfl, State.sweptRoster_slice_ne hworks hk]

end Sys2Proof.Machine
end

section
/-! SUPPORT. Reads of the fence page (R193, R199, R337, R338): the fence that one starts, and those that start none. -/

namespace Sys2Proof.Machine

section
variable {s : State} {l sc k o size : Nat}

/-! ### The fence that a read starts -/

/-- The fence of a read by link `l` of scope `sc` and kind `k`, before it takes any failure. -/
def State.bareFence (s : State) (l sc k : Nat) : Fence :=
  { fid := s.nextRid, link := l, scope := sc, rel := k != 1, acq := k != 0, t0 := s.clk,
    snap := (s.accs.filter fun a => sc != 0 || a.who == l).map (·.aid),
    ph := if 64 ≤ (s.fnc.fences.filter fun f => f.ph != .port).length then .port else .wait,
    gen := if (s.tree (sc == 3)).sent then ((s.tree (sc == 3)).gen + 1) % 256 else (s.tree (sc == 3)).gen }

/-- The same with the failures that it reports. -/
def State.startedFence (s : State) (l sc k : Nat) : Fence := (s.takeFails (s.bareFence l sc k)).1

/-- The FNC has taken the fence of a read. -/
def State.fenceStarted (s : State) (l sc k : Nat) : State :=
  ({ s with nextRid := s.nextRid + 1, fails := (s.takeFails (s.bareFence l sc k)).2.fails,
            fnc := { s.fnc with fences := s.fnc.fences ++ [s.startedFence l sc k] } } : State).event 208 1 1

theorem State.scopeOn_of_served (h : if sc < 2 then 2 ≤ s.boot.level else s.boot.level = 3) : s.scopeOn sc = true := by
  unfold State.scopeOn
  split at h
  · next hsc => rw [if_pos (Nat.le_of_lt_succ hsc)]; exact decide_eq_true h
  · next hsc => rw [if_neg (by omega)]; exact beq_iff_eq.mpr h

theorem exec_fenceRead_of_fence {off : Nat} (hon : s.linkOn l = true) (hsc : sc < 4) (hk : k < 4) (hsize : size = 4 ∨ size = 8)
    (hserved : s.scopeOn sc = true) (hoff : off = 0x40000 + 64 * sc + 16 * k) :
    exec (.fenceRead l off size) s =
      .next (if sc == 2 && s.dom.st == 3 then (s.fenceStarted l sc k).fenceEnd (s.startedFence l sc k) 2 else s.fenceStarted l sc k) := by
  subst hoff
  have hpage : 0x40000 ≤ 0x40000 + 64 * sc + 16 * k ∧ 0x40000 + 64 * sc + 16 * k < 0x41000 := by omega
  have hal : (size = 4 ∨ size = 8) ∧ (0x40000 + 64 * sc + 16 * k) % size = 0 := ⟨hsize, by rcases hsize with rfl | rfl <;> omega⟩
  have ho : 0x40000 + 64 * sc + 16 * k - 0x40000 = 64 * sc + 16 * k := by omega
  have hhigh : (64 * sc + 16 * k) / 256 = 0 := by omega
  have hlow : (64 * sc + 16 * k) % 16 = 0 := by omega
  have hscope : (64 * sc + 16 * k) / 64 % 4 = sc := by omega
  have hkind : (64 * sc + 16 * k) / 16 % 4 = k := by omega
  simp only [exec, execFenceRead, hon, hpage.1, hpage.2, hal.2, ho, hhigh, hlow, hscope, hkind, hserved, decide_true, Bool.and_self, Bool.not_true,
    bne_self_eq_false, Bool.or_self, Bool.false_eq_true, if_false]
  rw [if_neg (by simpa using fun h => hsize.resolve_left h)]
  rfl

theorem State.fenceStarted_only (s : State) (l sc k : Nat) :
    Only { nextRid := true, accs := true, fnc := true, events := true } s (s.fenceStarted l sc k) := rfl

/-- A failure that the fence covers is its to report; another waits on (R192). -/
theorem State.startedFence_of_fail {r : FailRec} (hr : s.fails = [r]) (l k : Nat) :
    (sc ≠ 0 ∨ r.who = l → (s.fenceStarted l sc k).fails = [] ∧ (s.startedFence l sc k).seenDown = r.down ∧
      (s.startedFence l sc k).seenDead = !r.down ∧ (s.startedFence l sc k).node = some r.node) ∧
    (sc = 0 → r.who ≠ l → (s.fenceStarted l sc k).fails = [r] ∧ (s.startedFence l sc k).seenDown = false ∧
      (s.startedFence l sc k).seenDead = false ∧ (s.startedFence l sc k).node = none) := by
  have hfails : (s.fenceStarted l sc k).fails = s.fails.filter fun r => !(s.bareFence l sc k).covers r.who := rfl
  have hfence : s.startedFence l sc k = (s.fails.filter fun r => (s.bareFence l sc k).covers r.who).foldl Fence.charge (s.bareFence l sc k) := rfl
  rw [hfails, hfence, hr]
  constructor
  · intro hin
    have hcov : (s.bareFence l sc k).covers r.who = true := by simpa [Fence.covers, State.bareFence] using hin
    rw [show [r].filter (fun r => !(s.bareFence l sc k).covers r.who) = [] by simp [hcov],
      show [r].filter (fun r => (s.bareFence l sc k).covers r.who) = [r] by simp [hcov]]
    exact ⟨rfl, Bool.false_or _, Bool.false_or _, rfl⟩
  · intro hsc hwho
    have hcov : (s.bareFence l sc k).covers r.who = false := by simp [Fence.covers, State.bareFence, hsc, hwho]
    rw [show [r].filter (fun r => !(s.bareFence l sc k).covers r.who) = [r] by simp [hcov],
      show [r].filter (fun r => (s.bareFence l sc k).covers r.who) = [] by simp [hcov]]
    exact ⟨rfl, rfl, rfl, rfl⟩

/-- The failures that a fence takes change its record of them alone. -/
theorem Fence.charges_fields (f : Fence) (rs : List FailRec) :
    ∃ a b c, rs.foldl Fence.charge f = { f with seenDead := a, seenDown := b, node := c } := by
  refine List.foldlRecOn (motive := fun g => ∃ a b c, g = { f with seenDead := a, seenDown := b, node := c }) rs _
    ⟨f.seenDead, f.seenDown, f.node, rfl⟩ ?_
  rintro _ ⟨a, b, c, rfl⟩ r _
  exact ⟨_, _, _, rfl⟩

theorem State.startedFence_fields (s : State) (l sc k : Nat) :
    ∃ a b c, s.startedFence l sc k = { s.bareFence l sc k with seenDead := a, seenDown := b, node := c } :=
  Fence.charges_fields _ _

/-! ### Reads that start none -/

theorem exec_fenceRead_of_unused (hon : s.linkOn l = true) (ho : o < 0x1000) (hsize : size = 4 ∨ size = 8) (hal : o % size = 0)
    (hunused : 0x100 ≤ o ∨ o % 16 ≠ 0 ∨ s.scopeOn (o / 64 % 4) = false) :
    exec (.fenceRead l (0x40000 + o) size) s = .next (s.emit (.ioData l 0)) := by
  have hpage : 0x40000 ≤ 0x40000 + o ∧ 0x40000 + o < 0x41000 := by omega
  have hal' : (0x40000 + o) % size = 0 := by rcases hsize with rfl | rfl <;> omega
  have hnone : (o / 256 != 0 || o % 16 != 0 || !s.scopeOn (o / 64 % 4)) = true := by
    rcases hunused with h | h | h
    · have : o / 256 ≠ 0 := by omega
      simp [this]
    · simp [h]
    · simp [h]
  simp only [exec, execFenceRead, hon, hpage.1, hpage.2, hal', Nat.add_sub_cancel_left, hnone, decide_true, Bool.and_self, Bool.not_true,
    Bool.false_eq_true, if_false, if_true]
  rw [if_neg (by simpa using fun h => hsize.resolve_left h)]

theorem exec_fenceRead_of_misaligned (hon : s.linkOn l = true) (ho : o < 0x1000) (hal : o % size ≠ 0) :
    ∃ t, exec (.fenceRead l (0x40000 + o) size) s = .next t ∧ t.fnc = s.fnc ∧ t.outs.getLast? = some (.ioAbort l) := by
  have hpage : 0x40000 ≤ 0x40000 + o ∧ 0x40000 + o < 0x41000 := by omega
  have hbad : ((size == 4 || size == 8) && (0x40000 + o) % size == 0) = false := by
    by_contra h
    simp only [Bool.not_eq_false, Bool.and_eq_true, Bool.or_eq_true, beq_iff_eq] at h
    obtain ⟨rfl | rfl, h⟩ := h <;> omega
  have hgo : exec (.fenceRead l (0x40000 + o) size) s = .next (s.badAccess l (0x40000 + o)) := by
    simp only [exec, execFenceRead, hon, hpage.1, hpage.2, hbad, decide_true, Bool.and_self, Bool.not_true, Bool.not_false, Bool.false_eq_true,
      if_false, if_true]
  exact ⟨_, hgo, (s.badAccess_within _ _).only.fnc rfl, List.getLast?_concat⟩

/-! ### The status word (Table 7.4) -/

theorem Fence.status_code (f : Fence) (code : Nat) : (f.status code).toNat % 256 = code % 256 := by
  have hword (a b c d : Nat) (ha : a < 256) (hb : b % 256 = 0) (hc : c % 256 = 0) (hd : d % 256 = 0) :
      (BitVec.ofNat 64 (a + b + c + d)).toNat % 256 = a := by
    rw [BitVec.toNat_ofNat]
    omega
  refine hword _ _ _ _ (Nat.mod_lt _ (by decide)) ?_ ?_ ?_
  · split <;> rfl
  · split <;> rfl
  · split <;> omega

/-- The status word of a fence one of whose accesses failed at node `n`, in a DOWN domain. -/
theorem Fence.status_of_down {f : Fence} {n : Nat} (hn : n < 2 ^ 15) (hdead : f.seenDead = false) (hdown : f.seenDown = true)
    (hnode : f.node = some n) : (f.status 2).toNat = 2 + 2 ^ 9 + n * 2 ^ 16 + 2 ^ 31 := by
  simp only [Fence.status, hdead, hdown, hnode, Bool.false_eq_true, if_false, if_true, BitVec.toNat_ofNat]
  omega

theorem Fence.status_of_ok {f : Fence} (hdead : f.seenDead = false) (hdown : f.seenDown = false) (hnode : f.node = none) : f.status 0 = 0 := by
  simp [Fence.status, hdead, hdown, hnode]

/-- A domain-scope read in a DOWN domain is answered at once (R199). -/
theorem exec_fenceRead_of_down (hon : s.linkOn l = true) (hk : k < 4) (hlevel : s.boot.level = 3) (hdown : s.dom.st = 3)
    (hnone : s.fnc.fences = []) :
    ∃ (t : State) (v : Word), exec (.fenceRead l (0x40000 + 64 * 2 + 16 * k) 8) s = .next t ∧ t.outs = s.outs ++ [.ioData l v] ∧
      v.toNat % 256 = 2 ∧ t.fnc.fences = [] := by
  have hgo := exec_fenceRead_of_fence hon (sc := 2) (by decide) hk (.inr rfl) (State.scopeOn_of_served hlevel) rfl
  obtain ⟨a, b, c, hf⟩ := s.startedFence_fields l 2 k
  have halone : (s.fenceStarted l 2 k).fnc.fences = [s.startedFence l 2 k] :=
    show s.fnc.fences ++ [s.startedFence l 2 k] = _ by rw [hnone, List.nil_append]
  rw [if_pos (by simp [hdown]), State.fenceEnd_of_alone halone (by rw [hf]; rfl) (by rw [hf]; rfl)] at hgo
  refine ⟨_, (s.startedFence l 2 k).status 2, hgo, ?_, Fence.status_code _ 2, rfl⟩
  rw [hf]
  rfl

end
end Sys2Proof.Machine
end

section
/-! SUPPORT. What a pending fence that stands alone is told and answers: failures (R192), the end of its local waits (R337, R339), its
limit (R198, R348). -/

namespace Sys2Proof.Machine

section
variable {s : State} {f : Fence}

/-- Every fence whose snapshot holds a failed access is charged with it, and what a fence will report no later fence need. -/
theorem State.accFail_charges {aid who node : Nat} {down : Bool} (htold : ∃ f ∈ s.fnc.fences, aid ∈ f.snap ∧ f.gone = false ∧ f.mute = false) :
    (s.accFail aid who node down).fails = s.fails ∧
      ∀ f ∈ s.fnc.fences, aid ∈ f.snap → ∃ g ∈ (s.accFail aid who node down).fnc.fences, g.fid = f.fid ∧ g.snap = f.snap ∧
        (down = true → g.seenDown = true) ∧ (down = false → g.seenDead = true) ∧ (f.node = none → g.node = some node) := by
  constructor
  · obtain ⟨f, hf, haid, hgone, hmute⟩ := htold
    have htold' : (s.fnc.fences.any fun f => f.snap.contains aid && !f.gone && !f.mute) = true :=
      List.any_eq_true.mpr ⟨f, hf, by simp [haid, hgone, hmute]⟩
    exact if_pos htold'
  · intro f hf haid
    refine ⟨f.charge ⟨aid, who, node, down⟩, List.mem_map.mpr ⟨f, hf, if_pos (List.contains_iff_mem.mpr haid)⟩, rfl, rfl, ?_, ?_, ?_⟩
    · rintro rfl; simp [Fence.charge]
    · rintro rfl; simp [Fence.charge]
    · intro hnode; simp [Fence.charge, hnode]

theorem State.find_alone (h : s.fnc.fences = [f]) : s.fnc.fences.find? (fun g => g.fid == f.fid) = some f := by
  simp [h]

theorem State.modFence_of_alone (h : s.fnc.fences = [f]) (g : Fence → Fence) :
    s.modFence f.fid g = { s with fnc := { s.fnc with fences := [g f] } } := by
  simp [State.modFence, h]

/-! ### FENCE_LOCAL_WAITS_DONE -/

theorem exec_fenceLocalWaitsDone_of_waiting (h : s.fnc.fences = [f]) (hwaits : s.fenceWaits f = true) :
    exec (.fenceLocalWaitsDone f.fid) s = .next s := by
  simp only [exec, execFenceLocalWaitsDone, State.find_alone h, hwaits, Bool.or_true, if_true]

/-- The end of its local waits is the end of a port-scope fence (R339). -/
theorem exec_fenceLocalWaitsDone_of_port (hpow : s.powered = true) (h : s.fnc.fences = [f]) (hph : f.ph = .wait) (hlocal : f.localDone = false)
    (hwaits : s.fenceWaits f = false) (hscope : f.scope = 0) (hgone : f.gone = false) (hmute : f.mute = false) :
    ∃ t, exec (.fenceLocalWaitsDone f.fid) s = .next t ∧ t.outs = s.outs ++ [.ioData f.link (f.status f.own)] ∧ t.fnc.fences = [] ∧
      t.fnc.completed = (s.fnc.completed + 1) % 2 ^ 32 ∧ Only { fnc := true, outs := true } s t := by
  have hgo : exec (.fenceLocalWaitsDone f.fid) s =
      .next ((s.modFence f.fid fun _ => { f with localDone := true, code := f.own }).fenceEnd { f with localDone := true, code := f.own } f.own) := by
    simp only [exec, execFenceLocalWaitsDone, State.find_alone h, hpow, hph, hlocal, hwaits, hscope, bne_self_eq_false, Bool.not_true, Bool.or_self,
      Bool.false_eq_true, if_false, beq_self_eq_true, if_true]
  rw [State.modFence_of_alone h,
    State.fenceEnd_of_alone (f := { f with localDone := true, code := f.own }) rfl hgone hmute] at hgo
  exact ⟨_, hgo, rfl, rfl, rfl, rfl⟩

/-! ### FENCE_DEADLINE -/

theorem exec_fenceDeadline_of_early (h : s.fnc.fences = [f]) (hearly : s.clk - f.t0 < 22000) : exec (.fenceDeadline f.fid) s = .next s := by
  simp only [exec, execFenceDeadline, State.find_alone h, hearly, decide_true, Bool.or_true, if_true]

/-- The state in which a fence has just been answered DEADLINE. -/
theorem State.fenceLate_of_owed (hgone : f.gone = false) (hmute : f.mute = false) :
    s.fenceLate f = (({ s with fnc := { s.fnc with deadlines := satAdd 0xFFFF s.fnc.deadlines 1 } } : State).event 208 3 1).emit
      (.ioData f.link (f.status 3)) := by
  simp only [State.fenceLate, hgone, hmute, Bool.false_eq_true, if_false]

/-- A fence whose tree counts on it keeps its place after DEADLINE (R348). -/
def Fence.keepsPlace (f : Fence) : Bool := 2 ≤ f.scope && (match f.ph with | .wait => true | .tree _ => true | _ => false)

theorem exec_fenceDeadline_of_late (hpow : s.powered = true) (h : s.fnc.fences = [f]) (hgone : f.gone = false) (hmute : f.mute = false)
    (hlate : 22000 ≤ s.clk - f.t0) :
    ∃ t, exec (.fenceDeadline f.fid) s = .next t ∧ t.outs = s.outs ++ [.ioData f.link (f.status 3)] ∧
      t.fnc.fences = (if f.keepsPlace then [{ f with gone := true }] else []) ∧ Only { fnc := true, outs := true, events := true } s t := by
  have hnow : ¬ s.clk - f.t0 < 22000 := Nat.not_lt.mpr hlate
  have hgo : exec (.fenceDeadline f.fid) s = .next (if f.keepsPlace then (s.fenceLate f).modFence f.fid fun f => { f with gone := true }
      else (s.fenceLate f).fenceGone f.fid) := by
    simp only [exec, execFenceDeadline, State.find_alone h, hpow, hgone, hnow, decide_false, Bool.not_true, Bool.or_self, Bool.false_eq_true, if_false]
    rfl
  have halone : (s.fenceLate f).fnc.fences = [f] := by rw [State.fenceLate_of_owed hgone hmute]; exact h
  rw [State.modFence_of_alone halone, State.fenceGone_of_alone halone, State.fenceLate_of_owed hgone hmute] at hgo
  refine ⟨_, hgo, ?_⟩
  split
  · exact ⟨rfl, rfl, rfl⟩
  · exact ⟨rfl, rfl, rfl⟩

end
end Sys2Proof.Machine
end

section
/-! SUPPORT. The obligation on reads of the fence page (R193, R194, R197-R199, R337, R339, R348). -/

namespace Sys2Proof.Machine

/-- Settles O23 (R193, R194, R197-R199, R337, R339, R348): what the FNC takes in for a read (`State.fenceStarted`, `State.startedFence`), and
what becomes of a fence that stands there alone. -/
theorem fencePageReads : Obligations.FencePageReads := by
  refine ⟨?start, fun s aid who node down => State.accFail_charges, fun s l o size hon ho => ⟨?unused, ?unserved, exec_fenceRead_of_misaligned hon ho, ?down⟩,
    fun s f hpow h hph hlocal => ⟨exec_fenceLocalWaitsDone_of_waiting h, fun hwaits hscope hgone hmute hdead => ⟨?ok, ?failed⟩⟩,
    fun s f hpow h hgone hmute => ⟨exec_fenceDeadline_of_early h, ?late⟩⟩
  case start =>
    intro s l sc k size hon hsc hk hsize hserved hroom hdom
    have hgo := exec_fenceRead_of_fence hon hsc hk hsize (State.scopeOn_of_served hserved) rfl
    rw [if_neg (by simpa using hdom)] at hgo
    obtain ⟨a, b, c, hf⟩ := s.startedFence_fields l sc k
    refine ⟨s.fenceStarted l sc k, s.startedFence l sc k, hgo, rfl, ?_⟩
    have hph : (s.bareFence l sc k).ph = .wait := if_neg (Nat.not_le.mpr hroom)
    refine ⟨?_, ?_, ?_, ?_, ?_, ?_, ?_, ?_, ?_, ?_, rfl, fun r hr => State.startedFence_of_fail hr l k, s.fenceStarted_only l sc k⟩
    case refine_6 => rw [hf]; exact hph
    all_goals rw [hf]; rfl
  case unused =>
    exact fun hsize hal hun => exec_fenceRead_of_unused hon ho hsize hal (hun.imp_right .inl)
  case unserved =>
    intro hlevel hsize hal
    refine exec_fenceRead_of_unused hon ho hsize hal ?_
    by_cases hhigh : 0x100 ≤ o
    · exact .inl hhigh
    · refine .inr (.inr ?_)
      unfold State.scopeOn
      split
      · next hsc => exact decide_eq_false (by omega)
      · next hsc => exact beq_eq_false_iff_ne.mpr (by omega)
  case down =>
    rintro hlevel hdown ho rfl hnone
    rcases ho with rfl | rfl | rfl
    · exact exec_fenceRead_of_down (k := 0) hon (by decide) hlevel hdown hnone
    · exact exec_fenceRead_of_down (k := 1) hon (by decide) hlevel hdown hnone
    · exact exec_fenceRead_of_down (k := 2) hon (by decide) hlevel hdown hnone
  case ok =>
    intro hdown hnode
    have hown : f.own = 0 := by simp [Fence.own, hdown, hdead]
    obtain ⟨t, ht, houts, hrest⟩ := exec_fenceLocalWaitsDone_of_port hpow h hph hlocal hwaits hscope hgone hmute
    rw [hown, Fence.status_of_ok hdead hdown hnode] at houts
    exact ⟨t, ht, houts, hrest⟩
  case failed =>
    intro hdown n hn hnode
    have hown : f.own = 2 := by simp [Fence.own, hdown]
    obtain ⟨t, ht, houts, hgone, -, honly⟩ := exec_fenceLocalWaitsDone_of_port hpow h hph hlocal hwaits hscope hgone hmute
    exact ⟨t, _, ht, houts, hgone, by rw [hown]; exact Fence.status_of_down hn hdead hdown hnode, honly⟩
  case late =>
    intro hlate
    obtain ⟨t, ht, houts, hfences, honly⟩ := exec_fenceDeadline_of_late hpow h hgone hmute hlate
    refine ⟨t, _, ht, houts, Fence.status_code f 3, fun hscope => ?_, fun hscope hph => ?_, honly⟩
    · have hkeeps : f.keepsPlace = false := by simp [Fence.keepsPlace, hscope]
      rw [hfences, hkeeps]
      rfl
    · have hkeeps : f.keepsPlace = true := by simp [Fence.keepsPlace, hscope, hph]
      rw [hfences, hkeeps]
      rfl

end Sys2Proof.Machine
end

section
/-! SUPPORT. The posted-write buffer (R187–R192): how a store enters it, goes to its slice, and is given up at its deadline. -/

namespace Sys2Proof.Machine

section
variable {s t : State} {l seq rid : Nat} {e : PwbEnt} {h : HostReq}

/-! ### What leaves a link's buffer alone -/

theorem Only.pwb {m : Mask} (k : Only m s t) (hm : m.links = false) (l : Nat) : (t.link l).pwb = (s.link l).pwb :=
  k.linkField hm (f := HLink.pwb) (fun _ => rfl) l

theorem State.modLink_pwb (s : State) (l k : Nat) {f : HLink → HLink} (hf : ∀ x, (f x).pwb = x.pwb) :
    ((s.modLink l f).link k).pwb = (s.link k).pwb := by
  rcases eq_or_ne k l with rfl | hk
  · rw [State.link_modLink_self, hf]
  · rw [State.link_modLink_ne s f hk]

theorem State.account_pwb (s : State) (h : HostReq) (k : Nat) : ((s.account h).link k).pwb = (s.link k).pwb := by
  unfold State.account
  split
  · exact State.modLink_pwb _ _ _ fun _ => rfl
  · split
    · rfl
    · split
      · rw [(State.rec__within _ _ _ _ _ _).only.pwb rfl, (State.event_within _ _ _ _).only.pwb rfl]
        exact State.modLink_pwb _ _ _ fun _ => rfl
      · split
        · exact State.modLink_pwb _ _ _ fun _ => rfl
        · rfl

theorem State.hostCmp_pwb (s : State) (h : HostReq) (k : Nat) : ((s.hostCmp h).link k).pwb = (s.link k).pwb := by
  unfold State.hostCmp
  split
  · rfl
  · exact State.account_pwb s h k

/-! ### A store enters (R187) -/

/-- The entry that a store becomes. -/
def State.newPwb (s : State) (h : HostReq) : PwbEnt :=
  { seq := h.rid, rid := h.rid, la := h.la, data := h.req.data, be := h.req.be, poison := h.req.poison, ali := h.ali,
    ea := h.ea, t0 := s.clk, paused0 := s.paused,
    after := if h.ali == 1 then (s.accs.filter fun a => a.who == h.link && a.aid < aidHost h.rid).map (·.aid) else [] }

/-- The buffer of a store's link holds it as its youngest entry. -/
def State.pwbTaken (s : State) (h : HostReq) : State :=
  s.modLink h.link fun x => { x with pwb := x.pwb ++ [s.newPwb h], pwbHwm := max x.pwbHwm (x.pwb.length + 1) }

/-- A store whose line no entry holds enters as one of its own; of the store, its class alone is set for the answer. -/
theorem State.pwbEnter_of_room (hroom : (s.link h.link).pwb.length < s.pwbSize h.link) (hline : ∀ e ∈ (s.link h.link).pwb, e.la ≠ h.la)
    (hfirst : ∀ g ∈ s.hreqs, g.link = h.link → g.win = .glob → g.rid < h.rid → g.req.op = .write → g.ali = 2 ∨ g.dev = true) :
    ∃ c, s.pwbEnter h = some (((s.pwbTaken h).hostCmp { h with cls := c }).hostGone h.rid) := by
  have hnone : (s.hreqs.any fun g =>
      g.link == h.link && g.win == .glob && g.rid < h.rid && g.req.op == .write && g.ali != 2 && !g.dev) = false := by
    rw [List.any_eq_false]
    intro g hg hwaits
    simp only [Bool.and_eq_true, beq_iff_eq, decide_eq_true_eq, bne_iff_ne, Bool.not_eq_true'] at hwaits
    obtain ⟨⟨⟨⟨⟨hlink, hwin⟩, hrid⟩, hop⟩, hali⟩, hdev⟩ := hwaits
    rcases hfirst g hg hlink hwin hrid hop with h2 | hd
    · exact hali h2
    · simp [hdev] at hd
  obtain ⟨c, hc⟩ : ∃ c, (if laNode h.la == s.nodeNo then h else { h with cls := 3 }) = { h with cls := c } := by
    split
    · exact ⟨h.cls, rfl⟩
    · exact ⟨3, rfl⟩
  have hyoung : ((s.link h.link).pwb.getLast?.filter fun e =>
      ordCombine h.ord && e.la == h.la && !e.issued && e.ali != 1 && h.ali != 1) = none := by
    cases hlast : (s.link h.link).pwb.getLast? with
    | none => rfl
    | some e => simp [Option.filter, hline e (List.mem_of_getLast? hlast)]
  refine ⟨c, ?_⟩
  simp only [State.pwbEnter, hc, hnone, hyoung, Nat.not_le.2 hroom, Bool.false_eq_true, if_false]
  rfl

theorem exec_pwbEntry_of_waiting (hpow : s.powered = true) (hreq : s.hreq rid = some h) (hph : h.ph = .pwbWait) (hop : h.req.op = .write)
    (hali : h.ali ≠ 2) (hdev : h.dev = false) (hup : s.unreachable (laNode h.la) = false) {u : State} (henter : s.pwbEnter h = some u) :
    exec (.pwbEntry rid) s = .next u := by
  simp [exec, execPwbEntry, hreq, hpow, hph, State.globGo, hup, hali, hdev, hop, henter]

theorem State.pwbTaken_self (s : State) (h : HostReq) : ((s.pwbTaken h).link h.link).pwb = (s.link h.link).pwb ++ [s.newPwb h] := by
  rw [State.pwbTaken, State.link_modLink_self]

theorem State.pwbTaken_ne (s : State) (h : HostReq) {k : Nat} (hk : k ≠ h.link) : (s.pwbTaken h).link k = s.link k :=
  State.link_modLink_ne _ _ hk

/-! ### An entry issues (R188) -/

/-- Where each entry of number `seq` is changed into one that has `P`, those of that number have it. -/
theorem PwbEnt.changed_of_seq {P : PwbEnt → Prop} {f : PwbEnt → PwbEnt} (hf : ∀ q, P (f q)) {es : List PwbEnt} {p : PwbEnt}
    (hp : p ∈ es.map fun q => if q.seq == seq then f q else q) (hseq : p.seq = seq) : P p := by
  obtain ⟨q, -, rfl⟩ := List.mem_map.1 hp
  by_cases hq : q.seq = seq
  · rw [if_pos (beq_iff_eq.2 hq)]
    exact hf q
  · rw [if_neg (by simpa using hq)] at hseq
    exact absurd hseq hq

/-- The write that an entry becomes. -/
def PwbEnt.toReq (e : PwbEnt) (l : Nat) : Req :=
  { src := .pwb l e.seq, kind := .write, la := e.la, data := e.data, be := e.be, poison := e.poison, ali := e.ali, glob := true, ea := e.ea,
    link := l, aid := aidHost e.rid }

/-- The entry has issued. -/
def State.pwbIssued (s : State) (l seq : Nat) : State :=
  s.modLink l fun x => { x with pwb := x.pwb.map fun p => if p.seq == seq then { p with issued := true } else p }

theorem exec_pwbIssue_of_free (hpow : s.powered = true) (hnext : (s.link l).nextPwb = some e) (hpause : s.inPause = false)
    (hstrong : s.strongBefore l e.rid = false) (hafter : e.ali = 1 → ∀ a ∈ s.accs, a.aid ∉ e.after) :
    exec (.pwbIssue l) s = .next ((s.pwbIssued l e.seq).toSlice (sliceOf e.la) (e.toReq l)) := by
  have hfree : (e.ali == 1 && s.accs.any fun a => e.after.contains a.aid) = false := by
    by_cases hali : e.ali = 1
    · simpa [hali] using hafter hali
    · simp [hali]
  simp only [exec, execPwbIssue, hnext, hpow, hpause, hstrong, hfree, Bool.not_true, Bool.or_self, Bool.false_eq_true, if_false]
  rfl

theorem exec_pwbIssue_of_held (hnext : (s.link l).nextPwb = some e)
    (hheld : s.inPause = true ∨ s.strongBefore l e.rid = true ∨ (e.ali = 1 ∧ ∃ a ∈ s.accs, a.aid ∈ e.after)) :
    exec (.pwbIssue l) s = .next s := by
  simp only [exec, execPwbIssue, hnext]
  rcases hheld with hpause | hstrong | ⟨hali, a, ha, hin⟩
  · simp [hpause]
  · simp [hstrong]
  · have hwaits : (e.ali == 1 && s.accs.any fun a => e.after.contains a.aid) = true := by
      simpa [hali] using ⟨a, ha, hin⟩
    rw [if_pos hwaits, ite_self]

theorem State.pwbIssued_marks (s : State) (l seq : Nat) : ∀ p ∈ ((s.pwbIssued l seq).link l).pwb, p.seq = seq → p.issued = true := by
  intro p hp hseq
  rw [State.pwbIssued, State.link_modLink_self] at hp
  exact PwbEnt.changed_of_seq (P := fun p => p.issued = true) (fun _ => rfl) hp hseq

theorem State.pwbIssued_ne (s : State) {k : Nat} (hk : k ≠ l) : (s.pwbIssued l seq).link k = s.link k :=
  State.link_modLink_ne _ _ hk

/-! ### An entry is given up (R191, R192) -/

theorem retireFifo_sublist (es : List PwbEnt) : (retireFifo es).Sublist es := by
  induction es with
  | nil => exact List.nil_sublist _
  | cons e es ih =>
    unfold retireFifo
    split
    · exact ih.cons _
    · exact List.Sublist.refl _

/-- No entry of link `l`'s buffer that stands for number `seq` is unperformed. -/
def State.PwbOver (s : State) (l seq : Nat) : Prop := ∀ p ∈ (s.link l).pwb, p.seq = seq → p.performed = true

theorem State.PwbOver.of_only {m : Mask} (ho : s.PwbOver l seq) (k : Only m s t) (hm : m.links = false) : t.PwbOver l seq := by
  intro p hp
  rw [k.pwb hm] at hp
  exact ho p hp

theorem State.pwbEnd_over (s : State) (l seq : Nat) : (s.pwbEnd l seq).PwbOver l seq := by
  intro p hp hseq
  rw [State.pwbEnd, State.pwbRetire, State.link_modLink_self, State.link_modLink_self] at hp
  exact PwbEnt.changed_of_seq (P := fun p => p.performed = true) (fun _ => rfl) ((retireFifo_sublist _).subset hp) hseq

/-- A store that fails is over for its buffer. -/
theorem State.reqFail_over (s : State) {r : Req} (hsrc : r.src = .pwb l seq) (why : Why) : (s.reqFail r why).PwbOver l seq := by
  obtain ⟨u, hu⟩ : ∃ u : State, s.reqFail r why = (u.pwbEnd l seq).accDone r.aid := by
    simp only [State.reqFail, hsrc]
    exact ⟨_, rfl⟩
  rw [hu]
  exact (u.pwbEnd_over l seq).of_only (State.accDone_within _ _).only rfl

/-- With no register and no victim-buffer entry at the slice, what goes on behind a refused request is an early-acknowledged write. -/
theorem State.release_of_no_register {n home opc : Nat} (hmrs : (s.slice n).mrs = []) (hvbs : (s.slice n).vbs = []) :
    Only { slices := true, rtrTx := true } s (s.release n home opc) := by
  have hnone (i : Nat) : s.mr n i = none := by simp [State.mr, hmrs]
  unfold State.release
  split
  · rw [hnone]
    exact Only.refl _ _
  · split
    · exact (State.outResend_within _ _ _).only
    · exact Only.refl _ _
  · exact Only.refl _ _
  · simp only [hmrs, hvbs, List.filter_nil, List.foldl_nil, ite_self]
    exact Only.refl _ _

/-- A write that its slice holds as an early-acknowledged one is over for its buffer. -/
theorem State.outDrop_over {n : Nat} {o : OutW} (hmrs : (s.slice n).mrs = []) (hvbs : (s.slice n).vbs = []) (hsrc : o.src = .pwb l seq) (why : Why) :
    (s.outDrop n o why).PwbOver l seq := by
  obtain ⟨r, u, hr, hu, hdrop⟩ : ∃ (r : Req) (u : State), r.src = o.src ∧
      u = o.more.foldl (fun s a => s.accDone a)
        ((s.modSlice n fun x => { x with outw := x.outw.filter fun p => p.id != o.id }).reqFail r why) ∧
      s.outDrop n o why = if o.refSeq != 0 then u.release n o.home o.msg.opc else u := ⟨_, _, rfl, rfl, rfl⟩
  rw [hdrop]
  have hmod : (s.modSlice n fun x => { x with outw := x.outw.filter fun p => p.id != o.id }).slice n =
      { s.slice n with outw := (s.slice n).outw.filter fun p => p.id != o.id } := State.slice_modSlice_self _ _ _
  have hdone (w : State) : Only { accs := true } w (o.more.foldl (fun s a => s.accDone a) w) :=
    Only.foldl (fun x a => (State.accDone_within x a).only) _ _
  have hslice : u.slice n = { s.slice n with outw := (s.slice n).outw.filter fun p => p.id != o.id } :=
    hu ▸ ((hdone _).slice rfl n).trans (((State.reqFail_within _ _ _).only.slice rfl n).trans hmod)
  have hover : u.PwbOver l seq := hu ▸ (State.reqFail_over _ (hr.trans hsrc) why).of_only (hdone _) rfl
  split
  · exact hover.of_only (State.release_of_no_register (by rw [hslice]; exact hmrs) (by rw [hslice]; exact hvbs)) rfl
  · exact hover

theorem State.pwbDrop_over (s : State) (l : Nat) (e : PwbEnt) (hmrs : (s.slice (sliceOf e.la)).mrs = []) (hvbs : (s.slice (sliceOf e.la)).vbs = []) :
    (s.pwbDrop l e).PwbOver l e.seq := by
  simp only [State.pwbDrop, hmrs, List.find?_nil]
  split
  · next o ho => exact State.outDrop_over hmrs hvbs (by simpa using List.find?_some ho) _
  · exact State.reqFail_over _ rfl _

theorem State.markUnreach_unreachable (s : State) (node : Nat) : (s.markUnreach node).unreachable node = true := by
  unfold State.markUnreach
  split
  · assumption
  · simp [State.unreachable]

theorem exec_pwbDeadlineExpiry_of_late (hpow : s.powered = true)
    (hent : (s.link l).pwb.find? (fun p => p.seq == seq && !p.performed) = some e) (hlate : 8 * beatClks ≤ s.ran e.t0 e.paused0)
    (hnode : laNode e.la ≠ s.nodeNo) :
    exec (.pwbDeadlineExpiry l seq) s = .next ((s.noFinds fun s => s.pwbDrop l e).markUnreach (laNode e.la)) := by
  have hrun : ¬ s.ran e.t0 e.paused0 < deadlineClks := Nat.not_lt.2 hlate
  have hnodeNo : (s.noFinds fun s => s.pwbDrop l e).nodeNo = s.nodeNo := (State.pwbDrop_within { s with finds := {} } l e).only.nodeNo rfl
  have hfar : ¬ laNode e.la = (s.noFinds fun s => s.pwbDrop l e).nodeNo := by rwa [hnodeNo]
  simp only [exec, execPwbDeadlineExpiry, hpow, hent, hrun, Bool.not_true, Bool.false_eq_true, if_false]
  rw [if_neg (by simpa using hfar)]

theorem exec_pwbDeadlineExpiry_of_early (hent : (s.link l).pwb.find? (fun p => p.seq == seq && !p.performed) = some e)
    (hearly : s.ran e.t0 e.paused0 < 8 * beatClks) : exec (.pwbDeadlineExpiry l seq) s = .next s := by
  have hrun : s.ran e.t0 e.paused0 < deadlineClks := hearly
  simp [exec, execPwbDeadlineExpiry, hent, hrun]

theorem exec_pwbHwmReset_of_on (hpow : s.powered = true) :
    exec (.pwbHwmReset l) s = .next (s.modLink l fun x => { x with pwbHwm := x.pwb.length }) := by
  simp [exec, execPwbHwmReset, hpow]

/-! ### The answer to an acquiring load (R184) -/

theorem exec_acquireLoadResponse_of_due {d : Line} {p : Bool} {v : Nat} (hpow : s.powered = true) (hreq : s.hreq rid = some h)
    (hresp : h.resp = some (d, p, v)) (hph : h.ph = .acquire) (hdue : h.advTicket ≤ s.lse.dblDone) :
    exec (.acquireLoadResponse rid) s = .next ((s.hostData h d p v).hostGone rid) := by
  simp [exec, execAcquireLoadResponse, hreq, hresp, hpow, hph, hdue]

theorem exec_acquireLoadResponse_of_early (hreq : s.hreq rid = some h) (hearly : s.lse.dblDone < h.advTicket) :
    exec (.acquireLoadResponse rid) s = .next s := by
  have hnot : ¬ h.advTicket ≤ s.lse.dblDone := Nat.not_le.2 hearly
  simp only [exec, execAcquireLoadResponse, hreq, hnot, decide_false, Bool.and_false, Bool.false_eq_true, if_false]
  split <;> rfl

/-! ### What has been sent stays sent, while a host copy is recorded -/

theorem State.mem_outs_hsfWrite {o : Out} (ho : o ∈ s.outs) (key : Nat) : o ∈ (s.hsfWrite key).outs := by
  have hbucket : o ∈ (s.bucket 152).outs := by
    obtain ⟨x, c, lv, hb, hx⟩ : ∃ (x : State) (c : Bool) (lv : Nat),
        s.bucket 152 = (if c then x.rec_ 0x07 152 0xFFFF 0 lv else x) ∧ x.outs = s.outs := ⟨_, _, _, rfl, rfl⟩
    rw [← hx] at ho
    rw [hb]
    split
    · exact State.mem_outs_rec ho _ _ _ _ _
    · exact ho
  unfold State.hsfWrite
  rw [(State.flipDone_within _ _ _ _).only.outs rfl]
  split
  · exact ho
  · exact hbucket
  · exact ho

theorem State.mem_outs_sendBi {o : Out} (ho : o ∈ s.outs) (key : Nat) (flat : Bool) (c : HsfCopy) (inv : Bool) (w : BiWait) :
    o ∈ (s.sendBi key flat c inv w).outs := by
  unfold State.sendBi
  split
  · exact ho
  · exact List.mem_append_left _ ho

theorem State.mem_outs_hsfEvict {o : Out} (ho : o ∈ s.outs) (x : HsfEnt) : o ∈ (s.hsfEvict x).outs := by
  unfold State.hsfEvict
  split
  · exact ho
  · exact List.foldlRecOn (motive := fun t => o ∈ State.outs t) _ _ ho fun _ ht _ _ => State.mem_outs_sendBi ht _ _ _ _ _

theorem State.mem_outs_recordCopy {o : Out} (ho : o ∈ s.outs) (key : Nat) (flat : Bool) (c : HsfCopy) : o ∈ (s.recordCopy key flat c).outs := by
  unfold State.recordCopy
  split
  · exact State.mem_outs_hsfWrite ho key
  · refine State.mem_outs_hsfWrite (s := match s.hsfVictim key flat with | none => _ | some old => _) ?_ key
    split
    · exact ho
    · exact State.mem_outs_hsfEvict ho _

/-- A line goes out with the MetaValue granted, I where its lease has aged out meanwhile (R167). -/
theorem State.hostData_sends (hmute : h.mute = false) (d : Line) (p : Bool) (v : Nat) :
    .memData h.link h.req.tag d p (if h.win = .glob ∧ 2 ≤ s.lse.count - h.advs then 0 else v) ∈ (s.hostData h d p v).outs := by
  have hval : (if h.win == .glob && 2 ≤ s.lse.count - h.advs then 0 else v) = if h.win = .glob ∧ 2 ≤ s.lse.count - h.advs then 0 else v := by
    simp only [Bool.and_eq_true, beq_iff_eq, decide_eq_true_eq]
  simp only [State.hostData, hmute, Bool.false_eq_true, if_false, hval]
  generalize (if h.win = .glob ∧ 2 ≤ s.lse.count - h.advs then 0 else v) = w
  split
  · exact List.mem_append_right _ (List.mem_singleton_self _)
  · exact State.mem_outs_recordCopy (s := State.emit _ _) (List.mem_append_right _ (List.mem_singleton_self _)) _ _ _

end

/-- Settles O13: a store's entry is the last thing that its link's buffer takes, and the answer leaves the buffer alone; an entry that issues is
marked and stands at its slice's input; one that is given up fails as a request, whatever of it the slice still holds, and failing ends its
entry. -/
theorem postedWriteBuffer : Obligations.PostedWriteBuffer := by
  refine ⟨?_, ?_, fun s l e => exec_pwbIssue_of_held, ?_, fun s l seq e => exec_pwbDeadlineExpiry_of_early, ?_,
    fun s rid h => exec_acquireLoadResponse_of_early, ?_⟩
  · intro s rid h hpow hreq hph hop hali hdev hmute hup hroom hline hfirst
    obtain ⟨c, henter⟩ := State.pwbEnter_of_room hroom hline hfirst
    refine ⟨_, s.newPwb h, exec_pwbEntry_of_waiting hpow hreq hph hop hali hdev hup henter, State.hostCmp_sends hmute, State.hreqs_hostGone _ _,
      (State.hostCmp_pwb _ _ _).trans (s.pwbTaken_self h), rfl, rfl, rfl, rfl, fun k hk => ?_, ?_⟩
    · exact (State.hostCmp_pwb _ _ _).trans (congrArg HLink.pwb (s.pwbTaken_ne h hk))
    · exact (State.hostCmp_within (s.pwbTaken h) _).only.slices rfl
  · intro s l e hpow hnext hpause hstrong hafter
    refine ⟨_, e.toReq l, exec_pwbIssue_of_free hpow hnext hpause hstrong hafter, fun k => State.slice_setSlice _ _ k _, rfl, rfl, rfl, rfl, rfl,
      s.pwbIssued_marks l e.seq, fun k hk => s.pwbIssued_ne hk, ?_⟩
    exact ((State.modLink_of_pba (s := s) (l := l) rfl).mono rfl).trans ((State.toSlice_within _ _ _).only.mono rfl)
  · intro s l seq e hpow hent hlate hnode hmrs hvbs
    have hseq : e.seq = seq := by
      have := List.find?_some hent
      simp only [Bool.and_eq_true, beq_iff_eq] at this
      exact this.1
    subst hseq
    refine ⟨_, exec_pwbDeadlineExpiry_of_late hpow hent hlate hnode, State.markUnreach_unreachable _ _, ?_⟩
    exact State.PwbOver.of_only (s := s.noFinds fun s => s.pwbDrop l e) (State.pwbDrop_over _ l e hmrs hvbs)
      (State.markUnreach_within _ _).only rfl
  · intro s rid h d p v hpow hreq hresp hph hmute hdue
    exact ⟨_, exec_acquireLoadResponse_of_due hpow hreq hresp hph hdue, State.hostData_sends hmute d p v, State.hreqs_hostGone _ _⟩
  · intro s l hpow
    exact ⟨_, exec_pwbHwmReset_of_on hpow, State.link_modLink_self _ _ _, fun k hk => State.link_modLink_ne _ _ hk,
      State.modLink_of_pba rfl⟩

end Sys2Proof.Machine
end

section
/-! SUPPORT. FABRIC_DEADLINE_EXPIRY (R182) judges a miss register by the line of its primary request. -/

namespace Sys2Proof.Machine

theorem State.deadlineMr_of_ungoverned {s : State} {n i : Nat} {r : Mr} (hr : s.mr n i = some r) (hprim : s.governed r.prim = false)
    (hsecs : r.secs = []) : s.deadlineMr n i = s := by
  simp [State.deadlineMr, hr, hprim, hsecs]

theorem State.deadlineOut_of_none {s : State} {n : Nat} (houtw : (s.slice n).outw = []) (i : Nat) : s.deadlineOut n i = s := by
  simp [State.deadlineOut, houtw]

/-- A line of node 200, which lies in another domain than node 0. -/
def otherLine : Nat := 200 * 2 ^ 36

/-- A register of that line, outstanding since core clock 0, whose primary request is for line 0 of node 0. -/
def strayMr : Mr := { idx := 0, la := otherLine, prim := { src := .maint, kind := .read, la := 0 }, st := .sent }

/-- Node 0, at the register's fabric deadline. -/
def strayState : State := { State.reset with clk := deadlineClks, slices := [(sliceOf otherLine, { mrs := [strayMr] })] }

theorem strayState_only : OnlyRegister strayState strayMr.la strayMr := by constructor <;> decide +kernel

theorem strayState_late : strayState.classOf strayMr.la = .other ∧ deadlineClks ≤ strayState.ran strayMr.t0 strayMr.paused0 := by
  decide +kernel

/-- The deadline does not govern a request for a line of this node. -/
theorem strayState_ungoverned : (strayState.atWork {}).governed strayMr.prim = false := by decide +kernel

/-- The register stays. -/
theorem exec_fabricDeadlineExpiry_of_stray :
    exec (.fabricDeadlineExpiry (.mr (sliceOf strayMr.la) strayMr.idx) {}) strayState = .next (strayState.noted {}) := by
  have hwork := OnlyRegister.of_only (m := { la := strayMr.la }) strayState_only (strayState.atWork_only {}) rfl rfl rfl
  have hstays : (strayState.atWork {}).deadlineMr (sliceOf strayMr.la) strayMr.idx = strayState.atWork {} :=
    State.deadlineMr_of_ungoverned hwork.mr strayState_ungoverned rfl
  refine congrArg Host.Outcome.next (Eq.trans ?_ (strayState.finding_idle {}))
  simp only [State.finding_eq, hwork.powered, hstays, State.deadlineOut_of_none hwork.noOut, Bool.not_true, Bool.false_eq_true, if_false]

/-- Refutes O22: a register older than the fabric deadline, whose line is of another domain, does not end where its primary request is for
another line, one that the deadline does not govern: in `strayState` the deadline leaves the register as it is. A register is taken for its
primary request, whose line is its own; neither the statement nor `OnlyRegister` supposes it. -/
theorem not_globalAccesses : ¬ Obligations.GlobalAccesses := by
  rintro ⟨-, -, -, -, -, -, hdeadline, -, -⟩
  obtain ⟨hclass, hlate⟩ := strayState_late
  obtain ⟨t, hexec, hgone, -⟩ := (hdeadline strayState strayMr {} strayState_only hclass).1 hlate
  obtain rfl : strayState.noted {} = t := Host.Outcome.next.inj (exec_fabricDeadlineExpiry_of_stray.symm.trans hexec)
  have hstays : (strayState.noted {}).mr (sliceOf strayMr.la) strayMr.idx = some strayMr :=
    ((strayState.noted_within {}).only.mr rfl _ _).trans (OnlyRegister.mr (m := { la := strayMr.la }) strayState_only)
  rw [hstays] at hgone
  cases hgone

end Sys2Proof.Machine
end

section
/-! SUPPORT. How the lock state of machine time moves (R218, R219) and how MT is corrected (R220). -/

namespace Sys2Proof.Machine

/-! ### Signals -/

theorem State.signalAll_irq (s : State) (v : Nat) : (s.signalAll v).irq = s.irq ||| BitVec.ofNat 6 (2 ^ v) :=
  (Only.foldl (m := { pba := true, outs := true }) (fun x l => (State.signal_within x l v).only) (List.range 8)
    { s with irq := s.irq ||| BitVec.ofNat 6 (2 ^ v) }).irq rfl

/-- A vector that every link is signalled sets its cause bit (R472). -/
theorem State.signalAll_cause (s : State) {v : Nat} (hv : v < 6) : (s.signalAll v).irq.getLsbD v = true := by
  rw [State.signalAll_irq, BitVec.getLsbD_or, BitVec.getLsbD_ofNat, Nat.testBit_two_pow_self, decide_eq_true hv, Bool.and_true, Bool.or_true]

/-! ### Moving the lock state -/

/-- Machine time after a move to lock state `k` (Table 8.1). -/
def Mtu.moved (m : Mtu) (k : Nat) : Mtu :=
  { m with lock := k
           goodMarks := if k = 3 then m.goodMarks else 0
           lockLosses := if m.lock = 3 then satAdd 0xFFFF m.lockLosses 1 else m.lockLosses
           inGuard := if m.lock = 3 then false else m.inGuard
           resumeBeat := if k = 3 then (m.mt + 1023) / 1024 + m.guard + 1 else m.resumeBeat }

/-- A move of the lock state before it is recorded and signalled: after a loss the channels refresh free of MT (R235). -/
def State.moved (s : State) (k : Nat) : State :=
  { s with mtu := s.mtu.moved k
           mem := if s.mtu.lock = 3 then { s.mem with chans := s.mem.chans.map fun (c, ch) => (c, { ch with free := true }) } else s.mem }

/-- It is recorded and signalled. -/
def State.movedTold (s : State) (k : Nat) : State := ((s.moved k).rec_ 0x17 209 0xFFFF 0 k).signalAll 3

section
variable {s : State} {k : Nat}

theorem State.setLock_of_eq (h : s.mtu.lock = k) : s.setLock k = s := by
  simp [State.setLock, h]

theorem State.setLock_of_ne (hk : k ≤ 3) (h : s.mtu.lock ≠ k) :
    s.setLock k = if s.mtu.lock = 3 then (s.movedTold k).voidAll else s.movedTold k := by
  have hmin : min 3 k = k := by omega
  by_cases h3 : s.mtu.lock = 3
  · have hk3 : k ≠ 3 := fun e => h (h3.trans e.symm)
    simp [State.setLock, State.movedTold, State.moved, Mtu.moved, h3, hk3, Ne.symm hk3, hmin]
  · by_cases hk3 : k = 3
    · simp [State.setLock, State.movedTold, State.moved, Mtu.moved, h3, hk3]
    · simp [State.setLock, State.movedTold, State.moved, Mtu.moved, h, h3, hk3, hmin]

theorem State.movedTold_only (s : State) (k : Nat) :
    Only { ledger := true, irq := true, pba := true, outs := true, events := true, trc := true, trcCfg := true } (s.moved k) (s.movedTold k) :=
  (Within.app (State.signalAll_within _ 3) rfl (State.rec__within _ _ _ _ _ _)).only

theorem State.movedTold_mtu (s : State) (k : Nat) : (s.movedTold k).mtu = s.mtu.moved k := (s.movedTold_only k).mtu_eq rfl rfl

theorem State.movedTold_irq (s : State) (k : Nat) : (s.movedTold k).irq.getLsbD 3 = true := State.signalAll_cause _ (by decide)

theorem State.movedTold_hreqs (s : State) (k : Nat) : (s.movedTold k).hreqs = s.hreqs := (s.movedTold_only k).hreqs rfl

theorem State.voidAll_mtu (s : State) : s.voidAll.mtu = s.mtu := rfl
theorem State.voidAll_irq (s : State) : s.voidAll.irq = s.irq := rfl
theorem State.voidAll_hreqs (s : State) : s.voidAll.hreqs = s.hreqs.map fun h => { h with voided := true } := rfl

theorem State.setLock_mtu (hk : k ≤ 3) (h : s.mtu.lock ≠ k) : (s.setLock k).mtu = s.mtu.moved k := by
  rw [State.setLock_of_ne hk h]
  split
  · rw [State.voidAll_mtu, s.movedTold_mtu k]
  · exact s.movedTold_mtu k

theorem State.setLock_irq (hk : k ≤ 3) (h : s.mtu.lock ≠ k) : (s.setLock k).irq.getLsbD 3 = true := by
  rw [State.setLock_of_ne hk h]
  split
  · rw [State.voidAll_irq, s.movedTold_irq k]
  · exact s.movedTold_irq k

/-- A loss of LOCKED voids the bounds in progress (R234). -/
theorem State.setLock_hreqs_of_loss (hk : k < 3) (h : s.mtu.lock = 3) : (s.setLock k).hreqs = s.hreqs.map fun h => { h with voided := true } := by
  rw [State.setLock_of_ne (by omega) (by omega), if_pos h, State.voidAll_hreqs, s.movedTold_hreqs k]

theorem State.setLock_hreqs_of_not_locked (hk : k ≤ 3) (h : s.mtu.lock ≠ k) (h3 : s.mtu.lock ≠ 3) : (s.setLock k).hreqs = s.hreqs := by
  rw [State.setLock_of_ne hk h, if_neg h3, s.movedTold_hreqs k]

/-- Nothing but LOCKED is lost: the channels' refresh stays as it is. -/
theorem State.setLock_only_of_not_locked (hk : k ≤ 3) (h : s.mtu.lock ≠ k) (h3 : s.mtu.lock ≠ 3) :
    Only { mtu := true, ledger := true, irq := true, pba := true, outs := true, events := true, trc := true, trcCfg := true } s (s.setLock k) := by
  have hmoved : Only { mtu := true } s (s.moved k) := by
    unfold State.moved
    rw [if_neg h3]
    rfl
  rw [State.setLock_of_ne hk h, if_neg h3]
  exact (hmoved.mono rfl).trans ((s.movedTold_only k).mono rfl)

theorem State.setLock_lock (hk : k ≤ 3) : (s.setLock k).mtu.lock = k := by
  by_cases h : s.mtu.lock = k
  · rw [State.setLock_of_eq h, h]
  · rw [State.setLock_mtu hk h]; rfl

theorem State.setLock_pendingSet (hk : k ≤ 3) : (s.setLock k).mtu.pendingSet = s.mtu.pendingSet := by
  by_cases h : s.mtu.lock = k
  · rw [State.setLock_of_eq h]
  · rw [State.setLock_mtu hk h]; rfl

theorem State.setLock_mt (s : State) (k : Nat) : (s.setLock k).mtu.mt = s.mtu.mt := congrArg Prod.fst ((State.setLock_within s k).only.mt rfl)

/-! ### Correcting MT -/

/-- MT stood at `mt` and has been corrected to the reference value `v`: forward at once, back by half rate (R220). -/
structure CorrectedTo (mt v : Nat) (m : Mtu) : Prop where
  forward : mt < v → m.mt = v ∧ m.stepped = true ∧ m.half = none
  same : mt = v → m.mt = v ∧ m.half = none
  back : v < mt → mt ≤ v + 1048576 → m.mt = mt ∧ m.half = some v

theorem State.correct_correctedTo (s : State) (v : Nat) (set : Bool) : CorrectedTo s.mtu.mt v (s.correct v set).mtu := by
  refine ⟨fun h => ?_, fun h => ?_, fun h hnear => ?_⟩
  · simp [State.correct, h]
  · simp [State.correct, h]
  · have hle : ¬s.mtu.mt < v := by omega
    have hdiff : s.mtu.mt - v ≤ 1048576 := by omega
    simp [State.correct, hle, hdiff, Nat.ne_of_gt h]

theorem State.not_near_of_far {v : Nat} (h : v + 1048576 < s.mtu.mt) : ¬s.mtu.mt < v ∧ ¬s.mtu.mt - v ≤ 1048576 := by omega

/-- At a neighbour's value beyond 2^20 ns MT counts on (R220). -/
theorem State.correct_far_neighbour {v : Nat} (h : v + 1048576 < s.mtu.mt) :
    (s.correct v false).mtu.mt = s.mtu.mt ∧ (s.correct v false).mtu.ahead = true ∧ (s.correct v false).mtu.hold = none := by
  obtain ⟨hle, hdiff⟩ := State.not_near_of_far h
  simp [State.correct, hle, hdiff]

/-- A value beyond 2^20 ns that TIME_SET loaded holds MT (R220). -/
theorem State.correct_far_set {v : Nat} (h : v + 1048576 < s.mtu.mt) :
    (s.correct v true).mtu.mt = s.mtu.mt ∧ (s.correct v true).mtu.hold = some v ∧ (s.correct v true).mtu.ahead = true := by
  obtain ⟨hle, hdiff⟩ := State.not_near_of_far h
  simp [State.correct, hle, hdiff]

/-- Neither the lock state nor a pending TIME_SET value is a matter of the correction. -/
theorem State.correct_frame (s : State) (v : Nat) (set : Bool) :
    (s.correct v set).mtu.lock = s.mtu.lock ∧ (s.correct v set).mtu.pendingSet = s.mtu.pendingSet := by
  unfold State.correct
  extract_lets m
  split
  case isTrue => exact ⟨rfl, rfl⟩
  case isFalse =>
    split
    case isTrue => exact ⟨rfl, rfl⟩
    case isFalse => cases set <;> exact ⟨rfl, rfl⟩

/-! ### Marks -/

/-- The mark is noted. -/
def State.markNoted (s : State) : State := { s with mtu := { s.mtu with markMt := s.mtu.mt } }

theorem State.markNoted_mtu (s : State) : s.markNoted.mtu = { s.mtu with markMt := s.mtu.mt } := rfl

theorem CorrectedTo.markNoted {mt v : Nat} (h : CorrectedTo mt v s.mtu) : CorrectedTo mt v s.markNoted.mtu := ⟨h.forward, h.same, h.back⟩

/-- What a mark can change. -/
def markMask : Mask :=
  { mt := true, mtu := true, chans := true, hreqs := true, ledger := true, irq := true, pba := true, outs := true, events := true, trc := true,
    trcCfg := true }

theorem exec_mtMarkEdge (hpow : s.powered = true) (hlock : s.mtu.lock ≠ 0) : exec .mtMarkEdge s = .next s.mark.markNoted := by
  have h : exec .mtMarkEdge s = execMtMarkEdge s := rfl
  simp [h, execMtMarkEdge, hpow, hlock, State.markNoted]

theorem State.mark_markNoted_only (s : State) : Only markMask s s.mark.markNoted :=
  ((State.mark_within s).only.mono rfl).trans rfl

/-- In LOCKED a mark within 64 ns corrects nothing. -/
theorem State.mark_of_locked (hset : s.mtu.pendingSet = none) (hlock : s.mtu.lock = 3) : s.mark = if s.onMark = true then s else s.setLock 2 := by
  simp [State.mark, hset, hlock]

theorem State.mark_of_value (hset : s.mtu.pendingSet = none) (hlock : s.mtu.lock = 2) :
    s.mark = State.tryLock { s with mtu := { s.mtu with goodMarks := if s.onMark then s.mtu.goodMarks + 1 else 0 } } (nearMark s.mtu.mt) := by
  simp [State.mark, hset, hlock]

theorem State.mark_of_present (hset : s.mtu.pendingSet = none) (hlock : s.mtu.lock = 1) :
    s.mark = if s.refined = true ∧ s.mtu.steer ≠ none then (s.setLock 2).correct ((s.mtu.mt : Int) + s.mtu.ofs).toNat false else s := by
  simp [State.mark, hset, hlock, Option.isSome_iff_ne_none]

/-- A value that TIME_SET loaded takes effect at the mark (R215). -/
theorem State.mark_of_set {v : Nat} (hset : s.mtu.pendingSet = some v) :
    s.mark = if s.mtu.lock = 3 ∧ Machine.dist s.mtu.mt v ≤ 64 then { s with mtu := { s.mtu with pendingSet := none } }
      else (State.setLock { s with mtu := { s.mtu with pendingSet := none, ahead := false, goodMarks := 0 } } 2).correct v true := by
  simp [State.mark, hset]

theorem State.tryLock_of_few (v : Nat) (h : s.mtu.goodMarks < 3) : s.tryLock v = s := by
  simp [State.tryLock, Nat.not_le.mpr h]

theorem State.tryLock_of_enough (v : Nat) (hlock : s.mtu.lock = 2) (hgood : 3 ≤ s.mtu.goodMarks) (hrefined : s.refined = false)
    (hahead : s.mtu.ahead = false) : s.tryLock v = (s.setLock 3).correct v false := by
  simp [State.tryLock, hlock, hgood, hrefined, hahead]

/-- A mark that falls right lies far nearer than 2^20 ns. -/
theorem State.onMark_near (h : s.onMark = true) (hback : nearMark s.mtu.mt < s.mtu.mt) : s.mtu.mt ≤ nearMark s.mtu.mt + 1048576 := by
  have hdist : Machine.dist s.mtu.mt (nearMark s.mtu.mt) ≤ 64 := by simpa [State.onMark] using h
  rw [Machine.dist, if_neg (by omega)] at hdist
  omega

end
end Sys2Proof.Machine
end

section
/-! SUPPORT. The reference and its loss, marks and stamps that come or miss, and the end of a hold (R215, R217-R220, R234). -/

namespace Sys2Proof.Machine

section
variable {s : State}

/-- What a loss of LOCKED can change. -/
def lossMask : Mask :=
  { mtu := true, chans := true, hreqs := true, ledger := true, irq := true, pba := true, outs := true, events := true, trc := true, trcCfg := true }

theorem State.setLock_only (s : State) (k : Nat) : Only lossMask s (s.setLock k) := (State.setLock_within s k).only.mono rfl

/-- Machine time after a loss of LOCKED. -/
theorem State.setLock_mtu_of_loss {k : Nat} (hk : k < 3) (hlock : s.mtu.lock = 3) : (s.setLock k).mtu =
    { s.mtu with lock := k, goodMarks := 0, lockLosses := satAdd 0xFFFF s.mtu.lockLosses 1, inGuard := false } := by
  rw [State.setLock_mtu (by omega) (by omega)]
  simp [Mtu.moved, hlock, Nat.ne_of_lt hk]

/-- Machine time after a move to another state than LOCKED that loses nothing. -/
theorem State.setLock_mtu_of_low {k : Nat} (hk : k < 3) (hne : s.mtu.lock ≠ k) (hlock : s.mtu.lock ≠ 3) :
    (s.setLock k).mtu = { s.mtu with lock := k, goodMarks := 0 } := by
  rw [State.setLock_mtu (by omega) hne]
  simp [Mtu.moved, hlock, Nat.ne_of_lt hk]

/-! ### The reference -/

theorem exec_mtRefPresent (hpow : s.powered = true) : exec .mtRefPresent s = .next (if s.mtu.lock = 0 then s.setLock 1 else s) := by
  have h : exec .mtRefPresent s = execMtRefPresent s := rfl
  simp [h, execMtRefPresent, hpow]

theorem exec_mtRefLost (hpow : s.powered = true) : exec .mtRefLost s = .next (s.setLock 0) := by
  have h : exec .mtRefLost s = execMtRefLost s := rfl
  simp [h, execMtRefLost, hpow]

/-- In NOREF a mark is ignored (R213). -/
theorem exec_mtMarkEdge_of_noref (hlock : s.mtu.lock = 0) : exec .mtMarkEdge s = .next s := by
  have h : exec .mtMarkEdge s = execMtMarkEdge s := rfl
  simp [h, execMtMarkEdge, hlock]

/-! ### Marks that correct nothing -/

theorem mtMarkEdge_of_locked_on (hpow : s.powered = true) (hset : s.mtu.pendingSet = none) (hlock : s.mtu.lock = 3) (hon : s.onMark = true) :
    exec .mtMarkEdge s = .next s.markNoted := by
  rw [exec_mtMarkEdge hpow (by omega), State.mark_of_locked hset hlock, if_pos hon]

theorem mtMarkEdge_of_locked_off (hpow : s.powered = true) (hset : s.mtu.pendingSet = none) (hlock : s.mtu.lock = 3) (hoff : s.onMark = false) :
    exec .mtMarkEdge s = .next (s.setLock 2).markNoted := by
  rw [exec_mtMarkEdge hpow (by omega), State.mark_of_locked hset hlock, if_neg (by simp [hoff])]

theorem mtMarkEdge_of_value_off (hpow : s.powered = true) (hset : s.mtu.pendingSet = none) (hlock : s.mtu.lock = 2) (hoff : s.onMark = false) :
    exec .mtMarkEdge s = .next { s with mtu := { s.mtu with goodMarks := 0, markMt := s.mtu.mt } } := by
  rw [exec_mtMarkEdge hpow (by omega), State.mark_of_value hset hlock, hoff, State.tryLock_of_few _ (by simp)]
  rfl

theorem mtMarkEdge_of_value_few (hpow : s.powered = true) (hset : s.mtu.pendingSet = none) (hlock : s.mtu.lock = 2) (hon : s.onMark = true)
    (hfew : s.mtu.goodMarks < 2) :
    exec .mtMarkEdge s = .next { s with mtu := { s.mtu with goodMarks := s.mtu.goodMarks + 1, markMt := s.mtu.mt } } := by
  rw [exec_mtMarkEdge hpow (by omega), State.mark_of_value hset hlock, hon, State.tryLock_of_few _ (by simp only [if_true]; omega)]
  rfl

theorem mtMarkEdge_of_present (hpow : s.powered = true) (hset : s.mtu.pendingSet = none) (hlock : s.mtu.lock = 1)
    (hno : s.refined = false ∨ s.mtu.steer = none) : exec .mtMarkEdge s = .next s.markNoted := by
  rw [exec_mtMarkEdge hpow (by omega), State.mark_of_present hset hlock, if_neg]
  rcases hno with h | h <;> simp [h]

/-! ### Marks that correct MT -/

/-- The third mark in succession that falls right enters LOCKED. -/
theorem mtMarkEdge_of_value_enough (hpow : s.powered = true) (hset : s.mtu.pendingSet = none) (hlock : s.mtu.lock = 2) (hon : s.onMark = true)
    (henough : 2 ≤ s.mtu.goodMarks) (hrefined : s.refined = false) (hahead : s.mtu.ahead = false) :
    ∃ t, exec .mtMarkEdge s = .next t ∧ t.mtu.lock = 3 ∧ t.irq.getLsbD 3 = true ∧ t.hreqs = s.hreqs ∧
      CorrectedTo s.mtu.mt (nearMark s.mtu.mt) t.mtu ∧ Only markMask s t := by
  generalize hv : nearMark s.mtu.mt = v
  let x : State := { s with mtu := { s.mtu with goodMarks := s.mtu.goodMarks + 1 } }
  have hmark : s.mark = (x.setLock 3).correct v false := by
    rw [State.mark_of_value hset hlock, hon, hv]
    exact State.tryLock_of_enough (s := x) _ hlock (by simp only [x]; omega) hrefined hahead
  have hne : x.mtu.lock ≠ 3 := by simp [x, hlock]
  have hcorrect := (State.correct_within (x.setLock 3) v false).only
  have hto := State.correct_correctedTo (x.setLock 3) v false
  have hlocked : (s.mark).mtu.lock = 3 := by
    rw [hmark, (State.correct_frame _ _ _).1, State.setLock_lock (by omega)]
  have hirq : s.mark.irq.getLsbD 3 = true := by
    rw [hmark, hcorrect.irq rfl, State.setLock_irq (by omega) hne]
  have hhreqs : s.mark.hreqs = s.hreqs := by
    rw [hmark, hcorrect.hreqs rfl, State.setLock_hreqs_of_not_locked (by omega) hne hne]
  rw [x.setLock_mt 3, ← hmark] at hto
  exact ⟨_, exec_mtMarkEdge hpow (by omega), hlocked, hirq, hhreqs, hto.markNoted, s.mark_markNoted_only⟩

/-- A refined E9 with a neighbour takes the neighbour's value. -/
theorem mtMarkEdge_of_present_refined {v : Nat} (hpow : s.powered = true) (hset : s.mtu.pendingSet = none) (hlock : s.mtu.lock = 1)
    (hrefined : s.refined = true) (hsteer : s.mtu.steer ≠ none) (hv : v = ((s.mtu.mt : Int) + s.mtu.ofs).toNat) :
    ∃ t, exec .mtMarkEdge s = .next t ∧ t.mtu.lock = 2 ∧ CorrectedTo s.mtu.mt v t.mtu ∧
      (v + 1048576 < s.mtu.mt → t.mtu.mt = s.mtu.mt ∧ t.mtu.ahead = true ∧ t.mtu.hold = none) ∧ Only markMask s t := by
  have hmark : s.mark = (s.setLock 2).correct v false := by
    rw [State.mark_of_present hset hlock, if_pos ⟨hrefined, hsteer⟩, ← hv]
  have hvalue : s.mark.mtu.lock = 2 := by
    rw [hmark, (State.correct_frame _ _ _).1, State.setLock_lock (by omega)]
  have hto := State.correct_correctedTo (s.setLock 2) v false
  have hfar := State.correct_far_neighbour (s := s.setLock 2) (v := v)
  rw [s.setLock_mt 2, ← hmark] at hto hfar
  exact ⟨_, exec_mtMarkEdge hpow (by omega), hvalue, hto.markNoted, hfar, s.mark_markNoted_only⟩

/-- A value that TIME_SET loaded and that differs by more than 64 ns takes effect at the mark (R215). -/
theorem mtMarkEdge_of_set {v : Nat} (hpow : s.powered = true) (hset : s.mtu.pendingSet = some v) (hlock : s.mtu.lock ≠ 0)
    (hdist : 64 < Machine.dist s.mtu.mt v) :
    ∃ t, exec .mtMarkEdge s = .next t ∧ t.mtu.pendingSet = none ∧ t.mtu.lock = 2 ∧ CorrectedTo s.mtu.mt v t.mtu ∧
      (v + 1048576 < s.mtu.mt → t.mtu.mt = s.mtu.mt ∧ t.mtu.hold = some v ∧ t.mtu.ahead = true) ∧ Only markMask s t := by
  let x : State := { s with mtu := { s.mtu with pendingSet := none, ahead := false, goodMarks := 0 } }
  have hmark : s.mark = (x.setLock 2).correct v true := by
    rw [State.mark_of_set hset, if_neg (by omega)]
  obtain ⟨hlockFrame, hsetFrame⟩ := State.correct_frame (x.setLock 2) v true
  have hused : s.mark.mtu.pendingSet = none := by
    rw [hmark, hsetFrame, State.setLock_pendingSet (by omega)]
  have hvalue : s.mark.mtu.lock = 2 := by
    rw [hmark, hlockFrame, State.setLock_lock (by omega)]
  have hto := State.correct_correctedTo (x.setLock 2) v true
  have hfar := State.correct_far_set (s := x.setLock 2) (v := v)
  rw [x.setLock_mt 2, ← hmark] at hto hfar
  exact ⟨_, exec_mtMarkEdge hpow hlock, hused, hvalue, hto.markNoted, hfar, s.mark_markNoted_only⟩

theorem mtMarkEdge_of_set_near {v : Nat} (hpow : s.powered = true) (hset : s.mtu.pendingSet = some v) (hlock : s.mtu.lock = 3)
    (hdist : Machine.dist s.mtu.mt v ≤ 64) :
    exec .mtMarkEdge s = .next { s with mtu := { s.mtu with pendingSet := none, markMt := s.mtu.mt } } := by
  rw [exec_mtMarkEdge hpow (by omega), State.mark_of_set hset, if_pos ⟨hlock, hdist⟩]
  rfl

/-! ### Marks and stamps that miss -/

theorem exec_mtMarkMissing (hpow : s.powered = true) : exec .mtMarkMissing s = .next (
    if s.mtu.mt ≤ s.mtu.markMt + 2 ^ 25 + 64 then s else if s.mtu.lock = 3 then s.setLock 2 else { s with mtu := { s.mtu with goodMarks := 0 } }) := by
  have h : exec .mtMarkMissing s = execMtMarkMissing s := rfl
  simp [h, execMtMarkMissing, hpow, State.marksMissing]

theorem exec_neighbourStampTimeout (hpow : s.powered = true) : exec .neighbourStampTimeout s = .next (
    if s.refined = true ∧ s.mtu.lock = 3 ∧ 256 ≤ s.beat - s.mtu.stampBeat then State.setLock { s with mtu := { s.mtu with goodOfs := 0 } } 2 else s) := by
  have h : exec .neighbourStampTimeout s = execNeighbourStampTimeout s := rfl
  simp [h, execNeighbourStampTimeout, hpow, and_assoc]

/-! ### The end of a hold and of a half-rate catch-up -/

theorem exec_mtHoldEnd_of_none (hhold : s.mtu.hold = none) : exec .mtHoldEnd s = .next s := by
  have h : exec .mtHoldEnd s = execMtHoldEnd s := rfl
  simp [h, execMtHoldEnd, hhold]

theorem exec_mtHoldEnd_of_some {v : Nat} (hpow : s.powered = true) (hhold : s.mtu.hold = some v) :
    exec .mtHoldEnd s = .next (if s.mtu.mt ≤ v then { s with mtu := { s.mtu with hold := none, ahead := false } } else s) := by
  have h : exec .mtHoldEnd s = execMtHoldEnd s := rfl
  simp [h, execMtHoldEnd, hpow, hhold]

theorem exec_halfRateCatchUpEnd_of_none (hhalf : s.mtu.half = none) : exec .halfRateCatchUpEnd s = .next s := by
  have h : exec .halfRateCatchUpEnd s = execHalfRateCatchUpEnd s := rfl
  simp [h, execHalfRateCatchUpEnd, hhalf]

theorem exec_halfRateCatchUpEnd_of_some {v : Nat} (hpow : s.powered = true) (hhalf : s.mtu.half = some v) :
    exec .halfRateCatchUpEnd s = .next (if s.mtu.mt ≤ v then { s with mtu := { s.mtu with half := none } } else s) := by
  have h : exec .halfRateCatchUpEnd s = execHalfRateCatchUpEnd s := rfl
  simp [h, execHalfRateCatchUpEnd, hpow, hhalf]

end

/-! ### The statement's clauses -/

section
variable {s : State}

theorem referenceChanges (hpow : s.powered = true) :
    (s.mtu.lock = 0 → ∃ t, exec .mtRefPresent s = .next t ∧ t.mtu = { s.mtu with lock := 1, goodMarks := 0 } ∧ t.irq.getLsbD 3 = true ∧
      Only { mtu := true, ledger := true, irq := true, pba := true, outs := true, events := true, trc := true, trcCfg := true } s t) ∧
    (s.mtu.lock ≠ 0 → exec .mtRefPresent s = .next s) ∧
    (s.mtu.lock = 0 → exec .mtRefLost s = .next s ∧ exec .mtMarkEdge s = .next s) ∧
    (s.mtu.lock = 1 ∨ s.mtu.lock = 2 → ∃ t, exec .mtRefLost s = .next t ∧ t.mtu = { s.mtu with lock := 0, goodMarks := 0 } ∧ t.irq.getLsbD 3 = true ∧
      Only { mtu := true, ledger := true, irq := true, pba := true, outs := true, events := true, trc := true, trcCfg := true } s t) ∧
    (s.mtu.lock = 3 → ∃ t, exec .mtRefLost s = .next t ∧ t.mtu = { s.mtu with
        lock := 0, goodMarks := 0, lockLosses := satAdd 0xFFFF s.mtu.lockLosses 1, inGuard := false } ∧
      t.irq.getLsbD 3 = true ∧ t.hreqs = s.hreqs.map (fun h => { h with voided := true }) ∧ Only lossMask s t) := by
  rw [exec_mtRefPresent hpow, exec_mtRefLost hpow]
  refine ⟨fun h => ?_, fun h => by rw [if_neg h], fun h => ⟨by rw [State.setLock_of_eq h], exec_mtMarkEdge_of_noref h⟩, fun h => ?_, fun h => ?_⟩
  · rw [if_pos h]
    exact ⟨_, rfl, State.setLock_mtu_of_low (by omega) (by omega) (by omega), State.setLock_irq (by omega) (by omega),
      State.setLock_only_of_not_locked (by omega) (by omega) (by omega)⟩
  · exact ⟨_, rfl, State.setLock_mtu_of_low (by omega) (by omega) (by omega), State.setLock_irq (by omega) (by omega),
      State.setLock_only_of_not_locked (by omega) (by omega) (by omega)⟩
  · exact ⟨_, rfl, State.setLock_mtu_of_loss (by omega) h, State.setLock_irq (by omega) (by omega), State.setLock_hreqs_of_loss (by omega) h,
      s.setLock_only 0⟩

/-- A mark that falls wrong takes LOCKED away (log 123). -/
theorem mtMarkEdge_loses (hpow : s.powered = true) (hset : s.mtu.pendingSet = none) (hlock : s.mtu.lock = 3) (hoff : s.onMark = false) :
    ∃ t, exec .mtMarkEdge s = .next t ∧ t.mtu = { s.mtu with
        lock := 2, goodMarks := 0, lockLosses := satAdd 0xFFFF s.mtu.lockLosses 1, inGuard := false, markMt := s.mtu.mt } ∧
      t.hreqs = s.hreqs.map (fun h => { h with voided := true }) ∧ Only lossMask s t := by
  refine ⟨_, mtMarkEdge_of_locked_off hpow hset hlock hoff, ?_, State.setLock_hreqs_of_loss (by omega) hlock, (s.setLock_only 2).trans rfl⟩
  rw [State.markNoted_mtu, State.setLock_mtu_of_loss (by omega) hlock]

theorem mtMarkMissing_loses (hpow : s.powered = true) (hmiss : s.mtu.markMt + 2 ^ 25 + 64 < s.mtu.mt) (hlock : s.mtu.lock = 3) :
    ∃ t, exec .mtMarkMissing s = .next t ∧ t.mtu = { s.mtu with
        lock := 2, goodMarks := 0, lockLosses := satAdd 0xFFFF s.mtu.lockLosses 1, inGuard := false } ∧ Only lossMask s t := by
  rw [exec_mtMarkMissing hpow, if_neg (Nat.not_le.mpr hmiss), if_pos hlock]
  exact ⟨_, rfl, State.setLock_mtu_of_loss (by omega) hlock, s.setLock_only 2⟩

theorem neighbourStampTimeout_loses (hpow : s.powered = true) (hrefined : s.refined = true) (hlock : s.mtu.lock = 3)
    (hold : 256 ≤ s.beat - s.mtu.stampBeat) :
    ∃ t, exec .neighbourStampTimeout s = .next t ∧ t.mtu = { s.mtu with
        lock := 2, goodMarks := 0, goodOfs := 0, lockLosses := satAdd 0xFFFF s.mtu.lockLosses 1, inGuard := false } ∧ Only lossMask s t := by
  rw [exec_neighbourStampTimeout hpow, if_pos ⟨hrefined, hlock, hold⟩]
  exact ⟨_, rfl, State.setLock_mtu_of_loss (s := { s with mtu := { s.mtu with goodOfs := 0 } }) (by omega) hlock,
    Only.trans (t := { s with mtu := { s.mtu with goodOfs := 0 } }) rfl (State.setLock_only _ 2)⟩

end

/-- Settles O34: every change of the lock state is `State.setLock` (`State.setLock_mtu`), every correction of MT `State.correct`
(`State.correct_correctedTo`), and a mark is one of the cases of `State.mark`. -/
theorem machineTimeLock : Obligations.MachineTimeLock := by
  refine ⟨fun s hpow => referenceChanges hpow, fun s hpow hset => ⟨?_, ?_, ?_, ?_, ?_, ?_, ?_⟩, fun s v hpow hset hlock => ⟨?_, ?_⟩,
    fun s hpow => ⟨?_, ?_, ?_, ?_, ?_⟩, fun s v hpow => ⟨?_, ?_, ?_, ?_⟩⟩
  · exact fun hlock hon => mtMarkEdge_of_locked_on hpow hset hlock hon
  · exact fun hlock hoff => mtMarkEdge_loses hpow hset hlock hoff
  · exact fun hlock hoff => mtMarkEdge_of_value_off hpow hset hlock hoff
  · exact fun hlock hon hfew => mtMarkEdge_of_value_few hpow hset hlock hon hfew
  · intro hlock hon henough hrefined hahead
    obtain ⟨t, hexec, h3, hirq, hhreqs, hto, honly⟩ := mtMarkEdge_of_value_enough hpow hset hlock hon henough hrefined hahead
    refine ⟨t, hexec, h3, hirq, hhreqs, fun hle => ?_, fun hlt => hto.back hlt (State.onMark_near hon hlt), honly⟩
    rcases Nat.lt_or_eq_of_le hle with hlt | heq
    · exact ⟨(hto.forward hlt).1, (hto.forward hlt).2.2⟩
    · exact hto.same heq
  · exact fun hlock hno => mtMarkEdge_of_present hpow hset hlock hno
  · intro v hlock hrefined hsteer hv
    obtain ⟨t, hexec, h2, hto, hfar, honly⟩ := mtMarkEdge_of_present_refined hpow hset hlock hrefined hsteer hv
    exact ⟨t, hexec, h2, fun hlt => ⟨(hto.forward hlt).1, (hto.forward hlt).2.1⟩, hto.back, hfar, honly⟩
  · intro hdist
    obtain ⟨t, hexec, hused, h2, hto, hfar, honly⟩ := mtMarkEdge_of_set hpow hset hlock hdist
    exact ⟨t, hexec, hused, h2, fun hlt => ⟨(hto.forward hlt).1, (hto.forward hlt).2.1⟩, hto.back, hfar, honly⟩
  · exact fun hlocked hdist => mtMarkEdge_of_set_near hpow hset hlocked hdist
  · exact fun hmiss hlock => mtMarkMissing_loses hpow hmiss hlock
  · intro hearly
    rw [exec_mtMarkMissing hpow, if_pos hearly]
  · intro hmiss hlock
    rw [exec_mtMarkMissing hpow, if_neg (Nat.not_le.mpr hmiss), if_neg hlock]
  · exact fun hrefined hlock hold => neighbourStampTimeout_loses hpow hrefined hlock hold
  · intro hno
    rw [exec_neighbourStampTimeout hpow, if_neg]
    rintro ⟨hrefined, hlock, hold⟩
    rcases hno with h | h | h
    · simp [hrefined] at h
    · exact h hlock
    · omega
  · intro hhold hreached
    rw [exec_mtHoldEnd_of_some hpow hhold, if_pos hreached]
  · rintro (hhold | ⟨hhold, hbelow⟩)
    · exact exec_mtHoldEnd_of_none hhold
    · rw [exec_mtHoldEnd_of_some hpow hhold, if_neg (Nat.not_le.mpr hbelow)]
  · intro hhalf hreached
    rw [exec_halfRateCatchUpEnd_of_some hpow hhalf, if_pos hreached]
  · rintro (hhalf | ⟨hhalf, hbelow⟩)
    · exact exec_halfRateCatchUpEnd_of_none hhalf
    · rw [exec_halfRateCatchUpEnd_of_some hpow hhalf, if_neg (Nat.not_le.mpr hbelow)]

end Sys2Proof.Machine
end

section
/-! SUPPORT. Time packets (R216, R217, R325): the requests of a port, their answers, and what an answer tells of the neighbour. -/

namespace Sys2Proof.Machine

section
variable {s : State} {p v : Nat} {m : TimeMsg}

/-! ### Packets that a port sends -/

/-- Time packet `m` as port `p` sends it to its neighbour. -/
def State.timePkt (s : State) (p : Nat) (m : TimeMsg) : Packet := { dst := (s.port p).peerNode, src := s.nodeNo, vn := 3, body := .time m }

theorem State.sendTime_port (s : State) (p : Nat) (m : TimeMsg) :
    (s.sendTime p m).port p = { s.port p with txq := (s.port p).txq ++ [s.timePkt p m] } := State.port_modPort_self _ _ _

theorem State.sendTime_only (s : State) (p : Nat) (m : TimeMsg) : Only { ports := true } s (s.sendTime p m) := (State.modPort_within _ _ _).only

/-! ### Requests -/

/-- The port's last request is younger than 16 beats. -/
def FPort.requestFresh (x : FPort) (clk : Nat) : Prop := ∃ c, x.exAt = some c ∧ clk < c + 32768

/-- A request has gone now. -/
def State.requested (s : State) (p : Nat) : State :=
  (s.modPort p fun x => { x with exAt := some s.clk, t1 := none }).sendTime p { response := false, stratum := s.mtu.stratum, locked := s.locked }

theorem exec_timeExchange_of_due (hon : s.portOn p = true) (hrefine : s.fabRefine = true) (hst : (s.port p).st = 5)
    (hdue : ¬(s.port p).requestFresh s.clk) : exec (.timeExchange p) s = .next (s.requested p) := by
  have hexec : exec (.timeExchange p) s = execTimeExchange p s := rfl
  rw [hexec, execTimeExchange, if_neg (by simp [hon, hrefine, hst]), if_neg]
  · rfl
  · cases hat : (s.port p).exAt with
    | none => simp
    | some c =>
      have hold : c + 32768 ≤ s.clk := Nat.not_lt.mp fun hlt => hdue ⟨c, hat, hlt⟩
      simp [beatClks, Nat.not_lt.mpr hold]

theorem exec_timeExchange_of_idle (hno : s.fabRefine = false ∨ (s.port p).requestFresh s.clk) : exec (.timeExchange p) s = .next s := by
  have hexec : exec (.timeExchange p) s = execTimeExchange p s := rfl
  rw [hexec, execTimeExchange]
  rcases hno with hoff | ⟨c, hat, hfresh⟩
  · rw [if_pos (by simp [hoff])]
  · split
    · rfl
    · rw [if_pos (by simp [hat, beatClks, hfresh])]

theorem State.requested_port (s : State) (p : Nat) : (s.requested p).port p = { s.port p with
    exAt := some s.clk, t1 := none, txq := (s.port p).txq ++ [s.timePkt p { response := false, stratum := s.mtu.stratum, locked := s.locked }] } := by
  rw [State.requested, State.sendTime_port, State.timePkt, State.port_modPort_self]
  rfl

theorem State.requested_only (s : State) (p : Nat) : Only { ports := true } s (s.requested p) :=
  (State.modPort_within _ _ _).only.trans (State.sendTime_only _ _ _)

/-! ### Packets that come -/

/-- Packet `m` has been taken, and its stamp used up. -/
def State.stampUsed (s : State) (p : Nat) (m : TimeMsg) : State :=
  State.modPort { s with rtr := { s.rtr with delivered := s.rtr.delivered.eraseP fun k => decide (k.body = .time m ∧ k.vc = p) } } p
    fun x => { x with rxTime := x.rxTime.eraseP fun e => e.1 == m }

theorem State.stampUsed_port (hrx : (s.port p).rxTime = [(m, v)]) : (s.stampUsed p m).port p = { s.port p with rxTime := [] } := by
  rw [State.stampUsed, State.port_modPort_self]
  have herase : (s.port p).rxTime.eraseP (fun e => e.1 == m) = [] := by simp [hrx]
  exact congrArg (fun l => { s.port p with rxTime := l }) herase

theorem State.stampUsed_only (s : State) (p : Nat) (m : TimeMsg) : Only { ports := true, rtrRx := true } s (s.stampUsed p m) :=
  Only.trans (t := { s with rtr := { s.rtr with delivered := s.rtr.delivered.eraseP fun k => decide (k.body = .time m ∧ k.vc = p) } }) rfl
    ((State.modPort_within _ _ _).only.mono rfl)

/-- The delay that an answer shows, received when MT was `v`: half the excess of the round trip (R216). -/
def timeDelay (m : TimeMsg) (v : Nat) : Nat := min 255 ((((v : Int) - m.t1) - ((m.t3 : Int) - m.t2)) / 2).toNat

/-- What this E9 makes of the ports once port `p` has had answer `m` of a locked neighbour. -/
def State.neighbourSeen (s : State) (p : Nat) (m : TimeMsg) (v : Nat) : State :=
  ((s.stampUsed p m).modPort p fun x => { x with t1 := none, nbLocked := true, nbStratum := m.stratum, delay := timeDelay m v }).restrata

/-- What this E9 makes of the ports once port `p` has had answer `m` of an unlocked neighbour. -/
def State.neighbourGone (s : State) (p : Nat) (m : TimeMsg) : State :=
  ((s.stampUsed p m).modPort p fun x => { x with t1 := none, nbLocked := false, nbStratum := 255 }).restrata

theorem State.neighbourSeen_port (s : State) (p v : Nat) (m : TimeMsg) : (s.neighbourSeen p m v).port p =
    { (s.stampUsed p m).port p with t1 := none, nbLocked := true, nbStratum := m.stratum, delay := timeDelay m v } :=
  (State.port_of_ports ((State.restrata_within _).only.ports rfl) p).trans (State.port_modPort_self _ _ _)

theorem State.neighbourGone_port (s : State) (p : Nat) (m : TimeMsg) :
    (s.neighbourGone p m).port p = { (s.stampUsed p m).port p with t1 := none, nbLocked := false, nbStratum := 255 } :=
  (State.port_of_ports ((State.restrata_within _).only.ports rfl) p).trans (State.port_modPort_self _ _ _)

theorem State.neighbourGone_only (s : State) (p : Nat) (m : TimeMsg) : Only { ports := true, mtu := true, rtrRx := true } s (s.neighbourGone p m) :=
  ((s.stampUsed_only p m).mono rfl).trans
    (((State.modPort_within _ _ _).only.mono rfl).trans ((State.restrata_within _).only.mono rfl))

/-! ### What a port does with one -/

theorem State.stampUsed_portOn (s : State) (p q : Nat) (m : TimeMsg) : (s.stampUsed p m).portOn q = s.portOn q := rfl
theorem State.stampUsed_fabRefine (s : State) (p : Nat) (m : TimeMsg) : (s.stampUsed p m).fabRefine = s.fabRefine := rfl

/-- A packet from a replayed flit, and any packet without fabric refinement, is only taken. -/
theorem exec_timePacket_of_dropped (replayed : Bool) (h : replayed = true ∨ s.fabRefine = false) :
    exec (.timePacket p m replayed) s = .next (s.stampUsed p m) := by
  have hexec : exec (.timePacket p m replayed) s = execTimePacket p m replayed s := rfl
  rw [hexec, execTimePacket]
  refine congrArg Host.Outcome.next (if_pos ?_)
  change (!s.portOn p || replayed || _ || !s.fabRefine) = true
  rcases h with h | h <;> simp [h]

/-- What port `p` makes of packet `m` whose stamp was `v` (R216, R217). -/
theorem exec_timePacket_of_on (hon : s.portOn p = true) (hst : (s.port p).st = 5) (hrx : (s.port p).rxTime = [(m, v)])
    (hrefine : s.fabRefine = true) : ∃ t, exec (.timePacket p m false) s = .next t ∧
    (m.response = false → t = (s.stampUsed p m).sendTime p
      { response := true, stratum := s.mtu.stratum, locked := s.locked, t1 := m.t1, t2 := if s.locked then v else 0 }) ∧
    (m.response = true → (s.port p).t1 ≠ some m.t1 → t = s.stampUsed p m) ∧
    (m.response = true → (s.port p).t1 = some m.t1 → m.locked = false → t = s.neighbourGone p m) ∧
    (m.response = true → (s.port p).t1 = some m.t1 → m.locked = true → t.ports = (s.neighbourSeen p m v).ports) := by
  have hexec : exec (.timePacket p m false) s = execTimePacket p m false s := rfl
  rw [hexec, execTimePacket]
  extract_lets rtr taken rx used t4 ofs dly seen mtu stamped
  have hused : used = s.stampUsed p m := rfl
  have hport : used.port p = { s.port p with rxTime := [] } := State.stampUsed_port hrx
  have hgo : (!used.portOn p || false || (used.port p).st != 5 || !used.fabRefine) = false := by
    rw [hport, hused, State.stampUsed_portOn, State.stampUsed_fabRefine, hon, hrefine, hst]
    rfl
  have hstamp : rx = v := by
    have hfind : (taken.port p).rxTime.find? (fun e => e.1 == m) = some (m, v) := by
      rw [show taken.port p = s.port p from rfl, hrx]
      simp
    simp only [rx, hfind]
  have hstamped : stamped.ports = seen.ports := by
    unfold stamped
    split <;> rfl
  rw [hgo, if_neg Bool.false_ne_true]
  refine ⟨_, rfl, fun hreq => ?_, fun hresp hother => ?_, fun hresp hours hno => ?_, fun hresp hours hyes => ?_⟩
  · simp only [hreq, Bool.not_false, if_true]
    rw [hstamp]
    rfl
  · have hne : ((s.port p).t1 != some m.t1) = true := bne_iff_ne.mpr hother
    simp only [hresp, hport, hne, Bool.not_true, Bool.false_eq_true, if_false, if_true]
    rfl
  · simp only [hresp, hport, hours, hno, Bool.not_true, Bool.not_false, bne_self_eq_false, Bool.false_eq_true, if_false, if_true]
    rfl
  · simp only [hresp, hport, hours, hyes, Bool.not_true, bne_self_eq_false, Bool.false_eq_true, if_false]
    have hseen : seen.ports = (s.neighbourSeen p m v).ports := by
      simp only [seen, dly, t4, hstamp]
      rfl
    split
    · rw [(State.measured_within _ _).only.ports rfl, hstamped, hseen]
    · rw [hstamped, hseen]

end

/-- Settles O33: a due request is `State.requested`, and a packet that comes is used up (`State.stampUsed`) and then one of the cases of
`exec_timePacket_of_on`. -/
theorem timeExchange : Obligations.TimeExchange := by
  refine ⟨fun s p hon => ⟨fun hrefine hst hdue => ?_, exec_timeExchange_of_idle⟩, fun s p v m hon hst hrx => ?_⟩
  · have hnot : ¬(s.port p).requestFresh s.clk := by
      rintro ⟨c, hat, hfresh⟩
      rcases hdue with h | ⟨d, h, hold⟩ <;> rw [hat] at h <;> cases h
      omega
    exact ⟨_, exec_timeExchange_of_due hon hrefine hst hnot, s.requested_port p, s.requested_only p⟩
  have hused := State.stampUsed_port hrx
  have honly := s.stampUsed_only p m
  refine ⟨fun hrefine hreq => ?_, fun hrefine hresp hours hyes => ?_, fun hrefine hresp hours hno => ?_, fun hother => ?_, ?_⟩
  · obtain ⟨t, hexec, hanswer, -, -, -⟩ := exec_timePacket_of_on hon hst hrx hrefine
    obtain rfl := hanswer hreq
    refine ⟨_, hexec, ?_, honly.trans ((State.sendTime_only _ _ _).mono rfl)⟩
    rw [State.sendTime_port, State.timePkt, hused]
    rfl
  · obtain ⟨t, hexec, -, -, -, hports⟩ := exec_timePacket_of_on hon hst hrx hrefine
    have hport : t.port p = (s.neighbourSeen p m v).port p := State.port_of_ports (hports hresp hours hyes) p
    rw [State.neighbourSeen_port] at hport
    exact ⟨t, hexec, by rw [hport], by rw [hport], by rw [hport], by rw [hport]; rfl⟩
  · obtain ⟨t, hexec, -, -, hgone, -⟩ := exec_timePacket_of_on hon hst hrx hrefine
    obtain rfl := hgone hresp hours hno
    have hport := s.neighbourGone_port p m
    exact ⟨_, hexec, by rw [hport], by rw [hport], by rw [hport], s.neighbourGone_only p m⟩
  · rcases Bool.eq_false_or_eq_true s.fabRefine with hrefine | hoff
    · obtain ⟨t, hexec, -, hleft, -, -⟩ := exec_timePacket_of_on hon hst hrx hrefine
      obtain ⟨hresp, hne⟩ := hother.resolve_left (by simp [hrefine])
      obtain rfl := hleft hresp hne
      exact ⟨_, hexec, hused, honly⟩
    · exact ⟨_, exec_timePacket_of_dropped false (.inr hoff), hused, honly⟩
  · exact ⟨_, exec_timePacket_of_dropped true (.inl rfl), hused, honly⟩

end Sys2Proof.Machine
end

section
/-! SUPPORT. The wake of the channels before SERVICE (R272): without PASR a channel leaves self-refresh at once, but one that is leaving it already
goes on. -/

namespace Sys2Proof.Machine

section
variable {s : State} {c d : Nat}

theorem State.srExit_of_awake (h : (s.chan c).sr = false ∨ (s.chan c).waking = true) : s.srExit c = s := by
  rcases h with h | h <;> simp [State.srExit, h]

/-- What a channel that leaves self-refresh shows of it. -/
theorem State.srExit_of_asleep (hpasr : s.mem.pasrEn = false) (hsr : (s.chan c).sr = true) (hwaking : (s.chan c).waking = false) :
    ∃ x : Chan, s.srExit c = s.setChan c x ∧ x.sr = false ∧ x.waking = false := by
  simp only [State.srExit, hsr, hwaking, hpasr, Bool.not_true, Bool.or_self, Bool.and_false, Bool.false_eq_true, if_false]
  exact ⟨_, rfl, rfl, rfl⟩

theorem State.srExit_only (hpasr : s.mem.pasrEn = false) (c : Nat) : Only { chans := true } s (s.srExit c) := by
  by_cases h : (s.chan c).sr = false ∨ (s.chan c).waking = true
  · rw [State.srExit_of_awake h]
    exact Only.refl _ _
  · simp only [not_or, Bool.not_eq_false, Bool.not_eq_true] at h
    obtain ⟨x, hx, -, -⟩ := State.srExit_of_asleep hpasr h.1 h.2
    rw [hx]
    exact (State.setChan_within _ _ _).only

theorem State.srExit_chan (hpasr : s.mem.pasrEn = false) (c d : Nat) :
    ((s.srExit c).chan d).waking = (s.chan d).waking ∧
      ((s.srExit c).chan d).sr = if d = c ∧ (s.chan d).waking = false then false else (s.chan d).sr := by
  by_cases h : (s.chan c).sr = false ∨ (s.chan c).waking = true
  · rw [State.srExit_of_awake h]
    refine ⟨rfl, ?_⟩
    split
    · next hd =>
      obtain ⟨rfl, hwaking⟩ := hd
      exact h.resolve_right (by simp [hwaking])
    · rfl
  · simp only [not_or, Bool.not_eq_false, Bool.not_eq_true] at h
    obtain ⟨x, hx, hsr, hwaking⟩ := State.srExit_of_asleep hpasr h.1 h.2
    rw [hx, State.chan_setChan]
    by_cases hd : d = c
    · subst hd
      simp [hsr, hwaking, h.2]
    · simp [hd]

theorem Only.pasrEn {m : Mask} {t : State} (h : Only m s t) (hm : m.memCfg = false) : t.mem.pasrEn = s.mem.pasrEn :=
  congrArg (·.2.1) (h.memCfg hm)

theorem State.foldl_srExit (l : List Nat) (s : State) (hpasr : s.mem.pasrEn = false) : Only { chans := true } s (l.foldl State.srExit s) ∧
    ∀ d, ((l.foldl State.srExit s).chan d).waking = (s.chan d).waking ∧
      ((l.foldl State.srExit s).chan d).sr = if d ∈ l ∧ (s.chan d).waking = false then false else (s.chan d).sr := by
  induction l generalizing s with
  | nil => exact ⟨Only.refl _ _, fun d => ⟨rfl, by simp⟩⟩
  | cons c l ih =>
    have honly := State.srExit_only hpasr c
    obtain ⟨hrest, hchan⟩ := ih (s.srExit c) ((honly.pasrEn rfl).trans hpasr)
    refine ⟨honly.trans hrest, fun d => ?_⟩
    obtain ⟨hwaking, hsr⟩ := State.srExit_chan hpasr c d
    rw [List.foldl_cons, (hchan d).1, (hchan d).2, hwaking, hsr]
    rw [← ite_or]
    exact ⟨rfl, if_congr (by rw [List.mem_cons, or_and_right, or_comm]) rfl rfl⟩

theorem State.mem_chansOf {c : Nat} : c ∈ s.chansOf false ++ s.chansOf true ↔ s.chanPresent c = true := by
  have hfar : c ∈ s.chansOf true ↔ 64 ≤ c ∧ c < 72 := by
    simp only [State.chansOf, if_true, List.mem_map, List.mem_range]
    exact ⟨by rintro ⟨k, hk, rfl⟩; omega, fun ⟨h, h'⟩ => ⟨c - 64, by omega, by omega⟩⟩
  rw [List.mem_append, hfar]
  simp [State.chansOf, State.chanPresent]

theorem State.srExitAll_chan (hpasr : s.mem.pasrEn = false) {c : Nat} (hc : s.chanPresent c = true) :
    (s.srExitAll.chan c).sr = ((s.chan c).sr && (s.chan c).waking) := by
  rw [State.srExitAll, ((State.foldl_srExit _ s hpasr).2 c).2]
  cases hw : (s.chan c).waking <;> simp [State.mem_chansOf.mpr hc]

theorem State.srExitAll_only (hpasr : s.mem.pasrEn = false) : Only { chans := true } s s.srExitAll := (State.foldl_srExit _ s hpasr).1

theorem State.anySr_eq_true : s.anySr = true ↔ ∃ c, s.chanPresent c = true ∧ (s.chan c).sr = true := by
  simp only [State.anySr, List.any_eq_true, State.mem_chansOf]

/-- With no channel on its way out, all of them are awake at once. -/
theorem State.srExitAll_anySr_of_still (hpasr : s.mem.pasrEn = false) (hstill : ∀ c, (s.chan c).waking = false) : s.srExitAll.anySr = false := by
  rw [Bool.eq_false_iff, ne_eq, State.anySr_eq_true]
  rintro ⟨c, hpresent, hsr⟩
  have hpart := (State.srExitAll_only hpasr).part
  rw [State.chanPresent, hpart] at hpresent
  rw [State.srExitAll_chan hpasr hpresent, hstill c, Bool.and_false] at hsr
  cases hsr

/-- A channel that is leaving self-refresh keeps SERVICE waiting. -/
theorem State.srExitAll_anySr_of_waking (hpasr : s.mem.pasrEn = false) {c : Nat} (hc : s.chanPresent c = true) (hsr : (s.chan c).sr = true)
    (hwaking : (s.chan c).waking = true) : s.srExitAll.anySr = true := by
  have hpart := (State.srExitAll_only hpasr).part
  refine State.anySr_eq_true.mpr ⟨c, by rwa [State.chanPresent, hpart], ?_⟩
  rw [State.srExitAll_chan hpasr hc, hsr, hwaking]
  rfl

end
end Sys2Proof.Machine
end

section
/-! SUPPORT. NODE_SET, SET_STATE, TIME_SET, LEDGER_READ and LEDGER_CLEAR as free clerks execute them (R215, R408, R409, R426, R438). -/

namespace Sys2Proof.Machine

section
variable {s : State} {h : CmdHdr} {e : Nat}

/-! ### NODE_SET -/

theorem Issued.nodeSet_sets {n : BitVec 16} (hi : Issued s h (.nodeSet n) e) (hn : n.toNat ≤ 0x7FFF) :
    ∃ t, exec (.nodeSet h n) s = .next t ∧ t.nodeNo = n.toNat ∧ t.boot = { s.boot with nodeSet := true } ∧ Replied h e 0x0404 0 [] s t ∧
      Only { node := true, boot := true, mgtq := true, outs := true, events := true } s t := by
  have hcheck : nodeSetCheck n = stOK := if_pos hn
  obtain ⟨hend, hreply, hrest⟩ := hi.ends hcheck hcheck rfl (y := { s.executing h (.nodeSet n) with
    node := Tmr.of (n.setWidth 15), boot := { s.boot with nodeSet := true } }) rfl rfl rfl
  refine ⟨_, rfl, ?_, hrest.boot rfl, hreply, hi.ends_only hend rfl rfl rfl rfl⟩
  rw [State.nodeNo, hrest.node rfl, Tmr.val_of, BitVec.toNat_setWidth, Nat.mod_eq_of_lt (by omega)]

theorem Issued.nodeSet_of_large {n : BitVec 16} (hi : Issued s h (.nodeSet n) e) (hn : 0x7FFF < n.toNat) :
    ∃ t, exec (.nodeSet h n) s = .next t ∧ t.nodeNo = s.nodeNo ∧ Replied h e 0x0404 9 [] s t ∧ Only { outs := true } s t := by
  obtain ⟨hreply, honly⟩ := hi.badOperand (if_neg (Nat.not_le.mpr hn)) (.inr rfl)
  exact ⟨_, rfl, honly.nodeNo rfl, hreply, honly⟩

/-! ### SET_STATE -/

theorem State.setStateCheck_of_unknown {v : BitVec 8} (h1 : v ≠ 1) (h2 : v ≠ 2) : s.setStateCheck v = stBadParam := by
  rw [State.setStateCheck, beq_false_of_ne h1, beq_false_of_ne h2]
  rfl

theorem State.setStateCheck_of_maintenance : s.setStateCheck 2 = stOK := rfl

theorem State.setStateCheck_of_service :
    s.setStateCheck 1 = if s.devState = 2 ∧ (s.mode = 2 ∨ s.mgt.transition = true) then stRefused else stOK := by
  simp [State.setStateCheck]

/-- The state changed to `st`, and vector 1 signalled. -/
def State.stateEntered (s : State) (st : Nat) : State := ({ s with boot := { s.boot with dev := Tmr.of (BitVec.ofNat 2 st) } } : State).signalAll 1

theorem State.stateEntered_only (s : State) (st : Nat) : Only { boot := true, irq := true, pba := true, outs := true } s (s.stateEntered st) :=
  Only.trans (t := { s with boot := { s.boot with dev := Tmr.of (BitVec.ofNat 2 st) } }) rfl ((State.signalAll_within _ 1).only.mono rfl)

theorem State.stateEntered_boot (s : State) (st : Nat) : (s.stateEntered st).boot = { s.boot with dev := Tmr.of (BitVec.ofNat 2 st) } :=
  (State.signalAll_within _ 1).only.boot rfl

theorem State.setStateGo_of_same {v : BitVec 8} (id : Nat) (hv : v.toNat = s.devState) :
    s.setStateGo id v = s.cmdEnd id stOK (leBytes 1 s.devState) := by
  simp [State.setStateGo, hv]

theorem State.setStateGo_of_maintenance (id : Nat) (hdev : s.devState = 1) :
    s.setStateGo id 2 = (s.stateEntered 2).cmdEnd id stOK (leBytes 1 1) := by
  simp [State.setStateGo, State.stateChange, State.stateEntered, hdev]

theorem State.setStateGo_of_service (id : Nat) (hdev : s.devState = 2) (hdev' : s.srExitAll.devState = 2) : s.setStateGo id 1 =
    if s.srExitAll.anySr = true then s.srExitAll else (s.srExitAll.stateEntered 1).cmdEnd id stOK (leBytes 1 2) := by
  simp [State.setStateGo, State.stateChange, State.stateEntered, hdev, hdev']

theorem Issued.setState_maintenance (hi : Issued s h (.setState 2) e) (hdev : s.devState = 1) :
    ∃ t, exec (.setState h 2) s = .next t ∧ t.devState = 2 ∧ t.irq.getLsbD 1 = true ∧
      t.outs.getLast? = some (.mctp e Config.vendorId (replyBytes 0x0201 h 0 [1])) ∧
      Only { boot := true, irq := true, pba := true, mgtq := true, outs := true, events := true } s t := by
  have hgo := State.setStateGo_of_maintenance (s := s.executing h (.setState 2)) (s.runOf h (.setState 2)).id hdev
  have hentered := (s.executing h (.setState 2)).stateEntered_only 2
  obtain ⟨hq, hrun⟩ := hentered.clerks rfl
  obtain ⟨hend, hreply, hrest⟩ := hi.ends State.setStateCheck_of_maintenance State.setStateCheck_of_maintenance rfl hgo hrun hq
  refine ⟨_, rfl, ?_, ?_, hreply.getLast?, hi.ends_only hend hrun (hentered.mono rfl) rfl rfl⟩
  · rw [State.devState, hrest.boot rfl, State.stateEntered_boot, Tmr.val_of]
    rfl
  · rw [hrest.irq rfl]
    exact State.signalAll_cause _ (by decide)

theorem Issued.setState_again (hi : Issued s h (.setState 2) e) (hdev : (2 : BitVec 8).toNat = s.devState) :
    ∃ t, exec (.setState h 2) s = .next t ∧ Replied h e 0x0201 0 [2] s t ∧ Only { mgtq := true, outs := true, events := true } s t := by
  have hgo := State.setStateGo_of_same (s := s.executing h (.setState 2)) (s.runOf h (.setState 2)).id hdev
  obtain ⟨hend, hreply, -⟩ := hi.ends State.setStateCheck_of_maintenance State.setStateCheck_of_maintenance rfl hgo rfl rfl
  rw [show (s.executing h (.setState 2)).devState = 2 from hdev.symm] at hreply
  exact ⟨_, rfl, hreply, hi.ends_only hend rfl (Only.refl _ _) rfl rfl⟩

theorem Issued.setState_refused (hi : Issued s h (.setState 1) e) (hdev : s.devState = 2) (hno : s.mode = 2 ∨ s.mgt.transition = true) :
    ∃ t, exec (.setState h 1) s = .next t ∧ Replied h e 0x0201 11 [] s t ∧ Only { mgtq := true, outs := true, events := true } s t := by
  have hcheck : s.setStateCheck 1 = stRefused := State.setStateCheck_of_service.trans (if_pos ⟨hdev, hno⟩)
  exact ⟨_, rfl, hi.refused hcheck hcheck (by decide) (by decide) rfl⟩

theorem Issued.setState_unknown {v : BitVec 8} (hi : Issued s h (.setState v) e) (h1 : v ≠ 1) (h2 : v ≠ 2) :
    ∃ t, exec (.setState h v) s = .next t ∧ Replied h e 0x0201 9 [] s t ∧ Only { outs := true } s t :=
  ⟨_, rfl, hi.badOperand (State.setStateCheck_of_unknown h1 h2) (.inr rfl)⟩

section
variable (hi : Issued s h (.setState 1) e) (hdev : s.devState = 2) (hmode : s.mode ≠ 2) (htransition : s.mgt.transition = false)
  (hpasr : s.mem.pasrEn = false)
include hi hdev hmode htransition hpasr

/-- SERVICE is entered at once where no channel is still leaving self-refresh. -/
theorem Issued.setState_service (hstill : ∀ c, (s.chan c).waking = false) :
    ∃ t, exec (.setState h 1) s = .next t ∧ t.devState = 1 ∧ t.irq.getLsbD 1 = true ∧ t.boot = { s.boot with dev := t.boot.dev } ∧
      t.outs.getLast? = some (.mctp e Config.vendorId (replyBytes 0x0201 h 0 [2])) ∧
      (∀ c, s.chanPresent c = true → (t.chan c).sr = false) := by
  have hcheck : s.setStateCheck 1 = stOK := State.setStateCheck_of_service.trans (if_neg (by simp [hmode, htransition]))
  have hwake := State.srExitAll_only (s := s.executing h (.setState 1)) hpasr
  have hdev' : (s.executing h (.setState 1)).srExitAll.devState = 2 := by
    rw [State.devState, hwake.boot rfl]
    exact hdev
  have hsr : (s.executing h (.setState 1)).srExitAll.anySr = false := State.srExitAll_anySr_of_still hpasr hstill
  have hgo := (State.setStateGo_of_service (s := s.executing h (.setState 1)) (s.runOf h (.setState 1)).id hdev hdev').trans
    (if_neg (by rw [hsr]; exact Bool.false_ne_true))
  have hentered := (s.executing h (.setState 1)).srExitAll.stateEntered_only 1
  obtain ⟨hq, hrun⟩ := hentered.clerks rfl
  obtain ⟨hq', hrun'⟩ := hwake.clerks rfl
  obtain ⟨-, hreply, hrest⟩ := hi.ends hcheck hcheck rfl hgo (hrun.trans hrun') (hq.trans hq')
  have hboot := (hrest.boot rfl).trans (State.stateEntered_boot _ 1)
  rw [hwake.boot rfl] at hboot
  refine ⟨_, rfl, ?_, ?_, ?_, hreply.getLast?, fun c hc => ?_⟩
  · rw [State.devState, hboot, Tmr.val_of]
    rfl
  · rw [hrest.irq rfl]
    exact State.signalAll_cause _ (by decide)
  · rw [hboot]
    rfl
  · rw [hrest.chan rfl, hentered.chan rfl, State.srExitAll_chan (s := s.executing h (.setState 1)) hpasr hc,
      show ((s.executing h (.setState 1)).chan c).waking = false from hstill c, Bool.and_false]

/-- It waits for a channel that is leaving self-refresh. -/
theorem Issued.setState_waits {c : Nat} (hc : s.chanPresent c = true) (hsr : (s.chan c).sr = true) (hwaking : (s.chan c).waking = true) :
    ∃ (t : State) (r : Run), exec (.setState h 1) s = .next t ∧ t.devState = 2 ∧ t.mgt.running = [r] ∧ r.body = .setState 1 ∧
      t.outs = s.outs ∧ Only { chans := true, mgtq := true } s t := by
  have hcheck : s.setStateCheck 1 = stOK := State.setStateCheck_of_service.trans (if_neg (by simp [hmode, htransition]))
  have hwake := State.srExitAll_only (s := s.executing h (.setState 1)) hpasr
  have hdev' : (s.executing h (.setState 1)).srExitAll.devState = 2 := by
    rw [State.devState, hwake.boot rfl]
    exact hdev
  have hwaits : (s.executing h (.setState 1)).srExitAll.anySr = true := State.srExitAll_anySr_of_waking hpasr hc hsr hwaking
  have hgo := (State.setStateGo_of_service (s := s.executing h (.setState 1)) (s.runOf h (.setState 1)).id hdev hdev').trans (if_pos hwaits)
  obtain ⟨hq, hrun⟩ := hwake.clerks rfl
  have heq := hi.takesEffect hcheck hcheck rfl ((congrArg (fun x : State => x.mgt.queue) hgo).trans hq)
  have hbody : (s.executing h (.setState 1)).bodyGo (s.runOf h (.setState 1)).id (.setState 1) = (s.executing h (.setState 1)).srExitAll := hgo
  rw [hbody] at heq
  refine ⟨_, s.runOf h (.setState 1), rfl, ?_⟩
  rw [heq]
  exact ⟨hdev', hrun, rfl, hwake.outs rfl, (hwake.mono (b := { chans := true, mgtq := true }) rfl).of_executing rfl⟩

end

/-! ### TIME_SET -/

theorem Issued.timeSet_sets {m : Word} (hi : Issued s h (.timeSet m) e) (hm : m.toNat % 16777216 = 0) :
    ∃ t, exec (.timeSet h m) s = .next t ∧ t.mtu = { s.mtu with pendingSet := some m.toNat } ∧ Replied h e 0x0501 0 [] s t ∧
      Only { mtu := true, mgtq := true, outs := true, events := true } s t := by
  have hcheck : timeSetCheck m = stOK := if_pos (beq_iff_eq.mpr hm)
  obtain ⟨hend, hreply, hrest⟩ := hi.ends hcheck hcheck rfl
    (y := { s.executing h (.timeSet m) with mtu := { s.mtu with pendingSet := some m.toNat } }) rfl rfl rfl
  exact ⟨_, rfl, hrest.mtu_eq rfl rfl, hreply, hi.ends_only hend rfl rfl rfl rfl⟩

theorem Issued.timeSet_of_other {m : Word} (hi : Issued s h (.timeSet m) e) (hm : m.toNat % 16777216 ≠ 0) :
    ∃ t, exec (.timeSet h m) s = .next t ∧ Replied h e 0x0501 9 [] s t ∧ Only { outs := true } s t :=
  ⟨_, rfl, hi.badOperand (if_neg (mt beq_iff_eq.mp hm)) (.inr rfl)⟩

/-! ### The ledger -/

theorem Issued.ledgerRead_reads {f n : BitVec 16} (hi : Issued s h (.ledgerRead f n) e) (h1 : 1 ≤ n.toNat) (hn : n.toNat ≤ 128) :
    ∃ t, exec (.ledgerRead h f n) s = .next t ∧
      Replied h e 0x0601 0 (((s.ras.ring.drop f.toNat).take n.toNat).flatMap fun x => recBytes x.2) s t ∧
      Only { mgtq := true, outs := true, events := true } s t := by
  have hcheck : ledgerReadCheck n = stOK := if_pos (by simp [h1, hn])
  obtain ⟨hend, hreply, -⟩ := hi.ends hcheck hcheck rfl (y := s.executing h (.ledgerRead f n)) rfl rfl rfl
  exact ⟨_, rfl, hreply, hi.ends_only hend rfl (Only.refl _ _) rfl rfl⟩

theorem Issued.ledgerRead_of_count {f n : BitVec 16} (hi : Issued s h (.ledgerRead f n) e) (hn : n = 0 ∨ 128 < n.toNat) :
    ∃ t, exec (.ledgerRead h f n) s = .next t ∧ Replied h e 0x0601 9 [] s t ∧ Only { outs := true } s t := by
  have hcheck : ledgerReadCheck n = stBadParam := by
    refine if_neg ?_
    rcases hn with rfl | hn
    · simp
    · simp [Nat.not_le.mpr hn]
  exact ⟨_, rfl, hi.badOperand hcheck (.inr rfl)⟩

theorem Issued.ledgerClear_clears (hi : Issued s h .ledgerClear e) :
    ∃ t, exec (.ledgerClear h) s = .next t ∧ t.ras = { s.ras with ring := [] } ∧ Replied h e 0x0602 0 (leBytes 4 s.ras.ring.length) s t ∧
      Only { ledger := true, mgtq := true, outs := true, events := true } s t := by
  obtain ⟨hend, hreply, -⟩ := hi.ends rfl rfl rfl (y := { s.executing h .ledgerClear with ras := { s.ras with ring := [] } }) rfl rfl rfl
  refine ⟨_, rfl, ?_, hreply, hi.ends_only hend rfl rfl rfl rfl⟩
  rw [hend, State.cmdEnd_of_mctp (r := s.runOf h .ledgerClear) rfl hi.via]
  rfl

end

/-- Settles O50: free clerks take each command at once (`Issued.badOperand`, `Issued.refused`, `Issued.ends`); SERVICE turns on what the wake
of the channels leaves (`State.srExitAll_chan`). -/
theorem deviceAndLedgerCommands : Obligations.DeviceAndLedgerCommands := by
  refine ⟨fun s h e n hi => ⟨hi.nodeSet_sets, hi.nodeSet_of_large⟩, fun s h e v hi => ⟨?_, ?_, ?_, ?_, hi.setState_unknown⟩,
    fun s h e m hi => ⟨hi.timeSet_sets, hi.timeSet_of_other⟩, fun s h e f n hi => ⟨hi.ledgerRead_reads, hi.ledgerRead_of_count⟩,
    fun s h e hi => hi.ledgerClear_clears⟩
  · rintro rfl hdev hmode htransition hpasr
    exact ⟨hi.setState_service hdev hmode htransition hpasr, fun c => hi.setState_waits hdev hmode htransition hpasr⟩
  · rintro rfl hdev
    exact hi.setState_maintenance hdev
  · rintro hdev rfl
    exact hi.setState_again hdev
  · rintro rfl hdev hno
    exact hi.setState_refused hdev hno

end Sys2Proof.Machine
end

section
/-! SUPPORT. Writes of a schedule entry (R223, R225). -/

namespace Sys2Proof.Machine

/-- The value that a write of `v` to entry `i`'s T word gives the entry: its defined fields, beside the ARG that stands (Table 8.6). -/
def State.schNew (s : State) (i : Nat) (v : Word) : BitVec 96 :=
  BitVec.ofNat 96 ((v &&& 0x8F3F07FFFFDFFFFF).toNat + (s.schReg i).toNat / 2 ^ 64 * 2 ^ 64)

/-- The entries that writes of the present beat have replaced, as they stood. -/
def State.schStood (s : State) : List (Nat × BitVec 96) := if s.mtu.schBeat == s.beat then s.mtu.schOld else []

/-- The same once entry `i` is written. -/
def State.schHeld (s : State) (i : Nat) : List (Nat × BitVec 96) :=
  if s.schStood.any fun e => e.1 == i then s.schStood else s.schStood ++ [(i, s.schReg i)]

/-- Entry `i` stored as `w`, in force from the next beat on. -/
def State.schPut (s : State) (i : Nat) (w : BitVec 96) : State :=
  { s with mtu := { s.mtu with sch := Tab.put (Tmr.of 0) s.mtu.sch i (Tmr.of w), schOld := s.schHeld i, schBeat := s.beat } }

/-- SCH_ERR names entry `i`. -/
def State.schFaulted (s : State) (i : Nat) : State := { s with mtu := { s.mtu with schErr := true, schErrEntry := i } }

/-- The entry, disabled. -/
def schDisabled (w : BitVec 96) : BitVec 96 := w &&& ~~~(BitVec.ofNat 96 (2 ^ 63))

section
variable {s : State} {i j : Nat} {w : BitVec 96} {v : Word}

theorem State.schPut_schReg (s : State) (i j : Nat) (w : BitVec 96) : (s.schPut i w).schReg j = if j = i then w else s.schReg j := by
  simp only [State.schPut, State.schReg, Tab.get_put]
  split
  · exact Tmr.val_of w
  · rfl

theorem State.sch_eq (s : State) (j : Nat) :
    s.sch j = ((s.schStood.find? fun e => e.1 == j).map Prod.snd).getD (s.schReg j) := by
  unfold State.sch State.schStood
  cases s.mtu.schBeat == s.beat with
  | false => rfl
  | true => cases hfind : s.mtu.schOld.find? fun e => e.1 == j <;> simp [hfind]

theorem State.schPut_stood (s : State) (i : Nat) (w : BitVec 96) : (s.schPut i w).schStood = s.schHeld i := if_pos (beq_self_eq_true s.beat)

/-- In the present beat every entry stays in force as it stood (R223). -/
theorem State.schPut_sch (s : State) (i j : Nat) (w : BitVec 96) : (s.schPut i w).sch j = s.sch j := by
  rw [State.sch_eq, State.sch_eq, State.schPut_stood, State.schPut_schReg, State.schHeld]
  cases hin : s.schStood.any fun e => e.1 == i with
  | true =>
    by_cases hj : j = i
    · subst hj
      obtain ⟨e, hfind⟩ := Option.isSome_iff_exists.mp (List.find?_isSome.mpr (List.any_eq_true.mp hin))
      simp [hfind]
    · simp [hj]
  | false =>
    rw [if_neg Bool.false_ne_true, List.find?_append]
    by_cases hj : j = i
    · subst hj
      have hnone : (s.schStood.find? fun e => e.1 == j) = none := List.find?_eq_none.mpr (by simpa using hin)
      simp [hnone]
    · cases s.schStood.find? fun e => e.1 == j <;> simp [hj, Ne.symm hj]

/-- From the next beat on the entry is in force as stored. -/
theorem State.schPut_sch_later (s : State) (i : Nat) (w : BitVec 96) {m : Nat} (hm : m / 1024 ≠ s.beat) :
    ({ s.schPut i w with mtu := { (s.schPut i w).mtu with mt := m } } : State).sch i = (s.schPut i w).schReg i := by
  rw [State.sch_eq]
  have hstood : ({ s.schPut i w with mtu := { (s.schPut i w).mtu with mt := m } } : State).schStood = [] :=
    if_neg (by rw [beq_iff_eq]; exact Ne.symm hm)
  rw [hstood]
  rfl

/-! ### A write of the T word -/

theorem State.schNew_toNat (s : State) (i : Nat) (v : Word) :
    (s.schNew i v).toNat = (v &&& 0x8F3F07FFFFDFFFFF).toNat + (s.schReg i).toNat / 2 ^ 64 * 2 ^ 64 := by
  have hT := (v &&& 0x8F3F07FFFFDFFFFF).isLt
  have hA := (s.schReg i).isLt
  rw [State.schNew, BitVec.toNat_ofNat, Nat.mod_eq_of_lt (by omega)]

theorem State.schNew_en (s : State) (i : Nat) (v : Word) : schEn (s.schNew i v) = v.getLsbD 63 := by
  have hT := (v &&& 0x8F3F07FFFFDFFFFF).isLt
  rw [schEn, ← BitVec.testBit_toNat, State.schNew_toNat, Nat.add_comm, Nat.mul_comm, Nat.testBit_two_pow_mul_add _ hT, if_pos (by decide),
    BitVec.testBit_toNat, BitVec.getLsbD_and]
  simp

theorem schDisabled_en (w : BitVec 96) : schEn (schDisabled w) = false := by
  simp [schEn, schDisabled]

theorem State.schWrite_T (hpow : s.powered = true) (hopen : s.rwlOpen = true) (hi : i < 64) (v : Word) : s.schWrite (0x21000 + 16 * i) 8 v =
    if v.getLsbD 63 = true ∧ s.schGood i (s.schNew i v) = false then (s.schFaulted i).schPut i (schDisabled (s.schNew i v))
    else s.schPut i (s.schNew i v) := by
  have hlo : offMtu 0x1000 = 0x21000 := rfl
  have hhi : offMtu 0x1400 = 0x21400 := rfl
  unfold State.schWrite
  rw [hlo, hhi]
  extract_lets i' isT old oldT oldA okOff T A new refuse new' mtu faulted held held' faultedMtu
  have hi' : i' = i := by simp only [i']; omega
  have hisT : isT := by show _ < 8; omega
  have hok : okOff = true := by
    simp only [okOff, Bool.and_eq_true, decide_eq_true_eq, beq_iff_eq]
    refine ⟨⟨⟨?_, ?_⟩, ?_⟩, rfl⟩ <;> omega
  have hnew : new = s.schNew i v := by
    have hA : A.toNat = (s.schReg i).toNat / 2 ^ 64 := by
      have := (s.schReg i).isLt
      simp only [A, if_pos hisT, oldA, old, hi', BitVec.toNat_ofNat]
      omega
    have hT : T = v &&& 0x8F3F07FFFFDFFFFF := if_pos hisT
    simp only [new, hA, hT, State.schNew]
  have hrefuse : refuse = true ↔ v.getLsbD 63 = true ∧ s.schGood i (s.schNew i v) = false := by
    simp only [refuse, hnew, hi', State.schNew_en, Bool.and_eq_true, Bool.not_eq_true']
  rw [if_neg (by simp [hpow, hopen, hok])]
  by_cases hr : refuse = true
  · rw [if_pos (hrefuse.mp hr), ← hnew, ← hi']
    simp only [new', faulted, held', held, faultedMtu, mtu, if_pos hr]
    rfl
  · rw [if_neg (fun h => hr (hrefuse.mpr h)), ← hnew, ← hi']
    simp only [new', faulted, held', held, faultedMtu, if_neg hr]
    rfl

end
end Sys2Proof.Machine
end

section
/-! SUPPORT. Guards and lulls (R229, R232). -/

namespace Sys2Proof.Machine

section
variable {s : State} {v : BitVec 96}

theorem exec_mtuNowRead {l : Nat} (hon : s.linkOn l = true) : exec (.mtuNowRead l) s =
    .next (({ s with mtu := { s.mtu with latch := BitVec.ofNat 32 (s.mtu.mt / 2 ^ 32) } } : State).emit
      (.ioData l (BitVec.ofNat 64 (s.mtu.mt % 2 ^ 32)))) :=
  congrArg Host.Outcome.next (if_pos hon)

theorem State.powered_of_linkOn {l : Nat} (hon : s.linkOn l = true) : s.powered = true := by
  simp only [State.linkOn, Bool.and_eq_true] at hon
  exact hon.1.1.1

theorem exec_scheduleEntryWrite {l off : Nat} {w : Word} (hon : s.linkOn l = true) :
    exec (.scheduleEntryWrite l off 8 w) s = .next (s.schWrite off 8 w) :=
  congrArg Host.Outcome.next (if_pos hon)

theorem State.schWrite_closed (hshut : s.rwlOpen = false) (off size : Nat) (w : Word) : s.schWrite off size w = s := by
  unfold State.schWrite
  extract_lets
  exact if_pos (by simp [hshut])

/-- The guard runs for the lull of entry value `v`, MTU_STS.GUARD beats ahead. -/
def State.guardOf (s : State) (v : BitVec 96) : State :=
  { s with mtu := { s.mtu with inGuard := true, lullBeat := s.beat + s.mtu.guard, lullWidth := schWidth v, lullArg := BitVec.ofNat 32 (schArg v) } }

theorem exec_guardStart (hpow : s.powered = true) (hof : s.schOf 1 = some v) (hlock : s.locked = true) (hfree : s.inPause = false) :
    exec .guardStart s = .next (if schSince v (s.beat + s.mtu.guard) = 0 ∧ s.mtu.resumeBeat ≤ s.beat + s.mtu.guard then s.guardOf v else s) := by
  have h : exec .guardStart s = execGuardStart s := rfl
  rw [h, execGuardStart, hof]
  simp only [hpow, hlock, hfree, Bool.not_false, Bool.true_and, Bool.and_eq_true, beq_iff_eq, decide_eq_true_eq]
  rfl

/-- A lower-numbered entry of the refresh, scrub or sweep class holds the lull back (R221). -/
theorem State.lullMay_iff (s : State) : s.lullMay = true ↔ s.lullDue = true ∧
    ∀ j, s.lullEntry = some j → ∀ i < j, s.due i (schClass (s.sch i)) = true → schClass (s.sch i) ∉ [2, 3, 4] := by
  have hunit (c : Nat) : lullUnit c = true ↔ c ∈ [2, 3, 4] := by simp [lullUnit, or_assoc]
  rw [State.lullMay, Bool.and_eq_true]
  refine and_congr_right fun _ => ?_
  cases s.lullEntry with
  | none => simp
  | some j =>
    simp only [Bool.not_eq_true', List.any_eq_false, List.mem_range, Bool.and_eq_true, hunit, Option.some.injEq, forall_eq']
    exact forall₂_congr fun i _ => ⟨fun h hdue hin => h ⟨hin, hdue⟩, fun h hin => h hin.2 hin.1⟩

/-- The peer trackers that stand at a lull's start, which it waits for. -/
def State.lullPeers (s : State) : List (Nat × Nat × Nat) :=
  (List.range 64).flatMap fun n =>
    ((s.slice n).trks.filter fun t => match t.for_ with
      | .peer _ _ => t.ph != .reserved
      | .glob src _ => s.peerNode src
      | _ => false).map fun t => (n, t.htid, t.seq)

/-- The lull begins: what is in progress is marked, before the channels learn of it. -/
def State.lullOpened (s : State) : State :=
  { s with mtu := { s.mtu with inGuard := false, inLull := true, lullTrks := s.lullPeers }
           hreqs := s.hreqs.map fun h => { h with preLull := true } }

theorem exec_lullStart_of_not (hno : s.lullMay = false) : exec .lullStart s = .next s :=
  congrArg Host.Outcome.next (if_pos (by simp [hno]))

theorem exec_lullStart (hpow : s.powered = true) (hmay : s.lullMay = true) :
    ∃ t, exec .lullStart s = .next t ∧ Only { chans := true } s.lullOpened t := by
  have h : exec .lullStart s = execLullStart s := rfl
  rw [h, execLullStart, if_neg (by simp [hpow, hmay])]
  exact ⟨_, rfl, Only.foldl (fun x _ => (State.setChan_within x _ _).only) _ s.lullOpened⟩

theorem exec_lullEnd (hpow : s.powered = true) : exec .lullEnd s =
    .next (if s.mtu.inLull = true ∧ s.mtu.lullBeat + s.mtu.lullWidth ≤ s.beat then
      { s with mtu := { s.mtu with inLull := false, lullTrks := [], deferred := satAdd 0xFFFF s.mtu.deferred (((s.chansOf false ++ s.chansOf true).map s.segsLeft).foldl (· + ·) 0) } }
      else s) := by
  have h : exec .lullEnd s = execLullEnd s := rfl
  simp only [h, execLullEnd, hpow, Bool.true_and, Bool.and_eq_true, decide_eq_true_eq]

end

/-- What a write of an entry leaves: the other entries, what is in force in this beat, and every field but MTU's. -/
theorem State.schPut_leaves (s : State) (i : Nat) (w : BitVec 96) : (∀ j, j ≠ i → (s.schPut i w).schReg j = s.schReg j) ∧
    (∀ j, (s.schPut i w).sch j = s.sch j) ∧ Only { mtu := true } s (s.schPut i w) :=
  ⟨fun j hj => by rw [State.schPut_schReg, if_neg hj], fun j => State.schPut_sch s i j w, rfl⟩

theorem State.schPut_schErr (s : State) (i : Nat) (w : BitVec 96) : (s.schPut i w).mtu.schErr = s.mtu.schErr := rfl

theorem State.schNew_halves (s : State) (i : Nat) (v : Word) : (s.schNew i v).toNat % 2 ^ 64 = (v &&& 0x8F3F07FFFFDFFFFF).toNat ∧
    (s.schNew i v).toNat / 2 ^ 64 = (s.schReg i).toNat / 2 ^ 64 := by
  have hT := (v &&& 0x8F3F07FFFFDFFFFF).isLt
  rw [State.schNew_toNat]
  omega

/-- SCHEDULE_ENTRY_WRITE of a T word that disables the entry. -/
theorem scheduleEntryWrite_of_disabling {s : State} {l i : Nat} {v : Word} (hon : s.linkOn l = true) (hi : i < 64)
    (hopen : s.rwlOpen = true) (hdis : v.getLsbD 63 = false) :
    exec (.scheduleEntryWrite l (0x21000 + 16 * i) 8 v) s = .next (s.schPut i (s.schNew i v)) := by
  rw [exec_scheduleEntryWrite hon, State.schWrite_T (State.powered_of_linkOn hon) hopen hi, if_neg]
  exact fun h => Bool.false_ne_true (hdis.symm.trans h.1)

/-- SCHEDULE_ENTRY_WRITE of a T word that enables the entry against R225. -/
theorem scheduleEntryWrite_of_refused {s : State} {l i : Nat} {v : Word} (hon : s.linkOn l = true) (hi : i < 64)
    (hopen : s.rwlOpen = true) (hen : v.getLsbD 63 = true) (hbad : s.schGood i (s.schNew i v) = false) :
    exec (.scheduleEntryWrite l (0x21000 + 16 * i) 8 v) s = .next ((s.schFaulted i).schPut i (schDisabled (s.schNew i v))) := by
  rw [exec_scheduleEntryWrite hon, State.schWrite_T (State.powered_of_linkOn hon) hopen hi, if_pos ⟨hen, hbad⟩]

/-- Settles O35, by the equation of a T word's write and one equation for each boundary of guard and lull. -/
theorem scheduleAndLulls : Obligations.ScheduleAndLulls := by
  refine ⟨fun s l i v hon hi => ?_, fun s v hpow hof hlock hfree => ⟨?_, ?_⟩, fun s hpow => ⟨?_, ?_, ?_, ?_, ?_⟩⟩
  · refine ⟨fun hshut => ?_, fun hopen hdis => ?_, fun hopen hen hbad => ?_, _, exec_mtuNowRead hon, rfl, rfl, rfl⟩
    · rw [exec_scheduleEntryWrite hon, State.schWrite_closed hshut]
    · have hreg : (s.schPut i (s.schNew i v)).schReg i = s.schNew i v := by rw [State.schPut_schReg, if_pos rfl]
      obtain ⟨hothers, hforce, honly⟩ := s.schPut_leaves i (s.schNew i v)
      obtain ⟨hlow, hhigh⟩ := s.schNew_halves i v
      refine ⟨_, scheduleEntryWrite_of_disabling hon hi hopen hdis, ?_, ?_, hothers, hforce, fun m hm => State.schPut_sch_later s i _ hm, State.schPut_schErr s i _, honly⟩
      · rw [hreg, hlow]
      · rw [hreg, hhigh]
    · have hreg : ((s.schFaulted i).schPut i (schDisabled (s.schNew i v))).schReg i = schDisabled (s.schNew i v) := by
        rw [State.schPut_schReg, if_pos rfl]
      obtain ⟨hothers, hforce, _⟩ := (s.schFaulted i).schPut_leaves i (schDisabled (s.schNew i v))
      refine ⟨_, scheduleEntryWrite_of_refused hon hi hopen hen hbad, ?_, rfl, rfl, hothers, hforce, rfl⟩
      rw [hreg, schDisabled_en]
  · intro hsince hresume
    rw [exec_guardStart hpow hof hlock hfree, if_pos ⟨hsince, hresume⟩]
    rfl
  · intro hsince
    rw [exec_guardStart hpow hof hlock hfree, if_neg (fun h => hsince h.1)]
  · intro hguard hbeat hlower
    have hdue : s.lullDue = true := by simp [State.lullDue, hguard, hbeat]
    obtain ⟨t, hexec, honly⟩ := exec_lullStart hpow (s.lullMay_iff.mpr ⟨hdue, hlower⟩)
    have hmtu := Only.mtu_eq honly rfl rfl
    have hreqs := honly.hreqs rfl
    refine ⟨t, hexec, ?_, ?_, ?_, ?_, ?_⟩
    · rw [hmtu]; rfl
    · rw [hmtu]; rfl
    · rw [hmtu]; rfl
    · rw [hreqs]
      intro h hh
      obtain ⟨h', _, rfl⟩ := List.mem_map.mp hh
      rfl
    · have hbegun : Only { mtu := true, hreqs := true, chans := true } s s.lullOpened := rfl
      exact hbegun.trans (honly.mono rfl)
  · intro hearly
    refine exec_lullStart_of_not (Bool.eq_false_iff.mpr fun hmay => ?_)
    have hdue := (s.lullMay_iff.mp hmay).1
    simp only [State.lullDue, Bool.and_eq_true, decide_eq_true_eq] at hdue
    omega
  · intro i j hj hij hdue hin
    exact exec_lullStart_of_not (Bool.eq_false_iff.mpr fun hmay => (s.lullMay_iff.mp hmay).2 j hj i hij hdue hin)
  · intro hlull hover
    rw [exec_lullEnd hpow, if_pos ⟨hlull, hover⟩]
  · intro hearly
    rw [exec_lullEnd hpow, if_neg (fun h => Nat.not_le.mpr hearly h.2)]

end Sys2Proof.Machine
end

section
/-! SUPPORT. Loops over units that are each acted on once. -/

namespace Sys2Proof.Machine

section
variable {σ α β : Type} {f : σ → α → σ} {get : σ → β} {l : List α} {a : α} {x y : β}

/-- A loop that does not visit unit `a` leaves what `get` reads of it. -/
theorem foldl_keeps (hkeep : ∀ b ∈ l, ∀ s, get (f s b) = get s) (s : σ) : get (l.foldl f s) = get s :=
  List.foldlRecOn (motive := fun t => get t = get s) l f rfl fun t ht b hb => (hkeep b hb t).trans ht

/-- A loop that visits unit `a` once makes of it what that visit makes. -/
theorem foldl_visits (hnodup : l.Nodup) (ha : a ∈ l) (hkeep : ∀ b ∈ l, b ≠ a → ∀ s, get (f s b) = get s)
    (hvisit : ∀ s, get s = x → get (f s a) = y) {s : σ} (hx : get s = x) : get (l.foldl f s) = y := by
  induction l generalizing s with
  | nil => exact absurd ha List.not_mem_nil
  | cons b l ih =>
    obtain ⟨hout, hnodup⟩ := List.nodup_cons.mp hnodup
    rw [List.foldl_cons]
    by_cases hab : a = b
    · subst hab
      rw [foldl_keeps fun c hc => hkeep c (List.mem_cons_of_mem a hc) fun h => hout (h ▸ hc)]
      exact hvisit s hx
    · refine ih hnodup ((List.mem_cons.mp ha).resolve_left hab) (fun c hc => hkeep c (List.mem_cons_of_mem b hc)) ?_
      rw [hkeep b List.mem_cons_self (Ne.symm hab), hx]

end

end Sys2Proof.Machine
end

section
/-! SUPPORT. What a channel's scrub reads leave of every channel's scrub pointer (R397). -/

namespace Sys2Proof.Machine

/-- Every channel's scrub pointer in `t` is the one in `s`. -/
def SameScrub (s t : State) : Prop := ∀ d, (t.chan d).scrub = (s.chan d).scrub

section
variable {s t u : State}

theorem SameScrub.refl (s : State) : SameScrub s s := fun _ => rfl

theorem SameScrub.trans (h : SameScrub s t) (k : SameScrub t u) : SameScrub s u := fun d => (k d).trans (h d)

theorem SameScrub.of_only {m : Mask} (h : Only m s t) (hm : m.chans = false) : SameScrub s t := fun d => congrArg Chan.scrub (h.chan hm d)

theorem SameScrub.ite {c : Prop} [Decidable c] (h : SameScrub s t) (k : SameScrub s u) : SameScrub s (if c then t else u) := by
  split <;> assumption

theorem SameScrub.foldl {α : Type} {f : State → α → State} (hf : ∀ x a, SameScrub x (f x a)) (l : List α) (s : State) :
    SameScrub s (l.foldl f s) :=
  List.foldlRecOn (motive := fun x => SameScrub s x) l f (.refl s) fun x hx a _ => hx.trans (hf x a)

/-! ### Accesses of a command unit -/

theorem SameScrub.setChan {c : Nat} {x : Chan} (hx : x.scrub = (s.chan c).scrub) : SameScrub s (s.setChan c x) := by
  intro d
  rw [State.chan_setChan]
  split
  · next h => rw [hx, h]
  · rfl

theorem SameScrub.setCunit (s : State) (c u : Nat) (x : CUnit) : SameScrub s (s.setCunit c u x) := by
  refine .setChan ?_
  split <;> rfl

theorem SameScrub.chanIn (s : State) (c u : Nat) (r : ChReq) : SameScrub s (s.chanIn c u r) := by
  unfold State.chanIn
  extract_lets x r bk ws fresh x' mem s₁ ch s₂
  have hunit : SameScrub s s₁ := .setCunit { s with mem := mem } c u x'
  have hidle : SameScrub s₁ s₂ := .setChan rfl
  exact .ite ((hunit.trans hidle).trans (.of_only (s₂.event_within _ _ _).only rfl)) (hunit.trans hidle)

theorem SameScrub.chanEnq (s : State) (c u : Nat) (r : ChReq) : SameScrub s (s.chanEnq c u r) :=
  .ite (.chanIn s c u r) (.setCunit { s with mem := { s.mem with nextSeq := s.mem.nextSeq + 1 } } c u _)

theorem SameScrub.nearAccess (s : State) (n set k : Nat) (wr : Bool) : SameScrub s (s.nearAccess n set k wr) := by
  unfold State.nearAccess
  extract_lets c row
  exact .ite (.refl s) ((SameScrub.ite (.of_only (s.flipNear_within _ _).only rfl) (.refl s)).trans (.chanEnq _ _ _ _))

/-! ### Tag blocks and set records -/

theorem SameScrub.putNearTags (s : State) (n set : Nat) (b : TagBlk) : SameScrub s (s.putNearTags n set b) :=
  .ite (.refl s) (.nearAccess { s with mem := { s.mem with tags := Tab.put {} s.mem.tags set b } } n set 0 true)

theorem SameScrub.putTags (s : State) (n set : Nat) (b : TagBlk) : SameScrub s (s.putTags n set b) := by
  unfold State.putTags
  refine .ite (.refl s) ?_
  split
  · exact .ite (.putNearTags _ _ _ _) (.ite (.of_only (s.modSlice_within _ _).only rfl) (.ite (.refl s)
      ((SameScrub.of_only (s.modSlice_within _ _).only rfl).trans (.putNearTags _ _ _ _))))
  · exact .ite (.refl s) (.putNearTags _ _ _ _)

theorem SameScrub.dropLine (s : State) (n la w : Nat) (coh : Bool) : SameScrub s (s.dropLine n la w coh) := by
  unfold State.dropLine
  extract_lets set e t
  have hput : SameScrub s t := .putTags s n set _
  exact .ite (hput.trans (.of_only (t.event_within _ _ _).only rfl)) hput

theorem SameScrub.recErr (s : State) (typ u : Nat) (inj : Bool) (addr detail : Nat) : SameScrub s (s.recErr typ u inj addr detail) :=
  .of_only (s.recErr_within _ _ _ _ _).only rfl

theorem SameScrub.bucket (s : State) (u : Nat) : SameScrub s (s.bucket u) := .of_only (s.bucket_within u).only rfl

theorem SameScrub.ueData (s : State) (u : Nat) (inj : Bool) (addr detail : Nat) : SameScrub s (s.ueData u inj addr detail) :=
  .of_only (s.ueData_within _ _ _ _).only rfl

theorem SameScrub.putRec (s : State) (n set : Nat) (r : SetRec) : SameScrub s (s.putRec n set r) := by
  unfold State.putRec
  refine .ite (.refl s) ?_
  split
  next e x hx =>
    have hread : SameScrub s x := by
      have hpop := (State.popRec_within (s.nearAccess n set 15 false)).only
      rw [hx] at hpop
      exact .trans (.nearAccess s n set 15 false) (.of_only hpop rfl)
    extract_lets e' u
    split
    next r' y hy =>
      have hfound : SameScrub x y := by
        cases he : e' <;> rw [he] at hy <;> cases hy
        · exact .refl x
        · exact .trans (.bucket x u) (.recErr _ _ _ _ _ _)
        · exact .ueData x _ _ _ _
      exact (hread.trans hfound).trans (.nearAccess { y with mem := { y.mem with recs := Tab.put {} y.mem.recs set r' } } n set 15 true)

/-- A counted error of a data way. -/
theorem SameScrub.ceWay (s : State) (n set w : Nat) : SameScrub s (s.ceWay n set w) := by
  unfold State.ceWay
  extract_lets r c c' s₁ s₂ thr
  have hcount : SameScrub s s₂ := (SameScrub.putRec s n set _).trans (.bucket s₁ _)
  exact .ite hcount (.ite (hcount.trans (.of_only (s₂.modSlice_within _ _).only rfl))
    (.ite (hcount.trans (.of_only (s₂.rec__within _ _ _ _ _).only rfl)) hcount))

/-! ### Scrub reads -/

theorem SameScrub.scrubNear (s : State) (c w : Nat) (e : ArrErr) : SameScrub s (s.scrubNear c w e) := by
  unfold State.scrubNear
  extract_lets u k mended
  split
  next n set _ =>
    split
    · exact .refl s
    · have hmend : SameScrub s mended := .of_only (s.flipMend_within _ _ _).only rfl
      exact hmend.trans (.ite (.trans (.bucket _ _) (.recErr _ _ _ _ _ _)) (.ceWay _ n set k))
    · refine .ite ?_ (.ite ?_ (.ueData s _ _ _ _))
      · extract_lets blk
        have hblk : SameScrub s blk := .ueData s _ _ _ _
        exact hblk.trans (.ite (.refl blk) (.putTags blk n set _))
      · extract_lets ent way
        have hway : SameScrub s way := .ueData s _ _ _ _
        exact hway.trans (.ite (.refl way) (.ite (.putTags way n set _) (.dropLine way n _ k false)))

theorem SameScrub.scrubRead {c : Nat} (hnear : c < 64) (s : State) (w : Nat) (e : ArrErr) : SameScrub s (s.scrubRead c w e) := by
  unfold State.scrubRead
  split
  extract_lets t
  have hissue : SameScrub s t := (SameScrub.chanEnq s c _ _).trans (.of_only (State.event_within _ _ _ _).only rfl)
  rw [if_pos hnear]
  exact hissue.trans (.scrubNear t c w e)

theorem SameScrub.scrubPump {c : Nat} (hnear : c < 64) (s : State) : SameScrub s (s.scrubPump c) := by
  unfold State.scrubPump
  extract_lets ws
  refine SameScrub.trans ?_ (.foldl (fun x a => ?_) ws _)
  · exact .setChan rfl
  split
  split
  exact .ite (.setChan rfl) (.scrubRead hnear x _ _)

end
end Sys2Proof.Machine
end

section
/-! SUPPORT. A scrub step (R397). -/

namespace Sys2Proof.Machine

section
variable {s : State} {c : Nat}

/-- A near channel's scrub pointer advances by one code word, and every other channel's stays. -/
theorem State.scrubOne_scrub (hnear : c < 64) (s : State) (e : ArrErr) (d : Nat) :
    ((s.scrubOne c e).chan d).scrub = if d = c then ((s.chan c).scrub + 1) % 37748736 else (s.chan d).scrub := by
  have hwords : s.chanWords c = 37748736 := if_pos hnear
  unfold State.scrubOne
  extract_lets ch n skip
  have hn : n = 37748736 := hwords
  rw [if_neg (by rw [hn]; decide), State.chan_setChan, ← hn]
  split <;> rfl

theorem State.scrubOnes_scrub_ne {α : Type} {d : Nat} (hnear : c < 64) (hd : d ≠ c) (f : α → ArrErr) (l : List α) (s : State) :
    ((l.foldl (fun s i => s.scrubOne c (f i)) s).chan d).scrub = (s.chan d).scrub := by
  induction l generalizing s with
  | nil => rfl
  | cons i l ih => rw [List.foldl_cons, ih, State.scrubOne_scrub hnear, if_neg hd]

theorem State.scrubOnes_scrub_self {α : Type} (hnear : c < 64) (f : α → ArrErr) (l : List α) (s : State) (hlt : (s.chan c).scrub < 37748736) :
    ((l.foldl (fun s i => s.scrubOne c (f i)) s).chan c).scrub = ((s.chan c).scrub + l.length) % 37748736 := by
  induction l generalizing s with
  | nil => exact (Nat.mod_eq_of_lt hlt).symm
  | cons i l ih =>
    have hone := State.scrubOne_scrub hnear s (f i) c
    rw [if_pos rfl] at hone
    rw [List.foldl_cons, ih _ (by rw [hone]; exact Nat.mod_lt _ (by decide)), hone, Nat.mod_add_mod, List.length_cons, Nat.add_right_comm, Nat.add_assoc]

/-- What a scrub step of `k` reads does to channel `c`, where the codes find `find i` at read `i`. -/
def State.scrubSteps (s : State) (k : Nat) (find : Nat → Nat → ArrErr) (c : Nat) : State :=
  ((List.range k).foldl (fun s i => s.scrubOne c (find c i)) s).scrubPump c

theorem State.scrubSteps_scrub_ne {d : Nat} (hnear : c < 64) (hd : d ≠ c) (s : State) (k : Nat) (find : Nat → Nat → ArrErr) :
    ((s.scrubSteps k find c).chan d).scrub = (s.chan d).scrub := by
  rw [State.scrubSteps, SameScrub.scrubPump hnear _ d, State.scrubOnes_scrub_ne hnear hd (find c)]

theorem State.scrubSteps_scrub_self (hnear : c < 64) (s : State) (k : Nat) (find : Nat → Nat → ArrErr) (hlt : (s.chan c).scrub < 37748736) :
    ((s.scrubSteps k find c).chan c).scrub = ((s.chan c).scrub + k) % 37748736 := by
  rw [State.scrubSteps, SameScrub.scrubPump hnear _ c, State.scrubOnes_scrub_self hnear (find c) _ s hlt, List.length_range]

/-- A scrub step advances the pointer of each channel that it names once. -/
theorem State.scrubAll_scrub {l : List Nat} (hnear : ∀ c ∈ l, c < 64) (hnodup : l.Nodup) (hc : c ∈ l) (s : State) (k : Nat)
    (find : Nat → Nat → ArrErr) (hlt : (s.chan c).scrub < 37748736) :
    ((l.foldl (fun s c => s.scrubSteps k find c) s).chan c).scrub = ((s.chan c).scrub + k) % 37748736 := by
  refine foldl_visits (get := fun x : State => (x.chan c).scrub) hnodup hc (fun d hd hne x => ?_) (fun x hx => ?_) rfl
  · exact State.scrubSteps_scrub_ne (hnear d hd) (Ne.symm hne) x k find
  · rw [← hx] at hlt ⊢
    exact State.scrubSteps_scrub_self (hnear c hc) x k find hlt

/-! ### SCRUB_STEP -/

theorem State.fire_of_fires {i k : Nat} (hpow : s.powered = true) (hfires : s.fires i k = true) : s.fire i k = some (s.markFired i) :=
  if_pos (by rw [hpow, hfires]; rfl)

theorem State.fire_of_not {i k : Nat} (hno : s.fires i k = false) : s.fire i k = none :=
  if_neg (by simp [hno])

theorem State.markFired_only (s : State) (i : Nat) : Only { mtu := true } s (s.markFired i) := rfl

theorem exec_scrubStep_paused {i : Nat} (hpow : s.powered = true) (hfires : s.fires i 3 = true) (hpause : s.inPause = true) (errs : List (Nat × Nat × ArrErr)) :
    exec (.scrubStep i errs) s = .next (s.markFired i) := by
  have h : exec (.scrubStep i errs) s = execScrubStep i errs s := rfl
  rw [h, execScrubStep, State.fire_of_fires hpow hfires]
  exact congrArg Host.Outcome.next (if_pos hpause)

/-- What the codes find at read `i` of channel `c` in a scrub step. -/
def scrubFind (errs : List (Nat × Nat × ArrErr)) (c i : Nat) : ArrErr :=
  match errs.find? fun x => x.1 == c && x.2.1 == i with
  | some x => x.2.2
  | none => .none

/-- The near channels that a firing's scrub step reads. -/
def State.scrubbed (s : State) : List Nat := (List.range s.part.nmcs).filter fun c => s.chanServes c

theorem exec_scrubStep_near {i : Nat} (hpow : s.powered = true) (hfires : s.fires i 3 = true) (hpause : s.inPause = false)
    (hnear : bits (schArg (s.sch i)) 16 1 = 1) (hfar : bits (schArg (s.sch i)) 17 1 = 0) (errs : List (Nat × Nat × ArrErr)) :
    exec (.scrubStep i errs) s = .next ((s.markFired i).noFinds fun x =>
      s.scrubbed.foldl (fun x c => x.scrubSteps (schArg (s.sch i) % 2 ^ 16) (scrubFind errs) c) x) := by
  have h : exec (.scrubStep i errs) s = execScrubStep i errs s := rfl
  have hpause' : (s.markFired i).inPause = false := hpause
  have hsch : (s.markFired i).sch i = s.sch i := rfl
  rw [h, execScrubStep, State.fire_of_fires hpow hfires]
  have hone : ((0 : Nat) == 1) = false := rfl
  simp only [hpause', hsch, hnear, hfar, hone, beq_self_eq_true, Bool.false_eq_true, if_true, if_false, List.append_nil]
  rfl

theorem Part.nmcs_le (p : Part) : p.nmcs ≤ 64 := by cases p <;> decide

theorem State.mem_scrubbed (hc : c < 64) (hserves : s.chanServes c = true) : c ∈ s.scrubbed := by
  refine List.mem_filter.mpr ⟨List.mem_range.mpr ?_, hserves⟩
  simp only [State.chanServes, State.chanRuns, State.chanPresent, Bool.and_eq_true, Bool.or_eq_true, decide_eq_true_eq] at hserves
  omega

theorem scrubStep_near {i : Nat} (hpow : s.powered = true) (hfires : s.fires i 3 = true) (hpause : s.inPause = false) (hc : c < 64)
    (hserves : s.chanServes c = true) (hnear : bits (schArg (s.sch i)) 16 1 = 1) (hfar : bits (schArg (s.sch i)) 17 1 = 0)
    (hlt : (s.chan c).scrub < 37748736) (errs : List (Nat × Nat × ArrErr)) :
    ∃ t, exec (.scrubStep i errs) s = .next t ∧ (t.chan c).scrub = ((s.chan c).scrub + schArg (s.sch i) % 2 ^ 16) % 37748736 := by
  have hall : ∀ d ∈ s.scrubbed, d < 64 := fun d hd => Nat.lt_of_lt_of_le (List.mem_range.mp (List.mem_filter.mp hd).1) (Part.nmcs_le _)
  have hnodup : s.scrubbed.Nodup := List.nodup_range.filter _
  exact ⟨_, exec_scrubStep_near hpow hfires hpause hnear hfar errs,
    State.scrubAll_scrub hall hnodup (State.mem_scrubbed hc hserves) { s.markFired i with finds := {} } _ _ hlt⟩

end

end Sys2Proof.Machine
end

section
/-! SUPPORT. Sweep steps, snapshots, bucket leaks and thermal samples (R226). -/

namespace Sys2Proof.Machine

/-- A firing of the directory sweep with argument `k` at bank `b`. -/
def State.sweepBank (k : Nat) (s : State) (b : Nat) : State :=
  if (s.bank b).sweepDue.length < 64 then s.setBank b { s.bank b with sweepDue := (s.bank b).sweepDue ++ [k] }
  else { s with mtu := { s.mtu with deferred := satAdd 0xFFFF s.mtu.deferred 1 } }

/-- What a snapshot of a unit at MT `mt` and cycle `cyc` holds. -/
def Tly.snapped (t : Tly) (mt cyc : Nat) : Tly :=
  { t with seq := t.seq + 1, snapMt := mt, snapCyc := cyc, snap := (List.range 8).foldl (fun m i => Tab.put 0 m i (Tab.get {} t.cnt i).count) t.snap }

section
variable {s : State} {i : Nat}

/-! ### Directory sweep -/

theorem State.sweepBank_only (k : Nat) (s : State) (b : Nat) : Only { banks := true, mtu := true } s (s.sweepBank k b) := by
  unfold State.sweepBank
  split
  · rw [State.setBank_of_store (x := { s.bank b with sweepDue := (s.bank b).sweepDue ++ [k] }) rfl]
    rfl
  · rfl

theorem State.sweepBank_bank_ne {b d : Nat} (hne : b ≠ d) (k : Nat) (s : State) : (s.sweepBank k b).bank d = s.bank d := by
  unfold State.sweepBank
  split
  · rw [State.bank_setBank, if_neg (Ne.symm hne)]
  · rfl

theorem State.sweepBank_bank {b : Nat} (hroom : (s.bank b).sweepDue.length < 64) (k : Nat) :
    (s.sweepBank k b).bank b = { s.bank b with sweepDue := (s.bank b).sweepDue ++ [k] } := by
  rw [State.sweepBank, if_pos hroom, State.bank_setBank, if_pos rfl]

/-- A sweep leaves one step pending in each bank that has room. -/
theorem State.sweepBanks_bank {b k : Nat} (hb : b < 16) (hroom : (s.bank b).sweepDue.length < 64) :
    ((List.range 16).foldl (State.sweepBank k) s).bank b = { s.bank b with sweepDue := (s.bank b).sweepDue ++ [k] } := by
  refine foldl_visits (get := fun x : State => x.bank b) List.nodup_range (List.mem_range.mpr hb)
    (fun d _ hne x => State.sweepBank_bank_ne hne k x) (fun x hx => ?_) rfl
  have hx : x.bank b = s.bank b := hx
  rw [← hx] at hroom ⊢
  exact State.sweepBank_bank hroom k

theorem exec_directorySweep (hpow : s.powered = true) (hfires : s.fires i 4 = true) (hlevel : 2 ≤ s.boot.level) : exec (.directorySweep i) s =
    .next ((s.markFired i).noFinds fun x => (List.range 16).foldl (State.sweepBank (schArg (s.sch i) % 2 ^ 16)) x) := by
  have h : exec (.directorySweep i) s = execDirectorySweep i s := rfl
  have hlevel' : ¬ (s.markFired i).boot.level < 2 := Nat.not_lt.mpr hlevel
  rw [h, execDirectorySweep, State.fire_of_fires hpow hfires]
  simp only [if_neg hlevel']
  rfl

theorem State.noFinds_bank (s : State) (go : State → State) (b : Nat) : (s.noFinds go).bank b = (go { s with finds := {} }).bank b := rfl

theorem directorySweep_pending (hpow : s.powered = true) (hfires : s.fires i 4 = true) (hlevel : 2 ≤ s.boot.level) :
    ∃ t, exec (.directorySweep i) s = .next t ∧
      (∀ b < 16, (s.bank b).sweepDue.length < 64 → t.bank b = { s.bank b with sweepDue := (s.bank b).sweepDue ++ [schArg (s.sch i) % 2 ^ 16] }) ∧
      Only { banks := true, mtu := true } s t := by
  refine ⟨_, exec_directorySweep hpow hfires hlevel, fun b hb hroom => ?_, ?_⟩
  · have hroom' : (({ s.markFired i with finds := {} } : State).bank b).sweepDue.length < 64 := hroom
    rw [State.noFinds_bank, State.sweepBanks_bank hb hroom']
    rfl
  · have hmarked := (s.markFired_only i).mono (b := { banks := true, mtu := true }) rfl
    exact hmarked.trans (Only.noFinds ((Only.foldl (State.sweepBank_only _) _ _).mono rfl))

/-! ### Snapshots -/

theorem Tly.snapped_snap (t : Tly) (mt cyc : Nat) {k : Nat} (hk : k < 8) : Tab.get 0 (t.snapped mt cyc).snap k = (Tab.get {} t.cnt k).count := by
  exact foldl_visits (f := fun m i => Tab.put 0 m i (Tab.get {} t.cnt i).count) (get := fun m : Tab Nat => Tab.get 0 m k) (x := Tab.get 0 t.snap k) List.nodup_range (List.mem_range.mpr hk)
    (fun _ _ hne m => Tab.get_put_ne _ m _ _ _ (Ne.symm hne)) (fun m _ => Tab.get_put_self _ m k _) rfl

/-- The snapshot of unit `u`. -/
def State.snapUnit (s : State) (u : Nat) : State := s.setTly u ((s.tly u).snapped (s.beat * 1024) s.cycles)

/-- The units that a snapshot with argument `arg` copies. -/
def snapUnits (arg : Nat) : List Nat := (List.range 96).filter fun u => arg.testBit (u / 3)

theorem mem_snapUnits {arg u : Nat} (hu : u < 96) : u ∈ snapUnits arg ↔ arg.testBit (u / 3) = true := by
  simp [snapUnits, hu]

/-- A snapshot copies each named unit once, at the beat and cycle of its firing. -/
theorem State.snapAll_tly {arg u : Nat} (hu : u < 96) (hin : arg.testBit (u / 3) = true) :
    ((snapUnits arg).foldl State.snapUnit s).tly u = (s.tly u).snapped (s.beat * 1024) s.cycles := by
  have hall : (fun x : State => (x.tly u, x.beat, x.cycles)) ((snapUnits arg).foldl State.snapUnit s) =
      ((s.tly u).snapped (s.beat * 1024) s.cycles, s.beat, s.cycles) := by
    refine foldl_visits (get := fun x : State => (x.tly u, x.beat, x.cycles)) (List.nodup_range.filter _) ((mem_snapUnits hu).mpr hin)
      (fun d _ hne x => ?_) (fun x hx => ?_) rfl
    · exact congrArg (·, x.beat, x.cycles) (State.tly_setTly_ne _ _ _ _ (Ne.symm hne))
    · have htly : x.tly u = s.tly u := congrArg Prod.fst hx
      have hbeat : x.beat = s.beat := congrArg (·.2.1) hx
      have hcycles : x.cycles = s.cycles := congrArg (·.2.2) hx
      change ((x.snapUnit u).tly u, x.beat, x.cycles) = _
      rw [State.snapUnit, State.tly_setTly_self, htly, hbeat, hcycles]
  exact congrArg Prod.fst hall

theorem State.snapAll_tly_of_not {arg u : Nat} (hu : u < 96) (hout : arg.testBit (u / 3) = false) :
    ((snapUnits arg).foldl State.snapUnit s).tly u = s.tly u :=
  foldl_keeps (get := fun x : State => x.tly u) (fun _ hd _ => State.tly_setTly_ne _ _ _ _ fun h =>
    Bool.false_ne_true (hout.symm.trans ((mem_snapUnits hu).mp (h ▸ hd)))) s

theorem exec_counterSnapshot (hpow : s.powered = true) (hfires : s.fires i 5 = true) :
    exec (.counterSnapshot i) s = .next ((snapUnits (schArg (s.sch i))).foldl State.snapUnit (s.markFired i)) := by
  have h : exec (.counterSnapshot i) s = execCounterSnapshot i s := rfl
  rw [h, execCounterSnapshot, State.fire_of_fires hpow hfires]
  rfl

theorem counterSnapshot_named (hpow : s.powered = true) (hfires : s.fires i 5 = true) {u k : Nat} (hu : u < 96) (hk : k < 8) :
    ∃ t, exec (.counterSnapshot i) s = .next t ∧ Only { tlys := true, mtu := true } s t ∧
      ((schArg (s.sch i)).testBit (u / 3) = true → Tab.get 0 (t.tly u).snap k = (Tab.get {} (s.tly u).cnt k).count ∧
        (t.tly u).seq = (s.tly u).seq + 1 ∧ (t.tly u).snapMt = s.beat * 1024 ∧ (t.tly u).cnt = (s.tly u).cnt) ∧
      ((schArg (s.sch i)).testBit (u / 3) = false → t.tly u = s.tly u) := by
  have hmarked := (s.markFired_only i).mono (b := { tlys := true, mtu := true }) rfl
  refine ⟨_, exec_counterSnapshot hpow hfires, ?_, fun hin => ?_, fun hout => ?_⟩
  · exact hmarked.trans ((Only.foldl (fun x u => (x.setTly_within u _).only) _ _).mono rfl)
  · rw [State.snapAll_tly (s := s.markFired i) hu hin]
    exact ⟨Tly.snapped_snap _ _ _ hk, rfl, rfl, rfl⟩
  · exact State.snapAll_tly_of_not (s := s.markFired i) hu hout

/-! ### Bucket leaks -/

theorem exec_leakyBucketLeak (hpow : s.powered = true) (hfires : s.fires i 7 = true) : exec (.leakyBucketLeak i) s =
    .next { s.markFired i with ras := { s.ras with leaks := s.ras.leaks ++ [schArg (s.sch i) % 256] } } := by
  have h : exec (.leakyBucketLeak i) s = execLeakyBucketLeak i s := rfl
  rw [h, execLeakyBucketLeak, State.fire_of_fires hpow hfires]
  rfl

/-- The end of a clock with one firing leaks the one bucket in use. -/
theorem State.leakClock_one {u k : Nat} {b : Bucket} (hleaks : s.ras.leaks = [k]) (hbkt : s.ras.bkt = [(u, b)]) :
    Tab.get {} s.leakClock.ras.bkt u = { b with level := b.level - k, told := b.told && s.bktLimit u / 2 < b.level - k } := by
  rw [State.leakClock, hleaks]
  simp only [List.foldl_cons, List.foldl_nil, State.leak, hbkt]
  exact Tab.get_put_self _ _ _ _

theorem leakyBucketLeak_one (hpow : s.powered = true) (hfires : s.fires i 7 = true) {u : Nat} {b : Bucket} (hbkt : s.ras.bkt = [(u, b)]) :
    ∃ t, exec (.leakyBucketLeak i) s = .next t ∧ t.ras.bkt = s.ras.bkt ∧ t.ras.leaks = s.ras.leaks ++ [schArg (s.sch i) % 256] ∧
      (s.ras.leaks = [] → (Tab.get {} t.leakClock.ras.bkt u).level = b.level - schArg (s.sch i) % 256 ∧
        (Tab.get {} t.leakClock.ras.bkt u).ovf = b.ovf) ∧ Only { bkt := true, mtu := true } s t := by
  refine ⟨_, exec_leakyBucketLeak hpow hfires, rfl, rfl, fun hnone => ?_, rfl⟩
  have hleaks : ({ s.markFired i with ras := { s.ras with leaks := s.ras.leaks ++ [schArg (s.sch i) % 256] } } : State).ras.leaks =
      [schArg (s.sch i) % 256] := by rw [hnone]; rfl
  rw [State.leakClock_one hleaks hbkt]
  exact ⟨rfl, rfl⟩

end

end Sys2Proof.Machine
end


section
/-! SUPPORT. A thermal sample (R484, R485). -/

namespace Sys2Proof.Machine

/-- Reading of sensor `k` in a sample. -/
def tempRead (temps : List (BitVec 16)) (k : Nat) : BitVec 16 := (temps[k]?).getD 0

/-- The sensors that are present. -/
def State.sensors (s : State) : List Nat := (List.range 20).filter fun k => hasSensor s.part k

/-- A sensor's record of its reading: the last, and the highest. -/
def sampleSensor (temps : List (BitVec 16)) (tab : Tab Temp) (k : Nat) : Tab Temp :=
  let o := Tab.get {} tab k
  let v := (temps[k]?).getD o.t
  Tab.put {} tab k { valid := true, t := v, max := if !o.valid || o.max.toInt < v.toInt then v else o.max }

/-- The sensors' records after a sample. -/
def State.sampled (s : State) (temps : List (BitVec 16)) : Tab Temp := s.sensors.foldl (sampleSensor temps) s.pcr.temps

/-- Some sensor's reading is at or above the warning level. -/
def State.hot (s : State) (temps : List (BitVec 16)) : Bool := s.sensors.any fun k => 16 * (s.warnLevel : Int) ≤ (tempRead temps k).toInt

/-- Every sensor's reading is below the warning level by more than 3 degrees. -/
def State.cool (s : State) (temps : List (BitVec 16)) : Bool := s.sensors.all fun k => (tempRead temps k).toInt < 16 * (s.warnLevel : Int) - 48

section
variable {s : State} {i k : Nat} {temps : List (BitVec 16)}

theorem State.mem_sensors (s : State) (k : Nat) : k ∈ s.sensors ↔ k < 20 ∧ hasSensor s.part k = true := by
  simp [State.sensors]

theorem getD_tempRead (hlen : temps.length = 20) (hk : k < 20) (v : BitVec 16) : (temps[k]?).getD v = tempRead temps k := by
  have hin : k < temps.length := by omega
  simp [tempRead, hin]

theorem State.sampled_reading (hlen : temps.length = 20) (hk : k ∈ s.sensors) :
    (Tab.get {} (s.sampled temps) k).valid = true ∧ (Tab.get {} (s.sampled temps) k).t = tempRead temps k := by
  have hk20 := ((s.mem_sensors k).mp hk).1
  have hpair : (fun tab : Tab Temp => ((Tab.get {} tab k).valid, (Tab.get {} tab k).t)) (s.sampled temps) = (true, tempRead temps k) := by
    refine foldl_visits (f := sampleSensor temps) (get := fun tab : Tab Temp => ((Tab.get {} tab k).valid, (Tab.get {} tab k).t))
      (List.nodup_range.filter _) hk (fun d _ hne tab => ?_) (fun tab _ => ?_) rfl
    · simp only [sampleSensor, Tab.get_put_ne _ _ _ _ _ (Ne.symm hne)]
    · simp only [sampleSensor, Tab.get_put_self, getD_tempRead hlen hk20]
  exact ⟨congrArg Prod.fst hpair, congrArg Prod.snd hpair⟩

/-- The state with the sample recorded. -/
def State.sampleKept (s : State) (temps : List (BitVec 16)) : State := { s with pcr := { s.pcr with temps := s.sampled temps } }

/-- The warning is set or cleared. -/
def State.warned (s : State) (on : Bool) : State := { s with pcr := { s.pcr with thermWarn := on } }

theorem State.sampled_now (hlen : temps.length = 20) :
    (s.sensors.map fun k => (Tab.get {} (s.sampled temps) k).t.toInt) = s.sensors.map fun k => (tempRead temps k).toInt :=
  List.map_congr_left fun _ hk => by rw [(State.sampled_reading hlen hk).2]

theorem State.hot_iff (s : State) (temps : List (BitVec 16)) :
    0 < ((s.sensors.map fun k => (tempRead temps k).toInt).filter fun v => 16 * (s.warnLevel : Int) ≤ v).length ↔ s.hot temps = true := by
  simp [List.length_pos_iff_exists_mem, State.hot]

theorem State.cool_iff (s : State) (temps : List (BitVec 16)) :
    (s.sensors.map fun k => (tempRead temps k).toInt).all (fun v => v < 16 * (s.warnLevel : Int) - 48) = s.cool temps := by
  simp [State.cool, List.all_map, Function.comp_def]

theorem exec_thermalSample (hpow : s.powered = true) (hfires : s.fires i 8 = true) (hlen : temps.length = 20) : exec (.thermalSample i temps) s =
    .next (if s.hot temps = true then ((((s.markFired i).sampleKept temps).warned true).signalAll 5).event 215 1 1
      else if s.cool temps = true then ((s.markFired i).sampleKept temps).warned false else (s.markFired i).sampleKept temps) := by
  have h : exec (.thermalSample i temps) s = execThermalSample i temps s := rfl
  have hnow := State.sampled_now (s := s) hlen
  have hhot := s.hot_iff temps
  have hcool := s.cool_iff temps
  rw [← hnow] at hhot hcool
  rw [h, execThermalSample, State.fire_of_fires hpow hfires, ← hcool]
  simp only [← hhot]
  rfl

/-- The warning's signal and event. -/
def State.warnTold (s : State) : State := (s.signalAll 5).event 215 1 1

theorem State.warnTold_only (s : State) : Only { irq := true, pba := true, outs := true, events := true } s s.warnTold :=
  ((s.signalAll_within 5).only.mono rfl).trans ((State.event_within _ _ _ _).only.mono rfl)

theorem State.warnTold_irq (s : State) : s.warnTold.irq.getLsbD 5 = true := by
  rw [State.warnTold, (State.event_within _ _ _ _).only.irq rfl]
  exact s.signalAll_cause (by decide)

theorem State.hot_of (hk : k < 20) (hhas : hasSensor s.part k = true) (hhigh : 16 * (s.warnLevel : Int) ≤ (tempRead temps k).toInt) :
    s.hot temps = true :=
  List.any_eq_true.mpr ⟨k, (s.mem_sensors k).mpr ⟨hk, hhas⟩, decide_eq_true hhigh⟩

theorem State.cool_of (hlow : ∀ k < 20, hasSensor s.part k = true → (tempRead temps k).toInt < 16 * (s.warnLevel : Int) - 48) :
    s.hot temps = false ∧ s.cool temps = true := by
  have hall : ∀ k ∈ s.sensors, (tempRead temps k).toInt < 16 * (s.warnLevel : Int) - 48 := fun k hk =>
    hlow k ((s.mem_sensors k).mp hk).1 ((s.mem_sensors k).mp hk).2
  refine ⟨List.any_eq_false.mpr fun k hk => ?_, List.all_eq_true.mpr fun k hk => decide_eq_true (hall k hk)⟩
  have hk := hall k hk
  simp only [decide_eq_true_eq]
  omega

theorem thermalSample_cases (hpow : s.powered = true) (hfires : s.fires i 8 = true) (hlen : temps.length = 20) :
    ∃ t, exec (.thermalSample i temps) s = .next t ∧ t.pcr.temps = s.sampled temps ∧
      (s.hot temps = true → t.pcr.thermWarn = true ∧ t.irq.getLsbD 5 = true) ∧
      (s.hot temps = false → s.cool temps = true → t.pcr.thermWarn = false) ∧
      Only { pcr := true, mtu := true, irq := true, pba := true, outs := true, events := true } s t := by
  have hmarked (on : Bool) : Only { pcr := true, mtu := true, irq := true, pba := true, outs := true, events := true } s
      (((s.markFired i).sampleKept temps).warned on) := rfl
  rw [exec_thermalSample hpow hfires hlen]
  refine ⟨_, rfl, ?_⟩
  cases hhot : s.hot temps with
  | true =>
    have htold := (((s.markFired i).sampleKept temps).warned true).warnTold_only
    have hpcr := htold.pcr rfl
    refine ⟨congrArg Pcr.temps hpcr, fun _ => ⟨congrArg Pcr.thermWarn hpcr, State.warnTold_irq _⟩, fun h => absurd h Bool.noConfusion, ?_⟩
    exact (hmarked true).trans (htold.mono rfl)
  | false =>
    rw [if_neg Bool.false_ne_true]
    refine ⟨?_, fun h => absurd h Bool.false_ne_true, fun _ hcool => ?_, ?_⟩
    · split <;> rfl
    · rw [if_pos hcool]
      rfl
    · split <;> rfl

end

/-- A class whose entry does not fire does nothing. -/
theorem scheduledWork_idle (s : State) (i : Nat) :
    (s.fires i 4 = false → exec (.directorySweep i) s = .next s) ∧ (s.fires i 5 = false → exec (.counterSnapshot i) s = .next s) ∧
    (s.fires i 7 = false → exec (.leakyBucketLeak i) s = .next s) ∧ (∀ ts, s.fires i 8 = false → exec (.thermalSample i ts) s = .next s) ∧
    (∀ es, s.fires i 3 = false → exec (.scrubStep i es) s = .next s) := by
  have hsweep : exec (.directorySweep i) s = execDirectorySweep i s := rfl
  have hsnap : exec (.counterSnapshot i) s = execCounterSnapshot i s := rfl
  have hleak : exec (.leakyBucketLeak i) s = execLeakyBucketLeak i s := rfl
  have htherm (ts) : exec (.thermalSample i ts) s = execThermalSample i ts s := rfl
  have hscrub (es) : exec (.scrubStep i es) s = execScrubStep i es s := rfl
  refine ⟨fun h => ?_, fun h => ?_, fun h => ?_, fun ts h => ?_, fun es h => ?_⟩
  · rw [hsweep, execDirectorySweep, State.fire_of_not h]
  · rw [hsnap, execCounterSnapshot, State.fire_of_not h]
  · rw [hleak, execLeakyBucketLeak, State.fire_of_not h]
  · rw [htherm, execThermalSample, State.fire_of_not h]
  · rw [hscrub, execScrubStep, State.fire_of_not h]

/-- Settles O36, by an equation for each class's firing; the scrub step by the pointer that its reads, whatever they find, leave alone. -/
theorem scheduledWork : Obligations.ScheduledWork := by
  refine ⟨fun s i hpow hfires hlevel => directorySweep_pending hpow hfires hlevel,
    fun s i u k hpow hfires hu hk => counterSnapshot_named hpow hfires hu hk, fun s i u b hpow hfires hbkt => leakyBucketLeak_one hpow hfires hbkt,
    fun s i temps hpow hfires hlen => ?_, fun s i c hpow hfires => ⟨fun hpause => ?_, fun hpause hc hserves hnear hfar hlt => ?_⟩, scheduledWork_idle⟩
  · obtain ⟨t, hexec, htemps, hhot, hcool, honly⟩ := thermalSample_cases hpow hfires hlen
    refine ⟨t, hexec, fun k hk hhas => ?_, fun ⟨k, hk, hhas, hhigh⟩ => hhot (State.hot_of hk hhas hhigh), fun hlow => ?_, honly⟩
    · rw [htemps]
      exact State.sampled_reading hlen ((s.mem_sensors k).mpr ⟨hk, hhas⟩)
    · obtain ⟨hnot, hall⟩ := State.cool_of hlow
      exact hcool hnot hall
  · exact ⟨_, exec_scrubStep_paused hpow hfires hpause [], s.markFired_only i⟩
  · exact scrubStep_near hpow hfires hpause hc hserves hnear hfar hlt []

end Sys2Proof.Machine
end
